-- ==== Sys2Proof/Word.lean ====
section
/-!
DEFINITION. The two word types of the device: the byte of a memory or a frame and the 32-bit register word
(R438: registers are 32 bits wide).
-/
namespace Sys2Proof

/-- One byte of host memory, of a frame or of a descriptor. -/
abbrev Byte := BitVec 8

/-- One 32-bit register (R438). -/
abbrev Word := BitVec 32

end Sys2Proof
end

