-- ==== Sys2Proof/Syntax.lean ====
section
/-!
DEFINITION. The commands the device takes, one constructor per row of the table of operations and events
(spec/opcode_table.json). The operands carry what comes from outside the device: the unit concerned, register
values and their master, received frames, measured values and pin levels.
-/
namespace Sys2Proof

/-- What an Ethernet or T1S receiver reports. -/
inductive EthRx where
  /-- A frame with a good FCS; a preempted frame reassembled with a good FCS (R247). -/
  | whole | reassembled
  /-- A frame with a good FCS whose held output meets an uncorrectable error, on a MACsec-protected port (R328). -/
  | heldError
  /-- A bad FCS, a code error or a truncated end (R76). -/
  | badFcs
  /-- A reassembly error; an unknown SMD (Table ETH-8). -/
  | asmError | badSmd
  /-- The partner enters or leaves low-power idle. -/
  | lpi (on : Bool)
  deriving DecidableEq, Repr

/-- A CAN frame as a controller receives it: its format code (Table PROM-4), identifier, flags and data. -/
structure CanFrame where
  form : Nat
  id : Nat
  brs : Bool
  esi : Bool
  remote : Bool
  sec : Bool
  sdt : Nat
  vcid : Nat
  af : Nat
  data : List Byte
  deriving DecidableEq, Repr

/-- The field of a CAN frame that an error fell in. -/
inductive CanField where
  | arbitration | control | data | crc | ack | eof
  deriving DecidableEq, Repr

/-- A field ingress queue to read, and whether a word of the record fails parity at the read (R101). -/
structure QueueRead where
  queue : Fin 36
  bad : Bool
  deriving DecidableEq, Repr

/-- A memory request of a master: the host's may lie in BAR2 and may be other than 1 DW with all four byte enables set (R438); its
offset in its BAR. -/
structure BusReq where
  bar2 : Bool
  addr : Nat
  whole : Bool
  deriving DecidableEq, Repr

/-- How long a frame is from DA to FCS, and how many ns ago its SFD came (R118). -/
structure CtLen where
  total : Nat
  age : Nat
  deriving DecidableEq, Repr

/-- Falling edges on RXD, in minimum time quanta after the measured edge on TXD (R194). -/
structure CanEdges where
  edges : List Nat
  deriving DecidableEq, Repr

/-- What follows a CAN error: whether it is a special case of the ISO counting rules, the further counts of 8 that a
dominant error flag brings (R205), and the edges seen on RXD at the measured edge (R194). -/
structure CanTail where
  special : Bool
  more : Nat
  delay : CanEdges
  deriving DecidableEq, Repr

/-- An error that a LIN controller reads back in what it sends (R223): in its header, or in byte `n` of its response. -/
inductive LinCut where
  | header | byte (n : Nat)
  deriving DecidableEq, Repr

/-- The checksum byte of a received LIN response (R215). -/
structure LinChk where
  sum : Byte
  deriving DecidableEq, Repr

/-- A frame that a transceiver in SELECTIVE sees (R374): whether it has an error, its rate code, and its format. -/
structure WakeFrame where
  bad : Bool
  rate : Fin 4
  fd : Bool
  ext : Bool
  id : Nat
  dlc : Nat
  data : List Byte
  deriving DecidableEq, Repr

/-- An edge at a WAKE_IN pin: the level it goes to, and ms for which it holds that level (R373). -/
structure WakePin where
  pin : Fin 4
  high : Bool
  ms : Nat
  deriving DecidableEq, Repr

/-- What goes wrong with a LIN frame while it is sent: a parity failure of the entry read (R93), an error read back (R223). -/
structure LinSend where
  bad : Bool
  err : Option LinCut
  deriving DecidableEq, Repr

/-- A received LIN header: ns for which its break was dominant, and its measured rate (R221). -/
structure LinBreak where
  brk : Nat
  rate : Nat
  deriving DecidableEq, Repr

/-- The errors of Table CAN-9 beside a missing response. -/
inductive LinErr where
  | header | framing | checksum | bit
  deriving DecidableEq, Repr

/-- The commands of the device, one per row of the table of operations and events; those with operands come first. -/
inductive Instr where
  /-- QUARANTINE_END: no frame of a withdrawn contract is left (R45) -/
  | quarantineEnd (contract : Fin 4096)
  /-- LEDGER_HOLD_EXPIRY: HOLD_MS have passed since the last break of a port's ledger (R69) -/
  | ledgerHoldExpiry (port : Fin 48)
  /-- ETH_FRAME_RX: a frame (from the DA to the byte before the FCS) ends on a port, `age` ns after its SFD; on T1S, the sender's node and the frame's number in its burst (R73) -/
  | ethFrameRx (port : Fin 20) (kind : EthRx) (frame : List Byte) (age : Nat) (plca : Option (Nat × Nat))
  /-- CUT_THROUGH_START: the first bytes of a frame have arrived; `total`: its length, and the time since its SFD (R118) -/
  | cutThroughStart (port : Fin 12) (frame : List Byte) (total : CtLen)
  /-- FIELD_QUEUE_READ: the pipeline reads the next record of a field ingress queue; a word of it may fail parity (R97, R101) -/
  | fieldQueueRead (queue : QueueRead)
  /-- PFC_FRAME_SEND: a waiting PFC frame is sent (R104) -/
  | pfcFrameSend (port : Fin 12)
  /-- PFC_REFRESH: the repeat of a PFC frame falls due (R104) -/
  | pfcRefresh (port : Fin 12)
  /-- PAUSE_EXPIRY: a received pause runs out (R106) -/
  | pauseExpiry (port : Fin 12) (priority : Fin 8)
  /-- ETH_EGRESS_SELECT: a selection point; a frame that starts has its SFD `toSfd` ns later; `bad`: the first read of the head fails parity (R109, R93) -/
  | ethEgressSelect (port : Fin 12) (toSfd : Nat) (bad : Bool)
  /-- ETH_TX_COMPLETE: the transmission ends, or with `fragment` a fragment of so many bytes of it; `bad`: its last read failed parity (R109, R93) -/
  | ethTxComplete (port : Fin 20) (fragment : Option Nat) (bad : Bool)
  /-- T1S_TX_OPPORTUNITY: a transmit opportunity of TS`port`, or the `burst`-th further frame of one (R112) -/
  | t1sTxOpportunity (port : Fin 8) (burst toSfd : Nat) (bad : Bool)
  /-- XL_CT_PUBLISH: data bytes of a CAN XL frame of `dlen` bytes have arrived, `age` ns after its SOF (R120) -/
  | xlCtPublish (ctl : Fin 20) (frame : CanFrame) (dlen age : Nat)
  /-- XL_CT_COPY_START: the Snitos XL copy of the frame being published is tested for its start (R120) -/
  | xlCtCopyStart (ctl : Fin 20) (egress : Fin 12)
  /-- CB_RECOVERY_RESET: no frame of a contract has passed for RESET_MS (R123) -/
  | cbRecoveryReset (contract : Fin 4096)
  /-- CB_LATENT_DETECT: a member of a REDUND = 2 contract may have been silent for LATENT_MS (R125) -/
  | cbLatentDetect (contract : Fin 4096)
  /-- COUNTER_CLEAR: a write of `CNT_CLR` with GO = 1 (R127) -/
  | counterClear (master : Fin 4) (port : Fin 64) (all : Bool)
  /-- TBL_WRITE: the running WRITE goes on by up to `entries` entries; with BATCH all of them at once (R137) -/
  | tblWrite (entries : Nat)
  /-- TBL_READ: the running READ goes on by up to `entries` entries (R139) -/
  | tblRead (entries : Nat)
  /-- FDB_FLUSH: the running FDB_FLUSH visits up to `sets` further sets (R141) -/
  | fdbFlush (sets : Nat)
  /-- FDB_OP_RING60_ROOM: a waiting FDB operation tests ring 60 again (R142) -/
  | fdbOpRing60Room (sets : Nat)
  /-- TBL_WRITE_RESUME: a waiting WRITE goes on by up to `entries` entries (R138) -/
  | tblWriteResume (entries : Nat)
  /-- BURNISHER_VISIT: the sweeper of a pipeline visits its next set (R148) -/
  | burnisherVisit (pipe : Fin 2)
  /-- ASSAY_COMPARE: Assay compares up to `units` further entries or groups (R153) -/
  | assayCompare (units : Nat)
  /-- TBL_WINDOW_READ: a write of `WIN_CTRL` with GO = 1 (R156) -/
  | tblWindowRead (master : Fin 4) (table : Fin 16) (pipeB : Bool) (chunk : Fin 64)
  /-- MONITOR_TIMEOUT: MON_TIMEOUT_MS pass without a refresh (R172) -/
  | monitorTimeout (monitor : Fin 4096)
  /-- CYCLIC_RELEASE: the next cyclic instant of an image is reached (R174) -/
  | cyclicRelease (image : Fin 4352)
  /-- TRIGGERED_RELEASE: the minimum gap of a waiting trigger ends (R174) -/
  | triggeredRelease (image : Fin 4352)
  /-- CONTAINER_HOLD_EXPIRY: the hold time of an open container ends (R180) -/
  | containerHoldExpiry (container : Fin 64)
  /-- STE_MEM_READ: a write of `STE.MEM_CMD` with GO = 1 and WRITE = 0 (R188) -/
  | steMemRead (master : Fin 4)
  /-- STE_MEM_WRITE: a write of `STE.MEM_CMD` with GO = 1 and WRITE = 1 (R188) -/
  | steMemWrite (master : Fin 4)
  /-- CAN_LEAVE_INIT: a write of `CTRL` with INIT = 0, its other fields as they are (R197) -/
  | canLeaveInit (master : Fin 4) (ctl : Fin 20)
  /-- CAN_ENTER_INIT: a write of `CTRL` with INIT = 1 (R206) -/
  | canEnterInit (master : Fin 4) (ctl : Fin 20)
  /-- CAN_BUS_INTEGRATED: 11 consecutive recessive bits after INIT or a protocol exception (R191, R200) -/
  | canBusIntegrated (ctl : Fin 20)
  /-- RATE_DET_START: a write of `CTRL` with RATE_DET = 1 (R195) -/
  | rateDetStart (master : Fin 4) (ctl : Fin 20)
  /-- RATE_DET_DWELL_EXPIRY: DWELL_MS passes without a confirmation (R195) -/
  | rateDetDwellExpiry (ctl : Fin 20)
  /-- CAN_FRAME_VALID: another node's frame is valid, `age` ns after its SOF; `bad`: a word of its record will fail parity (R199, R101) -/
  | canFrameValid (ctl : Fin 20) (frame : CanFrame) (age : Nat) (bad : Bool)
  /-- CAN_PROTOCOL_EXCEPTION: a recessive reserved bit or a format not enabled (R200) -/
  | canProtocolException (ctl : Fin 20)
  /-- CAN_ARBITRATION_ATTEMPT: the bus is idle: the SOF of an attempt; `bad`: the read of the entry fails parity (R202, R93) -/
  | canArbitrationAttempt (ctl : Fin 20) (bad : Bool)
  /-- CAN_TX_COMPLETE: the device's frame completes without error; the edges on RXD that give its transmitter delay (R202, R194) -/
  | canTxComplete (ctl : Fin 20) (delay : CanEdges)
  /-- CAN_BUS_ERROR: an error (Table CAN-5 code) as transmitter or receiver, at a bit counted from SOF; `tail`: what follows it (R205, R208, R194) -/
  | canBusError (ctl : Fin 20) (tx : Bool) (code : Fin 9) (field : CanField) (bitPos : Nat) (dataPhase : Bool) (tail : CanTail)
  /-- CAN_RECOVER: a write of `CTRL` with RECOVER = 1 (R206) -/
  | canRecover (master : Fin 4) (ctl : Fin 20)
  /-- CAN_BUSOFF_RECOVERED: the 128th occurrence of 11 recessive bits (R206) -/
  | canBusoffRecovered (ctl : Fin 20)
  /-- SUSPEND_RELEASE_HOST: a write of 1 to a tracker's SUSPENDED bit (R211) -/
  | suspendReleaseHost (master : Fin 4) (ctl : Fin 20) (tracker : Fin 8)
  /-- SUSPEND_RELEASE_TIMEOUT: RELEASE_S seconds since the suspension (R211) -/
  | suspendReleaseTimeout (ctl : Fin 20) (tracker : Fin 8)
  /-- LIN_SCHEDULE_START: a write of `LIN.CTRL` with RUN = 1 (R218) -/
  | linScheduleStart (master : Fin 4) (port : Fin 8)
  /-- LIN_SCHEDULE_STOP: a write of `LIN.CTRL` with RUN = 0 (R218) -/
  | linScheduleStop (master : Fin 4) (port : Fin 8)
  /-- LIN_SLOT_START: the next slot begins; `busy`: the bus is not recessive; `bad`: what goes wrong while it sends (R216, R219, R223) -/
  | linSlotStart (port : Fin 8) (busy : Bool) (bad : LinSend)
  /-- LIN_HEADER_RX: a responder receives a header of a measured break and `rate`, `age` ns after the falling edge of that break; `bad`: what goes wrong while it answers (R220, R221, R223) -/
  | linHeaderRx (port : Fin 8) (id : Fin 64) (rate : LinBreak) (age : Nat) (bad : LinSend)
  /-- LIN_RESPONSE_VALID: the bytes of another node's response and the byte after them; its break began `age` ns ago (R222) -/
  | linResponseValid (port : Fin 8) (id : Fin 64) (data : List Byte) (classic : LinChk) (age : Nat) (bad : Bool)
  /-- LIN_NO_RESPONSE: no response starts within T_Response_Maximum (R223) -/
  | linNoResponse (port : Fin 8)
  /-- LIN_ERROR: a header, framing, checksum or bit error (R223) -/
  | linError (port : Fin 8) (err : LinErr)
  /-- LIN_MEM_READ: a write of `LIN.MEM_CMD` with GO = 1 and WRITE = 0 (R229) -/
  | linMemRead (master : Fin 4) (port : Fin 8)
  /-- LIN_MEM_WRITE: a write of `LIN.MEM_CMD` with GO = 1 and WRITE = 1 (R229) -/
  | linMemWrite (master : Fin 4) (port : Fin 8)
  /-- XCVR_CAN_MODE_WRITE: a write of `XCVR_CAN_n.MODE` (R225) -/
  | xcvrCanModeWrite (master : Fin 4) (ctl : Fin 12) (mode : Fin 8)
  /-- XCVR_LIN_MODE_WRITE: a write of `XCVR_LIN_n` (R225) -/
  | xcvrLinModeWrite (master : Fin 4) (port : Fin 8) (mode : Fin 4) (pullup : Bool)
  /-- XCVR_MODE_APPLIED: the transceiver of a CAN or LIN port reaches its requested mode (R225) -/
  | xcvrModeApplied (port : Fin 48)
  /-- TXD_DOMINANT_TIMEOUT: a driver of CN0 to CN11 or LN0 to LN7 is switched off, or on again at the next recessive TXD (R226) -/
  | txdDominantTimeout (port : Fin 48) (off : Bool)
  /-- LINK_UP: the PHY reports link at a rate code (R233) -/
  | linkUp (port : Fin 20) (code : Fin 8)
  /-- LINK_DOWN: a link condition of a port fails (R234) -/
  | linkDown (port : Fin 20)
  /-- GATE_EVENT: the next gate event or cycle boundary of a port's operational list (R242) -/
  | gateEvent (port : Fin 12)
  /-- GATE_SWITCHOVER: the change time of a pending gate list is reached (R246) -/
  | gateSwitchover (port : Fin 12)
  /-- PREEMPT_VERIFY_SUCCESS: the partner answers a verify frame (R248) -/
  | preemptVerifySuccess (port : Fin 12)
  /-- PREEMPT_VERIFY_TIMEOUT: VERIFY_MS pass without an answer (R248) -/
  | preemptVerifyTimeout (port : Fin 12)
  /-- LLDP_TX: the LLDPDU interval of a port ends (R251) -/
  | lldpTx (port : Fin 12)
  /-- PARTNER_TTL_EXPIRY: the partner's LLDP time to live ends (R252) -/
  | partnerTtlExpiry (port : Fin 12)
  /-- STEP_WINDOW_END: a utilisation window ends (R253) -/
  | stepWindowEnd (port : Fin 12)
  /-- STEP_UP_TRIGGER: one of the triggers of R254 may hold -/
  | stepUpTrigger (port : Fin 12)
  /-- STEP_CHECK: Anvil evaluates the step-down of a port in CHECK (R61) -/
  | stepCheck (port : Fin 12)
  /-- STEP_ANSWER_TIMEOUT: ANSWER_MS pass without an answer (R255) -/
  | stepAnswerTimeout (port : Fin 12)
  /-- STEP_HOLDOFF_END: the holdoff ends (R255) -/
  | stepHoldoffEnd (port : Fin 12)
  /-- RETRAIN_TIMEOUT: RETRAIN_MS pass without a link (R258) -/
  | retrainTimeout (port : Fin 12)
  /-- LPI_ENTER: the egress has been idle for IDLE_US (R260) -/
  | lpiEnter (port : Fin 12)
  /-- BEACON_LOST: TS`port` has received no BEACON for 4,000 bit times (R263) -/
  | beaconLost (port : Fin 8)
  /-- BEACON_REGAINED: the first valid BEACON after a loss (R263) -/
  | beaconRegained (port : Fin 8)
  /-- PLCA_COLLISION: a collision while PLCA is active (R264) -/
  | plcaCollision (port : Fin 8)
  /-- MDIO_C22_WRITE: a write of `MDIO_CMD` with GO = 1 and OP 0 (R265) -/
  | mdioC22Write (master : Fin 4) (bus : Fin 2) (phy dev : Fin 32)
  /-- MDIO_C22_READ: a write of `MDIO_CMD` with GO = 1 and OP 1 (R265) -/
  | mdioC22Read (master : Fin 4) (bus : Fin 2) (phy dev : Fin 32)
  /-- MDIO_C45_WRITE: a write of `MDIO_CMD` with GO = 1 and OP 2 (R265) -/
  | mdioC45Write (master : Fin 4) (bus : Fin 2) (phy dev : Fin 32)
  /-- MDIO_C45_READ: a write of `MDIO_CMD` with GO = 1 and OP 3 (R265) -/
  | mdioC45Read (master : Fin 4) (bus : Fin 2) (phy dev : Fin 32)
  /-- MDIO_COMPLETE: the MDIO transaction ends; `answer`: what the PHY answered to a read (R265) -/
  | mdioComplete (answer : Option (Fin 65536))
  /-- RECIPE_MEM_READ: a write of `ETHC.MEM_CMD` with GO = 1 and WRITE = 0 (R266) -/
  | recipeMemRead (master : Fin 4)
  /-- RECIPE_MEM_WRITE: a write of `ETHC.MEM_CMD` with GO = 1 and WRITE = 1 (R266) -/
  | recipeMemWrite (master : Fin 4)
  /-- TIME_INCR_WRITE: writes of `TIME.INCR` LO and HI (R269) -/
  | timeIncrWrite (master : Fin 4) (value : Nat)
  /-- TIME_SLEW_START: a write of `SLEW_CTRL` with GO = 1 (R272) -/
  | timeSlewStart (master : Fin 4) (ppm : Fin 1024)
  /-- TIME_STEP: a write of `STEP_CTRL` with GO = 1 (R273) -/
  | timeStep (master : Fin 4) (rel : Bool)
  /-- AON_SNAPSHOT: a write of 1 to `AON_SNAP.GO` (R279) -/
  | aonSnapshot (master : Fin 4)
  /-- GPTP_ENABLE: a write of `TIME.CTRL.EN` (R280) -/
  | gptpEnable (master : Fin 4) (en : Bool)
  /-- GPTP_SYNC_TX: a grandmaster's Sync falls due on a master port (R281) -/
  | gptpSyncTx (port : Fin 12)
  /-- PDELAY_REQ_TX: a Pdelay_Req falls due (R281) -/
  | pdelayReqTx (port : Fin 12)
  /-- PDELAY_RESP_RX: the awaited Pdelay_Resp of a port, with its follow-up, is served (R281) -/
  | pdelayRespRx (port : Fin 12)
  /-- PPS_IN_EDGE: an edge of PPS_IN; `held`: its level held for 1 µs (R289) -/
  | ppsInEdge (falling held : Bool)
  /-- XPT_CF_SEND: STmin after its last frame, the next CF of a connection enters the heap (R298) -/
  | xptCfSend (conn : Fin 1024)
  /-- XPT_FRAME_REOFFER: a frame of a session (2 × connection, + 1 for its receive session) is offered again (R299) -/
  | xptFrameReoffer (session : Fin 2048)
  /-- N_AS_EXPIRY: N_As, or N_Ar of a receive session, expires (R306) -/
  | nAsExpiry (session : Fin 2048)
  /-- N_BS_EXPIRY: N_Bs of a connection expires (R306) -/
  | nBsExpiry (conn : Fin 1024)
  /-- N_CR_EXPIRY: N_Cr of a connection expires (R306) -/
  | nCrExpiry (conn : Fin 1024)
  /-- SEQUENCER_PAUSE: MGMT starts to load a sequencer's microcode (R309) -/
  | sequencerPause (seq : Fin 8)
  /-- SEQUENCER_RESUME: the load has ended (R309) -/
  | sequencerResume (seq : Fin 8)
  /-- XPT_MEM_READ: a write of `XPT.MEM_CMD` with GO = 1 and WRITE = 0 (R294) -/
  | xptMemRead (master : Fin 4)
  /-- XPT_MEM_WRITE: a write of `XPT.MEM_CMD` with GO = 1 and WRITE = 1 (R294) -/
  | xptMemWrite (master : Fin 4)
  /-- CIPHER: a running CIPHER job processes further input bytes (R325) -/
  | cipher (job : Fin 4) (bytes : Nat)
  /-- HASH: a running HASH job reads further input bytes (R322) -/
  | hash (job : Fin 4) (bytes : Nat)
  /-- HMAC: a running HMAC job reads further input bytes (R322) -/
  | hmac (job : Fin 4) (bytes : Nat)
  /-- ECDSA_VERIFY: a running ECDSA_VERIFY job hashes further input bytes (R325) -/
  | ecdsaVerify (job : Fin 4) (bytes : Nat)
  /-- RANDOM: a running RANDOM job writes further output bytes (R338) -/
  | random (job : Fin 4) (bytes : Nat)
  /-- INSTALL_SAK: a running INSTALL_SAK unwraps its SAK (R337) -/
  | installSak (job : Fin 4)
  /-- CRY_JOB_COMPLETE: a job whose work is done ends; `ue`: its held output has an uncorrectable error (R325, R328) -/
  | cryJobComplete (job : Fin 4) (ue : Bool)
  /-- KEY_DERIVATION_DONE: the derivation of a slot's key has ended (R318) -/
  | keyDerivationDone (slot : Fin 256)
  /-- CACHE_FLUSH: a master writes 1 to `CACHE_CTRL.FLUSH` (R319) -/
  | cacheFlush (master : Fin 4)
  /-- CRY_MEM_READ: a master writes `CRY.MEM_CMD` with GO and WRITE = 0 (R331) -/
  | cryMemRead (master : Fin 4)
  /-- CRY_MEM_WRITE: a master writes `CRY.MEM_CMD` with GO and WRITE = 1 (R331) -/
  | cryMemWrite (master : Fin 4)
  /-- MACSEC_TX_SELECT: a master writes `MACSEC_TX_p` (R336) -/
  | macsecTxSelect (master : Fin 4) (port : Fin 12) (chan : Fin 1024) (valid : Bool)
  /-- PROV_NEW_NONCE: a master writes 1 to `PROV_CTRL.NEW_NONCE` (R355) -/
  | provNewNonce (master : Fin 4)
  /-- MEASURE_EXTEND: a master writes 1 to `EXT_CTRL.EXTEND` (R346) -/
  | measureExtend (master : Fin 4)
  /-- MEASURE_COMMIT: a master writes 1 to `EXT_CTRL.COMMIT` (R347) -/
  | measureCommit (master : Fin 4)
  /-- VAULT_POWER_UP: the island powers up, with or without a valid integrity marker (R341) -/
  | vaultPowerUp (marker : Bool)
  /-- TAMPER_INPUT: a TMP_IN level has been qualified (R357) -/
  | tamperInput (pin : Fin 2)
  /-- ISLAND_MONITOR_FAULT: rail, vault clock or temperature has been out of range for 1 µs (R357) -/
  | islandMonitorFault (monitor : Fin 3)
  /-- DEBUG_NEW_NONCE: a master writes 1 to `DBG_CTRL.NEW_NONCE` (R360) -/
  | debugNewNonce (master : Fin 4)
  /-- DEBUG_UNLOCK: a master writes 1 to `DBG_CTRL.GO` with SLOT (R360) -/
  | debugUnlock (master : Fin 4) (slot : Fin 256)
  /-- DEBUG_RELOCK: a master writes 1 to `DBG_CTRL.RELOCK` (R360) -/
  | debugRelock (master : Fin 4)
  /-- SEG_REQ_WRITE: a write of `SEG_CTRL_p.REQ` (R366) -/
  | segReqWrite (master : Fin 4) (port : Fin 48) (req : Bool)
  /-- MIN_AWAKE_EXPIRY: MIN_AWAKE_MS has passed since a segment became awake (R366) -/
  | minAwakeExpiry (port : Fin 48)
  /-- READY_TIMER_EXPIRY: READY_MS has passed in READY_SLEEP (R366) -/
  | readyTimerExpiry (port : Fin 48)
  /-- PREPARE_END: PREPARE_MS has passed in PREPARE (R367) -/
  | prepareEnd (port : Fin 48)
  /-- COMMIT_DONE: the power die reports COMMIT_DONE for a segment (R367) -/
  | commitDone (port : Fin 48)
  /-- NMM_TX: NM_CYCLE_MS has passed since the latest NMM of a CAN segment (R370) -/
  | nmmTx (port : Fin 48)
  /-- BUS_WAKE: a wake detector recognises a source of Table NM-5 on a segment (R373) -/
  | busWake (port : Fin 48) (source : Fin 9)
  /-- WAKE_IN_EDGE: a WAKE_IN pin changes its level (R373) -/
  | wakeInEdge (pin : WakePin)
  /-- WAKE_CONFIRM_TIMEOUT: T_CONFIRM_MS has passed since a wake (R376) -/
  | wakeConfirmTimeout (port : Fin 48)
  /-- SOURCE_MASK_END: MASK_S seconds have passed since a source was masked (R376) -/
  | sourceMaskEnd (port : Fin 48) (source : Fin 9)
  /-- SEG_UNMASK: a write of 1 to `SEG_CTRL_p.UNMASK` (R376) -/
  | segUnmask (master : Fin 4) (port : Fin 48)
  /-- LIN_HEADER_TIMEOUT: a LIN responder has seen no header for 4 s (R368) -/
  | linHeaderTimeout (port : Fin 8)
  /-- LIN_WAKE_PULSE_REPEAT: 200 ms have passed since a responder's wake pulse (R368) -/
  | linWakePulseRepeat (port : Fin 8)
  /-- KEEP_AWAKE_LIMIT: KA_LIMIT_S has passed since a segment was last asleep (R377) -/
  | keepAwakeLimit (port : Fin 48)
  /-- ENTER_STANDBY: a write of 1 to `NM.PWR_CTRL.STANDBY` (R379) -/
  | enterStandby (master : Fin 4)
  /-- LOAD_CMD_REG: a write of `CH_CMD_i` with the written word (R385) -/
  | loadCmdReg (master : Fin 4) (ch : Fin 24) (value : Word)
  /-- INRUSH_WINDOW_END: the inrush window of a channel closes (R388) -/
  | inrushWindowEnd (ch : Fin 24)
  /-- CURRENT_LIMIT: an HS channel draws `current` (10 mA units), at or above its limit (R390) -/
  | currentLimit (ch : Fin 24) (current : Nat)
  /-- GD_SHORT_TRIP: a GD channel's shunt current (10 mA units) and drain-source voltage (mV) (R390) -/
  | gdShortTrip (ch : Fin 24) (current vds : Nat)
  /-- GD_OVERCURRENT_TRIP: a GD channel's current (10 mA units) held for 100 µs (R390) -/
  | gdOvercurrentTrip (ch : Fin 24) (current : Nat)
  /-- WIRE_MODEL_UPDATE: the 1 ms update of a wire model: mean of I² over the last ms in (10 mA)², and the current in 10 mA units (R391) -/
  | wireModelUpdate (ch : Fin 24) (i2 current : Nat)
  /-- THERMAL_TRIP: a channel's junction temperature (°C) and ΔT (K) (R392) -/
  | thermalTrip (ch : Fin 24) (tj : Int) (dt : Nat)
  /-- CHANNEL_RETRY: a channel in FAULT_OFF is due to retry, at these temperatures (R393) -/
  | channelRetry (ch : Fin 24) (tj : Int) (dt : Nat)
  /-- RETRY_COUNT_RESET: a channel has been on for 1 s without a trip (R393) -/
  | retryCountReset (ch : Fin 24)
  /-- OPEN_LOAD_DETECT: a channel's current (10 mA units) held for 10 ms (R394) -/
  | openLoadDetect (ch : Fin 24) (current : Nat)
  /-- GROUP_SHED: the currents (10 mA units) of a supply group's four channels, held for GROUP_FILT_US (R395) -/
  | groupShed (group : Fin 3) (c0 c1 c2 c3 : Nat)
  /-- SUPPLY_CONDITION_CHANGE: VBAT (mV) and VHV (10 mV units) as measured now (R396) -/
  | supplyConditionChange (vbat vhv : Nat)
  /-- WD_FEED: a write of `WD_FEED` by a master (R398) -/
  | wdFeed (master : Fin 4) (key : Byte)
  /-- WD_RELEASE: a write of `WD_CTRL.RELEASE` (R400) -/
  | wdRelease (master : Fin 4)
  /-- LOAD_LOCK: a write of `LOCK.LOCK` (R401) -/
  | loadLock (master : Fin 4)
  /-- LH_EN_CHANGE: LH_EN has held a new level for 100 µs (R402) -/
  | lhEnChange (level : Bool)
  /-- LH_IN_CHANGE: an LH_IN pin has held a new level for 100 µs (R402) -/
  | lhInChange (pin : Fin 4) (level : Bool)
  /-- DOORBELL_WRITE: a write of BAR2 at a ring's doorbell, after the host's stores to its memory (R412) -/
  | doorbellWrite (ring : Fin 64) (value : Nat) (stores : List (Nat × Byte))
  /-- TX_DESC_FETCH: the device fetches a ring's next TX descriptor (R414) -/
  | txDescFetch (ring : Fin 32)
  /-- HOST_TX_FRAME: the device reads the frame of a ring's next fetched descriptor (R80) -/
  | hostTxFrame (ring : Fin 32)
  /-- STATUS_PROGRESS_WRITE: the status word of a running operation is written again (R425) -/
  | statusProgressWrite (ring : Fin 64) (idx : Nat)
  /-- IRQ_MODERATION_TIMER: MOD_US has passed since a ring's first unsignalled completion (R428) -/
  | irqModerationTimer (ring : Fin 64)
  /-- MSIX_UNMASK: the host writes a vector's mask bit in the MSI-X table (R428) -/
  | msixUnmask (vector : Fin 64) (mask : Bool)
  /-- DMA_READ_ERROR: a DMA read fails: of a descriptor (0), a frame (1), an operation's memory (2), Assay's shadow (3) (R430) -/
  | dmaReadError (kind : Fin 4) (ring : Fin 64) (idx addr : Nat)
  /-- HOST_RESET: PERST_N, a hot reset, a function-level reset or the link going down (R431) -/
  | hostReset (linkDown : Bool)
  /-- RING_ENABLE: a write of EN = 1 to `RING_CFG_r` (R434) -/
  | ringEnable (master : Fin 4) (ring : Fin 64)
  /-- RING_DISABLE: a write of EN = 0 to `RING_CFG_r` (R434) -/
  | ringDisable (master : Fin 4) (ring : Fin 64)
  /-- SPI_FRAME: a safety-port frame of `clocks` clocks; `busy`: the access of the frame before has not finished (R433) -/
  | spiFrame (mosi : List Byte) (clocks : Nat) (busy : Bool)
  /-- REGISTER_WRITE: a master writes a register, or the host any address of BAR0 or BAR2 (R438, R440) -/
  | registerWrite (master : Fin 4) (req : BusReq) (value : Nat)
  /-- LO_WORD_READ: a master reads a register, a LO word among others, or the host any address of BAR0 or BAR2 (R438, R441) -/
  | loWordRead (master : Fin 4) (req : BusReq)
  /-- LO_WORD_WRITE: a master writes a LO word (R442) -/
  | loWordWrite (master : Fin 4) (addr value : Nat)
  /-- HI_WORD_WRITE: a master writes a HI word (R442) -/
  | hiWordWrite (master : Fin 4) (addr value : Nat)
  /-- IND_DATA_READ: a master reads `GLOBAL.IND_DATA` (R446) -/
  | indDataRead (master : Fin 4)
  /-- IND_DATA_WRITE: a master writes `GLOBAL.IND_DATA` (R446) -/
  | indDataWrite (master : Fin 4) (value : Nat)
  /-- PREFETCH_DISCARD: TRD_US has passed since a prefetch (R447) -/
  | prefetchDiscard (master : Fin 4)
  /-- ACCESS_STALL_TIMEOUT: an access reaches its limit (R444) -/
  | accessStallTimeout (master : Fin 4) (addr : Nat) (write : Bool)
  /-- POSTED_WRITE_FAIL: a write to the PWR window meets an uncorrectable error in its target (R453) -/
  | postedWriteFail (master : Fin 4) (addr : Nat)
  /-- TMR_CORRECTION: the copies of a register's triplicated fields disagree (R449) -/
  | tmrCorrection (addr : Nat)
  /-- WINDOW_EVENT_EXPIRY: the oldest event of a block's window is WINDOW_MS old (R461) -/
  | windowEventExpiry (block : Fin 66)
  /-- BLOCK_RESET: a write of `BLOCK_CTRL` with RESET = 1 (R457) -/
  | blockReset (master : Fin 4) (block : Fin 66) (unit : Fin 16)
  /-- BLOCK_RESET_DONE: a requested BLOCK reset completes (R465) -/
  | blockResetDone (block : Fin 66)
  /-- FAULTN_READY: a write of 1 to `FAULTN_CTRL.READY` (R466) -/
  | faultnReady (master : Fin 4)
  /-- PERT_INJECT: a write of `PERT_INJ` with GO = 1, and the entries that the next accesses to the target read (R471) -/
  | pertInject (master : Fin 4) (block : Fin 66) (kind : Fin 4) (target : Fin 16) (count : Fin 256) (entries : List Nat)
  /-- PERT_ENTRY_FLIP: a write of `PERT_ENT` with GO = 1 (R471) -/
  | pertEntryFlip (master : Fin 4) (block : Fin 66) (index : Fin 1048576) (mem : Fin 16) (word : Fin 32)
  /-- BOOT_START: MGMT has left reset and the boot ROM runs; `flashErr`: the boot flash cannot be read (R481) -/
  | bootStart (flashErr : Bool)
  /-- GUXIA_READ: a Guxia datagram of TYPE 0x01, or of a TYPE that Table FW-6 does not have (R490) -/
  | guxiaRead (msg : List Byte)
  /-- GUXIA_WRITE: a Guxia datagram of TYPE 0x02 (R490) -/
  | guxiaWrite (msg : List Byte)
  /-- GUXIA_FW_DATA: a Guxia datagram of TYPE 0x10 (R490) -/
  | guxiaFwData (msg : List Byte)
  /-- GUXIA_FW_QUERY: a Guxia datagram of TYPE 0x11 (R490) -/
  | guxiaFwQuery (msg : List Byte)
  /-- GUXIA_FW_ACTIVATE: a Guxia datagram of TYPE 0x12 (R493) -/
  | guxiaFwActivate (msg : List Byte)
  /-- GUXIA_FW_CANCEL: a Guxia datagram of TYPE 0x13 (R490) -/
  | guxiaFwCancel (msg : List Byte)
  /-- NEIGHBOR_SOLICITATION: an IPv6 Neighbor Solicitation arrives on SVC (R489) -/
  | neighborSolicitation (src target : List Byte)
  /-- FLASH_OP_COMPLETE: the flash write under way has ended; `ok`: its verify succeeds (R488) -/
  | flashOpComplete (ok : Bool)
  /-- OTP_ANCHOR_BURN: a write of `OTP_ANCHOR_CTRL` with BURN = 1 (R480) -/
  | otpAnchorBurn (master : Fin 4) (slot : Fin 4)
  /-- PD_ON_REQUEST: a write of `PD_ON` (R499) -/
  | pdOnRequest (master : Fin 4) (domains : Fin 16384)
  /-- DOMAIN_READY: a domain that was switched on is ready (R496) -/
  | domainReady (domain : Fin 15)
  /-- DOMAIN_OFF_COMPLETE: a domain's switch-off is complete (R498) -/
  | domainOffComplete (domain : Fin 15)
  /-- RAIL_WARNING: a logic-die rail reaches or leaves its warning level (R503) -/
  | railWarning (on : Bool)
  /-- COLD_RESET: a COLD reset: from VBAT_POR, or the one that `RST_CTRL.COLD` has requested (R507) -/
  | coldReset (por : Bool)
  /-- WARM_RESET: a WARM reset of the given cause code (R507) -/
  | warmReset (cause : Fin 10)
  /-- CLOCK_LOSS: a monitored clock is lost (R511) -/
  | clockLoss (clock : Fin 5)
  /-- CLOCK_RETURN: a lost clock returns (R512) -/
  | clockReturn (clock : Fin 5)
  /-- MGMT_WD_FEED: a write of `MGMT_WD_FEED` (R513) -/
  | mgmtWdFeed (master : Fin 4)
  /-- ARBITRATION_FIELD_END: the arbitration field of the attempt ends (R116) -/
  | arbitrationFieldEnd (ctl : Fin 20) (won : Bool)
  /-- COLLISION_WINDOW_EXPIRY: a collision is older than WINDOW_MS (R210) -/
  | collisionWindowExpiry (ctl : Fin 20) (tracker : Fin 8)
  /-- BE_SHAPER_REFILL: a shaper has regained the bytes of the head of its class: a selection point (R110) -/
  | beShaperRefill (port : Fin 12) (tc : Fin 6) (toSfd : Nat) (bad : Bool)
  /-- LAUNCH_TIME_REACHED: DTIME reaches the earliest launch time of a host frame held on a port (R276) -/
  | launchTimeReached (port : Fin 48) (toSfd : Nat) (bad : Bool)
  /-- LPI_TW_END: TW_US after low-power idle ended: a selection point (R260) -/
  | lpiTwEnd (port : Fin 12) (toSfd : Nat) (bad : Bool)
  /-- PWM_EDGE: a running PWM channel reaches its next edge (R387) -/
  | pwmEdge (ch : Fin 24)
  /-- VHV_LOW_CHANGE: VHV crosses 8 V (R502) -/
  | vhvLowChange (low : Bool)
  /-- DRIVERS_HELD_RECESSIVE: VBAT falls below 4.3 V or rises above 4.5 V (R518) -/
  | driversHeldRecessive (held : Bool)
  /-- VAULT_SUPPLY_SWITCHOVER: the island switches to VBKUP or back to VBAT (R529) -/
  | vaultSupplySwitchover (backup : Bool)
  /-- PCIE_LINK_UP: the PCIe link has trained at a speed and a width (R407) -/
  | pcieLinkUp (speed width : Nat)
  /-- RC_FIELD_READ: a master reads a register with an RC field (R12) -/
  | rcFieldRead (master : Fin 4) (addr : Nat)
  /-- WUF_FRAME_DECODED: a transceiver in SELECTIVE decodes a frame, with an error or without (R374) -/
  | wufFrameDecoded (ctl : Fin 12) (bad : WakeFrame)
  /-- ADMIT: Anvil reaches the commit point of the running ADMIT (R41) -/
  | admitReq
  /-- PROBE: Anvil ends the running PROBE (R39) -/
  | probe
  /-- WITHDRAW: Anvil serves the running WITHDRAW (R49) -/
  | withdraw
  /-- READ_MEASURE: Anvil serves the running READ_MEASURE (R66) -/
  | readMeasure
  /-- CLEAR_MEASURE: Anvil serves the running CLEAR_MEASURE (R39) -/
  | clearMeasure
  /-- READ_CONTRACT: Anvil serves the running READ_CONTRACT (R39) -/
  | readContract
  /-- CHANGE_GATE_SWITCHOVER: the running CHANGE is of type 1 (R243, R244) -/
  | changeGateSwitchover
  /-- CHANGE_RATE_FLOOR: the running CHANGE is of type 2 (R250) -/
  | changeRateFloor
  /-- CHANGE_PORT_RATE: the running CHANGE is of type 3 (R250) -/
  | changePortRate
  /-- CHANGE_CT_THRESHOLD: the running CHANGE is of type 4 (R118) -/
  | changeCtThreshold
  /-- CHANGE_PREEMPTION: the running CHANGE is of type 5 (R247) -/
  | changePreemption
  /-- CHANGE_DOMAIN_OFF: the running CHANGE is of type 6 (R60, R497) -/
  | changeDomainOff
  /-- CHANGE_KEY_UNPIN: the running CHANGE is of type 7 with VALUE bit 0 = 0 (R321) -/
  | changeKeyUnpin
  /-- CHANGE_KEY_REKEY: the running CHANGE is of type 7 with VALUE bit 0 = 1 (R321) -/
  | changeKeyRekey
  /-- CHANGE_BUS_LEDGER: the running CHANGE is of type 8 (R57) -/
  | changeBusLedger
  /-- CHANGE_CONTAINER: the running CHANGE is of type 9 (R179) -/
  | changeContainer
  /-- CHANGE_MACSEC: the running CHANGE is of type 10 (R335) -/
  | changeMacsec
  /-- CHANGE_LIN_SCHEDULE: the running CHANGE is of type 11 (R218) -/
  | changeLinSchedule
  /-- CHANGE_BE_SHAPER: the running CHANGE is of type 12 (R59) -/
  | changeBeShaper
  /-- ANVIL_OP_START: Anvil takes its next operation (R41) -/
  | anvilOpStart
  /-- TBL_OP_START: the table engine takes its next operation (R136) -/
  | tblOpStart
  /-- FDB_INSERT: the running FDB_INSERT is served (R140) -/
  | fdbInsert
  /-- FDB_DELETE: the running FDB_DELETE is served (R141) -/
  | fdbDelete
  /-- ASSAY_PASS_START: an Assay pass falls due (R152) -/
  | assayPassStart
  /-- SIGNAL_ROUTES_RUN: the first frame handed to target 50 is served (R170) -/
  | signalRoutesRun
  /-- INTAKE_FRAME: the first intake frame that waits is taken in (R167) -/
  | intakeFrame
  /-- EVENT_PDU_RELEASE: the first event whose earlier frames have drained leaves the event queue (R185) -/
  | eventPduRelease
  /-- TOUCHSTONE_SYNC_RELEASE: the next cyclic instant of Touchstone (R213) -/
  | touchstoneSyncRelease
  /-- LLDPDU_RX: the agent takes the first LLDPDU that waits (R251) -/
  | lldpduRx
  /-- TIME_SLEW_END: the last part of a slew is added (R272) -/
  | timeSlewEnd
  /-- GPTP_SYNC_RX: the first Sync and Follow_Up pair that waits is served (R284) -/
  | gptpSyncRx
  /-- SYNC_RECEIPT_TIMEOUT: three sync intervals without a Sync (R283) -/
  | syncReceiptTimeout
  /-- HOLDOVER_EXPIRY: HOLDOVER_MAX_S end (R283) -/
  | holdoverExpiry
  /-- PDELAY_REQ_RX: the first Pdelay_Req that waits is answered (R281) -/
  | pdelayReqRx
  /-- PPS_OUT_PULSE: DTIME modulo 10⁹ reaches OFFSET_NS (R288) -/
  | ppsOutPulse
  /-- PPS_OUT_END: WIDTH_US of a pulse have passed (R288) -/
  | ppsOutEnd
  /-- PPS_IN_LOST: 2 s without an accepted PPS_IN edge (R289) -/
  | ppsInLost
  /-- XPT_FRAME_RX: the first frame that waits for the engine is served (R306) -/
  | xptFrameRx
  /-- XPT_PDU_RX: the first PDU that waits for the engine is served (R304) -/
  | xptPduRx
  /-- XPT_SEND: the next queued XPT_SEND is tested and starts its session (R302) -/
  | xptSend
  /-- CRY_JOB_START: the next queued host job starts (R314) -/
  | cryJobStart
  /-- HELD_UNITS_RESUME: the first job that waits for held-output units takes them (R327) -/
  | heldUnitsResume
  /-- TRNG_READY: the start-up tests and the seeding have completed (R338) -/
  | trngReady
  /-- TRNG_HEALTH_FAIL: a health test fails (R338) -/
  | trngHealthFail
  /-- VAULT_OP_START: the next queued vault operation starts (R348) -/
  | vaultOpStart
  /-- KEY_UPDATE: the running KEY_UPDATE is checked and takes effect (R352, R353) -/
  | keyUpdate
  /-- PROVISION: the running PROVISION is checked and takes effect (R356) -/
  | provision
  /-- HALLMARK: the running HALLMARK writes its response (R359) -/
  | hallmark
  /-- STANDBY_WAKE: the power die serves a wake noted in STANDBY (R379) -/
  | standbyWake
  /-- LOAD_CMD_NET: the oldest actuation command on the D2D link reaches its channel (R386) -/
  | loadCmdNet
  /-- DEFERRED_TURN_ON: the next deferred turn-on executes (R389) -/
  | deferredTurnOn
  /-- GROUND_LOSS: the power die loses its ground (R396) -/
  | groundLoss
  /-- GROUND_RETURN: the power die's ground returns (R396) -/
  | groundReturn
  /-- WD_EXPIRY: the load heartbeat watchdog's period ends without a good feed (R399) -/
  | wdExpiry
  /-- PTIME_CORRECTION: a correction of PTIME arrives over the D2D link (R404) -/
  | ptimeCorrection
  /-- PTIME_INVALID: the latest correction of PTIME is 10 ms old (R404) -/
  | ptimeInvalid
  /-- UNKNOWN_COMMAND: the oldest command with a reserved opcode or field is answered (R425) -/
  | unknownCommand
  /-- ABORT: the oldest ABORT command is answered (R427) -/
  | abort
  /-- DELAYED_READ_DISCARD: TRD_US has passed since a delayed read (R448) -/
  | delayedReadDiscard
  /-- MGMT_RESTART: a MGMT restart that is due takes place (R483) -/
  | mgmtRestart
  /-- LOCKSTEP_MISMATCH: the two MGMT cores disagree (R483) -/
  | lockstepMismatch
  /-- FW_PIECE: the running ring-59 FW_PIECE is served (R491) -/
  | fwPiece
  /-- FW_QUERY: the running ring-59 FW_QUERY is served (R492) -/
  | fwQuery
  /-- FW_ACTIVATE: the running ring-59 FW_ACTIVATE is served (R493) -/
  | fwActivate
  /-- FW_CANCEL: the running ring-59 FW_CANCEL is served (R492) -/
  | fwCancel
  /-- TILE_B_COPY_DONE: tile B has copied the replicated tables (R500) -/
  | tileBCopyDone
  /-- RAILS_GOOD: the logic-die rails have been good for 1 ms (R502) -/
  | railsGood
  /-- BROWNOUT_HOLD_START: VBAT is qualified below VBAT_WARN (R504) -/
  | brownoutHoldStart
  /-- BROWNOUT_HOLD_END: VBAT is qualified above VBAT_WARN + 0.3 V (R504) -/
  | brownoutHoldEnd
  /-- BROWNOUT_HOLD_EXPIRY: brownout hold has lasted BOH_MAX_MS (R505) -/
  | brownoutHoldExpiry
  /-- MGMT_WD_EXPIRY: the MGMT watchdog's period ends without a feed (R513) -/
  | mgmtWdExpiry
  /-- D2D_LINK_DOWN: the die link loses training (R514) -/
  | d2dLinkDown
  /-- D2D_RETRAIN_TIMEOUT: the die link has been untrained for 1 ms (R514) -/
  | d2dRetrainTimeout
  /-- D2D_LINK_UP: the die link is trained again (R514) -/
  | d2dLinkUp
  /-- INH_DRIVEN_ACTIVE: VBAT reaches VBAT_WARN + 0.3 V during a COLD start (R510) -/
  | inhDrivenActive
  /-- REVERSE_BATTERY: VBAT is reversed (R396) -/
  | reverseBattery
  deriving DecidableEq, Repr

end Sys2Proof
end

