-- ==== Sys2Proof/Machine/Bits.lean ====
section
/-!
DEFINITION. Bit fields, byte orders and counters. A value wider than a register (a table entry, an address, a
time) is held as a natural number; `bf` and `setBf` read and write a bit range of it (R7: bit 0 is the least
significant), `leNat`/`leBytes` are the little-endian order of registers, descriptors and host memory (R8),
`beNat`/`beBytes` the network order of the wire formats (R9).
-/
namespace Sys2Proof.Machine

/-- Bits [lo + w − 1 : lo] of `x` (R7). -/
def bf (x lo w : Nat) : Nat := x / 2 ^ lo % 2 ^ w

/-- `x` with its bits [lo + w − 1 : lo] replaced by the low `w` bits of `v`. -/
def setBf (x lo w v : Nat) : Nat := x - bf x lo w * 2 ^ lo + v % 2 ^ w * 2 ^ lo

/-- Bit `i` of `x`. -/
def bit (x i : Nat) : Bool := x / 2 ^ i % 2 == 1

/-- `x` with bit `i` set or cleared. -/
def setBit (x i : Nat) (b : Bool) : Nat := setBf x i 1 (if b then 1 else 0)

/-- 1 for true, 0 for false. -/
def b2n (b : Bool) : Nat := if b then 1 else 0

/-- The number of set bits among the lowest `n`. -/
def popCount : Nat → Nat → Nat
  | 0, _ => 0
  | n + 1, x => b2n (bit x n) + popCount n x

/-- The set bits among the lowest `n`, in rising order. -/
def bitsOf (n x : Nat) : List Nat := (List.range n).filter (fun i => bit x i)

/-- Little-endian value of a byte string (R8). -/
def leNat : List Byte → Nat
  | [] => 0
  | b :: bs => b.toNat + 256 * leNat bs

/-- The `n` bytes of `x`, least significant first (R8). -/
def leBytes : Nat → Nat → List Byte
  | 0, _ => []
  | n + 1, x => BitVec.ofNat 8 x :: leBytes n (x / 256)

/-- Value of a byte string in network order (R9). -/
def beNat (bs : List Byte) : Nat := bs.foldl (fun a b => a * 256 + b.toNat) 0

/-- The `n` bytes of `x` in network order (R9). -/
def beBytes (n x : Nat) : List Byte := (leBytes n x).reverse

/-- Bytes `off` to `off + n - 1` of a byte string; bytes beyond its end read 0. -/
def slice (bs : List Byte) (off n : Nat) : List Byte :=
  let t := (bs.drop off).take n
  t ++ List.replicate (n - t.length) 0

/-- Byte `i` of a byte string as a number, 0 beyond its end. -/
def byteAt (bs : List Byte) (i : Nat) : Nat := ((bs[i]?).getD 0).toNat

/-- `bs` with the bytes from `off` on replaced by `new` (the string keeps its length). -/
def overlay (bs : List Byte) (off : Nat) (new : List Byte) : List Byte :=
  (bs.take off ++ new ++ bs.drop (off + new.length)).take bs.length

/-- A counter of `w` bits that stays at its maximum. -/
def satAdd (w x n : Nat) : Nat := min (2 ^ w - 1) (x + n)

/-- A field whose value 0 is taken as 1. -/
def atLeastOne (x : Nat) : Nat := if x == 0 then 1 else x

/-- The signed value of the low `w` bits of `x` in two's complement. -/
def toSigned (w x : Nat) : Int :=
  if x % 2 ^ w < 2 ^ (w - 1) then (x % 2 ^ w : Nat) else ((x % 2 ^ w : Nat) : Int) - (2 ^ w : Nat)

/-- The low `w` bits of an integer in two's complement. -/
def ofSigned (w : Nat) (i : Int) : Nat := (i % ((2 ^ w : Nat) : Int)).toNat

/-- Bytes from numbers, for constants written out. -/
def bytes (l : List Nat) : List Byte := l.map (BitVec.ofNat 8)

end Sys2Proof.Machine
end

