-- ==== Sys2Proof/Config.lean ====
section
/-!
DEFINITION. What one implementation fixes and what the manual leaves open: the contents of the one-time-programmable
memory, and the free values. None of these constants has a body, so no proof can see a value of them.
-/
namespace Sys2Proof.Config

/-- A free value: the `n`-th number the manual leaves open in a run (assumption log 3). The state holds the counter
that picks `n`; whatever a meaning does with the number, it is reduced to the width of the value it stands for. -/
opaque freeValue : Nat → Nat

/-- A free byte string: byte `i` of the `n`-th string the manual leaves open (generator output, R338; log 3). -/
opaque freeByte : Nat → Nat → Byte

/-- The device UID of the OTP memory, 16 bytes little-endian (R339, Table VLT-11; log 4). -/
opaque otpUid : Nat

/-- The device's identity key IK of the OTP memory, 32 bytes (R339; log 4). -/
opaque otpIk : Nat → Byte

/-- The class secret of the boot ROM, 32 bytes (R480; log 4). -/
opaque classKey : Nat → Byte

/-- Signer anchor 0, burned at manufacture, 32 bytes (R480; log 4). -/
opaque otpAnchor0 : Nat → Byte

/-- The SHA-384 measurement of the boot ROM's contents, 48 bytes, published for each silicon step (R481; log 4). -/
opaque romMeasure : Nat → Byte

end Sys2Proof.Config
end

