-- ==== Sys2Proof/Machine/SMap.lean ====
section
/-!
DEFINITION. The one sparse store: a list of (key, value) pairs with strictly rising keys in which no entry equals
what an unlisted key reads as. Registers, tables, host memory and every indexed piece of state use it, so equal
stores are equal lists.
-/
namespace Sys2Proof.Machine

/-- A sparse map from numbers. -/
abbrev SMap (α : Type) := List (Nat × α)

/-- The listed value at a key. -/
def SMap.find? {α : Type} : SMap α → Nat → Option α
  | [], _ => none
  | (k, v) :: m, j => if k = j then some v else SMap.find? m j

/-- The value at a key; an unlisted key reads `d`. -/
def SMap.get {α : Type} (m : SMap α) (d : α) (k : Nat) : α := (SMap.find? m k).getD d

/-- List `v` at key `k`, in key order. -/
def SMap.put {α : Type} : SMap α → Nat → α → SMap α
  | [], j, x => [(j, x)]
  | (k, v) :: m, j, x =>
    if j < k then (j, x) :: (k, v) :: m
    else if j = k then (j, x) :: m
    else (k, v) :: SMap.put m j x

/-- Unlist a key, every entry of it. -/
def SMap.del {α : Type} : SMap α → Nat → SMap α
  | [], _ => []
  | (k, v) :: m, j => if k = j then SMap.del m j else (k, v) :: SMap.del m j

/-- Write `v` at `k` where an unlisted key reads `d`: writing `d` removes the entry. -/
def SMap.set {α : Type} [DecidableEq α] (m : SMap α) (d : α) (k : Nat) (v : α) : SMap α :=
  if v = d then SMap.del m k else SMap.put m k v

/-- Every listed key is above `b`, keys rise strictly, and no entry equals what its key reads as unlisted. -/
def SMap.wfFrom {α : Type} [DecidableEq α] (d : Nat → α) : Nat → SMap α → Bool
  | _, [] => true
  | b, (k, v) :: m => decide (b ≤ k) && decide (v ≠ d k) && SMap.wfFrom d (k + 1) m

/-- The canonical form of a sparse map. -/
def SMap.wf {α : Type} [DecidableEq α] (d : Nat → α) (m : SMap α) : Bool := SMap.wfFrom d 0 m

end Sys2Proof.Machine
end

