-- ==== Sys2Proof/Machine/RegTable.lean ====
section
/-!
DEFINITION. The register tables of the manual as data: for every register its BAR0 offset, the strides of its
indices, its fields with access code (Table SCOPE-2), reset value and value rule, and whether it is the LO word
of a 64-bit group (R441). Bits no field covers are reserved: they read 0 and ignore writes (R440).
-/
namespace Sys2Proof.Machine

/-- Access codes of Table SCOPE-2 (R12); the /T suffix is redundancy without a value of its own (R449). -/
inductive Acc where
  | rw | ro | rc | w1c | w1s | wo | rwl | rwo
  deriving DecidableEq, Repr

/-- Which written values a field takes: `range` ignores a value outside it, `srange` likewise for a signed field,
`nearer` takes the nearer limit. -/
inductive FldRule where
  | any
  | range (lo hi : Nat)
  | srange (lo hi : Int)
  | nearer (lo hi : Nat)
  deriving DecidableEq, Repr

/-- One field: lowest bit, width, access, reset value, value rule. -/
structure FldDef where
  lo : Nat
  w : Nat
  acc : Acc
  rst : Nat
  rule : FldRule
  deriving DecidableEq, Repr

/-- One register table row: BAR0 offset of its first instance, (stride, count) of each index, its fields, and
whether it is the LO word of a group (R441). -/
structure RegDef where
  base : Nat
  dims : List (Nat × Nat)
  flds : List FldDef
  loWord : Bool
  deriving DecidableEq, Repr

/-- Table PROM-15. -/
def anvilRegs : List RegDef :=
  [ ⟨0x600000, [], [⟨0, 13, .ro, 0, .any⟩, ⟨16, 7, .ro, 0, .any⟩], false⟩,
    ⟨0x600004, [], [⟨0, 7, .ro, 0, .any⟩], false⟩,
    ⟨0x600008, [], [⟨0, 17, .ro, 0, .any⟩], false⟩,
    ⟨0x60000C, [], [⟨0, 16, .ro, 0, .any⟩, ⟨16, 16, .ro, 0, .any⟩], false⟩,
    ⟨0x600040, [(4, 8)], [⟨0, 20, .rw, 10000, .nearer 1 1000000⟩], false⟩,
    ⟨0x600060, [], [⟨0, 16, .rw, 1000, .nearer 1 65535⟩], false⟩,
    ⟨0x600080, [], [⟨0, 32, .ro, 0, .any⟩], false⟩,
    ⟨0x600084, [], [⟨0, 32, .ro, 0, .any⟩], false⟩,
    ⟨0x600088, [], [⟨0, 32, .rc, 0, .any⟩], false⟩,
    ⟨0x60008C, [], [⟨0, 32, .rc, 0, .any⟩], false⟩,
    ⟨0x600090, [], [⟨0, 12, .ro, 0, .any⟩, ⟨16, 6, .ro, 0, .any⟩, ⟨31, 1, .w1c, 0, .any⟩], false⟩,
    ⟨0x6000A0, [], [⟨0, 1, .rw, 0, .any⟩], false⟩ ] ++
  [ ⟨0x6000C0, [], [⟨0, 5, .rw, 0, .range 0 19⟩, ⟨8, 3, .rw, 0, .range 0 5⟩], false⟩,
    ⟨0x6000C4, [], [⟨0, 32, .rw, 4294967295, .any⟩], false⟩,
    ⟨0x6000C8, [], [⟨0, 24, .rw, 0, .any⟩], false⟩,
    ⟨0x6000CC, [], [⟨0, 32, .ro, 4294967295, .any⟩], false⟩ ]

/-- Table PIPE-5. -/
def fwdRegs : List RegDef :=
  [ ⟨0x200000, [], [⟨0, 1, .rw, 0, .any⟩], false⟩,
    ⟨0x200004, [], [⟨0, 1, .ro, 0, .any⟩, ⟨1, 1, .ro, 0, .any⟩], false⟩,
    ⟨0x200010, [], [⟨0, 17, .ro, 65536, .any⟩], false⟩,
    ⟨0x200014, [], [⟨0, 16, .ro, 49152, .any⟩, ⟨16, 16, .ro, 49152, .any⟩], false⟩,
    ⟨0x200018, [], [⟨0, 17, .ro, 0, .any⟩], false⟩,
    ⟨0x20001C, [], [⟨0, 16, .ro, 0, .any⟩, ⟨16, 16, .ro, 0, .any⟩], false⟩,
    ⟨0x200020, [], [⟨0, 32, .rc, 0, .any⟩], false⟩,
    ⟨0x200040, [(4, 20)], [⟨0, 12, .rw, 1, .any⟩, ⟨12, 3, .rw, 0, .any⟩, ⟨16, 1, .rw, 1, .any⟩, ⟨17, 1, .rw, 1, .any⟩, ⟨24, 8, .rw, 0, .any⟩], false⟩,
    ⟨0x2000A0, [(4, 20)], [⟨0, 24, .rw, 11978369, .any⟩], false⟩,
    ⟨0x200100, [], [⟨0, 28, .rw, 0, .any⟩], false⟩,
    ⟨0x200200, [(4, 36)], [⟨0, 8, .ro, 0, .any⟩, ⟨8, 8, .ro, 0, .any⟩], false⟩,
    ⟨0x200300, [(4, 36)], [⟨0, 1, .w1c, 0, .any⟩, ⟨1, 1, .w1c, 0, .any⟩], false⟩ ] ++
  [ ⟨0x200400, [(4, 20)], [⟨0, 12, .rw, 256, .any⟩], false⟩,
    ⟨0x200480, [(4, 12)], [⟨0, 14, .ro, 0, .any⟩], false⟩,
    ⟨0x200800, [(32, 12), (4, 8)], [⟨0, 16, .rw, 1024, .any⟩, ⟨16, 16, .rw, 768, .any⟩], false⟩,
    ⟨0x200980, [(4, 12)], [⟨0, 8, .ro, 0, .any⟩, ⟨8, 8, .ro, 0, .any⟩], false⟩,
    ⟨0x2009C0, [], [⟨0, 16, .rw, 65535, .any⟩, ⟨16, 16, .rw, 100, .any⟩], false⟩,
    ⟨0x2009D0, [(4, 2)], [⟨0, 4, .rw, 0, .any⟩, ⟨4, 8, .rw, 0, .any⟩, ⟨12, 1, .rw, 0, .any⟩, ⟨13, 1, .rw, 0, .any⟩, ⟨14, 1, .rw, 0, .any⟩], false⟩,
    ⟨0x200A00, [(4, 20)], [⟨0, 16, .rw, 4096, .any⟩], false⟩,
    ⟨0x200B00, [(4, 20)], [⟨0, 7, .ro, 0, .any⟩, ⟨8, 7, .ro, 0, .any⟩, ⟨16, 7, .ro, 0, .any⟩], false⟩,
    ⟨0x200C00, [], [⟨0, 16, .rw, 10, .any⟩, ⟨16, 6, .rw, 32, .any⟩], false⟩,
    ⟨0x200C04, [], [⟨0, 16, .rw, 1000, .any⟩], false⟩,
    ⟨0x200D00, [], [⟨0, 6, .rw, 0, .any⟩, ⟨6, 1, .rw, 0, .any⟩, ⟨31, 1, .w1s, 0, .any⟩], false⟩,
    ⟨0x200E00, [], [⟨0, 16, .ro, 0, .any⟩, ⟨16, 6, .ro, 0, .any⟩, ⟨31, 1, .w1c, 0, .any⟩], false⟩ ]

/-- Table PIPE-4. -/
def cntRegs : List RegDef :=
  [ ⟨0x210000, [(512, 48)], [⟨0, 32, .ro, 0, .any⟩], true⟩,
    ⟨0x210004, [(512, 48)], [⟨0, 32, .ro, 0, .any⟩], false⟩,
    ⟨0x210008, [(512, 48)], [⟨0, 32, .ro, 0, .any⟩], true⟩,
    ⟨0x21000C, [(512, 48)], [⟨0, 32, .ro, 0, .any⟩], false⟩,
    ⟨0x210010, [(512, 48)], [⟨0, 32, .ro, 0, .any⟩], true⟩,
    ⟨0x210014, [(512, 48)], [⟨0, 32, .ro, 0, .any⟩], false⟩,
    ⟨0x210018, [(512, 48)], [⟨0, 32, .ro, 0, .any⟩], true⟩,
    ⟨0x21001C, [(512, 48)], [⟨0, 32, .ro, 0, .any⟩], false⟩,
    ⟨0x210020, [(512, 48)], [⟨0, 32, .ro, 0, .any⟩], true⟩,
    ⟨0x210024, [(512, 48)], [⟨0, 32, .ro, 0, .any⟩], false⟩,
    ⟨0x210028, [(512, 48)], [⟨0, 32, .ro, 0, .any⟩], true⟩,
    ⟨0x21002C, [(512, 48)], [⟨0, 32, .ro, 0, .any⟩], false⟩ ] ++
  [ ⟨0x210030, [(512, 48)], [⟨0, 32, .ro, 0, .any⟩], true⟩,
    ⟨0x210034, [(512, 48)], [⟨0, 32, .ro, 0, .any⟩], false⟩,
    ⟨0x210038, [(512, 48)], [⟨0, 32, .ro, 0, .any⟩], true⟩,
    ⟨0x21003C, [(512, 48)], [⟨0, 32, .ro, 0, .any⟩], false⟩,
    ⟨0x210040, [(512, 48)], [⟨0, 32, .ro, 0, .any⟩], true⟩,
    ⟨0x210044, [(512, 48)], [⟨0, 32, .ro, 0, .any⟩], false⟩,
    ⟨0x210048, [(512, 48)], [⟨0, 32, .ro, 0, .any⟩], true⟩,
    ⟨0x21004C, [(512, 48)], [⟨0, 32, .ro, 0, .any⟩], false⟩,
    ⟨0x210050, [(512, 48)], [⟨0, 32, .ro, 0, .any⟩], true⟩,
    ⟨0x210054, [(512, 48)], [⟨0, 32, .ro, 0, .any⟩], false⟩,
    ⟨0x210058, [(512, 48)], [⟨0, 32, .ro, 0, .any⟩], true⟩,
    ⟨0x21005C, [(512, 48)], [⟨0, 32, .ro, 0, .any⟩], false⟩ ] ++
  [ ⟨0x210060, [(512, 48)], [⟨0, 32, .ro, 0, .any⟩], true⟩,
    ⟨0x210064, [(512, 48)], [⟨0, 32, .ro, 0, .any⟩], false⟩,
    ⟨0x210068, [(512, 48)], [⟨0, 32, .ro, 0, .any⟩], true⟩,
    ⟨0x21006C, [(512, 48)], [⟨0, 32, .ro, 0, .any⟩], false⟩,
    ⟨0x210070, [(512, 48)], [⟨0, 32, .ro, 0, .any⟩], true⟩,
    ⟨0x210074, [(512, 48)], [⟨0, 32, .ro, 0, .any⟩], false⟩,
    ⟨0x210078, [(512, 48)], [⟨0, 32, .ro, 0, .any⟩], true⟩,
    ⟨0x21007C, [(512, 48)], [⟨0, 32, .ro, 0, .any⟩], false⟩,
    ⟨0x210080, [(512, 48)], [⟨0, 32, .ro, 0, .any⟩], true⟩,
    ⟨0x210084, [(512, 48)], [⟨0, 32, .ro, 0, .any⟩], false⟩,
    ⟨0x210088, [(512, 48)], [⟨0, 32, .ro, 0, .any⟩], true⟩,
    ⟨0x21008C, [(512, 48)], [⟨0, 32, .ro, 0, .any⟩], false⟩ ] ++
  [ ⟨0x210090, [(512, 48)], [⟨0, 32, .ro, 0, .any⟩], true⟩,
    ⟨0x210094, [(512, 48)], [⟨0, 32, .ro, 0, .any⟩], false⟩,
    ⟨0x210098, [(512, 48)], [⟨0, 32, .ro, 0, .any⟩], true⟩,
    ⟨0x21009C, [(512, 48)], [⟨0, 32, .ro, 0, .any⟩], false⟩,
    ⟨0x2100A0, [(512, 48)], [⟨0, 32, .ro, 0, .any⟩], true⟩,
    ⟨0x2100A4, [(512, 48)], [⟨0, 32, .ro, 0, .any⟩], false⟩,
    ⟨0x2100A8, [(512, 48)], [⟨0, 32, .ro, 0, .any⟩], true⟩,
    ⟨0x2100AC, [(512, 48)], [⟨0, 32, .ro, 0, .any⟩], false⟩,
    ⟨0x210100, [(512, 48), (32, 8)], [⟨0, 32, .ro, 0, .any⟩], true⟩,
    ⟨0x210104, [(512, 48), (32, 8)], [⟨0, 32, .ro, 0, .any⟩], false⟩,
    ⟨0x210108, [(512, 48), (32, 8)], [⟨0, 32, .ro, 0, .any⟩], true⟩,
    ⟨0x21010C, [(512, 48), (32, 8)], [⟨0, 32, .ro, 0, .any⟩], false⟩ ] ++
  [ ⟨0x210110, [(512, 48), (32, 8)], [⟨0, 32, .ro, 0, .any⟩], true⟩,
    ⟨0x210114, [(512, 48), (32, 8)], [⟨0, 32, .ro, 0, .any⟩], false⟩,
    ⟨0x210118, [(512, 48), (32, 8)], [⟨0, 32, .ro, 0, .any⟩], true⟩,
    ⟨0x21011C, [(512, 48), (32, 8)], [⟨0, 32, .ro, 0, .any⟩], false⟩,
    ⟨0x2100B0, [(512, 48), (4, 20)], [⟨0, 32, .ro, 0, .any⟩], false⟩ ]

/-- Table TBL-10. -/
def tblRegs : List RegDef :=
  [ ⟨0x400000, [], [⟨0, 1, .rw, 1, .any⟩, ⟨1, 1, .rw, 1, .any⟩, ⟨2, 1, .rw, 1, .any⟩], false⟩,
    ⟨0x400004, [], [⟨0, 1, .ro, 0, .any⟩, ⟨1, 1, .ro, 0, .any⟩], false⟩,
    ⟨0x400010, [(4, 10)], [⟨0, 32, .ro, 0, .any⟩], false⟩,
    ⟨0x400038, [], [⟨0, 32, .ro, 0, .any⟩], false⟩,
    ⟨0x40003C, [], [⟨0, 32, .ro, 0, .any⟩], false⟩,
    ⟨0x400040, [(4, 20)], [⟨0, 16, .rw, 0, .any⟩, ⟨16, 1, .rw, 0, .any⟩], false⟩,
    ⟨0x4000A0, [(4, 20)], [⟨0, 16, .ro, 0, .any⟩, ⟨16, 16, .ro, 0, .any⟩], false⟩,
    ⟨0x400100, [], [⟨0, 12, .rw, 100, .any⟩], false⟩,
    ⟨0x400104, [], [⟨0, 12, .rw, 100, .any⟩], false⟩,
    ⟨0x400110, [], [⟨0, 32, .rc, 0, .any⟩], false⟩,
    ⟨0x400114, [], [⟨0, 32, .rc, 0, .any⟩], false⟩,
    ⟨0x400118, [], [⟨0, 32, .rc, 0, .any⟩], false⟩ ] ++
  [ ⟨0x40011C, [], [⟨0, 32, .rc, 0, .any⟩], false⟩,
    ⟨0x400120, [], [⟨0, 32, .rc, 0, .any⟩], false⟩,
    ⟨0x400140, [(4, 20)], [⟨0, 32, .rc, 0, .any⟩], false⟩,
    ⟨0x400200, [], [⟨0, 4, .rw, 0, .range 0 9⟩, ⟨4, 1, .rw, 0, .any⟩, ⟨5, 6, .rw, 0, .any⟩, ⟨31, 1, .w1s, 0, .any⟩], false⟩,
    ⟨0x400204, [], [⟨0, 17, .rw, 0, .any⟩], false⟩,
    ⟨0x400208, [], [⟨0, 16, .ro, 0, .any⟩], false⟩,
    ⟨0x400220, [(4, 8)], [⟨0, 32, .ro, 0, .any⟩], false⟩,
    ⟨0x400300, [], [⟨0, 1, .rw, 0, .any⟩, ⟨16, 8, .rw, 0, .any⟩], false⟩,
    ⟨0x400304, [], [⟨0, 16, .rw, 100, .any⟩], false⟩,
    ⟨0x400308, [], [⟨0, 1, .ro, 0, .any⟩, ⟨1, 1, .w1c, 0, .any⟩, ⟨16, 16, .ro, 0, .any⟩], false⟩,
    ⟨0x400310, [], [⟨0, 32, .rc, 0, .any⟩], false⟩,
    ⟨0x400314, [], [⟨0, 32, .rc, 0, .any⟩], false⟩ ] ++
  [ ⟨0x400318, [], [⟨0, 32, .rc, 0, .any⟩], false⟩,
    ⟨0x400400, [(16, 8)], [⟨0, 1, .rw, 0, .any⟩, ⟨6, 26, .rw, 0, .any⟩], true⟩,
    ⟨0x400404, [(16, 8)], [⟨0, 32, .rw, 0, .any⟩], false⟩ ]

/-- Table SIG-17. -/
def steRegs : List RegDef :=
  [ ⟨0x700000, [], [⟨0, 1, .rw, 0, .any⟩, ⟨1, 1, .rw, 0, .any⟩, ⟨8, 8, .rw, 0, .any⟩], false⟩,
    ⟨0x700004, [], [⟨0, 16, .rw, 34997, .any⟩], false⟩,
    ⟨0x700008, [], [⟨0, 16, .rw, 0, .any⟩], false⟩,
    ⟨0x700020, [], [⟨0, 3, .rw, 0, .any⟩, ⟨16, 13, .rw, 0, .any⟩], false⟩,
    ⟨0x700024, [], [⟨0, 1, .rw, 0, .any⟩, ⟨8, 8, .ro, 0, .any⟩, ⟨31, 1, .w1s, 0, .any⟩], false⟩,
    ⟨0x700040, [(4, 8)], [⟨0, 32, .rw, 0, .any⟩], false⟩,
    ⟨0x700080, [], [⟨0, 6, .rw, 0, .any⟩, ⟨31, 1, .rw, 0, .any⟩], false⟩,
    ⟨0x700084, [], [⟨0, 32, .rw, 0, .any⟩], false⟩,
    ⟨0x700088, [], [⟨0, 32, .rw, 0, .any⟩], false⟩,
    ⟨0x70008C, [], [⟨0, 4, .rw, 0, .any⟩], false⟩,
    ⟨0x700090, [], [⟨0, 24, .rw, 0, .any⟩], false⟩,
    ⟨0x700094, [], [⟨0, 7, .ro, 0, .any⟩], false⟩ ] ++
  [ ⟨0x700100, [], [⟨0, 32, .rc, 0, .any⟩], false⟩,
    ⟨0x700104, [], [⟨0, 32, .rc, 0, .any⟩], false⟩,
    ⟨0x700108, [], [⟨0, 32, .rc, 0, .any⟩], false⟩,
    ⟨0x70010C, [], [⟨0, 32, .rc, 0, .any⟩], false⟩,
    ⟨0x700110, [], [⟨0, 32, .rc, 0, .any⟩], false⟩,
    ⟨0x700114, [], [⟨0, 32, .rc, 0, .any⟩], false⟩,
    ⟨0x700118, [], [⟨0, 32, .rc, 0, .any⟩], false⟩,
    ⟨0x70011C, [], [⟨0, 32, .rc, 0, .any⟩], false⟩,
    ⟨0x700120, [], [⟨0, 32, .rc, 0, .any⟩], false⟩,
    ⟨0x700124, [], [⟨0, 32, .rc, 0, .any⟩], false⟩,
    ⟨0x700200, [(4, 64)], [⟨0, 14, .ro, 0, .any⟩, ⟨15, 1, .ro, 0, .any⟩, ⟨16, 8, .ro, 0, .any⟩], false⟩ ]

/-- Table CAN-12. -/
def canRegs : List RegDef :=
  [ ⟨0x800000, [(4096, 20)], [⟨0, 1, .rw, 1, .any⟩, ⟨1, 2, .rw, 0, .range 0 2⟩, ⟨3, 1, .rw, 0, .any⟩, ⟨4, 1, .rw, 0, .any⟩, ⟨5, 1, .rw, 1, .any⟩, ⟨6, 1, .rw, 0, .any⟩, ⟨7, 1, .rw, 1, .any⟩, ⟨8, 1, .w1s, 0, .any⟩, ⟨9, 1, .rw, 0, .any⟩, ⟨10, 1, .rw, 0, .any⟩, ⟨11, 1, .rw, 0, .any⟩, ⟨12, 4, .rw, 0, .any⟩], false⟩,
    ⟨0x800004, [(4096, 20)], [⟨0, 2, .ro, 3, .any⟩, ⟨2, 1, .ro, 0, .any⟩, ⟨3, 1, .ro, 0, .any⟩, ⟨4, 1, .ro, 0, .any⟩, ⟨5, 1, .ro, 0, .any⟩, ⟨6, 1, .w1c, 0, .any⟩, ⟨7, 1, .w1c, 0, .any⟩], false⟩,
    ⟨0x800008, [(4096, 20)], [⟨0, 9, .ro, 0, .any⟩, ⟨16, 8, .ro, 0, .any⟩, ⟨24, 1, .ro, 0, .any⟩], false⟩,
    ⟨0x80000C, [(4096, 20)], [⟨0, 4, .rc, 0, .any⟩, ⟨4, 1, .rc, 0, .any⟩], false⟩,
    ⟨0x800010, [(4096, 20)], [⟨0, 8, .rw, 1, .any⟩, ⟨8, 8, .rw, 62, .any⟩, ⟨16, 7, .rw, 15, .any⟩, ⟨23, 7, .rw, 15, .any⟩], false⟩,
    ⟨0x800014, [(4096, 20)], [⟨0, 5, .rw, 0, .any⟩, ⟨8, 6, .rw, 30, .any⟩, ⟨16, 5, .rw, 7, .any⟩, ⟨24, 5, .rw, 7, .any⟩], false⟩,
    ⟨0x800018, [(4096, 20)], [⟨0, 7, .rw, 32, .any⟩, ⟨8, 7, .rw, 0, .any⟩, ⟨15, 1, .rw, 1, .any⟩, ⟨16, 7, .ro, 0, .any⟩], false⟩,
    ⟨0x80001C, [(4096, 20)], [⟨0, 6, .rw, 1, .any⟩, ⟨8, 6, .rw, 3, .any⟩], false⟩,
    ⟨0x800020, [(4096, 20)], [⟨0, 8, .rw, 0, .any⟩, ⟨8, 1, .rw, 0, .any⟩, ⟨16, 8, .rw, 0, .any⟩], false⟩,
    ⟨0x800024, [(4096, 20)], [⟨0, 32, .rw, 0, .any⟩], false⟩,
    ⟨0x800030, [(4096, 20)], [⟨0, 4, .rw, 2, .any⟩, ⟨16, 16, .rw, 200, .any⟩], false⟩,
    ⟨0x800034, [(4096, 20)], [⟨0, 2, .ro, 0, .any⟩, ⟨4, 3, .ro, 0, .any⟩, ⟨16, 16, .ro, 0, .any⟩], false⟩ ] ++
  [ ⟨0x800040, [(4096, 20), (4, 8)], [⟨0, 30, .rw, 0, .any⟩, ⟨31, 1, .rw, 0, .any⟩], false⟩,
    ⟨0x800080, [(4096, 20)], [⟨0, 16, .rw, 1000, .any⟩, ⟨16, 8, .rw, 4, .any⟩], false⟩,
    ⟨0x800084, [(4096, 20)], [⟨0, 16, .rw, 0, .any⟩], false⟩,
    ⟨0x800088, [(4096, 20)], [⟨0, 4, .ro, 0, .any⟩, ⟨4, 3, .ro, 0, .any⟩], false⟩,
    ⟨0x8000A0, [(4096, 20), (16, 8)], [⟨0, 29, .ro, 0, .any⟩, ⟨29, 3, .ro, 0, .any⟩], false⟩,
    ⟨0x8000A4, [(4096, 20), (16, 8)], [⟨0, 14, .ro, 0, .any⟩, ⟨14, 1, .ro, 0, .any⟩], false⟩,
    ⟨0x8000A8, [(4096, 20), (16, 8)], [⟨0, 32, .ro, 0, .any⟩], true⟩,
    ⟨0x8000AC, [(4096, 20), (16, 8)], [⟨0, 32, .ro, 0, .any⟩], false⟩,
    ⟨0x800120, [(4096, 20), (8, 8)], [⟨0, 29, .ro, 0, .any⟩, ⟨29, 1, .ro, 0, .any⟩, ⟨31, 1, .w1c, 0, .any⟩], false⟩,
    ⟨0x800124, [(4096, 20), (8, 8)], [⟨0, 8, .ro, 0, .any⟩], false⟩,
    ⟨0x800180, [(4096, 20)], [⟨0, 32, .rc, 0, .any⟩], false⟩,
    ⟨0x800184, [(4096, 20)], [⟨0, 32, .rc, 0, .any⟩], false⟩ ] ++
  [ ⟨0x800188, [(4096, 20)], [⟨0, 32, .rc, 0, .any⟩], false⟩,
    ⟨0x80018C, [(4096, 20)], [⟨0, 32, .rc, 0, .any⟩], false⟩,
    ⟨0x800190, [(4096, 20)], [⟨0, 32, .rc, 0, .any⟩], false⟩,
    ⟨0x800194, [(4096, 20)], [⟨0, 32, .rc, 0, .any⟩], false⟩ ]

/-- Table CAN-13. -/
def tsRegs : List RegDef :=
  [ ⟨0x814000, [], [⟨0, 1, .rw, 0, .any⟩, ⟨1, 1, .rw, 0, .any⟩, ⟨2, 1, .rw, 0, .any⟩, ⟨16, 10, .rw, 0, .any⟩], false⟩,
    ⟨0x814004, [], [⟨0, 20, .rw, 0, .any⟩], false⟩,
    ⟨0x814008, [], [⟨0, 29, .rw, 0, .any⟩, ⟨29, 1, .rw, 0, .any⟩], false⟩,
    ⟨0x81400C, [], [⟨0, 29, .rw, 0, .any⟩, ⟨29, 1, .rw, 0, .any⟩], false⟩,
    ⟨0x814010, [], [⟨0, 16, .rw, 100, .any⟩, ⟨16, 16, .rw, 0, .any⟩], false⟩,
    ⟨0x814014, [], [⟨0, 8, .rw, 0, .any⟩], false⟩,
    ⟨0x814018, [], [⟨0, 13, .rw, 1000, .any⟩], false⟩,
    ⟨0x814020, [], [⟨0, 32, .rc, 0, .any⟩], false⟩,
    ⟨0x814024, [], [⟨0, 32, .rc, 0, .any⟩], false⟩,
    ⟨0x814028, [], [⟨0, 32, .rc, 0, .any⟩], false⟩,
    ⟨0x814040, [(4, 20)], [⟨0, 8, .ro, 0, .any⟩], false⟩ ]

/-- Table CAN-14. -/
def linRegs : List RegDef :=
  [ ⟨0x900000, [(4096, 8)], [⟨0, 1, .rw, 1, .any⟩, ⟨1, 1, .rw, 0, .any⟩, ⟨2, 1, .rw, 0, .any⟩, ⟨3, 1, .rw, 0, .any⟩, ⟨4, 4, .rw, 0, .any⟩], false⟩,
    ⟨0x900004, [(4096, 8)], [⟨0, 15, .rw, 19200, .range 1000 20000⟩], false⟩,
    ⟨0x900008, [(4096, 8)], [⟨0, 14, .rw, 1000, .range 1000 10000⟩], false⟩,
    ⟨0x90000C, [(4096, 8)], [⟨0, 3, .ro, 0, .any⟩, ⟨8, 6, .ro, 0, .any⟩, ⟨16, 15, .ro, 0, .any⟩, ⟨31, 1, .w1c, 0, .any⟩], false⟩,
    ⟨0x900010, [(4096, 8)], [⟨0, 8, .rw, 1, .any⟩], false⟩,
    ⟨0x900020, [(4096, 8)], [⟨0, 1, .rw, 0, .any⟩, ⟨16, 9, .rw, 0, .any⟩], false⟩,
    ⟨0x900024, [(4096, 8)], [⟨0, 1, .rw, 0, .any⟩, ⟨8, 8, .ro, 0, .any⟩, ⟨31, 1, .w1s, 0, .any⟩], false⟩,
    ⟨0x900028, [(4096, 8), (4, 2)], [⟨0, 32, .rw, 0, .any⟩], false⟩,
    ⟨0x900040, [(4096, 8)], [⟨0, 32, .rc, 0, .any⟩], false⟩,
    ⟨0x900044, [(4096, 8)], [⟨0, 32, .rc, 0, .any⟩], false⟩,
    ⟨0x900048, [(4096, 8)], [⟨0, 32, .rc, 0, .any⟩], false⟩,
    ⟨0x90004C, [(4096, 8)], [⟨0, 32, .rc, 0, .any⟩], false⟩ ] ++
  [ ⟨0x900050, [(4096, 8)], [⟨0, 32, .rc, 0, .any⟩], false⟩,
    ⟨0x900054, [(4096, 8)], [⟨0, 32, .rc, 0, .any⟩], false⟩ ]

/-- Tables REG-6, CAN-15 and NM-9. -/
def pwrRegs : List RegDef :=
  [ ⟨0x1020000, [(4, 12)], [⟨0, 3, .rw, 0, .range 0 5⟩, ⟨4, 3, .ro, 0, .any⟩, ⟨8, 1, .w1c, 0, .any⟩, ⟨9, 1, .w1c, 0, .any⟩], false⟩,
    ⟨0x1020040, [(4, 8)], [⟨0, 2, .rw, 0, .any⟩, ⟨2, 1, .rw, 0, .any⟩, ⟨4, 2, .ro, 0, .any⟩, ⟨8, 1, .w1c, 0, .any⟩, ⟨9, 1, .w1c, 0, .any⟩], false⟩,
    ⟨0x1020100, [(32, 12)], [⟨0, 1, .rw, 1, .any⟩, ⟨1, 1, .rw, 0, .any⟩, ⟨2, 1, .rw, 0, .any⟩, ⟨3, 1, .rw, 0, .any⟩, ⟨4, 4, .rw, 0, .any⟩, ⟨8, 2, .rw, 2, .any⟩, ⟨10, 1, .rw, 1, .any⟩], false⟩,
    ⟨0x1020104, [(32, 12)], [⟨0, 29, .rw, 0, .any⟩], false⟩,
    ⟨0x1020108, [(32, 12)], [⟨0, 29, .rw, 0, .any⟩], false⟩,
    ⟨0x102010C, [(32, 12)], [⟨0, 32, .rw, 0, .any⟩], true⟩,
    ⟨0x1020110, [(32, 12)], [⟨0, 32, .rw, 0, .any⟩], false⟩,
    ⟨0x1020114, [(32, 12)], [⟨0, 6, .ro, 0, .any⟩], false⟩,
    ⟨0x1020400, [(8, 48)], [⟨0, 8, .ro, 0, .any⟩, ⟨8, 1, .ro, 0, .any⟩, ⟨9, 1, .ro, 0, .any⟩, ⟨10, 1, .ro, 0, .any⟩], false⟩,
    ⟨0x1020404, [(8, 48)], [⟨0, 32, .ro, 0, .any⟩], false⟩,
    ⟨0x1020600, [], [⟨0, 32, .ro, 0, .any⟩], false⟩,
    ⟨0x1020700, [(4, 4)], [⟨0, 6, .rw, 63, .any⟩, ⟨6, 1, .rw, 0, .any⟩, ⟨7, 1, .rw, 0, .any⟩, ⟨8, 1, .rw, 0, .any⟩, ⟨16, 8, .rw, 10, .any⟩], false⟩ ] ++
  [ ⟨0x1020710, [], [⟨0, 1, .rw, 0, .any⟩, ⟨1, 1, .rw, 0, .any⟩], false⟩,
    ⟨0x10207F0, [], [⟨0, 6, .ro, 0, .any⟩, ⟨8, 5, .ro, 0, .any⟩, ⟨16, 16, .ro, 0, .any⟩], false⟩,
    ⟨0x1020800, [(16, 32)], [⟨0, 6, .ro, 0, .any⟩], false⟩,
    ⟨0x1020804, [(16, 32)], [⟨0, 32, .ro, 0, .any⟩], false⟩,
    ⟨0x1020808, [(16, 32)], [⟨0, 32, .ro, 0, .any⟩], false⟩,
    ⟨0x102080C, [(16, 32)], [⟨0, 16, .ro, 0, .any⟩], false⟩,
    ⟨0x1000000, [], [⟨0, 1, .w1c, 0, .any⟩, ⟨1, 6, .ro, 0, .any⟩, ⟨16, 16, .ro, 0, .any⟩], false⟩,
    ⟨0x1000004, [], [⟨0, 32, .rc, 0, .any⟩], false⟩,
    ⟨0x1000008, [], [⟨0, 1, .ro, 0, .any⟩], false⟩ ]

/-- Table ETH-7. -/
def ethRegs : List RegDef :=
  [ ⟨0xA00000, [(4096, 20)], [⟨0, 1, .rw, 0, .any⟩, ⟨1, 1, .rw, 0, .any⟩], false⟩,
    ⟨0xA00004, [(4096, 20)], [⟨0, 14, .rw, 1518, .any⟩], false⟩,
    ⟨0xA00008, [(4096, 20)], [⟨0, 1, .ro, 0, .any⟩, ⟨1, 1, .ro, 0, .any⟩, ⟨2, 1, .ro, 0, .any⟩, ⟨3, 1, .ro, 0, .any⟩, ⟨4, 1, .ro, 0, .any⟩, ⟨5, 1, .ro, 0, .any⟩, ⟨6, 1, .w1c, 0, .any⟩], false⟩,
    ⟨0xA00010, [(4096, 20)], [⟨0, 32, .rw, 0, .any⟩], true⟩,
    ⟨0xA00014, [(4096, 20)], [⟨0, 16, .rw, 0, .any⟩], false⟩,
    ⟨0xA00020, [(4096, 20), (8, 8)], [⟨0, 32, .rw, 0, .any⟩], false⟩,
    ⟨0xA00024, [(4096, 20), (8, 8)], [⟨0, 16, .rw, 0, .any⟩, ⟨16, 1, .rw, 0, .any⟩, ⟨31, 1, .rw, 0, .any⟩], false⟩,
    ⟨0xA00080, [(4096, 20)], [⟨0, 32, .rc, 0, .any⟩], false⟩,
    ⟨0xA00084, [(4096, 20)], [⟨0, 32, .rc, 0, .any⟩], false⟩,
    ⟨0xA00088, [(4096, 20)], [⟨0, 32, .rc, 0, .any⟩], false⟩,
    ⟨0xA00100, [(4096, 4)], [⟨0, 3, .ro, 5, .any⟩, ⟨4, 3, .ro, 5, .any⟩, ⟨8, 3, .ro, 5, .any⟩], false⟩,
    ⟨0xA04100, [(4096, 8)], [⟨0, 3, .ro, 1, .any⟩, ⟨4, 3, .ro, 1, .any⟩, ⟨8, 3, .ro, 1, .any⟩], false⟩ ] ++
  [ ⟨0xA00104, [(4096, 12)], [⟨0, 2, .rw, 0, .range 0 2⟩], false⟩,
    ⟨0xA00110, [(4096, 12)], [⟨0, 1, .rw, 0, .any⟩, ⟨1, 1, .rw, 0, .any⟩, ⟨8, 8, .rw, 30, .range 1 100⟩, ⟨16, 8, .rw, 80, .range 1 100⟩], false⟩,
    ⟨0xA00114, [(4096, 12)], [⟨0, 12, .rw, 60, .range 0 3600⟩, ⟨16, 16, .rw, 2048, .any⟩], false⟩,
    ⟨0xA00118, [(4096, 12)], [⟨0, 16, .rw, 100, .any⟩, ⟨16, 16, .rw, 20, .range 1 1000⟩], false⟩,
    ⟨0xA0011C, [(4096, 12)], [⟨0, 16, .rw, 1000, .any⟩], false⟩,
    ⟨0xA00120, [(4096, 12)], [⟨0, 3, .ro, 0, .any⟩, ⟨3, 1, .ro, 0, .any⟩, ⟨8, 3, .ro, 0, .any⟩, ⟨16, 16, .ro, 0, .any⟩], false⟩,
    ⟨0xA00124, [(4096, 12)], [⟨0, 32, .rc, 0, .any⟩], false⟩,
    ⟨0xA00128, [(4096, 12)], [⟨0, 32, .rc, 0, .any⟩], false⟩,
    ⟨0xA0012C, [(4096, 12)], [⟨0, 32, .rc, 0, .any⟩], false⟩,
    ⟨0xA00130, [(4096, 12)], [⟨0, 32, .rc, 0, .any⟩], false⟩,
    ⟨0xA00134, [(4096, 12)], [⟨0, 32, .rc, 0, .any⟩], false⟩,
    ⟨0xA00138, [(4096, 12)], [⟨0, 16, .rw, 100, .any⟩, ⟨16, 16, .rw, 16, .any⟩], false⟩ ] ++
  [ ⟨0xA0013C, [(4096, 12)], [⟨0, 16, .rw, 30, .any⟩], false⟩,
    ⟨0xA00140, [(4096, 12)], [⟨0, 1, .rw, 0, .any⟩, ⟨1, 1, .rw, 0, .any⟩, ⟨8, 8, .rw, 10, .range 1 128⟩], false⟩,
    ⟨0xA00144, [(4096, 12)], [⟨0, 32, .ro, 2560, .any⟩], false⟩,
    ⟨0xA00148, [(4096, 12)], [⟨0, 3, .ro, 0, .any⟩, ⟨3, 1, .ro, 0, .any⟩], false⟩,
    ⟨0xA00150, [(4096, 12)], [⟨0, 32, .rc, 0, .any⟩], false⟩,
    ⟨0xA00154, [(4096, 12)], [⟨0, 32, .rc, 0, .any⟩], false⟩,
    ⟨0xA00158, [(4096, 12)], [⟨0, 32, .rc, 0, .any⟩], false⟩,
    ⟨0xA0015C, [(4096, 12)], [⟨0, 32, .rc, 0, .any⟩], false⟩,
    ⟨0xA00180, [(4096, 12)], [⟨0, 1, .rw, 0, .any⟩, ⟨16, 11, .rw, 0, .any⟩], false⟩,
    ⟨0xA00184, [(4096, 12)], [⟨0, 32, .rw, 0, .any⟩], false⟩,
    ⟨0xA00188, [(4096, 12)], [⟨0, 32, .rw, 0, .any⟩], false⟩,
    ⟨0xA00190, [(4096, 12)], [⟨0, 32, .rw, 0, .any⟩], true⟩ ] ++
  [ ⟨0xA00194, [(4096, 12)], [⟨0, 32, .rw, 0, .any⟩], false⟩,
    ⟨0xA001A0, [(4096, 12)], [⟨0, 32, .ro, 0, .any⟩], false⟩,
    ⟨0xA001A4, [(4096, 12)], [⟨0, 32, .ro, 0, .any⟩], false⟩,
    ⟨0xA001A8, [(4096, 12)], [⟨0, 32, .ro, 0, .any⟩], false⟩,
    ⟨0xA001B0, [(4096, 12)], [⟨0, 32, .ro, 0, .any⟩], true⟩,
    ⟨0xA001B4, [(4096, 12)], [⟨0, 32, .ro, 0, .any⟩], false⟩,
    ⟨0xA001C0, [(4096, 12)], [⟨0, 1, .ro, 0, .any⟩, ⟨8, 8, .ro, 255, .any⟩, ⟨16, 11, .ro, 0, .any⟩], false⟩,
    ⟨0xA001C8, [(4096, 12)], [⟨0, 32, .ro, 0, .any⟩], true⟩,
    ⟨0xA001CC, [(4096, 12)], [⟨0, 32, .ro, 0, .any⟩], false⟩,
    ⟨0xA0C200, [(4096, 8)], [⟨0, 1, .rw, 0, .any⟩, ⟨1, 1, .rw, 1, .any⟩, ⟨8, 8, .rw, 255, .any⟩, ⟨16, 8, .rw, 8, .any⟩], false⟩,
    ⟨0xA0C204, [(4096, 8)], [⟨0, 8, .rw, 32, .range 1 255⟩, ⟨8, 8, .rw, 0, .any⟩, ⟨16, 8, .rw, 128, .range 1 255⟩], false⟩,
    ⟨0xA0C208, [(4096, 8)], [⟨0, 1, .ro, 0, .any⟩, ⟨1, 1, .ro, 0, .any⟩], false⟩ ] ++
  [ ⟨0xA0C20C, [(4096, 8)], [⟨0, 32, .rc, 0, .any⟩], false⟩,
    ⟨0xA0C210, [(4096, 8)], [⟨0, 32, .rc, 0, .any⟩], false⟩ ] ++
  -- registers of the other kind of port read 0 and ignore writes (R267)
  [ ⟨0xA0C100, [(4096, 8), (4, 2)], [], false⟩,
    ⟨0xA0C110, [(4096, 8), (4, 15)], [], false⟩,
    ⟨0xA0C150, [(4096, 8), (4, 4)], [], false⟩,
    ⟨0xA0C180, [(4096, 8), (4, 3)], [], false⟩,
    ⟨0xA0C190, [(4096, 8)], [], true⟩,
    ⟨0xA0C194, [(4096, 8)], [], false⟩,
    ⟨0xA0C1A0, [(4096, 8), (4, 3)], [], false⟩,
    ⟨0xA0C1B0, [(4096, 8)], [], true⟩,
    ⟨0xA0C1B4, [(4096, 8)], [], false⟩,
    ⟨0xA0C1C0, [(4096, 8)], [], false⟩,
    ⟨0xA0C1C8, [(4096, 8)], [], true⟩,
    ⟨0xA0C1CC, [(4096, 8)], [], false⟩,
    ⟨0xA00200, [(4096, 12), (4, 5)], [], false⟩ ]

/-- Table ETH-8. -/
def ethcRegs : List RegDef :=
  [ ⟨0xA14000, [], [⟨0, 8, .rw, 4, .any⟩], false⟩,
    ⟨0xA14004, [], [⟨0, 1, .rw, 0, .any⟩, ⟨1, 2, .rw, 0, .any⟩, ⟨3, 5, .rw, 0, .any⟩, ⟨8, 5, .rw, 0, .any⟩, ⟨31, 1, .w1s, 0, .any⟩], false⟩,
    ⟨0xA14008, [], [⟨0, 16, .rw, 0, .any⟩], false⟩,
    ⟨0xA1400C, [], [⟨0, 16, .rw, 0, .any⟩], false⟩,
    ⟨0xA14020, [], [⟨16, 9, .rw, 0, .any⟩], false⟩,
    ⟨0xA14024, [], [⟨0, 1, .rw, 0, .any⟩, ⟨8, 8, .ro, 0, .any⟩, ⟨31, 1, .w1s, 0, .any⟩], false⟩,
    ⟨0xA14028, [(4, 2)], [⟨0, 32, .rw, 0, .any⟩], false⟩ ]

/-- Table TIME-6. -/
def timeRegs : List RegDef :=
  [ ⟨0xB00000, [], [⟨0, 1, .rw, 0, .any⟩, ⟨1, 2, .rw, 0, .any⟩, ⟨3, 2, .rw, 0, .range 0 2⟩, ⟨8, 7, .rw, 0, .any⟩], false⟩,
    ⟨0xB00004, [], [⟨0, 3, .ro, 0, .any⟩, ⟨3, 1, .w1c, 0, .any⟩, ⟨8, 8, .ro, 0, .any⟩], false⟩,
    ⟨0xB00010, [], [⟨0, 32, .ro, 0, .any⟩], true⟩,
    ⟨0xB00014, [], [⟨0, 32, .ro, 0, .any⟩], false⟩,
    ⟨0xB00018, [], [⟨0, 16, .ro, 0, .any⟩], false⟩,
    ⟨0xB00020, [], [⟨0, 32, .rw, 1073741824, .any⟩], true⟩,
    ⟨0xB00024, [], [⟨0, 8, .rw, 1, .any⟩], false⟩,
    ⟨0xB00028, [], [⟨0, 32, .rw, 0, .any⟩], false⟩,
    ⟨0xB0002C, [], [⟨0, 10, .rw, 50, .range 1 500⟩, ⟨30, 1, .ro, 0, .any⟩, ⟨31, 1, .w1s, 0, .any⟩], false⟩,
    ⟨0xB00030, [], [⟨0, 32, .rw, 0, .any⟩], true⟩,
    ⟨0xB00034, [], [⟨0, 32, .rw, 0, .any⟩], false⟩,
    ⟨0xB00038, [], [⟨0, 1, .rw, 0, .any⟩, ⟨31, 1, .w1s, 0, .any⟩], false⟩ ] ++
  [ ⟨0xB00040, [], [⟨0, 20, .rw, 50000, .any⟩, ⟨20, 12, .rw, 500, .any⟩], false⟩,
    ⟨0xB00044, [], [⟨0, 16, .rw, 300, .any⟩], false⟩,
    ⟨0xB00048, [], [⟨0, 32, .ro, 0, .any⟩], true⟩,
    ⟨0xB0004C, [], [⟨0, 32, .ro, 0, .any⟩], false⟩,
    ⟨0xB00050, [], [⟨0, 3, .rw, 5, .range 0 5⟩, ⟨16, 16, .rw, 800, .any⟩], false⟩,
    ⟨0xB00060, [], [⟨0, 1, .w1s, 0, .any⟩], false⟩,
    ⟨0xB00064, [], [⟨0, 32, .ro, 0, .any⟩], false⟩,
    ⟨0xB00068, [], [⟨0, 32, .ro, 0, .any⟩], true⟩,
    ⟨0xB0006C, [], [⟨0, 32, .ro, 0, .any⟩], false⟩,
    ⟨0xB00080, [], [⟨0, 1, .rw, 0, .any⟩, ⟨1, 1, .rw, 0, .any⟩, ⟨2, 1, .rw, 1, .any⟩], false⟩,
    ⟨0xB00084, [], [⟨0, 30, .rw, 0, .range 0 999999999⟩], false⟩,
    ⟨0xB00088, [], [⟨0, 19, .rw, 10000, .range 1 500000⟩], false⟩ ] ++
  [ ⟨0xB00090, [], [⟨0, 1, .rw, 0, .any⟩, ⟨1, 1, .rw, 0, .any⟩], false⟩,
    ⟨0xB00098, [], [⟨0, 32, .ro, 0, .any⟩], true⟩,
    ⟨0xB0009C, [], [⟨0, 32, .ro, 0, .any⟩], false⟩,
    ⟨0xB000A0, [], [⟨0, 32, .rc, 0, .any⟩], false⟩,
    ⟨0xB000A4, [], [⟨0, 32, .rc, 0, .any⟩], false⟩,
    ⟨0xB000B0, [], [⟨0, 32, .rc, 0, .any⟩], false⟩,
    ⟨0xB000B4, [], [⟨0, 32, .rc, 0, .any⟩], false⟩,
    ⟨0xB000B8, [], [⟨0, 32, .rc, 0, .any⟩], false⟩,
    ⟨0xB00100, [(4, 48)], [⟨0, 16, .rw, 0, .any⟩, ⟨16, 16, .rw, 0, .any⟩], false⟩,
    ⟨0xB00200, [(8, 12)], [⟨0, 2, .rw, 0, .range 0 2⟩, ⟨2, 1, .rw, 0, .any⟩, ⟨3, 1, .rw, 1, .any⟩, ⟨8, 8, .rw, 253, .srange (-7) 0⟩, ⟨16, 8, .rw, 0, .srange (-3) 3⟩, ⟨24, 1, .ro, 0, .any⟩], false⟩,
    ⟨0xB00204, [(8, 12)], [⟨0, 32, .rw, 0, .any⟩], false⟩ ]

/-- Table XPT-8. -/
def xptRegs : List RegDef :=
  [ ⟨0xC00000, [], [⟨0, 1, .rw, 0, .any⟩], false⟩,
    ⟨0xC00004, [], [⟨0, 9, .ro, 0, .any⟩, ⟨16, 8, .ro, 0, .any⟩, ⟨24, 8, .ro, 0, .any⟩], false⟩,
    ⟨0xC00010, [], [⟨0, 16, .rw, 1000, .any⟩, ⟨16, 16, .rw, 1000, .any⟩], false⟩,
    ⟨0xC00014, [], [⟨0, 16, .rw, 1000, .any⟩], false⟩,
    ⟨0xC00020, [], [⟨0, 1, .rw, 0, .any⟩, ⟨16, 10, .rw, 0, .any⟩], false⟩,
    ⟨0xC00024, [], [⟨0, 1, .rw, 0, .any⟩, ⟨8, 8, .ro, 0, .any⟩, ⟨31, 1, .w1s, 0, .any⟩], false⟩,
    ⟨0xC00040, [(4, 8)], [⟨0, 32, .rw, 0, .any⟩], false⟩,
    ⟨0xC00100, [], [⟨0, 32, .rc, 0, .any⟩], false⟩,
    ⟨0xC00104, [], [⟨0, 32, .rc, 0, .any⟩], false⟩,
    ⟨0xC00108, [], [⟨0, 32, .rc, 0, .any⟩], false⟩,
    ⟨0xC0010C, [], [⟨0, 32, .rc, 0, .any⟩], false⟩,
    ⟨0xC00110, [], [⟨0, 32, .rc, 0, .any⟩], false⟩ ] ++
  [ ⟨0xC00114, [], [⟨0, 32, .rc, 0, .any⟩], false⟩,
    ⟨0xC00118, [], [⟨0, 32, .rc, 0, .any⟩], false⟩,
    ⟨0xC0011C, [], [⟨0, 32, .rc, 0, .any⟩], false⟩,
    ⟨0xC00120, [], [⟨0, 32, .rc, 0, .any⟩], false⟩,
    ⟨0xC00124, [], [⟨0, 32, .rc, 0, .any⟩], false⟩,
    ⟨0xC00128, [], [⟨0, 32, .rc, 0, .any⟩], false⟩,
    ⟨0xC0012C, [], [⟨0, 32, .rc, 0, .any⟩], false⟩,
    ⟨0xC00130, [], [⟨0, 32, .rc, 0, .any⟩], false⟩,
    ⟨0xC00134, [], [⟨0, 32, .rc, 0, .any⟩], false⟩,
    ⟨0xC00138, [], [⟨0, 32, .rc, 0, .any⟩], false⟩,
    ⟨0xC0013C, [], [⟨0, 32, .rc, 0, .any⟩], false⟩,
    ⟨0xC00140, [], [⟨0, 32, .rc, 0, .any⟩], false⟩ ] ++
  [ ⟨0xC00144, [], [⟨0, 32, .rc, 0, .any⟩], false⟩,
    ⟨0xC00148, [], [⟨0, 32, .rc, 0, .any⟩], false⟩ ]

/-- Table CRY-8. -/
def cryRegs : List RegDef :=
  [ ⟨0xD00000, [], [⟨0, 1, .rw, 0, .any⟩], false⟩,
    ⟨0xD00004, [], [⟨0, 8, .ro, 0, .any⟩, ⟨8, 7, .ro, 0, .any⟩, ⟨15, 1, .ro, 0, .any⟩, ⟨16, 8, .ro, 0, .any⟩, ⟨24, 7, .ro, 0, .any⟩, ⟨31, 1, .w1c, 0, .any⟩], false⟩,
    ⟨0xD00008, [], [⟨0, 12, .ro, 2048, .any⟩, ⟨16, 12, .ro, 0, .any⟩], false⟩,
    ⟨0xD0000C, [], [⟨0, 1, .w1s, 0, .any⟩], false⟩,
    ⟨0xD00020, [], [⟨16, 10, .rw, 0, .any⟩], false⟩,
    ⟨0xD00024, [], [⟨0, 1, .rw, 0, .any⟩, ⟨8, 8, .ro, 0, .any⟩, ⟨31, 1, .w1s, 0, .any⟩], false⟩,
    ⟨0xD00040, [(4, 16)], [⟨0, 32, .rw, 0, .any⟩], false⟩,
    ⟨0xD00100, [(4, 12)], [⟨0, 10, .rw, 0, .any⟩, ⟨31, 1, .rw, 0, .any⟩], false⟩,
    ⟨0xD00200, [], [⟨0, 32, .rc, 0, .any⟩], false⟩,
    ⟨0xD00204, [], [⟨0, 32, .rc, 0, .any⟩], false⟩,
    ⟨0xD00208, [], [⟨0, 32, .rc, 0, .any⟩], false⟩,
    ⟨0xD0020C, [], [⟨0, 32, .rc, 0, .any⟩], false⟩ ] ++
  [ ⟨0xD00210, [], [⟨0, 32, .rc, 0, .any⟩], false⟩,
    ⟨0xD00214, [], [⟨0, 32, .rc, 0, .any⟩], false⟩,
    ⟨0xD00218, [], [⟨0, 32, .rc, 0, .any⟩], false⟩,
    ⟨0xD0021C, [], [⟨0, 32, .rc, 0, .any⟩], false⟩,
    ⟨0xD00220, [], [⟨0, 32, .rc, 0, .any⟩], false⟩,
    ⟨0xD00224, [], [⟨0, 32, .rc, 0, .any⟩], false⟩,
    ⟨0xD00228, [], [⟨0, 32, .rc, 0, .any⟩], false⟩,
    ⟨0xD0022C, [], [⟨0, 32, .rc, 0, .any⟩], false⟩,
    ⟨0xD00230, [], [⟨0, 32, .rc, 0, .any⟩], false⟩,
    ⟨0xD00234, [], [⟨0, 32, .rc, 0, .any⟩], false⟩ ]

/-- Table VLT-11. -/
def vaultRegs : List RegDef :=
  [ ⟨0xE00000, [], [⟨0, 2, .ro, 0, .any⟩, ⟨2, 1, .ro, 1, .any⟩, ⟨3, 1, .ro, 0, .any⟩, ⟨4, 1, .ro, 0, .any⟩, ⟨5, 1, .w1c, 0, .any⟩, ⟨6, 2, .ro, 0, .any⟩], false⟩,
    ⟨0xE00010, [(4, 4)], [⟨0, 32, .ro, 0, .any⟩], false⟩,
    ⟨0xE00020, [], [⟨0, 32, .ro, 0, .any⟩], false⟩,
    ⟨0xE00024, [], [⟨0, 32, .ro, 0, .any⟩], false⟩,
    ⟨0xE00030, [], [⟨0, 1, .w1s, 0, .any⟩, ⟨1, 1, .w1s, 0, .any⟩], false⟩,
    ⟨0xE00034, [], [⟨0, 32, .rw, 0, .any⟩], false⟩,
    ⟨0xE00040, [(4, 12)], [⟨0, 32, .ro, 0, .any⟩], false⟩,
    ⟨0xE00080, [(4, 8)], [⟨0, 32, .ro, 0, .any⟩], false⟩,
    ⟨0xE000A0, [(4, 12)], [⟨0, 32, .wo, 0, .any⟩], false⟩,
    ⟨0xE000E0, [(4, 8)], [⟨0, 32, .wo, 0, .any⟩], false⟩,
    ⟨0xE00100, [(4, 4)], [⟨0, 32, .ro, 0, .any⟩], false⟩,
    ⟨0xE00110, [], [⟨0, 1, .w1s, 0, .any⟩], false⟩ ] ++
  [ ⟨0xE00120, [], [⟨0, 8, .rw, 0, .any⟩], false⟩,
    ⟨0xE00124, [], [⟨0, 8, .ro, 0, .any⟩, ⟨8, 8, .ro, 0, .any⟩, ⟨16, 16, .ro, 0, .any⟩], false⟩,
    ⟨0xE00128, [], [⟨0, 32, .ro, 0, .any⟩], false⟩,
    ⟨0xE00130, [], [⟨0, 32, .ro, 0, .any⟩], true⟩,
    ⟨0xE00134, [], [⟨0, 32, .ro, 0, .any⟩], false⟩,
    ⟨0xE00140, [(4, 8)], [⟨0, 32, .ro, 0, .any⟩], false⟩,
    ⟨0xE00200, [], [⟨0, 1, .rwo, 0, .any⟩, ⟨1, 1, .rwo, 0, .any⟩, ⟨2, 1, .rwo, 0, .any⟩, ⟨3, 1, .rwo, 0, .any⟩, ⟨8, 8, .rwo, 10, .any⟩], false⟩,
    ⟨0xE00210, [], [⟨0, 6, .ro, 0, .any⟩, ⟨8, 5, .ro, 0, .any⟩, ⟨16, 16, .ro, 0, .any⟩], false⟩,
    ⟨0xE00220, [(16, 32)], [⟨0, 8, .ro, 0, .any⟩, ⟨8, 8, .ro, 0, .any⟩, ⟨16, 16, .ro, 0, .any⟩], false⟩,
    ⟨0xE00224, [(16, 32)], [⟨0, 32, .ro, 0, .any⟩], false⟩,
    ⟨0xE00228, [(16, 32)], [⟨0, 32, .ro, 0, .any⟩], false⟩,
    ⟨0xE0022C, [(16, 32)], [], false⟩ ] ++
  [ ⟨0xE00500, [(4, 4)], [⟨0, 32, .ro, 0, .any⟩], false⟩,
    ⟨0xE00510, [], [⟨0, 32, .rw, 0, .any⟩], false⟩,
    ⟨0xE00520, [(4, 8)], [⟨0, 32, .wo, 0, .any⟩], false⟩,
    ⟨0xE00540, [], [⟨0, 1, .w1s, 0, .any⟩, ⟨1, 1, .w1s, 0, .any⟩, ⟨2, 1, .w1s, 0, .any⟩, ⟨8, 8, .ro, 0, .any⟩, ⟨16, 8, .rw, 0, .any⟩], false⟩,
    ⟨0xE00560, [], [⟨0, 32, .rc, 0, .any⟩], false⟩,
    ⟨0xE00564, [], [⟨0, 32, .rc, 0, .any⟩], false⟩,
    ⟨0xE00568, [], [⟨0, 32, .rc, 0, .any⟩], false⟩,
    ⟨0xE0056C, [], [⟨0, 32, .rc, 0, .any⟩], false⟩ ]

/-- Table NM-8. -/
def nmRegs : List RegDef :=
  [ ⟨0xF00000, [], [⟨0, 1, .rw, 0, .any⟩], false⟩,
    ⟨0xF00004, [], [⟨0, 16, .rw, 500, .any⟩, ⟨16, 16, .rw, 60, .any⟩], false⟩,
    ⟨0xF00008, [], [⟨0, 8, .rw, 3, .any⟩, ⟨16, 16, .rw, 3600, .any⟩], false⟩,
    ⟨0xF0000C, [], [⟨0, 16, .rw, 0, .any⟩], false⟩,
    ⟨0xF00010, [], [⟨0, 2, .ro, 0, .any⟩], false⟩,
    ⟨0xF00014, [], [⟨0, 1, .w1s, 0, .any⟩, ⟨1, 1, .w1c, 0, .any⟩], false⟩,
    ⟨0xF00020, [], [⟨0, 32, .rc, 0, .any⟩], false⟩,
    ⟨0xF00024, [], [⟨0, 32, .rc, 0, .any⟩], false⟩,
    ⟨0xF00028, [], [⟨0, 32, .rc, 0, .any⟩], false⟩,
    ⟨0xF0002C, [], [⟨0, 32, .rc, 0, .any⟩], false⟩,
    ⟨0xF00100, [(32, 48)], [⟨0, 1, .rw, 0, .any⟩, ⟨1, 1, .rw, 0, .any⟩, ⟨2, 2, .rw, 0, .any⟩, ⟨4, 3, .rw, 1, .range 1 2⟩, ⟨8, 8, .rw, 0, .any⟩, ⟨16, 4, .rw, 8, .range 2 8⟩], false⟩,
    ⟨0xF00104, [(32, 48)], [⟨0, 1, .rw, 1, .any⟩, ⟨1, 1, .w1s, 0, .any⟩], false⟩ ] ++
  [ ⟨0xF00108, [(32, 48)], [⟨0, 3, .ro, 0, .any⟩, ⟨3, 1, .ro, 0, .any⟩, ⟨4, 1, .ro, 0, .any⟩, ⟨5, 1, .w1c, 0, .any⟩, ⟨8, 8, .ro, 0, .any⟩, ⟨16, 6, .ro, 0, .any⟩, ⟨24, 8, .ro, 0, .any⟩], false⟩,
    ⟨0xF0010C, [(32, 48)], [⟨0, 29, .rw, 0, .any⟩, ⟨29, 1, .rw, 0, .any⟩, ⟨30, 1, .rw, 0, .any⟩], false⟩,
    ⟨0xF00110, [(32, 48)], [⟨0, 29, .rw, 0, .any⟩], false⟩,
    ⟨0xF00114, [(32, 48)], [⟨0, 29, .rw, 0, .any⟩, ⟨29, 1, .rw, 0, .any⟩], false⟩,
    ⟨0xF00118, [(32, 48)], [⟨0, 16, .rw, 1500, .any⟩, ⟨16, 16, .rw, 300, .any⟩], false⟩,
    ⟨0xF0011C, [(32, 48)], [⟨0, 16, .rw, 100, .any⟩, ⟨16, 16, .rw, 2000, .any⟩], false⟩ ]

/-- Table LOAD-9. -/
def loadRegs : List RegDef :=
  [ ⟨0x1010000, [(128, 24)], [⟨0, 2, .rw, 0, .range 0 2⟩, ⟨2, 2, .rw, 0, .range 0 2⟩, ⟨4, 2, .rw, 0, .any⟩, ⟨6, 1, .rw, 0, .any⟩, ⟨7, 1, .rw, 0, .any⟩, ⟨8, 1, .rw, 0, .any⟩, ⟨12, 4, .rw, 0, .any⟩, ⟨16, 4, .rw, 0, .any⟩, ⟨20, 3, .rw, 0, .any⟩], false⟩,
    ⟨0x1010004, [(128, 24)], [⟨0, 16, .rw, 100, .any⟩, ⟨16, 4, .rw, 4, .range 4 10⟩, ⟨20, 4, .rw, 4, .range 2 8⟩, ⟨24, 8, .rw, 0, .any⟩], false⟩,
    ⟨0x1010008, [(128, 24)], [⟨0, 15, .rw, 200, .range 10 25000⟩, ⟨16, 14, .rw, 0, .range 0 9999⟩], false⟩,
    ⟨0x101000C, [(128, 24)], [⟨0, 4, .rw, 3, .any⟩, ⟨16, 16, .rw, 100, .any⟩], false⟩,
    ⟨0x1010010, [(128, 24)], [⟨0, 14, .rw, 10000, .range 0 10000⟩], false⟩,
    ⟨0x1010014, [(128, 24)], [⟨0, 16, .rw, 1000, .range 100 65535⟩, ⟨16, 8, .rw, 25, .range 5 255⟩], false⟩,
    ⟨0x1010018, [(128, 24)], [⟨0, 16, .rw, 0, .any⟩], false⟩,
    ⟨0x1010020, [(128, 24)], [⟨0, 2, .wo, 0, .any⟩, ⟨16, 14, .wo, 0, .any⟩], false⟩,
    ⟨0x1010024, [(128, 24)], [⟨0, 3, .ro, 0, .any⟩, ⟨3, 3, .ro, 0, .any⟩, ⟨6, 1, .ro, 0, .any⟩, ⟨7, 1, .ro, 0, .any⟩, ⟨8, 4, .ro, 0, .any⟩, ⟨16, 14, .ro, 0, .any⟩], false⟩,
    ⟨0x1010028, [(128, 24)], [⟨0, 16, .ro, 0, .any⟩, ⟨16, 8, .ro, 0, .any⟩, ⟨24, 8, .ro, 0, .any⟩], false⟩,
    ⟨0x101002C, [(128, 24)], [⟨0, 16, .ro, 0, .any⟩], false⟩,
    ⟨0x1010030, [(128, 24)], [⟨0, 12, .w1c, 0, .any⟩, ⟨12, 1, .w1c, 0, .any⟩], false⟩ ] ++
  [ ⟨0x1010034, [(128, 24)], [⟨0, 32, .rc, 0, .any⟩], false⟩,
    ⟨0x1010038, [(128, 24)], [⟨0, 32, .rc, 0, .any⟩], false⟩ ]

/-- Table LOAD-10. -/
def loadcRegs : List RegDef :=
  [ ⟨0x1011000, [(4, 3)], [⟨0, 16, .rw, 2000, .any⟩, ⟨16, 8, .rw, 50, .range 10 255⟩], false⟩,
    ⟨0x1011010, [(4, 3)], [⟨0, 16, .ro, 0, .any⟩], false⟩,
    ⟨0x1011020, [], [⟨0, 1, .w1c, 0, .any⟩], false⟩,
    ⟨0x1011024, [], [⟨0, 8, .rw, 65, .srange (-40) 125⟩], false⟩,
    ⟨0x1011030, [], [⟨0, 1, .rwl, 0, .any⟩, ⟨2, 3, .rwl, 5, .any⟩, ⟨16, 10, .rwl, 100, .range 1 1000⟩], false⟩,
    ⟨0x1011034, [], [⟨0, 8, .wo, 0, .any⟩], false⟩,
    ⟨0x1011038, [], [⟨0, 8, .ro, 90, .any⟩, ⟨8, 1, .ro, 0, .any⟩, ⟨16, 16, .ro, 0, .any⟩], false⟩,
    ⟨0x101103C, [], [⟨0, 1, .w1s, 0, .any⟩], false⟩,
    ⟨0x1011040, [], [⟨0, 24, .rwl, 0, .any⟩], false⟩,
    ⟨0x1011044, [], [⟨0, 32, .rwl, 0, .any⟩], false⟩,
    ⟨0x1011048, [], [⟨0, 16, .rwl, 0, .any⟩], false⟩,
    ⟨0x101104C, [], [⟨0, 1, .w1s, 0, .any⟩], false⟩ ] ++
  [ ⟨0x1011050, [], [⟨0, 1, .ro, 0, .any⟩, ⟨1, 4, .ro, 0, .any⟩], false⟩,
    ⟨0x1011060, [], [⟨0, 1, .ro, 0, .any⟩, ⟨1, 1, .ro, 0, .any⟩, ⟨2, 1, .ro, 0, .any⟩, ⟨3, 1, .w1c, 0, .any⟩, ⟨8, 5, .ro, 0, .any⟩], false⟩,
    ⟨0x1011064, [], [⟨0, 1, .ro, 0, .any⟩], false⟩,
    ⟨0x1011080, [], [⟨0, 32, .rc, 0, .any⟩], false⟩,
    ⟨0x1011084, [], [⟨0, 32, .rc, 0, .any⟩], false⟩,
    ⟨0x1011088, [], [⟨0, 32, .rc, 0, .any⟩], false⟩ ]

/-- Table HIF-13. -/
def hifRegs : List RegDef :=
  [ ⟨0x100000, [], [⟨0, 1, .ro, 0, .any⟩, ⟨1, 3, .ro, 0, .any⟩, ⟨4, 3, .ro, 0, .any⟩, ⟨16, 9, .ro, 0, .any⟩], false⟩,
    ⟨0x100004, [], [⟨0, 6, .rw, 0, .any⟩], false⟩,
    ⟨0x100010, [], [⟨0, 32, .ro, 0, .any⟩], false⟩,
    ⟨0x100014, [], [⟨0, 32, .rc, 0, .any⟩], false⟩,
    ⟨0x100100, [(4, 12)], [⟨0, 8, .rw, 32, .any⟩, ⟨8, 8, .rw, 32, .any⟩, ⟨16, 8, .rw, 32, .any⟩, ⟨24, 8, .rw, 32, .any⟩], false⟩,
    ⟨0x100200, [], [⟨0, 1, .rw, 0, .any⟩], false⟩,
    ⟨0x100208, [], [⟨0, 32, .rc, 0, .any⟩], false⟩,
    ⟨0x10020C, [], [⟨0, 32, .rc, 0, .any⟩], false⟩,
    ⟨0x101000, [(64, 64)], [⟨0, 32, .rw, 0, .any⟩], true⟩,
    ⟨0x101004, [(64, 64)], [⟨0, 32, .rw, 0, .any⟩], false⟩,
    ⟨0x101008, [(64, 64)], [⟨0, 32, .rw, 0, .any⟩], true⟩,
    ⟨0x10100C, [(64, 64)], [⟨0, 32, .rw, 0, .any⟩], false⟩ ] ++
  [ ⟨0x101010, [(64, 64)], [⟨0, 1, .rw, 0, .any⟩, ⟨1, 5, .rw, 6, .range 6 16⟩, ⟨8, 6, .rw, 0, .any⟩, ⟨14, 1, .rw, 0, .any⟩], false⟩,
    ⟨0x101014, [(64, 64)], [⟨0, 10, .rw, 0, .any⟩, ⟨16, 8, .rw, 1, .any⟩], false⟩,
    ⟨0x101018, [(64, 64)], [⟨0, 1, .ro, 0, .any⟩, ⟨1, 1, .ro, 0, .any⟩, ⟨2, 1, .w1c, 0, .any⟩, ⟨3, 1, .w1c, 0, .any⟩], false⟩,
    ⟨0x10101C, [(64, 64)], [⟨0, 32, .ro, 0, .any⟩], false⟩,
    ⟨0x101020, [(64, 64)], [⟨0, 32, .ro, 0, .any⟩], false⟩,
    ⟨0x101024, [(64, 64)], [⟨0, 32, .rc, 0, .any⟩], false⟩ ]

/-- Table REG-3. -/
def globalRegs : List RegDef :=
  [ ⟨0x0, [], [⟨0, 16, .ro, 176, .any⟩, ⟨16, 16, .ro, 18560, .any⟩], false⟩,
    ⟨0x4, [], [⟨0, 32, .rw, 0, .any⟩], false⟩,
    ⟨0x10, [], [⟨2, 24, .rw, 0, .any⟩, ⟨28, 1, .rw, 0, .any⟩, ⟨29, 1, .rw, 0, .any⟩], false⟩,
    ⟨0x14, [], [⟨0, 32, .rw, 0, .any⟩], false⟩,
    ⟨0x18, [], [⟨0, 1, .ro, 0, .any⟩], false⟩,
    ⟨0x20, [], [⟨0, 16, .rw, 100, .any⟩], false⟩,
    ⟨0x30, [], [⟨0, 26, .ro, 0, .any⟩], false⟩,
    ⟨0x34, [], [⟨0, 32, .ro, 0, .any⟩], false⟩,
    ⟨0x38, [], [⟨0, 3, .ro, 0, .any⟩, ⟨31, 1, .w1c, 0, .any⟩], false⟩,
    ⟨0x40, [], [⟨0, 32, .ro, 0, .any⟩], true⟩,
    ⟨0x44, [], [⟨0, 32, .ro, 0, .any⟩], false⟩,
    ⟨0x48, [], [⟨0, 32, .rc, 0, .any⟩], false⟩ ] ++
  [ ⟨0x50, [], [⟨0, 32, .rc, 0, .any⟩], false⟩,
    ⟨0x54, [], [⟨0, 26, .ro, 0, .any⟩, ⟨31, 1, .w1c, 0, .any⟩], false⟩,
    ⟨0x58, [], [⟨0, 32, .rc, 0, .any⟩], false⟩,
    ⟨0x5C, [], [⟨0, 32, .rc, 0, .any⟩], false⟩,
    ⟨0x60, [], [⟨0, 32, .rc, 0, .any⟩], false⟩ ]

/-- Tables FLT-1 and FLT-7, offsets within the fault page. -/
def fltRegs : List RegDef :=
  [ ⟨0xF00, [], [⟨0, 24, .w1c, 0, .any⟩, ⟨29, 1, .ro, 0, .any⟩, ⟨30, 1, .w1c, 0, .any⟩, ⟨31, 1, .w1c, 0, .any⟩], false⟩,
    ⟨0xF04, [], [⟨0, 24, .rw, 0, .any⟩, ⟨30, 1, .rw, 0, .any⟩, ⟨31, 1, .rw, 0, .any⟩], false⟩,
    ⟨0xF08, [], [⟨0, 1, .w1c, 0, .any⟩, ⟨1, 3, .ro, 0, .any⟩, ⟨4, 3, .ro, 0, .any⟩, ⟨7, 1, .ro, 0, .any⟩, ⟨8, 5, .ro, 0, .any⟩, ⟨16, 16, .ro, 0, .any⟩], false⟩,
    ⟨0xF0C, [], [⟨0, 32, .ro, 0, .any⟩], false⟩,
    ⟨0xF10, [], [⟨0, 32, .ro, 0, .any⟩], true⟩,
    ⟨0xF14, [], [⟨0, 32, .ro, 0, .any⟩], false⟩,
    ⟨0xF18, [], [⟨0, 32, .rc, 0, .any⟩], false⟩,
    ⟨0xF20, [], [⟨0, 16, .rwl, 1000, .any⟩, ⟨16, 16, .rwl, 4, .any⟩], false⟩,
    ⟨0xF24, [], [⟨0, 5, .rwl, 1, .any⟩, ⟨31, 1, .w1s, 0, .any⟩], false⟩,
    ⟨0xF28, [], [⟨0, 16, .ro, 0, .any⟩], false⟩,
    ⟨0xF2C, [], [⟨0, 32, .rc, 0, .any⟩], false⟩,
    ⟨0xF30, [], [⟨0, 32, .rc, 0, .any⟩], false⟩ ] ++
  [ ⟨0xF34, [], [⟨0, 1, .w1s, 0, .any⟩, ⟨4, 4, .rw, 0, .any⟩], false⟩,
    ⟨0xFC0, [], [⟨0, 10, .rw, 0, .any⟩, ⟨12, 4, .rw, 0, .any⟩, ⟨31, 1, .rw, 0, .any⟩], false⟩,
    ⟨0xFC4, [], [⟨0, 8, .rw, 0, .any⟩, ⟨8, 4, .rw, 0, .any⟩, ⟨31, 1, .rw, 0, .any⟩], false⟩,
    ⟨0xFC8, [], [⟨0, 16, .rw, 0, .any⟩, ⟨31, 1, .rw, 0, .any⟩], false⟩,
    ⟨0xFCC, [], [⟨0, 2, .rw, 0, .any⟩, ⟨4, 4, .rw, 0, .any⟩, ⟨8, 8, .rw, 0, .any⟩, ⟨31, 1, .w1s, 0, .any⟩], false⟩,
    ⟨0xFD0, [], [⟨0, 20, .rw, 0, .any⟩, ⟨20, 4, .rw, 0, .any⟩, ⟨24, 5, .rw, 0, .any⟩, ⟨31, 1, .w1s, 0, .any⟩], false⟩,
    ⟨0xFD4, [], [⟨0, 32, .rw, 0, .any⟩], false⟩,
    ⟨0xFD8, [], [⟨0, 14, .rw, 0, .any⟩, ⟨14, 1, .rw, 0, .any⟩, ⟨16, 8, .rw, 0, .any⟩, ⟨31, 1, .rw, 0, .any⟩], false⟩,
    ⟨0xFDC, [], [⟨0, 8, .rw, 0, .any⟩, ⟨8, 8, .rw, 0, .any⟩, ⟨31, 1, .rw, 0, .any⟩], false⟩ ]

/-- Table FLT-9. -/
def testRegs : List RegDef :=
  [ ⟨0x1100000, [(4, 3)], [⟨0, 32, .ro, 0, .any⟩], false⟩,
    ⟨0x1100010, [(4, 3)], [⟨0, 32, .ro, 0, .any⟩], false⟩,
    ⟨0x1100020, [], [⟨0, 1, .w1s, 0, .any⟩, ⟨1, 1, .rw, 0, .any⟩, ⟨8, 1, .ro, 0, .any⟩], false⟩,
    ⟨0x1100030, [], [⟨0, 32, .rc, 0, .any⟩], false⟩,
    ⟨0x1100034, [], [⟨0, 32, .rc, 0, .any⟩], false⟩ ]

/-- Table FW-8. -/
def bootRegs : List RegDef :=
  [ ⟨0x1200000, [], [⟨0, 2, .ro, 0, .any⟩, ⟨2, 1, .ro, 0, .any⟩, ⟨3, 1, .ro, 0, .any⟩, ⟨4, 3, .ro, 0, .any⟩, ⟨7, 1, .ro, 0, .any⟩, ⟨8, 8, .ro, 0, .any⟩], false⟩,
    ⟨0x1200004, [], [⟨0, 32, .ro, 0, .any⟩], false⟩,
    ⟨0x1200008, [], [⟨0, 32, .ro, 0, .any⟩], false⟩,
    ⟨0x120000C, [], [⟨0, 32, .ro, 0, .any⟩], false⟩,
    ⟨0x1200010, [], [⟨0, 32, .ro, 0, .any⟩], false⟩,
    ⟨0x1200014, [], [⟨0, 13, .ro, 0, .any⟩, ⟨16, 13, .ro, 0, .any⟩], false⟩,
    ⟨0x1200018, [], [⟨0, 13, .ro, 0, .any⟩], false⟩,
    ⟨0x120001C, [], [⟨0, 4, .ro, 0, .any⟩], false⟩,
    ⟨0x1200020, [], [⟨0, 32, .rwo, 0, .any⟩], true⟩,
    ⟨0x1200024, [], [⟨0, 16, .rwo, 0, .any⟩], false⟩,
    ⟨0x1200028, [], [⟨0, 16, .rw, 30880, .any⟩, ⟨16, 1, .rw, 1, .any⟩], false⟩,
    ⟨0x1200040, [(4, 8)], [⟨0, 32, .wo, 0, .any⟩], false⟩ ] ++
  [ ⟨0x1200060, [], [⟨0, 2, .rw, 0, .any⟩, ⟨8, 8, .ro, 0, .any⟩, ⟨31, 1, .w1s, 0, .any⟩], false⟩,
    ⟨0x1200080, [], [⟨0, 32, .rc, 0, .any⟩], false⟩,
    ⟨0x1200084, [], [⟨0, 32, .rc, 0, .any⟩], false⟩,
    ⟨0x1200088, [], [⟨0, 32, .rc, 0, .any⟩], false⟩,
    ⟨0x120008C, [], [⟨0, 32, .rc, 0, .any⟩], false⟩,
    ⟨0x1200090, [], [⟨0, 32, .rc, 0, .any⟩], false⟩,
    ⟨0x1200094, [], [⟨0, 32, .rc, 0, .any⟩], false⟩,
    ⟨0x1200098, [], [⟨0, 32, .rc, 0, .any⟩], false⟩,
    ⟨0x1200100, [(32, 4), (4, 8)], [⟨0, 32, .ro, 0, .any⟩], false⟩ ]

/-- Table PWR-8. -/
def supvRegs : List RegDef :=
  [ ⟨0x1030000, [], [⟨0, 14, .ro, 0, .any⟩, ⟨16, 14, .ro, 0, .any⟩], false⟩,
    ⟨0x1030004, [], [⟨0, 14, .w1s, 0, .any⟩], false⟩,
    ⟨0x1030008, [], [⟨0, 14, .rwl, 16383, .any⟩], false⟩,
    ⟨0x103000C, [], [⟨0, 1, .w1c, 0, .any⟩], false⟩,
    ⟨0x1030010, [], [⟨0, 4, .rw, 4, .range 0 12⟩, ⟨16, 10, .rw, 100, .range 1 1000⟩], false⟩,
    ⟨0x1030014, [], [⟨0, 14, .rw, 0, .any⟩, ⟨16, 1, .rw, 0, .any⟩], false⟩,
    ⟨0x1030018, [], [⟨0, 1, .ro, 0, .any⟩, ⟨1, 1, .ro, 0, .any⟩, ⟨2, 1, .ro, 0, .any⟩, ⟨3, 1, .ro, 0, .any⟩], false⟩,
    ⟨0x103001C, [], [⟨0, 16, .ro, 0, .any⟩], false⟩,
    ⟨0x1030020, [], [⟨0, 32, .rc, 0, .any⟩], false⟩,
    ⟨0x1030024, [], [⟨0, 32, .rc, 0, .any⟩], false⟩,
    ⟨0x1030030, [], [⟨0, 1, .w1s, 0, .any⟩, ⟨1, 1, .w1s, 0, .any⟩], false⟩,
    ⟨0x1030040, [], [⟨0, 8, .ro, 1, .any⟩, ⟨8, 8, .ro, 0, .any⟩], false⟩ ] ++
  [ ⟨0x1030044, [], [⟨0, 32, .ro, 0, .any⟩], false⟩,
    ⟨0x1030048, [], [⟨0, 32, .ro, 0, .any⟩], false⟩,
    ⟨0x103004C, [], [⟨0, 32, .ro, 0, .any⟩], false⟩,
    ⟨0x1030050, [], [⟨0, 32, .ro, 0, .any⟩], true⟩,
    ⟨0x1030054, [], [⟨0, 32, .ro, 0, .any⟩], false⟩,
    ⟨0x1030058, [], [⟨0, 32, .ro, 0, .any⟩], false⟩,
    ⟨0x1030060, [], [⟨0, 14, .rw, 1000, .range 1 10000⟩, ⟨31, 1, .rw, 0, .any⟩], false⟩,
    ⟨0x1030064, [], [⟨0, 32, .wo, 0, .any⟩], false⟩,
    ⟨0x1030070, [], [⟨0, 1, .ro, 0, .any⟩, ⟨1, 1, .ro, 0, .any⟩, ⟨2, 1, .ro, 0, .any⟩, ⟨3, 1, .ro, 0, .any⟩, ⟨4, 1, .ro, 0, .any⟩], false⟩ ]

end Sys2Proof.Machine
end

