-- ==== Sys2Proof/Machine/Fields.lean ====
section
/-!
DEFINITION. The address of every register (`R.<BLOCK>_<REGISTER>`, with its page and index numbers as arguments)
and the place of every field (`F.<BLOCK>_<REGISTER>_<FIELD>`), from the register tables of the manual.
-/
namespace Sys2Proof.Machine

/-- A field of a register: BAR0 offset, lowest bit, width. A width above 32 spans the LO and the HI word (R441). -/
structure FieldRef where
  addr : Nat
  lo : Nat
  w : Nat
  deriving DecidableEq, Repr

/-- The fault page of block `b` (Table FLT-8). -/
def faultPage (b : Nat) : Nat :=
  if b == 0 then 0x0 else if b == 1 then 0x100000 else if b == 2 then 0x200000 else if b == 3 then 0x400000
  else if b == 4 then 0x600000 else if b == 5 then 0x700000
  else if b < 26 then 0x800000 + 0x1000 * (b - 6)
  else if b == 26 then 0x814000
  else if b < 35 then 0x900000 + 0x1000 * (b - 27)
  else if b < 55 then 0xA00000 + 0x1000 * (b - 35)
  else if b == 55 then 0xA14000 else if b == 56 then 0xB00000 else if b == 57 then 0xC00000
  else if b == 58 then 0xD00000 else if b == 59 then 0xE00000 else if b == 60 then 0xF00000
  else if b == 61 then 0x1000000 else if b == 62 then 0x1011000 else if b == 63 then 0x1030000
  else if b == 64 then 0x1100000 else 0x1200000

/-! ### ANVIL: Table PROM-15 -/

def R.ANVIL_STATUS : Nat := 0x600000
def F.ANVIL_STATUS_CONTRACTS : FieldRef := ⟨R.ANVIL_STATUS, 0, 13⟩
def F.ANVIL_STATUS_PINNED : FieldRef := ⟨R.ANVIL_STATUS, 16, 7⟩
def R.ANVIL_QUEUE : Nat := 0x600004
def F.ANVIL_QUEUE_PENDING : FieldRef := ⟨R.ANVIL_QUEUE, 0, 7⟩
def R.ANVIL_RSV_HANDLES : Nat := 0x600008
def F.ANVIL_RSV_HANDLES_HANDLES : FieldRef := ⟨R.ANVIL_RSV_HANDLES, 0, 17⟩
def R.ANVIL_RSV_CELLS : Nat := 0x60000C
def F.ANVIL_RSV_CELLS_HALF_A : FieldRef := ⟨R.ANVIL_RSV_CELLS, 0, 16⟩
def F.ANVIL_RSV_CELLS_HALF_B : FieldRef := ⟨R.ANVIL_RSV_CELLS, 16, 16⟩
def R.ANVIL_BE_AGE (i : Nat) : Nat := 0x600040 + 4 * i
def F.ANVIL_BE_AGE_AGE_US (i : Nat) : FieldRef := ⟨R.ANVIL_BE_AGE i, 0, 20⟩
def R.ANVIL_LEDGER_HOLD : Nat := 0x600060
def F.ANVIL_LEDGER_HOLD_HOLD_MS : FieldRef := ⟨R.ANVIL_LEDGER_HOLD, 0, 16⟩
def R.ANVIL_BREACHES : Nat := 0x600080
def F.ANVIL_BREACHES_COUNT : FieldRef := ⟨R.ANVIL_BREACHES, 0, 32⟩
def R.ANVIL_EXCUSED : Nat := 0x600084
def F.ANVIL_EXCUSED_COUNT : FieldRef := ⟨R.ANVIL_EXCUSED, 0, 32⟩
def R.ANVIL_STEP_REFUSED : Nat := 0x600088
def F.ANVIL_STEP_REFUSED_COUNT : FieldRef := ⟨R.ANVIL_STEP_REFUSED, 0, 32⟩
def R.ANVIL_LEDGER_VIOL : Nat := 0x60008C
def F.ANVIL_LEDGER_VIOL_COUNT : FieldRef := ⟨R.ANVIL_LEDGER_VIOL, 0, 32⟩
def R.ANVIL_LAST_BREACH : Nat := 0x600090
def F.ANVIL_LAST_BREACH_CONTRACT : FieldRef := ⟨R.ANVIL_LAST_BREACH, 0, 12⟩
def F.ANVIL_LAST_BREACH_PORT : FieldRef := ⟨R.ANVIL_LAST_BREACH, 16, 6⟩
def F.ANVIL_LAST_BREACH_VALID : FieldRef := ⟨R.ANVIL_LAST_BREACH, 31, 1⟩
def R.ANVIL_MEAS_CTRL : Nat := 0x6000A0
def F.ANVIL_MEAS_CTRL_FREEZE : FieldRef := ⟨R.ANVIL_MEAS_CTRL, 0, 1⟩
def R.ANVIL_BES_SEL : Nat := 0x6000C0
def F.ANVIL_BES_SEL_PORT : FieldRef := ⟨R.ANVIL_BES_SEL, 0, 5⟩
def F.ANVIL_BES_SEL_TC : FieldRef := ⟨R.ANVIL_BES_SEL, 8, 3⟩
def R.ANVIL_BES_RATE : Nat := 0x6000C4
def F.ANVIL_BES_RATE_RATE : FieldRef := ⟨R.ANVIL_BES_RATE, 0, 32⟩
def R.ANVIL_BES_BURST : Nat := 0x6000C8
def F.ANVIL_BES_BURST_BURST : FieldRef := ⟨R.ANVIL_BES_BURST, 0, 24⟩
def R.ANVIL_BES_OPER : Nat := 0x6000CC
def F.ANVIL_BES_OPER_RATE : FieldRef := ⟨R.ANVIL_BES_OPER, 0, 32⟩

/-! ### FWD: Table PIPE-5 -/

def R.FWD_CTRL : Nat := 0x200000
def F.FWD_CTRL_FWD_EN : FieldRef := ⟨R.FWD_CTRL, 0, 1⟩
def R.FWD_STATUS : Nat := 0x200004
def F.FWD_STATUS_READY_A : FieldRef := ⟨R.FWD_STATUS, 0, 1⟩
def F.FWD_STATUS_READY_B : FieldRef := ⟨R.FWD_STATUS, 1, 1⟩
def R.FWD_HANDLES : Nat := 0x200010
def F.FWD_HANDLES_FREE : FieldRef := ⟨R.FWD_HANDLES, 0, 17⟩
def R.FWD_CELLS : Nat := 0x200014
def F.FWD_CELLS_FREE_A : FieldRef := ⟨R.FWD_CELLS, 0, 16⟩
def F.FWD_CELLS_FREE_B : FieldRef := ⟨R.FWD_CELLS, 16, 16⟩
def R.FWD_UNUSED_RSV_H : Nat := 0x200018
def F.FWD_UNUSED_RSV_H_HANDLES : FieldRef := ⟨R.FWD_UNUSED_RSV_H, 0, 17⟩
def R.FWD_UNUSED_RSV_C : Nat := 0x20001C
def F.FWD_UNUSED_RSV_C_HALF_A : FieldRef := ⟨R.FWD_UNUSED_RSV_C, 0, 16⟩
def F.FWD_UNUSED_RSV_C_HALF_B : FieldRef := ⟨R.FWD_UNUSED_RSV_C, 16, 16⟩
def R.FWD_RSV_OVERRUN : Nat := 0x200020
def F.FWD_RSV_OVERRUN_COUNT : FieldRef := ⟨R.FWD_RSV_OVERRUN, 0, 32⟩
def R.FWD_PORT_CFG (i : Nat) : Nat := 0x200040 + 4 * i
def F.FWD_PORT_CFG_PVID (i : Nat) : FieldRef := ⟨R.FWD_PORT_CFG i, 0, 12⟩
def F.FWD_PORT_CFG_DEF_PCP (i : Nat) : FieldRef := ⟨R.FWD_PORT_CFG i, 12, 3⟩
def F.FWD_PORT_CFG_ACC_UNTAG (i : Nat) : FieldRef := ⟨R.FWD_PORT_CFG i, 16, 1⟩
def F.FWD_PORT_CFG_ACC_TAG (i : Nat) : FieldRef := ⟨R.FWD_PORT_CFG i, 17, 1⟩
def F.FWD_PORT_CFG_PFC_EN (i : Nat) : FieldRef := ⟨R.FWD_PORT_CFG i, 24, 8⟩
def R.FWD_PCP_TC (i : Nat) : Nat := 0x2000A0 + 4 * i
def F.FWD_PCP_TC_MAP (i : Nat) : FieldRef := ⟨R.FWD_PCP_TC i, 0, 24⟩
def R.FWD_FIELD_MISS : Nat := 0x200100
def F.FWD_FIELD_MISS_TO_HOST : FieldRef := ⟨R.FWD_FIELD_MISS, 0, 28⟩
def R.FWD_FQ_COUNT (i : Nat) : Nat := 0x200200 + 4 * i
def F.FWD_FQ_COUNT_WORDS (i : Nat) : FieldRef := ⟨R.FWD_FQ_COUNT i, 0, 8⟩
def F.FWD_FQ_COUNT_FRAMES (i : Nat) : FieldRef := ⟨R.FWD_FQ_COUNT i, 8, 8⟩
def R.FWD_FQ_STATUS (i : Nat) : Nat := 0x200300 + 4 * i
def F.FWD_FQ_STATUS_OVERFLOW (i : Nat) : FieldRef := ⟨R.FWD_FQ_STATUS i, 0, 1⟩
def F.FWD_FQ_STATUS_POISON (i : Nat) : FieldRef := ⟨R.FWD_FQ_STATUS i, 1, 1⟩
def R.FWD_XL_CT (i : Nat) : Nat := 0x200400 + 4 * i
def F.FWD_XL_CT_THRESH (i : Nat) : FieldRef := ⟨R.FWD_XL_CT i, 0, 12⟩
def R.FWD_CT_THRESH (i : Nat) : Nat := 0x200480 + 4 * i
def F.FWD_CT_THRESH_THRESH (i : Nat) : FieldRef := ⟨R.FWD_CT_THRESH i, 0, 14⟩
def R.FWD_WM (i j : Nat) : Nat := 0x200800 + 32 * i + 4 * j
def F.FWD_WM_HIGH (i j : Nat) : FieldRef := ⟨R.FWD_WM i j, 0, 16⟩
def F.FWD_WM_LOW (i j : Nat) : FieldRef := ⟨R.FWD_WM i j, 16, 16⟩
def R.FWD_WM_STATE (i : Nat) : Nat := 0x200980 + 4 * i
def F.FWD_WM_STATE_XOFF (i : Nat) : FieldRef := ⟨R.FWD_WM_STATE i, 0, 8⟩
def F.FWD_WM_STATE_RX_PAUSED (i : Nat) : FieldRef := ⟨R.FWD_WM_STATE i, 8, 8⟩
def R.FWD_PFC_TIMER : Nat := 0x2009C0
def F.FWD_PFC_TIMER_QUANTA : FieldRef := ⟨R.FWD_PFC_TIMER, 0, 16⟩
def F.FWD_PFC_TIMER_REFRESH_US : FieldRef := ⟨R.FWD_PFC_TIMER, 16, 16⟩
def R.FWD_FC_OUT (i : Nat) : Nat := 0x2009D0 + 4 * i
def F.FWD_FC_OUT_PORT (i : Nat) : FieldRef := ⟨R.FWD_FC_OUT i, 0, 4⟩
def F.FWD_FC_OUT_PRI (i : Nat) : FieldRef := ⟨R.FWD_FC_OUT i, 4, 8⟩
def F.FWD_FC_OUT_ANY_PORT (i : Nat) : FieldRef := ⟨R.FWD_FC_OUT i, 12, 1⟩
def F.FWD_FC_OUT_POL (i : Nat) : FieldRef := ⟨R.FWD_FC_OUT i, 13, 1⟩
def F.FWD_FC_OUT_EN (i : Nat) : FieldRef := ⟨R.FWD_FC_OUT i, 14, 1⟩
def R.FWD_EQ_LIMIT (i : Nat) : Nat := 0x200A00 + 4 * i
def F.FWD_EQ_LIMIT_BE_CELLS (i : Nat) : FieldRef := ⟨R.FWD_EQ_LIMIT i, 0, 16⟩
def R.FWD_HEAP (i : Nat) : Nat := 0x200B00 + 4 * i
def F.FWD_HEAP_USED (i : Nat) : FieldRef := ⟨R.FWD_HEAP i, 0, 7⟩
def F.FWD_HEAP_RESERVED (i : Nat) : FieldRef := ⟨R.FWD_HEAP i, 8, 7⟩
def F.FWD_HEAP_BE_USED (i : Nat) : FieldRef := ⟨R.FWD_HEAP i, 16, 7⟩
def R.FWD_CB_CFG : Nat := 0x200C00
def F.FWD_CB_CFG_RESET_MS : FieldRef := ⟨R.FWD_CB_CFG, 0, 16⟩
def F.FWD_CB_CFG_HISTORY : FieldRef := ⟨R.FWD_CB_CFG, 16, 6⟩
def R.FWD_CB_LATENT : Nat := 0x200C04
def F.FWD_CB_LATENT_LATENT_MS : FieldRef := ⟨R.FWD_CB_LATENT, 0, 16⟩
def R.FWD_CNT_CLR : Nat := 0x200D00
def F.FWD_CNT_CLR_PORT : FieldRef := ⟨R.FWD_CNT_CLR, 0, 6⟩
def F.FWD_CNT_CLR_ALL : FieldRef := ⟨R.FWD_CNT_CLR, 6, 1⟩
def F.FWD_CNT_CLR_GO : FieldRef := ⟨R.FWD_CNT_CLR, 31, 1⟩
def R.FWD_POISON_LOG : Nat := 0x200E00
def F.FWD_POISON_LOG_HANDLE : FieldRef := ⟨R.FWD_POISON_LOG, 0, 16⟩
def F.FWD_POISON_LOG_PORT : FieldRef := ⟨R.FWD_POISON_LOG, 16, 6⟩
def F.FWD_POISON_LOG_VALID : FieldRef := ⟨R.FWD_POISON_LOG, 31, 1⟩

/-! ### CNT: Table PIPE-4 -/

def R.CNT_RX_FRAMES (i : Nat) : Nat := 0x210000 + 512 * i
def F.CNT_RX_FRAMES_COUNT (i : Nat) : FieldRef := ⟨R.CNT_RX_FRAMES i, 0, 64⟩
def R.CNT_RX_BYTES (i : Nat) : Nat := 0x210008 + 512 * i
def F.CNT_RX_BYTES_COUNT (i : Nat) : FieldRef := ⟨R.CNT_RX_BYTES i, 0, 64⟩
def R.CNT_TX_FRAMES (i : Nat) : Nat := 0x210010 + 512 * i
def F.CNT_TX_FRAMES_COUNT (i : Nat) : FieldRef := ⟨R.CNT_TX_FRAMES i, 0, 64⟩
def R.CNT_TX_BYTES (i : Nat) : Nat := 0x210018 + 512 * i
def F.CNT_TX_BYTES_COUNT (i : Nat) : FieldRef := ⟨R.CNT_TX_BYTES i, 0, 64⟩
def R.CNT_DROP_ERROR (i : Nat) : Nat := 0x210020 + 512 * i
def F.CNT_DROP_ERROR_COUNT (i : Nat) : FieldRef := ⟨R.CNT_DROP_ERROR i, 0, 64⟩
def R.CNT_DROP_VLAN (i : Nat) : Nat := 0x210028 + 512 * i
def F.CNT_DROP_VLAN_COUNT (i : Nat) : FieldRef := ⟨R.CNT_DROP_VLAN i, 0, 64⟩
def R.CNT_DROP_FILTER (i : Nat) : Nat := 0x210030 + 512 * i
def F.CNT_DROP_FILTER_COUNT (i : Nat) : FieldRef := ⟨R.CNT_DROP_FILTER i, 0, 64⟩
def R.CNT_DROP_MISS (i : Nat) : Nat := 0x210038 + 512 * i
def F.CNT_DROP_MISS_COUNT (i : Nat) : FieldRef := ⟨R.CNT_DROP_MISS i, 0, 64⟩
def R.CNT_DROP_POLICE (i : Nat) : Nat := 0x210040 + 512 * i
def F.CNT_DROP_POLICE_COUNT (i : Nat) : FieldRef := ⟨R.CNT_DROP_POLICE i, 0, 64⟩
def R.CNT_DROP_AUTH (i : Nat) : Nat := 0x210048 + 512 * i
def F.CNT_DROP_AUTH_COUNT (i : Nat) : FieldRef := ⟨R.CNT_DROP_AUTH i, 0, 64⟩
def R.CNT_DROP_NORES (i : Nat) : Nat := 0x210050 + 512 * i
def F.CNT_DROP_NORES_COUNT (i : Nat) : FieldRef := ⟨R.CNT_DROP_NORES i, 0, 64⟩
def R.CNT_DROP_POISON (i : Nat) : Nat := 0x210058 + 512 * i
def F.CNT_DROP_POISON_COUNT (i : Nat) : FieldRef := ⟨R.CNT_DROP_POISON i, 0, 64⟩
def R.CNT_FQ_OVERFLOW (i : Nat) : Nat := 0x210060 + 512 * i
def F.CNT_FQ_OVERFLOW_COUNT (i : Nat) : FieldRef := ⟨R.CNT_FQ_OVERFLOW i, 0, 64⟩
def R.CNT_TAIL_DROP (i : Nat) : Nat := 0x210068 + 512 * i
def F.CNT_TAIL_DROP_COUNT (i : Nat) : FieldRef := ⟨R.CNT_TAIL_DROP i, 0, 64⟩
def R.CNT_EVICT (i : Nat) : Nat := 0x210070 + 512 * i
def F.CNT_EVICT_COUNT (i : Nat) : FieldRef := ⟨R.CNT_EVICT i, 0, 64⟩
def R.CNT_HEAP_DROP (i : Nat) : Nat := 0x210078 + 512 * i
def F.CNT_HEAP_DROP_COUNT (i : Nat) : FieldRef := ⟨R.CNT_HEAP_DROP i, 0, 64⟩
def R.CNT_CT_STOMP (i : Nat) : Nat := 0x210080 + 512 * i
def F.CNT_CT_STOMP_COUNT (i : Nat) : FieldRef := ⟨R.CNT_CT_STOMP i, 0, 64⟩
def R.CNT_PFC_TX (i : Nat) : Nat := 0x210088 + 512 * i
def F.CNT_PFC_TX_COUNT (i : Nat) : FieldRef := ⟨R.CNT_PFC_TX i, 0, 64⟩
def R.CNT_PFC_RX (i : Nat) : Nat := 0x210090 + 512 * i
def F.CNT_PFC_RX_COUNT (i : Nat) : FieldRef := ⟨R.CNT_PFC_RX i, 0, 64⟩
def R.CNT_CB_DUP (i : Nat) : Nat := 0x210098 + 512 * i
def F.CNT_CB_DUP_COUNT (i : Nat) : FieldRef := ⟨R.CNT_CB_DUP i, 0, 64⟩
def R.CNT_CB_ROGUE (i : Nat) : Nat := 0x2100A0 + 512 * i
def F.CNT_CB_ROGUE_COUNT (i : Nat) : FieldRef := ⟨R.CNT_CB_ROGUE i, 0, 64⟩
def R.CNT_DROP_UNAVAIL (i : Nat) : Nat := 0x2100A8 + 512 * i
def F.CNT_DROP_UNAVAIL_COUNT (i : Nat) : FieldRef := ⟨R.CNT_DROP_UNAVAIL i, 0, 64⟩
def R.CNT_TC_TX (i j : Nat) : Nat := 0x210100 + 512 * i + 32 * j
def F.CNT_TC_TX_COUNT (i j : Nat) : FieldRef := ⟨R.CNT_TC_TX i j, 0, 64⟩
def R.CNT_LATE (i j : Nat) : Nat := 0x210108 + 512 * i + 32 * j
def F.CNT_LATE_COUNT (i j : Nat) : FieldRef := ⟨R.CNT_LATE i j, 0, 64⟩
def R.CNT_WINDOW_END (i j : Nat) : Nat := 0x210110 + 512 * i + 32 * j
def F.CNT_WINDOW_END_COUNT (i j : Nat) : FieldRef := ⟨R.CNT_WINDOW_END i j, 0, 64⟩

/-! ### TBL: Table TBL-10 -/

def R.TBL_CTRL : Nat := 0x400000
def F.TBL_CTRL_LEARN_A : FieldRef := ⟨R.TBL_CTRL, 0, 1⟩
def F.TBL_CTRL_LEARN_B : FieldRef := ⟨R.TBL_CTRL, 1, 1⟩
def F.TBL_CTRL_EGRESS_LEARN : FieldRef := ⟨R.TBL_CTRL, 2, 1⟩
def R.TBL_STATUS : Nat := 0x400004
def F.TBL_STATUS_HOLD_A : FieldRef := ⟨R.TBL_STATUS, 0, 1⟩
def F.TBL_STATUS_HOLD_B : FieldRef := ⟨R.TBL_STATUS, 1, 1⟩
def R.TBL_GEN (i : Nat) : Nat := 0x400010 + 4 * i
def F.TBL_GEN_GEN (i : Nat) : FieldRef := ⟨R.TBL_GEN i, 0, 32⟩
def R.TBL_GEN_5B : Nat := 0x400038
def F.TBL_GEN_5B_GEN : FieldRef := ⟨R.TBL_GEN_5B, 0, 32⟩
def R.TBL_GEN_6B : Nat := 0x40003C
def F.TBL_GEN_6B_GEN : FieldRef := ⟨R.TBL_GEN_6B, 0, 32⟩
def R.TBL_LEARN_LIMIT (i : Nat) : Nat := 0x400040 + 4 * i
def F.TBL_LEARN_LIMIT_LIMIT (i : Nat) : FieldRef := ⟨R.TBL_LEARN_LIMIT i, 0, 16⟩
def F.TBL_LEARN_LIMIT_ACTION (i : Nat) : FieldRef := ⟨R.TBL_LEARN_LIMIT i, 16, 1⟩
def R.TBL_LEARN_COUNT (i : Nat) : Nat := 0x4000A0 + 4 * i
def F.TBL_LEARN_COUNT_A (i : Nat) : FieldRef := ⟨R.TBL_LEARN_COUNT i, 0, 16⟩
def F.TBL_LEARN_COUNT_B (i : Nat) : FieldRef := ⟨R.TBL_LEARN_COUNT i, 16, 16⟩
def R.TBL_BURN_CFG_A : Nat := 0x400100
def F.TBL_BURN_CFG_A_SWEEP_S : FieldRef := ⟨R.TBL_BURN_CFG_A, 0, 12⟩
def R.TBL_BURN_CFG_B : Nat := 0x400104
def F.TBL_BURN_CFG_B_SWEEP_S : FieldRef := ⟨R.TBL_BURN_CFG_B, 0, 12⟩
def R.TBL_AGE_DEFERRED : Nat := 0x400110
def F.TBL_AGE_DEFERRED_COUNT : FieldRef := ⟨R.TBL_AGE_DEFERRED, 0, 32⟩
def R.TBL_LEARN_FULL : Nat := 0x400114
def F.TBL_LEARN_FULL_COUNT : FieldRef := ⟨R.TBL_LEARN_FULL, 0, 32⟩
def R.TBL_LEARN_HELD : Nat := 0x400118
def F.TBL_LEARN_HELD_COUNT : FieldRef := ⟨R.TBL_LEARN_HELD, 0, 32⟩
def R.TBL_SA_STATIC : Nat := 0x40011C
def F.TBL_SA_STATIC_COUNT : FieldRef := ⟨R.TBL_SA_STATIC, 0, 32⟩
def R.TBL_ECC_CE : Nat := 0x400120
def F.TBL_ECC_CE_COUNT : FieldRef := ⟨R.TBL_ECC_CE, 0, 32⟩
def R.TBL_LEARN_DROP (i : Nat) : Nat := 0x400140 + 4 * i
def F.TBL_LEARN_DROP_COUNT (i : Nat) : FieldRef := ⟨R.TBL_LEARN_DROP i, 0, 32⟩
def R.TBL_WIN_CTRL : Nat := 0x400200
def F.TBL_WIN_CTRL_TABLE : FieldRef := ⟨R.TBL_WIN_CTRL, 0, 4⟩
def F.TBL_WIN_CTRL_PIPE_B : FieldRef := ⟨R.TBL_WIN_CTRL, 4, 1⟩
def F.TBL_WIN_CTRL_CHUNK : FieldRef := ⟨R.TBL_WIN_CTRL, 5, 6⟩
def F.TBL_WIN_CTRL_GO : FieldRef := ⟨R.TBL_WIN_CTRL, 31, 1⟩
def R.TBL_WIN_INDEX : Nat := 0x400204
def F.TBL_WIN_INDEX_INDEX : FieldRef := ⟨R.TBL_WIN_INDEX, 0, 17⟩
def R.TBL_WIN_GEN : Nat := 0x400208
def F.TBL_WIN_GEN_GEN : FieldRef := ⟨R.TBL_WIN_GEN, 0, 16⟩
def R.TBL_WIN_DATA (i : Nat) : Nat := 0x400220 + 4 * i
def F.TBL_WIN_DATA_DATA (i : Nat) : FieldRef := ⟨R.TBL_WIN_DATA i, 0, 32⟩
def R.TBL_ASSAY_CTRL : Nat := 0x400300
def F.TBL_ASSAY_CTRL_EN : FieldRef := ⟨R.TBL_ASSAY_CTRL, 0, 1⟩
def F.TBL_ASSAY_CTRL_REPAIR : FieldRef := ⟨R.TBL_ASSAY_CTRL, 16, 8⟩
def R.TBL_ASSAY_PASS : Nat := 0x400304
def F.TBL_ASSAY_PASS_PASS_MS : FieldRef := ⟨R.TBL_ASSAY_PASS, 0, 16⟩
def R.TBL_ASSAY_STATUS : Nat := 0x400308
def F.TBL_ASSAY_STATUS_BUSY : FieldRef := ⟨R.TBL_ASSAY_STATUS, 0, 1⟩
def F.TBL_ASSAY_STATUS_OVERRUN : FieldRef := ⟨R.TBL_ASSAY_STATUS, 1, 1⟩
def F.TBL_ASSAY_STATUS_PASSES : FieldRef := ⟨R.TBL_ASSAY_STATUS, 16, 16⟩
def R.TBL_ASSAY_MISMATCH : Nat := 0x400310
def F.TBL_ASSAY_MISMATCH_COUNT : FieldRef := ⟨R.TBL_ASSAY_MISMATCH, 0, 32⟩
def R.TBL_ASSAY_REPAIRED : Nat := 0x400314
def F.TBL_ASSAY_REPAIRED_COUNT : FieldRef := ⟨R.TBL_ASSAY_REPAIRED, 0, 32⟩
def R.TBL_ASSAY_EV_LOST : Nat := 0x400318
def F.TBL_ASSAY_EV_LOST_COUNT : FieldRef := ⟨R.TBL_ASSAY_EV_LOST, 0, 32⟩
def R.TBL_SHADOW (i : Nat) : Nat := 0x400400 + 16 * i
def F.TBL_SHADOW_EN (i : Nat) : FieldRef := ⟨R.TBL_SHADOW i, 0, 1⟩
def F.TBL_SHADOW_BASE_LO (i : Nat) : FieldRef := ⟨R.TBL_SHADOW i, 6, 26⟩
def R.TBL_SHADOW_HI (i : Nat) : Nat := 0x400404 + 16 * i
def F.TBL_SHADOW_HI_BASE_HI (i : Nat) : FieldRef := ⟨R.TBL_SHADOW_HI i, 0, 32⟩

/-! ### STE: Table SIG-17 -/

def R.STE_CTRL : Nat := 0x700000
def F.STE_CTRL_EN : FieldRef := ⟨R.STE_CTRL, 0, 1⟩
def F.STE_CTRL_CYC_EN : FieldRef := ⟨R.STE_CTRL, 1, 1⟩
def F.STE_CTRL_PAD : FieldRef := ⟨R.STE_CTRL, 8, 8⟩
def R.STE_CONT_ETYPE : Nat := 0x700004
def F.STE_CONT_ETYPE_ETYPE : FieldRef := ⟨R.STE_CONT_ETYPE, 0, 16⟩
def R.STE_NODE_ID : Nat := 0x700008
def F.STE_NODE_ID_ID : FieldRef := ⟨R.STE_NODE_ID, 0, 16⟩
def R.STE_MEM_SEL : Nat := 0x700020
def F.STE_MEM_SEL_MEM : FieldRef := ⟨R.STE_MEM_SEL, 0, 3⟩
def F.STE_MEM_SEL_INDEX : FieldRef := ⟨R.STE_MEM_SEL, 16, 13⟩
def R.STE_MEM_CMD : Nat := 0x700024
def F.STE_MEM_CMD_WRITE : FieldRef := ⟨R.STE_MEM_CMD, 0, 1⟩
def F.STE_MEM_CMD_RESULT : FieldRef := ⟨R.STE_MEM_CMD, 8, 8⟩
def F.STE_MEM_CMD_GO : FieldRef := ⟨R.STE_MEM_CMD, 31, 1⟩
def R.STE_MEM_DATA (i : Nat) : Nat := 0x700040 + 4 * i
def F.STE_MEM_DATA_DATA (i : Nat) : FieldRef := ⟨R.STE_MEM_DATA i, 0, 32⟩
def R.STE_EVF_CFG : Nat := 0x700080
def F.STE_EVF_CFG_CONTAINER : FieldRef := ⟨R.STE_EVF_CFG, 0, 6⟩
def F.STE_EVF_CFG_EN : FieldRef := ⟨R.STE_EVF_CFG, 31, 1⟩
def R.STE_EVF_PDU_ID : Nat := 0x700084
def F.STE_EVF_PDU_ID_ID : FieldRef := ⟨R.STE_EVF_PDU_ID, 0, 32⟩
def R.STE_EVF_PORTS_LO : Nat := 0x700088
def F.STE_EVF_PORTS_LO_PORTS : FieldRef := ⟨R.STE_EVF_PORTS_LO, 0, 32⟩
def R.STE_EVF_PORTS_HI : Nat := 0x70008C
def F.STE_EVF_PORTS_HI_PORTS : FieldRef := ⟨R.STE_EVF_PORTS_HI, 0, 4⟩
def R.STE_EVF_LOADS : Nat := 0x700090
def F.STE_EVF_LOADS_LOADS : FieldRef := ⟨R.STE_EVF_LOADS, 0, 24⟩
def R.STE_EVF_QUEUE : Nat := 0x700094
def F.STE_EVF_QUEUE_USED : FieldRef := ⟨R.STE_EVF_QUEUE, 0, 7⟩
def R.STE_SIG_SHORT : Nat := 0x700100
def F.STE_SIG_SHORT_COUNT : FieldRef := ⟨R.STE_SIG_SHORT, 0, 32⟩
def R.STE_DECAP_MISS : Nat := 0x700104
def F.STE_DECAP_MISS_COUNT : FieldRef := ⟨R.STE_DECAP_MISS, 0, 32⟩
def R.STE_DECAP_ERROR : Nat := 0x700108
def F.STE_DECAP_ERROR_COUNT : FieldRef := ⟨R.STE_DECAP_ERROR, 0, 32⟩
def R.STE_PDU_OVERSIZE : Nat := 0x70010C
def F.STE_PDU_OVERSIZE_COUNT : FieldRef := ⟨R.STE_PDU_OVERSIZE, 0, 32⟩
def R.STE_FORMAT_DROP : Nat := 0x700110
def F.STE_FORMAT_DROP_COUNT : FieldRef := ⟨R.STE_FORMAT_DROP, 0, 32⟩
def R.STE_CYC_LATE : Nat := 0x700114
def F.STE_CYC_LATE_COUNT : FieldRef := ⟨R.STE_CYC_LATE, 0, 32⟩
def R.STE_ACT_BAD : Nat := 0x700118
def F.STE_ACT_BAD_COUNT : FieldRef := ⟨R.STE_ACT_BAD, 0, 32⟩
def R.STE_MON_TIMEOUT : Nat := 0x70011C
def F.STE_MON_TIMEOUT_COUNT : FieldRef := ⟨R.STE_MON_TIMEOUT, 0, 32⟩
def R.STE_EVF_LOST : Nat := 0x700120
def F.STE_EVF_LOST_COUNT : FieldRef := ⟨R.STE_EVF_LOST, 0, 32⟩
def R.STE_MEM_CE : Nat := 0x700124
def F.STE_MEM_CE_COUNT : FieldRef := ⟨R.STE_MEM_CE, 0, 32⟩
def R.STE_CONT_STATE (i : Nat) : Nat := 0x700200 + 4 * i
def F.STE_CONT_STATE_BYTES (i : Nat) : FieldRef := ⟨R.STE_CONT_STATE i, 0, 14⟩
def F.STE_CONT_STATE_OPEN (i : Nat) : FieldRef := ⟨R.STE_CONT_STATE i, 15, 1⟩
def F.STE_CONT_STATE_PDUS (i : Nat) : FieldRef := ⟨R.STE_CONT_STATE i, 16, 8⟩

/-! ### CAN: Table CAN-12 -/

def R.CAN_CTRL (i : Nat) : Nat := 0x800000 + 4096 * i
def F.CAN_CTRL_INIT (i : Nat) : FieldRef := ⟨R.CAN_CTRL i, 0, 1⟩
def F.CAN_CTRL_MODE (i : Nat) : FieldRef := ⟨R.CAN_CTRL i, 1, 2⟩
def F.CAN_CTRL_FD_EN (i : Nat) : FieldRef := ⟨R.CAN_CTRL i, 3, 1⟩
def F.CAN_CTRL_XL_EN (i : Nat) : FieldRef := ⟨R.CAN_CTRL i, 4, 1⟩
def F.CAN_CTRL_PEX_EN (i : Nat) : FieldRef := ⟨R.CAN_CTRL i, 5, 1⟩
def F.CAN_CTRL_SELF_RX (i : Nat) : FieldRef := ⟨R.CAN_CTRL i, 6, 1⟩
def F.CAN_CTRL_AUTO_RECOV (i : Nat) : FieldRef := ⟨R.CAN_CTRL i, 7, 1⟩
def F.CAN_CTRL_RECOVER (i : Nat) : FieldRef := ⟨R.CAN_CTRL i, 8, 1⟩
def F.CAN_CTRL_XL_ES_OFF (i : Nat) : FieldRef := ⟨R.CAN_CTRL i, 9, 1⟩
def F.CAN_CTRL_FAST (i : Nat) : FieldRef := ⟨R.CAN_CTRL i, 10, 1⟩
def F.CAN_CTRL_RATE_DET (i : Nat) : FieldRef := ⟨R.CAN_CTRL i, 11, 1⟩
def F.CAN_CTRL_RETX_LIMIT (i : Nat) : FieldRef := ⟨R.CAN_CTRL i, 12, 4⟩
def R.CAN_STATUS (i : Nat) : Nat := 0x800004 + 4096 * i
def F.CAN_STATUS_STATE (i : Nat) : FieldRef := ⟨R.CAN_STATUS i, 0, 2⟩
def F.CAN_STATUS_IDLE (i : Nat) : FieldRef := ⟨R.CAN_STATUS i, 2, 1⟩
def F.CAN_STATUS_TX_ACTIVE (i : Nat) : FieldRef := ⟨R.CAN_STATUS i, 3, 1⟩
def F.CAN_STATUS_RX_ACTIVE (i : Nat) : FieldRef := ⟨R.CAN_STATUS i, 4, 1⟩
def F.CAN_STATUS_RECOVERING (i : Nat) : FieldRef := ⟨R.CAN_STATUS i, 5, 1⟩
def F.CAN_STATUS_CFG_IGNORED (i : Nat) : FieldRef := ⟨R.CAN_STATUS i, 6, 1⟩
def F.CAN_STATUS_TDC_SAT (i : Nat) : FieldRef := ⟨R.CAN_STATUS i, 7, 1⟩
def R.CAN_ERRCNT (i : Nat) : Nat := 0x800008 + 4096 * i
def F.CAN_ERRCNT_TEC (i : Nat) : FieldRef := ⟨R.CAN_ERRCNT i, 0, 9⟩
def F.CAN_ERRCNT_REC (i : Nat) : FieldRef := ⟨R.CAN_ERRCNT i, 16, 8⟩
def F.CAN_ERRCNT_RP (i : Nat) : FieldRef := ⟨R.CAN_ERRCNT i, 24, 1⟩
def R.CAN_LEC (i : Nat) : Nat := 0x80000C + 4096 * i
def F.CAN_LEC_CODE (i : Nat) : FieldRef := ⟨R.CAN_LEC i, 0, 4⟩
def F.CAN_LEC_DATA_PHASE (i : Nat) : FieldRef := ⟨R.CAN_LEC i, 4, 1⟩
def R.CAN_NBT (i : Nat) : Nat := 0x800010 + 4096 * i
def F.CAN_NBT_BRP_M1 (i : Nat) : FieldRef := ⟨R.CAN_NBT i, 0, 8⟩
def F.CAN_NBT_TSEG1_M1 (i : Nat) : FieldRef := ⟨R.CAN_NBT i, 8, 8⟩
def F.CAN_NBT_TSEG2_M1 (i : Nat) : FieldRef := ⟨R.CAN_NBT i, 16, 7⟩
def F.CAN_NBT_SJW_M1 (i : Nat) : FieldRef := ⟨R.CAN_NBT i, 23, 7⟩
def R.CAN_DBT (i : Nat) : Nat := 0x800014 + 4096 * i
def F.CAN_DBT_BRP_M1 (i : Nat) : FieldRef := ⟨R.CAN_DBT i, 0, 5⟩
def F.CAN_DBT_TSEG1_M1 (i : Nat) : FieldRef := ⟨R.CAN_DBT i, 8, 6⟩
def F.CAN_DBT_TSEG2_M1 (i : Nat) : FieldRef := ⟨R.CAN_DBT i, 16, 5⟩
def F.CAN_DBT_SJW_M1 (i : Nat) : FieldRef := ⟨R.CAN_DBT i, 24, 5⟩
def R.CAN_TDC (i : Nat) : Nat := 0x800018 + 4096 * i
def F.CAN_TDC_TDCO (i : Nat) : FieldRef := ⟨R.CAN_TDC i, 0, 7⟩
def F.CAN_TDC_TDCF (i : Nat) : FieldRef := ⟨R.CAN_TDC i, 8, 7⟩
def F.CAN_TDC_TDC_EN (i : Nat) : FieldRef := ⟨R.CAN_TDC i, 15, 1⟩
def F.CAN_TDC_TDCV (i : Nat) : FieldRef := ⟨R.CAN_TDC i, 16, 7⟩
def R.CAN_PWM (i : Nat) : Nat := 0x80001C + 4096 * i
def F.CAN_PWM_PWMS (i : Nat) : FieldRef := ⟨R.CAN_PWM i, 0, 6⟩
def F.CAN_PWM_PWML (i : Nat) : FieldRef := ⟨R.CAN_PWM i, 8, 6⟩
def R.CAN_XL_DEF (i : Nat) : Nat := 0x800020 + 4096 * i
def F.CAN_XL_DEF_SDT (i : Nat) : FieldRef := ⟨R.CAN_XL_DEF i, 0, 8⟩
def F.CAN_XL_DEF_SEC (i : Nat) : FieldRef := ⟨R.CAN_XL_DEF i, 8, 1⟩
def F.CAN_XL_DEF_VCID (i : Nat) : FieldRef := ⟨R.CAN_XL_DEF i, 16, 8⟩
def R.CAN_XL_AF (i : Nat) : Nat := 0x800024 + 4096 * i
def F.CAN_XL_AF_AF (i : Nat) : FieldRef := ⟨R.CAN_XL_AF i, 0, 32⟩
def R.CAN_RD_CFG (i : Nat) : Nat := 0x800030 + 4096 * i
def F.CAN_RD_CFG_CONFIRM (i : Nat) : FieldRef := ⟨R.CAN_RD_CFG i, 0, 4⟩
def F.CAN_RD_CFG_DWELL_MS (i : Nat) : FieldRef := ⟨R.CAN_RD_CFG i, 16, 16⟩
def R.CAN_RD_STATUS (i : Nat) : Nat := 0x800034 + 4096 * i
def F.CAN_RD_STATUS_STATE (i : Nat) : FieldRef := ⟨R.CAN_RD_STATUS i, 0, 2⟩
def F.CAN_RD_STATUS_CAND (i : Nat) : FieldRef := ⟨R.CAN_RD_STATUS i, 4, 3⟩
def F.CAN_RD_STATUS_CYCLES (i : Nat) : FieldRef := ⟨R.CAN_RD_STATUS i, 16, 16⟩
def R.CAN_RD_CAND (i j : Nat) : Nat := 0x800040 + 4096 * i + 4 * j
def F.CAN_RD_CAND_TIMING (i j : Nat) : FieldRef := ⟨R.CAN_RD_CAND i j, 0, 30⟩
def F.CAN_RD_CAND_VALID (i j : Nat) : FieldRef := ⟨R.CAN_RD_CAND i j, 31, 1⟩
def R.CAN_COLL_CFG (i : Nat) : Nat := 0x800080 + 4096 * i
def F.CAN_COLL_CFG_WINDOW_MS (i : Nat) : FieldRef := ⟨R.CAN_COLL_CFG i, 0, 16⟩
def F.CAN_COLL_CFG_N (i : Nat) : FieldRef := ⟨R.CAN_COLL_CFG i, 16, 8⟩
def R.CAN_COLL_REL (i : Nat) : Nat := 0x800084 + 4096 * i
def F.CAN_COLL_REL_RELEASE_S (i : Nat) : FieldRef := ⟨R.CAN_COLL_REL i, 0, 16⟩
def R.CAN_COLL_LOG_STATUS (i : Nat) : Nat := 0x800088 + 4096 * i
def F.CAN_COLL_LOG_STATUS_ENTRIES (i : Nat) : FieldRef := ⟨R.CAN_COLL_LOG_STATUS i, 0, 4⟩
def F.CAN_COLL_LOG_STATUS_NEWEST (i : Nat) : FieldRef := ⟨R.CAN_COLL_LOG_STATUS i, 4, 3⟩
def R.CAN_COLL_LOG (i j : Nat) : Nat := 0x8000A0 + 4096 * i + 16 * j
def F.CAN_COLL_LOG_ID (i j : Nat) : FieldRef := ⟨R.CAN_COLL_LOG i j, 0, 29⟩
def F.CAN_COLL_LOG_FORMAT (i j : Nat) : FieldRef := ⟨R.CAN_COLL_LOG i j, 29, 3⟩
def R.CAN_COLL_LOG_W1 (i j : Nat) : Nat := 0x8000A4 + 4096 * i + 16 * j
def F.CAN_COLL_LOG_W1_BIT (i j : Nat) : FieldRef := ⟨R.CAN_COLL_LOG_W1 i j, 0, 14⟩
def F.CAN_COLL_LOG_W1_DATA (i j : Nat) : FieldRef := ⟨R.CAN_COLL_LOG_W1 i j, 14, 1⟩
def R.CAN_COLL_LOG_W2 (i j : Nat) : Nat := 0x8000A8 + 4096 * i + 16 * j
def F.CAN_COLL_LOG_W2_DTIME (i j : Nat) : FieldRef := ⟨R.CAN_COLL_LOG_W2 i j, 0, 64⟩
def R.CAN_TRACK (i j : Nat) : Nat := 0x800120 + 4096 * i + 8 * j
def F.CAN_TRACK_ID (i j : Nat) : FieldRef := ⟨R.CAN_TRACK i j, 0, 29⟩
def F.CAN_TRACK_VALID (i j : Nat) : FieldRef := ⟨R.CAN_TRACK i j, 29, 1⟩
def F.CAN_TRACK_SUSPENDED (i j : Nat) : FieldRef := ⟨R.CAN_TRACK i j, 31, 1⟩
def R.CAN_TRACK_W1 (i j : Nat) : Nat := 0x800124 + 4096 * i + 8 * j
def F.CAN_TRACK_W1_COUNT (i j : Nat) : FieldRef := ⟨R.CAN_TRACK_W1 i j, 0, 8⟩
def R.CAN_BUSOFF (i : Nat) : Nat := 0x800180 + 4096 * i
def F.CAN_BUSOFF_COUNT (i : Nat) : FieldRef := ⟨R.CAN_BUSOFF i, 0, 32⟩
def R.CAN_NC_DROP (i : Nat) : Nat := 0x800184 + 4096 * i
def F.CAN_NC_DROP_COUNT (i : Nat) : FieldRef := ⟨R.CAN_NC_DROP i, 0, 32⟩
def R.CAN_TX_FAIL (i : Nat) : Nat := 0x800188 + 4096 * i
def F.CAN_TX_FAIL_COUNT (i : Nat) : FieldRef := ⟨R.CAN_TX_FAIL i, 0, 32⟩
def R.CAN_COLL_TOTAL (i : Nat) : Nat := 0x80018C + 4096 * i
def F.CAN_COLL_TOTAL_COUNT (i : Nat) : FieldRef := ⟨R.CAN_COLL_TOTAL i, 0, 32⟩
def R.CAN_COLL_DROP (i : Nat) : Nat := 0x800190 + 4096 * i
def F.CAN_COLL_DROP_COUNT (i : Nat) : FieldRef := ⟨R.CAN_COLL_DROP i, 0, 32⟩
def R.CAN_PEX (i : Nat) : Nat := 0x800194 + 4096 * i
def F.CAN_PEX_COUNT (i : Nat) : FieldRef := ⟨R.CAN_PEX i, 0, 32⟩

/-! ### TS: Table CAN-13 -/

def R.TS_TS_CTRL : Nat := 0x814000
def F.TS_TS_CTRL_EN : FieldRef := ⟨R.TS_TS_CTRL, 0, 1⟩
def F.TS_TS_CTRL_FD : FieldRef := ⟨R.TS_TS_CTRL, 1, 1⟩
def F.TS_TS_CTRL_SEC_EN : FieldRef := ⟨R.TS_TS_CTRL, 2, 1⟩
def F.TS_TS_CTRL_SEC_OUT : FieldRef := ⟨R.TS_TS_CTRL, 16, 10⟩
def R.TS_TS_PORTS : Nat := 0x814004
def F.TS_TS_PORTS_PORTS : FieldRef := ⟨R.TS_TS_PORTS, 0, 20⟩
def R.TS_TS_SYNC_ID : Nat := 0x814008
def F.TS_TS_SYNC_ID_ID : FieldRef := ⟨R.TS_TS_SYNC_ID, 0, 29⟩
def F.TS_TS_SYNC_ID_EXT : FieldRef := ⟨R.TS_TS_SYNC_ID, 29, 1⟩
def R.TS_TS_FUP_ID : Nat := 0x81400C
def F.TS_TS_FUP_ID_ID : FieldRef := ⟨R.TS_TS_FUP_ID, 0, 29⟩
def F.TS_TS_FUP_ID_EXT : FieldRef := ⟨R.TS_TS_FUP_ID, 29, 1⟩
def R.TS_TS_PERIOD : Nat := 0x814010
def F.TS_TS_PERIOD_PERIOD_MS : FieldRef := ⟨R.TS_TS_PERIOD, 0, 16⟩
def F.TS_TS_PERIOD_PHASE_MS : FieldRef := ⟨R.TS_TS_PERIOD, 16, 16⟩
def R.TS_TS_DOMAIN : Nat := 0x814014
def F.TS_TS_DOMAIN_DOMAIN : FieldRef := ⟨R.TS_TS_DOMAIN, 0, 8⟩
def R.TS_TS_FUP_DL : Nat := 0x814018
def F.TS_TS_FUP_DL_FUP_DEADLINE_US : FieldRef := ⟨R.TS_TS_FUP_DL, 0, 13⟩
def R.TS_TS_SYNC_SENT : Nat := 0x814020
def F.TS_TS_SYNC_SENT_COUNT : FieldRef := ⟨R.TS_TS_SYNC_SENT, 0, 32⟩
def R.TS_TS_SYNC_DROP : Nat := 0x814024
def F.TS_TS_SYNC_DROP_COUNT : FieldRef := ⟨R.TS_TS_SYNC_DROP, 0, 32⟩
def R.TS_TS_FUP_DROP : Nat := 0x814028
def F.TS_TS_FUP_DROP_COUNT : FieldRef := ⟨R.TS_TS_FUP_DROP, 0, 32⟩
def R.TS_TS_SEQ (i : Nat) : Nat := 0x814040 + 4 * i
def F.TS_TS_SEQ_SEQ (i : Nat) : FieldRef := ⟨R.TS_TS_SEQ i, 0, 8⟩

/-! ### LIN: Table CAN-14 -/

def R.LIN_CTRL (i : Nat) : Nat := 0x900000 + 4096 * i
def F.LIN_CTRL_INIT (i : Nat) : FieldRef := ⟨R.LIN_CTRL i, 0, 1⟩
def F.LIN_CTRL_ROLE (i : Nat) : FieldRef := ⟨R.LIN_CTRL i, 1, 1⟩
def F.LIN_CTRL_AUTOBAUD (i : Nat) : FieldRef := ⟨R.LIN_CTRL i, 2, 1⟩
def F.LIN_CTRL_RUN (i : Nat) : FieldRef := ⟨R.LIN_CTRL i, 3, 1⟩
def F.LIN_CTRL_BREAK_EXT (i : Nat) : FieldRef := ⟨R.LIN_CTRL i, 4, 4⟩
def R.LIN_BAUD (i : Nat) : Nat := 0x900004 + 4096 * i
def F.LIN_BAUD_RATE (i : Nat) : FieldRef := ⟨R.LIN_BAUD i, 0, 15⟩
def R.LIN_TBASE (i : Nat) : Nat := 0x900008 + 4096 * i
def F.LIN_TBASE_TBASE_US (i : Nat) : FieldRef := ⟨R.LIN_TBASE i, 0, 14⟩
def R.LIN_STATUS (i : Nat) : Nat := 0x90000C + 4096 * i
def F.LIN_STATUS_TABLE (i : Nat) : FieldRef := ⟨R.LIN_STATUS i, 0, 3⟩
def F.LIN_STATUS_SLOT (i : Nat) : FieldRef := ⟨R.LIN_STATUS i, 8, 6⟩
def F.LIN_STATUS_MEAS_RATE (i : Nat) : FieldRef := ⟨R.LIN_STATUS i, 16, 15⟩
def F.LIN_STATUS_CFG_IGNORED (i : Nat) : FieldRef := ⟨R.LIN_STATUS i, 31, 1⟩
def R.LIN_SCHED (i : Nat) : Nat := 0x900010 + 4096 * i
def F.LIN_SCHED_ACTIVATABLE (i : Nat) : FieldRef := ⟨R.LIN_SCHED i, 0, 8⟩
def R.LIN_MEM_SEL (i : Nat) : Nat := 0x900020 + 4096 * i
def F.LIN_MEM_SEL_MEM (i : Nat) : FieldRef := ⟨R.LIN_MEM_SEL i, 0, 1⟩
def F.LIN_MEM_SEL_INDEX (i : Nat) : FieldRef := ⟨R.LIN_MEM_SEL i, 16, 9⟩
def R.LIN_MEM_CMD (i : Nat) : Nat := 0x900024 + 4096 * i
def F.LIN_MEM_CMD_WRITE (i : Nat) : FieldRef := ⟨R.LIN_MEM_CMD i, 0, 1⟩
def F.LIN_MEM_CMD_RESULT (i : Nat) : FieldRef := ⟨R.LIN_MEM_CMD i, 8, 8⟩
def F.LIN_MEM_CMD_GO (i : Nat) : FieldRef := ⟨R.LIN_MEM_CMD i, 31, 1⟩
def R.LIN_MEM_DATA (i j : Nat) : Nat := 0x900028 + 4096 * i + 4 * j
def F.LIN_MEM_DATA_DATA (i j : Nat) : FieldRef := ⟨R.LIN_MEM_DATA i j, 0, 32⟩
def R.LIN_HDR_ERR (i : Nat) : Nat := 0x900040 + 4096 * i
def F.LIN_HDR_ERR_COUNT (i : Nat) : FieldRef := ⟨R.LIN_HDR_ERR i, 0, 32⟩
def R.LIN_NO_RESP (i : Nat) : Nat := 0x900044 + 4096 * i
def F.LIN_NO_RESP_COUNT (i : Nat) : FieldRef := ⟨R.LIN_NO_RESP i, 0, 32⟩
def R.LIN_CHK_ERR (i : Nat) : Nat := 0x900048 + 4096 * i
def F.LIN_CHK_ERR_COUNT (i : Nat) : FieldRef := ⟨R.LIN_CHK_ERR i, 0, 32⟩
def R.LIN_FRAME_ERR (i : Nat) : Nat := 0x90004C + 4096 * i
def F.LIN_FRAME_ERR_COUNT (i : Nat) : FieldRef := ⟨R.LIN_FRAME_ERR i, 0, 32⟩
def R.LIN_BIT_ERR (i : Nat) : Nat := 0x900050 + 4096 * i
def F.LIN_BIT_ERR_COUNT (i : Nat) : FieldRef := ⟨R.LIN_BIT_ERR i, 0, 32⟩
def R.LIN_SKIPPED (i : Nat) : Nat := 0x900054 + 4096 * i
def F.LIN_SKIPPED_COUNT (i : Nat) : FieldRef := ⟨R.LIN_SKIPPED i, 0, 32⟩

/-! ### PWR: Tables REG-6, CAN-15 and NM-9 -/

def R.PWR_XCVR_CAN (i : Nat) : Nat := 0x1020000 + 4 * i
def F.PWR_XCVR_CAN_MODE (i : Nat) : FieldRef := ⟨R.PWR_XCVR_CAN i, 0, 3⟩
def F.PWR_XCVR_CAN_MODE_ACT (i : Nat) : FieldRef := ⟨R.PWR_XCVR_CAN i, 4, 3⟩
def F.PWR_XCVR_CAN_TXD_DOM (i : Nat) : FieldRef := ⟨R.PWR_XCVR_CAN i, 8, 1⟩
def F.PWR_XCVR_CAN_MODE_REJ (i : Nat) : FieldRef := ⟨R.PWR_XCVR_CAN i, 9, 1⟩
def R.PWR_XCVR_LIN (i : Nat) : Nat := 0x1020040 + 4 * i
def F.PWR_XCVR_LIN_MODE (i : Nat) : FieldRef := ⟨R.PWR_XCVR_LIN i, 0, 2⟩
def F.PWR_XCVR_LIN_CMD_PU (i : Nat) : FieldRef := ⟨R.PWR_XCVR_LIN i, 2, 1⟩
def F.PWR_XCVR_LIN_MODE_ACT (i : Nat) : FieldRef := ⟨R.PWR_XCVR_LIN i, 4, 2⟩
def F.PWR_XCVR_LIN_TXD_DOM (i : Nat) : FieldRef := ⟨R.PWR_XCVR_LIN i, 8, 1⟩
def F.PWR_XCVR_LIN_MODE_REJ (i : Nat) : FieldRef := ⟨R.PWR_XCVR_LIN i, 9, 1⟩
def R.PWR_SW_CFG (i : Nat) : Nat := 0x1020100 + 32 * i
def F.PWR_SW_CFG_WUP_EN (i : Nat) : FieldRef := ⟨R.PWR_SW_CFG i, 0, 1⟩
def F.PWR_SW_CFG_SWF_EN (i : Nat) : FieldRef := ⟨R.PWR_SW_CFG i, 1, 1⟩
def F.PWR_SW_CFG_EXT (i : Nat) : FieldRef := ⟨R.PWR_SW_CFG i, 2, 1⟩
def F.PWR_SW_CFG_DLC_EN (i : Nat) : FieldRef := ⟨R.PWR_SW_CFG i, 3, 1⟩
def F.PWR_SW_CFG_DLC (i : Nat) : FieldRef := ⟨R.PWR_SW_CFG i, 4, 4⟩
def F.PWR_SW_CFG_RATE (i : Nat) : FieldRef := ⟨R.PWR_SW_CFG i, 8, 2⟩
def F.PWR_SW_CFG_FD_PASSIVE (i : Nat) : FieldRef := ⟨R.PWR_SW_CFG i, 10, 1⟩
def R.PWR_SW_ID (i : Nat) : Nat := 0x1020104 + 32 * i
def F.PWR_SW_ID_ID (i : Nat) : FieldRef := ⟨R.PWR_SW_ID i, 0, 29⟩
def R.PWR_SW_MASK (i : Nat) : Nat := 0x1020108 + 32 * i
def F.PWR_SW_MASK_MASK (i : Nat) : FieldRef := ⟨R.PWR_SW_MASK i, 0, 29⟩
def R.PWR_SW_DATA (i : Nat) : Nat := 0x102010C + 32 * i
def F.PWR_SW_DATA_DATA (i : Nat) : FieldRef := ⟨R.PWR_SW_DATA i, 0, 64⟩
def R.PWR_SW_STATUS (i : Nat) : Nat := 0x1020114 + 32 * i
def F.PWR_SW_STATUS_ERR_CNT (i : Nat) : FieldRef := ⟨R.PWR_SW_STATUS i, 0, 6⟩
def R.PWR_WREC (i : Nat) : Nat := 0x1020400 + 8 * i
def F.PWR_WREC_SOURCE (i : Nat) : FieldRef := ⟨R.PWR_WREC i, 0, 8⟩
def F.PWR_WREC_DURING_COMMIT (i : Nat) : FieldRef := ⟨R.PWR_WREC i, 8, 1⟩
def F.PWR_WREC_FROM_STANDBY (i : Nat) : FieldRef := ⟨R.PWR_WREC i, 9, 1⟩
def F.PWR_WREC_MASKED (i : Nat) : FieldRef := ⟨R.PWR_WREC i, 10, 1⟩
def R.PWR_WREC_W1 (i : Nat) : Nat := 0x1020404 + 8 * i
def F.PWR_WREC_W1_TICKS (i : Nat) : FieldRef := ⟨R.PWR_WREC_W1 i, 0, 32⟩
def R.PWR_AON_TICKS : Nat := 0x1020600
def F.PWR_AON_TICKS_TICKS : FieldRef := ⟨R.PWR_AON_TICKS, 0, 32⟩
def R.PWR_WAKE_IN_CFG (i : Nat) : Nat := 0x1020700 + 4 * i
def F.PWR_WAKE_IN_CFG_SEGMENT (i : Nat) : FieldRef := ⟨R.PWR_WAKE_IN_CFG i, 0, 6⟩
def F.PWR_WAKE_IN_CFG_POL (i : Nat) : FieldRef := ⟨R.PWR_WAKE_IN_CFG i, 6, 1⟩
def F.PWR_WAKE_IN_CFG_EN (i : Nat) : FieldRef := ⟨R.PWR_WAKE_IN_CFG i, 7, 1⟩
def F.PWR_WAKE_IN_CFG_LOCAL (i : Nat) : FieldRef := ⟨R.PWR_WAKE_IN_CFG i, 8, 1⟩
def F.PWR_WAKE_IN_CFG_FILT_MS (i : Nat) : FieldRef := ⟨R.PWR_WAKE_IN_CFG i, 16, 8⟩
def R.PWR_INH_CFG : Nat := 0x1020710
def F.PWR_INH_CFG_INH0_STBY : FieldRef := ⟨R.PWR_INH_CFG, 0, 1⟩
def F.PWR_INH_CFG_INH1_STBY : FieldRef := ⟨R.PWR_INH_CFG, 1, 1⟩
def R.PWR_KA_STATUS : Nat := 0x10207F0
def F.PWR_KA_STATUS_ENTRIES : FieldRef := ⟨R.PWR_KA_STATUS, 0, 6⟩
def F.PWR_KA_STATUS_NEWEST : FieldRef := ⟨R.PWR_KA_STATUS, 8, 5⟩
def F.PWR_KA_STATUS_TOTAL : FieldRef := ⟨R.PWR_KA_STATUS, 16, 16⟩
def R.PWR_KA_LOG (i : Nat) : Nat := 0x1020800 + 16 * i
def F.PWR_KA_LOG_SEGMENT (i : Nat) : FieldRef := ⟨R.PWR_KA_LOG i, 0, 6⟩
def R.PWR_KA_LOG_W1 (i : Nat) : Nat := 0x1020804 + 16 * i
def F.PWR_KA_LOG_W1_KEEPER (i : Nat) : FieldRef := ⟨R.PWR_KA_LOG_W1 i, 0, 32⟩
def R.PWR_KA_LOG_W2 (i : Nat) : Nat := 0x1020808 + 16 * i
def F.PWR_KA_LOG_W2_TICKS (i : Nat) : FieldRef := ⟨R.PWR_KA_LOG_W2 i, 0, 32⟩
def R.PWR_KA_LOG_W3 (i : Nat) : Nat := 0x102080C + 16 * i
def F.PWR_KA_LOG_W3_EVENTS (i : Nat) : FieldRef := ⟨R.PWR_KA_LOG_W3 i, 0, 16⟩
def R.PWR_BRIDGE_STATUS : Nat := 0x1000000
def F.PWR_BRIDGE_STATUS_POSTED_ERR : FieldRef := ⟨R.PWR_BRIDGE_STATUS, 0, 1⟩
def F.PWR_BRIDGE_STATUS_OUTSTANDING : FieldRef := ⟨R.PWR_BRIDGE_STATUS, 1, 6⟩
def F.PWR_BRIDGE_STATUS_LAST_SEQ : FieldRef := ⟨R.PWR_BRIDGE_STATUS, 16, 16⟩
def R.PWR_D2D_RETRIES : Nat := 0x1000004
def F.PWR_D2D_RETRIES_COUNT : FieldRef := ⟨R.PWR_D2D_RETRIES, 0, 32⟩
def R.PWR_D2D_STATUS : Nat := 0x1000008
def F.PWR_D2D_STATUS_LINK_UP : FieldRef := ⟨R.PWR_D2D_STATUS, 0, 1⟩

/-! ### ETH: Table ETH-7 -/

def R.ETH_MAC_CFG (i : Nat) : Nat := 0xA00000 + 4096 * i
def F.ETH_MAC_CFG_EN (i : Nat) : FieldRef := ⟨R.ETH_MAC_CFG i, 0, 1⟩
def F.ETH_MAC_CFG_OVS_HOST (i : Nat) : FieldRef := ⟨R.ETH_MAC_CFG i, 1, 1⟩
def R.ETH_MAX_LEN (i : Nat) : Nat := 0xA00004 + 4096 * i
def F.ETH_MAX_LEN_LEN (i : Nat) : FieldRef := ⟨R.ETH_MAX_LEN i, 0, 14⟩
def R.ETH_STATUS (i : Nat) : Nat := 0xA00008 + 4096 * i
def F.ETH_STATUS_LINK (i : Nat) : FieldRef := ⟨R.ETH_STATUS i, 0, 1⟩
def F.ETH_STATUS_RETRAINING (i : Nat) : FieldRef := ⟨R.ETH_STATUS i, 1, 1⟩
def F.ETH_STATUS_MACSEC (i : Nat) : FieldRef := ⟨R.ETH_STATUS i, 2, 1⟩
def F.ETH_STATUS_SPEED_MISMATCH (i : Nat) : FieldRef := ⟨R.ETH_STATUS i, 3, 1⟩
def F.ETH_STATUS_LPI_TX (i : Nat) : FieldRef := ⟨R.ETH_STATUS i, 4, 1⟩
def F.ETH_STATUS_LPI_RX (i : Nat) : FieldRef := ⟨R.ETH_STATUS i, 5, 1⟩
def F.ETH_STATUS_CFG_IGNORED (i : Nat) : FieldRef := ⟨R.ETH_STATUS i, 6, 1⟩
def R.ETH_ADDR_LO (i : Nat) : Nat := 0xA00010 + 4096 * i
def F.ETH_ADDR_LO_ADDR (i : Nat) : FieldRef := ⟨R.ETH_ADDR_LO i, 0, 32⟩
def R.ETH_ADDR_HI (i : Nat) : Nat := 0xA00014 + 4096 * i
def F.ETH_ADDR_HI_ADDR (i : Nat) : FieldRef := ⟨R.ETH_ADDR_HI i, 0, 16⟩
def R.ETH_SFILT (i j : Nat) : Nat := 0xA00020 + 4096 * i + 8 * j
def F.ETH_SFILT_MAC (i j : Nat) : FieldRef := ⟨R.ETH_SFILT i j, 0, 32⟩
def R.ETH_SFILT_W1 (i j : Nat) : Nat := 0xA00024 + 4096 * i + 8 * j
def F.ETH_SFILT_W1_MAC (i j : Nat) : FieldRef := ⟨R.ETH_SFILT_W1 i j, 0, 16⟩
def F.ETH_SFILT_W1_TARGET (i j : Nat) : FieldRef := ⟨R.ETH_SFILT_W1 i j, 16, 1⟩
def F.ETH_SFILT_W1_EN (i j : Nat) : FieldRef := ⟨R.ETH_SFILT_W1 i j, 31, 1⟩
def R.ETH_OVS_RX (i : Nat) : Nat := 0xA00080 + 4096 * i
def F.ETH_OVS_RX_COUNT (i : Nat) : FieldRef := ⟨R.ETH_OVS_RX i, 0, 32⟩
def R.ETH_OVS_TX (i : Nat) : Nat := 0xA00084 + 4096 * i
def F.ETH_OVS_TX_COUNT (i : Nat) : FieldRef := ⟨R.ETH_OVS_TX i, 0, 32⟩
def R.ETH_LINK_DOWNS (i : Nat) : Nat := 0xA00088 + 4096 * i
def F.ETH_LINK_DOWNS_COUNT (i : Nat) : FieldRef := ⟨R.ETH_LINK_DOWNS i, 0, 32⟩
def R.ETH_RATE (i : Nat) : Nat := 0xA00100 + 4096 * i
def F.ETH_RATE_NOM (i : Nat) : FieldRef := ⟨R.ETH_RATE i, 0, 3⟩
def F.ETH_RATE_FLOOR (i : Nat) : FieldRef := ⟨R.ETH_RATE i, 4, 3⟩
def F.ETH_RATE_CUR (i : Nat) : FieldRef := ⟨R.ETH_RATE i, 8, 3⟩
def R.ETH_SERDES (i : Nat) : Nat := 0xA00104 + 4096 * i
def F.ETH_SERDES_FEC (i : Nat) : FieldRef := ⟨R.ETH_SERDES i, 0, 2⟩
def R.ETH_STEP_CFG (i : Nat) : Nat := 0xA00110 + 4096 * i
def F.ETH_STEP_CFG_AUTO (i : Nat) : FieldRef := ⟨R.ETH_STEP_CFG i, 0, 1⟩
def F.ETH_STEP_CFG_LPI_EN (i : Nat) : FieldRef := ⟨R.ETH_STEP_CFG i, 1, 1⟩
def F.ETH_STEP_CFG_DOWN_PCT (i : Nat) : FieldRef := ⟨R.ETH_STEP_CFG i, 8, 8⟩
def F.ETH_STEP_CFG_UP_PCT (i : Nat) : FieldRef := ⟨R.ETH_STEP_CFG i, 16, 8⟩
def R.ETH_STEP_WIN (i : Nat) : Nat := 0xA00114 + 4096 * i
def F.ETH_STEP_WIN_WIN_S (i : Nat) : FieldRef := ⟨R.ETH_STEP_WIN i, 0, 12⟩
def F.ETH_STEP_WIN_UP_CELLS (i : Nat) : FieldRef := ⟨R.ETH_STEP_WIN i, 16, 16⟩
def R.ETH_STEP_TIMERS (i : Nat) : Nat := 0xA00118 + 4096 * i
def F.ETH_STEP_TIMERS_ANSWER_MS (i : Nat) : FieldRef := ⟨R.ETH_STEP_TIMERS i, 0, 16⟩
def F.ETH_STEP_TIMERS_HOLDOFF_MS (i : Nat) : FieldRef := ⟨R.ETH_STEP_TIMERS i, 16, 16⟩
def R.ETH_RETRAIN (i : Nat) : Nat := 0xA0011C + 4096 * i
def F.ETH_RETRAIN_RETRAIN_MS (i : Nat) : FieldRef := ⟨R.ETH_RETRAIN i, 0, 16⟩
def R.ETH_STEP_STATUS (i : Nat) : Nat := 0xA00120 + 4096 * i
def F.ETH_STEP_STATUS_STATE (i : Nat) : FieldRef := ⟨R.ETH_STEP_STATUS i, 0, 3⟩
def F.ETH_STEP_STATUS_PARTNER (i : Nat) : FieldRef := ⟨R.ETH_STEP_STATUS i, 3, 1⟩
def F.ETH_STEP_STATUS_RESULT (i : Nat) : FieldRef := ⟨R.ETH_STEP_STATUS i, 8, 3⟩
def F.ETH_STEP_STATUS_SEQ (i : Nat) : FieldRef := ⟨R.ETH_STEP_STATUS i, 16, 16⟩
def R.ETH_STEP_DONE (i : Nat) : Nat := 0xA00124 + 4096 * i
def F.ETH_STEP_DONE_COUNT (i : Nat) : FieldRef := ⟨R.ETH_STEP_DONE i, 0, 32⟩
def R.ETH_STEP_DECLINED (i : Nat) : Nat := 0xA00128 + 4096 * i
def F.ETH_STEP_DECLINED_COUNT (i : Nat) : FieldRef := ⟨R.ETH_STEP_DECLINED i, 0, 32⟩
def R.ETH_STEP_SILENT (i : Nat) : Nat := 0xA0012C + 4096 * i
def F.ETH_STEP_SILENT_COUNT (i : Nat) : FieldRef := ⟨R.ETH_STEP_SILENT i, 0, 32⟩
def R.ETH_STEP_FAILED (i : Nat) : Nat := 0xA00130 + 4096 * i
def F.ETH_STEP_FAILED_COUNT (i : Nat) : FieldRef := ⟨R.ETH_STEP_FAILED i, 0, 32⟩
def R.ETH_STEP_ERR (i : Nat) : Nat := 0xA00134 + 4096 * i
def F.ETH_STEP_ERR_COUNT (i : Nat) : FieldRef := ⟨R.ETH_STEP_ERR i, 0, 32⟩
def R.ETH_LPI (i : Nat) : Nat := 0xA00138 + 4096 * i
def F.ETH_LPI_IDLE_US (i : Nat) : FieldRef := ⟨R.ETH_LPI i, 0, 16⟩
def F.ETH_LPI_TW_US (i : Nat) : FieldRef := ⟨R.ETH_LPI i, 16, 16⟩
def R.ETH_LLDP (i : Nat) : Nat := 0xA0013C + 4096 * i
def F.ETH_LLDP_TX_S (i : Nat) : FieldRef := ⟨R.ETH_LLDP i, 0, 16⟩
def R.ETH_PREEMPT_STAGED (i : Nat) : Nat := 0xA00140 + 4096 * i
def F.ETH_PREEMPT_STAGED_EN (i : Nat) : FieldRef := ⟨R.ETH_PREEMPT_STAGED i, 0, 1⟩
def F.ETH_PREEMPT_STAGED_VERIFY_DIS (i : Nat) : FieldRef := ⟨R.ETH_PREEMPT_STAGED i, 1, 1⟩
def F.ETH_PREEMPT_STAGED_VERIFY_MS (i : Nat) : FieldRef := ⟨R.ETH_PREEMPT_STAGED i, 8, 8⟩
def R.ETH_PREEMPT_OPER (i : Nat) : Nat := 0xA00144 + 4096 * i
def F.ETH_PREEMPT_OPER_DATA (i : Nat) : FieldRef := ⟨R.ETH_PREEMPT_OPER i, 0, 32⟩
def R.ETH_PREEMPT_STATUS (i : Nat) : Nat := 0xA00148 + 4096 * i
def F.ETH_PREEMPT_STATUS_VERIFY_STATE (i : Nat) : FieldRef := ⟨R.ETH_PREEMPT_STATUS i, 0, 3⟩
def F.ETH_PREEMPT_STATUS_ACTIVE (i : Nat) : FieldRef := ⟨R.ETH_PREEMPT_STATUS i, 3, 1⟩
def R.ETH_ASSY_OK (i : Nat) : Nat := 0xA00150 + 4096 * i
def F.ETH_ASSY_OK_COUNT (i : Nat) : FieldRef := ⟨R.ETH_ASSY_OK i, 0, 32⟩
def R.ETH_ASSY_ERR (i : Nat) : Nat := 0xA00154 + 4096 * i
def F.ETH_ASSY_ERR_COUNT (i : Nat) : FieldRef := ⟨R.ETH_ASSY_ERR i, 0, 32⟩
def R.ETH_SMD_ERR (i : Nat) : Nat := 0xA00158 + 4096 * i
def F.ETH_SMD_ERR_COUNT (i : Nat) : FieldRef := ⟨R.ETH_SMD_ERR i, 0, 32⟩
def R.ETH_FRAG_TX (i : Nat) : Nat := 0xA0015C + 4096 * i
def F.ETH_FRAG_TX_COUNT (i : Nat) : FieldRef := ⟨R.ETH_FRAG_TX i, 0, 32⟩
def R.ETH_GATE_ADMIN (i : Nat) : Nat := 0xA00180 + 4096 * i
def F.ETH_GATE_ADMIN_GATE_EN (i : Nat) : FieldRef := ⟨R.ETH_GATE_ADMIN i, 0, 1⟩
def F.ETH_GATE_ADMIN_ADMIN_LEN (i : Nat) : FieldRef := ⟨R.ETH_GATE_ADMIN i, 16, 11⟩
def R.ETH_ADMIN_CYCLE (i : Nat) : Nat := 0xA00184 + 4096 * i
def F.ETH_ADMIN_CYCLE_NS (i : Nat) : FieldRef := ⟨R.ETH_ADMIN_CYCLE i, 0, 32⟩
def R.ETH_ADMIN_CYCLE_EXT (i : Nat) : Nat := 0xA00188 + 4096 * i
def F.ETH_ADMIN_CYCLE_EXT_NS (i : Nat) : FieldRef := ⟨R.ETH_ADMIN_CYCLE_EXT i, 0, 32⟩
def R.ETH_ADMIN_BASE (i : Nat) : Nat := 0xA00190 + 4096 * i
def F.ETH_ADMIN_BASE_DTIME (i : Nat) : FieldRef := ⟨R.ETH_ADMIN_BASE i, 0, 64⟩
def R.ETH_GATE_OPER (i : Nat) : Nat := 0xA001A0 + 4096 * i
def F.ETH_GATE_OPER_DATA (i : Nat) : FieldRef := ⟨R.ETH_GATE_OPER i, 0, 32⟩
def R.ETH_OPER_CYCLE (i : Nat) : Nat := 0xA001A4 + 4096 * i
def F.ETH_OPER_CYCLE_NS (i : Nat) : FieldRef := ⟨R.ETH_OPER_CYCLE i, 0, 32⟩
def R.ETH_OPER_CYCLE_EXT (i : Nat) : Nat := 0xA001A8 + 4096 * i
def F.ETH_OPER_CYCLE_EXT_NS (i : Nat) : FieldRef := ⟨R.ETH_OPER_CYCLE_EXT i, 0, 32⟩
def R.ETH_OPER_BASE (i : Nat) : Nat := 0xA001B0 + 4096 * i
def F.ETH_OPER_BASE_DTIME (i : Nat) : FieldRef := ⟨R.ETH_OPER_BASE i, 0, 64⟩
def R.ETH_GATE_STATUS (i : Nat) : Nat := 0xA001C0 + 4096 * i
def F.ETH_GATE_STATUS_PENDING (i : Nat) : FieldRef := ⟨R.ETH_GATE_STATUS i, 0, 1⟩
def F.ETH_GATE_STATUS_STATES (i : Nat) : FieldRef := ⟨R.ETH_GATE_STATUS i, 8, 8⟩
def F.ETH_GATE_STATUS_ENTRY (i : Nat) : FieldRef := ⟨R.ETH_GATE_STATUS i, 16, 11⟩
def R.ETH_GATE_CT (i : Nat) : Nat := 0xA001C8 + 4096 * i
def F.ETH_GATE_CT_DTIME (i : Nat) : FieldRef := ⟨R.ETH_GATE_CT i, 0, 64⟩
def R.ETH_PLCA_CFG (i : Nat) : Nat := 0xA00200 + 4096 * i
def F.ETH_PLCA_CFG_EN (i : Nat) : FieldRef := ⟨R.ETH_PLCA_CFG i, 0, 1⟩
def F.ETH_PLCA_CFG_FALLBACK (i : Nat) : FieldRef := ⟨R.ETH_PLCA_CFG i, 1, 1⟩
def F.ETH_PLCA_CFG_NODE_ID (i : Nat) : FieldRef := ⟨R.ETH_PLCA_CFG i, 8, 8⟩
def F.ETH_PLCA_CFG_NODE_COUNT (i : Nat) : FieldRef := ⟨R.ETH_PLCA_CFG i, 16, 8⟩
def R.ETH_PLCA_TIMERS (i : Nat) : Nat := 0xA00204 + 4096 * i
def F.ETH_PLCA_TIMERS_TO_TIMER (i : Nat) : FieldRef := ⟨R.ETH_PLCA_TIMERS i, 0, 8⟩
def F.ETH_PLCA_TIMERS_MAX_BC (i : Nat) : FieldRef := ⟨R.ETH_PLCA_TIMERS i, 8, 8⟩
def F.ETH_PLCA_TIMERS_BURST_TIMER (i : Nat) : FieldRef := ⟨R.ETH_PLCA_TIMERS i, 16, 8⟩
def R.ETH_PLCA_STATUS (i : Nat) : Nat := 0xA00208 + 4096 * i
def F.ETH_PLCA_STATUS_BEACON_OK (i : Nat) : FieldRef := ⟨R.ETH_PLCA_STATUS i, 0, 1⟩
def F.ETH_PLCA_STATUS_CSMA (i : Nat) : FieldRef := ⟨R.ETH_PLCA_STATUS i, 1, 1⟩
def R.ETH_BEACON_LOST (i : Nat) : Nat := 0xA0020C + 4096 * i
def F.ETH_BEACON_LOST_COUNT (i : Nat) : FieldRef := ⟨R.ETH_BEACON_LOST i, 0, 32⟩
def R.ETH_PLCA_COLL (i : Nat) : Nat := 0xA00210 + 4096 * i
def F.ETH_PLCA_COLL_COUNT (i : Nat) : FieldRef := ⟨R.ETH_PLCA_COLL i, 0, 32⟩

/-! ### ETHC: Table ETH-8 -/

def R.ETHC_MDIO_CFG : Nat := 0xA14000
def F.ETHC_MDIO_CFG_DIV : FieldRef := ⟨R.ETHC_MDIO_CFG, 0, 8⟩
def R.ETHC_MDIO_CMD : Nat := 0xA14004
def F.ETHC_MDIO_CMD_BUS : FieldRef := ⟨R.ETHC_MDIO_CMD, 0, 1⟩
def F.ETHC_MDIO_CMD_OP : FieldRef := ⟨R.ETHC_MDIO_CMD, 1, 2⟩
def F.ETHC_MDIO_CMD_PHYAD : FieldRef := ⟨R.ETHC_MDIO_CMD, 3, 5⟩
def F.ETHC_MDIO_CMD_DEVAD : FieldRef := ⟨R.ETHC_MDIO_CMD, 8, 5⟩
def F.ETHC_MDIO_CMD_GO : FieldRef := ⟨R.ETHC_MDIO_CMD, 31, 1⟩
def R.ETHC_MDIO_ADDR : Nat := 0xA14008
def F.ETHC_MDIO_ADDR_REG : FieldRef := ⟨R.ETHC_MDIO_ADDR, 0, 16⟩
def R.ETHC_MDIO_DATA : Nat := 0xA1400C
def F.ETHC_MDIO_DATA_DATA : FieldRef := ⟨R.ETHC_MDIO_DATA, 0, 16⟩
def R.ETHC_MEM_SEL : Nat := 0xA14020
def F.ETHC_MEM_SEL_INDEX : FieldRef := ⟨R.ETHC_MEM_SEL, 16, 9⟩
def R.ETHC_MEM_CMD : Nat := 0xA14024
def F.ETHC_MEM_CMD_WRITE : FieldRef := ⟨R.ETHC_MEM_CMD, 0, 1⟩
def F.ETHC_MEM_CMD_RESULT : FieldRef := ⟨R.ETHC_MEM_CMD, 8, 8⟩
def F.ETHC_MEM_CMD_GO : FieldRef := ⟨R.ETHC_MEM_CMD, 31, 1⟩
def R.ETHC_MEM_DATA (i : Nat) : Nat := 0xA14028 + 4 * i
def F.ETHC_MEM_DATA_DATA (i : Nat) : FieldRef := ⟨R.ETHC_MEM_DATA i, 0, 32⟩

/-! ### TIME: Table TIME-6 -/

def R.TIME_CTRL : Nat := 0xB00000
def F.TIME_CTRL_EN : FieldRef := ⟨R.TIME_CTRL, 0, 1⟩
def F.TIME_CTRL_ROLE : FieldRef := ⟨R.TIME_CTRL, 1, 2⟩
def F.TIME_CTRL_GM_SRC : FieldRef := ⟨R.TIME_CTRL, 3, 2⟩
def F.TIME_CTRL_DOMAIN : FieldRef := ⟨R.TIME_CTRL, 8, 7⟩
def R.TIME_STATUS : Nat := 0xB00004
def F.TIME_STATUS_STATE : FieldRef := ⟨R.TIME_STATUS, 0, 3⟩
def F.TIME_STATUS_CFG_IGNORED : FieldRef := ⟨R.TIME_STATUS, 3, 1⟩
def F.TIME_STATUS_EPOCH : FieldRef := ⟨R.TIME_STATUS, 8, 8⟩
def R.TIME_DTIME_LO : Nat := 0xB00010
def F.TIME_DTIME_LO_NS : FieldRef := ⟨R.TIME_DTIME_LO, 0, 32⟩
def R.TIME_DTIME_HI : Nat := 0xB00014
def F.TIME_DTIME_HI_NS : FieldRef := ⟨R.TIME_DTIME_HI, 0, 32⟩
def R.TIME_DTIME_FRAC : Nat := 0xB00018
def F.TIME_DTIME_FRAC_FRAC : FieldRef := ⟨R.TIME_DTIME_FRAC, 0, 16⟩
def R.TIME_INCR : Nat := 0xB00020
def F.TIME_INCR_INCR : FieldRef := ⟨R.TIME_INCR, 0, 40⟩
def R.TIME_SLEW : Nat := 0xB00028
def F.TIME_SLEW_NS : FieldRef := ⟨R.TIME_SLEW, 0, 32⟩
def R.TIME_SLEW_CTRL : Nat := 0xB0002C
def F.TIME_SLEW_CTRL_MAX_PPM : FieldRef := ⟨R.TIME_SLEW_CTRL, 0, 10⟩
def F.TIME_SLEW_CTRL_BUSY : FieldRef := ⟨R.TIME_SLEW_CTRL, 30, 1⟩
def F.TIME_SLEW_CTRL_GO : FieldRef := ⟨R.TIME_SLEW_CTRL, 31, 1⟩
def R.TIME_STEP : Nat := 0xB00030
def F.TIME_STEP_NS : FieldRef := ⟨R.TIME_STEP, 0, 64⟩
def R.TIME_STEP_CTRL : Nat := 0xB00038
def F.TIME_STEP_CTRL_REL : FieldRef := ⟨R.TIME_STEP_CTRL, 0, 1⟩
def F.TIME_STEP_CTRL_GO : FieldRef := ⟨R.TIME_STEP_CTRL, 31, 1⟩
def R.TIME_SERVO : Nat := 0xB00040
def F.TIME_SERVO_STEP_NS : FieldRef := ⟨R.TIME_SERVO, 0, 20⟩
def F.TIME_SERVO_SYNC_NS : FieldRef := ⟨R.TIME_SERVO, 20, 12⟩
def R.TIME_HOLDOVER : Nat := 0xB00044
def F.TIME_HOLDOVER_HOLDOVER_MAX_S : FieldRef := ⟨R.TIME_HOLDOVER, 0, 16⟩
def R.TIME_OFFSET : Nat := 0xB00048
def F.TIME_OFFSET_NS : FieldRef := ⟨R.TIME_OFFSET, 0, 64⟩
def R.TIME_GPTP_CFG : Nat := 0xB00050
def F.TIME_GPTP_CFG_PTP_TC : FieldRef := ⟨R.TIME_GPTP_CFG, 0, 3⟩
def F.TIME_GPTP_CFG_DELAY_THRESH_NS : FieldRef := ⟨R.TIME_GPTP_CFG, 16, 16⟩
def R.TIME_AON_SNAP : Nat := 0xB00060
def F.TIME_AON_SNAP_GO : FieldRef := ⟨R.TIME_AON_SNAP, 0, 1⟩
def R.TIME_AON_SNAP_TICKS : Nat := 0xB00064
def F.TIME_AON_SNAP_TICKS_TICKS : FieldRef := ⟨R.TIME_AON_SNAP_TICKS, 0, 32⟩
def R.TIME_AON_SNAP_DTIME : Nat := 0xB00068
def F.TIME_AON_SNAP_DTIME_NS : FieldRef := ⟨R.TIME_AON_SNAP_DTIME, 0, 64⟩
def R.TIME_PPS_OUT_CFG : Nat := 0xB00080
def F.TIME_PPS_OUT_CFG_EN : FieldRef := ⟨R.TIME_PPS_OUT_CFG, 0, 1⟩
def F.TIME_PPS_OUT_CFG_POL : FieldRef := ⟨R.TIME_PPS_OUT_CFG, 1, 1⟩
def F.TIME_PPS_OUT_CFG_GATE : FieldRef := ⟨R.TIME_PPS_OUT_CFG, 2, 1⟩
def R.TIME_PPS_OUT_OFS : Nat := 0xB00084
def F.TIME_PPS_OUT_OFS_OFFSET_NS : FieldRef := ⟨R.TIME_PPS_OUT_OFS, 0, 30⟩
def R.TIME_PPS_OUT_WID : Nat := 0xB00088
def F.TIME_PPS_OUT_WID_WIDTH_US : FieldRef := ⟨R.TIME_PPS_OUT_WID, 0, 19⟩
def R.TIME_PPS_IN_CFG : Nat := 0xB00090
def F.TIME_PPS_IN_CFG_EN : FieldRef := ⟨R.TIME_PPS_IN_CFG, 0, 1⟩
def F.TIME_PPS_IN_CFG_EDGE : FieldRef := ⟨R.TIME_PPS_IN_CFG, 1, 1⟩
def R.TIME_PPS_IN_TS : Nat := 0xB00098
def F.TIME_PPS_IN_TS_NS : FieldRef := ⟨R.TIME_PPS_IN_TS, 0, 64⟩
def R.TIME_PPS_IN_COUNT : Nat := 0xB000A0
def F.TIME_PPS_IN_COUNT_COUNT : FieldRef := ⟨R.TIME_PPS_IN_COUNT, 0, 32⟩
def R.TIME_PPS_IN_REJECT : Nat := 0xB000A4
def F.TIME_PPS_IN_REJECT_COUNT : FieldRef := ⟨R.TIME_PPS_IN_REJECT, 0, 32⟩
def R.TIME_STEPS : Nat := 0xB000B0
def F.TIME_STEPS_COUNT : FieldRef := ⟨R.TIME_STEPS, 0, 32⟩
def R.TIME_SYNC_LOSS : Nat := 0xB000B4
def F.TIME_SYNC_LOSS_COUNT : FieldRef := ⟨R.TIME_SYNC_LOSS, 0, 32⟩
def R.TIME_PTP_DISCARD : Nat := 0xB000B8
def F.TIME_PTP_DISCARD_COUNT : FieldRef := ⟨R.TIME_PTP_DISCARD, 0, 32⟩
def R.TIME_TS_CORR (i : Nat) : Nat := 0xB00100 + 4 * i
def F.TIME_TS_CORR_INGRESS (i : Nat) : FieldRef := ⟨R.TIME_TS_CORR i, 0, 16⟩
def F.TIME_TS_CORR_EGRESS (i : Nat) : FieldRef := ⟨R.TIME_TS_CORR i, 16, 16⟩
def R.TIME_GPTP_PORT (i : Nat) : Nat := 0xB00200 + 8 * i
def F.TIME_GPTP_PORT_ROLE (i : Nat) : FieldRef := ⟨R.TIME_GPTP_PORT i, 0, 2⟩
def F.TIME_GPTP_PORT_STATIC_DELAY (i : Nat) : FieldRef := ⟨R.TIME_GPTP_PORT i, 2, 1⟩
def F.TIME_GPTP_PORT_COMPUTE_NRR (i : Nat) : FieldRef := ⟨R.TIME_GPTP_PORT i, 3, 1⟩
def F.TIME_GPTP_PORT_LOG_SYNC (i : Nat) : FieldRef := ⟨R.TIME_GPTP_PORT i, 8, 8⟩
def F.TIME_GPTP_PORT_LOG_PDELAY (i : Nat) : FieldRef := ⟨R.TIME_GPTP_PORT i, 16, 8⟩
def F.TIME_GPTP_PORT_AS_CAPABLE (i : Nat) : FieldRef := ⟨R.TIME_GPTP_PORT i, 24, 1⟩
def R.TIME_GPTP_PORT_W1 (i : Nat) : Nat := 0xB00204 + 8 * i
def F.TIME_GPTP_PORT_W1_DELAY_NS (i : Nat) : FieldRef := ⟨R.TIME_GPTP_PORT_W1 i, 0, 32⟩

/-! ### XPT: Table XPT-8 -/

def R.XPT_CTRL : Nat := 0xC00000
def F.XPT_CTRL_EN : FieldRef := ⟨R.XPT_CTRL, 0, 1⟩
def R.XPT_STATUS : Nat := 0xC00004
def F.XPT_STATUS_ACTIVE : FieldRef := ⟨R.XPT_STATUS, 0, 9⟩
def F.XPT_STATUS_SEQ_READY : FieldRef := ⟨R.XPT_STATUS, 16, 8⟩
def F.XPT_STATUS_PAUSED : FieldRef := ⟨R.XPT_STATUS, 24, 8⟩
def R.XPT_TIMERS_A : Nat := 0xC00010
def F.XPT_TIMERS_A_N_AS_MS : FieldRef := ⟨R.XPT_TIMERS_A, 0, 16⟩
def F.XPT_TIMERS_A_N_BS_MS : FieldRef := ⟨R.XPT_TIMERS_A, 16, 16⟩
def R.XPT_TIMERS_B : Nat := 0xC00014
def F.XPT_TIMERS_B_N_CR_MS : FieldRef := ⟨R.XPT_TIMERS_B, 0, 16⟩
def R.XPT_MEM_SEL : Nat := 0xC00020
def F.XPT_MEM_SEL_MEM : FieldRef := ⟨R.XPT_MEM_SEL, 0, 1⟩
def F.XPT_MEM_SEL_INDEX : FieldRef := ⟨R.XPT_MEM_SEL, 16, 10⟩
def R.XPT_MEM_CMD : Nat := 0xC00024
def F.XPT_MEM_CMD_WRITE : FieldRef := ⟨R.XPT_MEM_CMD, 0, 1⟩
def F.XPT_MEM_CMD_RESULT : FieldRef := ⟨R.XPT_MEM_CMD, 8, 8⟩
def F.XPT_MEM_CMD_GO : FieldRef := ⟨R.XPT_MEM_CMD, 31, 1⟩
def R.XPT_MEM_DATA (i : Nat) : Nat := 0xC00040 + 4 * i
def F.XPT_MEM_DATA_DATA (i : Nat) : FieldRef := ⟨R.XPT_MEM_DATA i, 0, 32⟩
def R.XPT_MSG_RX : Nat := 0xC00100
def F.XPT_MSG_RX_COUNT : FieldRef := ⟨R.XPT_MSG_RX, 0, 32⟩
def R.XPT_MSG_TX : Nat := 0xC00104
def F.XPT_MSG_TX_COUNT : FieldRef := ⟨R.XPT_MSG_TX, 0, 32⟩
def R.XPT_CONN_MISS : Nat := 0xC00108
def F.XPT_CONN_MISS_COUNT : FieldRef := ⟨R.XPT_CONN_MISS, 0, 32⟩
def R.XPT_BAD_FRAME : Nat := 0xC0010C
def F.XPT_BAD_FRAME_COUNT : FieldRef := ⟨R.XPT_BAD_FRAME, 0, 32⟩
def R.XPT_UNEXP : Nat := 0xC00110
def F.XPT_UNEXP_COUNT : FieldRef := ⟨R.XPT_UNEXP, 0, 32⟩
def R.XPT_WRONG_SN : Nat := 0xC00114
def F.XPT_WRONG_SN_COUNT : FieldRef := ⟨R.XPT_WRONG_SN, 0, 32⟩
def R.XPT_INVALID_FS : Nat := 0xC00118
def F.XPT_INVALID_FS_COUNT : FieldRef := ⟨R.XPT_INVALID_FS, 0, 32⟩
def R.XPT_OVFLW_RX : Nat := 0xC0011C
def F.XPT_OVFLW_RX_COUNT : FieldRef := ⟨R.XPT_OVFLW_RX, 0, 32⟩
def R.XPT_WAIT_LIMIT : Nat := 0xC00120
def F.XPT_WAIT_LIMIT_COUNT : FieldRef := ⟨R.XPT_WAIT_LIMIT, 0, 32⟩
def R.XPT_TIMEOUT_A : Nat := 0xC00124
def F.XPT_TIMEOUT_A_COUNT : FieldRef := ⟨R.XPT_TIMEOUT_A, 0, 32⟩
def R.XPT_TIMEOUT_BS : Nat := 0xC00128
def F.XPT_TIMEOUT_BS_COUNT : FieldRef := ⟨R.XPT_TIMEOUT_BS, 0, 32⟩
def R.XPT_TIMEOUT_CR : Nat := 0xC0012C
def F.XPT_TIMEOUT_CR_COUNT : FieldRef := ⟨R.XPT_TIMEOUT_CR, 0, 32⟩
def R.XPT_SESS_FULL : Nat := 0xC00130
def F.XPT_SESS_FULL_COUNT : FieldRef := ⟨R.XPT_SESS_FULL, 0, 32⟩
def R.XPT_OVFLW_DL : Nat := 0xC00134
def F.XPT_OVFLW_DL_COUNT : FieldRef := ⟨R.XPT_OVFLW_DL, 0, 32⟩
def R.XPT_OVFLW_NORES : Nat := 0xC00138
def F.XPT_OVFLW_NORES_COUNT : FieldRef := ⟨R.XPT_OVFLW_NORES, 0, 32⟩
def R.XPT_BUSY_DROP : Nat := 0xC0013C
def F.XPT_BUSY_DROP_COUNT : FieldRef := ⟨R.XPT_BUSY_DROP, 0, 32⟩
def R.XPT_RING_LOST : Nat := 0xC00140
def F.XPT_RING_LOST_COUNT : FieldRef := ⟨R.XPT_RING_LOST, 0, 32⟩
def R.XPT_PAUSE_LOST : Nat := 0xC00144
def F.XPT_PAUSE_LOST_COUNT : FieldRef := ⟨R.XPT_PAUSE_LOST, 0, 32⟩
def R.XPT_MEM_CE : Nat := 0xC00148
def F.XPT_MEM_CE_COUNT : FieldRef := ⟨R.XPT_MEM_CE, 0, 32⟩

/-! ### CRY: Table CRY-8 -/

def R.CRY_CTRL : Nat := 0xD00000
def F.CRY_CTRL_EN : FieldRef := ⟨R.CRY_CTRL, 0, 1⟩
def R.CRY_STATUS : Nat := 0xD00004
def F.CRY_STATUS_QUEUE : FieldRef := ⟨R.CRY_STATUS, 0, 8⟩
def F.CRY_STATUS_HOST_JOBS : FieldRef := ⟨R.CRY_STATUS, 8, 7⟩
def F.CRY_STATUS_TRNG_OK : FieldRef := ⟨R.CRY_STATUS, 15, 1⟩
def F.CRY_STATUS_CACHE_USED : FieldRef := ⟨R.CRY_STATUS, 16, 8⟩
def F.CRY_STATUS_PINNED : FieldRef := ⟨R.CRY_STATUS, 24, 7⟩
def F.CRY_STATUS_CFG_IGNORED : FieldRef := ⟨R.CRY_STATUS, 31, 1⟩
def R.CRY_HELD : Nat := 0xD00008
def F.CRY_HELD_FREE : FieldRef := ⟨R.CRY_HELD, 0, 12⟩
def F.CRY_HELD_HOST_USED : FieldRef := ⟨R.CRY_HELD, 16, 12⟩
def R.CRY_CACHE_CTRL : Nat := 0xD0000C
def F.CRY_CACHE_CTRL_FLUSH : FieldRef := ⟨R.CRY_CACHE_CTRL, 0, 1⟩
def R.CRY_MEM_SEL : Nat := 0xD00020
def F.CRY_MEM_SEL_INDEX : FieldRef := ⟨R.CRY_MEM_SEL, 16, 10⟩
def R.CRY_MEM_CMD : Nat := 0xD00024
def F.CRY_MEM_CMD_WRITE : FieldRef := ⟨R.CRY_MEM_CMD, 0, 1⟩
def F.CRY_MEM_CMD_RESULT : FieldRef := ⟨R.CRY_MEM_CMD, 8, 8⟩
def F.CRY_MEM_CMD_GO : FieldRef := ⟨R.CRY_MEM_CMD, 31, 1⟩
def R.CRY_MEM_DATA (i : Nat) : Nat := 0xD00040 + 4 * i
def F.CRY_MEM_DATA_DATA (i : Nat) : FieldRef := ⟨R.CRY_MEM_DATA i, 0, 32⟩
def R.CRY_MACSEC_TX (i : Nat) : Nat := 0xD00100 + 4 * i
def F.CRY_MACSEC_TX_CHAN (i : Nat) : FieldRef := ⟨R.CRY_MACSEC_TX i, 0, 10⟩
def F.CRY_MACSEC_TX_VALID (i : Nat) : FieldRef := ⟨R.CRY_MACSEC_TX i, 31, 1⟩
def R.CRY_AUTH_FAIL : Nat := 0xD00200
def F.CRY_AUTH_FAIL_COUNT : FieldRef := ⟨R.CRY_AUTH_FAIL, 0, 32⟩
def R.CRY_REPLAY : Nat := 0xD00204
def F.CRY_REPLAY_COUNT : FieldRef := ⟨R.CRY_REPLAY, 0, 32⟩
def R.CRY_RESYNC_OK : Nat := 0xD00208
def F.CRY_RESYNC_OK_COUNT : FieldRef := ⟨R.CRY_RESYNC_OK, 0, 32⟩
def R.CRY_FRESH_EXHAUST : Nat := 0xD0020C
def F.CRY_FRESH_EXHAUST_COUNT : FieldRef := ⟨R.CRY_FRESH_EXHAUST, 0, 32⟩
def R.CRY_INLINE_FULL : Nat := 0xD00210
def F.CRY_INLINE_FULL_COUNT : FieldRef := ⟨R.CRY_INLINE_FULL, 0, 32⟩
def R.CRY_HOST_BUSY : Nat := 0xD00214
def F.CRY_HOST_BUSY_COUNT : FieldRef := ⟨R.CRY_HOST_BUSY, 0, 32⟩
def R.CRY_CACHE_MISS : Nat := 0xD00218
def F.CRY_CACHE_MISS_COUNT : FieldRef := ⟨R.CRY_CACHE_MISS, 0, 32⟩
def R.CRY_MACSEC_ICV_FAIL : Nat := 0xD0021C
def F.CRY_MACSEC_ICV_FAIL_COUNT : FieldRef := ⟨R.CRY_MACSEC_ICV_FAIL, 0, 32⟩
def R.CRY_MACSEC_NO_SA : Nat := 0xD00220
def F.CRY_MACSEC_NO_SA_COUNT : FieldRef := ⟨R.CRY_MACSEC_NO_SA, 0, 32⟩
def R.CRY_MACSEC_LATE : Nat := 0xD00224
def F.CRY_MACSEC_LATE_COUNT : FieldRef := ⟨R.CRY_MACSEC_LATE, 0, 32⟩
def R.CRY_MACSEC_UNTAGGED : Nat := 0xD00228
def F.CRY_MACSEC_UNTAGGED_COUNT : FieldRef := ⟨R.CRY_MACSEC_UNTAGGED, 0, 32⟩
def R.CRY_PN_EXHAUST : Nat := 0xD0022C
def F.CRY_PN_EXHAUST_COUNT : FieldRef := ⟨R.CRY_PN_EXHAUST, 0, 32⟩
def R.CRY_TRNG_HEALTH : Nat := 0xD00230
def F.CRY_TRNG_HEALTH_COUNT : FieldRef := ⟨R.CRY_TRNG_HEALTH, 0, 32⟩
def R.CRY_MEM_CE : Nat := 0xD00234
def F.CRY_MEM_CE_COUNT : FieldRef := ⟨R.CRY_MEM_CE, 0, 32⟩

/-! ### VAULT: Table VLT-11 -/

def R.VAULT_STATUS : Nat := 0xE00000
def F.VAULT_STATUS_STATE : FieldRef := ⟨R.VAULT_STATUS, 0, 2⟩
def F.VAULT_STATUS_MEASURING : FieldRef := ⟨R.VAULT_STATUS, 2, 1⟩
def F.VAULT_STATUS_COMMITTED : FieldRef := ⟨R.VAULT_STATUS, 3, 1⟩
def F.VAULT_STATUS_ON_VBKUP : FieldRef := ⟨R.VAULT_STATUS, 4, 1⟩
def F.VAULT_STATUS_CFG_IGNORED : FieldRef := ⟨R.VAULT_STATUS, 5, 1⟩
def F.VAULT_STATUS_DBG_SCOPE : FieldRef := ⟨R.VAULT_STATUS, 6, 2⟩
def R.VAULT_UID (i : Nat) : Nat := 0xE00010 + 4 * i
def F.VAULT_UID_UID (i : Nat) : FieldRef := ⟨R.VAULT_UID i, 0, 32⟩
def R.VAULT_BOOT_COUNT : Nat := 0xE00020
def F.VAULT_BOOT_COUNT_COUNT : FieldRef := ⟨R.VAULT_BOOT_COUNT, 0, 32⟩
def R.VAULT_EPOCH : Nat := 0xE00024
def F.VAULT_EPOCH_EPOCH : FieldRef := ⟨R.VAULT_EPOCH, 0, 32⟩
def R.VAULT_EXT_CTRL : Nat := 0xE00030
def F.VAULT_EXT_CTRL_EXTEND : FieldRef := ⟨R.VAULT_EXT_CTRL, 0, 1⟩
def F.VAULT_EXT_CTRL_COMMIT : FieldRef := ⟨R.VAULT_EXT_CTRL, 1, 1⟩
def R.VAULT_EPOCH_STAGE : Nat := 0xE00034
def F.VAULT_EPOCH_STAGE_EPOCH : FieldRef := ⟨R.VAULT_EPOCH_STAGE, 0, 32⟩
def R.VAULT_M_EXACT (i : Nat) : Nat := 0xE00040 + 4 * i
def F.VAULT_M_EXACT_DATA (i : Nat) : FieldRef := ⟨R.VAULT_M_EXACT i, 0, 32⟩
def R.VAULT_SIGNER (i : Nat) : Nat := 0xE00080 + 4 * i
def F.VAULT_SIGNER_DATA (i : Nat) : FieldRef := ⟨R.VAULT_SIGNER i, 0, 32⟩
def R.VAULT_EXT_DATA (i : Nat) : Nat := 0xE000A0 + 4 * i
def F.VAULT_EXT_DATA_DATA (i : Nat) : FieldRef := ⟨R.VAULT_EXT_DATA i, 0, 32⟩
def R.VAULT_SIGNER_STAGE (i : Nat) : Nat := 0xE000E0 + 4 * i
def F.VAULT_SIGNER_STAGE_DATA (i : Nat) : FieldRef := ⟨R.VAULT_SIGNER_STAGE i, 0, 32⟩
def R.VAULT_PROV_NONCE (i : Nat) : Nat := 0xE00100 + 4 * i
def F.VAULT_PROV_NONCE_NONCE (i : Nat) : FieldRef := ⟨R.VAULT_PROV_NONCE i, 0, 32⟩
def R.VAULT_PROV_CTRL : Nat := 0xE00110
def F.VAULT_PROV_CTRL_NEW_NONCE : FieldRef := ⟨R.VAULT_PROV_CTRL, 0, 1⟩
def R.VAULT_SLOT_SEL : Nat := 0xE00120
def F.VAULT_SLOT_SEL_SLOT : FieldRef := ⟨R.VAULT_SLOT_SEL, 0, 8⟩
def R.VAULT_SLOT_INFO : Nat := 0xE00124
def F.VAULT_SLOT_INFO_FLAGS : FieldRef := ⟨R.VAULT_SLOT_INFO, 0, 8⟩
def F.VAULT_SLOT_INFO_LABEL_LEN : FieldRef := ⟨R.VAULT_SLOT_INFO, 8, 8⟩
def F.VAULT_SLOT_INFO_USAGE : FieldRef := ⟨R.VAULT_SLOT_INFO, 16, 16⟩
def R.VAULT_SLOT_EPOCH : Nat := 0xE00128
def F.VAULT_SLOT_EPOCH_EPOCH_MIN : FieldRef := ⟨R.VAULT_SLOT_EPOCH, 0, 32⟩
def R.VAULT_SLOT_COUNTER : Nat := 0xE00130
def F.VAULT_SLOT_COUNTER_COUNTER : FieldRef := ⟨R.VAULT_SLOT_COUNTER, 0, 64⟩
def R.VAULT_SLOT_LABEL (i : Nat) : Nat := 0xE00140 + 4 * i
def F.VAULT_SLOT_LABEL_LABEL (i : Nat) : FieldRef := ⟨R.VAULT_SLOT_LABEL i, 0, 32⟩
def R.VAULT_TMP_CFG : Nat := 0xE00200
def F.VAULT_TMP_CFG_EN0 : FieldRef := ⟨R.VAULT_TMP_CFG, 0, 1⟩
def F.VAULT_TMP_CFG_POL0 : FieldRef := ⟨R.VAULT_TMP_CFG, 1, 1⟩
def F.VAULT_TMP_CFG_EN1 : FieldRef := ⟨R.VAULT_TMP_CFG, 2, 1⟩
def F.VAULT_TMP_CFG_POL1 : FieldRef := ⟨R.VAULT_TMP_CFG, 3, 1⟩
def F.VAULT_TMP_CFG_FILT_US : FieldRef := ⟨R.VAULT_TMP_CFG, 8, 8⟩
def R.VAULT_TLOG_STATUS : Nat := 0xE00210
def F.VAULT_TLOG_STATUS_ENTRIES : FieldRef := ⟨R.VAULT_TLOG_STATUS, 0, 6⟩
def F.VAULT_TLOG_STATUS_NEWEST : FieldRef := ⟨R.VAULT_TLOG_STATUS, 8, 5⟩
def F.VAULT_TLOG_STATUS_TOTAL : FieldRef := ⟨R.VAULT_TLOG_STATUS, 16, 16⟩
def R.VAULT_TLOG (i : Nat) : Nat := 0xE00220 + 16 * i
def F.VAULT_TLOG_TYPE (i : Nat) : FieldRef := ⟨R.VAULT_TLOG i, 0, 8⟩
def F.VAULT_TLOG_DETAIL (i : Nat) : FieldRef := ⟨R.VAULT_TLOG i, 8, 8⟩
def F.VAULT_TLOG_SEQ (i : Nat) : FieldRef := ⟨R.VAULT_TLOG i, 16, 16⟩
def R.VAULT_TLOG_W1 (i : Nat) : Nat := 0xE00224 + 16 * i
def F.VAULT_TLOG_W1_BOOT_COUNT (i : Nat) : FieldRef := ⟨R.VAULT_TLOG_W1 i, 0, 32⟩
def R.VAULT_TLOG_W2 (i : Nat) : Nat := 0xE00228 + 16 * i
def F.VAULT_TLOG_W2_DTIME_S (i : Nat) : FieldRef := ⟨R.VAULT_TLOG_W2 i, 0, 32⟩
def R.VAULT_TLOG_W3 (i : Nat) : Nat := 0xE0022C + 16 * i
def R.VAULT_DBG_NONCE (i : Nat) : Nat := 0xE00500 + 4 * i
def F.VAULT_DBG_NONCE_NONCE (i : Nat) : FieldRef := ⟨R.VAULT_DBG_NONCE i, 0, 32⟩
def R.VAULT_DBG_SCOPE : Nat := 0xE00510
def F.VAULT_DBG_SCOPE_SCOPE : FieldRef := ⟨R.VAULT_DBG_SCOPE, 0, 32⟩
def R.VAULT_DBG_RESP (i : Nat) : Nat := 0xE00520 + 4 * i
def F.VAULT_DBG_RESP_RESP (i : Nat) : FieldRef := ⟨R.VAULT_DBG_RESP i, 0, 32⟩
def R.VAULT_DBG_CTRL : Nat := 0xE00540
def F.VAULT_DBG_CTRL_GO : FieldRef := ⟨R.VAULT_DBG_CTRL, 0, 1⟩
def F.VAULT_DBG_CTRL_NEW_NONCE : FieldRef := ⟨R.VAULT_DBG_CTRL, 1, 1⟩
def F.VAULT_DBG_CTRL_RELOCK : FieldRef := ⟨R.VAULT_DBG_CTRL, 2, 1⟩
def F.VAULT_DBG_CTRL_RESULT : FieldRef := ⟨R.VAULT_DBG_CTRL, 8, 8⟩
def F.VAULT_DBG_CTRL_SLOT : FieldRef := ⟨R.VAULT_DBG_CTRL, 16, 8⟩
def R.VAULT_UPDATE_OK : Nat := 0xE00560
def F.VAULT_UPDATE_OK_COUNT : FieldRef := ⟨R.VAULT_UPDATE_OK, 0, 32⟩
def R.VAULT_UPDATE_AUTH_FAIL : Nat := 0xE00564
def F.VAULT_UPDATE_AUTH_FAIL_COUNT : FieldRef := ⟨R.VAULT_UPDATE_AUTH_FAIL, 0, 32⟩
def R.VAULT_DBG_FAIL : Nat := 0xE00568
def F.VAULT_DBG_FAIL_COUNT : FieldRef := ⟨R.VAULT_DBG_FAIL, 0, 32⟩
def R.VAULT_MEM_CE : Nat := 0xE0056C
def F.VAULT_MEM_CE_COUNT : FieldRef := ⟨R.VAULT_MEM_CE, 0, 32⟩

/-! ### NM: Table NM-8 -/

def R.NM_CTRL : Nat := 0xF00000
def F.NM_CTRL_EN : FieldRef := ⟨R.NM_CTRL, 0, 1⟩
def R.NM_TIMEOUTS : Nat := 0xF00004
def F.NM_TIMEOUTS_T_CONFIRM_MS : FieldRef := ⟨R.NM_TIMEOUTS, 0, 16⟩
def F.NM_TIMEOUTS_KA_LIMIT_S : FieldRef := ⟨R.NM_TIMEOUTS, 16, 16⟩
def R.NM_FW_CFG : Nat := 0xF00008
def F.NM_FW_CFG_FW_LIMIT : FieldRef := ⟨R.NM_FW_CFG, 0, 8⟩
def F.NM_FW_CFG_FW_WINDOW_S : FieldRef := ⟨R.NM_FW_CFG, 16, 16⟩
def R.NM_MASK_CFG : Nat := 0xF0000C
def F.NM_MASK_CFG_MASK_S : FieldRef := ⟨R.NM_MASK_CFG, 0, 16⟩
def R.NM_PWR_STATUS : Nat := 0xF00010
def F.NM_PWR_STATUS_STATE : FieldRef := ⟨R.NM_PWR_STATUS, 0, 2⟩
def R.NM_PWR_CTRL : Nat := 0xF00014
def F.NM_PWR_CTRL_STANDBY : FieldRef := ⟨R.NM_PWR_CTRL, 0, 1⟩
def F.NM_PWR_CTRL_CFG_IGNORED : FieldRef := ⟨R.NM_PWR_CTRL, 1, 1⟩
def R.NM_FALSE_WAKES : Nat := 0xF00020
def F.NM_FALSE_WAKES_COUNT : FieldRef := ⟨R.NM_FALSE_WAKES, 0, 32⟩
def R.NM_MASKED_WAKES : Nat := 0xF00024
def F.NM_MASKED_WAKES_COUNT : FieldRef := ⟨R.NM_MASKED_WAKES, 0, 32⟩
def R.NM_HOLD_DROP : Nat := 0xF00028
def F.NM_HOLD_DROP_COUNT : FieldRef := ⟨R.NM_HOLD_DROP, 0, 32⟩
def R.NM_EV_LOST : Nat := 0xF0002C
def F.NM_EV_LOST_COUNT : FieldRef := ⟨R.NM_EV_LOST, 0, 32⟩
def R.NM_SEG_CFG (i : Nat) : Nat := 0xF00100 + 32 * i
def F.NM_SEG_CFG_EN (i : Nat) : FieldRef := ⟨R.NM_SEG_CFG i, 0, 1⟩
def F.NM_SEG_CFG_TRAFFIC_KEEPS (i : Nat) : FieldRef := ⟨R.NM_SEG_CFG i, 1, 1⟩
def F.NM_SEG_CFG_ETH_POLICY (i : Nat) : FieldRef := ⟨R.NM_SEG_CFG i, 2, 2⟩
def F.NM_SEG_CFG_ACT_MODE (i : Nat) : FieldRef := ⟨R.NM_SEG_CFG i, 4, 3⟩
def F.NM_SEG_CFG_NODE_ID (i : Nat) : FieldRef := ⟨R.NM_SEG_CFG i, 8, 8⟩
def F.NM_SEG_CFG_NMM_LEN (i : Nat) : FieldRef := ⟨R.NM_SEG_CFG i, 16, 4⟩
def R.NM_SEG_CTRL (i : Nat) : Nat := 0xF00104 + 32 * i
def F.NM_SEG_CTRL_REQ (i : Nat) : FieldRef := ⟨R.NM_SEG_CTRL i, 0, 1⟩
def F.NM_SEG_CTRL_UNMASK (i : Nat) : FieldRef := ⟨R.NM_SEG_CTRL i, 1, 1⟩
def R.NM_SEG_STATUS (i : Nat) : Nat := 0xF00108 + 32 * i
def F.NM_SEG_STATUS_STATE (i : Nat) : FieldRef := ⟨R.NM_SEG_STATUS i, 0, 3⟩
def F.NM_SEG_STATUS_DURING_COMMIT (i : Nat) : FieldRef := ⟨R.NM_SEG_STATUS i, 3, 1⟩
def F.NM_SEG_STATUS_FROM_STANDBY (i : Nat) : FieldRef := ⟨R.NM_SEG_STATUS i, 4, 1⟩
def F.NM_SEG_STATUS_CFG_IGNORED (i : Nat) : FieldRef := ⟨R.NM_SEG_STATUS i, 5, 1⟩
def F.NM_SEG_STATUS_LAST_SOURCE (i : Nat) : FieldRef := ⟨R.NM_SEG_STATUS i, 8, 8⟩
def F.NM_SEG_STATUS_HELD (i : Nat) : FieldRef := ⟨R.NM_SEG_STATUS i, 16, 6⟩
def F.NM_SEG_STATUS_MASKED (i : Nat) : FieldRef := ⟨R.NM_SEG_STATUS i, 24, 8⟩
def R.NM_NMM_RX (i : Nat) : Nat := 0xF0010C + 32 * i
def F.NM_NMM_RX_BASE (i : Nat) : FieldRef := ⟨R.NM_NMM_RX i, 0, 29⟩
def F.NM_NMM_RX_EXT (i : Nat) : FieldRef := ⟨R.NM_NMM_RX i, 29, 1⟩
def F.NM_NMM_RX_NMM_EN (i : Nat) : FieldRef := ⟨R.NM_NMM_RX i, 30, 1⟩
def R.NM_NMM_MASK (i : Nat) : Nat := 0xF00110 + 32 * i
def F.NM_NMM_MASK_MASK (i : Nat) : FieldRef := ⟨R.NM_NMM_MASK i, 0, 29⟩
def R.NM_NMM_TX (i : Nat) : Nat := 0xF00114 + 32 * i
def F.NM_NMM_TX_ID (i : Nat) : FieldRef := ⟨R.NM_NMM_TX i, 0, 29⟩
def F.NM_NMM_TX_EXT (i : Nat) : FieldRef := ⟨R.NM_NMM_TX i, 29, 1⟩
def R.NM_TIMERS_A (i : Nat) : Nat := 0xF00118 + 32 * i
def F.NM_TIMERS_A_READY_MS (i : Nat) : FieldRef := ⟨R.NM_TIMERS_A i, 0, 16⟩
def F.NM_TIMERS_A_PREPARE_MS (i : Nat) : FieldRef := ⟨R.NM_TIMERS_A i, 16, 16⟩
def R.NM_TIMERS_B (i : Nat) : Nat := 0xF0011C + 32 * i
def F.NM_TIMERS_B_NM_CYCLE_MS (i : Nat) : FieldRef := ⟨R.NM_TIMERS_B i, 0, 16⟩
def F.NM_TIMERS_B_MIN_AWAKE_MS (i : Nat) : FieldRef := ⟨R.NM_TIMERS_B i, 16, 16⟩

/-! ### LOAD: Table LOAD-9 -/

def R.LOAD_CH_CFG (i : Nat) : Nat := 0x1010000 + 128 * i
def F.LOAD_CH_CFG_CTRL_SRC (i : Nat) : FieldRef := ⟨R.LOAD_CH_CFG i, 0, 2⟩
def F.LOAD_CH_CFG_POLICY (i : Nat) : FieldRef := ⟨R.LOAD_CH_CFG i, 2, 2⟩
def F.LOAD_CH_CFG_SAFE (i : Nat) : FieldRef := ⟨R.LOAD_CH_CFG i, 4, 2⟩
def F.LOAD_CH_CFG_REV_ON (i : Nat) : FieldRef := ⟨R.LOAD_CH_CFG i, 6, 1⟩
def F.LOAD_CH_CFG_B2B (i : Nat) : FieldRef := ⟨R.LOAD_CH_CFG i, 7, 1⟩
def F.LOAD_CH_CFG_RAIL (i : Nat) : FieldRef := ⟨R.LOAD_CH_CFG i, 8, 1⟩
def F.LOAD_CH_CFG_PRIO (i : Nat) : FieldRef := ⟨R.LOAD_CH_CFG i, 12, 4⟩
def F.LOAD_CH_CFG_WIRE (i : Nat) : FieldRef := ⟨R.LOAD_CH_CFG i, 16, 4⟩
def F.LOAD_CH_CFG_INS (i : Nat) : FieldRef := ⟨R.LOAD_CH_CFG i, 20, 3⟩
def R.LOAD_CH_LIM (i : Nat) : Nat := 0x1010004 + 128 * i
def F.LOAD_CH_LIM_I_LIM (i : Nat) : FieldRef := ⟨R.LOAD_CH_LIM i, 0, 16⟩
def F.LOAD_CH_LIM_INRUSH_MULT (i : Nat) : FieldRef := ⟨R.LOAD_CH_LIM i, 16, 4⟩
def F.LOAD_CH_LIM_SC_MULT (i : Nat) : FieldRef := ⟨R.LOAD_CH_LIM i, 20, 4⟩
def F.LOAD_CH_LIM_INRUSH_MS (i : Nat) : FieldRef := ⟨R.LOAD_CH_LIM i, 24, 8⟩
def R.LOAD_CH_PWM (i : Nat) : Nat := 0x1010008 + 128 * i
def F.LOAD_CH_PWM_FREQ_HZ (i : Nat) : FieldRef := ⟨R.LOAD_CH_PWM i, 0, 15⟩
def F.LOAD_CH_PWM_PHASE (i : Nat) : FieldRef := ⟨R.LOAD_CH_PWM i, 16, 14⟩
def R.LOAD_CH_RETRY (i : Nat) : Nat := 0x101000C + 128 * i
def F.LOAD_CH_RETRY_RETRY_N (i : Nat) : FieldRef := ⟨R.LOAD_CH_RETRY i, 0, 4⟩
def F.LOAD_CH_RETRY_RETRY_MS (i : Nat) : FieldRef := ⟨R.LOAD_CH_RETRY i, 16, 16⟩
def R.LOAD_CH_SAFE (i : Nat) : Nat := 0x1010010 + 128 * i
def F.LOAD_CH_SAFE_SAFE_DUTY (i : Nat) : FieldRef := ⟨R.LOAD_CH_SAFE i, 0, 14⟩
def R.LOAD_CH_GD (i : Nat) : Nat := 0x1010014 + 128 * i
def F.LOAD_CH_GD_SHUNT_UOHM (i : Nat) : FieldRef := ⟨R.LOAD_CH_GD i, 0, 16⟩
def F.LOAD_CH_GD_VDS_TH (i : Nat) : FieldRef := ⟨R.LOAD_CH_GD i, 16, 8⟩
def R.LOAD_CH_OL (i : Nat) : Nat := 0x1010018 + 128 * i
def F.LOAD_CH_OL_OL_TH (i : Nat) : FieldRef := ⟨R.LOAD_CH_OL i, 0, 16⟩
def R.LOAD_CH_CMD (i : Nat) : Nat := 0x1010020 + 128 * i
def F.LOAD_CH_CMD_CMD (i : Nat) : FieldRef := ⟨R.LOAD_CH_CMD i, 0, 2⟩
def F.LOAD_CH_CMD_DUTY (i : Nat) : FieldRef := ⟨R.LOAD_CH_CMD i, 16, 14⟩
def R.LOAD_CH_STATUS (i : Nat) : Nat := 0x1010024 + 128 * i
def F.LOAD_CH_STATUS_STATE (i : Nat) : FieldRef := ⟨R.LOAD_CH_STATUS i, 0, 3⟩
def F.LOAD_CH_STATUS_SRC (i : Nat) : FieldRef := ⟨R.LOAD_CH_STATUS i, 3, 3⟩
def F.LOAD_CH_STATUS_INRUSH (i : Nat) : FieldRef := ⟨R.LOAD_CH_STATUS i, 6, 1⟩
def F.LOAD_CH_STATUS_LIMITING (i : Nat) : FieldRef := ⟨R.LOAD_CH_STATUS i, 7, 1⟩
def F.LOAD_CH_STATUS_RETRY (i : Nat) : FieldRef := ⟨R.LOAD_CH_STATUS i, 8, 4⟩
def F.LOAD_CH_STATUS_DUTY (i : Nat) : FieldRef := ⟨R.LOAD_CH_STATUS i, 16, 14⟩
def R.LOAD_CH_MEAS (i : Nat) : Nat := 0x1010028 + 128 * i
def F.LOAD_CH_MEAS_CURRENT (i : Nat) : FieldRef := ⟨R.LOAD_CH_MEAS i, 0, 16⟩
def F.LOAD_CH_MEAS_TJ (i : Nat) : FieldRef := ⟨R.LOAD_CH_MEAS i, 16, 8⟩
def F.LOAD_CH_MEAS_DT (i : Nat) : FieldRef := ⟨R.LOAD_CH_MEAS i, 24, 8⟩
def R.LOAD_CH_THETA (i : Nat) : Nat := 0x101002C + 128 * i
def F.LOAD_CH_THETA_THETA (i : Nat) : FieldRef := ⟨R.LOAD_CH_THETA i, 0, 16⟩
def R.LOAD_CH_FAULT (i : Nat) : Nat := 0x1010030 + 128 * i
def F.LOAD_CH_FAULT_CODES (i : Nat) : FieldRef := ⟨R.LOAD_CH_FAULT i, 0, 12⟩
def F.LOAD_CH_FAULT_CMD_REFUSED (i : Nat) : FieldRef := ⟨R.LOAD_CH_FAULT i, 12, 1⟩
def R.LOAD_TRIPS (i : Nat) : Nat := 0x1010034 + 128 * i
def F.LOAD_TRIPS_COUNT (i : Nat) : FieldRef := ⟨R.LOAD_TRIPS i, 0, 32⟩
def R.LOAD_RETRIES (i : Nat) : Nat := 0x1010038 + 128 * i
def F.LOAD_RETRIES_COUNT (i : Nat) : FieldRef := ⟨R.LOAD_RETRIES i, 0, 32⟩

/-! ### LOADC: Table LOAD-10 -/

def R.LOADC_GROUP_LIM (i : Nat) : Nat := 0x1011000 + 4 * i
def F.LOADC_GROUP_LIM_LIMIT (i : Nat) : FieldRef := ⟨R.LOADC_GROUP_LIM i, 0, 16⟩
def F.LOADC_GROUP_LIM_GROUP_FILT_US (i : Nat) : FieldRef := ⟨R.LOADC_GROUP_LIM i, 16, 8⟩
def R.LOADC_GROUP_SUM (i : Nat) : Nat := 0x1011010 + 4 * i
def F.LOADC_GROUP_SUM_SUM (i : Nat) : FieldRef := ⟨R.LOADC_GROUP_SUM i, 0, 16⟩
def R.LOADC_STATUS : Nat := 0x1011020
def F.LOADC_STATUS_CFG_IGNORED : FieldRef := ⟨R.LOADC_STATUS, 0, 1⟩
def R.LOADC_T_AMB : Nat := 0x1011024
def F.LOADC_T_AMB_T_AMB : FieldRef := ⟨R.LOADC_T_AMB, 0, 8⟩
def R.LOADC_WD_CFG : Nat := 0x1011030
def F.LOADC_WD_CFG_EN : FieldRef := ⟨R.LOADC_WD_CFG, 0, 1⟩
def F.LOADC_WD_CFG_MASTERS : FieldRef := ⟨R.LOADC_WD_CFG, 2, 3⟩
def F.LOADC_WD_CFG_PERIOD_MS : FieldRef := ⟨R.LOADC_WD_CFG, 16, 10⟩
def R.LOADC_WD_FEED : Nat := 0x1011034
def F.LOADC_WD_FEED_KEY : FieldRef := ⟨R.LOADC_WD_FEED, 0, 8⟩
def R.LOADC_WD_STATUS : Nat := 0x1011038
def F.LOADC_WD_STATUS_NEXT : FieldRef := ⟨R.LOADC_WD_STATUS, 0, 8⟩
def F.LOADC_WD_STATUS_EXPIRED : FieldRef := ⟨R.LOADC_WD_STATUS, 8, 1⟩
def F.LOADC_WD_STATUS_BAD_FEEDS : FieldRef := ⟨R.LOADC_WD_STATUS, 16, 16⟩
def R.LOADC_WD_CTRL : Nat := 0x101103C
def F.LOADC_WD_CTRL_RELEASE : FieldRef := ⟨R.LOADC_WD_CTRL, 0, 1⟩
def R.LOADC_LIMP_MAP : Nat := 0x1011040
def F.LOADC_LIMP_MAP_MAP : FieldRef := ⟨R.LOADC_LIMP_MAP, 0, 24⟩
def R.LOADC_LIMP_SEL_LO : Nat := 0x1011044
def F.LOADC_LIMP_SEL_LO_SEL : FieldRef := ⟨R.LOADC_LIMP_SEL_LO, 0, 32⟩
def R.LOADC_LIMP_SEL_HI : Nat := 0x1011048
def F.LOADC_LIMP_SEL_HI_SEL : FieldRef := ⟨R.LOADC_LIMP_SEL_HI, 0, 16⟩
def R.LOADC_LOCK : Nat := 0x101104C
def F.LOADC_LOCK_LOCK : FieldRef := ⟨R.LOADC_LOCK, 0, 1⟩
def R.LOADC_LIMP_STATUS : Nat := 0x1011050
def F.LOADC_LIMP_STATUS_LH_EN : FieldRef := ⟨R.LOADC_LIMP_STATUS, 0, 1⟩
def F.LOADC_LIMP_STATUS_LH_IN : FieldRef := ⟨R.LOADC_LIMP_STATUS, 1, 4⟩
def R.LOADC_SUPPLY_STATUS : Nat := 0x1011060
def F.LOADC_SUPPLY_STATUS_DUMP : FieldRef := ⟨R.LOADC_SUPPLY_STATUS, 0, 1⟩
def F.LOADC_SUPPLY_STATUS_VHV_HIGH : FieldRef := ⟨R.LOADC_SUPPLY_STATUS, 1, 1⟩
def F.LOADC_SUPPLY_STATUS_BROWNOUT : FieldRef := ⟨R.LOADC_SUPPLY_STATUS, 2, 1⟩
def F.LOADC_SUPPLY_STATUS_GND_LOSS : FieldRef := ⟨R.LOADC_SUPPLY_STATUS, 3, 1⟩
def F.LOADC_SUPPLY_STATUS_DEFERRED : FieldRef := ⟨R.LOADC_SUPPLY_STATUS, 8, 5⟩
def R.LOADC_PTIME_STATUS : Nat := 0x1011064
def F.LOADC_PTIME_STATUS_PTIME_VALID : FieldRef := ⟨R.LOADC_PTIME_STATUS, 0, 1⟩
def R.LOADC_CMD_REFUSED : Nat := 0x1011080
def F.LOADC_CMD_REFUSED_COUNT : FieldRef := ⟨R.LOADC_CMD_REFUSED, 0, 32⟩
def R.LOADC_SHED : Nat := 0x1011084
def F.LOADC_SHED_COUNT : FieldRef := ⟨R.LOADC_SHED, 0, 32⟩
def R.LOADC_EV_LOST : Nat := 0x1011088
def F.LOADC_EV_LOST_COUNT : FieldRef := ⟨R.LOADC_EV_LOST, 0, 32⟩

/-! ### HIF: Table HIF-13 -/

def R.HIF_STATUS : Nat := 0x100000
def F.HIF_STATUS_LINK_UP : FieldRef := ⟨R.HIF_STATUS, 0, 1⟩
def F.HIF_STATUS_SPEED : FieldRef := ⟨R.HIF_STATUS, 1, 3⟩
def F.HIF_STATUS_WIDTH : FieldRef := ⟨R.HIF_STATUS, 4, 3⟩
def F.HIF_STATUS_DMA_READS : FieldRef := ⟨R.HIF_STATUS, 16, 9⟩
def R.HIF_MISC_CFG : Nat := 0x100004
def F.HIF_MISC_CFG_FAULT_VEC : FieldRef := ⟨R.HIF_MISC_CFG, 0, 6⟩
def R.HIF_HOST_RESETS : Nat := 0x100010
def F.HIF_HOST_RESETS_COUNT : FieldRef := ⟨R.HIF_HOST_RESETS, 0, 32⟩
def R.HIF_BAD_DESC : Nat := 0x100014
def F.HIF_BAD_DESC_COUNT : FieldRef := ⟨R.HIF_BAD_DESC, 0, 32⟩
def R.HIF_RX_MAP (i : Nat) : Nat := 0x100100 + 4 * i
def F.HIF_RX_MAP_RING_0 (i : Nat) : FieldRef := ⟨R.HIF_RX_MAP i, 0, 8⟩
def F.HIF_RX_MAP_RING_1 (i : Nat) : FieldRef := ⟨R.HIF_RX_MAP i, 8, 8⟩
def F.HIF_RX_MAP_RING_2 (i : Nat) : FieldRef := ⟨R.HIF_RX_MAP i, 16, 8⟩
def F.HIF_RX_MAP_RING_3 (i : Nat) : FieldRef := ⟨R.HIF_RX_MAP i, 24, 8⟩
def R.HIF_SVC_CFG : Nat := 0x100200
def F.HIF_SVC_CFG_WRITE_EN : FieldRef := ⟨R.HIF_SVC_CFG, 0, 1⟩
def R.HIF_SPI_ERR : Nat := 0x100208
def F.HIF_SPI_ERR_COUNT : FieldRef := ⟨R.HIF_SPI_ERR, 0, 32⟩
def R.HIF_SPI_FRAMES : Nat := 0x10020C
def F.HIF_SPI_FRAMES_COUNT : FieldRef := ⟨R.HIF_SPI_FRAMES, 0, 32⟩
def R.HIF_RING_BASE (i : Nat) : Nat := 0x101000 + 64 * i
def F.HIF_RING_BASE_BASE (i : Nat) : FieldRef := ⟨R.HIF_RING_BASE i, 0, 64⟩
def R.HIF_RING_IDX_ADDR (i : Nat) : Nat := 0x101008 + 64 * i
def F.HIF_RING_IDX_ADDR_ADDR (i : Nat) : FieldRef := ⟨R.HIF_RING_IDX_ADDR i, 0, 64⟩
def R.HIF_RING_CFG (i : Nat) : Nat := 0x101010 + 64 * i
def F.HIF_RING_CFG_EN (i : Nat) : FieldRef := ⟨R.HIF_RING_CFG i, 0, 1⟩
def F.HIF_RING_CFG_SIZE_LOG2 (i : Nat) : FieldRef := ⟨R.HIF_RING_CFG i, 1, 5⟩
def F.HIF_RING_CFG_VECTOR (i : Nat) : FieldRef := ⟨R.HIF_RING_CFG i, 8, 6⟩
def F.HIF_RING_CFG_IRQ_EN (i : Nat) : FieldRef := ⟨R.HIF_RING_CFG i, 14, 1⟩
def R.HIF_RING_MOD (i : Nat) : Nat := 0x101014 + 64 * i
def F.HIF_RING_MOD_MOD_US (i : Nat) : FieldRef := ⟨R.HIF_RING_MOD i, 0, 10⟩
def F.HIF_RING_MOD_MOD_COUNT (i : Nat) : FieldRef := ⟨R.HIF_RING_MOD i, 16, 8⟩
def R.HIF_RING_STATUS (i : Nat) : Nat := 0x101018 + 64 * i
def F.HIF_RING_STATUS_ACTIVE (i : Nat) : FieldRef := ⟨R.HIF_RING_STATUS i, 0, 1⟩
def F.HIF_RING_STATUS_HALTED (i : Nat) : FieldRef := ⟨R.HIF_RING_STATUS i, 1, 1⟩
def F.HIF_RING_STATUS_DB_ERR (i : Nat) : FieldRef := ⟨R.HIF_RING_STATUS i, 2, 1⟩
def F.HIF_RING_STATUS_CFG_IGNORED (i : Nat) : FieldRef := ⟨R.HIF_RING_STATUS i, 3, 1⟩
def R.HIF_DEV_INDEX (i : Nat) : Nat := 0x10101C + 64 * i
def F.HIF_DEV_INDEX_INDEX (i : Nat) : FieldRef := ⟨R.HIF_DEV_INDEX i, 0, 32⟩
def R.HIF_DB_INDEX (i : Nat) : Nat := 0x101020 + 64 * i
def F.HIF_DB_INDEX_INDEX (i : Nat) : FieldRef := ⟨R.HIF_DB_INDEX i, 0, 32⟩
def R.HIF_RX_DROP (i : Nat) : Nat := 0x101024 + 64 * i
def F.HIF_RX_DROP_COUNT (i : Nat) : FieldRef := ⟨R.HIF_RX_DROP i, 0, 32⟩

/-! ### GLOBAL: Table REG-3 -/

def R.GLOBAL_DEVID : Nat := 0x0
def F.GLOBAL_DEVID_STEP : FieldRef := ⟨R.GLOBAL_DEVID, 0, 16⟩
def F.GLOBAL_DEVID_PART : FieldRef := ⟨R.GLOBAL_DEVID, 16, 16⟩
def R.GLOBAL_SCRATCH : Nat := 0x4
def F.GLOBAL_SCRATCH_DATA : FieldRef := ⟨R.GLOBAL_SCRATCH, 0, 32⟩
def R.GLOBAL_IND_ADDR : Nat := 0x10
def F.GLOBAL_IND_ADDR_ADDR : FieldRef := ⟨R.GLOBAL_IND_ADDR, 2, 24⟩
def F.GLOBAL_IND_ADDR_AUTO_INC : FieldRef := ⟨R.GLOBAL_IND_ADDR, 28, 1⟩
def F.GLOBAL_IND_ADDR_PREFETCH : FieldRef := ⟨R.GLOBAL_IND_ADDR, 29, 1⟩
def R.GLOBAL_IND_DATA : Nat := 0x14
def F.GLOBAL_IND_DATA_DATA : FieldRef := ⟨R.GLOBAL_IND_DATA, 0, 32⟩
def R.GLOBAL_IND_STATUS : Nat := 0x18
def F.GLOBAL_IND_STATUS_PF_VALID : FieldRef := ⟨R.GLOBAL_IND_STATUS, 0, 1⟩
def R.GLOBAL_TRD : Nat := 0x20
def F.GLOBAL_TRD_TRD_US : FieldRef := ⟨R.GLOBAL_TRD, 0, 16⟩
def R.GLOBAL_DISC_ADDR : Nat := 0x30
def F.GLOBAL_DISC_ADDR_ADDR : FieldRef := ⟨R.GLOBAL_DISC_ADDR, 0, 26⟩
def R.GLOBAL_DISC_DATA : Nat := 0x34
def F.GLOBAL_DISC_DATA_DATA : FieldRef := ⟨R.GLOBAL_DISC_DATA, 0, 32⟩
def R.GLOBAL_DISC_INFO : Nat := 0x38
def F.GLOBAL_DISC_INFO_MASTER : FieldRef := ⟨R.GLOBAL_DISC_INFO, 0, 3⟩
def F.GLOBAL_DISC_INFO_VALID : FieldRef := ⟨R.GLOBAL_DISC_INFO, 31, 1⟩
def R.GLOBAL_DISC_TIME : Nat := 0x40
def F.GLOBAL_DISC_TIME_DTIME : FieldRef := ⟨R.GLOBAL_DISC_TIME, 0, 64⟩
def R.GLOBAL_DISC_COUNT : Nat := 0x48
def F.GLOBAL_DISC_COUNT_COUNT : FieldRef := ⟨R.GLOBAL_DISC_COUNT, 0, 32⟩
def R.GLOBAL_TMR_CORR : Nat := 0x50
def F.GLOBAL_TMR_CORR_COUNT : FieldRef := ⟨R.GLOBAL_TMR_CORR, 0, 32⟩
def R.GLOBAL_TMR_LAST : Nat := 0x54
def F.GLOBAL_TMR_LAST_ADDR : FieldRef := ⟨R.GLOBAL_TMR_LAST, 0, 26⟩
def F.GLOBAL_TMR_LAST_VALID : FieldRef := ⟨R.GLOBAL_TMR_LAST, 31, 1⟩
def R.GLOBAL_SHADOW_MISS : Nat := 0x58
def F.GLOBAL_SHADOW_MISS_COUNT : FieldRef := ⟨R.GLOBAL_SHADOW_MISS, 0, 32⟩
def R.GLOBAL_BUS_ERR : Nat := 0x5C
def F.GLOBAL_BUS_ERR_COUNT : FieldRef := ⟨R.GLOBAL_BUS_ERR, 0, 32⟩
def R.GLOBAL_STALL_TO : Nat := 0x60
def F.GLOBAL_STALL_TO_COUNT : FieldRef := ⟨R.GLOBAL_STALL_TO, 0, 32⟩

/-! ### FLT: Tables FLT-1 and FLT-7, offsets within the fault page -/

def R.FLT_FAULT_STATUS (b : Nat) : Nat := faultPage b + 0xF00
def F.FLT_FAULT_STATUS_SRC (b : Nat) : FieldRef := ⟨R.FLT_FAULT_STATUS b, 0, 24⟩
def F.FLT_FAULT_STATUS_ISOLATED (b : Nat) : FieldRef := ⟨R.FLT_FAULT_STATUS b, 29, 1⟩
def F.FLT_FAULT_STATUS_SEVERE (b : Nat) : FieldRef := ⟨R.FLT_FAULT_STATUS b, 30, 1⟩
def F.FLT_FAULT_STATUS_LOCKED_WRITE (b : Nat) : FieldRef := ⟨R.FLT_FAULT_STATUS b, 31, 1⟩
def R.FLT_FAULT_IE (b : Nat) : Nat := faultPage b + 0xF04
def F.FLT_FAULT_IE_SRC_IE (b : Nat) : FieldRef := ⟨R.FLT_FAULT_IE b, 0, 24⟩
def F.FLT_FAULT_IE_SEVERE_IE (b : Nat) : FieldRef := ⟨R.FLT_FAULT_IE b, 30, 1⟩
def F.FLT_FAULT_IE_LW_IE (b : Nat) : FieldRef := ⟨R.FLT_FAULT_IE b, 31, 1⟩
def R.FLT_FEC_INFO (b : Nat) : Nat := faultPage b + 0xF08
def F.FLT_FEC_INFO_VALID (b : Nat) : FieldRef := ⟨R.FLT_FEC_INFO b, 0, 1⟩
def F.FLT_FEC_INFO_MASTER (b : Nat) : FieldRef := ⟨R.FLT_FEC_INFO b, 1, 3⟩
def F.FLT_FEC_INFO_ACCESS (b : Nat) : FieldRef := ⟨R.FLT_FEC_INFO b, 4, 3⟩
def F.FLT_FEC_INFO_DOMAIN_OFF (b : Nat) : FieldRef := ⟨R.FLT_FEC_INFO b, 7, 1⟩
def F.FLT_FEC_INFO_BIT (b : Nat) : FieldRef := ⟨R.FLT_FEC_INFO b, 8, 5⟩
def F.FLT_FEC_INFO_SEQ (b : Nat) : FieldRef := ⟨R.FLT_FEC_INFO b, 16, 16⟩
def R.FLT_FEC_ADDR (b : Nat) : Nat := faultPage b + 0xF0C
def F.FLT_FEC_ADDR_ADDR (b : Nat) : FieldRef := ⟨R.FLT_FEC_ADDR b, 0, 32⟩
def R.FLT_FEC_TIME (b : Nat) : Nat := faultPage b + 0xF10
def F.FLT_FEC_TIME_TIME (b : Nat) : FieldRef := ⟨R.FLT_FEC_TIME b, 0, 64⟩
def R.FLT_FEC_LOST (b : Nat) : Nat := faultPage b + 0xF18
def F.FLT_FEC_LOST_COUNT (b : Nat) : FieldRef := ⟨R.FLT_FEC_LOST b, 0, 32⟩
def R.FLT_WIN_CFG (b : Nat) : Nat := faultPage b + 0xF20
def F.FLT_WIN_CFG_WINDOW_MS (b : Nat) : FieldRef := ⟨R.FLT_WIN_CFG b, 0, 16⟩
def F.FLT_WIN_CFG_N (b : Nat) : FieldRef := ⟨R.FLT_WIN_CFG b, 16, 16⟩
def R.FLT_REACT (b : Nat) : Nat := faultPage b + 0xF24
def F.FLT_REACT_REACT (b : Nat) : FieldRef := ⟨R.FLT_REACT b, 0, 5⟩
def F.FLT_REACT_LOCK (b : Nat) : FieldRef := ⟨R.FLT_REACT b, 31, 1⟩
def R.FLT_EVT_COUNT (b : Nat) : Nat := faultPage b + 0xF28
def F.FLT_EVT_COUNT_IN_WINDOW (b : Nat) : FieldRef := ⟨R.FLT_EVT_COUNT b, 0, 16⟩
def R.FLT_EVT_TOTAL (b : Nat) : Nat := faultPage b + 0xF2C
def F.FLT_EVT_TOTAL_COUNT (b : Nat) : FieldRef := ⟨R.FLT_EVT_TOTAL b, 0, 32⟩
def R.FLT_SEV_COUNT (b : Nat) : Nat := faultPage b + 0xF30
def F.FLT_SEV_COUNT_COUNT (b : Nat) : FieldRef := ⟨R.FLT_SEV_COUNT b, 0, 32⟩
def R.FLT_BLOCK_CTRL (b : Nat) : Nat := faultPage b + 0xF34
def F.FLT_BLOCK_CTRL_RESET (b : Nat) : FieldRef := ⟨R.FLT_BLOCK_CTRL b, 0, 1⟩
def F.FLT_BLOCK_CTRL_UNIT (b : Nat) : FieldRef := ⟨R.FLT_BLOCK_CTRL b, 4, 4⟩
def R.FLT_PERT_DELAY (b : Nat) : Nat := faultPage b + 0xFC0
def F.FLT_PERT_DELAY_CYCLES (b : Nat) : FieldRef := ⟨R.FLT_PERT_DELAY b, 0, 10⟩
def F.FLT_PERT_DELAY_QUEUE (b : Nat) : FieldRef := ⟨R.FLT_PERT_DELAY b, 12, 4⟩
def F.FLT_PERT_DELAY_EN (b : Nat) : FieldRef := ⟨R.FLT_PERT_DELAY b, 31, 1⟩
def R.FLT_PERT_BP (b : Nat) : Nat := faultPage b + 0xFC4
def F.FLT_PERT_BP_DUTY (b : Nat) : FieldRef := ⟨R.FLT_PERT_BP b, 0, 8⟩
def F.FLT_PERT_BP_QUEUE (b : Nat) : FieldRef := ⟨R.FLT_PERT_BP b, 8, 4⟩
def F.FLT_PERT_BP_EN (b : Nat) : FieldRef := ⟨R.FLT_PERT_BP b, 31, 1⟩
def R.FLT_PERT_JIT (b : Nat) : Nat := faultPage b + 0xFC8
def F.FLT_PERT_JIT_AMPL_US (b : Nat) : FieldRef := ⟨R.FLT_PERT_JIT b, 0, 16⟩
def F.FLT_PERT_JIT_EN (b : Nat) : FieldRef := ⟨R.FLT_PERT_JIT b, 31, 1⟩
def R.FLT_PERT_INJ (b : Nat) : Nat := faultPage b + 0xFCC
def F.FLT_PERT_INJ_KIND (b : Nat) : FieldRef := ⟨R.FLT_PERT_INJ b, 0, 2⟩
def F.FLT_PERT_INJ_TARGET (b : Nat) : FieldRef := ⟨R.FLT_PERT_INJ b, 4, 4⟩
def F.FLT_PERT_INJ_COUNT (b : Nat) : FieldRef := ⟨R.FLT_PERT_INJ b, 8, 8⟩
def F.FLT_PERT_INJ_GO (b : Nat) : FieldRef := ⟨R.FLT_PERT_INJ b, 31, 1⟩
def R.FLT_PERT_ENT (b : Nat) : Nat := faultPage b + 0xFD0
def F.FLT_PERT_ENT_INDEX (b : Nat) : FieldRef := ⟨R.FLT_PERT_ENT b, 0, 20⟩
def F.FLT_PERT_ENT_MEM (b : Nat) : FieldRef := ⟨R.FLT_PERT_ENT b, 20, 4⟩
def F.FLT_PERT_ENT_WORD (b : Nat) : FieldRef := ⟨R.FLT_PERT_ENT b, 24, 5⟩
def F.FLT_PERT_ENT_GO (b : Nat) : FieldRef := ⟨R.FLT_PERT_ENT b, 31, 1⟩
def R.FLT_PERT_MASK (b : Nat) : Nat := faultPage b + 0xFD4
def F.FLT_PERT_MASK_MASK (b : Nat) : FieldRef := ⟨R.FLT_PERT_MASK b, 0, 32⟩
def R.FLT_PERT_CANBIT (b : Nat) : Nat := faultPage b + 0xFD8
def F.FLT_PERT_CANBIT_BIT (b : Nat) : FieldRef := ⟨R.FLT_PERT_CANBIT b, 0, 14⟩
def F.FLT_PERT_CANBIT_DIR (b : Nat) : FieldRef := ⟨R.FLT_PERT_CANBIT b, 14, 1⟩
def F.FLT_PERT_CANBIT_FRAMES (b : Nat) : FieldRef := ⟨R.FLT_PERT_CANBIT b, 16, 8⟩
def F.FLT_PERT_CANBIT_EN (b : Nat) : FieldRef := ⟨R.FLT_PERT_CANBIT b, 31, 1⟩
def R.FLT_PERT_D2D (b : Nat) : Nat := faultPage b + 0xFDC
def F.FLT_PERT_D2D_EXTRA (b : Nat) : FieldRef := ⟨R.FLT_PERT_D2D b, 0, 8⟩
def F.FLT_PERT_D2D_EVERY (b : Nat) : FieldRef := ⟨R.FLT_PERT_D2D b, 8, 8⟩
def F.FLT_PERT_D2D_EN (b : Nat) : FieldRef := ⟨R.FLT_PERT_D2D b, 31, 1⟩

/-! ### TEST: Table FLT-9 -/

def R.TEST_FLT_SUM (i : Nat) : Nat := 0x1100000 + 4 * i
def F.TEST_FLT_SUM_BLOCKS (i : Nat) : FieldRef := ⟨R.TEST_FLT_SUM i, 0, 32⟩
def R.TEST_FN_HOLD (i : Nat) : Nat := 0x1100010 + 4 * i
def F.TEST_FN_HOLD_BLOCKS (i : Nat) : FieldRef := ⟨R.TEST_FN_HOLD i, 0, 32⟩
def R.TEST_FAULTN_CTRL : Nat := 0x1100020
def F.TEST_FAULTN_CTRL_READY : FieldRef := ⟨R.TEST_FAULTN_CTRL, 0, 1⟩
def F.TEST_FAULTN_CTRL_FORCE : FieldRef := ⟨R.TEST_FAULTN_CTRL, 1, 1⟩
def F.TEST_FAULTN_CTRL_PIN : FieldRef := ⟨R.TEST_FAULTN_CTRL, 8, 1⟩
def R.TEST_EV61_LOST : Nat := 0x1100030
def F.TEST_EV61_LOST_COUNT : FieldRef := ⟨R.TEST_EV61_LOST, 0, 32⟩
def R.TEST_SEV_TOTAL : Nat := 0x1100034
def F.TEST_SEV_TOTAL_COUNT : FieldRef := ⟨R.TEST_SEV_TOTAL, 0, 32⟩

/-! ### BOOT: Table FW-8 -/

def R.BOOT_STATUS : Nat := 0x1200000
def F.BOOT_STATUS_BOOT_STATE : FieldRef := ⟨R.BOOT_STATUS, 0, 2⟩
def F.BOOT_STATUS_RESUMED : FieldRef := ⟨R.BOOT_STATUS, 2, 1⟩
def F.BOOT_STATUS_HDR_B : FieldRef := ⟨R.BOOT_STATUS, 3, 1⟩
def F.BOOT_STATUS_STAGE_STATE : FieldRef := ⟨R.BOOT_STATUS, 4, 3⟩
def F.BOOT_STATUS_FLASH_PAUSED : FieldRef := ⟨R.BOOT_STATUS, 7, 1⟩
def F.BOOT_STATUS_LAST_ERR : FieldRef := ⟨R.BOOT_STATUS, 8, 8⟩
def R.BOOT_ACTIVE_EPOCH : Nat := 0x1200004
def F.BOOT_ACTIVE_EPOCH_EPOCH : FieldRef := ⟨R.BOOT_ACTIVE_EPOCH, 0, 32⟩
def R.BOOT_ACTIVE_ID : Nat := 0x1200008
def F.BOOT_ACTIVE_ID_ID : FieldRef := ⟨R.BOOT_ACTIVE_ID, 0, 32⟩
def R.BOOT_STAGE_EPOCH : Nat := 0x120000C
def F.BOOT_STAGE_EPOCH_EPOCH : FieldRef := ⟨R.BOOT_STAGE_EPOCH, 0, 32⟩
def R.BOOT_STAGE_ID : Nat := 0x1200010
def F.BOOT_STAGE_ID_ID : FieldRef := ⟨R.BOOT_STAGE_ID, 0, 32⟩
def R.BOOT_STAGE_SECTORS : Nat := 0x1200014
def F.BOOT_STAGE_SECTORS_DONE : FieldRef := ⟨R.BOOT_STAGE_SECTORS, 0, 13⟩
def F.BOOT_STAGE_SECTORS_TOTAL : FieldRef := ⟨R.BOOT_STAGE_SECTORS, 16, 13⟩
def R.BOOT_COPY_NEXT : Nat := 0x1200018
def F.BOOT_COPY_NEXT_NEXT : FieldRef := ⟨R.BOOT_COPY_NEXT, 0, 13⟩
def R.BOOT_ANCHORS : Nat := 0x120001C
def F.BOOT_ANCHORS_VALID : FieldRef := ⟨R.BOOT_ANCHORS, 0, 4⟩
def R.BOOT_SVC_ADDR_LO : Nat := 0x1200020
def F.BOOT_SVC_ADDR_LO_ADDR : FieldRef := ⟨R.BOOT_SVC_ADDR_LO, 0, 32⟩
def R.BOOT_SVC_ADDR_HI : Nat := 0x1200024
def F.BOOT_SVC_ADDR_HI_ADDR : FieldRef := ⟨R.BOOT_SVC_ADDR_HI, 0, 16⟩
def R.BOOT_GUXIA_CFG : Nat := 0x1200028
def F.BOOT_GUXIA_CFG_PORT : FieldRef := ⟨R.BOOT_GUXIA_CFG, 0, 16⟩
def F.BOOT_GUXIA_CFG_EN : FieldRef := ⟨R.BOOT_GUXIA_CFG, 16, 1⟩
def R.BOOT_OTP_ANCHOR_DATA (i : Nat) : Nat := 0x1200040 + 4 * i
def F.BOOT_OTP_ANCHOR_DATA_DATA (i : Nat) : FieldRef := ⟨R.BOOT_OTP_ANCHOR_DATA i, 0, 32⟩
def R.BOOT_OTP_ANCHOR_CTRL : Nat := 0x1200060
def F.BOOT_OTP_ANCHOR_CTRL_SLOT : FieldRef := ⟨R.BOOT_OTP_ANCHOR_CTRL, 0, 2⟩
def F.BOOT_OTP_ANCHOR_CTRL_RESULT : FieldRef := ⟨R.BOOT_OTP_ANCHOR_CTRL, 8, 8⟩
def F.BOOT_OTP_ANCHOR_CTRL_BURN : FieldRef := ⟨R.BOOT_OTP_ANCHOR_CTRL, 31, 1⟩
def R.BOOT_BLOCK_AUTH_FAIL : Nat := 0x1200080
def F.BOOT_BLOCK_AUTH_FAIL_COUNT : FieldRef := ⟨R.BOOT_BLOCK_AUTH_FAIL, 0, 32⟩
def R.BOOT_PIECE_CRC_FAIL : Nat := 0x1200084
def F.BOOT_PIECE_CRC_FAIL_COUNT : FieldRef := ⟨R.BOOT_PIECE_CRC_FAIL, 0, 32⟩
def R.BOOT_GUXIA_RX : Nat := 0x1200088
def F.BOOT_GUXIA_RX_COUNT : FieldRef := ⟨R.BOOT_GUXIA_RX, 0, 32⟩
def R.BOOT_GUXIA_ERR : Nat := 0x120008C
def F.BOOT_GUXIA_ERR_COUNT : FieldRef := ⟨R.BOOT_GUXIA_ERR, 0, 32⟩
def R.BOOT_FLASH_ERR : Nat := 0x1200090
def F.BOOT_FLASH_ERR_COUNT : FieldRef := ⟨R.BOOT_FLASH_ERR, 0, 32⟩
def R.BOOT_JOURNAL_WRITES : Nat := 0x1200094
def F.BOOT_JOURNAL_WRITES_COUNT : FieldRef := ⟨R.BOOT_JOURNAL_WRITES, 0, 32⟩
def R.BOOT_LOCKSTEP : Nat := 0x1200098
def F.BOOT_LOCKSTEP_COUNT : FieldRef := ⟨R.BOOT_LOCKSTEP, 0, 32⟩
def R.BOOT_ANCHOR (i j : Nat) : Nat := 0x1200100 + 32 * i + 4 * j
def F.BOOT_ANCHOR_HASH (i j : Nat) : FieldRef := ⟨R.BOOT_ANCHOR i j, 0, 32⟩

/-! ### SUPV: Table PWR-8 -/

def R.SUPV_PD_STATUS : Nat := 0x1030000
def F.SUPV_PD_STATUS_ON : FieldRef := ⟨R.SUPV_PD_STATUS, 0, 14⟩
def F.SUPV_PD_STATUS_READY : FieldRef := ⟨R.SUPV_PD_STATUS, 16, 14⟩
def R.SUPV_PD_ON : Nat := 0x1030004
def F.SUPV_PD_ON_ON : FieldRef := ⟨R.SUPV_PD_ON, 0, 14⟩
def R.SUPV_PD_START : Nat := 0x1030008
def F.SUPV_PD_START_START : FieldRef := ⟨R.SUPV_PD_START, 0, 14⟩
def R.SUPV_STATUS : Nat := 0x103000C
def F.SUPV_STATUS_CFG_IGNORED : FieldRef := ⟨R.SUPV_STATUS, 0, 1⟩
def R.SUPV_VBAT_CFG : Nat := 0x1030010
def F.SUPV_VBAT_CFG_WARN : FieldRef := ⟨R.SUPV_VBAT_CFG, 0, 4⟩
def F.SUPV_VBAT_CFG_BOH_MAX_MS : FieldRef := ⟨R.SUPV_VBAT_CFG, 16, 10⟩
def R.SUPV_BOH_POLICY : Nat := 0x1030014
def F.SUPV_BOH_POLICY_DOMAINS : FieldRef := ⟨R.SUPV_BOH_POLICY, 0, 14⟩
def F.SUPV_BOH_POLICY_RESTORE : FieldRef := ⟨R.SUPV_BOH_POLICY, 16, 1⟩
def R.SUPV_SUPPLY_STATUS : Nat := 0x1030018
def F.SUPV_SUPPLY_STATUS_BOH : FieldRef := ⟨R.SUPV_SUPPLY_STATUS, 0, 1⟩
def F.SUPV_SUPPLY_STATUS_BOH_EXPIRED : FieldRef := ⟨R.SUPV_SUPPLY_STATUS, 1, 1⟩
def F.SUPV_SUPPLY_STATUS_RAIL_WARN : FieldRef := ⟨R.SUPV_SUPPLY_STATUS, 2, 1⟩
def F.SUPV_SUPPLY_STATUS_VHV_LOW : FieldRef := ⟨R.SUPV_SUPPLY_STATUS, 3, 1⟩
def R.SUPV_VBAT_MEAS : Nat := 0x103001C
def F.SUPV_VBAT_MEAS_MV : FieldRef := ⟨R.SUPV_VBAT_MEAS, 0, 16⟩
def R.SUPV_BOH_COUNT : Nat := 0x1030020
def F.SUPV_BOH_COUNT_COUNT : FieldRef := ⟨R.SUPV_BOH_COUNT, 0, 32⟩
def R.SUPV_BOH_EXPIRE : Nat := 0x1030024
def F.SUPV_BOH_EXPIRE_COUNT : FieldRef := ⟨R.SUPV_BOH_EXPIRE, 0, 32⟩
def R.SUPV_RST_CTRL : Nat := 0x1030030
def F.SUPV_RST_CTRL_WARM : FieldRef := ⟨R.SUPV_RST_CTRL, 0, 1⟩
def F.SUPV_RST_CTRL_COLD : FieldRef := ⟨R.SUPV_RST_CTRL, 1, 1⟩
def R.SUPV_RST_CAUSE : Nat := 0x1030040
def F.SUPV_RST_CAUSE_CAUSE : FieldRef := ⟨R.SUPV_RST_CAUSE, 0, 8⟩
def F.SUPV_RST_CAUSE_BLOCK : FieldRef := ⟨R.SUPV_RST_CAUSE, 8, 8⟩
def R.SUPV_RC_STATUS : Nat := 0x1030044
def F.SUPV_RC_STATUS_FAULT_STATUS : FieldRef := ⟨R.SUPV_RC_STATUS, 0, 32⟩
def R.SUPV_RC_FEC_INFO : Nat := 0x1030048
def F.SUPV_RC_FEC_INFO_INFO : FieldRef := ⟨R.SUPV_RC_FEC_INFO, 0, 32⟩
def R.SUPV_RC_FEC_ADDR : Nat := 0x103004C
def F.SUPV_RC_FEC_ADDR_ADDR : FieldRef := ⟨R.SUPV_RC_FEC_ADDR, 0, 32⟩
def R.SUPV_RC_FEC_TIME : Nat := 0x1030050
def F.SUPV_RC_FEC_TIME_TIME : FieldRef := ⟨R.SUPV_RC_FEC_TIME, 0, 64⟩
def R.SUPV_WARM_COUNT : Nat := 0x1030058
def F.SUPV_WARM_COUNT_COUNT : FieldRef := ⟨R.SUPV_WARM_COUNT, 0, 32⟩
def R.SUPV_MGMT_WD : Nat := 0x1030060
def F.SUPV_MGMT_WD_PERIOD_MS : FieldRef := ⟨R.SUPV_MGMT_WD, 0, 14⟩
def F.SUPV_MGMT_WD_EN : FieldRef := ⟨R.SUPV_MGMT_WD, 31, 1⟩
def R.SUPV_MGMT_WD_FEED : Nat := 0x1030064
def F.SUPV_MGMT_WD_FEED_DATA : FieldRef := ⟨R.SUPV_MGMT_WD_FEED, 0, 32⟩
def R.SUPV_CLK_STATUS : Nat := 0x1030070
def F.SUPV_CLK_STATUS_XTAL : FieldRef := ⟨R.SUPV_CLK_STATUS, 0, 1⟩
def F.SUPV_CLK_STATUS_PLL : FieldRef := ⟨R.SUPV_CLK_STATUS, 1, 1⟩
def F.SUPV_CLK_STATUS_PCIE_REF : FieldRef := ⟨R.SUPV_CLK_STATUS, 2, 1⟩
def F.SUPV_CLK_STATUS_SD_REF : FieldRef := ⟨R.SUPV_CLK_STATUS, 3, 1⟩
def F.SUPV_CLK_STATUS_AON : FieldRef := ⟨R.SUPV_CLK_STATUS, 4, 1⟩

end Sys2Proof.Machine
end

