-- ==== Sys2Proof/Machine/State.lean ====
section
/-!
DEFINITION. The machine's state as plain data, and the state after reset. Every register of the register tables is
in `regs`, every table and memory in `tbl`, host memory in `hostMem`; what the manual names beside them (queues,
timers, sessions, frames in the buffer, captures) has a field of its own.
-/
namespace Sys2Proof.Machine

/-- Why the machine stops. The manual gives every command an effect, so no meaning answers with a fault. -/
inductive Fault where
  /-- Nobody raises it (safe: it only keeps the type inhabited). -/
  | none
  deriving DecidableEq, Repr

/-- Why a command has no meaning here. -/
inductive Refusal where
  /-- Raised by `exec` for a command whose meaning is not written yet (safe: the run stops by name). -/
  | notModelled (mnemonic : String)
  deriving DecidableEq, Repr

/-- A frame or message in one of the forms of Table SIG-1; form 16 stands for an Ethernet frame, whose `data` runs
from the DA to the byte before the FCS. -/
structure Msg where
  form : Nat
  id : Nat
  data : List Byte
  /-- Flags of Table CAN-4: BRS, ESI, REMOTE, SEC, OWN, CLASSIC_CHK from bit 0 up. -/
  flags : Nat
  sdt : Nat
  vcid : Nat
  af : Nat
  /-- SOF time, DTIME in ns (R277). -/
  sof : Nat
  deriving DecidableEq, Repr

/-- A message with nothing in it. -/
def Msg.init : Msg := ⟨0, 0, [], 0, 0, 0, 0, 0⟩

/-- Where the PWM-coded part of a CAN XL frame begins and ends: the switching points of ISO 11898-1 in the sequences from
arbitration to data and from data to arbitration (R197). -/
inductive CanSwitch where
  | toData | toArbitration
  deriving DecidableEq, Repr

/-- How the data phase of a CAN XL frame is coded in FAST mode (R197): the low and the high phase of a 1 and of a 0 bit, in minimum
time quanta, and the part of the frame. -/
structure CanPwm where
  one : Nat × Nat
  zero : Nat × Nat
  first : CanSwitch
  last : CanSwitch
  deriving DecidableEq, Repr

/-- What leaves the device at its pins and links: the model's own record of it (log 2). -/
inductive Output where
  /-- A frame leaves an Ethernet or T1S port: its bytes from the DA on, and the FCS sent after them, whose complement stomps
  it (R94, R119). -/
  | ethFrame (port : Nat) (bytes : List Byte) (fcs : Nat)
  /-- A CAN frame starts on the bus; `pwm` says how its data phase is coded where it is PWM-coded (R197). -/
  | canFrame (port : Nat) (m : Msg) (pwm : Option CanPwm)
  /-- A CAN controller sends the dominant acknowledge bit of a frame it receives (R191). -/
  | canAck (port : Nat)
  /-- A CAN controller sends an error flag, active or passive (R191, R205). -/
  | canErrorFlag (port : Nat) (active : Bool)
  /-- A LIN header is sent: bits of its break and of the break delimiter, sync byte, protected identifier (R215). -/
  | linHeader (port brk delim sync pid : Nat)
  /-- A LIN response is sent. -/
  | linResponse (port : Nat) (data : List Byte)
  /-- A bus wake is sent on a segment (R368). -/
  | busWake (port : Nat)
  /-- The PHY of a T1S port goes to low-power wake detection, or leaves it (Table NM-1). -/
  | t1sPhy (port : Nat) (low : Bool)
  /-- An MSI-X message on a vector (R428). -/
  | msix (vector : Nat)
  /-- The answer to a safety-port frame (Table HIF-12). -/
  | spi (bytes : List Byte)
  /-- A Guxia reply or an SVC frame (R489, R490). -/
  | svc (bytes : List Byte)
  /-- The value a register read returned to a master. -/
  | readData (master addr value : Nat)
  /-- A bus error reported to a master (Table REG-5). -/
  | busError (master addr : Nat)
  /-- An MDIO transaction starts (R265). -/
  | mdio (bus op phy dev reg data : Nat)
  /-- A PTP event or general message is sent on a port. -/
  | ptp (port kind seq : Nat) (value : Int)
  /-- An interrupt line to MGMT (R458). -/
  | mgmtIrq (block : Nat)
  /-- A program or erase of boot flash starts (R488). -/
  | flashOp (addr len : Nat) (erase : Bool)
  deriving DecidableEq, Repr


/-- A contract's measurement record (Table PROM-12), index, flags and bounds aside. -/
structure Meas where
  maxRes : Nat
  measured : Nat
  breaches : Nat
  excused : Nat
  late : Nat
  police : Nat
  maxAt : Nat
  bins : List Nat
  deriving DecidableEq, Repr

/-- A cleared record. -/
def Meas.init : Meas := ⟨0, 0, 0, 0, 0, 0, 0, List.replicate 16 0⟩

/-- A container reservation of a contract (R47): half, container, cells, and the cells its PDUs hold. -/
structure ContRsv where
  half : Nat
  cont : Nat
  cells : Nat
  used : Nat
  deriving DecidableEq, Repr

/-- An admitted contract (R41 to R47). -/
structure Contract where
  /-- The 64 bytes of the request (Table PROM-4), as a little-endian number. -/
  req : Nat
  /-- Residence bound in ns. -/
  bound : Nat
  /-- Handles reserved, cells reserved in each half the set `halves` names (R47), and all its cells together. -/
  handles : Nat
  rsvC : Nat
  halves : Nat
  cells : Nat
  conts : List ContRsv
  /-- Withdrawn, with frames stamped under it still in the buffer (R45). -/
  quar : Bool
  /-- Policer (R84): tokens in 10⁻⁵ × 2⁻¹⁰ bit at an instant of the model's clock. -/
  tokens : Nat
  tokAt : Nat
  meas : Meas
  /-- Sequence counter of R122. -/
  seq : Nat
  /-- Recovery history of R123, latest first, the instant of the last frame passed. -/
  hist : List Nat
  passAt : Option Nat
  /-- Latent detection (R125): instants of the last frame of each member, and which has been reported silent. -/
  last0 : Nat
  last1 : Nat
  silent0 : Bool
  silent1 : Bool
  deriving DecidableEq, Repr

/-- A foreign identifier or node of a bus, as last seen (R69): key and instant, and frames in the present burst. -/
structure Seen where
  key : Nat
  time : Nat
  burst : Nat
  deriving DecidableEq, Repr

/-- Anvil beside its registers. -/
structure AnvilSt where
  contracts : SMap (Option Contract)
  /-- Ledger of each port from 12 to 47: its 16 B entries as numbers (R57); none where no ledger is loaded. -/
  ledgers : SMap (Option (List Nat))
  /-- Foreign frames last seen on a port. -/
  seen : SMap (List Seen)
  /-- Instant of the last break of each port's ledger (R69). -/
  breakAt : SMap (Option Nat)
  /-- Staged and operational best-effort shapers, keyed by 8 × port + class: rate and burst (Table PROM-15). -/
  staged : SMap (Nat × Nat)
  oper : SMap (Nat × Nat)
  /-- Keys pinned for contracts: secure channels (R54). -/
  pinned : List Nat
  deriving DecidableEq, Repr

/-- Nothing admitted, no ledger, every shaper unshaped. -/
def AnvilSt.init : AnvilSt := ⟨[], [], [], [], [], [], []⟩

/-- A stored frame (R88). -/
structure Frame where
  /-- Port of entry; 48 for a host ring, 49 for a frame the device formed itself. -/
  ingress : Nat
  half : Nat
  /-- The frame in ingress form, as far as received. -/
  msg : Msg
  prio : Nat
  vid : Nat
  /-- Contract it conforms to. -/
  contract : Option Nat
  /-- Residence start in ns, and EPOCH at the stamp (R274). -/
  start : Nat
  epoch : Nat
  poison : Bool
  /-- Cells held, and of these the ones charged to the contract's reservation. -/
  cells : Nat
  rsvCells : Nat
  rsvHandle : Bool
  /-- It has been counted in `RSV_OVERRUN` (R90). -/
  overrun : Bool
  /-- Cells charged to container reservations: contract, container, cells (R181). -/
  charges : List (Nat × Nat × Nat)
  hostTag : Option (Nat × Nat)
  /-- Launch time in 8 ns units (R276). -/
  launch : Option Nat
  /-- Received whole, with every copy made. -/
  whole : Bool
  /-- Order of entry (R185). -/
  order : Nat
  /-- Ports and orders of entry of the frames whose PDUs a container carries (R181, R185). -/
  carries : List (Nat × Nat)
  /-- The contracts of a container's further contract PDUs: each of them is a frame of its contract (R66). -/
  others : List Nat
  deriving DecidableEq, Repr

/-- What a copy is beside a forwarded frame. -/
inductive CopyKind where
  /-- Nothing special. -/
  | plain
  /-- A Touchstone sync or follow-up (R213). -/
  | tsSync | tsFup
  /-- A Touchstone sync whose exchange a later release has ended: it has no follow-up (R214). -/
  | tsOld
  /-- A PTP message of a type and sequence number, whose SFD time is captured (R281). -/
  | ptp (type seq : Nat)
  /-- A cyclic or triggered release of an image (R175). -/
  | cyclic | triggered
  /-- A network-management message (R373). -/
  | nmm
  /-- A frame of a transport session (its index) (R297). -/
  | xpt (session : Nat)
  /-- A frame in transmission whose session has ended: nothing follows it (R303). -/
  | xptOld
  deriving DecidableEq, Repr

/-- An egress copy (R88), with the frame in its egress form. -/
structure Copy where
  handle : Nat
  port : Nat
  tc : Nat
  msg : Msg
  /-- Order of arrival. -/
  seq : Nat
  /-- Deadline in 8 ns units (R36, R63). -/
  deadline : Nat
  /-- An excusing condition of Table PROM-1 has held since its queueing (R34). -/
  excused : Bool
  kind : CopyKind
  /-- In transmission. -/
  started : Bool
  /-- Waits for the whole frame (R118, R120). -/
  wait : Bool
  /-- Holds a reserved heap or slot entry (R113, R117). -/
  rsv : Bool
  /-- Held until its segment is awake (Table SIG-3). -/
  hold : Bool
  /-- Attempts destroyed by an error or a collision (R202, R264). -/
  tries : Nat
  /-- Instant at which its transmission started. -/
  since : Nat
  /-- Bytes that completed fragments have sent (R94). -/
  sent : Nat
  /-- Priority that an encapsulation gives it (R106); none: its frame's. -/
  prio : Option Nat
  /-- Bytes of its frame that are still to be received (R109, R110, R118). -/
  ahead : Nat
  /-- Packet number and plain bytes of a copy that a MACsec port protects while its frame is still received (R120, R335). -/
  sealed : Option (Nat × List Byte)
  deriving DecidableEq, Repr

/-- A frame whose header a pipeline has taken before its end (R118, R120): its handle where it is stored, and what
waits for its end. -/
structure Part where
  handle : Option Nat
  /-- Bytes received so far (published so far). -/
  got : Nat
  vid : Nat
  /-- Sequence number of the R-TAG to insert; the R-TAG received is removed; UNTAGGED ports (R122, R123, R231). -/
  insert : Option Nat
  strip : Bool
  untag : Nat
  /-- A HOST copy waits for the whole frame. -/
  host : Bool
  /-- The frame reached the lookup, so its SA is learned once it is whole (R143, R144). -/
  looked : Bool
  /-- The buffer had no room for it (R91, R92). -/
  dry : Bool
  /-- A copy was queued on an Ethernet port of the other pipeline (R144). -/
  out : Bool
  /-- It has been discarded, and counted where a count is due: nothing further counts or serves it (R119). -/
  dead : Bool
  deriving DecidableEq, Repr

/-- A header taken, and nothing decided. -/
def Part.init : Part := ⟨none, 0, 0, none, false, 0, false, false, false, false, false⟩

/-- A frame record of a field ingress queue (R97). -/
structure Rec where
  msg : Msg
  /-- Residence start: DTIME in ns of frame-valid, on T1S of the end of the FCS (R277). -/
  start : Nat
  /-- Controller STATUS.STATE at frame-valid (Table CAN-4). -/
  state : Nat
  /-- A word of it fails parity (R101). -/
  bad : Bool
  /-- Its words were read as they were published: what its pipeline holds of it (R120). -/
  part : Option Part
  /-- Order of entry (R185). -/
  order : Nat
  deriving DecidableEq, Repr

/-- The packet buffer and the queues. -/
structure FwdSt where
  frames : SMap (Option Frame)
  /-- Copies queued or in transmission, in order of arrival. -/
  copies : List Copy
  seq : Nat
  /-- Field ingress queues by queue index, and their write and read pointers in lanes (R98). -/
  fq : SMap (List Rec)
  fqPtr : SMap (Nat × Nat)
  /-- Frames being received whose header has been taken, by port. -/
  parts : SMap (Option Part)
  /-- Priorities paused by the partner: end instant, keyed by 8 × port + priority (R106). -/
  pause : SMap (Option Nat)
  /-- Instant at which the XOFF frame is due again, keyed by 8 × port + priority (R104); priorities of a port whose PFC frame
  waits, as a bit set. -/
  pfcDue : SMap (Option Nat)
  pfcPend : SMap Nat
  /-- Best-effort shaper levels in 2⁻²⁰ byte at an instant, keyed by 8 × port + class (R110). -/
  shaper : SMap (Option (Nat × Nat))
  /-- Last data sent for each LIN identifier, keyed by 64 × port + identifier (R222). -/
  linLast : SMap (List Byte)
  /-- Instant at which a best-effort identifier was last sent, keyed by `sentKey` (R116). -/
  sentAt : SMap (Option Nat)
  /-- Frames delivered to MGMT and not yet served: port and bytes from the DA on (Table PIPE-2). -/
  mgmt : List (Nat × List Byte)
  /-- What freed cells still hold: half and bytes, by the handle they were stored under (R95). -/
  freed : SMap (Nat × List Byte)
  deriving DecidableEq, Repr

/-- Nothing stored, nothing queued. -/
def FwdSt.init : FwdSt := ⟨[], [], 0, [], [], [], [], [], [], [], [], [], [], []⟩

/-- One pipeline's sweeper (R148): the next set, and the instant from which the spacing counts. -/
structure Burn where
  next : Nat
  last : Nat
  deriving DecidableEq, Repr

/-- The tables beside their entries. -/
structure TblSt where
  /-- Keys (`tkey`) of entries with an uncorrectable error (R130). -/
  bad : List Nat
  /-- Keys of entries with a correctable error, corrected at their next read (R130). -/
  soft : List Nat
  /-- Of these, keys of errors that `PERT_INJ` made (R471). -/
  pert : List Nat
  burnA : Burn
  burnB : Burn
  /-- Instant of the last LEARN_FAIL event of each pipeline (R145). -/
  failA : Option Nat
  failB : Option Nat
  /-- The pass in progress: its start; none between passes (R152). -/
  pass : Option Nat
  /-- Instant at which the next pass is due. -/
  passDue : Option Nat
  /-- Tables left of the pass: table, copy, next entry. -/
  todo : List (Nat × Nat × Nat)
  /-- Keys of the FDB entries refreshed in the cycle `freshAt` (R149). -/
  fresh : List Nat
  freshAt : Nat
  deriving DecidableEq, Repr

/-- The tables at reset: both sweepers at set 0. -/
def TblSt.init : TblSt := ⟨[], [], [], ⟨0, 0⟩, ⟨0, 0⟩, none, none, none, none, [], [], 0⟩

/-- A frame handed to the STE for its signal routes (target 50). -/
structure SigJob where
  first : Nat
  count : Nat
  data : List Byte
  deriving DecidableEq, Repr

/-- An Ethernet frame that an intake filter took (R166): filter, frame, its residence start and its port. -/
structure Intake where
  filter : Nat
  frame : List Byte
  start : Nat
  port : Nat
  /-- Order of entry (R185). -/
  order : Nat
  deriving DecidableEq, Repr

/-- A target image beside its bytes: last release, a trigger waiting for the gap, DTIME of the last cyclic instant. -/
structure Image where
  last : Option Nat
  pend : Bool
  cyc : Option Nat
  deriving DecidableEq, Repr

/-- An open container (R180): its stored frame, records, the instant it opened, and the deadlines of its PDUs. -/
structure Cont where
  handle : Nat
  recs : List Byte
  pdus : Nat
  since : Nat
  contractDl : Option Nat
  anyDl : Option Nat
  /-- The contracts of its contract PDUs, in order (R66). -/
  contracts : List Nat
  epoch : Nat
  /-- Operational threshold and hold time in force when it opened (R179). -/
  thresh : Nat
  hold : Nat
  deriving DecidableEq, Repr

/-- A held event (R185): type, source, detail, DTIME, and its order among frames and commands. -/
structure SteEvent where
  type : Nat
  source : Nat
  detail : Nat
  time : Nat
  order : Nat
  deriving DecidableEq, Repr

/-- The signal transplant engine. -/
structure SteSt where
  sigs : List SigJob
  intakes : List Intake
  images : SMap Image
  /-- Armed monitors: instant of the last refresh and the route entry (R172). -/
  mons : SMap (Option (Nat × Nat))
  conts : SMap (Option Cont)
  /-- Next SEQ of containers, and next sequence_num and next SEQ of encapsulation profiles. -/
  contSeq : SMap Nat
  acfSeq : SMap Nat
  encSeq : SMap Nat
  events : List SteEvent
  deriving DecidableEq, Repr

/-- An image never released. -/
def Image.init : Image := ⟨none, false, none⟩

/-- The STE at reset. -/
def SteSt.init : SteSt := ⟨[], [], [], [], [], [], [], [], []⟩

/-- An arbitration attempt (R202): the copy, and the SOF as DTIME. -/
structure Arb where
  copy : Nat
  sof : Nat
  /-- EPOCH at the SOF (R275). -/
  epoch : Nat
  deriving DecidableEq, Repr

/-- A CAN controller. -/
structure Can where
  /-- Out of INIT and not yet integrated (R191). -/
  joining : Bool
  /-- The attempt in progress. -/
  arb : Option Arb
  /-- Rate detection: confirmations, and the instant the dwell counts from (R195). -/
  confirms : Nat
  dwell : Nat
  /-- Trackers (R210): instants of the counted collisions, instant of the last, and of the suspension. -/
  hits : SMap (List Nat)
  /-- Format code of each tracker's identifier. -/
  forms : SMap Nat
  lastHit : SMap (Option Nat)
  susp : SMap (Option Nat)
  /-- Secondary sample point in use, in minimum time quanta after the bit's edge on TXD; 0 where none has been set (R194). -/
  ssp : Nat
  deriving DecidableEq, Repr

/-- A controller in INIT. -/
def Can.init : Can := ⟨false, none, 0, 0, [], [], [], [], 0⟩

/-- All controllers, and DTIME of Touchstone's last release. -/
structure CanSt where
  ctl : SMap Can
  tsLast : Option Nat
  deriving DecidableEq, Repr

/-- Every controller in INIT. -/
def CanSt.init : CanSt := ⟨[], none⟩

/-- The frame a LIN controller is at: identifier, direction, data bytes, checksum kind, the copy it sends. -/
structure LinFrame where
  id : Nat
  dir : Nat
  len : Nat
  enhanced : Bool
  copy : Option Nat
  deriving DecidableEq, Repr

/-- A LIN controller. -/
structure Lin where
  /-- The schedule runs; it stops at the end of the slot when `stopping`. -/
  running : Bool
  stopping : Bool
  /-- Table to switch to at the next slot boundary (R218). -/
  next : Option Nat
  /-- Start and end of the present slot. -/
  slotAt : Nat
  slotEnd : Nat
  /-- Consecutive slots skipped (R219). -/
  skips : Nat
  cur : Option LinFrame
  /-- The go-to-sleep command follows the present slot (R368). -/
  sleepDue : Bool
  deriving DecidableEq, Repr

/-- A stopped controller. -/
def Lin.init : Lin := ⟨false, false, none, 0, 0, 0, none, false⟩

/-- All LIN controllers. -/
structure LinSt where
  ctl : SMap Lin
  deriving DecidableEq, Repr

def LinSt.init : LinSt := ⟨[]⟩

/-- An Ethernet or T1S port. -/
structure EthPort where
  /-- The copy in transmission, and the copy whose transmission a preemption holds (R247). -/
  tx : Option Nat
  held : Option Nat
  /-- End of the last transmission (R260), and instant from which a transmission after low-power idle may start. -/
  idleAt : Nat
  wakeAt : Option Nat
  /-- Link conditions of the PHY hold (R233), whatever the retraining state. -/
  phyUp : Bool
  /-- Verify attempts unanswered, and the instant of the last (R248). -/
  verTries : Nat
  verAt : Nat
  /-- LLDP: instant of the last LLDPDU sent, and expiry of the partner's time-to-live. -/
  lldpAt : Option Nat
  ttlEnd : Option Nat
  /-- RATES offered by the partner (Table ETH-4), and its address as a number in wire order. -/
  rates : Nat
  /-- Rate step: target, the rate to revert to, PROPOSEs sent, instant the stage counts from, its length in cycles. -/
  target : Nat
  prev : Nat
  tries : Nat
  stageAt : Nat
  stageLen : Nat
  /-- The partner's PROPOSE last accepted: its SEQ, and the TARGET and HOLDOFF of the ACCEPT (R256). -/
  accepted : Option (Nat × Nat × Nat)
  /-- A second attempt at the previous rate is running (R258). -/
  revert : Bool
  /-- The utilisation window (R253): bytes received and sent in it, and its start. -/
  win : Nat × Nat × Nat
  /-- Frames of the last 100 ms while AUTO = 1 (R254): instant, bytes received, bytes sent. -/
  fast : List (Nat × Nat × Nat)
  /-- Anvil has requested a step-up (R62). -/
  upReq : Bool
  /-- DTIME of the commit point of the pending gate switchover (R244). -/
  gateAt : Nat
  /-- Start of the gate cycle last entered, in DTIME ns. -/
  gateCyc : Nat
  /-- A committed CHANGE of NOM waits for its step to start (R250). -/
  toNom : Bool
  /-- A PLCA follower takes its beacon as lost (R263). -/
  noBeacon : Bool
  /-- The step that runs is the partner's, which the port has accepted (R256). -/
  theirs : Bool
  deriving DecidableEq, Repr

/-- A port at reset. -/
def EthPort.init : EthPort :=
  ⟨none, none, 0, none, false, 0, 0, none, none, 0, 0, 0, 0, 0, 0, none, false, (0, 0, 0), [], false, 0, 0, false, false, false⟩

/-- An MDIO transaction in progress (R265): the write data or none for a read. -/
structure Mdio where
  bus : Nat
  op : Nat
  phy : Nat
  dev : Nat
  reg : Nat
  data : Nat
  deriving DecidableEq, Repr

/-- All Ethernet ports, and the MDIO command in progress. -/
structure EthSt where
  ports : SMap EthPort
  mdio : Option Mdio
  deriving DecidableEq, Repr

def EthSt.init : EthSt := ⟨[], none⟩

/-- One gPTP port (R281): the Pdelay_Req waiting for its answer, the delay in use and the neighbour's rate ratio. -/
structure GptpPort where
  /-- sequenceId of the next Pdelay_Req and Sync sent. -/
  seq : Nat
  /-- Egress time of the Pdelay_Req that waits for its Pdelay_Resp, in 2⁻¹⁶ ns, with its sequenceId. -/
  waiting : Option (Nat × Nat)
  /-- The measured link delay in ns. -/
  delay : Nat
  /-- Neighbour rate ratio minus one, in units of 2⁻⁴¹ (as cumulativeScaledRateOffset). -/
  nrr : Int
  /-- Egress and answer times of the earlier exchange, for the rate ratio. -/
  prev : Option (Nat × Nat)
  /-- A Pdelay_Resp has not come for this many requests. -/
  lost : Nat
  /-- Instants at which the next Sync of a master and the next Pdelay_Req are due. -/
  syncDue : Option Nat
  reqDue : Option Nat
  deriving DecidableEq, Repr

/-- A gPTP port that has exchanged nothing. -/
def GptpPort.init : GptpPort := ⟨0, none, 0, 0, none, 0, none, none⟩

/-- A PTP frame delivered to the time unit: port, bytes from the DA on, and its SFD time as DTIME in 2⁻¹⁶ ns. -/
structure PtpIn where
  port : Nat
  data : List Byte
  at_ : Nat
  /-- The same instant on the model's clock. -/
  cyc : Nat
  deriving DecidableEq, Repr

/-- What a bridge passes on of the latest Sync (R281): preciseOriginTimestamp in ns, the correction at its reception in
2⁻¹⁶ ns, cumulativeScaledRateOffset, and its reception as DTIME in 2⁻¹⁶ ns. -/
structure SyncInfo where
  origin : Nat
  corr : Int
  rate : Int
  at_ : Nat
  deriving DecidableEq, Repr

/-- The device time unit and the model's clock. -/
structure TimeSt where
  /-- Time passed since power-on in CORE-cycle lengths of 1.25 ns (the model's own clock, log 5). -/
  now : Nat
  /-- The DTIME accumulator in 2⁻³² ns (R269). -/
  acc : Nat
  /-- The part of a slew not yet added, in 2⁻³² ns (R272). -/
  slew : Int
  /-- Instant of the last step that took effect (R273). -/
  lastStep : Option Nat
  /-- DTIME in ns right after it: an instant due just then is not after the step (R275). -/
  stepAt : Option Nat
  /-- Consecutive Syncs inside SYNC_NS (R283). -/
  inRange : Nat
  /-- Consecutive Syncs outside SYNC_NS (R283). -/
  outRange : Nat
  /-- INCR values written at the last 8 Syncs, latest first (R284). -/
  incrs : List Nat
  /-- Instant of the sync receipt timeout (R283). -/
  syncDue : Option Nat
  /-- Instant at which holdover ends (R283). -/
  holdEnd : Option Nat
  /-- Master time of the last Sync in 2⁻¹⁶ ns and its reception on the model's clock, for the rate ratio (R284). -/
  lastSync : Option (Nat × Nat)
  /-- The latest Sync, as a bridge passes it on. -/
  up : Option SyncInfo
  /-- gPTP ports 0 to 11. -/
  ports : SMap GptpPort
  /-- PPS_OUT is at its active level until this instant (R288). -/
  ppsEnd : Option Nat
  /-- DTIME of the due instant of the last PPS_OUT pulse (R288). -/
  ppsLast : Option Nat
  /-- Instant of the last accepted PPS_IN edge, or of the enable (R289). -/
  ppsIn : Option Nat
  /-- Instant of the last accepted edge (R289). -/
  ppsAcc : Option Nat
  /-- PPS_IN_LOST has been raised since the last accepted edge. -/
  ppsLost : Bool
  /-- Instant at which the 32.768 kHz clock was lost, while it is (R511). -/
  aonHeld : Option Nat
  /-- Time that the AON counter has not counted: before its reset, and during losses of its clock. -/
  aonLost : Nat
  /-- PTP frames received and not yet served, in order. -/
  rxq : List PtpIn
  /-- `AON_SNAP.GO`, the AON tick edge that it waits for (none while that clock is lost), and the counter and DTIME last captured
  (R279). -/
  snapGo : Bool
  snapAt : Option Nat
  snapTicks : Nat
  snapDtime : Nat
  deriving DecidableEq, Repr

/-- The time unit at reset (R270). -/
def TimeSt.init : TimeSt :=
  ⟨0, 0, 0, none, none, 0, 0, [], none, none, none, none, [], none, none, none, none, false, none, 0, [], false, none, 0, 0⟩


/-- A frame handed to target 51: its CAN port, the message, and its frame-valid instant (DTIME, ns). -/
structure XptIn where
  port : Nat
  msg : Msg
  valid : Nat
  deriving DecidableEq, Repr

/-- A PDU handed to target 51 (R304): its identifier, its bytes, and the stored frame it came in. -/
structure XptPdu where
  id : Nat
  data : List Byte
  handle : Option Nat
  deriving DecidableEq, Repr

/-- What waits for a paused sequencer (R309): a frame, a PDU, the end of its own frame's transmission or its loss, an abort. -/
inductive XptEv where
  | frame (x : XptIn)
  | pdu (x : XptPdu)
  /-- The frame of session `k` ended at CORE cycle `now` and DTIME `t`. -/
  | sent (k now t : Nat)
  /-- It left the heap unsent for cause `n`. -/
  | gone (k n now : Nat)
  /-- The XPT_SEND of ring index `idx` is aborted. -/
  | abort (idx : Nat)
  deriving DecidableEq, Repr

/-- A session, single frames included (R295); `Sess.ctx` is none for those. The fields of Table XPT-3 come first. -/
structure Sess where
  ctx : Option Nat
  state : Nat
  len : Nat
  bytes : Nat
  sn : Nat
  bsLeft : Nat
  /-- The block is limited. -/
  block : Bool
  stmin : Nat
  waits : Nat
  /-- Expiry of the running timer: DTIME in ns. -/
  dl : Option Nat
  source : Nat
  /-- The stored frame of an Ethernet PDU. -/
  handle : Option Nat
  /-- Cells a receive session holds, and their half (R305). -/
  cells : Nat
  half : Nat
  /-- The message: received so far, or of an Ethernet PDU to be sent. -/
  data : List Byte
  /-- Ring index of the XPT_SEND it serves. -/
  op : Option Nat
  /-- Received or sent in FD frames. -/
  fd : Bool
  rxDl : Nat
  /-- Frame-valid instant of the SF or FF (DTIME, ns). -/
  validAt : Nat
  /-- The FC awaited answers the FF. -/
  first : Bool
  /-- Own frame in the heap or to be offered again, its deadline in ns, and the message bytes it carries. -/
  frame : Option Msg
  frameDl : Nat
  carry : Nat
  /-- Instant at which the frame is offered again (R299). -/
  again : Option Nat
  /-- Instant from which the next CF may enter the heap (R298). -/
  next : Option Nat
  /-- Frame-valid instant of the last frame received (DTIME, ns). -/
  lastRx : Nat
  /-- End of the last frame sent (DTIME, ns); 0 before (Table XPT-5). -/
  sentAt : Nat
  /-- The session ends ABORTED when its frame in transmission has completed (R303). -/
  stop : Bool
  deriving DecidableEq, Repr

/-- The transport engine. -/
structure XptSt where
  /-- Frames and PDUs not yet served, in order. -/
  inq : List XptIn
  pduq : List XptPdu
  /-- Sessions by 2 × connection, plus 1 for a receive session. -/
  sess : SMap (Option Sess)
  /-- What waits for each paused sequencer, in order of arrival: its 64-entry input queue, and what became of its own frames
  (R309). -/
  waiting : SMap (List XptEv)
  /-- The microcode region of each field sequencer's memory (R296). -/
  code : SMap (List Byte)
  deriving DecidableEq, Repr

/-- No session, no microcode. -/
def XptSt.init : XptSt := ⟨[], [], [], [], []⟩


/-- An entry of the derived-key cache (R318). -/
structure CacheEnt where
  slot : Nat
  counter : Nat
  key : List Nat
  pinned : Bool
  deriving DecidableEq, Repr

/-- Where a running host job of ring 58 stands: its key is being derived (R318), it waits for held-output units
(R327), it runs, or its result is known. -/
inductive CryPhase where
  | key | units | run
  | fin (err : Nat)
  deriving DecidableEq, Repr

/-- A running host job (R322, R323): its ring index, the parameter block as read, its key, the held-output units it has,
the input read in the current pass, and that pass. -/
structure CryJob where
  idx : Nat
  parm : List Byte
  phase : CryPhase
  slot : Nat
  counter : Nat
  key : List Nat
  units : Nat
  input : List Byte
  pass : Nat
  deriving DecidableEq, Repr

/-- Crucible beside its registers and its secure-channel table. -/
structure CrySt where
  /-- Cache entries, latest used first. -/
  cache : List CacheEnt
  /-- SAKs by channel (R337). -/
  saks : SMap (List Nat)
  /-- Running host jobs in the order they started. -/
  jobs : List CryJob
  /-- A health test has failed since the last start-up tests (R338). -/
  trngDead : Bool
  /-- Generate requests since the last seeding (R338). -/
  reqs : Nat
  /-- CORE cycles at which the in-line jobs that hold an entry of the request queue end (R313). -/
  inl : List Nat
  /-- Held-output units of received MACsec frames, with the CORE cycle at which they are free (R327). -/
  rxHeld : List (Nat × Nat)
  /-- What freed held-output space still holds, the latest last (R329). -/
  freed : List Byte
  deriving DecidableEq, Repr

/-- Crucible at reset. -/
def CrySt.init : CrySt := ⟨[], [], [], false, 0, [], [], []⟩

/-- The vault island. -/
structure VaultSt where
  /-- Root secret RS. -/
  rs : List Nat
  /-- RS has an uncorrectable error (R341). -/
  rsBad : Bool
  /-- The provisioning nonce held, the debug nonce held. -/
  nonce : Option (List Nat)
  dbgNonce : Option (List Nat)
  /-- Working copy of M-exact (R346). -/
  exact : List Nat
  /-- Instant of the last failed unlock (R360). -/
  dbgFailAt : Option Nat
  /-- Debug unlocked since the last MGMT reset (Table VLT-9). -/
  dbgSeen : Bool
  /-- ZEROISED since the last PROVISION (Table VLT-9). -/
  zeroSeen : Bool
  /-- Zeroisations to be reported when the logic die next starts (R358): trigger type, and TOTAL with its entry. -/
  report : List (Nat × Nat)
  deriving DecidableEq, Repr

/-- A vault island that has just powered up. -/
def VaultSt.init : VaultSt :=
  ⟨List.replicate 32 0, false, none, none, List.replicate 48 0, none, false, false, []⟩

/-- A segment. -/
structure Seg where
  /-- Entry into the present state; start of the ready timer. -/
  since : Nat
  ready : Nat
  /-- Keep-awake timer (R377): its start, the latest keeping node, the first application identifier, and keeping
  events counted per keeper. -/
  ka : Option Nat
  kaNode : Option Nat
  kaFrame : Option Nat
  kaCount : List (Nat × Nat)
  /-- Wake latched during COMMIT (R367). -/
  latch : Option Nat
  /-- The wake is marked local; the transceiver is back in its awake mode; the bus source of the wake. -/
  localWake : Bool
  active : Bool
  source : Nat
  /-- Instant of the last NMM sent, of the last LIN header, of the last wake pulse, and wake pulses repeated; 3 where no
  repeat is due. -/
  nmmAt : Nat
  hdrAt : Nat
  pulseAt : Nat
  pulses : Nat
  /-- False wakes: source and instant; masks: source and begin (R376). -/
  falses : List (Nat × Nat)
  masks : List (Nat × Nat)
  /-- The PHY of a T1S segment is in low-power wake detection (Table NM-1, R364). -/
  phyLow : Bool
  deriving DecidableEq, Repr

/-- A segment at reset. -/
def Seg.init : Seg := ⟨0, 0, none, none, none, [], none, false, false, 0, 0, 0, 0, 3, [], [], false⟩

/-- All segments. -/
structure NmSt where
  segs : SMap Seg
  /-- Segments whose wake was recognised in STANDBY and waits for `NM.CTRL.EN` (R379), as a bit set. -/
  standbyWake : Nat
  /-- Instant at which PD7 lost its power, while it is off: no timer runs from there (R364). -/
  stopAt : Option Nat
  deriving DecidableEq, Repr

def NmSt.init : NmSt := ⟨[], 0, none⟩

/-- What a load channel is doing (`CH_STATUS.STATE`, the safe state aside). -/
inductive Run where
  | off | on | pwm | faultOff | latched | deferred
  deriving DecidableEq, Repr

/-- A load channel beside its registers. -/
structure LoadCh where
  run : Run
  /-- The channel is in its safe state (R399). -/
  safe : Bool
  /-- Last accepted command: OFF, ON or PWM, and its duty. -/
  want : Run × Nat
  /-- What HOLD keeps: the output and duty at entry into the safe state (R399). -/
  hold : Run × Nat
  /-- The deferred turn-on: output, duty, source, and whether it is a retry (R389). -/
  pend : Option (Run × Nat × Nat × Bool)
  /-- End of the open inrush window (R388). -/
  winEnd : Option Nat
  /-- Instant and code of the last trip (R393). -/
  tripAt : Nat
  code : Nat
  /-- Instant of the last turn-on, until 1 s on has returned the retry count to 0 (R393). -/
  onSince : Option Nat
  /-- Wire model rise in 2⁻³² K (R391). -/
  theta : Nat
  /-- The output's present level; under PWM it follows the edges (R387). -/
  out : Bool
  /-- End and length of the present PWM period (R387). -/
  fin : Nat
  per : Nat
  /-- Instant at which the gate last went on: a turn-on, or the on edge of a PWM period (R390). -/
  gateAt : Nat
  /-- The last accepted register command: its instant, code and duty (R386). -/
  regAt : Option (Nat × Nat × Nat)
  /-- Instant of the last update of the wire model (R391). -/
  wireAt : Nat
  deriving DecidableEq, Repr

/-- A channel at a COLD reset: off, cold, without fault. -/
def LoadCh.init : LoadCh :=
  ⟨.off, false, (.off, 0), (.off, 0), none, none, 0, 0, none, 0, false, 0, 0, 0, none, 0⟩

/-- The power die's load side. -/
structure LoadSt where
  chans : SMap LoadCh
  /-- Actuation commands on their way over the D2D link: channel, command, duty, and its order (R186, R386). -/
  flight : List (Nat × Nat × Nat × Nat)
  /-- PTIME minus the model's clock, in ns (R404). -/
  ptimeOfs : Int
  /-- Instant of the latest correction of PTIME (R404). -/
  corr : Option Nat
  /-- Events waiting for the logic die or for ring 63 (R405). -/
  evBuf : List (List Byte)
  /-- The power die has lost its ground (R396). -/
  gndLost : Bool
  /-- VBAT in mV and VHV in 10 mV, as last measured. -/
  vbat : Nat
  vhv : Nat
  /-- Reverse battery switches on HS channels with REV_ON, one bit each (R396). -/
  revOn : Nat
  /-- GD channels whose reverse FET is held off (R396). -/
  revHeld : Nat
  /-- Instant of the last good feed, or of the enable (R398). -/
  wdFed : Option Nat
  /-- A good feed has come since the last expiry (R400). -/
  fedSince : Bool
  /-- Instant of the last deferred turn-on executed (R389). -/
  lastDefer : Option Nat
  /-- Flits on the die link since the last one that `PERT_D2D` affected (R26, R471). -/
  flits : Nat
  /-- Instant of the last shed of a supply group (R395). -/
  shedAt : SMap Nat
  /-- The supply is reversed, from REVERSE_BATTERY to the COLD reset that follows (R396). -/
  revBat : Bool
  deriving DecidableEq, Repr

/-- The load side at a COLD reset of the power die. -/
def LoadSt.init : LoadSt := ⟨[], [], 0, none, [], false, 0, 0, 0, 0, none, false, none, 0, [], false⟩


/-- What a ring holds beside its registers. -/
structure RingSt where
  /-- Completions since the last message (R428). -/
  unsig : Nat
  /-- Instant of the first completion not yet signalled. -/
  firstUnsig : Option Nat
  /-- TX: index of the next descriptor whose frame is read. -/
  txNext : Nat
  deriving DecidableEq, Repr

/-- A ring that has signalled everything. -/
def RingSt.init : RingSt := ⟨0, none, 0⟩

/-- States of an operation's state word (Table HIF-8). -/
inductive OpState where
  | queued | running | done | aborted | failed
  deriving DecidableEq, Repr

/-- A long operation: its descriptor's fields (Table HIF-7) and its state word (R426). -/
structure Op where
  ring : Nat
  idx : Nat
  opcode : Nat
  irq : Bool
  seq : Nat
  param : Nat
  status : Nat
  tgtRing : Nat
  tgtIdx : Nat
  state : OpState
  stop : Bool
  progress : Nat
  partialCnt : Nat
  /-- Position within the operation between two of its safe points (entries, sets or bytes done). -/
  pos : Nat
  /-- PROGRESS and PARTIAL of the last status word written while running, and its instant (R425). -/
  told : Nat × Nat × Nat
  deriving DecidableEq, Repr

/-- A TX frame that has not been completed (R418). -/
structure TxPend where
  ring : Nat
  idx : Nat
  report : Bool
  irq : Bool
  /-- Copies not yet ended. -/
  left : Nat
  sent : Nat
  dropped : Nat
  /-- Code of the first copy dropped. -/
  code : Nat
  /-- The frame is to be withdrawn (R427). -/
  aborted : Bool
  /-- A copy that had started has been dropped (Table HIF-10). -/
  begun : Bool
  deriving DecidableEq, Repr

/-- A fetched TX descriptor (Table HIF-3) whose frame has not been read. -/
structure TxDesc where
  ring : Nat
  idx : Nat
  addr : Nat
  len : Nat
  field : Bool
  psEn : Bool
  launchEn : Bool
  report : Bool
  irq : Bool
  prio : Nat
  launch : Nat
  portset : Nat
  /-- The descriptor breaks R415 or R416. -/
  bad : Bool
  deriving DecidableEq, Repr

/-- The host interface. -/
structure HostSt where
  rings : SMap RingSt
  /-- Operations queued or running, in order of acceptance. -/
  ops : List Op
  /-- ABORT commands fetched and not yet answered (R427). -/
  aborts : List Op
  /-- Commands with a reserved opcode or field, not yet answered (R425). -/
  unknown : List Op
  /-- For every command slot its last index and SEQ (R427), keyed by ring × 65,536 + slot. -/
  hist : SMap (Nat × Nat)
  txWait : List TxDesc
  txPend : List TxPend
  /-- TX descriptors aborted before they were fetched: ring and index (R427). -/
  txKilled : List (Nat × Nat)
  /-- Bit v: vector v is masked in the MSI-X table. -/
  msixMask : Nat
  /-- Bit v: a message waits for the unmasking of vector v (R428). -/
  msixPba : Nat
  /-- Messages sent, per vector. -/
  msixSent : SMap Nat
  /-- Answer that the next safety-port frame returns: RESULT, data, SEQ (R433). -/
  spiAns : Nat × Nat × Nat
  /-- An access of the safety port has not finished (R433). -/
  spiBusy : Bool
  deriving DecidableEq, Repr

/-- The host interface at reset: every vector is masked. -/
def HostSt.init : HostSt := ⟨[], [], [], [], [], [], [], [], 2 ^ 64 - 1, 0, [], (0, 0, 0), false⟩


/-- A read or write shadow of one master (R441, R442): the LO address it is tagged with and the words it holds. -/
structure Shadow where
  tag : Nat
  vals : List (Nat × Nat)
  deriving DecidableEq, Repr

/-- A read whose data a bridge holds for a requester (R448). -/
structure DelayedRead where
  master : Nat
  addr : Nat
  data : Nat
  sideEffect : Bool
  /-- Instant of the read. -/
  at_ : Nat
  deriving DecidableEq, Repr

/-- The register interface. -/
structure BusSt where
  /-- Read shadows, per master. -/
  rd : SMap (Option Shadow)
  /-- Write shadows, per master. -/
  wr : SMap (Option Shadow)
  /-- `GLOBAL.IND_ADDR` of each master (R446). -/
  ind : SMap Nat
  /-- Prefetched address and value of each master, and the instant of the prefetch (R447). -/
  pf : SMap (Option (Nat × Nat × Nat))
  /-- Delayed reads held, one per bridge (R448). -/
  delayed : List DelayedRead
  /-- RWO fields written since the reset that reached them, as address × 32 + lowest bit (R450). -/
  once : List Nat
  deriving DecidableEq, Repr

/-- The register interface at reset. -/
def BusSt.init : BusSt := ⟨[], [], [], [], [], []⟩


/-- A reaction that another block's unit applies within the same step (R463). -/
inductive Todo where
  /-- An ETH port is isolated, or its segment goes to sleep: its link goes down (Table FLT-4), which is itself no excuse (R34). -/
  | ethDown (port : Nat)
  /-- Every load channel takes its safe state (Table FLT-3 bit 3). -/
  | loadSafe
  /-- A frame of a transport session left the heap unsent (R299): the session's key, and 0 to offer it again, 1 for
  LATE, 2 for a removal. -/
  | xptDrop (sess kind : Nat)
  /-- A CAN controller can no longer contend (R203). -/
  | canStop (ctl : Nat)
  /-- The mode of a CAN controller or its transceiver has changed: where it cannot contend now, its heap is emptied (R203). -/
  | canClear (ctl : Nat)
  /-- The PHY of a T1S port is awake again: its link follows its conditions (R233). -/
  | tsLink (port : Nat)
  deriving DecidableEq, Repr

/-- What the fault pages hold beside their registers. -/
structure FltSt where
  /-- Instants at which the events now in a block's window leave it, oldest first (R461). -/
  wins : SMap (List Nat)
  /-- Block whose WARM request is pending (R467). -/
  warm : Option Nat
  /-- Errors still to be made by `PERT_INJ`, per block (R471). -/
  inject : SMap Nat
  /-- Reactions still to be applied within the present step; empty between steps. -/
  todo : List Todo
  deriving DecidableEq, Repr

/-- No event in any window. -/
def FltSt.init : FltSt := ⟨[], none, [], []⟩


/-- A flash write under way (R488): a staged sector with its bytes, or sector `n` of an activation copy; and whether it is
the retry after a failed verify. -/
inductive FlashOp where
  | stage (sector : Nat) (data : List Byte) (retry : Bool)
  | copy (sector : Nat) (retry : Bool)
  deriving DecidableEq, Repr

/-- The boot flash and the staging engine. -/
structure BootSt where
  /-- The boot flash by byte; an unlisted byte reads 0xFF, as erased. -/
  flash : SMap Byte
  /-- Sectors in assembly: the bytes that have arrived, by offset within the sector (R484). -/
  asm : SMap (SMap Byte)
  /-- Header of the staged image and its SHA-256; both empty in IDLE. The bytes are unknown after a restart until sent
  again, where sector 0 was not recorded. -/
  hdr : List Byte
  hash : List Byte
  session : Nat
  /-- Bit s: sector s is recorded. -/
  recorded : Nat
  /-- TAG_HASH and signature have been verified (state BLOCKS). -/
  signed : Bool
  /-- Flash writes in order. -/
  ops : List FlashOp
  /-- An activation copy serves the ring-59 operation of this index; none for Guxia or a resumed copy. -/
  copyOp : Option Nat
  /-- MGMT is to restart once the copy has ended (R493). -/
  restart : Bool
  /-- Last Guxia SEQ and its reply (R490). -/
  guxia : Option (Nat × List Byte)
  /-- MGMT memory: the payload that the boot ROM has decrypted into it (R481). -/
  mgmt : List Byte
  /-- The microcode sections of that payload: for the sequencers, and what Anvil runs (R477, R481). -/
  seqCode : List Byte
  anvilCode : List Byte
  deriving DecidableEq, Repr

/-- An erased flash, nothing staged, MGMT memory empty. -/
def BootSt.init : BootSt := ⟨[], [], [], [], 0, 0, false, [], none, false, none, [], [], []⟩


/-- Supplies, domains, resets and clocks beside the registers. -/
structure PwrSt where
  /-- Bit d − 1: PDd is switching on. -/
  goingOn : Nat
  /-- Bit d − 1: PDd is switching off. -/
  goingOff : Nat
  /-- Bit d − 1: an on-request waits for the switch-off of PDd (R499). -/
  onAfterOff : Nat
  /-- Bit d − 1: PDd was switched off by the brownout policy (R505). -/
  policyOff : Nat
  /-- Instant at which brownout hold began (R504). -/
  bohStart : Option Nat
  /-- Instant at which brownout hold expired (R505). -/
  bohExpired : Bool
  /-- The logic die has left reset (R502). -/
  logicUp : Bool
  /-- INH0 and INH1 levels. -/
  inh0 : Bool
  inh1 : Bool
  /-- Tile B is copying the replicated tables (R500). -/
  tileBCopy : Bool
  /-- Instant of the last expiry of the MGMT watchdog (R513). -/
  wdLast : Option Nat
  /-- Instant of the last feed of the MGMT watchdog, or of its enable. -/
  wdFed : Option Nat
  /-- Instant at which the D2D link lost training (R514). -/
  d2dDown : Option Nat
  /-- CAN, LIN and T1S drivers are held recessive (R518). -/
  recessive : Bool
  /-- The 25 MHz crystal is missing and holds the logic die in reset (R511). -/
  clkHold : Bool
  /-- Bit p: the integrated transceiver of port p has switched its driver off for a dominant TXD (R226). -/
  txdOff : Nat
  deriving DecidableEq, Repr

/-- Supplies at a COLD reset: nothing is on, no INH pin is active. -/
def PwrSt.init : PwrSt :=
  ⟨0, 0, 0, 0, none, false, false, false, false, false, none, none, none, false, false, 0⟩


/-- The device: everything but the command queue. -/
structure Dev where
  /-- The registers, keyed by BAR0 offset; an unlisted register reads its Reset value. -/
  regs : SMap Word
  /-- Tables and memories, keyed by `tkey`; entries are little-endian numbers, unlisted entries are 0. -/
  tbl : SMap Nat
  /-- Host memory, byte by byte; an unlisted byte reads 0 (log 1). -/
  hostMem : List Host.Cell
  /-- What the device has put on its pins and links, latest first (the model's own record, log 2). -/
  out : List Output
  /-- The number of free values taken so far (the model's own, log 3). -/
  free : Nat
  /-- Contracts, policers, measurement records, bus ledgers and staged shapers (chapter 2). -/
  anvil : AnvilSt
  /-- The packet buffer, the egress queues and heaps, and the field ingress queues (chapter 3). -/
  fwd : FwdSt
  /-- Sweepers, Assay and table-SRAM errors (chapter 4); the entries themselves are in `tbl`. -/
  tables : TblSt
  /-- The signal transplant engine beside its memories (chapter 5). -/
  ste : SteSt
  /-- The CAN controllers and Touchstone beside their registers (chapter 6). -/
  can : CanSt
  /-- The LIN controllers beside their registers (chapter 6). -/
  lin : LinSt
  /-- The Ethernet and T1S ports beside their registers (chapter 7). -/
  eth : EthSt
  /-- The device time unit (chapter 8). -/
  time : TimeSt
  /-- Transport sessions and what waits for the engine (chapter 9); connections are in `tbl`. -/
  xpt : XptSt
  /-- Crucible's derived-key cache, key stores and jobs (chapter 10). -/
  cry : CrySt
  /-- The vault island beside its slot records and registers (chapter 11). -/
  vault : VaultSt
  /-- Segments beside their registers (chapter 12). -/
  nm : NmSt
  /-- Load channels, their watchdog, pins, supplies and PTIME (chapter 13). -/
  load : LoadSt
  /-- Rings, long operations, MSI-X and the safety port (chapter 14). -/
  host : HostSt
  /-- Shadows, indirect access and write-once marks of the register interface (chapter 15). -/
  bus : BusSt
  /-- Event windows and reactions of the fault blocks (chapter 16). -/
  flt : FltSt
  /-- The boot flash and the staging engine beside their registers (chapter 17). -/
  boot : BootSt
  /-- Supplies, domains, resets and the die link (chapter 18). -/
  pwr : PwrSt
  deriving DecidableEq, Repr

/-- The device right after a COLD reset (R507, R510): VBAT has just passed VBAT_POR, the power die has left reset
and the logic die is unpowered; every register reads its Reset value, every table and memory lists nothing. -/
def Dev.reset : Dev where
  regs := []
  tbl := []
  hostMem := []
  out := []
  free := 0
  anvil := AnvilSt.init
  fwd := FwdSt.init
  tables := TblSt.init
  ste := SteSt.init
  can := CanSt.init
  lin := LinSt.init
  eth := EthSt.init
  time := TimeSt.init
  xpt := XptSt.init
  cry := CrySt.init
  vault := VaultSt.init
  nm := NmSt.init
  load := LoadSt.init
  host := HostSt.init
  bus := BusSt.init
  flt := FltSt.init
  boot := BootSt.init
  pwr := PwrSt.init

/-- The machine: the device and the commands that wait, first in, first out. -/
structure State where
  /-- The commands that wait; `step` takes the first. -/
  pending : List Instr
  /-- The device. -/
  dev : Dev
  deriving DecidableEq, Repr

/-- The machine right after reset: no command waits. -/
def State.reset : State where
  pending := []
  dev := Dev.reset

end Sys2Proof.Machine
end

