-- ==== Sys2Proof/Machine/Ops.lean ====
section
/-!
DEFINITION. The named operations over the state: registers and their fields, tables, host memory, time, power
domains, the output record and free values. Every meaning reads and writes the state through them.
-/
namespace Sys2Proof.Machine

/-! ### The register map -/

/-- The block whose fault page holds an address (R457, Table FLT-8). -/
def faultBlockOf (a : Nat) : Option Nat :=
  if a % 0x1000 < 0xF00 then none
  else (List.range 66).find? (fun b => faultPage b == a / 0x1000 * 0x1000)

/-- The register table of an address's window (Tables REG-1 and REG-2). -/
def windowRegs (a : Nat) : List RegDef :=
  if a < 0x100000 then globalRegs
  else if a < 0x200000 then hifRegs
  else if a < 0x210000 then fwdRegs
  else if a < 0x400000 then cntRegs
  else if a < 0x600000 then tblRegs
  else if a < 0x700000 then anvilRegs
  else if a < 0x800000 then steRegs
  else if a < 0x814000 then canRegs
  else if a < 0x900000 then tsRegs
  else if a < 0xA00000 then linRegs
  else if a < 0xA14000 then ethRegs
  else if a < 0xB00000 then ethcRegs
  else if a < 0xC00000 then timeRegs
  else if a < 0xD00000 then xptRegs
  else if a < 0xE00000 then cryRegs
  else if a < 0xF00000 then vaultRegs
  else if a < 0x1000000 then nmRegs
  else if a < 0x1010000 then pwrRegs
  else if a < 0x1011000 then loadRegs
  else if a < 0x1020000 then loadcRegs
  else if a < 0x1030000 then pwrRegs
  else if a < 0x1100000 then supvRegs
  else if a < 0x1200000 then testRegs
  else bootRegs

/-- Whether an offset from a row's base is one of its instances: a multiple of the first stride below the first
count, then of the next stride, and so on. -/
def dimsHit : List (Nat × Nat) → Nat → Bool
  | [], off => off == 0
  | (st, n) :: ds, off => decide (off / st < n) && dimsHit ds (off % st)

/-- Whether a register row has an instance at an address. -/
def RegDef.at (r : RegDef) (a : Nat) : Bool := decide (r.base ≤ a) && dimsHit r.dims (a - r.base)

/-- The register at an address, when a register table lists it (R437). `PERT_CANBIT` exists in CAN pages only and
`PERT_D2D` in the PWR bridge page only (R471). -/
def regDef (a : Nat) : Option RegDef :=
  match faultBlockOf a with
  | some b =>
    let off := a - faultPage b
    if off == 0xFD8 && !(decide (6 ≤ b) && decide (b < 26)) then none
    else if off == 0xFDC && !(b == 61) then none
    else fltRegs.find? (fun r => r.at off)
  | none => (windowRegs a).find? (fun r => r.at a)

/-- The Reset value of the register at an address (R13); an address no table lists reads 0. -/
def resetVal (a : Nat) : Nat :=
  match regDef a with
  | some r => r.flds.foldl (fun x f => x + f.rst * 2 ^ f.lo) 0
  | none => 0

/-- What an unlisted register reads as. -/
def regDefault (a : Nat) : Word := BitVec.ofNat 32 (resetVal a)

/-! ### Registers and fields -/

/-- The value a register holds. -/
def Dev.reg (d : Dev) (a : Nat) : Nat := (SMap.get d.regs (regDefault a) a).toNat

/-- A register takes a value. -/
def Dev.setReg (d : Dev) (a v : Nat) : Dev :=
  { d with regs := SMap.set d.regs (regDefault a) a (BitVec.ofNat 32 v) }

/-- The value of a field; one wider than its word goes on in the next word (R441). -/
def Dev.get (d : Dev) (f : FieldRef) : Nat :=
  if f.lo + f.w ≤ 32 then bf (d.reg f.addr) f.lo f.w
  else bf (d.reg f.addr + 2 ^ 32 * d.reg (f.addr + 4)) f.lo f.w

/-- A field takes a value. -/
def Dev.set (d : Dev) (f : FieldRef) (v : Nat) : Dev :=
  if f.lo + f.w ≤ 32 then d.setReg f.addr (setBf (d.reg f.addr) f.lo f.w v)
  else
    let x := setBf (d.reg f.addr + 2 ^ 32 * d.reg (f.addr + 4)) f.lo f.w v
    (d.setReg f.addr (x % 2 ^ 32)).setReg (f.addr + 4) (x / 2 ^ 32)

/-- A one-bit field is set. -/
def Dev.flag (d : Dev) (f : FieldRef) : Bool := d.get f == 1

/-- A counter field goes up by `n` and stays at its maximum. -/
def Dev.add (d : Dev) (f : FieldRef) (n : Nat) : Dev := d.set f (satAdd f.w (d.get f) n)

/-- A counter field goes up by one and stays at its maximum. -/
def Dev.inc (d : Dev) (f : FieldRef) : Dev := d.add f 1

/-- A field goes down by one, not below 0. -/
def Dev.dec (d : Dev) (f : FieldRef) : Dev := d.set f (d.get f - 1)

/-- Bit `i` of a field is set or cleared. -/
def Dev.setBitOf (d : Dev) (f : FieldRef) (i : Nat) (b : Bool) : Dev := d.set f (setBit (d.get f) i b)

/-- Every register of an address range takes its Reset value (R13). -/
def Dev.resetRegs (d : Dev) (lo hi : Nat) : Dev :=
  { d with regs := d.regs.filter (fun p => decide (p.1 < lo) || decide (hi ≤ p.1)) }

/-! ### Tables and memories -/

/-- Key of entry `i` of memory `m` in copy `c`. -/
def tkey (m c i : Nat) : Nat := (m * 2 + c) * 2 ^ 24 + i

/-- An entry of a table or memory, as a little-endian number. -/
def Dev.tget (d : Dev) (m c i : Nat) : Nat := SMap.get d.tbl 0 (tkey m c i)

/-- An entry takes a value. -/
def Dev.tset (d : Dev) (m c i v : Nat) : Dev := { d with tbl := SMap.set d.tbl 0 (tkey m c i) v }

/-- Every entry of memory `m`, copy `c`, reads 0. -/
def Dev.tclear (d : Dev) (m c : Nat) : Dev :=
  { d with tbl := d.tbl.filter (fun p => p.1 / 2 ^ 24 != m * 2 + c) }

/-! ### Host memory -/

/-- A byte of host memory; a byte nothing has written reads 0 (log 1). Addresses wrap at 2⁶⁴. -/
def Dev.hostByte (d : Dev) (a : Nat) : Byte := SMap.get d.hostMem 0 (a % 2 ^ 64)

/-- `n` bytes of host memory from `a` on. -/
def Dev.hostRead (d : Dev) (a n : Nat) : List Byte := (List.range n).map (fun i => d.hostByte (a + i))

/-- One byte is written to host memory. -/
def Dev.hostPut (d : Dev) (a : Nat) (b : Byte) : Dev :=
  { d with hostMem := SMap.set d.hostMem 0 (a % 2 ^ 64) b }

/-- A byte string is written to host memory from `a` on. -/
def Dev.hostWrite (d : Dev) (a : Nat) : List Byte → Dev
  | [] => d
  | b :: bs => (d.hostPut a b).hostWrite (a + 1) bs

/-- Scattered bytes are stored in host memory, in order. -/
def Dev.hostStore (d : Dev) (l : List (Nat × Byte)) : Dev := l.foldl (fun d p => d.hostPut p.1 p.2) d

/-- Host memory holds its canonical form: addresses rise strictly and no listed byte is 0. -/
def Memory.wf (m : List Host.Cell) : Bool := SMap.wf (fun _ => 0) m

/-! ### Output and free values -/

/-- The port whose CAN, LIN or T1S driver on the power die puts something on its bus. -/
def Output.busPort : Output → Option Nat
  | .canFrame p _ _ | .canAck p | .canErrorFlag p _ => if p < 32 then some p else none
  | .linHeader p _ _ _ _ | .linResponse p _ => some p
  | .ethFrame p _ _ => if 12 ≤ p then some p else none
  | .busWake p => if 12 ≤ p ∧ (p < 32 ∨ 40 ≤ p) then some p else none
  | _ => none

/-- The driver of an integrated CAN transceiver is off in every mode but NORMAL and SIC (Table CAN-10); that of a LIN transceiver in
OFF and SLEEP (Table CAN-11). -/
def Dev.driverOff (d : Dev) (p : Nat) : Bool :=
  if 20 ≤ p ∧ p < 32 then !(d.get (F.PWR_XCVR_CAN_MODE_ACT (p - 20)) == 1 || d.get (F.PWR_XCVR_CAN_MODE_ACT (p - 20)) == 2)
  else if 40 ≤ p ∧ p < 48 then !(d.get (F.PWR_XCVR_LIN_MODE_ACT (p - 40)) == 1 || d.get (F.PWR_XCVR_LIN_MODE_ACT (p - 40)) == 2)
  else false

/-- The driver that would put `o` on its bus is held recessive, switched off after a dominant time-out (R518, R226), or off in its
transceiver's mode (R224). A wake pulse comes from the transceiver in whatever mode it is. -/
def Dev.muted (d : Dev) (o : Output) : Bool :=
  let wake := match o with
    | .busWake _ => true
    | _ => false
  (o.busPort.map (fun p => d.pwr.recessive || bit d.pwr.txdOff p || (!wake && d.driverOff p))).getD false

/-- Something leaves the device, unless its driver is silent. -/
def Dev.emit (d : Dev) (o : Output) : Dev := if d.muted o then d else { d with out := o :: d.out }

/-- A free value of `w` bits: nothing constrains it (log 3). -/
def Dev.freeNat (d : Dev) (w : Nat) : Nat := Config.freeValue d.free % 2 ^ w

/-- `n` free bytes (log 3). -/
def Dev.freeBytes (d : Dev) (n : Nat) : List Byte := (List.range n).map (fun i => Config.freeByte d.free i)

/-- A free value has been taken. -/
def Dev.tookFree (d : Dev) : Dev := { d with free := d.free + 1 }

/-! ### Power domains -/

/-- Power domain `n` is powered and its blocks accept work (R499). -/
def Dev.ready (d : Dev) (n : Nat) : Bool := bit (d.get F.SUPV_PD_STATUS_READY) (n - 1)

/-- MAC or controller domain of a port (Table OVW-3). -/
def portDomain (p : Nat) : Nat :=
  if p < 2 then 4 else if p < 4 then 5 else if p < 20 then 6 else 7

/-- Line-side domain of a port, 0 where it is external (Table OVW-3). -/
def lineDomain (p : Nat) : Nat :=
  if p < 12 then 0
  else if p < 16 then 10 else if p < 20 then 11
  else if p < 26 then 10 else if p < 32 then 11
  else if p < 40 then 0
  else if p < 44 then 10 else 11

/-- A port is in pipeline B (Table OVW-3, R23). -/
def pipeB (p : Nat) : Bool :=
  (decide (2 ≤ p) && decide (p < 4)) || (decide (8 ≤ p) && decide (p < 12)) || (decide (16 ≤ p) && decide (p < 20))
    || (decide (30 ≤ p) && decide (p < 40)) || decide (44 ≤ p)

/-- Both domains of a port, and its pipeline's, are ready, and tile B has its tables (R500): the port can send and receive. -/
def Dev.portUp (d : Dev) (p : Nat) : Bool :=
  d.ready (portDomain p) && (lineDomain p == 0 || d.ready (lineDomain p)) && (!pipeB p || (d.ready 3 && !d.pwr.tileBCopy))

/-! ### Time -/

/-- CORE cycles in a microsecond, a millisecond and a second (R28: 800 MHz). -/
def usCyc : Nat := 800
def msCyc : Nat := 800000
def sCyc : Nat := 800000000

/-- The model's clock. -/
def Dev.now (d : Dev) : Nat := d.time.now

/-- DTIME in ns (R268). -/
def Dev.dtime (d : Dev) : Nat := d.time.acc / 2 ^ 32 % 2 ^ 64

/-- The fraction of DTIME in 2⁻¹⁶ ns (R268). -/
def Dev.dtimeFrac (d : Dev) : Nat := d.time.acc / 2 ^ 16 % 2 ^ 16

/-- What a slew adds to the increment of one CORE cycle, in 2⁻³² ns (R272). -/
def Dev.slewStep (d : Dev) : Nat := d.get F.TIME_SLEW_CTRL_MAX_PPM * d.get F.TIME_INCR_INCR / 1000000

/-- The AON counter at the present instant (32.768 kHz, R28); held while its clock is lost (R511). -/
def Dev.aonTicks (d : Dev) : Nat := (d.time.aonHeld.getD d.time.now - d.time.aonLost) * 32768 / sCyc % 2 ^ 32

/-- The next tick edge of the AON counter on the model's clock. -/
def Dev.aonEdge (d : Dev) : Nat :=
  let t := (d.now - d.time.aonLost) * 32768 / sCyc + 1
  d.time.aonLost + (t * sCyc + 32767) / 32768

/-- The counter and DTIME are captured at the tick edge (R279). -/
def Dev.snapTake (d : Dev) : Dev :=
  { d with time := { d.time with snapGo := false, snapAt := none, snapTicks := d.aonTicks, snapDtime := d.dtime } }

/-- `n` CORE cycles pass: DTIME takes `n` increments and, during a slew, the slew's part (R269, R272). -/
def Dev.elapse (d : Dev) (n : Nat) : Dev :=
  let part := min d.time.slew.natAbs (n * d.slewStep)
  let add : Int := if d.time.slew < 0 then -(part : Int) else part
  let slew := d.time.slew - add
  let acc : Int := (d.time.acc : Int) + (n * d.get F.TIME_INCR_INCR : Nat) + add
  let on := d.ready 2
  let d1 := { d with time := { d.time with
    now := d.time.now + n
    acc := if on then (acc % (2 ^ 96 : Nat)).toNat else d.time.acc
    slew := if on then slew else d.time.slew } }
  if on && slew == 0 then d1.set F.TIME_SLEW_CTRL_BUSY 0 else d1

/-- `n` CORE cycles pass; a tick edge that an AON snapshot waits for is met on the way (R279). -/
def Dev.advance (d : Dev) (n : Nat) : Dev :=
  match d.time.snapAt with
  | none => d.elapse n
  | some t =>
    if d.now < t ∧ t ≤ d.now + n then ((d.elapse (t - d.now)).snapTake).elapse (d.now + n - t) else d.elapse n

/-- The clock is brought up to instant `t` when it is earlier (log 5). -/
def Dev.reach (d : Dev) (t : Nat) : Dev := d.advance (t - d.time.now)

/-- CORE cycles until the accumulator has grown by `x` (in 2⁻³² ns), the slew in progress included. -/
def Dev.cyclesFor (d : Dev) (x : Nat) : Nat :=
  let i := d.get F.TIME_INCR_INCR
  let e := d.slewStep
  let m := d.time.slew.natAbs
  if m == 0 || e == 0 then (x + i - 1) / i
  else
    let rate := if d.time.slew < 0 then i - e else i + e
    let k := m / e
    if x ≤ k * rate then (x + rate - 1) / rate
    else
      let y : Int := (x : Int) - (k * i : Nat) - d.time.slew
      k + (y.toNat + i - 1) / i

/-- The clock is brought up to the first cycle at which DTIME is at or past `t` ns (log 5). -/
def Dev.reachDtime (d : Dev) (t : Nat) : Dev :=
  if t ≤ d.dtime then d else d.advance (d.cyclesFor (t * 2 ^ 32 - d.time.acc % 2 ^ 96))

/-- The timestamp of a wake: invalid while the 32.768 kHz clock is lost (R511). -/
def Dev.wakeTicks (d : Dev) : Nat := if d.time.aonHeld.isSome then 2 ^ 32 - 1 else d.aonTicks

/-! ### A step's answer -/

/-- The next state with the device changed and the queue as it was. -/
def State.to (s : State) (d : Dev) : Host.Outcome State Fault Refusal := .next { s with dev := d }

end Sys2Proof.Machine
end

