-- ==== Sys2Proof/Machine/HostOps.lean ====
section
/-!
DEFINITION. The shared operations of the host interface (chapter 14): ring slots and index words, MSI-X and
moderation, event entries, receive entries, TX completions, and status words of long operations.
-/
namespace Sys2Proof.Machine

/-! ### Error codes (Table HIF-9) -/

def errOk : Nat := 0x00
def errAborted : Nat := 0x01
def errLength : Nat := 0x02
def errAuth : Nat := 0x03
def errKey : Nat := 0x04
def errRefused : Nat := 0x05
def errNores : Nat := 0x06
def errTimeout : Nat := 0x07
def errLate : Nat := 0x08
def errPoison : Nat := 0x09
def errLocked : Nat := 0x0A
def errFormat : Nat := 0x0B
def errCounter : Nat := 0x0C
def errDomainOff : Nat := 0x0D
def errBusy : Nat := 0x0E
def errInternal : Nat := 0x0F
def errSignature : Nat := 0x10
def errVersion : Nat := 0x11
def errPartner : Nat := 0x12
def errAbortLate : Nat := 0x13

/-! ### Block indices (Table FLT-8) -/

def blkGlobal : Nat := 0
def blkHost : Nat := 1
def blkFwd : Nat := 2
def blkTbl : Nat := 3
def blkAnvil : Nat := 4
def blkSte : Nat := 5
def blkCan (c : Nat) : Nat := 6 + c
def blkTs : Nat := 26
def blkLin (n : Nat) : Nat := 27 + n
def blkEth (p : Nat) : Nat := 35 + p
def blkEthCommon : Nat := 55
def blkTime : Nat := 56
def blkXpt : Nat := 57
def blkCry : Nat := 58
def blkVault : Nat := 59
def blkNm : Nat := 60
def blkPwr : Nat := 61
def blkLoad : Nat := 62
def blkSupv : Nat := 63
def blkTest : Nat := 64
def blkBoot : Nat := 65

/-- A block is isolated (R464). -/
def Dev.isolated (d : Dev) (b : Nat) : Bool := d.flag (F.FLT_FAULT_STATUS_ISOLATED b)

/-! ### Messages and rings -/

/-- One MSI-X message on a vector; a masked vector sets its PBA bit instead (R428). -/
def Dev.msix (d : Dev) (v : Nat) : Dev :=
  if bit d.host.msixMask v then { d with host := { d.host with msixPba := setBit d.host.msixPba v true } }
  else
    ({ d with host := { d.host with
        msixSent := SMap.set d.host.msixSent 0 v (SMap.get d.host.msixSent 0 v + 1) } }).emit (.msix v)

/-- Slots of a ring (R410). -/
def Dev.ringSize (d : Dev) (r : Nat) : Nat := 2 ^ d.get (F.HIF_RING_CFG_SIZE_LOG2 r)

/-- Address of the slot of index `i` (R410). -/
def Dev.slotAddr (d : Dev) (r i : Nat) : Nat := d.get (F.HIF_RING_BASE_BASE r) + 32 * (i % d.ringSize r)

/-- The device index and the doorbell index of a ring (R409). -/
def Dev.devIdx (d : Dev) (r : Nat) : Nat := d.get (F.HIF_DEV_INDEX_INDEX r)
def Dev.dbIdx (d : Dev) (r : Nat) : Nat := d.get (F.HIF_DB_INDEX_INDEX r)

/-- Indices are counts modulo 2³² (R410). -/
def idxSub (a b : Nat) : Nat := (a + 2 ^ 32 - b % 2 ^ 32) % 2 ^ 32

/-- A ring fetches and writes: HOSTIF is powered and not isolated, the ring is enabled and not halted. -/
def Dev.ringUp (d : Dev) (r : Nat) : Bool :=
  d.ready 1 && !d.isolated blkHost && d.flag (F.HIF_RING_CFG_EN r) && !d.flag (F.HIF_RING_STATUS_HALTED r)

/-- What a ring holds beside its registers. -/
def Dev.ring (d : Dev) (r : Nat) : RingSt := SMap.get d.host.rings RingSt.init r

def Dev.setRing (d : Dev) (r : Nat) (x : RingSt) : Dev :=
  { d with host := { d.host with rings := SMap.set d.host.rings RingSt.init r x } }

/-- The device index goes up by `n` and the index word follows (R411). -/
def Dev.ringAdvance (d : Dev) (r n : Nat) : Dev :=
  let i := (d.devIdx r + n) % 2 ^ 32
  (d.set (F.HIF_DEV_INDEX_INDEX r) i).hostWrite (d.get (F.HIF_RING_IDX_ADDR_ADDR r)) (leBytes 4 i)

/-- The message of a ring that has completions to signal (R428). -/
def Dev.ringMsg (d : Dev) (r : Nat) : Dev :=
  (d.setRing r { d.ring r with unsig := 0, firstUnsig := none }).msix (d.get (F.HIF_RING_CFG_VECTOR r))

/-- A completion on a ring, and its message when one is due (R428). -/
def Dev.complete (d : Dev) (r : Nat) (irq : Bool) : Dev :=
  let x := d.ring r
  let d1 := d.setRing r { x with
    unsig := x.unsig + 1, firstUnsig := some (x.firstUnsig.getD d.now) }
  if d.flag (F.HIF_RING_CFG_IRQ_EN r)
      && (irq || decide (atLeastOne (d.get (F.HIF_RING_MOD_MOD_COUNT r)) ≤ x.unsig + 1)) then d1.ringMsg r
  else d1

/-- Free entries of an event ring, whose doorbell index follows the device index (R412, R413). -/
def Dev.eventRoom (d : Dev) (r : Nat) : Nat := d.ringSize r - idxSub (d.devIdx r) (d.dbIdx r)

/-- An entry of an event ring can be written now. -/
def Dev.eventOk (d : Dev) (r n : Nat) : Bool := d.ringUp r && decide (n ≤ d.eventRoom r)

/-- One 32 B entry of an event ring: data, index word, then the message (R411, R428). The caller has seen room. -/
def Dev.eventPut (d : Dev) (r : Nat) (entry : List Byte) : Dev :=
  ((d.hostWrite (d.slotAddr r (d.devIdx r)) (slice entry 0 32)).ringAdvance r 1).complete r false

/-! ### Status words (Table HIF-8) -/

/-- The code of an operation state. -/
def OpState.code : OpState → Nat
  | .queued => 0 | .running => 1 | .done => 2 | .aborted => 3 | .failed => 4

/-- The opcodes of each command ring (R39, R136, R322, R348, R491). -/
def opKnown (ring opcode : Nat) : Bool :=
  if ring == 56 then decide (1 ≤ opcode) && decide (opcode ≤ 7)
  else if ring == 57 then decide (1 ≤ opcode) && decide (opcode ≤ 5)
  else if ring == 58 then decide (1 ≤ opcode) && decide (opcode ≤ 6)
  else if ring == 59 then [0x20, 0x21, 0x22, 0x40, 0x50, 0x51, 0x52, 0x53].contains opcode
  else false

/-- TYPE of a status word: the ring's high byte over the opcode; 0x00FF for ABORT, 0 for an unknown opcode. -/
def Op.type (o : Op) : Nat :=
  if o.opcode == 0xFF then 0xFF
  else if opKnown o.ring o.opcode then (o.ring - 55) * 256 + o.opcode
  else 0

/-- The 16 bytes of a status word. -/
def Op.word (o : Op) (err : Nat) : List Byte :=
  leBytes 1 o.state.code ++ leBytes 1 err ++ leBytes 2 o.type ++ leBytes 4 o.seq
    ++ leBytes 4 o.progress ++ leBytes 4 o.partialCnt

/-- The status word of an operation is written (R425). -/
def Dev.putStatus (d : Dev) (o : Op) (err : Nat) : Dev := d.hostWrite o.status (o.word err)

/-- Whether two operations are the same: one ring and index. -/
def Op.same (o p : Op) : Bool := o.ring == p.ring && o.idx == p.idx

/-- The operation held under the ring and index of `o` takes the value `o`. -/
def Dev.setOp (d : Dev) (o : Op) : Dev :=
  { d with host := { d.host with ops := d.host.ops.map (fun p => if p.same o then o else p) } }

/-- An operation is no longer queued or running. -/
def Dev.dropOp (d : Dev) (o : Op) : Dev :=
  { d with host := { d.host with ops := d.host.ops.filter (fun p => !p.same o) } }

/-- The final status word of an operation, its completion and message (R425, R428); then the ABORTs that waited for it end
(R427). -/
def Dev.finish (d : Dev) (o : Op) (st : OpState) (err : Nat) : Dev :=
  let d1 := ((d.putStatus { o with state := st } err).dropOp o).complete o.ring o.irq
  let mine (a : Op) : Bool := a.state == .running && a.tgtRing == o.ring && a.tgtIdx == o.idx
  (d1.host.aborts.filter mine).foldl
    (fun d a =>
      if st = .aborted then (d.putStatus { a with state := .done } errOk).complete a.ring a.irq
      else (d.putStatus { a with state := .failed } errAbortLate).complete a.ring a.irq)
    { d1 with host := { d1.host with aborts := d1.host.aborts.filter (fun a => !mine a) } }

/-- DONE with OK. -/
def Dev.opDone (d : Dev) (o : Op) : Dev := d.finish o .done errOk

/-- FAILED with an error code. -/
def Dev.opFail (d : Dev) (o : Op) (err : Nat) : Dev := d.finish o .failed err

/-- The running operation of a ring with one of the given opcodes. -/
def Dev.running (d : Dev) (ring : Nat) (opcodes : List Nat) : Option Op :=
  d.host.ops.find? (fun o => o.ring == ring && o.state == .running && opcodes.contains o.opcode)

/-- The first queued operation of a ring with one of the given opcodes. -/
def Dev.nextQueued (d : Dev) (ring : Nat) (opcodes : List Nat) : Option Op :=
  d.host.ops.find? (fun o => o.ring == ring && o.state == .queued && opcodes.contains o.opcode)

/-- Operations of a ring, with one of the given opcodes, queued or running. -/
def Dev.opCount (d : Dev) (ring : Nat) (opcodes : List Nat) : Nat :=
  (d.host.ops.filter (fun o => o.ring == ring && opcodes.contains o.opcode)).length

/-- A queued operation starts running (R425). -/
def Dev.startOp (d : Dev) (o : Op) : Dev :=
  let o1 := { o with state := .running, told := (o.progress, o.partialCnt, d.now) }
  (d.setOp o1).putStatus o1 errOk

/-! ### TX completions (Table HIF-4) -/

/-- The completion of a TX frame over its descriptor's slot (R418). -/
def Dev.txComplete (d : Dev) (t : TxPend) (status : Nat) : Dev :=
  let e := leBytes 1 status ++ leBytes 1 (b2n t.report) ++ leBytes 2 (if t.report then t.sent else 0)
    ++ leBytes 2 t.dropped ++ leBytes 2 0 ++ leBytes 8 d.dtime ++ leBytes 15 0 ++ leBytes 1 0x80
  let d1 := d.hostWrite (d.slotAddr t.ring t.idx) e
  ({ d1 with host := { d1.host with
      txPend := d1.host.txPend.filter (fun p => !(p.ring == t.ring && p.idx == t.idx)) } }).complete t.ring t.irq

/-- The TX frame of a ring and index that has not been completed. -/
def Dev.txFind (d : Dev) (ring idx : Nat) : Option TxPend :=
  d.host.txPend.find? (fun p => p.ring == ring && p.idx == idx)

/-- The record of a TX frame takes a value. -/
def Dev.txSet (d : Dev) (t : TxPend) : Dev :=
  { d with host := { d.host with
      txPend := d.host.txPend.map (fun p => if p.ring == t.ring && p.idx == t.idx then t else p) } }

/-- One copy of a host frame ends, sent or dropped with a code; the last one completes the frame under REPORT = 1
(R418). -/
def Dev.txCopyEnd (d : Dev) (tag : Option (Nat × Nat)) (drop : Option Nat) : Dev :=
  match tag with
  | none => d
  | some (r, i) =>
    match d.txFind r i with
    | none => d
    | some t =>
      let t1 : TxPend := match drop with
        | none => { t with left := t.left - 1, sent := t.sent + 1 }
        | some c => { t with left := t.left - 1, dropped := t.dropped + 1, code := if t.dropped == 0 then c else t.code }
      if t1.left == 0 then (d.txSet t1).txComplete t1 (if t1.aborted then errAborted else t1.code) else d.txSet t1

/-- A copy of a host frame has started and is dropped: an abort comes too late from then on (Table HIF-10). -/
def Dev.txBegun (d : Dev) (tag : Option (Nat × Nat)) : Dev :=
  match tag with
  | none => d
  | some (r, i) =>
    match d.txFind r i with
    | none => d
    | some t => d.txSet { t with begun := true }

/-- A completion code that the manual leaves open: one of Table HIF-9 other than OK (R429, log 3). -/
def Dev.freeErr (d : Dev) : Nat := 1 + d.freeNat 8 % 19

/-! ### RX entries (Tables HIF-5 and HIF-6) -/

/-- BUF_LEN of the posted buffer of an RX index. -/
def Dev.rxBufLen (d : Dev) (r i : Nat) : Nat := leNat (d.hostRead (d.slotAddr r i + 8) 4)

/-- A posted buffer that can hold data (R420). -/
def rxUsable (n : Nat) : Bool := decide (64 ≤ n) && decide (n ≤ 65536)

/-- The buffers an entry of `len` bytes takes from index `i` on, `n` being posted: index, BUF_LEN and the bytes put
into it; unusable buffers stand with 0 bytes. None when they are not enough (R421). -/
def Dev.rxPlan (d : Dev) (r : Nat) : Nat → Nat → Nat → Option (List (Nat × Nat × Nat))
  | 0, _, _ => none
  | n + 1, i, len =>
    let b := d.rxBufLen r i
    if rxUsable b then
      if len ≤ b then some [(i, b, len)]
      else (d.rxPlan r n ((i + 1) % 2 ^ 32) (len - b)).map (fun l => (i, b, b) :: l)
    else (d.rxPlan r n ((i + 1) % 2 ^ 32) len).map (fun l => (i, b, 0) :: l)

/-- The completion of one RX buffer (Table HIF-6). -/
def rxCompletion (len kind port : Nat) (sop eop ovs filt : Bool) (time total : Nat) : List Byte :=
  leBytes 2 len ++ leBytes 1 kind ++ leBytes 1 port
    ++ leBytes 1 (b2n sop + 2 * b2n eop + 4 * b2n ovs + 8 * b2n filt) ++ leBytes 1 (len / 65536) ++ leBytes 2 0
    ++ leBytes 8 (if sop then time else 0) ++ leBytes 4 (if sop then total else 0) ++ leBytes 11 0 ++ leBytes 1 0x80

/-- A receive entry: what RX completions say of it beside its data. -/
structure RxMeta where
  kind : Nat
  port : Nat
  ovs : Bool
  filt : Bool
  time : Nat
  deriving DecidableEq, Repr

/-- Data of an entry into its buffers. -/
def Dev.rxData (d : Dev) (r : Nat) : List (Nat × Nat × Nat) → List Byte → Dev
  | [], _ => d
  | (i, _, n) :: l, bs =>
    (d.hostWrite (leNat (d.hostRead (d.slotAddr r i) 8)) (bs.take n)).rxData r l (bs.drop n)

/-- The completion of an unusable buffer (R420). Its PORT and TIME, for which there is no frame, are free (DESIGN CHOICE, log 88). -/
def Dev.rxUnusable (d : Dev) : List Byte := rxCompletion 0 0xFF (d.freeNat 8) true true false false (d.freeNat 64) 0

/-- Unusable buffers among the next `n` posted are completed as far as they come first (R420). -/
def Dev.rxSkip (d : Dev) (r : Nat) : Nat → Dev
  | 0 => d
  | n + 1 =>
    if rxUsable (d.rxBufLen r (d.devIdx r)) then d
    else
      ((((d.hostWrite (d.slotAddr r (d.devIdx r)) d.rxUnusable).tookFree).ringAdvance r 1).complete r false).rxSkip r n

/-- The unusable buffers that come next on an RX ring are completed. -/
def Dev.rxClean (d : Dev) (r : Nat) : Dev := d.rxSkip r (idxSub (d.dbIdx r) (d.devIdx r))

/-- An entry is written into the posted buffers of an RX ring, or dropped whole (R421): data first, then the
completions after the first, the SOP completion last. -/
def Dev.rxWrite (dd : Dev) (r : Nat) (m : RxMeta) (data : List Byte) : Dev × Bool :=
  if !(decide (32 ≤ r) && decide (r ≤ 55)) then (dd, false)
  else
    let d := if dd.ringUp r then dd.rxClean r else dd
    let drop := (d.inc (F.HIF_RX_DROP_COUNT r), false)
    if !d.ringUp r then drop
    else
      match d.rxPlan r (idxSub (d.dbIdx r) (d.devIdx r)) (d.devIdx r) data.length with
      | none => drop
      | some plan =>
        let used := plan.filter (fun p => rxUsable p.2.1)
        let first := (used.head?.map (fun p => p.1)).getD 0
        let last := (used.getLast?.map (fun p => p.1)).getD 0
        let comp (p : Nat × Nat × Nat) : List Byte :=
          if rxUsable p.2.1 then
            rxCompletion p.2.2 m.kind m.port (p.1 == first) (p.1 == last) m.ovs m.filt m.time data.length
          else d.rxUnusable
        let d1 := (if used.length == plan.length then d else d.tookFree).rxData r plan data
        let d2 := (plan.filter (fun p => p.1 != first)).foldl (fun d p => d.hostWrite (d.slotAddr r p.1) (comp p)) d1
        let d3 := (plan.filter (fun p => p.1 == first)).foldl (fun d p => d.hostWrite (d.slotAddr r p.1) (comp p)) d2
        (((d3.ringAdvance r plan.length).complete r false).rxClean r, true)

end Sys2Proof.Machine
end

