-- ==== Sys2Proof/Machine/FaultOps.lean ====
section
/-!
DEFINITION. The common fault page (chapter 16): status bits and their interrupt, first-error capture, ring-61
events, the counting window, severe occurrences and their reactions, and FAULT_N.
-/
namespace Sys2Proof.Machine

/-! ### Interrupt (R458) -/

/-- A block's fault interrupt is active: some FAULT_STATUS bit is set together with its enable. -/
def Dev.fltActive (d : Dev) (b : Nat) : Bool :=
  d.reg (R.FLT_FAULT_STATUS b) &&& d.reg (R.FLT_FAULT_IE b) != 0

/-- The message on `FAULT_VEC` and the block's line to MGMT. -/
def Dev.fltIrq (d : Dev) (b : Nat) : Dev :=
  (d.msix (d.get F.HIF_MISC_CFG_FAULT_VEC)).emit (.mgmtIrq b)

/-- After a change of a block's status or enables: the message when the interrupt has become active. -/
def Dev.fltEdge (d0 d : Dev) (b : Nat) : Dev :=
  if d.fltActive b && !d0.fltActive b then d.fltIrq b else d

/-- A bit of a block's FAULT_STATUS is set. -/
def Dev.fltSet (d : Dev) (b i : Nat) : Dev :=
  Dev.fltEdge d (d.setReg (R.FLT_FAULT_STATUS b) (setBit (d.reg (R.FLT_FAULT_STATUS b)) i true)) b

/-! ### Ring-61 events (R468, R469) -/

/-- PTIME in ns (R404), kept by the power die in steps of 1 µs: its own clock plus the correction it holds. -/
def Dev.ptime (d : Dev) : Nat :=
  ((d.load.ptimeOfs + ((d.time.now * 5 / 4 : Nat) : Int)) % (2 ^ 64 : Nat)).toNat / 1000 * 1000

/-- The time base of a block: PTIME for power-die blocks, else DTIME (R457). -/
def Dev.blockTime (d : Dev) (b : Nat) : Nat :=
  if b == blkPwr || b == blkLoad || b == blkSupv then d.ptime else d.dtime

/-- A 32 B fault event (Table FLT-5). -/
def fltEntry (type b i access react time : Nat) (detail : List Byte) : List Byte :=
  leBytes 1 type ++ leBytes 1 b ++ leBytes 1 i ++ leBytes 1 access ++ leBytes 1 react ++ leBytes 3 0
    ++ leBytes 8 time ++ slice detail 0 16

/-- A fault event is written on ring 61, or lost and counted (R469). -/
def Dev.event61 (d : Dev) (type b i access react : Nat) (detail : List Byte) : Dev :=
  if d.eventOk 61 1 then d.eventPut 61 (fltEntry type b i access react (d.blockTime b) detail)
  else (d.inc F.TEST_EV61_LOST_COUNT).fltSet blkTest 0

/-! ### First-error capture (R459) -/

/-- The access that an error met (Table FLT-2). -/
structure Access where
  master : Nat
  kind : Nat
  addr : Nat
  domOff : Bool
  seq : Nat
  deriving DecidableEq, Repr

def accRead : Nat := 0
def accWrite : Nat := 1
def accPosted : Nat := 2
def accDmaRead : Nat := 4
def accFetch : Nat := 6
def accNone : Nat := 7

/-- An error with no bus access (R459). -/
def noAccess (addr : Nat) : Access := ⟨0, accNone, addr, false, 0⟩

/-- The access of an error in a table or memory entry met inside the device: MASTER 7 where `PERT_INJ` made it (R471). -/
def Dev.entAccess (d : Dev) (key addr : Nat) : Access :=
  ⟨if d.tables.pert.contains key then 7 else 0, accNone, addr, false, 0⟩

/-- A first-error capture: taken while VALID is 0, with its CAPTURE event; otherwise counted in FEC_LOST. -/
def Dev.capture (d : Dev) (b i : Nat) (a : Access) : Dev × Bool :=
  if d.flag (F.FLT_FEC_INFO_VALID b) then (d.inc (F.FLT_FEC_LOST_COUNT b), false)
  else
    let info := 1 + 2 * (a.master % 8) + 16 * (a.kind % 8) + 128 * b2n a.domOff + 256 * (i % 32) + 65536 * (a.seq % 65536)
    let d1 := ((d.setReg (R.FLT_FEC_INFO b) info).setReg (R.FLT_FEC_ADDR b) (a.addr % 2 ^ 32)).set
      (F.FLT_FEC_TIME_TIME b) (d.blockTime b)
    (d1.event61 0x01 b i (a.master % 8 + 8 * (a.kind % 8) + 64 * b2n a.domOff) 0
      (leBytes 4 a.addr ++ leBytes 2 a.seq), true)

/-! ### Windows and severe occurrences (R461, R463) -/

/-- WINDOW_MS as taken: from 1 to 60,000 (Table FLT-1). -/
def Dev.winMs (d : Dev) (b : Nat) : Nat := min 60000 (atLeastOne (d.get (F.FLT_WIN_CFG_WINDOW_MS b)))

/-- The threshold N as taken. -/
def Dev.winN (d : Dev) (b : Nat) : Nat := atLeastOne (d.get (F.FLT_WIN_CFG_N b))

/-- The events now in a block's window. -/
def Dev.win (d : Dev) (b : Nat) : List Nat := SMap.get d.flt.wins [] b

/-- The events of a block's window are replaced; IN_WINDOW shows their number. -/
def Dev.setWin (d : Dev) (b : Nat) (l : List Nat) : Dev :=
  ({ d with flt := { d.flt with wins := SMap.set d.flt.wins [] b l } }).set (F.FLT_EVT_COUNT_IN_WINDOW b) l.length

/-- Blocks that cannot be isolated (Table FLT-4). -/
def notIsolable (b : Nat) : Bool :=
  [blkGlobal, blkFwd, blkTbl, blkAnvil, blkTime, blkEthCommon, blkPwr, blkSupv, blkTest, blkBoot].contains b

/-- A block is isolated (R464): its ISOLATED bit, its event, and for ports, CAN controllers and load channels the active part of the
effect. The other blocks read as disabled while ISOLATED is 1. -/
def Dev.isolate (d : Dev) (b : Nat) : Dev :=
  if d.isolated b || notIsolable b then d
  else
    let d1 := (d.fltSet b 29).event61 0x0A b 29 (accNone * 8) 0 []
    if 35 ≤ b ∧ b < 55 then { d1 with flt := { d1.flt with todo := d1.flt.todo ++ [.ethDown (b - 35)] } }
    else if 6 ≤ b ∧ b < 26 then { d1 with flt := { d1.flt with todo := d1.flt.todo ++ [.canStop (b - 6)] } }
    else if b = blkLoad then { d1 with flt := { d1.flt with todo := d1.flt.todo ++ [.loadSafe] } }
    else if b = blkHost then
      (List.range 64).foldl (fun d r => d.set (F.HIF_RING_STATUS_HALTED r) 1) d1
    else d1

/-- Block `b` holds FAULT_N, or lets it go (R466). -/
def Dev.fnHold (d : Dev) (b : Nat) (on : Bool) : Dev :=
  d.setBitOf (F.TEST_FN_HOLD_BLOCKS (b / 32)) (b % 32) on

/-- A severe occurrence of a block, in the order of R463. -/
def Dev.severe (d : Dev) (b i : Nat) : Dev :=
  let re := d.get (F.FLT_REACT_REACT b)
  let d1 := (((d.fltSet b 30).inc (F.FLT_SEV_COUNT_COUNT b)).inc F.TEST_SEV_TOTAL_COUNT).setWin b []
  let d2 := if bit re 2 then d1.fnHold b true else d1
  let d3 := if bit re 1 then d2.isolate b else d2
  let d4 := if bit re 3 then { d3 with flt := { d3.flt with todo := d3.flt.todo ++ [.loadSafe] } } else d3
  let d5 := d4.event61 0x02 b i (accNone * 8) re (leBytes 2 (d.winN b) ++ leBytes 2 (d.winMs b))
  let d6 := if bit re 0 then d5.fltIrq b else d5
  if bit re 4 then { d6 with flt := { d6.flt with warm := some (min b (d6.flt.warm.getD b)) } } else d6

/-- An event of a block is counted in its window; the N-th makes a severe occurrence (R461). -/
def Dev.countEvent (d : Dev) (b i : Nat) : Dev :=
  let d1 := d.inc (F.FLT_EVT_TOTAL_COUNT b)
  let l := (d1.win b).filter (fun t => decide (d1.now < t + msCyc)) ++ [d1.now + d1.winMs b * msCyc]
  let d2 := d1.setWin b l
  if d2.winN b ≤ l.length then d2.severe b i else d2

/-- One happening: its status bit and one count in the window (R461). -/
def Dev.fault (d : Dev) (b i : Nat) : Dev := (d.fltSet b i).countEvent b i

/-- One happening with a capture: its status bit, the capture, and one count in the window when the owning chapter
counts it or the capture is taken (R461). -/
def Dev.faultCapture (d : Dev) (b i : Nat) (a : Access) (counts : Bool) : Dev :=
  let (d1, taken) := (d.fltSet b i).capture b i a
  if counts || taken then d1.countEvent b i else d1

/-- An address lies in the PWR window (Table REG-1). -/
def inPwr (a : Nat) : Bool := decide (0x1000000 ≤ a) && decide (a < 0x1100000)

/-- The access of a write: one to the PWR window is posted and carries its sequence number (R453). -/
def Dev.writeAccess (d : Dev) (master addr : Nat) (domOff : Bool) : Access :=
  if inPwr addr then ⟨master, accPosted, addr, domOff, d.get F.PWR_BRIDGE_STATUS_LAST_SEQ⟩ else ⟨master, accWrite, addr, domOff, 0⟩

/-- A flagged write to a protected field: LOCKED_WRITE, a capture, one count (R451, R461). -/
def Dev.flaggedWrite (d : Dev) (b master addr : Nat) : Dev := d.faultCapture b 31 (d.writeAccess master addr false) true

/-- The oldest event leaves a block's window (R461). -/
def Dev.winExpire (d : Dev) (b : Nat) : Dev :=
  match d.win b with
  | [] => d
  | t :: l => (d.reach t).setWin b l

/-- FAULT_N is active (R466): some block holds it, READY has not been written since the logic die's reset, the device
is in STANDBY, or FORCE is 1. -/
def Dev.faultN (d : Dev) : Bool :=
  (List.range 3).any (fun k => d.get (F.TEST_FN_HOLD_BLOCKS k) != 0)
    || !d.flag F.TEST_FAULTN_CTRL_READY || d.get F.NM_PWR_STATUS_STATE == 2 || d.flag F.TEST_FAULTN_CTRL_FORCE

/-! ### Perturbed CAN frames (R471) -/

/-- Where `flt.inject` counts the frames that PERT_CANBIT of a block still affects. -/
def canPertKey (b : Nat) : Nat := 100 + b

/-- A frame that PERT_CANBIT of controller `c` affects passes: an own frame (0) or a received one (1). EN is cleared after FRAMES
of them; what the inverted bit does comes as the controller's error. -/
def Dev.canPert (d : Dev) (c dir : Nat) : Dev :=
  let b := 6 + c
  if d.flag (F.FLT_PERT_CANBIT_EN b) && d.get (F.FLT_PERT_CANBIT_DIR b) == dir then
    let n := SMap.get d.flt.inject 0 (canPertKey b) - 1
    let d1 : Dev := { d with flt := { d.flt with inject := SMap.set d.flt.inject 0 (canPertKey b) n } }
    if n == 0 then d1.set (F.FLT_PERT_CANBIT_EN b) 0 else d1
  else d

/-! ### Orders, and the event queue of the STE (R184, R185) -/

/-- A fresh place in the order of frames, commands and events (R185). -/
def Dev.takeOrder (d : Dev) : Dev × Nat := ({ d with fwd := { d.fwd with seq := d.fwd.seq + 1 } }, d.fwd.seq)

/-- The STE runs (R189, Table FLT-4). -/
def Dev.steRuns (d : Dev) : Bool := d.flag F.STE_CTRL_EN && d.ready 7 && !d.isolated blkSte

/-- A port or load channel is enabled for event frames (Table SIG-17). -/
def Dev.evfOn (d : Dev) (source : Nat) : Bool :=
  if 64 ≤ source then bit (d.get F.STE_EVF_LOADS_LOADS) (source - 64)
  else if 44 ≤ source then bit (d.get F.STE_EVF_PORTS_HI_PORTS) (source - 44)
  else decide (12 ≤ source) && bit (d.get F.STE_EVF_PORTS_LO_PORTS) (source - 12)

/-- An event PDU enters the event queue, or is lost where it is full (R184, R185). -/
def Dev.steEvent (d : Dev) (type source detail : Nat) : Dev :=
  if !d.steRuns || !d.flag F.STE_EVF_CFG_EN || !d.evfOn source then d
  else if 64 ≤ d.ste.events.length then (d.inc F.STE_EVF_LOST_COUNT).fltSet blkSte 1
  else
    let (d1, n) := d.takeOrder
    { d1 with ste := { d1.ste with events := d1.ste.events ++ [⟨type, source, detail, d1.dtime, n⟩] } }

/-! ### The die link (R26) -/

/-- `n` flits cross the die link: with `PERT_D2D.EN`, one in EVERY of them takes EXTRA link-level retries (R26, Table FLT-7,
log 82). -/
def Dev.flits (d : Dev) (n : Nat) : Dev :=
  if d.flag (F.FLT_PERT_D2D_EN blkPwr) then
    let every := atLeastOne (d.get (F.FLT_PERT_D2D_EVERY blkPwr))
    let x := d.load.flits + n
    ({ d with load := { d.load with flits := x % every } }).add F.PWR_D2D_RETRIES_COUNT
      (d.get (F.FLT_PERT_D2D_EXTRA blkPwr) * (x / every))
  else d

/-- A message of the power die for the logic die: one flit, once the link is trained (R26, log 82). -/
def Dev.dieMsg (d : Dev) : Dev := if d.flag F.PWR_D2D_STATUS_LINK_UP then d.flits 1 else d

end Sys2Proof.Machine
end

