-- ==== Sys2Proof/Machine/TblOps.lean ====
section
/-!
DEFINITION. The forwarding tables (chapter 4): entries and generations, lookup, learning, ring-60 events, and the
set functions of the hashed tables.
-/
namespace Sys2Proof.Machine

/-! ### The IEEE 802.3 FCS -/

/-- One bit of the reflected CRC-32. -/
def crcBit (c : Nat) : Nat := if c % 2 == 1 then (c / 2) ^^^ 0xEDB88320 else c / 2

/-- One byte of the CRC-32. -/
def crcByte (c b : Nat) : Nat :=
  crcBit (crcBit (crcBit (crcBit (crcBit (crcBit (crcBit (crcBit (c ^^^ b))))))))

/-- The IEEE 802.3 FCS of a byte string. -/
def crc32 (bs : List Byte) : Nat := bs.foldl (fun c b => crcByte c b.toNat) 0xFFFFFFFF ^^^ 0xFFFFFFFF

/-! ### Tables (Table TBL-1) -/

/-- Entries of a table. -/
def tblEntries (t : Nat) : Nat :=
  if t < 2 then 32768 else if t < 4 then 4096 else if t == 4 then 16384 else if t < 7 then 12288
  else if t == 7 then 65536 else if t == 8 then 4096 else if t == 9 then 256 else 0

/-- Bytes of an entry. -/
def tblSize (t : Nat) : Nat :=
  if t < 3 then 16 else if t < 5 then 32 else if t < 8 then 8 else if t == 8 then 64 else if t == 9 then 2048 else 0

/-- A table with a copy in each pipeline. -/
def tblBoth (t : Nat) : Bool := decide (2 ≤ t) && decide (t ≤ 6)

/-- Memory number of a table's generations: per entry for tables 0 to 4, per group of eight for 5 to 7. -/
def genMem (t : Nat) : Nat := 32 + t

/-- Where the generation of an entry is held. -/
def genIdx (t i : Nat) : Nat := if 5 ≤ t then i / 8 else i

/-- The generation of an entry or of its group. -/
def Dev.gen (d : Dev) (t c i : Nat) : Nat := d.tget (genMem t) c (genIdx t i)

/-- The generation counter of a table, of pipeline B for tables 5 and 6 (R131). -/
def genCounter (t c : Nat) : FieldRef :=
  if t == 5 && c == 1 then F.TBL_GEN_5B_GEN else if t == 6 && c == 1 then F.TBL_GEN_6B_GEN else F.TBL_GEN_GEN t

/-- A table's counter advances (R131). -/
def Dev.genBump (d : Dev) (t c : Nat) : Dev :=
  d.set (genCounter t c) ((d.get (genCounter t c) + 1) % 2 ^ 32)

/-- An entry's generation takes the low bits of its table's counter. -/
def Dev.genStamp (d : Dev) (t c i : Nat) : Dev :=
  d.tset (genMem t) c (genIdx t i) (d.get (genCounter t c) % 2 ^ 16)

/-- An entry of one copy is written: its errors are gone. -/
def Dev.entryPut (d : Dev) (t c i v : Nat) : Dev :=
  let d1 := d.tset t c i v
  { d1 with tables := { d1.tables with
      bad := d1.tables.bad.filter (fun k => k != tkey t c i)
      soft := d1.tables.soft.filter (fun k => k != tkey t c i)
      pert := d1.tables.pert.filter (fun k => k != tkey t c i) } }

/-- The GEN field of Tables TBL-3 and TBL-4 holds the entry's generation. -/
def withGen (t v g : Nat) : Nat := if t == 2 || t == 3 then setBf v 112 16 g else v

/-- A change of an entry in one copy: counter, entry, generation (R131). -/
def Dev.entryChange (d : Dev) (t c i v : Nat) : Dev :=
  let d1 := d.genBump t c
  (d1.entryPut t c i (withGen t v (d1.get (genCounter t c) % 2 ^ 16))).genStamp t c i

/-- A change of an entry by the host or Anvil: both copies of a replicated table, pipeline B's only while PD3 is on
(R131, R535). Tables 8 and 9 carry no generation per entry, yet their counters advance. -/
def Dev.entryWrite (d : Dev) (t i v : Nat) : Dev :=
  if t == 5 then
    let d1 := d.entryChange 5 0 i v
    if d1.ready 3 then d1.entryChange 5 1 i v else d1
  else if tblBoth t then
    let d1 := d.entryChange t 0 i v
    if d1.ready 3 then
      (d1.entryPut t 1 i (withGen t v (d1.get (genCounter t 0) % 2 ^ 16))).tset (genMem t) 1 i
        (d1.get (genCounter t 0) % 2 ^ 16)
    else d1
  else if t < 8 then d.entryChange t 0 i v
  else (d.genBump t 0).entryPut t 0 i v

/-! ### Reading with ECC (R130) -/

/-- An uncorrectable error met on a read: status, capture with table and index as address (log 16), one count. -/
def Dev.eccUe (d : Dev) (t c i : Nat) : Dev := d.faultCapture blkTbl 0 (d.entAccess (tkey t c i) (t * 2 ^ 24 + i)) true

/-- An entry as a lookup reads it: one in uncorrectable error is absent, and a correctable error is corrected. -/
def Dev.entryRead (d : Dev) (t c i : Nat) : Dev × Option Nat :=
  if d.tables.bad.contains (tkey t c i) then (d.eccUe t c i, none)
  else if d.tables.soft.contains (tkey t c i) then
    (({ d with tables := { d.tables with soft := d.tables.soft.filter (fun k => k != tkey t c i) } }).inc
      F.TBL_ECC_CE_COUNT, some (d.tget t c i))
  else (d, some (d.tget t c i))

/-- Entry `i` of a copy is read to be written elsewhere: what the read meets, and an uncorrectable error goes with it to copy `c'` of
table `t'` (DEDUCED, log 79). -/
def Dev.errorCopy (d : Dev) (t c t' c' i : Nat) : Dev :=
  match d.entryRead t c i with
  | (d1, some _) => d1
  | (d1, none) => { d1 with tables := { d1.tables with bad := d1.tables.bad.filter (fun k => k != tkey t' c' i) ++ [tkey t' c' i] } }

/-- The first of the listed entries that is valid and matches, read in order. -/
def Dev.entryFind (d : Dev) (t c : Nat) (hit : Nat → Bool) : List Nat → Dev × Option (Nat × Nat)
  | [] => (d, none)
  | i :: l =>
    match d.entryRead t c i with
    | (d1, some e) => if hit e then (d1, some (i, e)) else d1.entryFind t c hit l
    | (d1, none) => d1.entryFind t c hit l

/-! ### FDB (R132, R133) -/

/-- Set of a key: VID then the MAC in wire order (R132). -/
def fdbSet (mac vid : Nat) : Nat := crc32 (beBytes 2 (vid % 4096) ++ leBytes 6 mac) % 8192

/-- Fields of an FDB entry (Table TBL-2). -/
def fdbMac (e : Nat) : Nat := bf e 0 48
def fdbVid (e : Nat) : Nat := bf e 48 12
def fdbValid (e : Nat) : Bool := bit e 60
def fdbStatic (e : Nat) : Bool := bit e 61
def fdbHit (e : Nat) : Bool := bit e 62
def fdbStale (e : Nat) : Bool := bit e 63
def fdbGroup (e : Nat) : Bool := bit e 0
def fdbPort (e : Nat) : Nat := bf e 64 8
def fdbEgrL (e : Nat) : Bool := bit e 112
def fdbDiscard (e : Nat) : Bool := bit e 113

/-- An entry for a learned address. -/
def fdbLearned (mac vid port : Nat) (egress : Bool) : Nat :=
  mac % 2 ^ 48 + vid % 4096 * 2 ^ 48 + 2 ^ 60 + 2 ^ 62 + port % 256 * 2 ^ 64 + b2n egress * 2 ^ 112

/-- The four entries of a set. -/
def setWays (s : Nat) : List Nat := [4 * s, 4 * s + 1, 4 * s + 2, 4 * s + 3]

/-- The entry of a key in a pipeline's FDB. -/
def Dev.fdbFind (d : Dev) (pipe mac vid : Nat) : Dev × Option (Nat × Nat) :=
  d.entryFind pipe 0 (fun e => fdbValid e && fdbMac e == mac % 2 ^ 48 && fdbVid e == vid % 4096)
    (setWays (fdbSet mac vid))

/-- An FDB entry as it counts: one in uncorrectable error is absent (R130). -/
def Dev.fdbEnt (d : Dev) (pipe i : Nat) : Nat := if d.tables.bad.contains (tkey pipe 0 i) then 0 else d.tget pipe 0 i

/-- The lowest way of a set that holds no entry. -/
def Dev.fdbFree (d : Dev) (pipe set : Nat) : Option Nat := (setWays set).find? (fun i => !fdbValid (d.fdbEnt pipe i))

/-- An entry has been refreshed in this cycle (R145, R149). -/
def Dev.fdbFresh (d : Dev) (pipe i : Nat) : Dev :=
  { d with tables := { d.tables with
      fresh := (if d.tables.freshAt == d.now then d.tables.fresh else []) ++ [tkey pipe 0 i], freshAt := d.now } }

/-- A refresh meets a sweep's visit of the entry in one cycle: it wins (R149). -/
def Dev.refreshed (d : Dev) (pipe i : Nat) : Bool := d.tables.freshAt == d.now && d.tables.fresh.contains (tkey pipe 0 i)

/-- Learned entries of a port in a pipeline's FDB (`LEARN_COUNT_p`). -/
def Dev.learnedOn (d : Dev) (pipe port : Nat) : Nat :=
  (d.tbl.filter (fun p => p.1 / 2 ^ 24 == pipe * 2 && fdbValid p.2 && !fdbStatic p.2 && fdbPort p.2 == port)).length

/-! ### Ring 60 (R142, R147, R150) -/

/-- Ring 60 is enabled. -/
def Dev.ring60On (d : Dev) : Bool := d.flag (F.HIF_RING_CFG_EN 60)

/-- Learning, moving and aging are held: ring 60 is enabled with fewer than 8 entries that it can take now (R142, R147). -/
def Dev.learnHeld (d : Dev) : Bool := d.ring60On && !d.eventOk 60 8

/-- A ring-60 event (Table TBL-8). -/
def tblEntry (type pipe egr stat table reason index mac vid port old sgen gen time : Nat) : List Byte :=
  leBytes 1 type ++ leBytes 1 (pipe + 2 * egr + 4 * stat) ++ leBytes 1 table ++ leBytes 1 reason ++ leBytes 4 index
    ++ leBytes 6 mac ++ leBytes 2 vid ++ leBytes 1 port ++ leBytes 1 old ++ leBytes 2 sgen ++ leBytes 4 gen
    ++ leBytes 8 time

/-- An event of a change, written when ring 60 is enabled and has room. -/
def Dev.event60 (d : Dev) (e : List Byte) : Dev := if d.eventOk 60 1 then d.eventPut 60 e else d

/-- An event about an FDB entry as it now stands or stood. -/
def Dev.fdbEvent (d : Dev) (type reason pipe i e port old : Nat) : Dev :=
  d.event60 (tblEntry type pipe (b2n (fdbEgrL e)) (b2n (fdbStatic e)) pipe reason i (fdbMac e) (fdbVid e) port old 0
    (d.get (genCounter pipe 0)) d.dtime)

/-- PORT of an event: the entry's port, 0xFF for a group entry. -/
def fdbEvPort (e : Nat) : Nat := if fdbGroup e then 0xFF else fdbPort e

/-- An entry is removed: the cleared entry keeps the generation of its removal (R131). -/
def Dev.fdbRemove (d : Dev) (type reason pipe i : Nat) : Dev :=
  let e := d.tget pipe 0 i
  (d.entryChange pipe 0 i 0).fdbEvent type reason pipe i e 0xFF (fdbEvPort e)

/-- An entry is written, with its LEARN event. -/
def Dev.fdbLearn (d : Dev) (reason pipe i e : Nat) : Dev :=
  (d.entryChange pipe 0 i e).fdbEvent 0x01 reason pipe i e (fdbEvPort e) 0xFF

/-! ### Learning (R143 to R147) -/

/-- Learning of a kind is enabled in a pipeline (Table TBL-10). -/
def Dev.learnOn (d : Dev) (pipe : Nat) (egress : Bool) : Bool :=
  (if pipe == 0 then d.flag F.TBL_CTRL_LEARN_A else d.flag F.TBL_CTRL_LEARN_B) && (!egress || d.flag F.TBL_CTRL_EGRESS_LEARN)

/-- A learning candidate is looked up and refreshed, moved or learned (R145). The second answer says that the frame is
discarded at the learn limit (R146). Learning that is switched off also stops refreshes and moves (DESIGN CHOICE, log 69). DESIGN CHOICE (log 83): where the limit, the full
set and the hold all refuse a learn, the first of them in this order counts it. -/
def Dev.learn (d : Dev) (pipe port sa vid : Nat) (egress : Bool) : Dev × Bool :=
  if !d.learnOn pipe egress then (d, false)
  else
  match d.fdbFind pipe sa vid with
  | (d1, some (i, e)) =>
    if fdbPort e == port && !fdbGroup e then
      -- refreshed: not an entry change (R131)
      ((d1.fdbFresh pipe i).tset pipe 0 i (setBit (setBit e 62 true) 63 false), false)
    else if fdbStatic e then (d1.inc F.TBL_SA_STATIC_COUNT, false)
    else if d1.learnHeld then (d1.inc F.TBL_LEARN_HELD_COUNT, false)
    else
      let e1 := fdbLearned sa vid port egress
      (((d1.fdbFresh pipe i).entryChange pipe 0 i e1).fdbEvent 0x02 0 pipe i e1 port (fdbPort e), false)
  | (d1, none) =>
    let lim := d1.get (F.TBL_LEARN_LIMIT_LIMIT port)
    if lim != 0 && decide (lim ≤ d1.learnedOn pipe port) then
      let d2 := d1.inc (F.TBL_LEARN_DROP_COUNT port)
      if d2.flag (F.TBL_LEARN_LIMIT_ACTION port) && !egress then (d2, true) else (d2, false)
    else
      match d1.fdbFree pipe (fdbSet sa vid) with
      | none =>
        let d2 := d1.inc F.TBL_LEARN_FULL_COUNT
        let last := if pipe == 0 then d2.tables.failA else d2.tables.failB
        let due := match last with
          | none => true
          | some t => decide (t + msCyc ≤ d2.now)
        if due then
          let d3 := d2.event60 (tblEntry 0x05 pipe (b2n egress) 0 pipe 0 (4 * fdbSet sa vid) sa vid port 0xFF 0
            (d2.get (genCounter pipe 0)) d2.dtime)
          ({ d3 with tables := if pipe == 0 then { d3.tables with failA := some d3.now }
              else { d3.tables with failB := some d3.now } }, false)
        else (d2, false)
      | some i =>
        if d1.learnHeld then (d1.inc F.TBL_LEARN_HELD_COUNT, false)
        else (d1.fdbLearn 0 pipe i (fdbLearned sa vid port egress), false)

/-! ### VLAN, stream and route lookups -/

/-- Fields of a VLAN entry (Table TBL-3). -/
def vlanMembers (e : Nat) : Nat := bf e 0 20
def vlanUntagged (e : Nat) : Nat := bf e 48 20
def vlanValid (e : Nat) : Bool := bit e 96
def vlanLearn (e : Nat) : Bool := bit e 97
def vlanFloodHost (e : Nat) : Bool := bit e 98

/-- The VLAN entry of a VID in a pipeline's copy; 0 when absent. -/
def Dev.vlan (d : Dev) (pipe vid : Nat) : Dev × Nat :=
  match d.entryRead 2 pipe (vid % 4096) with
  | (d1, some e) => (d1, if vlanValid e then e else 0)
  | (d1, none) => (d1, 0)

/-- The stream entry of a DA and VID in a pipeline's copy (Table TBL-4). -/
def Dev.stream (d : Dev) (pipe da vid : Nat) : Dev × Option (Nat × Nat) :=
  d.entryFind 3 pipe (fun e => bit e 63 && bf e 0 48 == da % 2 ^ 48 && bf e 48 12 == vid % 4096)
    (d.anvil.contracts.map (fun p => p.1))

/-- Set of a route key (R158). -/
def routeSet (port form id : Nat) : Nat :=
  crc32 (leBytes 1 port ++ leBytes 1 (form % 16) ++ beBytes 4 id) % 4096

/-- Fields of a route entry (Table SIG-2). -/
def rtId (e : Nat) : Nat := bf e 0 32
def rtPort (e : Nat) : Nat := bf e 32 8
def rtForm (e : Nat) : Nat := bf e 40 4
def rtValid (e : Nat) : Bool := bit e 47
def rtSecIn (e : Nat) : Nat := bf e 48 10
def rtSecInEn (e : Nat) : Bool := bit e 63
def rtSigFirst (e : Nat) : Nat := bf e 64 16
def rtSigCount (e : Nat) : Nat := bf e 80 12
def rtIsGroup (e : Nat) : Bool := bit e 92
def rtMon (e : Nat) : Nat := bf e 96 12
def rtMonEn (e : Nat) : Bool := bit e 111
def rtMonMs (e : Nat) : Nat := bf e 112 16
def rtGroup (e : Nat) : Nat := bf e 128 8
def rtSlot (e k : Nat) : Nat := bf e (128 + 32 * k) 32

/-- Fields of a target slot (Table SIG-3). -/
def slTarget (s : Nat) : Nat := bf s 0 7
def slEn (s : Nat) : Bool := bit s 7
def slEdit (s : Nat) : Nat := bf s 8 12
def slSleep (s : Nat) : Nat := bf s 20 2

/-- The route of a key in a pipeline's copy. -/
def Dev.route (d : Dev) (pipe port form id : Nat) : Dev × Option (Nat × Nat) :=
  d.entryFind 4 pipe (fun e => rtValid e && rtId e == id && rtPort e == port && rtForm e == form)
    (setWays (routeSet port form id))

end Sys2Proof.Machine
end

