-- ==== Sys2Proof/Machine/BufOps.lean ====
section
/-!
DEFINITION. The packet buffer (R87 to R95): cells, handles and reservations; port counters; deadlines and the LATE
test (R63, R64); residence measurement and the promise breach (R66 to R68); the end of an egress copy.
-/
namespace Sys2Proof.Machine

/-- What an Ethernet or T1S port holds beside its registers. -/
def Dev.ethPort (d : Dev) (p : Nat) : EthPort := SMap.get d.eth.ports EthPort.init p

def Dev.setEthPort (d : Dev) (p : Nat) (x : EthPort) : Dev :=
  { d with eth := { d.eth with ports := SMap.set d.eth.ports EthPort.init p x } }

/-! ### Port counters (R126) -/

/-- A counter of a network port goes up by `n`, modulo 2⁶⁴. -/
def Dev.cntAdd (d : Dev) (f : Nat → FieldRef) (p n : Nat) : Dev :=
  if p < 48 then d.set (f p) ((d.get (f p) + n) % 2 ^ 64) else d

/-- A counter of a network port goes up by one. -/
def Dev.cnt (d : Dev) (f : Nat → FieldRef) (p : Nat) : Dev := d.cntAdd f p 1

/-- The counter slot of a copy: its TC on Ethernet, TC0 on CAN and LIN (R126). -/
def slotTc (p tc : Nat) : Nat := if p < 20 then tc else 0

/-! ### Deadlines (R63, R64) -/

/-- An instant in ns as a deadline, rounded up to 8 ns. -/
def dl8 (t : Nat) : Nat := (t + 7) / 8 % 2 ^ 32

/-- `a` is later than `b` among deadlines, in serial arithmetic. -/
def later (a b : Nat) : Bool :=
  let x := (a + 2 ^ 32 - b % 2 ^ 32) % 2 ^ 32
  decide (1 ≤ x) && decide (x ≤ 2 ^ 31)

/-- An instant in ns exceeds a deadline: bits [34:3] of its count are later. -/
def exceeds (t dl : Nat) : Bool := later (t / 8 % 2 ^ 32) dl

/-- A launch time has been reached at an instant (R276). -/
def reached (t launch : Nat) : Bool := later (t / 8 % 2 ^ 32) launch || t / 8 % 2 ^ 32 == launch % 2 ^ 32

/-- The deadline of a best-effort copy of class `tc` (R36). -/
def Dev.beDeadline (d : Dev) (start tc : Nat) : Nat := dl8 (start + d.get (F.ANVIL_BE_AGE_AGE_US tc) * 1000)

/-! ### Contracts -/

/-- A contract index that is admitted or quarantined. -/
def Dev.contract (d : Dev) (i : Nat) : Option Contract := SMap.get d.anvil.contracts none i

/-- A contract takes new values. -/
def Dev.setContract (d : Dev) (i : Nat) (c : Option Contract) : Dev :=
  { d with anvil := { d.anvil with contracts := SMap.set d.anvil.contracts none i c } }

/-- Fields of a request (Table PROM-4), counted in bytes. -/
def rq (r off n : Nat) : Nat := bf r (8 * off) (8 * n)
def rqClass (r : Nat) : Nat := rq r 1 1
def rqTc (r : Nat) : Nat := rq r 2 1 % 8
def rqKeyType (r : Nat) : Nat := rq r 3 1
def rqVid (r : Nat) : Nat := rq r 4 2 % 4096
def rqDa (r : Nat) : Nat := rq r 6 6
def rqIngress (r : Nat) : Nat := rq r 12 1
def rqForm (r : Nat) : Nat := rq r 13 1
/-- Bits above the format's identifier are reserved, and so ignored (R10). -/
def rqId (r : Nat) : Nat :=
  rq r 16 4 % 2 ^ (if rqForm r == 1 || rqForm r == 3 then 29 else if rqForm r == 5 then 6 else 11)
def rqRate (r : Nat) : Nat := rq r 20 4
def rqBurst (r : Nat) : Nat := rq r 24 4
def rqMax (r : Nat) : Nat := rq r 28 2
def rqMin (r : Nat) : Nat := rq r 30 2
def rqEgress (r : Nat) : Nat := rq r 32 16
def rqBound (r : Nat) : Nat := rq r 48 4
def rqRedund (r : Nat) : Nat := rq r 52 1
def rqTwin (r : Nat) : Nat := rq r 53 1
def rqSecIn (r : Nat) : Nat := rq r 54 2
def rqTag (r : Nat) : Nat := rq r 60 4

/-- The admitted contracts, quarantined ones aside. -/
def Dev.admitted (d : Dev) : List (Nat × Contract) :=
  d.anvil.contracts.filterMap (fun p => match p.2 with
    | some c => if c.quar then none else some (p.1, c)
    | none => none)

/-- The admitted contract of a field key (R82). -/
def Dev.fieldContract (d : Dev) (port form id : Nat) : Option Nat :=
  (d.admitted.find? (fun p => rqKeyType p.2.req == 1 && rqIngress p.2.req == port && rqForm p.2.req == form
    && rqId p.2.req == id)).map (fun p => p.1)

/-! ### Cells and handles -/

/-- A stored frame. -/
def Dev.frame (d : Dev) (h : Nat) : Option Frame := SMap.get d.fwd.frames none h

/-- What a stored frame leaves in its cells (R95). -/
def Frame.left (f : Frame) : Nat × List Byte := (f.half, f.msg.data)

/-- A stored frame takes new values, or goes. Cells keep what they held until they are overwritten (R95); DESIGN CHOICE (log 88): the
cells of a handle are overwritten when the handle is taken again. -/
def Dev.setFrame (d : Dev) (h : Nat) (f : Option Frame) : Dev :=
  let old := ((d.frame h).map Frame.left).getD (SMap.get d.fwd.freed (0, []) h)
  { d with fwd := { d.fwd with
      frames := SMap.set d.fwd.frames none h f
      freed := SMap.set d.fwd.freed (0, []) h (if f.isSome then (0, []) else old) } }

/-- All stored frames. -/
def Dev.stored (d : Dev) : List Frame := d.fwd.frames.filterMap (fun p => p.2)

/-- Length of a frame: from DA to FCS on Ethernet, data-field bytes elsewhere (Table PROM-4). -/
def Msg.len (m : Msg) : Nat := if m.form == 16 then m.data.length + 4 else m.data.length

/-- Cells of a frame of `n` bytes: one header cell and its data cells (R88). -/
def cellsFor (n : Nat) : Nat := 1 + (n + 127) / 128

/-- Free handles (`FWD.HANDLES`). -/
def Dev.freeHandles (d : Dev) : Nat := 65536 - d.stored.length

/-- Cells of a half that receive sessions hold (R305). -/
def Dev.sessCells (d : Dev) (half : Nat) : Nat :=
  (d.xpt.sess.map (fun p => match p.2 with
    | some s => if s.half == half then s.cells else 0
    | none => 0)).sum

/-- Free cells of a half (`FWD.CELLS`). -/
def Dev.freeCells (d : Dev) (half : Nat) : Nat :=
  49152 - ((d.stored.filter (fun f => f.half == half)).map (fun f => f.cells)).sum - d.sessCells half

/-- A stored frame draws on its contract's own reservation; a container holds cells of container reservations instead (R181). -/
def Frame.draws (f : Frame) (i : Nat) : Bool := f.contract == some i && f.ingress != 49

/-- Handles and cells that the stored frames of a contract hold (R89). -/
def Dev.heldH (d : Dev) (i : Nat) : Nat := (d.stored.filter (fun f => f.draws i)).length
def Dev.heldC (d : Dev) (i half : Nat) : Nat :=
  ((d.stored.filter (fun f => f.draws i && f.half == half)).map (fun f => f.cells)).sum

/-- The unused reservation of handles, U_h. -/
def Dev.unusedH (d : Dev) : Nat := (d.admitted.map (fun p => p.2.handles - d.heldH p.1)).sum

/-- The unused reservation of cells of a half, U_c. -/
def Dev.unusedC (d : Dev) (half : Nat) : Nat :=
  (d.admitted.map (fun p => (if bit p.2.halves half then p.2.rsvC - d.heldC p.1 half else 0)
    + ((p.2.conts.filter (fun k => k.half == half)).map (fun k => k.cells - k.used)).sum)).sum

/-- A best-effort frame of `k` cells finds a handle and its cells (R91). -/
def Dev.beRoom (d : Dev) (half k : Nat) : Bool :=
  decide (d.unusedH < d.freeHandles) && decide (d.unusedC half + k ≤ d.freeCells half)

/-- The lowest key no stored frame has; the hardware's handle numbers are not modelled (log 17). -/
def lowFree {α : Type} (n : Nat) : SMap α → Nat
  | [] => n
  | (k, _) :: m => if k = n then lowFree (n + 1) m else n

/-! ### Watermarks (R103) -/

/-- The ingress count of a port and priority. -/
def Dev.ingressCount (d : Dev) (p q : Nat) : Nat :=
  ((d.stored.filter (fun f => f.ingress == p && f.prio == q && f.contract == none)).map (fun f => f.cells)).sum

/-- After a change of an ingress count: the watermark's state and, for an enabled priority, the PFC frame it asks for
(R104). -/
def Dev.wmUpdate (d : Dev) (p q : Nat) : Dev :=
  if 12 ≤ p then d
  else
    let high := d.get (F.FWD_WM_HIGH p q)
    let low := min (d.get (F.FWD_WM_LOW p q)) (high - 1)
    let n := d.ingressCount p q
    let was := bit (d.get (F.FWD_WM_STATE_XOFF p)) q
    let now := if high == 0 then false else if was then !decide (n ≤ low) else decide (high ≤ n)
    if was == now then d
    else
      let d1 := d.setBitOf (F.FWD_WM_STATE_XOFF p) q now
      if bit (d1.get (F.FWD_PORT_CFG_PFC_EN p)) q then
        { d1 with fwd := { d1.fwd with
            pfcPend := SMap.set d1.fwd.pfcPend 0 p (setBit (SMap.get d1.fwd.pfcPend 0 p) q true) } }
      else d1

/-! ### Storing (R90 to R92) -/

/-- Cells of its reservation in a half that a contract's frames do not hold yet. -/
def Dev.spareC (d : Dev) (c : Contract) (i half : Nat) : Nat := if bit c.halves half then c.rsvC - d.heldC i half else 0

/-- A contract frame finds `k` cells in a half beyond its reservation (R90, R91). Each cell it takes while `spare` cells of the
reservation are unheld lowers the free cells and U_c alike; only the first of these meets the test, unless the frame takes them
as its own. -/
def Dev.beyond (d : Dev) (own : Bool) (spare half k : Nat) : Bool :=
  decide (d.unusedC half + (if own then k - spare else max 1 (k - spare)) ≤ d.freeCells half)

/-- A frame is stored, with the cells of `n` bytes: from its contract's reservation, then as best effort. No handle
where the buffer has no room. -/
def Dev.store (d : Dev) (f : Frame) (n : Nat) : Dev × Option Nat :=
  let k := cellsFor n
  let h := lowFree 0 d.fwd.frames
  match f.contract.bind (fun i => (d.contract i).map (fun c => (i, c))) with
  | some (i, c) =>
    let spare := d.spareC c i f.half
    let own := decide (d.heldH i < c.handles) && decide (0 < spare)
    let mine := if own then min k spare else 0
    if own && decide (k ≤ spare) then (d.setFrame h (some { f with cells := k, rsvCells := mine, rsvHandle := true }), some h)
    else if (own || decide (d.unusedH < d.freeHandles)) && d.beyond own spare f.half k then
      (((d.setFrame h (some { f with cells := k, rsvCells := mine, rsvHandle := own, overrun := true })).inc
        F.FWD_RSV_OVERRUN_COUNT).fault blkFwd 3, some h)
    else (d, none)
  | none =>
    if d.beRoom f.half k then
      ((d.setFrame h (some { f with cells := k, rsvCells := 0, rsvHandle := false })).wmUpdate f.ingress f.prio, some h)
    else (d, none)

/-- Cells charged to container reservations are given back (R181). -/
def Dev.uncharge (d : Dev) (l : List (Nat × Nat × Nat)) : Dev :=
  l.foldl (fun d x => match d.contract x.1 with
    | some c => d.setContract x.1 (some { c with conts := c.conts.map (fun k =>
        if k.cont == x.2.1 then { k with used := k.used - x.2.2 } else k) })
    | none => d) d

/-- A frame's handle and cells are freed when no copy is left (R88). -/
def Dev.releaseIf (d : Dev) (h : Nat) : Dev :=
  if d.fwd.copies.any (fun c => c.handle == h) then d
  else
    match d.frame h with
    | none => d
    | some f =>
      if !f.whole then d
      else ((d.setFrame h none).uncharge f.charges).wmUpdate f.ingress f.prio

/-! ### Measurement and breach (R66 to R68) -/

/-- A promise breach: its actions in the order of R68. -/
def Dev.breach (d : Dev) (i port res bound : Nat) : Dev :=
  let d1 := (((d.fltSet blkAnvil 0).event61 0x03 blkAnvil 0 (accNone * 8) 0
    (leBytes 2 i ++ leBytes 1 port ++ leBytes 1 0 ++ leBytes 4 res ++ leBytes 4 bound)).inc
      F.ANVIL_BREACHES_COUNT).countEvent blkAnvil 0
  ((d1.set F.ANVIL_LAST_BREACH_CONTRACT i).set F.ANVIL_LAST_BREACH_PORT port).set F.ANVIL_LAST_BREACH_VALID 1

/-- The records are updated: `MEAS_CTRL.FREEZE` is 0 (R67). -/
def Dev.measUpdate (d : Dev) (i : Nat) (g : Meas → Meas) : Dev :=
  if d.flag F.ANVIL_MEAS_CTRL_FREEZE then d
  else match d.contract i with
    | some c => d.setContract i (some { c with meas := g c.meas })
    | none => d

/-- A 32-bit count of a record. -/
def sat32 (x : Nat) : Nat := satAdd 32 x 1

/-- The residence of a frame that ends at DTIME `e`; below 0 it is 0 (R120). DESIGN CHOICE (log 67): one that 32 bits do not
hold beside the code 0xFFFF_FFFF of a frame without residence end is recorded as 0xFFFF_FFFE. -/
def residenceAt (f : Frame) (e : Nat) : Nat :=
  let x := (e + 2 ^ 64 - f.start % 2 ^ 64) % 2 ^ 64
  if x < 2 ^ 63 then min x 0xFFFFFFFE else 0

/-- A frame is excused at its end or drop (R34, R274). -/
def Dev.isExcused (d : Dev) (c : Copy) (f : Frame) : Bool := c.excused || f.epoch != d.get F.TIME_STATUS_EPOCH

/-- The contracts of whose frames a stored frame is one, or carries one: a container is a frame of each contract PDU in it (R66). -/
def Frame.owners (f : Frame) : List Nat := f.contract.toList ++ f.others

/-- A copy of a frame of contract `i` reaches its residence end at DTIME `e` (R66, R67). -/
def Dev.measureOne (d : Dev) (c : Copy) (f : Frame) (e i : Nat) : Dev :=
  match d.contract i with
  | none => d
  | some k =>
    let r := residenceAt f e
    let late := decide (k.bound < r)
    if d.isExcused c f then
      let d1 := d.measUpdate i (fun m => { m with excused := sat32 m.excused })
      if late then d1.inc F.ANVIL_EXCUSED_COUNT else d1
    else
      let bin := min 15 (r * 16 / atLeastOne k.bound)
      let d1 := d.measUpdate i (fun m => { m with
        measured := (m.measured + 1) % 2 ^ 64
        maxRes := max m.maxRes r
        maxAt := if m.maxRes < r || m.measured == 0 then e else m.maxAt
        breaches := if late then sat32 m.breaches else m.breaches
        bins := if late then m.bins else m.bins.mapIdx (fun j x => if j == bin then sat32 x else x) })
      if late then d1.breach i c.port r k.bound else d1

/-- A copy reaches its residence end at DTIME `e`, for each contract of its frame. -/
def Dev.measure (d : Dev) (c : Copy) (f : Frame) (e : Nat) : Dev := f.owners.foldl (fun d i => d.measureOne c f e i) d

/-- A conforming frame is lost on an egress port before its residence end: a breach unless excused (R66, R68). DESIGN CHOICE
(log 67): `ANVIL.EXCUSED` counts frames over their bound at residence end only, so an excused one dropped before it is not
counted there. -/
def Dev.lost (d : Dev) (i port : Nat) (excused late : Bool) : Dev :=
  match d.contract i with
  | none => d
  | some k =>
    let d0 := if late then d.measUpdate i (fun m => { m with late := if excused then m.late else sat32 m.late }) else d
    if excused then d0.measUpdate i (fun m => { m with excused := sat32 m.excused })
    else (d0.measUpdate i (fun m => { m with breaches := sat32 m.breaches })).breach i port 0xFFFFFFFF k.bound

/-- A stored frame is lost on an egress port, for each contract of it. -/
def Dev.lostFrame (d : Dev) (f : Frame) (port : Nat) (excused late : Bool) : Dev :=
  f.owners.foldl (fun d i => d.lost i port excused late) d

/-! ### The end of a copy -/

/-- A copy, as one of the list. -/
def Dev.setCopy (d : Dev) (c : Copy) : Dev :=
  { d with fwd := { d.fwd with copies := d.fwd.copies.map (fun x => if x.seq == c.seq then c else x) } }

/-- A copy leaves the queues. -/
def Dev.unlistCopy (d : Dev) (c : Copy) : Dev :=
  { d with fwd := { d.fwd with copies := d.fwd.copies.filter (fun x => x.seq != c.seq) } }

/-- Why a copy is dropped. -/
inductive Drop where
  | late | windowEnd | unavail | poison | txFail | aborted | lost | tail | evict | heapDrop | oversize
  deriving DecidableEq, Repr

/-- The completion code of a dropped copy (R418); none where the manual gives no code: the code is then free (log 3). -/
def Drop.code : Drop → Option Nat
  | .late => some errLate
  | .unavail => some errDomainOff
  | .poison => some errPoison
  | .txFail => some errTimeout
  | .aborted => some errAborted
  | _ => none

/-- The completion of a host frame learns of a dropped copy; a code that the manual does not give is free among those of Table
HIF-9 that report no success (R418, R429, log 3). -/
def Dev.txDropped (d : Dev) (tag : Option (Nat × Nat)) (code : Option Nat) : Dev :=
  match tag, code with
  | none, _ => d
  | some t, some c => d.txCopyEnd (some t) (some c)
  | some t, none => d.tookFree.txCopyEnd (some t) (some d.freeErr)

/-- The completion of a host frame learns of a copy dropped after it had started: of an Ethernet or T1S copy, which has reached its
residence end, as one sent (R418). -/
def Dev.txCut (d : Dev) (tag : Option (Nat × Nat)) (port : Nat) (code : Option Nat) : Dev :=
  let d1 := d.txBegun tag
  if port < 20 then d1.txCopyEnd tag none else d1.txDropped tag code

/-- The counter of a drop. -/
def Dev.dropCount (d : Dev) (c : Copy) (r : Drop) : Dev :=
  match r with
  | .late => d.cnt (fun p => F.CNT_LATE_COUNT p (slotTc p c.tc)) c.port
  | .windowEnd => d.cnt (fun p => F.CNT_WINDOW_END_COUNT p (slotTc p c.tc)) c.port
  | .unavail => d.cnt F.CNT_DROP_UNAVAIL_COUNT c.port
  | .poison => d.cnt F.CNT_DROP_POISON_COUNT c.port
  | .tail => d.cnt F.CNT_TAIL_DROP_COUNT c.port
  | .evict => d.cnt F.CNT_EVICT_COUNT c.port
  | .heapDrop => d.cnt F.CNT_HEAP_DROP_COUNT c.port
  | .txFail | .aborted | .lost | .oversize => d

/-- What a dropped copy's own originator counts: a late cyclic release (R175), a Touchstone message (R214). -/
def Dev.dropKind (d : Dev) (c : Copy) (r : Drop) : Dev :=
  match c.kind with
  | .cyclic => if r == Drop.late then d.inc F.STE_CYC_LATE_COUNT else d
  | .tsSync | .tsOld => (d.inc F.TS_TS_SYNC_DROP_COUNT).fltSet blkTs 0
  | .tsFup => (d.inc F.TS_TS_FUP_DROP_COUNT).fltSet blkTs 1
  | .xpt k =>
    let n := match r with
      | .evict | .heapDrop => 0
      | .late => 1
      | _ => 2
    { d with flt := { d.flt with todo := d.flt.todo ++ [.xptDrop k n] } }
  | _ => d

/-- A queued copy is dropped: counters, breach, completion, and its frame when it was the last. -/
def Dev.dropCopy (d : Dev) (c : Copy) (r : Drop) : Dev :=
  let d1 := ((d.unlistCopy c).dropCount c r).dropKind c r
  match d1.frame c.handle with
  | none => d1
  | some f =>
    -- an Ethernet or T1S copy in transmission has reached its residence end
    let d2 := if c.started && decide (c.port < 20) then d1 else d1.lostFrame f c.port (d1.isExcused c f) (r == Drop.late)
    (if c.started then d2.txCut f.hostTag c.port r.code else d2.txDropped f.hostTag r.code).releaseIf c.handle

/-- Bytes received and sent on a UP or GE port enter its utilisation window, and with AUTO = 1 the last 100 ms (R253,
R254). -/
def Dev.utilise (d : Dev) (p rx tx : Nat) : Dev :=
  if 12 ≤ p then d
  else
    let x := d.ethPort p
    let now := d.now
    d.setEthPort p { x with
      win := (x.win.1 + rx, x.win.2.1 + tx, x.win.2.2)
      fast := if d.flag (F.ETH_STEP_CFG_AUTO p) then
          x.fast.filter (fun e => decide (now < e.1 + 100 * msCyc)) ++ [(now, rx, tx)]
        else [] }

/-- Frame and byte counters of a frame sent (R126). -/
def Dev.countTx (d : Dev) (p n : Nat) : Dev := ((d.cnt F.CNT_TX_FRAMES_COUNT p).cntAdd F.CNT_TX_BYTES_COUNT p n).utilise p 0 n

/-- Frame and byte counters of a frame received (R126). -/
def Dev.countRx (d : Dev) (p n : Nat) : Dev := ((d.cnt F.CNT_RX_FRAMES_COUNT p).cntAdd F.CNT_RX_BYTES_COUNT p n).utilise p n 0

/-- A copy leaves its port without a count: completion, and its frame when it was the last. -/
def Dev.endCopy (d : Dev) (c : Copy) : Dev :=
  let d1 := d.unlistCopy c
  match d1.frame c.handle with
  | none => d1
  | some f => (d1.txCopyEnd f.hostTag none).releaseIf c.handle

/-- A copy has been sent whole: counters, completion, and its frame when it was the last. Its residence was measured
at its start. DESIGN CHOICE (log 83): frames sent on CAN and LIN count in TC_TX of TC0. -/
def Dev.sentCopy (d : Dev) (c : Copy) (bytes : Nat) : Dev :=
  ((d.countTx c.port bytes).cnt (fun p => F.CNT_TC_TX_COUNT p (slotTc p c.tc)) c.port).endCopy c

/-- The copies of a port. -/
def Dev.copiesOn (d : Dev) (p : Nat) : List Copy := d.fwd.copies.filter (fun c => c.port == p)

/-- Every copy on a port that satisfies `g` becomes excused (Table PROM-1). -/
def Dev.excuse (d : Dev) (p : Nat) (g : Copy → Bool) : Dev :=
  { d with fwd := { d.fwd with copies := d.fwd.copies.map (fun c => if c.port == p && g c then { c with excused := true } else c) } }

/-- Every copy on a port that satisfies `g` is dropped. -/
def Dev.dropWhere (d : Dev) (p : Nat) (g : Copy → Bool) (r : Drop) : Dev :=
  (d.copiesOn p).foldl (fun d c => if g c then d.dropCopy c r else d) d

/-! ### Poison (R93) -/

/-- `FWD.POISON_LOG` takes a poison event of a port. The number of the handle is a free value (log 17). -/
def Dev.poisonLog (d : Dev) (port : Nat) : Dev :=
  ((d.tookFree.set F.FWD_POISON_LOG_HANDLE (d.freeNat 16)).set F.FWD_POISON_LOG_PORT port).set F.FWD_POISON_LOG_VALID 1

/-- A parity failure on reading a stored frame: the log, the fault and the flag of its handle. -/
def Dev.poison (d : Dev) (h port : Nat) : Dev :=
  let d1 := (d.poisonLog port).fault blkFwd 0
  match d1.frame h with
  | some f => d1.setFrame h (some { f with poison := true })
  | none => d1

/-! ### Frames on the wire (R94) -/

/-- Bytes sent with the FCS that the MAC gives them. -/
def Dev.sendEth (d : Dev) (p : Nat) (bs : List Byte) : Dev := d.emit (.ethFrame p bs (crc32 bs))

/-- Bytes sent with a stomped FCS: the complement of the one the MAC would send after them. -/
def Dev.sendStomped (d : Dev) (p : Nat) (bs : List Byte) : Dev := d.emit (.ethFrame p bs (crc32 bs ^^^ 0xFFFFFFFF))

end Sys2Proof.Machine
end

