-- ==== Sys2Proof/Machine/SteMem.lean ====
section
/-!
DEFINITION. The memories of the signal transplant engine (Table SIG-16) and the fields of their entries, and where a
route sends a frame (R159 to R163).
-/
namespace Sys2Proof.Machine

/-- Memory number of STE memory `m` among the keys of `tbl`. -/
def steMem (m : Nat) : Nat := 50 + m

/-- Entries and entry size of an STE memory (Table SIG-16). -/
def steEntries (m : Nat) : Nat :=
  match m with
  | 0 => 4352 | 1 => 1024 | 2 => 4096 | 3 => 256 | 4 => 64 | 5 => 64 | 6 => 16 | _ => 4096
def steSize (m : Nat) : Nat := if m == 0 || m == 2 then 16 else if m == 7 then 8 else 32

/-- An entry as it counts; one in uncorrectable error is not valid (R187). -/
def Dev.steEnt (d : Dev) (m i : Nat) : Nat :=
  if d.tables.bad.contains (tkey (steMem m) 0 i) then 0 else d.tget (steMem m) 0 i

/-- The errors that a read of an entry meets (R187). -/
def Dev.steTouch (d : Dev) (m i : Nat) : Dev :=
  let k := tkey (steMem m) 0 i
  if d.tables.bad.contains k then d.faultCapture blkSte 0 (d.entAccess k (m * 2 ^ 24 + i)) true
  else if d.tables.soft.contains k then
    ({ d with tables := { d.tables with soft := d.tables.soft.filter (fun x => x != k) } }).inc F.STE_MEM_CE_COUNT
  else d

/-- Edit entries (Table SIG-4). -/
def edId (e : Nat) : Nat := bf e 0 32
def edForm (e : Nat) : Nat := bf e 32 4
def edProfile (e : Nat) : Nat := bf e 40 6
def edSecOut (e : Nat) : Nat := bf e 48 10
def edSecEn (e : Nat) : Bool := bit e 63
def edBrs (e : Nat) : Bool := bit e 64
def edValid (e : Nat) : Bool := bit e 65

/-- Multicast groups (Table SIG-5). -/
def grMembers (e : Nat) : Nat := bf e 0 128
def grEdit (e : Nat) : Nat := bf e 128 12
def grEditEn (e : Nat) : Bool := bit e 143
def grSleep (e : Nat) : Nat := bf e 144 2
def grValid (e : Nat) : Bool := bit e 152

/-- Encapsulation profiles (Table SIG-11); containers and intake filters start alike. -/
def enDa (e : Nat) : Nat := bf e 0 48
def enVid (e : Nat) : Nat := bf e 48 12
def enPcp (e : Nat) : Nat := bf e 60 3
def enTagged (e : Nat) : Bool := bit e 63
def enStream (e : Nat) : Nat := bf e 64 64
def enBus (e : Nat) : Nat := bf e 128 5
def enValid (e : Nat) : Bool := bit e 136

/-- Container records (Table SIG-14). -/
def coEgress (e : Nat) : Nat := bf e 64 5
def coTc (e : Nat) : Nat := bf e 72 3
def coMax (e : Nat) : Nat := bf e 80 16
def coThresh (e : Nat) : Nat := bf e 96 16
def coHold (e : Nat) : Nat := bf e 128 32
def coThreshOp (e : Nat) : Nat := bf e 160 16
def coHoldOp (e : Nat) : Nat := bf e 192 32
def coValid (e : Nat) : Bool := bit e 224

/-- Intake filters (Table SIG-6). -/
def inVidAny (e : Nat) : Bool := bit e 63
def inKind (e : Nat) : Nat := bf e 64 8
def inValid (e : Nat) : Bool := bit e 72
def inStream (e : Nat) : Nat := bf e 128 64

/-- Image descriptors (Table SIG-9). -/
def imId (e : Nat) : Nat := bf e 0 32
def imPort (e : Nat) : Nat := bf e 32 7
def imValid (e : Nat) : Bool := bit e 39
def imForm (e : Nat) : Nat := bf e 40 4
def imMode (e : Nat) : Nat := bf e 44 2
def imLen (e : Nat) : Nat := bf e 48 12
def imPeriod (e : Nat) : Nat := bf e 64 16
def imPhase (e : Nat) : Nat := bf e 80 16
def imGap (e : Nat) : Nat := bf e 96 8
def imCont (e : Nat) : Nat := bf e 104 6
def imSecOut (e : Nat) : Nat := bf e 112 10
def imSecEn (e : Nat) : Bool := bit e 127

/-- Substitution profiles (Table SIG-8). -/
def suInvIn (e : Nat) : Nat := bf e 0 64
def suInvOut (e : Nat) : Nat := bf e 64 64
def suDefault (e : Nat) : Nat := bf e 128 64
def suVbit (e : Nat) : Nat := bf e 192 14
def suVbitEn (e : Nat) : Bool := bit e 206
def suPol (e : Nat) : Bool := bit e 207
def suInvEn (e : Nat) : Bool := bit e 208
def suHold (e : Nat) : Bool := bit e 209

/-- Signal routes (Table SIG-7). -/
def sgSrc (e : Nat) : Nat := bf e 0 14
def sgLen (e : Nat) : Nat := bf e 14 6 + 1
def sgSrcMot (e : Nat) : Bool := bit e 20
def sgTarget (e : Nat) : Nat := bf e 21 13
def sgDst (e : Nat) : Nat := bf e 34 14
def sgDstMot (e : Nat) : Bool := bit e 48
def sgProf (e : Nat) : Nat := bf e 49 10
def sgProfEn (e : Nat) : Bool := bit e 59
def sgTrigger (e : Nat) : Bool := bit e 60
def sgValid (e : Nat) : Bool := bit e 63

/-! ### Where a route leads -/

/-- One copy that a route asks for: target, edit entry if any, sleep policy. -/
structure RTarget where
  target : Nat
  edit : Option Nat
  sleep : Nat
  deriving DecidableEq, Repr

/-- The targets of a route entry (R161, R163): its enabled slots, or the members of its group. A field-port member of a
group takes the frame unchanged, an Ethernet member through ETH_EDIT. -/
def Dev.rtTargets (d : Dev) (e : Nat) : List RTarget :=
  if rtIsGroup e then
    let g := d.steEnt 3 (rtGroup e)
    (bitsOf 52 (grMembers g)).map (fun p => ⟨p, if p < 20 then some (grEdit g) else none, grSleep g⟩)
  else
    (([0, 1, 2, 3].map (rtSlot e)).filter slEn).map (fun s =>
      ⟨slTarget s, if slEdit s == 0xFFF then none else some (slEdit s), slSleep s⟩)

/-- The route of a contract with a field key, as Anvil knows it from the admission; no table is read. -/
def Dev.contractRoute (d : Dev) (c : Contract) : Option Nat :=
  if rqKeyType c.req == 1 then
    ((setWays (routeSet (rqIngress c.req) (rqForm c.req) (rqId c.req))).map (fun i => d.tget 4 0 i)).find? (fun e =>
      rtValid e && rtId e == rqId c.req && rtPort e == rqIngress c.req && rtForm e == rqForm c.req)
  else none

/-- Form and identifier that a route target gives a frame of the given form and identifier. -/
def Dev.targetForm (d : Dev) (t : RTarget) (form id : Nat) : Nat × Nat :=
  match t.edit with
  | none => (form, id)
  | some i => (edForm (d.steEnt 2 i), edId (d.steEnt 2 i))

/-- Whether a contract with a field key reaches identifier `id` of LIN port `p`. -/
def Dev.contractLin (d : Dev) (c : Contract) (p id : Nat) : Bool :=
  match d.contractRoute c with
  | none => false
  | some e => (d.rtTargets e).any (fun t => t.target == p && (d.targetForm t (rqForm c.req) (rqId c.req)).2 == id)

end Sys2Proof.Machine
end

