-- ==== Sys2Proof/Machine/EgrOps.lean ====
section
/-!
DEFINITION. Egress queueing (R108 to R117): the entry of a copy into the queues of an Ethernet or T1S port, into a
CAN transmit heap and into a LIN transmit slot.
-/
namespace Sys2Proof.Machine

/-! ### Conditions of a port -/

/-- The link of an Ethernet or T1S port is up and ready (R233, R234, R248). -/
def Dev.linkUpReady (d : Dev) (p : Nat) : Bool := d.flag (F.ETH_STATUS_LINK p) && !d.flag (F.ETH_STATUS_RETRAINING p)

/-- A port takes frames in and queues copies: its link is up and ready. DESIGN CHOICE (log 75): a T1S follower that has lost its
beacon has its link down by R233, yet goes on receiving, queueing and, with FALLBACK, sending as R263 states. -/
def Dev.linkReady (d : Dev) (p : Nat) : Bool := d.linkUpReady p || (d.ethPort p).noBeacon

/-- The ledger-violation flag of a port (R69). -/
def Dev.ledgerFlag (d : Dev) (p : Nat) : Bool := (SMap.get d.anvil.breakAt none p).isSome

/-- A CAN controller is off the bus: INIT, or isolated (Table FLT-4). -/
def Dev.canInit (d : Dev) (c : Nat) : Bool := d.flag (F.CAN_CTRL_INIT c) || d.isolated (blkCan c)

/-- A CAN controller can contend (R203). -/
def Dev.canContends (d : Dev) (c : Nat) : Bool :=
  !d.canInit c && d.get (F.CAN_CTRL_MODE c) == 0 && d.get (F.CAN_STATUS_STATE c) != 2
    && (decide (12 ≤ c) || d.get (F.PWR_XCVR_CAN_MODE_ACT c) == 1 || d.get (F.PWR_XCVR_CAN_MODE_ACT c) == 2)

/-- A segment's state (Table NM-2). -/
def Dev.segState (d : Dev) (p : Nat) : Nat := d.get (F.NM_SEG_STATUS_STATE p)

/-- A segment receives frames (Table NM-3): it is neither in COMMIT nor ASLEEP. -/
def Dev.segHears (d : Dev) (p : Nat) : Bool := d.segState p != 3 && d.segState p != 4

/-- A segment communicates (Table NM-2): it is AWAKE or in READY_SLEEP. From PREPARE on nothing more is sent. -/
def Dev.segSends (d : Dev) (p : Nat) : Bool := decide (d.segState p < 2)

/-- A segment is AWAKE, or takes no part in sleep (R363). -/
def Dev.awake (d : Dev) (p : Nat) : Bool := d.segState p == 0

/-- An excusing condition of Table PROM-1 holds now on an egress port, for a frame of a priority that entered through a port. A
link that an isolation took down is an internal fault, and no excuse (R34). -/
def Dev.excusedNow (d : Dev) (p prio ingress : Nat) : Bool :=
  (decide (p < 20) && !d.linkUpReady p && !d.isolated (blkEth p))
    || (decide (p < 12) && bit (d.get (F.FWD_WM_STATE_RX_PAUSED p)) prio)
    || (decide (12 ≤ p) && decide (p < 48) && d.ledgerFlag p)
    || (decide (20 ≤ p) && decide (p < 40) && d.get (F.CAN_STATUS_STATE (p - 20)) == 2)
    || (decide (p < 48) && !d.awake p) || (decide (ingress < 48) && !d.awake ingress)

/-- An excusing condition holds now for a copy of a frame. -/
def Dev.copyExcused (d : Dev) (c : Copy) (f : Frame) : Bool := d.excusedNow c.port (c.prio.getD f.prio) f.ingress

/-- A copy is listed as the latest arrival; conditions of Table PROM-1 that hold now excuse it. -/
def Dev.enlist (d : Dev) (c : Copy) : Dev × Copy :=
  let ex := match d.frame c.handle with
    | some f => d.copyExcused c f
    | none => false
  let c1 := { c with seq := d.fwd.seq, excused := c.excused || ex }
  ({ d with fwd := { d.fwd with copies := d.fwd.copies ++ [c1], seq := d.fwd.seq + 1 } }, c1)

/-- A copy carries a conforming contract frame. -/
def Dev.contractCopy (d : Dev) (c : Copy) : Option Nat := (d.frame c.handle).bind (fun f => f.contract)

/-! ### Ethernet and T1S (R108 to R112) -/

/-- The TC of a best-effort frame of a priority on an egress port (R108). -/
def Dev.beTc (d : Dev) (p q : Nat) : Nat := min 5 (bf (d.get (F.FWD_PCP_TC_MAP p)) (3 * q) 3)

/-- Cells of best-effort frames queued on a port (R110). -/
def Dev.beCells (d : Dev) (p : Nat) : Nat :=
  (((d.copiesOn p).filter (fun c => !c.started && !c.hold)).map (fun c =>
    match d.frame c.handle with
    | some f => if f.contract == none then f.cells else 0
    | none => 0)).sum


/-- A copy is queued on a port, which ends low-power idle (R260). -/
def Dev.lpiEnd (d : Dev) (p : Nat) : Dev :=
  if d.flag (F.ETH_STATUS_LPI_TX p) then
    (d.set (F.ETH_STATUS_LPI_TX p) 0).setEthPort p { d.ethPort p with
      wakeAt := some (d.now + d.get (F.ETH_LPI_TW_US p) * usCyc) }
  else d

/-- A copy enters an Ethernet or T1S egress: it is dropped where the link is not ready (R234), where it is oversize
(R239), or where it is best effort beyond the port's limit (R110). -/
def Dev.placeEth (d : Dev) (c : Copy) : Dev :=
  let own := match d.frame c.handle with
    | some f => if f.contract == none then f.cells else 0
    | none => 0
  let lim := d.get (F.FWD_EQ_LIMIT_BE_CELLS c.port)
  let full := (own != 0) && lim != 0 && decide (lim < d.beCells c.port + own)
  let (d1, c1) := d.enlist c
  if !d.linkReady c.port then d1.dropCopy c1 .unavail
  else if !c.wait && d.get (F.ETH_MAX_LEN_LEN c.port) < c.msg.len then
    (d1.inc (F.ETH_OVS_TX_COUNT c.port)).dropCopy c1 .oversize
  else if full then d1.dropCopy c1 .tail
  else d1.lpiEnd c.port

/-! ### CAN heap (R114 to R117) -/

/-- The arbitration key of a CAN frame (R114). -/
def arbKey (form id : Nat) : Nat :=
  if form == 1 || form == 3 then bf id 18 11 * 2 ^ 21 + 3 * 2 ^ 19 + bf id 0 18 * 2 else id % 2 ^ 11 * 2 ^ 21

/-- The arbitration key of a copy. -/
def Copy.key (c : Copy) : Nat := arbKey c.msg.form c.msg.id

/-- ⌈BURST / FRAME_MIN⌉ of a contract (R113, R115). -/
def Contract.entries (c : Contract) : Nat := (rqBurst c.req + rqMin c.req - 1) / atLeastOne (rqMin c.req)

/-- Heap entries that contracts reserve on a CAN port (R115). -/
def Dev.heapReserved (d : Dev) (p : Nat) : Nat :=
  ((d.admitted.filter (fun k => bit (rqEgress k.2.req) p)).map (fun k => k.2.entries)).sum

/-- The heap of a CAN port; held copies are outside it (R372). -/
def Dev.heap (d : Dev) (p : Nat) : List Copy := (d.copiesOn p).filter (fun c => !c.hold)

/-- A contract has a reserved entry free on a port (R117). -/
def Dev.rsvFree (d : Dev) (p : Nat) (c : Copy) : Bool :=
  match d.contractCopy c with
  | none => false
  | some i =>
    match d.contract i with
    | none => false
    | some k => !k.quar && decide (((d.heap p).filter (fun x => x.rsv && d.contractCopy x == some i)).length < k.entries)

/-- The victim of R117: the best-effort entry not in transmission with the largest key, the latest among equals. -/
def Dev.heapVictim (d : Dev) (p : Nat) : Option Copy :=
  ((d.heap p).filter (fun c => !c.rsv && !c.started)).foldl (fun v c =>
    match v with
    | none => some c
    | some x => if x.key ≤ c.key then some c else v) none

/-- The tracker of an identifier on a controller (R210). -/
def Dev.canTracker (d : Dev) (c form id : Nat) : Option Nat :=
  (List.range 8).find? (fun k => d.flag (F.CAN_TRACK_VALID c k) && d.get (F.CAN_TRACK_ID c k) == id
    && SMap.get (SMap.get d.can.ctl Can.init c).forms 0 k == form)

/-- An identifier is suspended (R210). -/
def Dev.idSuspended (d : Dev) (c form id : Nat) : Bool :=
  match d.canTracker c form id with
  | some k => d.flag (F.CAN_TRACK_SUSPENDED c k)
  | none => false

/-- A format the controller has not enabled (R190, R192). -/
def Dev.canOff (d : Dev) (c form : Nat) : Bool :=
  ((form == 2 || form == 3) && !d.flag (F.CAN_CTRL_FD_EN c)) || (form == 4 && !d.flag (F.CAN_CTRL_XL_EN c))

/-- A copy is inserted into a CAN heap as R117 states. DESIGN CHOICE (log 70): a reservation that grows leaves the best-effort
entries already queued where they are, so the heap may hold more than 64 entries for a time. Nothing is inserted where
the controller cannot contend (R203), the identifier is suspended (R210) or the controller does not send the format (R190). -/
def Dev.placeCan (d : Dev) (c : Copy) : Dev :=
  let p := c.port
  let n := p - 20
  if !d.canContends n then
    let (d1, c1) := d.enlist c
    (d1.inc (F.CAN_NC_DROP_COUNT n)).dropCopy c1 .lost
  else if d.idSuspended n c.msg.form c.msg.id then
    let (d1, c1) := d.enlist c
    (d1.inc (F.CAN_COLL_DROP_COUNT n)).dropCopy c1 .lost
  else if d.canOff n c.msg.form then let (d1, c1) := d.enlist c; d1.dropCopy c1 .lost
  else if d.rsvFree p c then (d.enlist { c with rsv := true }).1
  else if ((d.heap p).filter (fun x => !x.rsv)).length < 64 - d.heapReserved p then (d.enlist { c with rsv := false }).1
  else
    match d.heapVictim p with
    | some v =>
      if c.key < v.key then ((d.dropCopy v .evict).enlist { c with rsv := false }).1
      else let (d1, c1) := d.enlist c; d1.dropCopy c1 .heapDrop
    | none => let (d1, c1) := d.enlist c; d1.dropCopy c1 .heapDrop

/-! ### LIN slots (R113) -/

/-- A LIN controller loses the data it has sent last (R222). -/
def Dev.linForget (d : Dev) (p : Nat) : Dev :=
  { d with fwd := { d.fwd with linLast := d.fwd.linLast.filter (fun x => x.1 / 64 != p) } }

/-- The entries of a LIN port's transmit slot for an identifier. -/
def Dev.linSlot (d : Dev) (p id : Nat) : List Copy := (d.copiesOn p).filter (fun c => !c.hold && c.msg.id == id)

/-- Entries that contracts reserve on a slot. -/
def Dev.slotReserved (d : Dev) (p id : Nat) : Nat :=
  ((d.admitted.filter (fun k => bit (rqEgress k.2.req) p && d.contractLin k.2 p id)).map (fun k => k.2.entries)).sum

/-- A copy enters the transmit slot of its identifier (R113). DESIGN CHOICE (log 70): a contract frame that finds no reserved
entry free is served as best effort. -/
def Dev.placeLin (d : Dev) (c : Copy) : Dev :=
  let s : List Copy := d.linSlot c.port c.msg.id
  let mine := match d.contractCopy c with
    | none => false
    | some i => match d.contract i with
      | none => false
      | some k => !k.quar && decide ((s.filter (fun (x : Copy) => x.rsv && d.contractCopy x == some i)).length < k.entries)
  if mine then (d.enlist { c with rsv := true }).1
  else if (s.filter (fun (x : Copy) => !x.rsv)).length < 4 - d.slotReserved c.port c.msg.id then
    (d.enlist { c with rsv := false }).1
  else
    match s.find? (fun (x : Copy) => !x.rsv && !x.started) with
    | some v => ((d.dropCopy v .tail).enlist { c with rsv := false }).1
    | none => let (d1, c1) := d.enlist c; d1.dropCopy c1 .tail

/-- A copy enters the egress of its port. -/
def Dev.placeCopy (d : Dev) (c : Copy) : Dev :=
  if c.port < 20 then d.placeEth c else if c.port < 40 then d.placeCan c else d.placeLin c

end Sys2Proof.Machine
end

