-- ==== Sys2Proof/Machine/NmOps.lean ====
section
/-!
DEFINITION. Segments (chapter 12): ring-62 events, wake records, the segment state machine, the hold queue, network
management messages, and the entry of a copy into the egress under its sleep policy (R83, R371, R372). Event PDUs of
the STE are queued here too (R184, R185).
-/
namespace Sys2Proof.Machine

/-! ### Events -/

/-- A ring-62 event, or its loss (R380). -/
def Dev.event62 (d : Dev) (type seg old new source flags keeper ticks : Nat) : Dev :=
  if d.eventOk 62 1 then
    d.eventPut 62 (leBytes 1 type ++ leBytes 1 seg ++ leBytes 1 old ++ leBytes 1 new ++ leBytes 1 source
      ++ leBytes 1 flags ++ leBytes 2 0 ++ leBytes 4 keeper ++ leBytes 4 ticks ++ leBytes 8 d.dtime)
  else (d.inc F.NM_EV_LOST_COUNT).fltSet blkNm 1

/-! ### Frames the device forms itself -/

/-- A stored frame before it is filled: from the device itself, whole. -/
def Frame.own (half : Nat) (m : Msg) (start epoch order : Nat) : Frame :=
  ⟨49, half, m, 0, 0, none, start, epoch, false, 0, 0, false, false, [], none, none, true, order, [], []⟩

/-- A copy before it is queued. -/
def Copy.new (handle port tc : Nat) (m : Msg) (deadline : Nat) (kind : CopyKind) : Copy :=
  ⟨handle, port, tc, m, 0, deadline, false, kind, false, false, false, false, 0, 0, 0, none, 0, none⟩

/-- An egress port is enabled and its domains are on (R83). A CAN controller out of contention is served by R203. -/
def Dev.portAvail (d : Dev) (p : Nat) : Bool :=
  d.portUp p && (if p < 20 then d.flag (F.ETH_MAC_CFG_EN p) && !d.isolated (blkEth p)
    else if p < 40 then true else !d.flag (F.LIN_CTRL_INIT (p - 40)) && !d.isolated (blkLin (p - 40)))

/-- A new copy is dropped as unavailable (R83). -/
def Dev.refuseCopy (d : Dev) (c : Copy) : Dev :=
  let (d1, c1) := d.enlist c
  d1.dropCopy c1 .unavail

/-- A frame that the device forms enters one egress as best effort; toward a segment that is not AWAKE it is dropped
(R371). One that finds no room counts for its originator (R214). -/
def Dev.originate (d : Dev) (port tc : Nat) (m : Msg) (deadline : Nat) (kind : CopyKind) : Dev :=
  let (d0, n) := d.takeOrder
  let f := Frame.own (b2n (pipeB port)) m d0.dtime (d0.get F.TIME_STATUS_EPOCH) n
  match d0.store f m.len with
  | (d1, none) => match kind with
    | .tsSync | .tsFup => d1.dropKind (Copy.new 0 port tc m deadline kind) .lost
    | _ => d1.cnt F.CNT_DROP_NORES_COUNT f.ingress
  | (d1, some h) =>
    let c := Copy.new h port tc m deadline kind
    if d1.portAvail port && d1.awake port then d1.placeCopy c else d1.refuseCopy c

/-! ### Segments -/

/-- The NM controller runs. -/
def Dev.nmRuns (d : Dev) : Bool := d.flag F.NM_CTRL_EN && d.ready 7 && !d.isolated blkNm

/-- A wake that the power die has detected reaches the NM controller: it runs, and the die link is trained (R26, R364). Else the
detector keeps the wake. -/
def Dev.nmHears (d : Dev) : Bool := d.nmRuns && d.flag F.PWR_D2D_STATUS_LINK_UP

/-- A segment takes part in sleep and wake. -/
def Dev.segOn (d : Dev) (p : Nat) : Bool := d.flag (F.NM_SEG_CFG_EN p)

def Dev.seg (d : Dev) (p : Nat) : Seg := SMap.get d.nm.segs Seg.init p
def Dev.setSeg (d : Dev) (p : Nat) (x : Seg) : Dev := { d with nm := { d.nm with segs := SMap.set d.nm.segs Seg.init p x } }

/-- Held copies of a segment, in order. -/
def Dev.heldCopies (d : Dev) (p : Nat) : List Copy := (d.copiesOn p).filter (fun c => c.hold)

/-- The kind of a segment: an integrated CAN transceiver, a controller alone, LIN, T1S, UP or GE. -/
def segCanInt (p : Nat) : Bool := decide (20 ≤ p) && decide (p < 32)
def segCan (p : Nat) : Bool := decide (20 ≤ p) && decide (p < 40)
def segLin (p : Nat) : Bool := decide (40 ≤ p)
def segEth (p : Nat) : Bool := decide (p < 12)
def segTs (p : Nat) : Bool := decide (12 ≤ p) && decide (p < 20)

/-- Requested transceiver mode of a segment that has one. -/
def Dev.setXcvr (d : Dev) (p m : Nat) : Dev :=
  if segCanInt p then d.set (F.PWR_XCVR_CAN_MODE (p - 20)) m
  else if segLin p then d.set (F.PWR_XCVR_LIN_MODE (p - 40)) m
  else d

/-- The transceiver reports its requested mode. -/
def Dev.xcvrApply (d : Dev) (p : Nat) : Dev :=
  if segCanInt p then d.set (F.PWR_XCVR_CAN_MODE_ACT (p - 20)) (d.get (F.PWR_XCVR_CAN_MODE (p - 20)))
  else if segLin p then d.set (F.PWR_XCVR_LIN_MODE_ACT (p - 40)) (d.get (F.PWR_XCVR_LIN_MODE (p - 40)))
  else d

/-- The wake mode of a segment's commit action (Table NM-1). -/
def Dev.wakeMode (d : Dev) (p : Nat) : Nat :=
  if segCanInt p then (if d.flag (F.PWR_SW_CFG_SWF_EN (p - 20)) then 5 else 4) else 3

/-- The valid steps of a recipe are written to a PHY in order (R266). -/
def Dev.recipe (d : Dev) (p base : Nat) : Dev :=
  [0, 1, 2, 3].foldl (fun d s =>
    let e := if d.tables.bad.contains (tkey 62 0 (base + s)) then 0 else d.tget 62 0 (base + s)
    if bit e 0 then
      d.emit (.mdio (if p < 4 then 0 else 1) (if bit e 1 then 2 else 0) (bf e 8 5) (bf e 16 5) (bf e 32 16) (bf e 48 16))
    else d) d

/-- A LIN checksum (R215): the inverted sum with carry of its bytes. -/
def linSum (bs : List Byte) : Nat := 255 - bs.foldl (fun a b => let x := a + b.toNat; if 256 ≤ x then x - 255 else x) 0

/-- A LIN controller beside its registers. -/
def Dev.linCtl (d : Dev) (n : Nat) : Lin := SMap.get d.lin.ctl Lin.init n
def Dev.setLinCtl (d : Dev) (n : Nat) (x : Lin) : Dev := { d with lin := { d.lin with ctl := SMap.set d.lin.ctl Lin.init n x } }

/-- The protected identifier of a LIN identifier (R215). -/
def linPid (id : Nat) : Nat :=
  let b (i : Nat) : Nat := id / 2 ^ i % 2
  id % 64 + 64 * ((b 0 + b 1 + b 2 + b 4) % 2) + 128 * ((1 + b 1 + b 3 + b 4 + b 5) % 2)

/-- A commander sends a header (R215): the break of 13 + BREAK_EXT bits, its delimiter of 1 bit, the sync byte and the protected
identifier. -/
def Dev.linSendHeader (d : Dev) (n id : Nat) : Dev :=
  d.emit (.linHeader (40 + n) (13 + d.get (F.LIN_CTRL_BREAK_EXT n)) 1 0x55 (linPid id))

/-- The PHY of a T1S port goes to low-power wake detection, or leaves it (Table NM-1). -/
def Dev.phySleep (d : Dev) (p : Nat) (low : Bool) : Dev := (d.setSeg p { d.seg p with phyLow := low }).emit (.t1sPhy p low)

/-- A reaction that another unit owes is applied before the step ends. -/
def Dev.owe (d : Dev) (t : Todo) : Dev := { d with flt := { d.flt with todo := d.flt.todo ++ [t] } }

/-- A commander's schedule starts at slot 0 of its operational table, at the next DTIME that is a multiple of its time base
(R218). A switch that is committed and has not taken effect waits for the first slot. -/
def Dev.linStart (d : Dev) (n : Nat) : Dev :=
  let tb := d.get (F.LIN_TBASE_TBASE_US n) * 1000
  let t := (d.dtime + tb - 1) / tb * tb
  let at_ := if t ≤ d.dtime then d.now else d.now + d.cyclesFor (t * 2 ^ 32 - d.time.acc % 2 ^ 96)
  (d.setLinCtl n { Lin.init with running := true, slotAt := at_, slotEnd := at_, next := (d.linCtl n).next }).set (F.LIN_STATUS_SLOT n) 0

/-- A commander with RUN = 1 out of INIT. -/
def Dev.linCommands (d : Dev) (n : Nat) : Bool :=
  d.flag (F.LIN_CTRL_ROLE n) && d.flag (F.LIN_CTRL_RUN n) && !d.flag (F.LIN_CTRL_INIT n)

/-- A LIN break with its identifier and a response: the go-to-sleep command (R368). -/
def Dev.goToSleep (d : Dev) (p : Nat) : Dev :=
  let bs := bytes [0, 0xFF, 0xFF, 0xFF, 0xFF, 0xFF, 0xFF, 0xFF]
  (d.linSendHeader (p - 40) 0x3C).emit (.linResponse p (bs ++ leBytes 1 (linSum bs)))

/-- A commander enters PREPARE: its schedule stops at the end of the current slot, and the go-to-sleep command follows; between
slots both happen at once (R368). -/
def Dev.linPrepare (d : Dev) (p : Nat) : Dev :=
  let l := d.linCtl (p - 40)
  if l.running && decide (l.slotAt < l.slotEnd) && decide (d.now < l.slotEnd) then
    d.setLinCtl (p - 40) { l with stopping := true, sleepDue := true }
  else (d.setLinCtl (p - 40) { l with running := false, stopping := false }).goToSleep p

/-- A commander's segment is AWAKE: a schedule that PREPARE has stopped, or is stopping, starts anew; one that ran through READY_SLEEP
goes on (R368). -/
def Dev.linAwake (d : Dev) (p : Nat) : Dev :=
  let l := d.linCtl (p - 40)
  if segLin p && d.linCommands (p - 40) && (!l.running || l.stopping) then d.linStart (p - 40) else d

/-- A segment's own NMM (R370). -/
def Dev.nmmSend (d : Dev) (p : Nat) (repeatBit : Bool) : Dev :=
  let ext := d.get (F.NM_NMM_TX_EXT p)
  let data := [d.get (F.NM_SEG_CFG_NODE_ID p), b2n repeatBit + 2 * d.get (F.NM_SEG_CTRL_REQ p), 0xFF, 0xFF, 0xFF, 0xFF,
    0xFF, 0xFF].take (d.get (F.NM_SEG_CFG_NMM_LEN p))
  let m := { Msg.init with form := ext, id := d.get (F.NM_NMM_TX_ID p) % (if ext == 1 then 2 ^ 29 else 2 ^ 11), data := bytes data }
  let cyc := atLeastOne (d.get (F.NM_TIMERS_B_NM_CYCLE_MS p))
  let d1 := d.setSeg p { d.seg p with nmmAt := d.now }
  d1.originate p 0 m (dl8 (d1.dtime + cyc * 1000000)) .nmm

/-- A CAN segment sends NMMs. -/
def Dev.nmmOn (d : Dev) (p : Nat) : Bool := segCan p && d.flag (F.NM_NMM_RX_NMM_EN p)

/-- The held copies enter the egress in their order (R372). -/
def Dev.releaseHeld (d : Dev) (p : Nat) : Dev :=
  (d.heldCopies p).foldl (fun d c => (d.unlistCopy c).placeCopy { c with hold := false }) d

/-- Flags of a ring-62 event. -/
def Dev.segFlags (d : Dev) (p : Nat) : Nat := d.get (F.NM_SEG_STATUS_DURING_COMMIT p) + 2 * d.get (F.NM_SEG_STATUS_FROM_STANDBY p)

/-- A segment leaves AWAKE: copies on it, and those of frames that entered on it, meet an excusing condition (R34). -/
def Dev.excuseSeg (d : Dev) (p : Nat) : Dev :=
  { d with fwd := { d.fwd with copies := d.fwd.copies.map (fun c =>
      if c.port == p || (d.frame c.handle).map (fun f => f.ingress) == some p then { c with excused := true } else c) } }

/-- The effects of entering a state (Table NM-2, R366 to R369). -/
def Dev.segEnter (d0 : Dev) (p old new : Nat) : Dev :=
  let d := if old == 0 then d0.excuseSeg p else d0
  let x := { d.seg p with since := d.now }
  let g := d.seg p
  match new with
  | 0 =>
    let d1 := d.setSeg p { x with ka := none, localWake := false, latch := none, hdrAt := d.now }
    let d2 := if old == 5 && !segCanInt p && segCan p then d1.set (F.CAN_CTRL_MODE (p - 20)) 0 else d1
    let d3 := (d2.linAwake p).releaseHeld p
    if d3.nmmOn p then d3.nmmSend p g.localWake else d3
  | 1 =>
    d.setSeg p (if old == 0 then { x with ready := d.now, ka := some d.now, kaNode := none, kaFrame := none, kaCount := [] }
      else { x with ready := d.now })
  | 2 =>
    let d1 := (d.setSeg p x).dropWhere p (fun c => !c.started && !c.hold) .unavail
    if segLin p && d1.flag (F.LIN_CTRL_ROLE (p - 40)) then d1.linPrepare p else d1
  | 3 =>
    -- the commit crosses the die link
    let d1 := (d.setSeg p { x with ka := none, latch := none, active := false, localWake := false }).dieMsg
    if segCanInt p then (d1.setXcvr p (d1.wakeMode p)).set (F.PWR_SW_STATUS_ERR_CNT (p - 20)) 0
    else if segCan p then (d1.set (F.CAN_CTRL_MODE (p - 20)) 1).owe (.canClear (p - 20))
    else if segLin p then d1.setXcvr p 3
    else if segTs p then (d1.phySleep p true).owe (.ethDown p)
    else (d1.recipe p (32 * p + 24)).owe (.ethDown p)
  | 4 => (d.setSeg p x).steEvent 0x04 p 0
  | _ =>
    let d1 := d.setSeg p { x with active := !(segCanInt p || segLin p) }
    let d2 := if segTs p then (d1.phySleep p false).owe (.tsLink p) else d1
    (d2.setXcvr p (d2.get (F.NM_SEG_CFG_ACT_MODE p))).steEvent 0x05 p g.source

/-- A segment changes state: its status, its event, and the entry effects. The event is of TYPE `type` with `flags`. -/
def Dev.segGo (d : Dev) (p new type source flags : Nat) : Dev :=
  let old := d.segState p
  let d1 := (d.set (F.NM_SEG_STATUS_STATE p) new).event62 type p old new source flags 0 d.wakeTicks
  d1.segEnter p old new

/-- A plain transition. -/
def Dev.segStep (d : Dev) (p new : Nat) : Dev := d.segGo p new 0x01 0 0

/-- The wake record of a segment (R375). -/
def Dev.wakeRecord (d : Dev) (p source : Nat) (commit standby masked : Bool) : Dev :=
  (((((d.set (F.PWR_WREC_SOURCE p) source).set (F.PWR_WREC_DURING_COMMIT p) (b2n commit)).set
    (F.PWR_WREC_FROM_STANDBY p) (b2n standby)).set (F.PWR_WREC_MASKED p) (b2n masked))).set (F.PWR_WREC_W1_TICKS p) d.wakeTicks

/-- A segment goes to WAKING for a source (R366, R373). -/
def Dev.segWake (d : Dev) (p source : Nat) (commit standby : Bool) : Dev :=
  let d1 := ((d.set (F.NM_SEG_STATUS_DURING_COMMIT p) (b2n commit)).set (F.NM_SEG_STATUS_FROM_STANDBY p) (b2n standby)).set
    (F.NM_SEG_STATUS_LAST_SOURCE p) source
  let loc := decide (0x10 ≤ source)
  let d2 := d1.setSeg p { d1.seg p with source := source, localWake := loc, latch := none }
  let d3 := d2.segGo p 5 0x02 source (d2.segFlags p)
  -- a transceiver that needs no return is active at once
  if loc && (d3.seg p).active then d3.segStep p 0 else d3

/-- What a local wake request sends on the bus (R368, R369). -/
def Dev.wakeOut (d : Dev) (p : Nat) : Dev :=
  if segLin p then
    (d.emit (.busWake p)).setSeg p { d.seg p with pulseAt := d.now, pulses := 0 }
  else if segEth p then d.recipe p (32 * p + 28)
  else if segCan p then d
  else d.emit (.busWake p)

/-- A wake during COMMIT: the record shows the latest, and the latch of the power die keeps the source that set it (R367, R375). -/
def Dev.commitWake (d : Dev) (p source : Nat) : Dev :=
  let d1 := d.wakeRecord p source true false false
  if (d1.seg p).latch.isSome then d1 else d1.setSeg p { d1.seg p with latch := some source }

/-- A local wake request from source 0x10, 0x11 or 0x12 (Table NM-3). -/
def Dev.localWake (d : Dev) (p source : Nat) : Dev :=
  if !d.segOn p || !d.nmRuns then d
  else
    match d.segState p with
    | 0 => d
    | 1 | 2 =>
      let d1 := d.setSeg p { d.seg p with localWake := true }
      (d1.wakeOut p).segStep p 0
    | 3 => d.commitWake p source
    | 4 => ((d.wakeRecord p source false false false).wakeOut p).segWake p source false false
    | _ =>
      let d1 := (d.setSeg p { d.seg p with localWake := true }).wakeOut p
      if (d1.seg p).active then d1.segStep p 0 else d1

/-- A bus wake from a source (Table NM-3, R376): masked sources are recorded only. -/
def Dev.busWake (d : Dev) (p source : Nat) (standby : Bool) : Dev :=
  if !d.segOn p then d
  else if bit (d.get (F.NM_SEG_STATUS_MASKED p)) (source - 1) then
    if d.segState p == 3 || d.segState p == 4 then
      let commit := d.segState p == 3
      let d1 := (d.wakeRecord p source commit standby true).inc F.NM_MASKED_WAKES_COUNT
      d1.event62 0x02 p (d1.segState p) (d1.segState p) source (4 + b2n commit + 2 * b2n standby) 0 d1.wakeTicks
    else d
  else
    match d.segState p with
    | 3 => d.commitWake p source
    | 4 =>
      let d1 := d.wakeRecord p source false standby false
      -- a link that comes up and a frame of CN12 to CN19 are seen on the logic die
      let here := source == 6 || source == 7
      if d1.nmHears || (here && d1.nmRuns) then (if here then d1 else d1.dieMsg).segWake p source false standby
      -- PD7, the controller or the die link is off: the detector keeps the wake (R364)
      else if (d1.seg p).latch.isSome then d1 else d1.setSeg p { d1.seg p with latch := some source }
    | _ => d

/-- The wake that a detector latched is served when the controller runs again and the die link is trained (R364, R379). -/
def Dev.serveLatched (d : Dev) (p : Nat) : Dev :=
  if d.segOn p && d.nmHears && d.segState p == 4 then
    match (d.seg p).latch with
    | some s => (if 0x10 ≤ s then d.dieMsg.wakeOut p else d.dieMsg).segWake p s false (bit d.nm.standbyWake p)
    | none => d
  else d

/-- A keeper's count goes up. -/
def kaBump (l : List (Nat × Nat)) (k : Nat) : List (Nat × Nat) :=
  if l.any (fun p => p.1 == k) then l.map (fun p => if p.1 == k then (k, min 65535 (p.2 + 1)) else p) else l ++ [(k, 1)]

/-- A valid frame has been received on a segment (Table NM-3): `nmm` holds node and control byte of an NMM, `id` the
identifier of a field frame. -/
def Dev.segReceived (d : Dev) (p : Nat) (nmm : Option (Nat × Nat)) (id : Option Nat) : Dev :=
  if !d.segOn p || !d.nmRuns then d
  else
    let traffic := decide (p < 20) || d.flag (F.NM_SEG_CFG_TRAFFIC_KEEPS p) && segCan p
    let keep := traffic || (match nmm with | some (_, c) => c % 4 != 0 | none => false)
    -- the keeper and its events (R377); application frames count from READY_SLEEP
    let x := d.seg p
    let x1 := match nmm with
      | some (n, c) => if bit c 1 then { x with kaNode := some n } else x
      | none => if x.kaFrame.isNone && d.segState p == 1 then { x with kaFrame := id } else x
    let who := match nmm with
      | some (n, _) => some n
      | none => id.map (fun i => 2 ^ 31 + i)
    let x2 := if keep then
        { x1 with kaCount := match who with | some k => kaBump x1.kaCount k | none => x1.kaCount }
      else x1
    match d.segState p with
    | 1 => d.setSeg p (if keep then { x2 with ready := d.now } else x2)
    | 2 => if keep then (d.setSeg p x2).segStep p 1 else d
    | 5 => d.segStep p 0
    | _ => d

/-! ### Entry of a copy under its sleep policy (R83, R371, R372) -/

/-- A copy goes to its egress: dropped where the port is unavailable, queued where its segment is AWAKE, else held,
held with a wake, or dropped. -/
def Dev.enqueue (d : Dev) (c : Copy) (sleep : Nat) : Dev :=
  if !d.portAvail c.port then d.refuseCopy c
  else if d.awake c.port then d.placeCopy c
  else if sleep == 1 || sleep == 2 then
    let d1 := if 32 ≤ (d.heldCopies c.port).length then (d.inc F.NM_HOLD_DROP_COUNT).refuseCopy c
      else (d.enlist { c with hold := true }).1
    if sleep == 2 then d1.localWake c.port 0x11 else d1
  else d.refuseCopy c

end Sys2Proof.Machine
end

