-- ==== Sys2Proof/Machine/NmCmd.lean ====
section
/-!
DEFINITION. What the segments' timers, wake sources and registers do (chapter 12).
-/
namespace Sys2Proof.Machine

/-! ### Timers (R366 to R370, R377) -/

/-- A segment takes part and its timers run. -/
def Dev.segRuns (d : Dev) (p : Nat) : Bool := d.segOn p && d.nmRuns

/-- An AWAKE segment without a network request leaves once MIN_AWAKE_MS has passed (Table NM-3). -/
def Dev.segIdle (d : Dev) (p : Nat) : Dev :=
  if d.segRuns p && d.segState p == 0 && !d.flag (F.NM_SEG_CTRL_REQ p)
      && decide ((d.seg p).since + atLeastOne (d.get (F.NM_TIMERS_B_MIN_AWAKE_MS p)) * msCyc ≤ d.now) then d.segStep p 1
  else d

/-- MIN_AWAKE_MS has passed. -/
def Dev.minAwake (d : Dev) (p : Nat) : Dev :=
  if d.segRuns p && d.segState p == 0 && !d.flag (F.NM_SEG_CTRL_REQ p) then
    (d.reach ((d.seg p).since + atLeastOne (d.get (F.NM_TIMERS_B_MIN_AWAKE_MS p)) * msCyc)).segIdle p
  else d

/-- The ready timer reaches READY_MS. -/
def Dev.readyExpire (d : Dev) (p : Nat) : Dev :=
  if d.segRuns p && d.segState p == 1 then
    (d.reach ((d.seg p).ready + atLeastOne (d.get (F.NM_TIMERS_A_READY_MS p)) * msCyc)).segStep p 2
  else d

/-- PREPARE_MS ends: the commit action goes to the power die (R367). -/
def Dev.prepareEnd (d : Dev) (p : Nat) : Dev :=
  if d.segRuns p && d.segState p == 2 then
    (d.reach ((d.seg p).since + atLeastOne (d.get (F.NM_TIMERS_A_PREPARE_MS p)) * msCyc)).segStep p 3
  else d

/-- The power die reports COMMIT_DONE with its latch (R367), over the die link. A controller whose transceiver has left the bus
cannot contend (R203). -/
def Dev.commitDone (d : Dev) (p : Nat) : Dev :=
  if d.segRuns p && d.nmHears && d.segState p == 3 then
    let d0 := d.xcvrApply p
    let d1 := (if segCanInt p then d0.owe (.canClear (p - 20)) else d0).dieMsg
    match (d1.seg p).latch with
    | none => d1.segStep p 4
    | some s => (if 0x10 ≤ s then d1.wakeOut p else d1).segWake p s true false
  else d

/-- An NMM is due (R370). -/
def Dev.nmmDue (d : Dev) (p : Nat) : Dev :=
  if d.segRuns p && d.nmmOn p && d.segState p == 0 then
    let d1 := d.reach ((d.seg p).nmmAt + atLeastOne (d.get (F.NM_TIMERS_B_NM_CYCLE_MS p)) * msCyc)
    d1.nmmSend p false
  else d

/-- A responder has seen no header for 4 s (R368). -/
def Dev.headerTimeout (d : Dev) (n : Nat) : Dev :=
  let p := 40 + n
  if d.segRuns p && !d.flag (F.LIN_CTRL_ROLE n) && decide (d.segState p < 2) then
    (d.reach ((d.seg p).hdrAt + 4 * sCyc)).segStep p 2
  else d

/-- A responder repeats its wake pulse, 3 times at most, until a header arrives (R368). -/
def Dev.pulseRepeat (d : Dev) (n : Nat) : Dev :=
  let p := 40 + n
  let x := d.seg p
  if d.segRuns p && !d.flag (F.LIN_CTRL_ROLE n) && decide (x.pulses < 3) && (d.segState p == 0 || d.segState p == 5) then
    let d1 := d.reach (x.pulseAt + 200 * msCyc)
    (d1.emit (.busWake p)).setSeg p { x with pulseAt := d1.now, pulses := x.pulses + 1 }
  else d

/-- The keeper that the keep-awake log names (R377). -/
def Seg.keeper (x : Seg) : Nat :=
  match x.kaNode, x.kaFrame with
  | some n, _ => n
  | none, some i => 2 ^ 31 + i
  | none, none => 2 ^ 32 - 1

/-- The keep-awake timer reaches KA_LIMIT_S: one log entry and one event (R377). -/
def Dev.keepAwake (d : Dev) (p : Nat) : Dev :=
  match (d.seg p).ka with
  | none => d
  | some t =>
    if d.segRuns p && (d.segState p == 1 || d.segState p == 2) then
      let d1 := d.reach (t + atLeastOne (d.get F.NM_TIMEOUTS_KA_LIMIT_S) * sCyc)
      let x := d1.seg p
      let who := x.keeper
      let cnt := (x.kaCount.find? (fun (k : Nat × Nat) => k.1 == who)).map (fun k => k.2)
      let n := d1.get F.PWR_KA_STATUS_ENTRIES
      let k := if n == 0 then 0 else (d1.get F.PWR_KA_STATUS_NEWEST + 1) % 32
      let d2 := ((((d1.set (F.PWR_KA_LOG_SEGMENT k) p).set (F.PWR_KA_LOG_W1_KEEPER k) who).set (F.PWR_KA_LOG_W2_TICKS k)
        d1.wakeTicks).set (F.PWR_KA_LOG_W3_EVENTS k) (cnt.getD 0)).setSeg p { x with ka := none }
      let d3 := ((d2.set F.PWR_KA_STATUS_ENTRIES (min 32 (n + 1))).set F.PWR_KA_STATUS_NEWEST k).inc F.PWR_KA_STATUS_TOTAL
      d3.event62 0x05 p (d3.segState p) (d3.segState p) 0 0 who d3.wakeTicks
    else d

/-! ### Wake sources (R373 to R376) -/

/-- A bus wake source that a segment recognises while ASLEEP, and from the start of its COMMIT (Tables NM-1 and NM-5): the
transceiver is in, or on its way to, STANDBY or SELECTIVE; WUF_ERR stands while the frame-error counter exceeds 31. -/
def Dev.wakeArmed (d : Dev) (p source : Nat) : Bool :=
  let mode := d.get (F.PWR_XCVR_CAN_MODE (p - 20))
  if source == 1 then segCanInt p && (mode == 4 || mode == 5) && d.flag (F.PWR_SW_CFG_WUP_EN (p - 20))
  else if source == 2 then segCanInt p && mode == 5
  else if source == 3 then segCanInt p && mode == 5 && decide (31 < d.get (F.PWR_SW_STATUS_ERR_CNT (p - 20)))
  else if source == 4 then segLin p
  else if source == 5 then segTs p
  else if source == 6 then segEth p
  else if source == 7 then segCan p && !segCanInt p && d.ready 7 && d.get (F.CAN_CTRL_MODE (p - 20)) == 1
  else source == 8

/-- The device is in STANDBY (Table NM-6). -/
def Dev.standby (d : Dev) : Bool := d.get F.NM_PWR_STATUS_STATE == 2

/-- A bus wake is recognised; in STANDBY the segment is noted as one whose wake starts the device (R379). -/
def Dev.wakeSeen (d : Dev) (p source : Nat) : Dev :=
  if !d.wakeArmed p source then d
  else
    let d1 := d.busWake p source d.standby
    if d.standby && d1.segState p == 4 && (d1.seg p).latch.isSome then
      { d1 with nm := { d1.nm with standbyWake := setBit d1.nm.standbyWake p true } }
    else d1

/-- A locally mapped WAKE_IN edge. Where the controller does not hear it, the latch of a segment in COMMIT or ASLEEP keeps it
(R364, R367, R379). -/
def Dev.pinWake (d : Dev) (p : Nat) : Dev :=
  if d.nmHears then d.dieMsg.localWake p 0x12
  else if d.segOn p && d.segState p == 3 then d.commitWake p 0x12
  else if d.segOn p && d.segState p == 4 then
    let d0 := d.wakeRecord p 0x12 false d.standby false
    let d1 := if (d0.seg p).latch.isSome then d0 else d0.setSeg p { d0.seg p with latch := some 0x12 }
    if d.standby then { d1 with nm := { d1.nm with standbyWake := setBit d1.nm.standbyWake p true } } else d1
  else d

/-- A WAKE_IN pin has gone to a level and held it for `ms` ms: it counts at the pin's active level and from FILT_MS on (R373). -/
def Dev.pinCounts (d : Dev) (n : Nat) (high : Bool) (ms : Nat) : Bool :=
  d.flag (F.PWR_WAKE_IN_CFG_EN n) && high != d.flag (F.PWR_WAKE_IN_CFG_POL n)
    && decide (atLeastOne (d.get (F.PWR_WAKE_IN_CFG_FILT_MS n)) ≤ ms)

/-- A WAKE_IN edge (R373, Table NM-9): bit 63 of `standbyWake` stands for the device. -/
def Dev.wakeIn (d : Dev) (n : Nat) (high : Bool) (ms : Nat) : Dev :=
  let p := d.get (F.PWR_WAKE_IN_CFG_SEGMENT n)
  if !d.pinCounts n high ms then d
  else if p == 63 then
    if d.standby then { d with nm := { d.nm with standbyWake := setBit d.nm.standbyWake 63 true } } else d
  else if 48 ≤ p then d
  else if d.flag (F.PWR_WAKE_IN_CFG_LOCAL n) then d.pinWake p
  else d.wakeSeen p 8

/-- A frame that a transceiver in SELECTIVE decodes without an error is a wake-up frame (R374). -/
def Dev.wufMatch (d : Dev) (c : Nat) (f : WakeFrame) : Bool :=
  let mask := d.get (F.PWR_SW_MASK_MASK c)
  let want := d.get (F.PWR_SW_DATA_DATA c)
  f.ext == d.flag (F.PWR_SW_CFG_EXT c) && (f.id &&& mask) == (d.get (F.PWR_SW_ID_ID c) &&& mask)
    && (!d.flag (F.PWR_SW_CFG_DLC_EN c) || f.dlc == d.get (F.PWR_SW_CFG_DLC c))
    && (if f.dlc == 0 then want == 0 else (leNat (f.data.take (min 8 f.dlc)) &&& want) != 0)

/-- A transceiver in SELECTIVE decodes a frame (R374): at another rate than RATE it has an error, and so has an FD frame unless
FD_PASSIVE is 1, which ignores it. The frame-error counter moves, and a wake-up frame wakes the segment. -/
def Dev.wufFrame (d : Dev) (c : Nat) (f : WakeFrame) : Dev :=
  let p := 20 + c
  let n := F.PWR_SW_STATUS_ERR_CNT c
  if d.get (F.PWR_XCVR_CAN_MODE_ACT c) != 5 || (f.fd && d.flag (F.PWR_SW_CFG_FD_PASSIVE c)) then d
  else if f.bad || f.fd || f.rate.val != d.get (F.PWR_SW_CFG_RATE c) then
    let d1 := d.inc n
    if 31 < d1.get n then d1.wakeSeen p 3 else d1
  else
    let d1 := d.dec n
    if d1.wufMatch c f then d1.wakeSeen p 2 else d1

/-- A wake detector reports a source: a wake-up frame is one decoded without an error (R373, R374). -/
def Dev.wakeReport (d : Dev) (p source : Nat) : Dev :=
  let d1 := if source == 2 && d.wakeArmed p 2 then d.dec (F.PWR_SW_STATUS_ERR_CNT (p - 20)) else d
  d1.wakeSeen p source

/-- A false wake of a source, which may mask it (R376). -/
def Dev.falseWake (d : Dev) (p : Nat) : Dev :=
  let x := d.seg p
  let s := x.source
  let win := atLeastOne (d.get F.NM_FW_CFG_FW_WINDOW_S) * sCyc
  let l := x.falses.filter (fun k => decide (d.now ≤ k.2 + win)) ++ [(s, d.now)]
  let d1 := ((d.inc F.NM_FALSE_WAKES_COUNT).setSeg p { x with falses := l }).event62 0x03 p 5 2 s (d.segFlags p) 0 d.wakeTicks
  let d2 := if atLeastOne (d1.get F.NM_FW_CFG_FW_LIMIT) ≤ (l.filter (fun k => k.1 == s)).length
      && !bit (d1.get (F.NM_SEG_STATUS_MASKED p)) (s - 1) then
      ((((d1.setBitOf (F.NM_SEG_STATUS_MASKED p) (s - 1) true).setSeg p { d1.seg p with masks := x.masks ++ [(s, d1.now)] }).fault
        blkNm 0)).event62 0x04 p 5 2 s (d.segFlags p) 0 d.wakeTicks
    else d1
  d2.segStep p 2

/-- T_CONFIRM_MS ends and the wake is unconfirmed (R376). -/
def Dev.confirmTimeout (d : Dev) (p : Nat) : Dev :=
  if d.segRuns p && d.segState p == 5 && !(d.seg p).localWake then
    (d.reach ((d.seg p).since + atLeastOne (d.get F.NM_TIMEOUTS_T_CONFIRM_MS) * msCyc)).falseWake p
  else d

/-- A mask ends, and the source's count with it (R376). -/
def Dev.maskEnd (d : Dev) (p s : Nat) : Dev :=
  let x := d.seg p
  (d.setBitOf (F.NM_SEG_STATUS_MASKED p) (s - 1) false).setSeg p
    { x with masks := x.masks.filter (fun k => k.1 != s), falses := x.falses.filter (fun k => k.1 != s) }

/-- MASK_S has passed since a mask began. -/
def Dev.maskTimeout (d : Dev) (p s : Nat) : Dev :=
  match (d.seg p).masks.find? (fun k => k.1 == s) with
  | none => d
  | some (_, t) =>
    if d.get F.NM_MASK_CFG_MASK_S == 0 || !d.ready 7 then d
    else (d.reach (t + d.get F.NM_MASK_CFG_MASK_S * sCyc)).maskEnd p s

/-! ### Registers (R363, R366, R376, R379) -/

/-- A write of `SEG_CFG_p`. -/
def Dev.segCfg (d : Dev) (p v : Nat) : Dev :=
  let old := d.segOn p
  let en := bit v 0
  let d1 := ((d.set (F.NM_SEG_CFG_TRAFFIC_KEEPS p) (bf v 1 1)).set (F.NM_SEG_CFG_ETH_POLICY p) (bf v 2 2)).set
    (F.NM_SEG_CFG_NODE_ID p) (bf v 8 8)
  let m := bf v 4 3
  let d2 := if m == 1 || m == 2 then d1.set (F.NM_SEG_CFG_ACT_MODE p) m else d1
  let n := bf v 16 4
  let d3 := if 2 ≤ n && n ≤ 8 then d2.set (F.NM_SEG_CFG_NMM_LEN p) n else d2
  let d4 :=
    if d3.segState p != 0 then d3.set (F.NM_SEG_STATUS_CFG_IGNORED p) 1
    else if en == old then d3
    else (d3.set (F.NM_SEG_CFG_EN p) (b2n en)).setSeg p { d3.seg p with since := d3.now }
  -- an awake segment's transceiver runs in ACT_MODE
  if d4.segOn p && d4.segState p == 0 then d4.setXcvr p (d4.get (F.NM_SEG_CFG_ACT_MODE p)) else d4

/-- A write of `SEG_CTRL_p`. -/
def Dev.segCtrl (d : Dev) (p v : Nat) : Dev :=
  let old := d.flag (F.NM_SEG_CTRL_REQ p)
  let d1 := d.set (F.NM_SEG_CTRL_REQ p) (bf v 0 1)
  let d2 := if bit v 1 then (d1.seg p).masks.foldl (fun d k => d.maskEnd p k.1) d1 else d1
  if bit v 0 && !old then d2.localWake p 0x10 else d2.segIdle p

/-- A write of `NM.CTRL.EN`: latched wakes are served when the controller runs again (R364, R379). -/
def Dev.nmCtrl (d : Dev) (v : Nat) : Dev :=
  let d1 := d.set F.NM_CTRL_EN (bf v 0 1)
  if bit v 0 && !d.flag F.NM_CTRL_EN then
    let d2 := (List.range 48).foldl (fun d p => d.serveLatched p) d1
    { d2 with nm := { d2.nm with standbyWake := 0 } }
  else d1

/-- A segment whose line-side domain is switched off is forced to ASLEEP, its wake detectors armed (R364). -/
def Dev.segForce (d : Dev) (p : Nat) : Dev :=
  if !d.segOn p || d.segState p == 4 then d
  else
    let d1 := d.dropWhere p (fun c => !c.started && !c.hold) .unavail
    let d2 := if segCanInt p || segLin p then (d1.setXcvr p (d1.wakeMode p)).xcvrApply p
      else if segTs p then d1.phySleep p true
      else d1
    let d3 := if segCanInt p then d2.set (F.PWR_SW_STATUS_ERR_CNT (p - 20)) 0 else d2
    -- a wake that COMMIT has latched is not lost (R367)
    let l := if d.segState p == 3 then (d3.seg p).latch else none
    ((d3.setSeg p { d3.seg p with ka := none, latch := l, localWake := false, active := false }).segGo p 4 0x01 0 8).serveLatched p

/-- The instants of a segment's timers, later by `n` cycles for which no timer ran (R364). -/
def Seg.later (x : Seg) (n : Nat) : Seg :=
  { x with
    since := x.since + n, ready := x.ready + n, ka := x.ka.map (fun t => t + n), nmmAt := x.nmmAt + n, hdrAt := x.hdrAt + n
    pulseAt := x.pulseAt + n, falses := x.falses.map (fun k => (k.1, k.2 + n)), masks := x.masks.map (fun k => (k.1, k.2 + n)) }

/-- PD7 loses its power: from here on no timer of the segments runs (R364). -/
def Dev.nmStop (d : Dev) : Dev := { d with nm := { d.nm with stopAt := some (d.nm.stopAt.getD d.now) } }

/-- PD7 has power again: the timers go on from where they stood. -/
def Dev.nmGoOn (d : Dev) : Dev :=
  match d.nm.stopAt with
  | none => d
  | some t =>
    (List.range 48).foldl (fun d p => d.setSeg p ((d.seg p).later (d.now - t))) { d with nm := { d.nm with stopAt := none } }

end Sys2Proof.Machine
end

