-- ==== Sys2Proof/Machine/Crypto.lean ====
section
/-!
DEFINITION. The algorithms of Table CRY-1, from the standards it cites (log 18): AES and its modes (FIPS 197,
SP 800-38A, B and D), SHA-256 and SHA-384 (FIPS 180-4), HMAC (FIPS 198-1), ECDSA P-256 verification (FIPS 186-5), and
the key derivation of R342 (SP 800-108). Byte strings are in the order the standards define (R312).
-/
namespace Sys2Proof.Machine

/-! ### AES (FIPS 197) -/

/-- The S-box. -/
def aesSbox : List Nat :=
  [0x63, 0x7c, 0x77, 0x7b, 0xf2, 0x6b, 0x6f, 0xc5, 0x30, 0x01, 0x67, 0x2b, 0xfe, 0xd7, 0xab, 0x76] ++
  [0xca, 0x82, 0xc9, 0x7d, 0xfa, 0x59, 0x47, 0xf0, 0xad, 0xd4, 0xa2, 0xaf, 0x9c, 0xa4, 0x72, 0xc0] ++
  [0xb7, 0xfd, 0x93, 0x26, 0x36, 0x3f, 0xf7, 0xcc, 0x34, 0xa5, 0xe5, 0xf1, 0x71, 0xd8, 0x31, 0x15] ++
  [0x04, 0xc7, 0x23, 0xc3, 0x18, 0x96, 0x05, 0x9a, 0x07, 0x12, 0x80, 0xe2, 0xeb, 0x27, 0xb2, 0x75] ++
  [0x09, 0x83, 0x2c, 0x1a, 0x1b, 0x6e, 0x5a, 0xa0, 0x52, 0x3b, 0xd6, 0xb3, 0x29, 0xe3, 0x2f, 0x84] ++
  [0x53, 0xd1, 0x00, 0xed, 0x20, 0xfc, 0xb1, 0x5b, 0x6a, 0xcb, 0xbe, 0x39, 0x4a, 0x4c, 0x58, 0xcf] ++
  [0xd0, 0xef, 0xaa, 0xfb, 0x43, 0x4d, 0x33, 0x85, 0x45, 0xf9, 0x02, 0x7f, 0x50, 0x3c, 0x9f, 0xa8] ++
  [0x51, 0xa3, 0x40, 0x8f, 0x92, 0x9d, 0x38, 0xf5, 0xbc, 0xb6, 0xda, 0x21, 0x10, 0xff, 0xf3, 0xd2] ++
  [0xcd, 0x0c, 0x13, 0xec, 0x5f, 0x97, 0x44, 0x17, 0xc4, 0xa7, 0x7e, 0x3d, 0x64, 0x5d, 0x19, 0x73] ++
  [0x60, 0x81, 0x4f, 0xdc, 0x22, 0x2a, 0x90, 0x88, 0x46, 0xee, 0xb8, 0x14, 0xde, 0x5e, 0x0b, 0xdb] ++
  [0xe0, 0x32, 0x3a, 0x0a, 0x49, 0x06, 0x24, 0x5c, 0xc2, 0xd3, 0xac, 0x62, 0x91, 0x95, 0xe4, 0x79] ++
  [0xe7, 0xc8, 0x37, 0x6d, 0x8d, 0xd5, 0x4e, 0xa9, 0x6c, 0x56, 0xf4, 0xea, 0x65, 0x7a, 0xae, 0x08] ++
  [0xba, 0x78, 0x25, 0x2e, 0x1c, 0xa6, 0xb4, 0xc6, 0xe8, 0xdd, 0x74, 0x1f, 0x4b, 0xbd, 0x8b, 0x8a] ++
  [0x70, 0x3e, 0xb5, 0x66, 0x48, 0x03, 0xf6, 0x0e, 0x61, 0x35, 0x57, 0xb9, 0x86, 0xc1, 0x1d, 0x9e] ++
  [0xe1, 0xf8, 0x98, 0x11, 0x69, 0xd9, 0x8e, 0x94, 0x9b, 0x1e, 0x87, 0xe9, 0xce, 0x55, 0x28, 0xdf] ++
  [0x8c, 0xa1, 0x89, 0x0d, 0xbf, 0xe6, 0x42, 0x68, 0x41, 0x99, 0x2d, 0x0f, 0xb0, 0x54, 0xbb, 0x16]

/-- SubBytes of one byte. -/
def subByte (x : Nat) : Nat := aesSbox.getD (x % 256) 0

/-- The inverse of SubBytes. -/
def invSubByte (x : Nat) : Nat := aesSbox.findIdx (· == x)

/-- Multiplication by x in GF(2⁸). -/
def xtime (a : Nat) : Nat := if 128 ≤ a then (2 * a) ^^^ 0x11B else 2 * a

/-- Multiplication in GF(2⁸) by a constant below 16. -/
def gfMul (a c : Nat) : Nat :=
  let a2 := xtime a
  let a4 := xtime a2
  let a8 := xtime a4
  (if bit c 0 then a else 0) ^^^ (if bit c 1 then a2 else 0) ^^^ (if bit c 2 then a4 else 0) ^^^ (if bit c 3 then a8 else 0)

/-- Bytes as numbers, and back. -/
def nats (bs : List Byte) : List Nat := bs.map (fun b => b.toNat)

/-- Bitwise exclusive or of two strings. -/
def xorBytes (a b : List Nat) : List Nat := List.zipWith (fun x y => x ^^^ y) a b

/-- The words of the key schedule, latest first: `n` further words for a key of `nk` words. -/
def aesExpand (nk : Nat) : Nat → Nat → Nat → List (List Nat) → List (List Nat)
  | 0, _, _, ws => ws
  | n + 1, i, rcon, ws =>
    let prev := ws.getD 0 []
    let back := ws.getD (nk - 1) []
    let t :=
      if i % nk == 0 then
        match (prev.drop 1 ++ prev.take 1).map subByte with
        | x :: xs => (x ^^^ rcon) :: xs
        | [] => []
      else if nk == 8 && i % nk == 4 then prev.map subByte
      else prev
    aesExpand nk n (i + 1) (if i % nk == 0 then xtime rcon else rcon) (xorBytes back t :: ws)

/-- The first `n` pieces of four bytes of a string. -/
def wordsOf : Nat → List Nat → List (List Nat)
  | 0, _ => []
  | n + 1, l => l.take 4 :: wordsOf n (l.drop 4)

/-- The round keys of a 16 B or 32 B key, first to last. -/
def roundKeys (key : List Nat) : List (List Nat) :=
  let nk := key.length / 4
  let nr := nk + 6
  let ws := (aesExpand nk (4 * (nr + 1) - nk) nk 1 (wordsOf nk key).reverse).reverse
  (List.range (nr + 1)).map (fun r => ((ws.drop (4 * r)).take 4).flatten)

/-- ShiftRows and its inverse, as the source index of each byte. -/
def shiftRows (s : List Nat) : List Nat := (List.range 16).map (fun i => s.getD ((i + 4 * (i % 4)) % 16) 0)
def invShiftRows (s : List Nat) : List Nat := (List.range 16).map (fun i => s.getD ((i + 16 - 4 * (i % 4)) % 16) 0)

/-- One byte of a column times the circulant row a, b, c, e. -/
def mixByte (s : List Nat) (a b c e i : Nat) : Nat :=
  let col := i / 4 * 4
  let x (k : Nat) := s.getD (col + (i + k) % 4) 0
  gfMul (x 0) a ^^^ gfMul (x 1) b ^^^ gfMul (x 2) c ^^^ gfMul (x 3) e

/-- MixColumns and its inverse. -/
def mixColumns (s : List Nat) : List Nat := (List.range 16).map (mixByte s 2 3 1 1)
def invMixColumns (s : List Nat) : List Nat := (List.range 16).map (mixByte s 14 11 13 9)

/-- The rounds of the cipher after the first key addition. -/
def aesRounds : List (List Nat) → List Nat → List Nat
  | [], s => s
  | [k], s => xorBytes (shiftRows (s.map subByte)) k
  | k :: ks, s => aesRounds ks (xorBytes (mixColumns (shiftRows (s.map subByte))) k)

/-- One block through the cipher. -/
def aesBlock (ks : List (List Nat)) (b : List Nat) : List Nat := aesRounds (ks.drop 1) (xorBytes b (ks.getD 0 []))

/-- The rounds of the inverse cipher, from round keys last to first. -/
def aesInvRounds : List (List Nat) → List Nat → List Nat
  | [], s => s
  | [k], s => xorBytes ((invShiftRows s).map invSubByte) k
  | k :: ks, s => aesInvRounds ks (invMixColumns (xorBytes ((invShiftRows s).map invSubByte) k))

/-- One block through the inverse cipher. -/
def aesInvBlock (ks : List (List Nat)) (b : List Nat) : List Nat :=
  match ks.reverse with
  | [] => b
  | k :: rest => aesInvRounds rest (xorBytes b k)

/-- Pieces of 16 bytes, the last one possibly shorter. -/
def blocks16 (l : List Nat) : List (List Nat) :=
  (List.range ((l.length + 15) / 16)).map (fun i => (l.drop (16 * i)).take 16)

/-! ### Modes (SP 800-38A, B, D) -/

/-- ECB in either direction. -/
def aesEcb (key data : List Nat) (dec : Bool) : List Nat :=
  let ks := roundKeys key
  (blocks16 data).flatMap (if dec then aesInvBlock ks else aesBlock ks)

/-- CBC encryption. -/
def aesCbcEnc (ks : List (List Nat)) : List (List Nat) → List Nat → List Nat
  | [], _ => []
  | b :: bs, iv =>
    let c := aesBlock ks (xorBytes b iv)
    c ++ aesCbcEnc ks bs c

/-- CBC decryption. -/
def aesCbcDec (ks : List (List Nat)) : List (List Nat) → List Nat → List Nat
  | [], _ => []
  | b :: bs, iv => xorBytes (aesInvBlock ks b) iv ++ aesCbcDec ks bs b

/-- A 128-bit number as a block, and back. -/
def natBlock (x : Nat) : List Nat := nats (beBytes 16 x)
def blockNat (b : List Nat) : Nat := b.foldl (fun a x => a * 256 + x) 0

/-- CTR: the counter block goes up by one modulo 2 to the power `w`. -/
def aesCtr (ks : List (List Nat)) (w : Nat) : List (List Nat) → Nat → List Nat
  | [], _ => []
  | b :: bs, ctr =>
    xorBytes b (aesBlock ks (natBlock ctr))
      ++ aesCtr ks w bs (ctr / 2 ^ w * 2 ^ w + (ctr + 1) % 2 ^ w)

/-- Doubling in GF(2¹²⁸), CMAC's convention. -/
def cmacDouble (x : Nat) : Nat := (2 * x) % 2 ^ 128 ^^^ (if bit x 127 then 0x87 else 0)

/-- CMAC's chain over all blocks but the last. -/
def cmacChain (ks : List (List Nat)) (k1 k2 : List Nat) : List (List Nat) → List Nat → List Nat
  | [], x => x
  | [b], x =>
    if b.length == 16 then aesBlock ks (xorBytes (xorBytes b k1) x)
    else aesBlock ks (xorBytes (xorBytes (b ++ 0x80 :: List.replicate (15 - b.length) 0) k2) x)
  | b :: bs, x => cmacChain ks k1 k2 bs (aesBlock ks (xorBytes b x))

/-- CMAC, 16 bytes (SP 800-38B). -/
def cmac (key msg : List Nat) : List Nat :=
  let ks := roundKeys key
  let l := blockNat (aesBlock ks (List.replicate 16 0))
  let k1 := cmacDouble l
  let bs := if msg.isEmpty then [[]] else blocks16 msg
  cmacChain ks (natBlock k1) (natBlock (cmacDouble k1)) bs (List.replicate 16 0)

/-- Multiplication in GHASH's field: `n` bits of `x` are left, from the most significant. -/
def ghMul : Nat → Nat → Nat → Nat → Nat
  | 0, _, _, z => z
  | n + 1, x, v, z =>
    ghMul n x (v / 2 ^^^ (if v % 2 == 1 then 0xE1 * 2 ^ 120 else 0)) (if bit x n then z ^^^ v else z)

/-- GHASH of a string of whole blocks. -/
def ghash (h : Nat) (bs : List (List Nat)) : Nat := bs.foldl (fun y b => ghMul 128 (y ^^^ blockNat b) h 0) 0

/-- A string padded with 0 to whole blocks. -/
def pad16 (l : List Nat) : List Nat := l ++ List.replicate ((16 - l.length % 16) % 16) 0

/-- GCM: the output and the 16 B tag, with the tag over the ciphertext (SP 800-38D, 96-bit IV). -/
def gcm (key iv aad data : List Nat) (dec : Bool) : List Nat × List Nat :=
  let ks := roundKeys key
  let h := blockNat (aesBlock ks (List.replicate 16 0))
  let j0 := blockNat iv * 2 ^ 32 + 1
  let out := aesCtr ks 32 (blocks16 data) (blockNat iv * 2 ^ 32 + 2)
  let ct := if dec then data else out
  let s := ghash h (blocks16 (pad16 aad ++ pad16 ct ++ nats (beBytes 8 (8 * aad.length) ++ beBytes 8 (8 * ct.length))))
  (out, natBlock (s ^^^ blockNat (aesBlock ks (natBlock j0))))

/-! ### SHA-2 (FIPS 180-4) -/

/-- Round constants and initial values. -/
def k256 : List Nat :=
  [0x428a2f98, 0x71374491, 0xb5c0fbcf, 0xe9b5dba5, 0x3956c25b, 0x59f111f1, 0x923f82a4, 0xab1c5ed5] ++
  [0xd807aa98, 0x12835b01, 0x243185be, 0x550c7dc3, 0x72be5d74, 0x80deb1fe, 0x9bdc06a7, 0xc19bf174] ++
  [0xe49b69c1, 0xefbe4786, 0x0fc19dc6, 0x240ca1cc, 0x2de92c6f, 0x4a7484aa, 0x5cb0a9dc, 0x76f988da] ++
  [0x983e5152, 0xa831c66d, 0xb00327c8, 0xbf597fc7, 0xc6e00bf3, 0xd5a79147, 0x06ca6351, 0x14292967] ++
  [0x27b70a85, 0x2e1b2138, 0x4d2c6dfc, 0x53380d13, 0x650a7354, 0x766a0abb, 0x81c2c92e, 0x92722c85] ++
  [0xa2bfe8a1, 0xa81a664b, 0xc24b8b70, 0xc76c51a3, 0xd192e819, 0xd6990624, 0xf40e3585, 0x106aa070] ++
  [0x19a4c116, 0x1e376c08, 0x2748774c, 0x34b0bcb5, 0x391c0cb3, 0x4ed8aa4a, 0x5b9cca4f, 0x682e6ff3] ++
  [0x748f82ee, 0x78a5636f, 0x84c87814, 0x8cc70208, 0x90befffa, 0xa4506ceb, 0xbef9a3f7, 0xc67178f2]
def h256 : List Nat :=
  [0x6a09e667, 0xbb67ae85, 0x3c6ef372, 0xa54ff53a, 0x510e527f, 0x9b05688c, 0x1f83d9ab, 0x5be0cd19]
def k512 : List Nat :=
  [0x428a2f98d728ae22, 0x7137449123ef65cd, 0xb5c0fbcfec4d3b2f, 0xe9b5dba58189dbbc] ++
  [0x3956c25bf348b538, 0x59f111f1b605d019, 0x923f82a4af194f9b, 0xab1c5ed5da6d8118] ++
  [0xd807aa98a3030242, 0x12835b0145706fbe, 0x243185be4ee4b28c, 0x550c7dc3d5ffb4e2] ++
  [0x72be5d74f27b896f, 0x80deb1fe3b1696b1, 0x9bdc06a725c71235, 0xc19bf174cf692694] ++
  [0xe49b69c19ef14ad2, 0xefbe4786384f25e3, 0x0fc19dc68b8cd5b5, 0x240ca1cc77ac9c65] ++
  [0x2de92c6f592b0275, 0x4a7484aa6ea6e483, 0x5cb0a9dcbd41fbd4, 0x76f988da831153b5] ++
  [0x983e5152ee66dfab, 0xa831c66d2db43210, 0xb00327c898fb213f, 0xbf597fc7beef0ee4] ++
  [0xc6e00bf33da88fc2, 0xd5a79147930aa725, 0x06ca6351e003826f, 0x142929670a0e6e70] ++
  [0x27b70a8546d22ffc, 0x2e1b21385c26c926, 0x4d2c6dfc5ac42aed, 0x53380d139d95b3df] ++
  [0x650a73548baf63de, 0x766a0abb3c77b2a8, 0x81c2c92e47edaee6, 0x92722c851482353b] ++
  [0xa2bfe8a14cf10364, 0xa81a664bbc423001, 0xc24b8b70d0f89791, 0xc76c51a30654be30] ++
  [0xd192e819d6ef5218, 0xd69906245565a910, 0xf40e35855771202a, 0x106aa07032bbd1b8] ++
  [0x19a4c116b8d2d0c8, 0x1e376c085141ab53, 0x2748774cdf8eeb99, 0x34b0bcb5e19b48a8] ++
  [0x391c0cb3c5c95a63, 0x4ed8aa4ae3418acb, 0x5b9cca4f7763e373, 0x682e6ff3d6b2b8a3] ++
  [0x748f82ee5defb2fc, 0x78a5636f43172f60, 0x84c87814a1f0ab72, 0x8cc702081a6439ec] ++
  [0x90befffa23631e28, 0xa4506cebde82bde9, 0xbef9a3f7b2c67915, 0xc67178f2e372532b] ++
  [0xca273eceea26619c, 0xd186b8c721c0c207, 0xeada7dd6cde0eb1e, 0xf57d4f7fee6ed178] ++
  [0x06f067aa72176fba, 0x0a637dc5a2c898a6, 0x113f9804bef90dae, 0x1b710b35131c471b] ++
  [0x28db77f523047d84, 0x32caab7b40c72493, 0x3c9ebe0a15c9bebc, 0x431d67c49c100d4c] ++
  [0x4cc5d4becb3e42b6, 0x597f299cfc657e2a, 0x5fcb6fab3ad6faec, 0x6c44198c4a475817]
def h384 : List Nat :=
  [0xcbbb9d5dc1059ed8, 0x629a292a367cd507, 0x9159015a3070dd17, 0x152fecd8f70e5939] ++
  [0x67332667ffc00b31, 0x8eb44a8768581511, 0xdb0c2e0d64f98fa7, 0x47b5481dbefa4fa4]

/-- Rotation to the right of a word of `w` bits. -/
def rotr (w n x : Nat) : Nat := x / 2 ^ n + x % 2 ^ n * 2 ^ (w - n)

/-- What distinguishes SHA-256 from SHA-384: word width and the rotation amounts of its functions. -/
structure ShaFn where
  w : Nat
  s0 : Nat × Nat × Nat
  s1 : Nat × Nat × Nat
  b0 : Nat × Nat × Nat
  b1 : Nat × Nat × Nat
  deriving DecidableEq, Repr

def sha256Fn : ShaFn := ⟨32, (7, 18, 3), (17, 19, 10), (2, 13, 22), (6, 11, 25)⟩
def sha384Fn : ShaFn := ⟨64, (1, 8, 7), (19, 61, 6), (28, 34, 39), (14, 18, 41)⟩

/-- Two rotations and a shift, and three rotations. -/
def sigmaS (w : Nat) (r : Nat × Nat × Nat) (x : Nat) : Nat := rotr w r.1 x ^^^ rotr w r.2.1 x ^^^ x / 2 ^ r.2.2
def sigmaB (w : Nat) (r : Nat × Nat × Nat) (x : Nat) : Nat := rotr w r.1 x ^^^ rotr w r.2.1 x ^^^ rotr w r.2.2 x

/-- The message schedule, latest first. -/
def shaSched (f : ShaFn) : Nat → List Nat → List Nat
  | 0, ws => ws
  | n + 1, ws =>
    let x := sigmaS f.w f.s1 (ws.getD 1 0) + ws.getD 6 0 + sigmaS f.w f.s0 (ws.getD 14 0) + ws.getD 15 0
    shaSched f n (x % 2 ^ f.w :: ws)

/-- One round on the eight working values. -/
def shaRound (f : ShaFn) (v : List Nat) (kw : Nat × Nat) : List Nat :=
  match v with
  | [a, b, c, d, e, g, h, i] =>
    let ch := (e &&& g) ^^^ ((2 ^ f.w - 1 - e) &&& h)
    let maj := (a &&& b) ^^^ (a &&& c) ^^^ (b &&& c)
    let t1 := i + sigmaB f.w f.b1 e + ch + kw.1 + kw.2
    let t2 := sigmaB f.w f.b0 a + maj
    [(t1 + t2) % 2 ^ f.w, a, b, c, (d + t1) % 2 ^ f.w, e, g, h]
  | v => v

/-- One block of sixteen words. -/
def shaBlock (f : ShaFn) (k h ws : List Nat) : List Nat :=
  let sched := (shaSched f (k.length - 16) ws.reverse).reverse
  List.zipWith (fun a b => (a + b) % 2 ^ f.w) h ((k.zip sched).foldl (shaRound f) h)

/-- The words of a string. -/
def shaWords (n : Nat) (l : List Nat) : List Nat :=
  (List.range (l.length / n)).map (fun i => blockNat ((l.drop (n * i)).take n))

/-- A SHA-2 hash with word bytes `n`. -/
def sha2 (f : ShaFn) (k h : List Nat) (msg : List Nat) : List Nat :=
  let n := f.w / 8
  let z := (16 * n - (msg.length + 1 + 2 * n) % (16 * n)) % (16 * n)
  let m := msg ++ 0x80 :: List.replicate z 0 ++ nats (beBytes (2 * n) (8 * msg.length))
  let ws := shaWords n m
  ((List.range (ws.length / 16)).foldl (fun h i => shaBlock f k h ((ws.drop (16 * i)).take 16)) h).flatMap
    (fun x => nats (beBytes n x))

def sha256 (msg : List Nat) : List Nat := sha2 sha256Fn k256 h256 msg
def sha384 (msg : List Nat) : List Nat := (sha2 sha384Fn k512 h384 msg).take 48

/-- HMAC with SHA-256 or SHA-384 (FIPS 198-1). -/
def hmac (big : Bool) (key msg : List Nat) : List Nat :=
  let blk := if big then 128 else 64
  let hash := if big then sha384 else sha256
  let k0 := if blk < key.length then hash key else key
  let k := k0 ++ List.replicate (blk - k0.length) 0
  hash (k.map (· ^^^ 0x5C) ++ hash (k.map (· ^^^ 0x36) ++ msg))

/-! ### ECDSA P-256 (FIPS 186-5) -/

def p256P : Nat := 0xFFFFFFFF00000001000000000000000000000000FFFFFFFFFFFFFFFFFFFFFFFF
def p256N : Nat := 0xFFFFFFFF00000000FFFFFFFFFFFFFFFFBCE6FAADA7179E84F3B9CAC2FC632551
def p256B : Nat := 0x5AC635D8AA3A93E7B3EBBD55769886BC651D06B0CC53B0F63BCE3C3E27D2604B
def p256Gx : Nat := 0x6B17D1F2E12C4247F8BCE6E563A440F277037D812DEB33A0F4A13945D898C296
def p256Gy : Nat := 0x4FE342E2FE1A7F9B8EE7EB4A7C0F9E162BCE33576B315ECECBB6406837BF51F5

/-- Power modulo `m`; `n` bits of the exponent are left. -/
def powMod (m b e : Nat) : Nat → Nat → Nat
  | 0, acc => acc
  | n + 1, acc =>
    let sq := acc * acc % m
    powMod m b e n (if bit e n then sq * b % m else sq)

/-- Inverse modulo a prime of 256 bits. -/
def invMod (m a : Nat) : Nat := powMod m (a % m) (m - 2) 256 1

/-- Sum of two points of the curve; none is the point at infinity. -/
def ecAdd (a b : Option (Nat × Nat)) : Option (Nat × Nat) :=
  match a, b with
  | none, q => q
  | p, none => p
  | some (x1, y1), some (x2, y2) =>
    if x1 == x2 && (y1 + y2) % p256P == 0 then none
    else
      let l :=
        if x1 == x2 then (3 * x1 * x1 + (p256P - 3)) % p256P * invMod p256P (2 * y1) % p256P
        else (y2 + p256P - y1) * invMod p256P (x2 + p256P - x1) % p256P
      let x3 := (l * l + 2 * p256P - x1 - x2) % p256P
      some (x3, (l * (x1 + p256P - x3) + p256P - y1) % p256P)

/-- A multiple of a point; `n` bits of the factor are left. -/
def ecMul (p : Option (Nat × Nat)) (k : Nat) : Nat → Option (Nat × Nat) → Option (Nat × Nat)
  | 0, acc => acc
  | n + 1, acc =>
    let dbl := ecAdd acc acc
    ecMul p k n (if bit k n then ecAdd dbl p else dbl)

/-- A public key is a point of the curve (R324). -/
def onP256 (x y : Nat) : Bool :=
  decide (x < p256P) && decide (y < p256P)
    && (y * y % p256P == (x * x * x + (p256P - 3) * x + p256B) % p256P)

/-- An ECDSA signature of a 32 B digest verifies. -/
def ecdsaOk (qx qy r s : Nat) (digest : List Nat) : Bool :=
  decide (0 < r) && decide (r < p256N) && decide (0 < s) && decide (s < p256N) &&
    (let w := invMod p256N s
     let u1 := blockNat digest * w % p256N
     let u2 := r * w % p256N
     match ecAdd (ecMul (some (p256Gx, p256Gy)) u1 256 none) (ecMul (some (qx, qy)) u2 256 none) with
     | some (x, _) => x % p256N == r
     | none => false)

/-! ### Key derivation (R342) -/

/-- The 256-bit key of the counter-mode KDF with AES-256-CMAC. -/
def kdf (ki label context : List Nat) : List Nat :=
  let inp (i : Nat) := nats (beBytes 4 i) ++ label ++ 0 :: context ++ nats (beBytes 4 256)
  cmac ki (inp 1) ++ cmac ki (inp 2)

/-- The bytes of an ASCII string. -/
def ascii (s : String) : List Nat := s.toList.map (fun c => c.toNat)

end Sys2Proof.Machine
end

