-- ==== Sys2Proof/Machine/KeyOps.lean ====
section
/-!
DEFINITION. Slot keys (R342 to R345), the derived-key cache (R318 to R320), secure channels and authenticated PDUs
(R330 to R334), and MACsec protection (R335, R336).
-/
namespace Sys2Proof.Machine

/-! ### Slots -/

/-- The memory of slot records, and of secure channels (keys of `tbl`). -/
def memSlot : Nat := 70

/-- RS stands behind the 256 slot records: its index and its key among the errors of memories. -/
def rsIndex : Nat := 256
def rsKey : Nat := tkey memSlot 0 rsIndex
def memChan : Nat := 63

/-- The device UID as bytes. -/
def uidBytes : List Nat := nats (leBytes 16 Config.otpUid)

/-- A slot record and its fields (Table VLT-2). -/
def Dev.slot (d : Dev) (s : Nat) : Nat := d.tget memSlot 0 s
def slLabel (r : Nat) : List Nat := nats (leBytes 32 r)
def slCounter (r : Nat) : Nat := bf r 256 64
def slLabelLen (r : Nat) : Nat := bf r 320 8
def slFlags (r : Nat) : Nat := bf r 328 8
def slPresent (r : Nat) : Bool := bit r 328
def slRoot1 (r : Nat) : Bool := bit r 329
def slBinding (r : Nat) : Nat := bf r 330 2
def slUsage (r : Nat) : Nat := bf r 336 16
def slEpochMin (r : Nat) : Nat := bf r 352 32

/-- A slot record from its fields. -/
def slRecord (label : List Nat) (counter len flags usage epoch : Nat) : Nat :=
  leNat (bytes (label.take 32)) + counter % 2 ^ 64 * 2 ^ 256 + len % 256 * 2 ^ 320 + flags % 256 * 2 ^ 328
    + usage % 65536 * 2 ^ 336 + epoch % 2 ^ 32 * 2 ^ 352

/-- The committed signer hash and M-exact as bytes. -/
def Dev.signerHash (d : Dev) : List Nat := (List.range 8).flatMap (fun k => nats (leBytes 4 (d.get (F.VAULT_SIGNER_DATA k))))
def Dev.mExact (d : Dev) : List Nat := (List.range 12).flatMap (fun k => nats (leBytes 4 (d.get (F.VAULT_M_EXACT_DATA k))))

/-- The vault is PROVISIONED. -/
def Dev.provisioned (d : Dev) : Bool := d.get F.VAULT_STATUS_STATE == 1

/-- A slot record counts as empty after an uncorrectable error of its own, or of RS (R341). -/
def Dev.slotBad (d : Dev) (s : Nat) : Bool :=
  d.tables.bad.contains (tkey memSlot 0 s) || (d.vault.rsBad && !slRoot1 (d.slot s))

/-- A slot's key is available (R345); none is while the VAULT block is isolated (Table FLT-4). -/
def Dev.slotAvail (d : Dev) (s : Nat) : Bool :=
  let r := d.slot s
  d.provisioned && !d.isolated blkVault && slPresent r && !d.slotBad s && (slBinding r != 1 || decide (slEpochMin r ≤ d.get F.VAULT_EPOCH_EPOCH))

/-- The key of a slot record as slot `s` (R342). -/
def Dev.slotKey (d : Dev) (s r : Nat) : List Nat :=
  let ki := if slRoot1 r then slLabel r else d.vault.rs
  let label := if slRoot1 r then ascii "SNT-SLOT" else (slLabel r).take (slLabelLen r)
  let b := if slBinding r == 1 then d.signerHash else if slBinding r == 2 then d.mExact else []
  kdf ki label (uidBytes ++ s % 256 :: b)

/-- The errors that a read of a slot record meets (R341). -/
def Dev.slotTouch (d : Dev) (s : Nat) : Dev :=
  if d.tables.bad.contains (tkey memSlot 0 s) then d.faultCapture blkVault 1 (d.entAccess (tkey memSlot 0 s) s) false
  else if d.tables.soft.contains (tkey memSlot 0 s) then
    ({ d with tables := { d.tables with soft := d.tables.soft.filter (fun k => k != tkey memSlot 0 s) } }).inc
      F.VAULT_MEM_CE_COUNT
  else if slPresent (d.slot s) && !slRoot1 (d.slot s) then
    if d.vault.rsBad then d.faultCapture blkVault 1 (d.entAccess rsKey rsIndex) false
    else if d.tables.soft.contains rsKey then
      ({ d with tables := { d.tables with soft := d.tables.soft.filter (fun k => k != rsKey) } }).inc F.VAULT_MEM_CE_COUNT
    else d
  else d

/-- A slot may serve a use (R344). -/
def Dev.slotMay (d : Dev) (s use : Nat) : Bool := d.slotAvail s && bit (slUsage (d.slot s)) use

def useMac : Nat := 0
def useEncrypt : Nat := 1
def useDecrypt : Nat := 2
def useHmac : Nat := 3
def useUnwrap : Nat := 4
def useAuthorise : Nat := 5
def useAttest : Nat := 6
def useDebug : Nat := 7
def useImage : Nat := 8

/-! ### The derived-key cache (R318) -/

/-- Whether a cache entry is that of the slot as it now stands. -/
def Dev.cacheHit (d : Dev) (s : Nat) : Option CacheEnt :=
  d.cry.cache.find? (fun e => e.slot == s && e.counter == slCounter (d.slot s))

/-- The pinned entry of a slot: it stays in use until it is unpinned, available or not (R345). -/
def Dev.pinnedEnt (d : Dev) (s : Nat) : Option CacheEnt := d.cry.cache.find? (fun e => e.slot == s && e.pinned)

/-- A slot's key serves an in-line job: it is available for MAC, or pinned (R345). -/
def Dev.keyServes (d : Dev) (s : Nat) : Bool := d.slotMay s useMac || (d.pinnedEnt s).isSome

/-- An entry that a host job in flight uses (R318). -/
def Dev.keyInUse (d : Dev) (e : CacheEnt) : Bool :=
  d.cry.jobs.any (fun j => decide (j.key ≠ []) && j.slot == e.slot && j.counter == e.counter)

/-- The cache without its least recently used entry among those that may go. -/
def cacheEvict (may : CacheEnt → Bool) (l : List CacheEnt) : List CacheEnt :=
  match l.reverse.findIdx? may with
  | some i => l.eraseIdx (l.length - 1 - i)
  | none => l

/-- A derived key takes a cache entry, replacing the least recently used one that is unpinned and that no job in flight uses
where there is no free one. At most 64 entries are pinned and 4 in use by host jobs, so there is always such an entry. -/
def Dev.cachePut (d : Dev) (s : Nat) (pinned : Bool) : Dev :=
  let e : CacheEnt := ⟨s, slCounter (d.slot s), d.slotKey s (d.slot s), pinned⟩
  let l := d.cry.cache.filter (fun x => !(x.slot == s && x.counter == e.counter))
  { d with cry := { d.cry with
      cache := e :: (if l.length < 128 then l else cacheEvict (fun x => !x.pinned && !d.keyInUse x) l) } }

/-- `CACHE_CTRL.FLUSH` (R319): every entry that is unpinned and not in use by a job in flight goes. -/
def Dev.cacheFlush (d : Dev) : Dev :=
  { d with cry := { d.cry with cache := d.cry.cache.filter (fun e => e.pinned || d.keyInUse e) } }

/-- A job takes its slot's key: a hit, or a derivation counted as a miss. -/
def Dev.useKey (d : Dev) (s : Nat) : Dev × List Nat :=
  match (d.cacheHit s).orElse (fun _ => d.pinnedEnt s) with
  | some e =>
    ({ d with cry := { d.cry with cache := e :: d.cry.cache.filter (fun x => x != e) } }, e.key)
  | none => ((d.inc F.CRY_CACHE_MISS_COUNT).cachePut s false, d.slotKey s (d.slot s))

/-- A slot's key is pinned, or unpinned (R319). -/
def Dev.pinKey (d : Dev) (s : Nat) : Dev :=
  let d1 := if d.anvil.pinned.contains s then d else { d with anvil := { d.anvil with pinned := s :: d.anvil.pinned } }
  match d1.cacheHit s with
  | some e => { d1 with cry := { d1.cry with cache := d1.cry.cache.map (fun x => if x == e then { x with pinned := true } else x) } }
  | none => d1.cachePut s true

/-- An unpinned entry of a key that is not available is removed (R345). -/
def Dev.unpinKey (d : Dev) (s : Nat) : Dev :=
  { d with
    anvil := { d.anvil with pinned := d.anvil.pinned.filter (fun x => x != s) }
    cry := { d.cry with cache := (d.cry.cache.filter (fun x => x.slot != s || d.slotAvail s)).map (fun x =>
      if x.slot == s then { x with pinned := false } else x) } }

/-- The cache follows a change of slot `s` (R320): unpinned entries go, and every pinned one is derived again, available or not
(R345). A slot that holds no recipe any more gives none: its pinned entry keeps its key until a CHANGE. -/
def Dev.cacheUpdate (d : Dev) (s : Nat) : Dev :=
  { d with cry := { d.cry with cache := (d.cry.cache.filter (fun e => e.slot != s || e.pinned)).map (fun e =>
      if e.slot == s && slPresent (d.slot s) && !d.slotBad s then { e with counter := slCounter (d.slot s), key := d.slotKey s (d.slot s) }
      else e) } }

/-! ### Secure channels (Tables CRY-5 and CRY-6) -/

/-- A channel's entry; one in uncorrectable error is not valid (R330). -/
def Dev.chan (d : Dev) (c : Nat) : Nat :=
  if d.tables.bad.contains (tkey memChan 0 c) then 0 else d.tget memChan 0 c

/-- The errors that a read of a channel's entry meets (R330, R339). -/
def Dev.chanTouch (d : Dev) (c : Nat) : Dev :=
  if d.tables.bad.contains (tkey memChan 0 c) then d.faultCapture blkCry 1 (d.entAccess (tkey memChan 0 c) c) false
  else if d.tables.soft.contains (tkey memChan 0 c) then
    ({ d with tables := { d.tables with soft := d.tables.soft.filter (fun k => k != tkey memChan 0 c) } }).inc
      F.CRY_MEM_CE_COUNT
  else d

/-- The errors of a channel's entry and of its slot's record, met by an in-line job. -/
def Dev.jobTouch (d : Dev) (c : Nat) : Dev :=
  if d.flag F.CRY_CTRL_EN && d.ready 8 && !d.isolated blkCry then
    let d1 := d.chanTouch c
    if bf (d1.chan c) 0 8 == 1 || bf (d1.chan c) 0 8 == 2 then d1.slotTouch (bf (d1.chan c) 32 8) else d1
  else d

def chType (e : Nat) : Nat := bf e 0 8
def chFvLen (e : Nat) : Nat := bf e 8 8
def chMacLen (e : Nat) : Nat := bf e 16 8
def chWindow (e : Nat) : Nat := bf e 24 8
def chSlot (e : Nat) : Nat := bf e 32 8
def chResync (e : Nat) : Nat := bf e 40 8
def chDataId (e : Nat) : Nat := bf e 64 32
def chFresh (e : Nat) : Nat := bf e 128 64
def chSeen (e : Nat) : Nat := bf e 192 64

/-- A channel's entry is written by the engine itself. -/
def Dev.setChan (d : Dev) (c e : Nat) : Dev := d.tset memChan 0 c e

/-- A channel verifies or generates for an admitted contract (R334): its verify channel, or one its route re-signs
with. `resign` lists the SEC_OUT channels of a route; it is given by the caller that knows routes. -/
def Dev.chanOfContract (d : Dev) (c : Nat) : Bool := d.admitted.any (fun p => rqSecIn p.2.req == c)

/-- An in-line job can run: Crucible is on, powered and not isolated (Table CRY-8, Table FLT-4). -/
def Dev.cryRuns (d : Dev) : Bool := d.flag F.CRY_CTRL_EN && d.ready 8 && !d.isolated blkCry

/-- Entries of the request queue in use by host jobs (R313). -/
def Dev.hostJobs (d : Dev) : Nat := d.opCount 58 [1, 2, 3, 4, 5, 6]

/-- Entries of the request queue in use by in-line jobs. -/
def Dev.inlineJobs (d : Dev) : Nat := (d.cry.inl.filter (fun t => decide (d.now < t))).length

/-- An in-line authentication job takes an entry of the request queue, or finds none (R313). DESIGN CHOICE (log 86): it holds the head
of the queue for the whole 10 ns that R314 allows, after the jobs before it. -/
def Dev.inlineEntry (d : Dev) : Dev × Bool :=
  let l := d.cry.inl.filter (fun t => decide (d.now < t))
  if 128 ≤ d.hostJobs + l.length then (d.inc F.CRY_INLINE_FULL_COUNT, false)
  else ({ d with cry := { d.cry with inl := l ++ [(l.getLast?).getD d.now + 8] } }, true)

/-- What an in-line authentication job makes: data, or it fails, or no queue entry is free for it (R313). -/
inductive Authed where
  | ok (data : List Byte)
  | fail
  | full
  deriving DecidableEq, Repr

/-- The CMAC input of an authenticated PDU (R332). -/
def authInput (e fresh : Nat) (payload : List Byte) : List Nat :=
  nats (beBytes 4 (chDataId e) ++ payload ++ beBytes 8 fresh)

/-- Generation of a trailer under a channel (R332): the payload with its trailer, or a failure; a channel that is not valid, or of the
wrong TYPE, fails as an exhausted one does (R330). -/
def Dev.authGenerate (dd : Dev) (c : Nat) (payload : List Byte) : Dev × Authed :=
  if !dd.cryRuns then (dd, .fail)
  else
  match dd.inlineEntry with
  | (d, false) => (d, .full)
  | (d0, true) =>
  let d := d0.jobTouch c
  let e := d.chan c
  if chType e != 2 || chFresh e == 2 ^ 64 - 1 then (d.inc F.CRY_FRESH_EXHAUST_COUNT, .fail)
  else if !d.keyServes (chSlot e) then (d, .fail)
  else
    let f := chFresh e + 1
    let (d1, key) := (d.setChan c (setBf e 128 64 f)).useKey (chSlot e)
    let mac := bytes ((cmac key (authInput e f payload)).take (chMacLen e))
    (d1, .ok (payload ++ (beBytes 8 f).drop (8 - min 8 (chFvLen e)) ++ mac))

/-- The tries of a verification (R333): the first freshness value that verifies, with its number. -/
def authTry (key : List Nat) (e step : Nat) (payload : List Byte) (mac : List Nat) : Nat → Nat → Nat → Option (Nat × Nat)
  | 0, _, _ => none
  | n + 1, k, f =>
    if 2 ^ 64 ≤ f then none
    else if (cmac key (authInput e f payload)).take (chMacLen e) == mac then some (k, f)
    else authTry key e step payload mac n (k + 1) (f + step)

/-- Verification under a channel (R333): the payload, or a failure. With Crucible off a frame fails without a count. -/
def Dev.authVerify (dd : Dev) (c : Nat) (data : List Byte) : Dev × Authed :=
  if !dd.cryRuns then (dd, .fail)
  else
  match dd.inlineEntry with
  | (d, false) => (d, .full)
  | (d0, true) =>
  let d := d0.jobTouch c
  let e := d.chan c
  let t := chFvLen e
  let n := data.length - (t + chMacLen e)
  if chType e != 1 || !d.keyServes (chSlot e) || decide (data.length < t + chMacLen e) then
    (d.inc F.CRY_AUTH_FAIL_COUNT, .fail)
  else
    let payload := data.take n
    let mac := nats (data.drop (n + t))
    let last := chFresh e
    let step := 2 ^ (8 * t)
    let lo := last + 1 - min (last + 1) (chWindow e)
    let low := beNat ((data.drop n).take t)
    let f := if t == 0 then last + 1 else lo + (low + step - lo % step) % step
    let old := decide (f ≤ last)
    if t != 0 && old && (decide (chWindow e ≤ last - f) || bit (chSeen e) (last - f)) then (d.inc F.CRY_REPLAY_COUNT, .fail)
    else
      let tries := if d.chanOfContract c then 0 else chResync e
      let (d1, key) := d.useKey (chSlot e)
      match authTry key e step payload mac (tries + 1) 0 f with
      | none => (d1.inc F.CRY_AUTH_FAIL_COUNT, .fail)
      | some (k, g) =>
        let e1 :=
          if last < g then
            setBf (setBf e 192 64 (chSeen e * 2 ^ min 64 (g - last) % 2 ^ 64 + 1)) 128 64 g
          else setBf e 192 64 (setBit (chSeen e) (last - g) true)
        let d2 := d1.setChan c e1
        (if 0 < k then d2.inc F.CRY_RESYNC_OK_COUNT else d2, .ok payload)

/-! ### MACsec (R335, R336) -/

/-- A frame without FCS, padded with bytes of 0 to 60 (R180, R183, R416). -/
def pad60 (bs : List Byte) : List Byte := bs ++ List.replicate (60 - bs.length) 0

def saAn (e : Nat) : Nat := bf e 8 2
def saIncludeSci (e : Nat) : Bool := bit e 10
def saEs (e : Nat) : Bool := bit e 11
def saImplicit (e : Nat) : Bool := bit e 12
def saValid (e : Nat) : Bool := bit e 13
def saPort (e : Nat) : Nat := bf e 32 8
def saSci (e : Nat) : List Byte := leBytes 8 (bf e 64 64)
def saNextPn (e : Nat) : Nat := bf e 128 64
def saSsci (e : Nat) : List Byte := leBytes 4 (bf e 192 32)
def saWindow (e : Nat) : Nat := bf e 224 32
def saSalt (e : Nat) : List Byte := leBytes 12 (bf e 256 96)
def saThresh (e : Nat) : Nat := bf e 384 64

/-- The XPN IV: SSCI and PN, with the salt (IEEE 802.1AE-2018; log 18). -/
def saIv (e pn : Nat) : List Nat := xorBytes (nats (saSsci e ++ beBytes 8 pn)) (nats (saSalt e))

/-- A DA of the reserved block 01-80-C2-00-00-00 to -0F. -/
def reservedDa (bs : List Byte) : Bool :=
  nats (bs.take 5) == [0x01, 0x80, 0xC2, 0, 0] && decide (byteAt bs 5 < 16)

/-- A port is MACsec-protected. -/
def Dev.macsecOn (d : Dev) (p : Nat) : Bool := decide (p < 12) && d.flag (F.ETH_STATUS_MACSEC p)

/-- Bytes that MACsec adds to a frame on a port (Table PROM-6): SecTAG and ICV, with the SCI where it is sent. -/
def Dev.macsecGrowth (d : Dev) (p : Nat) : Nat :=
  if d.macsecOn p then 24 + (if saIncludeSci (d.chan (d.get (F.CRY_MACSEC_TX_CHAN p))) then 8 else 0) else 0

/-- The SecTAG of a protected frame: EtherType, TCI and AN, SL, the low PN, and the SCI where it is sent. -/
def secTag (e pn len : Nat) : List Byte :=
  bytes [0x88, 0xE5, saAn e + 0x0C + 32 * b2n (saIncludeSci e) + 64 * b2n (saEs e),
    if len < 48 then len else 0] ++ beBytes 4 pn ++ (if saIncludeSci e then saSci e else [])

/-- The transmit SA of a port is exhausted (R336): its frame with the last PN has been sent. -/
def Dev.macsecSpent (d : Dev) (p : Nat) : Bool :=
  let e := d.chan (d.get (F.CRY_MACSEC_TX_CHAN p))
  d.cryRuns && d.flag (F.CRY_MACSEC_TX_VALID p) && chType e == 3 && saValid e && saNextPn e == 0

/-- The packet number that the SA of a port gives its next frame. -/
def Dev.macsecPn (d : Dev) (p : Nat) : Nat := saNextPn (d.chan (d.get (F.CRY_MACSEC_TX_CHAN p)))

/-- The wire form of a frame under the SA of a port and a packet number (R335). -/
def Dev.macsecSeal (d : Dev) (p pn : Nat) (bs : List Byte) : List Byte :=
  let c := d.get (F.CRY_MACSEC_TX_CHAN p)
  let e := d.chan c
  let tag := secTag e pn (bs.length - 12)
  let (ct, icv) := gcm (SMap.get d.cry.saks [] c) (saIv e pn) (nats (bs.take 12 ++ tag)) (nats (bs.drop 12)) false
  bs.take 12 ++ tag ++ bytes (ct ++ icv)

/-- Protection of a frame at its start (R336): the wire form, or none where it cannot be sent. -/
def Dev.macsecSend (d : Dev) (p : Nat) (bs : List Byte) : Dev × Option (List Byte) :=
  let c := d.get (F.CRY_MACSEC_TX_CHAN p)
  let d := d.jobTouch c
  let e := d.chan c
  if !d.cryRuns || !d.flag (F.CRY_MACSEC_TX_VALID p) || chType e != 3 || !saValid e then (d, none)
  else if saNextPn e == 0 then
    -- the frame with the last PN has been sent: the SA is exhausted
    ((d.inc F.CRY_PN_EXHAUST_COUNT).fltSet blkCry 4, none)
  else
    let pn := saNextPn e
    let d1 := d.setChan c (setBf e 128 64 (pn + 1))
    let d2 := if pn + 1 == saThresh e then
        (d1.fltSet blkCry 3).event61 0x07 blkCry 3 (accNone * 8) 0
          (leBytes 2 c ++ leBytes 1 p ++ leBytes 5 0 ++ leBytes 8 (pn + 1))
      else d1
    (d2, some (d.macsecSeal p pn bs))

/-- The recovered PN of a received frame: the high half of the lowest acceptable PN, one more where the top bit of its low half is
set and that of the received one is not (IEEE 802.1AE-2018 for XPN; log 18). -/
def recoverPn (lowest low : Nat) : Nat :=
  let hi := lowest / 2 ^ 32
  (if 2 ^ 31 ≤ lowest % 2 ^ 32 && low < 2 ^ 31 then hi + 1 else hi) * 2 ^ 32 + low

/-- A discard of MACsec receive: its own counter and DROP_AUTH. -/
def Dev.macsecDrop (d : Dev) (p : Nat) (f : FieldRef) : Dev × Option (List Byte) :=
  ((d.inc f).cnt F.CNT_DROP_AUTH_COUNT p, none)

/-- The SecTAG of a received frame is one that IEEE 802.1AE-2018 allows, with SCB 0 (R335): V is 0, SL is below 48 with its reserved bits
0, and the secured data is as long as SL says, at least 48 B where SL is 0. -/
def secTagOk (bs : List Byte) (hdr : Nat) : Bool :=
  let sl := byteAt bs 15
  let body := bs.length - hdr
  !bit (byteAt bs 14) 7 && !bit (byteAt bs 14) 4 && decide (sl < 48) && decide ((if sl == 0 then 48 else sl) + 16 ≤ body)

/-- Units of held output that host jobs hold, and that received MACsec frames hold (R327). -/
def Dev.heldUnits (d : Dev) : Nat := (d.cry.jobs.map (fun j => j.units)).sum
def Dev.rxUnits (d : Dev) : Nat := ((d.cry.rxHeld.filter (fun x => decide (d.now < x.2))).map (fun x => x.1)).sum

/-- Freed held output keeps its contents until overwritten (R329). DESIGN CHOICE (log 88): the oldest are overwritten first, in the 2,048
units of 128 B. -/
def Dev.heldLeft (d : Dev) (bs : List Byte) : Dev :=
  let l := d.cry.freed ++ bs
  { d with cry := { d.cry with freed := l.drop (l.length - 2048 * 128) } }

/-- A received MACsec frame of `n` bytes takes held output (R327). DESIGN CHOICE (log 86): it holds its units for the 120 ns that R315 gives
its pipeline. -/
def Dev.rxHold (d : Dev) (n : Nat) : Dev :=
  { d with cry := { d.cry with
      rxHeld := d.cry.rxHeld.filter (fun x => decide (d.now < x.2)) ++ [((n + 127) / 128, d.now + 96)] } }

/-- An uncorrectable error in held output (R328). -/
def Dev.heldUe (d : Dev) : Dev := (d.fltSet blkCry 2).countEvent blkCry 2

/-- The SAs that the lookup of a received frame reads; those in uncorrectable error that would have matched are captured (R339). -/
def Dev.saTouch (d : Dev) (hit : Nat → Bool) (sa : Option Nat) : Dev :=
  let d1 := d.tables.bad.foldl (fun d k =>
    if k / 2 ^ 24 == memChan * 2 && hit (d.tbl.get 0 k) then d.chanTouch (k % 2 ^ 24) else d) d
  match sa with
  | some c => d1.chanTouch c
  | none => d1

/-- Verification of a frame received on a protected port (R336): the frame without its SecTAG, or none. With `ue` its held output meets
an uncorrectable error: its tag has verified, and it is discarded (R328). DESIGN CHOICE (log 86): a SecTAG that is not allowed counts as
MACSEC_NO_SA, and NEXT_PN stays at its largest value. -/
def Dev.macsecReceive (dd : Dev) (p : Nat) (bs : List Byte) (ue : Bool) : Dev × Option (List Byte) :=
  if !dd.cryRuns then (dd.cnt F.CNT_DROP_AUTH_COUNT p, none)
  else if beNat ((bs.drop 12).take 2) != 0x88E5 then
    if reservedDa bs then (dd, some bs) else dd.macsecDrop p F.CRY_MACSEC_UNTAGGED_COUNT
  else
    let tci := byteAt bs 14
    let sc := bit tci 5
    let hdr := if sc then 28 else 20
    let sci := (bs.drop 20).take 8
    let hit (e : Nat) : Bool := chType e == 4 && saPort e == p && saAn e == tci % 4 && saValid e
      && (if sc then saSci e == sci else saImplicit e)
    let sa := (List.range 1024).find? (fun c => hit (dd.chan c))
    let d := dd.saTouch hit sa
    match sa with
    | none => d.macsecDrop p F.CRY_MACSEC_NO_SA_COUNT
    | some c =>
      if !secTagOk bs hdr then d.macsecDrop p F.CRY_MACSEC_NO_SA_COUNT
      else
        let e := d.chan c
        let lowest := max 1 (saNextPn e - saWindow e)
        let pn := recoverPn lowest (beNat ((bs.drop 16).take 4))
        if pn < lowest then d.macsecDrop p F.CRY_MACSEC_LATE_COUNT
        else
          let body := bs.drop hdr
          let n := if byteAt bs 15 == 0 then body.length - 16 else byteAt bs 15
          let ct := body.take n
          let (pt, icv) := gcm (SMap.get d.cry.saks [] c) (saIv e pn) (nats (bs.take hdr)) (nats ct) true
          let d1 := (d.rxHold n).heldLeft (bytes pt)
          if icv != nats ((body.drop n).take 16) then d1.macsecDrop p F.CRY_MACSEC_ICV_FAIL_COUNT
          else
            let d2 := d1.setChan c (setBf e 128 64 (min (2 ^ 64 - 1) (max (saNextPn e) (pn + 1))))
            if ue then (d2.heldUe.cnt F.CNT_DROP_POISON_COUNT p, none)
            else (d2, some (pad60 (bs.take 12 ++ bytes pt)))

end Sys2Proof.Machine
end

