-- ==== Sys2Proof/Machine/SteOps.lean ====
section
/-!
DEFINITION. The signal transplant engine (chapter 5): output forms and encapsulation (R162 to R164, R177, R183),
containers (R178 to R181), signal routes and images (R168 to R176), monitors (R172) and actuation commands (R186).
-/
namespace Sys2Proof.Machine

/-! ### Output forms -/

/-- The next valid FD length (R164). -/
def fdLen (n : Nat) : Nat :=
  if n ≤ 8 then n else if n ≤ 12 then 12 else if n ≤ 16 then 16 else if n ≤ 20 then 20 else if n ≤ 24 then 24
  else if n ≤ 32 then 32 else if n ≤ 48 then 48 else if n ≤ 64 then 64 else n

/-- Length of an output of a form that carries `n` bytes. -/
def formLen (form n : Nat) : Nat := if form == 2 || form == 3 then fdLen n else n

/-- The data of an output form fits it (R164). DESIGN CHOICE (log 83): zero data bytes fit no CAN XL, LIN, ACF LIN or form 12. -/
def formFits (form n : Nat) : Bool :=
  match form with
  | 0 | 1 => decide (n ≤ 8)
  | 2 | 3 | 9 | 10 => decide (n ≤ 64)
  | 4 | 12 => decide (1 ≤ n) && decide (n ≤ 2048)
  | 5 | 11 => decide (1 ≤ n) && decide (n ≤ 8)
  | _ => decide (n ≤ 65535)

/-- An output of a form from a source of form `src` is legal on a port (R164). -/
def Dev.formOk (d : Dev) (p src form : Nat) : Bool :=
  if p < 20 then
    decide (8 ≤ form) && decide (form ≤ 12) && !((form == 9 || form == 10) && (src == 4 || src == 12))
      && !(form == 12 && !(src == 4 || src == 12))
  else if p < 40 then
    match form with
    | 0 | 1 => src != 12
    | 2 | 3 => src != 12 && d.flag (F.CAN_CTRL_FD_EN (p - 20))
    | 4 => d.flag (F.CAN_CTRL_XL_EN (p - 20))
    | _ => false
  else form == 5

/-- A station address as it goes on the wire (R235). -/
def Dev.ethAddr (d : Dev) (p : Nat) : Nat := d.get (F.ETH_ADDR_LO_ADDR p) + 2 ^ 32 * d.get (F.ETH_ADDR_HI_ADDR p)

/-- An Ethernet header from the first eight bytes of a profile or container record. -/
def Dev.ethHeader (d : Dev) (p e etype : Nat) : List Byte :=
  leBytes 6 (enDa e) ++ leBytes 6 (d.ethAddr p)
    ++ (if enTagged e then beBytes 2 0x8100 ++ beBytes 2 (enPcp e * 2 ^ 13 + enVid e) else []) ++ beBytes 2 etype

/-- An Ethernet message. -/
def ethMsg (bs : List Byte) : Msg := { Msg.init with form := 16, data := bs }

/-- What numbers an encapsulated frame: a container, or an encapsulation profile's NTSCF or Snitos XL frames. -/
inductive SeqKind where
  | cont | acf | xl
  deriving DecidableEq, Repr

/-- An Ethernet message that takes its sequence number as it is sent (R177, R178, R183; log 78): `id` names the counter, and is 0
for every other one. -/
def seqMsg (t : SeqKind) (k : Nat) (bs : List Byte) : Msg :=
  { ethMsg bs with id := 1 + 3 * k + (match t with | .cont => 0 | .acf => 1 | .xl => 2) }

/-- The classical or FD form behind a source: its own form, or the one an ACF message carries (held in `af`). DESIGN CHOICE (log 83): of a
source that is no CAN frame, eff is an identifier above 0x7FF and fdf a length above 8. -/
def canLike (m : Msg) : Nat :=
  if m.form ≤ 3 then m.form
  else if m.form == 9 || m.form == 10 then m.af
  else (if 0x7FF < m.id then 1 else 0) + (if 8 < m.data.length then 2 else 0)

/-- An ACF message (Table SIG-10, IEEE 1722-2016; log 19) of form 9, 10 or 11. -/
def acfMessage (form id bus fl cl sof : Nat) (data : List Byte) : List Byte :=
  let pad := (4 - data.length % 4) % 4
  let hdr := if form == 9 then 16 else if form == 10 then 8 else 12
  let words := (hdr + data.length + pad) / 4
  let type := if form == 9 then 1 else if form == 10 then 2 else 3
  let eff := cl % 2
  let fdf := cl / 2 % 2
  let head := beBytes 2 (type * 512 + words)
  let body :=
    if form == 11 then bytes [pad * 64 + 32 + bus % 32, linPid id] ++ beBytes 8 sof
    else bytes [pad * 64 + (if form == 9 then 32 else 0) + eff * 8 + (fl % 2) * 4 + fdf * 2 + fl / 2 % 2, bus % 32]
      ++ (if form == 9 then beBytes 8 sof else []) ++ beBytes 4 (id % 2 ^ 29)
  head ++ body ++ data ++ List.replicate pad 0

/-- An NTSCF frame payload with one ACF message; its sequence_num comes as it is sent. -/
def ntscf (stream : Nat) (msg : List Byte) : List Byte :=
  bytes [0x82, 0x80 + msg.length / 256 % 8, msg.length % 256, 0] ++ leBytes 8 stream ++ msg

/-- The header of a Snitos XL frame (Table SIG-18); its SEQ comes as it is sent. -/
def Dev.xlHeader (d : Dev) (m : Msg) (id dlen : Nat) : List Byte :=
  bytes [2, m.flags / 8 % 2, m.sdt, m.vcid] ++ beBytes 4 m.af ++ beBytes 2 (id % 2 ^ 11) ++ beBytes 2 dlen
    ++ beBytes 2 (d.get F.STE_NODE_ID_ID) ++ beBytes 2 0 ++ beBytes 8 m.sof

/-- What an edit makes of a source for one egress. -/
inductive Made where
  /-- A frame, with its priority toward an Ethernet egress. -/
  | frame (m : Msg) (prio : Nat)
  /-- A PDU for a container. -/
  | pdu (cont id : Nat) (data : List Byte)
  /-- Discarded by R164. -/
  | bad
  /-- Discarded without a count of R164: generation failed, or the port has no address. -/
  | lost
  /-- No entry of Crucible's request queue is free for its generation (R313). -/
  | full
  deriving DecidableEq, Repr

/-- An XL output's attributes: those of an XL source, else the controller's (R198). -/
def Dev.xlAttr (d : Dev) (p : Nat) (src m : Msg) : Msg :=
  if m.form == 4 && !(src.form == 4 || src.form == 12) then
    let c := p - 20
    { m with sdt := d.get (F.CAN_XL_DEF_SDT c), vcid := d.get (F.CAN_XL_DEF_VCID c), af := d.get (F.CAN_XL_AF_AF c),
             flags := 8 * d.get (F.CAN_XL_DEF_SEC c) }
  else m

/-- The copy of a source for an egress port through an edit entry (R162, R164). `payload` is the data without the
trailer that verification removed (R333). DESIGN CHOICE (log 83): a form 9 or 11 copy of a source without SOF time sends 0 with mtv = 1,
and an unedited copy of an element of forms 8 to 12 toward a UP, GE or TS port is discarded as FORMAT_DROP. -/
def Dev.makeCopy (d : Dev) (p : Nat) (src : Msg) (payload : List Byte) (edit : Option Nat) : Dev × Made :=
  let de := match edit with
    | some i => d.steTouch 2 i
    | none => d
  let e := match edit with
    | some i => de.steEnt 2 i
    | none => 0
  let form := if edit.isSome then edForm e else src.form
  let d0 := if edit.isNone then de else if form == 8 then de.steTouch 5 (edProfile e)
    else if 9 ≤ form ∧ form ≤ 12 then de.steTouch 4 (edProfile e) else de
  let id := if edit.isSome then edId e else src.id
  let brs := if edit.isSome then b2n (edBrs e) else src.flags % 2
  let prof := d0.steEnt 4 (edProfile e)
  let cont := d0.steEnt 5 (edProfile e)
  let encap := decide (9 ≤ form) && decide (form ≤ 12)
  let bad (d : Dev) : Dev × Made := (d.inc F.STE_FORMAT_DROP_COUNT, .bad)
  if (edit.isSome && !edValid e) || !d0.formOk p src.form form || (p < 20 && edit.isNone)
      || (form == 8 && !coValid cont) || (encap && !enValid prof) then bad d0
  else
    let signed := edit.isSome && edSecEn e
    let chan := d0.chan (edSecOut e)
    let trailer := min 8 (chFvLen chan) + chMacLen chan
    let n0 := if signed then payload.length + trailer else src.data.length
    let pad := List.replicate (formLen form n0 - n0) (BitVec.ofNat 8 (d0.get F.STE_CTRL_PAD))
    if !formFits form n0 then bad d0
    else
      let (d1, data) := if signed then d0.authGenerate (edSecOut e) (payload ++ pad) else (d0, .ok (src.data ++ pad))
      match data with
      | .fail => (d1, .lost)
      | .full => (d1, .full)
      | .ok bs =>
        if form == 8 then (d1, .pdu (edProfile e) id bs)
        else if encap then
          if d1.ethAddr p == 0 then (d1, .lost)
          else
            let body := if form == 12 then d1.xlHeader src id bs.length ++ bs
              else ntscf (enStream prof) (acfMessage form id (enBus prof) src.flags (canLike src) src.sof bs)
            let et := if form == 12 then d1.get F.STE_CONT_ETYPE_ETYPE else 0x22F0
            (d1, .frame (seqMsg (if form == 12 then .xl else .acf) (edProfile e) (pad60 (d1.ethHeader p prof et ++ body)))
              (enPcp prof))
        else
          let m := { src with form := form, id := id, data := bs, flags := if form == 2 || form == 3 then brs else 0 }
          let m1 := if form == 4 && (src.form == 4 || src.form == 12) then { m with flags := src.flags % 16 / 8 * 8 } else m
          (d1, .frame (d1.xlAttr p src m1) 0)

/-! ### Containers (R178 to R181) -/

/-- An open container. -/
def Dev.cont (d : Dev) (c : Nat) : Option Cont := SMap.get d.ste.conts none c
def Dev.setCont (d : Dev) (c : Nat) (k : Option Cont) : Dev :=
  { d with ste := { d.ste with conts := SMap.set d.ste.conts none c k } }

/-- Size of an open container. -/
def Cont.size (k : Cont) : Nat := 16 + k.recs.length

/-- The earlier of two deadlines. -/
def earlier (a : Option Nat) (b : Nat) : Nat :=
  match a with
  | none => b
  | some x => if later x b then b else x

/-- Bytes from DA to FCS of a container of a size. -/
def contBytes (e size : Nat) : Nat := max 64 (14 + (if enTagged e then 4 else 0) + size + 4)

/-- A container closes and is queued on its egress (R180); one whose record is in uncorrectable error counts as not valid, and its
frame is discarded as R164 discards a copy toward it (R187; DEDUCED, log 79). -/
def Dev.contClose (d : Dev) (c : Nat) : Dev :=
  match d.cont c with
  | none => d
  | some k =>
    let e := d.tget (steMem 5) 0 c
    let bad := d.tables.bad.contains (tkey (steMem 5) 0 c)
    let p := coEgress e
    let d1 := if bad then (d.setCont c none).inc F.STE_FORMAT_DROP_COUNT else d.setCont c none
    let body := bytes [1, 0] ++ beBytes 2 0 ++ beBytes 2 (d.get F.STE_NODE_ID_ID) ++ beBytes 2 k.pdus
      ++ beBytes 8 d.dtime ++ k.recs
    let m := seqMsg .cont c (pad60 (d.ethHeader p e (d.get F.STE_CONT_ETYPE_ETYPE) ++ body))
    match d1.frame k.handle with
    | none => d1
    | some f =>
      let d2 := d1.setFrame k.handle (some { f with
        msg := m, start := d.dtime, epoch := k.epoch, contract := k.contracts.head?, others := k.contracts.tail, whole := true })
      let cp := { Copy.new k.handle p (coTc e) m ((k.contractDl.orElse (fun _ => k.anyDl)).getD 0) .plain with prio := some (enPcp e) }
      if bad || d2.ethAddr p == 0 then let (d3, c1) := d2.enlist cp; d3.dropCopy c1 .lost
      else d2.enqueue cp 0

/-- Cells for a PDU in a container (R181): from its contract's container reservation, the rest as best effort, which counts as
RSV_OVERRUN (R90). -/
def Dev.contTake (d : Dev) (c half share : Nat) (contract : Option Nat) : Dev × Option (List (Nat × Nat × Nat)) :=
  match contract.bind (fun i => (d.contract i).map (fun k => (i, k))) with
  | none => (d, if d.unusedC half + share ≤ d.freeCells half then some [] else none)
  | some (i, k) =>
    let left := ((k.conts.filter (fun r => r.cont == c && r.half == half)).map (fun r => r.cells - r.used)).sum
    let mine := min share left
    let d1 := d.setContract i (some { k with conts := k.conts.map (fun r =>
      if r.cont == c && r.half == half then { r with used := r.used + mine } else r) })
    if mine == share then (d1, some [(i, c, share)])
    else if d.unusedC half + (share - mine) ≤ d.freeCells half then
      ((d1.inc F.FWD_RSV_OVERRUN_COUNT).fault blkFwd 3, some [(i, c, mine)])
    else (d, none)

/-- A PDU of a frame from port `ingress` is lost before it enters its container. -/
def Dev.pduLost (d : Dev) (c : Nat) (contract : Option Nat) (ingress : Nat) : Dev :=
  let e := d.steEnt 5 c
  match contract with
  | some i => d.lost i (coEgress e) (d.excusedNow (coEgress e) (enPcp e) ingress) false
  | none => d

/-- A PDU arrives at a container (R180, R181), from a frame that entered through port `ingress` as the `order`-th (R185). -/
def Dev.contPdu (d : Dev) (c id : Nat) (data : List Byte) (dl : Nat) (contract : Option Nat) (ingress order : Nat) : Dev :=
  let e := d.steEnt 5 c
  let p := coEgress e
  let half := b2n (pipeB p)
  let rcd := beBytes 4 id ++ beBytes 2 data.length ++ data
  if coMax e < 16 + rcd.length then (d.inc F.STE_PDU_OVERSIZE_COUNT).pduLost c contract ingress
  else
    let d1 := match d.cont c with
      | some k => if k.since + k.hold * usCyc ≤ d.now || coMax e < k.size + rcd.length then d.contClose c else d
      | none => d
    let drop (d : Dev) : Dev := (d.cnt F.CNT_DROP_NORES_COUNT ingress).pduLost c contract ingress
    -- open, where it is closed
    let d2 : Dev := match d1.cont c with
      | some _ => d1
      | none =>
        if d1.unusedH < d1.freeHandles then
          let (da, n) := d1.takeOrder
          let h := lowFree 0 da.fwd.frames
          let f := { Frame.own half (ethMsg []) da.dtime (da.get F.TIME_STATUS_EPOCH) n with whole := false }
          (da.setFrame h (some f)).setCont c (some ⟨h, [], 0, da.now, none, none, [], da.get F.TIME_STATUS_EPOCH, coThreshOp e, coHoldOp e⟩)
        else d1
    match d2.cont c with
    | none => drop d2
    | some k =>
      match d2.frame k.handle with
      | none => drop (d2.setCont c none)
      | some f =>
        let need := cellsFor (contBytes e (k.size + rcd.length)) - f.cells
        match d2.contTake c half need contract with
        | (d3, none) =>
          let d4 := drop d3
          if k.pdus == 0 then (d4.setFrame k.handle none).setCont c none else d4
        | (d3, some ch) =>
          let k1 := { k with
            recs := k.recs ++ rcd, pdus := k.pdus + 1
            contractDl := if contract.isSome then some (earlier k.contractDl dl) else k.contractDl
            anyDl := some (earlier k.anyDl dl)
            contracts := k.contracts ++ contract.toList }
          let d4 := (d3.setFrame k.handle (some { f with
            cells := f.cells + need, charges := f.charges ++ ch, carries := f.carries ++ [(ingress, order)] })).setCont c (some k1)
          if k1.thresh ≤ k1.size || k1.hold == 0 then d4.contClose c else d4

/-! ### Images (R173 to R176) -/

/-- Table, index and bits of an image. -/
def imgTable (i : Nat) : Nat × Nat := if i < 4096 then (8, i) else (9, i - 4096)
def Dev.imgBits (d : Dev) (i : Nat) : Nat := d.tget (imgTable i).1 0 (imgTable i).2
def Dev.setImgBits (d : Dev) (i v : Nat) : Dev := d.tset (imgTable i).1 0 (imgTable i).2 v
def imgWidth (i : Nat) : Nat := if i < 4096 then 512 else 16384

/-- The bits of an image as the engine reads them; none where they are in uncorrectable error (R130, log 79). -/
def Dev.readImg (d : Dev) (i : Nat) : Dev × Option Nat := d.entryRead (imgTable i).1 0 (imgTable i).2

/-- What an image holds beside its bytes. -/
def Dev.image (d : Dev) (i : Nat) : Image := SMap.get d.ste.images Image.init i
def Dev.setImage (d : Dev) (i : Nat) (x : Image) : Dev :=
  { d with ste := { d.ste with images := SMap.set d.ste.images Image.init i x } }

/-- The first due instant of a cyclic release after a DTIME (R174), in ns. -/
def nextCyclic (period phase t : Nat) : Nat :=
  let per := atLeastOne period * 1000000
  let ph := phase * 1000000
  if t < ph then ph else ph + ((t - ph) / per + 1) * per

/-- One release of an image (R174, R175). A cyclic and a triggered release of one instant make one, and a cyclic release leaves a
trigger pending whose gap has not ended. -/
def Dev.release (d : Dev) (i : Nat) (cyclic : Bool) : Dev :=
  let e := d.steEnt 0 i
  let d0 := d.steTouch 0 i
  let x := d0.image i
  let gapOver := match x.last with
    | some t => decide (t + imGap e * msCyc ≤ d.now)
    | none => true
  if !imValid e then d0
  else if x.last == some d.now && (cyclic || x.cyc == some d.dtime) then d0.setImage i { x with pend := x.pend && !gapOver }
  else
    let dx := d0.setImage i { x with last := some d.now, pend := x.pend && cyclic && !gapOver }
    let (dy, bits) := (if imForm e == 8 then dx.steTouch 5 (imCont e) else dx).readImg i
    match bits with
    | none => dy
    | some bits =>
    let d1 := dy
    let snap := leBytes (imLen e) bits
    let form := imForm e
    let p := if form == 8 then coEgress (d1.steEnt 5 (imCont e)) else imPort e
    let chan := d1.chan (imSecOut e)
    let n := snap.length + (if imSecEn e then min 8 (chFvLen chan) + chMacLen chan else 0)
    let pad := List.replicate (formLen form n - n) (BitVec.ofNat 8 (d1.get F.STE_CTRL_PAD))
    if !formFits form n || (form != 8 && !d1.formOk p 0 form) || (form == 8 && !coValid (d1.steEnt 5 (imCont e))) then
      d1.inc F.STE_FORMAT_DROP_COUNT
    else
      let (d2, data) := if imSecEn e then d1.authGenerate (imSecOut e) (snap ++ pad) else (d1, .ok (snap ++ pad))
      let tc := if form == 8 then coTc (d1.steEnt 5 (imCont e)) else 0
      let dl := if cyclic then dl8 (nextCyclic (imPeriod e) (imPhase e) d.dtime) else d.beDeadline d.dtime tc
      match data with
      | .fail | .full => d2
      | .ok bs =>
        if form == 8 then d2.contPdu (imCont e) (imId e) bs dl none 49 0
        else
          let m := d2.xlAttr p { Msg.init with form := 0 } { Msg.init with form := form, id := imId e, data := bs, sof := d.dtime }
          d2.originate p 0 m dl (if cyclic then .cyclic else .triggered)

/-- A trigger of an image: a release at once, or after the gap (R174). -/
def Dev.trigger (dd : Dev) (i : Nat) : Dev :=
  let e := dd.steEnt 0 i
  let d := dd.steTouch 0 i
  if imMode e == 1 || imMode e == 3 then
    match (d.image i).last with
    | none => d.release i false
    | some t =>
      if t + imGap e * msCyc ≤ d.now then d.release i false else d.setImage i { d.image i with pend := true }
  else d

/-- The triggers of one update, in order of the images. -/
def Dev.triggerAll (d : Dev) (l : List Nat) : Dev := l.foldl (fun d i => d.trigger i) d

/-! ### Signals (R168 to R172) -/

/-- The next payload position in Motorola order (R168). -/
def nextMot (q : Nat) : Nat := if q % 8 != 0 then q - 1 else q + 15

/-- The positions of a field of `n` bits from `q` on. -/
def sigPositions (mot : Bool) : Nat → Nat → List Nat
  | 0, _ => []
  | n + 1, q => q :: sigPositions mot n (if mot then nextMot q else q + 1)

/-- The positions in order of significance, least first. -/
def sigBits (mot : Bool) (p n : Nat) : List Nat :=
  if mot then (sigPositions true n p).reverse else sigPositions false n p

/-- The value at the given positions. -/
def gather (x : Nat) : List Nat → Nat
  | [] => 0
  | q :: l => b2n (bit x q) + 2 * gather x l

/-- A value written at the given positions. -/
def scatter (x v : Nat) : List Nat → Nat
  | [] => x
  | q :: l => scatter (setBit x q (v % 2 == 1)) (v / 2) l

/-- A route writes its value, or its default at a timeout, into its image (R170 to R172); the answer names the image when
a TRIGGER route changed one of its bits. -/
def Dev.sigWrite (d : Dev) (r : Nat) (value : Option Nat) : Dev × Option Nat :=
  let i := sgTarget r
  let pr := d.steEnt 1 (sgProf r)
  let (d0, bits) := (if sgProfEn r then d.steTouch 1 (sgProf r) else d).readImg i
  let n := sgLen r
  let low (x : Nat) : Nat := x % 2 ^ n
  let invalid := match value with
    | none => true
    | some v => suInvEn pr && v == low (suInvIn pr)
  let out : Option Nat :=
    match value with
    | none => if suHold pr then none else some (low (suDefault pr))
    | some v => some (if sgProfEn r && invalid then low (suInvOut pr) else v)
  match bits with
  | none => (d0, none)
  | some x =>
  let x1 := match out with
    | some v => scatter x v (sigBits (sgDstMot r) (sgDst r) n)
    | none => x
  let x2 := if sgProfEn r && suVbitEn pr && decide (suVbit pr < imgWidth i) then setBit x1 (suVbit pr) (invalid == suPol pr) else x1
  if x2 == x then (d0, none)
  else
    (d0.setImgBits i x2, if sgTrigger r then some i else none)

/-- The image list of an update, each image once. -/
def addOnce (l : List Nat) (i : Option Nat) : List Nat :=
  match i with
  | none => l
  | some k => if l.contains k then l else l ++ [k]

/-- The routes of a source frame, in index order (R170). -/
def Dev.sigRun (d : Dev) (payload : List Byte) : Nat → Nat → List Nat → Dev × List Nat
  | 0, _, tr => (d, tr)
  | n + 1, k, tr =>
    match d.entryRead 7 0 k with
    | (d1, none) => d1.sigRun payload n (k + 1) tr
    | (d1, some r) =>
      if !sgValid r then d1.sigRun payload n (k + 1) tr
      else
        let ps := sigBits (sgSrcMot r) (sgSrc r) (sgLen r)
        if ps.any (fun q => decide (8 * payload.length ≤ q)) then
          (d1.inc F.STE_SIG_SHORT_COUNT).sigRun payload n (k + 1) tr
        else
          let (d2, t) := d1.sigWrite r (some (gather (leNat payload) ps))
          d2.sigRun payload n (k + 1) (addOnce tr t)

/-- The routes of an entry at a source timeout (R172). -/
def Dev.sigTimeout (d : Dev) : Nat → Nat → List Nat → Dev × List Nat
  | 0, _, tr => (d, tr)
  | n + 1, k, tr =>
    match d.entryRead 7 0 k with
    | (d1, none) => d1.sigTimeout n (k + 1) tr
    | (d1, some r) =>
      if sgValid r && sgProfEn r then
        let (d2, t) := d1.sigWrite r none
        d2.sigTimeout n (k + 1) (addOnce tr t)
      else d1.sigTimeout n (k + 1) tr

/-- A monitor is refreshed by a frame of route entry `idx` (R161, R172). DESIGN CHOICE (log 83): of two entries that name one monitor,
the routes of the last that refreshed it write DEFAULT at its timeout. -/
def Dev.monRefresh (d : Dev) (mon idx : Nat) : Dev :=
  { d with ste := { d.ste with mons := SMap.set d.ste.mons none mon (some (d.now, idx)) } }.entryPut (steMem 7) 0 mon
    (d.dtime / 1000000 % 2 ^ 32 + 2 ^ 32)

/-! ### Actuation (R186) -/

/-- A verified copy for load channel `ch` becomes a command on the D2D link, or is refused as malformed. -/
def Dev.actuate (d : Dev) (ch : Nat) (payload : List Byte) : Dev :=
  let cmd := byteAt payload 0
  let duty := beNat (slice payload 2 2)
  if payload.length != 4 || decide (2 < cmd) || byteAt payload 1 != 0 || (cmd == 2 && decide (10000 < duty)) then
    d.inc F.STE_ACT_BAD_COUNT
  else
    let (d1, n) := d.takeOrder
    { d1 with load := { d1.load with flight := d1.load.flight ++ [(ch, cmd, duty, n)] } }

end Sys2Proof.Machine
end

