-- ==== Sys2Proof/Machine/XptOps.lean ====
section
/-!
DEFINITION. Transport sessions (chapter 9): connections, frames of ISO 15765-2, sessions and their ends, reception and
transmission.
-/
namespace Sys2Proof.Machine

/-! ### Connections (Table XPT-2) -/

def memConn : Nat := 64
def memCtx : Nat := 65

/-- A connection; one in uncorrectable error is not valid (R310). -/
def Dev.conn (d : Dev) (c : Nat) : Nat := if d.tables.bad.contains (tkey memConn 0 c) then 0 else d.tget memConn 0 c
def cnRxId (e : Nat) : Nat := bf e 0 29
def cnTxId (e : Nat) : Nat := bf e 32 29
def cnPort (e : Nat) : Nat := bf e 64 8
def cnForm (e : Nat) : Nat := bf e 72 2
def cnBrs (e : Nat) : Nat := bf e 74 1
def cnMode (e : Nat) : Nat := bf e 75 2
def cnFunc (e : Nat) : Bool := bit e 77
def cnValid (e : Nat) : Bool := bit e 79
def cnRxAe (e : Nat) : Nat := bf e 80 8
def cnTxAe (e : Nat) : Nat := bf e 88 8
def cnTxDl (e : Nat) : Nat := bf e 96 8
def cnBs (e : Nat) : Nat := bf e 104 8
def cnStmin (e : Nat) : Nat := bf e 112 8
def cnPadTx (e : Nat) : Bool := bit e 120
def cnReqPad (e : Nat) : Bool := bit e 121
def cnReport (e : Nat) : Bool := bit e 122
def cnBridge (e : Nat) : Bool := bit e 123
def cnPad (e : Nat) : Nat := bf e 128 8
def cnRing (e : Nat) : Nat := bf e 136 8
def cnWft (e : Nat) : Nat := bf e 144 8
def cnMaxDl (e : Nat) : Nat := bf e 160 16
def cnCont (e : Nat) : Nat := bf e 176 6
def cnOutPdu (e : Nat) : Nat := bf e 192 32
def cnInPdu (e : Nat) : Nat := bf e 224 32

/-- Bytes that the address takes at the start of a frame. -/
def cnAe (e : Nat) : Nat := if cnMode e == 0 then 0 else 1

/-- The valid connections, in order. -/
def Dev.conns (d : Dev) : List (Nat × Nat) :=
  (d.tbl.filter (fun p => p.1 / 2 ^ 24 == memConn * 2)).filterMap (fun p =>
    let c := p.1 % 2 ^ 24
    if cnValid (d.conn c) then some (c, d.conn c) else none)

/-- The engine runs (Table XPT-8, Table FLT-4). -/
def Dev.xptRuns (d : Dev) : Bool := d.flag F.XPT_CTRL_EN && d.ready 7 && !d.isolated blkXpt

/-- A timer value in ns. -/
def Dev.nAs (d : Dev) : Nat := atLeastOne (d.get F.XPT_TIMERS_A_N_AS_MS) * 1000000
def Dev.nBs (d : Dev) : Nat := atLeastOne (d.get F.XPT_TIMERS_A_N_BS_MS) * 1000000
def Dev.nCr (d : Dev) : Nat := atLeastOne (d.get F.XPT_TIMERS_B_N_CR_MS) * 1000000

/-- The STmin code in effect: a reserved one is used as 0x7F (Table XPT-1). -/
def stCode (x : Nat) : Nat := if x ≤ 0x7F || (decide (0xF1 ≤ x) && decide (x ≤ 0xF9)) then x else 0x7F

/-- An STmin code in ns (Table XPT-1). -/
def stNs (x : Nat) : Nat :=
  if x ≤ 0x7F then x * 1000000 else if 0xF1 ≤ x ∧ x ≤ 0xF9 then (x - 0xF0) * 100000 else 127000000

/-! ### Frames -/

/-- A frame of a connection: address, PCI, data, padding (R291). -/
def xptFrame (e : Nat) (pci : List Nat) (data : List Byte) : Msg :=
  let raw := (if cnAe e == 1 then bytes [cnTxAe e] else []) ++ bytes pci ++ data
  let want := if cnPadTx e then cnTxDl e else if 2 ≤ cnForm e then fdLen raw.length else raw.length
  { Msg.init with form := cnForm e, id := cnTxId e, flags := if 2 ≤ cnForm e then cnBrs e else 0,
                  data := raw ++ List.replicate (want - raw.length) (BitVec.ofNat 8 (cnPad e)) }

/-- The longest message of a single frame. -/
def sfMax (dl ae : Nat) : Nat := if dl ≤ 8 then 7 - ae else dl - 2 - ae

/-- A single frame: the 4-bit SF_DL in a frame of 8 B or fewer, the escape form in a longer one, padding included (Table XPT-1). -/
def sfFrame (e : Nat) (msg : List Byte) : Msg :=
  if msg.length + 1 + cnAe e ≤ 8 && !(cnPadTx e && decide (8 < cnTxDl e)) then xptFrame e [msg.length] msg else xptFrame e [0, msg.length] msg

/-- Message bytes that a first frame carries, and its PCI. -/
def ffPci (n : Nat) : List Nat :=
  if n ≤ 4095 then [0x10 + n / 256, n % 256] else [0x10, 0, n / 2 ^ 24 % 256, n / 2 ^ 16 % 256, n / 256 % 256, n % 256]
def ffBytes (e n : Nat) : Nat := cnTxDl e - (ffPci n).length - cnAe e

/-! ### Sessions -/

/-- The key of a connection's transmit or receive session. -/
def txKey (c : Nat) : Nat := 2 * c
def rxKey (c : Nat) : Nat := 2 * c + 1

def Dev.sess (d : Dev) (k : Nat) : Option Sess := SMap.get d.xpt.sess none k
def Dev.setSess (d : Dev) (k : Nat) (s : Option Sess) : Dev :=
  { d with xpt := { d.xpt with sess := SMap.set d.xpt.sess none k s } }

/-- A session is gone, and what waited of its own frame with it. -/
def Dev.endSess (d : Dev) (k : Nat) : Dev :=
  let other (e : XptEv) : Bool := match e with
    | .sent j _ _ | .gone j _ _ => j != k
    | .frame _ | .pdu _ | .abort _ => true
  let d1 := d.setSess k none
  let w := d1.xpt.waiting.foldl (fun w p => SMap.set w [] p.1 (p.2.filter other)) d1.xpt.waiting
  { d1 with xpt := { d1.xpt with waiting := w } }

/-- A session before it is filled. -/
def Sess.init : Sess :=
  ⟨none, 0, 0, 0, 0, 0, false, 0, 0, none, 0xFFFFFFFF, none, 0, 0, [], none, false, 8, 0, true, none, 0, 0, none, none, 0, 0, false⟩

/-- The lowest free context (R295). -/
def Dev.freeCtx (d : Dev) : Option Nat :=
  (List.range 256).find? (fun n => !d.xpt.sess.any (fun p => match p.2 with
    | some s => s.ctx == some n
    | none => false))

/-- Contexts in use (`XPT.STATUS.ACTIVE`). -/
def Dev.ctxUsed (d : Dev) : Nat := (d.xpt.sess.filter (fun p => match p.2 with
  | some s => s.ctx.isSome
  | none => false)).length

/-- A session's sequencer is paused (R309). -/
def Dev.seqPaused (d : Dev) (s : Sess) : Bool :=
  match s.ctx with
  | some n => bit (d.get F.XPT_STATUS_PAUSED) (n % 8)
  | none => false

/-- The paused sequencer that a session waits for. -/
def Dev.heldBy (d : Dev) (k : Nat) : Option Nat :=
  match d.sess k with
  | some s => if d.seqPaused s then s.ctx.map (fun n => n % 8) else none
  | none => none

/-- An event waits for a paused sequencer; a frame that finds 64 frames there is lost (R309). -/
def Dev.seqHold (d : Dev) (q : Nat) (e : XptEv) : Dev :=
  let l := SMap.get d.xpt.waiting [] q
  let frame (e : XptEv) : Bool := match e with
    | .frame _ => true
    | .pdu _ | .sent _ _ _ | .gone _ _ _ | .abort _ => false
  if frame e && decide (64 ≤ (l.filter frame).length) then (d.inc F.XPT_PAUSE_LOST_COUNT).fault blkXpt 0
  else { d with xpt := { d.xpt with waiting := SMap.set d.xpt.waiting [] q (l ++ [e]) } }

/-- The status-word error code of an N_Result (Table XPT-7). -/
def nErr (r : Nat) : Nat :=
  match r with
  | 0 => errOk | 1 | 2 | 3 => errTimeout | 4 | 5 | 6 | 7 => errPartner | 8 => errInternal | 9 => errPartner
  | _ => errAborted

/-- The counter of an N_Result (Table XPT-6). -/
def Dev.nCount (d : Dev) (r : Nat) (tx : Bool) : Dev :=
  match r with
  | 0 => d.inc (if tx then F.XPT_MSG_TX_COUNT else F.XPT_MSG_RX_COUNT)
  | 1 | 8 => d.inc F.XPT_TIMEOUT_A_COUNT
  | 2 => d.inc F.XPT_TIMEOUT_BS_COUNT
  | 3 => d.inc F.XPT_TIMEOUT_CR_COUNT
  | 4 => d.inc F.XPT_WRONG_SN_COUNT
  | 5 => d.inc F.XPT_INVALID_FS_COUNT
  | 6 => d.inc F.XPT_UNEXP_COUNT
  | 7 => d.inc F.XPT_OVFLW_RX_COUNT
  | 9 => d.inc F.XPT_WAIT_LIMIT_COUNT
  | _ => d

/-- A transport entry on a connection's ring (R300). -/
def Dev.xptEntry (d : Dev) (c result flags len : Nat) (bytes : Nat) (time : Nat) (msg : List Byte) : Dev :=
  let e := d.conn c
  let data := leBytes 2 c ++ leBytes 1 result ++ leBytes 1 flags ++ leBytes 4 len ++ leBytes 4 bytes ++ leBytes 4 0
    ++ leBytes 8 time ++ msg
  match d.rxWrite (cnRing e) ⟨2, 51, false, false, time⟩ data with
  | (d1, true) => d1
  | (d1, false) => d1.inc F.XPT_RING_LOST_COUNT

/-- The queued copy of a session's frame. -/
def Dev.xptCopy (d : Dev) (k : Nat) : Option Copy := d.fwd.copies.find? (fun c => c.kind == .xpt k)

/-- A session that ends withdraws its frame; one in transmission completes and is nobody's (R303). -/
def Dev.xptWithdraw (d : Dev) (k : Nat) : Dev :=
  match d.xptCopy k with
  | some c => if c.started then d.setCopy { c with kind := .xptOld } else (d.setCopy { c with kind := .plain }).dropCopy { c with kind := .plain } .aborted
  | none => d

/-- The index of the operation a transmit session serves is done: result block, then status word (R302). -/
def Dev.xptOpEnd (d : Dev) (s : Sess) (idx r : Nat) : Dev :=
  match d.host.ops.find? (fun o => o.ring == 59 && o.idx == idx) with
  | none => d
  | some o =>
    let res := leNat (d.hostRead (o.param + 16) 8)
    let blk := leBytes 1 r ++ leBytes 1 0 ++ leBytes 2 (s.ctx.getD 0xFFFF) ++ leBytes 4 s.bytes ++ leBytes 8 s.sentAt
    let d1 := if res == 0 then d else d.hostWrite res blk
    d1.finish { o with progress := s.bytes } (if r == 0 then .done else if r == 10 then .aborted else .failed) (nErr r)

/-- A session ends (R295, R306): its frame is withdrawn, its context and cells are freed, and its outcome is reported.
`count` is false where the end counts nowhere. -/
def Dev.xptEnd (d : Dev) (k r : Nat) (count : Bool) : Dev :=
  match d.sess k with
  | none => d
  | some s =>
    let c := k / 2
    let tx := k % 2 == 0
    let e := d.conn c
    let d1 := (d.xptWithdraw k).endSess k
    let d2 := if count then d1.nCount r tx else d1
    let d3 := match s.handle with
      | some h => match d2.frame h with
        | some f => (d2.setFrame h (some { f with whole := true })).releaseIf h
        | none => d2
      | none => d2
    if tx then
      match s.op with
      | some idx => d3.xptOpEnd s idx r
      | none => if r != 0 && cnReport e then d3.xptEntry c r (4 + b2n (cnFunc e)) s.len s.bytes s.validAt [] else d3
    else if r == 0 then d3
    else if cnReport e then d3.xptEntry c r (b2n (cnFunc e) + 2 * b2n s.fd) s.len s.bytes s.validAt []
    else d3

/-- A session's frame enters the heap (R297, R299). -/
def Dev.xptQueue (d : Dev) (k : Nat) (m : Msg) (carry : Nat) : Dev :=
  match d.sess k with
  | none => d
  | some s =>
    let t := d.dtime + d.nAs
    let d1 := d.setSess k (some { s with frame := some m, frameDl := t, carry := carry, dl := some t, again := none, next := none })
    d1.originate (cnPort (d.conn (k / 2))) 0 m (dl8 t) (.xpt k)

/-- An error in a connection met on a read (R310). -/
def Dev.connTouch (d : Dev) (c : Nat) : Dev :=
  if d.tables.bad.contains (tkey memConn 0 c) then d.faultCapture blkXpt 1 (d.entAccess (tkey memConn 0 c) c) false
  else if d.tables.soft.contains (tkey memConn 0 c) then
    ({ d with tables := { d.tables with soft := d.tables.soft.filter (fun k => k != tkey memConn 0 c) } }).inc F.XPT_MEM_CE_COUNT
  else d

/-- The engine reads the connections it searches: those in uncorrectable error that would have matched are captured (R310). -/
def Dev.connsTouch (d : Dev) (hit : Nat → Bool) : Dev :=
  d.tables.bad.foldl (fun d k =>
    if k / 2 ^ 24 == memConn * 2 && cnValid (d.tbl.get 0 k) && hit (d.tbl.get 0 k) then d.connTouch (k % 2 ^ 24) else d) d

/-- The engine reads the connection of a session before it builds a frame of it; a connection that is not valid any more ends the
session with N_ERROR (R310; DESIGN CHOICE, log 85). -/
def Dev.sessConn (d : Dev) (k : Nat) : Dev :=
  if (d.sess k).isNone then d
  else
    let d1 := d.connTouch (k / 2)
    if cnValid (d1.conn (k / 2)) then d1 else d1.xptEnd k 8 false

/-- A session's frame is offered again with its deadline (R299); not while its sequencer is paused (R309). -/
def Dev.xptReoffer (dd : Dev) (k : Nat) : Dev :=
  let d := if (dd.heldBy k).isSome then dd else dd.sessConn k
  match d.sess k with
  | none => d
  | some s =>
    match s.again, s.frame, d.heldBy k with
    | some t, some m, none =>
      let d1 := (d.reach t).setSess k (some { s with again := none })
      d1.originate (cnPort (d.conn (k / 2))) 0 m (dl8 s.frameDl) (.xpt k)
    | _, _, _ => d

/-- A session's frame left the heap unsent (R299): 0 evicted or dropped, 1 LATE, 2 removed. A session whose abort waited for the
frame ends ABORTED (R303). `now`: the CORE cycle at which it left. -/
def Dev.xptGone (d : Dev) (k n now : Nat) : Dev :=
  match d.sess k with
  | none => d
  | some s =>
    if s.stop then d.xptEnd k 10 false
    else if n == 0 then d.setSess k (some { s with again := some (now + msCyc) })
    else d.xptEnd k (if n == 1 then 1 else 8) true

/-- The same, once the sequencer of the session runs (R309). -/
def Dev.xptDropped (d : Dev) (k n : Nat) : Dev :=
  match d.heldBy k with
  | some q => d.seqHold q (.gone k n d.now)
  | none => d.xptGone k n d.now

/-! ### Context memory (R310) -/

/-- An error in a context met on a read: corrected, or the session ends N_ERROR (R310). -/
def Dev.ctxTouch (d : Dev) (n : Nat) : Dev :=
  let key := tkey memCtx 0 n
  if d.tables.bad.contains key then
    let d1 := (d.faultCapture blkXpt 1 (d.entAccess key n) false).entryPut memCtx 0 n 0
    match List.find? (fun (p : Nat × Option Sess) => match p.2 with
      | some s => s.ctx == some n
      | none => false) d1.xpt.sess with
    | some p => d1.xptEnd p.1 8 false
    | none => d1
  else if d.tables.soft.contains key then
    ({ d with tables := { d.tables with soft := d.tables.soft.filter (fun k => k != key) } }).inc F.XPT_MEM_CE_COUNT
  else d

/-- The engine reads the context of a session. -/
def Dev.sessTouch (d : Dev) (k : Nat) : Dev :=
  match (d.sess k).bind (fun s => s.ctx) with
  | some n => d.ctxTouch n
  | none => d

/-! ### Transmission -/

/-- The message bytes of a transmit session from an offset: host memory, or the PDU. -/
def Dev.xptBytes (d : Dev) (s : Sess) (off n : Nat) : List Byte :=
  match s.op with
  | some idx =>
    match d.host.ops.find? (fun o => o.ring == 59 && o.idx == idx) with
    | some o => d.hostRead (leNat (d.hostRead (o.param + 8) 8) + off) n
    | none => slice s.data off n
  | none => slice s.data off n

/-- A context that a session takes is written whole: its memory is without error. -/
def Dev.ctxClean (d : Dev) (ctx : Option Nat) : Dev :=
  match ctx with
  | some n => d.entryPut memCtx 0 n 0
  | none => d

/-- A transmit session starts: a single frame, or a first frame in context `ctx` (R295). State 6 stands for a single
frame in the heap, which takes no context. -/
def Dev.xptStart (d : Dev) (c : Nat) (s : Sess) : Dev :=
  let e := d.conn c
  if s.len ≤ sfMax (cnTxDl e) (cnAe e) then
    let d1 := d.setSess (txKey c) (some { s with state := 6, ctx := none })
    d1.xptQueue (txKey c) (sfFrame e (d1.xptBytes s 0 s.len)) s.len
  else
    let n := ffBytes e s.len
    let d1 := (d.setSess (txKey c) (some { s with state := 3, sn := 1, ctx := d.freeCtx })).ctxClean d.freeCtx
    d1.xptQueue (txKey c) (xptFrame e (ffPci s.len) (d1.xptBytes s 0 n)) n

/-- The next CF of a block enters the heap (R298). -/
def Dev.xptCf (dd : Dev) (k : Nat) : Dev :=
  let d := if (dd.heldBy k).isSome then dd else (dd.sessTouch k).sessConn k
  match d.sess k with
  | none => d
  | some s =>
    match s.next with
    | none => d
    | some t =>
      if s.state != 5 || s.frame.isSome || d.seqPaused s then d
      else
        let d1 := d.reach t
        let e := d1.conn (k / 2)
        let n := min (s.len - s.bytes) (cnTxDl e - 1 - cnAe e)
        d1.xptQueue k (xptFrame e [0x20 + s.sn % 16] (d1.xptBytes s s.bytes n)) n

/-- The progress of the XPT_SEND that a session serves is BYTES of its context (R302). -/
def Dev.xptProgress (d : Dev) (s : Sess) : Dev :=
  match s.op.bind (fun i => d.host.ops.find? (fun o => o.ring == 59 && o.idx == i)) with
  | some o => d.setOp { o with progress := s.bytes }
  | none => d

/-- A session's frame has been sent without error, its transmission ended at CORE cycle `now` and DTIME `t` (R297 to R299). -/
def Dev.xptDone (dd : Dev) (k now t : Nat) : Dev :=
  let d := dd.sessTouch k
  match d.sess k with
  | none => d
  | some s =>
    let d := d.xptProgress { s with bytes := s.bytes + s.carry }
    let s1 := { s with frame := none, bytes := s.bytes + s.carry, carry := 0, dl := none, sentAt := t }
    if s.stop then (d.setSess k (some s1)).xptEnd k 10 false
    else
      match s.state with
      | 6 => (d.setSess k (some s1)).xptEnd k 0 true
      | 3 => d.setSess k (some { s1 with state := 4, first := true, dl := some (t + d.nBs) })
      | 5 =>
        let s2 := { s1 with sn := (s.sn + 1) % 16 }
        if s.len ≤ s1.bytes then (d.setSess k (some s2)).xptEnd k 0 true
        else if s.block && s.bsLeft ≤ 1 then
          d.setSess k (some { s2 with state := 4, first := false, bsLeft := 0, dl := some (t + d.nBs) })
        else d.setSess k (some { s2 with bsLeft := s.bsLeft - 1, next := some (now + stNs s.stmin * 4 / 5) })
      | 2 => d.setSess k (some { s1 with state := 1, bytes := s.bytes, dl := some (s.lastRx + d.nCr) })
      | _ => d.setSess k (some s1)

/-- The same, once the sequencer of the session runs (R309). -/
def Dev.xptSent (d : Dev) (k : Nat) : Dev :=
  match d.heldBy k with
  | some q => d.seqHold q (.sent k d.now d.dtime)
  | none => d.xptDone k d.now d.dtime

/-! ### Reception -/

/-- A message is delivered (R300, R304). -/
def Dev.xptDeliver (d : Dev) (c : Nat) (fd : Bool) (len valid : Nat) (msg : List Byte) : Dev :=
  let e := d.conn c
  if cnBridge e then
    let d1 := d.steTouch 5 (cnCont e)
    d1.contPdu (cnCont e) (cnOutPdu e) msg (d1.beDeadline valid (coTc (d1.steEnt 5 (cnCont e)))) none (cnPort e) d1.fwd.seq
  else d.xptEntry c 0 (b2n (cnFunc e) + 2 * b2n fd) len msg.length valid msg

/-- The device's FC (Table XPT-1): CTS within a session, or OVFLW without one. -/
def Dev.xptFc (d : Dev) (c fs : Nat) : Dev :=
  let e := d.conn c
  let m := xptFrame e [0x30 + fs, cnBs e, cnStmin e] []
  if fs == 0 then
    match d.sess (rxKey c) with
    | some s => (d.setSess (rxKey c) (some { s with state := 2 })).xptQueue (rxKey c) m 0
    | none => d
  else d.originate (cnPort e) 0 m (dl8 (d.dtime + d.nAs)) .plain

/-- A running timer that expired before a frame-valid instant ends its session first (R298). -/
def Dev.xptExpire (d : Dev) (k : Nat) : Dev :=
  match d.sess k with
  | none => d
  | some s =>
    match s.state with
    | 1 => d.xptEnd k 3 true
    | 4 => d.xptEnd k 2 true
    | _ => d.xptEnd k 1 true

/-- A session whose timer had expired before `valid` ends; not while its sequencer is paused (R309). -/
def Dev.xptLapse (d : Dev) (k valid : Nat) : Dev :=
  match (d.sess k).bind (fun s => s.dl), d.heldBy k with
  | some t, none => if t < valid then d.xptExpire k else d
  | _, _ => d

/-- A session that a new SF or FF replaces ends (Table XPT-6). -/
def Dev.xptReplace (d : Dev) (c : Nat) : Dev := if (d.sess (rxKey c)).isSome then d.xptEnd (rxKey c) 6 true else d

/-- The report of an FF refused by OVFLW (R300). -/
def Dev.xptRefused (d : Dev) (e c n : Nat) (x : XptIn) : Dev :=
  if cnReport e then
    d.xptEntry c 7 (b2n (cnFunc e) + 2 * b2n (decide (2 ≤ x.msg.form))) n 0 x.valid []
  else d

/-- A sequencer is paused, for the context that a new session takes (R295, R309). -/
def Dev.ctxPaused (d : Dev) (n : Nat) : Bool := bit (d.get F.XPT_STATUS_PAUSED) (n % 8)

/-- A first frame of `n` message bytes (R305); it waits where the context it takes lies in a paused sequencer (R309; DEDUCED, log 85). -/
def Dev.xptFirst (d : Dev) (c : Nat) (x : XptIn) (n rxDl : Nat) (data : List Byte) : Dev :=
  let e := d.conn c
  let half := b2n (pipeB x.port)
  let cells := (n + 127) / 128
  if cnMaxDl e < n then ((d.inc F.XPT_OVFLW_DL_COUNT).xptFc c 2).xptRefused e c n x
  else
    match d.freeCtx with
    | none => ((d.inc F.XPT_SESS_FULL_COUNT).xptFc c 2).xptRefused e c n x
    | some ctx =>
      if d.ctxPaused ctx then d.seqHold (ctx % 8) (.frame x)
      else if d.unusedC half + cells ≤ d.freeCells half then
        let s := { Sess.init with
          ctx := some ctx, state := 1, len := n, bytes := data.length, sn := 1, bsLeft := cnBs e, block := cnBs e != 0
          stmin := cnStmin e, cells := cells, half := half, data := data, fd := decide (2 ≤ x.msg.form), rxDl := rxDl
          validAt := x.valid, lastRx := x.valid }
        ((d.setSess (rxKey c) (some s)).ctxClean (some ctx)).xptFc c 0
      else ((d.inc F.XPT_OVFLW_NORES_COUNT).xptFc c 2).xptRefused e c n x

/-- A consecutive frame for a receive session (Table XPT-6). -/
def Dev.xptConsecutive (d : Dev) (c : Nat) (s : Sess) (x : XptIn) (sn : Nat) (data : List Byte) : Dev :=
  let rest := s.len - s.bytes
  if data.length < rest && x.msg.data.length < s.rxDl then d.inc F.XPT_BAD_FRAME_COUNT
  else if sn != s.sn then d.xptEnd (rxKey c) 4 true
  else
    let got := data.take rest
    let s1 := { s with data := s.data ++ got, bytes := s.bytes + got.length, sn := (s.sn + 1) % 16, lastRx := x.valid }
    if s.len ≤ s1.bytes then
      ((d.setSess (rxKey c) (some s1)).xptDeliver c s.fd s.len s.validAt s1.data).xptEnd (rxKey c) 0 true
    else if s.block && s.bsLeft ≤ 1 then
      (d.setSess (rxKey c) (some { s1 with bsLeft := cnBs (d.conn c) })).xptFc c 0
    else d.setSess (rxKey c) (some { s1 with bsLeft := s.bsLeft - 1, dl := some (x.valid + d.nCr) })

/-- A flow control frame for a transmit session in TX_FC (Table XPT-6). -/
def Dev.xptFlow (d : Dev) (c : Nat) (s : Sess) (fs bs st valid : Nat) : Dev :=
  let k := txKey c
  match fs with
  | 0 => d.setSess k (some { s with
      state := 5, bsLeft := bs, block := bs != 0, stmin := stCode st, waits := 0, dl := none, first := false, next := some d.now })
  | 1 =>
    if s.waits < cnWft (d.conn c) then d.setSess k (some { s with waits := s.waits + 1, dl := some (valid + d.nBs) })
    else d.xptEnd k 9 true
  | 2 => d.xptEnd k (if s.first then 7 else 5) true
  | _ => d.xptEnd k 5 true

/-- A frame of a connection is served (R305, R306). An unpadded FC is ignored where REQ_PAD is 1 (Table XPT-2), uncounted:
Table XPT-6 counts an unpadded CF or SF only. -/
def Dev.xptServe (d : Dev) (c : Nat) (x : XptIn) : Dev :=
  let e := d.conn c
  let ae := cnAe e
  let p := x.msg.data.drop ae
  let n := x.msg.data.length
  let d0 := (d.xptLapse (rxKey c) x.valid).xptLapse (txKey c) x.valid
  let bad := d0.inc F.XPT_BAD_FRAME_COUNT
  let unpadded := cnReqPad e && x.msg.form < 2 && decide (n < 8)
  match byteAt p 0 / 16 with
  | 0 =>
    let esc := decide (8 < n)
    let len := if esc then byteAt p 1 else byteAt p 0 % 16
    let hdr := if esc then 2 else 1
    if p.length < hdr || unpadded || len == 0 || (esc && byteAt p 0 % 16 != 0) || p.length < hdr + len then bad
    else
      ((d0.xptReplace c).inc F.XPT_MSG_RX_COUNT).xptDeliver c (decide (2 ≤ x.msg.form)) len x.valid ((p.drop hdr).take len)
  | 1 =>
    if cnFunc e then d0.inc F.XPT_UNEXP_COUNT
    else
      let l12 := byteAt p 0 % 16 * 256 + byteAt p 1
      let esc := l12 == 0
      let len := if esc then beNat ((p.drop 2).take 4) else l12
      let hdr := if esc then 6 else 2
      if n < 8 || (esc && len ≤ 4095) || len ≤ sfMax n ae then bad
      else (d0.xptReplace c).xptFirst c x len n ((p.drop hdr).take len)
  | 2 =>
    match d0.sess (rxKey c) with
    | none => d0.inc F.XPT_UNEXP_COUNT
    | some s =>
      let short := decide (x.msg.data.length < s.rxDl) && decide (p.length - 1 < s.len - s.bytes)
      if p.length < 2 || unpadded || short then bad
      else if s.state != 1 then d0.inc F.XPT_UNEXP_COUNT
      else d0.xptConsecutive c s x (byteAt p 0 % 16) (p.drop 1)
  | 3 =>
    match d0.sess (txKey c) with
    | none => d0.inc F.XPT_UNEXP_COUNT
    | some s =>
      if s.state != 4 then d0.inc F.XPT_UNEXP_COUNT
      else if p.length < 3 then bad
      else if unpadded then d0
      else d0.xptFlow c s (byteAt p 0 % 16) (byteAt p 1) (byteAt p 2) x.valid
  | _ => bad

/-- The connection of a frame (R293). -/
def Dev.xptMatch (d : Dev) (x : XptIn) : Option Nat :=
  (d.conns.find? (fun p =>
    cnPort p.2 == x.port && cnRxId p.2 == x.msg.id && cnForm p.2 % 2 == x.msg.form % 2
      && (cnMode p.2 == 0 || cnRxAe p.2 == byteAt x.msg.data 0))).map (fun p => p.1)

/-- A frame that reaches target 51: CAN XL and LIN forms are discarded; else it is matched, held while its sequencer is paused, or
served (R291, R293, R309). An ACF CAN message has an Ethernet ingress, so no connection matches it. -/
def Dev.xptTake (d : Dev) (x : XptIn) : Dev :=
  if 4 ≤ x.msg.form && x.msg.form != 9 && x.msg.form != 10 then d.inc F.XPT_BAD_FRAME_COUNT
  else
    match d.xptMatch x with
    | none =>
      (d.connsTouch (fun e => cnPort e == x.port && cnRxId e == x.msg.id)).inc F.XPT_CONN_MISS_COUNT
    | some c =>
      let d := d.connTouch c
      let pci := byteAt (x.msg.data.drop (cnAe (d.conn c))) 0 / 16
      let k := if pci == 3 then txKey c else rxKey c
      match d.heldBy k with
      | some q => d.seqHold q (.frame x)
      | none => (d.sessTouch k).xptServe c x

/-- A PDU that reaches target 51 (R304); it waits where the context it takes lies in a paused sequencer (R309; DEDUCED, log 85). -/
def Dev.xptPdu (d : Dev) (x : XptPdu) : Dev :=
  let free (d : Dev) : Dev := match x.handle with
    | some h => match d.frame h with
      | some f => (d.setFrame h (some { f with whole := true })).releaseIf h
      | none => d
    | none => d
  match d.conns.find? (fun p => cnBridge p.2 && cnInPdu p.2 == x.id) with
  | none => free ((d.connsTouch (fun e => cnBridge e && cnInPdu e == x.id)).inc F.XPT_CONN_MISS_COUNT)
  | some (c, e) =>
    let d := d.connTouch c
    let sf := decide (x.data.length ≤ sfMax (cnTxDl e) (cnAe e))
    if (d.sess (txKey c)).isSome || (!sf && d.freeCtx.isNone) then free (d.inc F.XPT_BUSY_DROP_COUNT)
    else if x.data.length == 0 || (cnFunc e && !sf) then free d
    else if !sf && d.ctxPaused (d.freeCtx.getD 0) then d.seqHold (d.freeCtx.getD 0 % 8) (.pdu x)
    else d.xptStart c { Sess.init with len := x.data.length, data := x.data, handle := x.handle, validAt := d.dtime }

/-! ### The engine's own steps -/

/-- The first frame that waits for the engine (R306). -/
def Dev.xptFrameNext (d : Dev) : Dev :=
  match d.xpt.inq with
  | [] => d
  | x :: l =>
    let d1 := { d with xpt := { d.xpt with inq := l } }
    if d1.xptRuns then d1.xptTake x else d1

/-- The first PDU that waits for the engine (R304). -/
def Dev.xptPduNext (d : Dev) : Dev :=
  match d.xpt.pduq with
  | [] => d
  | x :: l =>
    let d1 := { d with xpt := { d.xpt with pduq := l } }
    if d1.xptRuns then d1.xptPdu x
    else
      match x.handle with
      | some h => match d1.frame h with
        | some f => (d1.setFrame h (some { f with whole := true })).releaseIf h
        | none => d1
      | none => d1

/-- The next queued XPT_SEND is tested and starts its session (R302); one whose context would lie in a paused sequencer stays
QUEUED until the sequencer resumes (R309; DEDUCED, log 85). -/
def Dev.xptSend (dd : Dev) : Dev :=
  match dd.nextQueued 59 [0x40] with
  | none => dd
  | some o =>
    let c := leNat (dd.hostRead o.param 2)
    let len := leNat (dd.hostRead (o.param + 4) 4)
    let e := dd.conn c
    let sf := decide (len ≤ sfMax (cnTxDl e) (cnAe e))
    let d := if dd.xptRuns && decide (c < 1024) then dd.connTouch c else dd
    if !dd.xptRuns then d.opFail o errDomainOff
    else if 1024 ≤ c || !cnValid e || cnBridge e || len == 0 || 65535 < len then d.opFail o errFormat
    else if cnFunc e && !sf then d.opFail o errLength
    else if (d.sess (txKey c)).isSome then d.opFail o errBusy
    else if !sf && d.freeCtx.isNone then d.opFail o errNores
    else if !sf && d.ctxPaused (d.freeCtx.getD 0) then d
    else (d.startOp o).xptStart c { Sess.init with len := len, op := some o.idx, source := o.seq, validAt := d.dtime }

/-- An abort that finds XPT_SEND running (R303): the session of ring index `idx` ends before its next frame, once its sequencer runs
(R309). -/
def Dev.xptAbort (d : Dev) (idx : Nat) : Dev :=
  match List.find? (fun (p : Nat × Option Sess) => match p.2 with
    | some s => s.op == some idx
    | none => false) d.xpt.sess with
  | some (k, some s) =>
    match d.heldBy k, d.xptCopy k with
    | some q, _ => d.seqHold q (.abort idx)
    | none, some c => if c.started then d.setSess k (some { s with stop := true }) else d.xptEnd k 10 false
    | none, none => d.xptEnd k 10 false
  | _ => d

/-- A sequencer pauses while its microcode is loaded (R309). -/
def Dev.seqPause (d : Dev) (q : Nat) : Dev :=
  if d.ready 7 then d.setBitOf F.XPT_STATUS_PAUSED q true else d

/-- The microcode that MGMT holds is loaded into a sequencer's microcode region, and no other part of its memory (R296). -/
def Dev.loadSeq (d : Dev) (q : Nat) : Dev :=
  if d.boot.seqCode.isEmpty then d
  else { d with xpt := { d.xpt with code := SMap.set d.xpt.code [] q d.boot.seqCode } }

/-- An event that waited for a sequencer takes its effect (R309). -/
def Dev.xptEvent (d : Dev) (e : XptEv) : Dev :=
  match e with
  | .frame x => d.xptTake x
  | .pdu x => d.xptPdu x
  | .sent k now t => d.xptDone k now t
  | .gone k n now => d.xptGone k n now
  | .abort idx => d.xptAbort idx

/-- A sequencer resumes with its microcode: its queued frames first, then its expired timers (R309). -/
def Dev.seqResume (d : Dev) (q : Nat) : Dev :=
  if !d.ready 7 then d
  else
    let l := SMap.get d.xpt.waiting [] q
    let d1 := (((d.loadSeq q).setBitOf F.XPT_STATUS_PAUSED q false).setBitOf F.XPT_STATUS_SEQ_READY q true)
    let d2 := l.foldl (fun d x => d.xptEvent x) { d1 with xpt := { d1.xpt with waiting := SMap.set d1.xpt.waiting [] q [] } }
    d2.xpt.sess.foldl (fun d p => match p.2 with
      | some s =>
        if s.ctx.map (fun n => n % 8) == some q then d.xptLapse p.1 d.dtime else d
      | none => d) d2

/-! ### Memory access (R294, R296) -/

/-- A session context (Table XPT-3). -/
def Dev.ctxEntry (d : Dev) (n : Nat) : Nat :=
  match List.find? (fun (p : Nat × Option Sess) => match p.2 with
    | some s => s.ctx == some n
    | none => false) d.xpt.sess with
  | some (k, some s) =>
    leNat (leBytes 1 s.state ++ leBytes 1 0 ++ leBytes 2 (k / 2) ++ leBytes 4 s.len ++ leBytes 4 s.bytes ++ leBytes 1 (s.sn % 16)
      ++ leBytes 1 (if s.block then s.bsLeft else 0) ++ leBytes 1 s.stmin ++ leBytes 1 s.waits ++ leBytes 8 (s.dl.getD 0)
      ++ leBytes 4 (if k % 2 == 0 then s.source else 0)
      ++ leBytes 2 (s.cells + ((s.handle.bind d.frame).map (fun f => f.cells)).getD 0))
  | _ => d.tget memCtx 0 n

/-- A context's words are overwritten (Table FLT-7): those of a session become its fields; a FREE context keeps them until it is
taken. -/
def Dev.ctxPut (d : Dev) (n v : Nat) : Dev :=
  match List.find? (fun (p : Nat × Option Sess) => match p.2 with
    | some s => s.ctx == some n
    | none => false) d.xpt.sess with
  | some (k, some s) =>
    let s1 := { s with
      state := bf v 0 8, len := bf v 32 32, bytes := bf v 64 32, sn := bf v 96 4, bsLeft := bf v 104 8
      block := s.block || bf v 104 8 != 0, stmin := bf v 112 8, waits := bf v 120 8
      dl := if bf v 128 64 == 0 then none else some (bf v 128 64), source := bf v 192 32
      cells := if s.handle.isSome then s.cells else bf v 224 16 }
    (d.setSess k none).setSess (2 * bf v 16 16 + k % 2) (some s1)
  | _ => d.tset memCtx 0 n v

/-- What tells a connection's frames: port, identifier, base or extended, address byte (R293). -/
def cnKey (e : Nat) : Nat × Nat × Nat × Option Nat :=
  (cnPort e, cnRxId e, cnForm e % 2, if cnMode e == 0 then none else some (cnRxAe e))

/-- Two valid connections that cannot stand together (R294). -/
def cnClash (a b : Nat) : Bool := cnKey a == cnKey b || (cnBridge a && cnBridge b && cnInPdu a == cnInPdu b)

/-- A valid connection that a write rejects (R294). -/
def Dev.cnBad (d : Dev) (c e : Nat) : Bool :=
  let dl := if cnForm e < 2 then cnTxDl e == 8 else [8, 12, 16, 20, 24, 32, 48, 64].contains (cnTxDl e)
  let rsv := bf e 29 3 != 0 || bf e 61 3 != 0 || bit e 78 || bf e 124 4 != 0 || bf e 152 8 != 0 || bf e 182 10 != 0
  cnValid e && (rsv || !(decide (20 ≤ cnPort e) && decide (cnPort e < 40)) || !dl || cnMode e == 3
    || !(decide (32 ≤ cnRing e) && decide (cnRing e ≤ 55)) || decide (cnMaxDl e < 8)
    || d.conns.any (fun p => p.1 != c && cnClash p.2 e))

/-- The access that MEM_CMD.GO starts. -/
def Dev.xptAccess (d : Dev) : Dev :=
  let m := d.get F.XPT_MEM_SEL_MEM
  let i := d.get F.XPT_MEM_SEL_INDEX
  let data := leNat ((List.range 8).flatMap (fun k => leBytes 4 (d.reg (R.XPT_MEM_DATA k))))
  let put (d : Dev) (v : Nat) : Dev := (List.range 8).foldl (fun d k => d.setReg (R.XPT_MEM_DATA k) (bf v (32 * k) 32)) d
  let res (d : Dev) (c : Nat) : Dev := d.set F.XPT_MEM_CMD_RESULT c
  if d.flag F.XPT_MEM_CMD_WRITE then
    if m == 1 then res d errFormat
    else if (d.sess (txKey i)).isSome || (d.sess (rxKey i)).isSome then res d errLocked
    else if d.cnBad i data then res d errFormat
    else res (d.entryPut memConn 0 i data) errOk
  else if m == 0 then res (put (d.connTouch i) (d.conn i)) errOk
  else if 256 ≤ i then res d errFormat
  else
    let d0 := d.ctxTouch i
    res (put d0 (d0.ctxEntry i)) errOk

end Sys2Proof.Machine
end

