-- ==== Sys2Proof/Machine/FwdOps.lean ====
section
/-!
DEFINITION. Forwarding (chapter 3): parse and classification, lookup, recovery and policing, storing with its egress
copies, HOST copies, and the serving of field frames and intake elements by their route (R161).
-/
namespace Sys2Proof.Machine

/-! ### Rates and wire times -/

/-- Mbit/s of a rate code (Table ETH-2). -/
def rateMbps (c : Nat) : Nat :=
  match c with
  | 0 => 100 | 1 => 1000 | 2 => 2500 | 3 => 5000 | 4 => 10000 | 5 => 25000 | _ => 10

/-- The current rate of an Ethernet or T1S port, in Mbit/s. -/
def Dev.portRate (d : Dev) (p : Nat) : Nat := if p < 12 then rateMbps (d.get (F.ETH_RATE_CUR p)) else 10

/-- CORE cycles for a number of bits at a rate in Mbit/s, rounded up. -/
def bitCycles (bits mbps : Nat) : Nat := (bits * usCyc + mbps - 1) / atLeastOne mbps

/-! ### Parser (R75) -/

/-- What the parser finds in a frame. -/
structure Hdr where
  da : Nat
  sa : Nat
  /-- Tag control words, outermost first. -/
  tags : List Nat
  rtag : Option Nat
  /-- Offset after the VLAN tags, offset of the EtherType, and the EtherType. -/
  tagEnd : Nat
  off : Nat
  etype : Nat
  deriving DecidableEq, Repr

/-- Two bytes in network order. -/
def be16 (bs : List Byte) (off : Nat) : Nat := beNat (slice bs off 2)

/-- The parse of a frame (R75): up to two tags of TPID 0x8100, then an R-TAG. -/
def parseHdr (bs : List Byte) : Hdr :=
  let tags := if be16 bs 12 != 0x8100 then [] else if be16 bs 16 != 0x8100 then [be16 bs 14] else [be16 bs 14, be16 bs 18]
  let o := 12 + 4 * tags.length
  let r := be16 bs o == 0xF1C1
  let o1 := if r then o + 6 else o
  ⟨leNat (slice bs 0 6), leNat (slice bs 6 6), tags, if r then some (be16 bs (o + 4)) else none, o, o1, be16 bs o1⟩

/-- A group address, among addresses as numbers with byte 0 lowest. -/
def groupAddr (a : Nat) : Bool := bit a 0

/-- The broadcast address. -/
def broadcastAddr : Nat := 2 ^ 48 - 1

/-! ### HOST copies (R420 to R422) -/

/-- The RX ring of an ingress port (`HOSTIF.RX_MAP`). -/
def Dev.rxRing (d : Dev) (p : Nat) : Nat :=
  match p % 4 with
  | 0 => d.get (F.HIF_RX_MAP_RING_0 (p / 4))
  | 1 => d.get (F.HIF_RX_MAP_RING_1 (p / 4))
  | 2 => d.get (F.HIF_RX_MAP_RING_2 (p / 4))
  | _ => d.get (F.HIF_RX_MAP_RING_3 (p / 4))

/-- A HOST copy of a frame. -/
def Dev.toHost (d : Dev) (p kind : Nat) (ovs filt : Bool) (start : Nat) (data : List Byte) : Dev :=
  (d.rxWrite (d.rxRing p) ⟨kind, p, ovs, filt, start⟩ data).1

/-- The record of Table CAN-4. -/
def fieldRecord (m : Msg) (port state : Nat) : List Byte :=
  leBytes 4 (m.id % 2 ^ 29) ++ leBytes 1 m.form ++ leBytes 1 m.flags ++ leBytes 1 port
    ++ leBytes 1 (if m.form == 4 || m.form == 12 then m.sdt else 0) ++ leBytes 4 (if m.form == 4 || m.form == 12 then m.af else 0)
    ++ leBytes 1 (if m.form == 4 || m.form == 12 then m.vcid else 0) ++ leBytes 1 state ++ leBytes 2 0

/-- A frame for MGMT is queued to be served (Table PIPE-2). -/
def Dev.toMgmt (d : Dev) (p : Nat) (bs : List Byte) : Dev :=
  { d with fwd := { d.fwd with mgmt := d.fwd.mgmt ++ [(p, bs)] } }

/-! ### Bus ledger (R69, Table PROM-9) -/

def lgId (e : Nat) : Nat := bf e 0 29
def lgForm (e : Nat) : Nat := bf e 32 8
def lgDeviceSent (e : Nat) : Bool := bit e 40
def lgBrs (e : Nat) : Bool := bit e 42
def lgLen (e : Nat) : Nat := bf e 48 16
def lgPeriod (e : Nat) : Nat := bf e 64 32
def lgJitter (e : Nat) : Nat := bf e 96 32

/-- A ledger break (R69): the flag, the counter, and the excuse of the frames that wait on the port. -/
def Dev.ledgerBreak (d : Dev) (p : Nat) : Dev :=
  ({ d with anvil := { d.anvil with breakAt := SMap.set d.anvil.breakAt none p (some d.now) } }.inc
    F.ANVIL_LEDGER_VIOL_COUNT).excuse p (fun _ => true)

/-- A foreign frame is compared with the ledger of its port, where one is loaded (R69): identifier or node, form (6 on
T1S), length, BRS, and on T1S the frame's number in its burst, from 0. -/
def Dev.ledgerCheck (d : Dev) (p form id len : Nat) (brs : Bool) (burst : Nat) : Dev :=
  match SMap.get d.anvil.ledgers none p with
  | none => d
  | some l =>
    let key := id * 8 + form
    let s : List Seen := SMap.get d.anvil.seen [] p
    let prev := s.find? (fun x => x.key == key)
    let d1 := { d with anvil := { d.anvil with
      seen := SMap.set d.anvil.seen [] p (s.filter (fun (x : Seen) => x.key != key) ++ [⟨key, d.now, burst⟩]) } }
    match l.find? (fun e => lgId e == id && lgForm e == form) with
    | none => d1.ledgerBreak p
    | some e =>
      let early := form != 6 && (match prev with
        | some x => decide (d.now + lgJitter e * usCyc < x.time + lgPeriod e * usCyc)
        | none => false)
      if lgLen e < len || ((form == 2 || form == 3) && lgBrs e && !brs) || early || (form == 6 && lgPeriod e % 256 < burst)
      then d1.ledgerBreak p else d1

/-! ### Policing and recovery (R84, R85, R121 to R125) -/

/-- Tokens at the present instant, in 10⁻⁵ × 2⁻¹⁰ bit. DESIGN CHOICE (log 83): the part below the 1/1,024 bit of R84 is kept from one
update to the next; R84 does not say what becomes of it. -/
def Dev.tokensNow (d : Dev) (k : Contract) : Nat :=
  min (8 * rqBurst k.req * 102400000) (k.tokens + (d.now - k.tokAt) * rqRate k.req * 128)

/-- A frame of a contract is not conforming (R85). -/
def Dev.nonConforming (d : Dev) (i p : Nat) : Dev :=
  (d.measUpdate i (fun m => { m with police := sat32 m.police })).cnt F.CNT_DROP_POLICE_COUNT p

/-- The ingress ports of R84 test 1. -/
def ingressAllowed (r p : Nat) : Bool :=
  if rqKeyType r == 1 then p == rqIngress r
  else if rqRedund r == 2 then p == rqIngress r || p == rqTwin r
  else if rqIngress r < 20 then p == rqIngress r
  else decide (p < 20) && !bit (rqEgress r) p

/-- The policer of a contract (R84): whether the frame conforms. -/
def Dev.police (d : Dev) (i p len : Nat) : Dev × Bool :=
  match d.contract i with
  | none => (d, false)
  | some k =>
    let charge := 8 * max len (rqMin k.req) * 102400000
    let t := d.tokensNow k
    if !ingressAllowed k.req p || rqMax k.req < len || t < charge then (d.nonConforming i p, false)
    else (d.setContract i (some { k with tokens := t - charge, tokAt := d.now }), true)

/-- What sequence recovery makes of a frame. -/
inductive CbTest where
  | pass | dup | rogue
  deriving DecidableEq, Repr

/-- Sequence recovery of a contract (R123), by the vector algorithm of IEEE 802.1CB. -/
def Dev.cbTest (d : Dev) (k : Contract) (s : Nat) : CbTest × Contract :=
  let h := min 32 (atLeastOne (d.get F.FWD_CB_CFG_HISTORY))
  let idle := match k.passAt with
    | none => true
    | some t => decide (t + atLeastOne (d.get F.FWD_CB_CFG_RESET_MS) * msCyc ≤ d.now)
  match k.hist with
  | [] => (.pass, { k with hist := [s], passAt := some d.now })
  | m :: old =>
    let up := (s + 65536 - m % 65536) % 65536
    let down := (65536 - up) % 65536
    if idle then (.pass, { k with hist := [s], passAt := some d.now })
    else if up != 0 && up < 32768 then
      if h ≤ up then (.rogue, k)
      else (.pass, { k with
        hist := s :: (m :: old).filter (fun x => decide ((s + 65536 - x) % 65536 < h)), passAt := some d.now })
    else if h ≤ down then (.rogue, k)
    else if (m :: old).contains s then (.dup, k)
    else (.pass, { k with hist := m :: s :: old, passAt := some d.now })

/-- A member ingress of a contract has delivered a frame (R125). -/
def Dev.cbSeen (d : Dev) (k : Contract) (p : Nat) : Contract :=
  if p == rqIngress k.req then { k with last0 := d.now, silent0 := false } else { k with last1 := d.now, silent1 := false }

/-! ### Storing with egress copies (stages 10 and 11) -/

/-- What a copy of a frame becomes: a queued copy with its sleep policy, or a PDU of a container with its deadline. -/
inductive Dest where
  | copy (c : Copy) (sleep : Nat)
  | pdu (cont id : Nat) (data : List Byte) (deadline : Nat)
  deriving DecidableEq, Repr

/-- A copy that R83 removes: its egress is unavailable, or its sleep policy drops it. -/
def Dev.removed (d : Dev) (p sleep : Nat) : Bool :=
  !d.portAvail p || (!d.awake p && !(sleep == 1 || sleep == 2))

/-- A destination that R83 does not remove. -/
def Dev.stays (d : Dev) (x : Dest) : Bool := match x with
  | .copy c s => !d.removed c.port s
  | .pdu _ _ _ _ => true

/-- A copy removed before it is stored. -/
def Dev.removeCopy (d : Dev) (f : Frame) (c : Copy) : Dev :=
  let d1 := (d.cnt F.CNT_DROP_UNAVAIL_COUNT c.port).dropKind c .unavail
  (d1.lostFrame f c.port (c.excused || d.copyExcused c f) false).txDropped f.hostTag (some errDomainOff)

/-- A destination is served from the stored frame `h`. -/
def Dev.serveDest (d : Dev) (f : Frame) (h : Nat) (x : Dest) : Dev :=
  match x with
  | .copy c s => d.enqueue { c with handle := h } s
  | .pdu k id bs dl => d.contPdu k id bs dl f.contract f.ingress f.order

/-- A frame without room (R91, R92): one drop, one breach of a conforming frame. -/
def Dev.noRoom (d : Dev) (f : Frame) (l : List Dest) : Dev :=
  let d1 := d.cnt F.CNT_DROP_NORES_COUNT f.ingress
  let (port, prio) : Nat × Nat := match l with
    | .copy c _ :: _ => (c.port, c.prio.getD f.prio)
    | .pdu k _ _ _ :: _ => let e := d.steEnt 5 k; (coEgress e, enPcp e)
    | [] => (0, f.prio)
  let d2 := d1.lostFrame f port (d.excusedNow port prio f.ingress) false
  l.foldl (fun d _ => d.txDropped f.hostTag (some errNores)) d2

/-- A frame is stored with the cells of `n` bytes and its destinations are served; removed copies take no room (R83).
The answer names its handle. `whole` is false for a frame still being received. -/
def Dev.storeAnd (d : Dev) (f : Frame) (n : Nat) (l : List Dest) (whole : Bool) : Dev × Option Nat :=
  let d1 := l.foldl (fun d x => match x with
    | .copy c s => if d.removed c.port s then d.removeCopy f c else d
    | .pdu _ _ _ _ => d) d
  let keep := l.filter d.stays
  if keep.isEmpty then (d1, none)
  else
    match d1.store { f with whole := false } n with
    | (d2, none) => (d2.noRoom f keep, none)
    | (d2, some h) =>
      let d3 := keep.foldl (fun d x => d.serveDest f h x) d2
      if whole then
        match d3.frame h with
        | some g => ((d3.setFrame h (some { g with whole := true })).releaseIf h, some h)
        | none => (d3, some h)
      else (d3, some h)

/-- What was stored from the `n`-th place on for port `p` entered as the `o`-th: it waited in a queue (R185). -/
def Dev.enteredAs (d : Dev) (p n o : Nat) : Dev :=
  let place (q k : Nat) : Nat := if q == p && decide (n ≤ k) then o else k
  { d with
    fwd := { d.fwd with frames := d.fwd.frames.map (fun x => (x.1, x.2.map (fun f =>
      { f with order := place f.ingress f.order, carries := f.carries.map (fun y => (y.1, place y.1 y.2)) }))) }
    ste := { d.ste with intakes := d.ste.intakes.map (fun x => { x with order := place x.port x.order }) } }

/-- A frame before it is stored. -/
def Dev.newFrame (d : Dev) (p half : Nat) (m : Msg) (prio vid : Nat) (contract : Option Nat) (start : Nat) : Dev × Frame :=
  let (d1, n) := d.takeOrder
  (d1, ⟨p, half, m, prio, vid, contract, start, d.get F.TIME_STATUS_EPOCH, false, 0, 0, false, false, [], none, none, false, n, [], []⟩)

/-! ### Ethernet lookup (R78, R81, R145) -/

/-- What classification and lookup decide for an Ethernet frame. -/
structure EthPlan where
  prio : Nat
  vid : Nat
  contract : Option Nat
  /-- R-TAG to insert (R122); the R-TAG received is removed (R123). -/
  insert : Option Nat
  strip : Bool
  ports : List Nat
  host : Bool
  /-- UNTAGGED ports of the VID. -/
  untag : Nat
  deriving DecidableEq, Repr

/-- Classification (R78): priority and VID, or a discard. A host frame (port 48) has no `PORT_CFG`: its priority is the
descriptor's `hp`, and the VID of an untagged one is a free value (log 20). DESIGN CHOICE (log 69): a tagged frame of VID 0 is
tested by ACC_UNTAG alone. -/
def Dev.classify (d : Dev) (p hp : Nat) (h : Hdr) : Dev × Option (Nat × Nat) :=
  let tag := h.tags.head?.getD 0
  let untagged := h.tags.isEmpty || tag % 4096 == 0
  let prio := if h.tags.isEmpty then (if p == 48 then hp else d.get (F.FWD_PORT_CFG_DEF_PCP p)) else tag / 8192
  if p == 48 then
    if untagged then (d.tookFree, some (prio, d.freeNat 12)) else (d, some (prio, tag % 4096))
  else if !d.flag (if untagged then F.FWD_PORT_CFG_ACC_UNTAG p else F.FWD_PORT_CFG_ACC_TAG p) then
    (d.cnt F.CNT_DROP_VLAN_COUNT p, none)
  else (d, some (prio, if untagged then d.get (F.FWD_PORT_CFG_PVID p) else tag % 4096))

/-- A frame is a candidate for learning (R143): its VID's entry learns and its SA is an individual address. -/
def Dev.learnCand (d : Dev) (pipe sa vid p : Nat) : Dev × Bool :=
  let (d1, v) := d.vlan pipe vid
  (d1, decide (p < 20) && vlanValid v && vlanLearn v && !groupAddr sa && sa != 0)

/-- Ingress learning (R144); the second answer says that the learn limit discards the frame (R146). -/
def Dev.learnIn (d : Dev) (p pipe sa vid : Nat) : Dev × Bool :=
  match d.learnCand pipe sa vid p with
  | (d1, true) => d1.learn pipe p sa vid false
  | (d1, false) => (d1, false)

/-- Steps 2 to 4 of R81: the egress ports, HOST, and the UNTAGGED set; none where the frame is discarded. -/
def Dev.bridge (d : Dev) (p pipe da vid : Nat) : Dev × Option (List Nat × Bool × Nat) :=
  let (d1, v) := d.vlan pipe vid
  if !vlanValid v || (decide (p < 20) && !bit (vlanMembers v) p) then (d1.cnt F.CNT_DROP_VLAN_COUNT p, none)
  else
    let (d2, e) := if da == broadcastAddr then (d1, none) else d1.fdbFind pipe da vid
    let flood := (vlanMembers v, vlanFloodHost v)
    let (set, host, disc) : Nat × Bool × Bool := match e with
      | none => (flood.1, flood.2, false)
      | some (_, e) =>
        if groupAddr da then (bf e 64 20, false, false)
        else (if fdbPort e < 20 then 2 ^ fdbPort e else 0, fdbPort e == 48, fdbStatic e && fdbDiscard e)
    let ports := (bitsOf 20 set).filter (fun q => q != p && bit (vlanMembers v) q)
    let host := host && p != 48
    if disc || (ports.isEmpty && !host) then (d2.cnt F.CNT_DROP_FILTER_COUNT p, none)
    else (d2, some (ports, host, bf v 48 20))

/-- The frame of `len` bytes of an in-line job that found no free queue entry is discarded; a conforming frame of contract `i` is lost
toward its egress `q`, which is a breach (R313). -/
def Dev.inlineLost (d : Dev) (i : Option Nat) (p len q prio : Nat) : Dev :=
  let d1 := d.cnt F.CNT_DROP_NORES_COUNT p
  match i with
  | none => d1
  | some i =>
    match d1.police i p len with
    | (d2, true) => d2.lost i q (d2.excusedNow q prio p) false
    | (_, false) => d1

/-- An authenticated PDU of an Ethernet contract `i` is verified (R84): the bytes after the EtherType are its data. `n` is its length
from DA to FCS, `prio` its priority. -/
def Dev.ethVerify (d : Dev) (p i : Nat) (k : Contract) (bs : List Byte) (h : Hdr) (n prio : Nat) : Dev × Bool :=
  if rqSecIn k.req == 0xFFFF then (d, true)
  else
    match d.authVerify (rqSecIn k.req) (bs.drop (h.off + 2)) with
    | (d1, .ok _) => (d1, true)
    | (d1, .fail) => (d1.cnt F.CNT_DROP_AUTH_COUNT p, false)
    | (d1, .full) => (d1.inlineLost (some i) p n ((bitsOf 20 (rqEgress k.req)).headD 0) prio, false)

/-- A frame that hits the stream entry of contract `i` (R81 step 1): recovery, verification, policing, numbering. -/
def Dev.streamPlan (d : Dev) (p i : Nat) (k : Contract) (bs : List Byte) (h : Hdr) (n prio vid : Nat) : Dev × Option EthPlan :=
  let member := rqRedund k.req == 2 && (p == rqIngress k.req || p == rqTwin k.req)
  let k0 := if member then d.cbSeen k p else k
  let d0 := if member then d.setContract i (some k0) else d
  let (t, k1) : CbTest × Contract := match member, h.rtag with
    | true, some s => d0.cbTest k0 s
    | _, _ => (.pass, k0)
  match t with
  | .dup => (d0.cnt F.CNT_CB_DUP_COUNT p, none)
  | .rogue => (d0.cnt F.CNT_CB_ROGUE_COUNT p, none)
  | .pass =>
    let d1 := d0.setContract i (some k1)
    match d1.ethVerify p i k1 bs h n prio with
    | (d2, false) => (d2, none)
    | (d2, true) =>
      if rqRedund k.req == 2 && h.rtag.isNone then (d2.nonConforming i p, none)
      else
        match d2.police i p n with
        | (d3, false) => (d3, none)
        | (d3, true) =>
          let seq := (d3.contract i).map (fun k => k.seq)
          let gen := rqRedund k.req == 1
          let d4 := match d3.contract i with
            | some k2 => if gen then d3.setContract i (some { k2 with seq := (k2.seq + 1) % 65536 }) else d3
            | none => d3
          -- the tag is removed for the VID's UNTAGGED ports (Table ETH-1)
          let (d5, v) := d4.vlan (b2n (pipeB p)) vid
          (d5, some ⟨prio, vid, some i, if gen then seq else none, rqRedund k.req == 2 && h.rtag.isSome,
            bitsOf 20 (rqEgress k.req), false, if vlanValid v then bf v 48 20 else 0⟩)

/-- Classification to policing of an Ethernet frame of `n` bytes from DA to FCS on port `p` (R78, R81, R84). `learn` asks
for ingress learning with the lookup. -/
def Dev.ethPlan (d : Dev) (p pipe hp : Nat) (bs : List Byte) (h : Hdr) (n : Nat) (learn : Bool) : Dev × Option EthPlan :=
  match d.classify p hp h with
  | (d1, none) => (d1, none)
  | (d1, some (prio, vid)) =>
    let (d2, s) := if p < 20 then d1.stream pipe h.da vid else (d1, none)
    let (d3, held) := if learn then d2.learnIn p pipe h.sa vid else (d2, false)
    match s.bind (fun x => (d3.contract x.1).map (fun k => (x.1, k))) with
    | some (i, k) =>
      if held then (d3.cnt F.CNT_DROP_FILTER_COUNT p, none) else d3.streamPlan p i k bs h n prio vid
    | none =>
      match d3.bridge p pipe h.da vid with
      | (d4, none) => (d4, none)
      | (d4, some (ports, host, untag)) =>
        if held then (d4.cnt F.CNT_DROP_FILTER_COUNT p, none)
        else (d4, some ⟨prio, vid, none, none, false, ports, host, untag⟩)

/-! ### Ethernet egress forms (R122, R123, R231) -/

/-- A frame with an R-TAG after its VLAN tags (R122). -/
def withRtag (off s : Nat) (bs : List Byte) : List Byte :=
  bs.take off ++ bytes [0xF1, 0xC1, 0, 0] ++ beBytes 2 s ++ bs.drop off

/-- The egress form of a frame on a port, from the DA to the byte before the FCS; the R-TAG goes into uplink copies. -/
def EthPlan.form (x : EthPlan) (q : Nat) (h : Hdr) (bs : List Byte) : List Byte :=
  let a := if x.strip then bs.take h.tagEnd ++ bs.drop (h.tagEnd + 6) else bs
  let b := match x.insert with
    | some s => if q < 4 then withRtag h.tagEnd s a else a
    | none => a
  pad60 (if bit x.untag q && !h.tags.isEmpty then b.take 12 ++ b.drop 16 else b)

/-- The TC and the deadline of a copy on an Ethernet egress (R36, R63, R108). -/
def Dev.ethTcDl (d : Dev) (contract : Option Nat) (start q prio : Nat) : Nat × Nat :=
  match contract.bind d.contract with
  | some k => (rqTc k.req, dl8 (start + k.bound))
  | none => let tc := d.beTc q prio; (tc, d.beDeadline start tc)

/-- The copies of a frame: destinations in rising order of the ports. `wait` names the copies that wait for the whole
frame. -/
def Dev.ethDests (d : Dev) (x : EthPlan) (h : Hdr) (bs : List Byte) (start : Nat) (wait : Nat → Bool) : List Dest :=
  x.ports.map (fun q =>
    let (tc, dl) := d.ethTcDl x.contract start q x.prio
    .copy { Copy.new 0 q tc (ethMsg (x.form q h bs)) dl .plain with wait := wait q }
      (if q < 48 then d.get (F.NM_SEG_CFG_ETH_POLICY q) else 0))

/-- A copy of a stored frame is queued on an Ethernet port of the other pipeline than `pipe`. -/
def Dev.queuedAcross (d : Dev) (pipe handle : Nat) : Bool :=
  d.fwd.copies.any (fun c => c.handle == handle && !c.wait && decide (c.port < 20) && b2n (pipeB c.port) == 1 - pipe)

/-- Egress learning by the other pipeline, for a frame of which a copy was queued on one of its Ethernet ports (R144). -/
def Dev.learnOut (d : Dev) (p pipe sa vid : Nat) : Dev :=
  match d.learnCand (1 - pipe) sa vid p with
  | (d1, true) => (d1.learn (1 - pipe) p sa vid true).1
  | (d1, false) => d1

/-! ### Intake (R166) -/

/-- The intake filter that takes a frame's HOST copy. -/
def Dev.intakeFilter (d : Dev) (h : Hdr) (vid : Nat) (bs : List Byte) : Option Nat :=
  (List.range 16).find? (fun i =>
    let e := d.steEnt 6 i
    inValid e && enDa e == h.da && (inVidAny e || enVid e == vid)
      && (if inKind e == 0 then h.etype == d.get F.STE_CONT_ETYPE_ETYPE
          else inKind e == 1 && h.etype == 0x22F0 && leNat (slice bs (h.off + 6) 8) == inStream e))

/-- The HOST copy of a frame that was looked up: to the STE through a filter, else to a receive ring (R166, R422). With
the STE disabled, intake frames are discarded uncounted (R189). -/
def Dev.hostOrIntake (d : Dev) (p : Nat) (h : Hdr) (vid start : Nat) (bs : List Byte) : Dev :=
  let d0 := (List.range 16).foldl (fun d i => d.steTouch 6 i) d
  match d0.intakeFilter h vid bs with
  | some i =>
    if d0.steRuns then
      let (d1, n) := d0.takeOrder
      { d1 with ste := { d1.ste with intakes := d1.ste.intakes ++ [⟨i, bs, start, p, n⟩] } }
    else d0
  | none => d0.toHost p 0 false false start bs

/-- A planned Ethernet frame is stored with its copies, egress learning done, and its HOST copy made; one that finds no room is
discarded, its HOST copy with it (R91). -/
def Dev.ethForward (d : Dev) (p pipe : Nat) (bs : List Byte) (h : Hdr) (start : Nat) (x : EthPlan) : Dev :=
  let host (d : Dev) : Dev := if x.host then d.hostOrIntake p h x.vid start bs else d
  if x.ports.isEmpty then host d
  else
    let (d1, f) := d.newFrame p pipe (ethMsg bs) x.prio x.vid x.contract start
    let l := d1.ethDests x h bs start (fun _ => false)
    match d1.storeAnd f (bs.length + 4) l true with
    | (d2, some hd) => host (if d2.queuedAcross pipe hd then d2.learnOut p pipe h.sa x.vid else d2)
    | (d2, none) => if l.any d1.stays then d2 else host d2

/-! ### Field frames and intake elements (R82, R161) -/

/-- A served source: the message, its payload without a verified trailer, where it entered, and its contract. -/
structure Source where
  m : Msg
  payload : List Byte
  port : Nat
  start : Nat
  state : Nat
  contract : Option Nat
  /-- The sequence number of a REDUND = 1 contract (R122). -/
  seq : Option Nat
  deriving DecidableEq, Repr

/-- A conforming frame of a REDUND = 1 contract takes its sequence number (R122). -/
def Dev.numbered (d : Dev) (s : Source) : Dev × Source :=
  match s.contract.bind (fun i => (d.contract i).map (fun k => (i, k))) with
  | some (i, k) =>
    if rqRedund k.req == 1 then (d.setContract i (some { k with seq := (k.seq + 1) % 65536 }), { s with seq := some k.seq })
    else (d, s)
  | none => (d, s)

/-- A PDU for the transport engine is stored until its session ends (R304). -/
def Dev.toXptPdu (d : Dev) (s : Source) : Dev :=
  let (d1, f) := d.newFrame s.port (b2n (pipeB s.port)) s.m 0 0 none s.start
  match d1.store f s.m.len with
  | (d2, none) => d2.cnt F.CNT_DROP_NORES_COUNT s.port
  | (d2, some h) => { d2 with xpt := { d2.xpt with pduq := d2.xpt.pduq ++ [⟨s.m.id, s.payload, some h⟩] } }

/-- Target 51: the PDU of a KEY_FORMAT 8 route (R304), or a frame of another form (R293). -/
def Dev.toXpt (d : Dev) (s : Source) : Dev :=
  if s.m.form == 8 then d.toXptPdu s
  else { d with xpt := { d.xpt with inq := d.xpt.inq ++ [⟨s.port, { s.m with data := s.payload }, s.start⟩] } }

/-- A copy toward a network port: its destination, when R164 lets it pass. -/
def Dev.fieldDest (d : Dev) (s : Source) (t : RTarget) : Dev × List Dest :=
  let p := t.target
  let x := d.makeCopy p s.m s.payload t.edit
  match (if x.2 = .full then x.1.cnt F.CNT_DROP_NORES_COUNT s.port else x.1, x.2) with
  | (d1, .frame m prio) =>
    let (tc, dl) : Nat × Nat :=
      if p < 20 then d1.ethTcDl s.contract s.start p prio
      else match s.contract.bind d1.contract with
        | some k => (0, dl8 (s.start + k.bound))
        | none => (0, d1.beDeadline s.start 0)
    let m1 := match s.seq with
      | some q => if p < 4 then { m with data := pad60 (withRtag (if be16 m.data 12 == 0x8100 then 16 else 12) q m.data) } else m
      | none => m
    (d1, [.copy { Copy.new 0 p tc m1 dl .plain with prio := if p < 20 then some prio else none } t.sleep])
  | (d1, .pdu c id bs) =>
    let dl := match s.contract.bind d1.contract with
      | some k => dl8 (s.start + k.bound)
      | none => d1.beDeadline s.start (coTc (d1.steEnt 5 c))
    (d1, [.pdu c id bs dl])
  | (d1, .bad) | (d1, .lost) | (d1, .full) =>
    (match s.contract with
      | some i => d1.lost i p (d1.excusedNow p (enPcp (d1.steEnt 4 (edProfile ((t.edit.map (d1.steEnt 2)).getD 0)))) s.port) false
      | none => d1, [])

/-- The targets of a route beside network ports (R161). -/
def Dev.sideTarget (d : Dev) (s : Source) (e : Nat) (t : RTarget) : Dev :=
  if t.target == 48 then d.toHost s.port 1 false false s.start (fieldRecord s.m s.port s.state ++ s.m.data)
  else if t.target == 49 then d.toMgmt s.port (fieldRecord s.m s.port s.state ++ s.m.data)
  else if t.target == 50 then
    if d.steRuns then { d with ste := { d.ste with sigs := d.ste.sigs ++ [⟨rtSigFirst e, rtSigCount e, s.payload⟩] } } else d
  else if t.target == 51 then d.toXpt s
  else if 64 ≤ t.target then (if d.steRuns then d.actuate (t.target - 64) s.payload else d)
  else d

/-- The frame's copies join those that its stored frame `h` already has (R120), and the frame is whole. -/
def Dev.joinCopies (d : Dev) (h : Nat) (l : List Dest) : Dev :=
  match d.frame h with
  | none => d
  | some f =>
    let d1 := l.foldl (fun d x => match x with
      | .copy c s => if d.removed c.port s then d.removeCopy f c else d.serveDest f h x
      | .pdu _ _ _ _ => d.serveDest f h x) d
    match d1.frame h with
    | some g => (d1.setFrame h (some { g with whole := true })).releaseIf h
    | none => d1

/-- Steps 2 and 3 of R161 for a source that has passed verification and policing. Targets that `skip` names have their
copies already, in the stored frame `h` (R120). A frame that finds no room is discarded, and serves no target (R91). -/
def Dev.serveRoute (d : Dev) (s : Source) (idx e : Nat) (skip : RTarget → Bool) (h : Option Nat) : Dev :=
  let d1 := if rtMonEn e && d.steRuns then d.monRefresh (rtMon e) idx else d
  let d2 := if rtIsGroup e then d1.steTouch 3 (rtGroup e) else d1
  if rtIsGroup e && !grValid (d2.steEnt 3 (rtGroup e)) then
    let d3 := d2.inc F.STE_FORMAT_DROP_COUNT
    match h with
    | some hd => d3.joinCopies hd []
    | none => d3
  else
    let ts := d2.rtTargets e
    let sides (d : Dev) : Dev := ts.foldl (fun d t => if t.target < 48 then d else d.sideTarget s e t) d
    let (d3, l) := (ts.filter (fun t => decide (t.target < 48) && !skip t)).foldl (fun (a : Dev × List Dest) t =>
      let (d, x) := a.1.fieldDest s t
      (d, a.2 ++ x)) (d2, [])
    match h with
    | some hd => sides (d3.joinCopies hd l)
    | none =>
      if l.isEmpty then sides d3
      else
        let (d4, f) := d3.newFrame s.port (b2n (pipeB s.port)) s.m 0 0 s.contract s.start
        match d4.storeAnd f s.m.len l true with
        | (d5, some _) => sides d5
        | (d5, none) => if l.any d4.stays then d5 else sides d5

/-- The first egress port of a contract. -/
def Dev.firstEgress (d : Dev) (i : Option Nat) : Nat :=
  match i.bind d.contract with
  | some k => (bitsOf 48 (rqEgress k.req)).headD 0
  | none => 0

/-- Verification of a routed source (R161 step 1): the source with its payload, or none. -/
def Dev.routeVerify (d : Dev) (s : Source) (e : Nat) : Dev × Option Source :=
  if !rtSecInEn e then (d, some s)
  else
    match d.authVerify (rtSecIn e) s.m.data with
    | (d1, .ok p) => (d1, some { s with payload := p })
    | (d1, .fail) => (d1.cnt F.CNT_DROP_AUTH_COUNT s.port, none)
    | (d1, .full) => (d1.inlineLost s.contract s.port s.m.data.length (d1.firstEgress s.contract) 0, none)

/-- A field frame is classified, looked up, verified, policed and served (R79, R82, R161). -/
def Dev.fieldFrame (d : Dev) (p : Nat) (m : Msg) (start state : Nat) : Dev :=
  let pipe := b2n (pipeB p)
  let host (d : Dev) : Dev := d.toHost p 1 false false start (fieldRecord m p state ++ m.data)
  if bit m.flags 2 then host d
  else
    match d.route pipe p m.form m.id with
    | (d1, none) =>
      if bit (d1.get F.FWD_FIELD_MISS_TO_HOST) (p - 20) then host d1 else d1.cnt F.CNT_DROP_MISS_COUNT p
    | (d1, some (idx, e)) =>
      let c := d1.fieldContract p m.form m.id
      match d1.routeVerify ⟨m, m.data, p, start, state, c, none⟩ e with
      | (d2, none) => d2
      | (d2, some s) =>
        match c with
        | none => d2.serveRoute s idx e (fun _ => false) none
        | some i =>
          match d2.police i p m.data.length with
          | (d3, false) => d3
          | (d3, true) => let (d4, s1) := d3.numbered s; d4.serveRoute s1 idx e (fun _ => false) none

/-- One element of an intake frame (R167). -/
def Dev.element (d : Dev) (filter port start : Nat) (m : Msg) : Dev :=
  match d.route (b2n (pipeB port)) filter m.form m.id with
  | (d1, none) => d1.inc F.STE_DECAP_MISS_COUNT
  | (d1, some (idx, e)) =>
    match d1.routeVerify ⟨m, m.data, port, start, 0, none, none⟩ e with
    | (d2, none) => d2
    | (d2, some s) => d2.serveRoute s idx e (fun _ => false) none

end Sys2Proof.Machine
end

