-- ==== Sys2Proof/Machine/TimeOps.lean ====
section
/-!
DEFINITION. The device time unit (chapter 8): steps and slews, the gPTP messages it sends and takes, the servo, the
synchronisation states, and peer delay.
-/
namespace Sys2Proof.Machine

/-- MGMT runs its firmware (R286, Table FW-4). -/
def Dev.mgmtRuns (d : Dev) : Bool := d.get F.BOOT_STATUS_BOOT_STATE == 2

/-- DTIME in 2⁻¹⁶ ns. -/
def Dev.dtime16 (d : Dev) : Nat := d.time.acc / 2 ^ 16 % 2 ^ 80

/-- A TIME write that is ignored (R269, R273, R280, R285). -/
def Dev.timeIgnored (d : Dev) : Dev := d.set F.TIME_STATUS_CFG_IGNORED 1

/-! ### Slew and step (R272 to R275) -/

/-- A slew of `x` ns starts, or replaces the part not yet added. -/
def Dev.slewStart (d : Dev) (x : Int) : Dev :=
  ({ d with time := { d.time with slew := x * (2 ^ 32 : Nat) } }).set F.TIME_SLEW_CTRL_BUSY (b2n (x != 0))

/-- An open container is dropped as LATE, excused (R274). -/
def Dev.contLate (d : Dev) (c : Nat) : Dev :=
  match d.cont c with
  | none => d
  | some k =>
    let e := d.steEnt 5 c
    let d1 := (d.setCont c none).cnt (fun p => F.CNT_LATE_COUNT p (slotTc p (coTc e))) (coEgress e)
    let d2 := k.contracts.foldl (fun d i => d.lost i (coEgress e) true true) d1
    match d2.frame k.handle with
    | some f => (d2.setFrame k.handle (some { f with whole := true })).releaseIf k.handle
    | none => d2

/-- Every resident frame that is not in transmission is dropped as LATE, excused (R274). DESIGN CHOICE (log 80): one that no egress
has queued yet, in a field ingress queue or in an intake, counts on no port. A record whose early copies may be in transmission
stays until it is read, and serves nothing more. -/
def Dev.dropResident (d : Dev) : Dev :=
  let d1 := d.fwd.copies.foldl (fun d c => if c.started then d else d.dropCopy { c with excused := true } .late) d
  let d2 := (d1.ste.conts.map (fun (x : Nat × Option Cont) => x.1)).foldl (fun d c => d.contLate c) d1
  let early (l : List Rec) : List Rec := (l.filter (fun r => (r.part.bind (fun x => x.handle)).isSome)).map (fun r =>
    { r with part := r.part.map (fun x => { x with dead := true }) })
  { d2 with
    fwd := { d2.fwd with fq := (d2.fwd.fq.map (fun x => (x.1, early x.2))).filter (fun x => !x.2.isEmpty), fqPtr := [] }
    ste := { d2.ste with intakes := [] } }

/-- A DTIME accumulator steps: what is due is counted anew from the new DTIME (R275). The times of gPTP messages that wait for their
partner or for their service keep their place in time, so that no interval of clause 11 contains the step (R281). -/
def Dev.stepUsers (d : Dev) (acc : Nat) : Dev :=
  let by16 : Int := ((acc % 2 ^ 96 / 2 ^ 16 : Nat) : Int) - (d.dtime16 : Int)
  let moved (t : Nat) : Nat := (((t : Int) + by16) % (2 ^ 80 : Nat)).toNat
  { d with
    time := { d.time with
      ppsLast := none
      up := d.time.up.map (fun u => { u with at_ := moved u.at_ })
      rxq := d.time.rxq.map (fun x => { x with at_ := moved x.at_ })
      ports := d.time.ports.map (fun x => (x.1, { x.2 with
        waiting := x.2.waiting.map (fun w => (moved w.1, w.2)), prev := x.2.prev.map (fun w => (w.1, moved w.2)) })) }
    can := { d.can with tsLast := none }
    ste := { d.ste with images := d.ste.images.map (fun x => (x.1, { x.2 with cyc := none })) } }

/-- DTIME takes a new value in one cycle (R273): EPOCH and the count go up, a slew ends, and a change of 16 s or more drops
every frame not in transmission (R274). -/
def Dev.stepTo (d : Dev) (acc : Nat) : Dev :=
  let old := d.dtime
  let d0 := d.stepUsers acc
  let d1 := ({ d0 with time := { d0.time with
      acc := acc % 2 ^ 96, slew := 0, lastStep := some d0.now, stepAt := some (acc % 2 ^ 96 / 2 ^ 32) } }).set
    F.TIME_SLEW_CTRL_BUSY 0
  let d2 := (d1.set F.TIME_STATUS_EPOCH ((d1.get F.TIME_STATUS_EPOCH + 1) % 256)).inc F.TIME_STEPS_COUNT
  let diff := ((d2.dtime : Int) - old).natAbs
  let diff := min diff (2 ^ 64 - diff)
  if 16000000000 ≤ diff then d2.dropResident else d2

/-- A step that R273's spacing lets take effect. -/
def Dev.stepGo (d : Dev) (acc : Nat) : Dev :=
  match d.time.lastStep with
  | some t => if d.now < t + 80000000 then d.timeIgnored else d.stepTo acc
  | none => d.stepTo acc

/-- A relative step of `x` ns. -/
def Dev.stepBy (d : Dev) (x : Int) : Dev := d.stepGo ((((d.time.acc : Int) + x * (2 ^ 32 : Nat)) % (2 ^ 96 : Nat)).toNat)

/-- INCR is written, or the write is ignored (R269). -/
def Dev.incrWrite (d : Dev) (v : Nat) : Dev :=
  if v < 5366024766 || 5371393474 < v then d.timeIgnored else d.set F.TIME_INCR_INCR v

/-! ### gPTP messages (R281, R282; IEEE 802.1AS-2020, log 21) -/

/-- A gPTP port takes new values. -/
def Dev.gptp (d : Dev) (p : Nat) : GptpPort := SMap.get d.time.ports GptpPort.init p
def Dev.setGptp (d : Dev) (p : Nat) (x : GptpPort) : Dev :=
  { d with time := { d.time with ports := SMap.set d.time.ports GptpPort.init p x } }

/-- gPTP runs on a port. -/
def Dev.gptpOn (d : Dev) (p : Nat) : Bool :=
  d.flag F.TIME_CTRL_EN && d.ready 2 && d.get (F.TIME_GPTP_PORT_ROLE p) != 0

/-- The slave port. -/
def Dev.slavePort (d : Dev) : Option Nat := (List.range 12).find? (fun p => d.get (F.TIME_GPTP_PORT_ROLE p) == 2)

/-- A gPTP interval 2^n s in cycles, for a signed 8-bit n. -/
def ptpInterval (n : Nat) : Nat :=
  let i := toSigned 8 n
  if 0 ≤ i then sCyc * 2 ^ i.toNat else sCyc / 2 ^ (-i).toNat

/-- The source port identity of a port: an EUI-64 of its address, and its number from 1 (log 21). -/
def Dev.portIdentity (d : Dev) (p : Nat) : List Byte :=
  let a := leBytes 6 (d.ethAddr p)
  a.take 3 ++ bytes [0xFF, 0xFE] ++ a.drop 3 ++ beBytes 2 (p + 1)

/-- A PTP time stamp of an instant in ns (R287). -/
def ptpStamp (t : Nat) : List Byte := beBytes 6 (t / 1000000000) ++ beBytes 4 (t % 1000000000)

/-- The instant of a time stamp. -/
def stampNs (bs : List Byte) : Nat := beNat (bs.take 6) * 1000000000 + beNat (slice bs 6 4)

/-- A PTP message from its header's fields. -/
def Dev.ptpBytes (d : Dev) (p type flags seq ctl log : Nat) (corr : Int) (body : List Byte) : List Byte :=
  bytes [0x10 + type, 0x12] ++ beBytes 2 (34 + body.length) ++ bytes [d.get F.TIME_CTRL_DOMAIN, 0] ++ beBytes 2 flags
    ++ beBytes 8 (ofSigned 64 corr) ++ beBytes 4 0 ++ d.portIdentity p ++ beBytes 2 seq ++ bytes [ctl, log] ++ body

/-- A PTP message is sent on a port (R282). -/
def Dev.ptpSend (d : Dev) (p type seq : Nat) (msg : List Byte) : Dev :=
  if d.ethAddr p == 0 then d
  else
    let tc := d.get F.TIME_GPTP_CFG_PTP_TC
    let fr := bytes [0x01, 0x80, 0xC2, 0, 0, 0x0E] ++ leBytes 6 (d.ethAddr p) ++ beBytes 2 0x88F7 ++ msg
    d.originate p tc (ethMsg (pad60 fr)) (d.beDeadline d.dtime tc) (.ptp type seq)

/-- Fields of a received message. -/
def ptpBody (x : PtpIn) : List Byte := x.data.drop ((parseHdr x.data).off + 2)
def ptpType (b : List Byte) : Nat := byteAt b 0 % 16
def ptpCorr (b : List Byte) : Int := toSigned 64 (beNat (slice b 8 8))
def ptpSeq (b : List Byte) : Nat := be16 b 30
def ptpSrc (b : List Byte) : List Byte := slice b 20 10

/-- A Sync leaves each master port (R281). -/
def Dev.syncSend (d : Dev) (p : Nat) : Dev :=
  let x := d.gptp p
  (d.setGptp p { x with seq := (x.seq + 1) % 65536 }).ptpSend p 0 x.seq
    (d.ptpBytes p 0 0x0200 x.seq 0 (d.get (F.TIME_GPTP_PORT_LOG_SYNC p)) 0 (List.replicate 10 0))

/-- A PTP event message has left a port with its SFD at DTIME `t` (2⁻¹⁶ ns): what depends on its egress time (R278). -/
def Dev.ptpSent (d : Dev) (p type seq : Nat) (msg : List Byte) (t : Nat) : Dev :=
  let e := ((t : Int) + toSigned 16 (d.get (F.TIME_TS_CORR_EGRESS p)) * 65536).toNat
  match type with
  | 0 =>
    let tlv (rate : Int) : List Byte := beBytes 2 3 ++ beBytes 2 28 ++ bytes [0x00, 0x80, 0xC2, 0, 0, 1]
      ++ beBytes 4 (ofSigned 32 rate) ++ List.replicate 18 0
    let log := d.get (F.TIME_GPTP_PORT_LOG_SYNC p)
    match d.time.up with
    | some u =>
      if d.get F.TIME_CTRL_ROLE == 2 then
        let res : Int := (e : Int) - u.at_
        let corr := u.corr + res + res * u.rate / (2 ^ 41 : Nat)
        d.ptpSend p 8 seq (d.ptpBytes p 8 0 seq 2 log corr (ptpStamp u.origin ++ tlv u.rate))
      else d
    | none =>
      if d.get F.TIME_CTRL_ROLE == 1 then
        d.ptpSend p 8 seq (d.ptpBytes p 8 0 seq 2 log ((e % 65536 : Nat) : Int) (ptpStamp (e / 65536) ++ tlv 0))
      else d
  | 2 => d.setGptp p { d.gptp p with waiting := some (e, seq) }
  | 3 =>
    let b := ptpBody ⟨p, msg, 0, 0⟩
    d.ptpSend p 10 seq (d.ptpBytes p 10 0 seq 5 0x7F ((e % 65536 : Nat) : Int) (ptpStamp (e / 65536) ++ slice b 44 10))
  | _ => d

/-- The message interval request TLV of a Signaling message (R281): 0 keeps, 126 the initial interval. -/
def Dev.ptpSignal (d : Dev) (p : Nat) (b : List Byte) : Dev :=
  let tlv := b.drop 44
  if be16 tlv 0 != 3 || slice tlv 4 6 != bytes [0x00, 0x80, 0xC2, 0, 0, 2] then d
  else
    let take (d : Dev) (f : FieldRef) (v init : Nat) (lo hi : Int) : Dev :=
      let i := toSigned 8 v
      if v == 126 then d.set f init else if lo ≤ i && i ≤ hi then d.set f v else d
    let d1 := take d (F.TIME_GPTP_PORT_LOG_PDELAY p) (byteAt tlv 10) 0 (-3) 3
    take d1 (F.TIME_GPTP_PORT_LOG_SYNC p) (byteAt tlv 11) 0xFD (-7) 0

/-- The least length of a message type. -/
def ptpMin (type : Nat) : Nat := if type == 2 || type == 3 || type == 10 then 54 else 44

/-- A PTP frame reaches the time unit (R281, R282). -/
def Dev.ptpReceive (d : Dev) (x : PtpIn) : Dev :=
  let b := ptpBody x
  let t := ptpType b
  let bad := byteAt b 1 % 16 != 2 || b.length < 34 || be16 b 2 < ptpMin t || b.length < be16 b 2
  if bad || byteAt b 4 != d.get F.TIME_CTRL_DOMAIN || (t == 0 && !bit (byteAt b 6) 1) then d.inc F.TIME_PTP_DISCARD_COUNT
  else if !d.gptpOn x.port then d
  else
    if t == 12 then d.ptpSignal x.port b
    else if [0, 2, 3, 8, 10].contains t then { d with time := { d.time with rxq := d.time.rxq ++ [x] } }
    else d

/-- The first queued message of a port that satisfies `g`. -/
def Dev.ptpFind (d : Dev) (p : Nat) (g : List Byte → Bool) : Option PtpIn :=
  d.time.rxq.find? (fun x => x.port == p && g (ptpBody x))

/-- Messages leave the queue. -/
def Dev.ptpDrop (d : Dev) (g : PtpIn → Bool) : Dev :=
  { d with time := { d.time with rxq := d.time.rxq.filter (fun x => !g x) } }

/-- The ingress time of an event message with its correction (R278). -/
def Dev.ptpIngress (d : Dev) (x : PtpIn) : Int := (x.at_ : Int) + toSigned 16 (d.get (F.TIME_TS_CORR_INGRESS x.port)) * 65536

/-! ### Synchronisation (R283, R284, R286) -/

/-- SYNCED is left for FREE_RUN or HOLDOVER (Table TIME-5); INCR stays (R286). -/
def Dev.syncLeft (d : Dev) (state : Nat) : Dev :=
  let d1 := ((d.set F.TIME_STATUS_STATE state).inc F.TIME_SYNC_LOSS_COUNT).fault blkTime 0
  { d1 with time := { d1.time with
      holdEnd := if state == 3 then some (d1.now + atLeastOne (d1.get F.TIME_HOLDOVER_HOLDOVER_MAX_S) * sCyc) else d1.time.holdEnd
      syncDue := none } }

/-- The same at a receipt timeout: in HOLDOVER, INCR holds the mean of the values written at the last 8 Syncs (R284). -/
def Dev.syncLost (d : Dev) (state : Nat) : Dev :=
  let l := d.time.incrs
  (if state == 3 && !l.isEmpty then d.set F.TIME_INCR_INCR (l.sum / l.length) else d).syncLeft state

/-- The servo acts on an offset in ns: a step, or the measured rate and a slew (R284). -/
def Dev.servo (d : Dev) (off : Int) (master16 cyc : Nat) : Dev :=
  let last := d.time.lastSync
  let d0 := { d with time := { d.time with lastSync := some (master16, cyc) } }
  if atLeastOne (d.get F.TIME_SERVO_STEP_NS) < off.natAbs then d0.stepBy (-off)
  else
    let d1 := match last with
      | some (m, c) =>
        if c < cyc && m < master16 then
          let v := ((master16 - m) * 2 ^ 16 + (cyc - c) / 2) / (cyc - c)
          let d1 := d0.incrWrite v
          { d1 with time := { d1.time with incrs := (d1.get F.TIME_INCR_INCR :: d1.time.incrs).take 8 } }
        else d0
      | none => d0
    (d1.set F.TIME_SLEW_NS (ofSigned 32 (-off))).slewStart (-off)

/-- The state machine at a Sync, then the servo (R283, R284). -/
def Dev.syncAt (d : Dev) (p : Nat) (off : Int) (master16 cyc : Nat) : Dev :=
  let n := off.natAbs
  let inside := decide (n ≤ d.get F.TIME_SERVO_SYNC_NS)
  let far := decide (atLeastOne (d.get F.TIME_SERVO_STEP_NS) < n)
  let st := d.get F.TIME_STATUS_STATE
  let was := if st == 1 || st == 2 then (d.time.inRange, d.time.outRange) else (0, 0)
  let i := if inside then was.1 + 1 else 0
  let o := if inside then 0 else was.2 + 1
  let st1 := if st == 2 then (if far || 8 ≤ o then 1 else 2)
    else if st == 1 then (if 8 ≤ i then 2 else 1) else 1
  let d1 := (d.set F.TIME_OFFSET_NS (ofSigned 64 off)).set F.TIME_STATUS_STATE st1
  let d2 := { d1 with time := { d1.time with
    inRange := if st == 2 && st1 == 1 then 0 else i
    outRange := if st1 != st then 0 else o
    holdEnd := none
    lastSync := if st == 0 || st == 3 then none else d1.time.lastSync
    syncDue := some (d1.now + 3 * ptpInterval (d1.get (F.TIME_GPTP_PORT_LOG_SYNC p))) } }
  d2.servo off master16 cyc

/-- A Sync and Follow_Up pair of the slave port is served (R281, R283, R284). -/
def Dev.syncRx (d : Dev) : Dev :=
  match d.slavePort with
  | none => d
  | some p =>
    if !d.gptpOn p || !d.mgmtRuns || !d.flag (F.TIME_GPTP_PORT_AS_CAPABLE p) || !(d.get F.TIME_CTRL_ROLE == 2 || d.get F.TIME_CTRL_ROLE == 3) then d
    else
      let pair := d.time.rxq.findSome? (fun f =>
        let fb := ptpBody f
        if f.port == p && ptpType fb == 8 then
          (d.ptpFind p (fun b => ptpType b == 0 && ptpSeq b == ptpSeq fb && ptpSrc b == ptpSrc fb)).map (fun s => (s, f))
        else none)
      match pair with
      | none => d
      | some (s, f) =>
        let sb := ptpBody s
        let fb := ptpBody f
        let origin := stampNs (slice fb 34 10)
        let g := d.gptp p
        let delay := if d.flag (F.TIME_GPTP_PORT_STATIC_DELAY p) then d.get (F.TIME_GPTP_PORT_W1_DELAY_NS p) else g.delay
        let corr := ptpCorr sb + ptpCorr fb + ((delay * 65536 : Nat) : Int)
        let rate := toSigned 32 (beNat (slice fb 54 4)) + g.nrr
        let local_ := d.ptpIngress s
        let master : Int := ((origin * 65536 : Nat) : Int) + corr
        let off := (local_ - master) / 65536
        let d1 := d.ptpDrop (fun x => x.port == p && (ptpType (ptpBody x) == 0 || ptpType (ptpBody x) == 8)
          && (x == s || x == f || decide (x.cyc ≤ s.cyc)))
        let d2 := { d1 with time := { d1.time with up := some ⟨origin, corr, rate, local_.toNat⟩ } }
        let d3 := d2.syncAt p off master.toNat s.cyc
        if d3.get F.TIME_CTRL_ROLE == 2 then
          (List.range 12).foldl (fun d q =>
            if d.get (F.TIME_GPTP_PORT_ROLE q) == 1 && d.flag (F.TIME_GPTP_PORT_AS_CAPABLE q) then d.syncSend q else d) d3
        else d3

/-- A grandmaster's Sync falls due on a master port, which sends it while it is asCapable (R281, R286). -/
def Dev.syncTx (d : Dev) (p : Nat) : Dev :=
  if !d.gptpOn p || !d.mgmtRuns || d.get F.TIME_CTRL_ROLE != 1 || d.get (F.TIME_GPTP_PORT_ROLE p) != 1
      || !d.flag (F.TIME_GPTP_PORT_AS_CAPABLE p) then d
  else
    let d1 := match (d.gptp p).syncDue with
      | some t => d.reach t
      | none => d
    (d1.setGptp p { d1.gptp p with syncDue := some (d1.now + ptpInterval (d1.get (F.TIME_GPTP_PORT_LOG_SYNC p))) }).syncSend p

/-- Holdover ends (Table TIME-5). -/
def Dev.holdoverEnd (d : Dev) : Dev :=
  match d.time.holdEnd with
  | none => d
  | some t =>
    let d1 := d.reach t
    let d2 := { d1 with time := { d1.time with holdEnd := none } }
    if d2.get F.TIME_STATUS_STATE == 3 then (d2.set F.TIME_STATUS_STATE 0).fltSet blkTime 1 else d2

/-- The receipt timeout (R283). -/
def Dev.syncTimeout (d : Dev) : Dev :=
  match d.time.syncDue with
  | none => d
  | some t =>
    let d1 := d.reach t
    match d1.get F.TIME_STATUS_STATE with
    | 1 => ({ d1 with time := { d1.time with syncDue := none } }).set F.TIME_STATUS_STATE 0
    | 2 => d1.syncLost 3
    | _ => { d1 with time := { d1.time with syncDue := none } }

/-- MGMT stops running: SYNCED becomes HOLDOVER, and INCR is kept (R286). -/
def Dev.timeMgmtStop (d : Dev) : Dev := if d.get F.TIME_STATUS_STATE == 2 then d.syncLeft 3 else d

/-- The port roles keep the rule of a role (Table TIME-3). -/
def Dev.rolesOk (d : Dev) (role : Nat) : Bool :=
  let r := (List.range 12).map (fun p => d.get (F.TIME_GPTP_PORT_ROLE p))
  let slaves := (r.filter (· == 2)).length
  let masters := (r.filter (· == 1)).length
  match role with
  | 0 => slaves == 0 && masters == 0
  | 1 => slaves == 0
  | 2 => slaves == 1
  | _ => slaves == 1 && masters == 0

/-- gPTP starts or stops (Table TIME-5): GM in role 1; EN = 0 leaves GM for FREE_RUN, the other states wait for their
timeouts. -/
def Dev.gptpStart (d : Dev) (en : Bool) : Dev :=
  let d1 := d.set F.TIME_CTRL_EN (b2n en)
  let role := d1.get F.TIME_CTRL_ROLE
  let st := d1.get F.TIME_STATUS_STATE
  if en then
    let d2 := (List.range 12).foldl (fun d p =>
      d.set (F.TIME_GPTP_PORT_AS_CAPABLE p) (b2n (d.get (F.TIME_GPTP_PORT_ROLE p) != 0 && d.flag (F.TIME_GPTP_PORT_STATIC_DELAY p)
        && d.flag (F.ETH_STATUS_LINK p)))) d1
    if role == 1 then
      let d3 := d2.set F.TIME_STATUS_STATE 4
      if d3.get F.TIME_CTRL_GM_SRC == 0 then d3.set F.TIME_INCR_INCR 0x140000000 else d3
    else if role == 0 then (if st == 2 then d2.syncLost 0 else d2.set F.TIME_STATUS_STATE 0)
    else d2
  else
    let d2 := { d1 with time := { d1.time with rxq := [], up := none, ports := [] } }
    if st == 4 then d2.set F.TIME_STATUS_STATE 0 else d2

/-! ### Peer delay (R281) -/

/-- asCapable and the delay in use follow a port's measurement. -/
def Dev.setAsCapable (d : Dev) (p : Nat) (on : Bool) : Dev := d.set (F.TIME_GPTP_PORT_AS_CAPABLE p) (b2n on)

/-- A Pdelay_Req leaves a port whose delay is measured. -/
def Dev.pdelayReq (d : Dev) (p : Nat) : Dev :=
  if !d.gptpOn p || !d.mgmtRuns || d.flag (F.TIME_GPTP_PORT_STATIC_DELAY p) then d
  else
    let d := match (d.gptp p).reqDue with
      | some t => d.reach t
      | none => d
    let x := d.gptp p
    let lost := if x.waiting.isSome then x.lost + 1 else 0
    let d1 := d.setGptp p { x with
      seq := (x.seq + 1) % 65536, waiting := none, lost := lost
      reqDue := some (d.now + ptpInterval (d.get (F.TIME_GPTP_PORT_LOG_PDELAY p))) }
    let d2 := if 9 < lost then d1.setAsCapable p false else d1
    d2.ptpSend p 2 x.seq (d.ptpBytes p 2 0 x.seq 5 (d.get (F.TIME_GPTP_PORT_LOG_PDELAY p)) 0 (List.replicate 20 0))

/-- The first queued Pdelay_Req is answered by the time unit itself (R286). -/
def Dev.pdelayAnswer (d : Dev) : Dev :=
  match d.time.rxq.find? (fun x => ptpType (ptpBody x) == 2) with
  | none => d
  | some x =>
    let b := ptpBody x
    let t := (d.ptpIngress x).toNat
    let d1 := d.ptpDrop (fun y => y == x)
    if !d1.gptpOn x.port then d1
    else
      d1.ptpSend x.port 3 (ptpSeq b) (d.ptpBytes x.port 3 0x0200 (ptpSeq b) 5 0x7F ((t % 65536 : Nat) : Int)
        (ptpStamp (t / 65536) ++ ptpSrc b))

/-- A Pdelay_Resp with its follow-up gives the link delay and the neighbour's rate (R281). -/
def Dev.pdelayTake (d : Dev) (p : Nat) : Dev :=
  let x := d.gptp p
  match x.waiting with
  | none => d
  | some (t1, seq) =>
    let mine (t : Nat) (b : List Byte) : Bool := ptpType b == t && ptpSeq b == seq && slice b 44 10 == d.portIdentity p
    match d.ptpFind p (mine 3), d.ptpFind p (mine 10) with
    | some r, some f =>
      let rb := ptpBody r
      let fb := ptpBody f
      let t2 : Int := ((stampNs (slice rb 34 10) * 65536 : Nat) : Int) + ptpCorr rb
      let t3 : Int := ((stampNs (slice fb 34 10) * 65536 : Nat) : Int) + ptpCorr fb
      let t4 := d.ptpIngress r
      let nrr := match x.prev with
        | some (a, b) =>
          if d.flag (F.TIME_GPTP_PORT_COMPUTE_NRR p) && (b : Int) < t4 then
            ((t3 - a) - (t4 - b)) * (2 ^ 41 : Nat) / (t4 - b)
          else 0
        | none => 0
      let turn : Int := t4 - t1
      let two := turn + turn * nrr / (2 ^ 41 : Nat) - (t3 - t2)
      let delay := (two / 131072).toNat
      let d1 := (d.ptpDrop (fun y => y == r || y == f)).setGptp p
        { x with waiting := none, lost := 0, delay := delay, nrr := nrr, prev := some (t3.toNat, t4.toNat) }
      d1.setAsCapable p (decide (delay ≤ d1.get F.TIME_GPTP_CFG_DELAY_THRESH_NS))
    | _, _ => d

/-! ### The AON counter (R279) -/

/-- A capture that `AON_SNAP.GO` has asked for waits for the next tick edge, and without the AON clock for its return (R279). -/
def Dev.aonSnap (d : Dev) : Dev :=
  { d with time := { d.time with snapAt := if d.time.snapGo && d.time.aonHeld.isNone then some d.aonEdge else none } }

/-- A write of 1 to `AON_SNAP.GO`: one that waits already keeps its edge. -/
def Dev.aonGo (d : Dev) : Dev :=
  if d.time.snapGo then d else ({ d with time := { d.time with snapGo := true } }).aonSnap

/-! ### PPS (R288, R289) -/

/-- PPS_OUT may pulse (R288). -/
def Dev.ppsGate (d : Dev) : Bool :=
  d.ready 2 && d.flag F.TIME_PPS_OUT_CFG_EN && (!d.flag F.TIME_PPS_OUT_CFG_GATE || 2 ≤ d.get F.TIME_STATUS_STATE)

/-- The next DTIME at which a pulse is due (R288). -/
def Dev.ppsDue (d : Dev) : Nat :=
  let t := d.dtime
  let sec := t / 1000000000
  let at_ := sec * 1000000000 + d.get F.TIME_PPS_OUT_OFS_OFFSET_NS
  if at_ < t || d.time.ppsLast == some at_ || d.time.stepAt == some at_ then at_ + 1000000000 else at_

/-- PPS_OUT goes to its active level (R288). -/
def Dev.ppsPulse (d : Dev) : Dev :=
  if !d.ppsGate then d
  else
    let t := d.ppsDue
    let d1 := d.reachDtime t
    { d1 with time := { d1.time with
      ppsEnd := some (d1.now + atLeastOne (d1.get F.TIME_PPS_OUT_WID_WIDTH_US) * usCyc), ppsLast := some t } }

/-- PPS_OUT returns to its inactive level. -/
def Dev.ppsOutEnd (d : Dev) : Dev :=
  match d.time.ppsEnd with
  | none => d
  | some t => let d1 := d.reach t; { d1 with time := { d1.time with ppsEnd := none } }

/-- The level of the PPS_OUT pin. -/
def Dev.ppsPin (d : Dev) : Bool := d.time.ppsEnd.isSome != d.flag F.TIME_PPS_OUT_CFG_POL

/-- An edge of PPS_IN; `held`: its level has held for 1 µs (R284, R289). -/
def Dev.ppsEdge (d : Dev) (falling held : Bool) : Dev :=
  if !d.ready 2 || !d.flag F.TIME_PPS_IN_CFG_EN || falling != d.flag F.TIME_PPS_IN_CFG_EDGE || !held then d
  else
    let early := match d.time.ppsAcc with
      | some t => decide (d.now < t + sCyc / 2)
      | none => false
    if early then d.inc F.TIME_PPS_IN_REJECT_COUNT
    else
      let t := d.dtime
      let d1 := (d.set F.TIME_PPS_IN_TS_NS t).inc F.TIME_PPS_IN_COUNT_COUNT
      let d2 := { d1 with time := { d1.time with ppsIn := some d.now, ppsAcc := some d.now, ppsLost := false } }
      if d2.get F.TIME_STATUS_STATE == 4 && d2.get F.TIME_CTRL_GM_SRC == 1 && d2.mgmtRuns then
        let r := t % 1000000000
        let off : Int := if 500000000 < r then (r : Int) - 1000000000 else r
        d2.servo off (((t : Int) - off) * 65536).toNat d2.now
      else d2

/-- Two seconds without an accepted edge (R289). -/
def Dev.ppsMissing (d : Dev) : Dev :=
  match d.time.ppsIn with
  | none => d
  | some t =>
    if !d.flag F.TIME_PPS_IN_CFG_EN || d.time.ppsLost then d
    else
      let d1 := d.reach (t + 2 * sCyc)
      ({ d1 with time := { d1.time with ppsLost := true } }).fltSet blkTime 2

/-- The cycle at which the whole slew has been added (R272). -/
def Dev.slewFinish (d : Dev) : Dev :=
  let m := d.time.slew.natAbs
  let e := d.slewStep
  if m == 0 || e == 0 then d else d.advance ((m + e - 1) / e)

end Sys2Proof.Machine
end

