-- ==== Sys2Proof/Machine/EthOps.lean ====
section
/-!
DEFINITION. Ethernet and T1S egress (chapters 3 and 7): gates, the best-effort shapers, selection and completion,
preemption, stomped ends, poison, flow control frames, link changes, low-power idle, rate steps and PLCA.
-/
namespace Sys2Proof.Machine

/-! ### Gate lists (R241 to R246) -/

/-- A port's parameters of a gate list: enable, length, cycle, extension, base. -/
structure GateCfg where
  en : Bool
  len : Nat
  cycle : Nat
  ext : Nat
  base : Nat
  deriving DecidableEq, Repr

/-- The operational parameters. -/
def Dev.gateOper (d : Dev) (p : Nat) : GateCfg :=
  let x := d.get (F.ETH_GATE_OPER_DATA p)
  ⟨bit x 0, bf x 16 11, d.get (F.ETH_OPER_CYCLE_NS p), d.get (F.ETH_OPER_CYCLE_EXT_NS p), d.get (F.ETH_OPER_BASE_DTIME p)⟩

/-- The staged parameters. -/
def Dev.gateAdmin (d : Dev) (p : Nat) : GateCfg :=
  ⟨d.flag (F.ETH_GATE_ADMIN_GATE_EN p), d.get (F.ETH_GATE_ADMIN_ADMIN_LEN p), d.get (F.ETH_ADMIN_CYCLE_NS p),
    d.get (F.ETH_ADMIN_CYCLE_EXT_NS p), d.get (F.ETH_ADMIN_BASE_DTIME p)⟩

/-- The copy of table 5 or 6 that a port's gates read. -/
def gateCopy (t p : Nat) : Nat := if t == 6 then b2n (pipeB p) else 0

/-- The first `n` entries of a port in table 5 or 6, as intervals and states; one in uncorrectable error is absent (R130, log 79). -/
def Dev.gateList (d : Dev) (t p n : Nat) : List (Nat × Nat) :=
  ((List.range n).filter (fun e => !d.tables.bad.contains (tkey t (gateCopy t p) (1024 * p + e)))).map (fun e =>
    let x := d.tget t (gateCopy t p) (1024 * p + e)
    (bf x 0 32, bf x 32 8))

/-- The position within a list at an offset into the cycle: states, entry, and the offset at which the entry ends; the
last entry holds until the cycle ends. -/
def gateIn (cycle : Nat) : List (Nat × Nat) → Nat → Nat → Nat → Nat × Nat × Nat
  | [], _, _, _ => (0xFF, 0, cycle)
  | [(_, s)], k, _, _ => (s, k, cycle)
  | (n, s) :: l, k, at_, o => if o < at_ + n then (s, k, min cycle (at_ + n)) else gateIn cycle l (k + 1) (at_ + n) o

/-- The intervals of one cycle; the last entry holds until the cycle ends. -/
def gateSegs (cycle : Nat) : List (Nat × Nat) → Nat → List (Nat × Nat)
  | [], _ => []
  | [(_, s)], used => [(cycle - used, s)]
  | (n, s) :: l, used => (min n (cycle - used), s) :: gateSegs cycle l (used + min n (cycle - used))

/-- TCs whose gate a list keeps open through the whole cycle, one bit each; entries beyond the cycle are not reached (R242). -/
def gateOpen (cycle : Nat) (l : List (Nat × Nat)) : Nat :=
  ((gateSegs cycle l 0).filter (fun x => x.1 != 0)).foldl (fun a x => a &&& x.2) 0xFF

/-- The start of the cycle that holds DTIME `t`. -/
def cycleStart (g : GateCfg) (t : Nat) : Int :=
  let c : Int := (atLeastOne g.cycle : Nat)
  (g.base : Int) + ((t : Int) - g.base) / c * c

/-- The gates at DTIME `t` under a list: states, entry, end of the entry, start of the cycle (R242). With a switchover
pending at `ct`, the cycle before it is truncated or extended (R245); `since` is the commit point. -/
def gateSpan (g : GateCfg) (l : List (Nat × Nat)) (ct : Option Nat) (since t : Nat) : Nat × Nat × Nat × Int :=
  let plain (s : Int) (e : Nat) : Nat × Nat × Nat × Int :=
    let x := gateIn (atLeastOne g.cycle) l 0 0 ((t : Int) - s).toNat
    (x.1, x.2.1, min e (s + x.2.2).toNat, s)
  if !g.en || g.len == 0 then (0xFF, 0, ct.getD (2 ^ 64), 0)
  else
    let s := cycleStart g t
    match ct with
    | none => plain s (2 ^ 64)
    | some c =>
      let last := cycleStart g (c - 1)
      if s == last && (c : Int) - last ≤ g.ext && last ≠ (c : Int) - g.cycle && (since : Int) < last then
        -- the fragment is cancelled: the cycle before it is extended with its last reached states
        let x := gateIn (atLeastOne g.cycle) l 0 0 (g.cycle - 1)
        (x.1, x.2.1, c, s - g.cycle)
      else plain s c

/-- The gates of a port at a DTIME. -/
def Dev.gates (d : Dev) (p t : Nat) : Nat × Nat × Nat × Int :=
  let g := d.gateOper p
  let ct := if d.flag (F.ETH_GATE_STATUS_PENDING p) then some (d.get (F.ETH_GATE_CT_DTIME p)) else none
  gateSpan g (d.gateList 6 p g.len) ct (d.ethPort p).gateAt t

/-- The DTIME from `t` on at which the gate of a TC closes, within `n` spans; none where it stays open. -/
def gateCloseIn (span : Nat → Nat × Nat × Nat × Int) (tc : Nat) : Nat → Nat → Option Nat
  | 0, _ => none
  | n + 1, t =>
    let x := span t
    if !bit x.1 tc then some t
    else if x.2.2.1 ≤ t then none
    else gateCloseIn span tc n x.2.2.1

/-- When the gate of a TC closes (R109). -/
def Dev.gateClose (d : Dev) (p tc t : Nat) : Option Nat :=
  let g := d.gateOper p
  if !g.en then none
  else
    let l := d.gateList 6 p g.len
    let ct := if d.flag (F.ETH_GATE_STATUS_PENDING p) then some (d.get (F.ETH_GATE_CT_DTIME p)) else none
    gateCloseIn (gateSpan g l ct (d.ethPort p).gateAt) tc (2 * g.len + 2) t

/-- A scheduled contract's copy on a port. -/
def Dev.scheduledCopy (d : Dev) (c : Copy) : Bool :=
  match (d.contractCopy c).bind d.contract with
  | some k => rqClass k.req == 1
  | none => false

/-- The window of a TC ends (R65, R111): scheduled copies not started are dropped. -/
def Dev.windowEnd (d : Dev) (p tc : Nat) : Dev :=
  d.dropWhere p (fun c => c.tc == tc && !c.started && !c.hold && d.scheduledCopy c) .windowEnd

/-- TCs whose gate the operational list keeps open for the whole cycle, one bit each: their window is the cycle (R53). -/
def Dev.gateAlways (d : Dev) (p : Nat) : Nat :=
  let g := d.gateOper p
  if g.en then gateOpen (atLeastOne g.cycle) (d.gateList 6 p g.len) else 0

/-- Windows end: of TCs that were open and are closed now, and, where a cycle has ended, of those in `always`. -/
def Dev.windowsEnd (d : Dev) (p old new always : Nat) (cycle : Bool) : Dev :=
  ((List.range 8).filter (fun t => (bit old t && !bit new t) || (cycle && bit always t))).foldl (fun d t => d.windowEnd p t) d

/-- The states that `GATE_STATUS` shows, and the start of their cycle. -/
def Dev.gateShow (d : Dev) (p : Nat) (x : Nat × Nat × Nat × Int) : Dev :=
  ((d.set (F.ETH_GATE_STATUS_STATES p) x.1).set (F.ETH_GATE_STATUS_ENTRY p) x.2.1).setEthPort p
    { d.ethPort p with gateCyc := x.2.2.2.toNat }

/-- The staged list becomes operational at the change time (R246): every group of the port's list takes the new generation (R131),
and windows that the old list had open and that close here end (R111). -/
def Dev.gateSwitch (d : Dev) (p : Nat) : Dev :=
  if !d.flag (F.ETH_GATE_STATUS_PENDING p) then d
  else
    let ct := d.get (F.ETH_GATE_CT_DTIME p)
    let d0 := d.reachDtime ct
    let was := (d0.gates p (ct - 1)).1
    let always := d0.gateAlways p
    let mine (k : Nat) : Bool := decide (1024 * p ≤ k % 2 ^ 24) && decide (k % 2 ^ 24 < 1024 * (p + 1))
    let rows := (d0.tbl.filter (fun x => x.1 / 2 ^ 24 == 10 && mine x.1)).map (fun x => (x.1 % 2 ^ 24, x.2))
    let copyTo (d : Dev) (c : Nat) : Dev :=
      let d1 := ({ d with tbl := d.tbl.filter (fun x => !(x.1 / 2 ^ 24 == 12 + c && mine x.1)) }).genBump 6 c
      let d2 := (d0.tables.bad ++ d0.tables.soft).foldl (fun d k =>
        if k / 2 ^ 24 == 10 && mine k then d.errorCopy 5 0 6 c (k % 2 ^ 24) else d) (rows.foldl (fun d x => d.entryPut 6 c x.1 x.2) d1)
      (List.range 128).foldl (fun d g => d.genStamp 6 c (1024 * p + 8 * g)) d2
    let d1 := copyTo d0 0
    let d2 := if d1.ready 3 then copyTo d1 1 else d1
    let d3 := (((d2.setReg (R.ETH_GATE_OPER p) (d2.reg (R.ETH_GATE_ADMIN p))).set (F.ETH_OPER_CYCLE_NS p)
      (d2.get (F.ETH_ADMIN_CYCLE_NS p))).set (F.ETH_OPER_CYCLE_EXT_NS p) (d2.get (F.ETH_ADMIN_CYCLE_EXT_NS p))).set
      (F.ETH_OPER_BASE_DTIME p) (d2.get (F.ETH_ADMIN_BASE_DTIME p))
    let d4 := d3.set (F.ETH_GATE_STATUS_PENDING p) 0
    let x := d4.gates p d4.dtime
    (d4.windowsEnd p was x.1 always true).gateShow p x

/-- The entry that follows the present one is read, with what its ECC finds (R130). -/
def Dev.gateRead (d : Dev) (p : Nat) : Dev :=
  let g := d.gateOper p
  if g.en && g.len != 0 then
    (d.entryRead 6 (gateCopy 6 p) (1024 * p + (d.get (F.ETH_GATE_STATUS_ENTRY p) + 1) % g.len)).1
  else d

/-- A gate event or cycle boundary (R242, R111): the states move on, windows that close end. -/
def Dev.gateEvent (d : Dev) (p : Nat) : Dev :=
  let d := d.gateRead p
  let x0 := d.gates p d.dtime
  let same := x0.1 == d.get (F.ETH_GATE_STATUS_STATES p) && x0.2.1 == d.get (F.ETH_GATE_STATUS_ENTRY p)
    && x0.2.2.2 == ((d.ethPort p).gateCyc : Int)
  let d0 := if same && x0.2.2.1 < 2 ^ 64 then d.reachDtime x0.2.2.1 else d
  let x := d0.gates p d0.dtime
  let old := d0.get (F.ETH_GATE_STATUS_STATES p)
  let newCycle := x.2.2.2 != ((d0.ethPort p).gateCyc : Int)
  (d0.windowsEnd p old x.1 (d0.gateAlways p) newCycle).gateShow p x

/-! ### Best-effort shapers (R110) -/

/-- The operational shaper of a port and class: rate in kbit/s and burst in bytes. -/
def Dev.shaperOper (d : Dev) (p tc : Nat) : Nat × Nat := SMap.get d.anvil.oper (0xFFFFFFFF, 0) (8 * p + tc)

/-- Its level at the present instant, in 2⁻²⁰ byte; none where it is unshaped. A shaper starts full (log 35). -/
def Dev.shaperLevel (d : Dev) (p tc : Nat) : Option Nat :=
  let (r, b) := d.shaperOper p tc
  if r == 0xFFFFFFFF || 6 ≤ tc then none
  else
    match SMap.get d.fwd.shaper none (8 * p + tc) with
    | none => some (b * 2 ^ 20)
    | some (l, t) => some (min (b * 2 ^ 20) (l + (d.now - t) * r * 512 / 3125))

/-- A shaper takes a new rate and burst at a commit point (Table PROM-11, log 35): it keeps its level up to the new burst,
and one that was unshaped starts full. -/
def Dev.shaperSwitch (d : Dev) (p tc : Nat) (x : Nat × Nat) : Dev :=
  let l := match d.shaperLevel p tc with
    | some l => min l (x.2 * 2 ^ 20)
    | none => x.2 * 2 ^ 20
  let level : Option (Nat × Nat) := if x.1 == 0xFFFFFFFF then none else some (l, d.now)
  { d with
    anvil := { d.anvil with oper := SMap.set d.anvil.oper (0xFFFFFFFF, 0) (8 * p + tc) x }
    fwd := { d.fwd with shaper := SMap.set d.fwd.shaper none (8 * p + tc) level } }

/-- A selected best-effort frame of `x` bytes lowers it by x + 20. -/
def Dev.shaperCharge (d : Dev) (p tc x : Nat) : Dev :=
  match d.shaperLevel p tc with
  | none => d
  | some l => { d with fwd := { d.fwd with shaper := SMap.set d.fwd.shaper none (8 * p + tc) (some (l - (x + 20) * 2 ^ 20, d.now)) } }

/-! ### The end of a started copy -/

/-- A port's transmission is over. -/
def Dev.txIdle (d : Dev) (p seq : Nat) : Dev :=
  let x := d.ethPort p
  d.setEthPort p { x with
    tx := if x.tx == some seq then none else x.tx, held := if x.held == some seq then none else x.held, idleAt := d.now }

/-- A started copy ends with a stomped FCS after `n` of its bytes (R94, R119): it counts as sent (Table PIPE-4) and as
CT_STOMP. -/
def Dev.endStomp (d : Dev) (c : Copy) (n : Nat) : Dev :=
  let bs := c.msg.data.take n
  let d1 := (d.cnt F.CNT_CT_STOMP_COUNT c.port).sendStomped c.port bs
  (d1.txIdle c.port c.seq).sentCopy c (bs.length + 4)

/-- A started copy is stomped where it stands: a frame in preemption after the fragments it has sent, another after a number of
its bytes that no rule fixes, a free value (log 73), and after MAX_LEN bytes at the latest where its form exceeds that (R239). -/
def Dev.stompHere (d : Dev) (c : Copy) : Dev :=
  let lim := d.get (F.ETH_MAX_LEN_LEN c.port)
  let d0 := if lim < c.msg.len then d.inc (F.ETH_OVS_TX_COUNT c.port) else d
  if (d.ethPort c.port).held == some c.seq then d0.endStomp c (min c.sent lim)
  else d0.tookFree.endStomp c (min (c.sent + d.freeNat 16 % (c.msg.data.length - c.sent + 1)) lim)

/-- A copy that has not started goes without a count of its own (R119). -/
def Dev.discardCopy (d : Dev) (c : Copy) : Dev :=
  let d1 := (d.unlistCopy c).dropKind c .lost
  match d1.frame c.handle with
  | some f => (d1.txDropped f.hostTag none).releaseIf c.handle
  | none => d1

/-- The copies of a stored frame. -/
def Dev.copiesOf (d : Dev) (h : Nat) : List Copy := d.fwd.copies.filter (fun c => c.handle == h)

/-- A frame being received on a port whose header has been taken. -/
def Dev.part (d : Dev) (p : Nat) : Option Part := SMap.get d.fwd.parts none p
def Dev.setPart (d : Dev) (p : Nat) (x : Option Part) : Dev :=
  { d with fwd := { d.fwd with parts := SMap.set d.fwd.parts none p x } }

/-- The part that holds a stored frame in reception, or in a field ingress queue after early words (R120), becomes dead: nothing
further counts or serves its frame. Where there was one, the handle is freed with its last copy. -/
def Dev.partDead (d : Dev) (h : Nat) : Dev :=
  let has (x : Option Part) : Bool := (x.bind (fun y => y.handle)) == some h
  let kill (x : Option Part) : Option Part :=
    if has x then x.map (fun y => { y with handle := none, host := false, dead := true }) else x
  let d1 := { d with fwd := { d.fwd with
    parts := d.fwd.parts.map (fun y => (y.1, kill y.2))
    fq := d.fwd.fq.map (fun y => (y.1, y.2.map (fun (r : Rec) => { r with part := kill r.part }))) } }
  if d.fwd.parts.any (fun y => has y.2) || d.fwd.fq.any (fun y => y.2.any (fun (r : Rec) => has r.part)) then
    match d1.frame h with
    | some f => (d1.setFrame h (some { f with whole := true })).releaseIf h
    | none => d1
  else d1

/-- A poisoned frame (R93): started Ethernet copies end stomped, copies not started are discarded, each counted; where a copy had
started, the ingress port counts the frame once (R119). Copies in transmission on CAN, LIN and T1S were read whole and go on. -/
def Dev.poisonFrame (d : Dev) (h port : Nat) : Dev :=
  let begun := (d.copiesOf h).any (fun c => c.started && decide (c.port < 12))
  let d0 := d.poison h port
  let d1 := match begun, d0.frame h with
    | true, some f => d0.cnt F.CNT_DROP_POISON_COUNT f.ingress
    | _, _ => d0
  ((d.copiesOf h).foldl (fun d c =>
    if !c.started then d.dropCopy c .poison
    else if c.port < 12 then (d.cnt F.CNT_DROP_POISON_COUNT c.port).stompHere c
    else d) d1).partDead h

/-! ### Frames in reception (R118 to R120) -/

/-- A frame fails after its header was taken (R119): started copies end stomped, the others are discarded, and its
handle is freed. With `breach`, a conforming frame that was still to reach an egress is a promise breach (R92, R34). -/
def Dev.partFail (d : Dev) (h : Nat) (breach : Bool) : Dev :=
  let d0 := match breach, (d.copiesOf h).find? (fun c => !c.started), d.frame h with
    | true, some c, some f => d.lostFrame f c.port (d.isExcused c f) false
    | _, _, _ => d
  let d1 := (d.copiesOf h).foldl (fun d c => if c.started then d.stompHere c else d.discardCopy c) d0
  match d1.frame h with
  | some f => (d1.setFrame h (some { f with whole := true })).releaseIf h
  | none => d1

/-- A frame in reception fails at its end (R119). The bytes it had so far are `bs`; where they are unknown, the copies keep
theirs. -/
def Dev.partEnd (d : Dev) (p : Nat) (x : Part) (bs : List Byte) : Dev :=
  let d1 := d.setPart p none
  match x.handle with
  | some h =>
    let plan : EthPlan := ⟨0, x.vid, none, x.insert, x.strip, [], x.host, x.untag⟩
    let d2 := (d1.copiesOf h).foldl (fun d c =>
      let data := plan.form c.port (parseHdr bs) bs
      d.setCopy { c with msg := { c.msg with data := if c.msg.data.length < data.length then data else c.msg.data } }) d1
    d2.partFail h false
  | none => d1

/-- A frame in reception fails at its end, and its ingress port counts it once (R76, R119). -/
def Dev.partError (d : Dev) (p : Nat) (x : Part) (bs : List Byte) (drop : Nat → FieldRef) : Dev :=
  let d1 := d.partEnd p x bs
  if x.dead then d1 else d1.cnt drop p

/-! ### Selection (R64, R106, R109, R111, R276) -/

/-- The egress term of a rate in ns (Table PROM-6). -/
def egressTerm (mbps : Nat) : Nat :=
  match mbps with
  | 25000 => 58 | 10000 => 66 | 5000 => 110 | 2500 => 180 | 1000 => 300 | 100 => 1400 | _ => 5680

/-- A TC of a port is paused by its partner (R106). -/
def Dev.tcPaused (d : Dev) (p tc : Nat) : Bool :=
  (List.range 8).any (fun q => bit (d.get (F.FWD_WM_STATE_RX_PAUSED p)) q
    && (d.beTc p q == tc || ((q == 6 || q == 7) && q == tc)))

/-- The port may start a transmission: link ready, nothing on the wire, low-power idle over. -/
def Dev.txReady (d : Dev) (p : Nat) : Bool :=
  let x := d.ethPort p
  d.portAvail p && d.linkReady p && x.tx.isNone && !d.flag (F.ETH_STATUS_LPI_TX p)
    && (match x.wakeAt with
      | some t => decide (t ≤ d.now)
      | none => true)

/-- The head of a TC. -/
def Dev.tcHead (d : Dev) (p tc : Nat) : Option Copy :=
  (d.copiesOn p).find? (fun c => c.tc == tc && !c.started && !c.hold && !c.wait)

/-- A frame's length from DA to FCS as it leaves a port, with what is still to be received of it: on a MACsec-protected one with
SecTAG and ICV (R335). -/
def Dev.wireLen (d : Dev) (p : Nat) (c : Copy) : Nat :=
  c.msg.len + c.ahead + (if d.macsecOn p && !reservedDa c.msg.data then d.macsecGrowth p else 0)

/-- A copy toward port `q` of a frame from port `p` may start before the frame is whole. -/
def Dev.ctPair (d : Dev) (p q : Nat) : Bool :=
  decide (q < 12) && !d.macsecOn p && !d.macsecOn q && decide (d.portRate q ≤ d.portRate p)

/-- A copy may start: its frame is whole, or what allows an early start still holds (R118). -/
def Dev.ripe (d : Dev) (p : Nat) (c : Copy) : Bool :=
  match d.frame c.handle with
  | some f => f.whole || 12 ≤ f.ingress || d.ctPair f.ingress p
  | none => true

/-- The tests of R109, R118 and R276 on the head of a TC. -/
def Dev.headPasses (d : Dev) (p tc : Nat) (c : Copy) : Bool :=
  let be := (d.contractCopy c).isNone
  let wire := d.wireLen p c + 20
  let launched := match (d.frame c.handle).bind (fun f => f.launch) with
    | some l => reached d.dtime l
    | none => true
  let shaped := !be || (match d.shaperLevel p tc with
    | some l => decide (wire * 2 ^ 20 ≤ l)
    | none => true)
  let fits := (decide (tc ≤ 5) && d.flag (F.ETH_PREEMPT_STATUS_ACTIVE p))
    || (match d.gateClose p tc d.dtime with
      | some t => decide (d.dtime + (wire * 8 * 1000 + d.portRate p - 1) / d.portRate p ≤ t)
      | none => true)
  bit (d.gates p d.dtime).1 tc && !d.tcPaused p tc && launched && shaped && fits && d.ripe p c

/-- The deadline of a copy is exceeded once `term` ns have passed (R64). -/
def Dev.lateBy (d : Dev) (c : Copy) (term : Nat) : Bool := exceeds (d.dtime + term) c.deadline

/-- The frame that a TC offers: late heads are dropped, and so is a head whose read fails parity (`bad`). -/
def Dev.offer (d : Dev) (p tc : Nat) : Nat → Bool → Dev × Option Copy
  | 0, _ => (d, none)
  | n + 1, bad =>
    match d.tcHead p tc with
    | none => (d, none)
    | some c =>
      if !d.headPasses p tc c then (d, none)
      else if d.lateBy c (egressTerm (d.portRate p)) then (d.dropCopy c .late).offer p tc n bad
      else if bad then (d.poisonFrame c.handle p).offer p tc n false
      else (d, some c)

/-- The first TC of a list that offers a frame. -/
def Dev.offerFirst (d : Dev) (p : Nat) (bad : Bool) : List Nat → Dev × Option Copy
  | [] => (d, none)
  | tc :: l =>
    match d.offer p tc (d.copiesOn p).length bad with
    | (d1, some c) => (d1, some c)
    | (d1, none) => d1.offerFirst p bad l

/-- The value of the counter that numbers a message, 0 for others. -/
def Dev.seqValue (d : Dev) (m : Msg) : Nat :=
  let k := (m.id - 1) / 3
  if m.id == 0 then 0
  else match (m.id - 1) % 3 with
    | 0 => SMap.get d.ste.contSeq 0 k
    | 1 => SMap.get d.ste.acfSeq 0 k
    | _ => SMap.get d.ste.encSeq 0 k

/-- The bytes of a message with its sequence number in place: SEQ of a container, sequence_num of an NTSCF frame, SEQ of a Snitos
XL frame (Tables SIG-10, SIG-12 and SIG-18). -/
def Dev.numberedBytes (d : Dev) (m : Msg) : List Byte :=
  let o := (parseHdr m.data).off + 2
  let put (off : Nat) (bs : List Byte) : List Byte := m.data.take off ++ bs ++ m.data.drop (off + bs.length)
  if m.id == 0 then m.data
  else match (m.id - 1) % 3 with
    | 0 => put (o + 2) (beBytes 2 (d.seqValue m))
    | 1 => put (o + 3) (beBytes 1 (d.seqValue m))
    | _ => put (o + 14) (beBytes 2 (d.seqValue m))

/-- A numbered frame is sent: +1 modulo 2¹⁶ for a container or a Snitos XL frame, modulo 256 for an NTSCF frame. -/
def Dev.seqSent (d : Dev) (m : Msg) : Dev :=
  let k := (m.id - 1) / 3
  if m.id == 0 then d
  else match (m.id - 1) % 3 with
    | 0 => { d with ste := { d.ste with contSeq := SMap.set d.ste.contSeq 0 k ((d.seqValue m + 1) % 65536) } }
    | 1 => { d with ste := { d.ste with acfSeq := SMap.set d.ste.acfSeq 0 k ((d.seqValue m + 1) % 256) } }
    | _ => { d with ste := { d.ste with encSeq := SMap.set d.ste.encSeq 0 k ((d.seqValue m + 1) % 65536) } }

/-- A copy starts, with its SFD `toSfd` ns from now: residence, shaper, protection, capture (R66, R110, R277, R336). -/
def Dev.ethStart (d : Dev) (p : Nat) (c : Copy) (toSfd : Nat) : Dev :=
  let d1 := if (d.contractCopy c).isNone && decide (p < 12) then d.shaperCharge p c.tc (d.wireLen p c) else d
  let protect := d1.macsecOn p && !reservedDa c.msg.data
  let spent := d1.macsecSpent p
  let sent := d1.numberedBytes c.msg
  let (d2, wire) := if protect then d1.macsecSend p sent else (d1, some sent)
  match wire with
  | none => d2.dropCopy c (if spent then .unavail else .lost)
  | some bs =>
    let d3 := match d2.frame c.handle with
      | some f => if c.tries == 0 then d2.measure c f (d2.dtime + toSfd) else d2
      | none => d2
    let early := protect && ((d3.frame c.handle).map (fun f => !f.whole)).getD false
    let c1 := { c with started := true, since := d3.now, msg := { c.msg with id := 0, data := bs }
                       sealed := if early then some (d1.macsecPn p, sent) else none }
    let d4 := ((d3.seqSent c.msg).setCopy c1).setEthPort p { d3.ethPort p with tx := some c.seq, wakeAt := none }
    match c.kind with
    | .ptp ty sq => d4.ptpSent p ty sq c.msg.data (d4.dtime16 + toSfd * 65536)
    | _ => d4

/-- A selection point of an Ethernet port (R109): TC7 and TC6, then a held frame, then the preemptable classes. -/
def Dev.ethSelect (d : Dev) (p toSfd : Nat) (bad : Bool) : Dev :=
  if !d.txReady p then d
  else
    match d.offerFirst p bad [7, 6] with
    | (d1, some c) => d1.ethStart p c toSfd
    | (d1, none) =>
      let x := d1.ethPort p
      match x.held.bind (fun s => d1.fwd.copies.find? (fun c => c.seq == s)) with
      | some c =>
        if bit (d1.gates p d1.dtime).1 c.tc then d1.setEthPort p { x with tx := x.held, held := none } else d1
      | none =>
        match d1.offerFirst p bad [5, 4, 3, 2, 1, 0] with
        | (d2, some c) => d2.ethStart p c toSfd
        | (d2, none) => d2

/-- The end of a transmission, or of a fragment of a preempted frame (R109, R247). A parity failure on its last read
(`bad`) poisons the frame. A `fragment` names its bytes; without one the whole transmission ends. -/
def Dev.ethComplete (d : Dev) (p : Nat) (fragment : Option Nat) (bad : Bool) : Dev :=
  let x := d.ethPort p
  match x.tx.bind (fun s => d.fwd.copies.find? (fun c => c.seq == s)) with
  | none => d
  | some c =>
    let whole := match d.frame c.handle with
      | some f => f.whole
      | none => true
    if bad then d.poisonFrame c.handle p
    else match fragment with
    | some sent =>
      -- with addFragSize 0 a fragment and what follows it have 64 B at least, four of them a CRC
      let fits := decide (60 ≤ sent) && decide (c.sent + sent + 60 ≤ c.msg.data.length + c.ahead)
      if d.flag (F.ETH_PREEMPT_STATUS_ACTIVE p) && decide (c.tc ≤ 5) && decide (p < 12) && fits then
        ((d.inc (F.ETH_FRAG_TX_COUNT p)).setCopy { c with sent := c.sent + sent }).setEthPort p
          { x with tx := none, held := some c.seq, idleAt := d.now }
      else d
    | none => if !whole then d else ((d.sendEth p c.msg.data).txIdle p c.seq).sentCopy c (c.msg.data.length + 4)

/-! ### T1S (R112, R263, R264) -/

/-- PLCA is running on the port: its beacon is present, or the port is the coordinator. -/
def Dev.plcaActive (d : Dev) (p : Nat) : Bool :=
  d.flag (F.ETH_PLCA_CFG_EN p) && (d.get (F.ETH_PLCA_CFG_NODE_ID p) == 0 || d.flag (F.ETH_PLCA_STATUS_BEACON_OK p))

/-- A T1S port uses CSMA/CD: PLCA is disabled, or has fallen back (R263). -/
def Dev.t1sCsma (d : Dev) (p : Nat) : Bool :=
  !d.flag (F.ETH_PLCA_CFG_EN p) || (!d.plcaActive p && d.flag (F.ETH_PLCA_CFG_FALLBACK p))

/-- A T1S port may transmit: by PLCA or by CSMA/CD. -/
def Dev.t1sMaySend (d : Dev) (p : Nat) : Bool := d.txReady p && (d.plcaActive p || d.t1sCsma p)

/-- The frame a T1S port sends: the first head, from the highest TC down, that passes the LATE test. DESIGN CHOICE (log 83): the
test at the opportunity adds no egress term, which R64 names for Ethernet frames. -/
def Dev.t1sOffer (d : Dev) (p : Nat) : Nat → Bool → Dev × Option Copy
  | 0, _ => (d, none)
  | n + 1, bad =>
    match [7, 6, 5, 4, 3, 2, 1, 0].findSome? (fun tc => d.tcHead p tc) with
    | none => (d, none)
    | some c =>
      if d.lateBy c 0 then (d.dropCopy c .late).t1sOffer p n bad
      else if bad then (d.poisonFrame c.handle p).t1sOffer p n false
      else (d, some c)

/-- A transmit opportunity, or the `burst`-th further frame of one (R112). -/
def Dev.t1sOpportunity (d : Dev) (p burst toSfd : Nat) (bad : Bool) : Dev :=
  if !d.t1sMaySend p || !d.segSends p || d.get (F.ETH_PLCA_TIMERS_MAX_BC p) < burst then d
  else
    match d.t1sOffer p (d.copiesOn p).length bad with
    | (d1, some c) => d1.ethStart p c toSfd
    | (d1, none) => d1

/-- A collision while PLCA is active (R264). -/
def Dev.plcaCollision (d : Dev) (p : Nat) : Dev :=
  if !d.plcaActive p then d
  else
    let d0 := (d.inc (F.ETH_PLCA_COLL_COUNT p)).fltSet (blkEth p) 4
    let d1 := ({ d0 with anvil := { d0.anvil with breakAt := SMap.set d0.anvil.breakAt none p (some d0.now) } }).excuse p
      (fun _ => true)
    let x := d1.ethPort p
    match x.tx.bind (fun s => d1.fwd.copies.find? (fun c => c.seq == s)) with
    | none => d1
    | some c =>
      let d2 := d1.setEthPort p { x with tx := none, idleAt := d1.now }
      if 16 ≤ c.tries + 1 then d2.dropCopy c .unavail
      else d2.setCopy { c with tries := c.tries + 1, started := false }

/-! ### Flow control (R103 to R107) -/

/-- Whether FC_OUT pin `n` is active (R107). -/
def Dev.fcActive (d : Dev) (n : Nat) : Bool :=
  let any := d.flag (F.FWD_FC_OUT_ANY_PORT n)
  let port := d.get (F.FWD_FC_OUT_PORT n)
  d.flag (F.FWD_FC_OUT_EN n) && (List.range 12).any (fun p =>
    (any || p == port) && (d.get (F.FWD_WM_STATE_XOFF p) &&& d.get (F.FWD_FC_OUT_PRI n)) != 0)

/-- Level of an FC_OUT pin. -/
def Dev.fcPin (d : Dev) (n : Nat) : Bool := d.fcActive n != d.flag (F.FWD_FC_OUT_POL n)

/-- The PFC frame of a port for the priorities of a set (R104). -/
def Dev.pfcFrame (d : Dev) (p set : Nat) : List Byte :=
  let xoff := d.get (F.FWD_WM_STATE_XOFF p)
  pad60 (bytes [0x01, 0x80, 0xC2, 0, 0, 1] ++ leBytes 6 (d.ethAddr p) ++ beBytes 2 0x8808 ++ beBytes 2 0x0101
    ++ beBytes 2 (set % 256) ++ (List.range 8).flatMap (fun q =>
      beBytes 2 (if bit set q && bit xoff q then d.get F.FWD_PFC_TIMER_QUANTA else 0)))

/-- When a priority's XOFF frame sent now is due again (R104): REFRESH_US on while it stays in XOFF. -/
def Dev.pfcRepeat (d : Dev) (p q : Nat) : Option Nat :=
  if bit (d.get (F.FWD_WM_STATE_XOFF p) &&& d.get (F.FWD_PORT_CFG_PFC_EN p)) q then
    some (d.now + atLeastOne (d.get F.FWD_PFC_TIMER_REFRESH_US) * usCyc)
  else none

/-- A waiting PFC frame is sent (R104, R105): between frames or fragments, with no TC7 or TC6 frame waiting. Changes of
several priorities share it. -/
def Dev.pfcSend (d : Dev) (p : Nat) : Dev :=
  let set := SMap.get d.fwd.pfcPend 0 p
  let express := (d.copiesOn p).any (fun c => decide (6 ≤ c.tc) && !c.started && !c.hold && !c.wait)
  if set == 0 || express || !d.segSends p || !d.txReady p || d.ethAddr p == 0 then d
  else
    let d1 := ((d.sendEth p (d.pfcFrame p set)).cnt F.CNT_PFC_TX_COUNT p).countTx p 64
    ({ d1 with fwd := { d1.fwd with
      pfcPend := SMap.set d1.fwd.pfcPend 0 p 0
      pfcDue := (bitsOf 8 set).foldl (fun m q => SMap.set m none (8 * p + q) (d.pfcRepeat p q)) d1.fwd.pfcDue } }).setEthPort p
      { d1.ethPort p with idleAt := d1.now }

/-- The instants at which the priorities of a port are due again. -/
def Dev.pfcDues (d : Dev) (p : Nat) : List (Nat × Nat) :=
  (List.range 8).filterMap (fun q => (SMap.get d.fwd.pfcDue none (8 * p + q)).map (fun t => (q, t)))

/-- The earliest of the repeats of a port falls due (R104): each priority due by then that is still in XOFF waits to be sent. -/
def Dev.pfcRefresh (d : Dev) (p : Nat) : Dev :=
  match d.pfcDues p with
  | [] => d
  | x :: l =>
    let d1 := d.reach ((l.map (fun y => y.2)).foldl min x.2)
    let now := (d1.pfcDues p).filter (fun y => decide (y.2 ≤ d1.now))
    let on := d1.get (F.FWD_WM_STATE_XOFF p) &&& d1.get (F.FWD_PORT_CFG_PFC_EN p)
    { d1 with fwd := { d1.fwd with
      pfcDue := now.foldl (fun m y => SMap.set m none (8 * p + y.1) none) d1.fwd.pfcDue
      pfcPend := SMap.set d1.fwd.pfcPend 0 p ((now.filter (fun y => bit on y.1)).foldl (fun a y => setBit a y.1 true)
        (SMap.get d1.fwd.pfcPend 0 p)) } }

/-- A received PFC frame (R106): opcode word at `off`. -/
def Dev.pfcReceive (d : Dev) (p off : Nat) (bs : List Byte) : Dev :=
  let v := be16 bs (off + 2)
  let en := d.get (F.FWD_PORT_CFG_PFC_EN p)
  (List.range 8).foldl (fun d q =>
    if !(bit v q && bit en q) then d
    else
      let n := be16 bs (off + 4 + 2 * q)
      let set (d : Dev) (x : Option Nat) : Dev :=
        ({ d with fwd := { d.fwd with pause := SMap.set d.fwd.pause none (8 * p + q) x } }).setBitOf
          (F.FWD_WM_STATE_RX_PAUSED p) q x.isSome
      if n == 0 then set d none
      else (set d (some (d.now + bitCycles (n * 512) (d.portRate p)))).excuse p (fun c =>
        match d.frame c.handle with
        | some f => c.prio.getD f.prio == q
        | none => false)) (d.cnt F.CNT_PFC_RX_COUNT p)

/-- A pause runs out (R106). -/
def Dev.pauseEnd (d : Dev) (p q : Nat) : Dev :=
  match SMap.get d.fwd.pause none (8 * p + q) with
  | none => d
  | some t =>
    let d1 := d.reach t
    ({ d1 with fwd := { d1.fwd with pause := SMap.set d1.fwd.pause none (8 * p + q) none } }).setBitOf
      (F.FWD_WM_STATE_RX_PAUSED p) q false

/-! ### Links (R233, R234, R248) -/

/-- The egress of a port that loses its link (R234): every queued copy goes, one in transmission is cut off; a copy held for a
sleeping segment stays (R372). `ex`: the loss excuses them
(R34). -/
def Dev.flushPort (d : Dev) (p : Nat) (ex : Bool) : Dev :=
  let d1 := (if ex then d.excuse p (fun _ => true) else d).dropWhere p (fun c => !c.hold) .unavail
  d1.setEthPort p { d1.ethPort p with tx := none, held := none, wakeAt := none, idleAt := d1.now }

/-- Preemption is off until the link is up again (R248). -/
def Dev.preemptStop (d : Dev) (p : Nat) : Dev :=
  if p < 12 then
    (d.set (F.ETH_PREEMPT_STATUS_ACTIVE p) 0).set (F.ETH_PREEMPT_STATUS_VERIFY_STATE p)
      (if bit (d.get (F.ETH_PREEMPT_OPER_DATA p)) 0 && !bit (d.get (F.ETH_PREEMPT_OPER_DATA p)) 1 then 1 else 0)
  else d

/-- A frame in reception loses its end (R119). -/
def Dev.partCut (d : Dev) (p : Nat) : Dev :=
  match d.part p with
  | some x => d.partError p x [] F.CNT_DROP_ERROR_COUNT
  | none => d

/-- A link goes down: discard, count, fault; a frame in reception is cut off; pauses of the partner end with its link. A port that
was retraining stays so (R234). -/
def Dev.linkCut (d : Dev) (p : Nat) (ex : Bool) : Dev :=
  let x := d.ethPort p
  let d0 := d.setEthPort p { x with phyUp := false, noBeacon := false }
  if !d.flag (F.ETH_STATUS_LINK p) then (if x.noBeacon then (d0.partCut p).flushPort p ex else d0)
  else
    let d1 := ((d0.set (F.ETH_STATUS_LINK p) 0).set (F.ETH_STATUS_LPI_TX p) 0).set (F.ETH_STATUS_LPI_RX p) 0
    let d2 := (((d1.partCut p).flushPort p ex).preemptStop p)
    let d3 := if p < 12 then d2.set (F.TIME_GPTP_PORT_AS_CAPABLE p) 0 else d2
    (d3.inc (F.ETH_LINK_DOWNS_COUNT p)).fault (blkEth p) 0

/-- A link goes down on the line. -/
def Dev.ethDown (d : Dev) (p : Nat) : Dev := d.linkCut p true

/-- A port that is up starts its preemption (R248): verification keeps it retraining until it succeeds. -/
def Dev.preemptStart (d : Dev) (p : Nat) : Dev :=
  let x := d.get (F.ETH_PREEMPT_OPER_DATA p)
  if 12 ≤ p || !bit x 0 then d
  else if bit x 1 then (d.set (F.ETH_PREEMPT_STATUS_ACTIVE p) 1).set (F.ETH_PREEMPT_STATUS_VERIFY_STATE p) 0
  else
    (((d.set (F.ETH_STATUS_RETRAINING p) 1).set (F.ETH_PREEMPT_STATUS_ACTIVE p) 0).set (F.ETH_PREEMPT_STATUS_VERIFY_STATE p) 2).setEthPort
      p { d.ethPort p with verTries := 1, verAt := d.now }

/-! ### Low-power idle (R260) -/

/-- An admitted contract's path egresses a port. -/
def Dev.contractOut (d : Dev) (p : Nat) : Bool := d.admitted.any (fun k => bit (rqEgress k.2.req) p)

/-- Low-power idle is asserted when its conditions hold. -/
def Dev.lpiEnter (d : Dev) (p : Nat) : Dev :=
  let x := d.ethPort p
  let due := x.idleAt + atLeastOne (d.get (F.ETH_LPI_IDLE_US p)) * usCyc
  let rate := [25000, 10000, 5000, 1000].contains (d.portRate p)
  if d.flag (F.ETH_STEP_CFG_LPI_EN p) && rate && !d.flag (F.ETH_STEP_STATUS_PARTNER p) && !d.contractOut p
      && (d.copiesOn p).isEmpty && x.tx.isNone && d.linkReady p && d.portAvail p then
    (d.reach due).set (F.ETH_STATUS_LPI_TX p) 1
  else d

/-! ### MDIO (R265) -/

/-- A transaction starts. -/
def Dev.mdioStart (d : Dev) : Dev :=
  let bus := d.get F.ETHC_MDIO_CMD_BUS
  let op := d.get F.ETHC_MDIO_CMD_OP
  let m : Mdio := ⟨bus, op, d.get F.ETHC_MDIO_CMD_PHYAD, d.get F.ETHC_MDIO_CMD_DEVAD, d.get F.ETHC_MDIO_ADDR_REG,
    d.get F.ETHC_MDIO_DATA_DATA⟩
  let d1 := { d with eth := { d.eth with mdio := some m } }
  (d1.set F.ETHC_MDIO_CMD_GO 1).emit (.mdio bus op m.phy m.dev m.reg m.data)

/-- A transaction ends; a read that no PHY answers gives 0xFFFF. -/
def Dev.mdioEnd (d : Dev) (answer : Option Nat) : Dev :=
  match d.eth.mdio with
  | none => d
  | some m =>
    let d1 := ({ d with eth := { d.eth with mdio := none } }).set F.ETHC_MDIO_CMD_GO 0
    if m.op % 2 == 1 then d1.set F.ETHC_MDIO_DATA_DATA (answer.getD 0xFFFF % 65536) else d1

/-! ### The rate-step agent (R251 to R259) -/

/-- The agent runs: MGMT runs and no activation copy is in progress (Table FW-4). -/
def Dev.agentMayStart (d : Dev) : Bool := d.mgmtRuns && d.get F.BOOT_STATUS_STAGE_STATE != 4

/-- Rate codes of a kind of port. -/
def portCodes (p : Nat) : List Nat := if p < 4 then [2, 3, 4, 5] else [0, 1]

/-- The rates a port offers: its codes at or above its floor (Table ETH-4). -/
def Dev.ratesOffered (d : Dev) (p : Nat) : Nat :=
  ((portCodes p).filter (fun r => decide (d.get (F.ETH_RATE_FLOOR p) ≤ r))).foldl (fun a r => a + 2 ^ r) 0

/-- An LLDPDU with the rate-step TLV (R251): chassis and port are the station address, the time to live four intervals
(log 22). -/
def Dev.lldpSend (d : Dev) (p msg seq target reason holdoff : Nat) : Dev :=
  if d.ethAddr p == 0 || !d.mgmtRuns then d
  else
    let a := leBytes 6 (d.ethAddr p)
    let ttl := min 65535 (4 * atLeastOne (d.get (F.ETH_LLDP_TX_S p)) + 1)
    let tlv := beBytes 2 0xFE10 ++ bytes [0x5C, 0x2E, 0x91, 1, 1, msg] ++ beBytes 2 seq
      ++ bytes [d.get (F.ETH_RATE_CUR p), target, d.ratesOffered p, reason] ++ beBytes 2 holdoff ++ beBytes 2 0
    let fr := bytes [0x01, 0x80, 0xC2, 0, 0, 0x0E] ++ a ++ beBytes 2 0x88CC
      ++ beBytes 2 (1 * 512 + 7) ++ bytes [4] ++ a ++ beBytes 2 (2 * 512 + 7) ++ bytes [3] ++ a
      ++ beBytes 2 (3 * 512 + 2) ++ beBytes 2 ttl ++ tlv ++ beBytes 2 0
    let tc := d.beTc p 0
    (d.setEthPort p { d.ethPort p with lldpAt := some d.now }).originate p tc (ethMsg (pad60 fr)) (d.beDeadline d.dtime tc) .plain

/-- A step ends with a result; the utilisation window restarts (R253, R259). -/
def Dev.stepEnd (d : Dev) (p result : Nat) : Dev :=
  let d1 := (d.set (F.ETH_STEP_STATUS_STATE p) 0).set (F.ETH_STEP_STATUS_RESULT p) result
  let d2 := match result with
    | 1 => d1.inc (F.ETH_STEP_DONE_COUNT p)
    | 3 => d1.inc (F.ETH_STEP_DECLINED_COUNT p)
    | 4 => d1.inc (F.ETH_STEP_SILENT_COUNT p)
    | 5 | 6 => d1.inc (F.ETH_STEP_FAILED_COUNT p)
    | _ => d1
  d2.setEthPort p { d2.ethPort p with
    win := (0, 0, d2.now), theirs := false, upReq := false }

/-- A PROPOSE with a new SEQ (R255). -/
def Dev.stepPropose (d : Dev) (p target : Nat) : Dev :=
  let seq := (d.get (F.ETH_STEP_STATUS_SEQ p) + 1) % 65536
  let d1 := (d.set (F.ETH_STEP_STATUS_SEQ p) seq).set (F.ETH_STEP_STATUS_STATE p) 2
  (d1.setEthPort p { d1.ethPort p with target := target, tries := 1, stageAt := d1.now }).lldpSend p 1 seq target 0 0

/-- RETRAIN begins (R258). -/
def Dev.retrain (d : Dev) (p target : Nat) : Dev :=
  let cur := d.get (F.ETH_RATE_CUR p)
  let d0 := ((d.set (F.ETH_STATUS_LINK p) 0).set (F.ETH_STATUS_LPI_TX p) 0).set (F.ETH_STATUS_LPI_RX p) 0
  let d1 := (((d0.set (F.ETH_STATUS_RETRAINING p) 1).partCut p).flushPort p true).preemptStop p
  let d2 := ((if p < 12 then d1.set (F.TIME_GPTP_PORT_AS_CAPABLE p) 0 else d1).set (F.ETH_STEP_STATUS_STATE p) 4).setEthPort p
    { d1.ethPort p with target := target, prev := cur, stageAt := d1.now, revert := false, phyUp := false }
  d2.recipe p (32 * p + 4 * target)

/-- The step after a change of NOM (R250, R252): an exchange with a partner that takes part, else a retrain at once. Where another
step runs, or the agent may not start one, it waits. -/
def Dev.stepToNom (d : Dev) (p : Nat) : Dev :=
  let nom := d.get (F.ETH_RATE_NOM p)
  let wait := !d.agentMayStart || d.get (F.ETH_STEP_STATUS_STATE p) != 0
  if nom == d.get (F.ETH_RATE_CUR p) then d.setEthPort p { d.ethPort p with toNom := false }
  else if wait then d.setEthPort p { d.ethPort p with toNom := true }
  else
    let d1 := d.setEthPort p { d.ethPort p with toNom := false }
    if d1.flag (F.ETH_STEP_STATUS_PARTNER p) then d1.stepPropose p nom else d1.retrain p nom

/-- A step ends, and a step to NOM that has waited for it starts. -/
def Dev.stepOver (d : Dev) (p result : Nat) : Dev :=
  let d1 := d.stepEnd p result
  if (d1.ethPort p).toNom then d1.stepToNom p else d1

/-- ANSWER_MS passes without an answer (R255). -/
def Dev.answerTimeout (d : Dev) (p : Nat) : Dev :=
  if d.get (F.ETH_STEP_STATUS_STATE p) != 2 then d
  else
    let x := d.ethPort p
    let d1 := d.reach (x.stageAt + atLeastOne (d.get (F.ETH_STEP_TIMERS_ANSWER_MS p)) * msCyc)
    if 3 ≤ x.tries then
      ((d1.set (F.ETH_STEP_STATUS_PARTNER p) 0).setEthPort p { x with ttlEnd := none }).stepOver p 4
    else
      (d1.setEthPort p { x with tries := x.tries + 1, stageAt := d1.now }).lldpSend p 1
        (d1.get (F.ETH_STEP_STATUS_SEQ p)) x.target 0 0

/-- The holdoff ends (R255). DESIGN CHOICE (log 76): a target that a CHANGE has meanwhile put below FLOOR is not taken (R250), and
the step ends REFUSED. -/
def Dev.holdoffEnd (d : Dev) (p : Nat) : Dev :=
  if d.get (F.ETH_STEP_STATUS_STATE p) != 3 then d
  else
    let x := d.ethPort p
    let d1 := d.reach (x.stageAt + x.stageLen)
    if x.target < d.get (F.ETH_RATE_FLOOR p) then d1.stepOver p 2 else d1.retrain p x.target

/-- The retrain turns back to the previous rate (R258). -/
def Dev.retrainBack (d : Dev) (p : Nat) : Dev :=
  (d.setEthPort p { d.ethPort p with revert := true, stageAt := d.now }).recipe p (32 * p + 4 * (d.ethPort p).prev)

/-- RETRAIN_MS passes without a link (R258). After FAILED the link stays down, and the port retraining (R234). -/
def Dev.retrainTimeout (d : Dev) (p : Nat) : Dev :=
  if d.get (F.ETH_STEP_STATUS_STATE p) != 4 then d
  else
    let x := d.ethPort p
    let d1 := d.reach (x.stageAt + atLeastOne (d.get (F.ETH_RETRAIN_RETRAIN_MS p)) * msCyc)
    if x.revert then (d1.fltSet (blkEth p) 2).stepOver p 6
    else d1.retrainBack p

/-- The conditions of R233 that every link has: the port is enabled, and its MAC and line-side domains are on. -/
def Dev.linkPower (d : Dev) (p : Nat) : Bool :=
  d.flag (F.ETH_MAC_CFG_EN p) && d.ready (portDomain p) && (lineDomain p == 0 || d.ready (lineDomain p))

/-- A link comes up at the rate code its PHY reports (R233): on GE another speed keeps it down. A retrain ends (R258); one whose
target a CHANGE has meanwhile put below FLOOR turns back (R250, log 76). -/
def Dev.linkUp (d : Dev) (p code : Nat) : Dev :=
  let x := d.ethPort p
  let re := decide (p < 12) && d.get (F.ETH_STEP_STATUS_STATE p) == 4
  let want := if re then (if x.revert then x.prev else x.target) else d.get (F.ETH_RATE_CUR p)
  let plca := d.flag (F.ETH_PLCA_CFG_EN p) && d.get (F.ETH_PLCA_CFG_NODE_ID p) != 0
  if d.flag (F.ETH_STATUS_LINK p) || !d.linkPower p || (d.seg p).phyLow || d.isolated (blkEth p) then d
  else if 4 ≤ p && p < 12 && code != want then d.set (F.ETH_STATUS_SPEED_MISMATCH p) 1
  else if 12 ≤ p && plca && !d.flag (F.ETH_PLCA_STATUS_BEACON_OK p) then d
  else if re && !x.revert && x.target < d.get (F.ETH_RATE_FLOOR p) then d.retrainBack p
  else
    let d1 := ((d.set (F.ETH_STATUS_LINK p) 1).set (F.ETH_STATUS_RETRAINING p) 0).setEthPort p
      { x with phyUp := true, noBeacon := false, idleAt := d.now }
    let d2 := if 12 ≤ p then d1 else d1.set (F.ETH_STATUS_SPEED_MISMATCH p) 0
    let d3 := if !re then d2
      else if x.revert then d2.stepEnd p 5
      else (d2.set (F.ETH_RATE_CUR p) x.target).stepEnd p 1
    let d4 := if p < 12 && d3.gptpOn p && d3.flag (F.TIME_GPTP_PORT_STATIC_DELAY p) then d3.setAsCapable p true else d3
    let d5 := d4.preemptStart p
    let d6 := if re && (d5.ethPort p).toNom then d5.stepToNom p else d5
    -- a link that comes up wakes a segment that is ASLEEP (Table NM-5)
    if segEth p then d6.wakeSeen p 6 else d6

/-- A TS link follows its conditions after a change of them (R233). A follower that has lost its beacon keeps to R263 while the other
conditions hold. -/
def Dev.tsLink (d : Dev) (p : Nat) : Dev :=
  let beacon := !d.flag (F.ETH_PLCA_CFG_EN p) || d.get (F.ETH_PLCA_CFG_NODE_ID p) == 0 || d.flag (F.ETH_PLCA_STATUS_BEACON_OK p)
  if !d.linkPower p then d.ethDown p
  else if beacon then d.linkUp p 0
  else if d.flag (F.ETH_STATUS_LINK p) then d.ethDown p
  else d

/-! ### PLCA beacons (R263) -/

/-- A follower takes its beacon as lost (R263), from the start or after beacons: its link is down (R233), and R263 says how its
egress goes on (log 75). -/
def Dev.beaconLost (d : Dev) (p : Nat) : Dev :=
  if !d.flag (F.ETH_PLCA_CFG_EN p) || d.get (F.ETH_PLCA_CFG_NODE_ID p) == 0 || (d.ethPort p).noBeacon then d
  else
    let d0 := if d.flag (F.ETH_STATUS_LINK p) then
        ((d.set (F.ETH_STATUS_LINK p) 0).inc (F.ETH_LINK_DOWNS_COUNT p)).fault (blkEth p) 0
      else d
    let d1 := ((d0.set (F.ETH_PLCA_STATUS_BEACON_OK p) 0).fault (blkEth p) 3).inc (F.ETH_BEACON_LOST_COUNT p)
    let d2 := (d1.setEthPort p { d1.ethPort p with noBeacon := true }).steEvent 0x06 p 0
    ({ d2 with anvil := { d2.anvil with breakAt := SMap.set d2.anvil.breakAt none p (some d2.now) } }).excuse p (fun _ => true)

/-- A valid beacon where none was held (R263): it ends a loss, from which the hold of the ledger flag counts, and the link comes
up (R233). -/
def Dev.beaconBack (d : Dev) (p : Nat) : Dev :=
  if !d.flag (F.ETH_PLCA_CFG_EN p) || d.get (F.ETH_PLCA_CFG_NODE_ID p) == 0 || d.flag (F.ETH_PLCA_STATUS_BEACON_OK p)
      || (d.seg p).phyLow then d
  else
    let d1 := d.set (F.ETH_PLCA_STATUS_BEACON_OK p) 1
    let d2 := if (d1.ethPort p).noBeacon then d1.steEvent 0x07 p 0 else d1
    let d3 := if d2.ledgerFlag p then
        { d2 with anvil := { d2.anvil with breakAt := SMap.set d2.anvil.breakAt none p (some d2.now) } }
      else d2
    d3.linkUp p 0

end Sys2Proof.Machine
end

