-- ==== Sys2Proof/Machine/FwdRx.lean ====
section
/-!
DEFINITION. Ethernet ingress and cut-through (R73 to R81, R118 to R120), field ingress queues (R97 to R102), intake
frames of the STE (R166, R167) and the detection of silent members (R125).
-/
namespace Sys2Proof.Machine

/-! ### Dispositions before lookup (R77, R236) -/

/-- What happens to a frame before it is classified. -/
inductive Dispo where
  | pfc | badControl | ptp | lldp | reserved | filter (host : Bool) | lookup
  deriving DecidableEq, Repr

/-- The station filter that takes a DA: its target, HOST or MGMT (R236). -/
def Dev.stationFilter (d : Dev) (p da : Nat) : Option Bool :=
  ((List.range 8).find? (fun k => d.flag (F.ETH_SFILT_W1_EN p k)
    && d.get (F.ETH_SFILT_MAC p k) + 2 ^ 32 * d.get (F.ETH_SFILT_W1_MAC p k) == da)).map
      (fun k => !d.flag (F.ETH_SFILT_W1_TARGET p k))

/-- The first row of Table PIPE-2 that matches, then the station filters. -/
def Dev.dispo (d : Dev) (p : Nat) (h : Hdr) (bs : List Byte) : Dispo :=
  if h.etype == 0x8808 then (if be16 bs (h.off + 2) == 0x0101 then .pfc else .badControl)
  else if h.etype == 0x88F7 then .ptp
  else if h.etype == 0x88CC then .lldp
  else if reservedDa bs then .reserved
  else
    match d.stationFilter p h.da with
    | some host => .filter host
    | none => .lookup

/-! ### Cut-through (R118, R119) -/

/-- The operational threshold of a port; none where cut-through is off. -/
def Dev.ctThresh (d : Dev) (p : Nat) : Option Nat :=
  let t := d.get (F.FWD_CT_THRESH_THRESH p)
  if t == 0 then none else some (max 64 t)

/-- A copy of a frame of which `n` bytes are still to come. -/
def Dest.awaiting (x : Dest) (n : Nat) : Dest :=
  match x with
  | .copy c s => .copy { c with ahead := n } s
  | .pdu a b c e => .pdu a b c e

/-- The header and threshold bytes of a frame that will have `total` bytes have arrived on a port, `age` ns after its SFD: its
lookup is done, and its copies are queued (R118). Its length is not known to the device yet: an oversize frame starts too (R238). -/
def Dev.cutThrough (d : Dev) (p : Nat) (bs : List Byte) (total age : Nat) : Dev :=
  let h := parseHdr bs
  let pipe := b2n (pipeB p)
  let ok := d.flag F.FWD_CTRL_FWD_EN && d.portAvail p && d.linkReady p && (d.part p).isNone && !d.macsecOn p
    && d.dispo p h bs == Dispo.lookup && decide (h.off + 2 ≤ bs.length) && decide (bs.length + 4 < total)
    && (match d.ctThresh p with
      | some t => decide (t ≤ bs.length)
      | none => false)
  -- a frame that is verified whole waits for its end
  let secured := match (d.classify p 0 h).2 with
    | some (_, vid) => match ((d.stream pipe h.da vid).2).bind (fun x => d.contract x.1) with
      | some k => rqSecIn k.req != 0xFFFF
      | none => false
    | none => false
  if !ok || secured then d
  else
    let start := (d.dtime + 2 ^ 64 - age % 2 ^ 64) % 2 ^ 64
    let seen : Option (Nat × Nat) := (d.classify p 0 h).2
    let part : Part := { Part.init with got := bs.length, vid := (seen.map (fun x => x.2)).getD 0, looked := seen.isSome }
    match d.ethPlan p pipe 0 bs h total false with
    | (d1, none) => d1.setPart p (some { part with dead := true })
    | (d1, some x) =>
      let part1 := { part with vid := x.vid, insert := x.insert, strip := x.strip, untag := x.untag, host := x.host }
      if x.ports.isEmpty then d1.setPart p (some part1)
      else
        let (d2, f) := d1.newFrame p pipe (ethMsg bs) x.prio x.vid x.contract start
        let l := (d2.ethDests x h bs start (fun q => !d2.ctPair p q)).map (fun y : Dest => y.awaiting (total - (bs.length + 4)))
        let (d3, hd) := d2.storeAnd f bs.length l false
        let dry := hd.isNone && l.any d2.stays
        d3.setPart p (some { part1 with
          handle := hd, host := x.host && !dry, dead := dry, out := (hd.map (d3.queuedAcross pipe)).getD false })

/-- A stored frame takes the further cells of its whole length (R91, R92); false where the buffer has no room. A frame served
beyond its reservation counts once (R90). -/
def Dev.grow (d : Dev) (h n : Nat) : Dev × Bool :=
  match d.frame h with
  | none => (d, false)
  | some f =>
    let need := cellsFor n - f.cells
    if need == 0 then (d, true)
    else
      match f.contract.bind d.contract with
      | some c =>
        let spare := d.spareC c (f.contract.getD 0) f.half
        let mine := if f.rsvHandle then min need spare else 0
        if mine == need then (d.setFrame h (some { f with cells := f.cells + need, rsvCells := f.rsvCells + mine }), true)
        else if d.beyond f.rsvHandle spare f.half need then
          let d1 := d.setFrame h (some { f with cells := f.cells + need, rsvCells := f.rsvCells + mine, overrun := true })
          (if f.overrun then d1 else (d1.inc F.FWD_RSV_OVERRUN_COUNT).fault blkFwd 3, true)
        else (d, false)
      | none =>
        if d.unusedC f.half + need ≤ d.freeCells f.half then
          ((d.setFrame h (some { f with cells := f.cells + need })).wmUpdate f.ingress f.prio, true)
        else (d, false)

/-- A best-effort copy that has not started stands beyond its port's limit now that its frame is whole (R110). -/
def Dev.beyondLimit (d : Dev) (c : Copy) : Bool :=
  let lim := d.get (F.FWD_EQ_LIMIT_BE_CELLS c.port)
  decide (c.port < 20) && !c.started && !c.hold && (d.contractCopy c).isNone && lim != 0 && decide (lim < d.beCells c.port)

/-- A copy of a frame in reception takes its whole form; one that waited for the end of the frame joins its queue now.
An oversize form is not sent: a started copy ends after MAX_LEN bytes (R239). -/
def Dev.finishCopy (d : Dev) (c : Copy) (data : List Byte) : Dev :=
  let c1 := { c with msg := { c.msg with data := data }, ahead := 0 }
  let lim := d.get (F.ETH_MAX_LEN_LEN c.port)
  if lim < (if c.started then c1.msg.len else d.wireLen c.port c1) && decide (c.port < 20) then
    let d1 := (d.inc (F.ETH_OVS_TX_COUNT c.port)).setCopy c1
    if c.started then d1.endStomp c1 lim else d1.dropCopy c1 .oversize
  else if d.beyondLimit c then (d.setCopy c1).dropCopy c1 .tail
  else if c.started || !c.wait then d.setCopy c1
  else ((d.unlistCopy c).enlist { c1 with wait := false }).1

/-- A frame whose header was taken has arrived whole and valid; its residence start was `start`. A frame of which no copy was
made, or left, is learned from like any other (R143, R144). DESIGN CHOICE (log 69): its copies may have started, so one that the
learn limit refuses with ACTION = 1 is neither discarded nor counted as DROP_FILTER (R146). -/
def Dev.partWhole (d : Dev) (p : Nat) (x : Part) (bs : List Byte) (start : Nat) : Dev :=
  let h := parseHdr bs
  let pipe := b2n (pipeB p)
  let d0 := d.setPart p none
  let host (d : Dev) (t : Nat) : Dev := if x.host then d.hostOrIntake p h x.vid t bs else d
  let learn (d : Dev) (out : Bool) : Dev :=
    if !x.looked then d
    else
      let d1 := (d.learnIn p pipe h.sa x.vid).1
      if x.out || out then d1.learnOut p pipe h.sa x.vid else d1
  match x.handle with
  | none => learn (host d0 start) false
  | some hd =>
    let t := ((d0.frame hd).map (fun f => f.start)).getD start
    match d0.grow hd (bs.length + 4) with
    | (d1, false) => learn ((d1.partFail hd true).cnt F.CNT_DROP_NORES_COUNT p) false
    | (d1, true) =>
      let plan : EthPlan := ⟨0, x.vid, none, x.insert, x.strip, [], x.host, x.untag⟩
      let d2 := (d1.copiesOf hd).foldl (fun d c => d.finishCopy c (plan.form c.port h bs)) (host d1 t)
      let d3 := learn d2 (d2.queuedAcross pipe hd)
      match d3.frame hd with
      | some f => (d3.setFrame hd (some { f with whole := true, msg := ethMsg bs })).releaseIf hd
      | none => d3

/-! ### Ethernet ingress (R73 to R81) -/

/-- A frame that passed the MAC and MACsec, at DTIME `start`, received at instant `cyc`. -/
def Dev.ethDispose (d : Dev) (p : Nat) (bs : List Byte) (start sfd16 cyc : Nat) : Dev :=
  let h := parseHdr bs
  match d.dispo p h bs with
  | .pfc => if p < 12 then d.pfcReceive p (h.off + 2) bs else d
  | .badControl => d.cnt F.CNT_DROP_ERROR_COUNT p
  | .ptp => d.ptpReceive ⟨p, bs, sfd16, cyc⟩
  | .lldp => d.toMgmt p bs
  | .reserved => d.toHost p 0 false false start bs
  | .filter host => if host then d.toHost p 0 false true start bs else d.toMgmt p bs
  | .lookup =>
    let pipe := b2n (pipeB p)
    match d.ethPlan p pipe 0 bs h (bs.length + 4) true with
    | (d1, none) => d1
    | (d1, some x) => d1.ethForward p pipe bs h start x

/-! ### Field ingress queues (R96 to R102) -/

/-- Words of a queue: 4 KiB for a T1S or CAN port, 512 B for a LIN port (Table PIPE-3). -/
def fqWords (q : Nat) : Nat := if q < 28 then 128 else 16

/-- The queue of a port: the global port number minus 12 (Table PIPE-3). -/
def fqOf (p : Nat) : Nat := p - 12

/-- Data words of a record: 32 bytes each under tag 0, and the last under its number of bytes, filled with bytes of 0 (R97). -/
def dataLines : Nat → List Byte → List (Nat × List Byte)
  | 0, _ => []
  | n + 1, bs =>
    if bs.length ≤ 32 then [(bs.length, bs ++ List.replicate (32 - bs.length) 0)] else (0, bs.take 32) :: dataLines n (bs.drop 32)

/-- The words of a record, each with its tag (R97): the 32 B header with residence start, identifier, format, length and receive
status, then the data. The manual gives the header no layout: this one is the model's (log 74). -/
def Rec.lines (r : Rec) : List (Nat × List Byte) :=
  let n := (r.msg.data.length + 31) / 32
  let head := leBytes 8 r.start ++ leBytes 4 r.msg.id ++ leBytes 1 r.msg.form ++ leBytes 2 r.msg.data.length ++ leBytes 1 r.state
    ++ leBytes 1 r.msg.flags ++ leBytes 15 0
  (if n == 0 then 32 else 0, head) :: dataLines n r.msg.data

/-- Words of a record. -/
def Rec.words (r : Rec) : Nat := r.lines.length

/-- Lanes that a queue's pointers count: one bit more than the lane address, 11 bits for 4 KiB and 8 bits for 512 B (R98). -/
def fqSpan (q : Nat) : Nat := 16 * fqWords q

def Dev.fq (d : Dev) (q : Nat) : List Rec := SMap.get d.fwd.fq [] q
def Dev.setFq (d : Dev) (q : Nat) (l : List Rec) : Dev := { d with fwd := { d.fwd with fq := SMap.set d.fwd.fq [] q l } }

/-- The write and read pointers of a queue, in lanes (R98). -/
def Dev.fqPtr (d : Dev) (q : Nat) : Nat × Nat := SMap.get d.fwd.fqPtr (0, 0) q

/-- The pointers move on by words of eight lanes. -/
def Dev.fqMove (d : Dev) (q w r : Nat) : Dev :=
  let x := d.fqPtr q
  { d with fwd := { d.fwd with fqPtr := SMap.set d.fwd.fqPtr (0, 0) q ((x.1 + 8 * w) % fqSpan q, (x.2 + 8 * r) % fqSpan q) } }

/-- Words between the pointers: 0 where they are equal, all where their top bits alone differ (R98). -/
def Dev.fqFill (d : Dev) (q : Nat) : Nat := ((d.fqPtr q).1 + fqSpan q - (d.fqPtr q).2 % fqSpan q) % fqSpan q / 8

/-- A frame is published in the field ingress queue of its port, or abandoned where the queue is full (R99, R100).
`part` is what the pipeline holds of a frame whose words it has already read (R120). -/
def Dev.fqPut (d : Dev) (p : Nat) (m : Msg) (start state : Nat) (bad : Bool) (part : Option Part) : Dev × Bool :=
  let q := fqOf p
  let (d1, n) := d.takeOrder
  let drained := part.isSome
  let r : Rec := ⟨m, start, state, bad, part, n⟩
  if !drained && decide (fqWords q < d.fqFill q + r.words) then
    (((d.cnt F.CNT_FQ_OVERFLOW_COUNT p).set (F.FWD_FQ_STATUS_OVERFLOW q) 1).fltSet blkFwd 2, false)
  else ((d1.setFq q (d1.fq q ++ [r])).fqMove q r.words (if drained then r.words else 0), true)

/-! ### Reception of Ethernet and T1S frames -/

/-- A frame longer than MAX_LEN (R237, R238): it fails, and with OVS_HOST its first MAX_LEN bytes go to HOST. -/
def Dev.ethOversize (d : Dev) (p : Nat) (bs fcs : List Byte) (start : Nat) : Dev :=
  let lim := d.get (F.ETH_MAX_LEN_LEN p)
  let head := (bs ++ fcs).take lim
  let d1 := d.inc (F.ETH_OVS_RX_COUNT p)
  let toHost := d1.flag (F.ETH_MAC_CFG_OVS_HOST p)
  let d2 := match d1.part p with
    | some x =>
      let begun := ((x.handle.map d1.copiesOf).getD []).any (fun c => c.started)
      if toHost && !begun then d1.partEnd p x head else d1.partError p x head F.CNT_DROP_ERROR_COUNT
    | none => if toHost then d1 else d1.cnt F.CNT_DROP_ERROR_COUNT p
  if toHost then d2.toHost p 0 true false start head else d2

/-- A frame that fails at its end: cut-through copies end (R119), and it counts once (R76). -/
def Dev.ethFail (d : Dev) (p : Nat) (bs : List Byte) : Dev :=
  match d.part p with
  | some x => d.partError p x bs F.CNT_DROP_ERROR_COUNT
  | none => d.cnt F.CNT_DROP_ERROR_COUNT p

/-- The residence start of a frame that ends now (R277): its SFD, `age` ns ago; on T1S the end of its FCS. -/
def Dev.ethStartAt (d : Dev) (p age : Nat) : Nat := if p < 12 then (d.dtime + 2 ^ 64 - age % 2 ^ 64) % 2 ^ 64 else d.dtime

/-- A frame with a good FCS: `age` ns since its SFD. A T1S frame enters its field ingress queue (R97). `ue`: held output that it takes
meets an uncorrectable error (R328). -/
def Dev.ethGood (d : Dev) (p : Nat) (bs : List Byte) (age : Nat) (ue : Bool) : Dev :=
  let n := bs.length + 4
  let start := d.ethStartAt p age
  if n < 64 then d.ethFail p bs
  else if d.get (F.ETH_MAX_LEN_LEN p) < n then d.ethOversize p bs (leBytes 4 (crc32 bs)) start
  else
    let d1 := (d.countRx p n).segReceived p none none
    if 12 ≤ p then (d1.fqPut p (ethMsg bs) start 0 false none).1
    else
      match d1.part p with
      | some x => d1.partWhole p x bs start
      | none =>
        let sfd := d1.dtime16 - age * 65536
        let cyc := d1.now - age * 4 / 5
        if d1.macsecOn p then
          match d1.macsecReceive p bs ue with
          | (d2, none) => d2
          | (d2, some pt) => d2.ethDispose p pt start sfd cyc
        else d1.ethDispose p bs start sfd cyc

/-- A frame with a bad FCS: an oversize one is handled as such, with the FCS bytes it ended with unknown (R76, R237, log 3). -/
def Dev.ethBad (d : Dev) (p : Nat) (bs : List Byte) (age : Nat) : Dev :=
  if d.get (F.ETH_MAX_LEN_LEN p) < bs.length + 4 then d.tookFree.ethOversize p bs (d.freeBytes 4) (d.ethStartAt p age)
  else d.ethFail p bs

/-- A T1S port compares every PLCA node it observes with its ledger (R69): the node and its frame's number in the burst, where a
frame was received. -/
def Dev.plcaSeen (d : Dev) (p : Nat) (kind : EthRx) (n : Nat) (plca : Option (Nat × Nat)) : Dev :=
  match kind, plca with
  | .whole, some (node, burst) | .heldError, some (node, burst) | .reassembled, some (node, burst) | .badFcs, some (node, burst) =>
    if 12 ≤ p then d.ledgerCheck p 6 node n false burst else d
  | _, _ => d

/-- A frame arrives while FWD_EN is 0: it is discarded uncounted, and what its header had started ends (Table PIPE-5, R119). -/
def Dev.partLoss (d : Dev) (p : Nat) (bs : List Byte) : Dev :=
  match d.part p with
  | some x => d.partEnd p x bs
  | none => d

/-- Anything received on an Ethernet or T1S port. A reassembly that fails is the end of a frame whose header was taken (R119). -/
def Dev.ethReceive (d : Dev) (p : Nat) (kind : EthRx) (bs : List Byte) (age : Nat) (plca : Option (Nat × Nat)) : Dev :=
  if !d.portAvail p || !d.linkReady p || !d.segHears p then d
  else
    let d0 := d.plcaSeen p kind (bs.length + 4) plca
    match kind with
    | .lpi on => if p < 12 then d.set (F.ETH_STATUS_LPI_RX p) (b2n on) else d
    | .badSmd => if p < 12 then d.inc (F.ETH_SMD_ERR_COUNT p) else d
    | .asmError => if p < 12 then (d.inc (F.ETH_ASSY_ERR_COUNT p)).partCut p else d
    | .badFcs => if d0.flag F.FWD_CTRL_FWD_EN then d0.ethBad p bs age else d0.partLoss p bs
    | .whole => if d0.flag F.FWD_CTRL_FWD_EN then d0.ethGood p bs age false else d0.partLoss p bs
    | .heldError => if d0.flag F.FWD_CTRL_FWD_EN then d0.ethGood p bs age true else d0.partLoss p bs
    | .reassembled =>
      let d1 := if p < 12 then d0.inc (F.ETH_ASSY_OK_COUNT p) else d0
      if d1.flag F.FWD_CTRL_FWD_EN then d1.ethGood p bs age false else d1.partLoss p bs

/-! ### CAN XL cut-through (R120) -/

/-- A target whose copy may be made before the frame is valid: an unsigned copy to a CAN egress, or one to a UP or GE
egress in form 12. -/
def Dev.xlEarly (d : Dev) (t : RTarget) : Bool :=
  let e := match t.edit with
    | some i => d.steEnt 2 i
    | none => 0
  let signed := t.edit.isSome && edSecEn e
  !signed && ((decide (20 ≤ t.target) && decide (t.target < 40)) || (decide (t.target < 12) && t.edit.isSome && edForm e == 12))

/-- Threshold of a controller, from 64 to 2,048 in steps of 32; none where it is 0. -/
def Dev.xlThresh (d : Dev) (c : Nat) : Option Nat :=
  let t := d.get (F.FWD_XL_CT_THRESH c)
  if t == 0 then none else some (min 2048 (max 64 ((t + 31) / 32 * 32)))

/-- A copy made early: it waits, and its deadline is set at frame-valid. -/
def Dest.early (x : Dest) (dl : Nat) : Dest :=
  match x with
  | .copy c s => .copy { c with wait := true, deadline := dl } s
  | .pdu a b c e => .pdu a b c e

/-- The words that `m.data` fills, of a CAN XL frame of `dlen` data bytes, have been published (R97, R120): the copies that may start early are made
once. Their residence start is the frame-valid instant to come. -/
def Dev.xlPublish (d : Dev) (c : Nat) (m : Msg) (dlen : Nat) : Dev :=
  let p := 20 + c
  let got := if dlen ≤ m.data.length then dlen else m.data.length / 32 * 32
  match d.part p with
  | some x => d.setPart p (some { x with got := max x.got got })
  | none =>
    let ok := d.flag F.FWD_CTRL_FWD_EN && m.form == 4 && (d.fq (fqOf p)).isEmpty && decide (got < dlen)
      && (match d.xlThresh c with
        | some t => decide (t ≤ got)
        | none => false)
    if !ok then d
    else
      match d.route (b2n (pipeB p)) p 4 m.id with
      | (d1, none) => d1
      | (d1, some (_, e)) =>
        let ts := (d1.rtTargets e).filter d1.xlEarly
        if rtSecInEn e || ts.isEmpty || (rtIsGroup e && !grValid (d1.steEnt 3 (rtGroup e))) then d1
        else
          let k := d1.fieldContract p 4 m.id
          let (d2, ok) := match k with
            | some i => d1.police i p dlen
            | none => (d1, true)
          let part := { Part.init with got := got }
          if !ok then d2.setPart p (some part)
          else
            let whole := { m with data := m.data ++ List.replicate (dlen - got) 0 }
            let (dn, s) := d2.numbered ⟨whole, whole.data, p, d2.dtime, 0, k, none⟩
            let (d3, l) := ts.foldl (fun (a : Dev × List Dest) t =>
              let (d, x) := a.1.fieldDest s t
              (d, a.2 ++ x)) (dn, [])
            let (d4, f) := d3.newFrame p (b2n (pipeB p)) whole 0 0 k (d3.dtime + 2 ^ 40)
            let (d5, h) := d4.storeAnd f dlen (l.map (fun x => x.early (dl8 (d3.dtime + 2 ^ 33)))) false
            let dry := h.isNone && l.any d4.stays
            d5.setPart p (some { part with handle := h, looked := true, dry := dry })

/-- A frame of which words were published is not declared valid (R120). -/
def Dev.xlFail (d : Dev) (p : Nat) : Dev :=
  match d.part p with
  | none => d
  | some x =>
    let d1 := d.setPart p none
    match x.handle with
    | some h => d1.partFail h false
    | none => d1

/-- The stored frame of a published CAN XL frame takes its bytes and its residence start; copies not started take their
deadlines and may start: a heap entry where it stands, another at the end of its queue. -/
def Dev.xlValid (d : Dev) (h : Nat) (m : Msg) (start : Nat) : Dev :=
  match d.frame h with
  | none => d
  | some f =>
    let d1 := d.setFrame h (some { f with msg := m, start := start })
    (d1.copiesOf h).foldl (fun d c =>
      let fill (bs : List Byte) : List Byte := bs.take (bs.length - m.data.length) ++ m.data
      let data := if c.port < 20 then (match c.sealed with
        | some (pn, plain) => d.macsecSeal c.port pn (fill plain)
        | none => fill c.msg.data) else m.data
      let dl := match f.contract.bind d.contract with
        | some k => dl8 (start + k.bound)
        | none => d.beDeadline start (slotTc c.port c.tc)
      let c1 := { c with msg := { c.msg with data := data }, sealed := none }
      let c2 := { c1 with wait := false, deadline := dl }
      if c.started then d.setCopy c1
      else if 20 ≤ c.port || !c.wait then d.setCopy c2
      else ((d.unlistCopy c).enlist c2).1) d1

/-- A frame fails at the queue's read side (R101): an early part of it ends as a failed CRC would end it, and a conforming frame is
lost to an internal fault. -/
def Dev.fqFail (d : Dev) (part : Option Part) (breach : Bool) : Dev :=
  match part.bind (fun x => x.handle) with
  | some h => d.partFail h breach
  | none => d

/-- A published CAN XL frame has been declared valid (R120, R161): what waited for it is served. Without a stored frame, since its
early copies were all removed, it is served like another frame but for these; where it found no room, or has been dropped since, no
target takes it, and copies in transmission go on to their end. -/
def Dev.xlServe (d : Dev) (p : Nat) (r : Rec) (x : Part) : Dev :=
  let m := r.msg
  if !x.looked || x.dry then d
  else if x.dead then
    match x.handle with
    | some h => (d.xlValid h m r.start).joinCopies h []
    | none => d
  else
    let d1 := match x.handle with
      | some h => d.xlValid h m r.start
      | none => d
    match d1.route (b2n (pipeB p)) p 4 m.id with
    | (d2, none) => match x.handle with
      | some h => d2.joinCopies h []
      | none => d2
    | (d2, some (idx, e)) =>
      let k := d2.fieldContract p 4 m.id
      -- the number taken when the header was served
      let sq := (k.bind d2.contract).bind (fun c => if rqRedund c.req == 1 then some ((c.seq + 65535) % 65536) else none)
      d2.serveRoute ⟨m, m.data, p, r.start, r.state, k, sq⟩ idx e d2.xlEarly x.handle

/-- The pipeline reads the next record of a queue and processes its frame. With `bad`, a word fails parity at this read (R101). -/
def Dev.fqRead (d : Dev) (q : Nat) (bad : Bool) : Dev :=
  match d.fq q with
  | [] => d
  | r :: l =>
    let p := q + 12
    let part := r.part
    let d1 := (d.setFq q l).fqMove q 0 (if part.isSome then 0 else r.words)
    if !d1.ready (if pipeB p then 3 else 2) then d
    else if !d1.flag F.FWD_CTRL_FWD_EN then d1.fqFail part false
    else if r.bad || bad then
      let d2 := ((if (part.map (fun x => x.dead)).getD false then d1 else d1.cnt F.CNT_DROP_POISON_COUNT p).set (F.FWD_FQ_STATUS_POISON q) 1).fltSet blkFwd 1
      (d2.poisonLog p).fqFail part true
    else
      (if p < 20 then d1.ethDispose p r.msg.data r.start (r.start * 65536) d1.now
      else match part with
        | none => d1.fieldFrame p r.msg r.start r.state
        | some x => d1.xlServe p r x).enteredAs p d1.fwd.seq r.order

/-! ### Intake frames (R166, R167, R177, R178, R183) -/

/-- A number that an element's header gives, with what is served before it: elements are served in order, and an element
that runs past the end, or carries a reserved code, ends the intake. -/
def Dev.intakePdus (d : Dev) (x : Intake) : Nat → List Byte → Dev
  | 0, _ => d
  | n + 1, bs =>
    let len := be16 bs 4
    if bs.length < 6 || bs.length < 6 + len then d.inc F.STE_DECAP_ERROR_COUNT
    else
      let m : Msg := { Msg.init with form := 8, id := beNat (bs.take 4), data := (bs.drop 6).take len }
      (d.element x.filter x.port x.start m).intakePdus x n (bs.drop (6 + len))

/-- One Snitos XL frame. -/
def Dev.intakeXl (d : Dev) (x : Intake) (bs : List Byte) : Dev :=
  let len := be16 bs 10
  if bs.length < 24 || len == 0 || 2048 < len || bs.length < 24 + len then d.inc F.STE_DECAP_ERROR_COUNT
  else
    d.element x.filter x.port x.start
      ⟨12, be16 bs 8 % 2048, (bs.drop 24).take len, 8 * (byteAt bs 1 % 2), byteAt bs 2, byteAt bs 3,
        beNat (slice bs 4 4), beNat (slice bs 16 8)⟩

/-- One ACF message of known length, or none where it is an intake error (log 19). -/
def acfElement (bs : List Byte) : Option (Option Msg) :=
  let type := byteAt bs 0 / 2
  let fl := byteAt bs 2
  let pad := fl / 64
  let hdr := if type == 1 then 16 else if type == 2 then 8 else 12
  if type == 1 || type == 2 then
    let data := (bs.drop hdr).take (bs.length - hdr - pad)
    if bs.length < hdr + pad || bit fl 4 then none
    else
      let eff := fl / 8 % 2
      let fdf := fl / 2 % 2
      if data.length > (if fdf == 1 then 64 else 8) then none
      else some (some ⟨if type == 1 then 9 else 10, beNat (slice bs (hdr - 4) 4) % 2 ^ 29, data, fl / 4 % 2 + 2 * (fl % 2), 0, 0,
        eff + 2 * fdf, if type == 1 then beNat (slice bs 4 8) else 0⟩)
  else if type == 3 then
    let data := (bs.drop 12).take (bs.length - 12 - pad)
    if bs.length < 12 + pad || data.isEmpty || 8 < data.length then none
    else some (some ⟨11, byteAt bs 3 % 64, data, 0, 0, 0, 0, beNat (slice bs 4 8)⟩)
  else some none

/-- The ACF messages of an NTSCF frame. -/
def Dev.intakeAcf (d : Dev) (x : Intake) : Nat → List Byte → Dev
  | 0, _ => d
  | n + 1, bs =>
    if bs.isEmpty then d
    else
      let len := 4 * (be16 bs 0 % 512)
      if bs.length < 4 || len < 4 || bs.length < len then d.inc F.STE_DECAP_ERROR_COUNT
      else
        match acfElement (bs.take len) with
        | none => d.inc F.STE_DECAP_ERROR_COUNT
        | some none => (d.inc F.STE_DECAP_MISS_COUNT).intakeAcf x n (bs.drop len)
        | some (some m) => (d.element x.filter x.port x.start m).intakeAcf x n (bs.drop len)

/-- The STE takes in the first intake frame that waits. -/
def Dev.intakeNext (d : Dev) : Dev :=
  match d.ste.intakes with
  | [] => d
  | x :: l =>
    let d0 := { d with ste := { d.ste with intakes := l } }
    if !d0.steRuns then d0
    else
      let body := x.frame.drop ((parseHdr x.frame).off + 2)
      (if inKind (d0.steEnt 6 x.filter) == 1 then
        let len := byteAt body 1 % 8 * 256 + byteAt body 2
        if byteAt body 0 != 0x82 || byteAt body 1 / 16 != 8 || body.length < 12 + len then d0.inc F.STE_DECAP_ERROR_COUNT
        else d0.intakeAcf x (len + 1) ((body.drop 12).take len)
      else
        match byteAt body 0 with
        | 1 => if body.length < 16 then d0.inc F.STE_DECAP_ERROR_COUNT else d0.intakePdus x (be16 body 6) (body.drop 16)
        | 2 => d0.intakeXl x body
        | _ => d0.inc F.STE_DECAP_ERROR_COUNT).enteredAs x.port d0.fwd.seq x.order

/-! ### Members that fall silent (R125) -/

/-- A contract with REDUND = 2 whose one member has been silent for LATENT_MS while the other delivered. -/
def Dev.cbLatent (d : Dev) (i : Nat) : Dev :=
  let ms := d.get F.FWD_CB_LATENT_LATENT_MS
  match d.contract i with
  | none => d
  | some k =>
    if ms == 0 || rqRedund k.req != 2 then d
    else
      let report (k : Contract) (since port : Nat) : Dev :=
        let d1 := (d.reach (since + ms * msCyc)).setContract i (some k)
        ((d1.fltSet blkFwd 4).event61 0x04 blkFwd 4 (accNone * 8) 0 (leBytes 2 i ++ leBytes 1 port)).countEvent blkFwd 4
      if !k.silent0 && decide (k.last0 < k.last1) then report { k with silent0 := true } k.last0 (rqIngress k.req)
      else if !k.silent1 && decide (k.last1 < k.last0) then report { k with silent1 := true } k.last1 (rqTwin k.req)
      else d

end Sys2Proof.Machine
end

