-- ==== Sys2Proof/Machine/CanOps.lean ====
section
/-!
DEFINITION. The CAN controllers (chapter 6): modes and bit timing, rate detection, reception, arbitration and
transmission, error counters and bus-off, identifier collisions, and Touchstone.
-/
namespace Sys2Proof.Machine

/-- What a controller holds beside its registers. -/
def Dev.ctl (d : Dev) (c : Nat) : Can := SMap.get d.can.ctl Can.init c
def Dev.setCtl (d : Dev) (c : Nat) (x : Can) : Dev := { d with can := { d.can with ctl := SMap.set d.can.ctl Can.init c x } }

/-- A received frame as a message; `own` marks one delivered under SELF_RX. -/
def canMsg (f : CanFrame) (sof : Nat) (own : Bool) : Msg :=
  ⟨f.form, f.id, f.data, b2n f.brs + 2 * b2n f.esi + 4 * b2n f.remote + 8 * b2n f.sec + 16 * b2n own, f.sdt, f.vcid, f.af, sof⟩

/-! ### Fault confinement (R205 to R207; ISO 11898-1) -/

/-- The controller is off the bus: nothing is attempted, received or counted. -/
def Dev.canQuiet (d : Dev) (c : Nat) : Dev :=
  (((d.setCtl c { d.ctl c with arb := none }).set (F.CAN_STATUS_TX_ACTIVE c) 0).set (F.CAN_STATUS_RX_ACTIVE c) 0).set
    (F.CAN_STATUS_IDLE c) 0

/-- The entry of the attempt in progress. -/
def Dev.arbCopy (d : Dev) (c : Nat) : Option (Arb × Copy) :=
  (d.ctl c).arb.bind (fun a => (d.fwd.copies.find? (fun x => x.seq == a.copy)).map (fun x => (a, x)))

/-- The entries of a controller that cannot contend are removed (R203); with `all`, the one in transmission too, which the
controller has given up. An attempt whose entry is gone is over. -/
def Dev.canClear (d : Dev) (c : Nat) (all : Bool) : Dev :=
  let d1 := (d.heap (20 + c)).foldl (fun d x =>
    if x.started && !all then d else (d.inc (F.CAN_NC_DROP_COUNT c)).dropCopy x .lost) d
  if (d1.arbCopy c).isSome then d1 else d1.setCtl c { d1.ctl c with arb := none }

/-- A controller stops at once: INIT, isolation, or a transceiver that leaves the bus. A frame it was receiving ends there (R120). -/
def Dev.canStop (d : Dev) (c : Nat) : Dev := ((d.xlFail (20 + c)).canQuiet c).canClear c true

/-- Bus-off (R206): the excuse of Table PROM-1 holds from here. -/
def Dev.canBusOff (d : Dev) (c : Nat) : Dev :=
  let d1 := (((d.set (F.CAN_STATUS_STATE c) 2).inc (F.CAN_BUSOFF_COUNT c)).fault (blkCan c) 0).steEvent 0x02 (20 + c) 0
  let d2 := if d1.flag (F.CAN_CTRL_AUTO_RECOV c) then d1.set (F.CAN_STATUS_RECOVERING c) 1 else d1
  ((d2.excuse (20 + c) (fun _ => true)).canQuiet c).canClear c true

/-- The fault-confinement state follows the counters. -/
def Dev.canState (d : Dev) (c : Nat) : Dev :=
  let tec := d.get (F.CAN_ERRCNT_TEC c)
  let rec_ := d.get (F.CAN_ERRCNT_REC c)
  let d0 := d.set (F.CAN_ERRCNT_RP c) (b2n (decide (128 ≤ rec_)))
  let old := d.get (F.CAN_STATUS_STATE c)
  let new := if 256 ≤ tec then 2 else if 128 ≤ tec || 128 ≤ rec_ then 1 else 0
  if old == 2 || old == 3 || old == new then d0
  else if new == 2 then d0.canBusOff c
  else if new == 1 then ((d0.set (F.CAN_STATUS_STATE c) 1).fault (blkCan c) 1).steEvent 0x01 (20 + c) 0
  else ((d0.set (F.CAN_STATUS_STATE c) 0).countEvent (blkCan c) 1).steEvent 0x03 (20 + c) 0

/-- The counters take values. -/
def Dev.canCount (d : Dev) (c tec rec_ : Nat) : Dev :=
  ((d.set (F.CAN_ERRCNT_TEC c) tec).set (F.CAN_ERRCNT_REC c) (min 255 rec_)).canState c

/-- A frame received without error lowers the receive counter; above 127 it takes a value from 119 to 127, which the
standard leaves open (log 3). -/
def Dev.canRxOk (d : Dev) (c : Nat) : Dev :=
  let r := d.get (F.CAN_ERRCNT_REC c)
  if d.get (F.CAN_CTRL_MODE c) != 0 then d
  else if 127 < r then d.tookFree.canCount c (d.get (F.CAN_ERRCNT_TEC c)) (119 + d.freeNat 8 % 9)
  else d.canCount c (d.get (F.CAN_ERRCNT_TEC c)) (r - 1)

/-! ### Modes and bit timing (R191 to R198) -/

/-- Time quanta of a nominal bit, and minimum time quanta of a data bit (R193, R197). -/
def Dev.dataMtq (d : Dev) (c : Nat) : Nat :=
  (d.get (F.CAN_DBT_BRP_M1 c) + 1) * (d.get (F.CAN_DBT_TSEG1_M1 c) + d.get (F.CAN_DBT_TSEG2_M1 c) + 3)
def Dev.nomMtq (d : Dev) (c : Nat) : Nat :=
  (d.get (F.CAN_NBT_BRP_M1 c) + 1) * (d.get (F.CAN_NBT_TSEG1_M1 c) + d.get (F.CAN_NBT_TSEG2_M1 c) + 3)

/-- A nominal timing word is accepted (R193): at 80 MHz, 50 kbit/s is 1,600 minimum time quanta a bit, 1 Mbit/s is 80. -/
def nbtOk (v : Nat) : Bool :=
  let t1 := bf v 8 8
  let t2 := bf v 16 7
  let tq := t1 + t2 + 3
  let mtq := (bf v 0 8 + 1) * tq
  decide (8 ≤ tq) && decide (bf v 23 7 ≤ t2) && decide (80 ≤ mtq) && decide (mtq ≤ 1600)

/-- A data timing word is accepted on a controller: the least minimum time quanta a bit are 40 in NORMAL, 10 in SIC, and 4 for
CN12 to CN19. -/
def Dev.dbtOk (d : Dev) (c v : Nat) : Bool :=
  let t1 := bf v 8 6
  let t2 := bf v 16 5
  let tq := t1 + t2 + 3
  let mtq := (bf v 0 5 + 1) * tq
  let least := if 12 ≤ c then 4 else if d.get (F.PWR_XCVR_CAN_MODE_ACT c) == 2 then 10 else 40
  decide (4 ≤ tq) && decide (bf v 24 5 ≤ t2) && decide (least ≤ mtq)

/-- The checks of R197 when INIT is written to 0. -/
def Dev.initOk (d : Dev) (c : Nat) : Bool :=
  let m := d.dataMtq c
  let s := d.get (F.CAN_PWM_PWMS c)
  let l := d.get (F.CAN_PWM_PWML c)
  if d.flag (F.CAN_CTRL_FAST c) then s + l == m && decide (s < l) else decide (c < 12) || decide (8 ≤ m)

/-- A search runs when INIT = 0, MODE = 1 and RATE_DET = 1 (R195). -/
def Dev.rateWanted (d : Dev) (c : Nat) : Bool :=
  !d.flag (F.CAN_CTRL_INIT c) && d.get (F.CAN_CTRL_MODE c) == 1 && d.flag (F.CAN_CTRL_RATE_DET c)

/-- The valid candidates. -/
def Dev.rateCands (d : Dev) (c : Nat) : List Nat := (List.range 8).filter (fun k => d.flag (F.CAN_RD_CAND_VALID c k))

/-- A candidate is taken; its confirmations and its dwell start anew. -/
def Dev.rateTake (d : Dev) (c k : Nat) : Dev :=
  (d.set (F.CAN_RD_STATUS_CAND c) k).setCtl c { d.ctl c with confirms := 0, dwell := d.now }

/-- The search starts. -/
def Dev.rateStart (d : Dev) (c : Nat) : Dev :=
  match d.rateCands c with
  | [] => d.set (F.CAN_RD_STATUS_STATE c) 3
  | k :: _ => (d.set (F.CAN_RD_STATUS_STATE c) 1).rateTake c k

/-- The search moves on. -/
def Dev.rateNext (d : Dev) (c : Nat) : Dev :=
  let l := d.rateCands c
  match l.find? (fun k => decide (d.get (F.CAN_RD_STATUS_CAND c) < k)), l with
  | some k, _ => d.rateTake c k
  | none, k :: _ => (d.inc (F.CAN_RD_STATUS_CYCLES c)).rateTake c k
  | none, [] => d.set (F.CAN_RD_STATUS_STATE c) 3

/-- The search runs now. -/
def Dev.rateSearching (d : Dev) (c : Nat) : Bool := d.get (F.CAN_RD_STATUS_STATE c) == 1

/-- A frame at the candidate confirms it (R195). -/
def Dev.rateConfirm (d : Dev) (c : Nat) : Dev :=
  let x := d.ctl c
  let k := d.get (F.CAN_RD_STATUS_CAND c)
  if atLeastOne (d.get (F.CAN_RD_CFG_CONFIRM c)) ≤ x.confirms + 1 then
    ((d.setReg (R.CAN_NBT c) (d.get (F.CAN_RD_CAND_TIMING c k))).set (F.CAN_RD_STATUS_STATE c) 2).set (F.CAN_CTRL_RATE_DET c) 0
  else d.setCtl c { x with confirms := x.confirms + 1, dwell := d.now }

/-- DWELL_MS passes without a confirmation. -/
def Dev.rateDwell (d : Dev) (c : Nat) : Dev :=
  if d.rateSearching c then
    (d.reach ((d.ctl c).dwell + atLeastOne (d.get (F.CAN_RD_CFG_DWELL_MS c)) * msCyc)).rateNext c
  else d

/-- INIT is written to 1 (R206): a bus-off ends with both counters at 0. -/
def Dev.canEnterInit (d : Dev) (c : Nat) : Dev :=
  let d0 := if d.get (F.CAN_STATUS_STATE c) == 2 then
      ((d.set (F.CAN_ERRCNT_TEC c) 0).set (F.CAN_ERRCNT_REC c) 0).set (F.CAN_ERRCNT_RP c) 0
    else d
  let d1 := (((d0.set (F.CAN_CTRL_INIT c) 1).set (F.CAN_STATUS_STATE c) 3).set (F.CAN_STATUS_RECOVERING c) 0).set
    (F.CAN_CTRL_RECOVER c) 0
  (d1.setCtl c { d1.ctl c with joining := false }).canStop c

/-- INIT is written to 0: bus integration starts, unless a check of R197 fails. -/
def Dev.canLeaveInit (d : Dev) (c : Nat) : Dev :=
  if !d.initOk c then d.set (F.CAN_STATUS_CFG_IGNORED c) 1
  else
    let passive := decide (128 ≤ d.get (F.CAN_ERRCNT_TEC c)) || decide (128 ≤ d.get (F.CAN_ERRCNT_REC c))
    let d1 := (d.set (F.CAN_CTRL_INIT c) 0).set (F.CAN_STATUS_STATE c) (b2n passive)
    d1.setCtl c { d1.ctl c with joining := true }

/-- RECOVER is written (R206). -/
def Dev.canRecover (d : Dev) (c : Nat) : Dev :=
  if d.get (F.CAN_STATUS_STATE c) == 2 then (d.set (F.CAN_CTRL_RECOVER c) 1).set (F.CAN_STATUS_RECOVERING c) 1 else d

/-- A word is written to `CTRL` (R191, R192, R195, R197, R206). -/
def Dev.canCtrl (d : Dev) (c v : Nat) : Dev :=
  let old := d.reg (R.CAN_CTRL c)
  let init := d.flag (F.CAN_CTRL_INIT c)
  let was := d.rateWanted c
  let cfg (x : Nat) : Nat := bf x 3 3 + 8 * bf x 9 2
  let fast := bit v 10 && decide (12 ≤ c)
  let fastBad := fast && !(bit v 4 && bit v 9)
  let d1 :=
    if init then
      -- FAST never stands beside XL_EN = 0 or XL_ES_OFF = 0 (R197)
      if fastBad then d.set (F.CAN_STATUS_CFG_IGNORED c) 1
      else
        ((((d.set (F.CAN_CTRL_FD_EN c) (bf v 3 1)).set (F.CAN_CTRL_XL_EN c) (bf v 4 1)).set (F.CAN_CTRL_PEX_EN c)
          (bf v 5 1)).set (F.CAN_CTRL_XL_ES_OFF c) (bf v 9 1)).set (F.CAN_CTRL_FAST c) (b2n fast)
    else if cfg v != cfg old then d.set (F.CAN_STATUS_CFG_IGNORED c) 1
    else d
  let d2 := if bf v 1 2 == 3 then d1 else d1.set (F.CAN_CTRL_MODE c) (bf v 1 2)
  let d3 := (((d2.set (F.CAN_CTRL_SELF_RX c) (bf v 6 1)).set (F.CAN_CTRL_AUTO_RECOV c) (bf v 7 1)).set (F.CAN_CTRL_RATE_DET c)
    (bf v 11 1)).set (F.CAN_CTRL_RETX_LIMIT c) (bf v 12 4)
  let d4 := if bit v 0 && !init then d3.canEnterInit c else if !bit v 0 && init then d3.canLeaveInit c else d3
  let d5 := if bit v 8 then d4.canRecover c else d4
  let d6 := if d5.canContends c then d5 else d5.canClear c false
  let now := d6.rateWanted c
  if now && !was then d6.rateStart c
  else if was && !now && d6.rateSearching c then d6.set (F.CAN_RD_STATUS_STATE c) 0
  else d6

/-- A word is written to `NBT`, `DBT`, or another register that takes a write only in INIT (R192, R193): the words that
take effect. -/
def Dev.canCfg (d : Dev) (c a v : Nat) : Dev :=
  let v1 := if a == R.CAN_TDC c then setBf v 16 7 (bf (d.reg a) 16 7) else v
  if !d.flag (F.CAN_CTRL_INIT c) || (a == R.CAN_NBT c && !nbtOk v) || (a == R.CAN_DBT c && !d.dbtOk c v) then
    d.set (F.CAN_STATUS_CFG_IGNORED c) 1
  else d.setReg a v1

/-- 11 recessive bits have been seen. -/
def Dev.canIntegrated (d : Dev) (c : Nat) : Dev :=
  if (d.ctl c).joining && !d.canInit c then (d.setCtl c { d.ctl c with joining := false }).set (F.CAN_STATUS_IDLE c) 1 else d

/-- Recovery ends (R206, R207). -/
def Dev.canRecovered (d : Dev) (c : Nat) : Dev :=
  if d.get (F.CAN_STATUS_STATE c) == 2 && d.flag (F.CAN_STATUS_RECOVERING c) && !d.canInit c then
    let d1 := (((d.set (F.CAN_ERRCNT_TEC c) 0).set (F.CAN_ERRCNT_REC c) 0).set (F.CAN_ERRCNT_RP c) 0).set (F.CAN_STATUS_STATE c) 0
    let d2 := ((d1.set (F.CAN_STATUS_RECOVERING c) 0).set (F.CAN_CTRL_RECOVER c) 0).set (F.CAN_STATUS_IDLE c) 1
    (d2.countEvent (blkCan c) 0).steEvent 0x03 (20 + c) 0
  else d

/-! ### Reception (R199, R200) -/

/-- The transceiver of a CAN port receives; CN12 to CN19 have theirs outside. -/
def Dev.canHears (d : Dev) (c : Nat) : Bool :=
  decide (12 ≤ c) || [1, 2, 3].contains (d.get (F.PWR_XCVR_CAN_MODE_ACT c))

/-- The controller takes part in bus traffic as a receiver. -/
def Dev.canReceives (d : Dev) (c : Nat) : Bool :=
  !d.canInit c && !(d.ctl c).joining && d.portUp (20 + c) && d.canHears c && d.get (F.CAN_STATUS_STATE c) != 2

/-- The bus is idle again after a frame. -/
def Dev.canIdle (d : Dev) (c : Nat) : Dev :=
  ((d.set (F.CAN_STATUS_TX_ACTIVE c) 0).set (F.CAN_STATUS_RX_ACTIVE c) 0).set (F.CAN_STATUS_IDLE c) 1

/-- A controller in Normal mode signals an error by its error flag (Table CAN-2), passive while it is error passive; with
XL_ES_OFF = 1 error signalling is off (R190; log 77). -/
def Dev.canFlag (d : Dev) (c : Nat) : Dev :=
  if d.get (F.CAN_CTRL_MODE c) == 0 && !d.flag (F.CAN_CTRL_XL_ES_OFF c) then
    d.emit (.canErrorFlag (20 + c) (d.get (F.CAN_STATUS_STATE c) == 0))
  else d

/-- An error as receiver, counted with ISO 11898-1: by 1, by 8 more where `tail` says that a dominant bit followed the error
flag or was met in it, and by 8 for each of the `more` further sequences of 8 dominant bits. A bus error excuses what waits on the
bus (R34). -/
def Dev.canRxError (d : Dev) (c code : Nat) (dataPhase tail : Bool) (more : Nat) : Dev :=
  let d1 := (((d.set (F.CAN_LEC_CODE c) code).set (F.CAN_LEC_DATA_PHASE c) (b2n dataPhase)).xlFail (20 + c)).excuse (20 + c)
    (fun _ => true)
  let d2 := ((d1.canFlag c).canIdle c).canPert c 1
  if d2.get (F.CAN_CTRL_MODE c) != 0 then d2
  else d2.canCount c (d2.get (F.CAN_ERRCNT_TEC c)) (d2.get (F.CAN_ERRCNT_REC c) + 1 + 8 * b2n tail + 8 * more)

/-- A protocol exception (R200), or the form error it is with PEX_EN = 0. During a search it is always an exception. -/
def Dev.canException (d : Dev) (c : Nat) : Dev :=
  if !d.canReceives c then d
  else if d.flag (F.CAN_CTRL_PEX_EN c) || d.rateSearching c then
    let d1 := ((d.inc (F.CAN_PEX_COUNT c)).xlFail (20 + c)).canQuiet c
    d1.setCtl c { d1.ctl c with joining := true }
  else d.canRxError c 2 false false 0

/-- Node and control byte of a received NMM (R370). -/
def Dev.nmmOf (d : Dev) (c : Nat) (m : Msg) : Option (Nat × Nat) :=
  let p := 20 + c
  let mask := d.get (F.NM_NMM_MASK_MASK p)
  if d.flag (F.NM_NMM_RX_NMM_EN p) && decide (m.form < 4) && m.form % 2 == d.get (F.NM_NMM_RX_EXT p)
      && (m.id &&& mask) == (d.get (F.NM_NMM_RX_BASE p) &&& mask) && decide (2 ≤ m.data.length) && !bit m.flags 2 then
    some (byteAt m.data 0, byteAt m.data 1)
  else none

/-- Another node's frame is valid on the bus: acknowledged, counted and published. -/
def Dev.canValid (d : Dev) (c : Nat) (f : CanFrame) (age : Nat) (bad : Bool) : Dev :=
  let p := 20 + c
  if !d.canReceives c then d
  -- a frame wakes a sleeping segment of CN12 to CN19, and is not received (Table NM-5)
  else if !d.segHears p then d.wakeSeen p 7
  else if d.rateSearching c then (if 2 ≤ f.form then d.canException c else (d.rateConfirm c).canIdle c)
  else if d.canOff c f.form then d.canException c
  else
    let m := canMsg f ((d.dtime + 2 ^ 64 - age % 2 ^ 64) % 2 ^ 64) false
    -- a receiver acknowledges, but not in bus monitoring (Table CAN-2)
    let d0 := if d.get (F.CAN_CTRL_MODE c) == 1 then d else d.emit (.canAck p)
    let d1 := (((d0.canIdle c).canRxOk c).canPert c 1).countRx p m.data.length
    let d2 := (d1.segReceived p (d1.nmmOf c m) (some m.id)).ledgerCheck p m.form m.id m.data.length f.brs 0
    ((d2.setPart p none).fqPut p m d2.dtime (d2.get (F.CAN_STATUS_STATE c)) bad (d2.part p)).1

/-- Words of a CAN XL frame are published (R120). -/
def Dev.canPublish (d : Dev) (c : Nat) (f : CanFrame) (dlen age : Nat) : Dev :=
  if !d.canReceives c || d.canOff c f.form || d.rateSearching c || !d.segHears (20 + c) then d
  else
    ((d.set (F.CAN_STATUS_RX_ACTIVE c) 1).set (F.CAN_STATUS_IDLE c) 0).xlPublish c
      (canMsg f ((d.dtime + 2 ^ 64 - age % 2 ^ 64) % 2 ^ 64) false) dlen

/-- The test of R120 on the waiting Snitos XL copy of the frame being published. -/
def Dev.xlCopyStart (d : Dev) (c q : Nat) : Dev :=
  match (d.part (20 + c)).bind (fun x => x.handle.map (fun h => (x.got, h))) with
  | none => d
  | some (got, h) =>
    let s := ((d.frame h).map (fun f => f.msg.data.length)).getD 0
    match (d.copiesOf h).find? (fun x => x.port == q && x.wait) with
    | none => d
    | some x =>
      -- half nanoseconds: a minimum time quantum is 25 of them
      let td := d.dataMtq c * 25
      let tn := d.nomMtq c * 25
      let left := ((88 * (s - got) + 9) / 10 + 48) * td + 14 * tn + 4000
      let ok := (match d.xlThresh c with
        | some t => decide (t ≤ got)
        | none => false) && decide (left * d.portRate q ≤ 16000 * d.wireLen q x)
      if ok then d.setCopy { x with wait := false } else d

/-! ### Arbitration and transmission (R116, R202) -/

/-- Key of an identifier of a port among the times it was last sent. -/
def sentKey (p form id : Nat) : Nat := (p * 16 + form % 16) * 2 ^ 32 + id % 2 ^ 32

/-- An entry is eligible (R116), its launch time included (R276). -/
def Dev.canEligible (d : Dev) (c : Nat) (x : Copy) : Bool :=
  let p := 20 + c
  let held := match (SMap.get d.anvil.ledgers none p).bind (fun l =>
      l.find? (fun e => lgDeviceSent e && lgId e == x.msg.id && lgForm e == x.msg.form)) with
    | some e => match SMap.get d.fwd.sentAt none (sentKey p x.msg.form x.msg.id) with
      | some t => decide (d.now < t + lgPeriod e * usCyc)
      | none => false
    | none => false
  let launched := match (d.frame x.handle).bind (fun f => f.launch) with
    | some l => reached d.dtime l
    | none => true
  !x.wait && !held && launched && !d.idSuspended c x.msg.form x.msg.id

/-- The eligible entry with the lowest key, the earliest among equals. -/
def Dev.canHead (d : Dev) (c : Nat) : Option Copy :=
  ((d.heap (20 + c)).filter (fun x => !x.started && d.canEligible c x)).foldl (fun b x =>
    match b with
    | none => some x
    | some y => if x.key < y.key then some x else b) none

/-- The entry that makes the attempt: late ones are dropped, and so is one whose read fails parity. -/
def Dev.canOffer (d : Dev) (c : Nat) : Nat → Bool → Dev × Option Copy
  | 0, _ => (d, none)
  | n + 1, bad =>
    match d.canHead c with
    | none => (d, none)
    | some x =>
      if d.lateBy x 0 then (d.dropCopy x .late).canOffer c n bad
      else if bad then (d.poisonFrame x.handle (20 + c)).canOffer c n false
      else (d, some x)

/-- The flags of a frame as it is sent: ESI is recessive while the controller is error passive (R190). -/
def Dev.canSentFlags (d : Dev) (c : Nat) (m : Msg) : Nat :=
  if (m.form == 2 || m.form == 3) && d.get (F.CAN_STATUS_STATE c) == 1 then setBit m.flags 1 true else m.flags

/-- The PWM symbol of a data-phase bit (R197): its low phase and its high phase in minimum time quanta. -/
def pwmSymbol (short long : Nat) (one : Bool) : Nat × Nat := if one then (short, long) else (long, short)

/-- How the data phase of a frame sent is coded: that of CAN XL frames in FAST mode by PWM, between the switching points (R197). -/
def Dev.canPwm (d : Dev) (c form : Nat) : Option CanPwm :=
  let s := d.get (F.CAN_PWM_PWMS c)
  let l := d.get (F.CAN_PWM_PWML c)
  if form == 4 && d.flag (F.CAN_CTRL_FAST c) then
    some ⟨pwmSymbol s l true, pwmSymbol s l false, .toData, .toArbitration⟩
  else none

/-- An attempt (R202). -/
def Dev.canAttempt (d : Dev) (c : Nat) (bad : Bool) : Dev :=
  if !d.canContends c || (d.ctl c).joining || (d.arbCopy c).isSome || !d.portUp (20 + c) || !d.segSends (20 + c) then d
  else
    match d.canOffer c (d.heap (20 + c)).length bad with
    | (d1, none) => d1
    | (d1, some x) =>
      (((d1.setCtl c { d1.ctl c with arb := some ⟨x.seq, d1.dtime, d1.get F.TIME_STATUS_EPOCH⟩ }).set (F.CAN_STATUS_IDLE c) 0).emit
        (.canFrame (20 + c) { x.msg with flags := d1.canSentFlags c x.msg } (d1.canPwm c x.msg.form))).canPert c 0

/-- The end of the arbitration field (R116). -/
def Dev.arbEnd (d : Dev) (c : Nat) (won : Bool) : Dev :=
  match d.arbCopy c with
  | none => d.setCtl c { d.ctl c with arb := none }
  | some (_, x) =>
    if won then (d.setCopy { x with started := true, since := d.now }).set (F.CAN_STATUS_TX_ACTIVE c) 1
    else (d.setCtl c { d.ctl c with arb := none }).set (F.CAN_STATUS_RX_ACTIVE c) 1

/-! ### Touchstone (R212 to R214) -/

/-- A message is authenticated where `SEC_EN` asks for it, padded to an FD length. -/
def Dev.tsProtect (d : Dev) (body : List Byte) : Dev × Authed :=
  if d.flag F.TS_TS_CTRL_SEC_EN && d.flag F.TS_TS_CTRL_FD then
    let c := d.get F.TS_TS_CTRL_SEC_OUT
    let n := body.length + min 8 (chFvLen (d.chan c)) + chMacLen (d.chan c)
    d.authGenerate c (body ++ List.replicate (fdLen n - n) (BitVec.ofNat 8 (d.get F.STE_CTRL_PAD)))
  else (d, .ok body)

/-- FLAGS of both messages: SYNCED, HOLDOVER. -/
def Dev.tsFlags (d : Dev) : Nat :=
  b2n (d.get F.TIME_STATUS_STATE == 2) + 2 * b2n (d.get F.TIME_STATUS_STATE == 3)

/-- A Touchstone message as a CAN frame. -/
def Dev.tsFrame (d : Dev) (ext id : Nat) (body : List Byte) : Msg :=
  { Msg.init with form := ext + 2 * b2n (d.flag F.TS_TS_CTRL_FD), id := id % (if ext == 1 then 2 ^ 29 else 2 ^ 11), data := body }

/-- A follow-up that is not sent (R214). -/
def Dev.tsFupDrop (d : Dev) : Dev := (d.inc F.TS_TS_FUP_DROP_COUNT).fltSet blkTs 1

/-- The follow-up of a sync, with the sync's SEQ, DOMAIN and FLAGS, whose SOF was at DTIME `sof`. Authentication that fails drops
it. -/
def Dev.tsFollow (d : Dev) (c : Nat) (sync : List Byte) (sof : Nat) : Dev :=
  let t := ((sof : Int) + toSigned 16 (d.get (F.TIME_TS_CORR_EGRESS (20 + c)))).toNat
  let ns := beBytes 4 (t % 1000000000)
  let sec := t / 1000000000
  let body := if d.flag F.TS_TS_CTRL_FD then
      bytes [0x19, byteAt sync 1, byteAt sync 2, byteAt sync 3] ++ beBytes 6 sec ++ ns ++ bytes [0, 0]
    else bytes [0x18, byteAt sync 1] ++ beBytes 2 (sec % 65536) ++ ns
  let dl := dl8 (d.dtime + min 5000 (max 100 (d.get F.TS_TS_FUP_DL_FUP_DEADLINE_US)) * 1000)
  match d.tsProtect body with
  | (d1, .fail) | (d1, .full) => d1.tsFupDrop
  | (d1, .ok bs) =>
    d1.originate (20 + c) 0 (d1.tsFrame (d1.get F.TS_TS_FUP_ID_EXT) (d1.get F.TS_TS_FUP_ID_ID) bs) dl .tsFup

/-- The period in ms. -/
def Dev.tsPeriod (d : Dev) : Nat := min 10000 (max 10 (d.get F.TS_TS_PERIOD_PERIOD_MS))

/-- Touchstone runs. -/
def Dev.tsRuns (d : Dev) : Bool := d.flag F.TS_TS_CTRL_EN && d.ready 7 && !d.isolated blkTs

/-- One port's part of a release: the open exchange ends, with the follow-up of a sync whose arbitration has begun, which R64 does not
withdraw, and the new sync enters the heap. -/
def Dev.tsPort (d : Dev) (c t : Nat) : Dev :=
  let begun (x : Copy) : Bool := x.started || (x.kind == .tsSync && (d.ctl c).arb.any (fun a => a.copy == x.seq))
  let d1 := (d.copiesOn (20 + c)).foldl (fun d x =>
    if begun x then (if x.kind == .tsSync then (d.setCopy { x with kind := .tsOld }).tsFupDrop else d)
    else match x.kind with
      | .tsFup => d.dropCopy x .lost
      | .tsSync | .tsOld => d.dropCopy x .late
      | _ => d) d
  let seq := (d1.get (F.TS_TS_SEQ_SEQ c) + 1) % 256
  let d2 := d1.set (F.TS_TS_SEQ_SEQ c) seq
  match d2.tsProtect (bytes [0x10, seq, d2.get F.TS_TS_DOMAIN_DOMAIN, d2.tsFlags]) with
  | (d3, .fail) | (d3, .full) => (d3.inc F.TS_TS_SYNC_DROP_COUNT).fltSet blkTs 0
  | (d3, .ok bs) =>
    d3.originate (20 + c) 0 (d3.tsFrame (d3.get F.TS_TS_SYNC_ID_EXT) (d3.get F.TS_TS_SYNC_ID_ID) bs)
      (dl8 (t + d3.tsPeriod * 1000000)) .tsSync

/-- The next cyclic instant releases a sync on every enabled port (R213). -/
def Dev.tsRelease (d : Dev) : Dev :=
  if !d.tsRuns then d
  else
    let per := d.tsPeriod * 1000000
    let ph := d.get F.TS_TS_PERIOD_PHASE_MS * 1000000 % per
    let n := d.dtime
    let t0 := if n ≤ ph then ph else ph + (n - ph + per - 1) / per * per
    let t := if d.can.tsLast == some t0 || d.time.stepAt == some t0 then t0 + per else t0
    let d1 := d.reachDtime t
    (bitsOf 20 (d1.get F.TS_TS_PORTS_PORTS)).foldl (fun d c => d.tsPort c t)
      { d1 with can := { d1.can with tsLast := some t } }

/-! ### The end of an attempt -/

/-- The entry of an attempt has been sent: it is measured at its SOF and released, and the attempt ends (R113, R202). DESIGN CHOICE
(log 68): the identifier was last sent, and the DEVICE_SENT interval of R57 and R116 counts, when the transmission completes. -/
def Dev.canRelease (d : Dev) (c : Nat) (a : Arb) (x : Copy) : Dev :=
  let d1 := match d.frame x.handle with
    | some f => d.measure x f a.sof
    | none => d
  let d2 := (d1.setCtl c { d1.ctl c with arb := none }).canIdle c
  let d3 := { d2 with fwd := { d2.fwd with
    sentAt := SMap.set d2.fwd.sentAt none (sentKey (20 + c) x.msg.form x.msg.id) (some d2.now) } }
  d3.sentCopy x x.msg.data.length

/-- The first edge that the filter passes (R194): one within TDCF minimum time quanta of the edge before it is ignored, the first
edge being held against the measured edge on TXD, at 0 (DESIGN CHOICE, log 84). TDCF = 0 passes all. -/
def tdcEdge (tdcf prev : Nat) : List Nat → Option Nat
  | [] => none
  | e :: l => if tdcf == 0 || decide (prev + tdcf < e) then some e else tdcEdge tdcf e l

/-- The transmitter delay is measured on a frame with a data phase above the nominal rate (R194): FD frames with bit-rate
switching and XL frames. The secondary sample point lies TDCO after it. -/
def Dev.canDelay (d : Dev) (c : Nat) (m : Msg) (edges : List Nat) : Dev :=
  let phase := m.form == 4 || ((m.form == 2 || m.form == 3) && bit m.flags 0)
  match tdcEdge (d.get (F.CAN_TDC_TDCF c)) 0 edges with
  | none => d
  | some delay =>
    if d.flag (F.CAN_TDC_TDC_EN c) && phase && decide (d.dataMtq c < d.nomMtq c) then
      let d0 := d.setCtl c { d.ctl c with ssp := min 127 delay + d.get (F.CAN_TDC_TDCO c) }
      let d1 := d0.set (F.CAN_TDC_TDCV c) (min 127 delay)
      if 127 < delay then d1.set (F.CAN_STATUS_TDC_SAT c) 1 else d1
    else d

/-- The device's own frame is delivered where SELF_RX is 1 (R199). -/
def Dev.canSelf (d : Dev) (c : Nat) (m : Msg) (sof : Nat) : Dev :=
  if d.flag (F.CAN_CTRL_SELF_RX c) then
    (d.fqPut (20 + c) { m with flags := setBit m.flags 4 true, sof := sof } d.dtime (d.get (F.CAN_STATUS_STATE c)) false none).1
  else d

/-- The device's frame has been sent without error (R199, R202): released, the transmit counter one lower, and what waits
for it goes on. -/
def Dev.canSent (d : Dev) (c : Nat) (edges : List Nat) : Dev :=
  match d.arbCopy c with
  | none => d
  | some (a, x) =>
    if !x.started then d
    else
      let d1 := (d.canRelease c a x).canDelay c x.msg edges
      let d2 := (d1.canCount c (d1.get (F.CAN_ERRCNT_TEC c) - 1) (d1.get (F.CAN_ERRCNT_REC c))).canSelf c
        { x.msg with flags := d.canSentFlags c x.msg } a.sof
      match x.kind with
      | .tsSync =>
        let d3 := d2.inc F.TS_TS_SYNC_SENT_COUNT
        -- a sync whose SOF precedes a step has no follow-up (R275)
        if a.epoch == d3.get F.TIME_STATUS_EPOCH then d3.tsFollow c x.msg.data a.sof else d3.tsFupDrop
      | .tsOld => d2.inc F.TS_TS_SYNC_SENT_COUNT
      | .xpt k => d2.xptSent k
      | _ => d2

/-! ### Identifier collisions (R208 to R211) -/

/-- The tracker that a collision takes: its own, a free one, or the unsuspended one with the oldest last collision. -/
def Dev.trackerFor (d : Dev) (c form id : Nat) : Option Nat :=
  let l := d.ctl c
  match d.canTracker c form id with
  | some k => some k
  | none =>
    match (List.range 8).find? (fun k => !d.flag (F.CAN_TRACK_VALID c k)) with
    | some k => some k
    | none =>
      ((List.range 8).filter (fun k => !d.flag (F.CAN_TRACK_SUSPENDED c k))).foldl (fun b k =>
        match b with
        | none => some k
        | some j => if (SMap.get l.lastHit none k).getD 0 < (SMap.get l.lastHit none j).getD 0 then some k else b) none

/-- An identifier is suspended (R210): the entries it loses to that are breaches, whatever the collision itself excuses. -/
def Dev.idSuspend (d : Dev) (c k form id : Nat) : Dev :=
  let p := 20 + c
  let x := d.ctl c
  let d1 := (d.setCtl c { x with susp := SMap.set x.susp none k (some d.now) }).set (F.CAN_TRACK_SUSPENDED c k) 1
  let d2 := (d1.heap p).foldl (fun d y =>
    if !y.started && y.msg.id == id && y.msg.form == form then (d.inc (F.CAN_COLL_DROP_COUNT c)).dropCopy { y with excused := false } .lost else d) d1
  ((d2.fltSet (blkCan c) 3).event61 0x06 (blkCan c) 3 (accNone * 8) 0
    (leBytes 1 p ++ leBytes 3 0 ++ leBytes 4 (id % 2 ^ 29 + form % 8 * 2 ^ 29))).countEvent (blkCan c) 3

/-- A collision is counted in its tracker. -/
def Dev.track (d : Dev) (c form id : Nat) : Dev :=
  match d.trackerFor c form id with
  | none => d.fltSet (blkCan c) 4
  | some k =>
    let x := d.ctl c
    let own := d.canTracker c form id == some k
    let win := atLeastOne (d.get (F.CAN_COLL_CFG_WINDOW_MS c)) * msCyc
    let hits := (if own then (SMap.get x.hits [] k).filter (fun t => decide (d.now < t + win)) else []) ++ [d.now]
    let d1 := d.setCtl c { x with
      hits := SMap.set x.hits [] k hits, forms := SMap.set x.forms 0 k form, lastHit := SMap.set x.lastHit none k (some d.now) }
    let d2 := ((d1.set (F.CAN_TRACK_ID c k) id).set (F.CAN_TRACK_VALID c k) 1).set (F.CAN_TRACK_W1_COUNT c k) (min 255 hits.length)
    if atLeastOne (d2.get (F.CAN_COLL_CFG_N c)) ≤ hits.length && !d2.flag (F.CAN_TRACK_SUSPENDED c k) then d2.idSuspend c k form id
    else d2

/-- A collision on the device's own frame. -/
def Dev.collision (d : Dev) (c form id bitPos : Nat) (dataField : Bool) : Dev :=
  let n := d.get (F.CAN_COLL_LOG_STATUS_ENTRIES c)
  let k := if n == 0 then 0 else (d.get (F.CAN_COLL_LOG_STATUS_NEWEST c) + 1) % 8
  let d1 := ((d.set (F.CAN_LEC_CODE c) 7).set (F.CAN_COLL_LOG_ID c k) id).set (F.CAN_COLL_LOG_FORMAT c k) form
  let d2 := ((d1.set (F.CAN_COLL_LOG_W1_BIT c k) (min 16383 bitPos)).set (F.CAN_COLL_LOG_W1_DATA c k) (b2n dataField)).set
    (F.CAN_COLL_LOG_W2_DTIME c k) d1.dtime
  let d3 := (d2.set (F.CAN_COLL_LOG_STATUS_ENTRIES c) (min 8 (n + 1))).set (F.CAN_COLL_LOG_STATUS_NEWEST c) k
  ((d3.inc (F.CAN_COLL_TOTAL_COUNT c)).fault (blkCan c) 2).track c form id

/-- A suspension ends (R211). -/
def Dev.suspendEnd (d : Dev) (c k : Nat) : Dev :=
  let x := d.ctl c
  if !d.flag (F.CAN_TRACK_SUSPENDED c k) then d
  else
    ((d.setCtl c { x with hits := SMap.set x.hits [] k [], susp := SMap.set x.susp none k none }).set
      (F.CAN_TRACK_SUSPENDED c k) 0).set (F.CAN_TRACK_W1_COUNT c k) 0

/-- RELEASE_S has passed since a suspension. -/
def Dev.suspendTimeout (d : Dev) (c k : Nat) : Dev :=
  let s := d.get (F.CAN_COLL_REL_RELEASE_S c)
  match SMap.get (d.ctl c).susp none k with
  | some t => if s == 0 then d else (d.reach (t + s * sCyc)).suspendEnd c k
  | none => d

/-- The oldest collision leaves a tracker's window. -/
def Dev.trackExpire (d : Dev) (c k : Nat) : Dev :=
  match SMap.get (d.ctl c).hits [] k with
  | [] => d
  | t :: l =>
    let d1 := d.reach (t + atLeastOne (d.get (F.CAN_COLL_CFG_WINDOW_MS c)) * msCyc)
    let x := d1.ctl c
    (d1.setCtl c { x with hits := SMap.set x.hits [] k l }).set (F.CAN_TRACK_W1_COUNT c k) (min 255 l.length)

/-! ### Errors (R202, R205) -/

/-- A copy of a transport session that has ended or is to stop: nothing is sent again (R303). -/
def Dev.xptOver (d : Dev) (x : Copy) : Bool :=
  match x.kind with
  | .xptOld => true
  | .xpt k => ((SMap.get d.xpt.sess none k).map (fun s => s.stop)).getD true
  | _ => false

/-- An error destroys the device's frame, which returns to the heap, or leaves it at the limit; a controller that can no longer
contend removes it (R203), and the frame of an aborted transport session goes (R303). -/
def Dev.attemptLost (d : Dev) (c : Nat) (x : Copy) : Dev :=
  let d1 := d.setCtl c { d.ctl c with arb := none }
  let y := { x with started := false, tries := x.tries + 1 }
  let lim := d.get (F.CAN_CTRL_RETX_LIMIT c)
  let d2 := d1.setCopy y
  if lim != 0 && lim ≤ y.tries then (d2.inc (F.CAN_TX_FAIL_COUNT c)).dropCopy y .txFail
  else if !d2.canContends c then (d2.inc (F.CAN_NC_DROP_COUNT c)).dropCopy y .lost
  else if d2.xptOver y then d2.dropCopy y .aborted
  else d2

/-- A detected error. As transmitter, `tail` names the two cases that ISO 11898-1 does not count: a passive node that gets no
acknowledgement and sees no dominant bit in its error flag, and a stuff error in the arbitration field; `more` counts the bit
errors in its own error flag and each further sequence of 8 dominant bits after it. -/
def Dev.canError (d : Dev) (c : Nat) (tx : Bool) (code : Nat) (field : CanField) (bitPos : Nat) (dataPhase tail : Bool)
    (more : Nat) (edges : List Nat) : Dev :=
  if d.canInit c || (d.ctl c).joining then d
  else if d.rateSearching c then
    let d1 := (d.set (F.CAN_LEC_CODE c) code).set (F.CAN_LEC_DATA_PHASE c) (b2n dataPhase)
    if code == 1 || code == 2 || code == 6 then d1.rateNext c else d1
  else
    match (if tx then d.arbCopy c else none) with
    | none => if d.canReceives c then d.canRxError c code dataPhase tail more else d
    | some (_, x) =>
      let free := tail && ((code == 3 && d.get (F.CAN_STATUS_STATE c) == 1) || (code == 1 && field == .arbitration))
      let hit := (code == 4 || code == 5) && (field == .control || field == .data) && x.started
      let d0 := (((d.set (F.CAN_LEC_CODE c) code).set (F.CAN_LEC_DATA_PHASE c) (b2n dataPhase)).excuse (20 + c) (fun _ => true)).canFlag c
      -- the delay has been measured by the data phase, whether the error falls in it or after it (R194)
      let da := if dataPhase || field == .ack || field == .eof then d0.canDelay c x.msg edges else d0
      let d1 := (da.canIdle c).attemptLost c { x with excused := true }
      let d2 := if hit then d1.collision c x.msg.form x.msg.id bitPos (field == .data) else d1
      let n := (if free then 0 else 8) + 8 * more
      if n == 0 then d2 else d2.canCount c (min 511 (d2.get (F.CAN_ERRCNT_TEC c) + n)) (d2.get (F.CAN_ERRCNT_REC c))

end Sys2Proof.Machine
end

