-- ==== Sys2Proof/Machine/LinOps.lean ====
section
/-!
DEFINITION. The LIN controllers (chapter 6): schedule, headers and responses, errors, their memories; and the integrated
transceivers of CAN and LIN ports (R224 to R226).
-/
namespace Sys2Proof.Machine

/-- The controller and its transceiver are on the bus. -/
def Dev.linActive (d : Dev) (n : Nat) : Bool :=
  !d.flag (F.LIN_CTRL_INIT n) && !d.isolated (blkLin n) && d.portUp (40 + n) && d.segHears (40 + n)
    && (d.get (F.PWR_XCVR_LIN_MODE_ACT n) == 1 || d.get (F.PWR_XCVR_LIN_MODE_ACT n) == 2)

/-! ### Memories (Table CAN-8, R220, R229) -/

def memSched : Nat := 60
def memResp : Nat := 61

/-- Fields of a slot entry; a response entry holds DIR in byte 0 and the rest alike. -/
def lsId (e : Nat) : Nat := bf e 0 6
def lsDir (e : Nat) : Nat := bf e 6 2
def lsLen (e : Nat) : Nat := bf e 8 3 + 1
def lsChk (e : Nat) : Bool := bit e 12
def lsNoData (e : Nat) : Bool := bit e 13
def lsDelay (e : Nat) : Nat := bf e 16 8

/-- A slot entry of a port. -/
def Dev.slotEnt (d : Dev) (n t i : Nat) : Nat := d.tget memSched 0 (512 * n + 64 * t + i)

/-- A valid slot holds its longest frame (R217): T_Frame_Maximum of 1.4 × (34 + BREAK_EXT + 10 × (N + 1)) bit times. -/
def slotFits (e tbase baud ext : Nat) : Bool :=
  lsDir e == 3 || decide (14 * (34 + ext + 10 * (lsLen e + 1)) * 1000000 ≤ lsDelay e * tbase * baud * 10)

/-- An admitted contract has the port in its path. -/
def Dev.contractPort (d : Dev) (p : Nat) : Bool :=
  d.admitted.any (fun k => bit (rqEgress k.2.req) p || rqIngress k.2.req == p)

/-- Every stored valid slot of a port still fits; an entry of zeros holds no slot. -/
def Dev.slotsFit (d : Dev) (n tbase baud ext : Nat) : Bool :=
  d.tbl.all (fun x => !(x.1 / 2 ^ 24 == memSched * 2 && x.1 % 2 ^ 24 / 512 == n) || slotFits x.2 tbase baud ext)

/-- An access through `MEM_CMD` (R188, R229): its result. -/
def Dev.linMem (d : Dev) (n : Nat) (write : Bool) : Dev :=
  let m := d.get (F.LIN_MEM_SEL_MEM n)
  let i := d.get (F.LIN_MEM_SEL_INDEX n)
  let done (d : Dev) (r : Nat) : Dev := (d.set (F.LIN_MEM_CMD_RESULT n) r).set (F.LIN_MEM_CMD_WRITE n) (b2n write)
  let mem := if m == 0 then memSched else memResp
  let key := if m == 0 then 512 * n + i else 64 * n + i
  if m == 1 && decide (64 ≤ i) then done d errFormat
  else if !write then
    let e := d.tget mem 0 key
    done ((d.set (F.LIN_MEM_DATA_DATA n 0) (e % 2 ^ 32)).set (F.LIN_MEM_DATA_DATA n 1) (e / 2 ^ 32)) errOk
  else
    let v := d.get (F.LIN_MEM_DATA_DATA n 0) + 2 ^ 32 * d.get (F.LIN_MEM_DATA_DATA n 1)
    let t := i / 64
    if m == 1 then done (d.tset mem 0 key v) errOk
    else if (t == d.get (F.LIN_STATUS_TABLE n) && d.flag (F.LIN_CTRL_RUN n))
        || (bit (d.get (F.LIN_SCHED_ACTIVATABLE n)) t && d.contractPort (40 + n)) then done d errLocked
    else if !slotFits v (d.get (F.LIN_TBASE_TBASE_US n)) (d.get (F.LIN_BAUD_RATE n)) (d.get (F.LIN_CTRL_BREAK_EXT n)) then
      done d errFormat
    else done (d.tset mem 0 key v) errOk

/-! ### Register writes (R217, R218, R229) -/

/-- `STATUS.CFG_IGNORED` is set. -/
def Dev.linIgnored (d : Dev) (n : Nat) : Dev := d.set (F.LIN_STATUS_CFG_IGNORED n) 1

/-- A word is written to `CTRL`. -/
def Dev.linCtrl (d : Dev) (n v : Nat) : Dev :=
  let old := d.reg (R.LIN_CTRL n)
  let init := bit old 0
  let was := d.linCommands n
  let cfg (x : Nat) : Nat := bf x 1 2 + 4 * bf x 4 4
  let d1 :=
    if cfg v == cfg old then d
    else if !init then d.linIgnored n
    else
      let d1 := (d.set (F.LIN_CTRL_ROLE n) (bf v 1 1)).set (F.LIN_CTRL_AUTOBAUD n) (bf v 2 1)
      if d1.slotsFit n (d1.get (F.LIN_TBASE_TBASE_US n)) (d1.get (F.LIN_BAUD_RATE n)) (bf v 4 4) then
        d1.set (F.LIN_CTRL_BREAK_EXT n) (bf v 4 4)
      else d1.linIgnored n
  let d2 := (d1.set (F.LIN_CTRL_RUN n) (bf v 3 1)).set (F.LIN_CTRL_INIT n) (bf v 0 1)
  let now := d2.linCommands n
  let x := d2.linCtl n
  -- RUN comes back before the slot it had ended is over: that slot runs out, then slot 0 follows (R218)
  if now && !was && x.running then d2.setLinCtl n { x with stopping := x.sleepDue, slotAt := x.slotEnd }
  -- a schedule whose segment has left the bus starts with AWAKE (R368)
  else if now && !was then (if d2.segSends (40 + n) then d2.linStart n else d2)
  else if bit v 0 then d2.setLinCtl n { Lin.init with next := (d2.linCtl n).next }
  else if was && !now then d2.setLinCtl n { d2.linCtl n with stopping := (d2.linCtl n).running }
  else d2

/-- A word is written to `BAUD` or `TBASE`. -/
def Dev.linTiming (d : Dev) (n : Nat) (base : Bool) (v : Nat) : Dev :=
  let f := if base then F.LIN_TBASE_TBASE_US n else F.LIN_BAUD_RATE n
  let x := bf v 0 f.w
  let ok := if base then decide (1000 ≤ x) && decide (x ≤ 10000) else decide (1000 ≤ x) && decide (x ≤ 20000)
  let tb := if base then x else d.get (F.LIN_TBASE_TBASE_US n)
  let baud := if base then d.get (F.LIN_BAUD_RATE n) else x
  if !d.flag (F.LIN_CTRL_INIT n) then d.linIgnored n
  else if !ok then d
  else if d.slotsFit n tb baud (d.get (F.LIN_CTRL_BREAK_EXT n)) then d.set f x
  else d.linIgnored n

/-- A word is written to `SCHED`. -/
def Dev.linSched (d : Dev) (n v : Nat) : Dev :=
  if d.contractPort (40 + n) then d.linIgnored n
  else d.set (F.LIN_SCHED_ACTIVATABLE n) (bf v 0 8)

/-! ### Sending (R216, R219, R222) -/

/-- The ledger period of a DEVICE_SENT identifier has not passed since it was last sent (R57, log 68). -/
def Dev.linHeld (d : Dev) (p id : Nat) : Bool :=
  match (SMap.get d.anvil.ledgers none p).bind (fun l => l.find? (fun e => lgDeviceSent e && lgId e == id && lgForm e == 5)) with
  | some e => match SMap.get d.fwd.sentAt none (sentKey p 5 id) with
    | some t => decide (d.now < t + lgPeriod e * usCyc)
    | none => false
  | none => false

/-- The entry that a transmit slot sends: late ones are dropped, and so is one whose read fails parity. -/
def Dev.linOffer (d : Dev) (p id : Nat) : Nat → Bool → Dev × Option Copy
  | 0, _ => (d, none)
  | n + 1, bad =>
    match (d.linSlot p id).find? (fun c => !c.started) with
    | none => (d, none)
    | some c =>
      if d.lateBy c 0 then (d.dropCopy c .late).linOffer p id n bad
      else if bad then (d.poisonFrame c.handle p).linOffer p id n false
      else (d, some c)

/-- The data that a published response takes (R222): the slot's entry, else the last data sent, unless NO_DATA is 1; none within
the ledger's minimum interval (R57). -/
def Dev.linData (d : Dev) (p id : Nat) (noData bad : Bool) : Dev × Option Copy × Option (List Byte) :=
  if d.linHeld p id then (d, none, none)
  else
  match d.linOffer p id (d.linSlot p id).length bad with
  | (d1, some c) => (d1, some c, some c.msg.data)
  | (d1, none) => (d1, none, if noData then none else SMap.find? d1.fwd.linLast (64 * p + id))

/-- An error of a bus excuses every frame that waits on it (Table PROM-1). -/
def Dev.busError (d : Dev) (p : Nat) : Dev := d.excuse p (fun _ => true)

/-- A response is sent under an identifier; the SOF of the frame was at DTIME `sof`. An entry of the transmit slot is consumed,
whether or not an error follows (R223). With `cut`, byte `k` is read back wrong: the transmission stops at its end, the error is
counted, it excuses the frame and those that wait (R34), and no frame counts as sent. DESIGN CHOICE (log 83): data sent again without
an entry counts in no TC_TX. -/
def Dev.linRespond (d : Dev) (n id : Nat) (enhanced : Bool) (c : Option Copy) (data : List Byte) (sof : Nat) (cut : Option LinCut) : Dev :=
  let p := 40 + n
  let chk := if enhanced && decide (id < 0x3C) then linSum (leBytes 1 (linPid id) ++ data) else linSum data
  let all := data ++ leBytes 1 chk
  let sent := match cut with
    | some (.byte k) => all.take (k + 1)
    | _ => all
  let d0 := d.emit (.linResponse p sent)
  let d1 := { d0 with fwd := { d0.fwd with
    linLast := SMap.set d0.fwd.linLast [] (64 * p + id) data
    sentAt := SMap.set d0.fwd.sentAt none (sentKey p 5 id) (some d0.now) } }
  let d2 := match cut with
    | some _ => (((d1.setLinCtl n { d1.linCtl n with cur := none }).busError p).inc (F.LIN_BIT_ERR_COUNT n)).fault (blkLin n) 0
    | none => d1
  match c with
  | none => if cut.isNone then d2.countTx p data.length else d2
  | some x =>
    let y := { x with excused := x.excused || cut.isSome }
    let d3 := match d2.frame x.handle with
      | some f => d2.measure y f sof
      | none => d2
    if cut.isNone then d3.sentCopy y data.length else d3.endCopy y

/-- The index of the slot that follows: slot 0 after the last one, or where the schedule has just started. -/
def Dev.slotNext (d : Dev) (n t : Nat) (x : Lin) : Nat :=
  if x.slotAt == x.slotEnd then 0
  else
    let i := d.get (F.LIN_STATUS_SLOT n) + 1
    if 64 ≤ i || lsDir (d.slotEnt n t i) == 3 then 0 else i

/-- A committed switch of the schedule takes effect (R218). -/
def Dev.linSwitch (d : Dev) (n : Nat) : Dev :=
  match (d.linCtl n).next with
  | some t => (d.set (F.LIN_STATUS_TABLE n) t).setLinCtl n { d.linCtl n with next := none }
  | none => d

/-- A commander reads an error back in its own header: the slot is abandoned (Table CAN-9). -/
def Dev.linAbandon (d : Dev) (n : Nat) : Dev :=
  ((d.setLinCtl n { d.linCtl n with cur := none }).busError (40 + n)).inc (F.LIN_HDR_ERR_COUNT n)

/-- The next slot of a commander begins, or the schedule stops at the end of its last slot. -/
def Dev.linSlotStart (d : Dev) (n : Nat) (busy bad : Bool) (err : Option LinCut) : Dev :=
  let p := 40 + n
  let x := d.linCtl n
  if !x.running then d
  else
    let d0 := d.reach x.slotEnd
    if x.stopping || !d0.linActive n || !d0.flag (F.LIN_CTRL_ROLE n) then
      let d1 := d0.linSwitch n
      let d2 := d1.setLinCtl n { Lin.init with next := (d1.linCtl n).next }
      -- the go-to-sleep command follows the last slot (R368)
      if x.sleepDue && d0.linActive n then d2.goToSleep p else d2
    else
      let d1 := d0.linSwitch n
      let t := d1.get (F.LIN_STATUS_TABLE n)
      let i := if x.next.isSome then 0 else d1.slotNext n t x
      let e := d1.slotEnt n t i
      let id := lsId e
      let len := atLeastOne (lsDelay e) * d1.get (F.LIN_TBASE_TBASE_US n) * usCyc
      let d2 := (d1.set (F.LIN_STATUS_SLOT n) i).setLinCtl n { x with next := none, slotAt := d1.now, slotEnd := d1.now + len, cur := none }
      if lsDir e == 3 then d2
      else if busy then
        let d3 := (d2.inc (F.LIN_SKIPPED_COUNT n)).setLinCtl n { d2.linCtl n with skips := x.skips + 1 }
        if x.skips + 1 == 16 then d3.fltSet (blkLin n) 1 else d3
      else
        let d3 := d2.setLinCtl n { d2.linCtl n with skips := 0 }
        let head (d : Dev) : Dev := (d.linSendHeader n id).setLinCtl n
          { d.linCtl n with cur := some ⟨id, lsDir e, lsLen e, lsChk e, none⟩ }
        if err == some .header then (head d3).linAbandon n
        else if lsDir e == 0 then
          match d3.linData p id (lsNoData e) bad with
          | (d4, c, some bs) => (head d4).linRespond n id (lsChk e) c bs d4.dtime err
          | (d4, _, none) => if lsNoData e then d4 else head d4
        else head d3

/-- A header passes the tests of R221: its break lasted `brk` ns and its sync byte measured `rate` bit/s. -/
def Dev.linHeaderOk (d : Dev) (n brk rate : Nat) : Bool :=
  let baud := d.get (F.LIN_BAUD_RATE n)
  if d.flag (F.LIN_CTRL_AUTOBAUD n) then
    decide (550000 ≤ brk) && decide (1000 ≤ rate) && decide (rate ≤ 20000) && decide (11 * 1000000000 ≤ brk * rate)
  else decide (11 * 1000000000 ≤ brk * baud) && decide (86 * baud ≤ 100 * rate) && decide (100 * rate ≤ 114 * baud)

/-- A responder receives a header (R220, R221); one whose identifier fails parity is a header error (R223). -/
def Dev.linHeader (d : Dev) (n id brk rate age : Nat) (bad : Bool) (err : Option LinCut) : Dev :=
  let p := 40 + n
  let auto := d.flag (F.LIN_CTRL_AUTOBAUD n)
  if !d.linActive n || d.flag (F.LIN_CTRL_ROLE n) then d
  else if !d.linHeaderOk n brk rate || err == some .header then (d.busError p).inc (F.LIN_HDR_ERR_COUNT n)
  else
    let d0 := if auto then d.set (F.LIN_STATUS_MEAS_RATE n) rate else d
    let d1 := d0.setSeg p { d0.seg p with hdrAt := d0.now, pulses := 3 }
    let e := d1.tget memResp 0 (64 * n + id)
    let dir := e % 4
    let d2 := d1.setLinCtl n { d1.linCtl n with cur := some ⟨id, dir, lsLen e, lsChk e, none⟩ }
    if dir == 1 && d2.segState p < 2 then
      match d2.linData p id (lsNoData e) bad with
      | (d3, c, some bs) => d3.linRespond n id (lsChk e) c bs ((d3.dtime + 2 ^ 64 - age % 2 ^ 64) % 2 ^ 64) err
      | (d3, _, none) => d3
    else d2

/-! ### Receiving (R222, R223) -/

/-- A responder takes a go-to-sleep command (R368): with REQ = 1 in AWAKE it stays awake and sends a wake pulse. -/
def Dev.linSleep (d : Dev) (n : Nat) : Dev :=
  let p := 40 + n
  if d.flag (F.LIN_CTRL_ROLE n) || !d.segOn p || !d.nmRuns then d
  else if d.segState p == 0 && d.flag (F.NM_SEG_CTRL_REQ p) then d.wakeOut p
  else if d.segState p < 2 then d.segStep p 2
  else d

/-- The classic and the enhanced checksum of data under an identifier; from 0x3C on both are the classic one (R215). -/
def linClassic (data : List Byte) : Nat := linSum data
def linEnhanced (id : Nat) (data : List Byte) : Nat :=
  if id < 0x3C then linSum (leBytes 1 (linPid id) ++ data) else linSum data

/-- The checksum of received data under an identifier is right (R215): of the kind that the entry of its header names, or of either
kind where no entry does; with it, whether it is the classic one. -/
def Dev.linSumOk (d : Dev) (n id : Nat) (data : List Byte) (chk : Nat) : Option Bool :=
  let classic := chk == linClassic data
  match (d.linCtl n).cur with
  | some f =>
    if f.id != id || f.dir == 0 && !d.flag (F.LIN_CTRL_ROLE n) then (if classic || chk == linEnhanced id data then some classic else none)
    else if f.enhanced && decide (id < 0x3C) then (if chk == linEnhanced id data then some false else none)
    else if classic then some true
    else none
  | none => if classic || chk == linEnhanced id data then some classic else none

/-- The data bytes that the entry of the present header expects, where one names the identifier. -/
def Dev.linWant (d : Dev) (n id : Nat) : Option Nat :=
  (d.linCtl n).cur.bind (fun f =>
    if f.id != id || f.dir == 0 && !d.flag (F.LIN_CTRL_ROLE n) then none else some f.len)

/-- A LIN error (Table CAN-9): it is an error of the bus for what waits on it (R34). -/
def Dev.linError (d : Dev) (n : Nat) (e : LinErr) : Dev :=
  if !d.linActive n then d
  else
    let d0 := (d.setLinCtl n { d.linCtl n with cur := none }).busError (40 + n)
    match e with
    | .header => d0.inc (F.LIN_HDR_ERR_COUNT n)
    | .framing => d0.inc (F.LIN_FRAME_ERR_COUNT n)
    | .checksum => d0.inc (F.LIN_CHK_ERR_COUNT n)
    | .bit => (d0.inc (F.LIN_BIT_ERR_COUNT n)).fault (blkLin n) 0

/-- A response with a right checksum is counted and delivered with format 5 (R222). -/
def Dev.linDeliver (d : Dev) (n id : Nat) (data : List Byte) (classic : Bool) (age : Nat) (bad : Bool) : Dev :=
  let p := 40 + n
  let d0 := ((d.setLinCtl n { d.linCtl n with cur := none }).countRx p data.length).segReceived p none (some id)
  let d1 := d0.ledgerCheck p 5 id data.length false 0
  let m : Msg := { Msg.init with form := 5, id := id, data := data, flags := 32 * b2n classic,
                                 sof := (d1.dtime + 2 ^ 64 - age % 2 ^ 64) % 2 ^ 64 }
  let d2 := (d1.fqPut p m d1.dtime 0 bad none).1
  if id == 0x3C && data == bytes [0, 0xFF, 0xFF, 0xFF, 0xFF, 0xFF, 0xFF, 0xFF] then d2.linSleep n else d2

/-- The bytes of another node's response: data bytes and the byte after them. The entry of the header says how many are data: a
missing byte is a framing error, and the checksum follows the last data byte (R215, Table CAN-9). -/
def Dev.linValid (d : Dev) (n id : Nat) (data : List Byte) (chk : Byte) (age : Nat) (bad : Bool) : Dev :=
  if !d.linActive n || data.isEmpty || 8 < data.length then d
  else
    let k := (d.linWant n id).getD data.length
    if data.length < k then d.linError n .framing
    else
      let body := data.take k
      let sum := byteAt (data ++ [chk]) k
      match d.linSumOk n id body sum with
      | none => d.linError n .checksum
      | some classic => d.linDeliver n id body classic age bad

/-- No response has started in time. -/
def Dev.linSilent (d : Dev) (n : Nat) : Dev :=
  let x := d.linCtl n
  match x.cur with
  | none => d
  | some f =>
    let want := if d.flag (F.LIN_CTRL_ROLE n) then f.dir != 0 else f.dir == 2
    if want && d.linActive n then ((d.setLinCtl n { x with cur := none }).busError (40 + n)).inc (F.LIN_NO_RESP_COUNT n) else d

/-! ### Integrated transceivers (R224 to R226) -/

/-- A port with an integrated CAN or LIN transceiver. -/
def hasXcvr (p : Nat) : Bool := segCanInt p || segLin p

/-- A mode is written (R225): a reserved mode is ignored, and one that needs the line-side domain while it is off is ignored
and reported. -/
def Dev.xcvrMode (d : Dev) (p mode : Nat) : Dev :=
  let needs := if segCanInt p then mode == 1 || mode == 2 || mode == 3 else mode == 1 || mode == 2
  if segCanInt p && decide (6 ≤ mode) then d
  else if needs && !d.ready (lineDomain p) then
    if segCanInt p then d.set (F.PWR_XCVR_CAN_MODE_REJ (p - 20)) 1 else d.set (F.PWR_XCVR_LIN_MODE_REJ (p - 40)) 1
  else d.setXcvr p mode

/-- The transceiver reaches its mode: the controller may lose the bus, and a WAKING segment sees its transceiver active. -/
def Dev.xcvrReached (d : Dev) (p : Nat) : Dev :=
  if !hasXcvr p then d
  else
    let d1 := d.xcvrApply p
    let c := p - 20
    let d2 := if segCanInt p && !d1.canContends c then d1.canClear c false else d1
    let act := if segCanInt p then d2.get (F.PWR_XCVR_CAN_MODE_ACT c) else d2.get (F.PWR_XCVR_LIN_MODE_ACT (p - 40))
    if d2.segOn p && d2.segState p == 5 && act == d2.get (F.NM_SEG_CFG_ACT_MODE p) then
      let d3 := d2.setSeg p { d2.seg p with active := true }
      if (d3.seg p).localWake && d3.nmRuns then d3.segStep p 0 else d3
    else d2

/-- A driver is switched off by its transceiver, or on again (R226). -/
def Dev.setTxdOff (d : Dev) (p : Nat) (off : Bool) : Dev :=
  { d with pwr := { d.pwr with txdOff := setBit d.pwr.txdOff p off } }

/-- A driver switches off on a dominant time-out, and puts nothing on its bus until it is on again; the flag stays. -/
def Dev.txdTimeout (d : Dev) (p : Nat) (off : Bool) : Dev :=
  if !hasXcvr p then d
  else if !off then d.setTxdOff p false
  else if segCanInt p then
    (if [1, 2].contains (d.get (F.PWR_XCVR_CAN_MODE_ACT (p - 20))) then (d.set (F.PWR_XCVR_CAN_TXD_DOM (p - 20)) 1).setTxdOff p true
     else d)
  else
    (if [1, 2].contains (d.get (F.PWR_XCVR_LIN_MODE_ACT (p - 40))) then (d.set (F.PWR_XCVR_LIN_TXD_DOM (p - 40)) 1).setTxdOff p true
     else d)

end Sys2Proof.Machine
end

