-- ==== Sys2Proof/Machine/AnvilOps.lean ====
section
/-!
DEFINITION. Anvil, the admission engine (chapter 2): its model of a path's bound (R50 to R57), the checks of a request
(R42 to R47, R58), reservations, and the evaluation of a guarded change (R59 to R61).
-/
namespace Sys2Proof.Machine

/-! ### Exact fractions -/

/-- A non-negative fraction. -/
structure Frac where
  num : Nat
  den : Nat
  deriving DecidableEq, Repr

/-- A fraction in lowest terms. -/
def frac (n d : Nat) : Frac := let g := atLeastOne (Nat.gcd n d); ⟨n / g, atLeastOne (d / g)⟩

def Frac.nat (n : Nat) : Frac := ⟨n, 1⟩
def Frac.plus (a b : Frac) : Frac := frac (a.num * b.den + b.num * a.den) (a.den * b.den)
def Frac.minus (a b : Frac) : Frac := frac (a.num * b.den - b.num * a.den) (a.den * b.den)
def Frac.times (a b : Frac) : Frac := frac (a.num * b.num) (a.den * b.den)
def Frac.over (a b : Frac) : Frac := frac (a.num * b.den) (a.den * b.num)
def Frac.leq (a b : Frac) : Bool := decide (a.num * b.den ≤ b.num * a.den)
def Frac.larger (a b : Frac) : Frac := if a.leq b then b else a
def Frac.smaller (a b : Frac) : Frac := if a.leq b then a else b
def Frac.sum (l : List Frac) : Frac := l.foldl Frac.plus (Frac.nat 0)
def Frac.ceil (a : Frac) : Nat := (a.num + a.den - 1) / a.den

/-- Quotient of naturals, rounded up. -/
def ceilDiv (a b : Nat) : Nat := (a + b - 1) / b

/-! ### Refusals (Table PROM-10) -/

/-- A refusal: its reason and BINDING_PORT. -/
structure Refuse where
  reason : Nat
  port : Nat
  deriving DecidableEq, Repr

def rsnBound : Nat := 0x01
def rsnExpress : Nat := 0x02
def rsnFull : Nat := 0x03
def rsnHandles : Nat := 0x04
def rsnCells : Nat := 0x05
def rsnKeyPin : Nat := 0x06
def rsnCrypto : Nat := 0x07
def rsnBreaks : Nat := 0x08
def rsnKeyExists : Nat := 0x09
def rsnClassPort : Nat := 0x0A
def rsnLedger : Nat := 0x0B
def rsnPortState : Nat := 0x0C
def rsnRate : Nat := 0x0D
def rsnTwin : Nat := 0x0E
def rsnBoundRange : Nat := 0x0F
def rsnGate : Nat := 0x10
def rsnRoute : Nat := 0x11
def rsnSteppedDown : Nat := 0x12
def rsnNoTwin : Nat := 0x13

/-! ### What a contract sends where -/

/-- One copy of a contract's largest frame: identifier and form (16 for Ethernet), data bytes or bytes from DA to FCS, and
what its path uses. -/
structure OutForm where
  port : Nat
  form : Nat
  id : Nat
  len : Nat
  edited : Bool
  /-- Channel that re-signs it, and the length of the PDU generated. -/
  sign : Option Nat
  gen : Nat
  brs : Bool
  cont : Option Nat
  deriving DecidableEq, Repr

/-- The largest payload a route's source has once a verified trailer is gone (R333). -/
def Dev.trailerLen (d : Dev) (c : Nat) : Nat := min 8 (chFvLen (d.chan c)) + chMacLen (d.chan c)

/-- The copy of a field contract toward one target; none where R164 discards it (R46, R162 to R164). -/
def Dev.fieldOut (d : Dev) (r : Nat) (t : RTarget) : Option OutForm :=
  let p := t.target
  let e := match t.edit with
    | some i => d.steEnt 2 i
    | none => 0
  let src := rqForm r
  let form := if t.edit.isSome then edForm e else src
  let id := if t.edit.isSome then edId e else rqId r
  let signed := t.edit.isSome && edSecEn e
  let payload := rqMax r - (if rqSecIn r == 0xFFFF then 0 else d.trailerLen (rqSecIn r))
  let n := formLen form (if signed then payload + d.trailerLen (edSecOut e) else rqMax r)
  let prof := d.steEnt 4 (edProfile e)
  let cont := d.steEnt 5 (edProfile e)
  let encap := decide (9 ≤ form) && decide (form ≤ 12)
  if (t.edit.isSome && !edValid e) || !d.formOk p src form || (p < 20 && t.edit.isNone) || (form == 8 && !coValid cont)
      || (encap && !enValid prof) || !formFits form n then none
  else
    let tag := if enTagged (if form == 8 then cont else prof) then 4 else 0
    let body :=
      if form == 8 then 16 + 6 + n
      else if form == 12 then 24 + n
      else 12 + (if form == 9 then 16 else if form == 10 then 8 else 12) + 4 * ceilDiv n 4
    let rtag := if rqRedund r == 1 && p < 4 && form != 8 then 6 else 0
    let len := if p < 20 then max 64 (14 + tag + body + 4) + rtag + d.macsecGrowth p else n
    some ⟨p, if p < 20 then 16 else form, id, len, t.edit.isSome, if signed then some (edSecOut e) else none, n,
      t.edit.isSome && (edBrs e || form == 4), if form == 8 then some (edProfile e) else none⟩

/-- The copy of an Ethernet contract on a port: tags kept, the R-TAG inserted or removed, MACsec added. -/
def Dev.ethOut (d : Dev) (r p : Nat) : OutForm :=
  let n := if rqRedund r == 1 && p < 4 then rqMax r + 6 else if rqRedund r == 2 then rqMax r - 6 else rqMax r
  ⟨p, 16, 0, max 64 n + d.macsecGrowth p, false, none, 0, false, none⟩

/-- Anvil looks up the route that a request with a field key names: what the read meets (R46, R130). -/
def Dev.routeRead (d : Dev) (r : Nat) : Dev :=
  if rqKeyType r == 1 then (d.route 0 (rqIngress r) (rqForm r) (rqId r)).1 else d

/-- The static route of a field key (R46), as Anvil knows it from the admission; no table is read. -/
def Dev.keyRoute (d : Dev) (r : Nat) : Option Nat :=
  ((setWays (routeSet (rqIngress r) (rqForm r) (rqId r))).map (fun i => d.tget 4 0 i)).find? (fun e =>
    rtValid e && rtId e == rqId r && rtPort e == rqIngress r && rtForm e == rqForm r)

/-- The network-port targets of a field key's route. -/
def Dev.keyTargets (d : Dev) (r : Nat) : List RTarget :=
  match d.keyRoute r with
  | none => []
  | some e =>
    if rtIsGroup e && !grValid (d.steEnt 3 (rtGroup e)) then []
    else (d.rtTargets e).filter (fun t => decide (t.target < 48))

/-- The copies of a contract's frames. -/
def Dev.outs (d : Dev) (r : Nat) : List OutForm :=
  if rqKeyType r == 1 then (d.keyTargets r).filterMap (fun t => d.fieldOut r t)
  else (bitsOf 20 (rqEgress r)).map (fun p => d.ethOut r p)

/-- The ingress ports that R84 test 1 allows. -/
def rqIngresses (r : Nat) : List Nat := (List.range 48).filter (fun p => ingressAllowed r p)

/-- The ingress ports that the request names (R60). -/
def rqNamed (r : Nat) : List Nat :=
  if rqKeyType r == 1 then [rqIngress r]
  else if rqRedund r == 2 then [rqIngress r, rqTwin r]
  else if rqIngress r < 20 then [rqIngress r] else []

/-- ⌈b / m⌉ frames of a burst. -/
def rqFrames (r : Nat) : Nat := ceilDiv (rqBurst r) (atLeastOne (rqMin r))

/-- A contract has an IEEE 802.1CB twin path (R61). -/
def rqHasTwin (r : Nat) : Bool := rqRedund r != 0

/-- A path of the contract crosses a port. -/
def rqCrosses (r p : Nat) : Bool := bit (rqEgress r) p || ingressAllowed r p

/-- The contract uses in-line authentication (R54). -/
def Dev.usesAuth (d : Dev) (r : Nat) : Bool := rqSecIn r != 0xFFFF || (d.outs r).any (fun o => o.sign.isSome)

/-! ### Device terms (R50, R51, R54) -/

/-- `RATE_FLOOR` of a port in Mbit/s. -/
def Dev.floorMbps (d : Dev) (p : Nat) : Nat := if p < 12 then rateMbps (d.get (F.ETH_RATE_FLOOR p)) else 10

/-- Ingress term of an Ethernet rate (Table PROM-6). -/
def ingressTerm (mbps : Nat) : Nat :=
  match mbps with
  | 25000 => 62 | 10000 => 75 | 5000 => 150 | 2500 => 270 | 1000 => 650 | _ => 5600

/-- The authentication term of a PDU of `n` bytes. -/
def authTerm (n : Nat) : Frac := frac (600 + 5 * ceilDiv (n - 64) 16) 4

/-- F: the device terms of a path. -/
def Dev.pathF (d : Dev) (r q : Nat) (o : OutForm) : Frac :=
  let p := o.port
  let fixed := (if q < 12 then ingressTerm (d.floorMbps q) else if q < 20 then 160 else 120) + 60 + 10 + 45 + 15
    + (if d.macsecOn q then 120 else 0) + (if d.macsecOn p then 120 else 0) + (if o.edited then 40 else 0)
    + (if p < 20 then egressTerm (d.floorMbps p) else 80)
  let verify := if rqSecIn r == 0xFFFF then Frac.nat 0 else authTerm (rqMax r)
  let generate := if o.sign.isSome then authTerm o.gen else Frac.nat 0
  ((Frac.nat fixed).plus verify).plus generate

/-- 1.15 × F. -/
def Dev.pathF115 (d : Dev) (r q : Nat) (o : OutForm) : Frac := (d.pathF r q o).times (frac 23 20)

/-- W: the cipher queue term of a path of contract `i` among the contracts `cs`. -/
def Dev.pathW (d : Dev) (cs : List (Nat × Nat)) (i r : Nat) (o : OutForm) : Nat :=
  if rqSecIn r == 0xFFFF && o.sign.isNone then 0
  else 10 * ((cs.filter (fun c => c.1 != i && d.usesAuth c.2)).map (fun c => rqFrames c.2)).sum

/-- S: the store and threshold term (R51). -/
def Dev.pathS (d : Dev) (r q : Nat) (o : OutForm) : Frac :=
  if 12 ≤ q then Frac.nat 0
  else
    let c := d.floorMbps q
    let t := d.get (F.FWD_CT_THRESH_THRESH q)
    let whole := d.macsecOn q || d.macsecOn o.port || t == 0 || decide (12 ≤ o.port)
      || decide (c < rateMbps (d.get (F.ETH_RATE_NOM o.port)))
    frac (((if whole then rqMax r else t) - 64) * 8 * 1000) c

/-- H: the hold time of a container on the path, in ns. -/
def Dev.pathH (d : Dev) (o : OutForm) : Nat :=
  match o.cont with
  | some c => coHoldOp (d.steEnt 5 c) * 1000
  | none => 0

/-! ### Gates of a class (R52, R53) -/

/-- What Anvil takes from a gate list: whether gates cycle at all, the open fraction, the longest closed interval, and the
shortest and longest open windows. -/
structure GateStat where
  en : Bool
  g : Frac
  closed : Nat
  wmin : Nat
  wmax : Nat
  deriving DecidableEq, Repr

/-- Intervals joined into runs of one gate state. -/
def gateRuns (tc : Nat) (l : List (Nat × Nat)) : List (Nat × Bool) :=
  l.foldr (fun x a =>
    if x.1 == 0 then a
    else match a with
      | (m, b) :: t => if b == bit x.2 tc then (x.1 + m, b) :: t else (x.1, bit x.2 tc) :: a
      | [] => [(x.1, bit x.2 tc)]) []

/-- Runs of a list that repeats: the last one goes on into the first. -/
def wrapRuns (l : List (Nat × Bool)) : List (Nat × Bool) :=
  match l, l.getLast? with
  | (n, b) :: x :: t, some (m, c) => if b == c then (n + m, b) :: (x :: t).dropLast else l
  | _, _ => l

/-- The figures of some runs. -/
def runStat (l : List (Nat × Bool)) : GateStat :=
  let opens := (l.filter (fun x => x.2)).map (fun x => x.1)
  let shut := (l.filter (fun x => !x.2)).map (fun x => x.1)
  ⟨true, frac opens.sum (opens.sum + shut.sum), shut.foldl max 0,
    match opens with
    | [] => 0
    | n :: t => t.foldl min n, opens.foldl max 0⟩

/-- The figures of one gate list. -/
def listStat (g : GateCfg) (l : List (Nat × Nat)) (tc : Nat) : GateStat :=
  if !g.en || g.len == 0 then ⟨false, Frac.nat 1, 0, 0, 0⟩
  else runStat (wrapRuns (gateRuns tc (gateSegs (atLeastOne g.cycle) l 0)))

/-- The worse of each figure. -/
def GateStat.worse (a b : GateStat) : GateStat :=
  ⟨a.en && b.en, a.g.smaller b.g, max a.closed b.closed, min a.wmin b.wmin, max a.wmax b.wmax⟩

/-- The spans of the old list from `t` to the change time. -/
def spansTo (span : Nat → Nat × Nat × Nat × Int) (ct : Nat) : Nat → Nat → List (Nat × Nat)
  | 0, _ => []
  | n + 1, t =>
    let x := span t
    if ct ≤ t || x.2.2.1 ≤ t then [] else (min ct x.2.2.1 - t, x.1) :: spansTo span ct n x.2.2.1

/-- The runs strictly inside a transition: those at its ends are parts of windows that the lists themselves show. -/
def innerRuns (l : List (Nat × Bool)) : List (Nat × Bool) := l.tail.dropLast

/-- The worse of some figures and those of a transition's runs, whose parts of windows at both ends set no shortest window. -/
def GateStat.over (s : GateStat) (l : List (Nat × Bool)) : GateStat :=
  s.worse { runStat l with wmin := (((innerRuns l).filter (fun x => x.2)).map (fun x => x.1)).foldl min s.wmin }

/-- The runs of a transition at `ct`. Where the old list keeps the gate open, its last windows end with their cycles (R53). -/
def transRuns (g : GateCfg) (old tr new : List (Nat × Nat)) (tc ct since : Nat) : List (Nat × Bool) :=
  let s := (cycleStart g (ct - 1)).toNat
  if bit (gateOpen (atLeastOne g.cycle) old) tc then
    (if ct - s ≤ g.ext ∧ ct - s ≠ g.cycle ∧ since < s then [(g.cycle + (ct - s), true)] else [(g.cycle, true), (ct - s, true)])
      ++ gateRuns tc new
  else gateRuns tc (tr ++ new)

/-- The figures of a class on a port: over the old list, the new one and the transition where a switchover pends. -/
def Dev.gateStat (d : Dev) (p tc : Nat) : GateStat :=
  if 12 ≤ p then ⟨false, Frac.nat 1, 0, 0, 0⟩
  else
    let g := d.gateOper p
    let old := d.gateList 6 p g.len
    let s := listStat g old tc
    if !d.flag (F.ETH_GATE_STATUS_PENDING p) then s
    else
      let a := d.gateAdmin p
      let new := d.gateList 5 p a.len
      let s1 := s.worse (listStat a new tc)
      if !g.en || !a.en then s1
      else
        let ct := d.get (F.ETH_GATE_CT_DTIME p)
        let t0 := (cycleStart g (ct - 1)).toNat - g.cycle
        let tr := spansTo (gateSpan g old (some ct) (d.ethPort p).gateAt) ct (3 * g.len + 6) t0
        s1.over (transRuns g old tr (gateSegs (atLeastOne a.cycle) new 0) tc ct (d.ethPort p).gateAt)

/-! ### Ethernet egress (R52, R53, R249) -/

/-- A contract's flow on an egress: which copy, its class, and its token parameters in ingress bytes, with 20 B and the
growth of the frame together (the growth itself may be negative). -/
structure Flow where
  who : Nat × Nat
  tc : Nat
  sched : Bool
  b : Nat
  k : Nat
  r : Nat
  m : Nat
  len : Nat
  extra : Nat
  deriving DecidableEq, Repr

/-- The flows of the contracts on a port. -/
def Dev.flowsOn (d : Dev) (cs : List (Nat × Nat)) (p : Nat) : List Flow :=
  cs.flatMap (fun c => ((d.outs c.2).zipIdx.filter (fun o => o.1.port == p)).map (fun o =>
    ⟨(c.1, o.2), rqTc c.2, rqClass c.2 == 1, rqBurst c.2, rqFrames c.2, rqRate c.2, rqMin c.2, o.1.len + 20,
      o.1.len + 20 - rqMax c.2⟩))

/-- Bytes that a frame of the flow gains in class `c`: 24 B more for an express frame seen from a preemptable class. -/
def Flow.gain (f : Flow) (c : Nat) : Nat := f.extra + (if c ≤ 5 && 6 ≤ f.tc then 24 else 0)

/-- b′ and r′ of a flow (r′ in kbit/s). -/
def Flow.burst (f : Flow) (c : Nat) : Nat := f.b + f.k * f.gain c
def Flow.rate (f : Flow) (c : Nat) : Frac := frac (f.r * (f.m + f.gain c)) f.m

/-- Shapers of a range of classes; none where one of them is unshaped. -/
def Dev.shapersOf (d : Dev) (p : Nat) : List Nat → Option (List (Nat × Nat))
  | [] => some []
  | tc :: l =>
    let s := d.shaperOper p tc
    if s.1 == 0xFFFFFFFF then none else (d.shapersOf p l).map (fun x => s :: x)

/-- T_block × C / 8: the blocking bytes of a class. -/
def Dev.blockBytes (d : Dev) (p c : Nat) (fl : List Flow) : Nat :=
  let largest := d.get (F.ETH_MAX_LEN_LEN p) + 20
  let rest := if bit (d.get (F.ETH_PREEMPT_OPER_DATA p)) 0 then 147 else largest
  if c ≤ 5 then largest
  else if c == 6 then rest
  else ((fl.filter (fun f => f.tc == 6)).map (fun f => f.len)).foldl max rest

/-- Q of a flow on a UP or GE egress, in ns. -/
def Dev.ethQueue (d : Dev) (p : Nat) (fl : List Flow) (me : Flow) : Except Refuse Frac :=
  let c := me.tc
  let kbps := d.floorMbps p * 1000
  let gs := d.gateStat p c
  let block := d.blockBytes p c fl
  if me.sched then
    let vol := ((fl.filter (fun f => f.sched && f.tc == c)).map (fun f => f.burst c)).sum
    if !gs.en || decide (d.floorMbps p * gs.wmin < (block + vol) * 8000) then .error ⟨rsnGate, p⟩
    else .ok (Frac.nat (gs.closed + gs.wmax))
  else
    let higher := fl.filter (fun f => decide (c < f.tc))
    let same := fl.filter (fun f => f.tc == c && f.who != me.who)
    match d.shapersOf p ((List.range 6).filter (fun h => decide (c < h))),
        d.shapersOf p ((List.range 6).filter (fun h => h == c)) with
    | some hs, some xs =>
      let hRate := Frac.sum (higher.map (fun f => f.rate c) ++ hs.map (fun s => Frac.nat s.1))
      let xRate := Frac.sum (same.map (fun f => f.rate c) ++ xs.map (fun s => Frac.nat s.1) ++ [me.rate c])
      let line := (Frac.nat kbps).times gs.g
      if line.leq (hRate.plus xRate) then .error ⟨rsnRate, p⟩
      else
        let hBytes := (higher.map (fun f => f.burst c)).sum + (hs.map (fun s => s.2)).sum
        let xBytes := (same.map (fun f => f.burst c)).sum + (xs.map (fun s => s.2)).sum
        let t := (Frac.nat gs.closed).plus (frac ((block + hBytes) * 8 * 1000000) kbps)
        .ok (t.plus ((Frac.nat ((xBytes + me.burst c - me.len) * 8 * 1000000)).over (line.minus hRate)))
    | _, _ => .error ⟨rsnRate, p⟩

/-! ### CAN egress (R55, R57) -/

/-- Nominal and data bit times of a controller in ns. -/
def Dev.tauN (d : Dev) (n : Nat) : Frac := frac (d.nomMtq n * 25) 2
def Dev.tauD (d : Dev) (n : Nat) : Frac := frac (d.dataMtq n * 25) 2

/-- The worst-case frame time (Table PROM-8). -/
def Dev.canTime (d : Dev) (n form s : Nat) (brs : Bool) : Frac :=
  let an := match form with
    | 0 => 8 * s + 47 + (33 + 8 * s) / 4
    | 1 => 8 * s + 67 + (53 + 8 * s) / 4
    | 2 => 33 | 3 => 58 | _ => 35
  let ad := match form with
    | 0 | 1 => 0
    | 2 | 3 => if s ≤ 16 then 10 * s + 34 else 10 * s + 39
    | _ => ceilDiv (11 * (8 * s + 120)) 10
  ((d.tauN n).times (Frac.nat an)).plus ((if brs then d.tauD n else d.tauN n).times (Frac.nat ad))

/-- A competitor on a CAN bus: arbitration key, frame time, period and jitter in ns. -/
structure Rival where
  key : Nat
  time : Frac
  period : Frac
  jitter : Frac
  deriving DecidableEq, Repr

/-- The ledger of a port, empty where none is loaded. -/
def Dev.ledger (d : Dev) (p : Nat) : List Nat := (SMap.get d.anvil.ledgers none p).getD []

/-- The ledger entries and the other contracts of a CAN port, but for copy `who`. -/
def Dev.rivals (d : Dev) (cs : List (Nat × Nat)) (p : Nat) (who : Nat × Nat) : List Rival :=
  (d.ledger p).map (fun e => ⟨arbKey (lgForm e) (lgId e), d.canTime (p - 20) (lgForm e) (lgLen e) (lgBrs e || lgForm e == 4),
      Frac.nat (lgPeriod e * 1000), Frac.nat (lgJitter e * 1000)⟩)
    ++ cs.flatMap (fun c => ((d.outs c.2).zipIdx.filter (fun o => o.1.port == p && (c.1, o.2) != who)).map (fun o =>
      ⟨arbKey o.1.form o.1.id, d.canTime (p - 20) o.1.form o.1.len o.1.brs, frac (8 * rqMin c.2 * 1000000) (rqRate c.2),
        (d.pathF115 c.2 (rqIngress c.2) o.1).plus (Frac.nat (d.pathW cs c.1 c.2 o.1))⟩))

/-- One pass of the iteration of R55. -/
def waitNext (base tau : Frac) (hp : List Rival) (w : Frac) : Frac :=
  hp.foldl (fun a j => a.plus (j.time.times (Frac.nat ((((w.plus j.jitter).plus tau).over j.period).ceil)))) base

/-- The iteration, until it converges; none above 1 s. -/
def waitIter (base tau : Frac) (hp : List Rival) : Nat → Frac → Option Frac
  | 0, _ => none
  | n + 1, w =>
    let x := waitNext base tau hp w
    if x == w then some w else if x.leq (Frac.nat 1000000000) then waitIter base tau hp n x else none

/-- The bus wait of a copy on a CAN egress. Every pass adds a frame time of more than 4 µs, so 2¹⁸ passes reach 1 s. -/
def Dev.canQueue (d : Dev) (cs : List (Nat × Nat)) (i k slot : Nat) (o : OutForm) : Except Refuse Frac :=
  let n := o.port - 20
  let key := arbKey o.form o.id
  let l := d.rivals cs o.port (i, slot)
  let own := d.canTime n o.form o.len o.brs
  let block := ((l.filter (fun x => decide (key < x.key))).map (fun x => x.time)).foldl Frac.larger (Frac.nat 0)
  let base := block.plus (own.times (Frac.nat (k - 1)))
  match waitIter base (d.tauN n) (l.filter (fun x => decide (x.key ≤ key))) (2 ^ 18) base with
  | some w => .ok w
  | none => .error ⟨rsnBound, o.port⟩

/-- The identifiers that best-effort routes and images send on a CAN port: form and identifier. -/
def Dev.beIds (d : Dev) (cs : List (Nat × Nat)) (p : Nat) : List (Nat × Nat) :=
  let routes := (d.tbl.filter (fun x => x.1 / 2 ^ 24 == 8 && rtValid x.2
    && !cs.any (fun c => rqKeyType c.2 == 1 && rqIngress c.2 == rtPort x.2 && rqForm c.2 == rtForm x.2 && rqId c.2 == rtId x.2))).map (fun x => x.2)
  let images := ((d.tbl.filter (fun x => x.1 / 2 ^ 24 == steMem 0 * 2)).map (fun x => x.2)).filter (fun e =>
    imValid e && imMode e != 0 && imPort e == p && decide (imForm e ≤ 4))
  routes.flatMap (fun e => ((d.rtTargets e).filter (fun t => t.target == p)).map (fun t => d.targetForm t (rtForm e) (rtId e)))
    ++ images.map (fun e => (imForm e, imId e))

/-- A best-effort identifier without a DEVICE_SENT entry precedes a contract on the port (R57, UNBOUNDED_HP). -/
def Dev.unboundedHp (d : Dev) (cs : List (Nat × Nat)) (p : Nat) : Bool :=
  let keys := cs.flatMap (fun c => ((d.outs c.2).filter (fun o => o.port == p)).map (fun o => arbKey o.form o.id))
  (d.beIds cs p).any (fun x => decide (x.1 ≤ 4) && keys.any (fun k => decide (arbKey x.1 x.2 ≤ k))
    && !(d.ledger p).any (fun e => lgDeviceSent e && lgForm e == x.1 && lgId e == x.2))

/-! ### LIN and T1S egress (R56) -/

/-- Lengths of the slots of a schedule table in time-base units, with whether each carries an identifier, up to the end of
the table. -/
def Dev.tableSlots (d : Dev) (n t id : Nat) : Nat → Nat → List (Nat × Bool)
  | 0, _ => []
  | k + 1, i =>
    let e := d.slotEnt n t i
    if lsDir e == 3 then []
    else (atLeastOne (lsDelay e), lsId e == id && lsDir e == 0) :: d.tableSlots n t id k (i + 1)

/-- The longest interval between two carrying slots of a table that repeats; 0 where it carries none. `run` is the time
since the last carrying slot, `head` the time before the first one. -/
def carryGap : List (Nat × Bool) → Option Nat → Nat → Nat → Nat
  | [], none, _, _ => 0
  | [], some head, run, best => max best (run + head)
  | (n, true) :: l, none, run, best => carryGap l (some run) n best
  | (n, true) :: l, some h, run, best => carryGap l (some h) n (max best run)
  | (n, false) :: l, h, run, best => carryGap l h (run + n) best

/-- The bus wait on a LIN egress, in ns. -/
def Dev.linQueue (d : Dev) (o : OutForm) : Except Refuse Frac :=
  let n := o.port - 40
  if d.flag (F.LIN_CTRL_ROLE n) then
    let tables := bitsOf 8 (d.get (F.LIN_SCHED_ACTIVATABLE n))
    let gap := (tables.map (fun t => carryGap (d.tableSlots n t o.id 64 0) none 0 0)).foldl max 0
    if gap == 0 then .error ⟨rsnClassPort, o.port⟩
    else .ok (Frac.nat (gap * d.get (F.LIN_TBASE_TBASE_US n) * 1000))
  else
    match (d.ledger o.port).find? (fun e => lgForm e == 5 && lgId e == o.id) with
    | some e => .ok (Frac.nat ((lgPeriod e + lgJitter e) * 1000))
    | none => .error ⟨rsnLedger, o.port⟩

/-- The bus wait on a T1S egress, in ns. -/
def Dev.t1sQueue (d : Dev) (k p : Nat) : Nat :=
  let own := (1 + d.get (F.ETH_PLCA_TIMERS_MAX_BC p)) * (d.get (F.ETH_MAX_LEN_LEN p) + 20) * 800
  let nodes := ((d.ledger p).map (fun e => (1 + lgPeriod e % 256) * (lgLen e + 20) * 800)).sum
  (k + 1) * (nodes + own + d.get (F.ETH_PLCA_CFG_NODE_COUNT p) * d.get (F.ETH_PLCA_TIMERS_TO_TIMER p) * 100)

/-! ### Bounds (R50) -/

/-- The bound of one path: contract `i` of the contracts `cs`, ingress `q`, its `slot`-th copy. -/
def Dev.pathBound (d : Dev) (cs : List (Nat × Nat)) (i r q slot : Nat) (o : OutForm) : Except Refuse Nat :=
  let p := o.port
  let queue : Except Refuse Frac :=
    if p < 12 then
      let fl := d.flowsOn cs p
      match fl.find? (fun f => f.who == (i, slot)) with
      | some me => d.ethQueue p fl me
      | none => .ok (Frac.nat 0)
    else if p < 20 then .ok (Frac.nat (d.t1sQueue (rqFrames r) p))
    else if p < 40 then d.canQueue cs i (rqFrames r) slot o
    else d.linQueue o
  match queue with
  | .error e => .error e
  | .ok x =>
    let b := ((d.pathF115 r q o).plus (d.pathS r q o)).plus (x.plus (Frac.nat (d.pathW cs i r o + d.pathH o)))
    .ok (8 * ceilDiv b.ceil 8)

/-- The largest bound of some paths with its egress port. -/
def Dev.boundOver (d : Dev) (cs : List (Nat × Nat)) (i r : Nat) : List (Nat × Nat × OutForm) → Nat × Nat → Except Refuse (Nat × Nat)
  | [], best => .ok best
  | (q, slot, o) :: l, best =>
    match d.pathBound cs i r q slot o with
    | .error e => .error e
    | .ok b => d.boundOver cs i r l (if best.1 < b then (b, o.port) else best)

/-- The computed bound of a contract and its binding port, or why it has none. -/
def Dev.bound (d : Dev) (cs : List (Nat × Nat)) (i r : Nat) : Except Refuse (Nat × Nat) :=
  let paths := (d.outs r).zipIdx.flatMap (fun o => (rqIngresses r).map (fun q => (q, o.2, o.1)))
  d.boundOver cs i r paths (0, 0xFF)

/-- The admitted contracts as Anvil's model takes them: index and request. -/
def Dev.requests (d : Dev) : List (Nat × Nat) := d.admitted.map (fun c => (c.1, c.2.req))

/-- The current computed bound of an admitted contract and its binding port; 0xFFFF_FFFF where none is finite. -/
def Dev.currentBound (d : Dev) (i r : Nat) : Nat × Nat :=
  match d.bound d.requests i r with
  | .ok x => x
  | .error e => (0xFFFFFFFF, e.port)

/-- The first admitted contract that `cs` pushes over its residence bound: index, the contract, its bound, its binding
port (R44, R59). -/
def Dev.broken (d : Dev) (cs : List (Nat × Nat)) : Option (Nat × Contract × Nat × Nat) :=
  d.admitted.findSome? (fun c =>
    match d.bound cs c.1 c.2.req with
    | .ok (b, p) => if b ≤ c.2.bound then none else some (c.1, c.2, b, p)
    | .error e => some (c.1, c.2, 0xFFFFFFFF, e.port))

/-! ### What a contract's path uses (R60, R470) -/

/-- The power domains of a port: controller, line side, pipeline. -/
def portDomains (p : Nat) : List Nat := [portDomain p, if pipeB p then 3 else 2] ++ (if lineDomain p == 0 then [] else [lineDomain p])

/-- Domain `n` holds a block of an admitted contract's path. -/
def Dev.usesDomain (d : Dev) (r n : Nat) : Bool :=
  (bitsOf 48 (rqEgress r) ++ rqNamed r).any (fun p => (portDomains p).contains n)
    || (n == 8 && d.usesAuth r) || (n == 7 && (d.outs r).any (fun o => o.edited))

/-- A port of a path that cannot serve it: off, disabled, isolated, or its segment not AWAKE (PORT_STATE). -/
def Dev.portOut (d : Dev) (p : Nat) : Bool :=
  !d.portUp p || !d.awake p
    || (if p < 20 then !d.flag (F.ETH_MAC_CFG_EN p) || d.isolated (blkEth p)
        else if p < 40 then d.canInit (p - 20)
        else d.flag (F.LIN_CTRL_INIT (p - 40)) || d.isolated (blkLin (p - 40)))

/-- Crucible or the STE, where the path uses it, is off or isolated (R470). -/
def Dev.engineOut (d : Dev) (r : Nat) : Bool :=
  (d.usesAuth r && (!d.ready 8 || d.isolated blkCry))
    || ((d.outs r).any (fun o => o.edited) && (!d.ready 7 || d.isolated blkSte))

/-- The slots of the channels that a contract uses (R54). -/
def Dev.slotsOf (d : Dev) (r : Nat) : List Nat :=
  ((if rqSecIn r == 0xFFFF then [] else [rqSecIn r]) ++ (d.outs r).filterMap (fun o => o.sign)).map (fun c => chSlot (d.chan c))

/-- Crucible jobs per second of a contract times 2⁰: r / (8 m) per verify and generate (R54). -/
def Dev.jobRate (d : Dev) (r : Nat) : Frac :=
  let jobs := (if rqSecIn r == 0xFFFF then 0 else 1) + ((d.outs r).filter (fun o => o.sign.isSome)).length
  frac (jobs * rqRate r * 1000) (8 * atLeastOne (rqMin r))

/-! ### Requests (R37, R38, R42, R46, R58) -/

/-- A malformed request (R42): a reserved code point or port, or a value outside its range. -/
def badRequest (r : Nat) : Bool :=
  rq r 0 1 != 1 || decide (1 < rqClass r) || decide (1 < rqKeyType r) || decide (5 < rqForm r) || decide (2 < rqRedund r)
    || rqEgress r == 0 || decide (2 ^ 48 ≤ rqEgress r) || rqRate r == 0 || decide (rqBurst r < rqMax r)
    || rqMin r == 0 || decide (rqMax r < rqMin r) || (decide (1023 < rqSecIn r) && rqSecIn r != 0xFFFF)
    || (rqRedund r != 2 && rqTwin r != 0xFF)
    || (if rqKeyType r == 1 then decide (rqIngress r < 20) || decide (47 < rqIngress r)
        else rqRedund r != 2 && rqIngress r != 0xFF && (decide (19 < rqIngress r) || bit (rqEgress r) (rqIngress r)))

/-- Two requests share a flow key (R46). -/
def sameKey (a b : Nat) : Bool :=
  rqKeyType a == rqKeyType b &&
    (if rqKeyType a == 1 then rqIngress a == rqIngress b && rqForm a == rqForm b && rqId a == rqId b
     else rqDa a == rqDa b && rqVid a == rqVid b)

/-- The first port of a list that satisfies `f` gives a refusal. -/
def refuseAt (reason : Nat) (l : List Nat) (f : Nat → Bool) : Option Refuse := (l.find? f).map (fun p => ⟨reason, p⟩)

/-- REDUND against the ports named (TWIN). -/
def badTwin (r : Nat) : Bool :=
  (rqRedund r == 1 && popCount 4 (rqEgress r) != 2)
    || (rqRedund r == 2 && (decide (3 < rqIngress r) || decide (3 < rqTwin r) || rqIngress r == rqTwin r))

/-- Class, TC and port modes against the egress set (R37, R38, Table PROM-2, R260); T1S counts as a field egress. -/
def Dev.badClass (d : Dev) (r : Nat) : Option Refuse :=
  let ports := bitsOf 48 (rqEgress r)
  let eth := ports.filter (fun p => decide (p < 12))
  let field := ports.filter (fun p => decide (12 ≤ p))
  let tcOk := if eth.isEmpty then rqTc r == 0 else decide (2 ≤ rqTc r) && decide (rqTc r ≤ (if rqClass r == 0 then 7 else 6))
  if rqKeyType r == 0 && field.any (fun p => decide (20 ≤ p)) then refuseAt rsnClassPort field (fun p => decide (20 ≤ p))
  else if rqClass r == 1 && !field.isEmpty then some ⟨rsnClassPort, field.headD 0xFF⟩
  else if !tcOk then some ⟨rsnClassPort, ports.headD 0xFF⟩
  else refuseAt rsnClassPort ports (fun p => (decide (p < 12) && d.flag (F.ETH_STEP_CFG_LPI_EN p))
    || (decide (12 ≤ p) && decide (p < 20) && !d.flag (F.ETH_PLCA_CFG_EN p)))

/-- MAX_FRAME against MAX_LEN of the ports (R240), on ingress and in egress form. -/
def Dev.badLength (d : Dev) (r : Nat) : Option Refuse :=
  (refuseAt rsnClassPort ((rqIngresses r).filter (fun p => decide (p < 20))) (fun p =>
    decide (d.get (F.ETH_MAX_LEN_LEN p) < rqMax r))).orElse (fun _ =>
  ((d.outs r).find? (fun o => decide (o.port < 20) && decide (d.get (F.ETH_MAX_LEN_LEN o.port) < o.len))).map (fun o =>
    ⟨rsnClassPort, o.port⟩))

/-- The route of a field key against the request (R46), and its containers against the contract's class (R182). -/
def Dev.badRoute (d : Dev) (r : Nat) : Option Refuse :=
  if rqKeyType r == 0 then none
  else
    match (d.route 0 (rqIngress r) (rqForm r) (rqId r)).2 with
    | none => some ⟨rsnRoute, rqIngress r⟩
    | some (_, e) =>
      let ts := d.keyTargets r
      let set := ts.foldl (fun a t => a ||| 2 ^ t.target) 0
      let chan := if rtSecInEn e then rtSecIn e else 0xFFFF
      -- a group that is not valid discards the route's copies toward every port of the egress set
      if chan != rqSecIn r then some ⟨rsnRoute, rqIngress r⟩
      else if rtIsGroup e && !grValid (d.steEnt 3 (rtGroup e)) then some ⟨rsnRoute, (bitsOf 48 (rqEgress r)).headD (rqIngress r)⟩
      else if set != rqEgress r then some ⟨rsnRoute, rqIngress r⟩
      else
        match ts.find? (fun t => (d.fieldOut r t).isNone) with
        | some t => some ⟨rsnRoute, t.target⟩
        | none =>
          ((d.outs r).find? (fun o => match o.cont with
            | some c => coTc (d.steEnt 5 c) != rqTc r || coEgress (d.steEnt 5 c) != o.port
            | none => false)).map (fun o => ⟨rsnClassPort, o.port⟩)

/-- The ports a request names. -/
def rqPorts (r : Nat) : List Nat := rqNamed r ++ bitsOf 48 (rqEgress r)

/-- A port runs below its nominal rate. -/
def Dev.steppedDown (d : Dev) (p : Nat) : Bool :=
  decide (p < 12) && decide (rateMbps (d.get (F.ETH_RATE_CUR p)) < rateMbps (d.get (F.ETH_RATE_NOM p)))

/-- The stepped-down ports that a request without a twin path crosses (R62). -/
def Dev.slowPorts (d : Dev) (r : Nat) : List Nat :=
  if rqHasTwin r then [] else (List.range 12).filter (fun p => rqCrosses r p && d.steppedDown p)

/-- The refusals that need no bound, in the model's order (Table PROM-10, log 23). -/
def Dev.earlyRefusal (d : Dev) (r : Nat) : Option Refuse :=
  let cs := d.requests
  let ports := bitsOf 48 (rqEgress r)
  let pick (l : List (Option Refuse)) : Option Refuse := l.findSome? id
  pick [
    if 1000000000 < rqBound r then some ⟨rsnBoundRange, 0xFF⟩ else none,
    if cs.any (fun c => sameKey c.2 r) then some ⟨rsnKeyExists, 0xFF⟩ else none,
    if 4096 ≤ d.anvil.contracts.length then some ⟨rsnFull, 0xFF⟩ else none,
    if badTwin r then some ⟨rsnTwin, 0xFF⟩ else none,
    d.badClass r, d.badRoute r, d.badLength r,
    refuseAt rsnPortState (rqPorts r) d.portOut,
    if d.engineOut r then some ⟨rsnPortState, ports.headD 0xFF⟩ else none,
    (d.slowPorts r).head?.map (fun p => ⟨rsnSteppedDown, p⟩),
    refuseAt rsnLedger (ports.filter (fun p => decide (12 ≤ p))) (fun p => (SMap.get d.anvil.ledgers none p).isNone),
    if rqTc r == 7 then refuseAt rsnExpress (ports.filter (fun p => decide (p < 12))) (fun p =>
      decide (16 ≤ (cs.filter (fun c => rqTc c.2 == 7 && bit (rqEgress c.2) p)).length)) else none,
    if 64 < (d.slotsOf r ++ d.anvil.pinned).eraseDups.length then some ⟨rsnKeyPin, 0xFF⟩ else none,
    if !(Frac.sum (d.jobRate r :: cs.map (fun c => d.jobRate c.2))).leq (Frac.nat 80000000) then some ⟨rsnCrypto, 0xFF⟩ else none,
    refuseAt rsnRate (ports.filter (fun p => decide (20 ≤ p) && decide (p < 40))) (fun p => d.unboundedHp (cs ++ [(4096, r)]) p)]

/-! ### Reservations (R47, R113, R115) -/

/-- b + r·D/8 with D = `bound` ns, as a fraction of bytes; `r` in kbit/s. -/
def volume (r b bound : Nat) : Frac := (Frac.nat b).plus (frac (r * bound) 8000000)

/-- n: frame handles. -/
def rqHandles (r bound : Nat) : Nat := ((volume (rqRate r) (rqBurst r) bound).over (Frac.nat (rqMin r))).ceil + 1

/-- c: cells. -/
def rqCells (r bound : Nat) : Nat := ((volume (rqRate r) (rqBurst r) bound).over (Frac.nat 128)).ceil + rqHandles r bound

/-- The halves that hold an allowed ingress port, as bits. -/
def rqHalves (r : Nat) : Nat :=
  b2n ((rqIngresses r).any (fun p => !pipeB p)) + 2 * b2n ((rqIngresses r).any pipeB)

/-- c′: the container reservations. -/
def Dev.rqConts (d : Dev) (r bound : Nat) : List ContRsv :=
  let grow := (frac (rqRate r * bound) 8000000).times (frac (rqMin r + 6) (rqMin r))
  let cells := (((Frac.nat (rqBurst r + 6 * rqFrames r)).plus grow).over (Frac.nat 128)).ceil + 1
  (d.outs r).filterMap (fun o => o.cont.map (fun c => ⟨b2n (pipeB o.port), c, cells, 0⟩))

/-- Cells that a contract reserves in a half. -/
def halfCells (c halves : Nat) (conts : List ContRsv) (half : Nat) : Nat :=
  (if bit halves half then c else 0) + ((conts.filter (fun k => k.half == half)).map (fun k => k.cells)).sum

/-- The reserved handles, and the reserved cells of a half (`RSV_HANDLES`, `RSV_CELLS`). -/
def Dev.rsvHandles (d : Dev) : Nat := (d.admitted.map (fun c => c.2.handles)).sum
def Dev.rsvCells (d : Dev) (half : Nat) : Nat := (d.admitted.map (fun c => halfCells c.2.rsvC c.2.halves c.2.conts half)).sum

/-- The contract that a request would be, with its reservations. -/
def Dev.newContract (d : Dev) (r bound : Nat) : Contract :=
  let c := rqCells r bound
  let conts := d.rqConts r bound
  let halves := rqHalves r
  ⟨r, bound, rqHandles r bound, c, halves, halfCells c halves conts 0 + halfCells c halves conts 1, conts, false,
    8 * rqBurst r * 102400000, d.now, Meas.init, 0, [], none, d.now, d.now, false, false⟩

/-- The refusals of the reservations. -/
def Dev.lateRefusal (d : Dev) (k : Contract) : Option Refuse :=
  let r := k.req
  let e := k.entries
  let lins := (d.outs r).filter (fun o => decide (40 ≤ o.port))
  let pick (l : List (Option Refuse)) : Option Refuse := l.findSome? id
  pick [
    refuseAt rsnHandles ((bitsOf 48 (rqEgress r)).filter (fun p => decide (20 ≤ p) && decide (p < 40))) (fun p =>
      decide (56 < d.heapReserved p + e)),
    (lins.find? (fun o => decide (4 < d.slotReserved o.port o.id + e))).map (fun o => ⟨rsnHandles, o.port⟩),
    if 49152 < d.rsvHandles + k.handles then some ⟨rsnHandles, 0xFF⟩ else none,
    if 36864 < d.rsvCells 0 + halfCells k.rsvC k.halves k.conts 0
        || 36864 < d.rsvCells 1 + halfCells k.rsvC k.halves k.conts 1 then some ⟨rsnCells, 0xFF⟩ else none]

/-! ### The answer to ADMIT and PROBE -/

/-- What Anvil decides about a request. -/
inductive Verdict where
  /-- Accepted, with the computed bound and the binding port. -/
  | accept (k : Contract) (comp port : Nat)
  /-- Refused: reason, port, the best bound, and the contract that would break. -/
  | refuse (x : Refuse) (best other : Nat)
  deriving DecidableEq, Repr

/-- Anvil evaluates a request (R44 to R58). -/
def Dev.evaluate (d : Dev) (r : Nat) : Verdict :=
  match d.earlyRefusal r with
  | some x =>
    let best := if x.reason == rsnBoundRange then
        (match d.bound (d.requests ++ [(4096, r)]) 4096 r with
          | .ok (b, _) => b
          | .error _ => 0xFFFFFFFF)
      else 0xFFFFFFFF
    .refuse x best 0xFFFF
  | none =>
    let cs := d.requests ++ [(4096, r)]
    match d.bound cs 4096 r with
    | .error x => .refuse x 0xFFFFFFFF 0xFFFF
    | .ok (comp, port) =>
      if rqBound r != 0 && decide (rqBound r < comp) then .refuse ⟨rsnBound, port⟩ comp 0xFFFF
      else
        let k := d.newContract r (if rqBound r == 0 then comp else rqBound r)
        match d.lateRefusal k with
        | some x => .refuse x comp 0xFFFF
        | none =>
          match d.broken cs with
          | some (i, _, _, p) => .refuse ⟨rsnBreaks, p⟩ comp i
          | none => .accept k comp port

/-- An answer block (Table PROM-5). -/
def answer (result reason index comp bound port other handles cells tag : Nat) : List Byte :=
  leBytes 1 result ++ leBytes 1 reason ++ leBytes 2 index ++ leBytes 4 comp ++ leBytes 4 bound ++ leBytes 1 port
    ++ leBytes 1 0 ++ leBytes 2 other ++ leBytes 2 handles ++ leBytes 2 cells ++ leBytes 4 tag ++ leBytes 8 0

/-- The lowest index that no contract holds (R45). -/
def Dev.freeIndex (d : Dev) : Nat := lowFree 0 d.anvil.contracts

/-- The stream entry of an Ethernet contract (Table TBL-4). -/
def streamEntry (r i : Nat) : Nat := rqDa r + rqVid r * 2 ^ 48 + 2 ^ 63 + i * 2 ^ 64 + rqEgress r * 2 ^ 128

/-- The commit point of an ADMIT: contract, stream entry, pinned keys (R41, R46, R54). -/
def Dev.commitAdmit (d : Dev) (i : Nat) (k : Contract) : Dev :=
  let d1 := (d.slotsOf k.req).foldl (fun d s => d.pinKey s) (d.setContract i (some k))
  if rqKeyType k.req == 0 then d1.entryWrite 3 i (streamEntry k.req i) else d1

/-- A key that no admitted contract uses any more is unpinned. -/
def Dev.unpinUnused (d : Dev) (s : Nat) : Dev := if d.requests.any (fun c => (d.slotsOf c.2).contains s) then d else d.unpinKey s

/-- A frame, or an open container, is still stamped under a contract (R45). -/
def Dev.stamped (d : Dev) (i : Nat) : Bool :=
  d.stored.any (fun f => f.owners.contains i || f.charges.any (fun c => c.1 == i))
    || d.ste.conts.any (fun c => match c.2 with
      | some k => k.contracts.contains i
      | none => false)

/-- The removal of a contract (R49): in quarantine while a frame stamped under it remains. -/
def Dev.commitWithdraw (d : Dev) (i : Nat) (k : Contract) : Dev :=
  let slots := d.slotsOf k.req
  let d1 := d.setContract i (if d.stamped i then some { k with quar := true } else none)
  let d2 := if rqKeyType k.req == 0 then d1.entryWrite 3 i 0 else d1
  slots.foldl (fun d s => d.unpinUnused s) d2

/-! ### Running operations of ring 56 -/

/-- Anvil's running operation of an opcode. -/
def Dev.anvilOp (d : Dev) (opcode : Nat) : Option Op := d.running 56 [opcode]

/-- The operation ends after `n` contracts were re-evaluated (R41, log 8). -/
def Dev.anvilEnd (d : Dev) (o : Op) (n : Nat) (st : OpState) (err : Nat) : Dev :=
  d.finish { o with progress := n, partialCnt := 0 } st err

/-- A stop request ends the operation ABORTED before its commit point, at the end of the first contract re-evaluated where
there is one (R48); nothing is committed. -/
def Dev.anvilAbort (d : Dev) (o : Op) : Dev := d.anvilEnd o (min 1 d.admitted.length) .aborted errAborted

/-- Contracts re-evaluated for a verdict: all admitted ones where the others' bounds were tested, none where the request was
refused for itself (R41, log 8). -/
def Dev.reevaluated (d : Dev) : Verdict → Nat
  | .accept _ _ _ => d.admitted.length
  | .refuse x _ _ => if x.reason == rsnBreaks then d.admitted.length else 0

/-- ADMIT, or PROBE, which commits nothing (R39, R41). -/
def Dev.admitOrProbe (d : Dev) (o : Op) (commit : Bool) : Dev :=
  let r := leNat (d.hostRead o.param 64)
  let out (d : Dev) (a : List Byte) : Dev := d.hostWrite (o.param + 64) a
  if badRequest r then d.opFail o errFormat
  else if o.stop then d.anvilAbort o
  else
    let n := d.reevaluated (d.evaluate r)
    let d0 := d.routeRead r
    match d.evaluate r with
    | .accept k comp port =>
      let i := d.freeIndex
      let d1 := if commit then d0.commitAdmit i k else d0
      (out d1 (answer 0 0 (if commit then i else 0xFFFF) comp k.bound port 0xFFFF k.handles k.cells (rqTag r))).anvilEnd o n .done errOk
    | .refuse x best other =>
      let d1 := if commit && x.reason == rsnSteppedDown then
          (d.slowPorts r).foldl (fun d p => d.setEthPort p { d.ethPort p with upReq := true }) d0
        else d0
      (out d1 (answer 1 x.reason 0xFFFF best 0 x.port other 0 0 (rqTag r))).anvilEnd o n .failed errRefused

/-- The answer block about an admitted contract (WITHDRAW, READ_CONTRACT). -/
def Dev.contractAnswer (d : Dev) (i : Nat) (k : Contract) : List Byte :=
  let (b, p) := d.currentBound i k.req
  answer 0 0 i b k.bound p 0xFFFF k.handles k.cells (rqTag k.req)

/-- The contract that a parameter block of WITHDRAW or READ_CONTRACT names. -/
def Dev.namedContract (d : Dev) (o : Op) : Option (Nat × Contract) :=
  let i := leNat (d.hostRead o.param 2)
  d.admitted.find? (fun c => c.1 == i)

/-- A segment of a contract's path is not AWAKE. -/
def Dev.pathAsleep (d : Dev) (r : Nat) : Bool := (rqPorts r).any (fun p => !d.awake p)

/-- A measurement record (Table PROM-12). -/
def Dev.measRecord (d : Dev) (i : Nat) : List Byte :=
  match d.contract i with
  | none => leBytes 2 i ++ leBytes 126 0
  | some k =>
    let fl := b2n (!k.quar) + 2 * b2n k.quar + 4 * b2n (d.pathAsleep k.req)
    let m := k.meas
    leBytes 2 i ++ leBytes 1 fl ++ leBytes 1 0 ++ leBytes 4 m.maxRes ++ leBytes 4 k.bound
      ++ leBytes 4 (d.currentBound i k.req).1 ++ leBytes 8 m.measured ++ leBytes 4 m.breaches ++ leBytes 4 m.excused
      ++ leBytes 4 m.late ++ leBytes 4 m.police ++ leBytes 8 m.maxAt ++ (m.bins.flatMap (leBytes 4)) ++ leBytes 16 0

/-- First index and count of a measurement operation. DESIGN CHOICE (log 8): a range that runs past index 4,095 is malformed;
R39 gives the range of the count only. -/
def Dev.measRange (d : Dev) (o : Op) : Option (Nat × Nat) :=
  let first := leNat (d.hostRead o.param 2)
  let n := leNat (d.hostRead (o.param + 2) 2)
  if n == 0 || 4096 < n || 4096 < first + n then none else some (first, n)

/-! ### Changes (R59 to R61, R243, R250) -/

/-- Fields of a CHANGE record (Table PROM-11). -/
def Dev.chgType (d : Dev) (o : Op) : Nat := leNat (d.hostRead o.param 1)
def Dev.chgTarget (d : Dev) (o : Op) : Nat := leNat (d.hostRead (o.param + 2) 2)
def Dev.chgValue (d : Dev) (o : Op) : Nat := leNat (d.hostRead (o.param + 4) 4)
def Dev.chgAddr (d : Dev) (o : Op) : Nat := leNat (d.hostRead (o.param + 8) 8)
def Dev.chgCount (d : Dev) (o : Op) : Nat := leNat (d.hostRead (o.param + 16) 2)

/-- The running CHANGE of a type. -/
def Dev.change (d : Dev) (type : Nat) : Option Op :=
  match d.anvilOp 4 with
  | some o => if d.chgType o == type then some o else none
  | none => none

/-- The answer of a change that Anvil applies names the port; `n` contracts were re-evaluated. -/
def Dev.chgApplied (d : Dev) (o : Op) (port n : Nat) : Dev :=
  (d.hostWrite (o.param + 32) (answer 0 0 0xFFFF 0 0 port 0xFFFF 0 0 0)).anvilEnd o n .done errOk

/-- A change that Anvil applies after every contract was re-evaluated. -/
def Dev.chgDone (d : Dev) (o : Op) (port : Nat) : Dev := d.chgApplied o port d.admitted.length

/-- A change that Anvil refuses for itself. -/
def Dev.chgRefuse (d : Dev) (o : Op) (x : Refuse) : Dev :=
  (d.hostWrite (o.param + 32) (answer 1 x.reason 0xFFFF 0 0 x.port 0xFFFF 0 0 0)).anvilEnd o 0 .failed errRefused

/-- A change refused for a contract: the bound named and its residence bound; `n` contracts were re-evaluated. -/
def Dev.chgAgainst (d : Dev) (o : Op) (x : Nat × Contract × Nat × Nat) (n : Nat) : Dev :=
  (d.hostWrite (o.param + 32) (answer 1 rsnBreaks 0xFFFF x.2.2.1 x.2.1.bound x.2.2.2 x.1 0 0 0)).anvilEnd o n .failed errRefused

/-- A change refused because a contract would exceed its residence bound under it (R59). -/
def Dev.chgBreaks (d : Dev) (o : Op) (x : Nat × Contract × Nat × Nat) : Dev := d.chgAgainst o x d.admitted.length

/-- A change refused because a contract uses what it would take away (R60). -/
def Dev.chgInUse (d : Dev) (o : Op) (i : Nat) (k : Contract) : Dev :=
  let (b, p) := d.currentBound i k.req
  d.chgAgainst o (i, k, b, p) 0

/-- A change is evaluated in the device `d1` it would make, and makes `d2` where every contract stays within its bound. -/
def Dev.guarded (d : Dev) (o : Op) (port : Nat) (d1 d2 : Dev) : Dev :=
  if o.stop then d.anvilAbort o
  else
    match d1.broken d1.requests with
    | some x => d.chgBreaks o x
    | none => d2.chgDone o port

/-- A rate in Mbit/s as a code of a UP or GE port. -/
def rateCode (p mbps : Nat) : Option Nat := (portCodes p).find? (fun c => rateMbps c == mbps)

/-- A step-down below CUR (R61): the contract whose path crosses the link without a twin, or one that would not fit. -/
inductive StepTest where
  | ok
  | noTwin
  | breaks (x : Nat × Contract × Nat × Nat)
  deriving DecidableEq, Repr

/-- Anvil's test of a rate step of port `p` to a code. -/
def Dev.stepTest (d : Dev) (p code : Nat) : StepTest :=
  if d.requests.any (fun c => rqCrosses c.2 p && !rqHasTwin c.2) then .noTwin
  else
    let d1 := if code < d.get (F.ETH_RATE_FLOOR p) then d.set (F.ETH_RATE_FLOOR p) code else d
    match d1.broken d1.requests with
    | some x => .breaks x
    | none => .ok

/-- A step that R61 refuses is counted. -/
def Dev.stepRefused (d : Dev) : Dev := d.inc F.ANVIL_STEP_REFUSED_COUNT

/-- A malformed ledger entry (Table PROM-9, R57). -/
def badLedgerEntry (p e : Nat) : Bool :=
  let id := bf e 0 32
  let form := lgForm e
  let fl := bf e 40 8
  if p < 20 then form != 6 || decide (255 < id) || fl != 0 || decide (255 < lgPeriod e) || lgJitter e != 0
  else
    decide (2 ^ 29 ≤ id) || decide (8 ≤ fl) || lgPeriod e == 0
      || (if p < 40 then decide (4 < form) || bit fl 1 || (bit fl 2 && !(form == 2 || form == 3)) else form != 5 || bit fl 2)

/-- CHANGE type 5 (R248): the staged configuration becomes operational and preemption starts again. -/
def Dev.applyPreempt (d : Dev) (p : Nat) : Dev :=
  let x := d.reg (R.ETH_PREEMPT_STAGED p)
  let stepping := d.get (F.ETH_STEP_STATUS_STATE p) == 4
  let d1 := ((d.set (F.ETH_PREEMPT_OPER_DATA p) x).set (F.ETH_PREEMPT_STATUS_ACTIVE p) 0).set
    (F.ETH_PREEMPT_STATUS_VERIFY_STATE p) (if bit x 0 && !bit x 1 then 1 else 0)
  if !d1.flag (F.ETH_STATUS_LINK p) || stepping then d1
  else
    let d2 := (d1.set (F.ETH_STATUS_RETRAINING p) 0).preemptStart p
    if d2.flag (F.ETH_STATUS_RETRAINING p) then d2.flushPort p true else d2

end Sys2Proof.Machine
end

