-- ==== Sys2Proof/Machine/LoadOps.lean ====
section
/-!
DEFINITION. The load channels (chapter 13): commands and turn-ons, deferral, trips and retries, the wire model, the
heartbeat watchdog, limp-home, supply conditions, PTIME and the events of ring 63.
-/
namespace Sys2Proof.Machine

/-! ### Channels -/

def Dev.ch (d : Dev) (i : Nat) : LoadCh := SMap.get d.load.chans LoadCh.init i

/-- `CH_STATUS.STATE` of a channel: SAFE stands for OFF, ON and PWM in the safe state. -/
def LoadCh.code6 (c : LoadCh) : Nat :=
  match c.run with
  | .off => if c.safe then 6 else 0
  | .on => if c.safe then 6 else 1
  | .pwm => if c.safe then 6 else 2
  | .faultOff => 3
  | .latched => 4
  | .deferred => 5

/-- A channel is on, as ON or PWM. -/
def LoadCh.isOn (c : LoadCh) : Bool := c.run == .on || c.run == .pwm

/-- A channel takes new values; its status register shows them. -/
def Dev.setCh (d : Dev) (i : Nat) (c : LoadCh) : Dev :=
  ((({ d with load := { d.load with chans := SMap.set d.load.chans LoadCh.init i c } }).set
    (F.LOAD_CH_STATUS_STATE i) c.code6).set
    (F.LOAD_CH_STATUS_INRUSH i) (b2n c.winEnd.isSome)).set
    (F.LOAD_CH_THETA_THETA i) (min 65535 (c.theta / 2 ^ 24))

/-- A channel is under LIMP control (R402). -/
def Dev.limpCtl (d : Dev) (i : Nat) : Bool := d.flag F.LOADC_LIMP_STATUS_LH_EN && bit (d.get F.LOADC_LIMP_MAP_MAP) i

/-- The qualified level of a channel's LH_IN pin (R402). -/
def Dev.lhIn (d : Dev) (i : Nat) : Bool :=
  let k := if i < 16 then bf (d.get F.LOADC_LIMP_SEL_LO_SEL) (2 * i) 2 else bf (d.get F.LOADC_LIMP_SEL_HI_SEL) (2 * (i - 16)) 2
  bit (d.get F.LOADC_LIMP_STATUS_LH_IN) k

/-- Turn-ons of a channel are deferred (R389, R502). -/
def Dev.deferring (d : Dev) (i : Nat) : Bool :=
  d.flag F.LOADC_SUPPLY_STATUS_DUMP || d.flag F.LOADC_SUPPLY_STATUS_BROWNOUT
    || (decide (12 ≤ i) && d.flag (F.LOAD_CH_CFG_RAIL i)
        && (d.flag F.LOADC_SUPPLY_STATUS_VHV_HIGH || d.flag F.SUPV_SUPPLY_STATUS_VHV_LOW))

/-! ### Events (R405) -/

/-- A ring-63 event (Table LOAD-7). -/
def Dev.loadEntry (d : Dev) (type chan code : Nat) (i : Option Nat) : List Byte :=
  let st := i.map (fun i => (d.ch i).code6)
  let f (g : Nat → FieldRef) : Nat := (i.map (fun i => d.get (g i))).getD 0
  leBytes 1 type ++ leBytes 1 chan ++ leBytes 1 code ++ leBytes 1 (st.getD 0)
    ++ leBytes 2 (f F.LOAD_CH_MEAS_CURRENT) ++ leBytes 1 (f F.LOAD_CH_MEAS_TJ) ++ leBytes 1 (f F.LOAD_CH_MEAS_DT)
    ++ leBytes 1 (b2n (d.flag F.LOADC_PTIME_STATUS_PTIME_VALID)
        + 2 * b2n ((i.map (fun i => (d.ch i).winEnd.isSome)).getD false)
        + 4 * b2n ((i.map d.limpCtl).getD false) + 8 * b2n (d.flag F.LOADC_LIMP_STATUS_LH_EN))
    ++ leBytes 1 (f F.LOAD_CH_STATUS_RETRY) ++ leBytes 2 (f F.LOAD_CH_STATUS_DUTY)
    ++ leBytes 2 d.load.vbat ++ leBytes 2 d.load.vhv ++ leBytes 8 d.ptime ++ leBytes 8 0

/-- The logic die is powered and ring 63 can take events. -/
def Dev.ring63Up (d : Dev) : Bool := d.ringUp 63 && d.flag F.PWR_D2D_STATUS_LINK_UP

/-- An event crosses the die link to ring 63; one that finds the ring full is lost and counted. -/
def Dev.evPut (d : Dev) (e : List Byte) : Dev :=
  let d1 := d.flits 1
  if d1.eventOk 63 1 then d1.eventPut 63 e else (d1.inc F.LOADC_EV_LOST_COUNT).fltSet blkLoad 3

/-- The buffered events are written once ring 63 is up, the oldest first. -/
def Dev.drain63 (d : Dev) : Dev :=
  if d.ring63Up then d.load.evBuf.foldl Dev.evPut { d with load := { d.load with evBuf := [] } } else d

/-- An event of the load side: written on ring 63 behind those that AON-P still holds, kept there while the ring is away, or lost
and counted. CLEARED events and code GATE are never written: no rule says when (DESIGN CHOICE, log 87). -/
def Dev.ev63 (d : Dev) (e : List Byte) : Dev :=
  if d.ring63Up then d.drain63.evPut e
  else if d.load.evBuf.length < 64 then { d with load := { d.load with evBuf := d.load.evBuf ++ [e] } }
  else d.inc F.LOADC_EV_LOST_COUNT

/-- A SUPPLY event (R396). -/
def Dev.supplyEvent (d : Dev) : Dev := d.ev63 (d.loadEntry 0x06 0xFF 0 none)

/-- A fault of a channel: its code seen, CH_FAULT set, a FAULT event and an event PDU (Tables LOAD-7, LOAD-8 and SIG-15). -/
def Dev.chFault (d : Dev) (i code : Nat) : Dev :=
  let d1 := (d.setBitOf (F.LOAD_CH_FAULT_CODES i) (code - 1) true).fltSet blkLoad 0
  (d1.ev63 (d1.loadEntry 0x01 (64 + i) code (some i))).steEvent 0x10 (64 + i) code

/-! ### Outputs -/

/-- Length of a PWM period in CORE-cycle lengths (R387). -/
def Dev.pwmPer (d : Dev) (i : Nat) : Nat := sCyc / atLeastOne (d.get (F.LOAD_CH_PWM_FREQ_HZ i))

/-- The end of the PWM period that holds the present instant: periods start together, delayed by PHASE (R387). -/
def Dev.pwmEnd (d : Dev) (i : Nat) : Nat :=
  let per := d.pwmPer i
  let ofs := d.get (F.LOAD_CH_PWM_PHASE i) * per / 10000
  d.now + per - (d.now + per - ofs) % per

/-- The on time of a duty in a period. -/
def LoadCh.onTime (c : LoadCh) (duty : Nat) : Nat := duty * c.per / 10000

/-- A channel with its PWM period brought up to the present instant: the period that ran ends as it began, those after it have
the length of FREQ_HZ (R387). -/
def Dev.pwmRoll (d : Dev) (i : Nat) : LoadCh :=
  let c := d.ch i
  if c.run == .pwm && decide (c.fin ≤ d.now) then
    let per := d.pwmPer i
    let fin := c.fin + ((d.now - c.fin) / per + 1) * per
    let on := d.get (F.LOAD_CH_STATUS_DUTY i) * per / 10000
    { c with fin := fin, per := per, gateAt := fin - per, out := decide (d.now + per - fin < on) }
  else c

/-- A channel goes OFF. -/
def Dev.chOff (d : Dev) (i src : Nat) : Dev :=
  ((d.setCh i { d.ch i with run := .off, winEnd := none, pend := none, onSince := none, out := false }).set
    (F.LOAD_CH_STATUS_DUTY i) 0).set (F.LOAD_CH_STATUS_SRC i) src |>.set (F.LOAD_CH_STATUS_LIMITING i) 0

/-- A channel that is on takes a new output and duty; under PWM the off edge of the present period moves (R387). -/
def Dev.chMove (d : Dev) (i : Nat) (run : Run) (duty src : Nat) : Dev :=
  let c := d.pwmRoll i
  let c1 : LoadCh :=
    if run == .pwm then
      if c.run == .pwm then
        { c with out := (c.out && decide (d.now + c.per - c.fin < c.onTime duty)) || duty == 10000 }
      else
        let per := d.pwmPer i
        let fin := d.pwmEnd i
        { c with fin := fin, per := per, out := decide (d.now + per - fin < duty * per / 10000) }
    else { c with out := true }
  let c2 : LoadCh := if c1.out && !c.out then { c1 with gateAt := d.now } else c1
  ((d.setCh i { c2 with run := run, pend := none }).set (F.LOAD_CH_STATUS_DUTY i) (if run == .pwm then duty else 10000)).set
    (F.LOAD_CH_STATUS_SRC i) src

/-- Power for the outputs: PD12 is on and ground is there. -/
def Dev.outPower (d : Dev) : Bool := d.ready 12 && !d.load.gndLost

/-- A channel takes an output from a source: OFF, a change while on, or a turn-on, which opens the inrush window
(R388) or is deferred (R389). Without PD12 or ground a turn-on leaves it OFF (log 12). -/
def Dev.chApply (d : Dev) (i : Nat) (run : Run) (duty src : Nat) (retry : Bool) : Dev :=
  if run == .off || !d.outPower then d.chOff i src
  else if (d.ch i).isOn then d.chMove i run duty src
  else if d.deferring i then
    (((d.setCh i { d.ch i with run := .deferred, pend := some (run, duty, src, retry) }).set
      (F.LOAD_CH_STATUS_DUTY i) 0).set (F.LOAD_CH_STATUS_SRC i) src).chFault i 0x0B
  else
    let ms := d.get (F.LOAD_CH_LIM_INRUSH_MS i)
    let win := ms != 0 && !(retry && d.get (F.LOAD_CH_CFG_POLICY i) == 1)
    let c := d.ch i
    (d.setCh i { c with
      run := .off, winEnd := if win then some (d.now + ms * msCyc) else none, onSince := some d.now, out := false }).chMove
        i run duty src

/-- Every output is off: PD12 has no power, ground is lost, or STANDBY is entered (R396, R397, R403). -/
def Dev.outputsOff (d : Dev) : Dev := (List.range 24).foldl (fun d i => d.chOff i (d.get (F.LOAD_CH_STATUS_SRC i))) d

/-! ### Commands (R384 to R386) -/

/-- The command codes of `CH_CMD_i` and of actuation commands. -/
def cmdRun (cmd : Nat) : Run := if cmd == 0 then .off else if cmd == 1 then .on else .pwm

/-- A REG (0) or NET (1) command is refused (R385), by an isolated LOAD block too (Table FLT-4). -/
def Dev.cmdRefused (d : Dev) (i src cmd duty : Nat) : Bool :=
  let c := d.get (F.LOAD_CH_CFG_CTRL_SRC i)
  !(c == 2 || c == src) || decide (2 < cmd) || (cmd == 2 && decide (10000 < duty)) || d.limpCtl i || (d.ch i).safe
    || ((d.ch i).run == .latched && cmd != 0) || d.isolated blkLoad

/-- An accepted command takes effect (R384). -/
def Dev.cmdApply (d : Dev) (i src cmd duty : Nat) : Dev :=
  let d1 := d.setCh i { d.ch i with want := (cmdRun cmd, if cmd == 2 then duty else 0) }
  let d2 := if cmd == 0 then d1.set (F.LOAD_CH_STATUS_RETRY i) 0 else d1
  d2.chApply i (cmdRun cmd) duty src false

/-- A command of source REG (0) or NET (1) reaches its channel. In one power-die cycle, which is the model's clock tick (DESIGN CHOICE, log 87), a
register command stands over a network command that comes behind it (R386). -/
def Dev.loadCmd (d : Dev) (i src cmd duty : Nat) : Dev :=
  if d.cmdRefused i src cmd duty then
    let d1 := (d.inc F.LOADC_CMD_REFUSED_COUNT).set (F.LOAD_CH_FAULT_CMD_REFUSED i) 1
    d1.ev63 (d1.loadEntry 0x03 (64 + i) src (some i))
  else
    let d1 := d.cmdApply i src cmd duty
    if src == 0 then d1.setCh i { d1.ch i with regAt := some (d.now, cmd, duty) }
    else
      match (d.ch i).regAt with
      | some (t, cmd0, duty0) => if t == d.now then d1.cmdApply i 0 cmd0 duty0 else d1
      | none => d1

/-- The oldest actuation command on the D2D link reaches its channel (R386); none crosses a link that is down (R514). -/
def Dev.loadCmdNet (d : Dev) : Dev :=
  match d.load.flight with
  | [] => d
  | (i, cmd, duty, _) :: l =>
    if d.flag F.PWR_D2D_STATUS_LINK_UP then (({ d with load := { d.load with flight := l } }).flits 1).loadCmd i 1 cmd duty
    else d

/-- A further access waits on its bus while 32 transactions are outstanding: the oldest of them complete first (R26, R443). -/
def Dev.linkWait (d : Dev) : Dev :=
  if d.load.flight.length < 32 then d
  else (List.range (d.load.flight.length - 31)).foldl (fun d _ => d.loadCmdNet) d

/-! ### Wire model (R391) -/

/-- K of a wire class in 10⁻³ K/A², and exp(−1 ms/τ) in 2⁻⁴⁸ (Table LOAD-3, log 13); class 0 is off. -/
def wireK (w : Nat) : Nat :=
  match w with
  | 1 => 900 | 2 => 550 | 3 => 330 | 4 => 230 | 5 => 140 | 6 => 75 | 7 => 42 | 8 => 25 | 9 => 12 | _ => 0
def wireA (w : Nat) : Nat :=
  match w with
  | 1 => 281451521439913 | 2 => 281457385074355 | 3 => 281462182684308 | 4 => 281464924212426
  | 5 => 281467569571889 | 6 => 281469859030331 | 7 => 281471458295437 | 8 => 281472417858862
  | 9 => 281473320980368 | _ => 0

/-- T_INS in °C (Table LOAD-4). -/
def tIns (ins : Nat) : Int := match ins with | 0 => 85 | 1 => 100 | 2 => 125 | 3 => 150 | _ => 175

/-- The trip level T_INS − T_AMB in K. -/
def Dev.wireLevel (d : Dev) (i : Nat) : Int := tIns (d.get (F.LOAD_CH_CFG_INS i)) - toSigned 8 (d.get F.LOADC_T_AMB_T_AMB)

/-- θ after one update with a mean of I² given in (10 mA)². -/
def wireStep (w theta i2 : Nat) : Nat :=
  let ss : Int := (wireK w * i2 * 2 ^ 32 / (1000 * 10000) : Nat)
  (ss + ((theta : Int) - ss) * (wireA w : Int) / (2 ^ 48 : Nat)).toNat

/-! ### Trips and retries (R393) -/

/-- A protective turn-off: FAULT_OFF, or LATCHED with POLICY LATCH. -/
def Dev.trip (d : Dev) (i code : Nat) : Dev :=
  let latch := d.get (F.LOAD_CH_CFG_POLICY i) == 2
  let d1 := d.setCh i { d.ch i with
    run := if latch then .latched else .faultOff, winEnd := none, pend := none, onSince := none
    out := false, tripAt := d.now, code := code }
  let d2 := ((d1.set (F.LOAD_CH_STATUS_DUTY i) 0).set (F.LOAD_CH_STATUS_LIMITING i) 0).inc (F.LOAD_TRIPS_COUNT i)
  let d3 := d2.chFault i code
  if latch then d3.chFault i 0x0A else d3

/-- The output that a channel's sources ask of it now: LIMP over SAFE over the last accepted command (R399, R402). -/
def Dev.desired (d : Dev) (i : Nat) : Run × Nat :=
  let c := d.ch i
  if d.limpCtl i then (if d.lhIn i then .on else .off, 0)
  else if !c.safe then c.want
  else
    match d.get (F.LOAD_CH_CFG_SAFE i) with
    | 0 => (.off, 0)
    | 1 => (.pwm, d.get (F.LOAD_CH_SAFE_SAFE_DUTY i))
    | 2 => c.hold
    | _ => (if bit (d.get F.LOADC_LIMP_MAP_MAP) i && d.lhIn i then .on else .off, 0)

/-- The clearing condition of a trip code at the measured temperatures (Table LOAD-5). -/
def Dev.cleared (d : Dev) (i : Nat) (tj : Int) (dt : Nat) : Bool :=
  match (d.ch i).code with
  | 4 => decide (((d.ch i).theta : Int) * 2 ≤ d.wireLevel i * (2 ^ 32 : Nat))
  | 5 => decide (tj < 150)
  | 6 => decide (dt < 45)
  | 9 => false
  | _ => true

/-- A channel in FAULT_OFF retries once its condition has cleared and RETRY_MS has passed; a count that would exceed
RETRY_N latches it (R393, log 14). With POLICY LATCH there is no retry. -/
def Dev.chRetry (d0 : Dev) (i : Nat) (tj : Int) (dt : Nat) : Dev :=
  let c := d0.ch i
  if c.run == .faultOff && d0.get (F.LOAD_CH_CFG_POLICY i) != 2 && d0.cleared i tj dt then
    let d := d0.reach (c.tripAt + atLeastOne (d0.get (F.LOAD_CH_RETRY_RETRY_MS i)) * msCyc)
    if d.get (F.LOAD_CH_RETRY_RETRY_N i) ≤ d.get (F.LOAD_CH_STATUS_RETRY i) then
      (d.setCh i { d.ch i with run := .latched }).chFault i 0x0A
    else
      let (run, duty) := d.desired i
      if run == .off then d
      else
        let d1 := (d.inc (F.LOAD_CH_STATUS_RETRY i)).inc (F.LOAD_RETRIES_COUNT i)
        let d2 := d1.chApply i run duty 2 true
        d2.ev63 (d2.loadEntry 0x07 (64 + i) c.code (some i))
  else d0

/-- A channel takes the output that its sources ask of it; LATCHED stays (R385, R399). -/
def Dev.obey (d : Dev) (i src : Nat) : Dev :=
  if (d.ch i).run == .latched then d
  else
    let (run, duty) := d.desired i
    d.chApply i run duty src false

/-- A channel follows its sources as they change: a FAULT_OFF channel waits for its retry, which then follows them (R393, R402). -/
def Dev.follow (d : Dev) (i src : Nat) : Dev := if (d.ch i).run == .faultOff then d else d.obey i src

/-- What a channel puts out at present, for HOLD and at the end of LIMP control; in FAULT_OFF what its retry will bring back. -/
def Dev.present (d : Dev) (i : Nat) : Run × Nat :=
  let c := d.ch i
  match c.run with
  | .on => (.on, 0)
  | .pwm => (.pwm, d.get (F.LOAD_CH_STATUS_DUTY i))
  | .deferred => match c.pend with | some (r, du, _, _) => (r, du) | none => (.off, 0)
  | .faultOff => d.desired i
  | _ => (.off, 0)

/-! ### Safe state (R399) -/

/-- One channel takes its safe state, with its SAFE_STATE event: only LATCHED and what LIMP controls are exempt, and HOLD keeps
the state. -/
def Dev.safeCh (d : Dev) (i : Nat) : Dev :=
  let d1 := if (d.ch i).safe then d else d.setCh i { d.ch i with safe := true, hold := d.present i }
  let d2 := if d1.limpCtl i then d1.follow i 4 else if d1.get (F.LOAD_CH_CFG_SAFE i) == 2 then d1 else d1.obey i 3
  (d2.ev63 (d2.loadEntry 0x04 (64 + i) 0 (some i))).steEvent 0x11 (64 + i) 0

/-- Every channel takes its safe state, as at watchdog expiry. -/
def Dev.loadSafe (d : Dev) : Dev :=
  (List.range 24).foldl Dev.safeCh { d with load := { d.load with fedSince := false } }

/-! ### PTIME (R404) -/

/-- A correction arrives: PTIME becomes DTIME cut to whole microseconds (log 15). -/
def Dev.ptimeCorrect (d : Dev) : Dev :=
  ({ d with load := { d.load with
      ptimeOfs := (d.dtime / 1000 * 1000 : Nat) - ((d.now * 5 / 4 : Nat) : Int), corr := some d.now } }).set
    F.LOADC_PTIME_STATUS_PTIME_VALID 1

end Sys2Proof.Machine
end

