-- ==== Sys2Proof/Machine/Settle.lean ====
section
/-!
DEFINITION. The reactions that one block's step owes to another's unit (R463, R203, R299) are applied before the step
ends.
-/
namespace Sys2Proof.Machine

/-- One reaction. -/
def Dev.react (d : Dev) : Todo → Dev
  | .ethDown p => d.linkCut p false
  | .loadSafe => d.loadSafe
  | .xptDrop k n => d.xptDropped k n
  | .canStop c => d.canStop c
  | .canClear c => if d.canContends c then d else d.canClear c false
  | .tsLink p => d.tsLink p

/-- Reactions are applied in order, those that they add after them. -/
def Dev.settleN (d : Dev) : Nat → Dev
  | 0 => d
  | n + 1 =>
    match d.flt.todo with
    | [] => d
    | x :: l => ({ d with flt := { d.flt with todo := l } }.react x).settleN n

/-- Every reaction is applied, and none is left over for the next step. A step adds far fewer than 4,096: each isolates a block
once or drops a copy. -/
def Dev.settle (d : Dev) : Dev :=
  let d1 := d.settleN 4096
  { d1 with flt := { d1.flt with todo := [] } }

/-- A step's answer once its reactions are applied. -/
def State.done (s : State) (d : Dev) : Host.Outcome State Fault Refusal := s.to d.settle

end Sys2Proof.Machine
end

