-- ==== Sys2Proof/Machine/Anvil.lean ====
section
/-!
DEFINITION. The commands of Anvil (chapter 2): the operations of ring 56, the changes of Table PROM-11, quarantine and
the ledger-violation flag.
-/
namespace Sys2Proof.Machine

/-- ADMIT (R41 to R47). -/
def Dev.anvilAdmit (d : Dev) : Dev :=
  match d.anvilOp 1 with
  | some o => d.admitOrProbe o true
  | none => d
def execAdmitReq (s : State) : Host.Outcome State Fault Refusal := s.done s.dev.anvilAdmit

/-- PROBE (R39): the evaluation of ADMIT without a commit. -/
def Dev.anvilProbe (d : Dev) : Dev :=
  match d.anvilOp 2 with
  | some o => d.admitOrProbe o false
  | none => d
def execProbe (s : State) : Host.Outcome State Fault Refusal := s.done s.dev.anvilProbe

/-- WITHDRAW (R49): the answer is that of the contract as it stood before. -/
def Dev.anvilWithdraw (d : Dev) : Dev :=
  match d.anvilOp 3 with
  | none => d
  | some o =>
    match d.namedContract o with
    | none => d.opFail o errFormat
    | some (i, k) =>
      if o.stop then d.anvilEnd o 0 .aborted errAborted
      else
      let a := d.contractAnswer i k
      ((d.commitWithdraw i k).hostWrite (o.param + 8) a).opDone o
def execWithdraw (s : State) : Host.Outcome State Fault Refusal := s.done s.dev.anvilWithdraw

/-- READ_MEASURE (R40, R66): one record for each index. -/
def Dev.readMeasure (d : Dev) : Dev :=
  match d.anvilOp 5 with
  | none => d
  | some o =>
    match d.measRange o with
    | none => d.opFail o errFormat
    | some (first, n) =>
      if o.stop then d.finish o .aborted errAborted
      else
        let d1 := (List.range n).foldl (fun x j => x.hostWrite (o.param + 8 + 128 * j) (d.measRecord (first + j))) d
        d1.finish { o with progress := n, partialCnt := n } .done errOk
def execReadMeasure (s : State) : Host.Outcome State Fault Refusal := s.done s.dev.readMeasure

/-- CLEAR_MEASURE (R39). -/
def Dev.clearMeasure (d : Dev) : Dev :=
  match d.anvilOp 6 with
  | none => d
  | some o =>
    match d.measRange o with
    | none => d.opFail o errFormat
    | some (first, n) =>
      if o.stop then d.finish o .aborted errAborted
      else
        let d1 := (List.range n).foldl (fun x j => match x.contract (first + j) with
          | some k => x.setContract (first + j) (some { k with meas := Meas.init })
          | none => x) d
        d1.finish { o with progress := n } .done errOk
def execClearMeasure (s : State) : Host.Outcome State Fault Refusal := s.done s.dev.clearMeasure

/-- READ_CONTRACT (R39, R40): the stored request, then its answer block. -/
def Dev.readContract (d : Dev) : Dev :=
  match d.anvilOp 7 with
  | none => d
  | some o =>
    match d.namedContract o with
    | none => d.opFail o errFormat
    | some (i, k) =>
      if o.stop then d.anvilEnd o 0 .aborted errAborted
      else (d.hostWrite (o.param + 8) (leBytes 64 k.req ++ d.contractAnswer i k)).opDone o
def execReadContract (s : State) : Host.Outcome State Fault Refusal := s.done s.dev.readContract

/-- CHANGE_GATE_SWITCHOVER (R243, R244): the staged list pends, to take effect at CT. -/
def Dev.changeGate (d : Dev) : Dev :=
  match d.change 1 with
  | none => d
  | some o =>
    let p := d.chgTarget o
    let a := d.gateAdmin p
    if 12 ≤ p || d.chgValue o != a.base % 2 ^ 32 || a.cycle % 8 != 0 || a.cycle < 64 || 1000000000 < a.cycle
        || (a.en && (a.len == 0 || decide (1024 < a.len))) then d.opFail o errFormat
    else if d.flag (F.ETH_GATE_STATUS_PENDING p) then d.opFail o errBusy
    else
      let t0 := d.dtime + 100000
      let ct := if t0 ≤ a.base then a.base else a.base + ceilDiv (t0 - a.base) a.cycle * a.cycle
      let d1 := ((d.set (F.ETH_GATE_STATUS_PENDING p) 1).set (F.ETH_GATE_CT_DTIME p) ct).setEthPort p
        { d.ethPort p with gateAt := d.dtime }
      d.guarded o p d1 d1
def execChangeGateSwitchover (s : State) : Host.Outcome State Fault Refusal := s.done s.dev.changeGate

/-- CHANGE_RATE_FLOOR (R250): the device never runs below its floor, so a raised floor asks for a step-up. -/
def Dev.changeFloor (d : Dev) : Dev :=
  match d.change 2 with
  | none => d
  | some o =>
    let p := d.chgTarget o
    match if p < 12 then rateCode p (d.chgValue o) else none with
    | none => d.opFail o errFormat
    | some c =>
      if d.get (F.ETH_RATE_NOM p) < c then d.opFail o errFormat
      else
        let d1 := d.set (F.ETH_RATE_FLOOR p) c
        let d2 := if d.get (F.ETH_RATE_CUR p) < c then d1.setEthPort p { d1.ethPort p with upReq := true } else d1
        d.guarded o p d1 d2
def execChangeRateFloor (s : State) : Host.Outcome State Fault Refusal := s.done s.dev.changeFloor

/-- CHANGE_PORT_RATE (R250, R61): the new nominal rate, and a step to it. -/
def Dev.changeRate (d : Dev) : Dev :=
  match d.change 3 with
  | none => d
  | some o =>
    let p := d.chgTarget o
    match if p < 12 then rateCode p (d.chgValue o) else none with
    | none => d.opFail o errFormat
    | some c =>
      if c < d.get (F.ETH_RATE_FLOOR p) then d.opFail o errFormat
      else
        if o.stop then d.anvilAbort o
        else
        match if c < d.get (F.ETH_RATE_CUR p) then d.stepTest p c else .ok with
        | .noTwin | .breaks _ => d.stepRefused.chgRefuse o ⟨rsnNoTwin, p⟩
        | .ok =>
          let d1 := d.set (F.ETH_RATE_NOM p) c
          d.guarded o p d1 (d1.stepToNom p)
def execChangePortRate (s : State) : Host.Outcome State Fault Refusal := s.done s.dev.changeRate

/-- CHANGE_CT_THRESHOLD (R118). -/
def Dev.changeThreshold (d : Dev) : Dev :=
  match d.change 4 with
  | none => d
  | some o =>
    let p := d.chgTarget o
    if 12 ≤ p || 16383 < d.chgValue o then d.opFail o errFormat
    else let d1 := d.set (F.FWD_CT_THRESH_THRESH p) (d.chgValue o); d.guarded o p d1 d1
def execChangeCtThreshold (s : State) : Host.Outcome State Fault Refusal := s.done s.dev.changeThreshold

/-- CHANGE_PREEMPTION (R247, R248). -/
def Dev.changePreempt (d : Dev) : Dev :=
  match d.change 5 with
  | none => d
  | some o =>
    let p := d.chgTarget o
    if 12 ≤ p then d.opFail o errFormat
    else d.guarded o p (d.set (F.ETH_PREEMPT_OPER_DATA p) (d.reg (R.ETH_PREEMPT_STAGED p))) (d.applyPreempt p)
def execChangePreemption (s : State) : Host.Outcome State Fault Refusal := s.done s.dev.changePreempt

/-- What keeps a domain from being switched off now (R497). -/
def Dev.domainBusy (d : Dev) (n : Nat) : Bool :=
  bit d.pwr.goingOn (n - 1) || bit d.pwr.goingOff (n - 1)
    || (n == 13 && (decide (d.get F.BOOT_STATUS_BOOT_STATE < 2) || d.get F.BOOT_STATUS_STAGE_STATE != 0 || !d.boot.ops.isEmpty))
    || (n == 8 && (d.opCount 58 [1, 2, 3, 4, 5, 6] != 0 || d.opCount 59 [0x20, 0x21, 0x22] != 0))

/-- A switch-off starts (R498): intake stops at once; PD1 goes on until its status word has been written. -/
def Dev.domainOffStart (d : Dev) (n : Nat) : Dev :=
  let d1 := { d with pwr := { d.pwr with goingOff := setBit d.pwr.goingOff (n - 1) true } }
  if n == 1 then d1 else d1.setBitOf F.SUPV_PD_STATUS_READY (n - 1) false

/-- CHANGE_DOMAIN_OFF (R60, R497). -/
def Dev.changeDomain (d : Dev) : Dev :=
  match d.change 6 with
  | none => d
  | some o =>
    let n := d.chgTarget o
    if n == 0 || 14 < n || n == 2 || n == 9 then d.opFail o errFormat
    else if d.domainBusy n then d.opFail o errBusy
    else if o.stop then d.anvilAbort o
    else if !bit (d.get F.SUPV_PD_STATUS_ON) (n - 1) then d.chgApplied o 0xFF 0
    else
      match d.admitted.find? (fun c => d.usesDomain c.2.req n) with
      | some (i, k) => d.chgInUse o i k
      | none => d.guarded o 0xFF d (d.domainOffStart n)
def execChangeDomainOff (s : State) : Host.Outcome State Fault Refusal := s.done s.dev.changeDomain

/-- The slot of a channel whose key can be unpinned or replaced (R321). -/
def Dev.keyChange (d : Dev) (o : Op) : Option Nat :=
  let c := d.chgTarget o
  let v := d.chgValue o
  let e := d.chan c
  if decide (c < 1024) && (chType e == 1 || chType e == 2) && bf v 16 16 == 0 && bf v 1 7 == 0 then some (chSlot e) else none

/-- CHANGE_KEY_UNPIN (R321, R60). -/
def Dev.changeUnpin (d : Dev) : Dev :=
  match d.change 7 with
  | none => d
  | some o =>
    if bit (d.chgValue o) 0 then d
    else
      match d.keyChange o with
      | none => d.opFail o errFormat
      | some slot =>
        if o.stop then d.anvilAbort o
        else
        match d.admitted.find? (fun c => (d.slotsOf c.2.req).contains slot) with
        | some (i, k) => d.chgInUse o i k
        | none => d.guarded o 0xFF d (d.unpinKey slot)
def execChangeKeyUnpin (s : State) : Host.Outcome State Fault Refusal := s.done s.dev.changeUnpin

/-- CHANGE_KEY_REKEY (R321). -/
def Dev.changeRekey (d : Dev) : Dev :=
  match d.change 7 with
  | none => d
  | some o =>
    if !bit (d.chgValue o) 0 then d
    else
      match d.keyChange o with
      | none => d.opFail o errFormat
      | some old =>
        let new := bf (d.chgValue o) 8 8
        let c := d.chgTarget o
        if o.stop then d.anvilAbort o
        else if 64 ≤ d.anvil.pinned.length && !d.anvil.pinned.contains new then d.chgRefuse o ⟨rsnKeyPin, 0xFF⟩
        else
          let d1 := (d.pinKey new).setChan c (setBf (d.chan c) 32 8 new)
          d.guarded o 0xFF d1 (if old == new then d1 else d1.unpinUnused old)
def execChangeKeyRekey (s : State) : Host.Outcome State Fault Refusal := s.done s.dev.changeRekey

/-- CHANGE_BUS_LEDGER (R57). -/
def Dev.changeLedger (d : Dev) : Dev :=
  match d.change 8 with
  | none => d
  | some o =>
    let p := d.chgTarget o
    let n := d.chgCount o
    let l := (List.range n).map (fun j => leNat (d.hostRead (d.chgAddr o + 16 * j) 16))
    if p < 12 || 47 < p || 256 < n || l.any (badLedgerEntry p) then d.opFail o errFormat
    else
      let d1 := { d with anvil := { d.anvil with ledgers := SMap.set d.anvil.ledgers none p (some l) } }
      if o.stop then d.anvilAbort o
      else if 20 ≤ p && p < 40 && d1.unboundedHp d1.requests p then d.chgRefuse o ⟨rsnRate, p⟩
      else d.guarded o p d1 d1
def execChangeBusLedger (s : State) : Host.Outcome State Fault Refusal := s.done s.dev.changeLedger

/-- CHANGE_CONTAINER (R179): the staged threshold and hold time become operational. -/
def Dev.changeContainer (d : Dev) : Dev :=
  match d.change 9 with
  | none => d
  | some o =>
    let c := d.chgTarget o
    if 64 ≤ c then d.opFail o errFormat
    else
      let e := d.tget (steMem 5) 0 c
      let d1 := d.tset (steMem 5) 0 c (setBf (setBf e 160 16 (coThresh e)) 192 32 (coHold e))
      d.guarded o 0xFF d1 d1
def execChangeContainer (s : State) : Host.Outcome State Fault Refusal := s.done s.dev.changeContainer

/-- CHANGE_MACSEC (R335). -/
def Dev.changeMacsec (d : Dev) : Dev :=
  match d.change 10 with
  | none => d
  | some o =>
    let p := d.chgTarget o
    let on := bit (d.chgValue o) 0
    if 12 ≤ p then d.opFail o errFormat
    else if on && !d.flag (F.CRY_MACSEC_TX_VALID p) then d.opFail o errKey
    else let d1 := d.set (F.ETH_STATUS_MACSEC p) (b2n on); d.guarded o p d1 d1
def execChangeMacsec (s : State) : Host.Outcome State Fault Refusal := s.done s.dev.changeMacsec

/-- CHANGE_LIN_SCHEDULE (R218): a running schedule switches at its next slot boundary. -/
def Dev.changeSchedule (d : Dev) : Dev :=
  match d.change 11 with
  | none => d
  | some o =>
    let p := d.chgTarget o
    let n := p - 40
    let t := d.chgValue o
    if p < 40 || 47 < p || 7 < t then d.opFail o errFormat
    else if o.stop then d.anvilAbort o
    else if !bit (d.get (F.LIN_SCHED_ACTIVATABLE n)) t then d.chgRefuse o ⟨rsnClassPort, p⟩
    else
      let x := d.linCtl n
      d.guarded o p d (if x.running then d.setLinCtl n { x with next := some t } else d.set (F.LIN_STATUS_TABLE n) t)
def execChangeLinSchedule (s : State) : Host.Outcome State Fault Refusal := s.done s.dev.changeSchedule

/-- CHANGE_BE_SHAPER (R59, Table PROM-11). -/
def Dev.changeShaper (d : Dev) : Dev :=
  match d.change 12 with
  | none => d
  | some o =>
    let p := d.chgTarget o
    let c := d.chgValue o
    if 20 ≤ p || 5 < c then d.opFail o errFormat
    else
      let x := SMap.get d.anvil.staged (0xFFFFFFFF, 0) (8 * p + c)
      let d1 := d.shaperSwitch p c x
      d.guarded o p d1 d1
def execChangeBeShaper (s : State) : Host.Outcome State Fault Refusal := s.done s.dev.changeShaper

/-- ANVIL_OP_START (R41): operations run one at a time, in ring order; without Anvil's microcode they wait, and in RECOVERY
they fail (R482). A CHANGE of a reserved TYPE is malformed. -/
def Dev.anvilStart (d : Dev) : Dev :=
  match d.running 56 [1, 2, 3, 4, 5, 6, 7], d.nextQueued 56 [1, 2, 3, 4, 5, 6, 7] with
  | none, some o =>
    if d.get F.BOOT_STATUS_BOOT_STATE == 3 then d.opFail o errDomainOff
    else if !d.mgmtRuns || !d.ready 2 then d
    else
      let d1 := d.startOp o
      let t := d1.chgType o
      if o.opcode == 4 && (t == 0 || decide (12 < t)) then d1.opFail { o with state := .running } errFormat else d1
  | _, _ => d
def execAnvilOpStart (s : State) : Host.Outcome State Fault Refusal := s.done s.dev.anvilStart

/-- QUARANTINE_END (R45). -/
def Dev.quarantineEnd (d : Dev) (i : Nat) : Dev :=
  match d.contract i with
  | some k => if k.quar && !d.stamped i then d.setContract i none else d
  | none => d
def execQuarantineEnd (contract : Fin 4096) (s : State) : Host.Outcome State Fault Refusal := s.done (s.dev.quarantineEnd contract)

/-- LEDGER_HOLD_EXPIRY (R69, R263): a lost beacon keeps the flag. -/
def Dev.ledgerHold (d : Dev) (p : Nat) : Dev :=
  let lost := decide (12 ≤ p) && decide (p < 20) && d.flag (F.ETH_PLCA_CFG_EN p) && d.get (F.ETH_PLCA_CFG_NODE_ID p) != 0
    && !d.flag (F.ETH_PLCA_STATUS_BEACON_OK p)
  match SMap.get d.anvil.breakAt none p with
  | some t =>
    if lost then d
    else
      let d1 := d.reach (t + atLeastOne (d.get F.ANVIL_LEDGER_HOLD_HOLD_MS) * msCyc)
      { d1 with anvil := { d1.anvil with breakAt := SMap.set d1.anvil.breakAt none p none } }
  | none => d
def execLedgerHoldExpiry (port : Fin 48) (s : State) : Host.Outcome State Fault Refusal := s.done (s.dev.ledgerHold port)

end Sys2Proof.Machine
end

