-- ==== Sys2Proof/Machine/TblCmd.lean ====
section
/-!
DEFINITION. The operations of ring 57 (R136 to R142), Burnisher (R148), Assay (R151 to R155) and the read window (R156).
-/
namespace Sys2Proof.Machine

/-! ### Tests of an entry that ring 57 writes (R134, R138, R159, R160, R169, R241) -/

/-- Identifier bits of a key of a form; none for a reserved form code (Tables SIG-1 and SIG-2). -/
def keyBits (form : Nat) : Option Nat :=
  match form with
  | 0 | 2 | 4 | 12 => some 11
  | 1 | 3 | 9 | 10 | 11 => some 29
  | 5 => some 6
  | 8 => some 32
  | _ => none

/-- A port that a key of a form may name (R160). -/
def keyPortOk (form port : Nat) : Bool :=
  if form ≤ 4 then decide (20 ≤ port) && decide (port < 40)
  else if form == 5 then decide (40 ≤ port) && decide (port < 48)
  else decide (port < 16)

/-- A target that Table SIG-3 names. -/
def targetNamed (t : Nat) : Bool := decide (t ≤ 51) || (decide (64 ≤ t) && decide (t ≤ 87))

/-- Reserved bits and code points of a route entry. -/
def rtReserved (e : Nat) : Bool :=
  bf e 44 3 != 0 || bf e 58 5 != 0 || bf e 93 3 != 0 || bf e 108 3 != 0 || (keyBits (rtForm e)).isNone
    || (if rtIsGroup e then bf e 136 120 != 0
      else [0, 1, 2, 3].any (fun k => bf (rtSlot e k) 22 10 != 0 || slSleep (rtSlot e k) == 3))

/-- A valid route entry breaks R159 or R160. -/
def rtBad (e : Nat) : Bool :=
  decide (2 ^ (keyBits (rtForm e)).getD 0 ≤ rtId e) || !keyPortOk (rtForm e) (rtPort e)
    || decide (65536 < rtSigFirst e + rtSigCount e)
    || (!rtIsGroup e && [0, 1, 2, 3].any (fun k =>
      let s := rtSlot e k
      slEn s && (!targetNamed (slTarget s) || (decide (64 ≤ slTarget s) && !rtSecInEn e))))

/-- Two route entries carry one key. -/
def rtSameKey (a b : Nat) : Bool := rtPort a == rtPort b && rtForm a == rtForm b && rtId a == rtId b

/-- A request's field key is that of a route entry. -/
def rqRoutes (r e : Nat) : Bool :=
  rqKeyType r == 1 && rqIngress r == rtPort e && rqForm r == rtForm e && rqId r == rtId e

/-- An admitted contract carries the key of a route entry. -/
def Dev.keyAdmitted (d : Dev) (e : Nat) : Bool := rtValid e && d.requests.any (fun c => rqRoutes c.2 e)

/-- The code with which a WRITE of value `v` to entry `i` stops, where it leaves the tables as in `after`; none where it may be
written. -/
def Dev.writeErrorIn (d after : Dev) (t i v : Nat) : Option Nat :=
  let fmt (b : Bool) : Option Nat := if b then some errFormat else none
  match t with
  | 2 => fmt (bf v 20 28 != 0 || bf v 68 28 != 0 || bf v 99 13 != 0 || (vlanValid v && (i == 0 || i == 4095)))
  | 4 =>
    let old := d.tget 4 0 i
    if d.keyAdmitted old && old != v then some errLocked
    else if rtReserved v || (rtMonEn v && rtMonMs v == 0) then some errFormat
    else if !rtValid v then none
    else fmt (rtBad v || i / 4 != routeSet (rtPort v) (rtForm v) (rtId v)
      || (setWays (i / 4)).any (fun j => j != i && rtValid (after.tget 4 0 j) && rtSameKey (after.tget 4 0 j) v))
  | 5 =>
    let n := bf v 0 32
    if d.flag (F.ETH_GATE_STATUS_PENDING (i / 1024)) then some errLocked
    else fmt (bf v 40 24 != 0 || decide (n < 64) || n % 8 != 0 || decide (1000000000 < n))
  | 7 =>
    let past := (sigPositions (sgDstMot v) (sgLen v) (sgDst v)).any (fun q => decide (imgWidth (sgTarget v) ≤ q))
    fmt (bf v 61 2 != 0 || (sgValid v && (decide (4351 < sgTarget v) || past)))
  | _ => none

/-- The same, of an entry written by itself. -/
def Dev.writeError (d : Dev) (t i v : Nat) : Option Nat := d.writeErrorIn d t i v

/-- A monitor is armed anew by the first frame after its route entry is written (R172). -/
def Dev.monDisarm (d : Dev) (e : Nat) : Dev :=
  if rtValid e && rtMonEn e then
    let m := rtMon e
    ({ d with ste := { d.ste with mons := SMap.set d.ste.mons none m none } }).tset (steMem 7) 0 m
      (bf (d.tget (steMem 7) 0 m) 0 32)
  else d

/-- One entry is written by ring 57. -/
def Dev.hostEntry (d : Dev) (t i v : Nat) : Dev :=
  let d1 := if t == 4 then (d.monDisarm (d.tget 4 0 i)).monDisarm v else d
  d1.entryWrite t i v

/-! ### WRITE and READ (R137 to R139) -/

/-- Fields of Table TBL-6. -/
def Dev.opTable (d : Dev) (o : Op) : Nat := leNat (d.hostRead o.param 1)
def Dev.opFlags (d : Dev) (o : Op) : Nat := leNat (d.hostRead (o.param + 1) 1)
def Dev.opIndex (d : Dev) (o : Op) : Nat := leNat (d.hostRead (o.param + 4) 4)
def Dev.opCnt (d : Dev) (o : Op) : Nat := leNat (d.hostRead (o.param + 8) 4)
def Dev.opBuffer (d : Dev) (o : Op) : Nat := leNat (d.hostRead (o.param + 16) 8)

/-- The RESULT of a WRITE (Table TBL-6). -/
def Dev.tblResult (d : Dev) (o : Op) : Dev :=
  let a := leNat (d.hostRead (o.param + 24) 8)
  let t := d.opTable o
  if a == 0 then d
  else d.hostWrite a (leBytes 4 (d.get (F.TBL_GEN_GEN t)) ++ leBytes 4 (if t == 5 then d.get F.TBL_GEN_5B_GEN else 0))

/-- The operation with `n` entries done. -/
def Op.at (o : Op) (n : Nat) : Op := { o with pos := n, progress := n, partialCnt := n }

/-- A WRITE of an entry has to wait: an ADMIT in progress may rest on the route entry (R138), or pipeline B is copying the
table (R500). -/
def Dev.writeWaits (d : Dev) (t i : Nat) : Bool :=
  (d.pwr.tileBCopy && tblBoth t)
    || (t == 4 && (match d.running 56 [1] with
      | some o => rtValid (d.tget 4 0 i) && rqRoutes (leNat (d.hostRead o.param 64)) (d.tget 4 0 i)
      | none => false))

/-- Up to `n` further entries of a WRITE; `k` are written. -/
def Dev.writeOn (d : Dev) (o : Op) (t first cnt buf : Nat) : Nat → Nat → Dev
  | 0, k => d.setOp (o.at k)
  | n + 1, k =>
    let i := first + k
    if d.writeWaits t i then d.setOp (o.at k)
    else
      let v := leNat (d.hostRead (buf + tblSize t * k) (tblSize t))
      match d.writeError t i v with
      | some e => (d.tblResult o).opFail (o.at k) e
      | none =>
        let d1 := d.hostEntry t i v
        if cnt ≤ k + 1 then (d1.tblResult o).opDone (o.at cnt)
        else d1.writeOn o t first cnt buf n (k + 1)

/-- All entries of a BATCH in one cycle, or none. -/
def Dev.writeBatch (d : Dev) (o : Op) (t first cnt buf : Nat) : Dev :=
  if (List.range cnt).any (fun k => d.writeWaits t (first + k)) then d
  else
    -- the entries as staged: each is tested against the set as the whole batch leaves it (R158)
    let l := (List.range cnt).map (fun k => (first + k, leNat (d.hostRead (buf + tblSize t * k) (tblSize t))))
    let after := l.foldl (fun d x => d.tset t 0 x.1 x.2) d
    match l.findSome? (fun x => d.writeErrorIn after t x.1 x.2) with
    | some e => (d.tblResult o).opFail (o.at 0) e
    | none => ((l.foldl (fun d x => d.hostEntry t x.1 x.2) d).tblResult o).opDone (o.at cnt)

/-- The running WRITE goes on by up to `n` entries. -/
def Dev.tblWrite (d : Dev) (n : Nat) : Dev :=
  match d.running 57 [1] with
  | none => d
  | some o =>
    let t := d.opTable o
    let first := d.opIndex o
    let cnt := d.opCnt o
    let buf := d.opBuffer o
    let batch := bit (d.opFlags o) 0
    if 9 < t || cnt == 0 || tblEntries t < first + cnt then d.opFail o errFormat
    else if t == 0 || t == 1 || t == 3 then d.opFail o errFormat
    else if t == 6 then d.opFail o errLocked
    else if batch && decide (8192 < cnt * tblSize t) then d.opFail o errLength
    else if o.stop then (d.tblResult o).finish o .aborted errAborted
    else if batch then d.writeBatch o t first cnt buf
    else d.writeOn o t first cnt buf n o.pos

/-- One entry as READ returns it (R130, R139). -/
def Dev.readEntry (d : Dev) (t c i : Nat) : Dev × List Byte :=
  match d.entryRead t c i with
  | (d1, some v) => (d1, leBytes (tblSize t) v)
  | (d1, none) => (d1, List.replicate (tblSize t) 0xFF)

/-- Up to `n` further entries of a READ; `k` are copied. -/
def Dev.readOn (d : Dev) (o : Op) (t c first cnt buf : Nat) : Nat → Nat → Dev
  | 0, k => d.setOp (o.at k)
  | n + 1, k =>
    let (d1, bs) := d.readEntry t c (first + k)
    let d2 := d1.hostWrite (buf + tblSize t * k) bs
    if cnt ≤ k + 1 then d2.opDone (o.at cnt) else d2.readOn o t c first cnt buf n (k + 1)

/-- The running READ goes on by up to `n` entries. -/
def Dev.tblRead (d : Dev) (n : Nat) : Dev :=
  match d.running 57 [2] with
  | none => d
  | some o =>
    let t := d.opTable o
    let first := d.opIndex o
    let cnt := d.opCnt o
    let c := b2n (bit (d.opFlags o) 1 && tblBoth t)
    if 9 < t || cnt == 0 || tblEntries t < first + cnt then d.opFail o errFormat
    else if !d.ready 3 && (t == 1 || c == 1) then d.opFail o errDomainOff
    else if o.stop then d.finish o .aborted errAborted
    else d.readOn o t c first cnt (d.opBuffer o) n o.pos

/-! ### FDB operations (R133, R140 to R142, R535) -/

/-- Fields of Table TBL-7. -/
def Dev.opPipes (d : Dev) (o : Op) : List Nat := bitsOf 2 (leNat (d.hostRead o.param 1))
def Dev.opEntry (d : Dev) (o : Op) : Nat := leNat (d.hostRead (o.param + 16) 16)

/-- An ENTRY that FDB_INSERT rejects (R133). DESIGN CHOICE (log 83): so does one with a reserved bit set or with VALID = 0, which R133
does not list. -/
def fdbBad (e : Nat) : Bool :=
  let portBad := if fdbGroup e then bf e 84 28 != 0 else bf e 72 40 != 0 || !(decide (fdbPort e < 20) || fdbPort e == 48)
  !fdbValid e || bf e 114 14 != 0 || portBad || ((fdbGroup e || fdbPort e == 48) && !fdbStatic e)
    || (fdbDiscard e && (fdbGroup e || !fdbStatic e))

/-- The entries of a set are read, with what their ECC finds (R130). -/
def Dev.setRead (d : Dev) (pipe set : Nat) : Dev := (setWays set).foldl (fun d i => (d.entryRead pipe 0 i).1) d

/-- The way an inserted entry takes: the key's own, the lowest free, a learned stale one, a learned one (R140). -/
def Dev.insertWay (d : Dev) (pipe e : Nat) : Option Nat :=
  let ways := setWays (fdbSet (fdbMac e) (fdbVid e))
  let at_ (g : Nat → Bool) : Option Nat := ways.find? (fun i => g (d.fdbEnt pipe i))
  (at_ (fun x => fdbValid x && fdbMac x == fdbMac e && fdbVid x == fdbVid e)).orElse (fun _ =>
    (at_ (fun x => !fdbValid x)).orElse (fun _ =>
      (at_ (fun x => !fdbStatic x && fdbStale x)).orElse (fun _ => at_ (fun x => !fdbStatic x))))

/-- FDB_INSERT in one pipeline: REMOVE of what stood there, then LEARN. -/
def Dev.fdbInsert (d : Dev) (pipe e : Nat) : Dev :=
  match d.insertWay pipe e with
  | none => d
  | some i =>
    let x := d.fdbEnt pipe i
    let d1 := if fdbValid x then
        d.fdbRemove 0x04 (if fdbMac x == fdbMac e && fdbVid x == fdbVid e then 4 else 3) pipe i
      else d
    d1.fdbLearn 1 pipe i e

/-- The entry a flush removes (Table TBL-7). -/
def fdbFlushes (filter port vid e : Nat) : Bool :=
  let hit := if fdbGroup e then decide (port < 20) && bit (bf e 64 48) port else fdbPort e == port
  fdbValid e && (bit filter 2 || !fdbStatic e) && (!bit filter 0 || hit) && (!bit filter 1 || fdbVid e == vid % 4096)

/-- One set of a flush. -/
def Dev.flushSet (d : Dev) (pipe set filter port vid : Nat) : Dev :=
  (setWays set).foldl (fun d i => match d.entryRead pipe 0 i with
    | (d1, some e) => if fdbFlushes filter port vid e then d1.fdbRemove 0x04 2 pipe i else d1
    | (d1, none) => d1) d

/-- Ring 60 lets an operation change entries that may take `n` events. -/
def Dev.room60 (d : Dev) (n : Nat) : Bool := !d.ring60On || d.eventOk 60 n

/-- Up to `n` further sets of a flush; `k` are visited. -/
def Dev.flushOn (d : Dev) (o : Op) (pipes : List Nat) (filter port vid : Nat) : Nat → Nat → Dev
  | 0, k => d.setOp { o with pos := k, progress := k }
  | n + 1, k =>
    if !d.room60 12 then d.setOp { o with pos := k, progress := k }
    else
      let d1 := d.flushSet ((pipes[k / 8192]?).getD 0) (k % 8192) filter port vid
      if pipes.length * 8192 ≤ k + 1 then d1.opDone { o with pos := k + 1, progress := k + 1 }
      else d1.flushOn o pipes filter port vid n (k + 1)

/-- The running FDB operation of one of the given opcodes; a flush goes on by up to `n` sets. -/
def Dev.fdbOp (d : Dev) (opcodes : List Nat) (n : Nat) : Dev :=
  match d.running 57 opcodes with
  | none => d
  | some o =>
    let pipes := d.opPipes o
    let filter := leNat (d.hostRead (o.param + 1) 1)
    let port := leNat (d.hostRead (o.param + 2) 1)
    let e := d.opEntry o
    if pipes.isEmpty then d.opFail o errFormat
    else if pipes.contains 1 && !d.ready 3 then d.opFail o errDomainOff
    else if o.opcode == 3 && fdbBad e then d.opFail o errFormat
    else if o.opcode == 5 && bit filter 0 && !(decide (port < 20) || port == 48) then d.opFail o errFormat
    else if o.stop then d.finish o .aborted errAborted
    else if o.opcode == 5 then d.flushOn o pipes filter port (leNat (d.hostRead (o.param + 4) 2)) n o.pos
    else if !d.room60 (8 + 2 * pipes.length) then d
    else if o.opcode == 3 then
      let d0 := pipes.foldl (fun d p => d.setRead p (fdbSet (fdbMac e) (fdbVid e))) d
      if pipes.any (fun p => (d0.insertWay p e).isNone) then d0.opFail o errNores
      else (pipes.foldl (fun d p => d.fdbInsert p e) d0).opDone { o with progress := 1, partialCnt := 1 }
    else
      let d1 := pipes.foldl (fun d p =>
        match d.fdbFind p (fdbMac e) (fdbVid e) with
        | (d0, some (i, _)) => d0.fdbRemove 0x04 1 p i
        | (d0, none) => d0) d
      d1.opDone { o with progress := 1, partialCnt := 1 }

/-- The table engine takes its next operation (R136). -/
def Dev.tblStart (d : Dev) : Dev :=
  match d.running 57 [1, 2, 3, 4, 5], d.nextQueued 57 [1, 2, 3, 4, 5] with
  | none, some o => if d.ready 2 then d.startOp o else d
  | _, _ => d

/-! ### Burnisher (R148) -/

/-- One entry of a visited set; one refreshed in the cycle of the visit keeps HIT (R149). -/
def Dev.burnEntry (d : Dev) (pipe i : Nat) : Dev :=
  match d.entryRead pipe 0 i with
  | (d1, none) => d1
  | (d1, some e) =>
    if !fdbValid e || fdbStatic e || d1.refreshed pipe i then d1
    else if fdbHit e then d1.tset pipe 0 i (setBit e 62 false)
    else if !fdbStale e then d1.tset pipe 0 i (setBit e 63 true)
    else if d1.learnHeld then d1.inc F.TBL_AGE_DEFERRED_COUNT
    else d1.fdbRemove 0x03 0 pipe i

/-- The next set of a pipeline's sweep. -/
def Dev.burnVisit (d : Dev) (pipe : Nat) : Dev :=
  let sec := if pipe == 0 then d.get F.TBL_BURN_CFG_A_SWEEP_S else d.get F.TBL_BURN_CFG_B_SWEEP_S
  if sec == 0 || !d.ready (if pipe == 0 then 2 else 3) then d
  else
    let b := if pipe == 0 then d.tables.burnA else d.tables.burnB
    let d1 := (setWays b.next).foldl (fun d i => d.burnEntry pipe i) (d.reach (b.last + sec * sCyc / 8192))
    let b1 : Burn := ⟨(b.next + 1) % 8192, d1.now⟩
    { d1 with tables := if pipe == 0 then { d1.tables with burnA := b1 } else { d1.tables with burnB := b1 } }

/-! ### Assay (R151 to R155) -/

/-- An Assay event, or its loss while ring 60 is full. -/
def Dev.assayEvent (d : Dev) (type reason t c i e sgen gen : Nat) : Dev :=
  let fdb := decide (t < 2)
  if d.ring60On && !d.eventOk 60 1 then d.inc F.TBL_ASSAY_EV_LOST_COUNT
  else d.event60 (tblEntry type (if t == 1 then 1 else c) (b2n (fdb && fdbEgrL e)) (b2n (fdb && fdbStatic e)) t reason i
    (if fdb then fdbMac e else 0) (if fdb then fdbVid e else 0) 0xFF 0xFF sgen gen d.dtime)

/-- A copy of a table that Assay compares: its shadow is enabled, ring 60 where it is an FDB, and the copy exists (R147, R152,
R535). -/
def Dev.assayTakes (d : Dev) (t c : Nat) : Bool :=
  d.flag (F.TBL_SHADOW_EN t) && (decide (2 ≤ t) || d.ring60On) && (!(t == 1 || c == 1) || d.ready 3)

/-- The tables of a pass: table, copy, first entry. -/
def Dev.assayTables (d : Dev) : List (Nat × Nat × Nat) :=
  (List.range 8).flatMap (fun t => ((if tblBoth t then [0, 1] else [0]).filter (fun c => d.assayTakes t c)).map (fun c => (t, c, 0)))

/-- A pass starts when it is due and none runs; one that runs on sets OVERRUN (R152). -/
def Dev.assayStart (d : Dev) : Dev :=
  if !d.flag F.TBL_ASSAY_CTRL_EN || !d.ready 2 then d
  else
    let d1 := match d.tables.passDue with
      | some t => d.reach t
      | none => d
    let now := d1.now
    if d1.tables.pass.isSome then d1.set F.TBL_ASSAY_STATUS_OVERRUN 1
    else
      let next := d1.tables.passDue.getD now + atLeastOne (d1.get F.TBL_ASSAY_PASS_PASS_MS) * msCyc
      ({ d1 with tables := { d1.tables with pass := some now, passDue := some (max next now), todo := d1.assayTables } }).set
        F.TBL_ASSAY_STATUS_BUSY 1

/-- A pass ends: complete (0), or abandoned for a DMA error (1). -/
def Dev.assayEnd (d : Dev) (reason : Nat) : Dev :=
  let d1 := ({ d with tables := { d.tables with pass := none, todo := [] } }).set F.TBL_ASSAY_STATUS_BUSY 0
  let d2 := if reason == 0 then d1.set F.TBL_ASSAY_STATUS_PASSES ((d1.get F.TBL_ASSAY_STATUS_PASSES + 1) % 65536) else d1
  d2.assayEvent 0x13 reason 0 0 0 0 0 0

/-- A shadow's entry in host memory (R151). -/
def Dev.shadowEntry (d : Dev) (t i : Nat) : Nat :=
  leNat (d.hostRead (d.get (F.TBL_SHADOW_BASE_LO t) * 64 + d.get (F.TBL_SHADOW_HI_BASE_HI t) * 2 ^ 32 + 64 + tblSize t * i) (tblSize t))

/-- The applied generation of a shadow for a copy. -/
def Dev.shadowGen (d : Dev) (t c : Nat) : Nat :=
  let a := d.get (F.TBL_SHADOW_BASE_LO t) * 64 + d.get (F.TBL_SHADOW_HI_BASE_HI t) * 2 ^ 32
  leNat (d.hostRead (a + if (t == 5 || t == 6) && c == 1 then 4 else 0) 4)

/-- An entry is valid; gate entries carry no VALID bit. -/
def entryValid (t e : Nat) : Bool :=
  match t with
  | 0 | 1 => fdbValid e
  | 2 => vlanValid e
  | 3 => bit e 63
  | 4 => rtValid e
  | 7 => sgValid e
  | _ => true

/-- The defined fields of an entry that are compared (R153). -/
def entryDefined (t e : Nat) : List Nat :=
  match t with
  | 0 | 1 => [bf e 0 62, if fdbGroup e then bf e 64 20 else bf e 64 8, bf e 112 2]
  | 2 => [bf e 0 20, bf e 48 20, bf e 96 3]
  | 3 => [bf e 0 60, bf e 63 17, bf e 128 128]
  | 4 => [bf e 0 44, bf e 47 11, bf e 63 30, bf e 96 12, bf e 111 17,
      if rtIsGroup e then bf e 128 8 else bf e 128 22, if rtIsGroup e then 0 else bf e 160 22,
      if rtIsGroup e then 0 else bf e 192 22, if rtIsGroup e then 0 else bf e 224 22]
  | 5 | 6 => [bf e 0 40]
  | _ => [bf e 0 61, bf e 63 1]

/-- Two entries are equal. -/
def entrySame (t a b : Nat) : Bool :=
  (!entryValid t a && !entryValid t b) || (entryValid t a && entryValid t b && entryDefined t a == entryDefined t b)

/-- Whether Table TBL-1 and R154 let Assay repair hardware entry `i` from a shadow entry; VID 0 and VID 4,095 stay invalid (R134). -/
def Dev.mayRepair (d : Dev) (t i h s : Nat) : Bool :=
  bit (d.get F.TBL_ASSAY_CTRL_REPAIR) t && t != 3 && t != 6 && !(t == 2 && vlanValid s && (i == 0 || i == 4095))
    && (2 ≤ t || ((!fdbValid h || fdbStatic h) && (!fdbValid s || fdbStatic s) && d.eventOk 60 1))
    && (t != 4 || (!d.keyAdmitted h && !d.keyAdmitted s))

/-- A mismatch (R153 to R155) of the listed entries of a copy, with hardware and shadow values. -/
def Dev.assayMismatch (d : Dev) (t c : Nat) (l : List (Nat × Nat × Nat)) (ue : Bool) (applied gen : Nat) : Dev :=
  let i := (l.head?.map (fun x => x.1)).getD 0
  let h := (l.head?.map (fun x => x.2.1)).getD 0
  let s := (l.head?.map (fun x => x.2.2)).getD 0
  let d1 := (d.inc F.TBL_ASSAY_MISMATCH_COUNT).assayEvent 0x10 (b2n ue) t c i (if fdbValid h then h else s) (applied % 65536) gen
  let crit := t == 3 || t == 6 || (t == 4 && (d1.keyAdmitted h || d1.keyAdmitted s))
  let d2 := if crit then
      (d1.fault blkTbl 1).event61 0x05 blkTbl 1 (accNone * 8) 0
        (leBytes 1 t ++ leBytes 1 (if t == 1 then 1 else c) ++ leBytes 2 0 ++ leBytes 4 i)
    else d1
  if l.all (fun x => d2.mayRepair t x.1 x.2.1 x.2.2) then
    let d3 := d2.genBump t c
    let g := d3.get (genCounter t c) % 65536
    let d4 := (l.foldl (fun d x => d.entryPut t c x.1 (withGen t x.2.2 g)) d3).genStamp t c i
    (d4.inc F.TBL_ASSAY_REPAIRED_COUNT).assayEvent 0x11 0 t c i s (applied % 65536) g
  else d2

/-- `a` is newer than `b` in serial arithmetic modulo 2¹⁶. -/
def newer16 (a b : Nat) : Bool :=
  let x := (a + 65536 - b % 65536) % 65536
  decide (0 < x) && decide (x < 32768)

/-- One entry or group is compared. -/
def Dev.assayUnit (d : Dev) (t c i : Nat) : Dev :=
  let applied := d.shadowGen t c
  let gen := d.gen t c i
  if newer16 gen applied then d
  else
    let idx := if 5 ≤ t then (List.range 8).map (fun k => i + k) else [i]
    let ue := idx.any (fun k => d.tables.bad.contains (tkey t c k))
    let d1 := idx.foldl (fun d k => (d.entryRead t c k).1) d
    let l := idx.map (fun k => (k, d1.tget t c k, d1.shadowEntry t k))
    if !ue && l.all (fun x => entrySame t x.2.1 x.2.2) then d1 else d1.assayMismatch t c l ue applied gen

/-- Assay compares up to `n` entries or groups of the pass. -/
def Dev.assayRun (d : Dev) : Nat → Dev
  | 0 => d
  | n + 1 =>
    match d.tables.todo with
    | [] => d.assayEnd 0
    | (t, c, i) :: l =>
      if !d.assayTakes t c then ({ d with tables := { d.tables with todo := l } }).assayRun n
      else
      let lag := (d.get (genCounter t c) + 2 ^ 32 - d.shadowGen t c) % 2 ^ 32
      if 16384 < lag && lag < 2 ^ 31 then
        -- the table is skipped, both copies where they share one counter
        let rest := l.filter (fun x => x.1 != t || decide (5 ≤ t))
        (({ d with tables := { d.tables with todo := rest } }).assayEvent 0x12 0 t c 0 0 (d.shadowGen t c % 65536) 0).assayRun n
      else
        let next := i + if 5 ≤ t then 8 else 1
        let rest := if tblEntries t ≤ next then l else (t, c, next) :: l
        (({ d with tables := { d.tables with todo := rest } }).assayUnit t c i).assayRun n

/-- ASSAY_COMPARE: Assay goes on with its pass. -/
def Dev.assayCompare (d : Dev) (n : Nat) : Dev :=
  if d.tables.pass.isNone then d
  else
    let d1 := d.assayRun n
    if d1.tables.pass.isSome && d1.tables.todo.isEmpty then d1.assayEnd 0 else d1

/-- A DMA error met by Assay (R155). -/
def Dev.assayDmaError (d : Dev) : Dev :=
  if d.tables.pass.isNone then d else (d.fltSet blkTbl 2).assayEnd 1

/-! ### The read window (R156) -/

/-- The entry that the window selects is copied into WIN_DATA. An entry that the table does not have, or in a copy that
does not exist, has no stated value: it is free (log 3). DESIGN CHOICE (log 83): an entry in uncorrectable error shows bytes 0xFF, as
R130 says of a READ of ring 57. -/
def Dev.winRead (d : Dev) : Dev :=
  let t := d.get F.TBL_WIN_CTRL_TABLE
  let i := d.get F.TBL_WIN_INDEX_INDEX
  let c := b2n (d.flag F.TBL_WIN_CTRL_PIPE_B && tblBoth t)
  let put (d : Dev) (bs : List Byte) (g : Nat) : Dev :=
    (((List.range 8).foldl (fun d k => d.setReg (R.TBL_WIN_DATA k) (leNat (slice bs (4 * k) 4))) d).set F.TBL_WIN_GEN_GEN g)
  if tblEntries t ≤ i || ((t == 1 || c == 1) && !d.ready 3) then put d.tookFree (d.freeBytes 32) (d.freeNat 16)
  else
    let (d1, bs) := d.readEntry t c i
    let off := if 8 ≤ t then 32 * d.get F.TBL_WIN_CTRL_CHUNK else 0
    put d1 (slice bs off 32) (if t < 8 then d1.gen t c i else 0)

end Sys2Proof.Machine
end

