-- ==== Sys2Proof/Machine/SteCmd.lean ====
section
/-!
DEFINITION. What the signal transplant engine does of itself (R170 to R175, R180, R185), and the access to its memories
(R163, R165, R173, R188).
-/
namespace Sys2Proof.Machine

/-! ### Signal routes, monitors and releases -/

/-- The first frame handed to target 50 is served (R170). -/
def Dev.sigNext (d : Dev) : Dev :=
  match d.ste.sigs with
  | [] => d
  | x :: l =>
    let d0 := { d with ste := { d.ste with sigs := l } }
    if !d0.steRuns then d0
    else
      let (d1, tr) := d0.sigRun x.data x.count x.first []
      d1.triggerAll tr

/-- A source monitor times out (R172). -/
def Dev.monTimeout (d : Dev) (m : Nat) : Dev :=
  match SMap.get d.ste.mons none m with
  | none => d
  | some (last, idx) =>
    if !d.steRuns then d
    else
    let (da, ent) := (d.steTouch 7 m).entryRead 4 0 idx
    let e := ent.getD 0
    let mon := da.steEnt 7 m
    if !rtValid e || !rtMonEn e || rtMon e != m || !bit mon 32 || bit mon 33 then da
    else
      let d0 := da.reach (last + rtMonMs e * msCyc)
      let d1 := (d0.tset (steMem 7) 0 m (setBit (d0.tget (steMem 7) 0 m) 33 true)).inc F.STE_MON_TIMEOUT_COUNT
      let (d2, tr) := d1.sigTimeout (rtSigCount e) (rtSigFirst e) []
      d2.triggerAll tr

/-- The next cyclic instant of an image is reached (R174). -/
def Dev.cyclic (dd : Dev) (i : Nat) : Dev :=
  let e := dd.steEnt 0 i
  let d := if dd.flag F.STE_CTRL_CYC_EN && dd.steRuns then dd.steTouch 0 i else dd
  if !imValid e || imMode e < 2 || !dd.flag F.STE_CTRL_CYC_EN || !dd.steRuns then d
  else
    let t := d.dtime
    let first := if t == 0 && imPhase e == 0 then 0 else nextCyclic (imPeriod e) (imPhase e) (t - 1)
    let due := if (d.image i).cyc == some first || d.time.stepAt == some first then nextCyclic (imPeriod e) (imPhase e) first else first
    let d1 := d.reachDtime due
    (d1.setImage i { d1.image i with cyc := some due }).release i true

/-- The gap of a pending trigger ends (R174). -/
def Dev.gapEnd (d : Dev) (i : Nat) : Dev :=
  let x := d.image i
  if !x.pend || !d.steRuns then d
  else
    match x.last with
    | some t => (d.reach (t + imGap (d.steEnt 0 i) * msCyc)).release i false
    | none => d.release i false

/-- The hold time of an open container ends (R180). -/
def Dev.holdEnd (d : Dev) (c : Nat) : Dev :=
  match d.cont c with
  | none => d
  | some k => ((d.steTouch 5 c).reach (k.since + k.hold * usCyc)).contClose c

/-! ### Event PDUs (R184, R185) -/

/-- The transport engine holds a stored PDU (R304), which has no egress. -/
def Dev.xptHolds (d : Dev) (h : Nat) : Bool :=
  d.xpt.pduq.any (fun x => x.handle == some h) || d.xpt.sess.any (fun x => match x.2 with
    | some s => s.handle == some h
    | none => false)

/-- A stored frame has reached residence end on every egress: it is whole, and what copies it still has are in transmission. -/
def Dev.ended (d : Dev) (h : Nat) (f : Frame) : Bool :=
  (f.whole || d.xptHolds h) && (d.copiesOf h).all (fun c => c.started)

/-- An event may leave the queue: every frame that entered through its port before it, in the field queue, in an intake, stored,
or carried in a container, has reached residence end, or the channel's commands before it have been delivered (R185). -/
def Dev.eventFree (d : Dev) (e : SteEvent) : Bool :=
  if 64 ≤ e.source then !d.load.flight.any (fun x => x.1 == e.source - 64 && decide (x.2.2.2 < e.order))
  else
    let before (p n : Nat) : Bool := p == e.source && decide (n < e.order)
    !(d.fwd.frames.any (fun x => match x.2 with
      | some f => (before f.ingress f.order || f.carries.any (fun y => before y.1 y.2)) && !d.ended x.1 f
      | none => false))
      && !(d.ste.intakes.any (fun x => before x.port x.order))
      && !(decide (12 ≤ e.source) && (d.fq (fqOf e.source)).any (fun r => decide (r.order < e.order)))

/-- The payload of an event PDU (Table SIG-15). -/
def SteEvent.bytes (e : SteEvent) : List Byte :=
  beBytes 1 e.type ++ beBytes 1 e.source ++ beBytes 2 e.detail ++ beBytes 4 0 ++ beBytes 8 e.time

/-- The first event that may leave the queue enters its container. -/
def Dev.eventRelease (d : Dev) : Dev :=
  match d.ste.events.find? d.eventFree with
  | none => d
  | some e =>
    let d1 := { d with ste := { d.ste with events := d.ste.events.erase e } }
    if !d1.steRuns then d1
    else
      let c := d1.get F.STE_EVF_CFG_CONTAINER
      let d2 := d1.steTouch 5 c
      if !coValid (d2.steEnt 5 c) then d2.inc F.STE_FORMAT_DROP_COUNT
      else d2.contPdu c (d2.get F.STE_EVF_PDU_ID_ID) e.bytes (d2.beDeadline d2.dtime (coTc (d2.steEnt 5 c))) none 49 0

/-! ### Memory access (R188) -/

/-- The number in a run of data registers. -/
def Dev.dataRegs (d : Dev) (r : Nat → Nat) (n : Nat) : Nat := leNat ((List.range n).flatMap (fun k => leBytes 4 (d.reg (r k))))

/-- A number is put into a run of data registers. -/
def Dev.setDataRegs (d : Dev) (r : Nat → Nat) (n v : Nat) : Dev :=
  (List.range n).foldl (fun d k => d.setReg (r k) (bf v (32 * k) 32)) d

/-- An identifier without the bits its form does not use. -/
def formId (form id : Nat) : Nat := id % 2 ^ (keyBits form).getD 32

/-- The bits of an entry that a write stores: reserved bits read 0, and the operational fields of a container stay. -/
def steStored (m old v : Nat) : Nat :=
  match m with
  | 0 => formId (imForm v) (imId v) + bf v 32 14 * 2 ^ 32 + bf v 48 12 * 2 ^ 48 + bf v 64 46 * 2 ^ 64 + bf v 112 10 * 2 ^ 112
      + bf v 127 1 * 2 ^ 127
  | 1 => bf v 0 210
  | 2 => formId (edForm v) (edId v) + bf v 32 4 * 2 ^ 32 + bf v 40 6 * 2 ^ 40 + bf v 48 10 * 2 ^ 48 + bf v 63 3 * 2 ^ 63
  | 3 => bf v 0 140 + bf v 143 3 * 2 ^ 143 + bf v 152 1 * 2 ^ 152
  | 4 => bf v 0 133 + bf v 136 1 * 2 ^ 136
  | 5 => bf v 0 69 + bf v 72 3 * 2 ^ 72 + bf v 80 32 * 2 ^ 80 + bf v 128 32 * 2 ^ 128 + bf old 160 16 * 2 ^ 160
      + bf old 192 32 * 2 ^ 192 + bf v 224 1 * 2 ^ 224
  | _ => bf v 0 60 + bf v 63 10 * 2 ^ 63 + bf v 128 64 * 2 ^ 128

/-- An entry that a write rejects (R157, R163, R173, Tables SIG-6 and SIG-14): reserved codes and port-set bits in any entry (R10,
R22), values outside their ranges in a valid one. -/
def steBad (m i v : Nat) : Bool :=
  match m with
  | 0 =>
    !(decide (imForm v ≤ 5) || imForm v == 8)
      || (imValid v && (imLen v == 0 || decide ((if i < 4096 then 64 else 2048) < imLen v)
        || (decide (2 ≤ imMode v) && (imPeriod v == 0 || decide (10000 < imPeriod v) || decide (imPeriod v ≤ imPhase v)))
        || (imForm v != 8 && !(decide (20 ≤ imPort v) && decide (imPort v < 48)))))
  | 2 => (keyBits (edForm v)).isNone
  | 3 => bf v 52 76 != 0 || grSleep v == 3 || (bf v 0 20 != 0 && !grEditEn v)
  | 5 => coValid v && (decide (19 < coEgress v) || decide (coMax v < 64) || decide (9000 < coMax v) || decide (coThresh v < 16)
      || decide (coMax v < coThresh v) || decide (1000000 < coHold v))
  | 6 => decide (1 < inKind v)
  | _ => false

/-- The route of an admitted contract names an entry (R165). -/
def Dev.steNamed (d : Dev) (m i : Nat) : Bool :=
  d.admitted.any (fun c => match d.contractRoute c.2 with
    | none => false
    | some e =>
      (m == 3 && rtIsGroup e && rtGroup e == i)
        || (d.rtTargets e).any (fun t => match t.edit with
          | none => false
          | some k =>
            let x := d.tget (steMem 2) 0 k
            (m == 2 && k == i) || (m == 4 && decide (9 ≤ edForm x) && decide (edForm x ≤ 12) && edProfile x == i)
              || (m == 5 && edForm x == 8 && edProfile x == i)))

/-- What R165 protects of an entry: all but the staged threshold and hold time of a container. -/
def steFixed (m v : Nat) : Nat := if m == 5 then setBf (setBf v 96 16 0) 128 32 0 else v

/-- The access that MEM_CMD.GO starts. -/
def Dev.steAccess (d : Dev) : Dev :=
  let m := d.get F.STE_MEM_SEL_MEM
  let i := d.get F.STE_MEM_SEL_INDEX
  let write := d.flag F.STE_MEM_CMD_WRITE
  let res (d : Dev) (c : Nat) : Dev := d.set F.STE_MEM_CMD_RESULT c
  if steEntries m ≤ i || (m == 7 && write) then res d errFormat
  else if write then
    let old := d.tget (steMem m) 0 i
    let raw := d.dataRegs R.STE_MEM_DATA 8 % 2 ^ (8 * steSize m)
    let v := steStored m old raw
    if steFixed m v != steFixed m old && d.steNamed m i then res d errLocked
    else if steBad m i raw then res d errFormat
    else res (d.entryPut (steMem m) 0 i v) errOk
  else res ((d.steTouch m i).setDataRegs R.STE_MEM_DATA 8 (d.steEnt m i)) errOk

end Sys2Proof.Machine
end

