-- ==== Sys2Proof/Machine/CryOps.lean ====
section
/-!
DEFINITION. Host jobs of ring 58 (R313, R314, R322 to R328), INSTALL_SAK (R337), the secure-channel table's access port
(R331), and the TRNG (R338).
-/
namespace Sys2Proof.Machine

/-! ### The provisioning nonce (R355) -/

/-- The provisioning nonce held is `n`, shown in `PROV_NONCE_k` (R355). -/
def Dev.setNonce (d : Dev) (n : Option (List Nat)) : Dev :=
  ({ d with vault := { d.vault with nonce := n } }).setDataRegs R.VAULT_PROV_NONCE 4 (leNat (bytes (n.getD [])))

/-- A PROVISION that ends outside its own execution consumes the nonce as every other does (R355). -/
def Dev.provGone (d : Dev) (o : Op) : Dev := if o.ring == 59 && o.opcode == 0x21 then d.setNonce none else d

/-! ### A job's parameters (Table CRY-3) -/

/-- Bytes `off` to `off + n - 1` of the parameter block as a number. -/
def CryJob.par (j : CryJob) (off n : Nat) : Nat := leNat (slice j.parm off n)
def CryJob.alg (j : CryJob) : Nat := j.par 0 1
def CryJob.mode (j : CryJob) : Nat := j.par 1 1
def CryJob.dir (j : CryJob) : Nat := j.par 2 1
def CryJob.tagLen (j : CryJob) : Nat := j.par 3 1
def CryJob.keySlot (j : CryJob) : Nat := j.par 4 2
def CryJob.ivAddr (j : CryJob) : Nat := j.par 16 8
def CryJob.aadLen (j : CryJob) : Nat := j.par 24 4
def CryJob.inLen (j : CryJob) : Nat := j.par 28 4
def CryJob.aadAddr (j : CryJob) : Nat := j.par 32 8
def CryJob.inAddr (j : CryJob) : Nat := j.par 40 8
def CryJob.outAddr (j : CryJob) : Nat := j.par 48 8
def CryJob.tagAddr (j : CryJob) : Nat := j.par 56 8

/-- Opcodes of ring 58 (Table CRY-2). -/
def opCipher : Nat := 1
def opHash : Nat := 2
def opHmac : Nat := 3
def opEcdsa : Nat := 4
def opRandom : Nat := 5
def opSak : Nat := 6

/-- A GCM or GMAC decryption writes nothing before its tag is known; above 9,216 B it makes two passes (R325). -/
def CryJob.checked (op : Nat) (j : CryJob) : Bool := op == opCipher && (j.mode == 3 || j.mode == 4) && j.dir == 1
def CryJob.bulk (op : Nat) (j : CryJob) : Bool := j.checked op && decide (9216 < j.inLen)

/-- Held-output units of a frame-mode decryption (R327, R328); GMAC has no output. -/
def CryJob.need (op : Nat) (j : CryJob) : Nat :=
  if j.checked op && !j.bulk op && j.mode == 3 then (j.inLen + 127) / 128 else 0

/-- Bytes one pass covers: input, or output of RANDOM; a 32 B digest is not hashed. -/
def CryJob.total (op : Nat) (j : CryJob) : Nat :=
  if op == opSak || (op == opEcdsa && j.mode == 0) then 0 else j.inLen

/-- A reserved field or code of the parameter block is set (R323, R324). Fields that Table CRY-3 gives other algorithms of
the same operation are not reserved. -/
def CryJob.badFormat (op : Nat) (j : CryJob) : Bool :=
  let zero (off n : Nat) : Bool := j.par off n == 0
  let tail := zero 24 4 && zero 32 8
  if op == opSak then !(zero 16 16) || decide (1024 ≤ j.par 0 2) || decide (256 ≤ j.par 2 2)
  else !(zero 6 10) ||
    (if op == opCipher then
      decide (1 < j.alg) || decide (5 < j.mode) || decide (1 < j.dir) || decide (256 ≤ j.keySlot)
        || ((j.mode == 3 || j.mode == 4) && !(decide (12 ≤ j.tagLen) && decide (j.tagLen ≤ 16)))
        || (j.mode == 5 && !(decide (4 ≤ j.tagLen) && decide (j.tagLen ≤ 16)))
    else if op == opHash then decide (1 < j.alg) || !(zero 1 1) || !(zero 16 8) || !tail
    else if op == opHmac then
      decide (1 < j.alg) || !(zero 1 1) || decide (1 < j.dir) || decide (256 ≤ j.keySlot) || !(zero 16 8) || !tail
        || (j.dir == 1 && !(decide (16 ≤ j.tagLen) && decide (j.tagLen ≤ (if j.alg == 0 then 32 else 48))))
    else if op == opEcdsa then
      !(zero 0 1) || decide (1 < j.mode) || !(zero 2 4) || !(zero 24 4) || !(zero 48 16)
    else !(zero 0 6) || !(zero 16 8) || !tail || !(zero 40 8) || !(zero 56 8))

/-- A length is outside Table CRY-4. -/
def CryJob.badLength (op : Nat) (j : CryJob) : Bool :=
  let n := j.inLen
  if op == opCipher then
    (if j.mode < 2 then decide (n < 16) || decide (1048576 < n) || n % 16 != 0
     else if j.mode == 2 then n == 0 || decide (1048576 < n)
     else if j.mode == 5 then decide (65536 < n)
     else decide (1048576 < n) || (j.mode == 3 && decide (65536 < j.aadLen)))
  else if op == opRandom then n == 0 || decide (65536 < n)
  else if op == opEcdsa && j.mode == 0 then n != 32
  else op != opSak && decide (1048576 < n)

/-- The slot a job's key comes from, and the use it makes of it (Table VLT-3). -/
def CryJob.keyUse (op : Nat) (j : CryJob) : Option (Nat × Nat) :=
  if op == opCipher then
    some (j.keySlot, if j.mode == 5 then useMac else if j.dir == 0 then useEncrypt else useDecrypt)
  else if op == opHmac then some (j.keySlot, useHmac)
  else if op == opSak then some (j.par 2 2, useUnwrap)
  else none

/-! ### Running jobs -/

/-- The `k`-th running host job with its operation, if it has one of the given opcodes. -/
def Dev.cryJob (d : Dev) (k : Nat) (ops : List Nat) : Option (CryJob × Op) :=
  (d.cry.jobs[k]?).bind (fun j =>
    (d.host.ops.find? (fun o => o.ring == 58 && o.idx == j.idx && ops.contains o.opcode)).map (fun o => (j, o)))

/-- A running job takes a value. -/
def Dev.setJob (d : Dev) (j : CryJob) : Dev :=
  { d with cry := { d.cry with jobs := d.cry.jobs.map (fun x => if x.idx == j.idx then j else x) } }

/-- The key's bytes that a cipher job uses (R317). -/
def CryJob.cipherKey (j : CryJob) : List Nat := if j.alg == 0 then j.key.take 16 else j.key

/-- The output of a cipher job for the input read so far. -/
def Dev.cipherOut (d : Dev) (j : CryJob) (inp : List Nat) : List Nat :=
  let k := j.cipherKey
  let iv := nats (d.hostRead j.ivAddr (if j.mode == 3 then 12 else 16))
  if j.mode == 0 then aesEcb k inp (j.dir == 1)
  else if j.mode == 1 then
    (if j.dir == 1 then aesCbcDec (roundKeys k) (blocks16 inp) iv else aesCbcEnc (roundKeys k) (blocks16 inp) iv)
  else if j.mode == 2 then aesCtr (roundKeys k) 128 (blocks16 inp) (blockNat iv)
  else if j.mode == 3 then aesCtr (roundKeys k) 32 (blocks16 inp) (blockNat iv * 2 ^ 32 + 2)
  else []

/-- What a job leaves in the held output that it frees (R329). -/
def CryJob.left (d : Dev) (j : CryJob) : List Byte := if j.units == 0 then [] else bytes (d.cipherOut j (nats j.input))

/-- A job ends: its entry and its held output are free (R313, R328). -/
def Dev.cryEnd (d : Dev) (o : Op) (st : OpState) (err : Nat) : Dev :=
  let d1 := d.heldLeft ((d.cry.jobs.filter (fun j => j.idx == o.idx)).flatMap (CryJob.left d))
  ({ d1 with cry := { d1.cry with jobs := d1.cry.jobs.filter (fun j => j.idx != o.idx) } }).finish o st err

/-- A job that has its key takes its held-output units, or waits for them (R327): host jobs hold at most 1,536, and received MACsec
frames may have taken some of those. -/
def Dev.jobUnits (d : Dev) (op : Nat) (j : CryJob) : Dev :=
  let n := j.need op
  if n == 0 then d.setJob { j with phase := .run }
  else if d.heldUnits + n ≤ 1536 ∧ d.heldUnits + d.rxUnits + n ≤ 2048 then d.setJob { j with phase := .run, units := n }
  else d.setJob { j with phase := .units }

/-- A job takes a key of the cache, which is then its latest used entry (R318). -/
def Dev.jobKey (d : Dev) (op : Nat) (j : CryJob) (e : CacheEnt) : Dev :=
  ({ d with cry := { d.cry with cache := e :: d.cry.cache.filter (fun x => x != e) } }).jobUnits op
    { j with counter := e.counter, key := e.key }

/-- An ECDSA public key that is no point on P-256 (R324). -/
def Dev.badPoint (d : Dev) (op : Nat) (j : CryJob) : Bool :=
  op == opEcdsa && (let k := nats (d.hostRead j.ivAddr 64); !onP256 (blockNat (k.take 32)) (blockNat (k.drop 32)))

/-- Why a job fails before it reads any data (R324). -/
def Dev.jobError (d : Dev) (op : Nat) (j : CryJob) : Option Nat :=
  if !d.cryRuns then some errDomainOff
  else if j.badFormat op then some errFormat
  else if j.badLength op then some errLength
  else if d.badPoint op j then some errFormat
  else
    match j.keyUse op with
    | some (s, u) => if d.slotMay s u then none else some errKey
    | none => if op == opRandom && !d.flag F.CRY_STATUS_TRNG_OK then some errInternal else none

/-- The next queued host job starts, while fewer than 4 run (R314). -/
def Dev.cryStart (d : Dev) : Dev :=
  match d.nextQueued 58 [1, 2, 3, 4, 5, 6] with
  | none => d
  | some o =>
    if 4 ≤ d.cry.jobs.length then d
    else
      let op := o.opcode
      let j : CryJob := ⟨o.idx, d.hostRead o.param (if op == opSak then 80 else 64), .run, 0, 0, [], 0, [], 1⟩
      let d1 := d.startOp o
      let d2 := match j.keyUse op with
        | some (s, _) => if s < 256 then d1.slotTouch s else d1
        | none => d1
      match d2.jobError op j with
      | some e => d2.opFail { o with state := .running } e
      | none =>
        let push (j : CryJob) (d : Dev) : Dev := { d with cry := { d.cry with jobs := d.cry.jobs ++ [j] } }
        match j.keyUse op with
        | none =>
          if op == opRandom then
            let n := d2.cry.reqs + 1
            push j { d2 with cry := { d2.cry with reqs := if 1024 ≤ n then 0 else n } }
          else push j d2
        | some (s, _) =>
          match d2.cacheHit s with
          | some e => (push { j with slot := s } d2).jobKey op { j with slot := s } e
          | none => push { j with slot := s, phase := .key } (d2.inc F.CRY_CACHE_MISS_COUNT)

/-- The key of slot `s` has been derived: it takes a cache entry, and the jobs that wait for it take it (R318). -/
def Dev.keyDerived (d : Dev) (s : Nat) : Dev :=
  let waits := d.cry.jobs.filter (fun j => decide (j.phase = .key) && j.slot == s)
  if waits.isEmpty then d
  else
    let avail := d.slotAvail s
    let d1 := if avail && (d.cacheHit s).isNone then d.cachePut s false else d
    waits.foldl (fun d j =>
      match d.host.ops.find? (fun o => o.ring == 58 && o.idx == j.idx) with
      | none => d
      | some o =>
        match d.cacheHit s with
        | some e => if avail then d.jobKey o.opcode j e else d.cryEnd o .failed errKey
        | none => d.cryEnd o .failed errKey) d1

/-- The first job that waits for held-output units goes on when they are free (R327). -/
def Dev.unitsResume (d : Dev) : Dev :=
  match d.cry.jobs.find? (fun j => decide (j.phase = .units)) with
  | none => d
  | some j => d.jobUnits opCipher j

/-! ### Data -/

/-- The tag of a GCM, GMAC or CMAC job over its whole input. -/
def Dev.cipherTag (d : Dev) (j : CryJob) (inp : List Nat) : List Nat :=
  let k := j.cipherKey
  let iv := nats (d.hostRead j.ivAddr 12)
  if j.mode == 5 then (cmac k inp).take j.tagLen
  else if j.mode == 4 then (gcm k iv inp [] false).2.take j.tagLen
  else (gcm k iv (nats (d.hostRead j.aadAddr j.aadLen)) inp (j.dir == 1)).2.take j.tagLen

/-- The expected tag or HMAC, as the host gives it. -/
def Dev.expectedTag (d : Dev) (j : CryJob) : List Nat := nats (d.hostRead j.tagAddr j.tagLen)

/-- A job writes its output in order as it goes: not GMAC and CMAC, nor a decryption whose tag is not known yet. -/
def CryJob.streams (op : Nat) (j : CryJob) : Bool :=
  op == opCipher && decide (j.mode ≤ 3) && (!j.checked op || (j.bulk op && j.pass == 2))

/-- Where a job that is to stop ends: the next 4 KiB boundary of its pass (R326); none where it ends before. -/
def cryStop (pos total : Nat) : Option Nat :=
  let b := (pos + 4095) / 4096 * 4096
  if b < total || pos == 0 then some b else none

/-- A running job goes on to byte `stop` of its pass. -/
def Dev.cryFeed (d : Dev) (j : CryJob) (o : Op) (stop : Nat) : Dev :=
  let pos := j.input.length
  if o.opcode == opRandom then
    let n := stop - pos
    let bs := d.freeBytes n
    (((d.hostWrite (j.outAddr + pos) bs).tookFree.setJob { j with input := j.input ++ bs }).setOp
      { o with progress := stop, partialCnt := stop, pos := stop })
  else
    let inp := j.input ++ d.hostRead (j.inAddr + pos) (stop - pos)
    let d1 := if j.streams o.opcode then
        d.hostWrite (j.outAddr + pos) (bytes ((d.cipherOut j (nats inp)).drop pos)) else d
    let o1 := { o with progress := stop, partialCnt := if j.streams o.opcode then stop else 0, pos := stop }
    let d2 := d1.setJob { j with input := inp }
    if j.bulk o.opcode && j.pass == 1 && stop == j.inLen then
      -- the first pass has checked the tag (R325)
      if d2.cipherTag j (nats inp) == d2.expectedTag j then (d2.setJob { j with input := [], pass := 2 }).setOp { o1 with progress := 0 }
      else (d2.setJob { j with input := inp, phase := .fin errAuth }).setOp o1
    else d2.setOp o1

/-- A running job is past its decision point: its result is known (R426, Table HIF-10). -/
def Dev.cryDecided (d : Dev) (o : Op) : Bool :=
  o.ring == 58 && d.cry.jobs.any (fun j => j.idx == o.idx && (match j.phase with
    | .fin _ => true
    | .run | .key | .units => false))

/-- A running job of one of the given opcodes processes `n` further bytes, in pieces of 16 B; one that is to stop goes to its
next boundary and ends ABORTED (R314, R326). -/
def Dev.cryRun (d : Dev) (k : Nat) (ops : List Nat) (n : Nat) : Dev :=
  match d.cryJob k ops with
  | none => d
  | some (j, o) =>
    let total := j.total o.opcode
    let pos := j.input.length
    if !d.cryRuns then d.cryEnd o .failed errDomainOff
    else if o.stop && (o.opcode == opEcdsa || decide (j.phase = .key ∨ j.phase = .units)) then d.cryEnd o .aborted errAborted
    else if j.phase ≠ .run then d
    else
      match if o.stop then cryStop pos total else none with
      | some b =>
        let d1 := if pos < b then d.cryFeed j o b else d
        match d1.cryJob k ops with
        | some (_, o1) => d1.cryEnd o1 .aborted errAborted
        | none => d1
      | none =>
        let stop := min total (pos + (max 1 n + 15) / 16 * 16)
        if pos < stop then d.cryFeed j o stop
        else if j.bulk o.opcode && j.pass == 1 then d.cryFeed j o stop
        else d

/-- What the end of a job writes, and its error code (R325, R328). `ue`: held output has an uncorrectable error. -/
def Dev.cryResult (d : Dev) (j : CryJob) (op : Nat) (ue : Bool) : Dev × Nat × Nat :=
  let inp := nats j.input
  if op == opCipher then
    if j.mode ≤ 2 then (d, errOk, j.inLen)
    else if ue && j.need op != 0 then (d.heldUe, errPoison, 0)
    else
      let tag := d.cipherTag j inp
      if j.dir == 0 then
        (d.hostWrite j.tagAddr (bytes tag), errOk, if j.mode == 3 then j.inLen else 0)
      else if tag != d.expectedTag j then (d, errAuth, 0)
      else if j.mode == 3 && !j.bulk op then (d.hostWrite j.outAddr (bytes (d.cipherOut j inp)), errOk, j.inLen)
      else (d, errOk, if j.mode == 3 then j.inLen else 0)
  else if op == opHash then
    (d.hostWrite j.outAddr (bytes (if j.alg == 0 then sha256 inp else sha384 inp)), errOk, 0)
  else if op == opHmac then
    let mac := hmac (j.alg == 1) j.key inp
    if j.dir == 0 then (d.hostWrite j.outAddr (bytes mac), errOk, 0)
    else (d, if mac.take j.tagLen == d.expectedTag j then errOk else errAuth, 0)
  else if op == opEcdsa then
    let k := nats (d.hostRead j.ivAddr 64)
    let sg := nats (d.hostRead j.aadAddr 64)
    let digest := if j.mode == 0 then nats (d.hostRead j.inAddr 32) else sha256 inp
    (d, if ecdsaOk (blockNat (k.take 32)) (blockNat (k.drop 32)) (blockNat (sg.take 32)) (blockNat (sg.drop 32)) digest
      then errOk else errSignature, 0)
  else (d, errOk, j.input.length)

/-- A job whose work is done writes its outputs, then its final status word (R325). -/
def Dev.cryComplete (d : Dev) (k : Nat) (ue : Bool) : Dev :=
  match d.cryJob k [1, 2, 3, 4, 5, 6] with
  | none => d
  | some (j, o) =>
    if !d.cryRuns then d.cryEnd o .failed errDomainOff
    else if o.stop && (o.opcode == opEcdsa || decide (j.phase = .key ∨ j.phase = .units)) then d.cryEnd o .aborted errAborted
    else
      match j.phase with
      | .fin e => d.cryEnd { o with partialCnt := 0 } (if e == errOk then .done else .failed) e
      | .run =>
        if o.opcode == opSak || j.input.length < j.total o.opcode || (j.bulk o.opcode && j.pass == 1) then d
        else
          let (d1, e, n) := d.cryResult j o.opcode ue
          d1.cryEnd { o with partialCnt := n } (if e == errOk then .done else .failed) e
      | _ => d

/-! ### Secure channels -/

/-- The channel is the transmit SA selected on some port (R331). -/
def Dev.txSelected (d : Dev) (c : Nat) : Bool :=
  (List.range 12).any (fun p => d.flag (F.CRY_MACSEC_TX_VALID p) && d.get (F.CRY_MACSEC_TX_CHAN p) == c)

/-- Writes of a channel are locked (R331). -/
def Dev.chanLocked (d : Dev) (c : Nat) : Bool :=
  d.txSelected c
    || d.requests.any (fun p => rqSecIn p.2 == c || (d.outs p.2).any (fun o => o.sign == some c))

/-- INSTALL_SAK unwraps its SAK into a MACsec SA (R337). -/
def Dev.installSak (d : Dev) (k : Nat) : Dev :=
  match d.cryJob k [opSak] with
  | none => d
  | some (j, o) =>
    if !d.cryRuns then d.cryEnd o .failed errDomainOff
    else if o.stop && !d.cryDecided o then d.cryEnd o .aborted errAborted
    else if j.phase ≠ .run then d
    else
      let c := j.par 0 2
      let d := d.chanTouch c
      let e := d.chan c
      let p := nats j.parm
      let (sak, tag) := gcm j.key ((p.drop 4).take 12) (p.take 4) ((p.drop 32).take 32) true
      let fin (d : Dev) (err : Nat) : Dev := d.setJob { j with phase := .fin err }
      if chType e != 3 && chType e != 4 then fin d errFormat
      else if d.chanLocked c then fin d errLocked
      else if tag != (p.drop 64).take 16 then fin d errAuth
      else
        fin (({ d with cry := { d.cry with saks := SMap.set d.cry.saks [] c sak } }).setChan c (setBit e 13 true)) errOk

/-- A channel entry that R331 rejects. -/
def chanBad (v : Nat) : Bool :=
  let t := chType v
  if t == 0 then v != 0
  else if t ≤ 2 then
    decide (8 < chFvLen v) || decide (chMacLen v < 4) || decide (16 < chMacLen v) || decide (64 < chWindow v)
      || decide (3 < chResync v) || bf v 48 16 != 0 || bf v 96 32 != 0 || bf v 256 256 != 0
  else if t ≤ 4 then
    bf v 14 2 != 0 || bf v 16 16 != 0 || decide (11 < saPort v) || bf v 40 24 != 0 || bf v 352 32 != 0 || bf v 448 64 != 0
  else true

/-- What a successful write stores: SEEN is the engine's and all set on a verify channel, SAK_VALID is cleared. -/
def chanStored (v : Nat) : Nat :=
  if chType v == 1 then setBf v 192 64 (2 ^ 64 - 1)
  else if chType v == 2 then setBf v 192 64 0
  else if chType v == 3 || chType v == 4 then setBit v 13 false
  else v

/-- `CRY.MEM_CMD.GO` (R331): the access that MEM_SEL and MEM_CMD describe. -/
def Dev.cryAccess (d : Dev) : Dev :=
  let c := d.get F.CRY_MEM_SEL_INDEX
  let res (d : Dev) (r : Nat) : Dev := d.set F.CRY_MEM_CMD_RESULT r
  if d.flag F.CRY_MEM_CMD_WRITE then
    let old := d.chan c
    let v := d.dataRegs R.CRY_MEM_DATA 16
    let fixed (x : Nat) : Nat := setBf (setBf x 128 64 0) 192 64 0
    let pdu := chType old == 1 || chType old == 2
    if chanBad v then res d errFormat
    else if pdu && fixed v == fixed old then
      if chFresh v < chFresh old then res d errCounter else res (d.entryPut memChan 0 c (chanStored v)) errOk
    else if d.chanLocked c then res d errLocked
    else res (d.entryPut memChan 0 c (chanStored v)) errOk
  else
    let d1 := d.chanTouch c
    res (d1.setDataRegs R.CRY_MEM_DATA 16 (d1.chan c)) errOk

/-- A write of `MACSEC_TX_p` (R336): ignored where it names no TYPE 3 SA of the port with a SAK, whatever its VALID (Table CRY-8). -/
def Dev.macsecTx (d : Dev) (p v : Nat) : Dev :=
  let e := d.chan (bf v 0 10)
  if !(chType e == 3 && saPort e == p && saValid e) then d.set F.CRY_STATUS_CFG_IGNORED 1
  else (d.set (F.CRY_MACSEC_TX_CHAN p) (bf v 0 10)).set (F.CRY_MACSEC_TX_VALID p) (bf v 31 1)

/-! ### TRNG -/

/-- The start-up tests and the seeding have completed (R338). -/
def Dev.trngReady (d : Dev) : Dev :=
  if d.ready 8 && !d.cry.trngDead then (d.set F.CRY_STATUS_TRNG_OK 1) else d

/-- What a failed health test does to a powered Crucible (R338). -/
def Dev.trngFailed (d : Dev) : Dev :=
  let d1 := ((d.set F.CRY_STATUS_TRNG_OK 0).inc F.CRY_TRNG_HEALTH_COUNT).fault blkCry 0
  (d1.host.ops.filter (fun o => o.ring == 58 && o.opcode == opRandom && o.state == .running)).foldl
    (fun d o => d.cryEnd o .failed errInternal) d1

/-- A health test fails (R338), in the start-up tests of a PD8 that is switching on, or later. -/
def Dev.trngFail (d : Dev) : Dev :=
  let d1 : Dev := { d with cry := { d.cry with trngDead := true } }
  if d.ready 8 then (if d.cry.trngDead then d else d1.trngFailed)
  else if bit d.pwr.goingOn 7 then d1 else d

end Sys2Proof.Machine
end

