-- ==== Sys2Proof/Machine/HostCmd.lean ====
section
/-!
DEFINITION. What the host's doorbells, descriptors and interrupts do (chapter 14): doorbell tests, TX frames, commands,
the abort protocol, moderation, DMA errors, and a HOST reset.
-/
namespace Sys2Proof.Machine

/-! ### TX descriptors (R415 to R419) -/

/-- A TX descriptor in its slot (Table HIF-3), with the test of R417. -/
def Dev.txParse (d : Dev) (r i : Nat) : TxDesc :=
  let bs := d.hostRead (d.slotAddr r i) 32
  let len := leNat (slice bs 8 2)
  let f := byteAt bs 10
  let prio := byteAt bs 11
  let ps := leNat (slice bs 16 16)
  let field := bit f 0
  let bad := decide (16384 ≤ len) || decide (32 ≤ f) || decide (8 ≤ prio) || decide (2 ^ 48 ≤ ps)
    || (!bit f 1 && ps != 0)
    || (if field then
          decide (len < 16) || decide (2064 < len) || !bit f 1 || popCount 48 ps != 1 || bf ps 0 20 != 0
        else decide (len < 14) || decide (9212 < len))
  ⟨r, i, leNat (slice bs 0 8), len, field, bit f 1, bit f 2, bit f 3, bit f 4, prio, leNat (slice bs 12 4), ps, bad⟩

/-- The record of a TX frame of which no copy has been made. -/
def TxDesc.pend (t : TxDesc) : TxPend := ⟨t.ring, t.idx, t.report, t.irq, 0, 0, 0, 0, false, false⟩

/-- A descriptor no longer waits. -/
def Dev.txUnwait (d : Dev) (r i : Nat) : Dev :=
  { d with host := { d.host with txWait := d.host.txWait.filter (fun x => !(x.ring == r && x.idx == i)) } }

/-- Descriptors at the head of a ring's list that may not be sent complete with ERR_FORMAT in their turn (R417, R419). -/
def Dev.txBadHead (d : Dev) (r : Nat) : Nat → Dev
  | 0 => d
  | n + 1 =>
    match d.host.txWait.find? (fun t => t.ring == r) with
    | some t =>
      if t.bad then
        ((d.txUnwait r t.idx).txComplete t.pend errFormat).txBadHead r n
      else d
    | none => d

/-- A TX descriptor is fetched, at most 64 ahead of the frame being read (R414). -/
def Dev.txFetch (d : Dev) (r : Nat) : Dev :=
  let i := d.devIdx r
  let n := (d.host.txWait.filter (fun t => t.ring == r)).length
  if !d.ringUp r || i == d.dbIdx r || decide (64 ≤ n) then d
  else if d.host.txKilled.contains (r, i) then
    ({ d with host := { d.host with txKilled := d.host.txKilled.filter (fun k => k != (r, i)) } }).ringAdvance r 1
  else
    let t := d.txParse r i
    (({ d with host := { d.host with txWait := d.host.txWait ++ [t] } }).ringAdvance r 1).txBadHead r (n + 1)

/-! ### TX frames (R80, R416, R418) -/

/-- A frame's record after its copies have been made: completed at intake under REPORT = 0, or when no copy is left. -/
def Dev.txIntake (d : Dev) (r i : Nat) : Dev :=
  match d.txFind r i with
  | none => d
  | some t =>
    if !t.report then d.txComplete t t.code
    else if t.left ≤ 1 then d.txComplete { t with left := 0 } t.code
    else d.txSet { t with left := t.left - 1 }

/-- A host frame is stored with its copies under its descriptor's tag and launch time. -/
def Dev.hostStoreFrame (d : Dev) (t : TxDesc) (pipe : Nat) (m : Msg) (prio vid : Nat) (l : List Dest) : Dev × Option Nat :=
  let (d1, f) := d.newFrame 48 pipe m prio vid none d.dtime
  let p := { t.pend with left := l.length + 1 }
  let d2 := { d1 with host := { d1.host with txPend := d1.host.txPend ++ [p] } }
  d2.storeAnd { f with hostTag := some (t.ring, t.idx), launch := if t.launchEn then some t.launch else none } m.len l true

/-- The field frame of a host buffer: the record of Table CAN-4 and the data (R416). -/
def hostField (bs : List Byte) : Msg :=
  let form := byteAt bs 4
  let xl := form == 4
  { Msg.init with
    form := form, id := leNat (slice bs 0 4) % 2 ^ 29, data := bs.drop 16, flags := byteAt bs 5 % 64 / 8 % 2 * 8 + byteAt bs 5 % 2
    sdt := if xl then byteAt bs 7 else 0
    vcid := if xl then byteAt bs 12 else 0
    af := if xl then leNat (slice bs 8 4) else 0 }

/-- The destinations of an Ethernet frame with a port set; a field port has no form for it (R164). -/
def Dev.portsetDests (d : Dev) (t : TxDesc) (bs : List Byte) : Dev × List Dest :=
  let m := ethMsg (pad60 bs)
  (bitsOf 48 t.portset).foldl (fun (x : Dev × List Dest) p =>
    if p < 20 then
      let (tc, dl) := x.1.ethTcDl none x.1.dtime p t.prio
      (x.1, x.2 ++ [.copy (Copy.new 0 p tc m dl .plain) 0])
    else (x.1.inc F.STE_FORMAT_DROP_COUNT, x.2)) (d, [])

/-- No copy of a host frame was made, `n` of them dropped. -/
def Dev.hostGone (d : Dev) (t : TxDesc) (n : Nat) : Dev :=
  { d with host := { d.host with txPend := d.host.txPend ++ [{ t.pend with left := 1, dropped := n }] } }

/-- The frame of a descriptor is read and enters its pipeline: a field frame, which completes with ERR_FORMAT where its port has no
form for it (R416, R417), a frame with a port set, or an Ethernet frame that is
looked up (R24, R80, R416). A host frame without a port set is bridged whatever its destination or EtherType: Table PIPE-2
sorts received frames (DEDUCED, log 69). -/
def Dev.hostTake (d : Dev) (t : TxDesc) : Dev :=
  let pipe := if t.ring < 16 then 0 else 1
  let bs := d.hostRead t.addr t.len
  if t.field then
    let m := hostField bs
    let p := (bitsOf 48 t.portset).headD 0
    match d.makeCopy p m m.data none with
    | (d1, .frame m1 _) =>
      (d1.hostStoreFrame t pipe m1 0 0 [.copy (Copy.new 0 p 0 m1 (d1.beDeadline d1.dtime 0) .plain) 0]).1
    | (d1, _) => d1.txComplete t.pend errFormat
  else if t.psEn then
    let (d1, l) := d.portsetDests t bs
    let lostN := popCount 48 t.portset - l.length
    let (d2, _) := d1.hostStoreFrame t pipe (ethMsg (pad60 bs)) t.prio 0 l
    match d2.txFind t.ring t.idx with
    | some x => if lostN == 0 then d2
      else d2.tookFree.txSet { x with dropped := x.dropped + lostN, code := if x.dropped == 0 then d2.freeErr else x.code }
    | none => d2
  else
    let fr := pad60 bs
    let h := parseHdr fr
    match d.ethPlan 48 pipe t.prio fr h (fr.length + 4) false with
    | (d1, none) => d1.hostGone t 0
    | (d1, some x) =>
      let d2 := if x.host then d1.hostOrIntake 48 h x.vid d1.dtime fr else d1
      (d2.hostStoreFrame t pipe (ethMsg fr) x.prio x.vid (d2.ethDests x h fr d2.dtime (fun _ => false))).1

/-- Host frames of a TX ring are read: HOSTIF and the pipeline's tile are powered, and HOSTIF is not isolated. -/
def Dev.txRuns (d : Dev) (r : Nat) : Bool := d.ready 1 && !d.isolated blkHost && d.ready (if r < 16 then 2 else 3)

/-- The first frame of a TX ring that waits is read and enters its pipeline (R24, R80). -/
def Dev.hostTx (d : Dev) (r : Nat) : Dev :=
  match d.host.txWait.find? (fun t => t.ring == r) with
  | none => d
  | some t =>
    if !d.txRuns r || t.bad then d
    else
      let d1 := (d.txUnwait r t.idx).hostTake t
      (d1.txIntake r t.idx).txBadHead r d1.host.txWait.length

/-! ### Commands (R412, R414, R424, R425) -/

/-- A command descriptor in its slot (Table HIF-7). -/
def Dev.cmdParse (d : Dev) (r i : Nat) : Op × Bool :=
  let bs := d.hostRead (d.slotAddr r i) 32
  let n (off len : Nat) : Nat := leNat (slice bs off len)
  let abort := n 0 1 == 0xFF
  let bad := decide (2 ≤ n 1 1) || n 2 2 != 0 || n 25 3 != 0 || (!abort && (n 24 1 != 0 || n 28 4 != 0))
    || (!abort && !opKnown r (n 0 1))
  (⟨r, i, n 0 1, bit (n 1 1) 0, n 4 4, n 8 8, n 16 8, n 24 1, n 28 4, .queued, false, 0, 0, 0, (0, 0, 0)⟩, bad)

/-- A command without a valid status address is not run (R424). -/
def Dev.badDesc (d : Dev) (o : Op) : Dev :=
  let d1 := d.inc F.HIF_BAD_DESC_COUNT
  let d2 := d1.faultCapture blkHost 1 ⟨5, accFetch, d1.slotAddr o.ring o.idx, false, 0⟩ false
  d2.event61 0x09 blkHost 1 (5 + 8 * accFetch) 0 (leBytes 1 o.ring ++ leBytes 3 0 ++ leBytes 4 o.idx)

/-- A command ends FAILED before it enters a queue. -/
def Dev.failAtOnce (d : Dev) (o : Op) (err : Nat) : Dev := (d.putStatus { o with state := .failed } err).complete o.ring o.irq

/-- The bound of an operation's queue is reached (Table PROM-14, R313, R414). -/
def Dev.queueFull (d : Dev) (o : Op) : Bool :=
  if o.ring == 56 then decide (64 ≤ d.opCount 56 [1, 2, 3, 4, 5, 6, 7])
  else if o.ring == 57 then decide (64 ≤ d.opCount 57 [1, 2, 3, 4, 5])
  else if o.ring == 58 then decide (96 ≤ d.hostJobs) || decide (128 ≤ d.hostJobs + d.inlineJobs)
  else if o.opcode < 0x40 then decide (64 ≤ d.opCount 59 [0x20, 0x21, 0x22])
  else if 0x50 ≤ o.opcode then decide (64 ≤ d.opCount 59 [0x50, 0x51, 0x52, 0x53])
  else false

/-- A fetched command enters its owner's queue or fails at once (R414). -/
def Dev.acceptCmd (d : Dev) (o : Op) (bad : Bool) : Dev :=
  let d0 := { d with host := { d.host with
    hist := SMap.put d.host.hist (o.ring * 65536 + o.idx % d.ringSize o.ring) (o.idx, o.seq) } }
  if o.status == 0 || o.status % 16 != 0 then d0.badDesc o
  else if bad then { d0 with host := { d0.host with unknown := d0.host.unknown ++ [o] } }
  else if o.opcode == 0xFF then
    ({ d0 with host := { d0.host with aborts := d0.host.aborts ++ [o] } }).putStatus o errOk
  else if d0.queueFull o then
    ((if o.ring == 58 then d0.inc F.CRY_HOST_BUSY_COUNT else d0).provGone o).failAtOnce o errBusy
  else ({ d0 with host := { d0.host with ops := d0.host.ops ++ [o] } }).putStatus o errOk

/-- `n` command descriptors are fetched. -/
def Dev.fetchCmds (d : Dev) (r : Nat) : Nat → Dev
  | 0 => d
  | n + 1 =>
    let (o, bad) := d.cmdParse r (d.devIdx r)
    ((d.ringAdvance r 1).acceptCmd o bad).fetchCmds r n

/-- The test of a doorbell write (R412). -/
def Dev.doorbellOk (d : Dev) (r w : Nat) : Bool :=
  let p := d.dbIdx r
  let i := d.devIdx r
  if r < 60 then decide (idxSub p i ≤ idxSub w i) && decide (idxSub w i ≤ d.ringSize r)
  else decide (idxSub w p ≤ idxSub i p)

/-- A doorbell write (R412), with what the host stored in its memory before it. -/
def Dev.doorbell (d : Dev) (r w : Nat) (stores : List (Nat × Byte)) : Dev :=
  let d1 := d.hostStore stores
  if !d1.ready 1 then d1
  else if !d1.doorbellOk r w then (d1.set (F.HIF_RING_STATUS_DB_ERR r) 1).fault blkHost 2
  else
    let d2 := d1.set (F.HIF_DB_INDEX_INDEX r) w
    if !d2.ringUp r then d2
    else if 56 ≤ r && r < 60 then d2.fetchCmds r (idxSub w (d2.devIdx r))
    else if r == 63 then d2.drain63
    else if 32 ≤ r && r < 56 then d2.rxClean r
    else d2

/-- The first command with a reserved opcode or field is answered (R425). -/
def Dev.unknownCmd (d : Dev) : Dev :=
  match d.host.unknown with
  | [] => d
  | o :: l => ({ d with host := { d.host with unknown := l } }).failAtOnce o errFormat

/-- The status word of a running operation is rewritten after a change of PROGRESS or PARTIAL, 10 µs after the one before at the
earliest (R425). -/
def Dev.progressWrite (d : Dev) (r i : Nat) : Dev :=
  match d.host.ops.find? (fun o => o.ring == r && o.idx == i && o.state == .running) with
  | some o =>
    if o.told.1 == o.progress && o.told.2.1 == o.partialCnt then d
    else
      let d1 := d.reach (o.told.2.2 + 10 * usCyc)
      (d1.setOp { o with told := (o.progress, o.partialCnt, d1.now) }).putStatus o errOk
  | none => d

/-! ### Aborts (R427) -/

/-- An ABORT ends. -/
def Dev.abortEnd (d : Dev) (a : Op) (err : Nat) : Dev :=
  let d1 := { d with host := { d.host with aborts := d.host.aborts.filter (fun (x : Op) => !x.same a) } }
  (d1.putStatus { a with state := if err == errOk then .done else .failed } err).complete a.ring a.irq

/-- A running operation is asked to stop; a transport session tests it at once (R303). -/
def Dev.askStop (d : Dev) (o : Op) : Dev :=
  let d1 := d.setOp { o with stop := true }
  if o.ring == 59 && o.opcode == 0x40 then d1.xptAbort o.idx else d1

/-- An ABORT of a command. The end of a target that has not started ends the ABORT with it, as it does for one that has to stop
first. -/
def Dev.abortOp (d : Dev) (a : Op) : Dev :=
  let r := a.tgtRing
  let i := a.tgtIdx
  match SMap.find? d.host.hist (r * 65536 + i % d.ringSize r) with
  | none => d.abortEnd a errFormat
  | some (idx, seq) =>
    if idx != i || seq != a.seq then d.abortEnd a errFormat
    else
      match d.host.ops.find? (fun o => o.ring == r && o.idx == i) with
      | none => d.abortEnd a errAbortLate
      | some o =>
        if o.state == .queued then (d.provGone o).finish { o with progress := 0 } .aborted errAborted
        else if d.cryDecided o then d.abortEnd a errAbortLate
        else d.askStop o

/-- Copies of the TX frame of a ring and index. -/
def Dev.txCopies (d : Dev) (r i : Nat) : List Copy :=
  d.fwd.copies.filter (fun c => match d.frame c.handle with
    | some f => f.hostTag == some (r, i)
    | none => false)

/-- An ABORT of a TX frame (R204). -/
def Dev.abortTx (d : Dev) (a : Op) : Dev :=
  let r := a.tgtRing
  let i := a.tgtIdx
  if idxSub i (d.devIdx r) < idxSub (d.dbIdx r) (d.devIdx r) then
    -- not fetched yet: its completion is written, and the fetch passes over it
    if d.host.txKilled.contains (r, i) then d.abortEnd a errAbortLate
    else
      let t := d.txParse r i
      (({ d with host := { d.host with txKilled := d.host.txKilled ++ [(r, i)] } }).txComplete t.pend errAborted).abortEnd a errOk
  else
    match d.host.txWait.find? (fun t => t.ring == r && t.idx == i) with
    | some t =>
      ((d.txUnwait r i).txComplete t.pend errAborted).abortEnd a errOk
    | none =>
      match d.txFind r i with
      | none => d.abortEnd a errAbortLate
      | some t =>
        let l := d.txCopies r i
        if t.sent != 0 || t.begun || l.any (fun c => c.started) then d.abortEnd a errAbortLate
        else (l.foldl (fun d c => d.dropCopy c .aborted) (d.txSet { t with aborted := true })).abortEnd a errOk

/-- An ABORT runs (R425). -/
def Dev.abortRun (d : Dev) (a : Op) : Dev :=
  ({ d with host := { d.host with aborts := d.host.aborts.map (fun (x : Op) => if x.same a then a else x) } }).putStatus a errOk

/-- The first ABORT fetched and not yet executed is executed. -/
def Dev.abortExec (dd : Dev) : Dev :=
  match dd.host.aborts.find? (fun a => a.state == .queued) with
  | none => dd
  | some x =>
    let a := { x with state := .running }
    let d := dd.abortRun a
    let r := a.tgtRing
    if !(decide (r < 32) || (decide (56 ≤ r) && decide (r < 60)))
        || decide (d.ringSize r ≤ idxSub (d.dbIdx r + 2 ^ 32 - 1) a.tgtIdx) then d.abortEnd a errFormat
    else if r < 32 then d.abortTx a
    else d.abortOp a

/-! ### Messages (R428) -/

/-- MOD_US after the first completion not yet signalled. -/
def Dev.modTimer (d : Dev) (r : Nat) : Dev :=
  match (d.ring r).firstUnsig with
  | some t =>
    if d.flag (F.HIF_RING_CFG_IRQ_EN r) && d.get (F.HIF_RING_MOD_MOD_US r) != 0 then
      (d.reach (t + d.get (F.HIF_RING_MOD_MOD_US r) * usCyc)).ringMsg r
    else d
  | none => d

/-- The mask bit of a vector is written; unmasking sends a pending message. -/
def Dev.msixMask (d : Dev) (v : Nat) (mask : Bool) : Dev :=
  let d1 := { d with host := { d.host with msixMask := setBit d.host.msixMask v mask } }
  if !mask && bit d1.host.msixPba v then
    ({ d1 with host := { d1.host with msixPba := setBit d1.host.msixPba v false } }).msix v
  else d1

/-! ### DMA errors (R430) -/

/-- Status, capture and count of a DMA error. -/
def Dev.dmaFault (d : Dev) (master kind addr : Nat) : Dev := d.faultCapture blkHost 0 ⟨master, kind, addr, false, 0⟩ true

/-- A failed read of a descriptor of ring `r`. -/
def Dev.dmaDesc (d : Dev) (r addr : Nat) : Dev :=
  if d.ringUp r then (d.set (F.HIF_RING_STATUS_HALTED r) 1).dmaFault 5 accFetch addr else d

/-- A failed read of the data of the first TX frame of ring `r`. -/
def Dev.dmaTx (d : Dev) (r addr : Nat) : Dev :=
  match d.host.txWait.find? (fun t => t.ring == r) with
  | none => d
  | some t =>
    let d1 := d.txUnwait r t.idx
    ((d1.dmaFault 5 accDmaRead addr).txComplete t.pend errPoison).txBadHead r d1.host.txWait.length

/-- A session goes without a report, and no counter counts it (R308, Table XPT-6). -/
def Dev.xptQuiet (d : Dev) (k : Nat) : Dev :=
  match d.sess k with
  | none => d
  | some s =>
    let d2 := (d.xptWithdraw k).endSess k
    match s.handle with
    | some h => match d2.frame h with
      | some f => (d2.setFrame h (some { f with whole := true })).releaseIf h
      | none => d2
    | none => d2

/-- A failed read of a parameter block or input of the running operation of ring `r` and index `i`. -/
def Dev.dmaOp (d : Dev) (r i addr : Nat) : Dev :=
  match d.host.ops.find? (fun o => o.ring == r && o.idx == i && o.state == .running) with
  | none => d
  | some o =>
    let d1 := d.dmaFault 5 accDmaRead addr
    if r == 58 then d1.cryEnd o .failed errPoison
    else
      let d2 := (d1.xpt.sess.filter (fun (p : Nat × Option Sess) => match p.2 with
        | some s => r == 59 && o.opcode == 0x40 && s.op == some i
        | none => false)).foldl (fun d (p : Nat × Option Sess) => d.xptQuiet p.1) d1
      (d2.provGone o).opFail o errPoison

/-- A failed read of an Assay shadow (R155). -/
def Dev.dmaAssay (d : Dev) (addr : Nat) : Dev :=
  if d.tables.pass.isNone then d else (d.dmaFault 6 accDmaRead addr).assayDmaError

/-! ### Rings and resets (R431, R434) -/

/-- What an earlier enable of a ring still has to complete keeps its slot, and gets an index that no later descriptor has: indices are
below 2³² (R410, R434). -/
def Dev.ringAge (d : Dev) (r : Nat) : Dev :=
  let old (i : Nat) : Nat := i + 2 ^ 32
  let op (o : Op) : Op := if o.ring == r then { o with idx := old o.idx } else o
  let tgt (o : Op) : Op := if o.state == .running && o.tgtRing == r then { o with tgtIdx := old o.tgtIdx } else o
  let tag (f : Frame) : Frame := { f with hostTag := f.hostTag.map (fun t => if t.1 == r then (r, old t.2) else t) }
  let d1 : Dev := { d with
    host := { d.host with
      ops := d.host.ops.map op, aborts := d.host.aborts.map (fun o => tgt (op o)), unknown := d.host.unknown.map op
      txWait := d.host.txWait.map (fun t => if t.ring == r then { t with idx := old t.idx } else t)
      txPend := d.host.txPend.map (fun t => if t.ring == r then { t with idx := old t.idx } else t) }
    fwd := { d.fwd with frames := d.fwd.frames.map (fun p => (p.1, p.2.map tag)) } }
  if r == 58 then { d1 with cry := { d1.cry with jobs := d1.cry.jobs.map (fun j => { j with idx := old j.idx }) } }
  else if r == 59 then
    { d1 with
      xpt := { d1.xpt with
        sess := d1.xpt.sess.map (fun p => (p.1, p.2.map (fun s => { s with op := s.op.map old })))
        waiting := d1.xpt.waiting.map (fun p => (p.1, p.2.map (fun e => match e with
          | .abort i => .abort (old i)
          | x => x))) }
      boot := { d1.boot with copyOp := d1.boot.copyOp.map old } }
  else d1

/-- A write of `RING_CFG_r`: EN, SIZE_LOG2, VECTOR and IRQ_EN. -/
def Dev.ringCfg (d : Dev) (r v : Nat) : Dev :=
  let en := d.flag (F.HIF_RING_CFG_EN r)
  let k := bf v 1 5
  let kOk := decide (6 ≤ k) && decide (k ≤ 16)
  let d1 := (d.set (F.HIF_RING_CFG_VECTOR r) (bf v 8 6)).set (F.HIF_RING_CFG_IRQ_EN r) (bf v 14 1)
  let d2 :=
    if k == d.get (F.HIF_RING_CFG_SIZE_LOG2 r) then d1
    else if en || !kOk then (if en then d1.set (F.HIF_RING_STATUS_CFG_IGNORED r) 1 else d1)
    else d1.set (F.HIF_RING_CFG_SIZE_LOG2 r) k
  let d3 := d2.set (F.HIF_RING_CFG_EN r) (bf v 0 1)
  if bit v 0 && !en then
    let d4 := (((d3.ringAge r).set (F.HIF_DEV_INDEX_INDEX r) 0).set (F.HIF_DB_INDEX_INDEX r) 0).set
      (F.HIF_RING_STATUS_HALTED r) 0
    let d5 := { d4 with host := { d4.host with txKilled := d4.host.txKilled.filter (fun k => k.1 != r) } }
    if r == 63 then d5.drain63 else d5
  else d3

/-- A ring is enabled or still completing (R434). -/
def Dev.ringActive (d : Dev) (r : Nat) : Bool :=
  d.flag (F.HIF_RING_CFG_EN r) || d.host.ops.any (fun o => o.ring == r) || d.host.aborts.any (fun o => o.ring == r)
    || d.host.unknown.any (fun o => o.ring == r) || d.host.txWait.any (fun t => t.ring == r) || d.host.txPend.any (fun t => t.ring == r)

/-- The registers of HOSTIF take their Reset values, but for the counter of HOST resets, the partners' registers and the fault
page. -/
def Dev.hostRegs (d : Dev) : Dev :=
  (((d.resetRegs 0x100000 0x100010).resetRegs 0x100014 0x100200).resetRegs 0x100210 0x100F00).resetRegs 0x101000 0x200000

/-- A stored frame reports to no descriptor. -/
def Frame.untag (f : Frame) : Frame := { f with hostTag := none }

/-- Rings and their operations are gone, without any report (R431, R308); frames already taken in report to no descriptor any more. -/
def Dev.hostClear (dd : Dev) : Dev :=
  let d := dd.host.ops.foldl (fun d o => d.provGone o) dd
  let d1 := { d with
    host := { HostSt.init with spiAns := d.host.spiAns, spiBusy := d.host.spiBusy }
    fwd := { d.fwd with frames := d.fwd.frames.map (fun (p : Nat × Option Frame) => (p.1, p.2.map Frame.untag)) }
    cry := { d.cry with jobs := [] }
    boot := { d.boot with copyOp := none } }
  (d1.xpt.sess.filter (fun (p : Nat × Option Sess) => p.2.isSome && !cnBridge (d1.conn (p.1 / 2)))).foldl
    (fun d (p : Nat × Option Sess) => d.xptQuiet p.1) d1

/-- A HOST reset (R431); `linkDown`: the data link goes with it. -/
def Dev.hostReset (d : Dev) (linkDown : Bool) : Dev :=
  let st := d.reg R.HIF_STATUS
  let d1 := (d.hostClear.hostRegs).inc F.HIF_HOST_RESETS_COUNT
  (if linkDown then d1 else d1.setReg R.HIF_STATUS st).fltSet blkHost 3

/-- The PCIe function (Table HIF-1): what its identity registers hold, its BARs in bytes, and what its link trains to. -/
structure PcieFunction where
  vendor : Nat
  device : Nat
  revision : Nat
  classCode : Nat
  bar0 : Nat
  bar2 : Nat
  bar4 : Nat
  vectors : Nat
  speeds : List Nat
  widths : List Nat
  deriving DecidableEq, Repr

def pcieFunction : PcieFunction :=
  ⟨0x1E7B, 0x4880, 0xB0, 0x028000, 64 * 2 ^ 20, 256 * 2 ^ 10, 16 * 2 ^ 10, 64, [1, 2, 3, 4], [1, 2, 4]⟩

/-- The PCIe data link comes up, at a speed and width that the function supports (R407). -/
def Dev.linkTrained (d : Dev) (speed width : Nat) : Dev :=
  if d.ready 1 && pcieFunction.speeds.contains speed && pcieFunction.widths.contains width then
    ((d.set F.HIF_STATUS_LINK_UP 1).set F.HIF_STATUS_SPEED speed).set F.HIF_STATUS_WIDTH width
  else d

end Sys2Proof.Machine
end

