-- ==== Sys2Proof/Machine/Load.lean ====
section
/-!
DEFINITION. The commands of the load channels (chapter 13).
-/
namespace Sys2Proof.Machine

/-- LOAD_CMD_NET (R386). -/
def execLoadCmdNet (s : State) : Host.Outcome State Fault Refusal := s.done s.dev.loadCmdNet

/-- INRUSH_WINDOW_END (R388): the steady limit applies. -/
def execInrushWindowEnd (ch : Fin 24) (s : State) : Host.Outcome State Fault Refusal :=
  let d := s.dev
  match (d.ch ch).winEnd with
  | none => s.done d
  | some t => let d1 := d.reach t; s.done (d1.setCh ch { d1.ch ch with winEnd := none })

/-- The deferred channel that turns on next: highest PRIO, lower index first (R389). -/
def Dev.nextDeferred (d : Dev) : Option Nat :=
  (List.range 24).foldl (fun best i =>
    if (d.ch i).run == .deferred && !d.deferring i then
      match best with
      | none => some i
      | some j => if d.get (F.LOAD_CH_CFG_PRIO j) < d.get (F.LOAD_CH_CFG_PRIO i) then some i else best
    else best) none

/-- DEFERRED_TURN_ON (R389): the next one, 1 ms after the one before. -/
def execDeferredTurnOn (s : State) : Host.Outcome State Fault Refusal :=
  match s.dev.nextDeferred with
  | none => s.done s.dev
  | some i =>
    let d := s.dev.reach ((s.dev.load.lastDefer.map (fun t => t + msCyc)).getD 0)
    let d1 := { d with load := { d.load with lastDefer := some d.now } }
    match (d1.ch i).pend with
    | none => s.done (d1.setCh i { d1.ch i with run := .off })
    | some (run, duty, src, retry) =>
      s.done ((d1.setCh i { d1.ch i with run := .off, pend := none }).chApply i run duty src retry)

/-- The limit in force on a channel, in 10 mA units: I_LIM, times INRUSH_MULT / 4 up to the ceiling of Table LOAD-1
while the inrush window is open (R388). -/
def Dev.chLimit (d : Dev) (i : Nat) : Nat :=
  let lim := d.get (F.LOAD_CH_LIM_I_LIM i)
  if (d.ch i).winEnd.isSome then
    let x := lim * d.get (F.LOAD_CH_LIM_INRUSH_MULT i) / 4
    if i < 4 then min 3000 x else if i < 12 then min 1500 x else x
  else lim

/-- CURRENT_LIMIT (R390): an HS channel at its limit regulates and sets LIMITING. -/
def execCurrentLimit (ch : Fin 24) (current : Nat) (s : State) : Host.Outcome State Fault Refusal :=
  let d := s.dev
  if ch.val < 12 ∧ (d.ch ch).isOn = true ∧ d.chLimit ch ≤ current then
    s.done (((d.set (F.LOAD_CH_MEAS_CURRENT ch) (d.chLimit ch)).set (F.LOAD_CH_STATUS_LIMITING ch) 1).chFault ch 0x01)
  else s.done d

/-- A channel's gate, on now, is still on at an instant. -/
def Dev.gateHolds (d : Dev) (i t : Nat) : Bool :=
  let c := d.ch i
  let duty := d.get (F.LOAD_CH_STATUS_DUTY i)
  c.out && (c.run == .on || duty == 10000 || decide (t + c.per < c.fin + c.onTime duty))

/-- GD_SHORT_TRIP (R390): shunt current above I_LIM × SC_MULT, or drain-source voltage above VDS_TH (20 mV units)
once 4 µs have passed since gate-on, with the gate still on. -/
def execGdShortTrip (ch : Fin 24) (current vds : Nat) (s : State) : Host.Outcome State Fault Refusal :=
  let d := s.dev
  if 12 ≤ ch.val ∧ (d.ch ch).isOn = true then
    let d1 := d.set (F.LOAD_CH_MEAS_CURRENT ch) (min 65535 current)
    if d.get (F.LOAD_CH_LIM_I_LIM ch) * d.get (F.LOAD_CH_LIM_SC_MULT ch) < current then s.done (d1.trip ch 0x03)
    else if d.get (F.LOAD_CH_GD_VDS_TH ch) * 20 < vds && d.gateHolds ch (max d.now ((d.ch ch).gateAt + 4 * usCyc)) then
      s.done ((d1.reach ((d.ch ch).gateAt + 4 * usCyc)).trip ch 0x03)
    else s.done d1
  else s.done d

/-- GD_OVERCURRENT_TRIP (R390): a GD current above the limit in force for 100 µs. -/
def execGdOvercurrentTrip (ch : Fin 24) (current : Nat) (s : State) : Host.Outcome State Fault Refusal :=
  let d := s.dev
  if 12 ≤ ch.val ∧ (d.ch ch).isOn = true ∧ d.chLimit ch < current then
    s.done ((d.set (F.LOAD_CH_MEAS_CURRENT ch) (min 65535 current)).trip ch 0x02)
  else s.done d

/-- WIRE_MODEL_UPDATE (R391): θ takes its step 1 ms after the one before, on or off, and trips a channel that is on at the limit.
The measured current clears LIMITING when it lies below the limit. -/
def execWireModelUpdate (ch : Fin 24) (i2 current : Nat) (s : State) : Host.Outcome State Fault Refusal :=
  let d := s.dev.set (F.LOAD_CH_MEAS_CURRENT ch) (min 65535 current)
  let d1 := if current < d.chLimit ch then d.set (F.LOAD_CH_STATUS_LIMITING ch) 0 else d
  let w := d1.get (F.LOAD_CH_CFG_WIRE ch)
  if wireK w = 0 then s.done d1
  else
    let dt := d1.reach ((d1.ch ch).wireAt + msCyc)
    let d2 := dt.setCh ch { dt.ch ch with theta := wireStep w (dt.ch ch).theta i2, wireAt := dt.now }
    if (d2.ch ch).isOn = true ∧ d2.wireLevel ch * (2 ^ 32 : Nat) ≤ ((d2.ch ch).theta : Int) then s.done (d2.trip ch 0x04)
    else s.done d2

/-- THERMAL_TRIP (R392): Tj of 170 °C or ΔT of 60 K turns a channel off whatever its state. -/
def execThermalTrip (ch : Fin 24) (tj : Int) (dt : Nat) (s : State) : Host.Outcome State Fault Refusal :=
  let d := (s.dev.set (F.LOAD_CH_MEAS_TJ ch) (ofSigned 8 tj)).set (F.LOAD_CH_MEAS_DT ch) dt
  if (d.ch ch).isOn = true ∧ 170 ≤ tj then s.done (d.trip ch 0x05)
  else if (d.ch ch).isOn = true ∧ 60 ≤ dt then s.done (d.trip ch 0x06)
  else s.done d

/-- CHANNEL_RETRY (R393). -/
def execChannelRetry (ch : Fin 24) (tj : Int) (dt : Nat) (s : State) : Host.Outcome State Fault Refusal :=
  s.done (s.dev.chRetry ch tj dt)

/-- RETRY_COUNT_RESET (R393): the retry count returns to 0 after 1 s on without a trip. -/
def execRetryCountReset (ch : Fin 24) (s : State) : Host.Outcome State Fault Refusal :=
  let d := s.dev
  match (d.ch ch).onSince with
  | none => s.done d
  | some t =>
    if (d.ch ch).isOn then
      let d1 := d.reach (t + sCyc)
      s.done ((d1.setCh ch { d1.ch ch with onSince := none }).set (F.LOAD_CH_STATUS_RETRY ch) 0)
    else s.done d

/-- OPEN_LOAD_DETECT (R394): the channel stays on. -/
def execOpenLoadDetect (ch : Fin 24) (current : Nat) (s : State) : Host.Outcome State Fault Refusal :=
  let d := s.dev
  if (d.ch ch).isOn = true ∧ d.get (F.LOAD_CH_OL_OL_TH ch) ≠ 0 ∧ current < d.get (F.LOAD_CH_OL_OL_TH ch) then
    s.done ((d.set (F.LOAD_CH_MEAS_CURRENT ch) current).chFault ch 0x07)
  else s.done d

/-- The channel is in fault for the group rules: it limits, or Tj or ΔT as last measured has reached a limit of R392 (R395,
log 46). -/
def Dev.chInFault (d : Dev) (i : Nat) : Bool :=
  d.flag (F.LOAD_CH_STATUS_LIMITING i) || decide (170 ≤ toSigned 8 (d.get (F.LOAD_CH_MEAS_TJ i)))
    || decide (60 ≤ d.get (F.LOAD_CH_MEAS_DT i))

/-- The channel a group sheds (R395): the one in fault of highest current; else the lowest PRIO outside its inrush
window, higher index first; else the same among those inside. -/
def Dev.shedPick (d : Dev) (g : Nat) : Option Nat :=
  let on := ((List.range 4).map (fun k => 4 * g + k)).filter (fun i => (d.ch i).isOn)
  let hot := on.filter d.chInFault
  let byCur (l : List Nat) : Option Nat := l.foldl (fun b i => match b with
    | none => some i
    | some j => if d.get (F.LOAD_CH_MEAS_CURRENT j) < d.get (F.LOAD_CH_MEAS_CURRENT i) then some i else b) none
  let byPrio (l : List Nat) : Option Nat := l.foldl (fun b i => match b with
    | none => some i
    | some j => if d.get (F.LOAD_CH_CFG_PRIO i) ≤ d.get (F.LOAD_CH_CFG_PRIO j) then some i else b) none
  let out := on.filter (fun i => (d.ch i).winEnd.isNone)
  if !hot.isEmpty then byCur hot else if !out.isEmpty then byPrio out else byPrio on

/-- GROUP_SHED (R395): a group above its limit for GROUP_FILT_US sheds one channel, GROUP_FILT_US after the one before. -/
def execGroupShed (group : Fin 3) (c0 c1 c2 c3 : Nat) (s : State) : Host.Outcome State Fault Refusal :=
  let g := group.val
  let d := (((s.dev.set (F.LOAD_CH_MEAS_CURRENT (4 * g)) c0).set (F.LOAD_CH_MEAS_CURRENT (4 * g + 1)) c1).set
    (F.LOAD_CH_MEAS_CURRENT (4 * g + 2)) c2).set (F.LOAD_CH_MEAS_CURRENT (4 * g + 3)) c3
  let lim := d.get (F.LOADC_GROUP_LIM_LIMIT g)
  if lim ≠ 0 ∧ lim < c0 + c1 + c2 + c3 then
    match d.shedPick g with
    | none => s.done d
    | some i =>
      let d1 := d.reach (SMap.get d.load.shedAt 0 g + d.get (F.LOADC_GROUP_LIM_GROUP_FILT_US g) * usCyc)
      let d2 := { d1 with load := { d1.load with shedAt := SMap.set d1.load.shedAt 0 g d1.now } }
      s.done (((d2.inc F.LOADC_SHED_COUNT).fltSet blkLoad 1).trip i 0x08)
  else s.done d

/-- GROUND_LOSS (Table LOAD-6): every output turns off. -/
def execGroundLoss (s : State) : Host.Outcome State Fault Refusal :=
  let d := { s.dev with load := { s.dev.load with gndLost := true } }.outputsOff
  s.done (((d.set F.LOADC_SUPPLY_STATUS_GND_LOSS 1).fltSet blkLoad 4).supplyEvent)

/-- GROUND_RETURN (Table LOAD-6): each channel is in FAULT_OFF with code GND_LOSS; only a new command turns it on. -/
def execGroundReturn (s : State) : Host.Outcome State Fault Refusal :=
  if s.dev.load.gndLost then
    let d := (List.range 24).foldl (fun d i =>
        (d.setCh i { d.ch i with run := .faultOff, code := 9, tripAt := d.now }).chFault i 0x09)
      { s.dev with load := { s.dev.load with gndLost := false } }
    s.done d.supplyEvent
  else s.done s.dev

/-- A supply condition's bit follows its state; a change writes a SUPPLY event, an entry sets the SUPPLY fault. -/
def Dev.supplyCond (d : Dev) (f : FieldRef) (on : Bool) : Dev :=
  if d.flag f == on then d
  else
    let d1 := d.set f (b2n on)
    (if on then d1.fltSet blkLoad 4 else d1).supplyEvent

/-- SUPPLY_CONDITION_CHANGE (R389, R396): load dump above 28.0 V until 27.5 V, high VHV above 60 V until 58 V. -/
def execSupplyConditionChange (vbat vhv : Nat) (s : State) : Host.Outcome State Fault Refusal :=
  let d := ({ s.dev with load := { s.dev.load with vbat := vbat % 65536, vhv := vhv % 65536 } }).set
    F.SUPV_VBAT_MEAS_MV (min 65535 vbat)
  let dump := if d.flag F.LOADC_SUPPLY_STATUS_DUMP then decide (27500 < vbat) else decide (28000 < vbat)
  let high := if d.flag F.LOADC_SUPPLY_STATUS_VHV_HIGH then decide (5800 < vhv) else decide (6000 < vhv)
  s.done ((d.supplyCond F.LOADC_SUPPLY_STATUS_DUMP dump).supplyCond F.LOADC_SUPPLY_STATUS_VHV_HIGH high)

/-- The bit of `WD_CFG.MASTERS` that permits a master's feeds; the service port has none (R398). -/
def wdMasterBit (m : Nat) : Option Nat :=
  if m = 0 then some 0 else if m = 1 then some 1 else if m = 3 then some 2 else none

/-- A write of `WD_FEED` (R398). -/
def Dev.wdFeed (d : Dev) (master key : Nat) : Dev :=
  let ok := match wdMasterBit master with
    | some b => bit (d.get F.LOADC_WD_CFG_MASTERS) b
    | none => false
  if ok && key % 256 == d.get F.LOADC_WD_STATUS_NEXT then
    ({ d with load := { d.load with wdFed := some d.now, fedSince := true } }).set F.LOADC_WD_STATUS_NEXT
      ((key + 0x35) % 256)
  else d.inc F.LOADC_WD_STATUS_BAD_FEEDS

/-- WD_EXPIRY (R399): without a good feed for PERIOD_MS every channel takes its safe state. -/
def execWdExpiry (s : State) : Host.Outcome State Fault Refusal :=
  let d := s.dev
  match d.load.wdFed with
  | none => s.done d
  | some t =>
    if d.flag F.LOADC_WD_CFG_EN && !d.flag F.LOADC_WD_STATUS_EXPIRED then
      let d1 := d.reach (t + d.get F.LOADC_WD_CFG_PERIOD_MS * msCyc)
      s.done (((d1.set F.LOADC_WD_STATUS_EXPIRED 1).fltSet blkLoad 2).loadSafe)
    else s.done d

/-- A RELEASE: after a good feed the safe state ends and every channel keeps its present output (R400). -/
def Dev.wdRelease (d : Dev) (master : Nat) : Dev :=
  if d.load.fedSince && (master == 0 || master == 3) then
    (List.range 24).foldl (fun d i =>
        if (d.ch i).safe then d.setCh i { d.ch i with safe := false, want := d.present i } else d)
      (d.set F.LOADC_WD_STATUS_EXPIRED 0)
  else d.set F.LOADC_STATUS_CFG_IGNORED 1

/-- The device is in STANDBY. -/
def Dev.inStandby (d : Dev) : Bool := d.get F.NM_PWR_STATUS_STATE == 2

/-- LH_EN shows a level; in STANDBY PD12 is on with it (R403). -/
def Dev.lhLevel (d : Dev) (level : Bool) : Dev :=
  let d1 := d.set F.LOADC_LIMP_STATUS_LH_EN (b2n level)
  if d.inStandby then (d1.setBitOf F.SUPV_PD_STATUS_ON 11 level).setBitOf F.SUPV_PD_STATUS_READY 11 level else d1

/-- One channel after a change of LH_EN: a mapped one follows its pin, or keeps its output and returns to its other sources, its safe
state applied again; in STANDBY every channel turns off at its end. -/
def Dev.limpCh (level standby : Bool) (d : Dev) (i : Nat) : Dev :=
  if standby && !level then d.chOff i (d.get (F.LOAD_CH_STATUS_SRC i))
  else if !bit (d.get F.LOADC_LIMP_MAP_MAP) i then d
  else if level then d.follow i 4
  else
    let d1 := d.setCh i { d.ch i with want := d.present i }
    if (d1.ch i).safe then d1.follow i 3 else d1

/-- LH_EN has a new qualified level (R402, R403). -/
def Dev.lhEn (d : Dev) (level : Bool) : Dev :=
  if d.flag F.LOADC_LIMP_STATUS_LH_EN == level then d
  else
    let d1 := (List.range 24).foldl (Dev.limpCh level d.inStandby) (d.lhLevel level)
    d1.ev63 (d1.loadEntry 0x05 0xFF 0 none)

/-- LH_EN_CHANGE (R402). -/
def execLhEnChange (level : Bool) (s : State) : Host.Outcome State Fault Refusal := s.done (s.dev.lhEn level)

/-- One channel after a change of a pin: it follows under LIMP control and in a safe state LIMP. -/
def Dev.pinCh (d : Dev) (i : Nat) : Dev :=
  if d.limpCtl i then d.follow i 4
  else if (d.ch i).safe && d.get (F.LOAD_CH_CFG_SAFE i) == 3 then d.follow i 3
  else d

/-- An LH_IN pin has a new qualified level (R402). -/
def Dev.lhInSet (d : Dev) (k : Nat) (level : Bool) : Dev :=
  (List.range 24).foldl Dev.pinCh (d.setBitOf F.LOADC_LIMP_STATUS_LH_IN k level)

/-- LH_IN_CHANGE (R402). -/
def execLhInChange (pin : Fin 4) (level : Bool) (s : State) : Host.Outcome State Fault Refusal :=
  s.done (s.dev.lhInSet pin level)

/-- PTIME_CORRECTION (R404): sent while PD2 is on and the link is trained. -/
def execPtimeCorrection (s : State) : Host.Outcome State Fault Refusal :=
  if s.dev.ready 2 && s.dev.flag F.PWR_D2D_STATUS_LINK_UP then s.done s.dev.ptimeCorrect else s.done s.dev

/-- PTIME_INVALID (R404): the latest correction is 10 ms old. -/
def execPtimeInvalid (s : State) : Host.Outcome State Fault Refusal :=
  match s.dev.load.corr with
  | none => s.done s.dev
  | some t =>
    let d := s.dev.reach (t + 10 * msCyc)
    s.done (({ d with load := { d.load with corr := none } }).set F.LOADC_PTIME_STATUS_PTIME_VALID 0)

/-- PWM_EDGE (R387): the off edge of the present period, or the on edge of the next. Duty 0 and 10,000 have no edges: the period
goes on. -/
def execPwmEdge (ch : Fin 24) (s : State) : Host.Outcome State Fault Refusal :=
  let d := s.dev
  let c := d.ch ch
  let duty := d.get (F.LOAD_CH_STATUS_DUTY ch)
  if c.run = .pwm then
    if duty = 0 ∨ duty = 10000 then s.done (d.setCh ch (d.pwmRoll ch))
    else if c.out then s.done ((d.reach (c.fin + c.onTime duty - c.per)).setCh ch { c with out := false })
    else
      let d1 := d.reach c.fin
      let per := d.pwmPer ch
      s.done (d1.setCh ch { c with out := true, fin := c.fin + per, per := per, gateAt := d1.now })
  else s.done d

/-- REVERSE_BATTERY (Table LOAD-6): HS channels with REV_ON are switched on, GD channels with B2B hold their reverse
FET off, and every other output is off. VBAT is below VBAT_POR: a COLD reset of the power die ends the condition. -/
def execReverseBattery (s : State) : Host.Outcome State Fault Refusal :=
  let d := s.dev.outputsOff
  let hs := ((List.range 12).filter (fun i => d.flag (F.LOAD_CH_CFG_REV_ON i))).foldl (fun m i => setBit m i true) 0
  let gd := ((List.range 12).filter (fun i => d.flag (F.LOAD_CH_CFG_B2B (12 + i)))).foldl (fun m i => setBit m (12 + i) true) 0
  s.done (({ d with load := { d.load with revOn := hs, revHeld := gd, vbat := 0, revBat := true } }).supplyEvent)

end Sys2Proof.Machine
end

