-- ==== Sys2Proof/Machine/VaultOps.lean ====
section
/-!
DEFINITION. The vault island (chapter 11): tamper log, zeroisation, update and provisioning messages, measurement
registers, Hallmark, and debug unlock.
-/
namespace Sys2Proof.Machine

/-! ### Debug scope and tamper log -/

/-- Every perturbation stops and its registers return to their reset values (R472, Table FLT-9). -/
def Dev.pertStop (d : Dev) : Dev :=
  let d1 := (List.range 66).foldl (fun d b => d.resetRegs (faultPage b + 0xFC0) (faultPage b + 0xFE0)) d
  ({ d1 with flt := { d1.flt with inject := [] } }).set F.TEST_FAULTN_CTRL_FORCE 0

/-- The active debug scope becomes `scope` (R360, R472). -/
def Dev.setScope (d : Dev) (scope : Nat) : Dev :=
  let d1 := d.set F.VAULT_STATUS_DBG_SCOPE scope
  if bit scope 0 then d1 else if bit (d.get F.VAULT_STATUS_DBG_SCOPE) 0 then d1.pertStop else d1

/-- One tamper-log entry (R358). -/
def Dev.tamperLog (d : Dev) (type detail : Nat) : Dev :=
  let n := d.get F.VAULT_TLOG_STATUS_ENTRIES
  let k := if n == 0 then 0 else (d.get F.VAULT_TLOG_STATUS_NEWEST + 1) % 32
  let total := satAdd 16 (d.get F.VAULT_TLOG_STATUS_TOTAL) 1
  let secs := if d.pwr.logicUp then d.dtime / 1000000000 % 2 ^ 32 else 2 ^ 32 - 1
  (((((((d.set F.VAULT_TLOG_STATUS_ENTRIES (min 32 (n + 1))).set F.VAULT_TLOG_STATUS_NEWEST k).set
    F.VAULT_TLOG_STATUS_TOTAL total).set (F.VAULT_TLOG_TYPE k) type).set (F.VAULT_TLOG_DETAIL k) detail).set
    (F.VAULT_TLOG_SEQ k) total).set (F.VAULT_TLOG_W1_BOOT_COUNT k) (d.get F.VAULT_BOOT_COUNT_COUNT)).set
    (F.VAULT_TLOG_W2_DTIME_S k) secs

/-- A zeroisation is reported on the logic die (R358), with the value of TOTAL at its entry. -/
def Dev.zeroReport (d : Dev) (type total : Nat) : Dev :=
  (d.fault blkVault 0).event61 0x08 blkVault 0 (accNone * 8) 0 (leBytes 1 type ++ leBytes 1 0 ++ leBytes 2 total)

/-- It is reported now, or when the logic die next starts. -/
def Dev.zeroTold (d : Dev) (type : Nat) : Dev :=
  let total := d.get F.VAULT_TLOG_STATUS_TOTAL
  if d.pwr.logicUp then d.zeroReport type total
  else { d with vault := { d.vault with report := d.vault.report ++ [(type, total)] } }

/-- The debug nonce held is `n`, shown in `DBG_NONCE_k` (R360). -/
def Dev.setDbgNonce (d : Dev) (n : Option (List Nat)) : Dev :=
  ({ d with vault := { d.vault with dbgNonce := n } }).setDataRegs R.VAULT_DBG_NONCE 4 (leNat (bytes (n.getD [])))

/-- What a zeroisation clears (R357). -/
def Dev.zeroClear (d : Dev) : Dev :=
  let d1 := d.tclear memSlot 0
  let d2 : Dev := { d1 with
    vault := { d1.vault with rs := List.replicate 32 0, rsBad := false, zeroSeen := true }
    tables := { d1.tables with
      bad := d1.tables.bad.filter (fun k => k / 2 ^ 24 != memSlot * 2), soft := d1.tables.soft.filter (fun k => k / 2 ^ 24 != memSlot * 2)
      pert := d1.tables.pert.filter (fun k => k / 2 ^ 24 != memSlot * 2) } }
  let d3 := ((d2.setNonce none).set F.VAULT_STATUS_STATE 2).setScope 0
  if !d3.ready 8 then d3
  else
    let d4 : Dev := { d3 with cry := { d3.cry with cache := [], saks := [] } }
    let d5 := (List.range 1024).foldl (fun d c =>
      let e := d.tget memChan 0 c
      if chType e == 3 || chType e == 4 then d.setChan c (setBit e 13 false) else d) d4
    (d5.host.ops.filter (fun o => o.ring == 58 && o.state == .running)).foldl (fun d o =>
      match d.cry.jobs.find? (fun j => j.idx == o.idx) with
      | some j => if (j.keyUse o.opcode).isSome then d.cryEnd o .failed errKey else d
      | none => d) d5

/-- A zeroisation of a trigger type, logged and reported, now or when the logic die next starts (R357, R358). -/
def Dev.zeroise (d : Dev) (type : Nat) : Dev :=
  (d.zeroClear.tamperLog type 0).zeroTold type

/-! ### Messages (Table VLT-5) -/

/-- Bytes `off` to `off + n - 1` of a message in network order. -/
def msgNat (m : List Byte) (off n : Nat) : Nat := beNat (slice m off n)
def mType (m : List Byte) : Nat := msgNat m 1 1
def mTarget (m : List Byte) : Nat := msgNat m 20 1
def mAuth (m : List Byte) : Nat := msgNat m 21 1
def mCounter (m : List Byte) : Nat := msgNat m 24 8
def mLabelLen (m : List Byte) : Nat := msgNat m 64 1
def mRoot (m : List Byte) : Nat := msgNat m 65 1
def mBinding (m : List Byte) : Nat := msgNat m 66 1
def mUsage (m : List Byte) : Nat := msgNat m 68 2
def mEpoch (m : List Byte) : Nat := msgNat m 72 4

/-- UID, TARGET and COUNTER of a message: the context of its wrap and confirmation keys (R351). -/
def mContext (m : List Byte) : List Nat := uidBytes ++ nats (slice m 20 1 ++ slice m 24 8)

/-- The fixed fields of a message and its length as given (Table VLT-6 step 1). -/
def msgBad (m : List Byte) (len : Nat) (types : List Nat) : Bool :=
  len != 136 || msgNat m 0 1 != 1 || msgNat m 2 2 != 136 || msgNat m 22 2 != 0 || msgNat m 67 1 != 0 || msgNat m 70 2 != 0
    || !types.contains (mType m)

/-- A recipe that Table VLT-8 does not allow. `prov`: bytes 32 to 47 carry the nonce. -/
def recipeBad (m : List Byte) (prov : Bool) : Bool :=
  let u := mUsage m
  let zeroFrom (i : Nat) : Bool := (slice m i (64 - i)).all (fun b => b == 0)
  let label :=
    if mRoot m == 0 then decide (1 ≤ mLabelLen m) && decide (mLabelLen m ≤ 32) && zeroFrom (32 + min 32 (mLabelLen m))
    else mRoot m == 1 && mLabelLen m == 8 && zeroFrom (if prov then 48 else 32)
  !label || decide (2 < mBinding m) || u == 0 || decide (512 ≤ u) || (u % 32 != 0 && u / 32 != 0)
    || (bf u 5 3 != 0 && !(mRoot m == 1 && mBinding m == 0))
    || (bit u 8 && mBinding m != 1)
    || (mEpoch m != 0 && mBinding m != 1)
    || (mTarget m == 0 && u != 32)

/-- The wrap and confirmation keys of a message under a key (R351, R354). -/
def wrapKey (ki : List Nat) (m : List Byte) : List Nat := kdf ki (ascii "SNT-KUW") (mContext m)
def confKey (ki : List Nat) (m : List Byte) : List Nat := kdf ki (ascii "SNT-KUC") (mContext m)

/-- The secret of a message and whether its tag verifies (R350). -/
def unwrapMsg (ki : List Nat) (m : List Byte) : List Nat × Bool :=
  let (p, tag) := gcm (wrapKey ki m) (nats (slice m 76 12)) (nats (slice m 0 88)) (nats (slice m 88 32)) true
  (p, tag == nats (slice m 120 16))

/-- The record that a message installs. -/
def mRecord (m : List Byte) (secret : List Nat) : Nat :=
  slRecord (if mRoot m == 1 then secret else nats (slice m 32 32)) (mCounter m) (mLabelLen m)
    (1 + 2 * mRoot m + 4 * mBinding m) (mUsage m) (mEpoch m)

/-- The provisioning key PK (R351). -/
def provKey : List Nat := kdf (nats ((List.range 32).map Config.otpIk)) (ascii "SNT-PROV") uidBytes

/-! ### Operations on ring 59 -/

def opKeyUpdate : Nat := 0x20
def opProvision : Nat := 0x21
def opHallmark : Nat := 0x22

/-- The next queued vault operation starts; they run one at a time (R348). While MGMT starts, messages wait in their queue
(Table FW-4); HALLMARK runs, and fails until COMMIT (R347). -/
def Dev.vaultStart (d : Dev) : Dev :=
  if (d.running 59 [opKeyUpdate, opProvision, opHallmark]).isSome then d
  else
    match d.nextQueued 59 [opKeyUpdate, opProvision, opHallmark] with
    | some o => if o.opcode == opHallmark || decide (2 ≤ d.get F.BOOT_STATUS_BOOT_STATE) then d.startOp o else d
    | none => d

/-- The parameter block of a vault operation (Table VLT-4). -/
def Dev.vaultPar (d : Dev) (o : Op) (off n : Nat) : Nat := leNat (d.hostRead (o.param + off) n)
def Dev.vaultMsg (d : Dev) (o : Op) : List Byte := d.hostRead (d.vaultPar o 0 8) 136

/-- The confirmation of a message (Table VLT-7), with its MAC under a confirmation key or 0. -/
def confirmation (m : List Byte) (err : Nat) (key : Option (List Nat)) : List Byte :=
  let head := beBytes 1 1 ++ slice m 1 1 ++ slice m 20 1 ++ beBytes 1 err ++ bytes uidBytes ++ slice m 24 8 ++ beBytes 4 0
  head ++ (match key with
    | some k => bytes (cmac k (nats head))
    | none => List.replicate 16 0)

/-- A message operation ends: its confirmation, then its status word (R348, R354). -/
def Dev.msgEnd (d : Dev) (o : Op) (err : Nat) (key : Option (List Nat)) : Dev :=
  let a := d.vaultPar o 16 8
  let d1 := if a == 0 then d else d.hostWrite a (confirmation (d.vaultMsg o) err key)
  if err == errOk then d1.opDone o else d1.opFail o err

/-- A slot's key is pinned for an admitted contract (Table VLT-6 step 8). -/
def Dev.pinnedFor (d : Dev) (s : Nat) : Bool :=
  d.anvil.pinned.contains s && d.requests.any (fun c => (d.slotsOf c.2).contains s)

/-- The first check of Table VLT-6 that fails, or the message's secret and the key of slot AUTH. -/
def Dev.updateCheck (d : Dev) (o : Op) (m : List Byte) : Except Nat (List Nat × List Nat) :=
  let t := mTarget m
  let old := d.slot t
  let keyA := d.slotKey (mAuth m) (d.slot (mAuth m))
  let (secret, ok) := unwrapMsg keyA m
  let removes := slPresent old && (slUsage old &&& (65535 - mUsage m)) != 0
  if msgBad m (d.vaultPar o 8 2) [1, 3, 4] then .error errFormat
  else if !d.provisioned then .error errKey
  else if mType m == 1 && recipeBad m false then .error errFormat
  else if mType m == 4 && t != 0 then .error errFormat
  else if nats (slice m 4 16) != uidBytes then .error errAuth
  else if !d.slotMay (mAuth m) useAuthorise then .error errKey
  else if mCounter m ≤ slCounter old then .error errCounter
  else if !ok then .error errAuth
  else if (mType m == 3 || (mType m == 1 && removes)) && d.pinnedFor t then .error errLocked
  else if mType m == 1 && ((mBinding m == 1 && decide (d.get F.VAULT_EPOCH_EPOCH < mEpoch m)) || (mRoot m == 0 && d.vault.rsBad))
    then .error errKey
  else .ok (secret, keyA)

/-- A running vault operation that is to stop ends ABORTED before its commit point (R349). -/
def Dev.keyUpdate (d : Dev) : Dev :=
  match d.running 59 [opKeyUpdate] with
  | none => d
  | some o =>
    if o.stop then d.finish o .aborted errAborted
    else
      let m := d.vaultMsg o
      let t := mTarget m
      let d1 := (d.slotTouch (mAuth m)).slotTouch t
      match d1.updateCheck o m with
      | .error e =>
        -- with every earlier check passed, ERR_AUTH of a message with this device's UID is that of its tag (step 7)
        (if e == errAuth && nats (slice m 4 16) == uidBytes then d1.inc F.VAULT_UPDATE_AUTH_FAIL_COUNT else d1).msgEnd o e none
      | .ok (secret, keyA) =>
        let d2 := d1.inc F.VAULT_UPDATE_OK_COUNT
        if mType m == 1 then
          let r := mRecord m secret
          let d3 := (d2.entryPut memSlot 0 t r).cacheUpdate t
          d3.msgEnd o errOk (if mRoot m == 1 then some (confKey (d3.slotKey t r) m) else none)
        else if mType m == 3 then
          ((d2.entryPut memSlot 0 t (slRecord [] (mCounter m) 0 0 0 0)).cacheUpdate t).msgEnd o errOk (some (confKey keyA m))
        else (d2.zeroise 7).msgEnd o errOk none

/-- The failing step of R356, or the message's secret. -/
def Dev.provCheck (d : Dev) (o : Op) (m : List Byte) : Except Nat (List Nat) :=
  let (secret, ok) := unwrapMsg provKey m
  if msgBad m (d.vaultPar o 8 2) [2] || mTarget m != 0 || mAuth m != 0xFF || recipeBad m true then .error errFormat
  else if d.provisioned then .error errLocked
  else if nats (slice m 4 16) != uidBytes then .error errAuth
  else if d.vault.nonce != some (nats (slice m 32 16)) then .error errAuth
  else if !ok then .error errAuth
  else if !(d.ready 8 && d.flag F.CRY_STATUS_TRNG_OK) then .error errInternal
  else .ok secret

/-- PROVISION (R355, R356). -/
def Dev.provision (d : Dev) : Dev :=
  match d.running 59 [opProvision] with
  | none => d
  | some o =>
    let m := d.vaultMsg o
    let d1 := d.setNonce none
    if o.stop then d1.finish o .aborted errAborted
    else
      match d.provCheck o m with
      | .error e => d1.msgEnd o e none
      | .ok secret =>
        let rs := nats (d1.freeBytes 32)
        let d2 := d1.tookFree
        let tb := { d2.tables with soft := d2.tables.soft.filter (fun k => k != rsKey), pert := d2.tables.pert.filter (fun k => k != rsKey) }
        let d3 : Dev := { d2 with vault := { d2.vault with rs := rs, rsBad := false, zeroSeen := false }, tables := tb }
        let d4 := (List.range 256).foldl (fun d s => d.entryPut memSlot 0 s (slRecord [] (mCounter m) 0 0 0 0)) d3
        let r := mRecord m secret
        let d5 := ((d4.entryPut memSlot 0 0 r).set F.VAULT_STATUS_STATE 1).tamperLog 8 0
        d5.msgEnd o errOk (some (confKey (d5.slotKey 0 r) m))

/-- The Hallmark response (Table VLT-9). -/
def Dev.hallmarkResponse (d : Dev) (chal : List Byte) (slot : Nat) : List Byte :=
  let total := d.get F.VAULT_TLOG_STATUS_TOTAL
  let k := d.get F.VAULT_TLOG_STATUS_NEWEST
  let any := d.get F.VAULT_TLOG_STATUS_ENTRIES != 0
  let body := beBytes 1 1 ++ beBytes 1 chal.length ++ beBytes 1 slot
    ++ beBytes 1 (b2n d.vault.dbgSeen + 2 * b2n (decide (32 < total)) + 4 * b2n d.vault.zeroSeen)
    ++ bytes uidBytes ++ slice chal 0 32 ++ bytes d.mExact ++ bytes d.signerHash ++ beBytes 4 (d.get F.VAULT_EPOCH_EPOCH)
    ++ beBytes 4 (d.get F.VAULT_BOOT_COUNT_COUNT) ++ beBytes 2 total
    ++ beBytes 1 (if any then d.get (F.VAULT_TLOG_TYPE k) else 0) ++ beBytes 1 0
    ++ beBytes 4 (if any then d.get (F.VAULT_TLOG_W1_BOOT_COUNT k) else 0) ++ beBytes 4 0
  body ++ bytes (hmac false (d.slotKey slot (d.slot slot)) (nats body))

/-- HALLMARK (R359). -/
def Dev.hallmark (d : Dev) : Dev :=
  match d.running 59 [opHallmark] with
  | none => d
  | some o =>
    let n := d.vaultPar o 8 1
    let s := d.vaultPar o 9 1
    if o.stop then d.finish o .aborted errAborted
    else if n < 16 || 32 < n then d.opFail o errFormat
    else
      let d1 := d.slotTouch s
      if !d1.slotMay s useAttest then d1.opFail o errKey
      else if d1.flag F.VAULT_STATUS_MEASURING then d1.opFail o errBusy
      else
        (d1.hostWrite (d1.vaultPar o 16 8) (d1.hallmarkResponse (d1.hostRead (d1.vaultPar o 0 8) n) s)).opDone o

/-- A zeroisation from outside the running operation: a KEY_UPDATE or PROVISION before its commit point fails (R349). -/
def Dev.zeroiseNow (d : Dev) (type : Nat) : Dev :=
  let d1 := d.zeroise type
  match d1.running 59 [opKeyUpdate, opProvision] with
  | some o => d1.msgEnd o errKey none
  | none => d1

/-- A qualified TMP_IN level (Table VLT-10). -/
def Dev.tamperInput (d : Dev) (pin : Nat) : Dev :=
  if d.flag (if pin == 0 then F.VAULT_TMP_CFG_EN0 else F.VAULT_TMP_CFG_EN1) then d.zeroiseNow (1 + pin) else d

/-- An island rail, the vault clock or the island temperature out of range for 1 µs; the clock is checked while the logic die is
powered. -/
def Dev.islandFault (d : Dev) (monitor : Nat) : Dev :=
  if monitor == 1 && !d.pwr.logicUp then d else d.zeroiseNow (3 + monitor)

/-- The island powers up (R341, R361): its registers and its fault page take their Reset values and no nonce is held. Without a valid
integrity marker everything it held is gone; with one, its SRAM items stand (Table VLT-1). -/
def Dev.vaultPowerUp (d : Dev) (marker : Bool) : Dev :=
  let d0 : Dev := { d with
    bus := { d.bus with once := d.bus.once.filter (fun k => !(decide (0xE00000 ≤ k / 32) && decide (k / 32 < 0xE00F00))) }
    flt := { d.flt with wins := d.flt.wins.filter (fun p => p.1 != blkVault) } }
  let d1 := ((d0.setScope 0).setNonce none).setDbgNonce none
  if marker then
    (((d1.set F.VAULT_STATUS_CFG_IGNORED 0).resetRegs 0xE00100 0xE00210).resetRegs 0xE00500 0xE00600).resetRegs 0xE00F00 0xE01000
  else
    let d2 := d1.zeroClear.resetRegs 0xE00000 0xE01000
    (({ d2 with vault := VaultSt.init }).tamperLog 6 0).zeroTold 6

/-! ### Measurement registers (R346, R347) -/

/-- MGMT is reset: working copies are 0, STATUS shows MEASURING (R346, Table VLT-11). -/
def Dev.measureReset (d : Dev) : Dev :=
  let d1 := ((d.set F.VAULT_STATUS_MEASURING 1).set F.VAULT_STATUS_COMMITTED 0).resetRegs 0xE00034 0xE00038
  { d1 with vault := { d1.vault with exact := List.replicate 48 0, dbgSeen := d1.get F.VAULT_STATUS_DBG_SCOPE != 0 } }

/-- The working M-exact is extended with a 48 B digest (R346). -/
def Dev.extend (d : Dev) (digest : List Nat) : Dev :=
  { d with vault := { d.vault with exact := sha384 (d.vault.exact ++ digest) } }

/-- EXTEND with `EXT_DATA_k`. -/
def Dev.extendData (d : Dev) : Dev := d.extend (nats (leBytes 48 (d.dataRegs R.VAULT_EXT_DATA 12)))

/-- COMMIT (R347). -/
def Dev.commit (d : Dev) : Dev :=
  let signer := d.dataRegs R.VAULT_SIGNER_STAGE 8
  let epoch := d.get F.VAULT_EPOCH_STAGE_EPOCH
  let polNew := signer != d.dataRegs R.VAULT_SIGNER 8 || epoch != d.get F.VAULT_EPOCH_EPOCH
  let exNew := d.vault.exact != d.mExact
  let d1 := (((d.setDataRegs R.VAULT_SIGNER 8 signer).set F.VAULT_EPOCH_EPOCH epoch).setDataRegs R.VAULT_M_EXACT 12
    (leNat (bytes d.vault.exact))).set F.VAULT_BOOT_COUNT_COUNT ((d.get F.VAULT_BOOT_COUNT_COUNT + 1) % 2 ^ 32)
  let d2 := (d1.set F.VAULT_STATUS_MEASURING 0).set F.VAULT_STATUS_COMMITTED 1
  (List.range 256).foldl (fun d s =>
    let b := slBinding (d.slot s)
    if slPresent (d.slot s) && ((b == 1 && polNew) || (b == 2 && exNew)) then d.cacheUpdate s else d) d2

/-- `EXT_CTRL` written by MGMT: extension, then commit; after a COMMIT both are ignored and flagged (R347). -/
def Dev.extCtrl (d : Dev) (addr v : Nat) : Dev :=
  if v % 4 == 0 then d
  else if d.flag F.VAULT_STATUS_COMMITTED then d.flaggedWrite blkVault 3 addr
  else
    let d1 := if bit v 0 then d.extendData else d
    if bit v 1 then d1.commit else d1

/-! ### Nonces and debug unlock (R355, R360) -/

/-- The DRBG can be asked for bytes (R338). -/
def Dev.drbgOk (d : Dev) : Bool := d.ready 8 && d.flag F.CRY_STATUS_TRNG_OK

/-- `PROV_CTRL.NEW_NONCE` (R355). -/
def Dev.provNonce (d : Dev) : Dev :=
  if d.drbgOk then d.tookFree.setNonce (some (nats (d.freeBytes 16))) else d.setNonce none

/-- `DBG_CTRL.NEW_NONCE` (R360). -/
def Dev.dbgNewNonce (d : Dev) : Dev :=
  if d.drbgOk then d.tookFree.setDbgNonce (some (nats (d.freeBytes 16))) else d.setDbgNonce none

/-- `DBG_CTRL.GO` (R360). -/
def Dev.dbgGo (d : Dev) : Dev :=
  let s := d.get F.VAULT_DBG_CTRL_SLOT
  let scope := d.get F.VAULT_DBG_SCOPE_SCOPE
  let resp := nats (leBytes 32 (d.dataRegs R.VAULT_DBG_RESP 8))
  let d0 := d.slotTouch s
  let d1 := d0.setDbgNonce none
  let fail (e : Nat) : Dev :=
    let d2 := ((d1.set F.VAULT_DBG_CTRL_RESULT e).inc F.VAULT_DBG_FAIL_COUNT).tamperLog 0x0A 0
    { d2 with vault := { d2.vault with dbgFailAt := some d2.now } }
  if (match d.vault.dbgFailAt with
      | some t => decide (d.now < t + sCyc)
      | none => false) then d1.set F.VAULT_DBG_CTRL_RESULT errBusy
  else if !d0.slotMay s useDebug then fail errKey
  else
    match d.vault.dbgNonce with
    | none => fail errAuth
    | some n =>
      if 4 ≤ scope then fail errAuth
      else if hmac false (d0.slotKey s (d0.slot s)) (ascii "SNT-DBG" ++ uidBytes ++ n ++ nats (beBytes 4 scope)) != resp then
        fail errAuth
      else
        let d2 := ((d1.set F.VAULT_DBG_CTRL_RESULT errOk).setScope scope).tamperLog 9 scope
        { d2 with vault := { d2.vault with dbgSeen := true } }

/-- `DBG_CTRL` is written: a new nonce, then GO, then RELOCK. -/
def Dev.dbgCtrl (d : Dev) (v : Nat) : Dev :=
  let d1 := d.set F.VAULT_DBG_CTRL_SLOT (bf v 16 8)
  let d2 := if bit v 1 then d1.dbgNewNonce else d1
  let d3 := if bit v 0 then d2.dbgGo else d2
  if bit v 2 then d3.setScope 0 else d3

end Sys2Proof.Machine
end

