-- ==== Sys2Proof/Machine/ResetOps.lean ====
section
/-!
DEFINITION. What a BLOCK reset does to each block (R457, R465, R507), and what a unit loses when it stops.
-/
namespace Sys2Proof.Machine

/-! ### Ending what a unit holds -/

/-- Transport sessions end without any report, their ring-59 operations with them (R308). -/
def Dev.xptForget (d : Dev) (g : Sess → Bool) : Dev :=
  (d.xpt.sess.filter (fun (p : Nat × Option Sess) => match p.2 with
    | some s => g s
    | none => false)).foldl (fun d (p : Nat × Option Sess) =>
      let op := p.2.bind (fun s => s.op)
      let d1 := match d.host.ops.find? (fun (o : Op) => o.ring == 59 && o.opcode == 0x40 && op == some o.idx) with
        | some o => d.dropOp o
        | none => d
      d1.xptQuiet p.1) d

/-- A stored frame that waits for a unit is given up. -/
def Dev.frameForget (d : Dev) (h : Nat) : Dev :=
  match d.frame h with
  | some f => (d.setFrame h (some { f with whole := true })).releaseIf h
  | none => d

/-- Contexts are FREE, their memory without error (R308). -/
def Dev.ctxForget (d : Dev) (g : Nat → Bool) : Dev :=
  let keep (k : Nat) : Bool := !(k / 2 ^ 24 == memCtx * 2 && g (k % 2 ^ 24))
  { d with
    tbl := d.tbl.filter (fun p => keep p.1)
    tables := { d.tables with
      bad := d.tables.bad.filter keep, soft := d.tables.soft.filter keep, pert := d.tables.pert.filter keep } }

/-- The stored frames of the PDUs that wait for a sequencer. -/
def heldPdus (l : List XptEv) : List Nat :=
  l.filterMap (fun e => match e with
    | .pdu x => x.handle
    | .frame _ | .sent _ _ _ | .gone _ _ _ | .abort _ => none)

/-- Every session of the transport engine ends and its queues are empty (R308). -/
def Dev.xptReset (d : Dev) : Dev :=
  let d1 := d.xptForget (fun _ => true)
  let d2 := (d1.xpt.pduq.filterMap (fun (x : XptPdu) => x.handle) ++ d1.xpt.waiting.flatMap (fun p => heldPdus p.2)).foldl
    (fun d h => d.frameForget h) d1
  { d2 with xpt := { XptSt.init with code := d2.xpt.code } }.ctxForget (fun _ => true)

/-- A field sequencer's sessions end, and its queue is empty (R308). -/
def Dev.seqReset (d : Dev) (q : Nat) : Dev :=
  let d0 := (d.xptForget (fun s => s.ctx.map (fun n => n % 8) == some q)).setBitOf F.XPT_STATUS_PAUSED q false
  let d1 := (heldPdus (SMap.get d0.xpt.waiting [] q)).foldl (fun d h => d.frameForget h) d0
  { d1 with xpt := { d1.xpt with waiting := SMap.set d1.xpt.waiting [] q [] } }.ctxForget (fun n => n % 8 == q)

/-- The STE loses what it holds; open containers give up their cells. -/
def Dev.steReset (d : Dev) : Dev :=
  let d1 := (d.ste.conts.filterMap (fun (p : Nat × Option Cont) => p.2.map (fun k => k.handle))).foldl
    (fun d h => d.frameForget h) d
  { d1 with ste := SteSt.init }

/-- Running jobs of ring 58 end as on a disabled unit (R322). -/
def Dev.cryStop (d : Dev) : Dev :=
  (d.host.ops.filter (fun (o : Op) => o.ring == 58 && o.state == .running)).foldl
    (fun d o => d.cryEnd o .failed errDomainOff) d

/-- A load channel is off, without fault or retry state (R397). -/
def Dev.chReset (d : Dev) (i : Nat) : Dev :=
  let c := d.ch i
  ((((d.setCh i { LoadCh.init with theta := c.theta, wireAt := c.wireAt, safe := c.safe, hold := (.off, 0) }).set (F.LOAD_CH_STATUS_DUTY i) 0).set
    (F.LOAD_CH_STATUS_LIMITING i) 0).set (F.LOAD_CH_STATUS_RETRY i) 0).setReg (R.LOAD_CH_FAULT i) 0

/-! ### Registers of a block -/

/-- The registers that a BLOCK reset of a block reaches, as address ranges: its window without its fault page, and without
what the manual keeps: DTIME's increment (R270), contracts and their counts (R470), the partners' view of past HOST resets,
FAULT_N's state (R466), island and power-die registers (their Reset columns name other resets), and what BOOT shows of its
flash and OTP (log 24). -/
def blockRanges (b : Nat) : List (Nat × Nat) :=
  let page := faultPage b
  if b == 1 then [(0x100000, 0x100010), (0x100014, 0x100F00), (0x101000, 0x200000)]
  else if b == 2 then [(0x200000, 0x200F00), (0x201000, 0x400000)]
  else if b == 3 then [(0x400000, 0x400F00), (0x401000, 0x600000)]
  else if b == 4 then [(0x600040, 0x600080), (0x600084, 0x600F00)]
  else if b == 56 then [(0xB00000, R.TIME_INCR), (R.TIME_INCR + 8, 0xB00F00)]
  else if b == 59 || b == 61 || b == 62 || b == 63 then []
  else if b == 64 then [(0x1100030, 0x1100F00)]
  else if b == 65 then [(0x1200020, 0x1200100)]
  else [(page, page + 0xF00)]

/-- Registers of address ranges take their Reset values, write-once fields among them are unwritten again (R13, R450). -/
def Dev.resetRanges (d : Dev) (l : List (Nat × Nat)) : Dev :=
  l.foldl (fun d r =>
    let d1 := d.resetRegs r.1 r.2
    { d1 with bus := { d1.bus with once := d1.bus.once.filter (fun k => decide (k / 32 < r.1) || decide (r.2 ≤ k / 32)) } }) d

/-- What a BLOCK reset does to a block's state beside its registers, before they are reset. -/
def Dev.blockState (d : Dev) (b : Nat) : Dev :=
  if b == 0 then { d with bus := { BusSt.init with once := d.bus.once } }
  else if b == 1 then d.hostClear
  else if b == 3 then
    { d with tables := { d.tables with
      burnA := ⟨0, d.now⟩, burnB := ⟨0, d.now⟩, failA := none, failB := none, pass := none, passDue := none, todo := [] } }
  else if b == 4 then { d with anvil := { d.anvil with staged := [] } }
  else if b == 5 then d.steReset
  else if 6 ≤ b ∧ b < 26 then (d.canStop (b - 6)).setCtl (b - 6) Can.init
  else if b == 26 then { d with can := { d.can with tsLast := none } }
  else if 27 ≤ b ∧ b < 35 then (d.linForget (b + 13)).setLinCtl (b - 27) Lin.init
  else if 35 ≤ b ∧ b < 55 then (d.linkCut (b - 35) false).setEthPort (b - 35) EthPort.init
  else if b == 55 then { d with eth := { d.eth with mdio := none } }
  else if b == 56 then
    { d with time := { TimeSt.init with now := d.time.now, acc := d.time.acc, aonHeld := d.time.aonHeld, aonLost := d.time.aonLost } }
  else if b == 57 then d.xptReset
  else if b == 58 then
    let d1 := d.cryStop
    { d1 with cry := { d1.cry with trngDead := false, reqs := 0 } }
  else if b == 60 then { d with nm := { d.nm with segs := [] } }
  else if b == 62 then (List.range 24).foldl (fun d i => d.chReset i) d
  else d

/-- Status bits that show what a BLOCK reset leaves alone: tiles that run (R500), the die link's host side, loaded microcode
(R309), the power state. -/
def Dev.blockLive (d0 d : Dev) (b : Nat) : Dev :=
  if b == 1 then d.setReg R.HIF_STATUS (d0.reg R.HIF_STATUS)
  else if b == 2 then (d.set F.FWD_STATUS_READY_A (d0.get F.FWD_STATUS_READY_A)).set F.FWD_STATUS_READY_B (d0.get F.FWD_STATUS_READY_B)
  else if b == 57 then d.set F.XPT_STATUS_SEQ_READY (d0.get F.XPT_STATUS_SEQ_READY)
  else if b == 60 then d.set F.NM_PWR_STATUS_STATE (d0.get F.NM_PWR_STATUS_STATE)
  else if b == 64 then d.set F.TEST_FAULTN_CTRL_FORCE 0
  else d

/-- A block is reset: state, registers, and its isolation; its fault page stays (R465). -/
def Dev.blockReset (d : Dev) (b : Nat) : Dev :=
  let d1 := (Dev.blockLive d ((d.blockState b).resetRanges (blockRanges b)) b)
  (d1.set (F.FLT_FAULT_STATUS_ISOLATED b) 0).set (F.FLT_BLOCK_CTRL_RESET b) 0

/-! ### Rows of chapter 16 -/

/-- The unit that a BLOCK reset names: XPT has units 1 to 8, the other blocks none (Table FLT-1). -/
def unitOk (b u : Nat) : Bool := u == 0 || (b == blkXpt && decide (u ≤ 8))

/-- A write of `BLOCK_CTRL`: a UNIT that the block does not name is ignored, the RESET beside it too (Table FLT-1). -/
def Dev.blockCtrl (d : Dev) (b v : Nat) : Dev :=
  let u := bf v 4 4
  if !unitOk b u then d
  else
    let d1 := d.set (F.FLT_BLOCK_CTRL_UNIT b) u
    if bit v 0 then d1.set (F.FLT_BLOCK_CTRL_RESET b) 1 else d1

/-- A requested BLOCK reset is done. -/
def Dev.blockResetDone (d : Dev) (b : Nat) : Dev :=
  if !d.flag (F.FLT_BLOCK_CTRL_RESET b) then d
  else
    let u := d.get (F.FLT_BLOCK_CTRL_UNIT b)
    if u == 0 then d.blockReset b else (d.seqReset (u - 1)).set (F.FLT_BLOCK_CTRL_RESET b) 0

/-- The block is in BLOCK reset as a whole (R445). -/
def Dev.inReset (d : Dev) (b : Nat) : Bool := d.flag (F.FLT_BLOCK_CTRL_RESET b) && d.get (F.FLT_BLOCK_CTRL_UNIT b) == 0

end Sys2Proof.Machine
end

