-- ==== Sys2Proof/Machine/PertOps.lean ====
section
/-!
DEFINITION. Test perturbation (R471, R472): errors and flips in the memories that the owning chapters number.
-/
namespace Sys2Proof.Machine

/-- A memory that a block numbers: its number among the keys of `tbl`, the first index of the unit, entries, and 4 B words of an
entry. -/
structure PertMem where
  mem : Nat
  first : Nat
  count : Nat
  words : Nat
  deriving DecidableEq, Repr

/-- Memory `m` of block `b` (R471): the numbering is that of table IDs and of `MEM_SEL.MEM`; tables of both pipelines are met in
pipeline A's copy (log 25). -/
def pertMem (b m : Nat) : Option PertMem :=
  if b == blkTbl then (if m < 10 then some ⟨m, 0, tblEntries m, tblSize m / 4⟩ else none)
  else if b == blkSte then (if m < 8 then some ⟨steMem m, 0, steEntries m, steSize m / 4⟩ else none)
  else if 27 ≤ b ∧ b < 35 then
    (if m == 0 then some ⟨memSched, 512 * (b - 27), 512, 2⟩ else if m == 1 then some ⟨memResp, 64 * (b - 27), 64, 2⟩ else none)
  else if b == blkEthCommon then (if m == 0 then some ⟨62, 0, 512, 2⟩ else none)
  else if b == blkXpt then
    (if m == 0 then some ⟨memConn, 0, 1024, 8⟩ else if m == 1 then some ⟨memCtx, 0, 256, 8⟩ else none)
  else if b == blkCry then (if m == 0 then some ⟨memChan, 0, 1024, 16⟩ else none)
  else if b == blkVault then
    (if m == 0 then some ⟨memSlot, 0, 256, 12⟩ else if m == 1 then some ⟨memSlot, rsIndex, 1, 8⟩ else none)
  else none

/-- A write of `PERT_INJ`: with GO, COUNT errors are to be made on the next reads; a target that the block does not have is
ignored. -/
def Dev.pertInj (d : Dev) (b v : Nat) : Dev :=
  let d1 := ((d.set (F.FLT_PERT_INJ_KIND b) (bf v 0 2)).set (F.FLT_PERT_INJ_TARGET b) (bf v 4 4)).set
    (F.FLT_PERT_INJ_COUNT b) (bf v 8 8)
  if bit v 31 && (pertMem b (bf v 4 4)).isSome then
    ({ d1 with flt := { d1.flt with inject := SMap.set d1.flt.inject 0 b (atLeastOne (bf v 8 8)) } }).set (F.FLT_PERT_INJ_GO b) 1
  else d1

/-- The next reads of the target memory meet these entries, and each takes one error (R471). -/
def Dev.pertReads (d : Dev) (b : Nat) (entries : List Nat) : Dev :=
  match pertMem b (d.get (F.FLT_PERT_INJ_TARGET b)) with
  | none => d
  | some m =>
    let left := SMap.get d.flt.inject 0 b
    let keys := ((entries.filter (fun i => decide (i < m.count))).take left).map (fun i => tkey m.mem 0 (m.first + i))
    let soft := d.get (F.FLT_PERT_INJ_KIND b) == 1
    let d1 : Dev := { d with
      vault := { d.vault with rsBad := d.vault.rsBad || (!soft && keys.contains rsKey) }
      tables := { d.tables with
        bad := if soft then d.tables.bad else (d.tables.bad ++ keys.filter (fun k => !d.tables.bad.contains k))
        soft := if soft then (d.tables.soft ++ keys.filter (fun k => !d.tables.soft.contains k)) else d.tables.soft
        pert := d.tables.pert ++ keys.filter (fun k => !d.tables.pert.contains k) }
      flt := { d.flt with inject := SMap.set d.flt.inject 0 b (left - keys.length) } }
    if left ≤ keys.length then d1.set (F.FLT_PERT_INJ_GO b) 0 else d1

/-- A write of `PERT_ENT`: with GO, PERT_MASK is XORed into a word of an entry, its generation and ECC as they were. -/
def Dev.pertEnt (d : Dev) (b v : Nat) : Dev :=
  let d1 := ((d.set (F.FLT_PERT_ENT_INDEX b) (bf v 0 20)).set (F.FLT_PERT_ENT_MEM b) (bf v 20 4)).set (F.FLT_PERT_ENT_WORD b) (bf v 24 5)
  match pertMem b (bf v 20 4) with
  | some m =>
    if bit v 31 && decide (bf v 0 20 < m.count) && decide (bf v 24 5 < m.words) then
      let i := m.first + bf v 0 20
      if i == rsIndex && m.mem == memSlot then
        let flipped := leNat (bytes d1.vault.rs) ^^^ (d.get (F.FLT_PERT_MASK_MASK b) * 2 ^ (32 * bf v 24 5))
        { d1 with vault := { d1.vault with rs := nats (leBytes 32 flipped) } }
      else if m.mem == memCtx then d1.ctxPut i (d1.ctxEntry i ^^^ (d.get (F.FLT_PERT_MASK_MASK b) * 2 ^ (32 * bf v 24 5)))
      else d1.tset m.mem 0 i (d1.tget m.mem 0 i ^^^ (d.get (F.FLT_PERT_MASK_MASK b) * 2 ^ (32 * bf v 24 5)))
    else d1
  | none => d1

/-- A write of `PERT_CANBIT`: EN from 0 to 1 begins a count of FRAMES frames. -/
def Dev.pertCanBit (d : Dev) (b v : Nat) : Dev :=
  let d1 := d.setReg (R.FLT_PERT_CANBIT b) (v &&& 0x80FF7FFF)
  if bit v 31 && !d.flag (F.FLT_PERT_CANBIT_EN b) then
    { d1 with flt := { d1.flt with inject := SMap.set d1.flt.inject 0 (canPertKey b) (atLeastOne (bf v 16 8)) } }
  else d1

end Sys2Proof.Machine
end

