-- ==== Sys2Proof/Machine/PwrOps.lean ====
section
/-!
DEFINITION. Power domains, supplies, reset classes, start-up, clocks, the MGMT watchdog and the die link (chapter 18), and the
device's power states (R378, R379).
-/
namespace Sys2Proof.Machine

/-! ### Domains (R496 to R500) -/

/-- Bit of a domain in PD_STATUS and in the request sets. -/
def pdBit (n : Nat) : Nat := n - 1

/-- Domain `n` has power. -/
def Dev.powered (d : Dev) (n : Nat) : Bool := bit (d.get F.SUPV_PD_STATUS_ON) (pdBit n)

/-- The blocks of a domain (Table REG-1). -/
def domainBlocks (n : Nat) : List Nat :=
  match n with
  | 1 => [blkHost]
  | 4 => [35, 36]
  | 5 => [37, 38]
  | 6 => (List.range 17).map (fun k => 39 + k)
  | 7 => [blkSte] ++ (List.range 29).map (fun k => 6 + k) ++ [blkXpt, blkNm]
  | 8 => [blkCry]
  | _ => []

/-- `NM.PWR_STATUS.STATE` follows the domains (R378); a change is an event of ring 62 (Table NM-7). -/
def Dev.pwrState (d : Dev) : Dev :=
  let old := d.get F.NM_PWR_STATUS_STATE
  let new := if d.get F.SUPV_PD_STATUS_READY == 0x3FFF then 0 else 1
  if !d.pwr.logicUp || old == 2 || old == new then d
  else
    let d1 := d.set F.NM_PWR_STATUS_STATE new
    if d1.ready 7 then d1.event62 0x06 0xFF old new 0 0 0 d1.wakeTicks else d1

/-- A domain starts to switch on; one that is on or going on is left alone, one that is going off follows later (R499). -/
def Dev.domainOn (d : Dev) (n : Nat) : Dev :=
  let b := pdBit n
  if bit d.pwr.goingOff b then { d with pwr := { d.pwr with onAfterOff := setBit d.pwr.onAfterOff b true } }
  else if d.powered n then d
  else if decide (n ≤ 8) && n != 2 && !d.powered 2 then d.set F.SUPV_STATUS_CFG_IGNORED 1
  else
    ({ d with pwr := { d.pwr with goingOn := setBit d.pwr.goingOn b true, policyOff := setBit d.pwr.policyOff b false } }).setBitOf
      F.SUPV_PD_STATUS_ON b true

/-- A write of `PD_ON` by a master; PD1 comes on again only for the safety port and MGMT (R498). -/
def Dev.pdOn (d : Dev) (master v : Nat) : Dev :=
  (List.range 14).foldl (fun d k =>
    if !bit v k then d
    else if k == 0 && !d.powered 1 && !(master == 1 || master == 3) then d.set F.SUPV_STATUS_CFG_IGNORED 1
    else d.domainOn (k + 1)) d

/-- What ports lose with domain `n`: a frame in reception is given up, copies are dropped, those in transmission cut off (R498).
The link of an Ethernet or T1S port is gone, but with PD3, which is none of its conditions (R233). Copies held for a segment that
sleeps stay in their hold queue (R372), unless PD3 or PD7 itself goes. -/
def Dev.portsOff (d : Dev) (n : Nat) (ports : List Nat) : Dev :=
  ports.foldl (fun d p =>
    let d1 := (d.xlFail p).dropWhere p (fun c => !c.hold || n == 3 || n == 7) .unavail
    if p < 20 then (if n == 3 then (d1.partCut p).flushPort p false else d1.ethDown p)
    else if p < 40 then d1.canStop (p - 20)
    else d1.setLinCtl (p - 40) { d1.linCtl (p - 40) with cur := none }) d

/-- Transceivers of a domain that switches off (R225, R364). -/
def Dev.xcvrsOff (d : Dev) (n : Nat) : Dev :=
  ((List.range 48).filter (fun p => lineDomain p == n)).foldl (fun d p =>
    if d.segOn p then d.segForce p
    else if segCanInt p && !(d.get (F.PWR_XCVR_CAN_MODE_ACT (p - 20)) == 4 || d.get (F.PWR_XCVR_CAN_MODE_ACT (p - 20)) == 5) then
      (d.set (F.PWR_XCVR_CAN_MODE (p - 20)) 0).set (F.PWR_XCVR_CAN_MODE_ACT (p - 20)) 0
    else if segLin p && d.get (F.PWR_XCVR_LIN_MODE_ACT (p - 40)) != 3 then
      (d.set (F.PWR_XCVR_LIN_MODE (p - 40)) 0).set (F.PWR_XCVR_LIN_MODE_ACT (p - 40)) 0
    else d) d

/-- Buffer half B is lost: the frames in it, the containers open in it, and the sessions that hold cells of it (Table PWR-1). -/
def Dev.halfBLost (d : Dev) : Dev :=
  let gone := (d.fwd.frames.filter (fun (p : Nat × Option Frame) => match p.2 with
    | some f => f.half == 1
    | none => false)).map (fun (p : Nat × Option Frame) => p.1)
  let d1 := (d.ste.conts.filter (fun (p : Nat × Option Cont) => match p.2 with
    | some k => gone.contains k.handle
    | none => false)).foldl (fun d (p : Nat × Option Cont) =>
      { d with ste := { d.ste with conts := SMap.set d.ste.conts none p.1 none } }) d
  let d3 := gone.foldl (fun d h => ((d.copiesOf h).foldl (fun d c => d.dropCopy c .unavail) d).frameForget h) d1
  let d2 := { d3 with fwd := { d3.fwd with freed := d3.fwd.freed.filter (fun p => p.2.1 != 1) } }
  (d2.xpt.sess.filter (fun (p : Nat × Option Sess) => match p.2 with
    | some s => s.half == 1 && s.cells != 0
    | none => false)).foldl (fun d (p : Nat × Option Sess) => d.xptEnd p.1 8 true) d2

/-- FDB B and the copies of pipeline B are gone (R500, R535). -/
def Dev.tablesBLost (d : Dev) : Dev :=
  let keep (k : Nat) : Bool := !(k / 2 ^ 24 == 2 * 1 || k / 2 ^ 24 == 2 * (32 + 1) || (k / 2 ^ 24 % 2 == 1 && decide (k / 2 ^ 24 < 80)))
  { d with
    tbl := d.tbl.filter (fun p => keep p.1)
    tables := { d.tables with
      bad := d.tables.bad.filter keep, soft := d.tables.soft.filter keep, pert := d.tables.pert.filter keep
      todo := d.tables.todo.filter (fun x => !(x.1 == 1 || x.2.1 == 1)) } }

/-- What a domain's blocks lose while it is off (Table PWR-1). -/
def Dev.domainLoss (d : Dev) (n : Nat) : Dev :=
  match n with
  | 1 => d.hostReset true
  | 3 => (((d.portsOff 3 ((List.range 48).filter pipeB)).halfBLost).tablesBLost).set F.FWD_STATUS_READY_B 0
  | 4 | 5 | 6 => d.portsOff n ((List.range 20).filter (fun p => portDomain p == n))
  | 7 => (List.range 8).foldl (fun d k => d.linForget (40 + k))
      ((d.nmStop).portsOff 7 ((List.range 28).map (fun k => 20 + k))).xptReset.steReset
  | 8 =>
    let d1 := d.cryStop
    let d2 : Dev := { d1 with cry := CrySt.init }
    (List.range 1024).foldl (fun d c =>
      let e := d.tget memChan 0 c
      if chType e == 3 || chType e == 4 then d.setChan c (setBit e 13 false) else d) d2
  | 10 | 11 => (d.xcvrsOff n).portsOff n ((List.range 48).filter (fun p => lineDomain p == n))
  | 12 => d.outputsOff
  | 13 => { d with boot := { d.boot with ops := [] } }
  | _ => d

/-- A switch-off completes (R498); a request made meanwhile takes effect (R499). -/
def Dev.domainOff (d : Dev) (n : Nat) : Dev :=
  let b := pdBit n
  if n == 0 || !bit d.pwr.goingOff b then d
  else
    let again := bit d.pwr.onAfterOff b
    let d1 := d.domainLoss n
    let d2 := { d1 with pwr := { d1.pwr with
      goingOff := setBit d1.pwr.goingOff b false, onAfterOff := setBit d1.pwr.onAfterOff b false } }
    let d3 := ((d2.setBitOf F.SUPV_PD_STATUS_READY b false).setBitOf F.SUPV_PD_STATUS_ON b false).pwrState
    if again then d3.domainOn n else d3

/-- The registers of NM that PD7 does not keep: those of the segments stand with their states, and their timers go on (R364,
R379; log 26). -/
def Dev.nmPowerUp (d0 : Dev) : Dev :=
  let d := d0.nmGoOn
  let st := d.get F.NM_PWR_STATUS_STATE
  (((d.resetRegs 0xF00000 0xF00100).set F.NM_PWR_STATUS_STATE st).set (F.FLT_FAULT_STATUS_ISOLATED blkNm) 0).set
    (F.FLT_BLOCK_CTRL_RESET blkNm) 0

/-- Crucible's start-up tests have run within PD8's ready time (R338). -/
def Dev.cryPowerUp (d : Dev) : Dev :=
  let dead := d.cry.trngDead
  let d1 := d.blockReset blkCry
  if dead then ({ d1 with cry := { d1.cry with trngDead := true } }).trngFailed else d1.set F.CRY_STATUS_TRNG_OK 1

/-- A domain is ready: its blocks have their Reset values (R499); tile B begins to copy the tables (R500). -/
def Dev.domainReady (d : Dev) (n : Nat) : Dev :=
  let b := pdBit n
  if n == 0 || !bit d.pwr.goingOn b then d
  else
    let d1 := ({ d with pwr := { d.pwr with goingOn := setBit d.pwr.goingOn b false } }).setBitOf F.SUPV_PD_STATUS_READY b true
    let d2 := (domainBlocks n).foldl (fun d k =>
      if k == blkNm then d.nmPowerUp else if k == blkCry then d.cryPowerUp else d.blockReset k) d1
    let d3 := if n == 3 then { d2 with pwr := { d2.pwr with tileBCopy := true } }
      else if n == 7 then { d2.set F.XPT_STATUS_SEQ_READY 0 with xpt := { d2.xpt with code := [] } }
      -- the link of a T1S port follows its conditions (R233)
      else if n == 10 || n == 11 then ((List.range 20).filter (fun p => lineDomain p == n)).foldl (fun d p => d.owe (.tsLink p)) d2
      else d2
    d3.pwrState

/-- Tile B has its tables: the VLAN, stream, CAN route and gate-list tables with their generations (R500). -/
def Dev.tileBDone (d : Dev) : Dev :=
  if !d.pwr.tileBCopy then d
  else
    let both (k : Nat) : Bool := k / 2 ^ 24 % 2 == 0 && (let m := k / 2 ^ 25; tblBoth m || (decide (32 ≤ m) && tblBoth (m - 32)))
    let d1 := (d.tbl.filter (fun p => both p.1)).foldl (fun d p => { d with tbl := SMap.set d.tbl 0 (p.1 + 2 ^ 24) p.2 }) d
    let d2 := ((d.tables.bad ++ d.tables.soft).filter both).foldl
      (fun d k => d.errorCopy (k / 2 ^ 25) 0 (k / 2 ^ 25) 1 (k % 2 ^ 24)) d1
    let d3 := ((d2.set F.TBL_GEN_5B_GEN (d2.get (F.TBL_GEN_GEN 5))).set F.TBL_GEN_6B_GEN (d2.get (F.TBL_GEN_GEN 6))).set
      F.FWD_STATUS_READY_B 1
    { d3 with
      pwr := { d3.pwr with tileBCopy := false }
      tables := { d3.tables with burnB := ⟨0, d3.now⟩ } }

/-! ### Resets (R507 to R509) -/

/-- Keys of `tbl` that the vault island holds. -/
def vaultKey (k : Nat) : Bool := k / 2 ^ 25 == memSlot

/-- An address that the loss of the logic die leaves alone: the power die's windows, the vault island's, and the anchors in OTP. -/
def keptAddr (a : Nat) : Bool :=
  (decide (0xE00000 ≤ a) && decide (a < 0xF00000)) || (decide (0x1000000 ≤ a) && decide (a < 0x1100000)) || a == R.BOOT_ANCHORS
    || (decide (0x1200100 ≤ a) && decide (a < 0x1200180))

/-- Whether a block is of the power die. -/
def powerDie (b : Nat) : Bool := b == blkPwr || b == blkLoad || b == blkSupv

/-- The logic die loses its state (Table PWR-5): registers, tables, contracts, rings, DTIME. What lies on the power die, in the
vault island, in OTP and in flash stays. -/
def Dev.logicLost (d : Dev) : Dev :=
  let holds := d.get (F.TEST_FN_HOLD_BLOCKS 1) &&& 0xE0000000
  let d1 : Dev := { d with
    regs := d.regs.filter (fun p => keptAddr p.1)
    tbl := d.tbl.filter (fun p => vaultKey p.1)
    anvil := AnvilSt.init
    fwd := FwdSt.init
    tables := { TblSt.init with
      bad := d.tables.bad.filter vaultKey, soft := d.tables.soft.filter vaultKey, pert := d.tables.pert.filter vaultKey
      burnA := ⟨0, d.now⟩, burnB := ⟨0, d.now⟩ }
    ste := SteSt.init
    can := CanSt.init
    lin := LinSt.init
    eth := EthSt.init
    time := { TimeSt.init with now := d.time.now, aonHeld := d.time.aonHeld, aonLost := d.time.aonLost }
    xpt := XptSt.init
    cry := CrySt.init
    nm := NmSt.init
    host := HostSt.init
    bus := { BusSt.init with once := d.bus.once.filter (fun k => keptAddr (k / 32)) }
    flt := { d.flt with
      wins := d.flt.wins.filter (fun p => powerDie p.1 || p.1 == blkVault), warm := none, inject := [], todo := [] }
    boot := { BootSt.init with flash := d.boot.flash }
    load := { d.load with flight := [] }
    pwr := { d.pwr with logicUp := false, tileBCopy := false, wdFed := none, d2dDown := none,
                        goingOn := d.pwr.goingOn / 512 * 512, goingOff := d.pwr.goingOff / 512 * 512,
                        onAfterOff := d.pwr.onAfterOff / 512 * 512, policyOff := d.pwr.policyOff / 512 * 512 } }
  (((((d1.set (F.TEST_FN_HOLD_BLOCKS 1) holds).set F.SUPV_PD_STATUS_ON (d1.get F.SUPV_PD_STATUS_ON / 512 * 512)).set
    F.SUPV_PD_STATUS_READY (d1.get F.SUPV_PD_STATUS_READY / 512 * 512)).set F.PWR_D2D_STATUS_LINK_UP 0).set
    F.SUPV_MGMT_WD_EN 0).set F.PWR_BRIDGE_STATUS_OUTSTANDING 0

/-- The reset-cause record (R467, R509): for a reaction the requesting block and its fault page. -/
def Dev.causeRecord (d : Dev) (cause block : Nat) : Dev :=
  let r := cause == 5
  let x (v : Nat) : Nat := if r then v else 0
  (((((d.set F.SUPV_RST_CAUSE_CAUSE cause).set F.SUPV_RST_CAUSE_BLOCK (x block)).set F.SUPV_RC_STATUS_FAULT_STATUS
    (x (d.reg (R.FLT_FAULT_STATUS block)))).set F.SUPV_RC_FEC_INFO_INFO (x (d.reg (R.FLT_FEC_INFO block)))).set
    F.SUPV_RC_FEC_ADDR_ADDR (x (d.reg (R.FLT_FEC_ADDR block)))).set F.SUPV_RC_FEC_TIME_TIME (x (d.get (F.FLT_FEC_TIME_TIME block)))

/-- A WARM reset of a running logic die; one that starts while the die is held in reset extends that reset. -/
def Dev.warmReset (d : Dev) (cause : Nat) : Dev :=
  if !d.pwr.logicUp then d
  else
    let d1 := (d.causeRecord cause (d.flt.warm.getD 0)).inc F.SUPV_WARM_COUNT_COUNT
    ((((d1.setScope 0).logicLost).set F.LOADC_LOCK_LOCK 0).set F.SUPV_RST_CTRL_WARM 0).measureReset

/-- The WARM sources that come as a step of their own: RESET_N and a rail at its action level from outside, a register request
and a reaction when they wait (Table PWR-4). -/
def Dev.warmRequest (d : Dev) (cause : Nat) : Dev :=
  if cause == 3 || cause == 6 then d.warmReset cause
  else if cause == 4 then (if d.flag F.SUPV_RST_CTRL_WARM then d.warmReset 4 else d)
  else if cause == 5 then (if d.flt.warm.isSome then d.warmReset 5 else d)
  else d

/-- A COLD reset (R506, R507): both dies; the vault island keeps what VBAT or VBKUP holds. The one that follows reverse battery
ends that supply condition, with its event (R396). -/
def Dev.coldReset (d : Dev) (cause : Nat) : Dev :=
  let d1 := (d.setScope 0).logicLost
  let keep (a : Nat) : Bool := keptAddr a && !(decide (0x1000000 ≤ a) && decide (a < 0x1100000))
  let d2 : Dev := { d1 with
    regs := d1.regs.filter (fun p => keep p.1)
    load := { LoadSt.init with vbat := d.load.vbat, vhv := d.load.vhv }
    time := { d1.time with aonHeld := none, aonLost := d1.time.now }
    flt := { d1.flt with wins := d1.flt.wins.filter (fun p => p.1 == blkVault) }
    pwr := { PwrSt.init with recessive := d.pwr.recessive, clkHold := d.pwr.clkHold, txdOff := d.pwr.txdOff } }
  let d3 := (d2.set F.SUPV_RST_CAUSE_CAUSE cause).measureReset
  if d.load.revBat then d3.supplyEvent else d3

/-- A COLD reset from VBAT_POR, or the one that `RST_CTRL.COLD` has requested. -/
def Dev.coldRequest (d : Dev) (por : Bool) : Dev :=
  if por then d.coldReset 1 else if d.flag F.SUPV_RST_CTRL_COLD then d.coldReset 2 else d

/-! ### Start-up (R510) -/

/-- MGMT comes out of reset: its memory is lost and the boot ROM is about to run (R483, R513). -/
def Dev.mgmtRelease (d : Dev) : Dev :=
  let d1 := ((d.set F.BOOT_STATUS_BOOT_STATE 0).set F.SUPV_MGMT_WD_EN 0).measureReset
  { d1 with
    fwd := { d1.fwd with mgmt := [] }
    pwr := { d1.pwr with wdFed := none }
    boot := { d1.boot with asm := [], ops := [], restart := false, guxia := none, mgmt := [], seqCode := [] } }

/-- During a COLD start VBAT reaches VBAT_WARN + 0.3 V: both INH pins go active (Table PWR-6). -/
def Dev.inhActive (d : Dev) : Dev :=
  if d.pwr.logicUp || d.standby then d else { d with pwr := { d.pwr with inh0 := true, inh1 := true } }

/-- Domains of `l` that PD_START names start to switch on. -/
def Dev.startDomains (d : Dev) (l : List Nat) : Dev :=
  l.foldl (fun d n => if bit (d.get F.SUPV_PD_START_START) (pdBit n) then d.domainOn n else d) d

/-- The logic die leaves reset with PD2, PD9 and PD1, the die link trained and MGMT released (Table PWR-6). -/
def Dev.logicStart (d : Dev) : Dev :=
  let d1 : Dev := { d with
    pwr := { d.pwr with logicUp := true }
    tables := { d.tables with burnA := ⟨0, d.now⟩, burnB := ⟨0, d.now⟩ } }
  let d2 := ((d1.set F.SUPV_PD_STATUS_ON (d1.get F.SUPV_PD_STATUS_ON ||| 0x103)).set F.SUPV_PD_STATUS_READY
    (d1.get F.SUPV_PD_STATUS_READY ||| 0x103)).set F.SUPV_CLK_STATUS_XTAL 1
  (((d2.set F.SUPV_CLK_STATUS_PLL 1).set F.PWR_D2D_STATUS_LINK_UP 1).set F.FWD_STATUS_READY_A 1).mgmtRelease

/-- The latest reset was a COLD one. -/
def Dev.coldStart (d : Dev) : Bool := decide (d.get F.SUPV_RST_CAUSE_CAUSE < 3)

/-- At a COLD start the references and the 32.768 kHz clock are there. -/
def Dev.clocksStart (d : Dev) : Dev :=
  if d.coldStart then
    ((d.set F.SUPV_CLK_STATUS_PCIE_REF 1).set F.SUPV_CLK_STATUS_SD_REF 1).set F.SUPV_CLK_STATUS_AON (b2n d.time.aonHeld.isNone)
  else d

/-- The other domains of PD_START follow, the power die's only at a COLD start. -/
def Dev.domainsStart (d : Dev) : Dev :=
  let d1 := (d.startDomains [3, 4, 5, 6, 7, 8]).pwrState
  if d1.coldStart then d1.startDomains [10, 11, 12, 13, 14] else d1

/-- Zeroisations that had to wait are reported, in their order (R358). -/
def Dev.reportDue (d : Dev) : Dev :=
  d.vault.report.foldl (fun d x => d.zeroReport x.1 x.2) { d with vault := { d.vault with report := [] } }

/-- The rails have been good for 1 ms, with the crystal running and both INH pins active: the logic die starts. -/
def Dev.railsGood (d : Dev) : Dev :=
  if d.pwr.logicUp || d.pwr.clkHold || d.standby || !(d.pwr.inh0 && d.pwr.inh1) then d
  else ((d.logicStart.clocksStart).domainsStart).reportDue

/-! ### STANDBY (R379, R403) -/

/-- One channel once STANDBY is entered: under LIMP control it follows its pin (R402, R403). -/
def Dev.standbyCh (d : Dev) (i : Nat) : Dev := if d.limpCtl i then d.follow i 4 else d

/-- A write of 1 to `NM.PWR_CTRL.STANDBY`. -/
def Dev.enterStandby (d : Dev) : Dev :=
  let asleep := (List.range 48).all (fun p => !d.segOn p || d.segState p == 4)
  if !asleep || !d.admitted.isEmpty || d.host.ops.any (fun (o : Op) => o.ring == 59) then d.set F.NM_PWR_CTRL_CFG_IGNORED 1
  else
    let segs := d.regs.filter (fun p => decide (0xF00100 ≤ p.1) && decide (p.1 < 0xF00700))
    let nm := d.nm
    let d1 := (((d.event62 0x06 0xFF (d.get F.NM_PWR_STATUS_STATE) 2 0 0 0 d.wakeTicks).xcvrsOff 10).xcvrsOff 11).outputsOff
    let d2 := d1.logicLost
    let d3 : Dev := { d2 with
      regs := segs.foldl (fun m p => SMap.set m (regDefault p.1) p.1 p.2) d2.regs
      nm := { nm with standbyWake := 0, stopAt := some (nm.stopAt.getD d.now) }
      pwr := { d2.pwr with
        inh0 := d2.flag F.PWR_INH_CFG_INH0_STBY, inh1 := d2.flag F.PWR_INH_CFG_INH1_STBY
        goingOn := 0, goingOff := 0, onAfterOff := 0, policyOff := 0 } }
    let on := if d3.flag F.LOADC_LIMP_STATUS_LH_EN then 0x800 else 0
    let d4 := (((d3.set F.SUPV_PD_STATUS_ON on).set F.SUPV_PD_STATUS_READY on).set F.NM_PWR_STATUS_STATE 2).measureReset
    (List.range 24).foldl Dev.standbyCh d4

/-- An unmasked wake in STANDBY drives both pins active; the power die's domains of PD_START come on, and the logic die starts
when its rails are good. -/
def Dev.standbyWake (d : Dev) : Dev :=
  if !d.standby || d.nm.standbyWake == 0 then d
  else
    (({ d with pwr := { d.pwr with inh0 := true, inh1 := true } }).set F.NM_PWR_STATUS_STATE 1).startDomains [10, 11, 12, 13, 14]

/-! ### Supplies (R502 to R505) -/

/-- A rail reaches or leaves its warning level (R503). -/
def Dev.railWarning (d : Dev) (on : Bool) : Dev :=
  let d1 := d.set F.SUPV_SUPPLY_STATUS_RAIL_WARN (b2n on)
  if on && !d.flag F.SUPV_SUPPLY_STATUS_RAIL_WARN then d1.dieMsg.fault blkSupv 0 else d1

/-- The first flash write that waits is started, unless writes are paused. -/
def Dev.flashKick (d : Dev) : Dev :=
  match d.boot.ops with
  | [] => d
  | .stage s _ _ :: _ => if d.flag F.BOOT_STATUS_FLASH_PAUSED then d else d.emit (.flashOp (0x1120000 + 4096 * s) 4096 true)
  | .copy s _ :: _ => if d.flag F.BOOT_STATUS_FLASH_PAUSED then d else d.emit (.flashOp (0x20000 + 4096 * s) 4096 true)

/-- Flash writes pause once none is in progress (R488). -/
def Dev.flashPause (d : Dev) : Dev := if d.boot.ops.isEmpty then d.set F.BOOT_STATUS_FLASH_PAUSED 1 else d

/-- Brownout hold begins (R504). -/
def Dev.bohStart (d : Dev) : Dev :=
  if d.flag F.SUPV_SUPPLY_STATUS_BOH then d
  else
    let d1 := ({ d with pwr := { d.pwr with bohStart := some d.now, bohExpired := false } }).set F.SUPV_SUPPLY_STATUS_BOH 1
    (d1.dieMsg.supplyCond F.LOADC_SUPPLY_STATUS_BROWNOUT true).flashPause

/-- The brownout policy switches a domain off, without CHANGE (R505). -/
def Dev.policyOff (d : Dev) (n : Nat) : Dev :=
  let b := pdBit n
  if bit (d.get F.SUPV_BOH_POLICY_DOMAINS) b && d.powered n && !bit d.pwr.goingOff b then
    ({ d with pwr := { d.pwr with
      policyOff := setBit d.pwr.policyOff b true, goingOn := setBit d.pwr.goingOn b false
      goingOff := setBit d.pwr.goingOff b true } }).setBitOf F.SUPV_PD_STATUS_READY b false
  else d

/-- The hold is longer than BOH_MAX_MS: the policy domains go off in descending order (R505). -/
def Dev.bohExpire (d : Dev) : Dev :=
  match d.pwr.bohStart with
  | some t =>
    if d.pwr.bohExpired then d
    else
      let d1 := d.reach (t + d.get F.SUPV_VBAT_CFG_BOH_MAX_MS * msCyc)
      let d2 := (({ d1 with pwr := { d1.pwr with bohExpired := true } }).set F.SUPV_SUPPLY_STATUS_BOH_EXPIRED 1).dieMsg.fltSet blkSupv 1
      [14, 13, 12, 11, 10, 8, 7, 6, 5, 4, 3, 1].foldl Dev.policyOff (d2.inc F.SUPV_BOH_EXPIRE_COUNT)
  | none => d

/-- The hold ends (R504, R505). -/
def Dev.bohEnd (d : Dev) : Dev :=
  match d.pwr.bohStart with
  | some _ =>
    let late := d.pwr.bohExpired
    let off := d.pwr.policyOff
    let d1 := ((({ d with pwr := { d.pwr with bohStart := none, bohExpired := false } }).set F.SUPV_SUPPLY_STATUS_BOH 0).set
      F.SUPV_SUPPLY_STATUS_BOH_EXPIRED 0).supplyCond F.LOADC_SUPPLY_STATUS_BROWNOUT false
    let d2 := if d1.flag F.BOOT_STATUS_FLASH_PAUSED then (d1.set F.BOOT_STATUS_FLASH_PAUSED 0).flashKick else d1
    let d3 := if late then d2 else d2.inc F.SUPV_BOH_COUNT_COUNT
    if late && d3.flag F.SUPV_BOH_POLICY_RESTORE then
      (List.range 14).foldl (fun d k => if bit off k then d.domainOn (k + 1) else d) d3
    else d3
  | none => d

/-! ### Clocks (R511, R512) -/

/-- The bit of `CLK_STATUS` of a clock: crystal, PLLs, PCIe reference, SerDes references, 32.768 kHz. -/
def clkField (k : Nat) : FieldRef := ⟨R.SUPV_CLK_STATUS, k, 1⟩

/-- A monitored clock is lost. -/
def Dev.clockLost (d : Dev) (k : Nat) : Dev :=
  if !d.flag (clkField k) then d
  else
    let d1 := (d.set (clkField k) 0).fltSet blkSupv 2
    match k with
    | 0 => ({ d1 with pwr := { d1.pwr with clkHold := true } }).warmReset 7
    | 1 => d1.warmReset 7
    | 2 => d1.hostReset true
    | 3 => [0, 1, 2, 3].foldl (fun d p => d.ethDown p) d1
    | _ => ({ d1 with time := { d1.time with aonHeld := some d1.now } }).aonSnap

/-- A clock returns; this undoes no reset. An AON snapshot that has waited for its tick edge is taken (R279). -/
def Dev.clockBack (d : Dev) (k : Nat) : Dev :=
  if d.flag (clkField k) then d
  else
    let d1 := (d.set (clkField k) 1).fltSet blkSupv 2
    match k, d1.time.aonHeld with
    | 0, _ => { d1 with pwr := { d1.pwr with clkHold := false } }
    | 4, some t =>
      let d2 := { d1 with time := { d1.time with aonHeld := none, aonLost := d1.time.aonLost + (d1.now - t) } }
      d2.aonSnap
    | _, _ => d1

/-! ### MGMT watchdog and restarts (R483, R513) -/

/-- A restart of MGMT is due; it waits for the rate-step agent (Table FW-4). -/
def Dev.restartDue (d : Dev) : Dev := { d with boot := { d.boot with restart := true } }

/-- A MGMT restart: cores and memory only. The time unit holds over (R286). -/
def Dev.mgmtRestart (d : Dev) : Dev :=
  let steps := (List.range 12).any (fun p => 3 ≤ d.get (F.ETH_STEP_STATUS_STATE p))
  if !d.boot.restart || !d.pwr.logicUp || steps then d else (d.timeMgmtStop).mgmtRelease

/-- The two MGMT cores disagree (R483). -/
def Dev.lockstep (d : Dev) : Dev :=
  if d.ready 9 then ((d.inc F.BOOT_LOCKSTEP_COUNT).fault blkBoot 3).restartDue else d

/-- The MGMT watchdog is fed by master 3. -/
def Dev.mgmtFeed (d : Dev) (master : Nat) : Dev :=
  if master == 3 && d.flag F.SUPV_MGMT_WD_EN then { d with pwr := { d.pwr with wdFed := some d.now } } else d

/-- The MGMT watchdog expires: a restart, or a WARM reset the second time within 1 s. -/
def Dev.mgmtExpire (d : Dev) : Dev :=
  match d.pwr.wdFed with
  | some t =>
    if !d.flag F.SUPV_MGMT_WD_EN then d
    else
      let d1 := (d.reach (t + d.get F.SUPV_MGMT_WD_PERIOD_MS * msCyc)).fltSet blkSupv 3
      let second := match d.pwr.wdLast with
        | some u => decide (d1.now ≤ u + sCyc)
        | none => false
      let d2 := { d1 with pwr := { d1.pwr with wdLast := some d1.now, wdFed := some d1.now } }
      if second then d2.warmReset 8 else d2.restartDue
  | none => d

/-! ### The die link (R514) -/

/-- The die link loses training. -/
def Dev.linkLost (d : Dev) : Dev :=
  if !d.flag F.PWR_D2D_STATUS_LINK_UP then d
  else (({ d with pwr := { d.pwr with d2dDown := some d.now } }).set F.PWR_D2D_STATUS_LINK_UP 0).fltSet blkSupv 4

/-- The die link is trained again: what the power die has kept for it is served. -/
def Dev.linkBack (d : Dev) : Dev :=
  if d.pwr.d2dDown.isNone then d
  else
    let d1 := ((({ d with pwr := { d.pwr with d2dDown := none } }).set F.PWR_D2D_STATUS_LINK_UP 1)).drain63
    (List.range 48).foldl (fun d p => d.serveLatched p) d1

/-- 1 ms without training: a WARM reset. -/
def Dev.linkTimeout (d : Dev) : Dev :=
  match d.pwr.d2dDown with
  | some t => (d.reach (t + msCyc)).warmReset 9
  | none => d

/-- VHV crosses 8 V (R502). -/
def Dev.vhvLow (d : Dev) (low : Bool) : Dev := d.set F.SUPV_SUPPLY_STATUS_VHV_LOW (b2n low)

/-- The drivers are held recessive below 4.3 V and released above 4.5 V (R518). -/
def Dev.recessive (d : Dev) (held : Bool) : Dev := { d with pwr := { d.pwr with recessive := held } }

end Sys2Proof.Machine
end

