-- ==== Sys2Proof/Machine/BootOps.lean ====
section
/-!
DEFINITION. Boot flash, image format, staging, activation and start-up (chapter 17). Numbers in the flash are in network byte
order, those of the journal too (log 27).
-/
namespace Sys2Proof.Machine

/-! ### Flash (R475, R487) -/

def flashJournal : Nat := 0x10000
def flashActive : Nat := 0x20000
def flashStaging : Nat := 0x1120000

/-- A byte of the boot flash; an erased one reads 0xFF. -/
def Dev.flashByte (d : Dev) (a : Nat) : Byte := SMap.get d.boot.flash 0xFF a

def Dev.flashRead (d : Dev) (a n : Nat) : List Byte := (List.range n).map (fun i => d.flashByte (a + i))

/-- A 4 KiB sector is erased and programmed with `bs` from its start on. -/
def Dev.flashWrite (d : Dev) (a : Nat) (bs : List Byte) : Dev :=
  let m : SMap Byte := d.boot.flash.filter (fun p => decide (p.1 < a) || decide (a + 4096 ≤ p.1))
  let m1 := (bs.foldl (fun (x : SMap Byte × Nat) b => (SMap.set x.1 0xFF x.2 b, x.2 + 1)) (m, a)).1
  { d with boot := { d.boot with flash := m1 } }

/-- A journal record (R487). -/
def journalRecord (seq state session : Nat) (hash : List Byte) (next total bitmap : Nat) : List Byte :=
  let b := beBytes 4 0x534E544A ++ beBytes 4 seq ++ leBytes 1 state ++ leBytes 3 0 ++ beBytes 4 session
    ++ (hash ++ List.replicate (32 - hash.length) 0).take 32 ++ beBytes 4 next ++ beBytes 4 total ++ leBytes 544 bitmap
  b ++ beBytes 4 (crc32 b)

/-- The record of journal page `k`, when it is valid. -/
def Dev.journalPage (d : Dev) (k : Nat) : Option (List Byte) :=
  let b := d.flashRead (flashJournal + 4096 * k) 604
  if beNat (slice b 0 4) == 0x534E544A && beNat (slice b 600 4) == crc32 (slice b 0 600) then some b else none

def jrSeq (b : List Byte) : Nat := beNat (slice b 4 4)
def jrState (b : List Byte) : Nat := byteAt b 8
def jrSession (b : List Byte) : Nat := beNat (slice b 12 4)
def jrNext (b : List Byte) : Nat := beNat (slice b 48 4)
def jrTotal (b : List Byte) : Nat := beNat (slice b 52 4)
def jrBitmap (b : List Byte) : Nat := leNat (slice b 56 544)

/-- The valid record with the highest SEQ, and its page. -/
def Dev.journalNewest (d : Dev) : Option (Nat × List Byte) :=
  (List.range 16).foldl (fun best k =>
    match d.journalPage k, best with
    | some b, some (j, c) => if jrSeq c < jrSeq b then some (k, b) else some (j, c)
    | some b, none => some (k, b)
    | none, x => x) none

/-- A page is programmed but holds no valid record. -/
def Dev.journalBad (d : Dev) : Bool :=
  (List.range 16).any (fun k => (d.journalPage k).isNone
    && d.boot.flash.any (fun p => decide (flashJournal + 4096 * k ≤ p.1) && decide (p.1 < flashJournal + 4096 * (k + 1))))

/-- A journal record of the present staging is written to the next page. -/
def Dev.journalWrite (d : Dev) (state next : Nat) : Dev :=
  let (page, seq) := match d.journalNewest with
    | some (k, b) => ((k + 1) % 16, (jrSeq b + 1) % 2 ^ 32)
    | none => (0, 0)
  (d.flashWrite (flashJournal + 4096 * page) (journalRecord seq state d.boot.session d.boot.hash next
    (d.get F.BOOT_STAGE_SECTORS_TOTAL) d.boot.recorded)).inc F.BOOT_JOURNAL_WRITES_COUNT

/-! ### Image headers (R477 to R480, Table FW-5) -/

def hdEpoch (h : List Byte) : Nat := beNat (slice h 8 4)
def hdLength (h : List Byte) : Nat := beNat (slice h 12 4)
def hdKeyId (h : List Byte) : Nat := beNat (slice h 16 2)
def hdImageId (h : List Byte) : Nat := beNat (slice h 28 4)
def hdSigner (h : List Byte) : List Nat := nats (slice h 80 64)

/-- Blocks of an image, the start of its blocks, its length and its sectors (R477). -/
def hdBlocks (h : List Byte) : Nat := (hdLength h + 4095) / 4096
def hdB0 (h : List Byte) : Nat := (320 + 16 * hdBlocks h + 4095) / 4096 * 4096
def hdFile (h : List Byte) : Nat := hdB0 h + hdLength h
def hdSectors (h : List Byte) : Nat := hdB0 h / 4096 + hdBlocks h
/-- Bytes up to the end of the signature. -/
def hdSigned (h : List Byte) : Nat := 320 + 16 * hdBlocks h

/-- The section entries in use: type, offset, length. -/
def hdSections (h : List Byte) : List (Nat × Nat × Nat) :=
  ((List.range 4).map (fun k => (byteAt h (144 + 16 * k), beNat (slice h (148 + 16 * k) 4), beNat (slice h (152 + 16 * k) 4)))).filter
    (fun s => s.1 != 0)

/-- The section rules of R477. -/
def sectionsOk (h : List Byte) : Bool :=
  let l := hdSections h
  let lim (t : Nat) : Nat := if t == 1 then 1536 * 1024 else if t == 2 then 48 * 1024 else 64 * 1024
  l.length == 3 && [1, 2, 3].all (fun t => (l.filter (fun s => s.1 == t)).length == 1)
    && l.all (fun s => decide (s.2.1 + s.2.2 ≤ hdLength h) && decide (s.2.2 ≤ lim s.1)
      && l.all (fun u => u.1 == s.1 || decide (s.2.1 + s.2.2 ≤ u.2.1) || decide (u.2.1 + u.2.2 ≤ s.2.1)))
    && (List.range 4).all (fun k => beNat (slice h (145 + 16 * k) 3) == 0
      && (byteAt h (144 + 16 * k) == 1 || beNat (slice h (156 + 16 * k) 4) == 0))

/-- Rows 1 and 2 of Table FW-5. -/
def hdFormat (h : List Byte) : Bool :=
  h.length == 256 && beNat (slice h 0 4) == 0x534E5449 && byteAt h 4 == 1 && byteAt h 5 == 12 && beNat (slice h 18 2) == 0
    && beNat (slice h 208 48) == 0 && decide (1 ≤ hdLength h) && decide (hdLength h ≤ 16777216) && sectionsOk h
    && beNat (slice h 6 2) == 0x4880

/-- The hash of a valid OTP anchor (R480); anchor 0 is fused at vendor test. -/
def Dev.anchor (d : Dev) (a : Nat) : Option (List Nat) :=
  if a == 0 then some ((List.range 32).map (fun i => (Config.otpAnchor0 i).toNat))
  else if bit (d.get F.BOOT_ANCHORS_VALID) a then some (nats (leBytes 32 (d.dataRegs (R.BOOT_ANCHOR a) 8)))
  else none

/-- Rows 3 to 5 of Table FW-5. -/
def Dev.hdTrust (d : Dev) (h : List Byte) : Nat :=
  let sh := sha256 (hdSigner h)
  let anchored := (List.range 4).any (fun a => d.anchor a == some sh && (hdKeyId h != 0xFFFF || a == 0))
  if hdEpoch h < d.get F.VAULT_EPOCH_EPOCH then errVersion
  else if !anchored then errSignature
  else if hdKeyId h == 0xFFFF then errOk
  else if decide (hdKeyId h < 256) && d.slotMay (hdKeyId h) useImage && sh == d.signerHash then errOk
  else errKey

/-- The image key (R480). -/
def Dev.imageKey (d : Dev) (h : List Byte) : List Nat :=
  if hdKeyId h == 0xFFFF then kdf ((List.range 32).map (fun i => (Config.classKey i).toNat)) (ascii "SNT-IMG") [0x48, 0x80]
  else d.slotKey (hdKeyId h) (d.slot (hdKeyId h))

/-- TAG_HASH and the signature over a pre-block part (R479). -/
def signatureOk (pre : List Byte) : Bool :=
  let n := hdBlocks pre
  let q := slice pre 80 64
  sha384 (nats (slice pre 256 (16 * n))) == nats (slice pre 32 48)
    && onP256 (beNat (q.take 32)) (beNat (q.drop 32))
    && ecdsaOk (beNat (q.take 32)) (beNat (q.drop 32)) (beNat (slice pre (256 + 16 * n) 32)) (beNat (slice pre (288 + 16 * n) 32))
      (sha256 (nats (slice pre 0 (256 + 16 * n))))

/-- Block `k` has the tag of the tag list (R478). -/
def blockOk (key : List Nat) (pre : List Byte) (k : Nat) (data : List Byte) : Bool :=
  let kb := nats (beBytes 4 k)
  (gcm key (nats (slice pre 20 8) ++ kb) (nats (slice pre 0 32) ++ kb) (nats data) true).2 == nats (slice pre (256 + 16 * k) 16)

/-! ### Staging (R484 to R486) -/

/-- The staging state (R484). -/
def Dev.stage (d : Dev) : Nat := d.get F.BOOT_STATUS_STAGE_STATE

/-- The latest refused data or operation. -/
def Dev.lastErr (d : Dev) (e : Nat) : Dev := if e == errOk then d else d.set F.BOOT_STATUS_LAST_ERR e

/-- BOOT shows the staged header and the sectors recorded. -/
def Dev.stageShow (d : Dev) : Dev :=
  let h := d.boot.hdr
  let d1 := d.set F.BOOT_STAGE_SECTORS_DONE (popCount 4352 d.boot.recorded)
  if h.isEmpty then d1
  else ((d1.set F.BOOT_STAGE_SECTORS_TOTAL (hdSectors h)).set F.BOOT_STAGE_EPOCH_EPOCH (hdEpoch h)).set F.BOOT_STAGE_ID_ID (hdImageId h)

/-- The staging returns to IDLE; everything held is discarded, staged sectors stay in flash. -/
def Dev.stageIdle (d : Dev) : Dev :=
  let d1 : Dev := { d with boot := { d.boot with
    asm := [], hdr := [], hash := [], session := 0, recorded := 0, signed := false, ops := [] } }
  ((((d1.set F.BOOT_STATUS_STAGE_STATE 0).set F.BOOT_STAGE_EPOCH_EPOCH 0).set F.BOOT_STAGE_ID_ID 0).setReg R.BOOT_STAGE_SECTORS 0).set
    F.BOOT_COPY_NEXT_NEXT 0

/-- A flash write of a sector waits or runs. -/
def Dev.inFlight (d : Dev) (s : Nat) : Bool := d.boot.ops.any (fun o => match o with
  | .stage t _ _ => t == s
  | .copy _ _ => false)

/-- A byte of the staged file, where it is known. -/
def Dev.stagedByte (d : Dev) (x : Nat) : Option Byte :=
  if bit d.boot.recorded (x / 4096) then some (d.flashByte (flashStaging + x))
  else (SMap.find? d.boot.asm (x / 4096)).bind (fun m => SMap.find? m (x % 4096))

/-- `n` bytes of the staged file from `x` on, when all are known. -/
def Dev.stagedBytes (d : Dev) (x n : Nat) : Option (List Byte) :=
  let l := (List.range n).map (fun i => d.stagedByte (x + i))
  if l.all (fun b => b.isSome) then some (l.filterMap id) else none

/-- Bytes are taken into assembly; those of a sector recorded or being written are ignored (R484). -/
def Dev.assemble (d : Dev) (off : Nat) (bs : List Byte) : Dev :=
  (bs.foldl (fun (x : Dev × Nat) b =>
    let s := x.2 / 4096
    let d := x.1
    if bit d.boot.recorded s || d.inFlight s then (d, x.2 + 1)
    else
      let m := (SMap.find? d.boot.asm s).getD []
      ({ d with boot := { d.boot with asm := SMap.put d.boot.asm s (SMap.put m (x.2 % 4096) b) } }, x.2 + 1)) (d, off)).1

/-- Sectors that data would open for assembly. -/
def Dev.opened (d : Dev) (off n : Nat) : Nat :=
  ((List.range ((off + n + 4095) / 4096 - off / 4096)).filter (fun i =>
    let s := off / 4096 + i
    !bit d.boot.recorded s && (SMap.find? d.boot.asm s).isNone)).length

/-- A sector is to be written to the staging area. -/
def Dev.stageWrite (d : Dev) (s : Nat) (data : List Byte) : Dev :=
  let first := d.boot.ops.isEmpty
  let d1 : Dev := { d with boot := { d.boot with ops := d.boot.ops ++ [.stage s data false] } }
  if first then d1.flashKick else d1

/-- Every whole sector goes on: pre-block sectors to flash, blocks to flash once their tag is right (R486). -/
def Dev.sectorsDone (d : Dev) (pre : List Byte) : Dev × Nat :=
  let h := d.boot.hdr
  let key := d.imageKey h
  (d.boot.asm.map (fun p => p.1)).foldl (fun (x : Dev × Nat) s =>
    let d := x.1
    let n := if s + 1 == hdSectors h then hdFile h - 4096 * s else 4096
    if d.inFlight s then x
    else
      match d.stagedBytes (4096 * s) n with
      | none => x
      | some data =>
        if s < hdB0 h / 4096 || blockOk key pre (s - hdB0 h / 4096) data then (d.stageWrite s data, x.2)
        else
          (({ d with boot := { d.boot with asm := SMap.del d.boot.asm s } }).inc F.BOOT_BLOCK_AUTH_FAIL_COUNT, errAuth)) (d, errOk)

/-- What the staging does once data has been assembled: the signature, then whole sectors (R486). -/
def Dev.stageGoOn (d : Dev) : Dev × Nat :=
  let h := d.boot.hdr
  if h.isEmpty then (d, errOk)
  else
    match d.stagedBytes 0 (hdSigned h) with
    | none => (d, errOk)
    | some pre =>
      if d.boot.signed then d.sectorsDone pre
      else if signatureOk pre then
        ((({ d with boot := { d.boot with signed := true } }).set F.BOOT_STATUS_STAGE_STATE (max 2 d.stage))).sectorsDone pre
      else (d.stageIdle, errSignature)

/-- Padding bytes of the pre-block part that are not 0. -/
def padBad (h : List Byte) (off : Nat) (bs : List Byte) : Bool :=
  (List.range bs.length).any (fun i => decide (hdSigned h ≤ off + i) && decide (off + i < hdB0 h) && byteAt bs i != 0)

/-- Image bytes at a file offset (STAGING_DATA, R485): the header's checks at offset 0, then assembly. A piece at offset 0 brings
its session. -/
def Dev.stageData (d : Dev) (off : Nat) (bs : List Byte) (session : Option Nat) : Dev × Nat :=
  let h := bs.take 256
  let idle := d.stage == 0
  let err :=
    if off != 0 then (if idle then errBusy else errOk)
    else if !hdFormat h then errFormat
    else if d.hdTrust h != errOk then d.hdTrust h
    else if idle || (if d.boot.hdr.isEmpty then nats d.boot.hash == sha256 (nats h) else d.boot.hdr == h) then errOk
    else errBusy
  let hdr := if off == 0 then h else d.boot.hdr
  let known := !hdr.isEmpty
  if err != errOk then (d.lastErr err, err)
  else if (known && (decide (hdFile hdr < off + bs.length) || padBad hdr off bs)) then (d.lastErr errFormat, errFormat)
  else if 64 < d.boot.asm.length + d.opened off bs.length then (d.lastErr errBusy, errBusy)
  else
    let d1 := if idle then
        (({ d with boot := { d.boot with
          hdr := h, hash := bytes (sha256 (nats h)), session := session.getD 0, recorded := 0, signed := false, asm := [] } }).set
          F.BOOT_STATUS_STAGE_STATE 1).stageShow
      else if off == 0 then ({ d with boot := { d.boot with hdr := h } }).stageShow
      else d
    let (d2, e) := (d1.assemble off bs).stageGoOn
    (d2.lastErr e, e)

/-! ### Ring-59 firmware operations (R491, R492) -/

def opFwPiece : Nat := 0x50
def opFwQuery : Nat := 0x51
def opFwActivate : Nat := 0x52
def opFwCancel : Nat := 0x53

/-- Firmware operations are served while MGMT runs the firmware or the resident loader (Table FW-4, R482). -/
def Dev.fwServed (d : Dev) : Bool := d.ready 9 && decide (2 ≤ d.get F.BOOT_STATUS_BOOT_STATE)

/-- The firmware operation that is next, when it has the opcode. -/
def Dev.fwNext (d : Dev) (opcode : Nat) : Option Op :=
  if !d.fwServed then none
  else (d.nextQueued 59 [opFwPiece, opFwQuery, opFwActivate, opFwCancel]).bind (fun o => if o.opcode == opcode then some o else none)

/-- An operation ends with a code. -/
def Dev.fwEnd (d : Dev) (o : Op) (e : Nat) : Dev := if e == errOk then d.opDone o else (d.lastErr e).opFail o e

/-- The form of an Edrova 2 piece (R491): its offset and bytes. -/
def pieceForm (b : List Byte) : Option (Nat × List Byte × Bool × Nat) :=
  let n := beNat (slice b 6 2)
  let i := beNat (slice b 12 4)
  if beNat (slice b 0 4) == 0x45443250 && byteAt b 4 == 2 && decide (1 ≤ n) && decide (n ≤ 1004) && b.length == n + 20 then
    some (1004 * i, slice b 16 n, bit (byteAt b 5) 0, beNat (slice b 8 4))
  else none

/-- A piece is taken (R491): its result code. -/
def Dev.pieceTake (d : Dev) (b : List Byte) : Dev × Nat :=
  if beNat (slice b (b.length - 4) 4) != crc32 (b.take (b.length - 4)) then
    ((d.inc F.BOOT_PIECE_CRC_FAIL_COUNT).lastErr errFormat, errFormat)
  else
    match pieceForm b with
    | none => (d.lastErr errFormat, errFormat)
    | some (off, bs, last, session) =>
      let hdr := if off == 0 then bs.take 256 else d.boot.hdr
      let known := hdFormat hdr
      let lastBad := if known then last != (off + bs.length == hdFile hdr) else false
      if d.stage != 0 && d.boot.session != session then (d.lastErr errBusy, errBusy)
      else if lastBad || (!last && bs.length != 1004) then (d.lastErr errFormat, errFormat)
      else d.stageData off bs (some session)

/-- FW_PIECE. -/
def Dev.fwPiece (d : Dev) : Dev :=
  match d.fwNext opFwPiece with
  | none => d
  | some o =>
    let n := leNat (d.hostRead (o.param + 8) 2)
    if n < 21 || 1024 < n then d.fwEnd o errFormat
    else
      let (d1, e) := d.pieceTake (d.hostRead (leNat (d.hostRead o.param 8)) n)
      d1.fwEnd o e

/-- The query record (R492), its numbers written by `num`. -/
def Dev.queryRecord (d : Dev) (num : Nat → Nat → List Byte) : List Byte :=
  leBytes 1 d.stage ++ leBytes 1 (d.get F.BOOT_STATUS_BOOT_STATE) ++ leBytes 2 0 ++ num 4 d.boot.session
    ++ num 4 (d.get F.BOOT_STAGE_ID_ID) ++ num 4 (d.get F.BOOT_STAGE_EPOCH_EPOCH) ++ num 4 (d.get F.BOOT_STAGE_SECTORS_TOTAL)
    ++ num 4 (d.get F.BOOT_STAGE_SECTORS_DONE) ++ num 4 (d.get F.BOOT_COPY_NEXT_NEXT) ++ leBytes 36 0 ++ leBytes 544 d.boot.recorded

/-- FW_QUERY. -/
def Dev.fwQuery (d : Dev) : Dev :=
  match d.fwNext opFwQuery with
  | none => d
  | some o => (d.hostWrite (leNat (d.hostRead o.param 8)) (d.queryRecord leBytes)).opDone o

/-- The staging is cancelled, with its IDLE record; refused while it is being copied. -/
def Dev.stageCancel (d : Dev) : Dev × Nat :=
  if d.stage == 4 then (d.lastErr errBusy, errBusy) else (d.stageIdle.journalWrite 0 0, errOk)

/-- FW_CANCEL; its record waits while flash writes are paused (R488). -/
def Dev.fwCancel (d : Dev) : Dev :=
  match d.fwNext opFwCancel with
  | none => d
  | some o =>
    if d.flag F.SUPV_SUPPLY_STATUS_BOH && d.stage != 4 then d
    else
      let (d1, e) := d.stageCancel
      d1.fwEnd o e

/-! ### Activation (R493) -/

/-- The recheck of the staged pre-block part, from flash. -/
def Dev.recheck (d : Dev) : Nat :=
  let h := d.flashRead flashStaging 256
  let t := d.hdTrust h
  if t != errOk then t else if signatureOk (d.flashRead flashStaging (hdSigned h)) then errOk else errSignature

/-- Activation up to its decision point: the COPYING record, and the copy of sector 0 under way. -/
def Dev.activate (d : Dev) (op : Option Nat) : Dev × Nat :=
  if d.stage != 3 then (d.lastErr errBusy, errBusy)
  else
    let e := d.recheck
    if e != errOk then ((d.stageIdle.journalWrite 0 0).lastErr e, e)
    else
      let d1 := ((d.set F.BOOT_STATUS_STAGE_STATE 4).set F.BOOT_COPY_NEXT_NEXT 0).journalWrite 4 0
      (({ d1 with boot := { d1.boot with ops := [.copy 0 false], copyOp := op } }).flashKick, errOk)

/-- FW_ACTIVATE. -/
def Dev.fwActivate (d : Dev) : Dev :=
  match d.fwNext opFwActivate with
  | none => d
  | some o =>
    if d.flag F.SUPV_SUPPLY_STATUS_BOH && d.stage == 3 then d
    else
      let (d1, e) := (d.startOp o).activate (some o.idx)
      if e == errOk then d1 else d1.opFail { o with state := .running } e

/-- The running activation's operation. -/
def Dev.copyOp (d : Dev) : Option Op :=
  d.boot.copyOp.bind (fun i => d.host.ops.find? (fun (o : Op) => o.ring == 59 && o.opcode == opFwActivate && o.idx == i))

/-- The copy has ended: DONE record, staging IDLE, report, and a MGMT restart (R493). -/
def Dev.copyDone (d : Dev) (restart : Bool) : Dev :=
  let d1 := (d.journalWrite 5 (d.get F.BOOT_COPY_NEXT_NEXT)).stageIdle
  let d2 := match d1.copyOp with
    | some o => d1.opDone o
    | none => d1
  { d2 with boot := { d2.boot with copyOp := none, restart := d2.boot.restart || restart } }

/-- Sector `k` of the active image takes the staged sector, with its journal record. -/
def Dev.copySector (d : Dev) (k : Nat) : Dev :=
  ((d.flashWrite (flashActive + 4096 * k) (d.flashRead (flashStaging + 4096 * k) 4096)).set F.BOOT_COPY_NEXT_NEXT (k + 1)).journalWrite
    4 (k + 1)

/-- After a completed flash write: the pause of a brownout hold, or the next one. -/
def Dev.flashNext (d : Dev) : Dev :=
  if d.flag F.SUPV_SUPPLY_STATUS_BOH then d.set F.BOOT_STATUS_FLASH_PAUSED 1 else d.flashKick

/-- A staged sector is in flash and recorded (R484). -/
def Dev.sectorRecorded (d : Dev) (s : Nat) (data : List Byte) : Dev :=
  let d1 := (d.flashWrite (flashStaging + 4096 * s) data)
  let d2 := ({ d1 with boot := { d1.boot with
    recorded := setBit d1.boot.recorded s true, asm := SMap.del d1.boot.asm s } }).stageShow
  let all := popCount 4352 d2.boot.recorded == d2.get F.BOOT_STAGE_SECTORS_TOTAL
  let d3 := if all then d2.set F.BOOT_STATUS_STAGE_STATE 3 else d2
  d3.journalWrite d3.stage 0

/-- A flash write fails its verify a second time (R488). -/
def Dev.flashFailed (d : Dev) : Dev := d.fault blkBoot 1

/-- The flash write in progress has been verified (R488): done, tried again, or given up. -/
def Dev.flashOp (d : Dev) (ok : Bool) : Dev :=
  if d.flag F.BOOT_STATUS_FLASH_PAUSED || !d.ready 13 then d
  else
    match d.boot.ops with
    | [] => d
    | op :: l =>
      let d0 : Dev := { d with boot := { d.boot with ops := l } }
      let d1 := if ok then d0 else d0.inc F.BOOT_FLASH_ERR_COUNT
      match op, ok with
      | .stage s data _, true => (d1.sectorRecorded s data).flashNext
      | .stage s data false, false => ({ d1 with boot := { d1.boot with ops := .stage s data true :: l } }).flashNext
      | .stage s _ true, false =>
        (({ d1 with boot := { d1.boot with asm := SMap.del d1.boot.asm s } }).flashFailed).flashNext
      | .copy k _, true =>
        let d2 := d1.copySector k
        let d3 := match d2.copyOp with
          | some o => d2.setOp { o with progress := k + 1 }
          | none => d2
        if d3.get F.BOOT_STAGE_SECTORS_TOTAL ≤ k + 1 then d3.copyDone true
        else ({ d3 with boot := { d3.boot with ops := [.copy (k + 1) false] } }).flashNext
      | .copy k false, false => ({ d1 with boot := { d1.boot with ops := [.copy k true] } }).flashNext
      | .copy _ true, false =>
        let d2 := (d1.flashFailed).lastErr errInternal
        let d3 := match d2.copyOp with
          | some o => d2.opFail o errInternal
          | none => d2
        { d3 with boot := { d3.boot with copyOp := none } }

/-! ### Start-up (R476, R481, R482, R493) -/

/-- A boot header copy is valid (R476). -/
def Dev.bootHeaderOk (d : Dev) (a : Nat) : Bool :=
  let b := d.flashRead a 64
  beNat (slice b 0 4) == 0x534E5442 && byteAt b 4 == 1 && decide (8 ≤ byteAt b 5) && decide (byteAt b 5 ≤ 32)
    && decide (byteAt b 6 ≤ 2) && beNat (slice b 60 4) == crc32 (slice b 0 60)

/-- The boot header is read. -/
def Dev.bootHeader (d : Dev) : Dev :=
  let d1 := (d.set F.BOOT_STATUS_HDR_B 0).set F.BOOT_STATUS_RESUMED 0
  if d.bootHeaderOk 0 then d1
  else if d.bootHeaderOk 0x1000 then d1.set F.BOOT_STATUS_HDR_B 1
  else d1.fltSet blkBoot 4

/-- The sectors from `k` on are copied. -/
def Dev.copyRest (d : Dev) (k : Nat) : Nat → Dev
  | 0 => d
  | n + 1 => (d.copySector k).copyRest (k + 1) n

/-- The journal is examined: the staging it records, and a copy that it shows unfinished. -/
def Dev.bootJournal (d : Dev) : Dev :=
  let d0 := if d.journalBad then d.fltSet blkBoot 2 else d
  match d0.journalNewest with
  | none => d0
  | some (_, b) =>
    let st := jrState b
    if st == 0 || 5 ≤ st then d0
    else
      let h := d0.flashRead flashStaging 256
      let known := bit (jrBitmap b) 0
      let d1 : Dev := { d0 with boot := { d0.boot with
        hdr := if known then h else [], hash := slice b 16 32, session := jrSession b, recorded := jrBitmap b, signed := decide (3 ≤ st) } }
      let d2 := ((d1.set F.BOOT_STATUS_STAGE_STATE st).set F.BOOT_STAGE_SECTORS_TOTAL (jrTotal b)).stageShow
      if st == 4 then
        (((d2.set F.BOOT_STATUS_RESUMED 1).set F.BOOT_COPY_NEXT_NEXT (jrNext b)).copyRest (jrNext b) (jrTotal b - jrNext b)).copyDone false
      else d2

/-- The check of the active image (R481): the flash offset at which it fails, or none. -/
def Dev.imageCheck (d : Dev) : Option Nat :=
  let h := d.flashRead flashActive 256
  if !hdFormat h || d.hdTrust h != errOk then some flashActive
  else
    let pre := d.flashRead flashActive (hdSigned h)
    if !signatureOk pre then some flashActive
    else
      let key := d.imageKey h
      ((List.range (hdBlocks h)).find? (fun k =>
        !blockOk key pre k (d.flashRead (flashActive + hdB0 h + 4096 * k) (min 4096 (hdLength h - 4096 * k))))).map
          (fun k => flashActive + hdB0 h + 4096 * k)

/-- The boot ROM's measurement. -/
def romHash : List Nat := (List.range 48).map (fun i => (Config.romMeasure i).toNat)

/-- Staged signer hash and epoch (R482). -/
def Dev.stageMeasures (d : Dev) (signer : List Nat) (epoch : Nat) : Dev :=
  (d.setDataRegs R.VAULT_SIGNER_STAGE 8 (leNat (bytes signer))).set F.VAULT_EPOCH_STAGE_EPOCH epoch

/-- RECOVERY (R482). -/
def Dev.recovery (d : Dev) (offset : Nat) : Dev :=
  let d1 := d.faultCapture blkBoot 0 (noAccess offset) false
  let d2 := ((d1.extend romHash).stageMeasures d1.signerHash (d1.get F.VAULT_EPOCH_EPOCH)).commit
  d2.set F.BOOT_STATUS_BOOT_STATE 3

/-- The plaintext of block `k` (R478). -/
def blockPlain (key : List Nat) (h : List Byte) (k : Nat) (data : List Byte) : List Byte :=
  let kb := nats (beBytes 4 k)
  bytes (gcm key (nats (slice h 20 8) ++ kb) (nats (slice h 0 32) ++ kb) (nats data) true).1

/-- The payload of the active image, decrypted (R478). -/
def Dev.imagePlain (d : Dev) : List Byte :=
  let h := d.flashRead flashActive 256
  (List.range (hdBlocks h)).flatMap (fun k =>
    blockPlain (d.imageKey h) h k (d.flashRead (flashActive + hdB0 h + 4096 * k) (min 4096 (hdLength h - 4096 * k))))

/-- The section of a TYPE in a payload (R477). -/
def imageSection (h payload : List Byte) (t : Nat) : List Byte :=
  match (hdSections h).find? (fun s => s.1 == t) with
  | some s => slice payload s.2.1 s.2.2
  | none => []

/-- Size of MGMT memory (Table OVW-8). -/
def mgmtBytes : Nat := 2048 * 1024

/-- The payload is loaded into MGMT memory, as far as it goes (DESIGN CHOICE, log 84), and the microcode into Anvil and the sequencers that have power (Table FW-3). -/
def Dev.loadImage (d : Dev) : Dev :=
  let h := d.flashRead flashActive 256
  let m := d.imagePlain
  let d1 : Dev := { d with boot := { d.boot with mgmt := m.take mgmtBytes, seqCode := imageSection h m 2, anvilCode := imageSection h m 3 } }
  if d1.ready 7 then ((List.range 8).foldl (fun d q => d.loadSeq q) d1).set F.XPT_STATUS_SEQ_READY 0xFF else d1

/-- The verified image is measured and runs; microcode is loaded into the sequencers that have power (Table FW-3). -/
def Dev.runImage (d : Dev) : Dev :=
  let h := d.flashRead flashActive 256
  let d1 := (d.extend romHash).extend (sha384 (nats (d.flashRead flashActive (hdSigned h))))
  let d2 := (d1.stageMeasures (sha256 (hdSigner h)) (hdEpoch h)).commit
  let d3 := d2.loadImage
  ((d3.set F.BOOT_ACTIVE_EPOCH_EPOCH (hdEpoch h)).set F.BOOT_ACTIVE_ID_ID (hdImageId h)).set F.BOOT_STATUS_BOOT_STATE 2

/-- BOOT_START: Table FW-3, while the ROM waits for it and the flash is not still powering up. -/
def Dev.bootStart (d : Dev) (flashErr : Bool) : Dev :=
  if !d.ready 9 || d.get F.BOOT_STATUS_BOOT_STATE != 0 || bit d.pwr.goingOn 12 then d
  else if flashErr || !d.ready 13 then (d.set F.BOOT_STATUS_HDR_B 0).recovery 0
  else
    let d1 := d.bootHeader.bootJournal
    let h := d1.flashRead flashActive 256
    let d2 := if hdFormat h && decide (hdKeyId h < 256) then d1.slotTouch (hdKeyId h) else d1
    match d2.imageCheck with
    | some off => d2.recovery off
    | none => d2.runImage

/-- The writing of an OTP anchor by MGMT (R480). -/
def Dev.otpBurn (d : Dev) : Dev :=
  let s := d.get F.BOOT_OTP_ANCHOR_CTRL_SLOT
  if s == 0 || bit (d.get F.BOOT_ANCHORS_VALID) s then d.set F.BOOT_OTP_ANCHOR_CTRL_RESULT errLocked
  else
    ((d.setDataRegs (R.BOOT_ANCHOR s) 8 (d.dataRegs R.BOOT_OTP_ANCHOR_DATA 8)).setBitOf F.BOOT_ANCHORS_VALID s true).set
      F.BOOT_OTP_ANCHOR_CTRL_RESULT errOk

/-! ### Guxia and the service port (R489, R490) -/

/-- SVC is served: its domain is on and MGMT runs firmware or the resident loader. -/
def Dev.svcUp (d : Dev) : Bool := d.ready 14 && d.fwServed

/-- A Guxia reply, kept with its SEQ. -/
def Dev.guxiaReply (d : Dev) (type seq err : Nat) (body : List Byte) : Dev :=
  let r := leBytes 1 1 ++ leBytes 1 (type + 0x80) ++ beBytes 2 (12 + body.length) ++ beBytes 4 seq ++ leBytes 1 err ++ leBytes 3 0 ++ body
  ({ d with boot := { d.boot with guxia := some (seq, r) } }).emit (.svc r)

/-- A request that is answered with ERR_FORMAT and counted. -/
def Dev.guxiaBad (d : Dev) (m : List Byte) : Dev :=
  (d.inc F.BOOT_GUXIA_ERR_COUNT).guxiaReply (byteAt m 1 % 128) (beNat (slice m 4 4)) errFormat []

/-- The types of Table FW-6. -/
def guxiaTypes : List Nat := [0x01, 0x02, 0x10, 0x11, 0x12, 0x13]

/-- A Guxia datagram of one of `types`: counted, answered again where its SEQ is the last one, refused where its header or the
length of its body is wrong, and otherwise served (R490). A request that must wait for the flash is not taken yet. -/
def Dev.guxia (d : Dev) (types : List Nat) (m : List Byte) (bodyOk wait : Bool) (serve : Dev → Nat → Dev) : Dev :=
  if !d.svcUp || !d.flag F.BOOT_GUXIA_CFG_EN || m.length < 12 || !types.contains (byteAt m 1) || wait then d
  else
    let d1 := d.inc F.BOOT_GUXIA_RX_COUNT
    let seq := beNat (slice m 4 4)
    let kept := d1.boot.guxia.bind (fun k => if k.1 == seq then some k.2 else none)
    match kept with
    | some r => d1.emit (.svc r)
    | none =>
      let n := beNat (slice m 2 2)
      if byteAt m 0 != 1 || n != m.length || 1452 < n || !bodyOk then d1.guxiaBad m else serve d1 seq

/-- GUXIA_FW_DATA. -/
def Dev.guxiaData (d : Dev) (m : List Byte) : Dev :=
  let off := beNat (slice m 12 4)
  let bs := m.drop 16
  let h := if off == 0 then bs.take 256 else d.boot.hdr
  let short := bs.length == 1024 || !hdFormat h || off + bs.length == hdFile h
  d.guxia [0x10] m (decide (17 ≤ m.length) && decide (bs.length ≤ 1024) && off % 1024 == 0 && short) false (fun d seq =>
    let (d1, e) := d.stageData off bs none
    d1.guxiaReply 0x10 seq e [])

/-- GUXIA_FW_QUERY. -/
def Dev.guxiaQuery (d : Dev) (m : List Byte) : Dev :=
  d.guxia [0x11] m (m.length == 12) false (fun d seq => d.guxiaReply 0x11 seq errOk (d.queryRecord beBytes))

/-- GUXIA_FW_ACTIVATE. -/
def Dev.guxiaActivate (d : Dev) (m : List Byte) : Dev :=
  d.guxia [0x12] m (m.length == 12) (d.flag F.SUPV_SUPPLY_STATUS_BOH && d.stage == 3) (fun d seq =>
    let (d1, e) := d.activate none
    d1.guxiaReply 0x12 seq e [])

/-- GUXIA_FW_CANCEL. -/
def Dev.guxiaCancel (d : Dev) (m : List Byte) : Dev :=
  d.guxia [0x13] m (m.length == 12) (d.flag F.SUPV_SUPPLY_STATUS_BOH && d.stage != 4) (fun d seq =>
    let (d1, e) := d.stageCancel
    d1.guxiaReply 0x13 seq e [])

/-- The device's MAC address on SVC (R489). -/
def Dev.svcMac (d : Dev) : List Byte :=
  let a := d.reg R.BOOT_SVC_ADDR_LO + 2 ^ 32 * d.get F.BOOT_SVC_ADDR_HI_ADDR
  if a == 0 then 2 :: (bytes uidBytes).drop 11 else leBytes 6 a

/-- The device's IPv6 address: fe80::/64 with the modified EUI-64 of its MAC address. -/
def Dev.svcIp (d : Dev) : List Byte :=
  let m := d.svcMac
  [0xFE, 0x80, 0, 0, 0, 0, 0, 0] ++ [((m[0]?).getD 0) ^^^ 2] ++ slice m 1 2 ++ [0xFF, 0xFE] ++ slice m 3 3

/-- The Internet checksum's sum of 16-bit words with carries added back. -/
def onesSum (bs : List Byte) : Nat :=
  (List.range ((bs.length + 1) / 2)).foldl (fun a i =>
    let x := a + beNat (slice bs (2 * i) 2)
    if 65536 ≤ x then x - 65535 else x) 0

/-- NEIGHBOR_SOLICITATION: an advertisement from the device's address, solicited unless the sender has no address yet. -/
def Dev.neighbor (d : Dev) (src target : List Byte) : Dev :=
  if !d.svcUp || target != d.svcIp then d
  else
    let anon := src.all (fun b => b == 0)
    let dst : List Byte := if anon then [0xFF, 2, 0, 0, 0, 0, 0, 0, 0, 0, 0, 0, 0, 0, 0, 1] else src
    let rest : List Byte := (if anon then [0x20, 0, 0, 0] else [0x60, 0, 0, 0]) ++ target ++ [2, 1] ++ d.svcMac
    let body : List Byte := [136, 0, 0, 0] ++ rest
    let sum := 65535 - onesSum (d.svcIp ++ dst ++ beBytes 4 body.length ++ beBytes 4 58 ++ body)
    d.emit (.svc (d.svcIp ++ dst ++ [136, 0] ++ beBytes 2 sum ++ rest))

end Sys2Proof.Machine
end

