-- ==== Sys2Proof/Machine/RegView.lean ====
section
/-!
DEFINITION. The register map as accesses see it: the block and power domain of an address (Tables REG-1, REG-2), and
the values of the read-only fields that show what the device holds outside its registers.
-/
namespace Sys2Proof.Machine

/-! ### Blocks and domains -/

/-- The block whose window or page holds an address (Tables REG-1, REG-2, FLT-8). -/
def pageBlock (a : Nat) : Nat :=
  if a < 0x100000 then 0 else if a < 0x200000 then 1 else if a < 0x400000 then 2 else if a < 0x600000 then 3
  else if a < 0x700000 then 4 else if a < 0x800000 then 5
  else if a < 0x814000 then 6 + (a - 0x800000) / 0x1000
  else if a < 0x900000 then 26
  else if a < 0xA00000 then 27 + (a - 0x900000) / 0x1000 % 8
  else if a < 0xA14000 then 35 + (a - 0xA00000) / 0x1000
  else if a < 0xB00000 then 55
  else if a < 0xC00000 then 56 else if a < 0xD00000 then 57 else if a < 0xE00000 then 58 else if a < 0xF00000 then 59
  else if a < 0x1000000 then 60
  else if a < 0x1010000 then 61 else if a < 0x1020000 then 62 else if a < 0x1030000 then 61
  else if a < 0x1100000 then 63 else if a < 0x1200000 then 64 else 65

/-- The power domain of a block's registers (Tables REG-1, REG-2), 0 where they are always powered. -/
def blockDomain (b : Nat) : Nat :=
  if b == 1 then 1
  else if b == 0 || (decide (2 ≤ b) && decide (b ≤ 4)) || b == 56 then 2
  else if decide (5 ≤ b) && decide (b < 35) || b == 57 || b == 60 then 7
  else if b == 35 || b == 36 then 4 else if b == 37 || b == 38 then 5
  else if decide (39 ≤ b) && decide (b ≤ 55) then 6
  else if b == 58 then 8 else if b == 64 || b == 65 then 9 else 0

/-- A register's block is powered and out of BLOCK reset, or the register is one of its fault page, which a BLOCK reset leaves
alone (R445, R465). -/
def Dev.pageOn (d : Dev) (a : Nat) : Bool :=
  let b := pageBlock a
  (blockDomain b == 0 || d.ready (blockDomain b)) && ((faultBlockOf a).isSome || !d.inReset b)

/-- Addresses of registers from `base` on, `n` of them `stride` apart: the index of `a` among them. -/
def regIdx (base stride n a : Nat) : Option Nat :=
  if base ≤ a ∧ (a - base) % stride = 0 ∧ (a - base) / stride < n then some ((a - base) / stride) else none

/-! ### Computed read-only fields -/

/-- FWD: free handles and cells, unused reservations, field queues, heaps (Table PIPE-5). -/
def Dev.viewFwd (d : Dev) (a : Nat) : Option Nat :=
  if a == R.FWD_HANDLES then some d.freeHandles
  else if a == R.FWD_CELLS then some (d.freeCells 0 + 65536 * d.freeCells 1)
  else if a == R.FWD_UNUSED_RSV_H then some d.unusedH
  else if a == R.FWD_UNUSED_RSV_C then some (d.unusedC 0 + 65536 * d.unusedC 1)
  else
    match regIdx (R.FWD_FQ_COUNT 0) 4 36 a, regIdx (R.FWD_HEAP 0) 4 20 a with
    | some q, _ => some (d.fqFill q + 256 * min 255 ((d.fq q).filter (fun r => r.part.isNone)).length)
    | none, some c =>
      let h := d.heap (20 + c)
      some (h.length + 256 * d.heapReserved (20 + c) + 65536 * (h.filter (fun x => !x.rsv)).length)
    | none, none => none

/-- TBL: learning on hold and learned entries of each port (Table TBL-10). -/
def Dev.viewTbl (d : Dev) (a : Nat) : Option Nat :=
  if a == R.TBL_STATUS then some (3 * b2n d.learnHeld)
  else (regIdx (R.TBL_LEARN_COUNT 0) 4 20 a).map (fun p => d.learnedOn 0 p + 65536 * d.learnedOn 1 p)

/-- The shaper that `BES_SEL` selects, as a key of `anvil.staged` and `anvil.oper`. -/
def Dev.besKey (d : Dev) : Nat := 8 * d.get F.ANVIL_BES_SEL_PORT + d.get F.ANVIL_BES_SEL_TC

/-- ANVIL: contracts, pinned keys, operations, reservations and the selected shaper (Table PROM-15). -/
def Dev.viewAnvil (d : Dev) (a : Nat) : Option Nat :=
  if a == R.ANVIL_STATUS then
    some ((d.anvil.contracts.filter (fun (p : Nat × Option Contract) => p.2.isSome)).length + 65536 * d.anvil.pinned.length)
  else if a == R.ANVIL_QUEUE then some (d.host.ops.filter (fun (o : Op) => o.ring == 56)).length
  else if a == R.ANVIL_RSV_HANDLES then some d.rsvHandles
  else if a == R.ANVIL_RSV_CELLS then some (d.rsvCells 0 + 65536 * d.rsvCells 1)
  else if a == R.ANVIL_BES_RATE then some (SMap.get d.anvil.staged (0xFFFFFFFF, 0) d.besKey).1
  else if a == R.ANVIL_BES_BURST then some (SMap.get d.anvil.staged (0xFFFFFFFF, 0) d.besKey).2
  else if a == R.ANVIL_BES_OPER then some (SMap.get d.anvil.oper (0xFFFFFFFF, 0) d.besKey).1
  else none

/-- STE: held events and open containers (Table SIG-17). -/
def Dev.viewSte (d : Dev) (a : Nat) : Option Nat :=
  if a == R.STE_EVF_QUEUE then some d.ste.events.length
  else (regIdx (R.STE_CONT_STATE 0) 4 64 a).map (fun c =>
    match SMap.get d.ste.conts none c with
    | some k => k.size + 0x8000 + 65536 * min 255 k.pdus
    | none => 0)

/-- ETH: the gates of a port now; BEACON_OK, and whether an enabled T1S port transmits by CSMA/CD (Table ETH-7). -/
def Dev.viewEth (d : Dev) (a : Nat) : Option Nat :=
  match regIdx (R.ETH_GATE_STATUS 0) 0x1000 12 a with
  | some p =>
    let g := d.gates p d.dtime
    some (d.get (F.ETH_GATE_STATUS_PENDING p) + 256 * (g.1 % 256) + 65536 * (g.2.1 % 2048))
  | none => (regIdx (R.ETH_PLCA_STATUS 12) 0x1000 8 a).map (fun k =>
      let p := 12 + k
      d.get (F.ETH_PLCA_STATUS_BEACON_OK p) + 2 * b2n (d.flag (F.ETH_MAC_CFG_EN p) && d.linkReady p && d.t1sCsma p))

/-- TIME: DTIME (R271), the AON snapshot (R279), and the link delay in use of each gPTP port (Table TIME-6). -/
def Dev.viewTime (d : Dev) (a : Nat) : Option Nat :=
  if a == R.TIME_DTIME_LO then some (d.dtime % 2 ^ 32)
  else if a == R.TIME_DTIME_HI then some (d.dtime / 2 ^ 32)
  else if a == R.TIME_DTIME_FRAC then some d.dtimeFrac
  else if a == R.TIME_AON_SNAP then some (b2n d.time.snapGo)
  else if a == R.TIME_AON_SNAP_TICKS then some d.time.snapTicks
  else if a == R.TIME_AON_SNAP_DTIME then some (d.time.snapDtime % 2 ^ 32)
  else if a == R.TIME_AON_SNAP_DTIME + 4 then some (d.time.snapDtime / 2 ^ 32)
  else (regIdx (R.TIME_GPTP_PORT 0 + 4) 8 12 a).map (fun p =>
    if d.flag (F.TIME_GPTP_PORT_STATIC_DELAY p) then d.get (F.TIME_GPTP_PORT_W1_DELAY_NS p) else (d.gptp p).delay % 2 ^ 32)

/-- CRY: queue, cache and held output (Table CRY-8). -/
def Dev.viewCry (d : Dev) (a : Nat) : Option Nat :=
  if a == R.CRY_STATUS then
    some (d.hostJobs + d.inlineJobs + 256 * d.hostJobs + 0x8000 * d.get F.CRY_STATUS_TRNG_OK + 65536 * d.cry.cache.length
      + 2 ^ 24 * (d.cry.cache.filter (fun (e : CacheEnt) => e.pinned)).length + 2 ^ 31 * d.get F.CRY_STATUS_CFG_IGNORED)
  else if a == R.CRY_HELD then some (2048 - (d.heldUnits + d.rxUnits) + 65536 * d.heldUnits)
  else none

/-- VAULT: the UID and the record of the selected slot (Table VLT-11); one in uncorrectable error shows its COUNTER only. -/
def Dev.viewVault (d : Dev) (a : Nat) : Option Nat :=
  let s := d.get F.VAULT_SLOT_SEL_SLOT
  let r := if d.slotBad s then 0 else d.slot s
  if a == R.VAULT_SLOT_INFO then some (slFlags r + 256 * slLabelLen r + 65536 * slUsage r)
  else if a == R.VAULT_SLOT_EPOCH then some (slEpochMin r)
  else if a == R.VAULT_SLOT_COUNTER then some (slCounter (d.slot s) % 2 ^ 32)
  else if a == R.VAULT_SLOT_COUNTER + 4 then some (slCounter (d.slot s) / 2 ^ 32)
  else
    match regIdx (R.VAULT_UID 0) 4 4 a, regIdx (R.VAULT_SLOT_LABEL 0) 4 8 a with
    | some k, _ => some (bf Config.otpUid (32 * k) 32)
    | none, some k => some (if slRoot1 r then 0 else bf r (32 * k) 32)
    | none, none => none

/-- NM: fixed and counted fields of a segment (Table NM-8). -/
def Dev.viewNm (d : Dev) (a : Nat) : Option Nat :=
  match regIdx (R.NM_SEG_CFG 0) 32 48 a, regIdx (R.NM_SEG_STATUS 0) 32 48 a with
  | some p, _ => if p < 20 then some (setBit (d.reg a) 1 true) else none
  | none, some p => some (setBf (d.reg a) 16 6 (d.heldCopies p).length)
  | none, none => none

/-- The bits of a channel register that belong to the other kind of channel (Table LOAD-9): they read 0 and ignore writes. -/
def otherKind (a : Nat) : Nat :=
  let hs := decide ((a - 0x1010000) / 0x80 < 12)
  let off := (a - 0x1010000) % 0x80
  if off == 0 then (if hs then 0x180 else 0x40)
  else if off == 4 then (if hs then 0xF00000 else 0)
  else if off == 0x14 then (if hs then 0xFFFFFFFF else 0)
  else 0

/-- `GROUP_SUM_g`: the measured currents of a group's channels that are on, in 10 mA (R395, Table LOAD-10). -/
def Dev.groupSum (d : Dev) (g : Nat) : Nat :=
  min 65535 (((List.range 4).filter (fun k => (d.ch (4 * g + k)).isOn)).foldl
    (fun n k => n + d.get (F.LOAD_CH_MEAS_CURRENT (4 * g + k))) 0)

/-- Power die: the AON counter, deferred channels, group currents, the fields of one kind of channel (Tables NM-9, LOAD-9, LOAD-10). -/
def Dev.viewPower (d : Dev) (a : Nat) : Option Nat :=
  if a == R.PWR_AON_TICKS then some d.aonTicks
  else if a == R.PWR_BRIDGE_STATUS then some (setBf (d.reg a) 1 6 (min 32 d.load.flight.length))
  else if a == R.LOADC_SUPPLY_STATUS then
    some (setBf (d.reg a) 8 5 ((List.range 24).filter (fun i => d.get (F.LOAD_CH_STATUS_STATE i) == 5)).length)
  else if a == R.LOADC_GROUP_SUM 0 then some (d.groupSum 0)
  else if a == R.LOADC_GROUP_SUM 1 then some (d.groupSum 1)
  else if a == R.LOADC_GROUP_SUM 2 then some (d.groupSum 2)
  else if 0x1010000 ≤ a ∧ a < 0x1010C00 then some (d.reg a &&& (0xFFFFFFFF ^^^ otherKind a))
  else none

/-- HOSTIF: rings enabled or completing (Table HIF-13). -/
def Dev.viewHost (d : Dev) (a : Nat) : Option Nat :=
  (regIdx (R.HIF_RING_STATUS 0) 64 64 a).map (fun r => setBit (d.reg a) 0 (d.ringActive r))

/-- TEST: active fault interrupts and FAULT_N (Table FLT-9). -/
def Dev.viewTest (d : Dev) (a : Nat) : Option Nat :=
  if a == R.TEST_FAULTN_CTRL then some (setBit (d.reg a) 8 d.faultN)
  else (regIdx (R.TEST_FLT_SUM 0) 4 3 a).map (fun k =>
    (((List.range 32).filter (fun i => decide (32 * k + i < 66) && d.fltActive (32 * k + i))).map (fun i => 2 ^ i)).sum)

/-- BOOT: anchor 0, which manufacture has burned (Table FW-8, R480). -/
def Dev.viewBoot (d : Dev) (a : Nat) : Option Nat :=
  if a == R.BOOT_ANCHORS then some (setBit (d.reg a) 0 true)
  else (regIdx (R.BOOT_ANCHOR 0 0) 4 8 a).map (fun k => leNat ((List.range 4).map (fun i => Config.otpAnchor0 (4 * k + i))))

/-- Operational values that a register shows in place of what it stores. -/
def Dev.viewOf (d : Dev) (a : Nat) : Option Nat :=
  let b := pageBlock a
  if (faultBlockOf a).isSome then none
  else if b == 1 then d.viewHost a else if b == 2 then d.viewFwd a else if b == 3 then d.viewTbl a
  else if b == 4 then d.viewAnvil a else if b == 5 then d.viewSte a
  else if 35 ≤ b ∧ b < 55 then d.viewEth a
  else if b == 56 then d.viewTime a
  else if b == 57 then (if a == R.XPT_STATUS then some (setBf (d.reg a) 0 9 d.ctxUsed) else none)
  else if b == 58 then d.viewCry a else if b == 59 then d.viewVault a else if b == 60 then d.viewNm a
  else if 61 ≤ b ∧ b < 64 then d.viewPower a
  else if b == 64 then d.viewTest a else if b == 65 then d.viewBoot a
  else none

/-- Bits of a register whose fields have one of the given access codes. -/
def RegDef.mask (r : RegDef) (g : Acc → Bool) : Nat :=
  (r.flds.filter (fun f => g f.acc)).foldl (fun x f => x + (2 ^ f.w - 1) * 2 ^ f.lo) 0

/-- What a read of a register finds: write-only fields read 0 (R440). -/
def Dev.view (d : Dev) (r : RegDef) (a : Nat) : Nat :=
  ((d.viewOf a).getD (d.reg a)) &&& (r.mask (fun x => x != .wo))

end Sys2Proof.Machine
end

