-- ==== Sys2Proof/Machine/RegWrite.lean ====
section
/-!
DEFINITION. What a write does to the register it reaches (R12, R440, R450, R451), and the effects that the owning
chapters give single registers. The caller has settled rights, power and the write shadow.
-/
namespace Sys2Proof.Machine

/-! ### Fields (Table SCOPE-2, Table REG-4) -/

/-- The value that a field takes for a written one; none where the value is ignored. -/
def FldDef.accept (f : FldDef) (x : Nat) : Option Nat :=
  match f.rule with
  | .any => some x
  | .range lo hi => if lo ≤ x ∧ x ≤ hi then some x else none
  | .srange lo hi => if lo ≤ toSigned f.w x ∧ toSigned f.w x ≤ hi then some x else none
  | .nearer lo hi => some (min hi (max lo x))

/-- A field after a write of the word `v` over the word `o`: its new value, whether the write is flagged, whether its value was
ignored. `locked`: its lock bit is set; `once`: it has been written since reset. -/
def FldDef.write (f : FldDef) (locked once : Bool) (o v : Nat) : Nat × Bool × Bool :=
  let old := bf o f.lo f.w
  let x := bf v f.lo f.w
  let take : Nat × Bool × Bool :=
    match f.accept x with
    | some y => (y, false, false)
    | none => (old, false, x != old)
  match f.acc with
  | .ro => (old, false, false)
  | .rc => (old, false, false)
  | .rw => take
  | .wo => take
  | .rwl => if locked then (old, true, false) else take
  | .rwo => if once then (old, x != old, false) else take
  | .w1c => (old &&& ((2 ^ f.w - 1) ^^^ x), false, false)
  | .w1s => (old ||| x, false, false)

/-- Where `bus.once` keeps that a write-once field has been written. -/
def onceKey (a : Nat) (f : FldDef) : Nat := a * 32 + f.lo

/-- The lock bit of a register's RWL fields is set (R401, R450). The spec names no lock bit for `SUPV.PD_START`: none locks it
(DESIGN CHOICE, log 72). -/
def Dev.lockedReg (d : Dev) (a : Nat) : Bool :=
  match faultBlockOf a with
  | some b => d.flag (F.FLT_REACT_LOCK b)
  | none => pageBlock a == blkLoad && d.flag F.LOADC_LOCK_LOCK

/-- A word is written field by field: the state, whether the write is flagged, whether a value was ignored. -/
def Dev.wordWrite (d : Dev) (r : RegDef) (a v : Nat) : Dev × Bool × Bool :=
  let o := d.reg a
  let step (x : Nat × Bool × Bool) (f : FldDef) : Nat × Bool × Bool :=
    let y := f.write (d.lockedReg a) (d.bus.once.contains (onceKey a f)) o v
    (setBf x.1 f.lo f.w y.1, x.2.1 || y.2.1, x.2.2 || y.2.2)
  let x := r.flds.foldl step (o, false, false)
  let new := ((r.flds.filter (fun f => f.acc == .rwo)).map (onceKey a)).filter (fun k => !d.bus.once.contains k)
  (({ d with bus := { d.bus with once := d.bus.once ++ new } }).setReg a x.1, x.2)

/-- A register without behaviour of its own is written. -/
def Dev.plain (d : Dev) (r : RegDef) (master a v : Nat) : Dev :=
  let x := d.wordWrite r a v
  if x.2.1 then x.1.flaggedWrite (pageBlock a) master a else x.1

/-- The same where the chapter names a flag for ignored values. -/
def Dev.plainFlag (d : Dev) (r : RegDef) (master a v : Nat) (f : FieldRef) : Dev :=
  let x := d.wordWrite r a v
  let d1 := if x.2.1 then x.1.flaggedWrite (pageBlock a) master a else x.1
  if x.2.2 then d1.set f 1 else d1

/-! ### Fault pages (chapter 16) -/

/-- The perturbation registers are open: the active unlock scope has bit 0 (R472). -/
def Dev.pertOpen (d : Dev) : Bool := bit (d.get F.VAULT_STATUS_DBG_SCOPE) 0

/-- A write to a register of a block's fault page. -/
def Dev.putFault (d : Dev) (r : RegDef) (b master a v : Nat) : Dev :=
  let off := a - faultPage b
  if off == 0xF00 then
    let d1 := d.plain r master a v
    if d.flag (F.FLT_FAULT_STATUS_SEVERE b) && bit v 30 then d1.fnHold b false else d1
  else if off == 0xF04 then Dev.fltEdge d (d.plain r master a v) b
  else if off == 0xF24 then d.plain r master a (if notIsolable b then setBit v 1 false else v)
  else if off == 0xF34 then d.blockCtrl b v
  else if off < 0xFC0 then d.plain r master a v
  else if !d.pertOpen then d.flaggedWrite b master a
  else if off == 0xFCC then d.pertInj b v
  else if off == 0xFD0 then d.pertEnt b v
  else if off == 0xFD8 then d.pertCanBit b v
  else d.plain r master a v

/-! ### Packet buffer, tables and contracts -/

/-- Every counter of a port is 0 (R127). -/
def Dev.cntClear (d : Dev) (p : Nat) : Dev := d.resetRegs (0x210000 + 0x200 * p) (0x210200 + 0x200 * p)

/-- A write to FWD: PFC_EN of TS ports, watermarks, and the clear of R127, which is over within the write's step and clears nothing
for a PORT above 47 (DESIGN CHOICE, log 71). -/
def Dev.putFwd (d : Dev) (r : RegDef) (master a v : Nat) : Dev :=
  if a == R.FWD_CNT_CLR then
    let d1 := (d.set F.FWD_CNT_CLR_PORT (bf v 0 6)).set F.FWD_CNT_CLR_ALL (bf v 6 1)
    if !bit v 31 then d1
    else if bit v 6 then (List.range 48).foldl Dev.cntClear d1
    else if bf v 0 6 < 48 then d1.cntClear (bf v 0 6) else d1
  else if R.FWD_WM 0 0 ≤ a ∧ a < R.FWD_WM 12 0 then
    (d.plain r master a v).wmUpdate ((a - R.FWD_WM 0 0) / 32) ((a - R.FWD_WM 0 0) % 32 / 4)
  else
    match regIdx (R.FWD_PORT_CFG 0) 4 20 a with
    | some p => d.plain r master a (if 12 ≤ p then setBf v 24 8 (bf (d.reg a) 24 8) else v)
    | none => d.plain r master a v

/-- A sweep period changes; a stopped sweep counts from now (R148). -/
def Dev.putBurn (d : Dev) (r : RegDef) (master a v : Nat) : Dev :=
  let d1 := d.plain r master a v
  if d.reg a % 4096 == 0 && v % 4096 != 0 then
    { d1 with tables := if a == R.TBL_BURN_CFG_A then { d1.tables with burnA := { d1.tables.burnA with last := d1.now } }
      else { d1.tables with burnB := { d1.tables.burnB with last := d1.now } } }
  else d1

/-- A write to TBL: the window, Assay, the sweeps. -/
def Dev.putTbl (d : Dev) (r : RegDef) (master a v : Nat) : Dev :=
  if a == R.TBL_WIN_CTRL then
    let d1 := d.plain r master a (setBit v 31 false)
    if bit v 31 then d1.winRead else d1
  else if a == R.TBL_ASSAY_CTRL then
    let d1 := d.plain r master a v
    if bit v 0 && !d.flag F.TBL_ASSAY_CTRL_EN then { d1 with tables := { d1.tables with passDue := some d1.now } }
    else if !bit v 0 then
      ({ d1 with tables := { d1.tables with pass := none, passDue := none, todo := [] } }).set F.TBL_ASSAY_STATUS_BUSY 0
    else d1
  else if a == R.TBL_BURN_CFG_A || a == R.TBL_BURN_CFG_B then d.putBurn r master a v
  else d.plain r master a v

/-- A write to ANVIL: the staged shaper of the selected port and class. -/
def Dev.putAnvil (d : Dev) (r : RegDef) (master a v : Nat) : Dev :=
  let x := SMap.get d.anvil.staged (0xFFFFFFFF, 0) d.besKey
  let put (y : Nat × Nat) : Dev :=
    { d with anvil := { d.anvil with staged := SMap.set d.anvil.staged (0xFFFFFFFF, 0) d.besKey y } }
  if a == R.ANVIL_BES_RATE then put (v % 2 ^ 32, x.2)
  else if a == R.ANVIL_BES_BURST then put (x.1, v % 2 ^ 24)
  else d.plain r master a v

/-! ### Memories behind MEM_CMD (R188) -/

/-- A write of a MEM_CMD word: WRITE is stored, and GO starts the access, which is done at once. -/
def Dev.memCmd (d : Dev) (r : RegDef) (master a v : Nat) (access : Dev → Dev) : Dev :=
  let d1 := d.plain r master a (setBit v 31 false)
  if bit v 31 then access d1 else d1

/-- An access to the recipe memory (R266). -/
def Dev.recipeAccess (d : Dev) : Dev :=
  let i := d.get F.ETHC_MEM_SEL_INDEX
  let res (d : Dev) (c : Nat) : Dev := d.set F.ETHC_MEM_CMD_RESULT c
  if 384 ≤ i then res d errFormat
  else if d.flag F.ETHC_MEM_CMD_WRITE then
    if d.get (F.ETH_STEP_STATUS_STATE (i / 32)) != 0 then res d errLocked
    else res (d.entryPut 62 0 i (d.dataRegs R.ETHC_MEM_DATA 2)) errOk
  else res (d.setDataRegs R.ETHC_MEM_DATA 2 (if d.tables.bad.contains (tkey 62 0 i) then 0 else d.tget 62 0 i)) errOk

/-! ### Field buses -/

/-- A write to a CAN page. -/
def Dev.putCan (d : Dev) (r : RegDef) (master a v : Nat) : Dev :=
  let c := (a - 0x800000) / 0x1000
  let off := (a - 0x800000) % 0x1000
  if off == 0 then d.canCtrl c v
  else if [0x10, 0x14, 0x18, 0x1C, 0x20, 0x24].contains off then d.canCfg c a v
  else
    match regIdx (R.CAN_TRACK c 0) 8 8 a with
    | some k => if bit v 31 then d.suspendEnd c k else d
    | none => d.plain r master a v

/-- A write to Touchstone: while it runs only EN takes one (R213). -/
def Dev.putTs (d : Dev) (r : RegDef) (master a v : Nat) : Dev :=
  if !d.flag F.TS_TS_CTRL_EN then d.plain r master a v
  else if a == R.TS_TS_CTRL then d.set F.TS_TS_CTRL_EN (bf v 0 1)
  else d

/-- A write to a LIN page. -/
def Dev.putLin (d : Dev) (r : RegDef) (master a v : Nat) : Dev :=
  let n := (a - 0x900000) / 0x1000
  let off := (a - 0x900000) % 0x1000
  if off == 0 then d.linCtrl n v
  else if off == 4 then d.linTiming n false v
  else if off == 8 then d.linTiming n true v
  else if off == 0x10 then d.linSched n v
  else if off == 0x24 then
    d.memCmd r master a v (fun d => d.linMem n (d.flag (F.LIN_MEM_CMD_WRITE n)))
  else d.plain r master a v

/-- A write of a transceiver register: the mode, unless the segment's controller holds it (R225, R363), and the other fields. -/
def Dev.putXcvr (d : Dev) (r : RegDef) (master a v : Nat) : Dev :=
  let can := a < R.PWR_XCVR_LIN 0
  let p := if can then 20 + (a - R.PWR_XCVR_CAN 0) / 4 else 40 + (a - R.PWR_XCVR_LIN 0) / 4
  let w := if can then 3 else 2
  let d1 := d.plain r master a (setBf v 0 w (bf (d.reg a) 0 w))
  if d1.segOn p then
    if can then d1.set (F.PWR_XCVR_CAN_MODE_REJ (p - 20)) 1 else d1.set (F.PWR_XCVR_LIN_MODE_REJ (p - 40)) 1
  else if bf v 0 w == bf (d.reg a) 0 w then d1
  else d1.xcvrMode p (bf v 0 w)

/-! ### Ethernet -/

/-- The largest size that an admitted contract brings to or sends from a port (R240). -/
def Dev.largestOn (d : Dev) (p : Nat) : Nat :=
  (d.admitted.flatMap (fun k =>
    (if (rqIngresses k.2.req).contains p then [rqMax k.2.req] else [])
      ++ ((d.outs k.2.req).filter (fun (o : OutForm) => o.port == p)).map (fun o => o.len))).foldl max 0

/-- `STATUS.CFG_IGNORED` of a port is set. -/
def Dev.ethIgnored (d : Dev) (p : Nat) : Dev := d.set (F.ETH_STATUS_CFG_IGNORED p) 1

/-- An admitted contract enters or leaves a port. -/
def Dev.contractOn (d : Dev) (p : Nat) : Bool :=
  d.contractOut p || d.admitted.any (fun k => (rqIngresses k.2.req).contains p)

/-- A write of `PLCA_CFG` (R261, R262, R267). -/
def Dev.plcaCfg (d : Dev) (p v : Nat) : Dev :=
  if d.contractOn p || d.flag (F.ETH_MAC_CFG_EN p) then d.ethIgnored p
  else
    let d1 := (d.set (F.ETH_PLCA_CFG_FALLBACK p) (bf v 1 1)).set (F.ETH_PLCA_CFG_NODE_COUNT p)
      (if bf v 16 8 < 2 then d.get (F.ETH_PLCA_CFG_NODE_COUNT p) else bf v 16 8)
    let id := bf v 8 8
    let d2 := if id != 255 then d1.set (F.ETH_PLCA_CFG_NODE_ID p) id else d1.ethIgnored p
    let d3 := if bit v 0 && d2.get (F.ETH_PLCA_CFG_NODE_ID p) == 255 then d2.ethIgnored p
      else d2.set (F.ETH_PLCA_CFG_EN p) (bf v 0 1)
    d3.tsLink p

/-- A register of the page of another kind of port (R267): UP and GE registers in TS pages, TS registers in UP and GE pages. -/
def ethForeign (p off : Nat) : Bool :=
  if p < 12 then decide (0x200 ≤ off) && decide (off < 0x220)
  else (decide (0x100 ≤ off) && decide (off < 0x200))

/-- A write to an ETH port page. -/
def Dev.putEth (d : Dev) (r : RegDef) (master a v : Nat) : Dev :=
  let p := (a - 0xA00000) / 0x1000
  let off := (a - 0xA00000) % 0x1000
  if ethForeign p off then d
  else if off == 0 then
    let d1 := d.plain r master a v
    if 12 ≤ p then d1.tsLink p else if bit v 0 then d1 else d1.ethDown p
  else if off == 4 then
    let x := bf v 0 14
    if d.flag (F.ETH_MAC_CFG_EN p) then d.ethIgnored p
    else if x < 1518 || (if p < 12 then 9216 else 1522) < x then d
    else if x < d.largestOn p then d.ethIgnored p
    else d.set (F.ETH_MAX_LEN_LEN p) x
  else if off == 0x104 then (if d.flag (F.ETH_MAC_CFG_EN p) then d.ethIgnored p else d.plain r master a v)
  else if off == 0x110 then
    if bit v 1 && d.contractOut p then (d.plain r master a (setBit v 1 (d.flag (F.ETH_STEP_CFG_LPI_EN p)))).ethIgnored p
    else
      let d1 := d.plain r master a v
      if bit v 1 then d1 else d1.lpiEnd p
  else if off == 0x180 || off == 0x184 || off == 0x188 then
    if d.flag (F.ETH_GATE_STATUS_PENDING p) then d.ethIgnored p else d.plain r master a v
  else if off == 0x200 then d.plcaCfg p v
  else if off == 0x204 then
    if d.contractOn p then d.ethIgnored p else d.plain r master a v
  else d.plain r master a v

/-- A write to the ETH common page: MDIO commands (R265), the recipe memory. -/
def Dev.putEthc (d : Dev) (r : RegDef) (master a v : Nat) : Dev :=
  if a == R.ETHC_MDIO_CMD then
    let d1 := d.plain r master a (setBit v 31 (d.flag F.ETHC_MDIO_CMD_GO))
    if bit v 31 && !d.flag F.ETHC_MDIO_CMD_GO then d1.mdioStart else d1
  else if a == R.ETHC_MEM_CMD then d.memCmd r master a v Dev.recipeAccess
  else d.plain r master a v

/-! ### Time -/

/-- Time may be set by a master now (R285). -/
def Dev.timeMay (d : Dev) (master : Nat) : Bool :=
  master == 3 || !d.flag F.TIME_CTRL_EN || (d.get F.TIME_CTRL_ROLE == 1 && d.get F.TIME_CTRL_GM_SRC == 2)

/-- A write of `TIME.CTRL` (R280). -/
def Dev.timeCtrl (d : Dev) (v : Nat) : Dev :=
  let old := d.reg R.TIME_CTRL
  if d.flag F.TIME_CTRL_EN then
    let d1 := if bf v 1 4 == bf old 1 4 && bf v 8 7 == bf old 8 7 then d else d.timeIgnored
    if bit v 0 then d1 else d1.gptpStart false
  else
    let d1 := (d.set F.TIME_CTRL_ROLE (bf v 1 2)).set F.TIME_CTRL_DOMAIN (bf v 8 7)
    let d2 := if bf v 3 2 == 3 then d1 else d1.set F.TIME_CTRL_GM_SRC (bf v 3 2)
    -- role 0 is free run (Table TIME-5)
    let st := d2.get F.TIME_STATUS_STATE
    let d3 := if bf v 1 2 != 0 then d2 else if st == 2 then d2.syncLost 0 else d2.set F.TIME_STATUS_STATE 0
    if !bit v 0 then d3
    else if d3.rolesOk (d3.get F.TIME_CTRL_ROLE) then d3.gptpStart true
    else d3.timeIgnored

/-- A write to TIME. -/
def Dev.putTime (d : Dev) (r : RegDef) (master a v : Nat) : Dev :=
  if a == R.TIME_CTRL then d.timeCtrl v
  else if a == R.TIME_SLEW then
    if d.timeMay master then d.plain r master a v else d.timeIgnored
  else if a == R.TIME_SLEW_CTRL then
    if d.timeMay master then
      let d1 := d.plain r master a (setBit v 31 false)
      if bit v 31 then d1.slewStart (toSigned 32 (d1.get F.TIME_SLEW_NS)) else d1
    else d.timeIgnored
  else if a == R.TIME_STEP_CTRL then
    if d.timeMay master then
      let d1 := d.plain r master a (setBit v 31 false)
      let x := d1.get F.TIME_STEP_NS
      if !bit v 31 then d1
      else if bit v 0 then d1.stepBy (toSigned 64 x)
      else d1.stepGo (x * 2 ^ 32)
    else d.timeIgnored
  else if a == R.TIME_AON_SNAP then (if bit v 0 then d.aonGo else d)
  else if a == R.TIME_PPS_IN_CFG then
    let d1 := d.plain r master a v
    if bit v 0 && !d.flag F.TIME_PPS_IN_CFG_EN then { d1 with time := { d1.time with ppsIn := some d1.now, ppsLost := false } } else d1
  else if R.TIME_GPTP_PORT 0 ≤ a ∧ a < R.TIME_GPTP_PORT 12 then
    if d.flag F.TIME_CTRL_EN then d.timeIgnored else d.plain r master a v
  else d.plain r master a v

/-! ### Transport, security -/

/-- A write to CRY. -/
def Dev.putCry (d : Dev) (r : RegDef) (master a v : Nat) : Dev :=
  if a == R.CRY_CACHE_CTRL then (if bit v 0 then d.cacheFlush else d)
  else if a == R.CRY_MEM_CMD then d.memCmd r master a v Dev.cryAccess
  else
    match regIdx (R.CRY_MACSEC_TX 0) 4 12 a with
    | some p => d.macsecTx p v
    | none => d.plain r master a v

/-- Fields of the vault that only MGMT writes (R346). -/
def vaultMgmt (a : Nat) : Bool :=
  a == R.VAULT_EXT_CTRL || a == R.VAULT_EPOCH_STAGE
    || (regIdx (R.VAULT_EXT_DATA 0) 4 12 a).isSome || (regIdx (R.VAULT_SIGNER_STAGE 0) 4 8 a).isSome

/-- A write to VAULT. -/
def Dev.putVault (d : Dev) (r : RegDef) (master a v : Nat) : Dev :=
  if vaultMgmt a && master != 3 then d.set F.VAULT_STATUS_CFG_IGNORED 1
  else if a == R.VAULT_EXT_CTRL then d.extCtrl a v
  else if a == R.VAULT_PROV_CTRL then (if bit v 0 then d.provNonce else d)
  else if a == R.VAULT_DBG_CTRL then d.dbgCtrl v
  else d.plain r master a v

/-! ### Sleep, loads and power -/

/-- A write to NM. -/
def Dev.putNm (d : Dev) (r : RegDef) (master a v : Nat) : Dev :=
  if a == R.NM_CTRL then d.nmCtrl v
  else if a == R.NM_PWR_CTRL then
    let d1 := d.plain r master a (setBit v 0 false)
    if bit v 0 then d1.enterStandby else d1
  else
    match regIdx (R.NM_SEG_CFG 0) 32 48 a, regIdx (R.NM_SEG_CTRL 0) 32 48 a with
    | some p, _ => d.segCfg p v
    | none, some p => d.segCtrl p v
    | none, none => d.plain r master a v

/-- The range of I_LIM of a channel in 10 mA units (Table LOAD-1). -/
def limRange (i : Nat) : Nat × Nat := if i < 4 then (100, 1500) else if i < 12 then (50, 800) else (50, 20000)

/-- A load configuration write is ignored. -/
def Dev.loadIgnored (d : Dev) : Dev := d.set F.LOADC_STATUS_CFG_IGNORED 1

/-- A write of `CH_CFG_i`: a reserved WIRE or INS drops that field alone, and both stay where T_INS − T_AMB would be below 5 K
(R391, R406, Tables LOAD-3 and LOAD-4). -/
def Dev.putChCfg (d : Dev) (r : RegDef) (master a v : Nat) : Dev :=
  let wire := if 9 < bf v 16 4 then bf (d.reg a) 16 4 else bf v 16 4
  let ins := if 4 < bf v 20 3 then bf (d.reg a) 20 3 else bf v 20 3
  let low := wire != 0 && decide (tIns ins - toSigned 8 (d.get F.LOADC_T_AMB_T_AMB) < 5)
  let both := if low then bf (d.reg a) 16 7 else ins * 16 + wire
  let d1 := d.plainFlag r master a (setBf v 16 7 both) F.LOADC_STATUS_CFG_IGNORED
  if both == bf v 16 7 then d1 else d1.loadIgnored

/-- The channels whose LIMP control a write changed follow it (R402). -/
def Dev.limpRemap (d0 d : Dev) : Dev :=
  if !d.flag F.LOADC_LIMP_STATUS_LH_EN then d
  else
    (List.range 24).foldl (fun d i =>
      if d.limpCtl i then d.follow i 4
      else if d0.limpCtl i then
        let d1 := d.setCh i { d.ch i with want := d.present i }
        if (d1.ch i).safe then d1.follow i 3 else d1
      else d) d

/-- A write to a channel page. -/
def Dev.putLoad (d : Dev) (r : RegDef) (master a w : Nat) : Dev :=
  let v := (w &&& (0xFFFFFFFF ^^^ otherKind a)) ||| (d.reg a &&& otherKind a)
  let i := (a - 0x1010000) / 0x80
  let off := (a - 0x1010000) % 0x80
  if off == 0 then d.putChCfg r master a v
  else if off == 4 then
    let x := bf v 0 16
    if (limRange i).1 ≤ x && x ≤ (limRange i).2 then d.plainFlag r master a v F.LOADC_STATUS_CFG_IGNORED
    else
      let d1 := d.plainFlag r master a (setBf v 0 16 (bf (d.reg a) 0 16)) F.LOADC_STATUS_CFG_IGNORED
      if x == bf (d.reg a) 0 16 then d1 else d1.loadIgnored
  else if off == 8 then (d.setCh i (d.pwmRoll i)).plainFlag r master a v F.LOADC_STATUS_CFG_IGNORED
  else if off == 0x20 then d.loadCmd i 0 (bf v 0 2) (bf v 16 14)
  else d.plainFlag r master a v F.LOADC_STATUS_CFG_IGNORED

/-- A write to the LOAD common page. -/
def Dev.putLoadc (d : Dev) (r : RegDef) (master a v : Nat) : Dev :=
  if a == R.LOADC_T_AMB then
    let x := toSigned 8 v
    let low := (List.range 24).any (fun i => d.get (F.LOAD_CH_CFG_WIRE i) != 0 && decide (tIns (d.get (F.LOAD_CH_CFG_INS i)) - x < 5))
    if low then d.loadIgnored else d.plainFlag r master a v F.LOADC_STATUS_CFG_IGNORED
  else if a == R.LOADC_WD_FEED then
    if master == 1 && !bit (d.get F.LOADC_WD_CFG_MASTERS) 1 then (d.wdFeed master (v % 256)).flaggedWrite blkLoad master a
    else d.wdFeed master (v % 256)
  else if a == R.LOADC_WD_CTRL then (if bit v 0 then d.wdRelease master else d)
  else if a == R.LOADC_WD_CFG then
    let d1 := d.plainFlag r master a v F.LOADC_STATUS_CFG_IGNORED
    if d1.flag F.LOADC_WD_CFG_EN && !d.flag F.LOADC_WD_CFG_EN then { d1 with load := { d1.load with wdFed := some d1.now } } else d1
  else if a == R.LOADC_LIMP_MAP || a == R.LOADC_LIMP_SEL_LO || a == R.LOADC_LIMP_SEL_HI then
    Dev.limpRemap d (d.plain r master a v)
  else d.plainFlag r master a v F.LOADC_STATUS_CFG_IGNORED

/-- A write to SUPV. -/
def Dev.putSupv (d : Dev) (r : RegDef) (master a v : Nat) : Dev :=
  if a == R.SUPV_PD_ON then d.pdOn master v
  else if a == R.SUPV_PD_START then d.plain r master a (v ||| 0x102)
  else if a == R.SUPV_MGMT_WD_FEED then d.mgmtFeed master
  else if a == R.SUPV_MGMT_WD then
    let d1 := d.plainFlag r master a v F.SUPV_STATUS_CFG_IGNORED
    if bit v 31 && !d.flag F.SUPV_MGMT_WD_EN then { d1 with pwr := { d1.pwr with wdFed := some d1.now } } else d1
  else d.plainFlag r master a v F.SUPV_STATUS_CFG_IGNORED

/-- A write to TEST: READY releases the reset hold, FORCE needs the unlock scope (Table FLT-9). -/
def Dev.putTest (d : Dev) (r : RegDef) (master a v : Nat) : Dev :=
  if a == R.TEST_FAULTN_CTRL then
    let d1 := if bit v 0 then d.set F.TEST_FAULTN_CTRL_READY 1 else d
    if d.pertOpen then d1.set F.TEST_FAULTN_CTRL_FORCE (bf v 1 1)
    else if bit v 1 then d1.flaggedWrite blkTest master a else d1
  else d.plain r master a v

/-- A write to BOOT; fields marked MGMT only are outside the rights of the other masters (R495). -/
def Dev.putBoot (d : Dev) (r : RegDef) (master a v : Nat) : Dev :=
  if (regIdx (R.BOOT_OTP_ANCHOR_DATA 0) 4 8 a).isSome && master != 3 then d.flaggedWrite blkBoot master a
  else if a == R.BOOT_OTP_ANCHOR_CTRL then
    let d1 := d.set F.BOOT_OTP_ANCHOR_CTRL_SLOT (bf v 0 2)
    if !bit v 31 then d1 else if master == 3 then d1.otpBurn else d1.flaggedWrite blkBoot master a
  else d.plain r master a v

/-! ### Host interface -/

/-- A write to HOSTIF. -/
def Dev.putHost (d : Dev) (r : RegDef) (master a v : Nat) : Dev :=
  match regIdx (R.HIF_RING_CFG 0) 64 64 a with
  | some k => d.ringCfg k v
  | none => d.plain r master a v

/-- A word reaches its register. -/
def Dev.regPut (d : Dev) (r : RegDef) (master a v : Nat) : Dev :=
  let b := pageBlock a
  match faultBlockOf a with
  | some k => d.putFault r k master a v
  | none =>
    if b == 1 then d.putHost r master a v
    else if b == 2 then d.putFwd r master a v
    else if b == 3 then d.putTbl r master a v
    else if b == 4 then d.putAnvil r master a v
    else if b == 5 then (if a == R.STE_MEM_CMD then d.memCmd r master a v Dev.steAccess else d.plain r master a v)
    else if b < 6 then d.plain r master a v
    else if b < 26 then d.putCan r master a v
    else if b == 26 then d.putTs r master a v
    else if b < 35 then d.putLin r master a v
    else if b < 55 then d.putEth r master a v
    else if b == 55 then d.putEthc r master a v
    else if b == 56 then d.putTime r master a v
    else if b == 57 then
      if a == R.XPT_MEM_CMD then d.memCmd r master a v Dev.xptAccess
      else if a == R.XPT_CTRL && d.get F.BOOT_STATUS_BOOT_STATE == 3 then d
      else d.plain r master a v
    else if b == 58 then d.putCry r master a v
    else if b == 59 then d.putVault r master a v
    else if b == 60 then d.putNm r master a v
    else if b == 61 then
      if R.PWR_XCVR_CAN 0 ≤ a ∧ a < R.PWR_SW_CFG 0 then d.putXcvr r master a v else d.plain r master a v
    else if b == 62 then (if a < 0x1011000 then d.putLoad r master a v else d.putLoadc r master a v)
    else if b == 63 then d.putSupv r master a v
    else if b == 64 then d.putTest r master a v
    else d.putBoot r master a v

/-! ### 64-bit values (R442) -/

/-- Both words of a group are written in one cycle; range checks and locks look at the 64-bit value. -/
def Dev.regPair (d : Dev) (r hi : RegDef) (master a x y : Nat) : Dev :=
  let v := x % 2 ^ 32 + 2 ^ 32 * (y % 2 ^ 32)
  let both (d : Dev) (x y : Nat) : Dev :=
    let p := d.wordWrite r a x
    let q := p.1.wordWrite hi (a + 4) y
    if p.2.1 || q.2.1 then q.1.flaggedWrite (pageBlock a) master a else q.1
  if a == R.TIME_INCR then (if d.timeMay master then d.incrWrite (v % 2 ^ 40) else d.timeIgnored)
  else
    match regIdx (R.HIF_RING_BASE 0) 64 64 a, regIdx (R.HIF_RING_IDX_ADDR 0) 64 64 a, regIdx (R.ETH_ADMIN_BASE 0) 0x1000 12 a with
    | some k, _, _ =>
      if d.flag (F.HIF_RING_CFG_EN k) then d.set (F.HIF_RING_STATUS_CFG_IGNORED k) 1 else both d (x / 4096 * 4096) y
    | none, some k, _ =>
      if d.flag (F.HIF_RING_CFG_EN k) then d.set (F.HIF_RING_STATUS_CFG_IGNORED k) 1 else both d (x / 64 * 64) y
    | none, none, some p => if d.flag (F.ETH_GATE_STATUS_PENDING p) then d.ethIgnored p else both d x y
    | none, none, none => both d x y

end Sys2Proof.Machine
end

