-- ==== Sys2Proof/Machine/BusOps.lean ====
section
/-!
DEFINITION. Accesses of the masters to the register space (chapters 14 and 15): paths, rights, bus errors, stalls, posted writes,
64-bit shadows, indirect access with prefetch, delayed reads, and the safety port's frames.
-/
namespace Sys2Proof.Machine

/-! ### Paths and rights (R6, R432) -/

/-- A master's path into the register space has power; without it no access of the master takes place. -/
def Dev.pathUp (d : Dev) (master : Nat) : Bool :=
  if master == 0 then d.ready 1 else if master == 1 then d.ready 13 else if master == 2 then d.ready 14 && d.ready 9 else d.ready 9

/-- The master may write the register at an address (Table HIF-11). The feeds of `WD_FEED` are judged there (R398). -/
def Dev.mayWrite (d : Dev) (master a : Nat) : Bool :=
  if master == 1 then
    inPwr a || ((faultBlockOf a).isSome && a % 0x1000 == 0xF00) || a == R.HIF_SPI_ERR || a == R.HIF_SPI_FRAMES
  else if a == R.HIF_SVC_CFG then master == 0 || master == 3
  else if master == 2 then d.flag F.HIF_SVC_CFG_WRITE_EN
  else true

/-- A register with a field that a write can reach. -/
def RegDef.writable (r : RegDef) : Bool := r.flds.any (fun f => f.acc != .ro && f.acc != .rc)

/-- An access at an address meets a block that is powered and out of BLOCK reset, or no block at all (R445). -/
def Dev.blockOn (d : Dev) (a : Nat) : Bool := decide (0x1300000 ≤ a) || d.pageOn a

/-- The register that an access at an address reaches: aligned, listed by a register table, and in a block that is on
(R437, R438, R445). -/
def Dev.regAt (d : Dev) (a : Nat) : Option RegDef :=
  if a % 4 == 0 && decide (a < 0x1300000) && d.pageOn a then regDef a else none

/-! ### Bus errors and stalls (R444, R452, R453) -/

/-- A bus error is counted and its status bit set. -/
def Dev.busCount (d : Dev) : Dev := (d.inc F.GLOBAL_BUS_ERR_COUNT).fltSet blkGlobal 0

/-- A read ends as a bus error, reported to its requester. -/
def Dev.readError (d : Dev) (master a : Nat) : Dev :=
  let acc : Access := ⟨master, accRead, a, !d.blockOn a, 0⟩
  let d1 := d.inc F.GLOBAL_BUS_ERR_COUNT
  if inPwr a then (d1.fltSet blkGlobal 0).faultCapture blkPwr 2 acc false else d1.faultCapture blkGlobal 0 acc false

/-- Every write to the PWR window takes the next sequence number (R453). -/
def Dev.postNumber (d : Dev) (a : Nat) : Dev :=
  if inPwr a then d.set F.PWR_BRIDGE_STATUS_LAST_SEQ ((d.get F.PWR_BRIDGE_STATUS_LAST_SEQ + 1) % 65536) else d

/-- A numbered write to the PWR window fails on the power die, which sends an error message (R26, R453). -/
def Dev.postFailed (d : Dev) (master a : Nat) : Dev :=
  (d.dieMsg.set F.PWR_BRIDGE_STATUS_POSTED_ERR 1).faultCapture blkPwr 0 (d.writeAccess master a (!d.blockOn a)) true

/-- A write ends as a bus error: dropped, and in the PWR window a failed posted write (R452, R453). -/
def Dev.writeFail (d : Dev) (master a : Nat) : Dev :=
  if inPwr a then (d.postFailed master a).busCount
  else (d.inc F.GLOBAL_BUS_ERR_COUNT).faultCapture blkGlobal 0 (d.writeAccess master a (!d.blockOn a)) false

/-- A bridge ends an access at its limit (R444). Of the stall and the bus error that a read ends as, the capture in GLOBAL takes
the lower BIT (R459). -/
def Dev.stalled (d : Dev) (master a : Nat) (write : Bool) : Dev :=
  let d1 := d.inc F.GLOBAL_STALL_TO_COUNT
  let acc (k : Nat) : Access := ⟨master, k, a, false, 0⟩
  if write then
    if inPwr a then
      let d2 := d1.postNumber a
      (d2.faultCapture blkGlobal 1 (d2.writeAccess master a false) false).postFailed master a
    else d1.faultCapture blkGlobal 1 (acc accWrite) false
  else if inPwr a then (d1.faultCapture blkGlobal 1 (acc accRead) false).readError master a
  else (d1.fltSet blkGlobal 1).readError master a

/-- Accesses to the PWR window stall while the die link is down (R514). -/
def Dev.linkStall (d : Dev) (a : Nat) : Bool := inPwr a && !d.flag F.PWR_D2D_STATUS_LINK_UP

/-- An access whose answer and request take `n` flits crosses the die link when it is for the PWR window (R26). -/
def Dev.linkUse (d : Dev) (a n : Nat) : Dev := if inPwr a then d.linkWait.flits n else d

/-! ### Reads (R12, R441) -/

/-- The LO address of the group of a HI or further word. -/
def groupLo (a : Nat) : Option Nat :=
  if a == R.TIME_DTIME_FRAC then some R.TIME_DTIME_LO
  else if 4 ≤ a && ((regDef (a - 4)).map (fun r => r.loWord)).getD false then some (a - 4) else none

/-- A register's present value. -/
def Dev.viewAt (d : Dev) (a : Nat) : Nat :=
  match regDef a with
  | some r => d.view r a
  | none => 0

/-- A read of a LO word latches the other words of its group into the master's shadow. -/
def Dev.latch (d : Dev) (master a : Nat) : Dev :=
  let words := if a == R.TIME_DTIME_LO then [a + 4, a + 8] else [a + 4]
  let sh : Shadow := ⟨a, words.map (fun x => (x, d.viewAt x))⟩
  { d with bus := { d.bus with rd := SMap.set d.bus.rd none master (some sh) } }

/-- What the master's read shadow holds for a word. -/
def Dev.shadowed (d : Dev) (master a : Nat) : Option Nat :=
  match SMap.get d.bus.rd none master, groupLo a with
  | some sh, some lo => if sh.tag == lo then (sh.vals.find? (fun p => p.1 == a)).map (fun p => p.2) else none
  | _, _ => none

/-- The registers that show the record of the selected slot, whose reading meets the slot's ECC (R344). -/
def slotReg (a : Nat) : Bool :=
  a == R.VAULT_SLOT_INFO || a == R.VAULT_SLOT_EPOCH || a == R.VAULT_SLOT_COUNTER || a == R.VAULT_SLOT_COUNTER + 4
    || (regIdx (R.VAULT_SLOT_LABEL 0) 4 8 a).isSome

/-- The bits of a register that a read clears. -/
def RegDef.rcMask (r : RegDef) : Nat := r.mask (fun x => x == .rc)

/-- A read that reaches its register: its value, then what the read does (R12, R441). -/
def Dev.regTake (d : Dev) (r : RegDef) (master a : Nat) : Dev × Nat :=
  match groupLo a, d.shadowed master a with
  | some _, some v => (d, v)
  | some _, none => (d.inc F.GLOBAL_SHADOW_MISS_COUNT, d.view r a)
  | none, _ =>
    let d0 := if slotReg a then d.slotTouch (d.get F.VAULT_SLOT_SEL_SLOT) else d
    let v := d0.view r a
    let d1 := if r.loWord then d0.latch master a else d0
    (if r.rcMask == 0 then d1 else d1.setReg a (d1.reg a &&& (0xFFFFFFFF ^^^ r.rcMask)), v)

/-- A read at an address: its value, none where it ends as a bus error. -/
def Dev.regRead (d : Dev) (master a : Nat) : Dev × Option Nat :=
  if d.linkStall a then (d.stalled master a false, none)
  else
    let d0 := d.linkUse a 2
    match d0.regAt a with
    | none => (d0.readError master a, none)
    | some r => let x := d0.regTake r master a; (x.1, some x.2)

/-- A read at an address has a side effect (R447). -/
def Dev.readSide (d : Dev) (master a : Nat) : Bool :=
  match regDef a with
  | none => false
  | some r => r.loWord || r.rcMask != 0 || ((groupLo a).isSome && (d.shadowed master a).isNone)
      || (slotReg a && (d.slotBad (d.get F.VAULT_SLOT_SEL_SLOT) || d.tables.soft.contains (tkey memSlot 0 (d.get F.VAULT_SLOT_SEL_SLOT))))

/-! ### Writes (R440, R442, R451) -/

/-- How a write ended. -/
inductive WriteEnd where
  | done | denied | error
  deriving DecidableEq, Repr

/-- A write discards what any master has prefetched from its address (R447). -/
def Dev.unfetch (d : Dev) (a : Nat) : Dev :=
  { d with bus := { d.bus with pf := d.bus.pf.filter (fun p => ((p.2.map (fun x => x.1)).getD 0) != a || p.2.isNone) } }

/-- The write shadow of a master. -/
def Dev.setWr (d : Dev) (master : Nat) (x : Option Shadow) : Dev :=
  { d with bus := { d.bus with wr := SMap.set d.bus.wr none master x } }

/-- The LO address of the pair of a HI word; the further word DTIME_FRAC is no HI word. -/
def pairLo (a : Nat) : Option Nat := if a == R.TIME_DTIME_FRAC then none else groupLo a

/-- A permitted write reaches the write shadow, a pair, or its register (R442). -/
def Dev.regGive (d : Dev) (r : RegDef) (master a v : Nat) : Dev :=
  if r.loWord then d.setWr master (some ⟨a, [(a, v)]⟩)
  else
    match pairLo a with
    | none => d.regPut r master a v
    | some lo =>
      match regDef lo with
      | none => d.regPut r master a v
      | some rl =>
        let x := match SMap.get d.bus.wr none master with
          | some sh => if sh.tag == lo then ((sh.vals.head?).map (fun p => p.2)).getD 0 else d.reg lo
          | none => d.reg lo
        (d.setWr master none).regPair rl r master lo x v

/-- A feed that the safety port may not give: WD_FEED itself judges and flags it (R398, Table HIF-11). -/
def Dev.feedDenied (d : Dev) (master a : Nat) : Bool :=
  master == 1 && a == R.LOADC_WD_FEED && !bit (d.get F.LOADC_WD_CFG_MASTERS) 1

/-- A write at an address. -/
def Dev.regWrite (d : Dev) (master a v : Nat) : Dev × WriteEnd :=
  if d.linkStall a then (d.stalled master a true, .done)
  else
    let d0 := ((d.linkUse a 1).postNumber a).unfetch a
    match d0.regAt a with
    | none => (d0.writeFail master a, .error)
    | some r =>
      if !d0.mayWrite master a && r.writable then (d0.flaggedWrite (pageBlock a) master a, .denied)
      else (d0.regGive r master a (v % 2 ^ 32), if d0.feedDenied master a then .denied else .done)

/-! ### Indirect access (R446, R447) -/

/-- `GLOBAL.IND_ADDR` of a master. -/
def Dev.indAddr (d : Dev) (master : Nat) : Nat := SMap.get d.bus.ind 0 master

def indTarget (x : Nat) : Nat := bf x 2 24 * 4
def indAuto (x : Nat) : Bool := bit x 28
def indAhead (x : Nat) : Bool := bit x 28 && bit x 29

/-- What a master has prefetched. -/
def Dev.setPf (d : Dev) (master : Nat) (x : Option (Nat × Nat × Nat)) : Dev :=
  { d with bus := { d.bus with pf := SMap.set d.bus.pf none master x } }

/-- A write of `IND_ADDR` discards the prefetched value. -/
def Dev.indAddrWrite (d : Dev) (master v : Nat) : Dev :=
  ({ d with bus := { d.bus with ind := SMap.set d.bus.ind 0 master (v &&& 0x33FFFFFC) } }).setPf master none

/-- AUTO_INC after an access: 4 more, 0 after 0x3FFFFFC. -/
def Dev.indStep (d : Dev) (master : Nat) : Dev :=
  let x := d.indAddr master
  if indAuto x then
    { d with bus := { d.bus with ind := SMap.set d.bus.ind 0 master (setBf x 2 24 (bf x 2 24 + 1)) } }
  else d

/-- The indirect access registers cannot be reached indirectly. -/
def indWindow (a : Nat) : Bool := decide (0x10 ≤ a) && decide (a < 0x20)

/-- The next address is read ahead, where that has no side effect. -/
def Dev.readAhead (d : Dev) (master : Nat) : Dev :=
  let a := indTarget (d.indAddr master)
  if indWindow a || d.linkStall a || d.readSide master a then d
  else
    match d.regAt a with
    | none => d
    | some r => (d.linkUse a 2).setPf master (some (a, ((d.linkUse a 2).regTake r master a).2, d.now))

/-- A read of `IND_DATA`. -/
def Dev.indRead (d : Dev) (master : Nat) : Dev × Option Nat :=
  let x := d.indAddr master
  let a := indTarget x
  let r : Dev × Option Nat := match SMap.get d.bus.pf none master with
    | some p => (d.setPf master none, some p.2.1)
    | none => if indWindow a then (d.readError master a, none) else d.regRead master a
  let d1 := r.1.indStep master
  (if indAhead x then d1.readAhead master else d1, r.2)

/-- A write of `IND_DATA`. -/
def Dev.indWrite (d : Dev) (master v : Nat) : Dev × WriteEnd :=
  let a := indTarget (d.indAddr master)
  let r : Dev × WriteEnd := if indWindow a then ((d.unfetch a).writeFail master a, .error) else d.regWrite master a v
  ((r.1.setPf master none).indStep master, r.2)

/-! ### Accesses of a master -/

/-- The safety port reaches an address through its IND_ADDR (R446); the other masters reach it directly. -/
def Dev.viaInd (d : Dev) (master a : Nat) : Dev := if master == 1 then d.indAddrWrite 1 (a % 2 ^ 26) else d

/-- An access of the safety port meets the indirect access registers (R446). -/
def indBarred (master a : Nat) : Bool := master == 1 && indWindow a

/-- A read by a master, the registers of indirect access included. -/
def Dev.busRead (d : Dev) (master a : Nat) : Dev × Option Nat :=
  if a == R.GLOBAL_IND_ADDR && d.pageOn a then (d, some (d.indAddr master))
  else if a == R.GLOBAL_IND_DATA && d.pageOn a then d.indRead master
  else if indBarred master a then ((d.viaInd master a).readError master a, none)
  else if a == R.GLOBAL_IND_STATUS && d.pageOn a then (d, some (b2n (SMap.get d.bus.pf none master).isSome))
  else (d.viaInd master a).regRead master a

/-- A master may write its indirect access registers (Table HIF-11). -/
def Dev.indMay (d : Dev) (master : Nat) : Bool := master != 2 || d.flag F.HIF_SVC_CFG_WRITE_EN

/-- A write by a master, the registers of indirect access included. -/
def Dev.busWrite (d : Dev) (master a v : Nat) : Dev × WriteEnd :=
  if (a == R.GLOBAL_IND_ADDR || a == R.GLOBAL_IND_DATA) && d.pageOn a && !d.indMay master then
    (d.flaggedWrite blkGlobal master a, .denied)
  else if a == R.GLOBAL_IND_ADDR && d.pageOn a then (d.indAddrWrite master v, .done)
  else if a == R.GLOBAL_IND_DATA && d.pageOn a then d.indWrite master v
  else if indBarred master a then (((d.viaInd master a).unfetch a).writeFail master a, .error)
  else (d.viaInd master a).regWrite master a v

/-- A read command: the requester gets the data or the bus error (Table REG-5). -/
def Dev.read (d : Dev) (master a : Nat) : Dev :=
  if !d.pathUp master then d
  else
    let x := d.busRead master a
    match x.2 with
    | some v => x.1.emit (.readData master a v)
    | none => x.1.emit (.busError master a)

/-- A write command; a bus error outside the PWR window is reported to its requester (Table REG-5). -/
def Dev.write (d : Dev) (master a v : Nat) : Dev :=
  if !d.pathUp master then d
  else
    let x := d.busWrite master a v
    if x.2 == .error && !inPwr a && master != 3 then x.1.emit (.busError master a) else x.1

/-- A request that a register or a doorbell may answer; of the others, the ring whose doorbell it names (R412, R438). -/
def reqPlain (q : BusReq) (master : Nat) : Bool := master != 0 || (!q.bar2 && q.whole)
def reqBell (q : BusReq) : Option Nat :=
  if q.bar2 && q.whole && q.addr % 0x1000 == 0 && decide (q.addr < 0x40000) then some (q.addr / 0x1000) else none

/-- A write request: a register's, a doorbell's, or handled as an access to an unimplemented address (R412, R438). DESIGN CHOICE (log
88): such a request in BAR2 is reported with its offset there. -/
def Dev.writeReq (d : Dev) (master : Nat) (q : BusReq) (v : Nat) : Dev :=
  if reqPlain q master then d.write master q.addr v
  else if !d.pathUp master then d
  else
    match reqBell q with
    | some r => d.doorbell r (v % 2 ^ 32) []
    | none =>
      if d.linkStall q.addr then d.stalled master q.addr true
      else
        let d0 := if q.bar2 then d else ((d.linkUse q.addr 1).postNumber q.addr).unfetch q.addr
        let d1 := d0.writeFail master q.addr
        if inPwr q.addr then d1 else d1.emit (.busError master q.addr)

/-- A read request: a register's, a doorbell's, which returns the last accepted index, or handled as an access to an unimplemented
address (R412, R438). -/
def Dev.readReq (d : Dev) (master : Nat) (q : BusReq) : Dev :=
  if reqPlain q master then d.read master q.addr
  else if !d.pathUp master then d
  else
    match reqBell q with
    | some r => d.emit (.readData master q.addr (d.dbIdx r))
    | none =>
      (if d.linkStall q.addr then d.stalled master q.addr false
        else (d.linkUse q.addr 2).readError master q.addr).emit (.busError master q.addr)

/-- A write that gives single fields of a register new values and writes back what its other read-write fields hold; the bits of
the other write-one fields are 0. -/
def Dev.writeFields (d : Dev) (master a : Nat) (l : List (FieldRef × Nat)) : Dev :=
  match regDef a with
  | none => d
  | some r =>
    let keep := d.reg a &&& r.mask (fun x => x == .rw || x == .rwl || x == .rwo)
    d.write master a (l.foldl (fun x p => setBf x p.1.lo p.1.w p.2) keep)

/-! ### Rows of chapter 15 -/

/-- PREFETCH_DISCARD: TRD_US without a read (R447). -/
def Dev.trdCyc (d : Dev) : Nat := atLeastOne (d.get F.GLOBAL_TRD_TRD_US) * usCyc

def Dev.prefetchDiscard (d : Dev) (master : Nat) : Dev :=
  match SMap.get d.bus.pf none master with
  | none => d
  | some p => (d.reach (p.2.2 + d.trdCyc)).setPf master none

/-- DELAYED_READ_DISCARD: nobody collected the read within TRD_US (R448). The data of the answer it was for is then open. -/
def Dev.delayedDiscard (d : Dev) : Dev :=
  match d.bus.delayed with
  | [] => d
  | r :: l =>
    let d1 := d.reach (r.at_ + d.trdCyc)
    let d2 : Dev := { d1 with
      bus := { d1.bus with delayed := l }
      host := { d1.host with spiAns := (d1.host.spiAns.1, d1.freeNat 32, d1.host.spiAns.2.2) } }
    let d3 := d2.tookFree
    if !r.sideEffect then d3
    else
      let d4 := (d3.inc F.GLOBAL_DISC_COUNT_COUNT).fltSet blkGlobal 2
      if d4.flag F.GLOBAL_DISC_INFO_VALID then d4
      else
        ((((d4.setReg R.GLOBAL_DISC_ADDR r.addr).setReg R.GLOBAL_DISC_DATA r.data).set F.GLOBAL_DISC_INFO_MASTER r.master).set
          F.GLOBAL_DISC_INFO_VALID 1).set F.GLOBAL_DISC_TIME_DTIME d4.dtime

/-- ACCESS_STALL_TIMEOUT: an access has reached its limit (R444). -/
def Dev.stallTimeout (d : Dev) (master a : Nat) (write : Bool) : Dev :=
  if !d.pathUp master then d
  else
    let d1 := d.stalled master a write
    if write then d1 else d1.emit (.busError master a)

/-- POSTED_WRITE_FAIL: an uncorrectable error in the target, or an address that is none, makes a write to the PWR window fail
(R453). -/
def Dev.postedFail (d : Dev) (master a : Nat) : Dev :=
  if !d.pathUp master || !inPwr a then d
  else
    let d1 := d.postNumber a
    if (d1.regAt a).isNone then d1.writeFail master a else d1.postFailed master a

/-- Registers with triplicated fields (the /T suffix of the register tables). -/
def tripled (a : Nat) : Bool :=
  a == R.LOADC_WD_CFG || a == R.LOADC_LIMP_MAP || a == R.LOADC_LIMP_SEL_LO || a == R.LOADC_LIMP_SEL_HI
    || a == R.SUPV_PD_START || a == R.VAULT_TMP_CFG
    || ((faultBlockOf a).isSome && (a % 0x1000 == 0xF20 || a % 0x1000 == 0xF24))

/-- TMR_CORRECTION: a disagreement in a register's triplicated fields is corrected; the value stays the majority's (R449). -/
def Dev.tmrCorrect (d : Dev) (a : Nat) : Dev :=
  if !tripled a || (d.regAt a).isNone then d
  else
    (((d.inc F.GLOBAL_TMR_CORR_COUNT).set F.GLOBAL_TMR_LAST_ADDR a).set F.GLOBAL_TMR_LAST_VALID 1).countEvent (pageBlock a) 30

/-! ### Safety port (R433) -/

/-- CRC-8 with polynomial 0x2F over a bit list, most significant first. -/
def crc8 (bs : List Byte) : Nat :=
  (bs.flatMap (fun (b : Byte) => (List.range 8).map (fun i => bit b.toNat (7 - i)))).foldl
    (fun c (b : Bool) =>
      let x := c * 2 % 256
      if bit c 7 != b then x ^^^ 0x2F else x) 0xFF

/-- The bytes of a safety-port answer (Table HIF-12). -/
def spiBytes (x : Nat × Nat × Nat) : List Byte :=
  let b := leBytes 1 x.1 ++ beBytes 4 x.2.1 ++ leBytes 1 x.2.2
  b ++ leBytes 1 (crc8 b)

/-- The answer that the next frame brings. -/
def Dev.spiAnswer (d : Dev) (result data seq : Nat) (busy : Bool) : Dev :=
  { d with host := { d.host with spiAns := (result, data, seq), spiBusy := busy } }

/-- A valid frame is executed: its access, and the answer it will have. -/
def Dev.spiExec (d : Dev) (mosi : List Byte) : Dev :=
  let b := byteAt mosi 0
  let w := bit b 7
  let v := beNat (slice mosi 1 4)
  let seq := byteAt mosi 5
  match bf b 0 2 with
  | 0 =>
    if !d.pageOn R.GLOBAL_IND_ADDR then
      if w then (d.writeFail 1 R.GLOBAL_IND_ADDR).spiAnswer 3 0 seq true else (d.readError 1 R.GLOBAL_IND_ADDR).spiAnswer 3 0 seq true
    else if w then (d.indAddrWrite 1 v).spiAnswer 0 0 seq true
    else d.spiAnswer 0 (d.indAddr 1) seq true
  | 1 =>
    if !d.pageOn R.GLOBAL_IND_DATA then
      if w then (d.writeFail 1 R.GLOBAL_IND_DATA).spiAnswer 3 0 seq true else (d.readError 1 R.GLOBAL_IND_DATA).spiAnswer 3 0 seq true
    else if w then
      let x := d.indWrite 1 v
      x.1.spiAnswer (if x.2 == .done then 0 else 3) 0 seq true
    else
      let a := indTarget (d.indAddr 1)
      let side := (SMap.get d.bus.pf none 1).isNone && d.readSide 1 a
      let x := d.indRead 1
      match x.2 with
      | none => x.1.spiAnswer 3 0 seq true
      | some y =>
        let d1 := x.1.spiAnswer 0 y seq true
        { d1 with bus := { d1.bus with delayed := d1.bus.delayed ++ [⟨1, a, y, side, d1.now⟩] } }
  | 2 => d.spiAnswer 0 (if w then 0 else d.get F.HIF_SPI_ERR_COUNT) seq false
  | _ => d.spiAnswer 4 0 seq false

/-- SPI_FRAME: a frame of `clocks` clocks. It brings the answer to the frame before; while that one's access has not finished
(`busy`) it brings PENDING and has no effect of its own. -/
def Dev.spiFrame (d : Dev) (mosi : List Byte) (clocks : Nat) (busy : Bool) : Dev :=
  if !d.pathUp 1 then d
  else
    let ok := clocks == 56 && mosi.length == 7 && crc8 (slice mosi 0 6) == byteAt mosi 6
    let d0 := if ok then d.inc F.HIF_SPI_FRAMES_COUNT else d.inc F.HIF_SPI_ERR_COUNT
    if d.host.spiBusy && busy then d0.emit (.spi (spiBytes (1, 0, d.host.spiAns.2.2)))
    else
      let d1 := d0.emit (.spi (spiBytes d.host.spiAns))
      let d2 : Dev := { d1 with
        bus := { d1.bus with delayed := [] }
        host := { d1.host with spiBusy := false } }
      if ok then d2.spiExec mosi else d2.spiAnswer 2 0 (byteAt mosi 5) false

/-! ### Guxia register access (R490) -/

/-- COUNT of a READ or WRITE request, and the form of its body. -/
def gxCount (m : List Byte) : Nat := byteAt m 16
def gxOk (m : List Byte) (words : Nat) : Bool :=
  decide (1 ≤ gxCount m) && decide (gxCount m ≤ 64) && m.length == 20 + 4 * words

/-- Reads from `a` on until one ends as a bus error. -/
def Dev.gxReads (d : Dev) (a : Nat) : Nat → Dev × Option (List Byte)
  | 0 => (d, some [])
  | n + 1 =>
    let x := d.busRead 2 a
    match x.2 with
    | none => (x.1, none)
    | some v =>
      let y := x.1.gxReads (a + 4) n
      (y.1, y.2.map (fun l => beBytes 4 v ++ l))

/-- Writes from `a` on until one does not go through: the error code. -/
def Dev.gxWrites (d : Dev) (a : Nat) (bs : List Byte) : Nat → Dev × Nat
  | 0 => (d, errOk)
  | n + 1 =>
    let x := d.busWrite 2 a (beNat (slice bs 0 4))
    match x.2 with
    | .error => (x.1, errFormat)
    | .denied => (x.1, errLocked)
    | .done => x.1.gxWrites (a + 4) (bs.drop 4) n

/-- GUXIA_READ; a request of a TYPE that Table FW-6 does not have is answered with ERR_FORMAT as well. -/
def Dev.guxiaRead (d : Dev) (m : List Byte) : Dev :=
  if guxiaTypes.contains (byteAt m 1) then
    d.guxia [0x01] m (gxOk m 0) false (fun d seq =>
      let x := d.gxReads (beNat (slice m 12 4)) (gxCount m)
      match x.2 with
      | none => x.1.guxiaReply 0x01 seq errFormat []
      | some l => x.1.guxiaReply 0x01 seq errOk l)
  else d.guxia [byteAt m 1] m false false (fun d _ => d)

/-- GUXIA_WRITE. -/
def Dev.guxiaWrite (d : Dev) (m : List Byte) : Dev :=
  d.guxia [0x02] m (gxOk m (gxCount m)) false (fun d seq =>
    let x := d.gxWrites (beNat (slice m 12 4)) (m.drop 20) (gxCount m)
    x.1.guxiaReply 0x02 seq x.2 [])

end Sys2Proof.Machine
end

