-- ==== Sys2Proof/Machine/Boot.lean ====
section
/-!
DEFINITION. The commands of boot and firmware update (chapter 17), register accesses aside.
-/
namespace Sys2Proof.Machine

/-- BOOT_START (R481). -/
def execBootStart (flashErr : Bool) (s : State) : Host.Outcome State Fault Refusal :=
  s.done (s.dev.bootStart flashErr)

/-- MGMT_RESTART (R483). -/
def execMgmtRestart (s : State) : Host.Outcome State Fault Refusal := s.done (s.dev.mgmtRestart)

/-- LOCKSTEP_MISMATCH (R483). -/
def execLockstepMismatch (s : State) : Host.Outcome State Fault Refusal := s.done (s.dev.lockstep)

/-- FW_PIECE (R491). -/
def execFwPiece (s : State) : Host.Outcome State Fault Refusal := s.done (s.dev.fwPiece)

/-- FW_QUERY (R492). -/
def execFwQuery (s : State) : Host.Outcome State Fault Refusal := s.done (s.dev.fwQuery)

/-- FW_ACTIVATE (R493). -/
def execFwActivate (s : State) : Host.Outcome State Fault Refusal := s.done (s.dev.fwActivate)

/-- FW_CANCEL (R492). -/
def execFwCancel (s : State) : Host.Outcome State Fault Refusal := s.done (s.dev.fwCancel)

/-- GUXIA_READ (R490). -/
def execGuxiaRead (msg : List Byte) (s : State) : Host.Outcome State Fault Refusal := s.done (s.dev.guxiaRead msg)

/-- GUXIA_WRITE (R490). -/
def execGuxiaWrite (msg : List Byte) (s : State) : Host.Outcome State Fault Refusal := s.done (s.dev.guxiaWrite msg)

/-- GUXIA_FW_DATA (R490). -/
def execGuxiaFwData (msg : List Byte) (s : State) : Host.Outcome State Fault Refusal := s.done (s.dev.guxiaData msg)

/-- GUXIA_FW_QUERY (R490). -/
def execGuxiaFwQuery (msg : List Byte) (s : State) : Host.Outcome State Fault Refusal := s.done (s.dev.guxiaQuery msg)

/-- GUXIA_FW_ACTIVATE (R493). -/
def execGuxiaFwActivate (msg : List Byte) (s : State) : Host.Outcome State Fault Refusal :=
  s.done (s.dev.guxiaActivate msg)

/-- GUXIA_FW_CANCEL (R490). -/
def execGuxiaFwCancel (msg : List Byte) (s : State) : Host.Outcome State Fault Refusal :=
  s.done (s.dev.guxiaCancel msg)

/-- NEIGHBOR_SOLICITATION (R489). -/
def execNeighborSolicitation (src target : List Byte) (s : State) : Host.Outcome State Fault Refusal :=
  s.done (s.dev.neighbor src target)

/-- FLASH_OP_COMPLETE (R488). -/
def execFlashOpComplete (ok : Bool) (s : State) : Host.Outcome State Fault Refusal := s.done (s.dev.flashOp ok)

end Sys2Proof.Machine
end

