-- ==== Sys2Proof/Machine/CanLin.lean ====
section
/-!
DEFINITION. The commands of the CAN and LIN ports (chapter 6), those that are register writes aside.
-/
namespace Sys2Proof.Machine

/-- CAN_BUS_INTEGRATED (R191, R200). -/
def execCanBusIntegrated (ctl : Fin 20) (s : State) : Host.Outcome State Fault Refusal := s.done (s.dev.canIntegrated ctl)

/-- RATE_DET_DWELL_EXPIRY (R195). -/
def execRateDetDwellExpiry (ctl : Fin 20) (s : State) : Host.Outcome State Fault Refusal := s.done (s.dev.rateDwell ctl)

/-- CAN_FRAME_VALID (R199). -/
def execCanFrameValid (ctl : Fin 20) (frame : CanFrame) (age : Nat) (bad : Bool) (s : State) : Host.Outcome State Fault Refusal :=
  s.done (s.dev.canValid ctl frame age bad)

/-- CAN_PROTOCOL_EXCEPTION (R200). -/
def execCanProtocolException (ctl : Fin 20) (s : State) : Host.Outcome State Fault Refusal := s.done (s.dev.canException ctl)

/-- CAN_ARBITRATION_ATTEMPT (R202). -/
def execCanArbitrationAttempt (ctl : Fin 20) (bad : Bool) (s : State) : Host.Outcome State Fault Refusal :=
  s.done (s.dev.canAttempt ctl bad)

/-- ARBITRATION_FIELD_END (R116). -/
def execArbitrationFieldEnd (ctl : Fin 20) (won : Bool) (s : State) : Host.Outcome State Fault Refusal :=
  s.done (s.dev.arbEnd ctl won)

/-- CAN_TX_COMPLETE (R202). -/
def execCanTxComplete (ctl : Fin 20) (delay : CanEdges) (s : State) : Host.Outcome State Fault Refusal :=
  s.done (s.dev.canSent ctl delay.edges)

/-- CAN_BUS_ERROR (R205). -/
def execCanBusError (ctl : Fin 20) (tx : Bool) (code : Fin 9) (field : CanField) (bitPos : Nat) (dataPhase : Bool)
    (tail : CanTail) (s : State) : Host.Outcome State Fault Refusal :=
  s.done (s.dev.canError ctl tx code field bitPos dataPhase tail.special tail.more tail.delay.edges)

/-- CAN_BUSOFF_RECOVERED (R206). -/
def execCanBusoffRecovered (ctl : Fin 20) (s : State) : Host.Outcome State Fault Refusal := s.done (s.dev.canRecovered ctl)

/-- SUSPEND_RELEASE_TIMEOUT (R211). -/
def execSuspendReleaseTimeout (ctl : Fin 20) (tracker : Fin 8) (s : State) : Host.Outcome State Fault Refusal :=
  s.done (s.dev.suspendTimeout ctl tracker)

/-- COLLISION_WINDOW_EXPIRY (R210). -/
def execCollisionWindowExpiry (ctl : Fin 20) (tracker : Fin 8) (s : State) : Host.Outcome State Fault Refusal :=
  s.done (s.dev.trackExpire ctl tracker)

/-- TOUCHSTONE_SYNC_RELEASE (R213). -/
def execTouchstoneSyncRelease (s : State) : Host.Outcome State Fault Refusal := s.done s.dev.tsRelease

/-- LIN_SLOT_START (R216). -/
def execLinSlotStart (port : Fin 8) (busy : Bool) (bad : LinSend) (s : State) : Host.Outcome State Fault Refusal :=
  s.done (s.dev.linSlotStart port busy bad.bad bad.err)

/-- LIN_HEADER_RX (R220). -/
def execLinHeaderRx (port : Fin 8) (id : Fin 64) (rate : LinBreak) (age : Nat) (bad : LinSend) (s : State) :
    Host.Outcome State Fault Refusal := s.done (s.dev.linHeader port id rate.brk rate.rate age bad.bad bad.err)

/-- LIN_RESPONSE_VALID (R222). -/
def execLinResponseValid (port : Fin 8) (id : Fin 64) (data : List Byte) (classic : LinChk) (age : Nat) (bad : Bool)
    (s : State) : Host.Outcome State Fault Refusal := s.done (s.dev.linValid port id data classic.sum age bad)

/-- LIN_NO_RESPONSE (R223). -/
def execLinNoResponse (port : Fin 8) (s : State) : Host.Outcome State Fault Refusal := s.done (s.dev.linSilent port)

/-- LIN_ERROR (R223). -/
def execLinError (port : Fin 8) (err : LinErr) (s : State) : Host.Outcome State Fault Refusal := s.done (s.dev.linError port err)

/-- XCVR_MODE_APPLIED (R225). -/
def execXcvrModeApplied (port : Fin 48) (s : State) : Host.Outcome State Fault Refusal := s.done (s.dev.xcvrReached port)

/-- TXD_DOMINANT_TIMEOUT (R226). -/
def execTxdDominantTimeout (port : Fin 48) (off : Bool) (s : State) : Host.Outcome State Fault Refusal :=
  s.done (s.dev.txdTimeout port off)

end Sys2Proof.Machine
end

