-- ==== Sys2Proof/Machine/AgentOps.lean ====
section
/-!
DEFINITION. What starts a rate step and what the rate-step agent does with an LLDPDU (R251 to R257), and the end of a
preemption verification (R248).
-/
namespace Sys2Proof.Machine

/-! ### Starting a step (R253, R254, R255) -/

/-- The next lower rate that both ends offer and that is not below the floor. -/
def Dev.stepLower (d : Dev) (p : Nat) : Option Nat :=
  let both := d.ratesOffered p &&& (d.ethPort p).rates
  ([5, 4, 3, 2, 1, 0].find? (fun r => decide (r < d.get (F.ETH_RATE_CUR p)) && bit both r))

/-- The agent may start a step of its own on a port. -/
def Dev.stepFree (d : Dev) (p : Nat) : Bool :=
  d.agentMayStart && d.get (F.ETH_STEP_STATUS_STATE p) == 0 && d.flag (F.ETH_STEP_STATUS_PARTNER p)

/-- `n` bytes in `ms` milliseconds are at most `pct` per cent of a rate in Mbit/s. -/
def withinPct (n ms pct mbps : Nat) : Bool := decide (n * 8 * 100 ≤ pct * mbps * 1000 * ms)

/-- A utilisation window ends (R253). -/
def Dev.stepWindow (d : Dev) (p : Nat) : Dev :=
  let sec := atLeastOne (d.get (F.ETH_STEP_WIN_WIN_S p))
  let d1 := d.reach ((d.ethPort p).win.2.2 + sec * sCyc)
  let x := d1.ethPort p
  let d2 := d1.setEthPort p { x with win := (0, 0, d1.now) }
  match d1.stepLower p with
  | some r =>
    let pct := d1.get (F.ETH_STEP_CFG_DOWN_PCT p)
    if d1.flag (F.ETH_STEP_CFG_AUTO p) && d1.stepFree p && withinPct x.win.1 (sec * 1000) pct (rateMbps r)
        && withinPct x.win.2.1 (sec * 1000) pct (rateMbps r) then
      (d2.set (F.ETH_STEP_STATUS_STATE p) 1).setEthPort p { d2.ethPort p with target := r }
    else d2
  | none => d2

/-- A step-up to the nominal rate starts when R254 asks for it, UP_CELLS = 0 disabling its trigger (Table ETH-7); so does the step
of a CHANGE of NOM that has waited for the agent (R250). -/
def Dev.stepUp (d : Dev) (p : Nat) : Dev :=
  let x := d.ethPort p
  let now := d.now
  let recent := x.fast.filter (fun e => decide (now < e.1 + 100 * msCyc))
  let pct := d.get (F.ETH_STEP_CFG_UP_PCT p)
  let rate := d.portRate p
  let busy := !withinPct (recent.map (fun e => e.2.1)).sum 100 pct rate || !withinPct (recent.map (fun e => e.2.2)).sum 100 pct rate
  let auto := d.flag (F.ETH_STEP_CFG_AUTO p) && (busy || (d.get (F.ETH_STEP_WIN_UP_CELLS p) != 0
    && decide (d.get (F.ETH_STEP_WIN_UP_CELLS p) < d.beCells p)))
  if (d.ethPort p).toNom then d.stepToNom p
  else if d.get (F.ETH_RATE_CUR p) < d.get (F.ETH_RATE_NOM p) && d.stepFree p && (x.upReq || auto) then
    d.stepPropose p (d.get (F.ETH_RATE_NOM p))
  else d

/-- Anvil evaluates a device-started step-down between two ring-56 operations (R61, R255). -/
def Dev.stepCheck (d : Dev) (p : Nat) : Dev :=
  if d.get (F.ETH_STEP_STATUS_STATE p) != 1 || d.host.ops.any (fun o => o.ring == 56 && o.state == .running) then d
  else
    let r := (d.ethPort p).target
    match d.stepTest p r with
    | .ok => d.stepPropose p r
    | _ => d.stepRefused.stepOver p 2

/-! ### The rate-step TLV (R251, R252, R255 to R257) -/

/-- The TLVs of an LLDPDU: type and value. -/
def lldpTlvs : Nat → List Byte → List (Nat × List Byte)
  | 0, _ => []
  | n + 1, bs =>
    if bs.length < 2 then []
    else
      let h := be16 bs 0
      let len := h % 512
      if h / 512 == 0 || bs.length < 2 + len then []
      else (h / 512, (bs.drop 2).take len) :: lldpTlvs n (bs.drop (2 + len))

/-- What a valid rate-step TLV says. -/
structure StepTlv where
  msg : Nat
  seq : Nat
  target : Nat
  rates : Nat
  holdoff : Nat
  deriving DecidableEq, Repr

/-- A TLV's value, read by Table ETH-4; none where it is another TLV or is to be ignored. -/
def stepTlv (t : Nat × List Byte) : Option StepTlv :=
  let v := t.2
  if t.1 == 127 && v.length == 16 && slice v 0 4 == bytes [0x5C, 0x2E, 0x91, 1] && byteAt v 4 == 1 && byteAt v 5 ≤ 3 then
    some ⟨byteAt v 5, be16 v 6, byteAt v 9, byteAt v 10 % 64, be16 v 12⟩
  else none

/-- The partner's PROPOSE is answered (R256). A repeat of the one last accepted gets the same ACCEPT, also once its step has ended. -/
def Dev.proposeAnswer (d : Dev) (p : Nat) (t : StepTlv) : Dev :=
  let x := d.ethPort p
  let st := d.get (F.ETH_STEP_STATUS_STATE p)
  let hold := atLeastOne (d.get (F.ETH_STEP_TIMERS_HOLDOFF_MS p))
  let decline (d : Dev) (reason : Nat) : Dev := d.lldpSend p 3 t.seq t.target reason 0
  match x.accepted.filter (fun a => a.1 == t.seq) with
  | some (_, target, h) => d.lldpSend p 2 t.seq target 0 h
  | none =>
  if 3 ≤ st && !x.theirs then decline d 4
  else if !d.agentMayStart then decline d 1
  else if t.target < d.get (F.ETH_RATE_FLOOR p) || d.get (F.ETH_RATE_NOM p) < t.target || !(portCodes p).contains t.target then
    decline d 3
  else if t.target < d.get (F.ETH_RATE_CUR p) && d.stepTest p t.target != .ok then decline d.stepRefused 2
  else
    let d1 := if st == 0 then d else d.stepEnd p 7
    let d2 := (d1.set (F.ETH_STEP_STATUS_STATE p) 3).setEthPort p { d1.ethPort p with
      target := t.target, stageAt := d1.now, stageLen := hold * msCyc, accepted := some (t.seq, t.target, hold), theirs := true }
    d2.lldpSend p 2 t.seq t.target 0 hold

/-- A rate-step TLV acts: `own` is the partner's address as a 48-bit number in wire order (R257). -/
def Dev.stepMessage (d : Dev) (p partner : Nat) (t : StepTlv) : Dev :=
  let x := d.ethPort p
  let st := d.get (F.ETH_STEP_STATUS_STATE p)
  let own := beNat (leBytes 6 (d.ethAddr p))
  match t.msg with
  | 1 =>
    if st != 2 || x.accepted.any (fun a => a.1 == t.seq) then d.proposeAnswer p t
    else if own < partner then (d.stepEnd p 7).proposeAnswer p t
    else d
  | 0 => d
  | m =>
    if st != 2 then d
    else if t.seq != d.get (F.ETH_STEP_STATUS_SEQ p) || t.target != x.target then d.inc (F.ETH_STEP_ERR_COUNT p)
    else if m == 3 then d.stepOver p 3
    else
      (d.set (F.ETH_STEP_STATUS_STATE p) 3).setEthPort p { x with
        stageAt := d.now, stageLen := atLeastOne t.holdoff * msCyc, theirs := false }

/-- An LLDPDU of a port reaches the agent (R251, R252). -/
def Dev.lldpTake (d : Dev) (p : Nat) (bs : List Byte) : Dev :=
  let h := parseHdr bs
  let tlvs := lldpTlvs bs.length (bs.drop (h.off + 2))
  match tlvs.find? (fun t => t.1 == 3 && 2 ≤ t.2.length) with
  | none => d
  | some ttl =>
    let sec := be16 ttl.2 0
    let x := d.ethPort p
    match tlvs.findSome? stepTlv with
    | some t =>
      let on := sec != 0
      let d1 := (d.set (F.ETH_STEP_STATUS_PARTNER p) (b2n on)).setEthPort p { x with
        ttlEnd := if on then some (d.now + sec * sCyc) else none, rates := t.rates }
      -- low-power idle is not asserted toward a partner that takes part (R260)
      if on then (d1.lpiEnd p).stepMessage p (beNat (slice bs 6 6)) t else d1
    | none => (d.set (F.ETH_STEP_STATUS_PARTNER p) 0).setEthPort p { x with ttlEnd := none }

/-- The first LLDPDU that waits is served, while MGMT runs the agent (Table FW-4). -/
def Dev.lldpReceive (d : Dev) : Dev :=
  if !d.mgmtRuns then d
  else
    match d.fwd.mgmt.find? (fun m => (parseHdr m.2).etype == 0x88CC && decide (m.1 < 12)) with
    | none => d
    | some m => ({ d with fwd := { d.fwd with mgmt := d.fwd.mgmt.erase m } }).lldpTake m.1 m.2

/-- The interval of R251 ends: an LLDPDU with an ANNOUNCE. -/
def Dev.lldpDue (d : Dev) (p : Nat) : Dev :=
  let d1 := match (d.ethPort p).lldpAt with
    | some t => d.reach (t + atLeastOne (d.get (F.ETH_LLDP_TX_S p)) * sCyc)
    | none => d
  d1.lldpSend p 0 0 0xFF 0 0

/-- The partner's time to live ends (R252). -/
def Dev.ttlExpire (d : Dev) (p : Nat) : Dev :=
  match (d.ethPort p).ttlEnd with
  | none => d
  | some t =>
    let d1 := d.reach t
    (d1.set (F.ETH_STEP_STATUS_PARTNER p) 0).setEthPort p { d1.ethPort p with ttlEnd := none }

/-! ### Preemption verification (R248) -/

/-- The partner answers the verify frame. -/
def Dev.verifyOk (d : Dev) (p : Nat) : Dev :=
  if d.get (F.ETH_PREEMPT_STATUS_VERIFY_STATE p) != 2 then d
  else
    ((d.set (F.ETH_PREEMPT_STATUS_VERIFY_STATE p) 3).set (F.ETH_PREEMPT_STATUS_ACTIVE p) 1).set (F.ETH_STATUS_RETRAINING p) 0

/-- VERIFY_MS pass without an answer: another verify frame, or FAILED after three. -/
def Dev.verifyTimeout (d : Dev) (p : Nat) : Dev :=
  if d.get (F.ETH_PREEMPT_STATUS_VERIFY_STATE p) != 2 then d
  else
    let x := d.ethPort p
    let d1 := d.reach (x.verAt + bf (d.get (F.ETH_PREEMPT_OPER_DATA p)) 8 8 * msCyc)
    if 3 ≤ x.verTries then (d1.set (F.ETH_PREEMPT_STATUS_VERIFY_STATE p) 4).fltSet (blkEth p) 1
    else d1.setEthPort p { x with verTries := x.verTries + 1, verAt := d1.now }

end Sys2Proof.Machine
end

