-- ==== Sys2Proof/Machine/Eth.lean ====
section
/-!
DEFINITION. The commands of the Ethernet and T1S ports (chapter 7).
-/
namespace Sys2Proof.Machine

/-- TW_US have passed since low-power idle ended: the waiting transmission may start (R260). -/
def Dev.lpiWake (d : Dev) (p toSfd : Nat) (bad : Bool) : Dev :=
  match (d.ethPort p).wakeAt with
  | none => d
  | some t => (d.reach t).ethSelect p toSfd bad

/-- LINK_UP (R233). -/
def execLinkUp (port : Fin 20) (code : Fin 8) (s : State) : Host.Outcome State Fault Refusal :=
  s.done (s.dev.linkUp port code)

/-- LINK_DOWN (R234). -/
def execLinkDown (port : Fin 20) (s : State) : Host.Outcome State Fault Refusal := s.done (s.dev.ethDown port)

/-- GATE_EVENT (R242). -/
def execGateEvent (port : Fin 12) (s : State) : Host.Outcome State Fault Refusal := s.done (s.dev.gateEvent port)

/-- GATE_SWITCHOVER (R246). -/
def execGateSwitchover (port : Fin 12) (s : State) : Host.Outcome State Fault Refusal :=
  s.done (s.dev.gateSwitch port)

/-- PREEMPT_VERIFY_SUCCESS (R248). -/
def execPreemptVerifySuccess (port : Fin 12) (s : State) : Host.Outcome State Fault Refusal :=
  s.done (s.dev.verifyOk port)

/-- PREEMPT_VERIFY_TIMEOUT (R248). -/
def execPreemptVerifyTimeout (port : Fin 12) (s : State) : Host.Outcome State Fault Refusal :=
  s.done (s.dev.verifyTimeout port)

/-- LLDP_TX (R251). -/
def execLldpTx (port : Fin 12) (s : State) : Host.Outcome State Fault Refusal := s.done (s.dev.lldpDue port)

/-- LLDPDU_RX (R251). -/
def execLldpduRx (s : State) : Host.Outcome State Fault Refusal := s.done (s.dev.lldpReceive)

/-- PARTNER_TTL_EXPIRY (R252). -/
def execPartnerTtlExpiry (port : Fin 12) (s : State) : Host.Outcome State Fault Refusal :=
  s.done (s.dev.ttlExpire port)

/-- STEP_WINDOW_END (R253). -/
def execStepWindowEnd (port : Fin 12) (s : State) : Host.Outcome State Fault Refusal := s.done (s.dev.stepWindow port)

/-- STEP_UP_TRIGGER (R254). -/
def execStepUpTrigger (port : Fin 12) (s : State) : Host.Outcome State Fault Refusal := s.done (s.dev.stepUp port)

/-- STEP_CHECK (R61). -/
def execStepCheck (port : Fin 12) (s : State) : Host.Outcome State Fault Refusal := s.done (s.dev.stepCheck port)

/-- STEP_ANSWER_TIMEOUT (R255). -/
def execStepAnswerTimeout (port : Fin 12) (s : State) : Host.Outcome State Fault Refusal :=
  s.done (s.dev.answerTimeout port)

/-- STEP_HOLDOFF_END (R255). -/
def execStepHoldoffEnd (port : Fin 12) (s : State) : Host.Outcome State Fault Refusal :=
  s.done (s.dev.holdoffEnd port)

/-- RETRAIN_TIMEOUT (R258). -/
def execRetrainTimeout (port : Fin 12) (s : State) : Host.Outcome State Fault Refusal :=
  s.done (s.dev.retrainTimeout port)

/-- LPI_ENTER (R260). -/
def execLpiEnter (port : Fin 12) (s : State) : Host.Outcome State Fault Refusal := s.done (s.dev.lpiEnter port)

/-- LPI_TW_END (R260). -/
def execLpiTwEnd (port : Fin 12) (toSfd : Nat) (bad : Bool) (s : State) : Host.Outcome State Fault Refusal :=
  s.done (s.dev.lpiWake port toSfd bad)

/-- BEACON_LOST (R263). -/
def execBeaconLost (port : Fin 8) (s : State) : Host.Outcome State Fault Refusal :=
  s.done (s.dev.beaconLost (12 + port.val))

/-- BEACON_REGAINED (R263). -/
def execBeaconRegained (port : Fin 8) (s : State) : Host.Outcome State Fault Refusal :=
  s.done (s.dev.beaconBack (12 + port.val))

/-- PLCA_COLLISION (R264). -/
def execPlcaCollision (port : Fin 8) (s : State) : Host.Outcome State Fault Refusal :=
  s.done (s.dev.plcaCollision (12 + port.val))

/-- MDIO_COMPLETE (R265). -/
def execMdioComplete (answer : Option (Fin 65536)) (s : State) : Host.Outcome State Fault Refusal :=
  s.done (s.dev.mdioEnd (answer.map (fun x => x.val)))

end Sys2Proof.Machine
end

