-- ==== Sys2Proof/Machine/Fault.lean ====
section
/-!
DEFINITION. The commands of the fault pages (chapter 16), register accesses aside.
-/
namespace Sys2Proof.Machine

/-- WINDOW_EVENT_EXPIRY (R461). -/
def execWindowEventExpiry (block : Fin 66) (s : State) : Host.Outcome State Fault Refusal :=
  s.done (s.dev.winExpire block)

/-- BLOCK_RESET_DONE (R465). -/
def execBlockResetDone (block : Fin 66) (s : State) : Host.Outcome State Fault Refusal :=
  s.done (s.dev.blockResetDone block)

end Sys2Proof.Machine
end

