-- ==== Sys2Proof/Machine/Fwd.lean ====
section
/-!
DEFINITION. The commands of the forwarding pipelines (chapter 3).
-/
namespace Sys2Proof.Machine

/-- ETH_FRAME_RX (R73). -/
def execEthFrameRx (port : Fin 20) (kind : EthRx) (frame : List Byte) (age : Nat) (plca : Option (Nat × Nat)) (s : State) :
    Host.Outcome State Fault Refusal := s.done (s.dev.ethReceive port kind frame age plca)

/-- CUT_THROUGH_START (R118). -/
def execCutThroughStart (port : Fin 12) (frame : List Byte) (total : CtLen) (s : State) : Host.Outcome State Fault Refusal :=
  s.done (s.dev.cutThrough port frame total.total total.age)

/-- FIELD_QUEUE_READ (R97). -/
def execFieldQueueRead (queue : QueueRead) (s : State) : Host.Outcome State Fault Refusal :=
  s.done (s.dev.fqRead queue.queue queue.bad)

/-- PFC_FRAME_SEND (R104). -/
def execPfcFrameSend (port : Fin 12) (s : State) : Host.Outcome State Fault Refusal := s.done (s.dev.pfcSend port)

/-- PFC_REFRESH (R104). -/
def execPfcRefresh (port : Fin 12) (s : State) : Host.Outcome State Fault Refusal := s.done (s.dev.pfcRefresh port)

/-- PAUSE_EXPIRY (R106). -/
def execPauseExpiry (port : Fin 12) (priority : Fin 8) (s : State) : Host.Outcome State Fault Refusal :=
  s.done (s.dev.pauseEnd port priority)

/-- ETH_EGRESS_SELECT (R109). -/
def execEthEgressSelect (port : Fin 12) (toSfd : Nat) (bad : Bool) (s : State) : Host.Outcome State Fault Refusal :=
  s.done (s.dev.ethSelect port toSfd bad)

/-- ETH_TX_COMPLETE (R109). -/
def execEthTxComplete (port : Fin 20) (fragment : Option Nat) (bad : Bool) (s : State) : Host.Outcome State Fault Refusal :=
  s.done (s.dev.ethComplete port fragment bad)

/-- T1S_TX_OPPORTUNITY (R112). -/
def execT1sTxOpportunity (port : Fin 8) (burst toSfd : Nat) (bad : Bool) (s : State) : Host.Outcome State Fault Refusal :=
  s.done (s.dev.t1sOpportunity (12 + port.val) burst toSfd bad)

/-- XL_CT_PUBLISH (R120). -/
def execXlCtPublish (ctl : Fin 20) (frame : CanFrame) (dlen age : Nat) (s : State) : Host.Outcome State Fault Refusal :=
  s.done (s.dev.canPublish ctl frame dlen age)

/-- XL_CT_COPY_START (R120). -/
def execXlCtCopyStart (ctl : Fin 20) (egress : Fin 12) (s : State) : Host.Outcome State Fault Refusal :=
  s.done (s.dev.xlCopyStart ctl egress)

/-- CB_RECOVERY_RESET (R123): RESET_MS after the last frame that passed. -/
def Dev.cbReset (d : Dev) (i : Nat) : Dev :=
  match d.contract i with
  | none => d
  | some k =>
    match k.passAt with
    | none => d
    | some t =>
      (d.reach (t + atLeastOne (d.get F.FWD_CB_CFG_RESET_MS) * msCyc)).setContract i (some { k with hist := [], passAt := none })
def execCbRecoveryReset (contract : Fin 4096) (s : State) : Host.Outcome State Fault Refusal := s.done (s.dev.cbReset contract)

/-- CB_LATENT_DETECT (R125). -/
def execCbLatentDetect (contract : Fin 4096) (s : State) : Host.Outcome State Fault Refusal := s.done (s.dev.cbLatent contract)

/-- CORE cycles until a shaper holds what the head of its class takes; 0 where it never will. -/
def Dev.shaperWait (d : Dev) (p tc : Nat) : Nat :=
  match d.tcHead p tc, d.shaperLevel p tc with
  | some c, some l =>
    let (r, b) := d.shaperOper p tc
    let need := (d.wireLen p c + 20) * 2 ^ 20
    if b * 2 ^ 20 < need || r == 0 then 0 else ceilDiv ((need - l) * 3125) (r * 512)
  | _, _ => 0

/-- BE_SHAPER_REFILL (R110): a selection point. -/
def execBeShaperRefill (port : Fin 12) (tc : Fin 6) (toSfd : Nat) (bad : Bool) (s : State) : Host.Outcome State Fault Refusal :=
  s.done ((s.dev.advance (s.dev.shaperWait port tc)).ethSelect port toSfd bad)

/-- 8 ns units until the earliest launch time of a frame held on a port. -/
def Dev.launchWait (d : Dev) (p : Nat) : Option Nat :=
  let now := d.dtime / 8 % 2 ^ 32
  let waits := (d.copiesOn p).filterMap (fun c => if c.started then none else
    ((d.frame c.handle).bind (fun f => f.launch)).bind (fun l => if reached d.dtime l then none else some (idxSub l now)))
  match waits with
  | [] => none
  | x :: l => some (l.foldl min x)

/-- LAUNCH_TIME_REACHED (R276): a selection point of an Ethernet port, an opportunity of a T1S port; on CAN the entry is
eligible from here. -/
def Dev.launchReached (d : Dev) (p toSfd : Nat) (bad : Bool) : Dev :=
  match d.launchWait p with
  | none => d
  | some w =>
    let d1 := d.reachDtime ((d.dtime / 8 + w) * 8)
    if p < 12 then d1.ethSelect p toSfd bad else if p < 20 then d1.t1sOpportunity p 0 toSfd bad else d1
def execLaunchTimeReached (port : Fin 48) (toSfd : Nat) (bad : Bool) (s : State) : Host.Outcome State Fault Refusal :=
  s.done (s.dev.launchReached port toSfd bad)

end Sys2Proof.Machine
end

