-- ==== Sys2Proof/Machine/HostRows.lean ====
section
/-!
DEFINITION. The commands of the host interface (chapter 14), register accesses aside.
-/
namespace Sys2Proof.Machine

/-- DMA_READ_ERROR: what the failed read was for (R430). -/
def Dev.dmaError (d : Dev) (kind ring idx addr : Nat) : Dev :=
  if kind == 0 then d.dmaDesc ring addr
  else if kind == 1 then d.dmaTx ring addr
  else if kind == 2 then d.dmaOp ring idx addr
  else d.dmaAssay addr

/-- DOORBELL_WRITE (R412). -/
def execDoorbellWrite (ring : Fin 64) (value : Nat) (stores : List (Nat × Byte)) (s : State) : Host.Outcome State Fault Refusal :=
  s.done (s.dev.doorbell ring value stores)

/-- TX_DESC_FETCH (R414). -/
def execTxDescFetch (ring : Fin 32) (s : State) : Host.Outcome State Fault Refusal := s.done (s.dev.txFetch ring)

/-- HOST_TX_FRAME (R80). -/
def execHostTxFrame (ring : Fin 32) (s : State) : Host.Outcome State Fault Refusal := s.done (s.dev.hostTx ring)

/-- UNKNOWN_COMMAND (R425). -/
def execUnknownCommand (s : State) : Host.Outcome State Fault Refusal := s.done (s.dev.unknownCmd)

/-- ABORT (R427). -/
def execAbort (s : State) : Host.Outcome State Fault Refusal := s.done (s.dev.abortExec)

/-- STATUS_PROGRESS_WRITE (R425). -/
def execStatusProgressWrite (ring : Fin 64) (idx : Nat) (s : State) : Host.Outcome State Fault Refusal :=
  s.done (s.dev.progressWrite ring idx)

/-- IRQ_MODERATION_TIMER (R428). -/
def execIrqModerationTimer (ring : Fin 64) (s : State) : Host.Outcome State Fault Refusal :=
  s.done (s.dev.modTimer ring)

/-- MSIX_UNMASK (R428). -/
def execMsixUnmask (vector : Fin 64) (mask : Bool) (s : State) : Host.Outcome State Fault Refusal :=
  s.done (s.dev.msixMask vector mask)

/-- DMA_READ_ERROR (R430). -/
def execDmaReadError (kind : Fin 4) (ring : Fin 64) (idx addr : Nat) (s : State) : Host.Outcome State Fault Refusal :=
  s.done (s.dev.dmaError kind ring idx addr)

/-- HOST_RESET (R431). -/
def execHostReset (linkDown : Bool) (s : State) : Host.Outcome State Fault Refusal :=
  s.done (s.dev.hostReset linkDown)

/-- SPI_FRAME (R433). -/
def execSpiFrame (mosi : List Byte) (clocks : Nat) (busy : Bool) (s : State) : Host.Outcome State Fault Refusal :=
  s.done (s.dev.spiFrame mosi clocks busy)

/-- PCIE_LINK_UP (R407). -/
def execPcieLinkUp (speed width : Nat) (s : State) : Host.Outcome State Fault Refusal :=
  s.done (s.dev.linkTrained speed width)

end Sys2Proof.Machine
end

