-- ==== Sys2Proof/Machine/Nm.lean ====
section
/-!
DEFINITION. The commands of the network manager (chapter 12), register accesses aside.
-/
namespace Sys2Proof.Machine

/-- MIN_AWAKE_EXPIRY (R366). -/
def execMinAwakeExpiry (port : Fin 48) (s : State) : Host.Outcome State Fault Refusal := s.done (s.dev.minAwake port)

/-- READY_TIMER_EXPIRY (R366). -/
def execReadyTimerExpiry (port : Fin 48) (s : State) : Host.Outcome State Fault Refusal :=
  s.done (s.dev.readyExpire port)

/-- PREPARE_END (R367). -/
def execPrepareEnd (port : Fin 48) (s : State) : Host.Outcome State Fault Refusal := s.done (s.dev.prepareEnd port)

/-- COMMIT_DONE (R367). -/
def execCommitDone (port : Fin 48) (s : State) : Host.Outcome State Fault Refusal := s.done (s.dev.commitDone port)

/-- NMM_TX (R370). -/
def execNmmTx (port : Fin 48) (s : State) : Host.Outcome State Fault Refusal := s.done (s.dev.nmmDue port)

/-- BUS_WAKE (R373). -/
def execBusWake (port : Fin 48) (source : Fin 9) (s : State) : Host.Outcome State Fault Refusal :=
  s.done (s.dev.wakeReport port source)

/-- WAKE_IN_EDGE (R373). -/
def execWakeInEdge (pin : WakePin) (s : State) : Host.Outcome State Fault Refusal :=
  s.done (s.dev.wakeIn pin.pin pin.high pin.ms)

/-- WAKE_CONFIRM_TIMEOUT (R376). -/
def execWakeConfirmTimeout (port : Fin 48) (s : State) : Host.Outcome State Fault Refusal :=
  s.done (s.dev.confirmTimeout port)

/-- SOURCE_MASK_END (R376). -/
def execSourceMaskEnd (port : Fin 48) (source : Fin 9) (s : State) : Host.Outcome State Fault Refusal :=
  s.done (s.dev.maskTimeout port source)

/-- LIN_HEADER_TIMEOUT (R368). -/
def execLinHeaderTimeout (port : Fin 8) (s : State) : Host.Outcome State Fault Refusal :=
  s.done (s.dev.headerTimeout port)

/-- LIN_WAKE_PULSE_REPEAT (R368). -/
def execLinWakePulseRepeat (port : Fin 8) (s : State) : Host.Outcome State Fault Refusal :=
  s.done (s.dev.pulseRepeat port)

/-- KEEP_AWAKE_LIMIT (R377). -/
def execKeepAwakeLimit (port : Fin 48) (s : State) : Host.Outcome State Fault Refusal := s.done (s.dev.keepAwake port)

/-- STANDBY_WAKE (R379). -/
def execStandbyWake (s : State) : Host.Outcome State Fault Refusal := s.done (s.dev.standbyWake)

/-- WUF_FRAME_DECODED (R374). -/
def execWufFrameDecoded (ctl : Fin 12) (bad : WakeFrame) (s : State) : Host.Outcome State Fault Refusal :=
  s.done (s.dev.wufFrame ctl bad)

end Sys2Proof.Machine
end

