-- ==== Sys2Proof/Machine/Pwr.lean ====
section
/-!
DEFINITION. The commands of supplies, domains, resets and clocks (chapter 18), register accesses aside.
-/
namespace Sys2Proof.Machine

/-- DOMAIN_READY (R496). -/
def execDomainReady (domain : Fin 15) (s : State) : Host.Outcome State Fault Refusal :=
  s.done (s.dev.domainReady domain)

/-- DOMAIN_OFF_COMPLETE (R498). -/
def execDomainOffComplete (domain : Fin 15) (s : State) : Host.Outcome State Fault Refusal :=
  s.done (s.dev.domainOff domain)

/-- TILE_B_COPY_DONE (R500). -/
def execTileBCopyDone (s : State) : Host.Outcome State Fault Refusal := s.done (s.dev.tileBDone)

/-- RAILS_GOOD (R502). -/
def execRailsGood (s : State) : Host.Outcome State Fault Refusal := s.done (s.dev.railsGood)

/-- RAIL_WARNING (R503). -/
def execRailWarning (on : Bool) (s : State) : Host.Outcome State Fault Refusal := s.done (s.dev.railWarning on)

/-- BROWNOUT_HOLD_START (R504). -/
def execBrownoutHoldStart (s : State) : Host.Outcome State Fault Refusal := s.done (s.dev.bohStart)

/-- BROWNOUT_HOLD_END (R504). -/
def execBrownoutHoldEnd (s : State) : Host.Outcome State Fault Refusal := s.done (s.dev.bohEnd)

/-- BROWNOUT_HOLD_EXPIRY (R505). -/
def execBrownoutHoldExpiry (s : State) : Host.Outcome State Fault Refusal := s.done (s.dev.bohExpire)

/-- COLD_RESET (R507). -/
def execColdReset (por : Bool) (s : State) : Host.Outcome State Fault Refusal := s.done (s.dev.coldRequest por)

/-- WARM_RESET (R507). -/
def execWarmReset (cause : Fin 10) (s : State) : Host.Outcome State Fault Refusal := s.done (s.dev.warmRequest cause)

/-- CLOCK_LOSS (R511). -/
def execClockLoss (clock : Fin 5) (s : State) : Host.Outcome State Fault Refusal := s.done (s.dev.clockLost clock)

/-- CLOCK_RETURN (R512). -/
def execClockReturn (clock : Fin 5) (s : State) : Host.Outcome State Fault Refusal := s.done (s.dev.clockBack clock)

/-- MGMT_WD_EXPIRY (R513). -/
def execMgmtWdExpiry (s : State) : Host.Outcome State Fault Refusal := s.done (s.dev.mgmtExpire)

/-- D2D_LINK_DOWN (R514). -/
def execD2dLinkDown (s : State) : Host.Outcome State Fault Refusal := s.done (s.dev.linkLost)

/-- D2D_RETRAIN_TIMEOUT (R514). -/
def execD2dRetrainTimeout (s : State) : Host.Outcome State Fault Refusal := s.done (s.dev.linkTimeout)

/-- VHV_LOW_CHANGE (R502). -/
def execVhvLowChange (low : Bool) (s : State) : Host.Outcome State Fault Refusal := s.done (s.dev.vhvLow low)

/-- DRIVERS_HELD_RECESSIVE (R518). -/
def execDriversHeldRecessive (held : Bool) (s : State) : Host.Outcome State Fault Refusal :=
  s.done (s.dev.recessive held)

/-- D2D_LINK_UP (R514). -/
def execD2dLinkUp (s : State) : Host.Outcome State Fault Refusal := s.done (s.dev.linkBack)

/-- INH_DRIVEN_ACTIVE (R510). -/
def execInhDrivenActive (s : State) : Host.Outcome State Fault Refusal := s.done (s.dev.inhActive)

end Sys2Proof.Machine
end

