-- ==== Sys2Proof/Machine/RegRows.lean ====
section
/-!
DEFINITION. The commands that are register accesses: each a write or a read by a master, with the rights, power and lock rules of chapter 15 and the effect of the owning chapter.
-/
namespace Sys2Proof.Machine

/-- A write of `MDIO_CMD` with GO = 1 (R265). -/
def Dev.mdioGo (d : Dev) (master op bus phy dev : Nat) : Dev :=
  d.write master R.ETHC_MDIO_CMD (bus + 2 * op + 8 * phy + 256 * dev + 0x80000000)

/-- A write of `PERT_INJ` with GO = 1, and the accesses that meet the injected errors (R471). -/
def Dev.pertInject (d : Dev) (master block kind target count : Nat) (entries : List Nat) : Dev :=
  let d1 := d.write master (R.FLT_PERT_INJ block) (kind + 16 * target + 256 * count + 0x80000000)
  if d1.flag (F.FLT_PERT_INJ_GO block) then d1.pertReads block entries else d1

/-- REGISTER_WRITE (R440). -/
def execRegisterWrite (master : Fin 4) (req : BusReq) (value : Nat) (s : State) : Host.Outcome State Fault Refusal :=
  s.done (s.dev.writeReq master req value)

/-- LO_WORD_READ (R441). -/
def execLoWordRead (master : Fin 4) (req : BusReq) (s : State) : Host.Outcome State Fault Refusal :=
  s.done (s.dev.readReq master req)

/-- LO_WORD_WRITE (R442). -/
def execLoWordWrite (master : Fin 4) (addr value : Nat) (s : State) : Host.Outcome State Fault Refusal :=
  s.done (s.dev.write master addr value)

/-- HI_WORD_WRITE (R442). -/
def execHiWordWrite (master : Fin 4) (addr value : Nat) (s : State) : Host.Outcome State Fault Refusal :=
  s.done (s.dev.write master addr value)

/-- RC_FIELD_READ (R12). -/
def execRcFieldRead (master : Fin 4) (addr : Nat) (s : State) : Host.Outcome State Fault Refusal :=
  s.done (s.dev.read master addr)

/-- IND_DATA_READ (R446). -/
def execIndDataRead (master : Fin 4) (s : State) : Host.Outcome State Fault Refusal :=
  s.done (s.dev.read master R.GLOBAL_IND_DATA)

/-- IND_DATA_WRITE (R446). -/
def execIndDataWrite (master : Fin 4) (value : Nat) (s : State) : Host.Outcome State Fault Refusal :=
  s.done (s.dev.write master R.GLOBAL_IND_DATA value)

/-- PREFETCH_DISCARD (R447). -/
def execPrefetchDiscard (master : Fin 4) (s : State) : Host.Outcome State Fault Refusal :=
  s.done (s.dev.prefetchDiscard master)

/-- DELAYED_READ_DISCARD (R448). -/
def execDelayedReadDiscard (s : State) : Host.Outcome State Fault Refusal := s.done (s.dev.delayedDiscard)

/-- ACCESS_STALL_TIMEOUT (R444). -/
def execAccessStallTimeout (master : Fin 4) (addr : Nat) (write : Bool) (s : State) : Host.Outcome State Fault Refusal :=
  s.done (s.dev.stallTimeout master addr write)

/-- POSTED_WRITE_FAIL (R453). -/
def execPostedWriteFail (master : Fin 4) (addr : Nat) (s : State) : Host.Outcome State Fault Refusal :=
  s.done (s.dev.postedFail master addr)

/-- TMR_CORRECTION (R449). -/
def execTmrCorrection (addr : Nat) (s : State) : Host.Outcome State Fault Refusal := s.done (s.dev.tmrCorrect addr)

/-- COUNTER_CLEAR (R127). -/
def execCounterClear (master : Fin 4) (port : Fin 64) (all : Bool) (s : State) : Host.Outcome State Fault Refusal :=
  s.done (s.dev.write master R.FWD_CNT_CLR (port + 64 * b2n all + 0x80000000))

/-- TBL_WINDOW_READ (R156). -/
def execTblWindowRead (master : Fin 4) (table : Fin 16) (pipeB : Bool) (chunk : Fin 64) (s : State) : Host.Outcome State Fault Refusal :=
  s.done (s.dev.write master R.TBL_WIN_CTRL (table + 16 * b2n pipeB + 32 * chunk + 0x80000000))

/-- STE_MEM_READ (R188). -/
def execSteMemRead (master : Fin 4) (s : State) : Host.Outcome State Fault Refusal :=
  s.done (s.dev.write master R.STE_MEM_CMD 0x80000000)

/-- STE_MEM_WRITE (R188). -/
def execSteMemWrite (master : Fin 4) (s : State) : Host.Outcome State Fault Refusal :=
  s.done (s.dev.write master R.STE_MEM_CMD 0x80000001)

/-- CAN_LEAVE_INIT (R197). -/
def execCanLeaveInit (master : Fin 4) (ctl : Fin 20) (s : State) : Host.Outcome State Fault Refusal :=
  s.done (s.dev.writeFields master (R.CAN_CTRL ctl) [(F.CAN_CTRL_INIT ctl, 0)])

/-- CAN_ENTER_INIT (R206). -/
def execCanEnterInit (master : Fin 4) (ctl : Fin 20) (s : State) : Host.Outcome State Fault Refusal :=
  s.done (s.dev.writeFields master (R.CAN_CTRL ctl) [(F.CAN_CTRL_INIT ctl, 1)])

/-- RATE_DET_START (R195). -/
def execRateDetStart (master : Fin 4) (ctl : Fin 20) (s : State) : Host.Outcome State Fault Refusal :=
  s.done (s.dev.writeFields master (R.CAN_CTRL ctl) [(F.CAN_CTRL_RATE_DET ctl, 1)])

/-- CAN_RECOVER (R206). -/
def execCanRecover (master : Fin 4) (ctl : Fin 20) (s : State) : Host.Outcome State Fault Refusal :=
  s.done (s.dev.writeFields master (R.CAN_CTRL ctl) [(F.CAN_CTRL_RECOVER ctl, 1)])

/-- SUSPEND_RELEASE_HOST (R211). -/
def execSuspendReleaseHost (master : Fin 4) (ctl : Fin 20) (tracker : Fin 8) (s : State) : Host.Outcome State Fault Refusal :=
  s.done (s.dev.write master (R.CAN_TRACK ctl tracker) 0x80000000)

/-- LIN_SCHEDULE_START (R218). -/
def execLinScheduleStart (master : Fin 4) (port : Fin 8) (s : State) : Host.Outcome State Fault Refusal :=
  s.done (s.dev.writeFields master (R.LIN_CTRL port) [(F.LIN_CTRL_RUN port, 1)])

/-- LIN_SCHEDULE_STOP (R218). -/
def execLinScheduleStop (master : Fin 4) (port : Fin 8) (s : State) : Host.Outcome State Fault Refusal :=
  s.done (s.dev.writeFields master (R.LIN_CTRL port) [(F.LIN_CTRL_RUN port, 0)])

/-- LIN_MEM_READ (R229). -/
def execLinMemRead (master : Fin 4) (port : Fin 8) (s : State) : Host.Outcome State Fault Refusal :=
  s.done (s.dev.write master (R.LIN_MEM_CMD port) 0x80000000)

/-- LIN_MEM_WRITE (R229). -/
def execLinMemWrite (master : Fin 4) (port : Fin 8) (s : State) : Host.Outcome State Fault Refusal :=
  s.done (s.dev.write master (R.LIN_MEM_CMD port) 0x80000001)

/-- XCVR_CAN_MODE_WRITE (R225). -/
def execXcvrCanModeWrite (master : Fin 4) (ctl : Fin 12) (mode : Fin 8) (s : State) : Host.Outcome State Fault Refusal :=
  s.done (s.dev.writeFields master (R.PWR_XCVR_CAN ctl) [(F.PWR_XCVR_CAN_MODE ctl, mode)])

/-- XCVR_LIN_MODE_WRITE (R225). -/
def execXcvrLinModeWrite (master : Fin 4) (port : Fin 8) (mode : Fin 4) (pullup : Bool) (s : State) : Host.Outcome State Fault Refusal :=
  s.done (s.dev.writeFields master (R.PWR_XCVR_LIN port) [(F.PWR_XCVR_LIN_MODE port, mode), (F.PWR_XCVR_LIN_CMD_PU port, b2n pullup)])

/-- MDIO_C22_WRITE (R265). -/
def execMdioC22Write (master : Fin 4) (bus : Fin 2) (phy dev : Fin 32) (s : State) : Host.Outcome State Fault Refusal :=
  s.done (s.dev.mdioGo master 0 bus phy dev)

/-- MDIO_C22_READ (R265). -/
def execMdioC22Read (master : Fin 4) (bus : Fin 2) (phy dev : Fin 32) (s : State) : Host.Outcome State Fault Refusal :=
  s.done (s.dev.mdioGo master 1 bus phy dev)

/-- MDIO_C45_WRITE (R265). -/
def execMdioC45Write (master : Fin 4) (bus : Fin 2) (phy dev : Fin 32) (s : State) : Host.Outcome State Fault Refusal :=
  s.done (s.dev.mdioGo master 2 bus phy dev)

/-- MDIO_C45_READ (R265). -/
def execMdioC45Read (master : Fin 4) (bus : Fin 2) (phy dev : Fin 32) (s : State) : Host.Outcome State Fault Refusal :=
  s.done (s.dev.mdioGo master 3 bus phy dev)

/-- RECIPE_MEM_READ (R266). -/
def execRecipeMemRead (master : Fin 4) (s : State) : Host.Outcome State Fault Refusal :=
  s.done (s.dev.write master R.ETHC_MEM_CMD 0x80000000)

/-- RECIPE_MEM_WRITE (R266). -/
def execRecipeMemWrite (master : Fin 4) (s : State) : Host.Outcome State Fault Refusal :=
  s.done (s.dev.write master R.ETHC_MEM_CMD 0x80000001)

/-- TIME_INCR_WRITE (R269). -/
def execTimeIncrWrite (master : Fin 4) (value : Nat) (s : State) : Host.Outcome State Fault Refusal :=
  s.done ((s.dev.write master R.TIME_INCR (value % 2 ^ 32)).write master (R.TIME_INCR + 4) (value / 2 ^ 32))

/-- TIME_SLEW_START (R272). -/
def execTimeSlewStart (master : Fin 4) (ppm : Fin 1024) (s : State) : Host.Outcome State Fault Refusal :=
  s.done (s.dev.write master R.TIME_SLEW_CTRL (ppm + 0x80000000))

/-- TIME_STEP (R273). -/
def execTimeStep (master : Fin 4) (rel : Bool) (s : State) : Host.Outcome State Fault Refusal :=
  s.done (s.dev.write master R.TIME_STEP_CTRL (b2n rel + 0x80000000))

/-- AON_SNAPSHOT (R279): a write of GO, which the next tick edge ends. -/
def execAonSnapshot (master : Fin 4) (s : State) : Host.Outcome State Fault Refusal :=
  s.done (s.dev.write master R.TIME_AON_SNAP 1)

/-- GPTP_ENABLE (R280). -/
def execGptpEnable (master : Fin 4) (en : Bool) (s : State) : Host.Outcome State Fault Refusal :=
  s.done (s.dev.writeFields master R.TIME_CTRL [(F.TIME_CTRL_EN, b2n en)])

/-- XPT_MEM_READ (R294). -/
def execXptMemRead (master : Fin 4) (s : State) : Host.Outcome State Fault Refusal :=
  s.done (s.dev.write master R.XPT_MEM_CMD 0x80000000)

/-- XPT_MEM_WRITE (R294). -/
def execXptMemWrite (master : Fin 4) (s : State) : Host.Outcome State Fault Refusal :=
  s.done (s.dev.write master R.XPT_MEM_CMD 0x80000001)

/-- CACHE_FLUSH (R319). -/
def execCacheFlush (master : Fin 4) (s : State) : Host.Outcome State Fault Refusal :=
  s.done (s.dev.write master R.CRY_CACHE_CTRL 1)

/-- CRY_MEM_READ (R331). -/
def execCryMemRead (master : Fin 4) (s : State) : Host.Outcome State Fault Refusal :=
  s.done (s.dev.write master R.CRY_MEM_CMD 0x80000000)

/-- CRY_MEM_WRITE (R331). -/
def execCryMemWrite (master : Fin 4) (s : State) : Host.Outcome State Fault Refusal :=
  s.done (s.dev.write master R.CRY_MEM_CMD 0x80000001)

/-- MACSEC_TX_SELECT (R336). -/
def execMacsecTxSelect (master : Fin 4) (port : Fin 12) (chan : Fin 1024) (valid : Bool) (s : State) : Host.Outcome State Fault Refusal :=
  s.done (s.dev.write master (R.CRY_MACSEC_TX port) (chan + 0x80000000 * b2n valid))

/-- PROV_NEW_NONCE (R355). -/
def execProvNewNonce (master : Fin 4) (s : State) : Host.Outcome State Fault Refusal :=
  s.done (s.dev.write master R.VAULT_PROV_CTRL 1)

/-- MEASURE_EXTEND (R346). -/
def execMeasureExtend (master : Fin 4) (s : State) : Host.Outcome State Fault Refusal :=
  s.done (s.dev.write master R.VAULT_EXT_CTRL 1)

/-- MEASURE_COMMIT (R347). -/
def execMeasureCommit (master : Fin 4) (s : State) : Host.Outcome State Fault Refusal :=
  s.done (s.dev.write master R.VAULT_EXT_CTRL 2)

/-- DEBUG_NEW_NONCE (R360). -/
def execDebugNewNonce (master : Fin 4) (s : State) : Host.Outcome State Fault Refusal :=
  s.done (s.dev.write master R.VAULT_DBG_CTRL 2)

/-- DEBUG_UNLOCK (R360). -/
def execDebugUnlock (master : Fin 4) (slot : Fin 256) (s : State) : Host.Outcome State Fault Refusal :=
  s.done (s.dev.write master R.VAULT_DBG_CTRL (1 + 65536 * slot))

/-- DEBUG_RELOCK (R360). -/
def execDebugRelock (master : Fin 4) (s : State) : Host.Outcome State Fault Refusal :=
  s.done (s.dev.write master R.VAULT_DBG_CTRL 4)

/-- SEG_REQ_WRITE (R366). -/
def execSegReqWrite (master : Fin 4) (port : Fin 48) (req : Bool) (s : State) : Host.Outcome State Fault Refusal :=
  s.done (s.dev.write master (R.NM_SEG_CTRL port) (b2n req))

/-- SEG_UNMASK (R376). -/
def execSegUnmask (master : Fin 4) (port : Fin 48) (s : State) : Host.Outcome State Fault Refusal :=
  s.done (s.dev.writeFields master (R.NM_SEG_CTRL port) [(F.NM_SEG_CTRL_UNMASK port, 1)])

/-- ENTER_STANDBY (R379). -/
def execEnterStandby (master : Fin 4) (s : State) : Host.Outcome State Fault Refusal :=
  s.done (s.dev.writeFields master R.NM_PWR_CTRL [(F.NM_PWR_CTRL_STANDBY, 1)])

/-- LOAD_CMD_REG (R385). -/
def execLoadCmdReg (master : Fin 4) (ch : Fin 24) (value : Word) (s : State) : Host.Outcome State Fault Refusal :=
  s.done (s.dev.write master (R.LOAD_CH_CMD ch) value.toNat)

/-- WD_FEED (R398). -/
def execWdFeed (master : Fin 4) (key : Byte) (s : State) : Host.Outcome State Fault Refusal :=
  s.done (s.dev.write master R.LOADC_WD_FEED key.toNat)

/-- WD_RELEASE (R400). -/
def execWdRelease (master : Fin 4) (s : State) : Host.Outcome State Fault Refusal :=
  s.done (s.dev.write master R.LOADC_WD_CTRL 1)

/-- LOAD_LOCK (R401). -/
def execLoadLock (master : Fin 4) (s : State) : Host.Outcome State Fault Refusal :=
  s.done (s.dev.write master R.LOADC_LOCK 1)

/-- RING_ENABLE (R434). -/
def execRingEnable (master : Fin 4) (ring : Fin 64) (s : State) : Host.Outcome State Fault Refusal :=
  s.done (s.dev.writeFields master (R.HIF_RING_CFG ring) [(F.HIF_RING_CFG_EN ring, 1)])

/-- RING_DISABLE (R434). -/
def execRingDisable (master : Fin 4) (ring : Fin 64) (s : State) : Host.Outcome State Fault Refusal :=
  s.done (s.dev.writeFields master (R.HIF_RING_CFG ring) [(F.HIF_RING_CFG_EN ring, 0)])

/-- BLOCK_RESET (R457). -/
def execBlockReset (master : Fin 4) (block : Fin 66) (unit : Fin 16) (s : State) : Host.Outcome State Fault Refusal :=
  s.done (s.dev.write master (R.FLT_BLOCK_CTRL block) (1 + 16 * unit))

/-- FAULTN_READY (R466). -/
def execFaultnReady (master : Fin 4) (s : State) : Host.Outcome State Fault Refusal :=
  s.done (s.dev.writeFields master R.TEST_FAULTN_CTRL [(F.TEST_FAULTN_CTRL_READY, 1)])

/-- PERT_INJECT (R471). -/
def execPertInject (master : Fin 4) (block : Fin 66) (kind : Fin 4) (target : Fin 16) (count : Fin 256) (entries : List Nat) (s : State) : Host.Outcome State Fault Refusal :=
  s.done (s.dev.pertInject master block kind target count entries)

/-- PERT_ENTRY_FLIP (R471). -/
def execPertEntryFlip (master : Fin 4) (block : Fin 66) (index : Fin 1048576) (mem : Fin 16) (word : Fin 32) (s : State) : Host.Outcome State Fault Refusal :=
  s.done (s.dev.write master (R.FLT_PERT_ENT block) (index + 0x100000 * mem + 0x1000000 * word + 0x80000000))

/-- OTP_ANCHOR_BURN (R480). -/
def execOtpAnchorBurn (master : Fin 4) (slot : Fin 4) (s : State) : Host.Outcome State Fault Refusal :=
  s.done (s.dev.write master R.BOOT_OTP_ANCHOR_CTRL (slot + 0x80000000))

/-- PD_ON_REQUEST (R499). -/
def execPdOnRequest (master : Fin 4) (domains : Fin 16384) (s : State) : Host.Outcome State Fault Refusal :=
  s.done (s.dev.write master R.SUPV_PD_ON domains)

/-- MGMT_WD_FEED (R513). -/
def execMgmtWdFeed (master : Fin 4) (s : State) : Host.Outcome State Fault Refusal :=
  s.done (s.dev.write master R.SUPV_MGMT_WD_FEED 1)

end Sys2Proof.Machine
end

