-- ==== Sys2Proof/Machine/Sec.lean ====
section
/-!
DEFINITION. The commands of Crucible and the vault (chapters 10 and 11), register accesses aside.
-/
namespace Sys2Proof.Machine

/-- CIPHER (R325). -/
def execCipher (job : Fin 4) (bytes : Nat) (s : State) : Host.Outcome State Fault Refusal :=
  s.done (s.dev.cryRun job [opCipher] bytes)

/-- HASH (R322). -/
def execHash (job : Fin 4) (bytes : Nat) (s : State) : Host.Outcome State Fault Refusal :=
  s.done (s.dev.cryRun job [opHash] bytes)

/-- HMAC (R322). -/
def execHmac (job : Fin 4) (bytes : Nat) (s : State) : Host.Outcome State Fault Refusal :=
  s.done (s.dev.cryRun job [opHmac] bytes)

/-- ECDSA_VERIFY (R325). -/
def execEcdsaVerify (job : Fin 4) (bytes : Nat) (s : State) : Host.Outcome State Fault Refusal :=
  s.done (s.dev.cryRun job [opEcdsa] bytes)

/-- RANDOM (R338). -/
def execRandom (job : Fin 4) (bytes : Nat) (s : State) : Host.Outcome State Fault Refusal :=
  s.done (s.dev.cryRun job [opRandom] bytes)

/-- INSTALL_SAK (R337). -/
def execInstallSak (job : Fin 4) (s : State) : Host.Outcome State Fault Refusal := s.done (s.dev.installSak job)

/-- CRY_JOB_START (R314). -/
def execCryJobStart (s : State) : Host.Outcome State Fault Refusal := s.done (s.dev.cryStart)

/-- CRY_JOB_COMPLETE (R325). -/
def execCryJobComplete (job : Fin 4) (ue : Bool) (s : State) : Host.Outcome State Fault Refusal :=
  s.done (s.dev.cryComplete job ue)

/-- HELD_UNITS_RESUME (R327). -/
def execHeldUnitsResume (s : State) : Host.Outcome State Fault Refusal := s.done (s.dev.unitsResume)

/-- KEY_DERIVATION_DONE (R318). -/
def execKeyDerivationDone (slot : Fin 256) (s : State) : Host.Outcome State Fault Refusal :=
  s.done (s.dev.keyDerived slot)

/-- TRNG_READY (R338). -/
def execTrngReady (s : State) : Host.Outcome State Fault Refusal := s.done (s.dev.trngReady)

/-- TRNG_HEALTH_FAIL (R338). -/
def execTrngHealthFail (s : State) : Host.Outcome State Fault Refusal := s.done (s.dev.trngFail)

/-- VAULT_OP_START (R348). -/
def execVaultOpStart (s : State) : Host.Outcome State Fault Refusal := s.done (s.dev.vaultStart)

/-- KEY_UPDATE (R352). -/
def execKeyUpdate (s : State) : Host.Outcome State Fault Refusal := s.done (s.dev.keyUpdate)

/-- PROVISION (R356). -/
def execProvision (s : State) : Host.Outcome State Fault Refusal := s.done (s.dev.provision)

/-- HALLMARK (R359). -/
def execHallmark (s : State) : Host.Outcome State Fault Refusal := s.done (s.dev.hallmark)

/-- VAULT_POWER_UP (R341). -/
def execVaultPowerUp (marker : Bool) (s : State) : Host.Outcome State Fault Refusal :=
  s.done (s.dev.vaultPowerUp marker)

/-- TAMPER_INPUT (R357). -/
def execTamperInput (pin : Fin 2) (s : State) : Host.Outcome State Fault Refusal := s.done (s.dev.tamperInput pin)

/-- ISLAND_MONITOR_FAULT (R357). -/
def execIslandMonitorFault (monitor : Fin 3) (s : State) : Host.Outcome State Fault Refusal :=
  s.done (s.dev.islandFault monitor)

/-- VAULT_SUPPLY_SWITCHOVER (R529). -/
def execVaultSupplySwitchover (backup : Bool) (s : State) : Host.Outcome State Fault Refusal :=
  s.done (s.dev.set F.VAULT_STATUS_ON_VBKUP (b2n backup))

end Sys2Proof.Machine
end

