-- ==== Sys2Proof/Machine/Ste.lean ====
section
/-!
DEFINITION. The commands of the signal transplant engine (chapter 5).
-/
namespace Sys2Proof.Machine

/-- SIGNAL_ROUTES_RUN (R170). -/
def execSignalRoutesRun (s : State) : Host.Outcome State Fault Refusal := s.done (s.dev.sigNext)

/-- MONITOR_TIMEOUT (R172). -/
def execMonitorTimeout (monitor : Fin 4096) (s : State) : Host.Outcome State Fault Refusal :=
  s.done (s.dev.monTimeout monitor)

/-- CYCLIC_RELEASE (R174). -/
def execCyclicRelease (image : Fin 4352) (s : State) : Host.Outcome State Fault Refusal := s.done (s.dev.cyclic image)

/-- TRIGGERED_RELEASE (R174). -/
def execTriggeredRelease (image : Fin 4352) (s : State) : Host.Outcome State Fault Refusal :=
  s.done (s.dev.gapEnd image)

/-- INTAKE_FRAME (R167). -/
def execIntakeFrame (s : State) : Host.Outcome State Fault Refusal := s.done (s.dev.intakeNext)

/-- CONTAINER_HOLD_EXPIRY (R180). -/
def execContainerHoldExpiry (container : Fin 64) (s : State) : Host.Outcome State Fault Refusal :=
  s.done (s.dev.holdEnd container)

/-- EVENT_PDU_RELEASE (R185). -/
def execEventPduRelease (s : State) : Host.Outcome State Fault Refusal := s.done (s.dev.eventRelease)

end Sys2Proof.Machine
end

