-- ==== Sys2Proof/Machine/Tbl.lean ====
section
/-!
DEFINITION. The commands of the tables (chapter 4).
-/
namespace Sys2Proof.Machine

/-- TBL_OP_START (R136). -/
def execTblOpStart (s : State) : Host.Outcome State Fault Refusal := s.done (s.dev.tblStart)

/-- TBL_WRITE (R137). -/
def execTblWrite (entries : Nat) (s : State) : Host.Outcome State Fault Refusal := s.done (s.dev.tblWrite entries)

/-- TBL_READ (R139). -/
def execTblRead (entries : Nat) (s : State) : Host.Outcome State Fault Refusal := s.done (s.dev.tblRead entries)

/-- FDB_INSERT (R140). -/
def execFdbInsert (s : State) : Host.Outcome State Fault Refusal := s.done (s.dev.fdbOp [3] 0)

/-- FDB_DELETE (R141). -/
def execFdbDelete (s : State) : Host.Outcome State Fault Refusal := s.done (s.dev.fdbOp [4] 0)

/-- FDB_FLUSH (R141). -/
def execFdbFlush (sets : Nat) (s : State) : Host.Outcome State Fault Refusal := s.done (s.dev.fdbOp [5] sets)

/-- FDB_OP_RING60_ROOM (R142). -/
def execFdbOpRing60Room (sets : Nat) (s : State) : Host.Outcome State Fault Refusal :=
  s.done (s.dev.fdbOp [3, 4, 5] sets)

/-- TBL_WRITE_RESUME (R138). -/
def execTblWriteResume (entries : Nat) (s : State) : Host.Outcome State Fault Refusal :=
  s.done (s.dev.tblWrite entries)

/-- BURNISHER_VISIT (R148). -/
def execBurnisherVisit (pipe : Fin 2) (s : State) : Host.Outcome State Fault Refusal := s.done (s.dev.burnVisit pipe)

/-- ASSAY_PASS_START (R152). -/
def execAssayPassStart (s : State) : Host.Outcome State Fault Refusal := s.done (s.dev.assayStart)

/-- ASSAY_COMPARE (R153). -/
def execAssayCompare (units : Nat) (s : State) : Host.Outcome State Fault Refusal := s.done (s.dev.assayCompare units)

end Sys2Proof.Machine
end

