-- ==== Sys2Proof/Machine/Time.lean ====
section
/-!
DEFINITION. The commands of the device time unit (chapter 8).
-/
namespace Sys2Proof.Machine

/-- TIME_SLEW_END (R272). -/
def execTimeSlewEnd (s : State) : Host.Outcome State Fault Refusal := s.done (s.dev.slewFinish)

/-- GPTP_SYNC_RX (R284). -/
def execGptpSyncRx (s : State) : Host.Outcome State Fault Refusal := s.done (s.dev.syncRx)

/-- GPTP_SYNC_TX (R281). -/
def execGptpSyncTx (port : Fin 12) (s : State) : Host.Outcome State Fault Refusal := s.done (s.dev.syncTx port)

/-- SYNC_RECEIPT_TIMEOUT (R283). -/
def execSyncReceiptTimeout (s : State) : Host.Outcome State Fault Refusal := s.done (s.dev.syncTimeout)

/-- HOLDOVER_EXPIRY (R283). -/
def execHoldoverExpiry (s : State) : Host.Outcome State Fault Refusal := s.done (s.dev.holdoverEnd)

/-- PDELAY_REQ_TX (R281). -/
def execPdelayReqTx (port : Fin 12) (s : State) : Host.Outcome State Fault Refusal := s.done (s.dev.pdelayReq port)

/-- PDELAY_REQ_RX (R281). -/
def execPdelayReqRx (s : State) : Host.Outcome State Fault Refusal := s.done (s.dev.pdelayAnswer)

/-- PDELAY_RESP_RX (R281). -/
def execPdelayRespRx (port : Fin 12) (s : State) : Host.Outcome State Fault Refusal := s.done (s.dev.pdelayTake port)

/-- PPS_OUT_PULSE (R288). -/
def execPpsOutPulse (s : State) : Host.Outcome State Fault Refusal := s.done (s.dev.ppsPulse)

/-- PPS_OUT_END (R288). -/
def execPpsOutEnd (s : State) : Host.Outcome State Fault Refusal := s.done (s.dev.ppsOutEnd)

/-- PPS_IN_EDGE (R289). -/
def execPpsInEdge (falling held : Bool) (s : State) : Host.Outcome State Fault Refusal :=
  s.done (s.dev.ppsEdge falling held)

/-- PPS_IN_LOST (R289). -/
def execPpsInLost (s : State) : Host.Outcome State Fault Refusal := s.done (s.dev.ppsMissing)

end Sys2Proof.Machine
end

