-- ==== Sys2Proof/Machine/Xpt.lean ====
section
/-!
DEFINITION. The commands of the transport engine (chapter 9).
-/
namespace Sys2Proof.Machine

/-! ### Timers (R298) -/

/-- The pipeline reads the records of port `p`'s field ingress queue whose frames were valid no later than `t`, in order. -/
def Dev.fqServeUpTo (d : Dev) (p t : Nat) : Dev :=
  ((d.fq (fqOf p)).takeWhile (fun r => decide (r.start ≤ t))).foldl (fun d _ => d.fqRead (fqOf p) false) d

/-- The frames that became valid no later than `t` and still wait, in the port's ingress queue or for the engine, are served first:
they arrive in time (R298; DEDUCED, log 85). -/
def Dev.xptServeUpTo (dd : Dev) (p t : Nat) : Dev :=
  let d := dd.fqServeUpTo p t
  let early (x : XptIn) : Bool := decide (x.valid ≤ t)
  (d.xpt.inq.filter early).foldl (fun d x => if d.xptRuns then d.xptTake x else d)
    { d with xpt := { d.xpt with inq := d.xpt.inq.filter (fun x => !early x) } }

/-- A running timer of a session in one of the given states reaches its expiry; a paused sequencer does not act on it, and a frame
that arrived in time may stop it (R297, R298, R306, R309). -/
def Dev.xptTimer (dd : Dev) (k : Nat) (states : List Nat) : Dev :=
  let d := if (dd.heldBy k).isSome then dd else dd.sessTouch k
  let due (d : Dev) : Option Nat := match d.sess k with
    | some s => if states.contains s.state && !d.seqPaused s then s.dl else none
    | none => none
  match due d with
  | some t =>
    let d1 := (d.reachDtime t).xptServeUpTo (cnPort (d.conn (k / 2))) t
    if due d1 == some t then d1.xptExpire k else d1
  | none => d

/-! ### The commands -/

/-- XPT_FRAME_RX (R306). -/
def execXptFrameRx (s : State) : Host.Outcome State Fault Refusal := s.done (s.dev.xptFrameNext)

/-- XPT_PDU_RX (R304). -/
def execXptPduRx (s : State) : Host.Outcome State Fault Refusal := s.done (s.dev.xptPduNext)

/-- XPT_SEND (R302). -/
def execXptSend (s : State) : Host.Outcome State Fault Refusal := s.done (s.dev.xptSend)

/-- XPT_CF_SEND (R298). -/
def execXptCfSend (conn : Fin 1024) (s : State) : Host.Outcome State Fault Refusal :=
  s.done (s.dev.xptCf (txKey conn))

/-- XPT_FRAME_REOFFER (R299). -/
def execXptFrameReoffer (session : Fin 2048) (s : State) : Host.Outcome State Fault Refusal :=
  s.done (s.dev.xptReoffer session)

/-- N_AS_EXPIRY (R306). -/
def execNAsExpiry (session : Fin 2048) (s : State) : Host.Outcome State Fault Refusal :=
  s.done (s.dev.xptTimer session [2, 3, 5, 6])

/-- N_BS_EXPIRY (R306). -/
def execNBsExpiry (conn : Fin 1024) (s : State) : Host.Outcome State Fault Refusal :=
  s.done (s.dev.xptTimer (txKey conn) [4])

/-- N_CR_EXPIRY (R306). -/
def execNCrExpiry (conn : Fin 1024) (s : State) : Host.Outcome State Fault Refusal :=
  s.done (s.dev.xptTimer (rxKey conn) [1])

/-- SEQUENCER_PAUSE (R309). -/
def execSequencerPause (seq : Fin 8) (s : State) : Host.Outcome State Fault Refusal := s.done (s.dev.seqPause seq)

/-- SEQUENCER_RESUME (R309). -/
def execSequencerResume (seq : Fin 8) (s : State) : Host.Outcome State Fault Refusal := s.done (s.dev.seqResume seq)

end Sys2Proof.Machine
end

