-- ==== Sys2Proof/Machine/Dispatch.lean ====
section
/-!
DEFINITION. The dispatch: one arm per command, each a direct call of its meaning.
-/
namespace Sys2Proof.Machine

/-- The effect of a command on the state (the queue is `step`'s). -/
def exec (i : Instr) (s : State) : Host.Outcome State Fault Refusal :=
  match i with
  | .admitReq => Sys2Proof.Machine.execAdmitReq s
  | .probe => Sys2Proof.Machine.execProbe s
  | .withdraw => Sys2Proof.Machine.execWithdraw s
  | .readMeasure => Sys2Proof.Machine.execReadMeasure s
  | .clearMeasure => Sys2Proof.Machine.execClearMeasure s
  | .readContract => Sys2Proof.Machine.execReadContract s
  | .changeGateSwitchover => Sys2Proof.Machine.execChangeGateSwitchover s
  | .changeRateFloor => Sys2Proof.Machine.execChangeRateFloor s
  | .changePortRate => Sys2Proof.Machine.execChangePortRate s
  | .changeCtThreshold => Sys2Proof.Machine.execChangeCtThreshold s
  | .changePreemption => Sys2Proof.Machine.execChangePreemption s
  | .changeDomainOff => Sys2Proof.Machine.execChangeDomainOff s
  | .changeKeyUnpin => Sys2Proof.Machine.execChangeKeyUnpin s
  | .changeKeyRekey => Sys2Proof.Machine.execChangeKeyRekey s
  | .changeBusLedger => Sys2Proof.Machine.execChangeBusLedger s
  | .changeContainer => Sys2Proof.Machine.execChangeContainer s
  | .changeMacsec => Sys2Proof.Machine.execChangeMacsec s
  | .changeLinSchedule => Sys2Proof.Machine.execChangeLinSchedule s
  | .changeBeShaper => Sys2Proof.Machine.execChangeBeShaper s
  | .anvilOpStart => Sys2Proof.Machine.execAnvilOpStart s
  | .quarantineEnd contract => Sys2Proof.Machine.execQuarantineEnd contract s
  | .ledgerHoldExpiry port => Sys2Proof.Machine.execLedgerHoldExpiry port s
  | .ethFrameRx port kind frame age plca => Sys2Proof.Machine.execEthFrameRx port kind frame age plca s
  | .cutThroughStart port frame total => Sys2Proof.Machine.execCutThroughStart port frame total s
  | .fieldQueueRead queue => Sys2Proof.Machine.execFieldQueueRead queue s
  | .pfcFrameSend port => Sys2Proof.Machine.execPfcFrameSend port s
  | .pfcRefresh port => Sys2Proof.Machine.execPfcRefresh port s
  | .pauseExpiry port priority => Sys2Proof.Machine.execPauseExpiry port priority s
  | .ethEgressSelect port toSfd bad => Sys2Proof.Machine.execEthEgressSelect port toSfd bad s
  | .ethTxComplete port fragment bad => Sys2Proof.Machine.execEthTxComplete port fragment bad s
  | .t1sTxOpportunity port burst toSfd bad => Sys2Proof.Machine.execT1sTxOpportunity port burst toSfd bad s
  | .xlCtPublish ctl frame dlen age => Sys2Proof.Machine.execXlCtPublish ctl frame dlen age s
  | .xlCtCopyStart ctl egress => Sys2Proof.Machine.execXlCtCopyStart ctl egress s
  | .cbRecoveryReset contract => Sys2Proof.Machine.execCbRecoveryReset contract s
  | .cbLatentDetect contract => Sys2Proof.Machine.execCbLatentDetect contract s
  | .counterClear master port all => Sys2Proof.Machine.execCounterClear master port all s
  | .tblOpStart => Sys2Proof.Machine.execTblOpStart s
  | .tblWrite entries => Sys2Proof.Machine.execTblWrite entries s
  | .tblRead entries => Sys2Proof.Machine.execTblRead entries s
  | .fdbInsert => Sys2Proof.Machine.execFdbInsert s
  | .fdbDelete => Sys2Proof.Machine.execFdbDelete s
  | .fdbFlush sets => Sys2Proof.Machine.execFdbFlush sets s
  | .fdbOpRing60Room sets => Sys2Proof.Machine.execFdbOpRing60Room sets s
  | .tblWriteResume entries => Sys2Proof.Machine.execTblWriteResume entries s
  | .burnisherVisit pipe => Sys2Proof.Machine.execBurnisherVisit pipe s
  | .assayPassStart => Sys2Proof.Machine.execAssayPassStart s
  | .assayCompare units => Sys2Proof.Machine.execAssayCompare units s
  | .tblWindowRead master table pipeB chunk => Sys2Proof.Machine.execTblWindowRead master table pipeB chunk s
  | .signalRoutesRun => Sys2Proof.Machine.execSignalRoutesRun s
  | .monitorTimeout monitor => Sys2Proof.Machine.execMonitorTimeout monitor s
  | .cyclicRelease image => Sys2Proof.Machine.execCyclicRelease image s
  | .triggeredRelease image => Sys2Proof.Machine.execTriggeredRelease image s
  | .intakeFrame => Sys2Proof.Machine.execIntakeFrame s
  | .containerHoldExpiry container => Sys2Proof.Machine.execContainerHoldExpiry container s
  | .eventPduRelease => Sys2Proof.Machine.execEventPduRelease s
  | .steMemRead master => Sys2Proof.Machine.execSteMemRead master s
  | .steMemWrite master => Sys2Proof.Machine.execSteMemWrite master s
  | .canLeaveInit master ctl => Sys2Proof.Machine.execCanLeaveInit master ctl s
  | .canEnterInit master ctl => Sys2Proof.Machine.execCanEnterInit master ctl s
  | .canBusIntegrated ctl => Sys2Proof.Machine.execCanBusIntegrated ctl s
  | .rateDetStart master ctl => Sys2Proof.Machine.execRateDetStart master ctl s
  | .rateDetDwellExpiry ctl => Sys2Proof.Machine.execRateDetDwellExpiry ctl s
  | .canFrameValid ctl frame age bad => Sys2Proof.Machine.execCanFrameValid ctl frame age bad s
  | .canProtocolException ctl => Sys2Proof.Machine.execCanProtocolException ctl s
  | .canArbitrationAttempt ctl bad => Sys2Proof.Machine.execCanArbitrationAttempt ctl bad s
  | .canTxComplete ctl delay => Sys2Proof.Machine.execCanTxComplete ctl delay s
  | .canBusError ctl tx code field bitPos dataPhase tail => Sys2Proof.Machine.execCanBusError ctl tx code field bitPos dataPhase tail s
  | .canRecover master ctl => Sys2Proof.Machine.execCanRecover master ctl s
  | .canBusoffRecovered ctl => Sys2Proof.Machine.execCanBusoffRecovered ctl s
  | .suspendReleaseHost master ctl tracker => Sys2Proof.Machine.execSuspendReleaseHost master ctl tracker s
  | .suspendReleaseTimeout ctl tracker => Sys2Proof.Machine.execSuspendReleaseTimeout ctl tracker s
  | .touchstoneSyncRelease => Sys2Proof.Machine.execTouchstoneSyncRelease s
  | .linScheduleStart master port => Sys2Proof.Machine.execLinScheduleStart master port s
  | .linScheduleStop master port => Sys2Proof.Machine.execLinScheduleStop master port s
  | .linSlotStart port busy bad => Sys2Proof.Machine.execLinSlotStart port busy bad s
  | .linHeaderRx port id rate age bad => Sys2Proof.Machine.execLinHeaderRx port id rate age bad s
  | .linResponseValid port id data classic age bad => Sys2Proof.Machine.execLinResponseValid port id data classic age bad s
  | .linNoResponse port => Sys2Proof.Machine.execLinNoResponse port s
  | .linError port err => Sys2Proof.Machine.execLinError port err s
  | .linMemRead master port => Sys2Proof.Machine.execLinMemRead master port s
  | .linMemWrite master port => Sys2Proof.Machine.execLinMemWrite master port s
  | .xcvrCanModeWrite master ctl mode => Sys2Proof.Machine.execXcvrCanModeWrite master ctl mode s
  | .xcvrLinModeWrite master port mode pullup => Sys2Proof.Machine.execXcvrLinModeWrite master port mode pullup s
  | .xcvrModeApplied port => Sys2Proof.Machine.execXcvrModeApplied port s
  | .txdDominantTimeout port off => Sys2Proof.Machine.execTxdDominantTimeout port off s
  | .linkUp port code => Sys2Proof.Machine.execLinkUp port code s
  | .linkDown port => Sys2Proof.Machine.execLinkDown port s
  | .gateEvent port => Sys2Proof.Machine.execGateEvent port s
  | .gateSwitchover port => Sys2Proof.Machine.execGateSwitchover port s
  | .preemptVerifySuccess port => Sys2Proof.Machine.execPreemptVerifySuccess port s
  | .preemptVerifyTimeout port => Sys2Proof.Machine.execPreemptVerifyTimeout port s
  | .lldpTx port => Sys2Proof.Machine.execLldpTx port s
  | .lldpduRx => Sys2Proof.Machine.execLldpduRx s
  | .partnerTtlExpiry port => Sys2Proof.Machine.execPartnerTtlExpiry port s
  | .stepWindowEnd port => Sys2Proof.Machine.execStepWindowEnd port s
  | .stepUpTrigger port => Sys2Proof.Machine.execStepUpTrigger port s
  | .stepCheck port => Sys2Proof.Machine.execStepCheck port s
  | .stepAnswerTimeout port => Sys2Proof.Machine.execStepAnswerTimeout port s
  | .stepHoldoffEnd port => Sys2Proof.Machine.execStepHoldoffEnd port s
  | .retrainTimeout port => Sys2Proof.Machine.execRetrainTimeout port s
  | .lpiEnter port => Sys2Proof.Machine.execLpiEnter port s
  | .beaconLost port => Sys2Proof.Machine.execBeaconLost port s
  | .beaconRegained port => Sys2Proof.Machine.execBeaconRegained port s
  | .plcaCollision port => Sys2Proof.Machine.execPlcaCollision port s
  | .mdioC22Write master bus phy dev => Sys2Proof.Machine.execMdioC22Write master bus phy dev s
  | .mdioC22Read master bus phy dev => Sys2Proof.Machine.execMdioC22Read master bus phy dev s
  | .mdioC45Write master bus phy dev => Sys2Proof.Machine.execMdioC45Write master bus phy dev s
  | .mdioC45Read master bus phy dev => Sys2Proof.Machine.execMdioC45Read master bus phy dev s
  | .mdioComplete answer => Sys2Proof.Machine.execMdioComplete answer s
  | .recipeMemRead master => Sys2Proof.Machine.execRecipeMemRead master s
  | .recipeMemWrite master => Sys2Proof.Machine.execRecipeMemWrite master s
  | .timeIncrWrite master value => Sys2Proof.Machine.execTimeIncrWrite master value s
  | .timeSlewStart master ppm => Sys2Proof.Machine.execTimeSlewStart master ppm s
  | .timeSlewEnd => Sys2Proof.Machine.execTimeSlewEnd s
  | .timeStep master rel => Sys2Proof.Machine.execTimeStep master rel s
  | .aonSnapshot master => Sys2Proof.Machine.execAonSnapshot master s
  | .gptpEnable master en => Sys2Proof.Machine.execGptpEnable master en s
  | .gptpSyncRx => Sys2Proof.Machine.execGptpSyncRx s
  | .gptpSyncTx port => Sys2Proof.Machine.execGptpSyncTx port s
  | .syncReceiptTimeout => Sys2Proof.Machine.execSyncReceiptTimeout s
  | .holdoverExpiry => Sys2Proof.Machine.execHoldoverExpiry s
  | .pdelayReqTx port => Sys2Proof.Machine.execPdelayReqTx port s
  | .pdelayReqRx => Sys2Proof.Machine.execPdelayReqRx s
  | .pdelayRespRx port => Sys2Proof.Machine.execPdelayRespRx port s
  | .ppsOutPulse => Sys2Proof.Machine.execPpsOutPulse s
  | .ppsOutEnd => Sys2Proof.Machine.execPpsOutEnd s
  | .ppsInEdge falling held => Sys2Proof.Machine.execPpsInEdge falling held s
  | .ppsInLost => Sys2Proof.Machine.execPpsInLost s
  | .xptFrameRx => Sys2Proof.Machine.execXptFrameRx s
  | .xptPduRx => Sys2Proof.Machine.execXptPduRx s
  | .xptSend => Sys2Proof.Machine.execXptSend s
  | .xptCfSend conn => Sys2Proof.Machine.execXptCfSend conn s
  | .xptFrameReoffer session => Sys2Proof.Machine.execXptFrameReoffer session s
  | .nAsExpiry session => Sys2Proof.Machine.execNAsExpiry session s
  | .nBsExpiry conn => Sys2Proof.Machine.execNBsExpiry conn s
  | .nCrExpiry conn => Sys2Proof.Machine.execNCrExpiry conn s
  | .sequencerPause seq => Sys2Proof.Machine.execSequencerPause seq s
  | .sequencerResume seq => Sys2Proof.Machine.execSequencerResume seq s
  | .xptMemRead master => Sys2Proof.Machine.execXptMemRead master s
  | .xptMemWrite master => Sys2Proof.Machine.execXptMemWrite master s
  | .cipher job bytes => Sys2Proof.Machine.execCipher job bytes s
  | .hash job bytes => Sys2Proof.Machine.execHash job bytes s
  | .hmac job bytes => Sys2Proof.Machine.execHmac job bytes s
  | .ecdsaVerify job bytes => Sys2Proof.Machine.execEcdsaVerify job bytes s
  | .random job bytes => Sys2Proof.Machine.execRandom job bytes s
  | .installSak job => Sys2Proof.Machine.execInstallSak job s
  | .cryJobStart => Sys2Proof.Machine.execCryJobStart s
  | .cryJobComplete job ue => Sys2Proof.Machine.execCryJobComplete job ue s
  | .heldUnitsResume => Sys2Proof.Machine.execHeldUnitsResume s
  | .keyDerivationDone slot => Sys2Proof.Machine.execKeyDerivationDone slot s
  | .cacheFlush master => Sys2Proof.Machine.execCacheFlush master s
  | .cryMemRead master => Sys2Proof.Machine.execCryMemRead master s
  | .cryMemWrite master => Sys2Proof.Machine.execCryMemWrite master s
  | .macsecTxSelect master port chan valid => Sys2Proof.Machine.execMacsecTxSelect master port chan valid s
  | .trngReady => Sys2Proof.Machine.execTrngReady s
  | .trngHealthFail => Sys2Proof.Machine.execTrngHealthFail s
  | .vaultOpStart => Sys2Proof.Machine.execVaultOpStart s
  | .keyUpdate => Sys2Proof.Machine.execKeyUpdate s
  | .provision => Sys2Proof.Machine.execProvision s
  | .hallmark => Sys2Proof.Machine.execHallmark s
  | .provNewNonce master => Sys2Proof.Machine.execProvNewNonce master s
  | .measureExtend master => Sys2Proof.Machine.execMeasureExtend master s
  | .measureCommit master => Sys2Proof.Machine.execMeasureCommit master s
  | .vaultPowerUp marker => Sys2Proof.Machine.execVaultPowerUp marker s
  | .tamperInput pin => Sys2Proof.Machine.execTamperInput pin s
  | .islandMonitorFault monitor => Sys2Proof.Machine.execIslandMonitorFault monitor s
  | .debugNewNonce master => Sys2Proof.Machine.execDebugNewNonce master s
  | .debugUnlock master slot => Sys2Proof.Machine.execDebugUnlock master slot s
  | .debugRelock master => Sys2Proof.Machine.execDebugRelock master s
  | .segReqWrite master port req => Sys2Proof.Machine.execSegReqWrite master port req s
  | .minAwakeExpiry port => Sys2Proof.Machine.execMinAwakeExpiry port s
  | .readyTimerExpiry port => Sys2Proof.Machine.execReadyTimerExpiry port s
  | .prepareEnd port => Sys2Proof.Machine.execPrepareEnd port s
  | .commitDone port => Sys2Proof.Machine.execCommitDone port s
  | .nmmTx port => Sys2Proof.Machine.execNmmTx port s
  | .busWake port source => Sys2Proof.Machine.execBusWake port source s
  | .wakeInEdge pin => Sys2Proof.Machine.execWakeInEdge pin s
  | .wakeConfirmTimeout port => Sys2Proof.Machine.execWakeConfirmTimeout port s
  | .sourceMaskEnd port source => Sys2Proof.Machine.execSourceMaskEnd port source s
  | .segUnmask master port => Sys2Proof.Machine.execSegUnmask master port s
  | .linHeaderTimeout port => Sys2Proof.Machine.execLinHeaderTimeout port s
  | .linWakePulseRepeat port => Sys2Proof.Machine.execLinWakePulseRepeat port s
  | .keepAwakeLimit port => Sys2Proof.Machine.execKeepAwakeLimit port s
  | .enterStandby master => Sys2Proof.Machine.execEnterStandby master s
  | .standbyWake => Sys2Proof.Machine.execStandbyWake s
  | .loadCmdReg master ch value => Sys2Proof.Machine.execLoadCmdReg master ch value s
  | .loadCmdNet => Sys2Proof.Machine.execLoadCmdNet s
  | .inrushWindowEnd ch => Sys2Proof.Machine.execInrushWindowEnd ch s
  | .deferredTurnOn => Sys2Proof.Machine.execDeferredTurnOn s
  | .currentLimit ch current => Sys2Proof.Machine.execCurrentLimit ch current s
  | .gdShortTrip ch current vds => Sys2Proof.Machine.execGdShortTrip ch current vds s
  | .gdOvercurrentTrip ch current => Sys2Proof.Machine.execGdOvercurrentTrip ch current s
  | .wireModelUpdate ch i2 current => Sys2Proof.Machine.execWireModelUpdate ch i2 current s
  | .thermalTrip ch tj dt => Sys2Proof.Machine.execThermalTrip ch tj dt s
  | .channelRetry ch tj dt => Sys2Proof.Machine.execChannelRetry ch tj dt s
  | .retryCountReset ch => Sys2Proof.Machine.execRetryCountReset ch s
  | .openLoadDetect ch current => Sys2Proof.Machine.execOpenLoadDetect ch current s
  | .groupShed group c0 c1 c2 c3 => Sys2Proof.Machine.execGroupShed group c0 c1 c2 c3 s
  | .groundLoss => Sys2Proof.Machine.execGroundLoss s
  | .groundReturn => Sys2Proof.Machine.execGroundReturn s
  | .supplyConditionChange vbat vhv => Sys2Proof.Machine.execSupplyConditionChange vbat vhv s
  | .wdFeed master key => Sys2Proof.Machine.execWdFeed master key s
  | .wdExpiry => Sys2Proof.Machine.execWdExpiry s
  | .wdRelease master => Sys2Proof.Machine.execWdRelease master s
  | .loadLock master => Sys2Proof.Machine.execLoadLock master s
  | .lhEnChange level => Sys2Proof.Machine.execLhEnChange level s
  | .lhInChange pin level => Sys2Proof.Machine.execLhInChange pin level s
  | .ptimeCorrection => Sys2Proof.Machine.execPtimeCorrection s
  | .ptimeInvalid => Sys2Proof.Machine.execPtimeInvalid s
  | .doorbellWrite ring value stores => Sys2Proof.Machine.execDoorbellWrite ring value stores s
  | .txDescFetch ring => Sys2Proof.Machine.execTxDescFetch ring s
  | .hostTxFrame ring => Sys2Proof.Machine.execHostTxFrame ring s
  | .unknownCommand => Sys2Proof.Machine.execUnknownCommand s
  | .abort => Sys2Proof.Machine.execAbort s
  | .statusProgressWrite ring idx => Sys2Proof.Machine.execStatusProgressWrite ring idx s
  | .irqModerationTimer ring => Sys2Proof.Machine.execIrqModerationTimer ring s
  | .msixUnmask vector mask => Sys2Proof.Machine.execMsixUnmask vector mask s
  | .dmaReadError kind ring idx addr => Sys2Proof.Machine.execDmaReadError kind ring idx addr s
  | .hostReset linkDown => Sys2Proof.Machine.execHostReset linkDown s
  | .ringEnable master ring => Sys2Proof.Machine.execRingEnable master ring s
  | .ringDisable master ring => Sys2Proof.Machine.execRingDisable master ring s
  | .spiFrame mosi clocks busy => Sys2Proof.Machine.execSpiFrame mosi clocks busy s
  | .registerWrite master addr value => Sys2Proof.Machine.execRegisterWrite master addr value s
  | .loWordRead master addr => Sys2Proof.Machine.execLoWordRead master addr s
  | .loWordWrite master addr value => Sys2Proof.Machine.execLoWordWrite master addr value s
  | .hiWordWrite master addr value => Sys2Proof.Machine.execHiWordWrite master addr value s
  | .indDataRead master => Sys2Proof.Machine.execIndDataRead master s
  | .indDataWrite master value => Sys2Proof.Machine.execIndDataWrite master value s
  | .prefetchDiscard master => Sys2Proof.Machine.execPrefetchDiscard master s
  | .delayedReadDiscard => Sys2Proof.Machine.execDelayedReadDiscard s
  | .accessStallTimeout master addr write => Sys2Proof.Machine.execAccessStallTimeout master addr write s
  | .postedWriteFail master addr => Sys2Proof.Machine.execPostedWriteFail master addr s
  | .tmrCorrection addr => Sys2Proof.Machine.execTmrCorrection addr s
  | .windowEventExpiry block => Sys2Proof.Machine.execWindowEventExpiry block s
  | .blockReset master block unit => Sys2Proof.Machine.execBlockReset master block unit s
  | .blockResetDone block => Sys2Proof.Machine.execBlockResetDone block s
  | .faultnReady master => Sys2Proof.Machine.execFaultnReady master s
  | .pertInject master block kind target count entries => Sys2Proof.Machine.execPertInject master block kind target count entries s
  | .pertEntryFlip master block index mem word => Sys2Proof.Machine.execPertEntryFlip master block index mem word s
  | .bootStart flashErr => Sys2Proof.Machine.execBootStart flashErr s
  | .mgmtRestart => Sys2Proof.Machine.execMgmtRestart s
  | .lockstepMismatch => Sys2Proof.Machine.execLockstepMismatch s
  | .fwPiece => Sys2Proof.Machine.execFwPiece s
  | .fwQuery => Sys2Proof.Machine.execFwQuery s
  | .fwActivate => Sys2Proof.Machine.execFwActivate s
  | .fwCancel => Sys2Proof.Machine.execFwCancel s
  | .guxiaRead msg => Sys2Proof.Machine.execGuxiaRead msg s
  | .guxiaWrite msg => Sys2Proof.Machine.execGuxiaWrite msg s
  | .guxiaFwData msg => Sys2Proof.Machine.execGuxiaFwData msg s
  | .guxiaFwQuery msg => Sys2Proof.Machine.execGuxiaFwQuery msg s
  | .guxiaFwActivate msg => Sys2Proof.Machine.execGuxiaFwActivate msg s
  | .guxiaFwCancel msg => Sys2Proof.Machine.execGuxiaFwCancel msg s
  | .neighborSolicitation src target => Sys2Proof.Machine.execNeighborSolicitation src target s
  | .flashOpComplete ok => Sys2Proof.Machine.execFlashOpComplete ok s
  | .otpAnchorBurn master slot => Sys2Proof.Machine.execOtpAnchorBurn master slot s
  | .pdOnRequest master domains => Sys2Proof.Machine.execPdOnRequest master domains s
  | .domainReady domain => Sys2Proof.Machine.execDomainReady domain s
  | .domainOffComplete domain => Sys2Proof.Machine.execDomainOffComplete domain s
  | .tileBCopyDone => Sys2Proof.Machine.execTileBCopyDone s
  | .railsGood => Sys2Proof.Machine.execRailsGood s
  | .railWarning on => Sys2Proof.Machine.execRailWarning on s
  | .brownoutHoldStart => Sys2Proof.Machine.execBrownoutHoldStart s
  | .brownoutHoldEnd => Sys2Proof.Machine.execBrownoutHoldEnd s
  | .brownoutHoldExpiry => Sys2Proof.Machine.execBrownoutHoldExpiry s
  | .coldReset por => Sys2Proof.Machine.execColdReset por s
  | .warmReset cause => Sys2Proof.Machine.execWarmReset cause s
  | .clockLoss clock => Sys2Proof.Machine.execClockLoss clock s
  | .clockReturn clock => Sys2Proof.Machine.execClockReturn clock s
  | .mgmtWdFeed master => Sys2Proof.Machine.execMgmtWdFeed master s
  | .mgmtWdExpiry => Sys2Proof.Machine.execMgmtWdExpiry s
  | .d2dLinkDown => Sys2Proof.Machine.execD2dLinkDown s
  | .d2dRetrainTimeout => Sys2Proof.Machine.execD2dRetrainTimeout s
  | .arbitrationFieldEnd ctl won => Sys2Proof.Machine.execArbitrationFieldEnd ctl won s
  | .collisionWindowExpiry ctl tracker => Sys2Proof.Machine.execCollisionWindowExpiry ctl tracker s
  | .beShaperRefill port tc toSfd bad => Sys2Proof.Machine.execBeShaperRefill port tc toSfd bad s
  | .launchTimeReached port toSfd bad => Sys2Proof.Machine.execLaunchTimeReached port toSfd bad s
  | .lpiTwEnd port toSfd bad => Sys2Proof.Machine.execLpiTwEnd port toSfd bad s
  | .pwmEdge ch => Sys2Proof.Machine.execPwmEdge ch s
  | .vhvLowChange low => Sys2Proof.Machine.execVhvLowChange low s
  | .driversHeldRecessive held => Sys2Proof.Machine.execDriversHeldRecessive held s
  | .vaultSupplySwitchover backup => Sys2Proof.Machine.execVaultSupplySwitchover backup s
  | .d2dLinkUp => Sys2Proof.Machine.execD2dLinkUp s
  | .pcieLinkUp speed width => Sys2Proof.Machine.execPcieLinkUp speed width s
  | .rcFieldRead master addr => Sys2Proof.Machine.execRcFieldRead master addr s
  | .wufFrameDecoded ctl bad => Sys2Proof.Machine.execWufFrameDecoded ctl bad s
  | .inhDrivenActive => Sys2Proof.Machine.execInhDrivenActive s
  | .reverseBattery => Sys2Proof.Machine.execReverseBattery s

end Sys2Proof.Machine
end

