-- ==== Sys2Proof/WellFormed.lean ====
section
/-!
DEFINITION. Which commands something outside the device can really send: addresses inside the register space (R435), words of
32 bits (R438), frames, messages and measured values of a form that exists. The meanings do not rest on it.
-/
namespace Sys2Proof

/-- An offset of the 64 MiB register space (R435). -/
def isAddr (a : Nat) : Bool := decide (a < 0x4000000)

/-- A request of a master: BAR2 and requests other than whole words are the host's (R438). -/
def isReq (m : Nat) (q : BusReq) : Bool :=
  (m == 0 || (!q.bar2 && q.whole)) && (if q.bar2 then decide (q.addr < 0x40000) else isAddr q.addr)

/-- A 32-bit word (R438). -/
def isWord (x : Nat) : Bool := decide (x < 2 ^ 32)

/-- Bytes of one frame on an Ethernet link. -/
def isFrame (bs : List Byte) : Bool := decide (1 ≤ bs.length) && decide (bs.length < 65536)

/-- A junction temperature that 8 bits hold (Table LOAD-9). -/
def isTemp (t : Int) : Bool := decide (-128 ≤ t) && decide (t < 128)

/-- A wake source of Table NM-5. -/
def isSource (s : Fin 9) : Bool := s.val != 0

/-- A UDP payload that can hold a Guxia header (R490). -/
def isGuxia (m : List Byte) : Bool := decide (12 ≤ m.length) && decide (m.length ≤ 1452)

/-- TYPE of a Guxia message. -/
def guxiaType (m : List Byte) : Nat := ((m[1]?).getD 0).toNat

/-- A frame that CAN can carry (Table CAN-1): an identifier of 29 bits at most, data of 2,048 B at most. -/
def CanFrame.wf (f : CanFrame) : Bool :=
  decide (f.form < 5) && decide (f.id < 2 ^ 29) && decide (f.data.length ≤ 2048) && decide (f.sdt < 256) && decide (f.vcid < 256)
    && decide (f.af < 2 ^ 32)

/-- A command that can be sent. -/
def Instr.wf (i : Instr) : Bool :=
  match i with
  | .admitReq => true
  | .probe => true
  | .withdraw => true
  | .readMeasure => true
  | .clearMeasure => true
  | .readContract => true
  | .changeGateSwitchover => true
  | .changeRateFloor => true
  | .changePortRate => true
  | .changeCtThreshold => true
  | .changePreemption => true
  | .changeDomainOff => true
  | .changeKeyUnpin => true
  | .changeKeyRekey => true
  | .changeBusLedger => true
  | .changeContainer => true
  | .changeMacsec => true
  | .changeLinSchedule => true
  | .changeBeShaper => true
  | .anvilOpStart => true
  | .quarantineEnd _ => true
  | .ledgerHoldExpiry _ => true
  | .ethFrameRx _ _ frame _ _ => isFrame frame
  | .cutThroughStart _ frame total => isFrame frame && decide (frame.length ≤ total.total)
  | .fieldQueueRead _ => true
  | .pfcFrameSend _ => true
  | .pfcRefresh _ => true
  | .pauseExpiry _ _ => true
  | .ethEgressSelect _ _ _ => true
  | .ethTxComplete _ _ _ => true
  | .t1sTxOpportunity _ _ _ _ => true
  | .xlCtPublish _ frame dlen _ => frame.wf && decide (dlen ≤ 2048) && decide (frame.data.length ≤ dlen)
  | .xlCtCopyStart _ _ => true
  | .cbRecoveryReset _ => true
  | .cbLatentDetect _ => true
  | .counterClear _ port all => all || decide (port.val < 48)
  | .tblOpStart => true
  | .tblWrite _ => true
  | .tblRead _ => true
  | .fdbInsert => true
  | .fdbDelete => true
  | .fdbFlush _ => true
  | .fdbOpRing60Room _ => true
  | .tblWriteResume _ => true
  | .burnisherVisit _ => true
  | .assayPassStart => true
  | .assayCompare _ => true
  | .tblWindowRead _ _ _ _ => true
  | .signalRoutesRun => true
  | .monitorTimeout _ => true
  | .cyclicRelease _ => true
  | .triggeredRelease _ => true
  | .intakeFrame => true
  | .containerHoldExpiry _ => true
  | .eventPduRelease => true
  | .steMemRead _ => true
  | .steMemWrite _ => true
  | .canLeaveInit _ _ => true
  | .canEnterInit _ _ => true
  | .canBusIntegrated _ => true
  | .rateDetStart _ _ => true
  | .rateDetDwellExpiry _ => true
  | .canFrameValid _ frame _ _ => frame.wf
  | .canProtocolException _ => true
  | .canArbitrationAttempt _ _ => true
  | .canTxComplete _ _ => true
  | .canBusError _ _ _ _ _ _ _ => true
  | .canRecover _ _ => true
  | .canBusoffRecovered _ => true
  | .suspendReleaseHost _ _ _ => true
  | .suspendReleaseTimeout _ _ => true
  | .touchstoneSyncRelease => true
  | .linScheduleStart _ _ => true
  | .linScheduleStop _ _ => true
  | .linSlotStart _ _ _ => true
  | .linHeaderRx _ _ _ _ _ => true
  | .linResponseValid _ _ data _ _ _ => decide (1 ≤ data.length) && decide (data.length ≤ 8)
  | .linNoResponse _ => true
  | .linError _ _ => true
  | .linMemRead _ _ => true
  | .linMemWrite _ _ => true
  | .xcvrCanModeWrite _ _ _ => true
  | .xcvrLinModeWrite _ _ _ _ => true
  | .xcvrModeApplied _ => true
  | .txdDominantTimeout _ _ => true
  | .linkUp _ _ => true
  | .linkDown _ => true
  | .gateEvent _ => true
  | .gateSwitchover _ => true
  | .preemptVerifySuccess _ => true
  | .preemptVerifyTimeout _ => true
  | .lldpTx _ => true
  | .lldpduRx => true
  | .partnerTtlExpiry _ => true
  | .stepWindowEnd _ => true
  | .stepUpTrigger _ => true
  | .stepCheck _ => true
  | .stepAnswerTimeout _ => true
  | .stepHoldoffEnd _ => true
  | .retrainTimeout _ => true
  | .lpiEnter _ => true
  | .beaconLost _ => true
  | .beaconRegained _ => true
  | .plcaCollision _ => true
  | .mdioC22Write _ _ _ _ => true
  | .mdioC22Read _ _ _ _ => true
  | .mdioC45Write _ _ _ _ => true
  | .mdioC45Read _ _ _ _ => true
  | .mdioComplete _ => true
  | .recipeMemRead _ => true
  | .recipeMemWrite _ => true
  | .timeIncrWrite _ value => decide (value < 2 ^ 64)
  | .timeSlewStart _ _ => true
  | .timeSlewEnd => true
  | .timeStep _ _ => true
  | .aonSnapshot _ => true
  | .gptpEnable _ _ => true
  | .gptpSyncRx => true
  | .gptpSyncTx _ => true
  | .syncReceiptTimeout => true
  | .holdoverExpiry => true
  | .pdelayReqTx _ => true
  | .pdelayReqRx => true
  | .pdelayRespRx _ => true
  | .ppsOutPulse => true
  | .ppsOutEnd => true
  | .ppsInEdge _ _ => true
  | .ppsInLost => true
  | .xptFrameRx => true
  | .xptPduRx => true
  | .xptSend => true
  | .xptCfSend _ => true
  | .xptFrameReoffer _ => true
  | .nAsExpiry _ => true
  | .nBsExpiry _ => true
  | .nCrExpiry _ => true
  | .sequencerPause _ => true
  | .sequencerResume _ => true
  | .xptMemRead _ => true
  | .xptMemWrite _ => true
  | .cipher _ _ => true
  | .hash _ _ => true
  | .hmac _ _ => true
  | .ecdsaVerify _ _ => true
  | .random _ _ => true
  | .installSak _ => true
  | .cryJobStart => true
  | .cryJobComplete _ _ => true
  | .heldUnitsResume => true
  | .keyDerivationDone _ => true
  | .cacheFlush _ => true
  | .cryMemRead _ => true
  | .cryMemWrite _ => true
  | .macsecTxSelect _ _ _ _ => true
  | .trngReady => true
  | .trngHealthFail => true
  | .vaultOpStart => true
  | .keyUpdate => true
  | .provision => true
  | .hallmark => true
  | .provNewNonce _ => true
  | .measureExtend _ => true
  | .measureCommit _ => true
  | .vaultPowerUp _ => true
  | .tamperInput _ => true
  | .islandMonitorFault _ => true
  | .debugNewNonce _ => true
  | .debugUnlock _ _ => true
  | .debugRelock _ => true
  | .segReqWrite _ _ _ => true
  | .minAwakeExpiry _ => true
  | .readyTimerExpiry _ => true
  | .prepareEnd _ => true
  | .commitDone _ => true
  | .nmmTx _ => true
  | .busWake _ source => isSource source
  | .wakeInEdge _ => true
  | .wakeConfirmTimeout _ => true
  | .sourceMaskEnd _ source => isSource source
  | .segUnmask _ _ => true
  | .linHeaderTimeout _ => true
  | .linWakePulseRepeat _ => true
  | .keepAwakeLimit _ => true
  | .enterStandby _ => true
  | .standbyWake => true
  | .loadCmdReg _ _ _ => true
  | .loadCmdNet => true
  | .inrushWindowEnd _ => true
  | .deferredTurnOn => true
  | .currentLimit _ _ => true
  | .gdShortTrip _ _ _ => true
  | .gdOvercurrentTrip _ _ => true
  | .wireModelUpdate _ _ _ => true
  | .thermalTrip _ tj _ => isTemp tj
  | .channelRetry _ tj _ => isTemp tj
  | .retryCountReset _ => true
  | .openLoadDetect _ _ => true
  | .groupShed _ _ _ _ _ => true
  | .groundLoss => true
  | .groundReturn => true
  | .supplyConditionChange _ _ => true
  | .wdFeed _ _ => true
  | .wdExpiry => true
  | .wdRelease _ => true
  | .loadLock _ => true
  | .lhEnChange _ => true
  | .lhInChange _ _ => true
  | .ptimeCorrection => true
  | .ptimeInvalid => true
  | .doorbellWrite _ value stores => isWord value && stores.all (fun p => decide (p.1 < 2 ^ 64))
  | .txDescFetch _ => true
  | .hostTxFrame _ => true
  | .unknownCommand => true
  | .abort => true
  | .statusProgressWrite _ idx => isWord idx
  | .irqModerationTimer _ => true
  | .msixUnmask _ _ => true
  | .dmaReadError _ _ idx addr => isWord idx && decide (addr < 2 ^ 64)
  | .hostReset _ => true
  | .ringEnable _ _ => true
  | .ringDisable _ _ => true
  | .spiFrame mosi clocks _ => mosi.length == clocks / 8
  | .registerWrite m req value => isReq m req && isWord value
  | .loWordRead m req => isReq m req
  | .loWordWrite _ addr value => isAddr addr && isWord value
  | .hiWordWrite _ addr value => isAddr addr && isWord value
  | .indDataRead _ => true
  | .indDataWrite _ value => isWord value
  | .prefetchDiscard _ => true
  | .delayedReadDiscard => true
  | .accessStallTimeout _ addr _ => isAddr addr
  | .postedWriteFail _ addr => isAddr addr && decide (0x1000000 ≤ addr) && decide (addr < 0x1100000)
  | .tmrCorrection addr => isAddr addr
  | .windowEventExpiry _ => true
  | .blockReset _ _ _ => true
  | .blockResetDone _ => true
  | .faultnReady _ => true
  | .pertInject _ _ _ _ _ _ => true
  | .pertEntryFlip _ _ _ _ _ => true
  | .bootStart _ => true
  | .mgmtRestart => true
  | .lockstepMismatch => true
  | .fwPiece => true
  | .fwQuery => true
  | .fwActivate => true
  | .fwCancel => true
  | .guxiaRead msg => isGuxia msg && !([0x02, 0x10, 0x11, 0x12, 0x13].contains (guxiaType msg))
  | .guxiaWrite msg => isGuxia msg && guxiaType msg == 0x02
  | .guxiaFwData msg => isGuxia msg && guxiaType msg == 0x10
  | .guxiaFwQuery msg => isGuxia msg && guxiaType msg == 0x11
  | .guxiaFwActivate msg => isGuxia msg && guxiaType msg == 0x12
  | .guxiaFwCancel msg => isGuxia msg && guxiaType msg == 0x13
  | .neighborSolicitation src target => src.length == 16 && target.length == 16
  | .flashOpComplete _ => true
  | .otpAnchorBurn _ _ => true
  | .pdOnRequest _ _ => true
  | .domainReady domain => domain.val != 0
  | .domainOffComplete domain => domain.val != 0
  | .tileBCopyDone => true
  | .railsGood => true
  | .railWarning _ => true
  | .brownoutHoldStart => true
  | .brownoutHoldEnd => true
  | .brownoutHoldExpiry => true
  | .coldReset _ => true
  | .warmReset cause => [3, 4, 5, 6].contains cause.val
  | .clockLoss _ => true
  | .clockReturn _ => true
  | .mgmtWdFeed _ => true
  | .mgmtWdExpiry => true
  | .d2dLinkDown => true
  | .d2dRetrainTimeout => true
  | .arbitrationFieldEnd _ _ => true
  | .collisionWindowExpiry _ _ => true
  | .beShaperRefill _ _ _ _ => true
  | .launchTimeReached _ _ _ => true
  | .lpiTwEnd _ _ _ => true
  | .pwmEdge _ => true
  | .vhvLowChange _ => true
  | .driversHeldRecessive _ => true
  | .vaultSupplySwitchover _ => true
  | .d2dLinkUp => true
  | .pcieLinkUp speed width => decide (1 ≤ speed) && decide (speed < 16) && decide (1 ≤ width) && decide (width < 64)
  | .rcFieldRead _ addr => isAddr addr
  | .wufFrameDecoded _ _ => true
  | .inhDrivenActive => true
  | .reverseBattery => true

end Sys2Proof
end

