-- ==== Sys2Proof/Safety.lean ====
section
/-!
DEFINITION. What counts as a sound state and a safe run: sparse stores in their one canonical form, no reaction left over between
steps, and only commands in the queue that something outside the device can send.
-/
namespace Sys2Proof.Machine

/-- Registers, tables and host memory hold their canonical form. -/
def Dev.stores (d : Dev) : Bool :=
  SMap.wf regDefault d.regs && SMap.wf (fun _ => 0) d.tbl && Memory.wf d.hostMem

/-- Between steps no reaction waits (R463: a block's reactions are applied at once), and every waiting command can be sent. -/
def State.sound (s : State) : Bool := s.dev.flt.todo.isEmpty && s.pending.all Instr.wf

/-- No reaction waits: the state between steps. -/
def Dev.quiet (d : Dev) : Prop := d.flt.todo = []

/-- The device as an access finds it whose messages take `n` flits: the safety port has sent the address (R446), the die link is free
(R443). -/
def Dev.beforeAccess (d : Dev) (master a n : Nat) : Dev := (d.viaInd master a).linkUse a n

/-- A write of a master at an address reaches its register: the master's path has power, the die link does not stall it, the address is
a register of a block that is on once the link is free and none that the safety port cannot name, and the master may write there (R6,
R432, R437, R443 to R446). -/
def Dev.opens (d : Dev) (master a : Nat) : Prop :=
  d.pathUp master = true ∧ d.linkStall a = false ∧ indBarred master a = false
    ∧ ((d.beforeAccess master a 1).regAt a).isSome = true ∧ (d.beforeAccess master a 1).mayWrite master a = true

/-- A write is numbered in the PWR window (R453), and prefetched copies of its address are gone (R447). -/
def Dev.numberWrite (d : Dev) (a : Nat) : Dev := (d.postNumber a).unfetch a

/-- The device as a permitted write finds it, the write numbered. -/
def Dev.beforeWrite (d : Dev) (master a : Nat) : Dev := (d.beforeAccess master a 1).numberWrite a

/-- From one state of the device to another no register but those at the listed addresses changes. -/
def Dev.regsOnly (d e : Dev) (s : List Nat) : Prop := ∀ a, a ∉ s → e.reg a = d.reg a

/-- The registers of load channel `i` that show its state, its measured values, its faults and its trips. -/
def chanRegs (i : Nat) : List Nat :=
  [R.LOAD_CH_STATUS i, R.LOAD_CH_FAULT i, R.LOAD_CH_THETA i, R.LOAD_CH_MEAS i, R.LOAD_TRIPS i]

/-- The registers in which the load side's events show: the index of ring 63, what was lost of it, LOAD's status bits, the same of
the event frames, and the die link's retries. -/
def loadEventRegs : List Nat :=
  [R.HIF_DEV_INDEX 63, R.LOADC_EV_LOST, R.FLT_FAULT_STATUS blkLoad, R.STE_EVF_LOST, R.FLT_FAULT_STATUS blkSte, R.PWR_D2D_RETRIES]

/-- The registers that a happening of block `b` can change: its status, counts, window and capture, the totals and the hold of FAULT_N,
the index of ring 61 and what was lost of it; an isolated HOSTIF also halts its rings. -/
def faultRegs (b : Nat) : List Nat :=
  [R.FLT_FAULT_STATUS b, R.FLT_EVT_TOTAL b, R.FLT_EVT_COUNT b, R.FLT_SEV_COUNT b, R.FLT_FEC_INFO b, R.FLT_FEC_ADDR b, R.FLT_FEC_TIME b,
    R.FLT_FEC_TIME b + 4, R.FLT_FEC_LOST b, R.TEST_SEV_TOTAL, R.TEST_FN_HOLD (b / 32), R.HIF_DEV_INDEX 61, R.TEST_EV61_LOST,
    R.FLT_FAULT_STATUS blkTest]
  ++ if b = blkHost then (List.range 64).map R.HIF_RING_STATUS else []

/-- A channel has been turned off by a trip (R393): LATCHED with POLICY LATCH, else FAULT_OFF; its output is off, nothing of it is
pending, the code and the instant are kept, and every other channel is as it was. -/
def Dev.tripped (d e : Dev) (i code : Nat) : Prop :=
  (e.ch i).run = (if d.get (F.LOAD_CH_CFG_POLICY i) = 2 then Run.latched else Run.faultOff)
    ∧ (e.ch i).out = false ∧ (e.ch i).winEnd = none ∧ (e.ch i).pend = none ∧ (e.ch i).code = code
    ∧ ∀ j, j ≠ i → e.ch j = d.ch j

/-- A run of `n` steps from `s` that never stops. -/
def State.runs (s : State) (n : Nat) : Bool :=
  match Host.Core.run ⟨State, Fault, Refusal, step, State.reset⟩ n s with
  | .next _ => true
  | _ => false

end Sys2Proof.Machine
end

