-- ==== Sys2Proof/Certificates/Slice0/Obligations.lean ====
section
/-!
DEFINITION. The statements about the model, one proposition each; OBLIGATIONS.json says which rules of the spec they formalise.
-/
open Sys2Proof Sys2Proof.Machine

/-- Commands are taken first in, first out: a step is the front command's own effect, with the rest of the queue left waiting (the queue is the model's own, log 5). -/
def Obligations.StepRunsFront : Prop :=
  ∀ (c : Instr) (rest : List Instr) (d : Dev), step ⟨c :: rest, d⟩ = exec c ⟨rest, d⟩

/-- The model's choice of log 5: time passes when nothing is commanded. DTIME then takes one increment (R269). -/
def Obligations.IdleStepTicks : Prop :=
  ∀ d : Dev, ∃ t : State, step ⟨[], d⟩ = .next t ∧ t.pending = [] ∧ t.dev.now = d.now + 1
    ∧ t.dev.tbl = d.tbl ∧ t.dev.hostMem = d.hostMem ∧ t.dev.out = d.out

/-- Reset leaves every register at its Reset value (R13), nothing listed in a store, and nothing waiting. -/
def Obligations.ResetIsSound : Prop :=
  State.reset.sound = true ∧ State.reset.dev.stores = true ∧ State.reset.pending = []
    ∧ (∀ a, State.reset.dev.reg a = resetVal a % 2 ^ 32) ∧ (∀ a, State.reset.dev.hostByte a = 0)
    ∧ (∀ m c i, State.reset.dev.tget m c i = 0)

/-- No command stops the machine, none changes the queue, and the reactions a command causes (R463) are applied before it ends. -/
def Obligations.EveryCommandCompletes : Prop :=
  ∀ (c : Instr) (s : State), ∃ t : State, exec c s = .next t ∧ t.pending = s.pending ∧ t.dev.flt.todo = []

/-- The invariant that every step keeps: no reaction is left between steps (R463) and only commands that something outside the device can send wait, in their order. -/
def Obligations.StepKeepsSound : Prop :=
  ∀ s : State, (∃ t, step s = .next t ∧ t.pending = s.pending.tail)
    ∧ ∀ t, step s = .next t → s.sound = true → t.sound = true

/-- Whatever commands wait, with whatever operands, a run never stops: nothing in the spec stops the device, so no fault or refusal is reached. -/
def Obligations.EveryRunCompletes : Prop :=
  ∀ (n : Nat) (s : State), ∃ t, Host.Core.run core n s = .next t ∧ t.pending = s.pending.drop n
    ∧ (s.sound = true → t.sound = true)

/-- The decision of Anvil (R39 to R45): a contract is committed only where it and every other keep their bounds. A request by a route reads the route from table 4, whose memory errors that read reports (`routeRead`). -/
def Obligations.AdmitCommits : Prop :=
  (∀ (s : State) (d : Dev) (o : Op) (r : Nat) (k : Contract) (comp p : Nat), d = s.dev → d.anvilOp 1 = some o → r = leNat (d.hostRead o.param 64) →
      badRequest r = false → o.stop = false → d.evaluate r = .accept k comp p →
      exec .admitReq s = .next { s with dev := ((((d.routeRead r).commitAdmit d.freeIndex k).hostWrite (o.param + 64)
        (answer 0 0 d.freeIndex comp k.bound p 0xFFFF k.handles k.cells (rqTag r))).anvilEnd o d.admitted.length .done errOk).settle }
      ∧ ((d.routeRead r).commitAdmit d.freeIndex k).contract d.freeIndex = some k
      ∧ (∀ j, j ≠ d.freeIndex → ((d.routeRead r).commitAdmit d.freeIndex k).contract j = d.contract j))
  ∧ (∀ (s : State) (d : Dev) (o : Op) (r : Nat) (k : Contract) (comp p : Nat), d = s.dev → d.anvilOp 2 = some o → r = leNat (d.hostRead o.param 64) →
      badRequest r = false → o.stop = false → d.evaluate r = .accept k comp p →
      exec .probe s = .next { s with dev := (((d.routeRead r).hostWrite (o.param + 64)
        (answer 0 0 0xFFFF comp k.bound p 0xFFFF k.handles k.cells (rqTag r))).anvilEnd o d.admitted.length .done errOk).settle }
      ∧ (d.quiet → (d.routeRead r).quiet → ∃ t, exec .probe s = .next t ∧ t.dev.anvil = d.anvil ∧ t.dev.tbl = d.tbl ∧ t.dev.regs = (d.routeRead r).regs))
  ∧ (∀ (s : State) (d : Dev) (o : Op) (r : Nat) (x : Refuse) (best other : Nat), d = s.dev → d.quiet → (d.routeRead r).quiet → r = leNat (d.hostRead o.param 64) →
      badRequest r = false → o.stop = false → d.evaluate r = .refuse x best other →
      (d.anvilOp 1 = some o → ∃ t, exec .admitReq s = .next t ∧ t.dev.anvil = d.anvil ∧ t.dev.tbl = d.tbl ∧ t.dev.regs = (d.routeRead r).regs
        ∧ t.dev.host.ops = d.host.ops.filter (fun q => !q.same o))
      ∧ (d.anvilOp 2 = some o → ∃ t, exec .probe s = .next t ∧ t.dev = ((d.routeRead r).hostWrite (o.param + 64)
          (answer 1 x.reason 0xFFFF best 0 x.port other 0 0 (rqTag r))).anvilEnd o (d.reevaluated (.refuse x best other)) .failed errRefused
        ∧ t.dev.anvil = d.anvil ∧ t.dev.tbl = d.tbl ∧ t.dev.regs = (d.routeRead r).regs))
  ∧ (∀ (d : Dev) (r : Nat), (rqKeyType r ≠ 1 → d.routeRead r = d) ∧ (d.routeRead r).anvil = d.anvil ∧ (d.routeRead r).tbl = d.tbl)
  ∧ (∀ (s : State) (d : Dev) (o : Op), d = s.dev → d.quiet → d.anvilOp 1 = some o → badRequest (leNat (d.hostRead o.param 64)) = true →
      exec .admitReq s = .next { s with dev := d.opFail o errFormat })
  ∧ (∀ (d : Dev) (r : Nat) (k : Contract) (comp p : Nat), d.evaluate r = .accept k comp p →
      k.req = r ∧ k.bound = (if rqBound r = 0 then comp else rqBound r) ∧ comp ≤ k.bound
      ∧ ∀ c ∈ d.admitted, ∃ b q, d.bound (d.requests ++ [(4096, r)]) c.1 c.2.req = .ok (b, q) ∧ b ≤ c.2.bound)

/-- CHANGE (R59): Anvil evaluates the change against every admitted contract and applies it only if none exceeds its residence bound; a refused change leaves the operational copy as it was. `d1` is the device the bounds are computed in, `d2` the one that is made. -/
def Obligations.ChangesAreGuarded : Prop :=
  (∀ (d : Dev) (o : Op) (p : Nat) (d1 d2 : Dev) (x : Nat × Contract × Nat × Nat), o.stop = false → d1.broken d1.requests = some x →
      d.guarded o p d1 d2 = d.chgBreaks o x ∧ (d.guarded o p d1 d2).regs = d.regs ∧ (d.guarded o p d1 d2).tbl = d.tbl
      ∧ (d.guarded o p d1 d2).anvil = d.anvil ∧ (d.guarded o p d1 d2).pwr = d.pwr ∧ (d.guarded o p d1 d2).cry = d.cry)
  ∧ (∀ (s : State) (d d1 : Dev) (o : Op) (p : Nat), d = s.dev → o.stop = false → p = d.chgTarget o → d1.broken d1.requests = none →
      (d.change 4 = some o → p < 12 → d.chgValue o ≤ 16383 → d1 = d.set (F.FWD_CT_THRESH_THRESH p) (d.chgValue o) →
        exec .changeCtThreshold s = .next { s with dev := (d1.chgDone o p).settle }
        ∧ (d1.chgDone o p).get (F.FWD_CT_THRESH_THRESH p) = d.chgValue o)
      ∧ (∀ c, d.change 2 = some o → p < 12 → rateCode p (d.chgValue o) = some c → c ≤ d.get (F.ETH_RATE_NOM p) → d1 = d.set (F.ETH_RATE_FLOOR p) c →
        exec .changeRateFloor s = .next { s with dev := ((if d.get (F.ETH_RATE_CUR p) < c then
            d1.setEthPort p { d1.ethPort p with upReq := true } else d1).chgDone o p).settle })
      ∧ (∀ c, d.change 3 = some o → p < 12 → rateCode p (d.chgValue o) = some c → d.get (F.ETH_RATE_FLOOR p) ≤ c →
          (c < d.get (F.ETH_RATE_CUR p) → d.stepTest p c = .ok) → d1 = d.set (F.ETH_RATE_NOM p) c →
        exec .changePortRate s = .next { s with dev := ((d1.stepToNom p).chgDone o p).settle })
      ∧ (d.change 5 = some o → p < 12 → d1 = d.set (F.ETH_PREEMPT_OPER_DATA p) (d.reg (R.ETH_PREEMPT_STAGED p)) →
        exec .changePreemption s = .next { s with dev := ((d.applyPreempt p).chgDone o p).settle })
      ∧ (d.change 12 = some o → p < 20 → d.chgValue o ≤ 5 → d1 = d.shaperSwitch p (d.chgValue o) (SMap.get d.anvil.staged (0xFFFFFFFF, 0) (8 * p + d.chgValue o)) →
        exec .changeBeShaper s = .next { s with dev := (d1.chgDone o p).settle }
        ∧ SMap.get (d1.chgDone o p).anvil.oper (0xFFFFFFFF, 0) (8 * p + d.chgValue o) = SMap.get d.anvil.staged (0xFFFFFFFF, 0) (8 * p + d.chgValue o))
      ∧ (∀ l, d.change 8 = some o → 12 ≤ p → p ≤ 47 → d.chgCount o ≤ 256 →
          l = (List.range (d.chgCount o)).map (fun j => leNat (d.hostRead (d.chgAddr o + 16 * j) 16)) → l.any (badLedgerEntry p) = false →
          d1 = { d with anvil := { d.anvil with ledgers := SMap.set d.anvil.ledgers none p (some l) } } →
          (20 ≤ p → p < 40 → d1.unboundedHp d1.requests p = false) →
        exec .changeBusLedger s = .next { s with dev := (d1.chgDone o p).settle } ∧ (d1.chgDone o p).ledger p = l)
      ∧ (d.change 9 = some o → p < 64 → d1 = d.tset (steMem 5) 0 p
            (setBf (setBf (d.tget (steMem 5) 0 p) 160 16 (coThresh (d.tget (steMem 5) 0 p))) 192 32 (coHold (d.tget (steMem 5) 0 p))) →
        exec .changeContainer s = .next { s with dev := (d1.chgDone o 0xFF).settle })
      ∧ (d.change 10 = some o → p < 12 → (bit (d.chgValue o) 0 = true → d.flag (F.CRY_MACSEC_TX_VALID p) = true) →
          d1 = d.set (F.ETH_STATUS_MACSEC p) (b2n (bit (d.chgValue o) 0)) →
        exec .changeMacsec s = .next { s with dev := (d1.chgDone o p).settle }
        ∧ (d1.chgDone o p).flag (F.ETH_STATUS_MACSEC p) = bit (d.chgValue o) 0)
      ∧ (d.change 11 = some o → 40 ≤ p → p ≤ 47 → d.chgValue o ≤ 7 → bit (d.get (F.LIN_SCHED_ACTIVATABLE (p - 40))) (d.chgValue o) = true → d1 = d →
        exec .changeLinSchedule s = .next { s with dev := ((if (d.linCtl (p - 40)).running then
          d.setLinCtl (p - 40) { d.linCtl (p - 40) with next := some (d.chgValue o) } else d.set (F.LIN_STATUS_TABLE (p - 40)) (d.chgValue o)).chgDone o p).settle })
      ∧ (∀ (a : GateCfg) (t0 : Nat), d.change 1 = some o → p < 12 → a = d.gateAdmin p → d.chgValue o = a.base % 2 ^ 32 → a.cycle % 8 = 0 → 64 ≤ a.cycle → a.cycle ≤ 1000000000 →
          (a.en = true → a.len ≠ 0 ∧ a.len ≤ 1024) → d.flag (F.ETH_GATE_STATUS_PENDING p) = false → t0 = d.dtime + 100000 →
          d1 = ((d.set (F.ETH_GATE_STATUS_PENDING p) 1).set (F.ETH_GATE_CT_DTIME p)
            (if t0 ≤ a.base then a.base else a.base + ceilDiv (t0 - a.base) a.cycle * a.cycle)).setEthPort p { d.ethPort p with gateAt := d.dtime } →
        exec .changeGateSwitchover s = .next { s with dev := (d1.chgDone o p).settle })
      ∧ (d.change 6 = some o → p ≠ 0 → p ≤ 14 → p ≠ 2 → p ≠ 9 → d.domainBusy p = false → bit (d.get F.SUPV_PD_STATUS_ON) (p - 1) = true →
          d.admitted.find? (fun c => d.usesDomain c.2.req p) = none → d1 = d →
        exec .changeDomainOff s = .next { s with dev := ((d.domainOffStart p).chgDone o 0xFF).settle })
      ∧ (d.change 6 = some o → p ≠ 0 → p ≤ 14 → p ≠ 2 → p ≠ 9 → d.domainBusy p = false → bit (d.get F.SUPV_PD_STATUS_ON) (p - 1) = false →
        exec .changeDomainOff s = .next { s with dev := (d.chgApplied o 0xFF 0).settle })
      ∧ (∀ slot, d.change 7 = some o → bit (d.chgValue o) 0 = false → d.keyChange o = some slot →
          d.admitted.find? (fun c => (d.slotsOf c.2.req).contains slot) = none → d1 = d →
        exec .changeKeyUnpin s = .next { s with dev := ((d.unpinKey slot).chgDone o 0xFF).settle })
      ∧ (∀ old new, d.change 7 = some o → bit (d.chgValue o) 0 = true → d.keyChange o = some old → new = bf (d.chgValue o) 8 8 →
          (d.anvil.pinned.length < 64 ∨ d.anvil.pinned.contains new = true) → d1 = (d.pinKey new).setChan p (setBf (d.chan p) 32 8 new) →
        exec .changeKeyRekey s = .next { s with dev := ((if old == new then d1 else d1.unpinUnused old).chgDone o 0xFF).settle }))

/-- The rest of ring 56 (Table PROM-3), the quarantine (R45) and the ledger-violation flag (R69). -/
def Obligations.AnvilReadsAndEnds : Prop :=
  (∀ (s : State) (d e : Dev) (o : Op) (i : Nat) (k : Contract), d = s.dev → d.anvilOp 3 = some o → o.stop = false → d.namedContract o = some (i, k) → e = d.commitWithdraw i k →
      exec .withdraw s = .next { s with dev := ((e.hostWrite (o.param + 8) (d.contractAnswer i k)).opDone o).settle }
      ∧ e.contract i = (if d.stamped i then some { k with quar := true } else none) ∧ ∀ j, j ≠ i → e.contract j = d.contract j)
  ∧ (∀ (s : State) (d : Dev) (o : Op), d = s.dev → d.quiet → d.namedContract o = none →
      (d.anvilOp 3 = some o → exec .withdraw s = .next { s with dev := d.opFail o errFormat })
      ∧ (d.anvilOp 7 = some o → exec .readContract s = .next { s with dev := d.opFail o errFormat }))
  ∧ (∀ (s : State) (d : Dev) (o : Op) (i : Nat) (k : Contract), d = s.dev → d.quiet → d.anvilOp 7 = some o → o.stop = false → d.namedContract o = some (i, k) →
      ∃ t, exec .readContract s = .next t ∧ t.dev = (d.hostWrite (o.param + 8) (leBytes 64 k.req ++ d.contractAnswer i k)).opDone o
        ∧ t.dev.anvil = d.anvil ∧ t.dev.regs = d.regs)
  ∧ (∀ (s : State) (d : Dev) (o : Op) (first n : Nat), d = s.dev → d.measRange o = some (first, n) → o.stop = false →
      (d.anvilOp 5 = some o → exec .readMeasure s = .next { s with dev :=
        (((List.range n).foldl (fun x j => x.hostWrite (o.param + 8 + 128 * j) (d.measRecord (first + j))) d).finish
          { o with progress := n, partialCnt := n } .done errOk).settle })
      ∧ (d.anvilOp 6 = some o → ∃ e : Dev, exec .clearMeasure s = .next { s with dev := (e.finish { o with progress := n } .done errOk).settle }
        ∧ (∀ j, first ≤ j → j < first + n → e.contract j = (d.contract j).map (fun k => { k with meas := Meas.init }))
        ∧ ∀ j, ¬ (first ≤ j ∧ j < first + n) → e.contract j = d.contract j))
  ∧ (∀ (s : State) (d : Dev) (o : Op), d = s.dev → d.quiet → d.measRange o = none →
      (d.anvilOp 5 = some o → exec .readMeasure s = .next { s with dev := d.opFail o errFormat })
      ∧ (d.anvilOp 6 = some o → exec .clearMeasure s = .next { s with dev := d.opFail o errFormat }))
  ∧ (∀ (s : State) (d : Dev) (o : Op), d = s.dev → d.quiet → d.running 56 [1, 2, 3, 4, 5, 6, 7] = none → d.nextQueued 56 [1, 2, 3, 4, 5, 6, 7] = some o →
      (d.get F.BOOT_STATUS_BOOT_STATE = 3 → exec .anvilOpStart s = .next { s with dev := d.opFail o errDomainOff })
      ∧ (d.get F.BOOT_STATUS_BOOT_STATE ≠ 3 → (d.mgmtRuns && d.ready 2) = false → exec .anvilOpStart s = .next { s with dev := d })
      ∧ (d.get F.BOOT_STATUS_BOOT_STATE ≠ 3 → d.mgmtRuns = true → d.ready 2 = true → o.opcode ≠ 4 →
        exec .anvilOpStart s = .next { s with dev := d.startOp o }))
  ∧ (∀ (s : State) (i : Fin 4096) (k : Contract), s.dev.quiet → s.dev.contract i = some k → k.quar = true → s.dev.stamped i = false →
      ∃ t, exec (.quarantineEnd i) s = .next t ∧ t.dev.contract i = none ∧ (∀ j, j ≠ i.val → t.dev.contract j = s.dev.contract j) ∧ t.dev.regs = s.dev.regs)
  ∧ (∀ (s : State) (p : Fin 48) (t0 : Nat), s.dev.quiet → SMap.get s.dev.anvil.breakAt none p = some t0 → (p.val < 12 ∨ 20 ≤ p.val) →
      ∃ t, exec (.ledgerHoldExpiry p) s = .next t ∧ SMap.get t.dev.anvil.breakAt none p = none
        ∧ t.dev.now = max s.dev.now (t0 + atLeastOne (s.dev.get F.ANVIL_LEDGER_HOLD_HOLD_MS) * msCyc))

/-- Ethernet ingress before classification (R73, R77, R239) and the test for cut-through (R118). -/
def Obligations.EthernetReceive : Prop :=
  (∀ (s : State) (p : Fin 20) (k : EthRx) (bs : List Byte) (age : Nat) (x : Option (Nat × Nat)), s.dev.quiet → (s.dev.portAvail p && s.dev.linkReady p && s.dev.segHears p) = false →
      exec (.ethFrameRx p k bs age x) s = .next s)
  ∧ (∀ (s : State) (p : Fin 20) (bs : List Byte) (age : Nat) (x : Option (Nat × Nat)), s.dev.quiet → s.dev.portAvail p = true → s.dev.linkReady p = true → s.dev.segHears p = true →
      (∀ on, (p.val < 12 → ∃ t, exec (.ethFrameRx p (.lpi on) bs age x) s = .next t ∧ t.dev.flag (F.ETH_STATUS_LPI_RX p) = on
          ∧ s.dev.regsOnly t.dev [R.ETH_STATUS p] ∧ t.dev.tbl = s.dev.tbl ∧ t.dev.hostMem = s.dev.hostMem)
        ∧ (12 ≤ p.val → exec (.ethFrameRx p (.lpi on) bs age x) s = .next s))
      ∧ (p.val < 12 → ∃ t, exec (.ethFrameRx p .badSmd bs age x) s = .next t
        ∧ t.dev.get (F.ETH_SMD_ERR_COUNT p) = satAdd 32 (s.dev.get (F.ETH_SMD_ERR_COUNT p)) 1 ∧ s.dev.regsOnly t.dev [R.ETH_SMD_ERR p] ∧ t.dev.fwd = s.dev.fwd)
      ∧ (p.val < 12 → exec (.ethFrameRx p .asmError bs age x) s = .next { s with dev := ((s.dev.inc (F.ETH_ASSY_ERR_COUNT p)).partCut p).settle })
      ∧ (p.val < 12 → s.dev.part p = none → ∃ t, exec (.ethFrameRx p .asmError bs age x) s = .next t
        ∧ t.dev.get (F.ETH_ASSY_ERR_COUNT p) = satAdd 32 (s.dev.get (F.ETH_ASSY_ERR_COUNT p)) 1 ∧ s.dev.regsOnly t.dev [R.ETH_ASSY_ERR p] ∧ t.dev.fwd = s.dev.fwd)
      ∧ (p.val < 12 → x = none → exec (.ethFrameRx p .reassembled bs age x) s
          = exec (.ethFrameRx p .whole bs age x) { s with dev := s.dev.inc (F.ETH_ASSY_OK_COUNT p) })
      ∧ (∀ (k : EthRx) (d0 : Dev), k = .whole ∨ k = .badFcs ∨ k = .heldError → d0 = s.dev.plcaSeen p k (bs.length + 4) x → d0.flag F.FWD_CTRL_FWD_EN = false →
          exec (.ethFrameRx p k bs age x) s = .next { s with dev := (d0.partLoss p bs).settle })
      ∧ (∀ (d0 : Dev) (y : Part), d0 = s.dev.plcaSeen p .badFcs (bs.length + 4) x → d0.flag F.FWD_CTRL_FWD_EN = true → d0.part p = some y → bs.length + 4 ≤ d0.get (F.ETH_MAX_LEN_LEN p) →
          exec (.ethFrameRx p .badFcs bs age x) s = .next { s with dev := (if y.dead then d0.partEnd p y bs else (d0.partEnd p y bs).cnt F.CNT_DROP_ERROR_COUNT p).settle })
      ∧ (s.dev.flag F.FWD_CTRL_FWD_EN = true → s.dev.part p = none → x = none →
        (bs.length + 4 ≤ s.dev.get (F.ETH_MAX_LEN_LEN p) → ∃ t, exec (.ethFrameRx p .badFcs bs age x) s = .next t
          ∧ t.dev.get (F.CNT_DROP_ERROR_COUNT p) = (s.dev.get (F.CNT_DROP_ERROR_COUNT p) + 1) % 2 ^ 64 ∧ t.dev.fwd = s.dev.fwd ∧ t.dev.tbl = s.dev.tbl)
        ∧ (s.dev.get (F.ETH_MAX_LEN_LEN p) < bs.length + 4 → s.dev.flag (F.ETH_MAC_CFG_OVS_HOST p) = false →
          exec (.ethFrameRx p .badFcs bs age x) s = .next { s with dev := ((s.dev.tookFree.inc (F.ETH_OVS_RX_COUNT p)).cnt F.CNT_DROP_ERROR_COUNT p).settle })
        ∧ (bs.length + 4 < 64 → ∃ t, exec (.ethFrameRx p .whole bs age x) s = .next t
          ∧ t.dev.get (F.CNT_DROP_ERROR_COUNT p) = (s.dev.get (F.CNT_DROP_ERROR_COUNT p) + 1) % 2 ^ 64 ∧ t.dev.fwd = s.dev.fwd ∧ t.dev.tbl = s.dev.tbl)
        ∧ (64 ≤ bs.length + 4 → s.dev.get (F.ETH_MAX_LEN_LEN p) < bs.length + 4 → s.dev.flag (F.ETH_MAC_CFG_OVS_HOST p) = false →
          exec (.ethFrameRx p .whole bs age x) s = .next { s with dev := ((s.dev.inc (F.ETH_OVS_RX_COUNT p)).cnt F.CNT_DROP_ERROR_COUNT p).settle }))
      ∧ (∀ d0 d1 : Dev, d0 = s.dev.plcaSeen p .whole (bs.length + 4) x → d0.flag F.FWD_CTRL_FWD_EN = true → 64 ≤ bs.length + 4 → bs.length + 4 ≤ d0.get (F.ETH_MAX_LEN_LEN p) →
          d1 = (d0.countRx p (bs.length + 4)).segReceived p none none →
          (p.val < 12 → d1.part p = none → d1.macsecOn p = false → exec (.ethFrameRx p .whole bs age x) s = .next { s with dev := (d1.ethDispose p bs
            ((d0.dtime + 2 ^ 64 - age % 2 ^ 64) % 2 ^ 64) (d1.dtime16 - age * 65536) (d1.now - age * 4 / 5)).settle })
          ∧ (∀ y, p.val < 12 → d1.part p = some y → exec (.ethFrameRx p .whole bs age x) s = .next { s with dev :=
            (d1.partWhole p y bs ((d0.dtime + 2 ^ 64 - age % 2 ^ 64) % 2 ^ 64)).settle })
          ∧ (∀ (ue : Bool) (k : EthRx) (d2 : Dev) (out : Option (List Byte)), k = (if ue then .heldError else .whole) → p.val < 12 → d1.part p = none → d1.macsecOn p = true →
            d1.macsecReceive p bs ue = (d2, out) → exec (.ethFrameRx p k bs age x) s = .next { s with dev := ((out.map (fun pt => d2.ethDispose p pt
              ((d0.dtime + 2 ^ 64 - age % 2 ^ 64) % 2 ^ 64) (d1.dtime16 - age * 65536) (d1.now - age * 4 / 5))).getD d2).settle })
          ∧ (12 ≤ p.val → exec (.ethFrameRx p .whole bs age x) s = .next { s with dev :=
            (d1.fqPut p (ethMsg bs) d0.dtime 0 false none).1.settle })))
  ∧ (∀ (s : State) (p : Fin 12) (bs : List Byte) (total age : Nat), s.dev.quiet →
      (s.dev.flag F.FWD_CTRL_FWD_EN = false ∨ s.dev.portAvail p = false ∨ s.dev.linkReady p = false ∨ s.dev.macsecOn p = true
        ∨ s.dev.part p ≠ none ∨ s.dev.dispo p (parseHdr bs) bs ≠ .lookup ∨ s.dev.ctThresh p = none) →
      exec (.cutThroughStart p bs ⟨total, age⟩) s = .next s)
  ∧ (∀ (s : State) (p : Fin 12) (bs : List Byte) (total age prio vid : Nat) (k : Contract), s.dev.quiet → (s.dev.classify p 0 (parseHdr bs)).2 = some (prio, vid) →
      ((s.dev.stream (b2n (pipeB p)) (parseHdr bs).da vid).2).bind (fun y => s.dev.contract y.1) = some k → rqSecIn k.req ≠ 0xFFFF →
      exec (.cutThroughStart p bs ⟨total, age⟩) s = .next s)
  ∧ (∀ (s : State) (p : Fin 12) (bs : List Byte) (total age th : Nat) (d d1 : Dev) (sn : Option (Nat × Nat)) (pt : Part), d = s.dev → d.flag F.FWD_CTRL_FWD_EN = true →
      d.portAvail p = true → d.linkReady p = true → d.part p = none → d.macsecOn p = false → d.dispo p (parseHdr bs) bs = .lookup →
      (parseHdr bs).off + 2 ≤ bs.length → bs.length + 4 < total → d.ctThresh p = some th → th ≤ bs.length → sn = (d.classify p 0 (parseHdr bs)).2 →
      (∀ prio vid k, sn = some (prio, vid) → ((d.stream (b2n (pipeB p)) (parseHdr bs).da vid).2).bind (fun y => d.contract y.1) = some k → rqSecIn k.req = 0xFFFF) →
      pt = { Part.init with got := bs.length, vid := (sn.map (fun y => y.2)).getD 0, looked := sn.isSome } →
      (d.ethPlan p (b2n (pipeB p)) 0 bs (parseHdr bs) total false = (d1, none) →
        exec (.cutThroughStart p bs ⟨total, age⟩) s = .next { s with dev := (d1.setPart p (some { pt with dead := true })).settle })
      ∧ (∀ x, d.ethPlan p (b2n (pipeB p)) 0 bs (parseHdr bs) total false = (d1, some x) → x.ports = [] →
        exec (.cutThroughStart p bs ⟨total, age⟩) s = .next { s with dev := (d1.setPart p (some { pt with
          vid := x.vid, insert := x.insert, strip := x.strip, untag := x.untag, host := x.host })).settle })
      ∧ (∀ (x : EthPlan) (a : Dev × Frame) (l : List Dest) (b : Dev × Option Nat) (dry : Bool),
        d.ethPlan p (b2n (pipeB p)) 0 bs (parseHdr bs) total false = (d1, some x) → x.ports ≠ [] →
        a = d1.newFrame p (b2n (pipeB p)) (ethMsg bs) x.prio x.vid x.contract ((d.dtime + 2 ^ 64 - age % 2 ^ 64) % 2 ^ 64) →
        l = (a.1.ethDests x (parseHdr bs) bs ((d.dtime + 2 ^ 64 - age % 2 ^ 64) % 2 ^ 64) (fun q => !a.1.ctPair p q)).map (fun y : Dest => y.awaiting (total - (bs.length + 4))) →
        b = a.1.storeAnd a.2 bs.length l false → dry = (b.2.isNone && l.any a.1.stays) →
        exec (.cutThroughStart p bs ⟨total, age⟩) s = .next { s with dev := (b.1.setPart p (some { pt with
          vid := x.vid, insert := x.insert, strip := x.strip, untag := x.untag, handle := b.2, host := x.host && !dry, dead := dry
          out := (b.2.map (b.1.queuedAcross (b2n (pipeB p)))).getD false })).settle }))

/-- Policing (R84, R85) and the timers of sequence recovery (R123, R125). -/
def Obligations.PolicerAndRecovery : Prop :=
  (∀ (d : Dev) (i p len : Nat) (k : Contract), d.contract i = some k →
      ((d.police i p len).2 = true ↔ ingressAllowed k.req p = true ∧ len ≤ rqMax k.req ∧ 8 * max len (rqMin k.req) * 102400000 ≤ d.tokensNow k)
      ∧ ((d.police i p len).2 = true → (d.police i p len).1.contract i = some { k with tokens := d.tokensNow k - 8 * max len (rqMin k.req) * 102400000, tokAt := d.now }
          ∧ (d.police i p len).1.regs = d.regs)
      ∧ ((d.police i p len).2 = false → ∃ m, (d.police i p len).1.contract i = some { k with meas := m })
      ∧ (∀ j, j ≠ i → (d.police i p len).1.contract j = d.contract j)
      ∧ d.tokensNow k ≤ 8 * rqBurst k.req * 102400000)
  ∧ (∀ (s : State) (i : Fin 4096) (k : Contract) (t0 : Nat), s.dev.quiet → s.dev.contract i = some k → k.passAt = some t0 →
      ∃ t, exec (.cbRecoveryReset i) s = .next t ∧ t.dev.contract i = some { k with hist := [], passAt := none }
        ∧ (∀ j, j ≠ i.val → t.dev.contract j = s.dev.contract j)
        ∧ t.dev.now = max s.dev.now (t0 + atLeastOne (s.dev.get F.FWD_CB_CFG_RESET_MS) * msCyc))
  ∧ (∀ (s : State) (i : Fin 4096), s.dev.quiet → (∀ k, s.dev.contract i = some k → k.passAt = none) → exec (.cbRecoveryReset i) s = .next s)
  ∧ (∀ (s : State) (i : Fin 4096), s.dev.quiet → (s.dev.get F.FWD_CB_LATENT_LATENT_MS = 0 ∨ ∀ k, s.dev.contract i = some k → rqRedund k.req ≠ 2) →
      exec (.cbLatentDetect i) s = .next s)
  ∧ (∀ (s : State) (i : Fin 4096) (d : Dev) (k : Contract) (ms : Nat), d = s.dev → ms = d.get F.FWD_CB_LATENT_LATENT_MS → ms ≠ 0 → d.contract i = some k →
      rqRedund k.req = 2 → k.silent0 = false → k.last0 < k.last1 →
      exec (.cbLatentDetect i) s = .next { s with dev := ((((((d.reach (k.last0 + ms * msCyc)).setContract i (some { k with silent0 := true })).fltSet blkFwd 4).event61
        0x04 blkFwd 4 (accNone * 8) 0 (leBytes 2 i ++ leBytes 1 (rqIngress k.req)))).countEvent blkFwd 4).settle })

/-- The egress side of the Ethernet and T1S ports (R104 to R112). -/
def Obligations.EthernetEgress : Prop :=
  (∀ (s : State) (p : Fin 12) (d d1 : Dev) (set : Nat), d = s.dev → set = SMap.get d.fwd.pfcPend 0 p →
      (set = 0 → d.quiet → exec (.pfcFrameSend p) s = .next s)
      ∧ (set ≠ 0 → d.segSends p = true → d.txReady p = true → d.ethAddr p ≠ 0 → (d.copiesOn p).any (fun c => decide (6 ≤ c.tc) && !c.started && !c.hold && !c.wait) = false →
        d1 = ((d.sendEth p (d.pfcFrame p set)).cnt F.CNT_PFC_TX_COUNT p).countTx p 64 →
        ∃ x : FwdSt, exec (.pfcFrameSend p) s = .next { s with dev := (({ d1 with fwd := x }).setEthPort p { d1.ethPort p with idleAt := d1.now }).settle }
          ∧ SMap.get x.pfcPend 0 p = 0
          ∧ ∀ q : Fin 8, SMap.get x.pfcDue none (8 * p + q) = (if bit set q = false then SMap.get d1.fwd.pfcDue none (8 * p + q)
              else if bit (d.get (F.FWD_WM_STATE_XOFF p) &&& d.get (F.FWD_PORT_CFG_PFC_EN p)) q = false then none
              else some (d.now + atLeastOne (d.get F.FWD_PFC_TIMER_REFRESH_US) * usCyc))))
  ∧ (∀ (s : State) (p : Fin 12) (x : Nat × Nat) (l : List (Nat × Nat)), s.dev.quiet → s.dev.pfcDues p = x :: l →
      ∃ t, exec (.pfcRefresh p) s = .next t ∧ t.dev.now = max s.dev.now ((l.map (fun y => y.2)).foldl min x.2)
        ∧ ∀ (q : Fin 8) (t0 : Nat), SMap.get s.dev.fwd.pfcDue none (8 * p + q) = some t0 →
          (t0 ≤ t.dev.now → SMap.get t.dev.fwd.pfcDue none (8 * p + q) = none
            ∧ bit (SMap.get t.dev.fwd.pfcPend 0 p) q = (bit (SMap.get s.dev.fwd.pfcPend 0 p) q
              || bit (s.dev.get (F.FWD_WM_STATE_XOFF p) &&& s.dev.get (F.FWD_PORT_CFG_PFC_EN p)) q))
          ∧ (t.dev.now < t0 → SMap.get t.dev.fwd.pfcDue none (8 * p + q) = some t0))
  ∧ (∀ (s : State) (p : Fin 12) (q : Fin 8) (t0 : Nat), s.dev.quiet → SMap.get s.dev.fwd.pause none (8 * p + q) = some t0 →
      ∃ t, exec (.pauseExpiry p q) s = .next t ∧ t.dev.now = max s.dev.now t0 ∧ SMap.get t.dev.fwd.pause none (8 * p + q) = none
        ∧ bit (t.dev.get (F.FWD_WM_STATE_RX_PAUSED p)) q = false)
  ∧ (∀ (s : State) (p : Fin 12) (n : Nat) (b : Bool), s.dev.quiet → s.dev.txReady p = false → exec (.ethEgressSelect p n b) s = .next s)
  ∧ (∀ (s : State) (p : Fin 12) (n : Nat) (b : Bool) (d d1 d2 : Dev) (c : Copy), d = s.dev → d.txReady p = true →
      (d.offerFirst p b [7, 6] = (d1, some c) → exec (.ethEgressSelect p n b) s = .next { s with dev := (d1.ethStart p c n).settle })
      ∧ (d.offerFirst p b [7, 6] = (d1, none) → (d1.ethPort p).held = none → d1.offerFirst p b [5, 4, 3, 2, 1, 0] = (d2, some c) →
        exec (.ethEgressSelect p n b) s = .next { s with dev := (d2.ethStart p c n).settle })
      ∧ (d.offerFirst p b [7, 6] = (d1, none) → (d1.ethPort p).held = none → d1.offerFirst p b [5, 4, 3, 2, 1, 0] = (d2, none) →
        exec (.ethEgressSelect p n b) s = .next { s with dev := d2.settle }))
  ∧ (∀ (s : State) (p : Fin 20) (d : Dev) (q : Nat) (c : Copy) (f : Frame), d = s.dev → (d.ethPort p).tx = some q → d.fwd.copies.find? (fun (c : Copy) => c.seq == q) = some c →
      d.frame c.handle = some f →
      (f.whole = true → exec (.ethTxComplete p none false) s = .next { s with dev :=
        (((d.sendEth p c.msg.data).txIdle p c.seq).sentCopy c (c.msg.data.length + 4)).settle })
      ∧ (∀ k, d.flag (F.ETH_PREEMPT_STATUS_ACTIVE p) = true → c.tc ≤ 5 → p.val < 12 → 60 ≤ k → c.sent + k + 60 ≤ c.msg.data.length + c.ahead →
        exec (.ethTxComplete p (some k) false) s = .next { s with dev :=
        (((d.inc (F.ETH_FRAG_TX_COUNT p)).setCopy { c with sent := c.sent + k }).setEthPort p
          { d.ethPort p with tx := none, held := some c.seq, idleAt := d.now }).settle })
      ∧ (∀ k, k < 60 ∨ c.msg.data.length + c.ahead < c.sent + k + 60 → d.quiet → exec (.ethTxComplete p (some k) false) s = .next s)
      ∧ (∀ fr, exec (.ethTxComplete p fr true) s = .next { s with dev := (d.poisonFrame c.handle p).settle }))
  ∧ (∀ (s : State) (p : Fin 12) (tc : Fin 6) (n : Nat) (b : Bool),
      exec (.beShaperRefill p tc n b) s = .next { s with dev := ((s.dev.advance (s.dev.shaperWait p tc)).ethSelect p n b).settle })
  ∧ (∀ (s : State) (p : Fin 48) (n w : Nat) (b : Bool) (d1 : Dev), s.dev.launchWait p = some w → d1 = s.dev.reachDtime ((s.dev.dtime / 8 + w) * 8) →
      exec (.launchTimeReached p n b) s = .next { s with dev := (if p.val < 12 then d1.ethSelect p n b else if p.val < 20 then d1.t1sOpportunity p 0 n b else d1).settle })
  ∧ (∀ (s : State) (p : Fin 12) (n : Nat) (b : Bool) (t0 : Nat), (s.dev.ethPort p).wakeAt = some t0 →
      exec (.lpiTwEnd p n b) s = .next { s with dev := ((s.dev.reach t0).ethSelect p n b).settle })
  ∧ (∀ (s : State) (p : Fin 8) (k n : Nat) (b : Bool), s.dev.quiet →
      (s.dev.t1sMaySend (12 + p) = false ∨ s.dev.segSends (12 + p) = false ∨ s.dev.get (F.ETH_PLCA_TIMERS_MAX_BC (12 + p)) < k) → exec (.t1sTxOpportunity p k n b) s = .next s)
  ∧ (∀ (s : State) (p : Fin 8) (k n : Nat) (b : Bool) (d1 : Dev) (c : Copy), s.dev.t1sMaySend (12 + p) = true → s.dev.segSends (12 + p) = true → k ≤ s.dev.get (F.ETH_PLCA_TIMERS_MAX_BC (12 + p)) →
      s.dev.t1sOffer (12 + p) (s.dev.copiesOn (12 + p)).length b = (d1, some c) →
      exec (.t1sTxOpportunity p k n b) s = .next { s with dev := (d1.ethStart (12 + p) c n).settle })

/-- Field ingress queues (R97, R98) and CAN XL cut-through (R120). -/
def Obligations.FieldQueues : Prop :=
  (∀ (s : State) (q : Fin 36) (e : Bool), s.dev.quiet → s.dev.fq q = [] → exec (.fieldQueueRead ⟨q, e⟩) s = .next s)
  ∧ (∀ (s : State) (q : Fin 36) (e : Bool) (r : Rec) (l : List Rec) (d d1 : Dev), d = s.dev → d.fq q = r :: l →
      d1 = (d.setFq q l).fqMove q 0 (if r.part.isSome then 0 else r.words) →
      d1.ready (if pipeB (q + 12) then 3 else 2) = true →
      d1.fq q = l ∧ (d1.fqPtr q).1 = ((d.fqPtr q).1) % fqSpan q
      ∧ (r.part = none → (d1.fqPtr q).2 = ((d.fqPtr q).2 + 8 * r.words) % fqSpan q)
      ∧ (d1.flag F.FWD_CTRL_FWD_EN = false → exec (.fieldQueueRead ⟨q, e⟩) s = .next { s with dev := (d1.fqFail r.part false).settle })
      ∧ (d1.flag F.FWD_CTRL_FWD_EN = true → r.bad = false → e = false → 8 ≤ q.val → r.part = none → exec (.fieldQueueRead ⟨q, e⟩) s = .next { s with dev :=
        ((d1.fieldFrame (q + 12) r.msg r.start r.state).enteredAs (q + 12) d1.fwd.seq r.order).settle })
      ∧ (∀ x, d1.flag F.FWD_CTRL_FWD_EN = true → r.bad = false → e = false → 8 ≤ q.val → r.part = some x → exec (.fieldQueueRead ⟨q, e⟩) s = .next { s with dev :=
        ((d1.xlServe (q + 12) r x).enteredAs (q + 12) d1.fwd.seq r.order).settle })
      ∧ (d1.flag F.FWD_CTRL_FWD_EN = true → r.bad = false → e = false → q.val < 8 → exec (.fieldQueueRead ⟨q, e⟩) s = .next { s with dev :=
        ((d1.ethDispose (q + 12) r.msg.data r.start (r.start * 65536) d1.now).enteredAs (q + 12) d1.fwd.seq r.order).settle })
      ∧ (d1.flag F.FWD_CTRL_FWD_EN = true → (r.bad = true ∨ e = true) → exec (.fieldQueueRead ⟨q, e⟩) s = .next { s with dev :=
        ((((((if (r.part.map (fun x => x.dead)).getD false then d1 else d1.cnt F.CNT_DROP_POISON_COUNT (q + 12)).set (F.FWD_FQ_STATUS_POISON q) 1).fltSet blkFwd 1)).poisonLog (q + 12)).fqFail r.part true).settle }))
  ∧ (∀ (s : State) (c : Fin 20) (f : CanFrame) (n age : Nat), s.dev.quiet → (s.dev.canReceives c && s.dev.segHears (20 + c)) = false → exec (.xlCtPublish c f n age) s = .next s)
  ∧ (∀ (s : State) (c : Fin 20) (f : CanFrame) (n age : Nat), s.dev.canReceives c = true → s.dev.canOff c f.form = false → s.dev.rateSearching c = false → s.dev.segHears (20 + c) = true →
      exec (.xlCtPublish c f n age) s = .next { s with dev := (((s.dev.set (F.CAN_STATUS_RX_ACTIVE c) 1).set (F.CAN_STATUS_IDLE c) 0).xlPublish c
        (canMsg f ((s.dev.dtime + 2 ^ 64 - age % 2 ^ 64) % 2 ^ 64) false) n).settle })
  ∧ (∀ (s : State) (c : Fin 20) (q : Fin 12) (d : Dev) (pt : Part) (h th : Nat) (f : Frame) (x : Copy), d = s.dev → d.quiet → d.part (20 + c) = some pt → pt.handle = some h →
      d.frame h = some f → (d.copiesOf h).find? (fun (x : Copy) => x.port == q.val && x.wait) = some x → d.xlThresh c = some th →
      (th ≤ pt.got ∧ (((88 * (f.msg.data.length - pt.got) + 9) / 10 + 48) * (d.dataMtq c * 25) + 14 * (d.nomMtq c * 25) + 4000) * d.portRate q ≤ 16000 * d.wireLen q x →
        exec (.xlCtCopyStart c q) s = .next { s with dev := d.setCopy { x with wait := false } })
      ∧ (¬ (th ≤ pt.got ∧ (((88 * (f.msg.data.length - pt.got) + 9) / 10 + 48) * (d.dataMtq c * 25) + 14 * (d.nomMtq c * 25) + 4000) * d.portRate q ≤ 16000 * d.wireLen q x) →
        exec (.xlCtCopyStart c q) s = .next s))

/-- Every change of an entry increments its table's counter by 1, and the entry, or its group, takes the low 16 bits of the new value (R131); a refresh is not a change (R145). -/
def Obligations.EntryChange : Prop :=
  (∀ (d : Dev) (t c i v : Nat), t < 10 → c < 2 → i < tblEntries t →
      (d.entryChange t c i v).get (genCounter t c) = (d.get (genCounter t c) + 1) % 2 ^ 32
      ∧ d.regsOnly (d.entryChange t c i v) [(genCounter t c).addr]
      ∧ (d.entryChange t c i v).tget t c i = withGen t v ((d.get (genCounter t c) + 1) % 2 ^ 16)
      ∧ (d.entryChange t c i v).gen t c i = (d.get (genCounter t c) + 1) % 2 ^ 16
      ∧ (d.entryChange t c i v).tables.bad.contains (tkey t c i) = false
      ∧ (d.entryChange t c i v).hostMem = d.hostMem
      ∧ ∀ m k j, k < 2 → j < 2 ^ 24 → (m, k, j) ≠ (t, c, i) → (m, k, j) ≠ (genMem t, c, genIdx t i) → (d.entryChange t c i v).tget m k j = d.tget m k j)
  ∧ (∀ (d d1 : Dev) (pipe port sa vid i e : Nat) (egress : Bool), pipe < 2 → i < 32768 → d.learnOn pipe egress = true → d.fdbFind pipe sa vid = (d1, some (i, e)) → fdbPort e = port → fdbGroup e = false →
      (d.learn pipe port sa vid egress) = ((d1.fdbFresh pipe i).tset pipe 0 i (setBit (setBit e 62 true) 63 false), false)
      ∧ ((d.learn pipe port sa vid egress).1.refreshed pipe i = true)
      ∧ (d.learn pipe port sa vid egress).1.regs = d1.regs
      ∧ ((d.learn pipe port sa vid egress).1.tget pipe 0 i) = setBit (setBit e 62 true) 63 false
      ∧ fdbHit ((d.learn pipe port sa vid egress).1.tget pipe 0 i) = true ∧ fdbStale ((d.learn pipe port sa vid egress).1.tget pipe 0 i) = false
      ∧ ∀ m k j, k < 2 → j < 2 ^ 24 → (m, k, j) ≠ (pipe, 0, i) → (d.learn pipe port sa vid egress).1.tget m k j = d1.tget m k j)

/-- The table engine's operations (Tables TBL-6 and TBL-7). -/
def Obligations.TableOperations : Prop :=
  (∀ (s : State) (o : Op), s.dev.quiet → s.dev.running 57 [1, 2, 3, 4, 5] = none → s.dev.nextQueued 57 [1, 2, 3, 4, 5] = some o → s.dev.ready 2 = true →
      exec .tblOpStart s = .next { s with dev := s.dev.startOp o })
  ∧ (∀ (s : State) (n t first cnt : Nat) (d : Dev) (o : Op), d = s.dev → d.quiet → d.running 57 [1] = some o → t = d.opTable o → first = d.opIndex o → cnt = d.opCnt o →
      ((9 < t ∨ cnt = 0 ∨ tblEntries t < first + cnt ∨ t = 0 ∨ t = 1 ∨ t = 3) →
        exec (.tblWrite n) s = .next { s with dev := d.opFail o errFormat } ∧ (d.opFail o errFormat).tbl = d.tbl)
      ∧ (t = 6 → cnt ≠ 0 → first + cnt ≤ tblEntries 6 → exec (.tblWrite n) s = .next { s with dev := d.opFail o errLocked })
      ∧ ((t = 2 ∨ t = 4 ∨ t = 5 ∨ t = 7 ∨ t = 8 ∨ t = 9) → cnt ≠ 0 → first + cnt ≤ tblEntries t → o.stop = false →
        (bit (d.opFlags o) 0 = true → cnt * tblSize t ≤ 8192 → exec (.tblWrite n) s = .next { s with dev := (d.writeBatch o t first cnt (d.opBuffer o)).settle })
        ∧ (bit (d.opFlags o) 0 = false → exec (.tblWrite n) s = .next { s with dev := (d.writeOn o t first cnt (d.opBuffer o) n o.pos).settle }))
      ∧ exec (.tblWriteResume n) s = exec (.tblWrite n) s)
  ∧ (∀ (d : Dev) (o : Op) (t first cnt buf v : Nat), cnt = 1 → d.writeWaits t first = false → v = leNat (d.hostRead buf (tblSize t)) →
      (d.writeError t first v = none → d.writeBatch o t first cnt buf = ((d.hostEntry t first v).tblResult o).opDone (o.at 1)
        ∧ ∀ n, d.writeOn o t first cnt buf (n + 1) 0 = ((d.hostEntry t first v).tblResult o).opDone (o.at 1))
      ∧ (∀ e, d.writeError t first v = some e → (d.writeBatch o t first cnt buf).tbl = d.tbl ∧ (d.writeBatch o t first cnt buf).regs = d.regs))
  ∧ (∀ (s : State) (n t first cnt : Nat) (d : Dev) (o : Op), d = s.dev → d.quiet → d.running 57 [2] = some o → t = d.opTable o → first = d.opIndex o → cnt = d.opCnt o →
      ((9 < t ∨ cnt = 0 ∨ tblEntries t < first + cnt) → exec (.tblRead n) s = .next { s with dev := d.opFail o errFormat })
      ∧ (t ≤ 9 → cnt ≠ 0 → first + cnt ≤ tblEntries t → d.ready 3 = true → o.stop = false →
        exec (.tblRead n) s = .next { s with dev := (d.readOn o t (b2n (bit (d.opFlags o) 1 && tblBoth t)) first cnt (d.opBuffer o) n o.pos).settle })
      ∧ (t = 1 → cnt ≠ 0 → first + cnt ≤ tblEntries t → d.ready 3 = false → exec (.tblRead n) s = .next { s with dev := d.opFail o errDomainOff }))
  ∧ (∀ (s : State) (d d0 : Dev) (o : Op) (e : Nat) (n : Nat), d = s.dev → d.opPipes o ≠ [] → ((d.opPipes o).contains 1 = true → d.ready 3 = true) → o.stop = false →
      d.room60 (8 + 2 * (d.opPipes o).length) = true → e = d.opEntry o →
      (o.opcode = 3 → fdbBad e = false → d0 = (d.opPipes o).foldl (fun d p => d.setRead p (fdbSet (fdbMac e) (fdbVid e))) d →
        ((d.opPipes o).any (fun p => (d0.insertWay p e).isNone) = true →
          (d.running 57 [3] = some o → exec .fdbInsert s = .next { s with dev := (d0.opFail o errNores).settle })
          ∧ (d.running 57 [3, 4, 5] = some o → exec (.fdbOpRing60Room n) s = .next { s with dev := (d0.opFail o errNores).settle }))
        ∧ ((d.opPipes o).any (fun p => (d0.insertWay p e).isNone) = false →
          (d.running 57 [3] = some o → exec .fdbInsert s = .next { s with dev :=
            (((d.opPipes o).foldl (fun d p => d.fdbInsert p e) d0).opDone { o with progress := 1, partialCnt := 1 }).settle })
          ∧ (d.running 57 [3, 4, 5] = some o → exec (.fdbOpRing60Room n) s = .next { s with dev :=
            (((d.opPipes o).foldl (fun d p => d.fdbInsert p e) d0).opDone { o with progress := 1, partialCnt := 1 }).settle })))
      ∧ (o.opcode = 4 → d0 = (d.opPipes o).foldl (fun d p => match d.fdbFind p (fdbMac e) (fdbVid e) with
          | (x, some (i, _)) => x.fdbRemove 0x04 1 p i
          | (x, none) => x) d →
        (d.running 57 [4] = some o → exec .fdbDelete s = .next { s with dev := (d0.opDone { o with progress := 1, partialCnt := 1 }).settle })
        ∧ (d.running 57 [3, 4, 5] = some o → exec (.fdbOpRing60Room n) s = .next { s with dev := (d0.opDone { o with progress := 1, partialCnt := 1 }).settle })))
  ∧ (∀ (s : State) (n : Nat) (d : Dev) (o : Op), d = s.dev → d.quiet → d.opPipes o ≠ [] → ((d.opPipes o).contains 1 = true → d.ready 3 = true) → o.stop = false →
      (d.running 57 [5] = some o → o.opcode = 5 → (bit (leNat (d.hostRead (o.param + 1) 1)) 0 = true → leNat (d.hostRead (o.param + 2) 1) < 20 ∨ leNat (d.hostRead (o.param + 2) 1) = 48) →
        exec (.fdbFlush n) s = .next { s with dev := (d.flushOn o (d.opPipes o) (leNat (d.hostRead (o.param + 1) 1)) (leNat (d.hostRead (o.param + 2) 1))
          (leNat (d.hostRead (o.param + 4) 2)) n o.pos).settle })
      ∧ (d.running 57 [3, 4, 5] = some o → o.opcode = 5 → (bit (leNat (d.hostRead (o.param + 1) 1)) 0 = true → leNat (d.hostRead (o.param + 2) 1) < 20 ∨ leNat (d.hostRead (o.param + 2) 1) = 48) →
        exec (.fdbOpRing60Room n) s = .next { s with dev := (d.flushOn o (d.opPipes o) (leNat (d.hostRead (o.param + 1) 1)) (leNat (d.hostRead (o.param + 2) 1))
          (leNat (d.hostRead (o.param + 4) 2)) n o.pos).settle })
      ∧ (d.running 57 [3, 4, 5] = some o → o.opcode = 4 → d.room60 (8 + 2 * (d.opPipes o).length) = false → exec (.fdbOpRing60Room n) s = .next s))

/-- The sweep of Burnisher (R148) and the pass of Assay (R152). -/
def Obligations.SweepAndAssay : Prop :=
  (∀ (d d1 : Dev) (pipe i e : Nat), d.entryRead pipe 0 i = (d1, some e) →
      ((fdbValid e = false ∨ fdbStatic e = true ∨ d1.refreshed pipe i = true) → d.burnEntry pipe i = d1)
      ∧ (fdbValid e = true → fdbStatic e = false → d1.refreshed pipe i = false → fdbHit e = true → d.burnEntry pipe i = d1.tset pipe 0 i (setBit e 62 false))
      ∧ (fdbValid e = true → fdbStatic e = false → d1.refreshed pipe i = false → fdbHit e = false → fdbStale e = false → d.burnEntry pipe i = d1.tset pipe 0 i (setBit e 63 true))
      ∧ (fdbValid e = true → fdbStatic e = false → d1.refreshed pipe i = false → fdbHit e = false → fdbStale e = true →
        d.burnEntry pipe i = if d1.learnHeld then d1.inc F.TBL_AGE_DEFERRED_COUNT else d1.fdbRemove 0x03 0 pipe i))
  ∧ (∀ (s : State) (pipe : Fin 2) (sec : Nat) (b : Burn) (d e : Dev), d = s.dev → sec = (if pipe = 0 then d.get F.TBL_BURN_CFG_A_SWEEP_S else d.get F.TBL_BURN_CFG_B_SWEEP_S) →
      b = (if pipe = 0 then d.tables.burnA else d.tables.burnB) →
      (sec = 0 → d.quiet → exec (.burnisherVisit pipe) s = .next s)
      ∧ (sec ≠ 0 → d.ready (if pipe = 0 then 2 else 3) = true → e = (setWays b.next).foldl (fun d i => d.burnEntry pipe i) (d.reach (b.last + sec * sCyc / 8192)) →
        ∃ x : TblSt, exec (.burnisherVisit pipe) s = .next { s with dev := ({ e with tables := x }).settle }
          ∧ (if pipe = 0 then x.burnA else x.burnB) = ⟨(b.next + 1) % 8192, e.now⟩))
  ∧ (∀ (s : State) (d1 : Dev), s.dev.quiet → s.dev.flag F.TBL_ASSAY_CTRL_EN = true → s.dev.ready 2 = true →
      d1 = (match s.dev.tables.passDue with
        | some t => s.dev.reach t
        | none => s.dev) →
      (d1.tables.pass.isSome = true → ∃ t, exec .assayPassStart s = .next t ∧ t.dev.flag F.TBL_ASSAY_STATUS_OVERRUN = true ∧ d1.regsOnly t.dev [R.TBL_ASSAY_STATUS] ∧ t.dev.tables = d1.tables)
      ∧ (d1.tables.pass = none → ∃ t, exec .assayPassStart s = .next t ∧ t.dev.flag F.TBL_ASSAY_STATUS_BUSY = true ∧ t.dev.tables.pass = some d1.now
          ∧ t.dev.tables.todo = d1.assayTables ∧ t.dev.tbl = d1.tbl))
  ∧ (∀ (s : State) (n : Nat), s.dev.quiet → s.dev.tables.pass = none → exec (.assayCompare n) s = .next s)
  ∧ (∀ (s : State) (n : Nat), s.dev.tables.pass.isSome = true → s.dev.tables.todo = [] → n ≠ 0 → ∃ d1 : Dev, d1 = ({ s.dev with tables := { s.dev.tables with pass := none, todo := [] } }).set F.TBL_ASSAY_STATUS_BUSY 0 ∧
      exec (.assayCompare n) s = .next { s with dev := ((d1.set F.TBL_ASSAY_STATUS_PASSES ((d1.get F.TBL_ASSAY_STATUS_PASSES + 1) % 65536)).assayEvent 0x13 0 0 0 0 0 0 0).settle })

/-- The positions of a signal (R168) and what a signal route writes (R170 to R172). -/
def Obligations.SignalPlacement : Prop :=
  (∀ (mot : Bool) (p n x v : Nat),
      gather (scatter x v (sigBits mot p n)) (sigBits mot p n) = v % 2 ^ n
      ∧ (sigBits mot p n).length = n ∧ (sigBits mot p n).Nodup
      ∧ ∀ q, q ∉ sigBits mot p n → bit (scatter x v (sigBits mot p n)) q = bit x q)
  ∧ (∀ (d d1 : Dev) (r v i x y : Nat), i = sgTarget r → sgProfEn r = false → d.readImg i = (d1, some x) → y = scatter x v (sigBits (sgDstMot r) (sgDst r) (sgLen r)) →
      x = d.imgBits i
      ∧ (y = x → d.sigWrite r (some v) = (d1, none))
      ∧ (y ≠ x → d.sigWrite r (some v) = (d1.setImgBits i y, if sgTrigger r then some i else none))
      ∧ ((d.sigWrite r (some v)).1.imgBits i = y) ∧ (d.sigWrite r (some v)).1.regs = d1.regs ∧ (d.sigWrite r (some v)).1.hostMem = d1.hostMem)
  ∧ (∀ (d d1 : Dev) (r v i : Nat), i = sgTarget r → sgProfEn r = false → d.readImg i = (d1, none) → d.sigWrite r (some v) = (d1, none))
  ∧ (∀ (d : Dev) (r i pr b : Nat), i = sgTarget r → sgProfEn r = true → ((d.steTouch 1 (sgProf r)).readImg i).2.isSome = true →
      pr = d.steEnt 1 (sgProf r) → b = suVbit pr →
      b ∉ sigBits (sgDstMot r) (sgDst r) (sgLen r) → suVbitEn pr = true → b < imgWidth i →
      bit ((d.sigWrite r none).1.imgBits i) b = suPol pr
      ∧ (suHold pr = true → ∀ q, q ≠ b → bit ((d.sigWrite r none).1.imgBits i) q = bit (d.imgBits i) q)
      ∧ (suHold pr = false → gather ((d.sigWrite r none).1.imgBits i) (sigBits (sgDstMot r) (sgDst r) (sgLen r)) = suDefault pr % 2 ^ sgLen r))

/-- SIGNAL_ROUTES_RUN, MONITOR_TIMEOUT, CYCLIC_RELEASE, TRIGGERED_RELEASE, INTAKE_FRAME, CONTAINER_HOLD_EXPIRY and EVENT_PDU_RELEASE. -/
def Obligations.SignalEngineSteps : Prop :=
  (∀ (s : State) (x : SigJob) (l : List SigJob) (d0 : Dev), s.dev.ste.sigs = x :: l → d0 = { s.dev with ste := { s.dev.ste with sigs := l } } →
      (d0.steRuns = true → exec .signalRoutesRun s = .next { s with dev := ((d0.sigRun x.data x.count x.first []).1.triggerAll (d0.sigRun x.data x.count x.first []).2).settle })
      ∧ (d0.steRuns = false → s.dev.quiet → exec .signalRoutesRun s = .next { s with dev := d0 }))
  ∧ (∀ (s : State) (m : Fin 4096), s.dev.quiet →
      (SMap.get s.dev.ste.mons none m = none ∨ s.dev.steRuns = false) → exec (.monitorTimeout m) s = .next s)
  ∧ (∀ (s : State) (m : Fin 4096) (last idx e : Nat) (ent : Option Nat) (da d0 d1 : Dev), SMap.get s.dev.ste.mons none m = some (last, idx) → s.dev.steRuns = true →
      (s.dev.steTouch 7 m).entryRead 4 0 idx = (da, ent) → e = ent.getD 0 →
      ((rtValid e = false ∨ rtMonEn e = false ∨ rtMon e ≠ m.val ∨ bit (da.steEnt 7 m) 32 = false ∨ bit (da.steEnt 7 m) 33 = true) →
        exec (.monitorTimeout m) s = .next { s with dev := da.settle })
      ∧ (rtValid e = true → rtMonEn e = true → rtMon e = m.val → bit (da.steEnt 7 m) 32 = true → bit (da.steEnt 7 m) 33 = false →
        d0 = da.reach (last + rtMonMs e * msCyc) → d1 = (d0.tset (steMem 7) 0 m (setBit (d0.tget (steMem 7) 0 m) 33 true)).inc F.STE_MON_TIMEOUT_COUNT →
        exec (.monitorTimeout m) s = .next { s with dev := ((d1.sigTimeout (rtSigCount e) (rtSigFirst e) []).1.triggerAll (d1.sigTimeout (rtSigCount e) (rtSigFirst e) []).2).settle }
        ∧ d1.get F.STE_MON_TIMEOUT_COUNT = satAdd 32 (da.get F.STE_MON_TIMEOUT_COUNT) 1 ∧ bit (d1.tget (steMem 7) 0 m) 33 = true))
  ∧ (∀ (s : State) (i : Fin 4352) (e : Nat), e = s.dev.steEnt 0 i →
      (s.dev.quiet → (s.dev.flag F.STE_CTRL_CYC_EN = false ∨ s.dev.steRuns = false) → exec (.cyclicRelease i) s = .next s)
      ∧ (s.dev.flag F.STE_CTRL_CYC_EN = true → s.dev.steRuns = true → (imValid e = false ∨ imMode e < 2) →
        exec (.cyclicRelease i) s = .next { s with dev := (s.dev.steTouch 0 i).settle })
      ∧ (imValid e = true → 2 ≤ imMode e → s.dev.flag F.STE_CTRL_CYC_EN = true → s.dev.steRuns = true → ∀ first due d0 d1, d0 = s.dev.steTouch 0 i →
        first = (if d0.dtime = 0 ∧ imPhase e = 0 then 0 else nextCyclic (imPeriod e) (imPhase e) (d0.dtime - 1)) →
        due = (if (d0.image i).cyc = some first ∨ d0.time.stepAt = some first then nextCyclic (imPeriod e) (imPhase e) first else first) →
        d1 = d0.reachDtime due →
        exec (.cyclicRelease i) s = .next { s with dev := ((d1.setImage i { d1.image i with cyc := some due }).release i true).settle }))
  ∧ (∀ (s : State) (i : Fin 4352),
      (s.dev.quiet → ((s.dev.image i).pend = false ∨ s.dev.steRuns = false) → exec (.triggeredRelease i) s = .next s)
      ∧ (∀ t, (s.dev.image i).pend = true → s.dev.steRuns = true → (s.dev.image i).last = some t →
        exec (.triggeredRelease i) s = .next { s with dev := ((s.dev.reach (t + imGap (s.dev.steEnt 0 i) * msCyc)).release i false).settle })
      ∧ ((s.dev.image i).pend = true → s.dev.steRuns = true → (s.dev.image i).last = none →
        exec (.triggeredRelease i) s = .next { s with dev := (s.dev.release i false).settle }))
  ∧ (∀ (s : State) (x : Intake) (l : List Intake) (d0 : Dev) (body : List Byte), s.dev.ste.intakes = x :: l →
      d0 = { s.dev with ste := { s.dev.ste with intakes := l } } → body = x.frame.drop ((parseHdr x.frame).off + 2) →
      (d0.steRuns = false → s.dev.quiet → exec .intakeFrame s = .next { s with dev := d0 })
      ∧ (d0.steRuns = true → inKind (d0.steEnt 6 x.filter) ≠ 1 →
        (byteAt body 0 = 1 → 16 ≤ body.length → exec .intakeFrame s = .next { s with dev :=
          ((d0.intakePdus x (be16 body 6) (body.drop 16)).enteredAs x.port d0.fwd.seq x.order).settle })
        ∧ (byteAt body 0 = 1 → body.length < 16 → exec .intakeFrame s = .next { s with dev := ((d0.inc F.STE_DECAP_ERROR_COUNT).enteredAs x.port d0.fwd.seq x.order).settle })
        ∧ (byteAt body 0 = 2 → exec .intakeFrame s = .next { s with dev := ((d0.intakeXl x body).enteredAs x.port d0.fwd.seq x.order).settle })
        ∧ (byteAt body 0 ≠ 1 → byteAt body 0 ≠ 2 → exec .intakeFrame s = .next { s with dev :=
          ((d0.inc F.STE_DECAP_ERROR_COUNT).enteredAs x.port d0.fwd.seq x.order).settle }))
      ∧ (∀ n, d0.steRuns = true → inKind (d0.steEnt 6 x.filter) = 1 → n = byteAt body 1 % 8 * 256 + byteAt body 2 →
        (byteAt body 0 = 0x82 → byteAt body 1 / 16 = 8 → 12 + n ≤ body.length → exec .intakeFrame s = .next { s with dev :=
          ((d0.intakeAcf x (n + 1) ((body.drop 12).take n)).enteredAs x.port d0.fwd.seq x.order).settle })
        ∧ ((byteAt body 0 ≠ 0x82 ∨ byteAt body 1 / 16 ≠ 8 ∨ body.length < 12 + n) → exec .intakeFrame s = .next { s with dev :=
          ((d0.inc F.STE_DECAP_ERROR_COUNT).enteredAs x.port d0.fwd.seq x.order).settle })))
  ∧ (∀ (s : State) (c : Fin 64),
      (s.dev.quiet → s.dev.cont c = none → exec (.containerHoldExpiry c) s = .next s)
      ∧ (∀ k, s.dev.cont c = some k → exec (.containerHoldExpiry c) s = .next { s with dev := (((s.dev.steTouch 5 c).reach (k.since + k.hold * usCyc)).contClose c).settle }))
  ∧ (∀ (s : State), s.dev.quiet → s.dev.ste.events.find? s.dev.eventFree = none → exec .eventPduRelease s = .next s)
  ∧ (∀ (s : State) (e : SteEvent) (d1 d2 : Dev) (c x : Nat), s.dev.ste.events.find? s.dev.eventFree = some e →
      d1 = { s.dev with ste := { s.dev.ste with events := s.dev.ste.events.erase e } } → c = d1.get F.STE_EVF_CFG_CONTAINER → d2 = d1.steTouch 5 c → x = d2.steEnt 5 c →
      (d1.steRuns = false → s.dev.quiet → exec .eventPduRelease s = .next { s with dev := d1 })
      ∧ (d1.steRuns = true → coValid x = false → exec .eventPduRelease s = .next { s with dev := (d2.inc F.STE_FORMAT_DROP_COUNT).settle })
      ∧ (d1.steRuns = true → coValid x = true → exec .eventPduRelease s = .next { s with dev :=
        (d2.contPdu c (d2.get F.STE_EVF_PDU_ID_ID) e.bytes (d2.beDeadline d2.dtime (coTc x)) none 49 0).settle }))

/-- CAN_BUS_INTEGRATED, CAN_BUSOFF_RECOVERED, RATE_DET_DWELL_EXPIRY and COLLISION_WINDOW_EXPIRY. -/
def Obligations.CanModeSteps : Prop :=
  (∀ (s : State) (c : Fin 20), s.dev.quiet →
      ((s.dev.ctl c).joining = true → s.dev.canInit c = false → ∃ t, exec (.canBusIntegrated c) s = .next t
        ∧ (t.dev.ctl c).joining = false ∧ t.dev.flag (F.CAN_STATUS_IDLE c) = true ∧ s.dev.regsOnly t.dev [R.CAN_STATUS c])
      ∧ ((s.dev.ctl c).joining = false ∨ s.dev.canInit c = true → exec (.canBusIntegrated c) s = .next s))
  ∧ (∀ (s : State) (c : Fin 20), s.dev.get (F.CAN_STATUS_STATE c) = 2 → s.dev.flag (F.CAN_STATUS_RECOVERING c) = true → s.dev.canInit c = false →
      ∃ d2 : Dev, exec (.canBusoffRecovered c) s = .next { s with dev := ((d2.countEvent (blkCan c) 0).steEvent 0x03 (20 + c) 0).settle }
        ∧ d2.get (F.CAN_ERRCNT_TEC c) = 0 ∧ d2.get (F.CAN_ERRCNT_REC c) = 0 ∧ d2.get (F.CAN_ERRCNT_RP c) = 0
        ∧ d2.get (F.CAN_STATUS_STATE c) = 0 ∧ d2.flag (F.CAN_STATUS_RECOVERING c) = false ∧ d2.flag (F.CAN_CTRL_RECOVER c) = false
        ∧ d2.flag (F.CAN_STATUS_IDLE c) = true ∧ s.dev.regsOnly d2 [R.CAN_ERRCNT c, R.CAN_STATUS c, R.CAN_CTRL c])
  ∧ (∀ (s : State) (c : Fin 20), s.dev.quiet → (s.dev.get (F.CAN_STATUS_STATE c) ≠ 2 ∨ s.dev.flag (F.CAN_STATUS_RECOVERING c) = false ∨ s.dev.canInit c = true) →
      exec (.canBusoffRecovered c) s = .next s)
  ∧ (∀ (s : State) (c : Fin 20),
      (s.dev.rateSearching c = true → exec (.rateDetDwellExpiry c) s = .next { s with dev :=
        ((s.dev.reach ((s.dev.ctl c).dwell + atLeastOne (s.dev.get (F.CAN_RD_CFG_DWELL_MS c)) * msCyc)).rateNext c).settle })
      ∧ (s.dev.rateSearching c = false → s.dev.quiet → exec (.rateDetDwellExpiry c) s = .next s))
  ∧ (∀ (s : State) (c : Fin 20) (k : Fin 8), s.dev.quiet →
      (SMap.get (s.dev.ctl c).hits [] k = [] → exec (.collisionWindowExpiry c k) s = .next s)
      ∧ (∀ t l d1, SMap.get (s.dev.ctl c).hits [] k = t :: l → d1 = s.dev.reach (t + atLeastOne (s.dev.get (F.CAN_COLL_CFG_WINDOW_MS c)) * msCyc) →
        ∃ u, exec (.collisionWindowExpiry c k) s = .next u ∧ SMap.get (u.dev.ctl c).hits [] k = l
          ∧ u.dev.get (F.CAN_TRACK_W1_COUNT c k) = min 255 l.length ∧ d1.regsOnly u.dev [(F.CAN_TRACK_W1_COUNT c k).addr]))

/-- R211, whole. SUSPEND_RELEASE_HOST and SUSPEND_RELEASE_TIMEOUT. -/
def Obligations.SuspensionEnds : Prop :=
  (∀ (s : State) (m : Fin 4) (c : Fin 20) (k : Fin 8), s.dev.quiet → s.dev.opens m (R.CAN_TRACK c k) → s.dev.flag (F.CAN_TRACK_SUSPENDED c k) = true →
      ∃ t, exec (.suspendReleaseHost m c k) s = .next t ∧ t.dev.flag (F.CAN_TRACK_SUSPENDED c k) = false ∧ t.dev.get (F.CAN_TRACK_W1_COUNT c k) = 0
        ∧ SMap.get (t.dev.ctl c).hits [] k = [] ∧ SMap.get (t.dev.ctl c).susp none k = none
        ∧ s.dev.regsOnly t.dev [R.CAN_TRACK c k, R.CAN_TRACK c k + 4] ∧ t.dev.fwd = s.dev.fwd ∧ t.dev.tbl = s.dev.tbl ∧ t.dev.hostMem = s.dev.hostMem)
  ∧ (∀ (s : State) (c : Fin 20) (k : Fin 8) (t0 : Nat) (d1 : Dev), s.dev.quiet → s.dev.flag (F.CAN_TRACK_SUSPENDED c k) = true →
      SMap.get (s.dev.ctl c).susp none k = some t0 → s.dev.get (F.CAN_COLL_REL_RELEASE_S c) ≠ 0 → d1 = s.dev.reach (t0 + s.dev.get (F.CAN_COLL_REL_RELEASE_S c) * sCyc) →
      ∃ t, exec (.suspendReleaseTimeout c k) s = .next t ∧ t.dev.flag (F.CAN_TRACK_SUSPENDED c k) = false ∧ t.dev.get (F.CAN_TRACK_W1_COUNT c k) = 0
        ∧ SMap.get (t.dev.ctl c).hits [] k = [] ∧ SMap.get (t.dev.ctl c).susp none k = none
        ∧ d1.regsOnly t.dev [R.CAN_TRACK c k, R.CAN_TRACK c k + 4] ∧ t.dev.fwd = s.dev.fwd ∧ t.dev.tbl = s.dev.tbl ∧ t.dev.hostMem = s.dev.hostMem
        ∧ t0 + s.dev.get (F.CAN_COLL_REL_RELEASE_S c) * sCyc ≤ t.dev.now)
  ∧ (∀ (s : State) (c : Fin 20) (k : Fin 8), s.dev.quiet → s.dev.get (F.CAN_COLL_REL_RELEASE_S c) = 0 → exec (.suspendReleaseTimeout c k) s = .next s)

/-- CAN_FRAME_VALID, CAN_PROTOCOL_EXCEPTION, CAN_ARBITRATION_ATTEMPT, ARBITRATION_FIELD_END, CAN_TX_COMPLETE, CAN_BUS_ERROR and TOUCHSTONE_SYNC_RELEASE. -/
def Obligations.CanTraffic : Prop :=
  (∀ (s : State) (c : Fin 20) (f : CanFrame) (age : Nat) (bad : Bool) (d : Dev), d = s.dev →
      (d.canReceives c = false → d.quiet → exec (.canFrameValid c f age bad) s = .next s)
      ∧ (d.canReceives c = true → d.segHears (20 + c) = false → exec (.canFrameValid c f age bad) s = .next { s with dev := (d.wakeSeen (20 + c) 7).settle })
      ∧ (d.canReceives c = true → d.segHears (20 + c) = true → d.rateSearching c = true → f.form < 2 → exec (.canFrameValid c f age bad) s = .next { s with dev := ((d.rateConfirm c).canIdle c).settle })
      ∧ (d.canReceives c = true → d.segHears (20 + c) = true → (d.rateSearching c = true ∧ 2 ≤ f.form ∨ d.rateSearching c = false ∧ d.canOff c f.form = true) →
        exec (.canFrameValid c f age bad) s = exec (.canProtocolException c) s)
      ∧ (d.canReceives c = true → d.segHears (20 + c) = true → d.rateSearching c = false → d.canOff c f.form = false → ∀ (m : Msg) (d2 : Dev),
        m = canMsg f ((d.dtime + 2 ^ 64 - age % 2 ^ 64) % 2 ^ 64) false → ∀ d1 : Dev,
        d1 = (((((if d.get (F.CAN_CTRL_MODE c) = 1 then d else d.emit (.canAck (20 + c))).canIdle c).canRxOk c).canPert c 1).countRx (20 + c) m.data.length) →
        d2 = (d1.segReceived (20 + c) (d1.nmmOf c m) (some m.id)).ledgerCheck (20 + c) m.form m.id m.data.length f.brs 0 →
        exec (.canFrameValid c f age bad) s = .next { s with dev :=
          ((d2.setPart (20 + c) none).fqPut (20 + c) m d2.dtime (d2.get (F.CAN_STATUS_STATE c)) bad (d2.part (20 + c))).1.settle }))
  ∧ (∀ (s : State) (c : Fin 20) (d d1 : Dev), d = s.dev → d1 = ((d.inc (F.CAN_PEX_COUNT c)).xlFail (20 + c)).canQuiet c →
      (d.canReceives c = false → d.quiet → exec (.canProtocolException c) s = .next s)
      ∧ (d.canReceives c = true → (d.flag (F.CAN_CTRL_PEX_EN c) || d.rateSearching c) = true →
        exec (.canProtocolException c) s = .next { s with dev := (d1.setCtl c { d1.ctl c with joining := true }).settle })
      ∧ (d.canReceives c = true → (d.flag (F.CAN_CTRL_PEX_EN c) || d.rateSearching c) = false →
        exec (.canProtocolException c) s = .next { s with dev := (d.canRxError c 2 false false 0).settle }))
  ∧ (∀ (s : State) (c : Fin 20) (bad : Bool) (d d1 : Dev) (o : Option Copy), d = s.dev → d.canOffer c (d.heap (20 + c)).length bad = (d1, o) →
      (d.quiet → (d.canContends c = false ∨ (d.ctl c).joining = true ∨ (d.arbCopy c).isSome = true ∨ d.portUp (20 + c) = false ∨ d.segSends (20 + c) = false) →
        exec (.canArbitrationAttempt c bad) s = .next s)
      ∧ (d.canContends c = true → (d.ctl c).joining = false → d.arbCopy c = none → d.portUp (20 + c) = true → d.segSends (20 + c) = true →
        (o = none → exec (.canArbitrationAttempt c bad) s = .next { s with dev := d1.settle })
        ∧ (∀ x, o = some x → exec (.canArbitrationAttempt c bad) s = .next { s with dev :=
          ((((d1.setCtl c { d1.ctl c with arb := some ⟨x.seq, d1.dtime, d1.get F.TIME_STATUS_EPOCH⟩ }).set (F.CAN_STATUS_IDLE c) 0).emit
            (.canFrame (20 + c) { x.msg with flags := d1.canSentFlags c x.msg } (d1.canPwm c x.msg.form))).canPert c 0).settle })))
  ∧ (∀ (s : State) (c : Fin 20), s.dev.quiet →
      (∀ won, s.dev.arbCopy c = none → exec (.arbitrationFieldEnd c won) s = .next { s with dev := s.dev.setCtl c { s.dev.ctl c with arb := none } })
      ∧ (∀ a x, s.dev.arbCopy c = some (a, x) →
        (∃ t, exec (.arbitrationFieldEnd c true) s = .next t ∧ t.dev.flag (F.CAN_STATUS_TX_ACTIVE c) = true ∧ t.dev.can = s.dev.can
          ∧ (s.dev.setCopy { x with started := true, since := s.dev.now }).fwd = t.dev.fwd ∧ s.dev.regsOnly t.dev [R.CAN_STATUS c])
        ∧ (∃ t, exec (.arbitrationFieldEnd c false) s = .next t ∧ t.dev.flag (F.CAN_STATUS_RX_ACTIVE c) = true ∧ (t.dev.ctl c).arb = none
          ∧ t.dev.fwd = s.dev.fwd ∧ s.dev.regsOnly t.dev [R.CAN_STATUS c])))
  ∧ (∀ (s : State) (c : Fin 20) (delay : CanEdges) (d1 d2 : Dev) (a : Arb) (x : Copy), s.dev.arbCopy c = some (a, x) → x.started = true →
      d1 = (s.dev.canRelease c a x).canDelay c x.msg delay.edges →
      d2 = (d1.canCount c (d1.get (F.CAN_ERRCNT_TEC c) - 1) (d1.get (F.CAN_ERRCNT_REC c))).canSelf c { x.msg with flags := s.dev.canSentFlags c x.msg } a.sof →
      (x.kind = .plain → exec (.canTxComplete c delay) s = .next { s with dev := d2.settle })
      ∧ (x.kind = .tsSync → ∀ d3 : Dev, d3 = d2.inc F.TS_TS_SYNC_SENT_COUNT →
        (a.epoch = d3.get F.TIME_STATUS_EPOCH → exec (.canTxComplete c delay) s = .next { s with dev := (d3.tsFollow c x.msg.data a.sof).settle })
        ∧ (a.epoch ≠ d3.get F.TIME_STATUS_EPOCH → exec (.canTxComplete c delay) s = .next { s with dev := d3.tsFupDrop.settle }))
      ∧ (x.kind = .tsOld → exec (.canTxComplete c delay) s = .next { s with dev := (d2.inc F.TS_TS_SYNC_SENT_COUNT).settle })
      ∧ (∀ k, x.kind = .xpt k → exec (.canTxComplete c delay) s = .next { s with dev := (d2.xptSent k).settle }))
  ∧ (∀ (d : Dev) (c : Fin 20) (l : List Nat) (m : Msg) (sof : Nat) (phase : Bool), phase = (m.form == 4 || ((m.form == 2 || m.form == 3) && bit m.flags 0)) →
      ((d.flag (F.CAN_TDC_TDC_EN c) = false ∨ phase = false ∨ d.nomMtq c ≤ d.dataMtq c ∨ tdcEdge (d.get (F.CAN_TDC_TDCF c)) 0 l = none) → d.canDelay c m l = d)
      ∧ (∀ delay, tdcEdge (d.get (F.CAN_TDC_TDCF c)) 0 l = some delay → delay ∈ l ∧ (d.flag (F.CAN_TDC_TDC_EN c) = true → phase = true → d.dataMtq c < d.nomMtq c →
        (d.canDelay c m l).get (F.CAN_TDC_TDCV c) = min 127 delay
        ∧ ((d.canDelay c m l).ctl c).ssp = min 127 delay + d.get (F.CAN_TDC_TDCO c) ∧ (d.canDelay c m l).fwd = d.fwd
        ∧ d.regsOnly (d.canDelay c m l) [R.CAN_TDC c, R.CAN_STATUS c]))
      ∧ (d.flag (F.CAN_CTRL_SELF_RX c) = false → d.canSelf c m sof = d))
  ∧ (∀ (s : State) (c : Fin 20) (delay : CanEdges), s.dev.quiet → s.dev.arbCopy c = none → exec (.canTxComplete c delay) s = .next s)
  ∧ (∀ (s : State) (c : Fin 20) (tx : Bool) (code : Fin 9) (field : CanField) (bitPos : Nat) (dp tail : Bool) (more : Nat) (delay : CanEdges) (d : Dev), d = s.dev →
      (d.quiet → (d.canInit c = true ∨ (d.ctl c).joining = true) → exec (.canBusError c tx code field bitPos dp ⟨tail, more, delay⟩) s = .next s)
      ∧ (d.canInit c = false → (d.ctl c).joining = false → d.rateSearching c = false →
        ((tx = false ∨ d.arbCopy c = none) → d.canReceives c = true → exec (.canBusError c tx code field bitPos dp ⟨tail, more, delay⟩) s = .next { s with dev := (d.canRxError c code dp tail more).settle })
        ∧ (∀ a x d0 d1 d2 n, tx = true → d.arbCopy c = some (a, x) →
          d0 = (((d.set (F.CAN_LEC_CODE c) code).set (F.CAN_LEC_DATA_PHASE c) (b2n dp)).excuse (20 + c) (fun _ => true)).canFlag c →
          d1 = ((if dp || field == .ack || field == .eof then d0.canDelay c x.msg delay.edges else d0).canIdle c).attemptLost c { x with excused := true } →
          d2 = (if ((code.val == 4 || code.val == 5) && (field == .control || field == .data) && x.started) = true then d1.collision c x.msg.form x.msg.id bitPos (field == .data) else d1) →
          n = (if (tail && ((code.val == 3 && d.get (F.CAN_STATUS_STATE c) == 1) || (code.val == 1 && field == .arbitration))) = true then 0 else 8) + 8 * more →
          (n ≠ 0 → exec (.canBusError c tx code field bitPos dp ⟨tail, more, delay⟩) s = .next { s with dev :=
            (d2.canCount c (min 511 (d2.get (F.CAN_ERRCNT_TEC c) + n)) (d2.get (F.CAN_ERRCNT_REC c))).settle })
          ∧ (n = 0 → exec (.canBusError c tx code field bitPos dp ⟨tail, more, delay⟩) s = .next { s with dev := d2.settle })))
      ∧ (d.canInit c = false → (d.ctl c).joining = false → d.rateSearching c = true → ∀ d1 : Dev, d1 = (d.set (F.CAN_LEC_CODE c) code).set (F.CAN_LEC_DATA_PHASE c) (b2n dp) →
        exec (.canBusError c tx code field bitPos dp ⟨tail, more, delay⟩) s = .next { s with dev := (if code.val = 1 ∨ code.val = 2 ∨ code.val = 6 then d1.rateNext c else d1).settle }))
  ∧ (∀ (s : State) (t0 t : Nat) (d d1 : Dev), d = s.dev →
      (d.tsRuns = false → d.quiet → exec .touchstoneSyncRelease s = .next s)
      ∧ (d.tsRuns = true → d.dtime ≤ d.get F.TS_TS_PERIOD_PHASE_MS * 1000000 % (d.tsPeriod * 1000000) → t0 = d.get F.TS_TS_PERIOD_PHASE_MS * 1000000 % (d.tsPeriod * 1000000) →
        t = (if d.can.tsLast = some t0 ∨ d.time.stepAt = some t0 then t0 + d.tsPeriod * 1000000 else t0) → d1 = d.reachDtime t →
        exec .touchstoneSyncRelease s = .next { s with dev := ((bitsOf 20 (d1.get F.TS_TS_PORTS_PORTS)).foldl (fun (d : Dev) c => d.tsPort c t) { d1 with can := { d1.can with tsLast := some t } }).settle }))

/-- LIN_SLOT_START, LIN_HEADER_RX, LIN_RESPONSE_VALID, LIN_NO_RESPONSE, LIN_ERROR, XCVR_MODE_APPLIED and TXD_DOMINANT_TIMEOUT. -/
def Obligations.LinSteps : Prop :=
  (∀ (s : State) (n : Fin 8), s.dev.quiet →
      (s.dev.linActive n = false →
        (∀ id data cl age bad, exec (.linResponseValid n id data cl age bad) s = .next s) ∧ (∀ e, exec (.linError n e) s = .next s)
        ∧ exec (.linNoResponse n) s = .next s ∧ ∀ id brk rate age bad err, exec (.linHeaderRx n id ⟨brk, rate⟩ age ⟨bad, err⟩) s = .next s)
      ∧ ((s.dev.linCtl n).running = false → ∀ busy bad err, exec (.linSlotStart n busy ⟨bad, err⟩) s = .next s))
  ∧ (∀ (s : State) (n : Fin 8) (x : Lin) (d0 d1 : Dev), x = s.dev.linCtl n → x.running = true → d0 = s.dev.reach x.slotEnd →
      d1 = (match (d0.linCtl n).next with
        | some t => (d0.set (F.LIN_STATUS_TABLE n) t).setLinCtl n { d0.linCtl n with next := none }
        | none => d0) →
      ((x.stopping = true ∨ d0.linActive n = false ∨ d0.flag (F.LIN_CTRL_ROLE n) = false) → ∀ busy bad err,
        (x.sleepDue = false ∨ d0.linActive n = false → exec (.linSlotStart n busy ⟨bad, err⟩) s = .next { s with dev := (d1.setLinCtl n { Lin.init with next := (d1.linCtl n).next }).settle })
        ∧ (x.sleepDue = true → d0.linActive n = true → exec (.linSlotStart n busy ⟨bad, err⟩) s = .next { s with dev := ((d1.setLinCtl n { Lin.init with next := (d1.linCtl n).next }).goToSleep (40 + n)).settle }))
      ∧ (x.stopping = false → d0.linActive n = true → d0.flag (F.LIN_CTRL_ROLE n) = true → ∀ (t i e : Nat) (d2 d3 h : Dev),
        t = d1.get (F.LIN_STATUS_TABLE n) → i = (if x.next.isSome then 0 else d1.slotNext n t x) → e = d1.slotEnt n t i →
        d2 = (d1.set (F.LIN_STATUS_SLOT n) i).setLinCtl n { x with next := none, slotAt := d1.now, slotEnd := d1.now + atLeastOne (lsDelay e) * d1.get (F.LIN_TBASE_TBASE_US n) * usCyc, cur := none } →
        d3 = d2.setLinCtl n { d2.linCtl n with skips := 0 } →
        h = (d3.linSendHeader n (lsId e)).setLinCtl n { (d3.linSendHeader n (lsId e)).linCtl n with cur := some ⟨lsId e, lsDir e, lsLen e, lsChk e, none⟩ } →
        (lsDir e = 3 → ∀ busy bad err, exec (.linSlotStart n busy ⟨bad, err⟩) s = .next { s with dev := d2.settle })
        ∧ (lsDir e ≠ 3 → ∀ bad err,
          (x.skips + 1 ≠ 16 → exec (.linSlotStart n true ⟨bad, err⟩) s = .next { s with dev :=
            ((d2.inc (F.LIN_SKIPPED_COUNT n)).setLinCtl n { d2.linCtl n with skips := x.skips + 1 }).settle })
          ∧ (x.skips + 1 = 16 → exec (.linSlotStart n true ⟨bad, err⟩) s = .next { s with dev :=
            (((d2.inc (F.LIN_SKIPPED_COUNT n)).setLinCtl n { d2.linCtl n with skips := x.skips + 1 }).fltSet (blkLin n) 1).settle }))
        ∧ (lsDir e = 1 ∨ lsDir e = 2 → ∀ bad err, err ≠ some .header → exec (.linSlotStart n false ⟨bad, err⟩) s = .next { s with dev := h.settle })
        ∧ (lsDir e ≠ 3 → ∀ bad, exec (.linSlotStart n false ⟨bad, some .header⟩) s = .next { s with dev := (((h.setLinCtl n { h.linCtl n with cur := none }).busError (40 + n)).inc (F.LIN_HDR_ERR_COUNT n)).settle })
        ∧ (lsDir e = 0 → ∀ bad err d4 c o, err ≠ some .header → d3.linData (40 + n) (lsId e) (lsNoData e) bad = (d4, c, o) → ∀ h4 : Dev,
          h4 = (d4.linSendHeader n (lsId e)).setLinCtl n { (d4.linSendHeader n (lsId e)).linCtl n with cur := some ⟨lsId e, 0, lsLen e, lsChk e, none⟩ } →
          (∀ bs, o = some bs → exec (.linSlotStart n false ⟨bad, err⟩) s = .next { s with dev := (h4.linRespond n (lsId e) (lsChk e) c bs d4.dtime err).settle })
          ∧ (o = none → exec (.linSlotStart n false ⟨bad, err⟩) s = .next { s with dev := (if lsNoData e then d4 else h4).settle }))))
  ∧ (∀ (d : Dev) (n : Fin 8) (id : Nat), (d.muted (.linHeader (40 + n) (13 + d.get (F.LIN_CTRL_BREAK_EXT n)) 1 0x55 (linPid id)) = false →
        (d.linSendHeader n id).out = .linHeader (40 + n) (13 + d.get (F.LIN_CTRL_BREAK_EXT n)) 1 0x55 (linPid id) :: d.out)
      ∧ (d.linSendHeader n id).regs = d.regs ∧ (d.linSendHeader n id).fwd = d.fwd)
  ∧ (∀ (s : State) (n : Fin 8), s.dev.quiet → s.dev.linActive n = true → ∀ d0 : Dev, d0 = (s.dev.setLinCtl n { s.dev.linCtl n with cur := none }).busError (40 + n) →
      (∃ t, exec (.linError n .header) s = .next t ∧ t.dev.get (F.LIN_HDR_ERR_COUNT n) = satAdd 32 (s.dev.get (F.LIN_HDR_ERR_COUNT n)) 1 ∧ (t.dev.linCtl n).cur = none
        ∧ s.dev.regsOnly t.dev [R.LIN_HDR_ERR n] ∧ t.dev.fwd = d0.fwd)
      ∧ (∃ t, exec (.linError n .framing) s = .next t ∧ t.dev.get (F.LIN_FRAME_ERR_COUNT n) = satAdd 32 (s.dev.get (F.LIN_FRAME_ERR_COUNT n)) 1 ∧ (t.dev.linCtl n).cur = none
        ∧ s.dev.regsOnly t.dev [R.LIN_FRAME_ERR n] ∧ t.dev.fwd = d0.fwd)
      ∧ (∃ t, exec (.linError n .checksum) s = .next t ∧ t.dev.get (F.LIN_CHK_ERR_COUNT n) = satAdd 32 (s.dev.get (F.LIN_CHK_ERR_COUNT n)) 1 ∧ (t.dev.linCtl n).cur = none
        ∧ s.dev.regsOnly t.dev [R.LIN_CHK_ERR n] ∧ t.dev.fwd = d0.fwd)
      ∧ exec (.linError n .bit) s = .next { s with dev := ((d0.inc (F.LIN_BIT_ERR_COUNT n)).fault (blkLin n) 0).settle }
      ∧ (∀ c ∈ d0.fwd.copies, c.port = 40 + n.val → c.excused = true)
      ∧ (∀ f, (s.dev.linCtl n).cur = some f → (if s.dev.flag (F.LIN_CTRL_ROLE n) then f.dir ≠ 0 else f.dir = 2) →
        ∃ t, exec (.linNoResponse n) s = .next t ∧ t.dev.get (F.LIN_NO_RESP_COUNT n) = satAdd 32 (s.dev.get (F.LIN_NO_RESP_COUNT n)) 1 ∧ (t.dev.linCtl n).cur = none
          ∧ s.dev.regsOnly t.dev [R.LIN_NO_RESP n] ∧ t.dev.fwd = d0.fwd)
      ∧ (∀ id brk rate age bad err, s.dev.flag (F.LIN_CTRL_ROLE n) = false → s.dev.linHeaderOk n brk rate = false ∨ err = some .header →
        exec (.linHeaderRx n id ⟨brk, rate⟩ age ⟨bad, err⟩) s = .next { s with dev := (s.dev.busError (40 + n)).inc (F.LIN_HDR_ERR_COUNT n) })
      ∧ (∀ brk rate, (s.dev.flag (F.LIN_CTRL_AUTOBAUD n) = true →
          (s.dev.linHeaderOk n brk rate = true ↔ 550000 ≤ brk ∧ 1000 ≤ rate ∧ rate ≤ 20000 ∧ 11 * 1000000000 ≤ brk * rate))
        ∧ (s.dev.flag (F.LIN_CTRL_AUTOBAUD n) = false → (s.dev.linHeaderOk n brk rate = true ↔ 11 * 1000000000 ≤ brk * s.dev.get (F.LIN_BAUD_RATE n)
          ∧ 86 * s.dev.get (F.LIN_BAUD_RATE n) ≤ 100 * rate ∧ 100 * rate ≤ 114 * s.dev.get (F.LIN_BAUD_RATE n))))
      ∧ (∀ id data chk age bad, data = [] ∨ 8 < data.length → exec (.linResponseValid n id data chk age bad) s = .next s))
  ∧ (∀ (s : State) (n : Fin 8) (id : Fin 64) (data body : List Byte) (chk : Byte) (age k : Nat) (bad : Bool) (sum : Nat), s.dev.linActive n = true → data ≠ [] → data.length ≤ 8 →
      k = (s.dev.linWant n id).getD data.length → body = data.take k → sum = byteAt (data ++ [chk]) k →
      (data.length < k → exec (.linResponseValid n id data ⟨chk⟩ age bad) s = exec (.linError n .framing) s)
      ∧ (k ≤ data.length → s.dev.linSumOk n id body sum = none → exec (.linResponseValid n id data ⟨chk⟩ age bad) s = exec (.linError n .checksum) s)
      ∧ (k ≤ data.length → ∀ (cl : Bool) (d1 d2 : Dev), s.dev.linSumOk n id body sum = some cl →
        d1 = (((s.dev.setLinCtl n { s.dev.linCtl n with cur := none }).countRx (40 + n) body.length).segReceived (40 + n) none (some id)).ledgerCheck (40 + n) 5 id body.length false 0 →
        d2 = (d1.fqPut (40 + n) { Msg.init with form := 5, id := id, data := body, flags := 32 * b2n cl, sof := (d1.dtime + 2 ^ 64 - age % 2 ^ 64) % 2 ^ 64 } d1.dtime 0 bad none).1 →
        (id.val ≠ 0x3C → exec (.linResponseValid n id data ⟨chk⟩ age bad) s = .next { s with dev := d2.settle })
        ∧ (id.val = 0x3C → body = bytes [0, 0xFF, 0xFF, 0xFF, 0xFF, 0xFF, 0xFF, 0xFF] → exec (.linResponseValid n id data ⟨chk⟩ age bad) s = .next { s with dev := (d2.linSleep n).settle })
        ∧ (id.val = 0x3C → body ≠ bytes [0, 0xFF, 0xFF, 0xFF, 0xFF, 0xFF, 0xFF, 0xFF] → exec (.linResponseValid n id data ⟨chk⟩ age bad) s = .next { s with dev := d2.settle })))
  ∧ (∀ (d : Dev) (n : Fin 8) (id : Fin 64) (body : List Byte) (sum : Nat) (f : LinFrame), (d.linCtl n).cur = some f → f.id = id.val → f.dir ≠ 0 ∨ d.flag (F.LIN_CTRL_ROLE n) = true →
      d.linWant n id = some f.len
      ∧ (f.enhanced = true → id.val < 0x3C → d.linSumOk n id body sum = if sum = linSum (leBytes 1 (linPid id) ++ body) then some false else none)
      ∧ (f.enhanced = false ∨ 0x3C ≤ id.val → d.linSumOk n id body sum = if sum = linSum body then some true else none))
  ∧ (∀ (s : State) (n : Fin 8) (id : Fin 64) (brk rate age e : Nat) (bad : Bool) (err : Option LinCut) (d0 d1 d2 : Dev), s.dev.linActive n = true → s.dev.flag (F.LIN_CTRL_ROLE n) = false →
      s.dev.linHeaderOk n brk rate = true → err ≠ some .header → d0 = (if s.dev.flag (F.LIN_CTRL_AUTOBAUD n) then s.dev.set (F.LIN_STATUS_MEAS_RATE n) rate else s.dev) →
      d1 = d0.setSeg (40 + n) { d0.seg (40 + n) with hdrAt := d0.now, pulses := 3 } → e = d1.tget memResp 0 (64 * n + id) →
      d2 = d1.setLinCtl n { d1.linCtl n with cur := some ⟨id, e % 4, lsLen e, lsChk e, none⟩ } →
      (e % 4 ≠ 1 ∨ 2 ≤ d2.segState (40 + n) → exec (.linHeaderRx n id ⟨brk, rate⟩ age ⟨bad, err⟩) s = .next { s with dev := d2.settle })
      ∧ (e % 4 = 1 → d2.segState (40 + n) < 2 → ∀ d3 c o, d2.linData (40 + n) id (lsNoData e) bad = (d3, c, o) →
        (o = none → exec (.linHeaderRx n id ⟨brk, rate⟩ age ⟨bad, err⟩) s = .next { s with dev := d3.settle })
        ∧ (∀ bs, o = some bs → exec (.linHeaderRx n id ⟨brk, rate⟩ age ⟨bad, err⟩) s = .next { s with dev :=
          (d3.linRespond n id (lsChk e) c bs ((d3.dtime + 2 ^ 64 - age % 2 ^ 64) % 2 ^ 64) err).settle })))
  ∧ (∀ (s : State) (p : Fin 48), s.dev.quiet →
      (∀ c : Fin 12, p.val = 20 + c.val → [1, 2].contains (s.dev.get (F.PWR_XCVR_CAN_MODE_ACT c)) = true → ∃ t, exec (.txdDominantTimeout p true) s = .next t
        ∧ t.dev.flag (F.PWR_XCVR_CAN_TXD_DOM c) = true ∧ bit t.dev.pwr.txdOff p = true ∧ s.dev.regsOnly t.dev [R.PWR_XCVR_CAN c] ∧ t.dev.fwd = s.dev.fwd ∧ t.dev.tbl = s.dev.tbl)
      ∧ (∀ c : Fin 12, p.val = 20 + c.val → [1, 2].contains (s.dev.get (F.PWR_XCVR_CAN_MODE_ACT c)) = false → exec (.txdDominantTimeout p true) s = .next s)
      ∧ (∀ n : Fin 8, p.val = 40 + n.val → [1, 2].contains (s.dev.get (F.PWR_XCVR_LIN_MODE_ACT n)) = true → ∃ t, exec (.txdDominantTimeout p true) s = .next t
        ∧ t.dev.flag (F.PWR_XCVR_LIN_TXD_DOM n) = true ∧ bit t.dev.pwr.txdOff p = true ∧ s.dev.regsOnly t.dev [R.PWR_XCVR_LIN n] ∧ t.dev.fwd = s.dev.fwd ∧ t.dev.tbl = s.dev.tbl)
      ∧ (hasXcvr p = true → ∃ t, exec (.txdDominantTimeout p false) s = .next t ∧ bit t.dev.pwr.txdOff p = false ∧ t.dev.regs = s.dev.regs ∧ t.dev.fwd = s.dev.fwd ∧ t.dev.tbl = s.dev.tbl)
      ∧ (hasXcvr p = false → ∀ off, exec (.txdDominantTimeout p off) s = .next s))
  ∧ (∀ (s : State) (p : Fin 48), (hasXcvr p = false → s.dev.quiet → exec (.xcvrModeApplied p) s = .next s)
      ∧ (∀ (c : Fin 12) (d1 d2 d3 : Dev), p.val = 20 + c.val → d1 = s.dev.xcvrApply p → d2 = (if d1.canContends c then d1 else d1.canClear c false) → d3 = d2.setSeg p { d2.seg p with active := true } →
        ((d2.segOn p && d2.segState p == 5 && d2.get (F.PWR_XCVR_CAN_MODE_ACT c) == d2.get (F.NM_SEG_CFG_ACT_MODE p)) = false → exec (.xcvrModeApplied p) s = .next { s with dev := d2.settle })
        ∧ (d2.segOn p = true → d2.segState p = 5 → d2.get (F.PWR_XCVR_CAN_MODE_ACT c) = d2.get (F.NM_SEG_CFG_ACT_MODE p) →
          exec (.xcvrModeApplied p) s = .next { s with dev := (if (d3.seg p).localWake && d3.nmRuns then d3.segStep p 0 else d3).settle }))
      ∧ (∀ n : Fin 8, p.val = 40 + n.val → ∀ d1, d1 = s.dev.xcvrApply p → (d1.segOn p = false ∨ d1.segState p ≠ 5) →
        exec (.xcvrModeApplied p) s = .next { s with dev := d1.settle }))

/-- LINK_UP, LINK_DOWN, GATE_EVENT, GATE_SWITCHOVER, PREEMPT_VERIFY_SUCCESS, PREEMPT_VERIFY_TIMEOUT, LPI_ENTER, BEACON_LOST, BEACON_REGAINED, PLCA_COLLISION and MDIO_COMPLETE. -/
def Obligations.LinksAndGates : Prop :=
  (∀ (s : State) (p : Fin 20) (k : Fin 8) (x : EthPort) (re : Bool), x = s.dev.ethPort p → re = (decide (p.val < 12) && s.dev.get (F.ETH_STEP_STATUS_STATE p) == 4) →
      (s.dev.quiet → s.dev.flag (F.ETH_STATUS_LINK p) = true ∨ s.dev.linkPower p = false ∨ (s.dev.seg p).phyLow = true ∨ s.dev.isolated (blkEth p) = true →
        exec (.linkUp p k) s = .next s)
      ∧ (s.dev.flag (F.ETH_STATUS_LINK p) = false → s.dev.linkPower p = true → (s.dev.seg p).phyLow = false → s.dev.isolated (blkEth p) = false →
        (4 ≤ p.val → p.val < 12 → k.val ≠ (if re then (if x.revert then x.prev else x.target) else s.dev.get (F.ETH_RATE_CUR p)) →
          exec (.linkUp p k) s = .next { s with dev := (s.dev.set (F.ETH_STATUS_SPEED_MISMATCH p) 1).settle })
        ∧ (12 ≤ p.val → s.dev.quiet → s.dev.flag (F.ETH_PLCA_CFG_EN p) = true → s.dev.get (F.ETH_PLCA_CFG_NODE_ID p) ≠ 0 → s.dev.flag (F.ETH_PLCA_STATUS_BEACON_OK p) = false →
          exec (.linkUp p k) s = .next s)
        ∧ (∀ d1 : Dev, d1 = ((s.dev.set (F.ETH_STATUS_LINK p) 1).set (F.ETH_STATUS_RETRAINING p) 0).setEthPort p { x with phyUp := true, noBeacon := false, idleAt := s.dev.now } →
          (12 ≤ p.val → s.dev.flag (F.ETH_PLCA_CFG_EN p) = false ∨ s.dev.get (F.ETH_PLCA_CFG_NODE_ID p) = 0 ∨ s.dev.flag (F.ETH_PLCA_STATUS_BEACON_OK p) = true →
            exec (.linkUp p k) s = .next { s with dev := d1.settle } ∧ d1.flag (F.ETH_STATUS_LINK p) = true ∧ d1.flag (F.ETH_STATUS_RETRAINING p) = false)
          ∧ (p.val < 12 → p.val < 4 ∨ k.val = (if re then (if x.revert then x.prev else x.target) else s.dev.get (F.ETH_RATE_CUR p)) → ∀ d2 d3 : Dev,
            d2 = d1.set (F.ETH_STATUS_SPEED_MISMATCH p) 0 →
            (re = true → x.revert = false → x.target < s.dev.get (F.ETH_RATE_FLOOR p) → exec (.linkUp p k) s = .next { s with dev := (s.dev.retrainBack p).settle })
            ∧ (re = false ∨ x.revert = true ∨ s.dev.get (F.ETH_RATE_FLOOR p) ≤ x.target →
              d3 = (if re then (if x.revert then d2.stepEnd p 5 else (d2.set (F.ETH_RATE_CUR p) x.target).stepEnd p 1) else d2) → ∀ d4 d5 : Dev,
              d4 = (if d3.gptpOn p && d3.flag (F.TIME_GPTP_PORT_STATIC_DELAY p) then d3.setAsCapable p true else d3) → d5 = d4.preemptStart p →
              (re = false ∨ (d5.ethPort p).toNom = false → exec (.linkUp p k) s = .next { s with dev := (d5.wakeSeen p 6).settle })
              ∧ (re = true → (d5.ethPort p).toNom = true → exec (.linkUp p k) s = .next { s with dev := ((d5.stepToNom p).wakeSeen p 6).settle })
              ∧ d3.flag (F.ETH_STATUS_LINK p) = true ∧ d3.flag (F.ETH_STATUS_RETRAINING p) = false)))))
  ∧ (∀ (s : State) (p : Fin 20) (d0 d1 d2 : Dev), d0 = s.dev.setEthPort p { s.dev.ethPort p with phyUp := false, noBeacon := false } →
      (s.dev.quiet → s.dev.flag (F.ETH_STATUS_LINK p) = false → (s.dev.ethPort p).noBeacon = false → exec (.linkDown p) s = .next { s with dev := d0 })
      ∧ (s.dev.flag (F.ETH_STATUS_LINK p) = false → (s.dev.ethPort p).noBeacon = true → exec (.linkDown p) s = .next { s with dev := ((d0.partCut p).flushPort p true).settle })
      ∧ (s.dev.flag (F.ETH_STATUS_LINK p) = true → d1 = ((d0.set (F.ETH_STATUS_LINK p) 0).set (F.ETH_STATUS_LPI_TX p) 0).set (F.ETH_STATUS_LPI_RX p) 0 →
        d2 = (d1.partCut p).flushPort p true → d1.flag (F.ETH_STATUS_LINK p) = false
        ∧ (p.val < 12 → exec (.linkDown p) s = .next { s with dev := ((((d2.preemptStop p).set (F.TIME_GPTP_PORT_AS_CAPABLE p) 0).inc (F.ETH_LINK_DOWNS_COUNT p)).fault (blkEth p) 0).settle })
        ∧ (12 ≤ p.val → exec (.linkDown p) s = .next { s with dev := ((d2.inc (F.ETH_LINK_DOWNS_COUNT p)).fault (blkEth p) 0).settle })
        ∧ (s.dev.part p = none → d1.partCut p = d1)))
  ∧ (∀ (s : State) (p : Fin 12), s.dev.quiet →
      (s.dev.get (F.ETH_PREEMPT_STATUS_VERIFY_STATE p) ≠ 2 → exec (.preemptVerifySuccess p) s = .next s ∧ exec (.preemptVerifyTimeout p) s = .next s)
      ∧ (s.dev.get (F.ETH_PREEMPT_STATUS_VERIFY_STATE p) = 2 →
        (∃ t, exec (.preemptVerifySuccess p) s = .next t ∧ t.dev.get (F.ETH_PREEMPT_STATUS_VERIFY_STATE p) = 3 ∧ t.dev.flag (F.ETH_PREEMPT_STATUS_ACTIVE p) = true
          ∧ t.dev.flag (F.ETH_STATUS_RETRAINING p) = false ∧ s.dev.regsOnly t.dev [R.ETH_PREEMPT_STATUS p, R.ETH_STATUS p] ∧ t.dev.fwd = s.dev.fwd)
        ∧ ∀ d1 : Dev, d1 = s.dev.reach ((s.dev.ethPort p).verAt + bf (s.dev.get (F.ETH_PREEMPT_OPER_DATA p)) 8 8 * msCyc) →
          (3 ≤ (s.dev.ethPort p).verTries → exec (.preemptVerifyTimeout p) s = .next { s with dev := ((d1.set (F.ETH_PREEMPT_STATUS_VERIFY_STATE p) 4).fltSet (blkEth p) 1).settle })
          ∧ ((s.dev.ethPort p).verTries < 3 → exec (.preemptVerifyTimeout p) s = .next { s with dev := (d1.setEthPort p { s.dev.ethPort p with verTries := (s.dev.ethPort p).verTries + 1, verAt := d1.now }).settle })))
  ∧ (∀ (s : State) (p : Fin 12) (d d0 d1 : Dev) (x0 x : Nat × Nat × Nat × Int), d = s.dev.gateRead p → x0 = d.gates p d.dtime →
      d0 = (if x0.1 = d.get (F.ETH_GATE_STATUS_STATES p) ∧ x0.2.1 = d.get (F.ETH_GATE_STATUS_ENTRY p) ∧ x0.2.2.2 = ((d.ethPort p).gateCyc : Int) ∧ x0.2.2.1 < 2 ^ 64
        then d.reachDtime x0.2.2.1 else d) →
      x = d0.gates p d0.dtime →
      d1 = d0.windowsEnd p (d0.get (F.ETH_GATE_STATUS_STATES p)) x.1 (d0.gateAlways p) (x.2.2.2 != ((d0.ethPort p).gateCyc : Int)) →
      exec (.gateEvent p) s = .next { s with dev := (((d1.set (F.ETH_GATE_STATUS_STATES p) x.1).set (F.ETH_GATE_STATUS_ENTRY p) x.2.1).setEthPort p
        { ((d1.set (F.ETH_GATE_STATUS_STATES p) x.1).set (F.ETH_GATE_STATUS_ENTRY p) x.2.1).ethPort p with gateCyc := x.2.2.2.toNat }).settle })
  ∧ (∀ (s : State) (p : Fin 12) (g : GateCfg), g = s.dev.gateOper p → (g.en = false ∨ g.len = 0 → s.dev.gateRead p = s.dev)
      ∧ (g.en = true → g.len ≠ 0 → s.dev.gateRead p = (s.dev.entryRead 6 (b2n (pipeB p)) (1024 * p + (s.dev.get (F.ETH_GATE_STATUS_ENTRY p) + 1) % g.len)).1))
  ∧ (∀ (d : Dev) (p : Fin 12) (old new always : Nat) (cycle : Bool),
      d.windowsEnd p old new always cycle = ((List.range 8).filter (fun t => (bit old t && !bit new t) || (cycle && bit always t))).foldl (fun (d : Dev) t => d.windowEnd p t) d)
  ∧ (∀ (s : State) (p : Fin 12),
      (s.dev.quiet → s.dev.flag (F.ETH_GATE_STATUS_PENDING p) = false → exec (.gateSwitchover p) s = .next s)
      ∧ (s.dev.flag (F.ETH_GATE_STATUS_PENDING p) = true → ∀ (ct : Nat) (d0 : Dev), ct = s.dev.get (F.ETH_GATE_CT_DTIME p) → d0 = s.dev.reachDtime ct →
        ∃ e : Dev, exec (.gateSwitchover p) s = .next { s with dev :=
          ((e.windowsEnd p (d0.gates p (ct - 1)).1 (e.gates p e.dtime).1 (d0.gateAlways p) true).gateShow p (e.gates p e.dtime)).settle }
        ∧ e.fwd = d0.fwd ∧ e.time = d0.time ∧ e.flag (F.ETH_GATE_STATUS_PENDING p) = false ∧ e.reg (R.ETH_GATE_OPER p) = s.dev.reg (R.ETH_GATE_ADMIN p)
        ∧ e.get (F.ETH_OPER_CYCLE_NS p) = s.dev.get (F.ETH_ADMIN_CYCLE_NS p) ∧ e.get (F.ETH_OPER_CYCLE_EXT_NS p) = s.dev.get (F.ETH_ADMIN_CYCLE_EXT_NS p)
        ∧ e.get (F.ETH_OPER_BASE_DTIME p) = s.dev.get (F.ETH_ADMIN_BASE_DTIME p)))
  ∧ (∀ (s : State) (p : Fin 12), s.dev.quiet →
      ((s.dev.flag (F.ETH_STEP_CFG_LPI_EN p) = false ∨ s.dev.flag (F.ETH_STEP_STATUS_PARTNER p) = true ∨ s.dev.contractOut p = true ∨ s.dev.copiesOn p ≠ [] ∨ s.dev.linkReady p = false) →
        exec (.lpiEnter p) s = .next s)
      ∧ (s.dev.flag (F.ETH_STEP_CFG_LPI_EN p) = true → [25000, 10000, 5000, 1000].contains (s.dev.portRate p) = true → s.dev.flag (F.ETH_STEP_STATUS_PARTNER p) = false →
        s.dev.contractOut p = false → s.dev.copiesOn p = [] → (s.dev.ethPort p).tx = none → s.dev.linkReady p = true → s.dev.portAvail p = true →
        ∃ t, exec (.lpiEnter p) s = .next t ∧ t.dev.flag (F.ETH_STATUS_LPI_TX p) = true ∧ t.dev.fwd = s.dev.fwd))
  ∧ (∀ (s : State) (q : Fin 8) (p : Nat), p = 12 + q.val →
      (s.dev.quiet → (s.dev.flag (F.ETH_PLCA_CFG_EN p) = false ∨ s.dev.get (F.ETH_PLCA_CFG_NODE_ID p) = 0) → exec (.beaconLost q) s = .next s ∧ exec (.beaconRegained q) s = .next s)
      ∧ (s.dev.flag (F.ETH_PLCA_CFG_EN p) = true → s.dev.get (F.ETH_PLCA_CFG_NODE_ID p) ≠ 0 →
        (s.dev.quiet → s.dev.flag (F.ETH_PLCA_STATUS_BEACON_OK p) = true ∨ (s.dev.seg p).phyLow = true → exec (.beaconRegained q) s = .next s)
        ∧ (s.dev.quiet → (s.dev.ethPort p).noBeacon = true → exec (.beaconLost q) s = .next s)
        ∧ ((s.dev.ethPort p).noBeacon = false → ∀ d0 d1 d2 : Dev,
          d0 = (if s.dev.flag (F.ETH_STATUS_LINK p) then ((s.dev.set (F.ETH_STATUS_LINK p) 0).inc (F.ETH_LINK_DOWNS_COUNT p)).fault (blkEth p) 0 else s.dev) →
          d1 = ((d0.set (F.ETH_PLCA_STATUS_BEACON_OK p) 0).fault (blkEth p) 3).inc (F.ETH_BEACON_LOST_COUNT p) →
          d2 = (d1.setEthPort p { d1.ethPort p with noBeacon := true }).steEvent 0x06 p 0 →
          exec (.beaconLost q) s = .next { s with dev := (({ d2 with anvil := { d2.anvil with breakAt := SMap.set d2.anvil.breakAt none p (some d2.now) } }).excuse p (fun _ => true)).settle })
        ∧ (s.dev.flag (F.ETH_PLCA_STATUS_BEACON_OK p) = false → (s.dev.seg p).phyLow = false → ∀ d1 d2 d3 : Dev, d1 = s.dev.set (F.ETH_PLCA_STATUS_BEACON_OK p) 1 →
          d2 = (if (s.dev.ethPort p).noBeacon then d1.steEvent 0x07 p 0 else d1) →
          d3 = (if d2.ledgerFlag p then { d2 with anvil := { d2.anvil with breakAt := SMap.set d2.anvil.breakAt none p (some d2.now) } } else d2) →
          exec (.beaconRegained q) s = .next { s with dev := (d3.linkUp p 0).settle }))
      ∧ (s.dev.quiet → s.dev.plcaActive p = false → exec (.plcaCollision q) s = .next s)
      ∧ (s.dev.plcaActive p = true → ∀ d0 d1 : Dev, d0 = (s.dev.inc (F.ETH_PLCA_COLL_COUNT p)).fltSet (blkEth p) 4 →
        d1 = ({ d0 with anvil := { d0.anvil with breakAt := SMap.set d0.anvil.breakAt none p (some d0.now) } } : Dev).excuse p (fun _ => true) →
        ((d1.ethPort p).tx = none → exec (.plcaCollision q) s = .next { s with dev := d1.settle })
        ∧ (∀ n, (d1.ethPort p).tx = some n → d1.fwd.copies.find? (fun c => c.seq == n) = none → exec (.plcaCollision q) s = .next { s with dev := d1.settle })
        ∧ (∀ n c, (d1.ethPort p).tx = some n → d1.fwd.copies.find? (fun c => c.seq == n) = some c → ∀ d2 : Dev, d2 = d1.setEthPort p { d1.ethPort p with tx := none, idleAt := d1.now } →
          (c.tries < 15 → exec (.plcaCollision q) s = .next { s with dev := (d2.setCopy { c with tries := c.tries + 1, started := false }).settle })
          ∧ (15 ≤ c.tries → exec (.plcaCollision q) s = .next { s with dev := (d2.dropCopy c .unavail).settle }))))
  ∧ (∀ (s : State) (a : Option (Fin 65536)), s.dev.quiet →
      (s.dev.eth.mdio = none → exec (.mdioComplete a) s = .next s)
      ∧ (∀ m, s.dev.eth.mdio = some m → ∃ t, exec (.mdioComplete a) s = .next t ∧ t.dev.flag F.ETHC_MDIO_CMD_GO = false ∧ t.dev.eth.mdio = none
        ∧ (m.op % 2 = 1 → a = none → t.dev.get F.ETHC_MDIO_DATA_DATA = 0xFFFF) ∧ (m.op % 2 = 1 → ∀ v, a = some v → t.dev.get F.ETHC_MDIO_DATA_DATA = v.val)
        ∧ (m.op % 2 ≠ 1 → t.dev.get F.ETHC_MDIO_DATA_DATA = s.dev.get F.ETHC_MDIO_DATA_DATA)
        ∧ s.dev.regsOnly t.dev [R.ETHC_MDIO_CMD, R.ETHC_MDIO_DATA] ∧ t.dev.fwd = s.dev.fwd))

/-- LLDP_TX, LLDPDU_RX, PARTNER_TTL_EXPIRY, STEP_WINDOW_END, STEP_UP_TRIGGER, STEP_CHECK, STEP_ANSWER_TIMEOUT, STEP_HOLDOFF_END and RETRAIN_TIMEOUT. -/
def Obligations.RateSteps : Prop :=
  (∀ (s : State) (p : Fin 12),
      (∀ t, (s.dev.ethPort p).lldpAt = some t → exec (.lldpTx p) s = .next { s with dev :=
        ((s.dev.reach (t + atLeastOne (s.dev.get (F.ETH_LLDP_TX_S p)) * sCyc)).lldpSend p 0 0 0xFF 0 0).settle })
      ∧ ((s.dev.ethPort p).lldpAt = none → exec (.lldpTx p) s = .next { s with dev := (s.dev.lldpSend p 0 0 0xFF 0 0).settle })
      ∧ (s.dev.quiet → (s.dev.ethPort p).ttlEnd = none → exec (.partnerTtlExpiry p) s = .next s)
      ∧ (∀ t d1, s.dev.quiet → (s.dev.ethPort p).ttlEnd = some t → d1 = s.dev.reach t → ∃ u, exec (.partnerTtlExpiry p) s = .next u
        ∧ u.dev.flag (F.ETH_STEP_STATUS_PARTNER p) = false ∧ (u.dev.ethPort p).ttlEnd = none ∧ d1.regsOnly u.dev [R.ETH_STEP_STATUS p] ∧ u.dev.fwd = s.dev.fwd))
  ∧ (∀ (s : State),
      (s.dev.quiet → s.dev.mgmtRuns = false → exec .lldpduRx s = .next s)
      ∧ (∀ m, s.dev.mgmtRuns = true → s.dev.fwd.mgmt.find? (fun m => (parseHdr m.2).etype == 0x88CC && decide (m.1 < 12)) = some m →
        exec .lldpduRx s = .next { s with dev := (({ s.dev with fwd := { s.dev.fwd with mgmt := s.dev.fwd.mgmt.erase m } }).lldpTake m.1 m.2).settle }))
  ∧ (∀ (s : State) (p : Fin 12) (sec r : Nat) (d1 d2 : Dev), sec = atLeastOne (s.dev.get (F.ETH_STEP_WIN_WIN_S p)) →
      d1 = s.dev.reach ((s.dev.ethPort p).win.2.2 + sec * sCyc) → d2 = d1.setEthPort p { d1.ethPort p with win := (0, 0, d1.now) } →
      ((d1.stepLower p = none ∨ d1.flag (F.ETH_STEP_CFG_AUTO p) = false ∨ d1.stepFree p = false) → exec (.stepWindowEnd p) s = .next { s with dev := d2.settle })
      ∧ (d1.stepLower p = some r → d1.flag (F.ETH_STEP_CFG_AUTO p) = true → d1.stepFree p = true →
        withinPct (d1.ethPort p).win.1 (sec * 1000) (d1.get (F.ETH_STEP_CFG_DOWN_PCT p)) (rateMbps r) = true →
        withinPct (d1.ethPort p).win.2.1 (sec * 1000) (d1.get (F.ETH_STEP_CFG_DOWN_PCT p)) (rateMbps r) = true →
        exec (.stepWindowEnd p) s = .next { s with dev := ((d2.set (F.ETH_STEP_STATUS_STATE p) 1).setEthPort p { d2.ethPort p with target := r }).settle }))
  ∧ (∀ (s : State) (p : Fin 12),
      (s.dev.quiet → (s.dev.get (F.ETH_RATE_NOM p) ≤ s.dev.get (F.ETH_RATE_CUR p) ∨ s.dev.stepFree p = false ∨
        (s.dev.ethPort p).upReq = false ∧ s.dev.flag (F.ETH_STEP_CFG_AUTO p) = false) → (s.dev.ethPort p).toNom = false → exec (.stepUpTrigger p) s = .next s)
      ∧ ((s.dev.ethPort p).toNom = true → exec (.stepUpTrigger p) s = .next { s with dev := (s.dev.stepToNom p).settle })
      ∧ ((s.dev.ethPort p).toNom = false → s.dev.get (F.ETH_RATE_CUR p) < s.dev.get (F.ETH_RATE_NOM p) → s.dev.stepFree p = true →
        (s.dev.ethPort p).upReq = true ∨ s.dev.flag (F.ETH_STEP_CFG_AUTO p) = true ∧ s.dev.get (F.ETH_STEP_WIN_UP_CELLS p) ≠ 0 ∧ s.dev.get (F.ETH_STEP_WIN_UP_CELLS p) < s.dev.beCells p →
        exec (.stepUpTrigger p) s = .next { s with dev := (s.dev.stepPropose p (s.dev.get (F.ETH_RATE_NOM p))).settle }))
  ∧ (∀ (s : State) (p : Fin 12) (r : Nat), r = (s.dev.ethPort p).target →
      (s.dev.quiet → (s.dev.get (F.ETH_STEP_STATUS_STATE p) ≠ 1 ∨ s.dev.host.ops.any (fun o => o.ring == 56 && o.state == .running) = true) → exec (.stepCheck p) s = .next s)
      ∧ (s.dev.get (F.ETH_STEP_STATUS_STATE p) = 1 → s.dev.host.ops.any (fun o => o.ring == 56 && o.state == .running) = false →
        (s.dev.stepTest p r = .ok → exec (.stepCheck p) s = .next { s with dev := (s.dev.stepPropose p r).settle })
        ∧ (s.dev.stepTest p r ≠ .ok → exec (.stepCheck p) s = .next { s with dev := (s.dev.stepRefused.stepOver p 2).settle })))
  ∧ (∀ (s : State) (p : Fin 12) (d1 : Dev),
      (s.dev.quiet → s.dev.get (F.ETH_STEP_STATUS_STATE p) ≠ 2 → exec (.stepAnswerTimeout p) s = .next s)
      ∧ (s.dev.get (F.ETH_STEP_STATUS_STATE p) = 2 → d1 = s.dev.reach ((s.dev.ethPort p).stageAt + atLeastOne (s.dev.get (F.ETH_STEP_TIMERS_ANSWER_MS p)) * msCyc) →
        (3 ≤ (s.dev.ethPort p).tries → exec (.stepAnswerTimeout p) s = .next { s with dev :=
          (((d1.set (F.ETH_STEP_STATUS_PARTNER p) 0).setEthPort p { s.dev.ethPort p with ttlEnd := none }).stepOver p 4).settle })
        ∧ ((s.dev.ethPort p).tries < 3 → exec (.stepAnswerTimeout p) s = .next { s with dev :=
          ((d1.setEthPort p { s.dev.ethPort p with tries := (s.dev.ethPort p).tries + 1, stageAt := d1.now }).lldpSend p 1
            (d1.get (F.ETH_STEP_STATUS_SEQ p)) (s.dev.ethPort p).target 0 0).settle }))
      ∧ (s.dev.quiet → s.dev.get (F.ETH_STEP_STATUS_STATE p) ≠ 3 → exec (.stepHoldoffEnd p) s = .next s)
      ∧ (s.dev.get (F.ETH_STEP_STATUS_STATE p) = 3 → ∀ d2 : Dev, d2 = s.dev.reach ((s.dev.ethPort p).stageAt + (s.dev.ethPort p).stageLen) →
        (s.dev.get (F.ETH_RATE_FLOOR p) ≤ (s.dev.ethPort p).target → exec (.stepHoldoffEnd p) s = .next { s with dev := (d2.retrain p (s.dev.ethPort p).target).settle })
        ∧ ((s.dev.ethPort p).target < s.dev.get (F.ETH_RATE_FLOOR p) → exec (.stepHoldoffEnd p) s = .next { s with dev := (d2.stepOver p 2).settle }))
      ∧ (s.dev.quiet → s.dev.get (F.ETH_STEP_STATUS_STATE p) ≠ 4 → exec (.retrainTimeout p) s = .next s)
      ∧ (s.dev.get (F.ETH_STEP_STATUS_STATE p) = 4 → d1 = s.dev.reach ((s.dev.ethPort p).stageAt + atLeastOne (s.dev.get (F.ETH_RETRAIN_RETRAIN_MS p)) * msCyc) →
        ((s.dev.ethPort p).revert = true → exec (.retrainTimeout p) s = .next { s with dev := ((d1.fltSet (blkEth p) 2).stepOver p 6).settle })
        ∧ ((s.dev.ethPort p).revert = false → exec (.retrainTimeout p) s = .next { s with dev :=
          ((d1.setEthPort p { s.dev.ethPort p with revert := true, stageAt := d1.now }).recipe p (32 * p + 4 * (s.dev.ethPort p).prev)).settle })))
  ∧ (∀ (d : Dev) (p : Fin 12) (r : Nat), (((d.stepEnd p r).ethPort p).toNom = false → d.stepOver p r = d.stepEnd p r)
      ∧ (((d.stepEnd p r).ethPort p).toNom = true → d.stepOver p r = (d.stepEnd p r).stepToNom p)
      ∧ (d.get (F.ETH_RATE_NOM p) = d.get (F.ETH_RATE_CUR p) → d.stepToNom p = d.setEthPort p { d.ethPort p with toNom := false })
      ∧ (d.get (F.ETH_RATE_NOM p) ≠ d.get (F.ETH_RATE_CUR p) → d.agentMayStart = false ∨ d.get (F.ETH_STEP_STATUS_STATE p) ≠ 0 →
        d.stepToNom p = d.setEthPort p { d.ethPort p with toNom := true })
      ∧ (d.get (F.ETH_RATE_NOM p) ≠ d.get (F.ETH_RATE_CUR p) → d.agentMayStart = true → d.get (F.ETH_STEP_STATUS_STATE p) = 0 → ∀ d1 : Dev, d1 = d.setEthPort p { d.ethPort p with toNom := false } →
        d.stepToNom p = (if d.flag (F.ETH_STEP_STATUS_PARTNER p) then d1.stepPropose p (d.get (F.ETH_RATE_NOM p)) else d1.retrain p (d.get (F.ETH_RATE_NOM p)))))
  ∧ (∀ (d : Dev) (p : Fin 12) (r : Fin 8), (d.stepEnd p r).get (F.ETH_STEP_STATUS_STATE p) = 0 ∧ (d.stepEnd p r).get (F.ETH_STEP_STATUS_RESULT p) = r.val
      ∧ (r.val = 1 → (d.stepEnd p r).get (F.ETH_STEP_DONE_COUNT p) = satAdd 32 (d.get (F.ETH_STEP_DONE_COUNT p)) 1)
      ∧ (r.val = 4 → (d.stepEnd p r).get (F.ETH_STEP_SILENT_COUNT p) = satAdd 32 (d.get (F.ETH_STEP_SILENT_COUNT p)) 1)
      ∧ (r.val = 2 ∨ r.val = 7 → d.regsOnly (d.stepEnd p r) [R.ETH_STEP_STATUS p])
      ∧ d.regsOnly (d.stepEnd p r) [R.ETH_STEP_STATUS p, R.ETH_STEP_DONE p, R.ETH_STEP_DECLINED p, R.ETH_STEP_SILENT p, R.ETH_STEP_FAILED p]
      ∧ (d.stepEnd p r).fwd = d.fwd ∧ (d.stepEnd p r).tbl = d.tbl)
  ∧ (∀ (d d1 : Dev) (p : Fin 12) (r seq : Nat), seq = (d.get (F.ETH_STEP_STATUS_SEQ p) + 1) % 65536 → d1 = (d.set (F.ETH_STEP_STATUS_SEQ p) seq).set (F.ETH_STEP_STATUS_STATE p) 2 →
      d.stepPropose p r = (d1.setEthPort p { d1.ethPort p with target := r, tries := 1, stageAt := d1.now }).lldpSend p 1 seq r 0 0
      ∧ d1.get (F.ETH_STEP_STATUS_STATE p) = 2 ∧ d1.get (F.ETH_STEP_STATUS_SEQ p) = seq)
  ∧ (∀ (d : Dev) (p : Fin 12) (m q r x h : Nat), (d.ethAddr p = 0 ∨ d.mgmtRuns = false → d.lldpSend p m q r x h = d)
      ∧ (d.ethAddr p ≠ 0 → d.mgmtRuns = true → ∀ f tc, f = bytes [0x01, 0x80, 0xC2, 0, 0, 0x0E] ++ leBytes 6 (d.ethAddr p) ++ beBytes 2 0x88CC
          ++ beBytes 2 519 ++ bytes [4] ++ leBytes 6 (d.ethAddr p) ++ beBytes 2 1031 ++ bytes [3] ++ leBytes 6 (d.ethAddr p)
          ++ beBytes 2 1538 ++ beBytes 2 (min 65535 (4 * atLeastOne (d.get (F.ETH_LLDP_TX_S p)) + 1))
          ++ beBytes 2 0xFE10 ++ bytes [0x5C, 0x2E, 0x91, 1, 1, m] ++ beBytes 2 q ++ bytes [d.get (F.ETH_RATE_CUR p), r, d.ratesOffered p, x] ++ beBytes 2 h ++ beBytes 2 0 ++ beBytes 2 0 →
        tc = d.beTc p 0 → d.lldpSend p m q r x h = (d.setEthPort p { d.ethPort p with lldpAt := some d.now }).originate p tc (ethMsg (pad60 f)) (d.beDeadline d.dtime tc) .plain))

/-- The time base, TIME_INCR_WRITE, TIME_SLEW_START, TIME_SLEW_END, TIME_STEP and AON_SNAPSHOT. That the clock moves only at commands is the model's choice (log 5). -/
def Obligations.TimeBase : Prop :=
  (∀ (d : Dev) (n : Nat), d.time.slew = 0 → d.ready 2 = true →
      (d.advance n).time.acc = (d.time.acc + n * d.get F.TIME_INCR_INCR) % 2 ^ 96 ∧ (d.advance n).time.now = d.time.now + n
      ∧ (d.advance n).time.slew = 0 ∧ d.regsOnly (d.advance n) [R.TIME_SLEW_CTRL] ∧ (d.advance n).fwd = d.fwd ∧ (d.advance n).tbl = d.tbl)
  ∧ (∀ (d : Dev), d.time.acc < 2 ^ 96 → d.dtime = d.time.acc / 2 ^ 32)
  ∧ (∀ (d : Dev) (v : Nat), v < 2 ^ 40 →
      (5366024766 ≤ v → v ≤ 5371393474 → (d.incrWrite v).get F.TIME_INCR_INCR = v ∧ (d.incrWrite v).time = d.time)
      ∧ (v < 5366024766 ∨ 5371393474 < v → (d.incrWrite v).get F.TIME_INCR_INCR = d.get F.TIME_INCR_INCR ∧ (d.incrWrite v).flag F.TIME_STATUS_CFG_IGNORED = true
        ∧ d.regsOnly (d.incrWrite v) [R.TIME_STATUS]))
  ∧ (∀ (s : State) (m : Fin 4) (v : Nat), exec (.timeIncrWrite m v) s = .next { s with dev := ((s.dev.write m R.TIME_INCR (v % 2 ^ 32)).write m (R.TIME_INCR + 4) (v / 2 ^ 32)).settle })
  ∧ (∀ (s : State) (m : Fin 4) (ppm : Fin 1024) (b : Dev) (r : RegDef), s.dev.opens m R.TIME_SLEW_CTRL → regDef R.TIME_SLEW_CTRL = some r → b = s.dev.beforeWrite m R.TIME_SLEW_CTRL →
      (b.timeMay m = true → ∀ d1, d1 = b.plain r m R.TIME_SLEW_CTRL ppm → exec (.timeSlewStart m ppm) s = .next { s with dev := (d1.slewStart (toSigned 32 (d1.get F.TIME_SLEW_NS))).settle })
      ∧ (b.timeMay m = false → exec (.timeSlewStart m ppm) s = .next { s with dev := b.timeIgnored.settle }))
  ∧ (∀ (d : Dev) (x : Int), (d.slewStart x).time.slew = x * (2 ^ 32 : Nat) ∧ (d.slewStart x).flag F.TIME_SLEW_CTRL_BUSY = (x != 0)
      ∧ d.regsOnly (d.slewStart x) [R.TIME_SLEW_CTRL] ∧ (d.slewStart x).time.acc = d.time.acc)
  ∧ (∀ (s : State), s.dev.quiet →
      (s.dev.time.slew = 0 → exec .timeSlewEnd s = .next s)
      ∧ (s.dev.time.slew ≠ 0 → s.dev.slewStep ≠ 0 → exec .timeSlewEnd s = .next { s with dev := (s.dev.advance ((s.dev.time.slew.natAbs + s.dev.slewStep - 1) / s.dev.slewStep)).settle }))
  ∧ (∀ (s : State) (m : Fin 4) (rel : Bool) (b : Dev) (r : RegDef), s.dev.opens m R.TIME_STEP_CTRL → regDef R.TIME_STEP_CTRL = some r → b = s.dev.beforeWrite m R.TIME_STEP_CTRL →
      (b.timeMay m = false → exec (.timeStep m rel) s = .next { s with dev := b.timeIgnored.settle })
      ∧ (b.timeMay m = true → ∀ d1, d1 = b.plain r m R.TIME_STEP_CTRL (b2n rel) →
        exec (.timeStep m rel) s = .next { s with dev := (if rel then d1.stepBy (toSigned 64 (d1.get F.TIME_STEP_NS)) else d1.stepGo (d1.get F.TIME_STEP_NS * 2 ^ 32)).settle }))
  ∧ (∀ (d : Dev) (acc : Nat),
      (∀ t, d.time.lastStep = some t → d.now < t + 80000000 → d.stepGo acc = d.timeIgnored)
      ∧ (∀ t, d.time.lastStep = some t → t + 80000000 ≤ d.now → d.stepGo acc = d.stepTo acc)
      ∧ (d.time.lastStep = none → d.stepGo acc = d.stepTo acc)
      ∧ (acc < 2 ^ 96 → ((acc / 2 ^ 32 : Nat) - (d.dtime : Nat) : Int).natAbs < 16000000000 →
        (d.stepTo acc).time.acc = acc ∧ (d.stepTo acc).time.slew = 0 ∧ (d.stepTo acc).time.lastStep = some d.now ∧ (d.stepTo acc).flag F.TIME_SLEW_CTRL_BUSY = false
        ∧ (d.stepTo acc).get F.TIME_STATUS_EPOCH = (d.get F.TIME_STATUS_EPOCH + 1) % 256 ∧ (d.stepTo acc).get F.TIME_STEPS_COUNT = satAdd 32 (d.get F.TIME_STEPS_COUNT) 1
        ∧ (d.stepTo acc).time.stepAt = some (acc / 2 ^ 32) ∧ (d.stepTo acc).fwd = d.fwd)
      ∧ (acc < 2 ^ 96 → 16000000000 ≤ ((acc / 2 ^ 32 : Nat) - (d.dtime : Nat) : Int).natAbs → ((acc / 2 ^ 32 : Nat) - (d.dtime : Nat) : Int).natAbs ≤ 2 ^ 64 - 16000000000 →
        (∀ x ∈ (d.stepTo acc).fwd.fq, ∀ r ∈ x.2, ∃ y, r.part = some y ∧ y.dead = true ∧ y.handle.isSome = true) ∧ (d.stepTo acc).fwd.fqPtr = [] ∧ (d.stepTo acc).ste.intakes = []))
  ∧ (∀ (s : State) (m : Fin 4) (b : Dev), s.dev.opens m R.TIME_AON_SNAP → b = s.dev.beforeWrite m R.TIME_AON_SNAP →
      (b.time.snapGo = true → exec (.aonSnapshot m) s = .next { s with dev := b.settle })
      ∧ (b.time.snapGo = false → b.time.aonHeld.isSome = true → exec (.aonSnapshot m) s = .next { s with dev := ({ b with time := { b.time with snapGo := true, snapAt := none } } : Dev).settle })
      ∧ (b.time.snapGo = false → b.time.aonHeld = none → exec (.aonSnapshot m) s = .next { s with dev := ({ b with time := { b.time with snapGo := true, snapAt := some b.aonEdge } } : Dev).settle }))
  ∧ (∀ (d e : Dev) (n t : Nat), d.time.snapAt = some t → e = d.elapse (t - d.now) →
      (d.now < t → t ≤ d.now + n → (d.advance n).time.snapGo = false ∧ (d.advance n).time.snapAt = none ∧ (d.advance n).time.snapTicks = e.aonTicks ∧ (d.advance n).time.snapDtime = e.dtime)
      ∧ (d.now + n < t → (d.advance n).time.snapGo = d.time.snapGo ∧ (d.advance n).time.snapAt = some t ∧ (d.advance n).time.snapTicks = d.time.snapTicks))
  ∧ (∀ (s : State) (m : Fin 4) (en : Bool) (r : RegDef), s.dev.opens m R.TIME_CTRL → regDef R.TIME_CTRL = some r →
      ∃ v, bf v 0 1 = b2n en ∧ bf v 1 4 = bf (s.dev.reg R.TIME_CTRL) 1 4 ∧ bf v 8 7 = bf (s.dev.reg R.TIME_CTRL) 8 7
        ∧ exec (.gptpEnable m en) s = .next { s with dev := ((s.dev.beforeWrite m R.TIME_CTRL).timeCtrl v).settle })
  ∧ (∀ (d : Dev) (v : Nat), bf v 1 4 = bf (d.reg R.TIME_CTRL) 1 4 → bf v 8 7 = bf (d.reg R.TIME_CTRL) 8 7 → d.flag F.TIME_CTRL_EN = true →
      (bit v 0 = true → d.timeCtrl v = d) ∧ (bit v 0 = false → (d.timeCtrl v).flag F.TIME_CTRL_EN = false ∧ (d.timeCtrl v).time.rxq = [] ∧ (d.timeCtrl v).time.up = none
        ∧ (d.get F.TIME_STATUS_STATE = 4 → (d.timeCtrl v).get F.TIME_STATUS_STATE = 0) ∧ (d.get F.TIME_STATUS_STATE ≠ 4 → (d.timeCtrl v).get F.TIME_STATUS_STATE = d.get F.TIME_STATUS_STATE)
        ∧ d.regsOnly (d.timeCtrl v) [R.TIME_CTRL, R.TIME_STATUS]))
  ∧ (∀ (d : Dev) (v : Nat), bf v 1 2 = 1 → bf v 3 2 = 0 → d.flag F.TIME_CTRL_EN = false → bit v 0 = true →
      (d.rolesOk 1 = true → (d.timeCtrl v).get F.TIME_STATUS_STATE = 4 ∧ (d.timeCtrl v).flag F.TIME_CTRL_EN = true ∧ (d.timeCtrl v).get F.TIME_CTRL_ROLE = 1
        ∧ (d.timeCtrl v).get F.TIME_INCR_INCR = 0x140000000)
      ∧ (d.rolesOk 1 = false → (d.timeCtrl v).flag F.TIME_CTRL_EN = false ∧ (d.timeCtrl v).flag F.TIME_STATUS_CFG_IGNORED = true))

/-- GPTP_SYNC_RX, GPTP_SYNC_TX, SYNC_RECEIPT_TIMEOUT, HOLDOVER_EXPIRY, PDELAY_REQ_TX, PDELAY_REQ_RX, PDELAY_RESP_RX, PPS_OUT_PULSE, PPS_OUT_END, PPS_IN_EDGE and PPS_IN_LOST. -/
def Obligations.SyncAndPps : Prop :=
  (∀ (s : State), s.dev.quiet →
      (s.dev.slavePort = none → exec .gptpSyncRx s = .next s)
      ∧ (∀ p, s.dev.slavePort = some p → (s.dev.gptpOn p = false ∨ s.dev.mgmtRuns = false ∨ s.dev.flag (F.TIME_GPTP_PORT_AS_CAPABLE p) = false) → exec .gptpSyncRx s = .next s))
  ∧ (∀ (s : State) (d : Dev) (p : Nat) (y f : PtpIn), d = s.dev → d.slavePort = some p → d.gptpOn p = true → d.mgmtRuns = true → d.flag (F.TIME_GPTP_PORT_AS_CAPABLE p) = true →
      d.get F.TIME_CTRL_ROLE = 2 ∨ d.get F.TIME_CTRL_ROLE = 3 →
      d.time.rxq.findSome? (fun f => if f.port == p && ptpType (ptpBody f) == 8 then
        (d.ptpFind p (fun b => ptpType b == 0 && ptpSeq b == ptpSeq (ptpBody f) && ptpSrc b == ptpSrc (ptpBody f))).map (fun y => (y, f)) else none) = some (y, f) →
      ∀ (corr master off : Int) (d1 d2 d3 : Dev),
      corr = ptpCorr (ptpBody y) + ptpCorr (ptpBody f) + (((if d.flag (F.TIME_GPTP_PORT_STATIC_DELAY p) then d.get (F.TIME_GPTP_PORT_W1_DELAY_NS p) else (d.gptp p).delay) * 65536 : Nat) : Int) →
      master = ((stampNs (slice (ptpBody f) 34 10) * 65536 : Nat) : Int) + corr → off = (d.ptpIngress y - master) / 65536 →
      d1 = d.ptpDrop (fun x => x.port == p && (ptpType (ptpBody x) == 0 || ptpType (ptpBody x) == 8) && (x == y || x == f || decide (x.cyc ≤ y.cyc))) →
      d2 = ({ d1 with time := { d1.time with up := some ⟨stampNs (slice (ptpBody f) 34 10), corr, toSigned 32 (beNat (slice (ptpBody f) 54 4)) + (d.gptp p).nrr, (d.ptpIngress y).toNat⟩ } } : Dev) →
      d3 = d2.syncAt p off master.toNat y.cyc →
      (d3.get F.TIME_CTRL_ROLE ≠ 2 → exec .gptpSyncRx s = .next { s with dev := d3.settle })
      ∧ (d3.get F.TIME_CTRL_ROLE = 2 → exec .gptpSyncRx s = .next { s with dev := ((List.range 12).foldl (fun (d : Dev) q =>
          if d.get (F.TIME_GPTP_PORT_ROLE q) == 1 && d.flag (F.TIME_GPTP_PORT_AS_CAPABLE q) then d.syncSend q else d) d3).settle })
      ∧ (off.natAbs ≤ atLeastOne (d.get F.TIME_SERVO_STEP_NS) → d3.get F.TIME_OFFSET_NS = ofSigned 64 off % 2 ^ 64 ∧ d3.get F.TIME_CTRL_ROLE = d.get F.TIME_CTRL_ROLE ∧ d3.fwd = d.fwd))
  ∧ (∀ (s : State) (p : Fin 12),
      (s.dev.quiet → (s.dev.gptpOn p = false ∨ s.dev.mgmtRuns = false ∨ s.dev.get F.TIME_CTRL_ROLE ≠ 1 ∨ s.dev.get (F.TIME_GPTP_PORT_ROLE p) ≠ 1 ∨ s.dev.flag (F.TIME_GPTP_PORT_AS_CAPABLE p) = false) → exec (.gptpSyncTx p) s = .next s)
      ∧ (∀ d1, s.dev.gptpOn p = true → s.dev.mgmtRuns = true → s.dev.get F.TIME_CTRL_ROLE = 1 → s.dev.get (F.TIME_GPTP_PORT_ROLE p) = 1 → s.dev.flag (F.TIME_GPTP_PORT_AS_CAPABLE p) = true →
        d1 = ((s.dev.gptp p).syncDue.map s.dev.reach).getD s.dev →
        exec (.gptpSyncTx p) s = .next { s with dev := ((d1.setGptp p { d1.gptp p with syncDue := some (d1.now + ptpInterval (d1.get (F.TIME_GPTP_PORT_LOG_SYNC p))) }).syncSend p).settle }))
  ∧ (∀ (s : State),
      (s.dev.quiet → s.dev.time.syncDue = none → exec .syncReceiptTimeout s = .next s)
      ∧ (∀ t d1, s.dev.time.syncDue = some t → d1 = s.dev.reach t →
        (d1.get F.TIME_STATUS_STATE = 2 → exec .syncReceiptTimeout s = .next { s with dev := (d1.syncLost 3).settle })
        ∧ (s.dev.quiet → d1.get F.TIME_STATUS_STATE = 1 → ∃ u, exec .syncReceiptTimeout s = .next u ∧ u.dev.get F.TIME_STATUS_STATE = 0 ∧ u.dev.time.syncDue = none ∧ d1.regsOnly u.dev [R.TIME_STATUS])
        ∧ (s.dev.quiet → d1.get F.TIME_STATUS_STATE ≠ 1 → d1.get F.TIME_STATUS_STATE ≠ 2 → ∃ u, exec .syncReceiptTimeout s = .next u ∧ u.dev.time.syncDue = none ∧ u.dev.regs = d1.regs)))
  ∧ (∀ (s : State),
      (s.dev.quiet → s.dev.time.holdEnd = none → exec .holdoverExpiry s = .next s)
      ∧ (∀ t d2, s.dev.time.holdEnd = some t → d2 = { s.dev.reach t with time := { (s.dev.reach t).time with holdEnd := none } } →
        (d2.get F.TIME_STATUS_STATE = 3 → exec .holdoverExpiry s = .next { s with dev := ((d2.set F.TIME_STATUS_STATE 0).fltSet blkTime 1).settle })
        ∧ (d2.get F.TIME_STATUS_STATE ≠ 3 → exec .holdoverExpiry s = .next { s with dev := d2.settle })))
  ∧ (∀ (s : State) (p : Fin 12),
      (s.dev.quiet → (s.dev.gptpOn p = false ∨ s.dev.mgmtRuns = false ∨ s.dev.flag (F.TIME_GPTP_PORT_STATIC_DELAY p) = true) → exec (.pdelayReqTx p) s = .next s)
      ∧ (∀ x d1, s.dev.gptpOn p = true → s.dev.mgmtRuns = true → s.dev.flag (F.TIME_GPTP_PORT_STATIC_DELAY p) = false → x = s.dev.gptp p → x.reqDue = none →
        d1 = s.dev.setGptp p { x with seq := (x.seq + 1) % 65536, waiting := none, lost := if x.waiting.isSome then x.lost + 1 else 0, reqDue := some (s.dev.now + ptpInterval (s.dev.get (F.TIME_GPTP_PORT_LOG_PDELAY p))) } →
        ∀ d2, d2 = (if 9 < (if x.waiting.isSome then x.lost + 1 else 0) then d1.setAsCapable p false else d1) →
        exec (.pdelayReqTx p) s = .next { s with dev := (d2.ptpSend p 2 x.seq (s.dev.ptpBytes p 2 0 x.seq 5 (s.dev.get (F.TIME_GPTP_PORT_LOG_PDELAY p)) 0 (List.replicate 20 0))).settle })
      ∧ (s.dev.quiet → (s.dev.gptp p).waiting = none → exec (.pdelayRespRx p) s = .next s)
      ∧ (∀ (d : Dev) (x : GptpPort) (t1 seq : Nat) (r f : PtpIn) (mine : Nat → List Byte → Bool), d = s.dev → x = d.gptp p → x.waiting = some (t1, seq) →
        mine = (fun t b => ptpType b == t && ptpSeq b == seq && slice b 44 10 == d.portIdentity p) → d.ptpFind p (mine 3) = some r → d.ptpFind p (mine 10) = some f →
        ∀ (t2 t3 t4 nrr : Int) (delay : Nat) (d1 : Dev),
        t2 = ((stampNs (slice (ptpBody r) 34 10) * 65536 : Nat) : Int) + ptpCorr (ptpBody r) → t3 = ((stampNs (slice (ptpBody f) 34 10) * 65536 : Nat) : Int) + ptpCorr (ptpBody f) →
        t4 = d.ptpIngress r →
        nrr = (match x.prev with
          | some (a, b) => if d.flag (F.TIME_GPTP_PORT_COMPUTE_NRR p) && (b : Int) < t4 then ((t3 - a) - (t4 - b)) * (2 ^ 41 : Nat) / (t4 - b) else 0
          | none => 0) →
        delay = (((t4 - t1) + (t4 - t1) * nrr / (2 ^ 41 : Nat) - (t3 - t2)) / 131072).toNat →
        d1 = (d.ptpDrop (fun y => y == r || y == f)).setGptp p { x with waiting := none, lost := 0, delay := delay, nrr := nrr, prev := some (t3.toNat, t4.toNat) } →
        exec (.pdelayRespRx p) s = .next { s with dev := (d1.setAsCapable p (decide (delay ≤ d1.get F.TIME_GPTP_CFG_DELAY_THRESH_NS))).settle })
      ∧ (∀ t1 seq, s.dev.quiet → (s.dev.gptp p).waiting = some (t1, seq) →
        s.dev.ptpFind p (fun b => ptpType b == 3 && ptpSeq b == seq && slice b 44 10 == s.dev.portIdentity p) = none → exec (.pdelayRespRx p) s = .next s))
  ∧ (∀ (s : State),
      (s.dev.quiet → s.dev.time.rxq.find? (fun x => ptpType (ptpBody x) == 2) = none → exec .pdelayReqRx s = .next s)
      ∧ (∀ x t d1, s.dev.time.rxq.find? (fun x => ptpType (ptpBody x) == 2) = some x → t = (s.dev.ptpIngress x).toNat → d1 = s.dev.ptpDrop (fun y => y == x) → d1.gptpOn x.port = true →
        exec .pdelayReqRx s = .next { s with dev := (d1.ptpSend x.port 3 (ptpSeq (ptpBody x)) (s.dev.ptpBytes x.port 3 0x0200 (ptpSeq (ptpBody x)) 5 0x7F ((t % 65536 : Nat) : Int)
          (ptpStamp (t / 65536) ++ ptpSrc (ptpBody x)))).settle }))
  ∧ (∀ (s : State), s.dev.quiet →
      (s.dev.ppsGate = false → exec .ppsOutPulse s = .next s)
      ∧ (s.dev.ppsGate = true → ∀ d1, d1 = s.dev.reachDtime s.dev.ppsDue → ∃ u, exec .ppsOutPulse s = .next u
        ∧ u.dev.time.ppsEnd = some (d1.now + atLeastOne (d1.get F.TIME_PPS_OUT_WID_WIDTH_US) * usCyc) ∧ u.dev.time.ppsLast = some s.dev.ppsDue ∧ u.dev.regs = d1.regs)
      ∧ (s.dev.time.ppsEnd = none → exec .ppsOutEnd s = .next s)
      ∧ (∀ t, s.dev.time.ppsEnd = some t → ∃ u, exec .ppsOutEnd s = .next u ∧ u.dev.time.ppsEnd = none ∧ t ≤ u.dev.now ∧ u.dev.regs = (s.dev.reach t).regs))
  ∧ (∀ (s : State) (falling held : Bool), s.dev.quiet →
      ((held = false ∨ s.dev.flag F.TIME_PPS_IN_CFG_EN = false ∨ falling ≠ s.dev.flag F.TIME_PPS_IN_CFG_EDGE) → exec (.ppsInEdge falling held) s = .next s)
      ∧ (held = true → s.dev.ready 2 = true → s.dev.flag F.TIME_PPS_IN_CFG_EN = true → falling = s.dev.flag F.TIME_PPS_IN_CFG_EDGE →
        (∀ t, s.dev.time.ppsAcc = some t → s.dev.now < t + sCyc / 2 → exec (.ppsInEdge falling held) s = .next { s with dev := s.dev.inc F.TIME_PPS_IN_REJECT_COUNT })
        ∧ ((∀ t, s.dev.time.ppsAcc = some t → t + sCyc / 2 ≤ s.dev.now) → s.dev.get F.TIME_STATUS_STATE ≠ 4 → ∃ u, exec (.ppsInEdge falling held) s = .next u
          ∧ u.dev.get F.TIME_PPS_IN_COUNT_COUNT = satAdd 32 (s.dev.get F.TIME_PPS_IN_COUNT_COUNT) 1 ∧ u.dev.time.ppsAcc = some s.dev.now
          ∧ u.dev.time.ppsLost = false ∧ u.dev.fwd = s.dev.fwd)))
  ∧ (∀ (s : State), s.dev.quiet →
      (s.dev.time.ppsIn = none ∨ s.dev.flag F.TIME_PPS_IN_CFG_EN = false ∨ s.dev.time.ppsLost = true → exec .ppsInLost s = .next s)
      ∧ (∀ t d1, s.dev.time.ppsIn = some t → s.dev.flag F.TIME_PPS_IN_CFG_EN = true → s.dev.time.ppsLost = false → d1 = s.dev.reach (t + 2 * sCyc) →
        exec .ppsInLost s = .next { s with dev := (({ d1 with time := { d1.time with ppsLost := true } }).fltSet blkTime 2).settle }))

/-- XPT_FRAME_RX, XPT_PDU_RX, N_AS_EXPIRY, N_BS_EXPIRY, N_CR_EXPIRY, SEQUENCER_PAUSE and SEQUENCER_RESUME. -/
def Obligations.TransportReceive : Prop :=
  (∀ (s : State), (s.dev.quiet → s.dev.xpt.inq = [] → exec .xptFrameRx s = .next s)
      ∧ (∀ x l d1, s.dev.xpt.inq = x :: l → d1 = ({ s.dev with xpt := { s.dev.xpt with inq := l } } : Dev) →
        (d1.xptRuns = true → exec .xptFrameRx s = .next { s with dev := (d1.xptTake x).settle })
        ∧ (d1.xptRuns = false → exec .xptFrameRx s = .next { s with dev := d1.settle }))
      ∧ (s.dev.quiet → s.dev.xpt.pduq = [] → exec .xptPduRx s = .next s)
      ∧ (∀ x l d1, s.dev.xpt.pduq = x :: l → d1 = ({ s.dev with xpt := { s.dev.xpt with pduq := l } } : Dev) →
        (d1.xptRuns = true → exec .xptPduRx s = .next { s with dev := (d1.xptPdu x).settle })
        ∧ (d1.xptRuns = false → x.handle = none → exec .xptPduRx s = .next { s with dev := d1.settle })))
  ∧ (∀ (d : Dev) (x : XptIn), 4 ≤ x.msg.form → x.msg.form ≠ 9 → x.msg.form ≠ 10 → (d.xptTake x).get F.XPT_BAD_FRAME_COUNT = satAdd 32 (d.get F.XPT_BAD_FRAME_COUNT) 1 ∧ d.regsOnly (d.xptTake x) [R.XPT_BAD_FRAME] ∧ (d.xptTake x).xpt = d.xpt)
  ∧ (∀ (d : Dev) (c fs bs st t : Nat) (x : Sess),
      (d.xptFlow c x 0 bs st t).sess (txKey c) = some { x with state := 5, bsLeft := bs, block := bs != 0, stmin := (if st ≤ 0x7F ∨ 0xF1 ≤ st ∧ st ≤ 0xF9 then st else 0x7F), waits := 0, dl := none, first := false, next := some d.now }
      ∧ (x.waits < cnWft (d.conn c) → (d.xptFlow c x 1 bs st t).sess (txKey c) = some { x with waits := x.waits + 1, dl := some (t + d.nBs) })
      ∧ (cnWft (d.conn c) ≤ x.waits → d.xptFlow c x 1 bs st t = d.xptEnd (txKey c) 9 true)
      ∧ (x.first = true → d.xptFlow c x 2 bs st t = d.xptEnd (txKey c) 7 true) ∧ (x.first = false → d.xptFlow c x 2 bs st t = d.xptEnd (txKey c) 5 true)
      ∧ (3 ≤ fs → d.xptFlow c x fs bs st t = d.xptEnd (txKey c) 5 true)
      ∧ (∀ k, k ≠ txKey c → (d.xptFlow c x 0 bs st t).sess k = d.sess k))
  ∧ (∀ (d : Dev) (c sn : Nat) (x : Sess) (i : XptIn) (data : List Byte),
      (data.length < x.len - x.bytes → i.msg.data.length < x.rxDl → d.xptConsecutive c x i sn data = d.inc F.XPT_BAD_FRAME_COUNT)
      ∧ (x.len - x.bytes ≤ data.length ∨ x.rxDl ≤ i.msg.data.length → sn ≠ x.sn → d.xptConsecutive c x i sn data = d.xptEnd (rxKey c) 4 true)
      ∧ (data.length < x.len - x.bytes → x.rxDl ≤ i.msg.data.length → sn = x.sn → x.block = false →
        (d.xptConsecutive c x i sn data).sess (rxKey c) = some { x with data := x.data ++ data, bytes := x.bytes + data.length, sn := (x.sn + 1) % 16, lastRx := i.valid, bsLeft := x.bsLeft - 1, dl := some (i.valid + d.nCr) }
        ∧ (d.xptConsecutive c x i sn data).regs = d.regs))
  ∧ (∀ (s : State) (k : Fin 2048) (c : Fin 1024), s.dev.quiet →
      (s.dev.sess k = none → exec (.nAsExpiry k) s = .next s) ∧ (s.dev.sess (txKey c) = none → exec (.nBsExpiry c) s = .next s) ∧ (s.dev.sess (rxKey c) = none → exec (.nCrExpiry c) s = .next s)
      ∧ (∀ x, s.dev.sessTouch k = s.dev → s.dev.sess k = some x → x.dl = none ∨ x.state ∉ [2, 3, 5, 6] ∨ s.dev.seqPaused x = true → exec (.nAsExpiry k) s = .next s))
  ∧ (∀ (s : State) (k : Fin 2048) (c : Fin 1024) (i : Instr) (j r : Nat) (l : List Nat),
      (i, j, r, l) ∈ [(Instr.nAsExpiry k, k.val, 1, [2, 3, 5, 6]), (Instr.nBsExpiry c, txKey c, 2, [4]), (Instr.nCrExpiry c, rxKey c, 3, [1])] →
      ∀ (x : Sess) (t : Nat) (d1 : Dev), s.dev.heldBy j = none → (s.dev.sessTouch j).sess j = some x → x.dl = some t → x.state ∈ l → (s.dev.sessTouch j).seqPaused x = false →
      d1 = ((s.dev.sessTouch j).reachDtime t).xptServeUpTo (cnPort ((s.dev.sessTouch j).conn (j / 2))) t →
      (∀ y, d1.sess j = some y → y.state ∈ l → y.dl = some t → d1.seqPaused y = false → exec i s = .next { s with dev := (d1.xptEnd j r true).settle })
      ∧ ((∀ y, d1.sess j = some y → y.state ∉ l ∨ y.dl ≠ some t ∨ d1.seqPaused y = true) → exec i s = .next { s with dev := d1.settle }))
  ∧ (∀ (d : Dev) (p t : Nat), (∀ r l, d.fq (fqOf p) = r :: l → t < r.start) → (∀ x ∈ d.xpt.inq, t < x.valid) → d.xptServeUpTo p t = d)
  ∧ (∀ (d : Dev) (k : Nat) (x : Sess) (n : Nat), d.sess k = some x → x.ctx = some n →
      (d.tables.bad.contains (tkey memCtx 0 n) = false → d.tables.soft.contains (tkey memCtx 0 n) = false → d.sessTouch k = d)
      ∧ (d.tables.bad.contains (tkey memCtx 0 n) = false → d.tables.soft.contains (tkey memCtx 0 n) = true →
        (d.sessTouch k).get F.XPT_MEM_CE_COUNT = satAdd 32 (d.get F.XPT_MEM_CE_COUNT) 1 ∧ (d.sessTouch k).xpt = d.xpt ∧ d.regsOnly (d.sessTouch k) [R.XPT_MEM_CE])
      ∧ (d.tables.bad.contains (tkey memCtx 0 n) = true → (∀ j y, (j, some y) ∈ d.xpt.sess → y.ctx = some n → j = k) → ((k, some x) : Nat × Option Sess) ∈ d.xpt.sess →
        d.sessTouch k = ((d.faultCapture blkXpt 1 (d.entAccess (tkey memCtx 0 n) n) false).entryPut memCtx 0 n 0).xptEnd k 8 false))
  ∧ (∀ (s : State) (q : Fin 8), (s.dev.quiet → s.dev.ready 7 = false → exec (.sequencerPause q) s = .next s ∧ exec (.sequencerResume q) s = .next s)
      ∧ (s.dev.ready 7 = true → exec (.sequencerPause q) s = .next { s with dev := (s.dev.setBitOf F.XPT_STATUS_PAUSED q true).settle })
      ∧ (s.dev.ready 7 = true → ∀ d0 d1 d2, d0 = (if s.dev.boot.seqCode = [] then s.dev else { s.dev with xpt := { s.dev.xpt with code := SMap.set s.dev.xpt.code [] q s.dev.boot.seqCode } }) →
        d1 = (d0.setBitOf F.XPT_STATUS_PAUSED q false).setBitOf F.XPT_STATUS_SEQ_READY q true →
        d2 = (SMap.get s.dev.xpt.waiting [] q).foldl (fun (d : Dev) x => d.xptEvent x) ({ d1 with xpt := { d1.xpt with waiting := SMap.set d1.xpt.waiting [] q [] } } : Dev) → d2.xpt.sess = [] →
        exec (.sequencerResume q) s = .next { s with dev := d2.settle }))
  ∧ (∀ (s : State) (q : Fin 8) (d0 d1 d2 : Dev), s.dev.ready 7 = true → d0 = s.dev.loadSeq q → d1 = (d0.setBitOf F.XPT_STATUS_PAUSED q false).setBitOf F.XPT_STATUS_SEQ_READY q true →
      d2 = (SMap.get s.dev.xpt.waiting [] q).foldl (fun (d : Dev) x => d.xptEvent x) ({ d1 with xpt := { d1.xpt with waiting := SMap.set d1.xpt.waiting [] q [] } } : Dev) →
      exec (.sequencerResume q) s = .next { s with dev := (d2.xpt.sess.foldl (fun (d : Dev) p => match p.2 with
        | some x => if x.ctx.map (fun n => n % 8) == some q.val then d.xptLapse p.1 d.dtime else d
        | none => d) d2).settle }
      ∧ (d2.xpt.sess.all (fun p => p.2.isNone || (p.2.bind (fun x => x.ctx)).map (fun n => n % 8) != some q.val) = true → exec (.sequencerResume q) s = .next { s with dev := d2.settle }))
  ∧ (∀ (d : Dev) (q : Nat), (d.boot.seqCode = [] → d.loadSeq q = d)
      ∧ (d.boot.seqCode ≠ [] → SMap.get (d.loadSeq q).xpt.code [] q = d.boot.seqCode ∧ (d.loadSeq q).regs = d.regs ∧ (d.loadSeq q).xpt.sess = d.xpt.sess))
  ∧ (∀ (s : State) (x : XptIn) (l : List XptIn) (d d0 : Dev) (c e : Nat) (p : List Byte), s.dev.xpt.inq = x :: l → d = ({ s.dev with xpt := { s.dev.xpt with inq := l } } : Dev) → d.xptRuns = true →
      (x.msg.form < 4 ∨ x.msg.form = 9 ∨ x.msg.form = 10) → d.xptMatch x = some c → d.connTouch c = d → e = d.conn c → p = x.msg.data.drop (cnAe e) →
      d0 = (d.xptLapse (rxKey c) x.valid).xptLapse (txKey c) x.valid →
      (∀ y, d.sess (rxKey c) = some y → d.seqPaused y = false) → (∀ y, d.sess (txKey c) = some y → d.seqPaused y = false) → d.sessTouch (rxKey c) = d → d.sessTouch (txKey c) = d →
      (byteAt p 0 / 16 = 0 → x.msg.data.length ≤ 8 → (cnReqPad e && decide (x.msg.form < 2) && decide (x.msg.data.length < 8)) = false → byteAt p 0 ≠ 0 → byteAt p 0 < p.length →
        exec .xptFrameRx s = .next { s with dev := (((d0.xptReplace c).inc F.XPT_MSG_RX_COUNT).xptDeliver c (decide (2 ≤ x.msg.form)) (byteAt p 0) x.valid ((p.drop 1).take (byteAt p 0))).settle })
      ∧ (∀ n, byteAt p 0 / 16 = 1 → cnFunc e = false → n = byteAt p 0 % 16 * 256 + byteAt p 1 → n ≠ 0 → 8 ≤ x.msg.data.length → sfMax x.msg.data.length (cnAe e) < n →
        exec .xptFrameRx s = .next { s with dev := ((d0.xptReplace c).xptFirst c x n x.msg.data.length ((p.drop 2).take n)).settle })
      ∧ (∀ y, byteAt p 0 / 16 = 2 → d0.sess (rxKey c) = some y → y.state = 1 → 2 ≤ p.length → (y.rxDl ≤ x.msg.data.length ∨ y.len - y.bytes ≤ p.length - 1) → (cnReqPad e && decide (x.msg.form < 2) && decide (x.msg.data.length < 8)) = false →
        exec .xptFrameRx s = .next { s with dev := (d0.xptConsecutive c y x (byteAt p 0 % 16) (p.drop 1)).settle })
      ∧ (∀ y, byteAt p 0 / 16 = 3 → d0.sess (txKey c) = some y → y.state = 4 → 3 ≤ p.length → (cnReqPad e && decide (x.msg.form < 2) && decide (x.msg.data.length < 8)) = false →
        exec .xptFrameRx s = .next { s with dev := (d0.xptFlow c y (byteAt p 0 % 16) (byteAt p 1) (byteAt p 2) x.valid).settle }))
  ∧ (∀ (d : Dev) (c n dl : Nat) (x : XptIn) (data : List Byte) (e : Nat), e = d.conn c →
      (cnMaxDl e < n → d.xptFirst c x n dl data = ((d.inc F.XPT_OVFLW_DL_COUNT).xptFc c 2).xptRefused e c n x)
      ∧ (n ≤ cnMaxDl e → d.freeCtx = none → d.xptFirst c x n dl data = ((d.inc F.XPT_SESS_FULL_COUNT).xptFc c 2).xptRefused e c n x)
      ∧ (∀ i, n ≤ cnMaxDl e → d.freeCtx = some i → d.ctxPaused i = true → d.xptFirst c x n dl data = d.seqHold (i % 8) (.frame x))
      ∧ (∀ i, n ≤ cnMaxDl e → d.freeCtx = some i → d.ctxPaused i = false → d.freeCells (b2n (pipeB x.port)) < d.unusedC (b2n (pipeB x.port)) + (n + 127) / 128 →
        d.xptFirst c x n dl data = ((d.inc F.XPT_OVFLW_NORES_COUNT).xptFc c 2).xptRefused e c n x)
      ∧ (∀ i h, n ≤ cnMaxDl e → d.freeCtx = some i → d.ctxPaused i = false → h = b2n (pipeB x.port) → d.unusedC h + (n + 127) / 128 ≤ d.freeCells h →
        d.xptFirst c x n dl data = ((d.setSess (rxKey c) (some { Sess.init with
          ctx := some i, state := 1, len := n, bytes := data.length, sn := 1, bsLeft := cnBs e, block := cnBs e != 0, stmin := cnStmin e, cells := (n + 127) / 128, half := h
          data := data, fd := decide (2 ≤ x.msg.form), rxDl := dl, validAt := x.valid, lastRx := x.valid })).ctxClean (some i)).xptFc c 0))
  ∧ (∀ (s : State) (x : XptPdu) (l : List XptPdu) (d : Dev) (c e : Nat), s.dev.xpt.pduq = x :: l → d = ({ s.dev with xpt := { s.dev.xpt with pduq := l } } : Dev) → d.xptRuns = true →
      (x.handle = none → d.conns.find? (fun p => cnBridge p.2 && cnInPdu p.2 == x.id) = none → exec .xptPduRx s = .next { s with dev := ((d.connsTouch (fun e => cnBridge e && cnInPdu e == x.id)).inc F.XPT_CONN_MISS_COUNT).settle })
      ∧ (d.conns.find? (fun p => cnBridge p.2 && cnInPdu p.2 == x.id) = some (c, e) → ∀ d1 : Dev, d1 = d.connTouch c →
        (x.handle = none → (d1.sess (txKey c)).isSome = true → exec .xptPduRx s = .next { s with dev := (d1.inc F.XPT_BUSY_DROP_COUNT).settle })
        ∧ ((d1.sess (txKey c)).isSome = false → x.data ≠ [] → x.data.length ≤ sfMax (cnTxDl e) (cnAe e) ∨ (cnFunc e = false ∧ ∃ i, d1.freeCtx = some i ∧ d1.ctxPaused i = false) →
          exec .xptPduRx s = .next { s with dev := (d1.xptStart c { Sess.init with len := x.data.length, data := x.data, handle := x.handle, validAt := d1.dtime }).settle })
        ∧ (∀ i, (d1.sess (txKey c)).isSome = false → sfMax (cnTxDl e) (cnAe e) < x.data.length → cnFunc e = false → d1.freeCtx = some i → d1.ctxPaused i = true →
          exec .xptPduRx s = .next { s with dev := (d1.seqHold (i % 8) (.pdu x)).settle })))

/-- XPT_SEND, XPT_CF_SEND and XPT_FRAME_REOFFER. -/
def Obligations.TransportSend : Prop :=
  (∀ (s : State), (s.dev.quiet → s.dev.nextQueued 59 [0x40] = none → exec .xptSend s = .next s)
      ∧ (∀ o c n e sf, s.dev.nextQueued 59 [0x40] = some o → c = leNat (s.dev.hostRead o.param 2) → n = leNat (s.dev.hostRead (o.param + 4) 4) → e = s.dev.conn c → sf = decide (n ≤ sfMax (cnTxDl e) (cnAe e)) →
        (s.dev.xptRuns = false → exec .xptSend s = .next { s with dev := (s.dev.opFail o errDomainOff).settle })
        ∧ (s.dev.xptRuns = true → 1024 ≤ c ∨ cnValid e = false ∨ cnBridge e = true ∨ n = 0 ∨ 65535 < n → exec .xptSend s = .next { s with dev := ((if c < 1024 then s.dev.connTouch c else s.dev).opFail o errFormat).settle })
        ∧ (s.dev.xptRuns = true → c < 1024 → cnValid e = true → cnBridge e = false → n ≠ 0 → n ≤ 65535 → ∀ d1 : Dev, d1 = s.dev.connTouch c →
          (cnFunc e = true → sf = false → exec .xptSend s = .next { s with dev := (d1.opFail o errLength).settle })
          ∧ (cnFunc e = false ∨ sf = true → (d1.sess (txKey c)).isSome = true → exec .xptSend s = .next { s with dev := (d1.opFail o errBusy).settle })
          ∧ (cnFunc e = false → (d1.sess (txKey c)).isSome = false → sf = false → d1.freeCtx = none → exec .xptSend s = .next { s with dev := (d1.opFail o errNores).settle })
          ∧ (∀ i, cnFunc e = false → (d1.sess (txKey c)).isSome = false → sf = false → d1.freeCtx = some i → d1.ctxPaused i = true → exec .xptSend s = .next { s with dev := d1.settle })
          ∧ (cnFunc e = false ∨ sf = true → (d1.sess (txKey c)).isSome = false → sf = true ∨ (∃ i, d1.freeCtx = some i ∧ d1.ctxPaused i = false) →
            exec .xptSend s = .next { s with dev := ((d1.startOp o).xptStart c { Sess.init with len := n, op := some o.idx, source := o.seq, validAt := d1.dtime }).settle }))))
  ∧ (∀ (d : Dev) (c : Nat) (x : Sess) (e : Nat), e = d.conn c →
      (x.len ≤ sfMax (cnTxDl e) (cnAe e) → ∀ d1, d1 = d.setSess (txKey c) (some { x with state := 6, ctx := none }) → d.xptStart c x = d1.xptQueue (txKey c) (sfFrame e (d1.xptBytes x 0 x.len)) x.len)
      ∧ (sfMax (cnTxDl e) (cnAe e) < x.len → ∀ n d1, d.freeCtx = some n → d1 = (d.setSess (txKey c) (some { x with state := 3, sn := 1, ctx := some n })).entryPut memCtx 0 n 0 →
        d.xptStart c x = d1.xptQueue (txKey c) (xptFrame e (ffPci x.len) (d1.xptBytes x 0 (ffBytes e x.len))) (ffBytes e x.len)))
  ∧ (∀ (s : State) (c : Fin 1024) (k : Nat), k = txKey c → s.dev.quiet →
      (s.dev.sess k = none → exec (.xptCfSend c) s = .next s)
      ∧ (∀ x, s.dev.sessTouch k = s.dev → s.dev.sessConn k = s.dev → s.dev.sess k = some x → x.next = none ∨ x.state ≠ 5 ∨ x.frame.isSome = true ∨ s.dev.seqPaused x = true → exec (.xptCfSend c) s = .next s)
      ∧ (∀ x t d0 d1 e n, s.dev.heldBy k = none → d0 = (s.dev.sessTouch k).sessConn k → d0.sess k = some x → x.next = some t → x.state = 5 → x.frame = none → d0.seqPaused x = false → d1 = d0.reach t → e = d1.conn c → n = min (x.len - x.bytes) (cnTxDl e - 1 - cnAe e) →
        exec (.xptCfSend c) s = .next { s with dev := (d1.xptQueue k (xptFrame e [0x20 + x.sn % 16] (d1.xptBytes x x.bytes n)) n).settle }))
  ∧ (∀ (s : State) (k : Fin 2048), s.dev.quiet →
      (s.dev.sess k = none → exec (.xptFrameReoffer k) s = .next s)
      ∧ ((s.dev.heldBy k).isSome = true → exec (.xptFrameReoffer k) s = .next s)
      ∧ (∀ x, s.dev.sessConn k = s.dev → s.dev.sess k = some x → x.again = none ∨ x.frame = none → exec (.xptFrameReoffer k) s = .next s)
      ∧ (∀ x t m d0 d1, s.dev.heldBy k = none → d0 = s.dev.sessConn k → d0.sess k = some x → d0.heldBy k = none → x.again = some t → x.frame = some m →
        d1 = (d0.reach t).setSess k (some { x with again := none }) →
        exec (.xptFrameReoffer k) s = .next { s with dev := (d1.originate (cnPort (d0.conn (k / 2))) 0 m (dl8 x.frameDl) (.xpt k)).settle }))
  ∧ (∀ (d : Dev) (k : Nat) (x : Sess), d.sess k = some x → (cnValid ((d.connTouch (k / 2)).conn (k / 2)) = true → d.sessConn k = d.connTouch (k / 2))
      ∧ (cnValid ((d.connTouch (k / 2)).conn (k / 2)) = false → d.sessConn k = (d.connTouch (k / 2)).xptEnd k 8 false))
  ∧ (∀ (d : Dev) (k q : Nat), d.heldBy k = some q → d.xptSent k = d.seqHold q (.sent k d.now d.dtime))
  ∧ (∀ (d : Dev) (k : Nat) (x y : Sess) (d1 : Dev), d.heldBy k = none → d.sessTouch k = d → d.sess k = some x → y = { x with frame := none, bytes := x.bytes + x.carry, carry := 0, dl := none, sentAt := d.dtime } →
      d1 = d.xptProgress { x with bytes := x.bytes + x.carry } → x.stop = false →
      (x.state = 6 → d.xptSent k = (d1.setSess k (some y)).xptEnd k 0 true)
      ∧ (x.state = 3 → (d.xptSent k).sess k = some { y with state := 4, first := true, dl := some (d.dtime + d.nBs) })
      ∧ (x.state = 5 → x.len ≤ x.bytes + x.carry → d.xptSent k = (d1.setSess k (some { y with sn := (x.sn + 1) % 16 })).xptEnd k 0 true)
      ∧ (x.state = 5 → x.bytes + x.carry < x.len → x.block = true → x.bsLeft ≤ 1 → (d.xptSent k).sess k = some { y with sn := (x.sn + 1) % 16, state := 4, first := false, bsLeft := 0, dl := some (d.dtime + d.nBs) })
      ∧ (x.state = 5 → x.bytes + x.carry < x.len → x.block = false ∨ 1 < x.bsLeft → (d.xptSent k).sess k = some { y with sn := (x.sn + 1) % 16, bsLeft := x.bsLeft - 1, next := some (d.now + stNs x.stmin * 4 / 5) })
      ∧ (∀ i o, x.op = some i → d.host.ops.find? (fun o => o.ring == 59 && o.idx == i) = some o → d1 = d.setOp { o with progress := x.bytes + x.carry }) ∧ (x.op = none → d1 = d))

/-- CIPHER, HASH, HMAC, ECDSA_VERIFY, RANDOM and INSTALL_SAK. -/
def Obligations.CryptoJobs : Prop :=
  (∀ (s : State) (k : Fin 4) (n : Nat) (c : Instr) (l : List Nat), (c, l) ∈ [(Instr.cipher k n, [opCipher]), (Instr.hash k n, [opHash]), (Instr.hmac k n, [opHmac]), (Instr.ecdsaVerify k n, [opEcdsa]), (Instr.random k n, [opRandom])] →
      (s.dev.quiet → s.dev.cryJob k l = none → exec c s = .next s)
      ∧ (∀ j o, s.dev.cryJob k l = some (j, o) →
        (s.dev.cryRuns = false → exec c s = .next { s with dev := (s.dev.cryEnd o .failed errDomainOff).settle })
        ∧ (s.dev.cryRuns = true → o.stop = true → o.opcode = opEcdsa ∨ j.phase = .key ∨ j.phase = .units → exec c s = .next { s with dev := (s.dev.cryEnd o .aborted errAborted).settle })
        ∧ (s.dev.cryRuns = true → s.dev.quiet → o.stop = false → j.phase ≠ .run → exec c s = .next s)
        ∧ (∀ e, s.dev.cryRuns = true → s.dev.quiet → o.opcode ≠ opEcdsa → j.phase = .fin e → exec c s = .next s)
        ∧ (s.dev.cryRuns = true → o.stop = true → o.opcode ≠ opEcdsa → j.phase = .run → ∀ b, cryStop j.input.length (j.total o.opcode) = some b →
          (b ≤ j.input.length → exec c s = .next { s with dev := (s.dev.cryEnd o .aborted errAborted).settle })
          ∧ (j.input.length < b → ∀ d1 j1 o1, d1 = s.dev.cryFeed j o b → d1.cryJob k l = some (j1, o1) → exec c s = .next { s with dev := (d1.cryEnd o1 .aborted errAborted).settle }))
        ∧ (s.dev.cryRuns = true → o.stop = false ∨ o.opcode ≠ opEcdsa ∧ cryStop j.input.length (j.total o.opcode) = none → j.phase = .run → ∀ e, e = min (j.total o.opcode) (j.input.length + (max 1 n + 15) / 16 * 16) →
          (j.input.length < e → exec c s = .next { s with dev := (s.dev.cryFeed j o e).settle })
          ∧ (s.dev.quiet → e ≤ j.input.length → (j.bulk o.opcode && j.pass == 1) = false → exec c s = .next s))))
  ∧ (∀ (s : State) (k : Fin 4), (s.dev.quiet → s.dev.cryJob k [opSak] = none → exec (.installSak k) s = .next s)
      ∧ (∀ j o, s.dev.cryJob k [opSak] = some (j, o) →
        (s.dev.cryRuns = false → exec (.installSak k) s = .next { s with dev := (s.dev.cryEnd o .failed errDomainOff).settle })
        ∧ (s.dev.cryRuns = true → o.stop = true → s.dev.cryDecided o = false → exec (.installSak k) s = .next { s with dev := (s.dev.cryEnd o .aborted errAborted).settle })
        ∧ (s.dev.cryRuns = true → s.dev.quiet → o.stop = false ∨ s.dev.cryDecided o = true → j.phase ≠ .run → exec (.installSak k) s = .next s)
        ∧ (∀ e, j ∈ s.dev.cry.jobs → j.idx = o.idx → o.ring = 58 → j.phase = .fin e → s.dev.cryDecided o = true)
        ∧ (s.dev.cryRuns = true → o.stop = false → j.phase = .run → ∀ d1 e sak tag, d1 = s.dev.chanTouch (j.par 0 2) → e = d1.chan (j.par 0 2) →
          gcm j.key (((nats j.parm).drop 4).take 12) ((nats j.parm).take 4) (((nats j.parm).drop 32).take 32) true = (sak, tag) →
          (chType e ≠ 3 → chType e ≠ 4 → exec (.installSak k) s = .next { s with dev := (d1.setJob { j with phase := .fin errFormat }).settle })
          ∧ (chType e = 3 ∨ chType e = 4 → d1.chanLocked (j.par 0 2) = true → exec (.installSak k) s = .next { s with dev := (d1.setJob { j with phase := .fin errLocked }).settle })
          ∧ (chType e = 3 ∨ chType e = 4 → d1.chanLocked (j.par 0 2) = false → tag ≠ ((nats j.parm).drop 64).take 16 → exec (.installSak k) s = .next { s with dev := (d1.setJob { j with phase := .fin errAuth }).settle })
          ∧ (chType e = 3 ∨ chType e = 4 → d1.chanLocked (j.par 0 2) = false → tag = ((nats j.parm).drop 64).take 16 → ∀ d2, d2 = ({ d1 with cry := { d1.cry with saks := SMap.set d1.cry.saks [] (j.par 0 2) sak } } : Dev) →
            exec (.installSak k) s = .next { s with dev := ((d2.setChan (j.par 0 2) (setBit e 13 true)).setJob { j with phase := .fin errOk }).settle }))))
  ∧ (∀ (d : Dev) (j : CryJob), j.mode = 3 ∨ j.mode = 4 → j.dir = 1 → d.cipherTag j (nats j.input) ≠ d.expectedTag j → d.cryResult j opCipher false = (d, errAuth, 0))
  ∧ (∀ (d : Dev) (j : CryJob) (u : Bool), d.cryResult j opHash u = (d.hostWrite j.outAddr (bytes (if j.alg = 0 then sha256 (nats j.input) else sha384 (nats j.input))), errOk, 0)
      ∧ (j.dir = 0 → d.cryResult j opHmac u = (d.hostWrite j.outAddr (bytes (hmac (j.alg == 1) j.key (nats j.input))), errOk, 0))
      ∧ (j.dir ≠ 0 → d.cryResult j opHmac u = (d, (if (hmac (j.alg == 1) j.key (nats j.input)).take j.tagLen = d.expectedTag j then errOk else errAuth), 0)))
  ∧ (∀ (d : Dev) (j : CryJob) (o : Op) (n : Nat),
      (o.opcode = opRandom → ∀ bs, bs = d.freeBytes (n - j.input.length) → d.cryFeed j o n =
        (((d.hostWrite (j.outAddr + j.input.length) bs).tookFree).setJob { j with input := j.input ++ bs }).setOp { o with progress := n, partialCnt := n, pos := n })
      ∧ (o.opcode ≠ opRandom → (j.bulk o.opcode && j.pass == 1) = false → ∀ inp, inp = j.input ++ d.hostRead (j.inAddr + j.input.length) (n - j.input.length) → d.cryFeed j o n =
        ((if j.streams o.opcode then d.hostWrite (j.outAddr + j.input.length) (bytes ((d.cipherOut j (nats inp)).drop j.input.length)) else d).setJob { j with input := inp }).setOp
          { o with progress := n, partialCnt := if j.streams o.opcode then n else 0, pos := n }))

/-- CRY_JOB_START, CRY_JOB_COMPLETE, HELD_UNITS_RESUME, KEY_DERIVATION_DONE, TRNG_READY and TRNG_HEALTH_FAIL. -/
def Obligations.CryptoRuns : Prop :=
  (∀ (s : State), s.dev.quiet → (s.dev.nextQueued 58 [1, 2, 3, 4, 5, 6] = none ∨ 4 ≤ s.dev.cry.jobs.length) → exec .cryJobStart s = .next s)
  ∧ (∀ (s : State) (o : Op) (j : CryJob) (d1 : Dev), s.dev.nextQueued 58 [1, 2, 3, 4, 5, 6] = some o → s.dev.cry.jobs.length < 4 →
      j = ⟨o.idx, s.dev.hostRead o.param (if o.opcode == opSak then 80 else 64), .run, 0, 0, [], 0, [], 1⟩ →
      (j.keyUse o.opcode = none → d1 = s.dev.startOp o →
        (∀ e, d1.jobError o.opcode j = some e → exec .cryJobStart s = .next { s with dev := (d1.opFail { o with state := .running } e).settle })
        ∧ (d1.jobError o.opcode j = none → o.opcode ≠ opRandom → exec .cryJobStart s = .next { s with dev := ({ d1 with cry := { d1.cry with jobs := d1.cry.jobs ++ [j] } } : Dev).settle }))
      ∧ (∀ k u, j.keyUse o.opcode = some (k, u) → k < 256 → d1 = (s.dev.startOp o).slotTouch k →
        (∀ e, d1.jobError o.opcode j = some e → exec .cryJobStart s = .next { s with dev := (d1.opFail { o with state := .running } e).settle })
        ∧ (d1.jobError o.opcode j = none → d1.cacheHit k = none → ∀ d2, d2 = d1.inc F.CRY_CACHE_MISS_COUNT →
          exec .cryJobStart s = .next { s with dev := ({ d2 with cry := { d2.cry with jobs := d2.cry.jobs ++ [{ j with slot := k, phase := .key }] } } : Dev).settle })
        ∧ (∀ e d2, d1.jobError o.opcode j = none → d1.cacheHit k = some e → d2 = ({ d1 with cry := { d1.cry with jobs := d1.cry.jobs ++ [{ j with slot := k }] } } : Dev) →
          exec .cryJobStart s = .next { s with dev := (d2.jobKey o.opcode { j with slot := k } e).settle })))
  ∧ (∀ (d : Dev) (op : Nat) (j : CryJob), (d.cryRuns = false → d.jobError op j = some errDomainOff) ∧ (d.cryRuns = true → j.badFormat op = true → d.jobError op j = some errFormat)
      ∧ (d.cryRuns = true → j.badFormat op = false → j.badLength op = true → d.jobError op j = some errLength))
  ∧ (∀ (s : State) (k : Fin 256) (l : List CryJob), l = s.dev.cry.jobs.filter (fun j => decide (j.phase = .key) && j.slot == k.val) →
      (s.dev.quiet → l = [] → exec (.keyDerivationDone k) s = .next s)
      ∧ (∀ d1, l ≠ [] → d1 = (if s.dev.slotAvail k = true ∧ s.dev.cacheHit k = none then s.dev.cachePut k false else s.dev) →
        exec (.keyDerivationDone k) s = .next { s with dev := (l.foldl (fun (d : Dev) j =>
          match d.host.ops.find? (fun o => o.ring == 58 && o.idx == j.idx), d.cacheHit k with
          | none, _ => d
          | some o, some e => if s.dev.slotAvail k then d.jobKey o.opcode j e else d.cryEnd o .failed errKey
          | some o, none => d.cryEnd o .failed errKey) d1).settle })
      ∧ (∀ j o, l = [j] → s.dev.host.ops.find? (fun o => o.ring == 58 && o.idx == j.idx) = some o → s.dev.slotAvail k = true →
        (∀ e, s.dev.cacheHit k = some e → exec (.keyDerivationDone k) s = .next { s with dev := (s.dev.jobKey o.opcode j e).settle })))
  ∧ (∀ (s : State), (s.dev.quiet → s.dev.cry.jobs.find? (fun j => decide (j.phase = .units)) = none → exec .heldUnitsResume s = .next s)
      ∧ (∀ j, s.dev.cry.jobs.find? (fun j => decide (j.phase = .units)) = some j → 0 < j.need opCipher → s.dev.heldUnits + j.need opCipher ≤ 1536 → s.dev.heldUnits + s.dev.rxUnits + j.need opCipher ≤ 2048 →
        exec .heldUnitsResume s = .next { s with dev := (s.dev.setJob { j with phase := .run, units := j.need opCipher }).settle })
      ∧ (∀ j, s.dev.cry.jobs.find? (fun j => decide (j.phase = .units)) = some j → 1536 < s.dev.heldUnits + j.need opCipher ∨ 2048 < s.dev.heldUnits + s.dev.rxUnits + j.need opCipher → j.need opCipher ≠ 0 →
        exec .heldUnitsResume s = .next { s with dev := (s.dev.setJob { j with phase := .units }).settle }))
  ∧ (∀ (s : State) (k : Fin 4) (ue : Bool), (s.dev.quiet → s.dev.cryJob k [1, 2, 3, 4, 5, 6] = none → exec (.cryJobComplete k ue) s = .next s)
      ∧ (∀ j o, s.dev.cryJob k [1, 2, 3, 4, 5, 6] = some (j, o) →
        (s.dev.cryRuns = false → exec (.cryJobComplete k ue) s = .next { s with dev := (s.dev.cryEnd o .failed errDomainOff).settle })
        ∧ (s.dev.cryRuns = true → o.stop = false ∨ o.opcode ≠ opEcdsa → ∀ e, j.phase = .fin e → exec (.cryJobComplete k ue) s = .next { s with dev := (s.dev.cryEnd { o with partialCnt := 0 } (if e == errOk then .done else .failed) e).settle })
        ∧ (s.dev.cryRuns = true → s.dev.quiet → o.stop = false → j.phase = .run → j.input.length < j.total o.opcode → exec (.cryJobComplete k ue) s = .next s)
        ∧ (s.dev.cryRuns = true → o.stop = false → j.phase = .run → o.opcode ≠ opSak → j.total o.opcode ≤ j.input.length → (j.bulk o.opcode && j.pass == 1) = false →
          ∀ d1 e n, s.dev.cryResult j o.opcode ue = (d1, e, n) → exec (.cryJobComplete k ue) s = .next { s with dev := (d1.cryEnd { o with partialCnt := n } (if e == errOk then .done else .failed) e).settle })))
  ∧ (∀ (s : State), (s.dev.quiet → s.dev.ready 8 = false ∨ s.dev.cry.trngDead = true → exec .trngReady s = .next s)
      ∧ (s.dev.quiet → s.dev.ready 8 = true → s.dev.cry.trngDead = false → ∃ t, exec .trngReady s = .next t ∧ t.dev.flag F.CRY_STATUS_TRNG_OK = true ∧ s.dev.regsOnly t.dev [R.CRY_STATUS] ∧ t.dev.cry = s.dev.cry ∧ t.dev.fwd = s.dev.fwd)
      ∧ (s.dev.quiet → s.dev.ready 8 = true → s.dev.cry.trngDead = true → exec .trngHealthFail s = .next s)
      ∧ (s.dev.ready 8 = true → s.dev.cry.trngDead = false → exec .trngHealthFail s = .next { s with dev := (({ s.dev with cry := { s.dev.cry with trngDead := true } } : Dev).trngFailed).settle })
      ∧ (s.dev.quiet → s.dev.ready 8 = false → bit s.dev.pwr.goingOn 7 = false → exec .trngHealthFail s = .next s))
  ∧ (∀ (s : State) (o : Op) (j : CryJob) (d1 : Dev), s.dev.nextQueued 58 [1, 2, 3, 4, 5, 6] = some o → s.dev.cry.jobs.length < 4 → o.opcode = opRandom →
      j = ⟨o.idx, s.dev.hostRead o.param 64, .run, 0, 0, [], 0, [], 1⟩ → d1 = s.dev.startOp o → d1.jobError opRandom j = none →
      exec .cryJobStart s = .next { s with dev := ({ d1 with cry := { d1.cry with jobs := d1.cry.jobs ++ [j], reqs := if 1024 ≤ d1.cry.reqs + 1 then 0 else d1.cry.reqs + 1 } } : Dev).settle })
  ∧ (∀ (d : Dev) (k : Nat) (p : Bool), (d.cachePut k p).cry.cache.head? = some ⟨k, slCounter (d.slot k), d.slotKey k (d.slot k), p⟩
      ∧ (d.cachePut k p).regs = d.regs ∧ (d.cachePut k p).tbl = d.tbl ∧ (d.cachePut k p).cry.jobs = d.cry.jobs
      ∧ (d.cachePut k p).cacheHit k = some ⟨k, slCounter (d.slot k), d.slotKey k (d.slot k), p⟩)
  ∧ (∀ (d : Dev) (op : Nat) (j : CryJob) (e : CacheEnt), j.need op = 0 → ∀ d1, d1 = ({ d with cry := { d.cry with cache := e :: d.cry.cache.filter (fun x => x != e) } } : Dev) →
      d.jobKey op j e = d1.setJob { j with counter := e.counter, key := e.key, phase := .run })

/-- VAULT_OP_START, KEY_UPDATE, PROVISION and HALLMARK. -/
def Obligations.VaultMessages : Prop :=
  (∀ (s : State), (s.dev.quiet → (s.dev.running 59 [opKeyUpdate, opProvision, opHallmark]).isSome = true ∨ s.dev.nextQueued 59 [opKeyUpdate, opProvision, opHallmark] = none → exec .vaultOpStart s = .next s)
      ∧ (∀ o, s.dev.running 59 [opKeyUpdate, opProvision, opHallmark] = none → s.dev.nextQueued 59 [opKeyUpdate, opProvision, opHallmark] = some o →
        (o.opcode = opHallmark ∨ 2 ≤ s.dev.get F.BOOT_STATUS_BOOT_STATE → exec .vaultOpStart s = .next { s with dev := (s.dev.startOp o).settle })
        ∧ (s.dev.quiet → o.opcode ≠ opHallmark → s.dev.get F.BOOT_STATUS_BOOT_STATE < 2 → exec .vaultOpStart s = .next s)))
  ∧ (∀ (s : State), (s.dev.quiet → s.dev.running 59 [opKeyUpdate] = none → exec .keyUpdate s = .next s)
      ∧ (∀ o m d1, s.dev.running 59 [opKeyUpdate] = some o → m = s.dev.vaultMsg o → d1 = (s.dev.slotTouch (mAuth m)).slotTouch (mTarget m) →
        (o.stop = true → exec .keyUpdate s = .next { s with dev := (s.dev.finish o .aborted errAborted).settle })
        ∧ (∀ e, o.stop = false → d1.updateCheck o m = .error e → ∀ d2, d2 = (if e == errAuth && nats (slice m 4 16) == uidBytes then d1.inc F.VAULT_UPDATE_AUTH_FAIL_COUNT else d1) →
          exec .keyUpdate s = .next { s with dev := (d2.msgEnd o e none).settle } ∧ (d2.msgEnd o e none).tbl = d1.tbl)
        ∧ (∀ x r d2, o.stop = false → d1.updateCheck o m = .ok x → mType m = 1 → r = mRecord m x.1 → d2 = ((d1.inc F.VAULT_UPDATE_OK_COUNT).entryPut memSlot 0 (mTarget m) r).cacheUpdate (mTarget m) →
          exec .keyUpdate s = .next { s with dev := (d2.msgEnd o errOk (if mRoot m == 1 then some (confKey (d2.slotKey (mTarget m) r) m) else none)).settle })
        ∧ (∀ x, o.stop = false → d1.updateCheck o m = .ok x → mType m = 3 → exec .keyUpdate s = .next { s with dev :=
            ((((d1.inc F.VAULT_UPDATE_OK_COUNT).entryPut memSlot 0 (mTarget m) (slRecord [] (mCounter m) 0 0 0 0)).cacheUpdate (mTarget m)).msgEnd o errOk (some (confKey x.2 m))).settle })
        ∧ (∀ x, o.stop = false → d1.updateCheck o m = .ok x → mType m ≠ 1 → mType m ≠ 3 → exec .keyUpdate s = .next { s with dev := (((d1.inc F.VAULT_UPDATE_OK_COUNT).zeroise 7).msgEnd o errOk none).settle })))
  ∧ (∀ (d : Dev) (o : Op) (m : List Byte) (x : List Nat × List Nat), d.updateCheck o m = .ok x →
      msgBad m (d.vaultPar o 8 2) [1, 3, 4] = false ∧ d.provisioned = true ∧ nats (slice m 4 16) = uidBytes ∧ d.slotMay (mAuth m) useAuthorise = true ∧ slCounter (d.slot (mTarget m)) < mCounter m
      ∧ unwrapMsg (d.slotKey (mAuth m) (d.slot (mAuth m))) m = (x.1, true))
  ∧ (∀ (s : State), (s.dev.quiet → s.dev.running 59 [opProvision] = none → exec .provision s = .next s)
      ∧ (∀ o m d1, s.dev.running 59 [opProvision] = some o → m = s.dev.vaultMsg o → d1 = s.dev.setNonce none → d1.vault.nonce = none
        ∧ (o.stop = true → exec .provision s = .next { s with dev := (d1.finish o .aborted errAborted).settle })
        ∧ (∀ e, o.stop = false → s.dev.provCheck o m = .error e → exec .provision s = .next { s with dev := (d1.msgEnd o e none).settle })
        ∧ (∀ k d3 d4 r, o.stop = false → s.dev.provCheck o m = .ok k → d3 = ({ d1.tookFree with
            vault := { d1.tookFree.vault with rs := nats (d1.freeBytes 32), rsBad := false, zeroSeen := false }
            tables := { d1.tookFree.tables with soft := d1.tookFree.tables.soft.filter (fun k => k != rsKey), pert := d1.tookFree.tables.pert.filter (fun k => k != rsKey) } } : Dev) →
          d4 = (List.range 256).foldl (fun (d : Dev) i => d.entryPut memSlot 0 i (slRecord [] (mCounter m) 0 0 0 0)) d3 → r = mRecord m k →
          exec .provision s = .next { s with dev := ((((d4.entryPut memSlot 0 0 r).set F.VAULT_STATUS_STATE 1).tamperLog 8 0).msgEnd o errOk (some (confKey ((((d4.entryPut memSlot 0 0 r).set F.VAULT_STATUS_STATE 1).tamperLog 8 0).slotKey 0 r) m))).settle })))
  ∧ (∀ (d : Dev) (o : Op) (m : List Byte) (k : List Nat), d.provCheck o m = .ok k → d.provisioned = false ∧ d.vault.nonce = some (nats (slice m 32 16)) ∧ nats (slice m 4 16) = uidBytes ∧ unwrapMsg provKey m = (k, true))
  ∧ (∀ (s : State), (s.dev.quiet → s.dev.running 59 [opHallmark] = none → exec .hallmark s = .next s)
      ∧ (∀ o n k d1, s.dev.running 59 [opHallmark] = some o → n = s.dev.vaultPar o 8 1 → k = s.dev.vaultPar o 9 1 → d1 = s.dev.slotTouch k →
        (o.stop = true → exec .hallmark s = .next { s with dev := (s.dev.finish o .aborted errAborted).settle })
        ∧ (o.stop = false → n < 16 ∨ 32 < n → exec .hallmark s = .next { s with dev := (s.dev.opFail o errFormat).settle })
        ∧ (o.stop = false → 16 ≤ n → n ≤ 32 →
          (d1.slotMay k useAttest = false → exec .hallmark s = .next { s with dev := (d1.opFail o errKey).settle })
          ∧ (d1.slotMay k useAttest = true → d1.flag F.VAULT_STATUS_MEASURING = true → exec .hallmark s = .next { s with dev := (d1.opFail o errBusy).settle })
          ∧ (d1.slotMay k useAttest = true → d1.flag F.VAULT_STATUS_MEASURING = false →
            exec .hallmark s = .next { s with dev := ((d1.hostWrite (d1.vaultPar o 16 8) (d1.hallmarkResponse (d1.hostRead (d1.vaultPar o 0 8) n) k)).opDone o).settle }))))

/-- VAULT_POWER_UP, TAMPER_INPUT, ISLAND_MONITOR_FAULT and VAULT_SUPPLY_SWITCHOVER. -/
def Obligations.VaultIsland : Prop :=
  (∀ (s : State) (d0 d1 : Dev), d0 = ({ s.dev with
        bus := { s.dev.bus with once := s.dev.bus.once.filter (fun k => !(decide (0xE00000 ≤ k / 32) && decide (k / 32 < 0xE00F00))) }
        flt := { s.dev.flt with wins := s.dev.flt.wins.filter (fun p => p.1 != blkVault) } } : Dev) → d1 = ((d0.setScope 0).setNonce none).setDbgNonce none →
      d1.vault.nonce = none ∧ d1.vault.dbgNonce = none
      ∧ exec (.vaultPowerUp true) s = .next { s with dev := ((((d1.set F.VAULT_STATUS_CFG_IGNORED 0).resetRegs 0xE00100 0xE00210).resetRegs 0xE00500 0xE00600).resetRegs 0xE00F00 0xE01000).settle }
      ∧ (∀ d2, d2 = ({ d1.zeroClear.resetRegs 0xE00000 0xE01000 with vault := VaultSt.init } : Dev).tamperLog 6 0 → exec (.vaultPowerUp false) s = .next { s with dev := (d2.zeroTold 6).settle }))
  ∧ (∀ (d : Dev) (t n : Nat), n = d.get F.VAULT_TLOG_STATUS_TOTAL →
      (d.pwr.logicUp = true → d.zeroTold t = d.zeroReport t n) ∧ (d.pwr.logicUp = false → d.zeroTold t = { d with vault := { d.vault with report := d.vault.report ++ [(t, n)] } })
      ∧ d.zeroise t = (d.zeroClear.tamperLog t 0).zeroTold t)
  ∧ (∀ (s : State),
      (s.dev.flag F.VAULT_TMP_CFG_EN0 = true → exec (.tamperInput 0) s = .next { s with dev := (s.dev.zeroiseNow 1).settle })
      ∧ (s.dev.flag F.VAULT_TMP_CFG_EN1 = true → exec (.tamperInput 1) s = .next { s with dev := (s.dev.zeroiseNow 2).settle })
      ∧ (s.dev.quiet → s.dev.flag F.VAULT_TMP_CFG_EN0 = false → exec (.tamperInput 0) s = .next s) ∧ (s.dev.quiet → s.dev.flag F.VAULT_TMP_CFG_EN1 = false → exec (.tamperInput 1) s = .next s)
      ∧ (∀ k : Fin 3, k ≠ 1 ∨ s.dev.pwr.logicUp = true → exec (.islandMonitorFault k) s = .next { s with dev := (s.dev.zeroiseNow (3 + k)).settle })
      ∧ (s.dev.quiet → s.dev.pwr.logicUp = false → exec (.islandMonitorFault 1) s = .next s))
  ∧ (∀ (d : Dev) (t : Nat), (∀ o, (d.zeroise t).running 59 [opKeyUpdate, opProvision] = some o → d.zeroiseNow t = (d.zeroise t).msgEnd o errKey none)
      ∧ ((d.zeroise t).running 59 [opKeyUpdate, opProvision] = none → d.zeroiseNow t = d.zeroise t))
  ∧ (∀ (d : Dev), d.zeroClear.vault.rs = List.replicate 32 0 ∧ d.zeroClear.vault.nonce = none ∧ d.zeroClear.vault.zeroSeen = true
      ∧ (∀ i, i < 2 ^ 24 → d.zeroClear.tget memSlot 0 i = 0) ∧ d.zeroClear.get F.VAULT_STATUS_STATE = 2 ∧ d.zeroClear.get F.VAULT_STATUS_DBG_SCOPE = 0)
  ∧ (∀ (d : Dev) (t x n : Nat), n = d.get F.VAULT_TLOG_STATUS_ENTRIES →
      (d.tamperLog t x).get F.VAULT_TLOG_STATUS_ENTRIES = min 32 (n + 1) ∧ (d.tamperLog t x).get F.VAULT_TLOG_STATUS_TOTAL = satAdd 16 (d.get F.VAULT_TLOG_STATUS_TOTAL) 1
      ∧ (n ≠ 0 → (d.tamperLog t x).get F.VAULT_TLOG_STATUS_NEWEST = (d.get F.VAULT_TLOG_STATUS_NEWEST + 1) % 32) ∧ (n = 0 → (d.tamperLog t x).get F.VAULT_TLOG_STATUS_NEWEST = 0)
      ∧ (d.tamperLog t x).tbl = d.tbl ∧ (d.tamperLog t x).vault = d.vault)
  ∧ (∀ (s : State) (b : Bool), s.dev.quiet → ∃ t, exec (.vaultSupplySwitchover b) s = .next t ∧ t.dev.flag F.VAULT_STATUS_ON_VBKUP = b ∧ s.dev.regsOnly t.dev [R.VAULT_STATUS] ∧ t.dev.vault = s.dev.vault ∧ t.dev.tbl = s.dev.tbl)

/-- MIN_AWAKE_EXPIRY, READY_TIMER_EXPIRY, PREPARE_END, COMMIT_DONE, NMM_TX, LIN_HEADER_TIMEOUT, LIN_WAKE_PULSE_REPEAT, KEEP_AWAKE_LIMIT. That an expiry command reaches its deadline on the clock is the model's choice (log 5); so is the frozen timer of a segment while PD7 is off (log 26). -/
def Obligations.SegmentTimers : Prop :=
  (∀ (d : Dev) (p : Nat), d.segRuns p = (d.flag (F.NM_SEG_CFG_EN p) && (d.flag F.NM_CTRL_EN && d.ready 7 && !d.isolated blkNm)))
  ∧ (∀ (s : State) (p : Fin 48), s.dev.quiet → s.dev.segRuns p = false →
      exec (.minAwakeExpiry p) s = .next s ∧ exec (.readyTimerExpiry p) s = .next s ∧ exec (.prepareEnd p) s = .next s ∧ exec (.commitDone p) s = .next s
      ∧ exec (.nmmTx p) s = .next s ∧ exec (.wakeConfirmTimeout p) s = .next s ∧ exec (.keepAwakeLimit p) s = .next s)
  ∧ (∀ (s : State) (p : Fin 48), s.dev.segRuns p = true → s.dev.segState p = 0 →
      (s.dev.flag (F.NM_SEG_CTRL_REQ p) = false →
        exec (.minAwakeExpiry p) s = .next { s with dev := ((s.dev.reach ((s.dev.seg p).since + max 1 (s.dev.get (F.NM_TIMERS_B_MIN_AWAKE_MS p)) * msCyc)).segStep p 1).settle })
      ∧ (s.dev.quiet → s.dev.flag (F.NM_SEG_CTRL_REQ p) = true → exec (.minAwakeExpiry p) s = .next s)
      ∧ (s.dev.quiet → exec (.readyTimerExpiry p) s = .next s ∧ exec (.prepareEnd p) s = .next s ∧ exec (.commitDone p) s = .next s))
  ∧ (∀ (s : State) (p : Fin 48), s.dev.segRuns p = true →
      (s.dev.segState p = 1 → exec (.readyTimerExpiry p) s = .next { s with dev := ((s.dev.reach ((s.dev.seg p).ready + max 1 (s.dev.get (F.NM_TIMERS_A_READY_MS p)) * msCyc)).segStep p 2).settle })
      ∧ (s.dev.segState p = 2 → exec (.prepareEnd p) s = .next { s with dev := ((s.dev.reach ((s.dev.seg p).since + max 1 (s.dev.get (F.NM_TIMERS_A_PREPARE_MS p)) * msCyc)).segStep p 3).settle })
      ∧ (∀ d1 : Dev, s.dev.nmHears = true → s.dev.segState p = 3 → d1 = (if segCanInt p then (s.dev.xcvrApply p).owe (.canClear (p - 20)) else s.dev.xcvrApply p).dieMsg →
        ((d1.seg p).latch = none → exec (.commitDone p) s = .next { s with dev := (d1.segStep p 4).settle })
        ∧ (∀ src, (d1.seg p).latch = some src →
          exec (.commitDone p) s = .next { s with dev := (if 0x10 ≤ src then (d1.wakeOut p).segWake p src true false else d1.segWake p src true false).settle }))
      ∧ (s.dev.quiet → s.dev.nmHears = false → exec (.commitDone p) s = .next s)
      ∧ (s.dev.segState p = 0 → s.dev.nmmOn p = true → exec (.nmmTx p) s = .next { s with dev := ((s.dev.reach ((s.dev.seg p).nmmAt + max 1 (s.dev.get (F.NM_TIMERS_B_NM_CYCLE_MS p)) * msCyc)).nmmSend p false).settle }))
  ∧ (∀ (s : State) (n : Fin 8), s.dev.segRuns (40 + n) = true → s.dev.flag (F.LIN_CTRL_ROLE n) = false →
      (s.dev.segState (40 + n) < 2 → exec (.linHeaderTimeout n) s = .next { s with dev := ((s.dev.reach ((s.dev.seg (40 + n)).hdrAt + 4 * sCyc)).segStep (40 + n) 2).settle })
      ∧ (s.dev.quiet → 2 ≤ s.dev.segState (40 + n) → exec (.linHeaderTimeout n) s = .next s)
      ∧ ((s.dev.seg (40 + n)).pulses < 3 → s.dev.segState (40 + n) = 0 ∨ s.dev.segState (40 + n) = 5 → ∀ d1, d1 = s.dev.reach ((s.dev.seg (40 + n)).pulseAt + 200 * msCyc) →
        exec (.linWakePulseRepeat n) s = .next { s with dev := ((d1.emit (.busWake (40 + n))).setSeg (40 + n) { s.dev.seg (40 + n) with pulseAt := d1.now, pulses := (s.dev.seg (40 + n)).pulses + 1 }).settle })
      ∧ (s.dev.quiet → 3 ≤ (s.dev.seg (40 + n)).pulses → exec (.linWakePulseRepeat n) s = .next s))
  ∧ (∀ (s : State) (n : Fin 8), s.dev.quiet → s.dev.flag (F.LIN_CTRL_ROLE n) = true → exec (.linHeaderTimeout n) s = .next s ∧ exec (.linWakePulseRepeat n) s = .next s)
  ∧ (∀ (s : State) (p : Fin 48), s.dev.quiet → (s.dev.seg p).ka = none → exec (.keepAwakeLimit p) s = .next s)
  ∧ (∀ (s : State) (p : Fin 48) (t : Nat) (d1 d2 d3 : Dev) (x : Seg) (k : Nat), (s.dev.seg p).ka = some t → s.dev.segRuns p = true → s.dev.segState p = 1 ∨ s.dev.segState p = 2 →
      d1 = s.dev.reach (t + max 1 (s.dev.get F.NM_TIMEOUTS_KA_LIMIT_S) * sCyc) → x = d1.seg p
      → k = (if d1.get F.PWR_KA_STATUS_ENTRIES = 0 then 0 else (d1.get F.PWR_KA_STATUS_NEWEST + 1) % 32)
      → d2 = ((((d1.set (F.PWR_KA_LOG_SEGMENT k) p).set (F.PWR_KA_LOG_W1_KEEPER k) x.keeper).set (F.PWR_KA_LOG_W2_TICKS k) d1.wakeTicks).set (F.PWR_KA_LOG_W3_EVENTS k)
          (((x.kaCount.find? (fun (k : Nat × Nat) => k.1 == x.keeper)).map (fun k => k.2)).getD 0)).setSeg p { x with ka := none }
      → d3 = ((d2.set F.PWR_KA_STATUS_ENTRIES (min 32 (d1.get F.PWR_KA_STATUS_ENTRIES + 1))).set F.PWR_KA_STATUS_NEWEST k).inc F.PWR_KA_STATUS_TOTAL
      → exec (.keepAwakeLimit p) s = .next { s with dev := (d3.event62 0x05 p (d3.segState p) (d3.segState p) 0 0 x.keeper d3.wakeTicks).settle })
  ∧ (∀ (d : Dev) (p : Fin 48) (new : Nat), d.segStep p new
      = ((d.set (F.NM_SEG_STATUS_STATE p) new).event62 0x01 p (d.segState p) new 0 0 0 (d.set (F.NM_SEG_STATUS_STATE p) new).wakeTicks).segEnter p (d.segState p) new
      ∧ (new < 6 → (d.set (F.NM_SEG_STATUS_STATE p) new).segState p = new))
  ∧ (∀ (x : Seg), (∀ n, x.kaNode = some n → x.keeper = n) ∧ (∀ i, x.kaNode = none → x.kaFrame = some i → x.keeper = 2 ^ 31 + i)
      ∧ (x.kaNode = none → x.kaFrame = none → x.keeper = 0xFFFFFFFF))
  ∧ (∀ (d : Dev) (p old : Nat),
      ((d.segEnter p old 1).seg p).ready = d.now ∧ ((d.segEnter p old 1).seg p).since = d.now ∧ (d.segEnter p old 1).regs = d.regs
      ∧ ((d.segEnter p 0 1).seg p).ka = some d.now
      ∧ (old ≠ 0 → ((d.segEnter p old 1).seg p).ka = (d.seg p).ka)
      ∧ (∀ e : Dev, e = (if old = 0 then { d with fwd := { d.fwd with copies := d.fwd.copies.map (fun c =>
          if c.port == p || (d.frame c.handle).map (fun f => f.ingress) == some p then { c with excused := true } else c) } } else d) →
        (p < 40 → d.segEnter p old 2 = (e.setSeg p { e.seg p with since := e.now }).dropWhere p (fun c => !c.started && !c.hold) .unavail)
        ∧ (40 ≤ p → p < 48 → ∀ d1, d1 = (e.setSeg p { e.seg p with since := e.now }).dropWhere p (fun c => !c.started && !c.hold) .unavail →
          d.segEnter p old 2 = if d1.flag (F.LIN_CTRL_ROLE (p - 40)) then d1.linPrepare p else d1)
        ∧ (∀ d1, d1 = (e.setSeg p { e.seg p with since := e.now, ka := none, latch := none, active := false, localWake := false }).dieMsg →
          (20 ≤ p → p < 32 → d.segEnter p old 3 = (d1.setXcvr p (d1.wakeMode p)).set (F.PWR_SW_STATUS_ERR_CNT (p - 20)) 0)
          ∧ (32 ≤ p → p < 40 → d.segEnter p old 3 = (d1.set (F.CAN_CTRL_MODE (p - 20)) 1).owe (.canClear (p - 20)))
          ∧ (40 ≤ p → p < 48 → d.segEnter p old 3 = d1.setXcvr p 3)
          ∧ (12 ≤ p → p < 20 → d.segEnter p old 3 = (d1.phySleep p true).owe (.ethDown p))
          ∧ (p < 12 → d.segEnter p old 3 = (d1.recipe p (32 * p + 24)).owe (.ethDown p)))))

/-- BUS_WAKE, WAKE_IN_EDGE, WAKE_CONFIRM_TIMEOUT, SOURCE_MASK_END, WUF_FRAME_DECODED, STANDBY_WAKE. The state that remembers which segments' wakes start the device out of STANDBY is the model's (log 26). -/
def Obligations.SegmentWakes : Prop :=
  (∀ (d : Dev) (p mode : Nat), mode = d.get (F.PWR_XCVR_CAN_MODE (p - 20)) → d.wakeArmed p 0 = false
      ∧ d.wakeArmed p 1 = (segCanInt p && (mode == 4 || mode == 5) && d.flag (F.PWR_SW_CFG_WUP_EN (p - 20)))
      ∧ d.wakeArmed p 2 = (segCanInt p && mode == 5) ∧ d.wakeArmed p 3 = (segCanInt p && mode == 5 && decide (31 < d.get (F.PWR_SW_STATUS_ERR_CNT (p - 20))))
      ∧ d.wakeArmed p 4 = decide (40 ≤ p) ∧ d.wakeArmed p 5 = (decide (12 ≤ p) && decide (p < 20)) ∧ d.wakeArmed p 6 = decide (p < 12)
      ∧ d.wakeArmed p 7 = (segCan p && !segCanInt p && d.ready 7 && d.get (F.CAN_CTRL_MODE (p - 20)) == 1) ∧ d.wakeArmed p 8 = true)
  ∧ (∀ (s : State) (p : Fin 48) (src : Fin 9) (d0 : Dev), d0 = (if src.val = 2 then s.dev.dec (F.PWR_SW_STATUS_ERR_CNT (p - 20)) else s.dev) →
      (s.dev.quiet → s.dev.wakeArmed p src = false → exec (.busWake p src) s = .next s)
      ∧ (s.dev.standby = false → s.dev.wakeArmed p src = true → exec (.busWake p src) s = .next { s with dev := (d0.busWake p src false).settle })
      ∧ (∀ d1, s.dev.standby = true → s.dev.wakeArmed p src = true → d1 = d0.busWake p src true →
        (d1.segState p = 4 → (d1.seg p).latch.isSome = true → exec (.busWake p src) s = .next { s with dev := Dev.settle { d1 with nm := { d1.nm with standbyWake := setBit d1.nm.standbyWake p true } } })
        ∧ (d1.segState p ≠ 4 ∨ (d1.seg p).latch = none → exec (.busWake p src) s = .next { s with dev := d1.settle })))
  ∧ (∀ (d d1 : Dev) (p src : Nat), d1 = d.wakeRecord p src true false false →
      ((d1.seg p).latch.isSome = true → d.commitWake p src = d1) ∧ ((d1.seg p).latch = none → d.commitWake p src = d1.setSeg p { d1.seg p with latch := some src }))
  ∧ (∀ (d : Dev) (p src : Nat) (stby : Bool),
      (d.segOn p = false → d.busWake p src stby = d)
      ∧ (d.segOn p = true → bit (d.get (F.NM_SEG_STATUS_MASKED p)) (src - 1) = false →
        (d.segState p ≠ 3 → d.segState p ≠ 4 → d.busWake p src stby = d)
        ∧ (d.segState p = 3 → d.busWake p src stby = d.commitWake p src)
        ∧ (∀ (d1 : Dev) (here : Bool), d.segState p = 4 → d1 = d.wakeRecord p src false stby false → here = (src == 6 || src == 7) →
          ((d1.nmHears || (here && d1.nmRuns)) = true → d.busWake p src stby = (if here then d1 else d1.dieMsg).segWake p src false stby)
          ∧ ((d1.nmHears || (here && d1.nmRuns)) = false → (d1.seg p).latch.isSome = true → d.busWake p src stby = d1)
          ∧ ((d1.nmHears || (here && d1.nmRuns)) = false → (d1.seg p).latch = none → d.busWake p src stby = d1.setSeg p { d1.seg p with latch := some src })))
      ∧ (d.segOn p = true → bit (d.get (F.NM_SEG_STATUS_MASKED p)) (src - 1) = true →
        (d.segState p ≠ 3 → d.segState p ≠ 4 → d.busWake p src stby = d)
        ∧ (∀ d1, d.segState p = 3 ∨ d.segState p = 4 → d1 = (d.wakeRecord p src (d.segState p == 3) stby true).inc F.NM_MASKED_WAKES_COUNT →
          d.busWake p src stby = d1.event62 0x02 p (d1.segState p) (d1.segState p) src (4 + b2n (d.segState p == 3) + 2 * b2n stby) 0 d1.wakeTicks)))
  ∧ (∀ (d : Dev) (p src : Nat),
      (d.segOn p = false ∨ d.nmRuns = false → d.localWake p src = d)
      ∧ (d.segOn p = true → d.nmRuns = true →
        (d.segState p = 0 → d.localWake p src = d)
        ∧ (d.segState p = 1 ∨ d.segState p = 2 → d.localWake p src = ((d.setSeg p { d.seg p with localWake := true }).wakeOut p).segStep p 0)
        ∧ (d.segState p = 3 → d.localWake p src = d.commitWake p src)
        ∧ (d.segState p = 4 → d.localWake p src = ((d.wakeRecord p src false false false).wakeOut p).segWake p src false false)
        ∧ (∀ d1, d.segState p = 5 → d1 = (d.setSeg p { d.seg p with localWake := true }).wakeOut p → d.localWake p src = if (d1.seg p).active then d1.segStep p 0 else d1)))
  ∧ (∀ (d : Dev) (n : Fin 4) (high : Bool) (ms : Nat), d.pinCounts n high ms = true ↔
      d.flag (F.PWR_WAKE_IN_CFG_EN n) = true ∧ high ≠ d.flag (F.PWR_WAKE_IN_CFG_POL n) ∧ max 1 (d.get (F.PWR_WAKE_IN_CFG_FILT_MS n)) ≤ ms)
  ∧ (∀ (s : State) (n : Fin 4) (high : Bool) (ms : Nat), s.dev.quiet → s.dev.pinCounts n high ms = false → exec (.wakeInEdge ⟨n, high, ms⟩) s = .next s)
  ∧ (∀ (s : State) (n : Fin 4) (high : Bool) (ms p : Nat), s.dev.pinCounts n high ms = true → p = s.dev.get (F.PWR_WAKE_IN_CFG_SEGMENT n) →
      (s.dev.quiet → 48 ≤ p → p ≠ 63 → exec (.wakeInEdge ⟨n, high, ms⟩) s = .next s)
      ∧ (p = 63 → s.dev.standby = true → exec (.wakeInEdge ⟨n, high, ms⟩) s = .next { s with dev := Dev.settle { s.dev with nm := { s.dev.nm with standbyWake := setBit s.dev.nm.standbyWake 63 true } } })
      ∧ (s.dev.quiet → p = 63 → s.dev.standby = false → exec (.wakeInEdge ⟨n, high, ms⟩) s = .next s)
      ∧ (p < 48 → s.dev.flag (F.PWR_WAKE_IN_CFG_LOCAL n) = true →
        (s.dev.nmHears = true → exec (.wakeInEdge ⟨n, high, ms⟩) s = .next { s with dev := (s.dev.dieMsg.localWake p 0x12).settle })
        ∧ (s.dev.nmHears = false → s.dev.segOn p = true → s.dev.segState p = 3 → exec (.wakeInEdge ⟨n, high, ms⟩) s = .next { s with dev := (s.dev.commitWake p 0x12).settle })
        ∧ (s.dev.quiet → s.dev.nmHears = false → s.dev.segOn p = false ∨ s.dev.segState p ≠ 3 ∧ s.dev.segState p ≠ 4 → exec (.wakeInEdge ⟨n, high, ms⟩) s = .next s))
      ∧ (p < 48 → s.dev.flag (F.PWR_WAKE_IN_CFG_LOCAL n) = false → s.dev.standby = false → exec (.wakeInEdge ⟨n, high, ms⟩) s = .next { s with dev := (s.dev.busWake p 8 false).settle }))
  ∧ (∀ (s : State) (p : Fin 48), s.dev.segRuns p = true → s.dev.segState p = 5 →
      ((s.dev.seg p).localWake = false →
        exec (.wakeConfirmTimeout p) s = .next { s with dev := ((s.dev.reach ((s.dev.seg p).since + max 1 (s.dev.get F.NM_TIMEOUTS_T_CONFIRM_MS) * msCyc)).falseWake p).settle })
      ∧ (s.dev.quiet → (s.dev.seg p).localWake = true → exec (.wakeConfirmTimeout p) s = .next s))
  ∧ (∀ (d d1 d2 : Dev) (p : Nat) (l : List (Nat × Nat)),
      l = (d.seg p).falses.filter (fun k => decide (d.now ≤ k.2 + max 1 (d.get F.NM_FW_CFG_FW_WINDOW_S) * sCyc)) ++ [((d.seg p).source, d.now)] →
      d1 = ((d.inc F.NM_FALSE_WAKES_COUNT).setSeg p { d.seg p with falses := l }).event62 0x03 p 5 2 (d.seg p).source (d.segFlags p) 0 d.wakeTicks →
      d2 = (d1.setBitOf (F.NM_SEG_STATUS_MASKED p) ((d.seg p).source - 1) true).setSeg p { d1.seg p with masks := (d.seg p).masks ++ [((d.seg p).source, d1.now)] } →
      ((l.filter (fun k => k.1 == (d.seg p).source)).length < max 1 (d1.get F.NM_FW_CFG_FW_LIMIT) → d.falseWake p = d1.segStep p 2)
      ∧ (max 1 (d1.get F.NM_FW_CFG_FW_LIMIT) ≤ (l.filter (fun k => k.1 == (d.seg p).source)).length → bit (d1.get (F.NM_SEG_STATUS_MASKED p)) ((d.seg p).source - 1) = false →
        d.falseWake p = ((d2.fault blkNm 0).event62 0x04 p 5 2 (d.seg p).source (d.segFlags p) 0 d.wakeTicks).segStep p 2))
  ∧ (∀ (s : State) (p : Fin 48) (src : Fin 9), s.dev.quiet → (s.dev.seg p).masks.find? (fun k => k.1 == src.val) = none → exec (.sourceMaskEnd p src) s = .next s)
  ∧ (∀ (s : State) (p : Fin 48) (src : Fin 9) (j t : Nat), (s.dev.seg p).masks.find? (fun k => k.1 == src.val) = some (j, t) →
      (s.dev.quiet → s.dev.get F.NM_MASK_CFG_MASK_S = 0 → exec (.sourceMaskEnd p src) s = .next s)
      ∧ (s.dev.get F.NM_MASK_CFG_MASK_S ≠ 0 → s.dev.ready 7 = true →
        exec (.sourceMaskEnd p src) s = .next { s with dev := ((s.dev.reach (t + s.dev.get F.NM_MASK_CFG_MASK_S * sCyc)).maskEnd p src).settle }))
  ∧ (∀ (s : State) (c : Fin 12) (f : WakeFrame),
      (s.dev.quiet → s.dev.get (F.PWR_XCVR_CAN_MODE_ACT c) ≠ 5 ∨ f.fd = true ∧ s.dev.flag (F.PWR_SW_CFG_FD_PASSIVE c) = true → exec (.wufFrameDecoded c f) s = .next s)
      ∧ (s.dev.get (F.PWR_XCVR_CAN_MODE_ACT c) = 5 → f.fd = false ∨ s.dev.flag (F.PWR_SW_CFG_FD_PASSIVE c) = false → f.bad = true ∨ f.fd = true ∨ f.rate.val ≠ s.dev.get (F.PWR_SW_CFG_RATE c) →
        ∀ d1 : Dev, d1 = s.dev.inc (F.PWR_SW_STATUS_ERR_CNT c) →
        (d1.get (F.PWR_SW_STATUS_ERR_CNT c) ≤ 31 → exec (.wufFrameDecoded c f) s = .next { s with dev := d1.settle })
        ∧ (31 < d1.get (F.PWR_SW_STATUS_ERR_CNT c) → exec (.wufFrameDecoded c f) s = .next { s with dev := (d1.wakeSeen (20 + c) 3).settle }))
      ∧ (s.dev.get (F.PWR_XCVR_CAN_MODE_ACT c) = 5 → f.bad = false → f.fd = false → f.rate.val = s.dev.get (F.PWR_SW_CFG_RATE c) → ∀ d1 : Dev, d1 = s.dev.dec (F.PWR_SW_STATUS_ERR_CNT c) →
        exec (.wufFrameDecoded c f) s = .next { s with dev := (if d1.wufMatch c f then d1.wakeSeen (20 + c) 2 else d1).settle }))
  ∧ (∀ (d : Dev) (c : Fin 12) (f : WakeFrame), d.wufMatch c f = true ↔
      f.ext = d.flag (F.PWR_SW_CFG_EXT c) ∧ f.id &&& d.get (F.PWR_SW_MASK_MASK c) = d.get (F.PWR_SW_ID_ID c) &&& d.get (F.PWR_SW_MASK_MASK c)
      ∧ (d.flag (F.PWR_SW_CFG_DLC_EN c) = true → f.dlc = d.get (F.PWR_SW_CFG_DLC c))
      ∧ (f.dlc = 0 → d.get (F.PWR_SW_DATA_DATA c) = 0) ∧ (f.dlc ≠ 0 → leNat (f.data.take (min 8 f.dlc)) &&& d.get (F.PWR_SW_DATA_DATA c) ≠ 0))
  ∧ (∀ (s : State),
      (s.dev.quiet → s.dev.standby = false ∨ s.dev.nm.standbyWake = 0 → exec .standbyWake s = .next s)
      ∧ (s.dev.standby = true → s.dev.nm.standbyWake ≠ 0 →
        exec .standbyWake s = .next { s with dev := ((({ s.dev with pwr := { s.dev.pwr with inh0 := true, inh1 := true } }).set F.NM_PWR_STATUS_STATE 1).startDomains [10, 11, 12, 13, 14]).settle }))

/-- Trips of R390, R392 and R395 with the codes of Table LOAD-5: what a trip leaves of its channel (R393), and that no other channel moves. POLICY is read as it stands when the measured values have been taken. -/
def Obligations.LoadTripsTurnOff : Prop :=
  (∀ (s : State) (i : Fin 24) (cur : Nat), s.dev.quiet → 12 ≤ i.val → (s.dev.ch i).isOn = true → s.dev.chLimit i < cur →
      ∃ t, exec (.gdOvercurrentTrip i cur) s = .next t ∧ s.dev.tripped t.dev i 2 ∧ t.dev.tbl = s.dev.tbl
        ∧ s.dev.regsOnly t.dev (chanRegs i ++ loadEventRegs))
  ∧ (∀ (s : State) (i : Fin 24) (cur vds : Nat), s.dev.quiet → 12 ≤ i.val → (s.dev.ch i).isOn = true →
      s.dev.get (F.LOAD_CH_LIM_I_LIM i) * s.dev.get (F.LOAD_CH_LIM_SC_MULT i) < cur →
      ∃ t, exec (.gdShortTrip i cur vds) s = .next t ∧ s.dev.tripped t.dev i 3 ∧ t.dev.tbl = s.dev.tbl
        ∧ s.dev.regsOnly t.dev (chanRegs i ++ loadEventRegs))
  ∧ (∀ (s : State) (i : Fin 24) (cur vds T : Nat), s.dev.quiet → 12 ≤ i.val → (s.dev.ch i).isOn = true →
      cur ≤ s.dev.get (F.LOAD_CH_LIM_I_LIM i) * s.dev.get (F.LOAD_CH_LIM_SC_MULT i) → s.dev.get (F.LOAD_CH_GD_VDS_TH i) * 20 < vds →
      T = max s.dev.now ((s.dev.ch i).gateAt + 4 * usCyc) →
      (s.dev.gateHolds i T = true → ∃ t, exec (.gdShortTrip i cur vds) s = .next t ∧ s.dev.tripped t.dev i 3 ∧ t.dev.now = T
        ∧ t.dev.tbl = s.dev.tbl ∧ s.dev.regsOnly t.dev (R.TIME_SLEW_CTRL :: chanRegs i ++ loadEventRegs))
      ∧ (s.dev.gateHolds i T = false → ∃ t, exec (.gdShortTrip i cur vds) s = .next t ∧ t.dev.now = s.dev.now
        ∧ (∀ j, t.dev.ch j = s.dev.ch j) ∧ s.dev.regsOnly t.dev [R.LOAD_CH_MEAS i]))
  ∧ (∀ (d : Dev) (i t : Nat), d.gateHolds i t = true ↔ (d.ch i).out = true ∧ ((d.ch i).run = .on ∨ d.get (F.LOAD_CH_STATUS_DUTY i) = 10000
      ∨ t + (d.ch i).per < (d.ch i).fin + d.get (F.LOAD_CH_STATUS_DUTY i) * (d.ch i).per / 10000))
  ∧ (∀ (s : State) (i : Fin 24) (tj : Int) (dt : Nat), s.dev.quiet → (s.dev.ch i).isOn = true → (170 ≤ tj ∨ 60 ≤ dt) →
      ∃ t, exec (.thermalTrip i tj dt) s = .next t ∧ s.dev.tripped t.dev i (if 170 ≤ tj then 5 else 6) ∧ t.dev.tbl = s.dev.tbl
        ∧ s.dev.regsOnly t.dev (chanRegs i ++ loadEventRegs))
  ∧ (∀ (s : State) (g : Fin 3) (c0 c1 c2 c3 : Nat) (d : Dev) (i : Nat), s.dev.quiet →
      d = (((s.dev.set (F.LOAD_CH_MEAS_CURRENT (4 * g)) c0).set (F.LOAD_CH_MEAS_CURRENT (4 * g + 1)) c1).set
        (F.LOAD_CH_MEAS_CURRENT (4 * g + 2)) c2).set (F.LOAD_CH_MEAS_CURRENT (4 * g + 3)) c3 →
      d.get (F.LOADC_GROUP_LIM_LIMIT g) ≠ 0 → d.get (F.LOADC_GROUP_LIM_LIMIT g) < c0 + c1 + c2 + c3 → d.shedPick g = some i →
      ∃ t, exec (.groupShed g c0 c1 c2 c3) s = .next t ∧ (t.dev.ch i).isOn = false ∧ (t.dev.ch i).out = false
        ∧ (t.dev.ch i).code = 8 ∧ t.dev.now = max s.dev.now (SMap.get s.dev.load.shedAt 0 g + s.dev.get (F.LOADC_GROUP_LIM_GROUP_FILT_US g) * usCyc)
        ∧ SMap.get t.dev.load.shedAt 0 g = t.dev.now ∧ ∀ j, j ≠ i → t.dev.ch j = s.dev.ch j)

/-- The refusal of R385 and what an accepted command leaves (R384), for register commands and for those of the network; of two in one
power-die cycle the register's stands (R386). That this cycle is the model's clock tick is the model's choice (log 87). The second and
third clauses say when LOAD_CMD_REG and LOAD_CMD_NET take effect. -/
def Obligations.LoadCommandRule : Prop :=
  (∀ (d : Dev) (i src cmd duty : Nat),
      (d.cmdRefused i src cmd duty = true →
        (∀ j, (d.loadCmd i src cmd duty).ch j = d.ch j) ∧ (d.loadCmd i src cmd duty).get (F.LOAD_CH_FAULT_CMD_REFUSED i) = 1)
      ∧ (d.cmdRefused i src cmd duty = false → ∀ c u : Nat,
        (c = cmd ∧ u = duty ∧ (src = 0 ∨ ∀ c' u', (d.ch i).regAt ≠ some (d.now, c', u'))) ∨ (src ≠ 0 ∧ (d.ch i).regAt = some (d.now, c, u)) →
        ((d.loadCmd i src cmd duty).ch i).want = (cmdRun c, if c = 2 then u else 0)
        ∧ (c = 0 → ((d.loadCmd i src cmd duty).ch i).run = .off ∧ ((d.loadCmd i src cmd duty).ch i).out = false)
        ∧ (c ≠ 0 → i < 24 → d.outPower = true → d.deferring i = false → ((d.loadCmd i src cmd duty).ch i).run = cmdRun c)
        ∧ ∀ j, j ≠ i → (d.loadCmd i src cmd duty).ch j = d.ch j))
  ∧ (∀ (s : State) (m : Fin 4) (i : Fin 24) (v : Word) (b : Dev) (cmd duty : Nat), s.dev.quiet → s.dev.opens m (R.LOAD_CH_CMD i) →
      b = s.dev.beforeWrite m (R.LOAD_CH_CMD i) → cmd = v.toNat % 4 → duty = v.toNat / 2 ^ 16 % 2 ^ 14 →
      exec (.loadCmdReg m i v) s = .next { s with dev := b.loadCmd i 0 cmd duty }
      ∧ (b.cmdRefused i 0 cmd duty = false → ∃ t, exec (.loadCmdReg m i v) s = .next t
        ∧ (cmd = 0 → (t.dev.ch i).run = .off ∧ (t.dev.ch i).out = false ∧ t.dev.get (F.LOAD_CH_STATUS_RETRY i) = 0)
        ∧ (cmd ≠ 0 → b.outPower = true → (b.ch i).isOn = true ∨ b.deferring i = false → (t.dev.ch i).run = cmdRun cmd
          ∧ t.dev.get (F.LOAD_CH_STATUS_DUTY i) = (if cmd = 2 then duty else 10000) ∧ t.dev.get (F.LOAD_CH_STATUS_SRC i) = 0)
        ∧ (t.dev.ch i).regAt = some (b.now, cmd, duty) ∧ t.dev.now = b.now ∧ ∀ j, j ≠ i.val → t.dev.ch j = b.ch j))
  ∧ (∀ (s : State) (i : Fin 24) (cmd duty o : Nat) (l : List (Nat × Nat × Nat × Nat)), s.dev.quiet → s.dev.load.flight = (i.val, cmd, duty, o) :: l →
      s.dev.flag F.PWR_D2D_STATUS_LINK_UP = true → s.dev.cmdRefused i 1 cmd duty = false → (∀ c u, (s.dev.ch i).regAt ≠ some (s.dev.now, c, u)) →
      ∃ t, exec .loadCmdNet s = .next t ∧ t.dev.load.flight = l ∧ t.dev.now = s.dev.now
        ∧ (cmd = 0 → (t.dev.ch i).run = .off ∧ (t.dev.ch i).out = false)
        ∧ (cmd ≠ 0 → s.dev.outPower = true → (s.dev.ch i).isOn = true ∨ s.dev.deferring i = false → (t.dev.ch i).run = cmdRun cmd
          ∧ t.dev.get (F.LOAD_CH_STATUS_SRC i) = 1)
        ∧ ∀ j, j ≠ i.val → t.dev.ch j = s.dev.ch j)
  ∧ (∀ (s : State) (i cmd duty o : Nat) (l : List (Nat × Nat × Nat × Nat)), s.dev.quiet → s.dev.load.flight = (i, cmd, duty, o) :: l →
      (s.dev.flag F.PWR_D2D_STATUS_LINK_UP = true → exec .loadCmdNet s
        = .next { s with dev := (({ s.dev with load := { s.dev.load with flight := l } }).flits 1).loadCmd i 1 cmd duty })
      ∧ (s.dev.flag F.PWR_D2D_STATUS_LINK_UP = false → exec .loadCmdNet s = .next s))
  ∧ (∀ s : State, s.dev.quiet → s.dev.load.flight = [] → exec .loadCmdNet s = .next s)
  ∧ (∀ (d : Dev) (n : Nat), (d.flag (F.FLT_PERT_D2D_EN blkPwr) = false → d.flits n = d)
      ∧ (d.flag (F.FLT_PERT_D2D_EN blkPwr) = true → ∀ k, k = atLeastOne (d.get (F.FLT_PERT_D2D_EVERY blkPwr)) →
        (d.flits n).load.flits = (d.load.flits + n) % k
        ∧ (d.flits n).get F.PWR_D2D_RETRIES_COUNT = satAdd 32 (d.get F.PWR_D2D_RETRIES_COUNT) (d.get (F.FLT_PERT_D2D_EXTRA blkPwr) * ((d.load.flits + n) / k))
        ∧ d.regsOnly (d.flits n) [R.PWR_D2D_RETRIES] ∧ ∀ j, (d.flits n).ch j = d.ch j))
  ∧ (∀ d : Dev, (d.load.flight.length < 32 → d.linkWait = d)
      ∧ (∀ x l, d.load.flight = x :: l → l.length = 31 → d.linkWait = d.loadCmdNet))

/-- The pseudocode of R391 for one channel and one update, which comes no earlier than 1 ms after the last. The number format of θ and of the decay is the model's choice (log 13); the last clause says that the step tends to the steady value without passing it. -/
def Obligations.WireModelStep : Prop :=
  (∀ (s : State) (i : Fin 24) (i2 cur : Nat), s.dev.quiet →
      ∃ t, exec (.wireModelUpdate i i2 cur) s = .next t ∧ (∀ j, j ≠ i.val → t.dev.ch j = s.dev.ch j) ∧ t.dev.tbl = s.dev.tbl
        ∧ s.dev.regsOnly t.dev (R.TIME_SLEW_CTRL :: chanRegs i ++ loadEventRegs)
        ∧ (wireK (s.dev.get (F.LOAD_CH_CFG_WIRE i)) = 0 → t.dev.ch i = s.dev.ch i ∧ t.dev.now = s.dev.now)
        ∧ (wireK (s.dev.get (F.LOAD_CH_CFG_WIRE i)) ≠ 0 →
          t.dev.now = max s.dev.now ((s.dev.ch i).wireAt + msCyc) ∧ (t.dev.ch i).wireAt = t.dev.now
          ∧ (t.dev.ch i).theta = wireStep (s.dev.get (F.LOAD_CH_CFG_WIRE i)) (s.dev.ch i).theta i2
          ∧ if (s.dev.ch i).isOn = true ∧ s.dev.wireLevel i * (2 ^ 32 : Nat) ≤ ((t.dev.ch i).theta : Int) then
              (t.dev.ch i).run = (if s.dev.get (F.LOAD_CH_CFG_POLICY i) = 2 then Run.latched else Run.faultOff)
              ∧ (t.dev.ch i).out = false ∧ (t.dev.ch i).code = 4
            else (t.dev.ch i).run = (s.dev.ch i).run ∧ (t.dev.ch i).out = (s.dev.ch i).out))
  ∧ (∀ w theta i2 ss : Nat, ss = wireK w * i2 * 2 ^ 32 / 10000000 →
      min theta ss ≤ wireStep w theta i2 ∧ wireStep w theta i2 ≤ max theta ss)

/-- What time does to a channel (R387, R388, R393), and the two faults that leave it on (R390, R394). -/
def Obligations.ChannelClocks : Prop :=
  (∀ (s : State) (i : Fin 24) (T : Nat), s.dev.quiet → (s.dev.ch i).winEnd = some T →
      ∃ t, exec (.inrushWindowEnd i) s = .next t ∧ t.dev.now = max s.dev.now T ∧ t.dev.ch i = { s.dev.ch i with winEnd := none }
        ∧ (∀ j, j ≠ i.val → t.dev.ch j = s.dev.ch j) ∧ t.dev.chLimit i = s.dev.get (F.LOAD_CH_LIM_I_LIM i))
  ∧ (∀ (s : State) (i : Fin 24) (T : Nat), s.dev.quiet → (s.dev.ch i).onSince = some T → (s.dev.ch i).isOn = true →
      ∃ t, exec (.retryCountReset i) s = .next t ∧ t.dev.now = max s.dev.now (T + sCyc) ∧ t.dev.get (F.LOAD_CH_STATUS_RETRY i) = 0
        ∧ (t.dev.ch i).run = (s.dev.ch i).run ∧ (∀ j, j ≠ i.val → t.dev.ch j = s.dev.ch j))
  ∧ (∀ (s : State) (i : Fin 24) (duty : Nat), s.dev.quiet → (s.dev.ch i).run = .pwm → duty = s.dev.get (F.LOAD_CH_STATUS_DUTY i) →
      (duty ≠ 0 → duty ≠ 10000 → ∃ t, exec (.pwmEdge i) s = .next t ∧ (t.dev.ch i).run = .pwm ∧ (t.dev.ch i).out = !(s.dev.ch i).out
        ∧ t.dev.now = max s.dev.now (if (s.dev.ch i).out then (s.dev.ch i).fin + duty * (s.dev.ch i).per / 10000 - (s.dev.ch i).per else (s.dev.ch i).fin)
        ∧ (t.dev.ch i).fin = (s.dev.ch i).fin + (if (s.dev.ch i).out then 0 else s.dev.pwmPer i)
        ∧ (t.dev.ch i).per = (if (s.dev.ch i).out then (s.dev.ch i).per else s.dev.pwmPer i)
        ∧ ((s.dev.ch i).out = false → (t.dev.ch i).gateAt = t.dev.now)
        ∧ (∀ j, j ≠ i.val → t.dev.ch j = s.dev.ch j))
      ∧ (duty = 0 ∨ duty = 10000 → ∃ t, exec (.pwmEdge i) s = .next t ∧ t.dev.now = s.dev.now ∧ t.dev.ch i = s.dev.pwmRoll i
        ∧ (∀ j, j ≠ i.val → t.dev.ch j = s.dev.ch j)))
  ∧ (∀ (d : Dev) (i : Nat) (c : LoadCh), (d.ch i).run = .pwm → 0 < d.pwmPer i → c = d.pwmRoll i →
      d.now < c.fin ∧ (d.now < (d.ch i).fin → c = d.ch i)
      ∧ ((d.ch i).fin ≤ d.now → c.per = d.pwmPer i ∧ c.fin ≤ d.now + c.per ∧ (c.fin - (d.ch i).fin) % c.per = 0
        ∧ (d.get (F.LOAD_CH_STATUS_DUTY i) = 0 → c.out = false) ∧ (d.get (F.LOAD_CH_STATUS_DUTY i) = 10000 → c.out = true)))
  ∧ (∀ (s : State) (i : Fin 24) (cur : Nat), s.dev.quiet → i.val < 12 → (s.dev.ch i).isOn = true → s.dev.chLimit i ≤ cur →
      ∃ t, exec (.currentLimit i cur) s = .next t ∧ t.dev.get (F.LOAD_CH_STATUS_LIMITING i) = 1
        ∧ bit (t.dev.get (F.LOAD_CH_FAULT_CODES i)) 0 = true ∧ (∀ j, t.dev.ch j = s.dev.ch j))
  ∧ (∀ (s : State) (i : Fin 24) (cur : Nat), s.dev.quiet → (s.dev.ch i).isOn = true → cur < s.dev.get (F.LOAD_CH_OL_OL_TH i) →
      ∃ t, exec (.openLoadDetect i cur) s = .next t ∧ bit (t.dev.get (F.LOAD_CH_FAULT_CODES i)) 6 = true
        ∧ (∀ j, t.dev.ch j = s.dev.ch j))

/-- Retries (R393) and the order and spacing of deferred turn-ons (R389). -/
def Obligations.RetriesAndDeferredTurnOns : Prop :=
  (∀ (s : State) (i : Fin 24) (tj : Int) (dt : Nat), s.dev.quiet → (s.dev.ch i).run = .faultOff → s.dev.get (F.LOAD_CH_CFG_POLICY i) ≠ 2 → s.dev.cleared i tj dt = true →
      ∃ t, exec (.channelRetry i tj dt) s = .next t
        ∧ t.dev.now = max s.dev.now ((s.dev.ch i).tripAt + atLeastOne (s.dev.get (F.LOAD_CH_RETRY_RETRY_MS i)) * msCyc)
        ∧ (∀ j, j ≠ i.val → t.dev.ch j = s.dev.ch j)
        ∧ (s.dev.get (F.LOAD_CH_RETRY_RETRY_N i) ≤ s.dev.get (F.LOAD_CH_STATUS_RETRY i) → (t.dev.ch i).run = .latched)
        ∧ (s.dev.get (F.LOAD_CH_STATUS_RETRY i) < s.dev.get (F.LOAD_CH_RETRY_RETRY_N i) → (s.dev.desired i).1 ≠ .off →
            s.dev.outPower = true → s.dev.deferring i = false →
            (t.dev.ch i).run = (s.dev.desired i).1
            ∧ (t.dev.ch i).winEnd = (if s.dev.get (F.LOAD_CH_LIM_INRUSH_MS i) ≠ 0 ∧ s.dev.get (F.LOAD_CH_CFG_POLICY i) ≠ 1
                then some (t.dev.now + s.dev.get (F.LOAD_CH_LIM_INRUSH_MS i) * msCyc) else none)
            ∧ t.dev.get (F.LOAD_RETRIES_COUNT i) = satAdd 32 (s.dev.get (F.LOAD_RETRIES_COUNT i)) 1))
  ∧ (∀ (s : State) (i : Fin 24) (tj : Int) (dt : Nat), s.dev.quiet →
      (s.dev.ch i).run ≠ .faultOff ∨ s.dev.get (F.LOAD_CH_CFG_POLICY i) = 2 ∨ s.dev.cleared i tj dt = false →
      exec (.channelRetry i tj dt) s = .next s)
  ∧ (∀ (d : Dev) (i : Nat), d.nextDeferred = some i → i < 24 ∧ (d.ch i).run = .deferred ∧ d.deferring i = false
      ∧ ∀ j, j < 24 → (d.ch j).run = .deferred → d.deferring j = false →
        d.get (F.LOAD_CH_CFG_PRIO j) ≤ d.get (F.LOAD_CH_CFG_PRIO i)
        ∧ (d.get (F.LOAD_CH_CFG_PRIO j) = d.get (F.LOAD_CH_CFG_PRIO i) → i ≤ j))
  ∧ (∀ (s : State) (i duty src : Nat) (run : Run) (retry : Bool), s.dev.quiet → s.dev.nextDeferred = some i →
      (s.dev.ch i).pend = some (run, duty, src, retry) → run ≠ .off → s.dev.outPower = true →
      ∃ t, exec .deferredTurnOn s = .next t ∧ (t.dev.ch i).run = run ∧ (t.dev.ch i).pend = none
        ∧ t.dev.now = max s.dev.now ((s.dev.load.lastDefer.map (fun x => x + msCyc)).getD 0)
        ∧ t.dev.load.lastDefer = some t.dev.now ∧ (∀ j, j ≠ i → t.dev.ch j = s.dev.ch j))

/-- Table LOAD-6 and the thresholds of R389. -/
def Obligations.GroundAndSupply : Prop :=
  (∀ s : State, s.dev.quiet → ∃ t, exec .groundLoss s = .next t ∧ t.dev.outPower = false ∧ t.dev.flag F.LOADC_SUPPLY_STATUS_GND_LOSS = true
      ∧ ∀ i : Fin 24, (t.dev.ch i).run = .off ∧ (t.dev.ch i).out = false ∧ (t.dev.ch i).winEnd = none ∧ (t.dev.ch i).pend = none
        ∧ t.dev.get (F.LOAD_CH_STATUS_DUTY i) = 0 ∧ t.dev.flag (F.LOAD_CH_STATUS_LIMITING i) = false)
  ∧ (∀ s : State, s.dev.quiet → s.dev.load.gndLost = true → ∃ t, exec .groundReturn s = .next t ∧ t.dev.load.gndLost = false
      ∧ ∀ i : Fin 24, (t.dev.ch i).run = .faultOff ∧ (t.dev.ch i).code = 9 ∧ (t.dev.ch i).out = (s.dev.ch i).out)
  ∧ (∀ (d : Dev) (i dt : Nat) (tj : Int), (d.ch i).code = 9 → d.cleared i tj dt = false)
  ∧ (∀ (s : State) (vbat vhv : Nat), s.dev.quiet → ∃ t, exec (.supplyConditionChange vbat vhv) s = .next t
      ∧ t.dev.flag F.LOADC_SUPPLY_STATUS_DUMP = decide ((if s.dev.flag F.LOADC_SUPPLY_STATUS_DUMP then 27500 else 28000) < vbat)
      ∧ t.dev.flag F.LOADC_SUPPLY_STATUS_VHV_HIGH = decide ((if s.dev.flag F.LOADC_SUPPLY_STATUS_VHV_HIGH then 5800 else 6000) < vhv)
      ∧ ∀ i, t.dev.ch i = s.dev.ch i)
  ∧ (∀ s : State, s.dev.quiet → ∃ t, exec .reverseBattery s = .next t ∧ t.dev.load.revBat = true
      ∧ (∀ i : Fin 24, (t.dev.ch i).run = .off ∧ (t.dev.ch i).out = false ∧ t.dev.get (F.LOAD_CH_STATUS_DUTY i) = 0)
      ∧ ∀ i : Fin 12, bit t.dev.load.revOn i = s.dev.flag (F.LOAD_CH_CFG_REV_ON i)
        ∧ bit t.dev.load.revHeld (12 + i) = s.dev.flag (F.LOAD_CH_CFG_B2B (12 + i)))

/-- The heartbeat watchdog: what a good feed is (R398), what expiry does (R399: only LATCHED channels stay off), when a release is taken
(R400), and the lock (R401). -/
def Obligations.HeartbeatWatchdog : Prop :=
  (∀ (d : Dev) (m b key : Nat), wdMasterBit m = some b → bit (d.get F.LOADC_WD_CFG_MASTERS) b = true → key < 256 →
      key = d.get F.LOADC_WD_STATUS_NEXT →
      (d.wdFeed m key).get F.LOADC_WD_STATUS_NEXT = (key + 0x35) % 256 ∧ (d.wdFeed m key).load.wdFed = some d.now
        ∧ (d.wdFeed m key).get F.LOADC_WD_STATUS_BAD_FEEDS = d.get F.LOADC_WD_STATUS_BAD_FEEDS)
  ∧ (∀ (d : Dev) (m key : Nat), (∀ b, wdMasterBit m = some b → bit (d.get F.LOADC_WD_CFG_MASTERS) b = false)
        ∨ key % 256 ≠ d.get F.LOADC_WD_STATUS_NEXT →
      (d.wdFeed m key).get F.LOADC_WD_STATUS_NEXT = d.get F.LOADC_WD_STATUS_NEXT ∧ (d.wdFeed m key).load.wdFed = d.load.wdFed
        ∧ (d.wdFeed m key).get F.LOADC_WD_STATUS_BAD_FEEDS = satAdd 16 (d.get F.LOADC_WD_STATUS_BAD_FEEDS) 1)
  ∧ (∀ (s : State) (m : Fin 4) (key : Byte), s.dev.quiet → s.dev.opens m R.LOADC_WD_FEED →
      (m.val ≠ 1 ∨ bit ((s.dev.beforeWrite m R.LOADC_WD_FEED).get F.LOADC_WD_CFG_MASTERS) 1 = true) →
      exec (.wdFeed m key) s = .next { s with dev := (s.dev.beforeWrite m R.LOADC_WD_FEED).wdFeed m key.toNat })
  ∧ (∀ (s : State) (key : Byte) (b : Dev), s.dev.opens 1 R.LOADC_WD_FEED → b = s.dev.beforeWrite 1 R.LOADC_WD_FEED →
      bit (b.get F.LOADC_WD_CFG_MASTERS) 1 = false →
      exec (.wdFeed 1 key) s = .next { s with dev := ((b.wdFeed 1 key.toNat).flaggedWrite blkLoad 1 R.LOADC_WD_FEED).settle })
  ∧ (∀ (s : State) (m : Fin 4) (k : Nat) (key : Byte) (b : Dev), s.dev.quiet → s.dev.opens m R.LOADC_WD_FEED →
      b = s.dev.beforeWrite m R.LOADC_WD_FEED → wdMasterBit m = some k → bit (b.get F.LOADC_WD_CFG_MASTERS) k = true →
      key.toNat = b.get F.LOADC_WD_STATUS_NEXT →
      ∃ t, exec (.wdFeed m key) s = .next t ∧ t.dev.get F.LOADC_WD_STATUS_NEXT = (key.toNat + 0x35) % 256 ∧ t.dev.load.wdFed = some b.now
        ∧ t.dev.load.fedSince = true ∧ t.dev.get F.LOADC_WD_STATUS_BAD_FEEDS = b.get F.LOADC_WD_STATUS_BAD_FEEDS
        ∧ b.regsOnly t.dev [R.LOADC_WD_STATUS] ∧ ∀ i, t.dev.ch i = b.ch i)
  ∧ (∀ (s : State) (T : Nat), s.dev.quiet → s.dev.load.wdFed = some T → s.dev.flag F.LOADC_WD_CFG_EN = true →
      s.dev.flag F.LOADC_WD_STATUS_EXPIRED = false →
      ∃ t, exec .wdExpiry s = .next t ∧ t.dev.flag F.LOADC_WD_STATUS_EXPIRED = true
        ∧ t.dev.now = max s.dev.now (T + s.dev.get F.LOADC_WD_CFG_PERIOD_MS * msCyc)
        ∧ t.dev.load.fedSince = false ∧ bit (t.dev.reg (R.FLT_FAULT_STATUS blkLoad)) 2 = true
        ∧ ∀ i : Fin 24, (t.dev.ch i).safe = true
          ∧ ((s.dev.ch i).run = .latched → (t.dev.ch i).run = .latched ∧ (t.dev.ch i).out = (s.dev.ch i).out)
          ∧ ((s.dev.ch i).run ≠ .latched → s.dev.limpCtl i = false →
            (s.dev.get (F.LOAD_CH_CFG_SAFE i) = 0 → (t.dev.ch i).run = .off ∧ (t.dev.ch i).out = false)
            ∧ (s.dev.get (F.LOAD_CH_CFG_SAFE i) = 1 → s.dev.outPower = true → (s.dev.ch i).isOn = true ∨ s.dev.deferring i = false →
              (t.dev.ch i).run = .pwm ∧ t.dev.get (F.LOAD_CH_STATUS_DUTY i) = s.dev.get (F.LOAD_CH_SAFE_SAFE_DUTY i))
            ∧ (s.dev.get (F.LOAD_CH_CFG_SAFE i) = 2 → (t.dev.ch i).run = (s.dev.ch i).run ∧ (t.dev.ch i).out = (s.dev.ch i).out)
            ∧ (s.dev.get (F.LOAD_CH_CFG_SAFE i) = 3 → bit (s.dev.get F.LOADC_LIMP_MAP_MAP) i = false ∨ s.dev.lhIn i = false →
              (t.dev.ch i).run = .off ∧ (t.dev.ch i).out = false)
            ∧ (s.dev.get (F.LOAD_CH_CFG_SAFE i) = 3 → bit (s.dev.get F.LOADC_LIMP_MAP_MAP) i = true → s.dev.lhIn i = true →
              s.dev.outPower = true → (s.dev.ch i).isOn = true ∨ s.dev.deferring i = false → (t.dev.ch i).run = .on)))
  ∧ (∀ (s : State) (m : Fin 4) (b : Dev), s.dev.quiet → s.dev.opens m R.LOADC_WD_CTRL → b = s.dev.beforeWrite m R.LOADC_WD_CTRL →
      ∃ t, exec (.wdRelease m) s = .next t
        ∧ (b.load.fedSince = true → (m.val = 0 ∨ m.val = 3) → t.dev.flag F.LOADC_WD_STATUS_EXPIRED = false
          ∧ ∀ i : Fin 24, (t.dev.ch i).safe = false ∧ (t.dev.ch i).run = (b.ch i).run ∧ (t.dev.ch i).out = (b.ch i).out
            ∧ ((b.ch i).safe = true → (t.dev.ch i).want = b.present i))
        ∧ (b.load.fedSince = false ∨ (m.val ≠ 0 ∧ m.val ≠ 3) → t.dev.flag F.LOADC_STATUS_CFG_IGNORED = true ∧ ∀ i, t.dev.ch i = b.ch i))
  ∧ (∀ (s : State) (m : Fin 4), s.dev.quiet → s.dev.opens m R.LOADC_LOCK →
      ∃ t, exec (.loadLock m) s = .next t ∧ t.dev.flag F.LOADC_LOCK_LOCK = true ∧ ∀ i, t.dev.ch i = (s.dev.beforeWrite m R.LOADC_LOCK).ch i)

/-- LIMP control (R402): the pins override the other sources of mapped channels, protection excepted; at its end in STANDBY every channel is
off (R403). -/
def Obligations.LimpHomePinsDecide : Prop :=
  (∀ (s : State) (level : Bool), s.dev.quiet → s.dev.flag F.LOADC_LIMP_STATUS_LH_EN ≠ level →
      ∃ t, exec (.lhEnChange level) s = .next t ∧ t.dev.flag F.LOADC_LIMP_STATUS_LH_EN = level
        ∧ (s.dev.inStandby = false ∨ level = true → ∀ i : Fin 24, bit (s.dev.get F.LOADC_LIMP_MAP_MAP) i = false → t.dev.ch i = s.dev.ch i)
        ∧ (s.dev.inStandby = true → level = false → t.dev.outPower = false ∧ ∀ i : Fin 24, (t.dev.ch i).run = .off ∧ (t.dev.ch i).out = false)
        ∧ (∀ i : Fin 24, level = true → bit (s.dev.get F.LOADC_LIMP_MAP_MAP) i = true → (s.dev.ch i).run ≠ .latched →
            (s.dev.ch i).run ≠ .faultOff →
            (s.dev.lhIn i = false → (t.dev.ch i).run = .off ∧ (t.dev.ch i).out = false)
            ∧ (s.dev.lhIn i = true → s.dev.outPower = true ∨ (s.dev.inStandby = true ∧ s.dev.load.gndLost = false) → s.dev.deferring i = false →
                (t.dev.ch i).run = .on)))
  ∧ (∀ (s : State) (k : Fin 4) (level : Bool), s.dev.quiet → ∃ t, exec (.lhInChange k level) s = .next t
      ∧ bit (t.dev.get F.LOADC_LIMP_STATUS_LH_IN) k = level
      ∧ ∀ i : Fin 24, s.dev.limpCtl i = false → ((s.dev.ch i).safe = false ∨ s.dev.get (F.LOAD_CH_CFG_SAFE i) ≠ 3) →
          t.dev.ch i = s.dev.ch i)

/-- PTIME (R404). That a correction cuts DTIME to whole microseconds at its instant is the model's choice (log 15). -/
def Obligations.PowerDieTime : Prop :=
  (∀ s : State, s.dev.quiet → s.dev.ready 2 = true → s.dev.flag F.PWR_D2D_STATUS_LINK_UP = true →
      ∃ t, exec .ptimeCorrection s = .next t ∧ t.dev.flag F.LOADC_PTIME_STATUS_PTIME_VALID = true
        ∧ t.dev.load.corr = some t.dev.now ∧ (s.dev.dtime < 2 ^ 64 → t.dev.ptime = s.dev.dtime / 1000 * 1000)
        ∧ ∀ i, t.dev.ch i = s.dev.ch i)
  ∧ (∀ d : Dev, d.ptime % 1000 = 0)
  ∧ (∀ (s : State) (T : Nat), s.dev.quiet → s.dev.load.corr = some T →
      ∃ t, exec .ptimeInvalid s = .next t ∧ t.dev.flag F.LOADC_PTIME_STATUS_PTIME_VALID = false
        ∧ t.dev.now = max s.dev.now (T + 10 * msCyc) ∧ t.dev.load.corr = none ∧ ∀ i, t.dev.ch i = s.dev.ch i)

/-- The doorbell test (R412). The first clause gives the test itself, in differences modulo 2³²; the last says that a failed write takes no slot. -/
def Obligations.DoorbellTest : Prop :=
  (∀ (d : Dev) (r w : Nat), w < 2 ^ 32 → (d.doorbellOk r w = true ↔
      if r < 60 then (d.dbIdx r + 2 ^ 32 - d.devIdx r) % 2 ^ 32 ≤ (w + 2 ^ 32 - d.devIdx r) % 2 ^ 32
          ∧ (w + 2 ^ 32 - d.devIdx r) % 2 ^ 32 ≤ 2 ^ d.get (F.HIF_RING_CFG_SIZE_LOG2 r)
      else (w + 2 ^ 32 - d.dbIdx r) % 2 ^ 32 ≤ (d.devIdx r + 2 ^ 32 - d.dbIdx r) % 2 ^ 32))
  ∧ (∀ (s : State) (r : Fin 64) (w : Nat) (stores : List (Nat × Byte)) (d e : Dev), d = s.dev.hostStore stores → d.ready 1 = true →
      d.doorbellOk r w = true → e = d.set (F.HIF_DB_INDEX_INDEX r) w →
      e.dbIdx r = w % 2 ^ 32
      ∧ exec (.doorbellWrite r w stores) s = .next { s with dev := (if !e.ringUp r then e
          else if 56 ≤ r.val ∧ r.val < 60 then e.fetchCmds r (idxSub w (e.devIdx r)) else if r.val = 63 then e.drain63 else if 32 ≤ r.val ∧ r.val < 56 then e.rxClean r else e).settle })
  ∧ (∀ (s : State) (r : Fin 64) (w : Nat) (stores : List (Nat × Byte)) (d e : Dev), d = s.dev.hostStore stores → d.ready 1 = true →
      d.doorbellOk r w = false → e = (d.set (F.HIF_RING_STATUS_DB_ERR r) 1).fault blkHost 2 →
      (∀ q : Fin 64, e.dbIdx q = d.dbIdx q) ∧ d.regsOnly e (faultRegs blkHost)
      ∧ exec (.doorbellWrite r w stores) s = .next { s with dev := e.settle })

/-- Ring set-up through RING_CFG_r (R434, Table HIF-13). -/
def Obligations.RingSwitch : Prop :=
  (∀ (s : State) (m : Fin 4) (r : Fin 64), s.dev.quiet → s.dev.opens m (R.HIF_RING_CFG r) → s.dev.flag (F.HIF_RING_CFG_EN r) = false →
      ∃ t, exec (.ringEnable m r) s = .next t ∧ t.dev.flag (F.HIF_RING_CFG_EN r) = true
        ∧ t.dev.flag (F.HIF_RING_STATUS_HALTED r) = false ∧ t.dev.tbl = s.dev.tbl
        ∧ (r.val ≠ 63 ∨ s.dev.load.evBuf = [] → t.dev.devIdx r = 0 ∧ t.dev.dbIdx r = 0 ∧ t.dev.hostMem = s.dev.hostMem
          ∧ s.dev.regsOnly t.dev [R.HIF_RING_CFG r, R.HIF_RING_STATUS r, R.HIF_DEV_INDEX r, R.HIF_DB_INDEX r])
        ∧ (r.val = 63 → t.dev.ring63Up = true → t.dev.load.evBuf = [])
        ∧ t.dev.host.txWait.map (fun w => w.idx) = s.dev.host.txWait.map (fun w => if w.ring = r.val then w.idx + 2 ^ 32 else w.idx))
  ∧ (∀ (s : State) (m : Fin 4) (r : Fin 64), s.dev.quiet → s.dev.opens m (R.HIF_RING_CFG r) →
      ∃ t, exec (.ringDisable m r) s = .next t ∧ t.dev.flag (F.HIF_RING_CFG_EN r) = false
        ∧ t.dev.get (F.HIF_RING_CFG_SIZE_LOG2 r) = s.dev.get (F.HIF_RING_CFG_SIZE_LOG2 r)
        ∧ t.dev.tbl = s.dev.tbl ∧ t.dev.hostMem = s.dev.hostMem
        ∧ s.dev.regsOnly t.dev [R.HIF_RING_CFG r, R.HIF_RING_STATUS r, R.HIF_DEV_INDEX r, R.HIF_DB_INDEX r])

/-- The steps of a TX ring and the failed reads (R80, R414, R417, R430), each as the next state it answers. -/
def Obligations.HostTransmitSteps : Prop :=
  (∀ (s : State) (r : Fin 32) (d : Dev), d = s.dev → d.ringUp r = true → d.devIdx r ≠ d.dbIdx r →
      (d.host.txWait.filter (fun (t : TxDesc) => t.ring == r.val)).length < 64 →
      exec (.txDescFetch r) s = .next { s with dev :=
        (if d.host.txKilled.contains (r.val, d.devIdx r) then
          ({ d with host := { d.host with txKilled := d.host.txKilled.filter (fun k => k != (r.val, d.devIdx r)) } }).ringAdvance r 1
        else (({ d with host := { d.host with txWait := d.host.txWait ++ [d.txParse r (d.devIdx r)] } }).ringAdvance r 1).txBadHead r
          ((d.host.txWait.filter (fun (t : TxDesc) => t.ring == r.val)).length + 1)).settle })
  ∧ (∀ (s : State) (r : Fin 32) (t : TxDesc) (d e : Dev), d = s.dev → d.txRuns r = true →
      d.host.txWait.find? (fun (t : TxDesc) => t.ring == r.val) = some t → t.bad = false → e = (d.txUnwait r t.idx).hostTake t →
      exec (.hostTxFrame r) s = .next { s with dev := ((e.txIntake r t.idx).txBadHead r e.host.txWait.length).settle })
  ∧ (∀ (s : State) (r : Fin 64) (i a : Nat), s.dev.ringUp r = true →
      exec (.dmaReadError 0 r i a) s = .next { s with dev := ((s.dev.set (F.HIF_RING_STATUS_HALTED r) 1).dmaFault 5 accFetch a).settle })
  ∧ (∀ (s : State) (r : Fin 64) (i a : Nat) (t : TxDesc) (d e : Dev), d = s.dev → d.host.txWait.find? (fun (t : TxDesc) => t.ring == r.val) = some t →
      e = d.txUnwait r t.idx →
      exec (.dmaReadError 1 r i a) s = .next { s with dev :=
        (((e.dmaFault 5 accDmaRead a).txComplete t.pend errPoison).txBadHead r e.host.txWait.length).settle })
  ∧ (∀ (s : State) (r : Fin 64) (i a : Nat) (o : Op), s.dev.host.ops.find? (fun (o : Op) => o.ring == r.val && o.idx == i && o.state == .running) = some o →
      r.val = 58 → exec (.dmaReadError 2 r i a) s = .next { s with dev := ((s.dev.dmaFault 5 accDmaRead a).cryEnd o .failed errPoison).settle })
  ∧ (∀ (s : State) (r : Fin 64) (i a : Nat) (o : Op), s.dev.host.ops.find? (fun (o : Op) => o.ring == r.val && o.idx == i && o.state == .running) = some o →
      r.val ≠ 58 → r.val ≠ 59 ∨ o.opcode ≠ 0x40 →
      (r.val ≠ 59 ∨ o.opcode ≠ 0x21 → exec (.dmaReadError 2 r i a) s = .next { s with dev := ((s.dev.dmaFault 5 accDmaRead a).opFail o errPoison).settle })
      ∧ (r.val = 59 → o.opcode = 0x21 → exec (.dmaReadError 2 r i a) s
          = .next { s with dev := (((s.dev.dmaFault 5 accDmaRead a).setNonce none).opFail o errPoison).settle }))
  ∧ (∀ (s : State) (i a : Nat) (o : Op) (d1 : Dev), s.dev.host.ops.find? (fun (o : Op) => o.ring == 59 && o.idx == i && o.state == .running) = some o → o.opcode = 0x40 → d1 = s.dev.dmaFault 5 accDmaRead a →
      exec (.dmaReadError 2 59 i a) s = .next { s with dev := (((d1.xpt.sess.filter (fun p => (p.2.bind (fun x => x.op)) == some i)).foldl (fun (d : Dev) p => d.xptQuiet p.1) d1).opFail o errPoison).settle })
  ∧ (∀ (d : Dev) (t : TxDesc) (p : Nat) (m : Msg), t.field = true → m = hostField (d.hostRead t.addr t.len) → p = (bitsOf 48 t.portset).headD 0 →
      ∀ x, d.makeCopy p m m.data none = x → (∀ m1 e, x.2 ≠ .frame m1 e) → d.hostTake t = x.1.txComplete t.pend errFormat)
  ∧ (∀ (s : State) (r : Fin 64) (i a : Nat), s.dev.tables.pass.isSome = true →
      exec (.dmaReadError 3 r i a) s = .next { s with dev := ((s.dev.dmaFault 6 accDmaRead a).assayDmaError).settle })

/-- What becomes of commands that are not known, of status words and of aborts (R425, R427). -/
def Obligations.CommandsAnswered : Prop :=
  (∀ (s : State) (o : Op) (l : List Op), s.dev.quiet → s.dev.host.unknown = o :: l →
      ∃ t, exec .unknownCommand s = .next t ∧ t.dev.host.unknown = l ∧ t.dev.host.ops = s.dev.host.ops ∧ t.dev.regs = s.dev.regs
        ∧ t.dev.hostRead o.status 16 = ({ o with state := .failed } : Op).word errFormat)
  ∧ (∀ (s : State) (r : Fin 64) (i : Nat) (o : Op), s.dev.quiet →
      s.dev.host.ops.find? (fun (o : Op) => o.ring == r.val && o.idx == i && o.state == .running) = some o →
      (o.told.1 = o.progress → o.told.2.1 = o.partialCnt → exec (.statusProgressWrite r i) s = .next s)
      ∧ (o.told.1 ≠ o.progress ∨ o.told.2.1 ≠ o.partialCnt →
        ∃ t, exec (.statusProgressWrite r i) s = .next t ∧ t.dev.now = max s.dev.now (o.told.2.2 + 10 * usCyc)
          ∧ t.dev.hostRead o.status 16 = o.word errOk ∧ s.dev.regsOnly t.dev [R.TIME_SLEW_CTRL]
          ∧ t.dev.host.ops = s.dev.host.ops.map (fun p => if p.same o then { o with told := (o.progress, o.partialCnt, t.dev.now) } else p)
          ∧ ∀ x, (∀ k < 16, (o.status + k) % 2 ^ 64 ≠ x % 2 ^ 64) → t.dev.hostByte x = s.dev.hostByte x))
  ∧ (∀ (s : State) (x a : Op) (d : Dev), s.dev.quiet → s.dev.host.aborts.find? (fun (a : Op) => a.state == .queued) = some x →
      a = { x with state := .running } → d = s.dev.abortRun a → 56 ≤ a.tgtRing → a.tgtRing < 60 →
      idxSub (d.dbIdx a.tgtRing + 2 ^ 32 - 1) a.tgtIdx < d.ringSize a.tgtRing →
      (SMap.find? d.host.hist (a.tgtRing * 65536 + a.tgtIdx % d.ringSize a.tgtRing) ≠ some (a.tgtIdx, a.seq) →
        ∃ t, exec .abort s = .next t ∧ t.dev.host.ops = d.host.ops ∧ t.dev.hostRead a.status 16 = ({ a with state := .failed } : Op).word errFormat)
      ∧ (SMap.find? d.host.hist (a.tgtRing * 65536 + a.tgtIdx % d.ringSize a.tgtRing) = some (a.tgtIdx, a.seq) →
        (d.host.ops.find? (fun (o : Op) => o.ring == a.tgtRing && o.idx == a.tgtIdx) = none →
          ∃ t, exec .abort s = .next t ∧ t.dev.host.ops = d.host.ops
            ∧ t.dev.hostRead a.status 16 = ({ a with state := .failed } : Op).word errAbortLate)
        ∧ (∀ o : Op, d.host.ops.find? (fun (o : Op) => o.ring == a.tgtRing && o.idx == a.tgtIdx) = some o →
          (o.state = .queued → exec .abort s = .next { s with dev := (d.provGone o).finish { o with progress := 0 } .aborted errAborted }
            ∧ ((d.provGone o).finish { o with progress := 0 } .aborted errAborted).host.ops = d.host.ops.filter (fun p => !p.same o)
            ∧ ((∀ b ∈ s.dev.host.aborts, b.same a = false → b.state = .running → b.tgtRing = a.tgtRing → b.tgtIdx ≠ a.tgtIdx) →
              ((d.provGone o).finish { o with progress := 0 } .aborted errAborted).hostRead a.status 16 = ({ a with state := .done } : Op).word errOk))
          ∧ (o.state ≠ .queued → d.cryDecided o = true → ∃ t, exec .abort s = .next t ∧ t.dev.host.ops = d.host.ops
            ∧ t.dev.hostRead a.status 16 = ({ a with state := .failed } : Op).word errAbortLate)
          ∧ (o.state ≠ .queued → d.cryDecided o = false → exec .abort s = .next { s with dev := (d.askStop o).settle }))))
  ∧ (∀ (d : Dev) (a : Op), (d.abortRun a).regs = d.regs ∧ (d.abortRun a).host.ops = d.host.ops
      ∧ (d.abortRun a).host.aborts = d.host.aborts.map (fun (x : Op) => if x.same a then a else x)
      ∧ (d.abortRun a).hostRead a.status 16 = a.word errOk)
  ∧ (∀ (d : Dev) (o : Op), (o.ring = 59 ∧ o.opcode = 0x21 → (d.provGone o).vault.nonce = none) ∧ (o.ring ≠ 59 ∨ o.opcode ≠ 0x21 → d.provGone o = d)
      ∧ (d.cryDecided o = true ↔ o.ring = 58 ∧ ∃ j ∈ d.cry.jobs, j.idx = o.idx ∧ ∃ x, j.phase = .fin x))
  ∧ (∀ (d : Dev) (o : Op), (o.ring ≠ 59 ∨ o.opcode ≠ 0x40 → d.askStop o = d.setOp { o with stop := true })
      ∧ (o.ring = 59 → o.opcode = 0x40 → d.askStop o = (d.setOp { o with stop := true }).xptAbort o.idx))

/-- Messages (R428), the link (R407) and what a HOST reset clears (R431). -/
def Obligations.MessagesLinkAndReset : Prop :=
  (∀ (s : State) (r : Fin 64) (t0 : Nat), s.dev.quiet → (s.dev.ring r).firstUnsig = some t0 → s.dev.flag (F.HIF_RING_CFG_IRQ_EN r) = true →
      s.dev.get (F.HIF_RING_MOD_MOD_US r) ≠ 0 →
      ∃ t, exec (.irqModerationTimer r) s = .next t ∧ t.dev.now = max s.dev.now (t0 + s.dev.get (F.HIF_RING_MOD_MOD_US r) * usCyc)
        ∧ (t.dev.ring r).unsig = 0 ∧ (t.dev.ring r).firstUnsig = none ∧ t.dev.tbl = s.dev.tbl ∧ t.dev.hostMem = s.dev.hostMem)
  ∧ (∀ (s : State) (v : Fin 64) (m : Bool), s.dev.quiet → ∃ t, exec (.msixUnmask v m) s = .next t ∧ bit t.dev.host.msixMask v = m
      ∧ (∀ u, u ≠ v.val → bit t.dev.host.msixMask u = bit s.dev.host.msixMask u ∧ bit t.dev.host.msixPba u = bit s.dev.host.msixPba u)
      ∧ (if m = false ∧ bit s.dev.host.msixPba v = true then
          bit t.dev.host.msixPba v = false ∧ SMap.get t.dev.host.msixSent 0 v = SMap.get s.dev.host.msixSent 0 v + 1
        else t.dev.host.msixPba = s.dev.host.msixPba ∧ t.dev.host.msixSent = s.dev.host.msixSent)
      ∧ t.dev.regs = s.dev.regs ∧ t.dev.tbl = s.dev.tbl ∧ t.dev.hostMem = s.dev.hostMem)
  ∧ (∀ (s : State) (sp w : Nat), s.dev.quiet → s.dev.ready 1 = true → 1 ≤ sp → sp ≤ 4 → w = 1 ∨ w = 2 ∨ w = 4 → ∃ t, exec (.pcieLinkUp sp w) s = .next t
      ∧ t.dev.flag F.HIF_STATUS_LINK_UP = true ∧ t.dev.get F.HIF_STATUS_SPEED = sp
      ∧ t.dev.get F.HIF_STATUS_WIDTH = w ∧ s.dev.regsOnly t.dev [R.HIF_STATUS]
      ∧ t.dev.tbl = s.dev.tbl ∧ t.dev.hostMem = s.dev.hostMem)
  ∧ (∀ (s : State) (l : Bool), ∃ d : Dev, exec (.hostReset l) s = .next { s with dev := d.settle } ∧ d.host.ops = [] ∧ d.host.aborts = [] ∧ d.host.unknown = []
      ∧ d.cry.jobs = [] ∧ d.load = s.dev.load ∧ d.boot.copyOp = none
      ∧ d.vault = (if s.dev.host.ops.any (fun (o : Op) => o.ring == 59 && o.opcode == 0x21) then { s.dev.vault with nonce := none } else s.dev.vault) ∧ d.pwr = s.dev.pwr ∧ d.tbl = s.dev.tbl
      ∧ ∀ r : Fin 64, d.flag (F.HIF_RING_CFG_EN r) = false)

/-- STE_MEM_READ, STE_MEM_WRITE, LIN_MEM_READ, LIN_MEM_WRITE, RECIPE_MEM_READ, RECIPE_MEM_WRITE, XPT_MEM_READ, XPT_MEM_WRITE, CRY_MEM_READ, CRY_MEM_WRITE, TBL_WINDOW_READ and COUNTER_CLEAR. That GO's access is done at once is the model's choice (log 30). -/
def Obligations.MemoryWindows : Prop :=
  (∀ (s : State) (m : Fin 4) (r : RegDef) (b : Dev), s.dev.opens m R.STE_MEM_CMD → regDef R.STE_MEM_CMD = some r → b = s.dev.beforeWrite m R.STE_MEM_CMD →
      exec (.steMemRead m) s = .next { s with dev := (b.plain r m R.STE_MEM_CMD 0).steAccess.settle }
      ∧ exec (.steMemWrite m) s = .next { s with dev := (b.plain r m R.STE_MEM_CMD 1).steAccess.settle })
  ∧ (∀ (s : State) (m : Fin 4) (r : RegDef) (b : Dev), s.dev.opens m R.ETHC_MEM_CMD → regDef R.ETHC_MEM_CMD = some r → b = s.dev.beforeWrite m R.ETHC_MEM_CMD →
      exec (.recipeMemRead m) s = .next { s with dev := (b.plain r m R.ETHC_MEM_CMD 0).recipeAccess.settle }
      ∧ exec (.recipeMemWrite m) s = .next { s with dev := (b.plain r m R.ETHC_MEM_CMD 1).recipeAccess.settle })
  ∧ (∀ (s : State) (m : Fin 4) (r : RegDef) (b : Dev), s.dev.opens m R.XPT_MEM_CMD → regDef R.XPT_MEM_CMD = some r → b = s.dev.beforeWrite m R.XPT_MEM_CMD →
      exec (.xptMemRead m) s = .next { s with dev := (b.plain r m R.XPT_MEM_CMD 0).xptAccess.settle }
      ∧ exec (.xptMemWrite m) s = .next { s with dev := (b.plain r m R.XPT_MEM_CMD 1).xptAccess.settle })
  ∧ (∀ (s : State) (m : Fin 4) (r : RegDef) (b : Dev), s.dev.opens m R.CRY_MEM_CMD → regDef R.CRY_MEM_CMD = some r → b = s.dev.beforeWrite m R.CRY_MEM_CMD →
      exec (.cryMemRead m) s = .next { s with dev := (b.plain r m R.CRY_MEM_CMD 0).cryAccess.settle }
      ∧ exec (.cryMemWrite m) s = .next { s with dev := (b.plain r m R.CRY_MEM_CMD 1).cryAccess.settle })
  ∧ (∀ (s : State) (m : Fin 4) (p : Fin 8) (r : RegDef) (b x y : Dev), s.dev.opens m (R.LIN_MEM_CMD p) → regDef (R.LIN_MEM_CMD p) = some r → b = s.dev.beforeWrite m (R.LIN_MEM_CMD p) →
      x = b.plain r m (R.LIN_MEM_CMD p) 0 → y = b.plain r m (R.LIN_MEM_CMD p) 1 →
      exec (.linMemRead m p) s = .next { s with dev := (x.linMem p (x.flag (F.LIN_MEM_CMD_WRITE p))).settle }
      ∧ exec (.linMemWrite m p) s = .next { s with dev := (y.linMem p (y.flag (F.LIN_MEM_CMD_WRITE p))).settle })
  ∧ (∀ (s : State) (m : Fin 4) (t : Fin 16) (c : Bool) (k : Fin 64) (r : RegDef), s.dev.opens m R.TBL_WIN_CTRL → regDef R.TBL_WIN_CTRL = some r →
      exec (.tblWindowRead m t c k) s = .next { s with dev := ((s.dev.beforeWrite m R.TBL_WIN_CTRL).plain r m R.TBL_WIN_CTRL (t + 16 * b2n c + 32 * k)).winRead.settle })
  ∧ (∀ (s : State) (m : Fin 4) (p : Fin 64) (all : Bool) (b : Dev), s.dev.opens m R.FWD_CNT_CLR →
      b = ((s.dev.beforeWrite m R.FWD_CNT_CLR).set F.FWD_CNT_CLR_PORT p).set F.FWD_CNT_CLR_ALL (b2n all) →
      (all = false → p.val < 48 → exec (.counterClear m p all) s = .next { s with dev := (b.cntClear p).settle })
      ∧ (all = false → 48 ≤ p.val → exec (.counterClear m p all) s = .next { s with dev := b.settle })
      ∧ (all = true → exec (.counterClear m p all) s = .next { s with dev := ((List.range 48).foldl Dev.cntClear b).settle }))
  ∧ (∀ (d : Dev) (p a : Nat), (0x210000 + 0x200 * p ≤ a → a < 0x210200 + 0x200 * p → (d.cntClear p).reg a = resetVal a % 2 ^ 32)
      ∧ (a < 0x210000 + 0x200 * p ∨ 0x210200 + 0x200 * p ≤ a → (d.cntClear p).reg a = d.reg a))
  ∧ (∀ (d : Dev) (i : Nat), i = d.get F.ETHC_MEM_SEL_INDEX →
      (384 ≤ i → d.recipeAccess.get F.ETHC_MEM_CMD_RESULT = errFormat ∧ d.recipeAccess.tbl = d.tbl)
      ∧ (i < 384 → d.flag F.ETHC_MEM_CMD_WRITE = true → d.get (F.ETH_STEP_STATUS_STATE (i / 32)) ≠ 0 →
        d.recipeAccess.get F.ETHC_MEM_CMD_RESULT = errLocked ∧ d.recipeAccess.tbl = d.tbl)
      ∧ (i < 384 → d.flag F.ETHC_MEM_CMD_WRITE = true → d.get (F.ETH_STEP_STATUS_STATE (i / 32)) = 0 →
        d.recipeAccess.get F.ETHC_MEM_CMD_RESULT = errOk ∧ d.recipeAccess.tbl = (d.tset 62 0 i (d.dataRegs R.ETHC_MEM_DATA 2)).tbl)
      ∧ (i < 384 → d.flag F.ETHC_MEM_CMD_WRITE = false → d.recipeAccess.get F.ETHC_MEM_CMD_RESULT = errOk ∧ d.recipeAccess.tbl = d.tbl))
  ∧ (∀ (d : Dev) (i : Nat), d.flag F.XPT_MEM_CMD_WRITE = true → d.get F.XPT_MEM_SEL_MEM = 0 → i = d.get F.XPT_MEM_SEL_INDEX →
      ((d.sess (txKey i)).isSome = true ∨ (d.sess (rxKey i)).isSome = true → d.xptAccess.get F.XPT_MEM_CMD_RESULT = errLocked ∧ d.xptAccess.tbl = d.tbl))
  ∧ (∀ (d : Dev) (i : Nat), d.flag F.XPT_MEM_CMD_WRITE = false → i = d.get F.XPT_MEM_SEL_INDEX →
      (∀ d0, d.get F.XPT_MEM_SEL_MEM = 0 → d0 = d.connTouch i → d.xptAccess =
        ((List.range 8).foldl (fun (x : Dev) k => x.setReg (R.XPT_MEM_DATA k) (bf (d.conn i) (32 * k) 32)) d0).set F.XPT_MEM_CMD_RESULT errOk)
      ∧ (∀ d0, d.get F.XPT_MEM_SEL_MEM ≠ 0 → i < 256 → d0 = d.ctxTouch i → d.xptAccess =
        ((List.range 8).foldl (fun (x : Dev) k => x.setReg (R.XPT_MEM_DATA k) (bf (d0.ctxEntry i) (32 * k) 32)) d0).set F.XPT_MEM_CMD_RESULT errOk)
      ∧ (d.get F.XPT_MEM_SEL_MEM ≠ 0 → 256 ≤ i → d.xptAccess = d.set F.XPT_MEM_CMD_RESULT errFormat))
  ∧ (∀ (d : Dev) (i v : Nat), d.flag F.XPT_MEM_CMD_WRITE = true → i = d.get F.XPT_MEM_SEL_INDEX → v = leNat ((List.range 8).flatMap (fun k => leBytes 4 (d.reg (R.XPT_MEM_DATA k)))) →
      (d.get F.XPT_MEM_SEL_MEM = 1 → d.xptAccess = d.set F.XPT_MEM_CMD_RESULT errFormat)
      ∧ (d.get F.XPT_MEM_SEL_MEM = 0 → (d.sess (txKey i)).isSome = false → (d.sess (rxKey i)).isSome = false →
        (d.cnBad i v = true → d.xptAccess = d.set F.XPT_MEM_CMD_RESULT errFormat)
        ∧ (d.cnBad i v = false → d.xptAccess = (d.entryPut memConn 0 i v).set F.XPT_MEM_CMD_RESULT errOk)))
  ∧ (∀ (d : Dev) (c v : Nat), c = d.get F.CRY_MEM_SEL_INDEX → v = d.dataRegs R.CRY_MEM_DATA 16 →
      (d.flag F.CRY_MEM_CMD_WRITE = false → d.cryAccess = ((d.chanTouch c).setDataRegs R.CRY_MEM_DATA 16 ((d.chanTouch c).chan c)).set F.CRY_MEM_CMD_RESULT errOk)
      ∧ (d.flag F.CRY_MEM_CMD_WRITE = true → chanBad v = true → d.cryAccess = d.set F.CRY_MEM_CMD_RESULT errFormat)
      ∧ (d.flag F.CRY_MEM_CMD_WRITE = true → chanBad v = false → chType (d.chan c) ≠ 1 → chType (d.chan c) ≠ 2 →
        d.cryAccess = if d.chanLocked c then d.set F.CRY_MEM_CMD_RESULT errLocked else (d.entryPut memChan 0 c (chanStored v)).set F.CRY_MEM_CMD_RESULT errOk))
  ∧ (∀ (d : Dev) (m i : Nat), m = d.get F.STE_MEM_SEL_MEM → i = d.get F.STE_MEM_SEL_INDEX →
      (steEntries m ≤ i → d.steAccess = d.set F.STE_MEM_CMD_RESULT errFormat)
      ∧ (i < steEntries m → d.flag F.STE_MEM_CMD_WRITE = false → d.steAccess = ((d.steTouch m i).setDataRegs R.STE_MEM_DATA 8 (d.steEnt m i)).set F.STE_MEM_CMD_RESULT errOk)
      ∧ (∀ raw v, i < steEntries m → m ≠ 7 → d.flag F.STE_MEM_CMD_WRITE = true → raw = d.dataRegs R.STE_MEM_DATA 8 % 2 ^ (8 * steSize m) → v = steStored m (d.tget (steMem m) 0 i) raw →
        (steFixed m v ≠ steFixed m (d.tget (steMem m) 0 i) → d.steNamed m i = true → d.steAccess = d.set F.STE_MEM_CMD_RESULT errLocked)
        ∧ (steFixed m v = steFixed m (d.tget (steMem m) 0 i) ∨ d.steNamed m i = false → d.steAccess =
          if steBad m i raw then d.set F.STE_MEM_CMD_RESULT errFormat else (d.entryPut (steMem m) 0 i v).set F.STE_MEM_CMD_RESULT errOk)))
  ∧ (∀ (d : Dev) (n : Fin 8) (w : Bool) (i : Nat), i = d.get (F.LIN_MEM_SEL_INDEX n) →
      (w = false → d.get (F.LIN_MEM_SEL_MEM n) = 0 → ∀ e, e = d.tget memSched 0 (512 * n + i) →
        d.linMem n w = ((((d.set (F.LIN_MEM_DATA_DATA n 0) (e % 2 ^ 32)).set (F.LIN_MEM_DATA_DATA n 1) (e / 2 ^ 32)).set (F.LIN_MEM_CMD_RESULT n) errOk).set (F.LIN_MEM_CMD_WRITE n) 0))
      ∧ (d.get (F.LIN_MEM_SEL_MEM n) = 1 → i < 64 → (w = false → ∀ e, e = d.tget memResp 0 (64 * n + i) →
          d.linMem n w = ((((d.set (F.LIN_MEM_DATA_DATA n 0) (e % 2 ^ 32)).set (F.LIN_MEM_DATA_DATA n 1) (e / 2 ^ 32)).set (F.LIN_MEM_CMD_RESULT n) errOk).set (F.LIN_MEM_CMD_WRITE n) 0))
        ∧ (w = true → d.linMem n w = (((d.tset memResp 0 (64 * n + i) (d.get (F.LIN_MEM_DATA_DATA n 0) + 2 ^ 32 * d.get (F.LIN_MEM_DATA_DATA n 1))).set (F.LIN_MEM_CMD_RESULT n) errOk).set
          (F.LIN_MEM_CMD_WRITE n) 1))))

/-- CAN_LEAVE_INIT, CAN_ENTER_INIT, RATE_DET_START, CAN_RECOVER, LIN_SCHEDULE_START, LIN_SCHEDULE_STOP, XCVR_CAN_MODE_WRITE, XCVR_LIN_MODE_WRITE, the four MDIO rows, MACSEC_TX_SELECT, SEG_REQ_WRITE, SEG_UNMASK, ENTER_STANDBY and FAULTN_READY. -/
def Obligations.SwitchRows : Prop :=
  (∀ (s : State) (m : Fin 4) (c : Fin 20) (o : Nat) (b : Dev), s.dev.opens m (R.CAN_CTRL c) → o = s.dev.reg (R.CAN_CTRL c) → b = s.dev.beforeWrite m (R.CAN_CTRL c) →
      (∃ v, bf v 0 1 = 0 ∧ bf v 8 1 = 0 ∧ bf v 1 7 = bf o 1 7 ∧ bf v 9 7 = bf o 9 7 ∧ exec (.canLeaveInit m c) s = .next { s with dev := (b.canCtrl c v).settle })
      ∧ (∃ v, bf v 0 1 = 1 ∧ bf v 8 1 = 0 ∧ bf v 1 7 = bf o 1 7 ∧ bf v 9 7 = bf o 9 7 ∧ exec (.canEnterInit m c) s = .next { s with dev := (b.canCtrl c v).settle })
      ∧ (∃ v, bf v 11 1 = 1 ∧ bf v 8 1 = 0 ∧ bf v 0 8 = bf o 0 8 ∧ bf v 9 2 = bf o 9 2 ∧ bf v 12 4 = bf o 12 4 ∧ exec (.rateDetStart m c) s = .next { s with dev := (b.canCtrl c v).settle })
      ∧ (∃ v, bf v 8 1 = 1 ∧ bf v 0 8 = bf o 0 8 ∧ bf v 9 7 = bf o 9 7 ∧ exec (.canRecover m c) s = .next { s with dev := (b.canCtrl c v).settle }))
  ∧ (∀ (s : State) (m : Fin 4) (p : Fin 8) (o : Nat) (b : Dev), s.dev.opens m (R.LIN_CTRL p) → o = s.dev.reg (R.LIN_CTRL p) → b = s.dev.beforeWrite m (R.LIN_CTRL p) →
      (∃ v, bf v 3 1 = 1 ∧ bf v 0 3 = bf o 0 3 ∧ bf v 4 4 = bf o 4 4 ∧ exec (.linScheduleStart m p) s = .next { s with dev := (b.linCtrl p v).settle })
      ∧ (∃ v, bf v 3 1 = 0 ∧ bf v 0 3 = bf o 0 3 ∧ bf v 4 4 = bf o 4 4 ∧ exec (.linScheduleStop m p) s = .next { s with dev := (b.linCtrl p v).settle }))
  ∧ (∀ (s : State) (m : Fin 4) (c : Fin 12) (mode : Fin 8) (r : RegDef), s.dev.opens m (R.PWR_XCVR_CAN c) → regDef (R.PWR_XCVR_CAN c) = some r →
      ∃ v, bf v 0 3 = mode ∧ bf v 8 2 = 0 ∧ exec (.xcvrCanModeWrite m c mode) s = .next { s with dev := ((s.dev.beforeWrite m (R.PWR_XCVR_CAN c)).putXcvr r m (R.PWR_XCVR_CAN c) v).settle })
  ∧ (∀ (s : State) (m : Fin 4) (p : Fin 8) (mode : Fin 4) (pu : Bool) (r : RegDef), s.dev.opens m (R.PWR_XCVR_LIN p) → regDef (R.PWR_XCVR_LIN p) = some r →
      ∃ v, bf v 0 2 = mode ∧ bf v 2 1 = b2n pu ∧ bf v 8 2 = 0 ∧ exec (.xcvrLinModeWrite m p mode pu) s = .next { s with dev := ((s.dev.beforeWrite m (R.PWR_XCVR_LIN p)).putXcvr r m (R.PWR_XCVR_LIN p) v).settle })
  ∧ (∀ (d d1 : Dev) (r : RegDef) (m : Nat) (c : Fin 12) (v : Nat), d1 = d.plain r m (R.PWR_XCVR_CAN c) (setBf v 0 3 (bf (d.reg (R.PWR_XCVR_CAN c)) 0 3)) →
      (bf v 0 3 = bf (d.reg (R.PWR_XCVR_CAN c)) 0 3 → d1.segOn (20 + c) = false → d.putXcvr r m (R.PWR_XCVR_CAN c) v = d1)
      ∧ (d1.segOn (20 + c) = true → d.putXcvr r m (R.PWR_XCVR_CAN c) v = d1.set (F.PWR_XCVR_CAN_MODE_REJ c) 1)
      ∧ (bf v 0 3 ≠ bf (d.reg (R.PWR_XCVR_CAN c)) 0 3 → d1.segOn (20 + c) = false → d.putXcvr r m (R.PWR_XCVR_CAN c) v = d1.xcvrMode (20 + c) (bf v 0 3)))
  ∧ (∀ (s : State) (m : Fin 4) (bus : Fin 2) (phy dev : Fin 32) (r : RegDef) (b : Dev), s.dev.opens m R.ETHC_MDIO_CMD → regDef R.ETHC_MDIO_CMD = some r → b = s.dev.beforeWrite m R.ETHC_MDIO_CMD → b.flag F.ETHC_MDIO_CMD_GO = false →
      exec (.mdioC22Write m bus phy dev) s = .next { s with dev := (b.plain r m R.ETHC_MDIO_CMD (bus + 8 * phy + 256 * dev)).mdioStart.settle }
      ∧ exec (.mdioC22Read m bus phy dev) s = .next { s with dev := (b.plain r m R.ETHC_MDIO_CMD (bus + 2 + 8 * phy + 256 * dev)).mdioStart.settle }
      ∧ exec (.mdioC45Write m bus phy dev) s = .next { s with dev := (b.plain r m R.ETHC_MDIO_CMD (bus + 4 + 8 * phy + 256 * dev)).mdioStart.settle }
      ∧ exec (.mdioC45Read m bus phy dev) s = .next { s with dev := (b.plain r m R.ETHC_MDIO_CMD (bus + 6 + 8 * phy + 256 * dev)).mdioStart.settle })
  ∧ (∀ (s : State) (m : Fin 4) (p : Fin 12) (k : Fin 1024) (b : Dev), s.dev.opens m (R.CRY_MACSEC_TX p) → b = s.dev.beforeWrite m (R.CRY_MACSEC_TX p) →
      (chType (b.chan k) = 3 → saPort (b.chan k) = p → saValid (b.chan k) = true → exec (.macsecTxSelect m p k true) s = .next { s with dev := ((b.set (F.CRY_MACSEC_TX_CHAN p) k).set (F.CRY_MACSEC_TX_VALID p) 1).settle }
        ∧ exec (.macsecTxSelect m p k false) s = .next { s with dev := ((b.set (F.CRY_MACSEC_TX_CHAN p) k).set (F.CRY_MACSEC_TX_VALID p) 0).settle })
      ∧ (chType (b.chan k) ≠ 3 ∨ saPort (b.chan k) ≠ p ∨ saValid (b.chan k) = false → ∀ v : Bool, exec (.macsecTxSelect m p k v) s = .next { s with dev := (b.set F.CRY_STATUS_CFG_IGNORED 1).settle }))
  ∧ (∀ (s : State) (m : Fin 4) (p : Fin 48) (b : Dev), s.dev.opens m (R.NM_SEG_CTRL p) → b = s.dev.beforeWrite m (R.NM_SEG_CTRL p) →
      (b.flag (F.NM_SEG_CTRL_REQ p) = false → exec (.segReqWrite m p true) s = .next { s with dev := ((b.set (F.NM_SEG_CTRL_REQ p) 1).localWake p 0x10).settle })
      ∧ (b.flag (F.NM_SEG_CTRL_REQ p) = true → exec (.segReqWrite m p true) s = .next { s with dev := ((b.set (F.NM_SEG_CTRL_REQ p) 1).segIdle p).settle })
      ∧ exec (.segReqWrite m p false) s = .next { s with dev := ((b.set (F.NM_SEG_CTRL_REQ p) 0).segIdle p).settle }
      ∧ (∀ d1, d1 = b.set (F.NM_SEG_CTRL_REQ p) (b.get (F.NM_SEG_CTRL_REQ p)) →
        exec (.segUnmask m p) s = .next { s with dev := (((d1.seg p).masks.foldl (fun (d : Dev) k => d.maskEnd p k.1) d1).segIdle p).settle }))
  ∧ (∀ (s : State) (m : Fin 4) (r : RegDef) (b : Dev), s.dev.opens m R.NM_PWR_CTRL → regDef R.NM_PWR_CTRL = some r → b = s.dev.beforeWrite m R.NM_PWR_CTRL →
      exec (.enterStandby m) s = .next { s with dev := (b.plain r m R.NM_PWR_CTRL 0).enterStandby.settle })
  ∧ (∀ (d : Dev) (p : Fin 48), (d.segOn p = true ∧ d.segState p ≠ 4) ∨ d.admitted ≠ [] ∨ d.host.ops.any (fun (o : Op) => o.ring == 59) = true →
      d.enterStandby.flag F.NM_PWR_CTRL_CFG_IGNORED = true ∧ d.enterStandby = d.set F.NM_PWR_CTRL_CFG_IGNORED 1 ∧ d.regsOnly d.enterStandby [R.NM_PWR_CTRL] ∧ d.enterStandby.fwd = d.fwd ∧ d.enterStandby.tbl = d.tbl)
  ∧ (∀ (s : State) (m : Fin 4) (b : Dev), s.dev.opens m R.TEST_FAULTN_CTRL → s.dev.flag F.TEST_FAULTN_CTRL_FORCE = false → b = s.dev.beforeWrite m R.TEST_FAULTN_CTRL →
      (b.pertOpen = false → exec (.faultnReady m) s = .next { s with dev := (b.set F.TEST_FAULTN_CTRL_READY 1).settle })
      ∧ (b.pertOpen = true → exec (.faultnReady m) s = .next { s with dev := ((b.set F.TEST_FAULTN_CTRL_READY 1).set F.TEST_FAULTN_CTRL_FORCE 0).settle }))
  ∧ (∀ (s : State) (m : Fin 4) (r : RegDef) (b d : Dev), s.dev.opens m R.NM_PWR_CTRL → regDef R.NM_PWR_CTRL = some r → b = s.dev.beforeWrite m R.NM_PWR_CTRL → d = b.plain r m R.NM_PWR_CTRL 0 →
      d.stores = true → (∀ p : Fin 48, d.segOn p = true → d.segState p = 4) → d.admitted = [] → d.host.ops.any (fun (o : Op) => o.ring == 59) = false →
      exec (.enterStandby m) s = .next { s with dev := d.enterStandby.settle }
      ∧ d.enterStandby.standby = true ∧ d.enterStandby.pwr.logicUp = false ∧ d.enterStandby.fwd = FwdSt.init ∧ d.enterStandby.anvil = AnvilSt.init ∧ d.enterStandby.host = HostSt.init
      ∧ d.enterStandby.nm.standbyWake = 0 ∧ d.enterStandby.pwr.inh0 = d.flag F.PWR_INH_CFG_INH0_STBY ∧ d.enterStandby.pwr.inh1 = d.flag F.PWR_INH_CFG_INH1_STBY
      ∧ d.enterStandby.flag F.VAULT_STATUS_MEASURING = true ∧ (∀ p : Fin 48, d.enterStandby.segState p = d.segState p)
      ∧ ∀ i : Fin 24, (d.limpCtl i = false ∨ d.lhIn i = false → (d.enterStandby.ch i).run = .off ∧ (d.enterStandby.ch i).out = false)
        ∧ (d.limpCtl i = true → d.lhIn i = true → d.load.gndLost = false → d.deferring i = false → (d.enterStandby.ch i).run = .on))
  ∧ (∀ (d : Dev), d.mdioStart.flag F.ETHC_MDIO_CMD_GO = true ∧ d.regsOnly d.mdioStart [R.ETHC_MDIO_CMD] ∧ d.mdioStart.fwd = d.fwd
      ∧ d.mdioStart.eth.mdio = some ⟨d.get F.ETHC_MDIO_CMD_BUS, d.get F.ETHC_MDIO_CMD_OP, d.get F.ETHC_MDIO_CMD_PHYAD, d.get F.ETHC_MDIO_CMD_DEVAD, d.get F.ETHC_MDIO_ADDR_REG, d.get F.ETHC_MDIO_DATA_DATA⟩)

/-- CACHE_FLUSH, PROV_NEW_NONCE, MEASURE_EXTEND, MEASURE_COMMIT, DEBUG_NEW_NONCE, DEBUG_UNLOCK, DEBUG_RELOCK, BLOCK_RESET, PERT_INJECT, PERT_ENTRY_FLIP, OTP_ANCHOR_BURN, PD_ON_REQUEST and MGMT_WD_FEED. -/
def Obligations.OneShotRows : Prop :=
  (∀ (s : State) (m : Fin 4), s.dev.opens m R.CRY_CACHE_CTRL →
      exec (.cacheFlush m) s = .next { s with dev := (s.dev.beforeWrite m R.CRY_CACHE_CTRL).cacheFlush.settle })
  ∧ (∀ (d : Dev), (∀ e, e ∈ d.cacheFlush.cry.cache ↔ e ∈ d.cry.cache ∧ (e.pinned = true ∨ d.keyInUse e = true)) ∧ d.cacheFlush.regs = d.regs ∧ d.cacheFlush.tbl = d.tbl)
  ∧ (∀ (s : State) (m : Fin 4), s.dev.opens m R.VAULT_PROV_CTRL →
      exec (.provNewNonce m) s = .next { s with dev := (s.dev.beforeWrite m R.VAULT_PROV_CTRL).provNonce.settle })
  ∧ (∀ (d : Dev), (d.drbgOk = false → d.provNonce.vault.nonce = none ∧ d.provNonce.dataRegs R.VAULT_PROV_NONCE 4 = 0)
      ∧ (d.drbgOk = true → ∃ n, d.provNonce.vault.nonce = some n))
  ∧ (∀ (s : State) (m : Fin 4) (b : Dev), s.dev.opens m R.VAULT_EXT_CTRL → b = s.dev.beforeWrite m R.VAULT_EXT_CTRL →
      (m = 3 → b.flag F.VAULT_STATUS_COMMITTED = false → exec (.measureExtend m) s = .next { s with dev := b.extendData.settle } ∧ exec (.measureCommit m) s = .next { s with dev := b.commit.settle })
      ∧ (m = 3 → b.flag F.VAULT_STATUS_COMMITTED = true → ∀ d1, d1 = b.flaggedWrite blkVault 3 R.VAULT_EXT_CTRL → exec (.measureExtend m) s = .next { s with dev := d1.settle } ∧ exec (.measureCommit m) s = .next { s with dev := d1.settle })
      ∧ (m ≠ 3 → ∀ d1, d1 = b.set F.VAULT_STATUS_CFG_IGNORED 1 → exec (.measureExtend m) s = .next { s with dev := d1.settle } ∧ exec (.measureCommit m) s = .next { s with dev := d1.settle }))
  ∧ (∀ (s : State) (m : Fin 4) (slot : Fin 256) (b : Dev), s.dev.opens m R.VAULT_DBG_CTRL → b = s.dev.beforeWrite m R.VAULT_DBG_CTRL →
      exec (.debugNewNonce m) s = .next { s with dev := (b.set F.VAULT_DBG_CTRL_SLOT 0).dbgNewNonce.settle }
      ∧ exec (.debugUnlock m slot) s = .next { s with dev := (b.set F.VAULT_DBG_CTRL_SLOT slot).dbgGo.settle }
      ∧ exec (.debugRelock m) s = .next { s with dev := ((b.set F.VAULT_DBG_CTRL_SLOT 0).setScope 0).settle })
  ∧ (∀ (s : State) (m : Fin 4) (k : Fin 66) (u : Fin 16) (b : Dev), s.dev.opens m (R.FLT_BLOCK_CTRL k) → b = s.dev.beforeWrite m (R.FLT_BLOCK_CTRL k) →
      (unitOk k u = true → exec (.blockReset m k u) s = .next { s with dev := ((b.set (F.FLT_BLOCK_CTRL_UNIT k) u).set (F.FLT_BLOCK_CTRL_RESET k) 1).settle })
      ∧ (unitOk k u = false → exec (.blockReset m k u) s = .next { s with dev := b.settle }))
  ∧ (∀ (s : State) (m : Fin 4) (k : Fin 66) (kind : Fin 4) (t : Fin 16) (n : Fin 256) (l : List Nat) (b d1 : Dev), s.dev.opens m (R.FLT_PERT_INJ k) → b = s.dev.beforeWrite m (R.FLT_PERT_INJ k) →
      b.pertOpen = true → d1 = b.pertInj k (kind + 16 * t + 256 * n + 0x80000000) →
      (d1.flag (F.FLT_PERT_INJ_GO k) = true → exec (.pertInject m k kind t n l) s = .next { s with dev := (d1.pertReads k l).settle })
      ∧ (d1.flag (F.FLT_PERT_INJ_GO k) = false → exec (.pertInject m k kind t n l) s = .next { s with dev := d1.settle }))
  ∧ (∀ (s : State) (m : Fin 4) (k : Fin 66) (i : Fin 1048576) (mem : Fin 16) (w : Fin 32) (b : Dev), s.dev.opens m (R.FLT_PERT_ENT k) → b = s.dev.beforeWrite m (R.FLT_PERT_ENT k) →
      (b.pertOpen = false → exec (.pertEntryFlip m k i mem w) s = .next { s with dev := (b.flaggedWrite k m (R.FLT_PERT_ENT k)).settle })
      ∧ (b.pertOpen = true → ∀ d1, d1 = ((b.set (F.FLT_PERT_ENT_INDEX k) i).set (F.FLT_PERT_ENT_MEM k) mem).set (F.FLT_PERT_ENT_WORD k) w →
        (∀ x, pertMem k mem = some x → i.val < x.count → w.val < x.words → x.mem = memCtx →
          exec (.pertEntryFlip m k i mem w) s = .next { s with dev := (d1.ctxPut (x.first + i) (d1.ctxEntry (x.first + i) ^^^ (b.get (F.FLT_PERT_MASK_MASK k) * 2 ^ (32 * w.val)))).settle })
        ∧ (∀ x, pertMem k mem = some x → i.val < x.count → w.val < x.words → x.mem ≠ memCtx → x.mem ≠ memSlot ∨ x.first + i.val ≠ rsIndex →
          exec (.pertEntryFlip m k i mem w) s = .next { s with dev := (d1.tset x.mem 0 (x.first + i) (d1.tget x.mem 0 (x.first + i) ^^^ (b.get (F.FLT_PERT_MASK_MASK k) * 2 ^ (32 * w.val)))).settle })
        ∧ (∀ x, pertMem k mem = some x → i.val < x.count → w.val < x.words → x.mem = memSlot → x.first + i.val = rsIndex →
          exec (.pertEntryFlip m k i mem w) s = .next { s with dev := ({ d1 with vault := { d1.vault with
            rs := nats (leBytes 32 (leNat (bytes d1.vault.rs) ^^^ (b.get (F.FLT_PERT_MASK_MASK k) * 2 ^ (32 * w.val)))) } } : Dev).settle })
        ∧ (∀ x, pertMem k mem = some x → x.count ≤ i.val ∨ x.words ≤ w.val → exec (.pertEntryFlip m k i mem w) s = .next { s with dev := d1.settle })
        ∧ (pertMem k mem = none → exec (.pertEntryFlip m k i mem w) s = .next { s with dev := d1.settle })))
  ∧ (∀ (s : State) (m : Fin 4) (slot : Fin 4) (b : Dev), s.dev.opens m R.BOOT_OTP_ANCHOR_CTRL → b = s.dev.beforeWrite m R.BOOT_OTP_ANCHOR_CTRL →
      (m = 3 → exec (.otpAnchorBurn m slot) s = .next { s with dev := (b.set F.BOOT_OTP_ANCHOR_CTRL_SLOT slot).otpBurn.settle })
      ∧ (m ≠ 3 → exec (.otpAnchorBurn m slot) s = .next { s with dev := ((b.set F.BOOT_OTP_ANCHOR_CTRL_SLOT slot).flaggedWrite blkBoot m R.BOOT_OTP_ANCHOR_CTRL).settle }))
  ∧ (∀ (d : Dev) (k : Nat), k = d.get F.BOOT_OTP_ANCHOR_CTRL_SLOT →
      (k = 0 ∨ bit (d.get F.BOOT_ANCHORS_VALID) k = true → d.otpBurn.get F.BOOT_OTP_ANCHOR_CTRL_RESULT = errLocked ∧ d.regsOnly d.otpBurn [R.BOOT_OTP_ANCHOR_CTRL])
      ∧ (k ≠ 0 → bit (d.get F.BOOT_ANCHORS_VALID) k = false → d.otpBurn.get F.BOOT_OTP_ANCHOR_CTRL_RESULT = errOk))
  ∧ (∀ (s : State) (m : Fin 4) (v : Fin 16384), s.dev.opens m R.SUPV_PD_ON →
      exec (.pdOnRequest m v) s = .next { s with dev := ((s.dev.beforeWrite m R.SUPV_PD_ON).pdOn m v).settle })
  ∧ (∀ (s : State) (m : Fin 4) (b : Dev), s.dev.opens m R.SUPV_MGMT_WD_FEED → b = s.dev.beforeWrite m R.SUPV_MGMT_WD_FEED →
      (m = 3 → b.flag F.SUPV_MGMT_WD_EN = true → exec (.mgmtWdFeed m) s = .next { s with dev := ({ b with pwr := { b.pwr with wdFed := some b.now } } : Dev).settle })
      ∧ (m ≠ 3 ∨ b.flag F.SUPV_MGMT_WD_EN = false → exec (.mgmtWdFeed m) s = .next { s with dev := b.settle }))
  ∧ (∀ (d : Dev), (d.drbgOk = true → d.dbgNewNonce = d.tookFree.setDbgNonce (some (nats (d.freeBytes 16)))) ∧ (d.drbgOk = false → d.dbgNewNonce = d.setDbgNonce none))
  ∧ (∀ (d d0 d1 : Dev) (k : Nat), k = d.get F.VAULT_DBG_CTRL_SLOT → d0 = d.slotTouch k → d1 = d0.setDbgNonce none →
      (∀ t, d.vault.dbgFailAt = some t → d.now < t + sCyc → d.dbgGo = d1.set F.VAULT_DBG_CTRL_RESULT errBusy)
      ∧ (∀ n scope, (∀ t, d.vault.dbgFailAt = some t → t + sCyc ≤ d.now) → scope = d.get F.VAULT_DBG_SCOPE_SCOPE →
        (d0.slotMay k useDebug = true → d.vault.dbgNonce = some n → scope < 4 →
          hmac false (d0.slotKey k (d0.slot k)) (ascii "SNT-DBG" ++ uidBytes ++ n ++ nats (beBytes 4 scope)) = nats (leBytes 32 (d.dataRegs R.VAULT_DBG_RESP 8)) →
          ∀ d2, d2 = ((d1.set F.VAULT_DBG_CTRL_RESULT errOk).setScope scope).tamperLog 9 scope → d.dbgGo = { d2 with vault := { d2.vault with dbgSeen := true } })
        ∧ (∀ e d2, (d0.slotMay k useDebug = false ∧ e = errKey) ∨ (d0.slotMay k useDebug = true ∧ (d.vault.dbgNonce = none ∨ 4 ≤ scope) ∧ e = errAuth) →
          d2 = ((d1.set F.VAULT_DBG_CTRL_RESULT e).inc F.VAULT_DBG_FAIL_COUNT).tamperLog 0x0A 0 → d.dbgGo = { d2 with vault := { d2.vault with dbgFailAt := some d2.now } })))
  ∧ (∀ (d : Dev), d.extendData = { d with vault := { d.vault with exact := sha384 (d.vault.exact ++ nats (leBytes 48 (d.dataRegs R.VAULT_EXT_DATA 12))) } }
      ∧ d.commit.flag F.VAULT_STATUS_COMMITTED = true ∧ d.commit.flag F.VAULT_STATUS_MEASURING = false
      ∧ d.commit.get F.VAULT_BOOT_COUNT_COUNT = (d.get F.VAULT_BOOT_COUNT_COUNT + 1) % 2 ^ 32 ∧ d.commit.get F.VAULT_EPOCH_EPOCH = d.get F.VAULT_EPOCH_STAGE_EPOCH
      ∧ d.commit.vault = d.vault ∧ d.commit.tbl = d.tbl)
  ∧ (∀ (d : Dev) (m v : Nat), (d.pdOn m v) = ((List.range 14).filter (fun k => bit v k)).foldl (fun (d : Dev) k =>
        if k = 0 ∧ d.powered 1 = false ∧ m ≠ 1 ∧ m ≠ 3 then d.set F.SUPV_STATUS_CFG_IGNORED 1 else d.domainOn (k + 1)) d)

/-- LO_WORD_READ, and a read of a HI or further word by the same row's meaning. The words of a group are LO and HI, and for DTIME also FRAC (R441). -/
def Obligations.ReadShadow : Prop :=
  (∀ (s : State) (m : Fin 4) (a : Nat) (r : RegDef) (x : Dev), s.dev.pathUp m = true → s.dev.linkStall a = false → x = s.dev.beforeAccess m a 2 → x.regAt a = some r →
      (r.loWord = true → groupLo a = none → ∀ d0, d0 = (if slotReg a then x.slotTouch (x.get F.VAULT_SLOT_SEL_SLOT) else x) →
        exec (.loWordRead m ⟨false, a, true⟩) s = .next { s with dev := ((d0.latch m a).emit (.readData m a (d0.view r a))).settle })
      ∧ (∀ lo sh v, groupLo a = some lo → SMap.get x.bus.rd none m = some sh → sh.tag = lo → (sh.vals.find? (fun p => p.1 == a)).map (fun p => p.2) = some v →
        exec (.loWordRead m ⟨false, a, true⟩) s = .next { s with dev := (x.emit (.readData m a v)).settle })
      ∧ (∀ lo, groupLo a = some lo → (∀ sh, SMap.get x.bus.rd none m = some sh → sh.tag ≠ lo) →
        exec (.loWordRead m ⟨false, a, true⟩) s = .next { s with dev := ((x.inc F.GLOBAL_SHADOW_MISS_COUNT).emit (.readData m a (x.view r a))).settle })
      ∧ (inPwr a = false → m.val ≠ 1 → x = s.dev))
  ∧ (∀ (d : Dev) (m a : Nat), (∃ sh, SMap.get (d.latch m a).bus.rd none m = some sh ∧ sh.tag = a
        ∧ (a ≠ R.TIME_DTIME_LO → sh.vals = [(a + 4, d.viewAt (a + 4))]) ∧ (a = R.TIME_DTIME_LO → sh.vals = [(a + 4, d.viewAt (a + 4)), (a + 8, d.viewAt (a + 8))]))
      ∧ (∀ k, k ≠ m → SMap.get (d.latch m a).bus.rd none k = SMap.get d.bus.rd none k) ∧ (d.latch m a).regs = d.regs ∧ (d.latch m a).bus.wr = d.bus.wr)
  ∧ (∀ (d : Dev), (d.inc F.GLOBAL_SHADOW_MISS_COUNT).get F.GLOBAL_SHADOW_MISS_COUNT = satAdd 32 (d.get F.GLOBAL_SHADOW_MISS_COUNT) 1
      ∧ d.regsOnly (d.inc F.GLOBAL_SHADOW_MISS_COUNT) [R.GLOBAL_SHADOW_MISS])
  ∧ (∀ (d : Dev) (m a v : Nat), d.pwr.recessive = false → (d.emit (.readData m a v)).out = .readData m a v :: d.out)

/-- LO_WORD_WRITE and HI_WORD_WRITE; a further word that is no HI word leaves the write shadows. -/
def Obligations.WriteShadow : Prop :=
  (∀ (s : State) (m : Fin 4) (a v : Nat) (r : RegDef) (b : Dev), s.dev.opens m a → regDef a = some r → b = s.dev.beforeWrite m a →
      (r.loWord = true → exec (.loWordWrite m a v) s = .next { s with dev := (b.setWr m (some ⟨a, [(a, v % 2 ^ 32)]⟩)).settle })
      ∧ (r.loWord = false → pairLo a = none → exec (.hiWordWrite m a v) s = .next { s with dev := (b.regPut r m a (v % 2 ^ 32)).settle })
      ∧ (∀ lo rl, r.loWord = false → pairLo a = some lo → regDef lo = some rl →
        (∀ x, SMap.get b.bus.wr none m = some ⟨lo, [(lo, x)]⟩ → exec (.hiWordWrite m a v) s = .next { s with dev := ((b.setWr m none).regPair rl r m lo x (v % 2 ^ 32)).settle })
        ∧ ((∀ sh, SMap.get b.bus.wr none m = some sh → sh.tag ≠ lo) → exec (.hiWordWrite m a v) s = .next { s with dev := ((b.setWr m none).regPair rl r m lo (b.reg lo) (v % 2 ^ 32)).settle })))
  ∧ (∀ (d : Dev) (m : Nat) (x : Option Shadow), SMap.get (d.setWr m x).bus.wr none m = x ∧ (∀ k, k ≠ m → SMap.get (d.setWr m x).bus.wr none k = SMap.get d.bus.wr none k)
      ∧ (d.setWr m x).regs = d.regs ∧ (d.setWr m x).bus.rd = d.bus.rd)
  ∧ (∀ (d : Dev) (rl rh : RegDef) (m : Fin 4) (x y : Nat), x < 2 ^ 32 → y < 2 ^ 8 → d.timeMay m = true →
      (5366024766 ≤ x + 2 ^ 32 * y → x + 2 ^ 32 * y ≤ 5371393474 → (d.regPair rl rh m R.TIME_INCR x y).get F.TIME_INCR_INCR = x + 2 ^ 32 * y)
      ∧ (x + 2 ^ 32 * y < 5366024766 ∨ 5371393474 < x + 2 ^ 32 * y → (d.regPair rl rh m R.TIME_INCR x y).get F.TIME_INCR_INCR = d.get F.TIME_INCR_INCR))
  ∧ (∀ (d : Dev) (rl rh : RegDef) (m : Nat) (k : Fin 64) (x y : Nat), d.flag (F.HIF_RING_CFG_EN k) = true →
      d.regPair rl rh m (R.HIF_RING_BASE k) x y = d.set (F.HIF_RING_STATUS_CFG_IGNORED k) 1
      ∧ (d.set (F.HIF_RING_STATUS_CFG_IGNORED k) 1).reg (R.HIF_RING_BASE k) = d.reg (R.HIF_RING_BASE k)
      ∧ (d.set (F.HIF_RING_STATUS_CFG_IGNORED k) 1).reg (R.HIF_RING_BASE k + 4) = d.reg (R.HIF_RING_BASE k + 4))
  ∧ (∀ (d : Dev) (rl rh : RegDef) (m x y : Nat), regDef R.TIME_STEP = some rl → regDef (R.TIME_STEP + 4) = some rh → x < 2 ^ 32 → y < 2 ^ 32 →
      (d.regPair rl rh m R.TIME_STEP x y).get F.TIME_STEP_NS = x + 2 ^ 32 * y)

/-- REGISTER_WRITE, RC_FIELD_READ, IND_DATA_READ, IND_DATA_WRITE, PREFETCH_DISCARD, DELAYED_READ_DISCARD, ACCESS_STALL_TIMEOUT, POSTED_WRITE_FAIL, TMR_CORRECTION and SPI_FRAME. That the data of the answer a discarded read was for is free is the model's reading (log 30); that a request in BAR2 which no doorbell takes is reported with its offset there is the model's choice, and that a register row of the safety port stands for its IND_ADDR and IND_DATA frames the model's reading (log 88). -/
def Obligations.BusAccess : Prop :=
  (∀ (s : State) (m : Fin 4) (q : BusReq) (a v : Nat) (w : Bool), s.dev.quiet → s.dev.pathUp m = false →
      exec (.registerWrite m q v) s = .next s ∧ exec (.loWordRead m q) s = .next s ∧ exec (.rcFieldRead m a) s = .next s ∧ exec (.indDataRead m) s = .next s ∧ exec (.indDataWrite m v) s = .next s
      ∧ exec (.accessStallTimeout m a w) s = .next s ∧ exec (.postedWriteFail m a) s = .next s)
  ∧ (∀ (s : State) (m : Fin 4) (a v : Nat) (b : Dev), s.dev.pathUp m = true → s.dev.linkStall a = false → a ≠ R.GLOBAL_IND_ADDR → a ≠ R.GLOBAL_IND_DATA → indBarred m a = false → b = s.dev.beforeWrite m a →
      (∀ r, b.regAt a = some r → b.mayWrite m a = true ∨ r.writable = false → r.loWord = false → pairLo a = none → exec (.registerWrite m ⟨false, a, true⟩ v) s = .next { s with dev := (b.regPut r m a (v % 2 ^ 32)).settle })
      ∧ (∀ r, b.regAt a = some r → b.mayWrite m a = false → r.writable = true → exec (.registerWrite m ⟨false, a, true⟩ v) s = .next { s with dev := (b.flaggedWrite (pageBlock a) m a).settle })
      ∧ (b.regAt a = none → (inPwr a = true ∨ m = 3) → exec (.registerWrite m ⟨false, a, true⟩ v) s = .next { s with dev := (b.writeFail m a).settle })
      ∧ (b.regAt a = none → inPwr a = false → m ≠ 3 → exec (.registerWrite m ⟨false, a, true⟩ v) s = .next { s with dev := ((b.writeFail m a).emit (.busError m a)).settle }))
  ∧ (∀ (s : State) (a v : Nat) (b : Dev), s.dev.pathUp 1 = true → indWindow a = true → a ≠ R.GLOBAL_IND_ADDR → a ≠ R.GLOBAL_IND_DATA →
      b = ((s.dev.viaInd 1 a).unfetch a).writeFail 1 a →
      exec (.registerWrite 1 ⟨false, a, true⟩ v) s = .next { s with dev := (b.emit (.busError 1 a)).settle })
  ∧ (∀ (d : Dev) (m a : Nat), (m ≠ 1 → d.viaInd m a = d) ∧ (a % 4 = 0 → a < 2 ^ 26 → indTarget ((d.viaInd 1 a).indAddr 1) = a
      ∧ indAuto ((d.viaInd 1 a).indAddr 1) = false ∧ SMap.get (d.viaInd 1 a).bus.pf none 1 = none ∧ (d.viaInd 1 a).regs = d.regs))
  ∧ (∀ (s : State) (q : BusReq) (v : Nat), s.dev.pathUp 0 = true → q.bar2 = true ∨ q.whole = false → reqBell q = none → s.dev.linkStall q.addr = false →
      (∀ b, b = (if q.bar2 then s.dev else s.dev.beforeWrite 0 q.addr).writeFail 0 q.addr →
        exec (.registerWrite 0 q v) s = .next { s with dev := (if inPwr q.addr then b else b.emit (.busError 0 q.addr)).settle })
      ∧ exec (.loWordRead 0 q) s = .next { s with dev := (((s.dev.linkUse q.addr 2).readError 0 q.addr).emit (.busError 0 q.addr)).settle })
  ∧ (∀ (s : State) (r : Fin 64) (v : Nat), s.dev.pathUp 0 = true →
      exec (.registerWrite 0 ⟨true, 0x1000 * r, true⟩ v) s = exec (.doorbellWrite r (v % 2 ^ 32) []) s
      ∧ exec (.loWordRead 0 ⟨true, 0x1000 * r, true⟩) s = .next { s with dev := (s.dev.emit (.readData 0 (0x1000 * r) (s.dev.dbIdx r))).settle })
  ∧ (∀ (s : State) (m : Fin 4) (a v : Nat), s.dev.pathUp m = true → s.dev.linkStall a = true → exec (.registerWrite m ⟨false, a, true⟩ v) s = .next { s with dev := ((s.dev.viaInd m a).stalled m a true).settle })
  ∧ (∀ (s : State) (m : Fin 4) (a : Nat) (x : Dev), s.dev.pathUp m = true → s.dev.linkStall a = false → a ≠ R.GLOBAL_IND_ADDR → a ≠ R.GLOBAL_IND_DATA → a ≠ R.GLOBAL_IND_STATUS → indBarred m a = false → x = s.dev.beforeAccess m a 2 →
      (∀ r, x.regAt a = some r → r.loWord = false → groupLo a = none → slotReg a = false → r.rcMask ≠ 0 →
        exec (.rcFieldRead m a) s = .next { s with dev := ((x.setReg a (x.reg a &&& (0xFFFFFFFF ^^^ r.rcMask))).emit (.readData m a (x.view r a))).settle })
      ∧ (x.regAt a = none → exec (.rcFieldRead m a) s = .next { s with dev := ((x.readError m a).emit (.busError m a)).settle }))
  ∧ (∀ (d : Dev) (a n : Nat), (inPwr a = false → d.linkUse a n = d) ∧ (inPwr a = true → d.load.flight.length < 32 → d.linkUse a n = d.flits n))
  ∧ (∀ (d : Dev) (a k i : Nat), i < 32 → ((d.setReg a (d.reg a &&& (0xFFFFFFFF ^^^ k))).reg a).testBit i = ((d.reg a).testBit i && !k.testBit i))
  ∧ (∀ (s : State) (m : Fin 4) (v : Nat), s.dev.pathUp m = true → s.dev.pageOn R.GLOBAL_IND_DATA = true →
      (∀ x d1, s.dev.indRead m = (d1, some x) → exec (.indDataRead m) s = .next { s with dev := (d1.emit (.readData m R.GLOBAL_IND_DATA x)).settle })
      ∧ (∀ d1, s.dev.indRead m = (d1, none) → exec (.indDataRead m) s = .next { s with dev := (d1.emit (.busError m R.GLOBAL_IND_DATA)).settle })
      ∧ (s.dev.indMay m = false → exec (.indDataWrite m v) s = .next { s with dev := (s.dev.flaggedWrite blkGlobal m R.GLOBAL_IND_DATA).settle }
        ∧ exec (.registerWrite m ⟨false, R.GLOBAL_IND_ADDR, true⟩ v) s = .next { s with dev := (s.dev.flaggedWrite blkGlobal m R.GLOBAL_IND_ADDR).settle })
      ∧ (s.dev.indMay m = true → exec (.registerWrite m ⟨false, R.GLOBAL_IND_ADDR, true⟩ v) s = .next { s with dev := (s.dev.indAddrWrite m v).settle })
      ∧ (∀ d1 e, s.dev.indMay m = true → s.dev.indWrite m v = (d1, e) → (e ≠ .error ∨ m = 3) → exec (.indDataWrite m v) s = .next { s with dev := d1.settle })
      ∧ (∀ d1, s.dev.indMay m = true → s.dev.indWrite m v = (d1, .error) → m ≠ 3 → exec (.indDataWrite m v) s = .next { s with dev := (d1.emit (.busError m R.GLOBAL_IND_DATA)).settle }))
  ∧ (∀ (d : Dev) (m : Nat), (∀ p, SMap.get d.bus.pf none m = some p → (d.indRead m).2 = some p.2.1)
      ∧ (SMap.get d.bus.pf none m = none → indWindow (indTarget (d.indAddr m)) = false → (d.indRead m).2 = (d.regRead m (indTarget (d.indAddr m))).2)
      ∧ (indAuto (d.indAddr m) = true → indTarget ((d.indStep m).indAddr m) = (indTarget (d.indAddr m) + 4) % 2 ^ 26)
      ∧ (indAuto (d.indAddr m) = false → d.indStep m = d))
  ∧ (∀ (s : State) (m : Fin 4), (s.dev.quiet → SMap.get s.dev.bus.pf none m = none → exec (.prefetchDiscard m) s = .next s)
      ∧ (∀ p, SMap.get s.dev.bus.pf none m = some p → exec (.prefetchDiscard m) s = .next { s with dev := ((s.dev.reach (p.2.2 + s.dev.trdCyc)).setPf m none).settle }))
  ∧ (∀ (s : State) (r : DelayedRead) (l : List DelayedRead) (d1 d2 : Dev),
      (s.dev.quiet → s.dev.bus.delayed = [] → exec .delayedReadDiscard s = .next s)
      ∧ (s.dev.bus.delayed = r :: l → d1 = s.dev.reach (r.at_ + s.dev.trdCyc) →
        d2 = ({ d1 with bus := { d1.bus with delayed := l }, host := { d1.host with spiAns := (d1.host.spiAns.1, d1.freeNat 32, d1.host.spiAns.2.2) } } : Dev).tookFree →
        (r.sideEffect = false → exec .delayedReadDiscard s = .next { s with dev := d2.settle })
        ∧ (r.sideEffect = true → ∀ d4, d4 = (d2.inc F.GLOBAL_DISC_COUNT_COUNT).fltSet blkGlobal 2 →
          (d4.flag F.GLOBAL_DISC_INFO_VALID = true → exec .delayedReadDiscard s = .next { s with dev := d4.settle })
          ∧ (d4.flag F.GLOBAL_DISC_INFO_VALID = false → exec .delayedReadDiscard s = .next { s with dev := ((((((d4.setReg R.GLOBAL_DISC_ADDR r.addr).setReg R.GLOBAL_DISC_DATA r.data).set F.GLOBAL_DISC_INFO_MASTER r.master).set F.GLOBAL_DISC_INFO_VALID 1).set F.GLOBAL_DISC_TIME_DTIME d4.dtime)).settle }))))
  ∧ (∀ (s : State) (m : Fin 4) (a : Nat), s.dev.pathUp m = true →
      exec (.accessStallTimeout m a true) s = .next { s with dev := (s.dev.stalled m a true).settle }
      ∧ exec (.accessStallTimeout m a false) s = .next { s with dev := ((s.dev.stalled m a false).emit (.busError m a)).settle }
      ∧ (s.dev.quiet → inPwr a = false → exec (.postedWriteFail m a) s = .next s)
      ∧ (inPwr a = true → ∀ d1, d1 = s.dev.postNumber a →
        ((d1.regAt a).isNone = true → exec (.postedWriteFail m a) s = .next { s with dev := (d1.writeFail m a).settle })
        ∧ ((d1.regAt a).isNone = false → exec (.postedWriteFail m a) s = .next { s with dev := (d1.postFailed m a).settle })))
  ∧ (∀ (d : Dev) (a : Nat), inPwr a = true → (d.postNumber a).get F.PWR_BRIDGE_STATUS_LAST_SEQ = (d.get F.PWR_BRIDGE_STATUS_LAST_SEQ + 1) % 65536)
  ∧ (∀ (s : State) (a : Nat), (s.dev.quiet → tripled a = false ∨ s.dev.regAt a = none → exec (.tmrCorrection a) s = .next s)
      ∧ (∀ r, tripled a = true → s.dev.regAt a = some r →
        exec (.tmrCorrection a) s = .next { s with dev := ((((s.dev.inc F.GLOBAL_TMR_CORR_COUNT).set F.GLOBAL_TMR_LAST_ADDR a).set F.GLOBAL_TMR_LAST_VALID 1).countEvent (pageBlock a) 30).settle }))
  ∧ (∀ (s : State) (l : List Byte) (n : Nat) (busy ok : Bool) (d0 d1 : Dev), ok = (n == 56 && l.length == 7 && crc8 (slice l 0 6) == byteAt l 6) →
      d0 = (if ok then s.dev.inc F.HIF_SPI_FRAMES_COUNT else s.dev.inc F.HIF_SPI_ERR_COUNT) → d1 = d0.emit (.spi (spiBytes d0.host.spiAns)) →
      (s.dev.quiet → s.dev.pathUp 1 = false → exec (.spiFrame l n busy) s = .next s)
      ∧ (s.dev.pathUp 1 = true → s.dev.host.spiBusy = true → busy = true → exec (.spiFrame l n busy) s = .next { s with dev := (d0.emit (.spi (spiBytes (1, 0, d0.host.spiAns.2.2)))).settle })
      ∧ (s.dev.pathUp 1 = true → s.dev.host.spiBusy = false ∨ busy = false → ∀ d2, d2 = ({ d1 with bus := { d1.bus with delayed := [] }, host := { d1.host with spiBusy := false } } : Dev) →
        (ok = true → exec (.spiFrame l n busy) s = .next { s with dev := (d2.spiExec l).settle })
        ∧ (ok = false → exec (.spiFrame l n busy) s = .next { s with dev := (d2.spiAnswer 2 0 (byteAt l 5) false).settle })))

/-- WINDOW_EVENT_EXPIRY and BLOCK_RESET_DONE, and the accounting that every fault goes through. What a BLOCK reset keeps beside the fault page is the model's choice (log 24). -/
def Obligations.FaultAccounting : Prop :=
  (∀ (d : Dev) (b i : Nat) (a : Access), d.flag (F.FLT_FEC_INFO_VALID b) = true → d.capture b i a = (d.inc (F.FLT_FEC_LOST_COUNT b), false))
  ∧ (∀ (d : Dev) (b : Fin 66) (i : Nat) (a : Access) (e : Dev), d.flag (F.FLT_FEC_INFO_VALID b) = false →
      e = ((d.setReg (R.FLT_FEC_INFO b) (1 + 2 * (a.master % 8) + 16 * (a.kind % 8) + 128 * b2n a.domOff + 256 * (i % 32) + 65536 * (a.seq % 65536))).setReg
        (R.FLT_FEC_ADDR b) (a.addr % 2 ^ 32)).set (F.FLT_FEC_TIME_TIME b) (d.blockTime b) →
      d.capture b i a = (e.event61 0x01 b i (a.master % 8 + 8 * (a.kind % 8) + 64 * b2n a.domOff) 0 (leBytes 4 a.addr ++ leBytes 2 a.seq), true)
      ∧ e.flag (F.FLT_FEC_INFO_VALID b) = true ∧ e.get (F.FLT_FEC_INFO_MASTER b) = a.master % 8 ∧ e.get (F.FLT_FEC_INFO_ACCESS b) = a.kind % 8
      ∧ e.flag (F.FLT_FEC_INFO_DOMAIN_OFF b) = a.domOff ∧ e.get (F.FLT_FEC_INFO_BIT b) = i % 32 ∧ e.get (F.FLT_FEC_INFO_SEQ b) = a.seq % 65536)
  ∧ (∀ (d : Dev) (b m a : Nat), d.flaggedWrite b m a = d.faultCapture b 31 (d.writeAccess m a false) true
      ∧ (inPwr a = false → d.writeAccess m a false = ⟨m, 1, a, false, 0⟩) ∧ (inPwr a = true → d.writeAccess m a false = ⟨m, 2, a, false, d.get F.PWR_BRIDGE_STATUS_LAST_SEQ⟩))
  ∧ (∀ (d : Dev) (b i : Nat) (a : Access), d.faultCapture b i a true = ((d.fltSet b i).capture b i a).1.countEvent b i
      ∧ ((d.fltSet b i).flag (F.FLT_FEC_INFO_VALID b) = true → d.faultCapture b i a false = (d.fltSet b i).inc (F.FLT_FEC_LOST_COUNT b)))
  ∧ (∀ (d : Dev) (b : Nat), 1 ≤ d.winMs b ∧ d.winMs b ≤ 60000 ∧ 1 ≤ d.winN b
      ∧ (d.get (F.FLT_WIN_CFG_WINDOW_MS b) ≠ 0 → d.get (F.FLT_WIN_CFG_WINDOW_MS b) ≤ 60000 → d.winMs b = d.get (F.FLT_WIN_CFG_WINDOW_MS b)))
  ∧ (∀ (d d1 : Dev) (b i : Nat) (l : List Nat), d1 = d.inc (F.FLT_EVT_TOTAL_COUNT b) →
      l = (d1.win b).filter (fun t => decide (d1.now < t + msCyc)) ++ [d1.now + d1.winMs b * msCyc] →
      (l.length < (d1.setWin b l).winN b → d.countEvent b i = d1.setWin b l)
      ∧ ((d1.setWin b l).winN b ≤ l.length → d.countEvent b i = (d1.setWin b l).severe b i))
  ∧ (∀ (d d1 : Dev) (b i : Nat), d1 = (((d.fltSet b 30).inc (F.FLT_SEV_COUNT_COUNT b)).inc F.TEST_SEV_TOTAL_COUNT).setWin b [] →
      (d.get (F.FLT_REACT_REACT b) = 0 → d.severe b i = d1.event61 0x02 b i 56 0 (leBytes 2 (d.winN b) ++ leBytes 2 (d.winMs b)))
      ∧ (d.get (F.FLT_REACT_REACT b) = 1 → d.severe b i = (d1.event61 0x02 b i 56 1 (leBytes 2 (d.winN b) ++ leBytes 2 (d.winMs b))).fltIrq b)
      ∧ (d.get (F.FLT_REACT_REACT b) = 2 → d.severe b i = (d1.isolate b).event61 0x02 b i 56 2 (leBytes 2 (d.winN b) ++ leBytes 2 (d.winMs b)))
      ∧ (d.get (F.FLT_REACT_REACT b) = 4 → d.severe b i = (d1.fnHold b true).event61 0x02 b i 56 4 (leBytes 2 (d.winN b) ++ leBytes 2 (d.winMs b))))
  ∧ (∀ (d : Dev) (b : Nat), d.isolated b = true ∨ notIsolable b = true → d.isolate b = d)
  ∧ (∀ (d : Dev) (b : Fin 66) (l : List Nat), l.length < 65536 → (d.setWin b l).win b = l ∧ (d.setWin b l).get (F.FLT_EVT_COUNT_IN_WINDOW b) = l.length)
  ∧ (∀ (s : State) (b : Fin 66),
      (s.dev.quiet → s.dev.win b = [] → exec (.windowEventExpiry b) s = .next s)
      ∧ (∀ t l, s.dev.win b = t :: l → exec (.windowEventExpiry b) s = .next { s with dev := ((s.dev.reach t).setWin b l).settle }))
  ∧ (∀ (s : State) (b : Fin 66),
      (s.dev.quiet → s.dev.flag (F.FLT_BLOCK_CTRL_RESET b) = false → exec (.blockResetDone b) s = .next s)
      ∧ (s.dev.flag (F.FLT_BLOCK_CTRL_RESET b) = true →
        (s.dev.get (F.FLT_BLOCK_CTRL_UNIT b) = 0 → exec (.blockResetDone b) s = .next { s with dev := (s.dev.blockReset b).settle })
        ∧ (∀ u, s.dev.get (F.FLT_BLOCK_CTRL_UNIT b) = u + 1 → exec (.blockResetDone b) s = .next { s with dev := ((s.dev.seqReset u).set (F.FLT_BLOCK_CTRL_RESET b) 0).settle }))
      ∧ (s.dev.blockReset b).flag (F.FLT_BLOCK_CTRL_RESET b) = false ∧ (s.dev.blockReset b).flag (F.FLT_FAULT_STATUS_ISOLATED b) = false)

/-- FW_PIECE, FW_QUERY, FW_ACTIVATE, FW_CANCEL, FLASH_OP_COMPLETE. That one flash operation covers the erase, the program and the verify of a sector, and that journal records are written at once, is the model's choice (log 66). -/
def Obligations.FirmwareUpdate : Prop :=
  (∀ (d : Dev), d.fwServed = (d.ready 9 && decide (2 ≤ d.get F.BOOT_STATUS_BOOT_STATE)))
  ∧ (∀ (d : Dev) (k : Nat), d.fwServed = false → d.fwNext k = none)
  ∧ (∀ (s : State), s.dev.quiet →
      (s.dev.fwNext 0x50 = none → exec .fwPiece s = .next s) ∧ (s.dev.fwNext 0x51 = none → exec .fwQuery s = .next s)
      ∧ (s.dev.fwNext 0x52 = none → exec .fwActivate s = .next s) ∧ (s.dev.fwNext 0x53 = none → exec .fwCancel s = .next s))
  ∧ (∀ (s : State) (o : Op) (n : Nat), s.dev.fwNext 0x50 = some o → n = leNat (s.dev.hostRead (o.param + 8) 2) →
      (n < 21 ∨ 1024 < n → exec .fwPiece s = .next { s with dev := ((s.dev.lastErr errFormat).opFail o errFormat).settle })
      ∧ (∀ p, 21 ≤ n → n ≤ 1024 → p = s.dev.pieceTake (s.dev.hostRead (leNat (s.dev.hostRead o.param 8)) n) →
        (p.2 = errOk → exec .fwPiece s = .next { s with dev := (p.1.opDone o).settle })
        ∧ (p.2 ≠ errOk → exec .fwPiece s = .next { s with dev := ((p.1.lastErr p.2).opFail o p.2).settle })))
  ∧ (∀ (d : Dev) (b : List Byte),
      (beNat (slice b (b.length - 4) 4) ≠ crc32 (b.take (b.length - 4)) → d.pieceTake b = ((d.inc F.BOOT_PIECE_CRC_FAIL_COUNT).lastErr errFormat, errFormat))
      ∧ (beNat (slice b (b.length - 4) 4) = crc32 (b.take (b.length - 4)) →
        (pieceForm b = none → d.pieceTake b = (d.lastErr errFormat, errFormat))
        ∧ (∀ off bs last ses, pieceForm b = some (off, bs, last, ses) → d.stage ≠ 0 → d.boot.session ≠ ses → d.pieceTake b = (d.lastErr errBusy, errBusy))))
  ∧ (∀ (d : Dev) (off : Nat) (bs : List Byte) (ses : Option Nat),
      (off ≠ 0 → d.stage = 0 → d.stageData off bs ses = (d.lastErr errBusy, errBusy))
      ∧ (off = 0 → hdFormat (bs.take 256) = false → d.stageData off bs ses = (d.lastErr errFormat, errFormat))
      ∧ (off = 0 → hdFormat (bs.take 256) = true → d.hdTrust (bs.take 256) ≠ errOk → d.stageData off bs ses = (d.lastErr (d.hdTrust (bs.take 256)), d.hdTrust (bs.take 256))))
  ∧ (∀ (s : State) (o : Op), s.dev.fwNext 0x51 = some o →
      exec .fwQuery s = .next { s with dev := ((s.dev.hostWrite (leNat (s.dev.hostRead o.param 8)) (s.dev.queryRecord leBytes)).opDone o).settle })
  ∧ (∀ (s : State) (o : Op), s.dev.fwNext 0x52 = some o →
      (s.dev.quiet → s.dev.flag F.SUPV_SUPPLY_STATUS_BOH = true → s.dev.stage = 3 → exec .fwActivate s = .next s)
      ∧ (∀ p, s.dev.flag F.SUPV_SUPPLY_STATUS_BOH = false ∨ s.dev.stage ≠ 3 → p = (s.dev.startOp o).activate (some o.idx) →
        (p.2 = errOk → exec .fwActivate s = .next { s with dev := p.1.settle })
        ∧ (p.2 ≠ errOk → exec .fwActivate s = .next { s with dev := (p.1.opFail { o with state := .running } p.2).settle })))
  ∧ (∀ (d : Dev) (op : Option Nat),
      (d.stage ≠ 3 → d.activate op = (d.lastErr errBusy, errBusy))
      ∧ (d.stage = 3 → d.recheck ≠ errOk → d.activate op = ((d.stageIdle.journalWrite 0 0).lastErr d.recheck, d.recheck))
      ∧ (∀ d1, d.stage = 3 → d.recheck = errOk → d1 = ((d.set F.BOOT_STATUS_STAGE_STATE 4).set F.BOOT_COPY_NEXT_NEXT 0).journalWrite 4 0 →
        d.activate op = (Dev.flashKick { d1 with boot := { d1.boot with ops := [.copy 0 false], copyOp := op } }, errOk)))
  ∧ (∀ (d : Dev), (d.stage = 4 → d.stageCancel = (d.lastErr errBusy, errBusy)) ∧ (d.stage ≠ 4 → d.stageCancel = (d.stageIdle.journalWrite 0 0, errOk))
      ∧ d.stageIdle.stage = 0 ∧ d.stageIdle.boot.recorded = 0 ∧ d.stageIdle.boot.flash = d.boot.flash ∧ d.stageIdle.boot.ops = [])
  ∧ (∀ (s : State) (o : Op), s.dev.fwNext 0x53 = some o →
      (s.dev.quiet → s.dev.flag F.SUPV_SUPPLY_STATUS_BOH = true → s.dev.stage ≠ 4 → exec .fwCancel s = .next s)
      ∧ (s.dev.stage = 4 → exec .fwCancel s = .next { s with dev := (((s.dev.lastErr errBusy).lastErr errBusy).opFail o errBusy).settle })
      ∧ (s.dev.flag F.SUPV_SUPPLY_STATUS_BOH = false → s.dev.stage ≠ 4 → exec .fwCancel s = .next { s with dev := ((s.dev.stageIdle.journalWrite 0 0).opDone o).settle }))
  ∧ (∀ (s : State) (ok : Bool), s.dev.quiet → s.dev.flag F.BOOT_STATUS_FLASH_PAUSED = true ∨ s.dev.ready 13 = false ∨ s.dev.boot.ops = [] → exec (.flashOpComplete ok) s = .next s)
  ∧ (∀ (s : State) (l : List FlashOp) (d0 d1 : Dev), s.dev.flag F.BOOT_STATUS_FLASH_PAUSED = false → s.dev.ready 13 = true →
      d0 = { s.dev with boot := { s.dev.boot with ops := l } } → d1 = d0.inc F.BOOT_FLASH_ERR_COUNT →
      (∀ k data again, s.dev.boot.ops = .stage k data again :: l →
        exec (.flashOpComplete true) s = .next { s with dev := (d0.sectorRecorded k data).flashNext.settle }
        ∧ (again = false → exec (.flashOpComplete false) s = .next { s with dev := (Dev.flashNext { d1 with boot := { d1.boot with ops := .stage k data true :: l } }).settle })
        ∧ (again = true → exec (.flashOpComplete false) s = .next { s with dev := ((Dev.fault { d1 with boot := { d1.boot with asm := SMap.del d1.boot.asm k } } blkBoot 1).flashNext).settle }))
      ∧ (∀ k again d2 d3, s.dev.boot.ops = .copy k again :: l → d2 = d0.copySector k →
        d2.copyOp = none ∧ d3 = d2 ∨ (∃ o, d2.copyOp = some o ∧ d3 = d2.setOp { o with progress := k + 1 }) →
        (d3.get F.BOOT_STAGE_SECTORS_TOTAL ≤ k + 1 → exec (.flashOpComplete true) s = .next { s with dev := (d3.copyDone true).settle })
        ∧ (k + 1 < d3.get F.BOOT_STAGE_SECTORS_TOTAL → exec (.flashOpComplete true) s = .next { s with dev := (Dev.flashNext { d3 with boot := { d3.boot with ops := [.copy (k + 1) false] } }).settle })
        ∧ (again = false → exec (.flashOpComplete false) s = .next { s with dev := (Dev.flashNext { d1 with boot := { d1.boot with ops := [.copy k true] } }).settle })
        ∧ (∀ o d2, again = true → d2 = (d1.fault blkBoot 1).lastErr errInternal → d2.copyOp = some o →
          exec (.flashOpComplete false) s = .next { s with dev := Dev.settle { d2.opFail o errInternal with boot := { (d2.opFail o errInternal).boot with copyOp := none } } })))

/-- BOOT_START, MGMT_RESTART, LOCKSTEP_MISMATCH, GUXIA_READ, GUXIA_WRITE, GUXIA_FW_DATA, GUXIA_FW_QUERY, GUXIA_FW_ACTIVATE, GUXIA_FW_CANCEL, NEIGHBOR_SOLICITATION. That GUXIA_WRITE stops at the first word that fails, and that a start whose flash is off goes to RECOVERY, is the model's choice (log 65). -/
def Obligations.BootAndService : Prop :=
  (∀ (s : State) (e : Bool),
      (s.dev.quiet → s.dev.ready 9 = false ∨ s.dev.get F.BOOT_STATUS_BOOT_STATE ≠ 0 → exec (.bootStart e) s = .next s)
      ∧ (s.dev.ready 9 = true → s.dev.get F.BOOT_STATUS_BOOT_STATE = 0 → bit s.dev.pwr.goingOn 12 = false →
        (e = true ∨ s.dev.ready 13 = false → exec (.bootStart e) s = .next { s with dev := ((s.dev.set F.BOOT_STATUS_HDR_B 0).recovery 0).settle })
        ∧ (∀ d1 d2 h, e = false → s.dev.ready 13 = true → d1 = s.dev.bootHeader.bootJournal → h = d1.flashRead flashActive 256 →
          d2 = (if hdFormat h && decide (hdKeyId h < 256) then d1.slotTouch (hdKeyId h) else d1) →
          (d2.imageCheck = none → exec (.bootStart e) s = .next { s with dev := d2.runImage.settle })
          ∧ (∀ off, d2.imageCheck = some off → exec (.bootStart e) s = .next { s with dev := (d2.recovery off).settle }))))
  ∧ (∀ (d : Dev) (off : Nat), (d.recovery off).get F.BOOT_STATUS_BOOT_STATE = 3 ∧ d.runImage.get F.BOOT_STATUS_BOOT_STATE = 2
      ∧ d.runImage.get F.BOOT_ACTIVE_EPOCH_EPOCH = hdEpoch (d.flashRead flashActive 256) % 2 ^ 32
      ∧ d.runImage.get F.BOOT_ACTIVE_ID_ID = hdImageId (d.flashRead flashActive 256) % 2 ^ 32)
  ∧ (∀ (s : State),
      (s.dev.quiet → s.dev.boot.restart = false ∨ s.dev.pwr.logicUp = false ∨ (∃ p : Fin 12, 3 ≤ s.dev.get (F.ETH_STEP_STATUS_STATE p)) → exec .mgmtRestart s = .next s)
      ∧ (s.dev.boot.restart = true → s.dev.pwr.logicUp = true → (∀ p : Fin 12, s.dev.get (F.ETH_STEP_STATUS_STATE p) < 3) →
        exec .mgmtRestart s = .next { s with dev := (s.dev.timeMgmtStop.mgmtRelease).settle })
      ∧ (s.dev.quiet → s.dev.ready 9 = false → exec .lockstepMismatch s = .next s)
      ∧ (∀ d1, s.dev.ready 9 = true → d1 = (s.dev.inc F.BOOT_LOCKSTEP_COUNT).fault blkBoot 3 →
        exec .lockstepMismatch s = .next { s with dev := Dev.settle { d1 with boot := { d1.boot with restart := true } } }))
  ∧ (∀ (d : Dev) (types : List Nat) (m : List Byte) (ok wait : Bool) (serve : Dev → Nat → Dev),
      (d.svcUp = false ∨ d.flag F.BOOT_GUXIA_CFG_EN = false ∨ m.length < 12 ∨ types.contains (byteAt m 1) = false ∨ wait = true → d.guxia types m ok wait serve = d)
      ∧ (∀ d1, d.svcUp = true → d.flag F.BOOT_GUXIA_CFG_EN = true → 12 ≤ m.length → types.contains (byteAt m 1) = true → wait = false → d1 = d.inc F.BOOT_GUXIA_RX_COUNT →
        (∀ r, d.boot.guxia = some (beNat (slice m 4 4), r) → d.guxia types m ok wait serve = d1.emit (.svc r))
        ∧ ((∀ k, d.boot.guxia = some k → k.1 ≠ beNat (slice m 4 4)) →
          (byteAt m 0 ≠ 1 ∨ beNat (slice m 2 2) ≠ m.length ∨ 1452 < beNat (slice m 2 2) ∨ ok = false →
            d.guxia types m ok wait serve = (d1.inc F.BOOT_GUXIA_ERR_COUNT).guxiaReply (byteAt m 1 % 128) (beNat (slice m 4 4)) errFormat [])
          ∧ (byteAt m 0 = 1 → beNat (slice m 2 2) = m.length → m.length ≤ 1452 → ok = true → d.guxia types m ok wait serve = serve d1 (beNat (slice m 4 4))))))
  ∧ (∀ (d : Dev) (type seq err : Nat) (body : List Byte),
      (d.guxiaReply type seq err body).boot.guxia = some (seq, leBytes 1 1 ++ leBytes 1 (type + 0x80) ++ beBytes 2 (12 + body.length) ++ beBytes 4 seq ++ leBytes 1 err ++ leBytes 3 0 ++ body))
  ∧ (∀ (s : State) (m : List Byte),
      (guxiaTypes.contains (byteAt m 1) = true → exec (.guxiaRead m) s = .next { s with dev := (s.dev.guxia [0x01] m (gxOk m 0) false (fun d seq =>
        let x := d.gxReads (beNat (slice m 12 4)) (gxCount m)
        if x.2.isNone then x.1.guxiaReply 0x01 seq errFormat [] else x.1.guxiaReply 0x01 seq errOk (x.2.getD []))).settle })
      ∧ exec (.guxiaWrite m) s = .next { s with dev := (s.dev.guxia [0x02] m (gxOk m (gxCount m)) false (fun d seq =>
        (d.gxWrites (beNat (slice m 12 4)) (m.drop 20) (gxCount m)).1.guxiaReply 0x02 seq (d.gxWrites (beNat (slice m 12 4)) (m.drop 20) (gxCount m)).2 [])).settle }
      ∧ (∀ h, h = (if beNat (slice m 12 4) = 0 then (m.drop 16).take 256 else s.dev.boot.hdr) → exec (.guxiaFwData m) s = .next { s with dev := (s.dev.guxia [0x10] m
        (decide (17 ≤ m.length) && decide ((m.drop 16).length ≤ 1024) && beNat (slice m 12 4) % 1024 == 0 && ((m.drop 16).length == 1024 || !hdFormat h || beNat (slice m 12 4) + (m.drop 16).length == hdFile h)) false
        (fun d seq => (d.stageData (beNat (slice m 12 4)) (m.drop 16) none).1.guxiaReply 0x10 seq (d.stageData (beNat (slice m 12 4)) (m.drop 16) none).2 [])).settle })
      ∧ exec (.guxiaFwQuery m) s = .next { s with dev := (s.dev.guxia [0x11] m (m.length == 12) false (fun d seq => d.guxiaReply 0x11 seq errOk (d.queryRecord beBytes))).settle }
      ∧ exec (.guxiaFwActivate m) s = .next { s with dev := (s.dev.guxia [0x12] m (m.length == 12) (s.dev.flag F.SUPV_SUPPLY_STATUS_BOH && s.dev.stage == 3)
        (fun d seq => (d.activate none).1.guxiaReply 0x12 seq (d.activate none).2 [])).settle }
      ∧ exec (.guxiaFwCancel m) s = .next { s with dev := (s.dev.guxia [0x13] m (m.length == 12) (s.dev.flag F.SUPV_SUPPLY_STATUS_BOH && s.dev.stage != 4)
        (fun d seq => d.stageCancel.1.guxiaReply 0x13 seq d.stageCancel.2 [])).settle })
  ∧ (∀ (d : Dev) (a : Nat) (bs : List Byte) (n : Nat),
      (∀ v, (d.busRead 2 a).2 = some v → (d.gxReads a (n + 1)).2 = ((d.busRead 2 a).1.gxReads (a + 4) n).2.map (fun l => beBytes 4 v ++ l))
      ∧ ((d.busRead 2 a).2 = none → d.gxReads a (n + 1) = ((d.busRead 2 a).1, none))
      ∧ ((d.busWrite 2 a (beNat (slice bs 0 4))).2 = .error → d.gxWrites a bs (n + 1) = ((d.busWrite 2 a (beNat (slice bs 0 4))).1, errFormat))
      ∧ ((d.busWrite 2 a (beNat (slice bs 0 4))).2 = .denied → d.gxWrites a bs (n + 1) = ((d.busWrite 2 a (beNat (slice bs 0 4))).1, errLocked))
      ∧ ((d.busWrite 2 a (beNat (slice bs 0 4))).2 = .done → d.gxWrites a bs (n + 1) = (d.busWrite 2 a (beNat (slice bs 0 4))).1.gxWrites (a + 4) (bs.drop 4) n))
  ∧ (∀ (s : State) (src target : List Byte),
      (s.dev.quiet → s.dev.svcUp = false ∨ target ≠ s.dev.svcIp → exec (.neighborSolicitation src target) s = .next s)
      ∧ (∀ rest body, s.dev.quiet → s.dev.svcUp = true → target = s.dev.svcIp → src.all (fun b => b == 0) = false →
        rest = [0x60, 0, 0, 0] ++ target ++ [2, 1] ++ s.dev.svcMac → body = [136, 0, 0, 0] ++ rest →
        exec (.neighborSolicitation src target) s = .next { s with dev := s.dev.emit (.svc (target ++ src ++ [136, 0] ++ beBytes 2 (65535 - onesSum (target ++ src ++ beBytes 4 body.length ++ beBytes 4 58 ++ body)) ++ rest)) }))
  ∧ (∀ (d : Dev), d.mgmtRelease.get F.BOOT_STATUS_BOOT_STATE = 0 ∧ d.mgmtRelease.flag F.SUPV_MGMT_WD_EN = false ∧ d.mgmtRelease.flag F.VAULT_STATUS_MEASURING = true
      ∧ d.mgmtRelease.flag F.VAULT_STATUS_COMMITTED = false ∧ d.mgmtRelease.vault.exact = List.replicate 48 0 ∧ d.mgmtRelease.pwr.wdFed = none ∧ d.mgmtRelease.fwd = { d.fwd with mgmt := [] }
      ∧ d.mgmtRelease.boot = { d.boot with asm := [], ops := [], restart := false, guxia := none, mgmt := [], seqCode := [] } ∧ d.mgmtRelease.tbl = d.tbl)
  ∧ (∀ (d : Dev), (d.get F.TIME_STATUS_STATE ≠ 2 → d.timeMgmtStop = d) ∧ (d.get F.TIME_STATUS_STATE = 2 → d.timeMgmtStop.get F.TIME_STATUS_STATE = 3 ∧ d.timeMgmtStop.get F.TIME_INCR_INCR = d.get F.TIME_INCR_INCR))

/-- DOMAIN_READY, DOMAIN_OFF_COMPLETE, TILE_B_COPY_DONE, RAILS_GOOD, INH_DRIVEN_ACTIVE. When a WARM start begins is the model's reading (log 64). -/
def Obligations.DomainSteps : Prop :=
  (∀ (s : State) (n : Fin 15),
      (s.dev.quiet → n.val = 0 ∨ bit s.dev.pwr.goingOn (n - 1) = false → exec (.domainReady n) s = .next s)
      ∧ (∀ d1 d2, n.val ≠ 0 → bit s.dev.pwr.goingOn (n - 1) = true →
        d1 = Dev.setBitOf { s.dev with pwr := { s.dev.pwr with goingOn := setBit s.dev.pwr.goingOn (n - 1) false } } F.SUPV_PD_STATUS_READY (n - 1) true →
        d2 = (domainBlocks n).foldl (fun d k => if k == blkNm then d.nmPowerUp else if k == blkCry then d.cryPowerUp else d.blockReset k) d1 →
        (n.val = 3 → exec (.domainReady n) s = .next { s with dev := (Dev.pwrState { d2 with pwr := { d2.pwr with tileBCopy := true } }).settle })
        ∧ (n.val = 7 → exec (.domainReady n) s = .next { s with dev := (Dev.pwrState { d2.set F.XPT_STATUS_SEQ_READY 0 with xpt := { (d2.set F.XPT_STATUS_SEQ_READY 0).xpt with code := [] } }).settle })
        ∧ (n.val = 10 ∨ n.val = 11 → exec (.domainReady n) s = .next { s with dev :=
          (((List.range 20).filter (fun p => lineDomain p == n.val)).foldl (fun (d : Dev) p => d.owe (.tsLink p)) d2).pwrState.settle })
        ∧ (n.val ≠ 3 → n.val ≠ 7 → n.val ≠ 10 → n.val ≠ 11 → exec (.domainReady n) s = .next { s with dev := d2.pwrState.settle }))
      ∧ (s.dev.quiet → n.val = 0 ∨ bit s.dev.pwr.goingOff (n - 1) = false → exec (.domainOffComplete n) s = .next s)
      ∧ (∀ d1 d3, n.val ≠ 0 → bit s.dev.pwr.goingOff (n - 1) = true → d1 = s.dev.domainLoss n →
        d3 = ((Dev.setBitOf { d1 with pwr := { d1.pwr with goingOff := setBit d1.pwr.goingOff (n - 1) false, onAfterOff := setBit d1.pwr.onAfterOff (n - 1) false } } F.SUPV_PD_STATUS_READY (n - 1) false).setBitOf F.SUPV_PD_STATUS_ON (n - 1) false).pwrState →
        (bit s.dev.pwr.onAfterOff (n - 1) = false → exec (.domainOffComplete n) s = .next { s with dev := d3.settle })
        ∧ (bit s.dev.pwr.onAfterOff (n - 1) = true → exec (.domainOffComplete n) s = .next { s with dev := (d3.domainOn n).settle })))
  ∧ (∀ (d : Dev) (n : Nat),
      (bit d.pwr.goingOff (n - 1) = true → d.domainOn n = { d with pwr := { d.pwr with onAfterOff := setBit d.pwr.onAfterOff (n - 1) true } })
      ∧ (bit d.pwr.goingOff (n - 1) = false →
        (d.powered n = true → d.domainOn n = d)
        ∧ (d.powered n = false → n ≤ 8 → n ≠ 2 → d.powered 2 = false → (d.domainOn n) = d.set F.SUPV_STATUS_CFG_IGNORED 1)
        ∧ (d.powered n = false → 8 < n ∨ d.powered 2 = true → (d.domainOn n).pwr.goingOn = setBit d.pwr.goingOn (n - 1) true ∧ d.regsOnly (d.domainOn n) [R.SUPV_PD_STATUS])))
  ∧ (∀ (s : State),
      (s.dev.quiet → s.dev.pwr.tileBCopy = false → exec .tileBCopyDone s = .next s)
      ∧ (s.dev.pwr.tileBCopy = true → exec .tileBCopyDone s = .next { s with dev := s.dev.tileBDone.settle }
        ∧ s.dev.tileBDone.flag F.FWD_STATUS_READY_B = true ∧ s.dev.tileBDone.pwr.tileBCopy = false))
  ∧ (∀ (s : State),
      (s.dev.quiet → s.dev.pwr.logicUp = true ∨ s.dev.pwr.clkHold = true ∨ s.dev.standby = true ∨ s.dev.pwr.inh0 = false ∨ s.dev.pwr.inh1 = false → exec .railsGood s = .next s)
      ∧ (s.dev.pwr.logicUp = false → s.dev.pwr.clkHold = false → s.dev.standby = false → s.dev.pwr.inh0 = true → s.dev.pwr.inh1 = true →
        exec .railsGood s = .next { s with dev := s.dev.logicStart.clocksStart.domainsStart.reportDue.settle }))
  ∧ (∀ (d : Dev), d.logicStart.pwr.logicUp = true ∧ d.logicStart.get F.BOOT_STATUS_BOOT_STATE = 0 ∧ d.logicStart.flag F.SUPV_MGMT_WD_EN = false
      ∧ d.logicStart.ready 1 = true ∧ d.logicStart.ready 2 = true ∧ d.logicStart.ready 9 = true
      ∧ (d.coldStart = false → d.clocksStart = d)
      ∧ (d.vault.report = [] → d.reportDue = d)
      ∧ (∀ x l, d.vault.report = x :: l → d.reportDue = l.foldl (fun (e : Dev) y => e.zeroReport y.1 y.2) (Dev.zeroReport { d with vault := { d.vault with report := [] } } x.1 x.2)))
  ∧ (∀ (s : State), s.dev.quiet →
      (s.dev.pwr.logicUp = true ∨ s.dev.standby = true → exec .inhDrivenActive s = .next s)
      ∧ (s.dev.pwr.logicUp = false → s.dev.standby = false → exec .inhDrivenActive s = .next { s with dev := { s.dev with pwr := { s.dev.pwr with inh0 := true, inh1 := true } } }))
  ∧ (∀ (d : Dev) (t i : Nat), d.stores = true → d.pwr.tileBCopy = true → tblBoth t = true → t < 10 → i < 2 ^ 24 →
      (d.tget t 0 i ≠ 0 → d.tileBDone.tget t 1 i = d.tget t 0 i) ∧ (d.tget t 0 i = 0 → d.tileBDone.tget t 1 i = d.tget t 1 i) ∧ d.tileBDone.tget t 0 i = d.tget t 0 i
      ∧ d.tileBDone.get F.TBL_GEN_5B_GEN = d.get (F.TBL_GEN_GEN 5) ∧ d.tileBDone.get F.TBL_GEN_6B_GEN = d.get (F.TBL_GEN_GEN 6) ∧ d.tileBDone.fwd = d.fwd)

/-- RAIL_WARNING, BROWNOUT_HOLD_START, BROWNOUT_HOLD_EXPIRY, BROWNOUT_HOLD_END, COLD_RESET, WARM_RESET, CLOCK_LOSS, CLOCK_RETURN, MGMT_WD_EXPIRY, D2D_LINK_DOWN, D2D_LINK_UP, D2D_RETRAIN_TIMEOUT, VHV_LOW_CHANGE, DRIVERS_HELD_RECESSIVE. That the AON counter starts again at a COLD reset is the model's choice (log 64). -/
def Obligations.PowerSteps : Prop :=
  (∀ (s : State),
      (s.dev.flag F.SUPV_SUPPLY_STATUS_RAIL_WARN = false → exec (.railWarning true) s = .next { s with dev := ((s.dev.set F.SUPV_SUPPLY_STATUS_RAIL_WARN 1).dieMsg.fault blkSupv 0).settle })
      ∧ (s.dev.flag F.SUPV_SUPPLY_STATUS_RAIL_WARN = true → exec (.railWarning true) s = .next { s with dev := (s.dev.set F.SUPV_SUPPLY_STATUS_RAIL_WARN 1).settle })
      ∧ exec (.railWarning false) s = .next { s with dev := (s.dev.set F.SUPV_SUPPLY_STATUS_RAIL_WARN 0).settle })
  ∧ (∀ (s : State),
      (s.dev.quiet → s.dev.flag F.SUPV_SUPPLY_STATUS_BOH = true → exec .brownoutHoldStart s = .next s)
      ∧ (∀ d1, s.dev.flag F.SUPV_SUPPLY_STATUS_BOH = false → d1 = Dev.set { s.dev with pwr := { s.dev.pwr with bohStart := some s.dev.now, bohExpired := false } } F.SUPV_SUPPLY_STATUS_BOH 1 →
        exec .brownoutHoldStart s = .next { s with dev := ((d1.dieMsg.supplyCond F.LOADC_SUPPLY_STATUS_BROWNOUT true).flashPause).settle })
      ∧ (s.dev.quiet → s.dev.pwr.bohStart = none → exec .brownoutHoldExpiry s = .next s ∧ exec .brownoutHoldEnd s = .next s)
      ∧ (s.dev.quiet → s.dev.pwr.bohExpired = true → exec .brownoutHoldExpiry s = .next s)
      ∧ (∀ t d1 d2, s.dev.pwr.bohStart = some t → s.dev.pwr.bohExpired = false → d1 = s.dev.reach (t + s.dev.get F.SUPV_VBAT_CFG_BOH_MAX_MS * msCyc) →
        d2 = (Dev.set { d1 with pwr := { d1.pwr with bohExpired := true } } F.SUPV_SUPPLY_STATUS_BOH_EXPIRED 1).dieMsg.fltSet blkSupv 1 →
        exec .brownoutHoldExpiry s = .next { s with dev := ([14, 13, 12, 11, 10, 8, 7, 6, 5, 4, 3, 1].foldl Dev.policyOff (d2.inc F.SUPV_BOH_EXPIRE_COUNT)).settle })
      ∧ (∀ t d1 d2, s.dev.pwr.bohStart = some t →
        d1 = Dev.supplyCond ((Dev.set { s.dev with pwr := { s.dev.pwr with bohStart := none, bohExpired := false } } F.SUPV_SUPPLY_STATUS_BOH 0).set F.SUPV_SUPPLY_STATUS_BOH_EXPIRED 0) F.LOADC_SUPPLY_STATUS_BROWNOUT false →
        d2 = (if d1.flag F.BOOT_STATUS_FLASH_PAUSED then (d1.set F.BOOT_STATUS_FLASH_PAUSED 0).flashKick else d1) →
        (s.dev.pwr.bohExpired = false → exec .brownoutHoldEnd s = .next { s with dev := (d2.inc F.SUPV_BOH_COUNT_COUNT).settle })
        ∧ (s.dev.pwr.bohExpired = true → d2.flag F.SUPV_BOH_POLICY_RESTORE = false → exec .brownoutHoldEnd s = .next { s with dev := d2.settle })
        ∧ (s.dev.pwr.bohExpired = true → d2.flag F.SUPV_BOH_POLICY_RESTORE = true →
          exec .brownoutHoldEnd s = .next { s with dev := ((List.range 14).foldl (fun d k => if bit s.dev.pwr.policyOff k then d.domainOn (k + 1) else d) d2).settle })))
  ∧ (∀ (d : Dev) (n : Nat),
      (bit (d.get F.SUPV_BOH_POLICY_DOMAINS) (n - 1) = false ∨ d.powered n = false ∨ bit d.pwr.goingOff (n - 1) = true → d.policyOff n = d)
      ∧ (bit (d.get F.SUPV_BOH_POLICY_DOMAINS) (n - 1) = true → d.powered n = true → bit d.pwr.goingOff (n - 1) = false →
        (d.policyOff n).pwr.goingOff = setBit d.pwr.goingOff (n - 1) true ∧ (d.policyOff n).pwr.policyOff = setBit d.pwr.policyOff (n - 1) true
        ∧ d.regsOnly (d.policyOff n) [R.SUPV_PD_STATUS]))
  ∧ (∀ (s : State),
      exec (.coldReset true) s = .next { s with dev := (s.dev.coldReset 1).settle }
      ∧ (s.dev.flag F.SUPV_RST_CTRL_COLD = true → exec (.coldReset false) s = .next { s with dev := (s.dev.coldReset 2).settle })
      ∧ (s.dev.quiet → s.dev.flag F.SUPV_RST_CTRL_COLD = false → exec (.coldReset false) s = .next s)
      ∧ (∀ c : Fin 10, c.val = 3 ∨ c.val = 6 → exec (.warmReset c) s = .next { s with dev := (s.dev.warmReset c).settle })
      ∧ (s.dev.flag F.SUPV_RST_CTRL_WARM = true → exec (.warmReset 4) s = .next { s with dev := (s.dev.warmReset 4).settle })
      ∧ (s.dev.flt.warm.isSome = true → exec (.warmReset 5) s = .next { s with dev := (s.dev.warmReset 5).settle })
      ∧ (s.dev.quiet → s.dev.flag F.SUPV_RST_CTRL_WARM = false → exec (.warmReset 4) s = .next s)
      ∧ (s.dev.quiet → s.dev.flt.warm = none → exec (.warmReset 5) s = .next s)
      ∧ (∀ c : Fin 10, s.dev.quiet → c.val < 3 ∨ 6 < c.val → exec (.warmReset c) s = .next s))
  ∧ (∀ (d : Dev) (c : Nat),
      (d.pwr.logicUp = false → d.warmReset c = d)
      ∧ (d.pwr.logicUp = true → (d.warmReset c).pwr.logicUp = false ∧ (d.warmReset c).anvil = AnvilSt.init ∧ (d.warmReset c).host = HostSt.init
        ∧ (d.warmReset c).xpt = XptSt.init ∧ (d.warmReset c).cry = CrySt.init ∧ (d.warmReset c).fwd = FwdSt.init)
      ∧ (d.coldReset c).pwr.logicUp = false ∧ (d.coldReset c).pwr.inh0 = false ∧ (d.coldReset c).anvil = AnvilSt.init ∧ (d.coldReset c).host = HostSt.init
      ∧ (c < 16 → (d.coldReset c).get F.SUPV_RST_CAUSE_CAUSE = c))
  ∧ (∀ (d : Dev) (c b : Nat),
      (c < 16 → (d.causeRecord c b).get F.SUPV_RST_CAUSE_CAUSE = c)
      ∧ (c = 5 → b < 256 → (d.causeRecord c b).get F.SUPV_RST_CAUSE_BLOCK = b ∧ (d.causeRecord c b).get F.SUPV_RC_STATUS_FAULT_STATUS = d.reg (R.FLT_FAULT_STATUS b)
        ∧ (d.causeRecord c b).get F.SUPV_RC_FEC_INFO_INFO = d.reg (R.FLT_FEC_INFO b) ∧ (d.causeRecord c b).get F.SUPV_RC_FEC_ADDR_ADDR = d.reg (R.FLT_FEC_ADDR b)))
  ∧ (∀ (s : State) (k : Fin 5) (d1 : Dev),
      (s.dev.quiet → s.dev.flag (clkField k) = false → exec (.clockLoss k) s = .next s)
      ∧ (s.dev.quiet → s.dev.flag (clkField k) = true → exec (.clockReturn k) s = .next s)
      ∧ (s.dev.flag (clkField k) = true → d1 = (s.dev.set (clkField k) 0).fltSet blkSupv 2 →
        (k.val = 0 → exec (.clockLoss k) s = .next { s with dev := (Dev.warmReset { d1 with pwr := { d1.pwr with clkHold := true } } 7).settle })
        ∧ (k.val = 1 → exec (.clockLoss k) s = .next { s with dev := (d1.warmReset 7).settle })
        ∧ (k.val = 2 → exec (.clockLoss k) s = .next { s with dev := (d1.hostReset true).settle })
        ∧ (k.val = 3 → exec (.clockLoss k) s = .next { s with dev := ((((d1.ethDown 0).ethDown 1).ethDown 2).ethDown 3).settle })
        ∧ (k.val = 4 → exec (.clockLoss k) s = .next { s with dev := Dev.settle { d1 with time := { d1.time with aonHeld := some d1.now, snapAt := none } } }))
      ∧ (s.dev.flag (clkField k) = false → d1 = (s.dev.set (clkField k) 1).fltSet blkSupv 2 →
        (k.val = 0 → exec (.clockReturn k) s = .next { s with dev := Dev.settle { d1 with pwr := { d1.pwr with clkHold := false } } })
        ∧ (k.val = 1 ∨ k.val = 2 ∨ k.val = 3 → exec (.clockReturn k) s = .next { s with dev := d1.settle })
        ∧ (k.val = 4 → d1.time.aonHeld = none → exec (.clockReturn k) s = .next { s with dev := d1.settle })
        ∧ (∀ t d2, k.val = 4 → d1.time.aonHeld = some t → d2 = { d1 with time := { d1.time with aonHeld := none, aonLost := d1.time.aonLost + (d1.now - t) } } →
          exec (.clockReturn k) s = .next { s with dev := Dev.settle { d2 with time := { d2.time with snapAt := if d2.time.snapGo then some d2.aonEdge else none } } })))
  ∧ (∀ (s : State),
      (s.dev.quiet → s.dev.pwr.wdFed = none ∨ s.dev.flag F.SUPV_MGMT_WD_EN = false → exec .mgmtWdExpiry s = .next s)
      ∧ (∀ t d1 d2, s.dev.pwr.wdFed = some t → s.dev.flag F.SUPV_MGMT_WD_EN = true → d1 = (s.dev.reach (t + s.dev.get F.SUPV_MGMT_WD_PERIOD_MS * msCyc)).fltSet blkSupv 3 →
        d2 = { d1 with pwr := { d1.pwr with wdLast := some d1.now, wdFed := some d1.now } } →
        (s.dev.pwr.wdLast = none → exec .mgmtWdExpiry s = .next { s with dev := Dev.settle { d2 with boot := { d2.boot with restart := true } } })
        ∧ (∀ u, s.dev.pwr.wdLast = some u →
          (d1.now ≤ u + sCyc → exec .mgmtWdExpiry s = .next { s with dev := (d2.warmReset 8).settle })
          ∧ (u + sCyc < d1.now → exec .mgmtWdExpiry s = .next { s with dev := Dev.settle { d2 with boot := { d2.boot with restart := true } } }))))
  ∧ (∀ (s : State),
      (s.dev.quiet → s.dev.flag F.PWR_D2D_STATUS_LINK_UP = false → exec .d2dLinkDown s = .next s)
      ∧ (s.dev.flag F.PWR_D2D_STATUS_LINK_UP = true →
        exec .d2dLinkDown s = .next { s with dev := ((Dev.set { s.dev with pwr := { s.dev.pwr with d2dDown := some s.dev.now } } F.PWR_D2D_STATUS_LINK_UP 0).fltSet blkSupv 4).settle })
      ∧ (s.dev.quiet → s.dev.pwr.d2dDown = none → exec .d2dLinkUp s = .next s ∧ exec .d2dRetrainTimeout s = .next s)
      ∧ (∀ t, s.dev.pwr.d2dDown = some t →
        exec .d2dLinkUp s = .next { s with dev := ((Dev.set { s.dev with pwr := { s.dev.pwr with d2dDown := none } } F.PWR_D2D_STATUS_LINK_UP 1).drain63 |> (List.range 48).foldl Dev.serveLatched).settle }
        ∧ exec .d2dRetrainTimeout s = .next { s with dev := ((s.dev.reach (t + msCyc)).warmReset 9).settle })
      ∧ (∀ low, exec (.vhvLowChange low) s = .next { s with dev := (s.dev.set F.SUPV_SUPPLY_STATUS_VHV_LOW (b2n low)).settle })
      ∧ (∀ held, s.dev.quiet → exec (.driversHeldRecessive held) s = .next { s with dev := { s.dev with pwr := { s.dev.pwr with recessive := held } } }))

/-- The one place each kind of storage is written. What unwritten host memory reads as is the model's choice (log 1). -/
def Obligations.FieldAndMemoryWrites : Prop :=
  (∀ (f : FldDef) (locked once : Bool) (o v : Nat),
      (f.acc = .ro ∨ f.acc = .rc → f.write locked once o v = (bf o f.lo f.w, false, false))
      ∧ (f.acc = .rw ∨ f.acc = .wo ∨ (f.acc = .rwl ∧ locked = false) ∨ (f.acc = .rwo ∧ once = false) →
        (∀ y, f.accept (bf v f.lo f.w) = some y → f.write locked once o v = (y, false, false))
        ∧ (f.accept (bf v f.lo f.w) = none → f.write locked once o v = (bf o f.lo f.w, false, bf v f.lo f.w != bf o f.lo f.w)))
      ∧ (f.acc = .rwl → f.write true once o v = (bf o f.lo f.w, true, false))
      ∧ (f.acc = .rwo → f.write locked true o v = (bf o f.lo f.w, bf v f.lo f.w != bf o f.lo f.w, false))
      ∧ (f.acc = .w1c → ∀ i, i < f.w → (f.write locked once o v).1.testBit i = (o.testBit (f.lo + i) && !v.testBit (f.lo + i)))
      ∧ (f.acc = .w1s → ∀ i, i < f.w → (f.write locked once o v).1.testBit i = (o.testBit (f.lo + i) || v.testBit (f.lo + i))))
  ∧ (∀ (d : Dev) (a : Nat) (bs : List Byte),
      (bs.length ≤ 2 ^ 64 → (d.hostWrite a bs).hostRead a bs.length = bs)
      ∧ (∀ c, (∀ i, i < bs.length → (a + i) % 2 ^ 64 ≠ c % 2 ^ 64) → (d.hostWrite a bs).hostByte c = d.hostByte c))
  ∧ (∀ (d : Dev) (m c i v : Nat),
      (d.tset m c i v).tget m c i = v
      ∧ (∀ m' c' i', tkey m' c' i' ≠ tkey m c i → (d.tset m c i v).tget m' c' i' = d.tget m' c' i')
      ∧ (i < 2 ^ 24 → (d.tclear m c).tget m c i = 0)
      ∧ (∀ m' c' i', i' < 2 ^ 24 → m' * 2 + c' ≠ m * 2 + c → (d.tclear m c).tget m' c' i' = d.tget m' c' i'))
  ∧ (∀ (d : Dev), d.stores = true →
      (∀ a v, (d.setReg a v).stores = true) ∧ (∀ f v, (d.set f v).stores = true) ∧ (∀ lo hi, (d.resetRegs lo hi).stores = true)
      ∧ (∀ m c i v, (d.tset m c i v).stores = true) ∧ (∀ m c, (d.tclear m c).stores = true) ∧ (∀ a bs, (d.hostWrite a bs).stores = true))
  ∧ (∀ (m n : List Host.Cell), Memory.wf m = true → Memory.wf n = true → (∀ a, SMap.get m 0 a = SMap.get n 0 a) → m = n)
end

