-- ==== Sys2Proof/Laws/Maps.lean ====
section
/-!
SUPPORT. The laws of the sparse store: what a key reads after a write, and that every write keeps the canonical form.
-/
namespace Sys2Proof.Machine

variable {α : Type}

theorem SMap.find_put_same (m : SMap α) (k : Nat) (v : α) : SMap.find? (SMap.put m k v) k = some v := by
  induction m with
  | nil => simp [SMap.put, SMap.find?]
  | cons p m ih =>
    obtain ⟨j, x⟩ := p
    unfold SMap.put
    split
    · simp [SMap.find?]
    · split
      · simp [SMap.find?]
      · rename_i h; simp [SMap.find?, ih, Ne.symm h]

theorem SMap.find_put_ne (m : SMap α) (k j : Nat) (v : α) (h : k ≠ j) :
    SMap.find? (SMap.put m k v) j = SMap.find? m j := by
  induction m with
  | nil => simp [SMap.put, SMap.find?, h]
  | cons p m ih =>
    obtain ⟨i, x⟩ := p
    unfold SMap.put
    split
    · simp [SMap.find?, h]
    · split
      · rename_i h2; subst h2; simp [SMap.find?, h]
      · simp [SMap.find?, ih]

theorem SMap.find_del_same (m : SMap α) (k : Nat) : SMap.find? (SMap.del m k) k = none := by
  induction m with
  | nil => rfl
  | cons p m ih =>
    obtain ⟨j, x⟩ := p
    unfold SMap.del
    split
    · exact ih
    · rename_i h; simp [SMap.find?, h, ih]

theorem SMap.find_del_ne (m : SMap α) (k j : Nat) (h : k ≠ j) : SMap.find? (SMap.del m k) j = SMap.find? m j := by
  induction m with
  | nil => rfl
  | cons p m ih =>
    obtain ⟨i, x⟩ := p
    unfold SMap.del
    split
    · rename_i h2; subst h2; simp [SMap.find?, ih, h]
    · simp [SMap.find?, ih]

/-- A key reads what was written to it last. -/
@[simp] theorem SMap.get_set_same [DecidableEq α] (m : SMap α) (d : α) (k : Nat) (v : α) :
    SMap.get (SMap.set m d k v) d k = v := by
  unfold SMap.get SMap.set
  split
  · rename_i h; simp [SMap.find_del_same, h]
  · simp [SMap.find_put_same]

/-- A write leaves every other key alone, whatever that key reads as unlisted. -/
theorem SMap.get_set_ne [DecidableEq α] (m : SMap α) (d e : α) (k j : Nat) (v : α) (h : k ≠ j) :
    SMap.get (SMap.set m d k v) e j = SMap.get m e j := by
  unfold SMap.get SMap.set
  split
  · rw [SMap.find_del_ne _ _ _ h]
  · rw [SMap.find_put_ne _ _ _ _ h]

theorem SMap.find_filter (p : Nat → Bool) (m : SMap α) (k : Nat) :
    SMap.find? (m.filter (fun x => p x.1)) k = if p k then SMap.find? m k else none := by
  induction m with
  | nil => simp [SMap.find?]
  | cons x m ih =>
    obtain ⟨j, v⟩ := x
    by_cases hj : j = k
    · subst hj
      by_cases hp : p j = true
      · simp [List.filter, hp, SMap.find?]
      · simp only [Bool.not_eq_true] at hp
        simp [List.filter, hp, ih]
    · by_cases hp : p j = true
      · simp [List.filter, hp, SMap.find?, hj, ih]
      · simp only [Bool.not_eq_true] at hp
        simp [List.filter, hp, SMap.find?, hj, ih]

@[simp] theorem SMap.get_nil (d : α) (k : Nat) : SMap.get ([] : SMap α) d k = d := rfl

/-! ### The canonical form -/

theorem SMap.wfFrom_mono [DecidableEq α] (d : Nat → α) (b c : Nat) (m : SMap α) (h : b ≤ c)
    (hm : SMap.wfFrom d c m = true) : SMap.wfFrom d b m = true := by
  cases m with
  | nil => rfl
  | cons p m =>
    obtain ⟨k, v⟩ := p
    simp only [SMap.wfFrom, Bool.and_eq_true, decide_eq_true_eq] at hm ⊢
    exact ⟨⟨by omega, hm.1.2⟩, hm.2⟩

theorem SMap.wfFrom_put [DecidableEq α] (d : Nat → α) (b k : Nat) (v : α) (m : SMap α) (hk : b ≤ k) (hv : v ≠ d k)
    (hm : SMap.wfFrom d b m = true) : SMap.wfFrom d b (SMap.put m k v) = true := by
  induction m generalizing b with
  | nil => simp [SMap.put, SMap.wfFrom, hk, hv]
  | cons p m ih =>
    obtain ⟨j, x⟩ := p
    simp only [SMap.wfFrom, Bool.and_eq_true, decide_eq_true_eq] at hm
    unfold SMap.put
    split
    · rename_i h
      simp only [SMap.wfFrom, Bool.and_eq_true, decide_eq_true_eq]
      exact ⟨⟨hk, hv⟩, ⟨by omega, hm.1.2⟩, hm.2⟩
    · split
      · rename_i h1 h2
        subst h2
        simp only [SMap.wfFrom, Bool.and_eq_true, decide_eq_true_eq]
        exact ⟨⟨hk, hv⟩, hm.2⟩
      · rename_i h1 h2
        simp only [SMap.wfFrom, Bool.and_eq_true, decide_eq_true_eq]
        exact ⟨hm.1, ih (j + 1) (by omega) hm.2⟩

theorem SMap.wfFrom_filter [DecidableEq α] (d : Nat → α) (p : Nat × α → Bool) (b : Nat) (m : SMap α)
    (hm : SMap.wfFrom d b m = true) : SMap.wfFrom d b (m.filter p) = true := by
  induction m generalizing b with
  | nil => rfl
  | cons q m ih =>
    obtain ⟨k, v⟩ := q
    simp only [SMap.wfFrom, Bool.and_eq_true, decide_eq_true_eq] at hm
    rw [List.filter_cons]
    split
    · simp only [SMap.wfFrom, Bool.and_eq_true, decide_eq_true_eq]
      exact ⟨hm.1, ih _ hm.2⟩
    · exact ih b (SMap.wfFrom_mono d b (k + 1) m (by omega) hm.2)

theorem SMap.del_eq_filter (m : SMap α) (k : Nat) : SMap.del m k = m.filter (fun p => decide (p.1 ≠ k)) := by
  induction m with
  | nil => rfl
  | cons p m ih =>
    obtain ⟨j, x⟩ := p
    unfold SMap.del
    split
    · rename_i h; simp [List.filter_cons, h, ih]
    · rename_i h; simp [List.filter_cons, h, ih]

/-- A filtered store is canonical when the store is. -/
theorem SMap.wf_filter [DecidableEq α] (d : Nat → α) (p : Nat × α → Bool) (m : SMap α) (hm : SMap.wf d m = true) :
    SMap.wf d (m.filter p) = true := SMap.wfFrom_filter d p 0 m hm

/-- A write keeps the canonical form. -/
theorem SMap.wf_set [DecidableEq α] (d : Nat → α) (m : SMap α) (k : Nat) (v : α) (hm : SMap.wf d m = true) :
    SMap.wf d (SMap.set m (d k) k v) = true := by
  unfold SMap.set
  split
  · rw [SMap.del_eq_filter]; exact SMap.wf_filter d _ m hm
  · rename_i h; exact SMap.wfFrom_put d 0 k v m (Nat.zero_le k) h hm

end Sys2Proof.Machine
end

