-- ==== Sys2Proof/Laws/State.lean ====
section
/-!
SUPPORT. What each basic operation leaves alone, one lemma per field and update, and what a step's answer holds. Register reads
are brought to one form, `rget` over the register store, so that an update of another field falls away by computation.
-/
namespace Sys2Proof.Machine

/-! ### `setReg` -/

@[simp] theorem setReg_tbl (d : Dev) (a v : Nat) : (d.setReg a v).tbl = d.tbl := rfl
@[simp] theorem setReg_hostMem (d : Dev) (a v : Nat) : (d.setReg a v).hostMem = d.hostMem := rfl
@[simp] theorem setReg_out (d : Dev) (a v : Nat) : (d.setReg a v).out = d.out := rfl
@[simp] theorem setReg_free (d : Dev) (a v : Nat) : (d.setReg a v).free = d.free := rfl
@[simp] theorem setReg_anvil (d : Dev) (a v : Nat) : (d.setReg a v).anvil = d.anvil := rfl
@[simp] theorem setReg_fwd (d : Dev) (a v : Nat) : (d.setReg a v).fwd = d.fwd := rfl
@[simp] theorem setReg_tables (d : Dev) (a v : Nat) : (d.setReg a v).tables = d.tables := rfl
@[simp] theorem setReg_ste (d : Dev) (a v : Nat) : (d.setReg a v).ste = d.ste := rfl
@[simp] theorem setReg_can (d : Dev) (a v : Nat) : (d.setReg a v).can = d.can := rfl
@[simp] theorem setReg_lin (d : Dev) (a v : Nat) : (d.setReg a v).lin = d.lin := rfl
@[simp] theorem setReg_eth (d : Dev) (a v : Nat) : (d.setReg a v).eth = d.eth := rfl
@[simp] theorem setReg_time (d : Dev) (a v : Nat) : (d.setReg a v).time = d.time := rfl
@[simp] theorem setReg_xpt (d : Dev) (a v : Nat) : (d.setReg a v).xpt = d.xpt := rfl
@[simp] theorem setReg_cry (d : Dev) (a v : Nat) : (d.setReg a v).cry = d.cry := rfl
@[simp] theorem setReg_vault (d : Dev) (a v : Nat) : (d.setReg a v).vault = d.vault := rfl
@[simp] theorem setReg_nm (d : Dev) (a v : Nat) : (d.setReg a v).nm = d.nm := rfl
@[simp] theorem setReg_load (d : Dev) (a v : Nat) : (d.setReg a v).load = d.load := rfl
@[simp] theorem setReg_host (d : Dev) (a v : Nat) : (d.setReg a v).host = d.host := rfl
@[simp] theorem setReg_bus (d : Dev) (a v : Nat) : (d.setReg a v).bus = d.bus := rfl
@[simp] theorem setReg_flt (d : Dev) (a v : Nat) : (d.setReg a v).flt = d.flt := rfl
@[simp] theorem setReg_boot (d : Dev) (a v : Nat) : (d.setReg a v).boot = d.boot := rfl
@[simp] theorem setReg_pwr (d : Dev) (a v : Nat) : (d.setReg a v).pwr = d.pwr := rfl

/-! ### `set` -/

@[simp] theorem set_tbl (d : Dev) (f : FieldRef) (v : Nat) : (d.set f v).tbl = d.tbl := by unfold Dev.set; split <;> rfl
@[simp] theorem set_hostMem (d : Dev) (f : FieldRef) (v : Nat) : (d.set f v).hostMem = d.hostMem := by unfold Dev.set; split <;> rfl
@[simp] theorem set_out (d : Dev) (f : FieldRef) (v : Nat) : (d.set f v).out = d.out := by unfold Dev.set; split <;> rfl
@[simp] theorem set_free (d : Dev) (f : FieldRef) (v : Nat) : (d.set f v).free = d.free := by unfold Dev.set; split <;> rfl
@[simp] theorem set_anvil (d : Dev) (f : FieldRef) (v : Nat) : (d.set f v).anvil = d.anvil := by unfold Dev.set; split <;> rfl
@[simp] theorem set_fwd (d : Dev) (f : FieldRef) (v : Nat) : (d.set f v).fwd = d.fwd := by unfold Dev.set; split <;> rfl
@[simp] theorem set_tables (d : Dev) (f : FieldRef) (v : Nat) : (d.set f v).tables = d.tables := by unfold Dev.set; split <;> rfl
@[simp] theorem set_ste (d : Dev) (f : FieldRef) (v : Nat) : (d.set f v).ste = d.ste := by unfold Dev.set; split <;> rfl
@[simp] theorem set_can (d : Dev) (f : FieldRef) (v : Nat) : (d.set f v).can = d.can := by unfold Dev.set; split <;> rfl
@[simp] theorem set_lin (d : Dev) (f : FieldRef) (v : Nat) : (d.set f v).lin = d.lin := by unfold Dev.set; split <;> rfl
@[simp] theorem set_eth (d : Dev) (f : FieldRef) (v : Nat) : (d.set f v).eth = d.eth := by unfold Dev.set; split <;> rfl
@[simp] theorem set_time (d : Dev) (f : FieldRef) (v : Nat) : (d.set f v).time = d.time := by unfold Dev.set; split <;> rfl
@[simp] theorem set_xpt (d : Dev) (f : FieldRef) (v : Nat) : (d.set f v).xpt = d.xpt := by unfold Dev.set; split <;> rfl
@[simp] theorem set_cry (d : Dev) (f : FieldRef) (v : Nat) : (d.set f v).cry = d.cry := by unfold Dev.set; split <;> rfl
@[simp] theorem set_vault (d : Dev) (f : FieldRef) (v : Nat) : (d.set f v).vault = d.vault := by unfold Dev.set; split <;> rfl
@[simp] theorem set_nm (d : Dev) (f : FieldRef) (v : Nat) : (d.set f v).nm = d.nm := by unfold Dev.set; split <;> rfl
@[simp] theorem set_load (d : Dev) (f : FieldRef) (v : Nat) : (d.set f v).load = d.load := by unfold Dev.set; split <;> rfl
@[simp] theorem set_host (d : Dev) (f : FieldRef) (v : Nat) : (d.set f v).host = d.host := by unfold Dev.set; split <;> rfl
@[simp] theorem set_bus (d : Dev) (f : FieldRef) (v : Nat) : (d.set f v).bus = d.bus := by unfold Dev.set; split <;> rfl
@[simp] theorem set_flt (d : Dev) (f : FieldRef) (v : Nat) : (d.set f v).flt = d.flt := by unfold Dev.set; split <;> rfl
@[simp] theorem set_boot (d : Dev) (f : FieldRef) (v : Nat) : (d.set f v).boot = d.boot := by unfold Dev.set; split <;> rfl
@[simp] theorem set_pwr (d : Dev) (f : FieldRef) (v : Nat) : (d.set f v).pwr = d.pwr := by unfold Dev.set; split <;> rfl

/-! ### `add` -/

@[simp] theorem add_tbl (d : Dev) (f : FieldRef) (n : Nat) : (d.add f n).tbl = d.tbl := by simp [Dev.add]
@[simp] theorem add_hostMem (d : Dev) (f : FieldRef) (n : Nat) : (d.add f n).hostMem = d.hostMem := by simp [Dev.add]
@[simp] theorem add_out (d : Dev) (f : FieldRef) (n : Nat) : (d.add f n).out = d.out := by simp [Dev.add]
@[simp] theorem add_free (d : Dev) (f : FieldRef) (n : Nat) : (d.add f n).free = d.free := by simp [Dev.add]
@[simp] theorem add_anvil (d : Dev) (f : FieldRef) (n : Nat) : (d.add f n).anvil = d.anvil := by simp [Dev.add]
@[simp] theorem add_fwd (d : Dev) (f : FieldRef) (n : Nat) : (d.add f n).fwd = d.fwd := by simp [Dev.add]
@[simp] theorem add_tables (d : Dev) (f : FieldRef) (n : Nat) : (d.add f n).tables = d.tables := by simp [Dev.add]
@[simp] theorem add_ste (d : Dev) (f : FieldRef) (n : Nat) : (d.add f n).ste = d.ste := by simp [Dev.add]
@[simp] theorem add_can (d : Dev) (f : FieldRef) (n : Nat) : (d.add f n).can = d.can := by simp [Dev.add]
@[simp] theorem add_lin (d : Dev) (f : FieldRef) (n : Nat) : (d.add f n).lin = d.lin := by simp [Dev.add]
@[simp] theorem add_eth (d : Dev) (f : FieldRef) (n : Nat) : (d.add f n).eth = d.eth := by simp [Dev.add]
@[simp] theorem add_time (d : Dev) (f : FieldRef) (n : Nat) : (d.add f n).time = d.time := by simp [Dev.add]
@[simp] theorem add_xpt (d : Dev) (f : FieldRef) (n : Nat) : (d.add f n).xpt = d.xpt := by simp [Dev.add]
@[simp] theorem add_cry (d : Dev) (f : FieldRef) (n : Nat) : (d.add f n).cry = d.cry := by simp [Dev.add]
@[simp] theorem add_vault (d : Dev) (f : FieldRef) (n : Nat) : (d.add f n).vault = d.vault := by simp [Dev.add]
@[simp] theorem add_nm (d : Dev) (f : FieldRef) (n : Nat) : (d.add f n).nm = d.nm := by simp [Dev.add]
@[simp] theorem add_load (d : Dev) (f : FieldRef) (n : Nat) : (d.add f n).load = d.load := by simp [Dev.add]
@[simp] theorem add_host (d : Dev) (f : FieldRef) (n : Nat) : (d.add f n).host = d.host := by simp [Dev.add]
@[simp] theorem add_bus (d : Dev) (f : FieldRef) (n : Nat) : (d.add f n).bus = d.bus := by simp [Dev.add]
@[simp] theorem add_flt (d : Dev) (f : FieldRef) (n : Nat) : (d.add f n).flt = d.flt := by simp [Dev.add]
@[simp] theorem add_boot (d : Dev) (f : FieldRef) (n : Nat) : (d.add f n).boot = d.boot := by simp [Dev.add]
@[simp] theorem add_pwr (d : Dev) (f : FieldRef) (n : Nat) : (d.add f n).pwr = d.pwr := by simp [Dev.add]

/-! ### `inc` -/

@[simp] theorem inc_tbl (d : Dev) (f : FieldRef) : (d.inc f).tbl = d.tbl := by simp [Dev.inc]
@[simp] theorem inc_hostMem (d : Dev) (f : FieldRef) : (d.inc f).hostMem = d.hostMem := by simp [Dev.inc]
@[simp] theorem inc_out (d : Dev) (f : FieldRef) : (d.inc f).out = d.out := by simp [Dev.inc]
@[simp] theorem inc_free (d : Dev) (f : FieldRef) : (d.inc f).free = d.free := by simp [Dev.inc]
@[simp] theorem inc_anvil (d : Dev) (f : FieldRef) : (d.inc f).anvil = d.anvil := by simp [Dev.inc]
@[simp] theorem inc_fwd (d : Dev) (f : FieldRef) : (d.inc f).fwd = d.fwd := by simp [Dev.inc]
@[simp] theorem inc_tables (d : Dev) (f : FieldRef) : (d.inc f).tables = d.tables := by simp [Dev.inc]
@[simp] theorem inc_ste (d : Dev) (f : FieldRef) : (d.inc f).ste = d.ste := by simp [Dev.inc]
@[simp] theorem inc_can (d : Dev) (f : FieldRef) : (d.inc f).can = d.can := by simp [Dev.inc]
@[simp] theorem inc_lin (d : Dev) (f : FieldRef) : (d.inc f).lin = d.lin := by simp [Dev.inc]
@[simp] theorem inc_eth (d : Dev) (f : FieldRef) : (d.inc f).eth = d.eth := by simp [Dev.inc]
@[simp] theorem inc_time (d : Dev) (f : FieldRef) : (d.inc f).time = d.time := by simp [Dev.inc]
@[simp] theorem inc_xpt (d : Dev) (f : FieldRef) : (d.inc f).xpt = d.xpt := by simp [Dev.inc]
@[simp] theorem inc_cry (d : Dev) (f : FieldRef) : (d.inc f).cry = d.cry := by simp [Dev.inc]
@[simp] theorem inc_vault (d : Dev) (f : FieldRef) : (d.inc f).vault = d.vault := by simp [Dev.inc]
@[simp] theorem inc_nm (d : Dev) (f : FieldRef) : (d.inc f).nm = d.nm := by simp [Dev.inc]
@[simp] theorem inc_load (d : Dev) (f : FieldRef) : (d.inc f).load = d.load := by simp [Dev.inc]
@[simp] theorem inc_host (d : Dev) (f : FieldRef) : (d.inc f).host = d.host := by simp [Dev.inc]
@[simp] theorem inc_bus (d : Dev) (f : FieldRef) : (d.inc f).bus = d.bus := by simp [Dev.inc]
@[simp] theorem inc_flt (d : Dev) (f : FieldRef) : (d.inc f).flt = d.flt := by simp [Dev.inc]
@[simp] theorem inc_boot (d : Dev) (f : FieldRef) : (d.inc f).boot = d.boot := by simp [Dev.inc]
@[simp] theorem inc_pwr (d : Dev) (f : FieldRef) : (d.inc f).pwr = d.pwr := by simp [Dev.inc]

/-! ### `dec` -/

@[simp] theorem dec_tbl (d : Dev) (f : FieldRef) : (d.dec f).tbl = d.tbl := by simp [Dev.dec]
@[simp] theorem dec_hostMem (d : Dev) (f : FieldRef) : (d.dec f).hostMem = d.hostMem := by simp [Dev.dec]
@[simp] theorem dec_out (d : Dev) (f : FieldRef) : (d.dec f).out = d.out := by simp [Dev.dec]
@[simp] theorem dec_free (d : Dev) (f : FieldRef) : (d.dec f).free = d.free := by simp [Dev.dec]
@[simp] theorem dec_anvil (d : Dev) (f : FieldRef) : (d.dec f).anvil = d.anvil := by simp [Dev.dec]
@[simp] theorem dec_fwd (d : Dev) (f : FieldRef) : (d.dec f).fwd = d.fwd := by simp [Dev.dec]
@[simp] theorem dec_tables (d : Dev) (f : FieldRef) : (d.dec f).tables = d.tables := by simp [Dev.dec]
@[simp] theorem dec_ste (d : Dev) (f : FieldRef) : (d.dec f).ste = d.ste := by simp [Dev.dec]
@[simp] theorem dec_can (d : Dev) (f : FieldRef) : (d.dec f).can = d.can := by simp [Dev.dec]
@[simp] theorem dec_lin (d : Dev) (f : FieldRef) : (d.dec f).lin = d.lin := by simp [Dev.dec]
@[simp] theorem dec_eth (d : Dev) (f : FieldRef) : (d.dec f).eth = d.eth := by simp [Dev.dec]
@[simp] theorem dec_time (d : Dev) (f : FieldRef) : (d.dec f).time = d.time := by simp [Dev.dec]
@[simp] theorem dec_xpt (d : Dev) (f : FieldRef) : (d.dec f).xpt = d.xpt := by simp [Dev.dec]
@[simp] theorem dec_cry (d : Dev) (f : FieldRef) : (d.dec f).cry = d.cry := by simp [Dev.dec]
@[simp] theorem dec_vault (d : Dev) (f : FieldRef) : (d.dec f).vault = d.vault := by simp [Dev.dec]
@[simp] theorem dec_nm (d : Dev) (f : FieldRef) : (d.dec f).nm = d.nm := by simp [Dev.dec]
@[simp] theorem dec_load (d : Dev) (f : FieldRef) : (d.dec f).load = d.load := by simp [Dev.dec]
@[simp] theorem dec_host (d : Dev) (f : FieldRef) : (d.dec f).host = d.host := by simp [Dev.dec]
@[simp] theorem dec_bus (d : Dev) (f : FieldRef) : (d.dec f).bus = d.bus := by simp [Dev.dec]
@[simp] theorem dec_flt (d : Dev) (f : FieldRef) : (d.dec f).flt = d.flt := by simp [Dev.dec]
@[simp] theorem dec_boot (d : Dev) (f : FieldRef) : (d.dec f).boot = d.boot := by simp [Dev.dec]
@[simp] theorem dec_pwr (d : Dev) (f : FieldRef) : (d.dec f).pwr = d.pwr := by simp [Dev.dec]

/-! ### `setBitOf` -/

@[simp] theorem setBitOf_tbl (d : Dev) (f : FieldRef) (i : Nat) (b : Bool) : (d.setBitOf f i b).tbl = d.tbl := by simp [Dev.setBitOf]
@[simp] theorem setBitOf_hostMem (d : Dev) (f : FieldRef) (i : Nat) (b : Bool) : (d.setBitOf f i b).hostMem = d.hostMem := by simp [Dev.setBitOf]
@[simp] theorem setBitOf_out (d : Dev) (f : FieldRef) (i : Nat) (b : Bool) : (d.setBitOf f i b).out = d.out := by simp [Dev.setBitOf]
@[simp] theorem setBitOf_free (d : Dev) (f : FieldRef) (i : Nat) (b : Bool) : (d.setBitOf f i b).free = d.free := by simp [Dev.setBitOf]
@[simp] theorem setBitOf_anvil (d : Dev) (f : FieldRef) (i : Nat) (b : Bool) : (d.setBitOf f i b).anvil = d.anvil := by simp [Dev.setBitOf]
@[simp] theorem setBitOf_fwd (d : Dev) (f : FieldRef) (i : Nat) (b : Bool) : (d.setBitOf f i b).fwd = d.fwd := by simp [Dev.setBitOf]
@[simp] theorem setBitOf_tables (d : Dev) (f : FieldRef) (i : Nat) (b : Bool) : (d.setBitOf f i b).tables = d.tables := by simp [Dev.setBitOf]
@[simp] theorem setBitOf_ste (d : Dev) (f : FieldRef) (i : Nat) (b : Bool) : (d.setBitOf f i b).ste = d.ste := by simp [Dev.setBitOf]
@[simp] theorem setBitOf_can (d : Dev) (f : FieldRef) (i : Nat) (b : Bool) : (d.setBitOf f i b).can = d.can := by simp [Dev.setBitOf]
@[simp] theorem setBitOf_lin (d : Dev) (f : FieldRef) (i : Nat) (b : Bool) : (d.setBitOf f i b).lin = d.lin := by simp [Dev.setBitOf]
@[simp] theorem setBitOf_eth (d : Dev) (f : FieldRef) (i : Nat) (b : Bool) : (d.setBitOf f i b).eth = d.eth := by simp [Dev.setBitOf]
@[simp] theorem setBitOf_time (d : Dev) (f : FieldRef) (i : Nat) (b : Bool) : (d.setBitOf f i b).time = d.time := by simp [Dev.setBitOf]
@[simp] theorem setBitOf_xpt (d : Dev) (f : FieldRef) (i : Nat) (b : Bool) : (d.setBitOf f i b).xpt = d.xpt := by simp [Dev.setBitOf]
@[simp] theorem setBitOf_cry (d : Dev) (f : FieldRef) (i : Nat) (b : Bool) : (d.setBitOf f i b).cry = d.cry := by simp [Dev.setBitOf]
@[simp] theorem setBitOf_vault (d : Dev) (f : FieldRef) (i : Nat) (b : Bool) : (d.setBitOf f i b).vault = d.vault := by simp [Dev.setBitOf]
@[simp] theorem setBitOf_nm (d : Dev) (f : FieldRef) (i : Nat) (b : Bool) : (d.setBitOf f i b).nm = d.nm := by simp [Dev.setBitOf]
@[simp] theorem setBitOf_load (d : Dev) (f : FieldRef) (i : Nat) (b : Bool) : (d.setBitOf f i b).load = d.load := by simp [Dev.setBitOf]
@[simp] theorem setBitOf_host (d : Dev) (f : FieldRef) (i : Nat) (b : Bool) : (d.setBitOf f i b).host = d.host := by simp [Dev.setBitOf]
@[simp] theorem setBitOf_bus (d : Dev) (f : FieldRef) (i : Nat) (b : Bool) : (d.setBitOf f i b).bus = d.bus := by simp [Dev.setBitOf]
@[simp] theorem setBitOf_flt (d : Dev) (f : FieldRef) (i : Nat) (b : Bool) : (d.setBitOf f i b).flt = d.flt := by simp [Dev.setBitOf]
@[simp] theorem setBitOf_boot (d : Dev) (f : FieldRef) (i : Nat) (b : Bool) : (d.setBitOf f i b).boot = d.boot := by simp [Dev.setBitOf]
@[simp] theorem setBitOf_pwr (d : Dev) (f : FieldRef) (i : Nat) (b : Bool) : (d.setBitOf f i b).pwr = d.pwr := by simp [Dev.setBitOf]

/-! ### `resetRegs` -/

@[simp] theorem resetRegs_tbl (d : Dev) (lo hi : Nat) : (d.resetRegs lo hi).tbl = d.tbl := rfl
@[simp] theorem resetRegs_hostMem (d : Dev) (lo hi : Nat) : (d.resetRegs lo hi).hostMem = d.hostMem := rfl
@[simp] theorem resetRegs_out (d : Dev) (lo hi : Nat) : (d.resetRegs lo hi).out = d.out := rfl
@[simp] theorem resetRegs_free (d : Dev) (lo hi : Nat) : (d.resetRegs lo hi).free = d.free := rfl
@[simp] theorem resetRegs_anvil (d : Dev) (lo hi : Nat) : (d.resetRegs lo hi).anvil = d.anvil := rfl
@[simp] theorem resetRegs_fwd (d : Dev) (lo hi : Nat) : (d.resetRegs lo hi).fwd = d.fwd := rfl
@[simp] theorem resetRegs_tables (d : Dev) (lo hi : Nat) : (d.resetRegs lo hi).tables = d.tables := rfl
@[simp] theorem resetRegs_ste (d : Dev) (lo hi : Nat) : (d.resetRegs lo hi).ste = d.ste := rfl
@[simp] theorem resetRegs_can (d : Dev) (lo hi : Nat) : (d.resetRegs lo hi).can = d.can := rfl
@[simp] theorem resetRegs_lin (d : Dev) (lo hi : Nat) : (d.resetRegs lo hi).lin = d.lin := rfl
@[simp] theorem resetRegs_eth (d : Dev) (lo hi : Nat) : (d.resetRegs lo hi).eth = d.eth := rfl
@[simp] theorem resetRegs_time (d : Dev) (lo hi : Nat) : (d.resetRegs lo hi).time = d.time := rfl
@[simp] theorem resetRegs_xpt (d : Dev) (lo hi : Nat) : (d.resetRegs lo hi).xpt = d.xpt := rfl
@[simp] theorem resetRegs_cry (d : Dev) (lo hi : Nat) : (d.resetRegs lo hi).cry = d.cry := rfl
@[simp] theorem resetRegs_vault (d : Dev) (lo hi : Nat) : (d.resetRegs lo hi).vault = d.vault := rfl
@[simp] theorem resetRegs_nm (d : Dev) (lo hi : Nat) : (d.resetRegs lo hi).nm = d.nm := rfl
@[simp] theorem resetRegs_load (d : Dev) (lo hi : Nat) : (d.resetRegs lo hi).load = d.load := rfl
@[simp] theorem resetRegs_host (d : Dev) (lo hi : Nat) : (d.resetRegs lo hi).host = d.host := rfl
@[simp] theorem resetRegs_bus (d : Dev) (lo hi : Nat) : (d.resetRegs lo hi).bus = d.bus := rfl
@[simp] theorem resetRegs_flt (d : Dev) (lo hi : Nat) : (d.resetRegs lo hi).flt = d.flt := rfl
@[simp] theorem resetRegs_boot (d : Dev) (lo hi : Nat) : (d.resetRegs lo hi).boot = d.boot := rfl
@[simp] theorem resetRegs_pwr (d : Dev) (lo hi : Nat) : (d.resetRegs lo hi).pwr = d.pwr := rfl

/-! ### `tset` -/

@[simp] theorem tset_regs (d : Dev) (m c i v : Nat) : (d.tset m c i v).regs = d.regs := rfl
@[simp] theorem tset_hostMem (d : Dev) (m c i v : Nat) : (d.tset m c i v).hostMem = d.hostMem := rfl
@[simp] theorem tset_out (d : Dev) (m c i v : Nat) : (d.tset m c i v).out = d.out := rfl
@[simp] theorem tset_free (d : Dev) (m c i v : Nat) : (d.tset m c i v).free = d.free := rfl
@[simp] theorem tset_anvil (d : Dev) (m c i v : Nat) : (d.tset m c i v).anvil = d.anvil := rfl
@[simp] theorem tset_fwd (d : Dev) (m c i v : Nat) : (d.tset m c i v).fwd = d.fwd := rfl
@[simp] theorem tset_tables (d : Dev) (m c i v : Nat) : (d.tset m c i v).tables = d.tables := rfl
@[simp] theorem tset_ste (d : Dev) (m c i v : Nat) : (d.tset m c i v).ste = d.ste := rfl
@[simp] theorem tset_can (d : Dev) (m c i v : Nat) : (d.tset m c i v).can = d.can := rfl
@[simp] theorem tset_lin (d : Dev) (m c i v : Nat) : (d.tset m c i v).lin = d.lin := rfl
@[simp] theorem tset_eth (d : Dev) (m c i v : Nat) : (d.tset m c i v).eth = d.eth := rfl
@[simp] theorem tset_time (d : Dev) (m c i v : Nat) : (d.tset m c i v).time = d.time := rfl
@[simp] theorem tset_xpt (d : Dev) (m c i v : Nat) : (d.tset m c i v).xpt = d.xpt := rfl
@[simp] theorem tset_cry (d : Dev) (m c i v : Nat) : (d.tset m c i v).cry = d.cry := rfl
@[simp] theorem tset_vault (d : Dev) (m c i v : Nat) : (d.tset m c i v).vault = d.vault := rfl
@[simp] theorem tset_nm (d : Dev) (m c i v : Nat) : (d.tset m c i v).nm = d.nm := rfl
@[simp] theorem tset_load (d : Dev) (m c i v : Nat) : (d.tset m c i v).load = d.load := rfl
@[simp] theorem tset_host (d : Dev) (m c i v : Nat) : (d.tset m c i v).host = d.host := rfl
@[simp] theorem tset_bus (d : Dev) (m c i v : Nat) : (d.tset m c i v).bus = d.bus := rfl
@[simp] theorem tset_flt (d : Dev) (m c i v : Nat) : (d.tset m c i v).flt = d.flt := rfl
@[simp] theorem tset_boot (d : Dev) (m c i v : Nat) : (d.tset m c i v).boot = d.boot := rfl
@[simp] theorem tset_pwr (d : Dev) (m c i v : Nat) : (d.tset m c i v).pwr = d.pwr := rfl

/-! ### `tclear` -/

@[simp] theorem tclear_regs (d : Dev) (m c : Nat) : (d.tclear m c).regs = d.regs := rfl
@[simp] theorem tclear_hostMem (d : Dev) (m c : Nat) : (d.tclear m c).hostMem = d.hostMem := rfl
@[simp] theorem tclear_out (d : Dev) (m c : Nat) : (d.tclear m c).out = d.out := rfl
@[simp] theorem tclear_free (d : Dev) (m c : Nat) : (d.tclear m c).free = d.free := rfl
@[simp] theorem tclear_anvil (d : Dev) (m c : Nat) : (d.tclear m c).anvil = d.anvil := rfl
@[simp] theorem tclear_fwd (d : Dev) (m c : Nat) : (d.tclear m c).fwd = d.fwd := rfl
@[simp] theorem tclear_tables (d : Dev) (m c : Nat) : (d.tclear m c).tables = d.tables := rfl
@[simp] theorem tclear_ste (d : Dev) (m c : Nat) : (d.tclear m c).ste = d.ste := rfl
@[simp] theorem tclear_can (d : Dev) (m c : Nat) : (d.tclear m c).can = d.can := rfl
@[simp] theorem tclear_lin (d : Dev) (m c : Nat) : (d.tclear m c).lin = d.lin := rfl
@[simp] theorem tclear_eth (d : Dev) (m c : Nat) : (d.tclear m c).eth = d.eth := rfl
@[simp] theorem tclear_time (d : Dev) (m c : Nat) : (d.tclear m c).time = d.time := rfl
@[simp] theorem tclear_xpt (d : Dev) (m c : Nat) : (d.tclear m c).xpt = d.xpt := rfl
@[simp] theorem tclear_cry (d : Dev) (m c : Nat) : (d.tclear m c).cry = d.cry := rfl
@[simp] theorem tclear_vault (d : Dev) (m c : Nat) : (d.tclear m c).vault = d.vault := rfl
@[simp] theorem tclear_nm (d : Dev) (m c : Nat) : (d.tclear m c).nm = d.nm := rfl
@[simp] theorem tclear_load (d : Dev) (m c : Nat) : (d.tclear m c).load = d.load := rfl
@[simp] theorem tclear_host (d : Dev) (m c : Nat) : (d.tclear m c).host = d.host := rfl
@[simp] theorem tclear_bus (d : Dev) (m c : Nat) : (d.tclear m c).bus = d.bus := rfl
@[simp] theorem tclear_flt (d : Dev) (m c : Nat) : (d.tclear m c).flt = d.flt := rfl
@[simp] theorem tclear_boot (d : Dev) (m c : Nat) : (d.tclear m c).boot = d.boot := rfl
@[simp] theorem tclear_pwr (d : Dev) (m c : Nat) : (d.tclear m c).pwr = d.pwr := rfl

/-! ### `hostPut` -/

@[simp] theorem hostPut_regs (d : Dev) (a : Nat) (b : Byte) : (d.hostPut a b).regs = d.regs := rfl
@[simp] theorem hostPut_tbl (d : Dev) (a : Nat) (b : Byte) : (d.hostPut a b).tbl = d.tbl := rfl
@[simp] theorem hostPut_out (d : Dev) (a : Nat) (b : Byte) : (d.hostPut a b).out = d.out := rfl
@[simp] theorem hostPut_free (d : Dev) (a : Nat) (b : Byte) : (d.hostPut a b).free = d.free := rfl
@[simp] theorem hostPut_anvil (d : Dev) (a : Nat) (b : Byte) : (d.hostPut a b).anvil = d.anvil := rfl
@[simp] theorem hostPut_fwd (d : Dev) (a : Nat) (b : Byte) : (d.hostPut a b).fwd = d.fwd := rfl
@[simp] theorem hostPut_tables (d : Dev) (a : Nat) (b : Byte) : (d.hostPut a b).tables = d.tables := rfl
@[simp] theorem hostPut_ste (d : Dev) (a : Nat) (b : Byte) : (d.hostPut a b).ste = d.ste := rfl
@[simp] theorem hostPut_can (d : Dev) (a : Nat) (b : Byte) : (d.hostPut a b).can = d.can := rfl
@[simp] theorem hostPut_lin (d : Dev) (a : Nat) (b : Byte) : (d.hostPut a b).lin = d.lin := rfl
@[simp] theorem hostPut_eth (d : Dev) (a : Nat) (b : Byte) : (d.hostPut a b).eth = d.eth := rfl
@[simp] theorem hostPut_time (d : Dev) (a : Nat) (b : Byte) : (d.hostPut a b).time = d.time := rfl
@[simp] theorem hostPut_xpt (d : Dev) (a : Nat) (b : Byte) : (d.hostPut a b).xpt = d.xpt := rfl
@[simp] theorem hostPut_cry (d : Dev) (a : Nat) (b : Byte) : (d.hostPut a b).cry = d.cry := rfl
@[simp] theorem hostPut_vault (d : Dev) (a : Nat) (b : Byte) : (d.hostPut a b).vault = d.vault := rfl
@[simp] theorem hostPut_nm (d : Dev) (a : Nat) (b : Byte) : (d.hostPut a b).nm = d.nm := rfl
@[simp] theorem hostPut_load (d : Dev) (a : Nat) (b : Byte) : (d.hostPut a b).load = d.load := rfl
@[simp] theorem hostPut_host (d : Dev) (a : Nat) (b : Byte) : (d.hostPut a b).host = d.host := rfl
@[simp] theorem hostPut_bus (d : Dev) (a : Nat) (b : Byte) : (d.hostPut a b).bus = d.bus := rfl
@[simp] theorem hostPut_flt (d : Dev) (a : Nat) (b : Byte) : (d.hostPut a b).flt = d.flt := rfl
@[simp] theorem hostPut_boot (d : Dev) (a : Nat) (b : Byte) : (d.hostPut a b).boot = d.boot := rfl
@[simp] theorem hostPut_pwr (d : Dev) (a : Nat) (b : Byte) : (d.hostPut a b).pwr = d.pwr := rfl

/-! ### `hostWrite` -/

@[simp] theorem hostWrite_regs (d : Dev) (a : Nat) (bs : List Byte) : (d.hostWrite a bs).regs = d.regs := by
  induction bs generalizing d a with
  | nil => rfl
  | cons b bs ih => simp [Dev.hostWrite, ih]
@[simp] theorem hostWrite_tbl (d : Dev) (a : Nat) (bs : List Byte) : (d.hostWrite a bs).tbl = d.tbl := by
  induction bs generalizing d a with
  | nil => rfl
  | cons b bs ih => simp [Dev.hostWrite, ih]
@[simp] theorem hostWrite_out (d : Dev) (a : Nat) (bs : List Byte) : (d.hostWrite a bs).out = d.out := by
  induction bs generalizing d a with
  | nil => rfl
  | cons b bs ih => simp [Dev.hostWrite, ih]
@[simp] theorem hostWrite_free (d : Dev) (a : Nat) (bs : List Byte) : (d.hostWrite a bs).free = d.free := by
  induction bs generalizing d a with
  | nil => rfl
  | cons b bs ih => simp [Dev.hostWrite, ih]
@[simp] theorem hostWrite_anvil (d : Dev) (a : Nat) (bs : List Byte) : (d.hostWrite a bs).anvil = d.anvil := by
  induction bs generalizing d a with
  | nil => rfl
  | cons b bs ih => simp [Dev.hostWrite, ih]
@[simp] theorem hostWrite_fwd (d : Dev) (a : Nat) (bs : List Byte) : (d.hostWrite a bs).fwd = d.fwd := by
  induction bs generalizing d a with
  | nil => rfl
  | cons b bs ih => simp [Dev.hostWrite, ih]
@[simp] theorem hostWrite_tables (d : Dev) (a : Nat) (bs : List Byte) : (d.hostWrite a bs).tables = d.tables := by
  induction bs generalizing d a with
  | nil => rfl
  | cons b bs ih => simp [Dev.hostWrite, ih]
@[simp] theorem hostWrite_ste (d : Dev) (a : Nat) (bs : List Byte) : (d.hostWrite a bs).ste = d.ste := by
  induction bs generalizing d a with
  | nil => rfl
  | cons b bs ih => simp [Dev.hostWrite, ih]
@[simp] theorem hostWrite_can (d : Dev) (a : Nat) (bs : List Byte) : (d.hostWrite a bs).can = d.can := by
  induction bs generalizing d a with
  | nil => rfl
  | cons b bs ih => simp [Dev.hostWrite, ih]
@[simp] theorem hostWrite_lin (d : Dev) (a : Nat) (bs : List Byte) : (d.hostWrite a bs).lin = d.lin := by
  induction bs generalizing d a with
  | nil => rfl
  | cons b bs ih => simp [Dev.hostWrite, ih]
@[simp] theorem hostWrite_eth (d : Dev) (a : Nat) (bs : List Byte) : (d.hostWrite a bs).eth = d.eth := by
  induction bs generalizing d a with
  | nil => rfl
  | cons b bs ih => simp [Dev.hostWrite, ih]
@[simp] theorem hostWrite_time (d : Dev) (a : Nat) (bs : List Byte) : (d.hostWrite a bs).time = d.time := by
  induction bs generalizing d a with
  | nil => rfl
  | cons b bs ih => simp [Dev.hostWrite, ih]
@[simp] theorem hostWrite_xpt (d : Dev) (a : Nat) (bs : List Byte) : (d.hostWrite a bs).xpt = d.xpt := by
  induction bs generalizing d a with
  | nil => rfl
  | cons b bs ih => simp [Dev.hostWrite, ih]
@[simp] theorem hostWrite_cry (d : Dev) (a : Nat) (bs : List Byte) : (d.hostWrite a bs).cry = d.cry := by
  induction bs generalizing d a with
  | nil => rfl
  | cons b bs ih => simp [Dev.hostWrite, ih]
@[simp] theorem hostWrite_vault (d : Dev) (a : Nat) (bs : List Byte) : (d.hostWrite a bs).vault = d.vault := by
  induction bs generalizing d a with
  | nil => rfl
  | cons b bs ih => simp [Dev.hostWrite, ih]
@[simp] theorem hostWrite_nm (d : Dev) (a : Nat) (bs : List Byte) : (d.hostWrite a bs).nm = d.nm := by
  induction bs generalizing d a with
  | nil => rfl
  | cons b bs ih => simp [Dev.hostWrite, ih]
@[simp] theorem hostWrite_load (d : Dev) (a : Nat) (bs : List Byte) : (d.hostWrite a bs).load = d.load := by
  induction bs generalizing d a with
  | nil => rfl
  | cons b bs ih => simp [Dev.hostWrite, ih]
@[simp] theorem hostWrite_host (d : Dev) (a : Nat) (bs : List Byte) : (d.hostWrite a bs).host = d.host := by
  induction bs generalizing d a with
  | nil => rfl
  | cons b bs ih => simp [Dev.hostWrite, ih]
@[simp] theorem hostWrite_bus (d : Dev) (a : Nat) (bs : List Byte) : (d.hostWrite a bs).bus = d.bus := by
  induction bs generalizing d a with
  | nil => rfl
  | cons b bs ih => simp [Dev.hostWrite, ih]
@[simp] theorem hostWrite_flt (d : Dev) (a : Nat) (bs : List Byte) : (d.hostWrite a bs).flt = d.flt := by
  induction bs generalizing d a with
  | nil => rfl
  | cons b bs ih => simp [Dev.hostWrite, ih]
@[simp] theorem hostWrite_boot (d : Dev) (a : Nat) (bs : List Byte) : (d.hostWrite a bs).boot = d.boot := by
  induction bs generalizing d a with
  | nil => rfl
  | cons b bs ih => simp [Dev.hostWrite, ih]
@[simp] theorem hostWrite_pwr (d : Dev) (a : Nat) (bs : List Byte) : (d.hostWrite a bs).pwr = d.pwr := by
  induction bs generalizing d a with
  | nil => rfl
  | cons b bs ih => simp [Dev.hostWrite, ih]

/-! ### `emit` -/

@[simp] theorem emit_regs (d : Dev) (o : Output) : (d.emit o).regs = d.regs := by unfold Dev.emit; split <;> rfl
@[simp] theorem emit_tbl (d : Dev) (o : Output) : (d.emit o).tbl = d.tbl := by unfold Dev.emit; split <;> rfl
@[simp] theorem emit_hostMem (d : Dev) (o : Output) : (d.emit o).hostMem = d.hostMem := by unfold Dev.emit; split <;> rfl
@[simp] theorem emit_free (d : Dev) (o : Output) : (d.emit o).free = d.free := by unfold Dev.emit; split <;> rfl
@[simp] theorem emit_anvil (d : Dev) (o : Output) : (d.emit o).anvil = d.anvil := by unfold Dev.emit; split <;> rfl
@[simp] theorem emit_fwd (d : Dev) (o : Output) : (d.emit o).fwd = d.fwd := by unfold Dev.emit; split <;> rfl
@[simp] theorem emit_tables (d : Dev) (o : Output) : (d.emit o).tables = d.tables := by unfold Dev.emit; split <;> rfl
@[simp] theorem emit_ste (d : Dev) (o : Output) : (d.emit o).ste = d.ste := by unfold Dev.emit; split <;> rfl
@[simp] theorem emit_can (d : Dev) (o : Output) : (d.emit o).can = d.can := by unfold Dev.emit; split <;> rfl
@[simp] theorem emit_lin (d : Dev) (o : Output) : (d.emit o).lin = d.lin := by unfold Dev.emit; split <;> rfl
@[simp] theorem emit_eth (d : Dev) (o : Output) : (d.emit o).eth = d.eth := by unfold Dev.emit; split <;> rfl
@[simp] theorem emit_time (d : Dev) (o : Output) : (d.emit o).time = d.time := by unfold Dev.emit; split <;> rfl
@[simp] theorem emit_xpt (d : Dev) (o : Output) : (d.emit o).xpt = d.xpt := by unfold Dev.emit; split <;> rfl
@[simp] theorem emit_cry (d : Dev) (o : Output) : (d.emit o).cry = d.cry := by unfold Dev.emit; split <;> rfl
@[simp] theorem emit_vault (d : Dev) (o : Output) : (d.emit o).vault = d.vault := by unfold Dev.emit; split <;> rfl
@[simp] theorem emit_nm (d : Dev) (o : Output) : (d.emit o).nm = d.nm := by unfold Dev.emit; split <;> rfl
@[simp] theorem emit_load (d : Dev) (o : Output) : (d.emit o).load = d.load := by unfold Dev.emit; split <;> rfl
@[simp] theorem emit_host (d : Dev) (o : Output) : (d.emit o).host = d.host := by unfold Dev.emit; split <;> rfl
@[simp] theorem emit_bus (d : Dev) (o : Output) : (d.emit o).bus = d.bus := by unfold Dev.emit; split <;> rfl
@[simp] theorem emit_flt (d : Dev) (o : Output) : (d.emit o).flt = d.flt := by unfold Dev.emit; split <;> rfl
@[simp] theorem emit_boot (d : Dev) (o : Output) : (d.emit o).boot = d.boot := by unfold Dev.emit; split <;> rfl
@[simp] theorem emit_pwr (d : Dev) (o : Output) : (d.emit o).pwr = d.pwr := by unfold Dev.emit; split <;> rfl

/-! ### `tookFree` -/

@[simp] theorem tookFree_regs (d : Dev) : (d.tookFree).regs = d.regs := rfl
@[simp] theorem tookFree_tbl (d : Dev) : (d.tookFree).tbl = d.tbl := rfl
@[simp] theorem tookFree_hostMem (d : Dev) : (d.tookFree).hostMem = d.hostMem := rfl
@[simp] theorem tookFree_out (d : Dev) : (d.tookFree).out = d.out := rfl
@[simp] theorem tookFree_anvil (d : Dev) : (d.tookFree).anvil = d.anvil := rfl
@[simp] theorem tookFree_fwd (d : Dev) : (d.tookFree).fwd = d.fwd := rfl
@[simp] theorem tookFree_tables (d : Dev) : (d.tookFree).tables = d.tables := rfl
@[simp] theorem tookFree_ste (d : Dev) : (d.tookFree).ste = d.ste := rfl
@[simp] theorem tookFree_can (d : Dev) : (d.tookFree).can = d.can := rfl
@[simp] theorem tookFree_lin (d : Dev) : (d.tookFree).lin = d.lin := rfl
@[simp] theorem tookFree_eth (d : Dev) : (d.tookFree).eth = d.eth := rfl
@[simp] theorem tookFree_time (d : Dev) : (d.tookFree).time = d.time := rfl
@[simp] theorem tookFree_xpt (d : Dev) : (d.tookFree).xpt = d.xpt := rfl
@[simp] theorem tookFree_cry (d : Dev) : (d.tookFree).cry = d.cry := rfl
@[simp] theorem tookFree_vault (d : Dev) : (d.tookFree).vault = d.vault := rfl
@[simp] theorem tookFree_nm (d : Dev) : (d.tookFree).nm = d.nm := rfl
@[simp] theorem tookFree_load (d : Dev) : (d.tookFree).load = d.load := rfl
@[simp] theorem tookFree_host (d : Dev) : (d.tookFree).host = d.host := rfl
@[simp] theorem tookFree_bus (d : Dev) : (d.tookFree).bus = d.bus := rfl
@[simp] theorem tookFree_flt (d : Dev) : (d.tookFree).flt = d.flt := rfl
@[simp] theorem tookFree_boot (d : Dev) : (d.tookFree).boot = d.boot := rfl
@[simp] theorem tookFree_pwr (d : Dev) : (d.tookFree).pwr = d.pwr := rfl

/-! ### `elapse`, `advance` -/

@[simp] theorem elapse_tbl (d : Dev) (n : Nat) : (d.elapse n).tbl = d.tbl := by
  unfold Dev.elapse; dsimp only
  repeat' split
  all_goals simp
@[simp] theorem elapse_hostMem (d : Dev) (n : Nat) : (d.elapse n).hostMem = d.hostMem := by
  unfold Dev.elapse; dsimp only
  repeat' split
  all_goals simp
@[simp] theorem elapse_out (d : Dev) (n : Nat) : (d.elapse n).out = d.out := by
  unfold Dev.elapse; dsimp only
  repeat' split
  all_goals simp
@[simp] theorem elapse_free (d : Dev) (n : Nat) : (d.elapse n).free = d.free := by
  unfold Dev.elapse; dsimp only
  repeat' split
  all_goals simp
@[simp] theorem elapse_anvil (d : Dev) (n : Nat) : (d.elapse n).anvil = d.anvil := by
  unfold Dev.elapse; dsimp only
  repeat' split
  all_goals simp
@[simp] theorem elapse_fwd (d : Dev) (n : Nat) : (d.elapse n).fwd = d.fwd := by
  unfold Dev.elapse; dsimp only
  repeat' split
  all_goals simp
@[simp] theorem elapse_tables (d : Dev) (n : Nat) : (d.elapse n).tables = d.tables := by
  unfold Dev.elapse; dsimp only
  repeat' split
  all_goals simp
@[simp] theorem elapse_ste (d : Dev) (n : Nat) : (d.elapse n).ste = d.ste := by
  unfold Dev.elapse; dsimp only
  repeat' split
  all_goals simp
@[simp] theorem elapse_can (d : Dev) (n : Nat) : (d.elapse n).can = d.can := by
  unfold Dev.elapse; dsimp only
  repeat' split
  all_goals simp
@[simp] theorem elapse_lin (d : Dev) (n : Nat) : (d.elapse n).lin = d.lin := by
  unfold Dev.elapse; dsimp only
  repeat' split
  all_goals simp
@[simp] theorem elapse_eth (d : Dev) (n : Nat) : (d.elapse n).eth = d.eth := by
  unfold Dev.elapse; dsimp only
  repeat' split
  all_goals simp
@[simp] theorem elapse_xpt (d : Dev) (n : Nat) : (d.elapse n).xpt = d.xpt := by
  unfold Dev.elapse; dsimp only
  repeat' split
  all_goals simp
@[simp] theorem elapse_cry (d : Dev) (n : Nat) : (d.elapse n).cry = d.cry := by
  unfold Dev.elapse; dsimp only
  repeat' split
  all_goals simp
@[simp] theorem elapse_vault (d : Dev) (n : Nat) : (d.elapse n).vault = d.vault := by
  unfold Dev.elapse; dsimp only
  repeat' split
  all_goals simp
@[simp] theorem elapse_nm (d : Dev) (n : Nat) : (d.elapse n).nm = d.nm := by
  unfold Dev.elapse; dsimp only
  repeat' split
  all_goals simp
@[simp] theorem elapse_load (d : Dev) (n : Nat) : (d.elapse n).load = d.load := by
  unfold Dev.elapse; dsimp only
  repeat' split
  all_goals simp
@[simp] theorem elapse_host (d : Dev) (n : Nat) : (d.elapse n).host = d.host := by
  unfold Dev.elapse; dsimp only
  repeat' split
  all_goals simp
@[simp] theorem elapse_bus (d : Dev) (n : Nat) : (d.elapse n).bus = d.bus := by
  unfold Dev.elapse; dsimp only
  repeat' split
  all_goals simp
@[simp] theorem elapse_flt (d : Dev) (n : Nat) : (d.elapse n).flt = d.flt := by
  unfold Dev.elapse; dsimp only
  repeat' split
  all_goals simp
@[simp] theorem elapse_boot (d : Dev) (n : Nat) : (d.elapse n).boot = d.boot := by
  unfold Dev.elapse; dsimp only
  repeat' split
  all_goals simp
@[simp] theorem elapse_pwr (d : Dev) (n : Nat) : (d.elapse n).pwr = d.pwr := by
  unfold Dev.elapse; dsimp only
  repeat' split
  all_goals simp

@[simp] theorem snapTake_tbl (d : Dev) : d.snapTake.tbl = d.tbl := rfl
@[simp] theorem snapTake_hostMem (d : Dev) : d.snapTake.hostMem = d.hostMem := rfl
@[simp] theorem snapTake_out (d : Dev) : d.snapTake.out = d.out := rfl
@[simp] theorem snapTake_free (d : Dev) : d.snapTake.free = d.free := rfl
@[simp] theorem snapTake_anvil (d : Dev) : d.snapTake.anvil = d.anvil := rfl
@[simp] theorem snapTake_fwd (d : Dev) : d.snapTake.fwd = d.fwd := rfl
@[simp] theorem snapTake_tables (d : Dev) : d.snapTake.tables = d.tables := rfl
@[simp] theorem snapTake_ste (d : Dev) : d.snapTake.ste = d.ste := rfl
@[simp] theorem snapTake_can (d : Dev) : d.snapTake.can = d.can := rfl
@[simp] theorem snapTake_lin (d : Dev) : d.snapTake.lin = d.lin := rfl
@[simp] theorem snapTake_eth (d : Dev) : d.snapTake.eth = d.eth := rfl
@[simp] theorem snapTake_xpt (d : Dev) : d.snapTake.xpt = d.xpt := rfl
@[simp] theorem snapTake_cry (d : Dev) : d.snapTake.cry = d.cry := rfl
@[simp] theorem snapTake_vault (d : Dev) : d.snapTake.vault = d.vault := rfl
@[simp] theorem snapTake_nm (d : Dev) : d.snapTake.nm = d.nm := rfl
@[simp] theorem snapTake_load (d : Dev) : d.snapTake.load = d.load := rfl
@[simp] theorem snapTake_host (d : Dev) : d.snapTake.host = d.host := rfl
@[simp] theorem snapTake_bus (d : Dev) : d.snapTake.bus = d.bus := rfl
@[simp] theorem snapTake_flt (d : Dev) : d.snapTake.flt = d.flt := rfl
@[simp] theorem snapTake_boot (d : Dev) : d.snapTake.boot = d.boot := rfl
@[simp] theorem snapTake_pwr (d : Dev) : d.snapTake.pwr = d.pwr := rfl

/-- The clock passes to a later instant in one piece, or in two with a capture of the AON counter between them. -/
theorem advance_cases (d : Dev) (n : Nat) : d.advance n = d.elapse n
    ∨ ∃ k l, k + l = n ∧ d.advance n = ((d.elapse k).snapTake).elapse l := by
  unfold Dev.advance
  split
  · exact .inl rfl
  · rename_i t _
    split
    · refine .inr ⟨t - d.now, d.now + n - t, ?_, rfl⟩; omega
    · exact .inl rfl

@[simp] theorem advance_tbl (d : Dev) (n : Nat) : (d.advance n).tbl = d.tbl := by
  obtain h | ⟨k, l, _, h⟩ := advance_cases d n <;> simp [h]
@[simp] theorem advance_hostMem (d : Dev) (n : Nat) : (d.advance n).hostMem = d.hostMem := by
  obtain h | ⟨k, l, _, h⟩ := advance_cases d n <;> simp [h]
@[simp] theorem advance_out (d : Dev) (n : Nat) : (d.advance n).out = d.out := by
  obtain h | ⟨k, l, _, h⟩ := advance_cases d n <;> simp [h]
@[simp] theorem advance_free (d : Dev) (n : Nat) : (d.advance n).free = d.free := by
  obtain h | ⟨k, l, _, h⟩ := advance_cases d n <;> simp [h]
@[simp] theorem advance_anvil (d : Dev) (n : Nat) : (d.advance n).anvil = d.anvil := by
  obtain h | ⟨k, l, _, h⟩ := advance_cases d n <;> simp [h]
@[simp] theorem advance_fwd (d : Dev) (n : Nat) : (d.advance n).fwd = d.fwd := by
  obtain h | ⟨k, l, _, h⟩ := advance_cases d n <;> simp [h]
@[simp] theorem advance_tables (d : Dev) (n : Nat) : (d.advance n).tables = d.tables := by
  obtain h | ⟨k, l, _, h⟩ := advance_cases d n <;> simp [h]
@[simp] theorem advance_ste (d : Dev) (n : Nat) : (d.advance n).ste = d.ste := by
  obtain h | ⟨k, l, _, h⟩ := advance_cases d n <;> simp [h]
@[simp] theorem advance_can (d : Dev) (n : Nat) : (d.advance n).can = d.can := by
  obtain h | ⟨k, l, _, h⟩ := advance_cases d n <;> simp [h]
@[simp] theorem advance_lin (d : Dev) (n : Nat) : (d.advance n).lin = d.lin := by
  obtain h | ⟨k, l, _, h⟩ := advance_cases d n <;> simp [h]
@[simp] theorem advance_eth (d : Dev) (n : Nat) : (d.advance n).eth = d.eth := by
  obtain h | ⟨k, l, _, h⟩ := advance_cases d n <;> simp [h]
@[simp] theorem advance_xpt (d : Dev) (n : Nat) : (d.advance n).xpt = d.xpt := by
  obtain h | ⟨k, l, _, h⟩ := advance_cases d n <;> simp [h]
@[simp] theorem advance_cry (d : Dev) (n : Nat) : (d.advance n).cry = d.cry := by
  obtain h | ⟨k, l, _, h⟩ := advance_cases d n <;> simp [h]
@[simp] theorem advance_vault (d : Dev) (n : Nat) : (d.advance n).vault = d.vault := by
  obtain h | ⟨k, l, _, h⟩ := advance_cases d n <;> simp [h]
@[simp] theorem advance_nm (d : Dev) (n : Nat) : (d.advance n).nm = d.nm := by
  obtain h | ⟨k, l, _, h⟩ := advance_cases d n <;> simp [h]
@[simp] theorem advance_load (d : Dev) (n : Nat) : (d.advance n).load = d.load := by
  obtain h | ⟨k, l, _, h⟩ := advance_cases d n <;> simp [h]
@[simp] theorem advance_host (d : Dev) (n : Nat) : (d.advance n).host = d.host := by
  obtain h | ⟨k, l, _, h⟩ := advance_cases d n <;> simp [h]
@[simp] theorem advance_bus (d : Dev) (n : Nat) : (d.advance n).bus = d.bus := by
  obtain h | ⟨k, l, _, h⟩ := advance_cases d n <;> simp [h]
@[simp] theorem advance_flt (d : Dev) (n : Nat) : (d.advance n).flt = d.flt := by
  obtain h | ⟨k, l, _, h⟩ := advance_cases d n <;> simp [h]
@[simp] theorem advance_boot (d : Dev) (n : Nat) : (d.advance n).boot = d.boot := by
  obtain h | ⟨k, l, _, h⟩ := advance_cases d n <;> simp [h]
@[simp] theorem advance_pwr (d : Dev) (n : Nat) : (d.advance n).pwr = d.pwr := by
  obtain h | ⟨k, l, _, h⟩ := advance_cases d n <;> simp [h]

/-! ### `reach` -/

@[simp] theorem reach_tbl (d : Dev) (t : Nat) : (d.reach t).tbl = d.tbl := by simp [Dev.reach]
@[simp] theorem reach_hostMem (d : Dev) (t : Nat) : (d.reach t).hostMem = d.hostMem := by simp [Dev.reach]
@[simp] theorem reach_out (d : Dev) (t : Nat) : (d.reach t).out = d.out := by simp [Dev.reach]
@[simp] theorem reach_free (d : Dev) (t : Nat) : (d.reach t).free = d.free := by simp [Dev.reach]
@[simp] theorem reach_anvil (d : Dev) (t : Nat) : (d.reach t).anvil = d.anvil := by simp [Dev.reach]
@[simp] theorem reach_fwd (d : Dev) (t : Nat) : (d.reach t).fwd = d.fwd := by simp [Dev.reach]
@[simp] theorem reach_tables (d : Dev) (t : Nat) : (d.reach t).tables = d.tables := by simp [Dev.reach]
@[simp] theorem reach_ste (d : Dev) (t : Nat) : (d.reach t).ste = d.ste := by simp [Dev.reach]
@[simp] theorem reach_can (d : Dev) (t : Nat) : (d.reach t).can = d.can := by simp [Dev.reach]
@[simp] theorem reach_lin (d : Dev) (t : Nat) : (d.reach t).lin = d.lin := by simp [Dev.reach]
@[simp] theorem reach_eth (d : Dev) (t : Nat) : (d.reach t).eth = d.eth := by simp [Dev.reach]
@[simp] theorem reach_xpt (d : Dev) (t : Nat) : (d.reach t).xpt = d.xpt := by simp [Dev.reach]
@[simp] theorem reach_cry (d : Dev) (t : Nat) : (d.reach t).cry = d.cry := by simp [Dev.reach]
@[simp] theorem reach_vault (d : Dev) (t : Nat) : (d.reach t).vault = d.vault := by simp [Dev.reach]
@[simp] theorem reach_nm (d : Dev) (t : Nat) : (d.reach t).nm = d.nm := by simp [Dev.reach]
@[simp] theorem reach_load (d : Dev) (t : Nat) : (d.reach t).load = d.load := by simp [Dev.reach]
@[simp] theorem reach_host (d : Dev) (t : Nat) : (d.reach t).host = d.host := by simp [Dev.reach]
@[simp] theorem reach_bus (d : Dev) (t : Nat) : (d.reach t).bus = d.bus := by simp [Dev.reach]
@[simp] theorem reach_flt (d : Dev) (t : Nat) : (d.reach t).flt = d.flt := by simp [Dev.reach]
@[simp] theorem reach_boot (d : Dev) (t : Nat) : (d.reach t).boot = d.boot := by simp [Dev.reach]
@[simp] theorem reach_pwr (d : Dev) (t : Nat) : (d.reach t).pwr = d.pwr := by simp [Dev.reach]

/-! ### `reachDtime` -/

@[simp] theorem reachDtime_tbl (d : Dev) (t : Nat) : (d.reachDtime t).tbl = d.tbl := by unfold Dev.reachDtime; split <;> simp
@[simp] theorem reachDtime_hostMem (d : Dev) (t : Nat) : (d.reachDtime t).hostMem = d.hostMem := by unfold Dev.reachDtime; split <;> simp
@[simp] theorem reachDtime_out (d : Dev) (t : Nat) : (d.reachDtime t).out = d.out := by unfold Dev.reachDtime; split <;> simp
@[simp] theorem reachDtime_free (d : Dev) (t : Nat) : (d.reachDtime t).free = d.free := by unfold Dev.reachDtime; split <;> simp
@[simp] theorem reachDtime_anvil (d : Dev) (t : Nat) : (d.reachDtime t).anvil = d.anvil := by unfold Dev.reachDtime; split <;> simp
@[simp] theorem reachDtime_fwd (d : Dev) (t : Nat) : (d.reachDtime t).fwd = d.fwd := by unfold Dev.reachDtime; split <;> simp
@[simp] theorem reachDtime_tables (d : Dev) (t : Nat) : (d.reachDtime t).tables = d.tables := by unfold Dev.reachDtime; split <;> simp
@[simp] theorem reachDtime_ste (d : Dev) (t : Nat) : (d.reachDtime t).ste = d.ste := by unfold Dev.reachDtime; split <;> simp
@[simp] theorem reachDtime_can (d : Dev) (t : Nat) : (d.reachDtime t).can = d.can := by unfold Dev.reachDtime; split <;> simp
@[simp] theorem reachDtime_lin (d : Dev) (t : Nat) : (d.reachDtime t).lin = d.lin := by unfold Dev.reachDtime; split <;> simp
@[simp] theorem reachDtime_eth (d : Dev) (t : Nat) : (d.reachDtime t).eth = d.eth := by unfold Dev.reachDtime; split <;> simp
@[simp] theorem reachDtime_xpt (d : Dev) (t : Nat) : (d.reachDtime t).xpt = d.xpt := by unfold Dev.reachDtime; split <;> simp
@[simp] theorem reachDtime_cry (d : Dev) (t : Nat) : (d.reachDtime t).cry = d.cry := by unfold Dev.reachDtime; split <;> simp
@[simp] theorem reachDtime_vault (d : Dev) (t : Nat) : (d.reachDtime t).vault = d.vault := by unfold Dev.reachDtime; split <;> simp
@[simp] theorem reachDtime_nm (d : Dev) (t : Nat) : (d.reachDtime t).nm = d.nm := by unfold Dev.reachDtime; split <;> simp
@[simp] theorem reachDtime_load (d : Dev) (t : Nat) : (d.reachDtime t).load = d.load := by unfold Dev.reachDtime; split <;> simp
@[simp] theorem reachDtime_host (d : Dev) (t : Nat) : (d.reachDtime t).host = d.host := by unfold Dev.reachDtime; split <;> simp
@[simp] theorem reachDtime_bus (d : Dev) (t : Nat) : (d.reachDtime t).bus = d.bus := by unfold Dev.reachDtime; split <;> simp
@[simp] theorem reachDtime_flt (d : Dev) (t : Nat) : (d.reachDtime t).flt = d.flt := by unfold Dev.reachDtime; split <;> simp
@[simp] theorem reachDtime_boot (d : Dev) (t : Nat) : (d.reachDtime t).boot = d.boot := by unfold Dev.reachDtime; split <;> simp
@[simp] theorem reachDtime_pwr (d : Dev) (t : Nat) : (d.reachDtime t).pwr = d.pwr := by unfold Dev.reachDtime; split <;> simp

end Sys2Proof.Machine
end

