-- ==== Sys2Proof/Laws/Regs.lean ====
section
/-!
SUPPORT. Registers and fields: what a field reads after a write of the same field, of another field of its register and of another
register, brought to one form over the register store; and that every basic operation keeps the canonical form of the stores.
-/
namespace Sys2Proof.Machine

/-! ### One form for register reads -/

/-- A register of a register store. -/
def rreg (r : SMap Word) (a : Nat) : Nat := (SMap.get r (regDefault a) a).toNat

/-- A register store after a register took a value. -/
def rput (r : SMap Word) (a v : Nat) : SMap Word := SMap.set r (regDefault a) a (BitVec.ofNat 32 v)

/-- A field of a register store. -/
def rget (r : SMap Word) (f : FieldRef) : Nat :=
  if f.lo + f.w ≤ 32 then bf (rreg r f.addr) f.lo f.w else bf (rreg r f.addr + 2 ^ 32 * rreg r (f.addr + 4)) f.lo f.w

/-- A register store after a field took a value. -/
def rset (r : SMap Word) (f : FieldRef) (v : Nat) : SMap Word :=
  if f.lo + f.w ≤ 32 then rput r f.addr (setBf (rreg r f.addr) f.lo f.w v)
  else
    let x := setBf (rreg r f.addr + 2 ^ 32 * rreg r (f.addr + 4)) f.lo f.w v
    rput (rput r f.addr (x % 2 ^ 32)) (f.addr + 4) (x / 2 ^ 32)

theorem reg_eq (d : Dev) (a : Nat) : d.reg a = rreg d.regs a := rfl
theorem get_eq (d : Dev) (f : FieldRef) : d.get f = rget d.regs f := rfl
theorem flag_eq (d : Dev) (f : FieldRef) : d.flag f = (rget d.regs f == 1) := rfl
theorem ready_eq (d : Dev) (n : Nat) : d.ready n = bit (rget d.regs F.SUPV_PD_STATUS_READY) (n - 1) := rfl
@[simp] theorem setReg_regs (d : Dev) (a v : Nat) : (d.setReg a v).regs = rput d.regs a v := rfl
@[simp] theorem set_regs (d : Dev) (f : FieldRef) (v : Nat) : (d.set f v).regs = rset d.regs f v := by
  unfold Dev.set rset; split <;> rfl
@[simp] theorem add_regs (d : Dev) (f : FieldRef) (n : Nat) :
    (d.add f n).regs = rset d.regs f (satAdd f.w (rget d.regs f) n) := by simp [Dev.add, get_eq]
@[simp] theorem inc_regs (d : Dev) (f : FieldRef) : (d.inc f).regs = rset d.regs f (satAdd f.w (rget d.regs f) 1) := by
  simp [Dev.inc]
@[simp] theorem dec_regs (d : Dev) (f : FieldRef) : (d.dec f).regs = rset d.regs f (rget d.regs f - 1) := by
  simp [Dev.dec, get_eq]
@[simp] theorem setBitOf_regs (d : Dev) (f : FieldRef) (i : Nat) (b : Bool) :
    (d.setBitOf f i b).regs = rset d.regs f (setBit (rget d.regs f) i b) := by simp [Dev.setBitOf, get_eq]

/-! ### Bit ranges -/

theorem bf_lt (x lo w : Nat) : bf x lo w < 2 ^ w := Nat.mod_lt _ (Nat.two_pow_pos w)

theorem bf_split (x lo w : Nat) : x = x % 2 ^ lo + bf x lo w * 2 ^ lo + x / 2 ^ (lo + w) * 2 ^ (lo + w) := by
  unfold bf
  have h1 : x = x % 2 ^ lo + x / 2 ^ lo * 2 ^ lo := by have := Nat.mod_add_div x (2 ^ lo); rw [Nat.mul_comm]; omega
  have h2 : x / 2 ^ lo = x / 2 ^ lo % 2 ^ w + x / 2 ^ lo / 2 ^ w * 2 ^ w := by
    have := Nat.mod_add_div (x / 2 ^ lo) (2 ^ w); rw [Nat.mul_comm (x / 2 ^ lo / 2 ^ w)]; omega
  rw [Nat.pow_add, ← Nat.div_div_eq_div_mul]
  calc x = x % 2 ^ lo + x / 2 ^ lo * 2 ^ lo := h1
    _ = x % 2 ^ lo + (x / 2 ^ lo % 2 ^ w + x / 2 ^ lo / 2 ^ w * 2 ^ w) * 2 ^ lo := by rw [← h2]
    _ = _ := by rw [Nat.add_mul, Nat.mul_assoc, Nat.mul_comm (2 ^ w) (2 ^ lo), ← Nat.add_assoc]

theorem setBf_split (x lo w v : Nat) :
    setBf x lo w v = x % 2 ^ lo + v % 2 ^ w * 2 ^ lo + x / 2 ^ (lo + w) * 2 ^ (lo + w) := by
  unfold setBf
  have := bf_split x lo w
  omega

/-- A written range reads back as written. -/
theorem bf_setBf_same (x lo w v : Nat) : bf (setBf x lo w v) lo w = v % 2 ^ w := by
  rw [setBf_split, bf]
  have h : x % 2 ^ lo < 2 ^ lo := Nat.mod_lt _ (Nat.two_pow_pos lo)
  have e : x % 2 ^ lo + v % 2 ^ w * 2 ^ lo + x / 2 ^ (lo + w) * 2 ^ (lo + w)
      = x % 2 ^ lo + (v % 2 ^ w + x / 2 ^ (lo + w) * 2 ^ w) * 2 ^ lo := by
    rw [Nat.add_mul, Nat.mul_assoc, ← Nat.pow_add, Nat.add_comm w lo, Nat.add_assoc]
  rw [e, Nat.add_mul_div_right _ _ (Nat.two_pow_pos lo), Nat.div_eq_of_lt h, Nat.zero_add, Nat.add_mul_mod_self_right,
    Nat.mod_mod]

/-- Whether bit `i` of a number is set, by its digits. -/
theorem bf_eq_testBit (x lo w i : Nat) : (bf x lo w).testBit i = (decide (i < w) && x.testBit (lo + i)) := by
  rw [bf, Nat.testBit_mod_two_pow, Nat.testBit_div_two_pow, Nat.add_comm]

theorem setBf_testBit (x lo w v i : Nat) :
    (setBf x lo w v).testBit i = if lo ≤ i ∧ i < lo + w then v.testBit (i - lo) else x.testBit i := by
  have e : setBf x lo w v = 2 ^ (lo + w) * (x / 2 ^ (lo + w)) + (2 ^ lo * (v % 2 ^ w) + x % 2 ^ lo) := by
    rw [setBf_split, Nat.mul_comm (2 ^ (lo + w)), Nat.mul_comm (2 ^ lo)]; omega
  have h1 : x % 2 ^ lo < 2 ^ lo := Nat.mod_lt _ (Nat.two_pow_pos lo)
  have h2 : 2 ^ lo * (v % 2 ^ w) + x % 2 ^ lo < 2 ^ (lo + w) := by
    have := Nat.mod_lt v (Nat.two_pow_pos w)
    rw [Nat.pow_add]
    calc 2 ^ lo * (v % 2 ^ w) + x % 2 ^ lo < 2 ^ lo * (v % 2 ^ w) + 2 ^ lo := by omega
      _ = 2 ^ lo * (v % 2 ^ w + 1) := by rw [Nat.mul_add, Nat.mul_one]
      _ ≤ 2 ^ lo * 2 ^ w := Nat.mul_le_mul_left _ this
  rw [e, Nat.testBit_two_pow_mul_add _ h2, Nat.testBit_two_pow_mul_add _ h1]
  by_cases h3 : i < lo
  · simp [h3, show i < lo + w by omega, show ¬ lo ≤ i by omega, Nat.testBit_mod_two_pow]
  · by_cases h4 : i < lo + w
    · simp [h3, h4, show lo ≤ i by omega, Nat.testBit_mod_two_pow, show i - lo < w by omega]
    · simp [h4, Nat.testBit_div_two_pow, show i - (lo + w) + (lo + w) = i by omega]

/-- Writing one range leaves a disjoint one alone. -/
theorem bf_setBf_ne (x lo w v lo' w' : Nat) (h : lo' + w' ≤ lo ∨ lo + w ≤ lo') :
    bf (setBf x lo w v) lo' w' = bf x lo' w' := by
  apply Nat.eq_of_testBit_eq
  intro i
  rw [bf_eq_testBit, bf_eq_testBit, setBf_testBit]
  by_cases hi : i < w'
  · simp [hi, show ¬ (lo ≤ lo' + i ∧ lo' + i < lo + w) by omega]
  · simp [hi]

theorem bit_eq_bf (x i : Nat) : bit x i = (bf x i 1 == 1) := rfl

@[simp] theorem bit_setBit_same (x i : Nat) (b : Bool) : bit (setBit x i b) i = b := by
  rw [bit_eq_bf, setBit, bf_setBf_same]; cases b <;> rfl

theorem bit_setBit_ne (x i j : Nat) (b : Bool) (h : i ≠ j) : bit (setBit x i b) j = bit x j := by
  rw [bit_eq_bf, setBit, bf_setBf_ne _ _ _ _ _ _ (by omega), ← bit_eq_bf]

theorem bit_mod (x w i : Nat) (h : i < w) : bit (x % 2 ^ w) i = bit x i := by
  have e : ∀ y, bit y i = y.testBit i := by
    intro y
    rw [bit_eq_bf, bf, Nat.pow_one, Nat.testBit_eq_decide_div_mod_eq]; rfl
  rw [e, e, Nat.testBit_mod_two_pow]; simp [h]

theorem setBf_lt (x lo w v n : Nat) (hx : x < 2 ^ n) (h : lo + w ≤ n) : setBf x lo w v < 2 ^ n := by
  apply Nat.lt_pow_two_of_testBit
  intro i hi
  rw [setBf_testBit]
  rw [if_neg (by omega)]
  exact Nat.testBit_lt_two_pow (Nat.lt_of_lt_of_le hx (Nat.pow_le_pow_right (by omega) hi))

/-! ### Registers -/

theorem rreg_lt (r : SMap Word) (a : Nat) : rreg r a < 2 ^ 32 := (SMap.get r (regDefault a) a).isLt

@[simp] theorem rreg_rput_same (r : SMap Word) (a v : Nat) : rreg (rput r a v) a = v % 2 ^ 32 := by
  simp [rreg, rput]

theorem rreg_rput_ne (r : SMap Word) (a b v : Nat) (h : a ≠ b) : rreg (rput r a v) b = rreg r b := by
  unfold rreg rput
  rw [SMap.get_set_ne _ _ _ _ _ _ h]

/-- A field of one word reads what was written to it. -/
theorem rget_rset_same (r : SMap Word) (f : FieldRef) (v : Nat) (h : f.lo + f.w ≤ 64) :
    rget (rset r f v) f = v % 2 ^ f.w := by
  unfold rget rset
  by_cases hn : f.lo + f.w ≤ 32
  · simp only [hn, if_true, rreg_rput_same]
    rw [Nat.mod_eq_of_lt (setBf_lt _ _ _ _ _ (rreg_lt _ _) hn), bf_setBf_same]
  · simp only [hn, if_false]
    rw [rreg_rput_same, rreg_rput_ne _ _ _ _ (show f.addr + 4 ≠ f.addr by omega), rreg_rput_same]
    have hx : rreg r f.addr + 2 ^ 32 * rreg r (f.addr + 4) < 2 ^ 64 := by
      have := rreg_lt r f.addr; have := rreg_lt r (f.addr + 4); omega
    have hs := setBf_lt _ f.lo f.w v 64 hx h
    rw [show setBf (rreg r f.addr + 2 ^ 32 * rreg r (f.addr + 4)) f.lo f.w v % 2 ^ 32 % 2 ^ 32
        + 2 ^ 32 * (setBf (rreg r f.addr + 2 ^ 32 * rreg r (f.addr + 4)) f.lo f.w v / 2 ^ 32 % 2 ^ 32)
        = setBf (rreg r f.addr + 2 ^ 32 * rreg r (f.addr + 4)) f.lo f.w v by omega, bf_setBf_same]

/-- A field of another register, both within one word, is left alone. -/
theorem rget_rset_addr (r : SMap Word) (f g : FieldRef) (v : Nat) (hf : f.lo + f.w ≤ 32) (hg : g.lo + g.w ≤ 32)
    (h : f.addr ≠ g.addr) : rget (rset r f v) g = rget r g := by
  simp [rget, rset, hf, hg, rreg_rput_ne _ _ _ _ h]

/-- A field whose words are all others is left alone. -/
theorem rget_rset_far (r : SMap Word) (f g : FieldRef) (v : Nat)
    (h : f.addr ≠ g.addr ∧ f.addr ≠ g.addr + 4 ∧ f.addr + 4 ≠ g.addr) : rget (rset r f v) g = rget r g := by
  unfold rget rset
  split <;> split <;> simp [rreg_rput_ne, h.1, h.2.1, h.2.2]

/-- A disjoint field of the same register is left alone. -/
theorem rget_rset_bits (r : SMap Word) (f g : FieldRef) (v : Nat) (hf : f.lo + f.w ≤ 32) (hg : g.lo + g.w ≤ 32)
    (ha : f.addr = g.addr) (h : g.lo + g.w ≤ f.lo ∨ f.lo + f.w ≤ g.lo) : rget (rset r f v) g = rget r g := by
  simp only [rget, rset, hf, hg, if_true, ha, rreg_rput_same]
  rw [Nat.mod_eq_of_lt (setBf_lt _ _ _ _ _ (rreg_lt _ _) hf), bf_setBf_ne _ _ _ _ _ _ h]

/-- Two fields of one word each that share no bit: writing one leaves the other alone. -/
theorem rget_rset_ne (r : SMap Word) (f g : FieldRef) (v : Nat)
    (h : f.addr ≠ g.addr ∨ g.lo + g.w ≤ f.lo ∨ f.lo + f.w ≤ g.lo)
    (hf : f.lo + f.w ≤ 32) (hg : g.lo + g.w ≤ 32) :
    rget (rset r f v) g = rget r g := by
  by_cases ha : f.addr = g.addr
  · exact rget_rset_bits r f g v hf hg ha (h.resolve_left (by simp [ha]))
  · exact rget_rset_addr r f g v hf hg ha

theorem rget_lt (r : SMap Word) (f : FieldRef) : rget r f < 2 ^ f.w := by
  unfold rget; split <;> exact bf_lt _ _ _

/-- A field of one word after its register took a value. -/
theorem rget_rput_same (r : SMap Word) (a v : Nat) (f : FieldRef) (hf : f.lo + f.w ≤ 32) (ha : f.addr = a) :
    rget (rput r a v) f = bf (v % 2 ^ 32) f.lo f.w := by
  subst ha; simp [rget, hf]

theorem rget_rput_ne (r : SMap Word) (a v : Nat) (f : FieldRef) (h : a ≠ f.addr ∧ a ≠ f.addr + 4) :
    rget (rput r a v) f = rget r f := by
  unfold rget; split <;> simp [rreg_rput_ne, h.1, h.2]

/-! ### The clock -/

@[simp] theorem elapse_now (d : Dev) (n : Nat) : (d.elapse n).time.now = d.time.now + n := by
  unfold Dev.elapse; dsimp only
  repeat' split
  all_goals simp

@[simp] theorem snapTake_now (d : Dev) : d.snapTake.time.now = d.time.now := rfl
@[simp] theorem snapTake_regs (d : Dev) : d.snapTake.regs = d.regs := rfl

@[simp] theorem advance_now (d : Dev) (n : Nat) : (d.advance n).time.now = d.time.now + n := by
  obtain h | ⟨k, l, hn, h⟩ := advance_cases d n
  · simp [h]
  · simp [h]; omega

theorem rget_elapse (d : Dev) (n : Nat) (f : FieldRef)
    (h : f.addr ≠ R.TIME_SLEW_CTRL ∧ f.addr + 4 ≠ R.TIME_SLEW_CTRL) : rget (d.elapse n).regs f = rget d.regs f := by
  unfold Dev.elapse; dsimp only
  repeat' split
  all_goals first
    | rfl
    | (rw [set_regs]; simp only [rset]; rw [if_pos (by decide)]; exact rget_rput_ne _ _ _ _ ⟨Ne.symm h.1, Ne.symm h.2⟩)

/-- Where time passes, only `TIME.SLEW_CTRL.BUSY` of the registers can change. -/
theorem rget_advance (d : Dev) (n : Nat) (f : FieldRef)
    (h : f.addr ≠ R.TIME_SLEW_CTRL ∧ f.addr + 4 ≠ R.TIME_SLEW_CTRL) : rget (d.advance n).regs f = rget d.regs f := by
  obtain e | ⟨k, l, _, e⟩ := advance_cases d n
  · rw [e, rget_elapse d n f h]
  · rw [e, rget_elapse _ l f h, snapTake_regs, rget_elapse _ k f h]

@[simp] theorem reach_now (d : Dev) (t : Nat) : (d.reach t).time.now = max d.time.now t := by
  simp [Dev.reach]; omega

theorem rget_reach (d : Dev) (t : Nat) (f : FieldRef)
    (h : f.addr ≠ R.TIME_SLEW_CTRL ∧ f.addr + 4 ≠ R.TIME_SLEW_CTRL) : rget (d.reach t).regs f = rget d.regs f :=
  rget_advance d _ f h

/-! ### A step's answer -/

theorem satAdd_lt (w x n : Nat) : satAdd w x n < 2 ^ w := by
  have := Nat.two_pow_pos w
  unfold satAdd; omega

theorem get_reach_ne (d : Dev) (t : Nat) (f : FieldRef) (h : f.addr ≠ R.TIME_SLEW_CTRL ∧ f.addr + 4 ≠ R.TIME_SLEW_CTRL) :
    (d.reach t).get f = d.get f := by rw [get_eq, rget_reach _ _ _ h, get_eq]

theorem settleN_nil (d : Dev) (n : Nat) (h : d.flt.todo = []) : d.settleN n = d := by
  cases n with
  | zero => rfl
  | succ n => simp [Dev.settleN, h]

/-- With no reaction waiting, settling changes nothing. -/
theorem settle_nil (d : Dev) (h : d.flt.todo = []) : d.settle = d := by
  unfold Dev.settle
  rw [settleN_nil d _ h]
  cases d; rename_i f b p; cases f; simp_all

/-- After a step no reaction waits. -/
@[simp] theorem settle_todo (d : Dev) : d.settle.flt.todo = [] := rfl

theorem done_eq (s : State) (d : Dev) : s.done d = .next { s with dev := d.settle } := rfl

/-- A step that leaves no reaction answers with its device. -/
theorem done_nil (s : State) (d : Dev) (h : d.flt.todo = []) : s.done d = .next { s with dev := d } := by
  rw [done_eq, settle_nil d h]

/-! ### The canonical form of the stores -/

theorem setReg_stores (d : Dev) (a v : Nat) (h : d.stores = true) : (d.setReg a v).stores = true := by
  simp only [Dev.stores, Bool.and_eq_true] at h ⊢
  exact ⟨⟨SMap.wf_set regDefault _ _ _ h.1.1, h.1.2⟩, h.2⟩

theorem set_stores (d : Dev) (f : FieldRef) (v : Nat) (h : d.stores = true) : (d.set f v).stores = true := by
  unfold Dev.set
  split
  · exact setReg_stores _ _ _ h
  · exact setReg_stores _ _ _ (setReg_stores _ _ _ h)

theorem tset_stores (d : Dev) (m c i v : Nat) (h : d.stores = true) : (d.tset m c i v).stores = true := by
  simp only [Dev.stores, Bool.and_eq_true] at h ⊢
  exact ⟨⟨h.1.1, SMap.wf_set (fun _ => 0) _ _ _ h.1.2⟩, h.2⟩

theorem tclear_stores (d : Dev) (m c : Nat) (h : d.stores = true) : (d.tclear m c).stores = true := by
  simp only [Dev.stores, Bool.and_eq_true] at h ⊢
  exact ⟨⟨h.1.1, SMap.wf_filter _ _ _ h.1.2⟩, h.2⟩

theorem resetRegs_stores (d : Dev) (lo hi : Nat) (h : d.stores = true) : (d.resetRegs lo hi).stores = true := by
  simp only [Dev.stores, Bool.and_eq_true] at h ⊢
  exact ⟨⟨SMap.wf_filter _ _ _ h.1.1, h.1.2⟩, h.2⟩

/-- Every write of host memory keeps its canonical form. -/
theorem hostPut_stores (d : Dev) (a : Nat) (b : Byte) (h : d.stores = true) : (d.hostPut a b).stores = true := by
  simp only [Dev.stores, Bool.and_eq_true, Memory.wf] at h ⊢
  exact ⟨h.1, SMap.wf_set (fun _ => 0) _ _ _ h.2⟩

theorem hostWrite_stores (d : Dev) (a : Nat) (bs : List Byte) (h : d.stores = true) : (d.hostWrite a bs).stores = true := by
  induction bs generalizing d a with
  | nil => exact h
  | cons b bs ih => exact ih _ _ (hostPut_stores _ _ _ h)

theorem hostStore_stores (d : Dev) (l : List (Nat × Byte)) (h : d.stores = true) : (d.hostStore l).stores = true := by
  induction l generalizing d with
  | nil => exact h
  | cons p l ih => exact ih _ (hostPut_stores _ _ _ h)

theorem reset_stores : State.reset.dev.stores = true := rfl

/-! ### Host memory -/

theorem hostByte_put_same (d : Dev) (a : Nat) (b : Byte) : (d.hostPut a b).hostByte a = b := by
  simp [Dev.hostByte, Dev.hostPut]

theorem hostByte_put_ne (d : Dev) (a x : Nat) (b : Byte) (h : a % 2 ^ 64 ≠ x % 2 ^ 64) :
    (d.hostPut a b).hostByte x = d.hostByte x := by
  unfold Dev.hostByte Dev.hostPut
  exact SMap.get_set_ne _ _ _ _ _ _ h

/-- Bytes outside a written range are left alone. -/
theorem hostByte_write_out (d : Dev) (a x : Nat) (bs : List Byte) (h : ∀ i < bs.length, (a + i) % 2 ^ 64 ≠ x % 2 ^ 64) :
    (d.hostWrite a bs).hostByte x = d.hostByte x := by
  induction bs generalizing d a with
  | nil => rfl
  | cons b bs ih =>
    rw [Dev.hostWrite, ih]
    · exact hostByte_put_ne _ _ _ _ (by simpa using h 0 (by simp))
    · intro i hi
      have := h (i + 1) (by simpa using hi)
      rwa [show a + 1 + i = a + (i + 1) by omega]

/-- A written range reads back. -/
theorem hostByte_write_in (d : Dev) (a i : Nat) (bs : List Byte) (hi : i < bs.length) (hl : bs.length ≤ 2 ^ 64) :
    (d.hostWrite a bs).hostByte (a + i) = bs[i] := by
  induction bs generalizing d a i with
  | nil => simp at hi
  | cons b bs ih =>
    rw [Dev.hostWrite]
    cases i with
    | zero =>
      rw [hostByte_write_out]
      · simpa using hostByte_put_same d a b
      · intro j hj
        simp only [List.length_cons] at hl
        omega
    | succ i =>
      simp only [List.length_cons] at hi hl
      have := ih (d.hostPut a b) (a + 1) i (by omega) (by omega)
      rw [show a + (i + 1) = a + 1 + i by omega, this]
      simp

/-- Reading back what was written. -/
theorem hostRead_write (d : Dev) (a : Nat) (bs : List Byte) (hl : bs.length ≤ 2 ^ 64) :
    (d.hostWrite a bs).hostRead a bs.length = bs := by
  apply List.ext_getElem
  · simp [Dev.hostRead]
  · intro i h1 h2
    simp only [Dev.hostRead, List.getElem_map, List.getElem_range]
    exact hostByte_write_in d a i bs h2 hl

end Sys2Proof.Machine
end

