-- ==== Sys2Proof/Laws/Shared.lean ====
section
/-!
SUPPORT. What the shared operations of the host interface, the fault pages and the event queues leave alone (their frames), one lemma
per field.
-/
namespace Sys2Proof.Machine


/-! ### `msix` -/

@[simp] theorem msix_regs (d : Dev) (v : Nat) : (d.msix v).regs = d.regs := by
  (unfold Dev.msix) <;> (try dsimp only) <;> (repeat' split) <;> simp
@[simp] theorem msix_tbl (d : Dev) (v : Nat) : (d.msix v).tbl = d.tbl := by
  (unfold Dev.msix) <;> (try dsimp only) <;> (repeat' split) <;> simp
@[simp] theorem msix_hostMem (d : Dev) (v : Nat) : (d.msix v).hostMem = d.hostMem := by
  (unfold Dev.msix) <;> (try dsimp only) <;> (repeat' split) <;> simp
@[simp] theorem msix_free (d : Dev) (v : Nat) : (d.msix v).free = d.free := by
  (unfold Dev.msix) <;> (try dsimp only) <;> (repeat' split) <;> simp
@[simp] theorem msix_anvil (d : Dev) (v : Nat) : (d.msix v).anvil = d.anvil := by
  (unfold Dev.msix) <;> (try dsimp only) <;> (repeat' split) <;> simp
@[simp] theorem msix_fwd (d : Dev) (v : Nat) : (d.msix v).fwd = d.fwd := by
  (unfold Dev.msix) <;> (try dsimp only) <;> (repeat' split) <;> simp
@[simp] theorem msix_tables (d : Dev) (v : Nat) : (d.msix v).tables = d.tables := by
  (unfold Dev.msix) <;> (try dsimp only) <;> (repeat' split) <;> simp
@[simp] theorem msix_ste (d : Dev) (v : Nat) : (d.msix v).ste = d.ste := by
  (unfold Dev.msix) <;> (try dsimp only) <;> (repeat' split) <;> simp
@[simp] theorem msix_can (d : Dev) (v : Nat) : (d.msix v).can = d.can := by
  (unfold Dev.msix) <;> (try dsimp only) <;> (repeat' split) <;> simp
@[simp] theorem msix_lin (d : Dev) (v : Nat) : (d.msix v).lin = d.lin := by
  (unfold Dev.msix) <;> (try dsimp only) <;> (repeat' split) <;> simp
@[simp] theorem msix_eth (d : Dev) (v : Nat) : (d.msix v).eth = d.eth := by
  (unfold Dev.msix) <;> (try dsimp only) <;> (repeat' split) <;> simp
@[simp] theorem msix_time (d : Dev) (v : Nat) : (d.msix v).time = d.time := by
  (unfold Dev.msix) <;> (try dsimp only) <;> (repeat' split) <;> simp
@[simp] theorem msix_xpt (d : Dev) (v : Nat) : (d.msix v).xpt = d.xpt := by
  (unfold Dev.msix) <;> (try dsimp only) <;> (repeat' split) <;> simp
@[simp] theorem msix_cry (d : Dev) (v : Nat) : (d.msix v).cry = d.cry := by
  (unfold Dev.msix) <;> (try dsimp only) <;> (repeat' split) <;> simp
@[simp] theorem msix_vault (d : Dev) (v : Nat) : (d.msix v).vault = d.vault := by
  (unfold Dev.msix) <;> (try dsimp only) <;> (repeat' split) <;> simp
@[simp] theorem msix_nm (d : Dev) (v : Nat) : (d.msix v).nm = d.nm := by
  (unfold Dev.msix) <;> (try dsimp only) <;> (repeat' split) <;> simp
@[simp] theorem msix_load (d : Dev) (v : Nat) : (d.msix v).load = d.load := by
  (unfold Dev.msix) <;> (try dsimp only) <;> (repeat' split) <;> simp
@[simp] theorem msix_bus (d : Dev) (v : Nat) : (d.msix v).bus = d.bus := by
  (unfold Dev.msix) <;> (try dsimp only) <;> (repeat' split) <;> simp
@[simp] theorem msix_flt (d : Dev) (v : Nat) : (d.msix v).flt = d.flt := by
  (unfold Dev.msix) <;> (try dsimp only) <;> (repeat' split) <;> simp
@[simp] theorem msix_boot (d : Dev) (v : Nat) : (d.msix v).boot = d.boot := by
  (unfold Dev.msix) <;> (try dsimp only) <;> (repeat' split) <;> simp
@[simp] theorem msix_pwr (d : Dev) (v : Nat) : (d.msix v).pwr = d.pwr := by
  (unfold Dev.msix) <;> (try dsimp only) <;> (repeat' split) <;> simp
@[simp] theorem msix_host_ops (d : Dev) (v : Nat) : (d.msix v).host.ops = d.host.ops := by
  (unfold Dev.msix) <;> (try dsimp only) <;> (repeat' split) <;> simp
@[simp] theorem msix_host_txPend (d : Dev) (v : Nat) : (d.msix v).host.txPend = d.host.txPend := by
  (unfold Dev.msix) <;> (try dsimp only) <;> (repeat' split) <;> simp
@[simp] theorem msix_host_rings (d : Dev) (v : Nat) : (d.msix v).host.rings = d.host.rings := by
  (unfold Dev.msix) <;> (try dsimp only) <;> (repeat' split) <;> simp
@[simp] theorem msix_host_unknown (d : Dev) (v : Nat) : (d.msix v).host.unknown = d.host.unknown := by
  (unfold Dev.msix) <;> (try dsimp only) <;> (repeat' split) <;> simp
@[simp] theorem msix_host_aborts (d : Dev) (v : Nat) : (d.msix v).host.aborts = d.host.aborts := by
  (unfold Dev.msix) <;> (try dsimp only) <;> (repeat' split) <;> simp
@[simp] theorem msix_host_hist (d : Dev) (v : Nat) : (d.msix v).host.hist = d.host.hist := by
  (unfold Dev.msix) <;> (try dsimp only) <;> (repeat' split) <;> simp
@[simp] theorem msix_host_txWait (d : Dev) (v : Nat) : (d.msix v).host.txWait = d.host.txWait := by
  (unfold Dev.msix) <;> (try dsimp only) <;> (repeat' split) <;> simp
@[simp] theorem msix_host_txKilled (d : Dev) (v : Nat) : (d.msix v).host.txKilled = d.host.txKilled := by
  (unfold Dev.msix) <;> (try dsimp only) <;> (repeat' split) <;> simp

/-! ### `setRing` -/

@[simp] theorem setRing_regs (d : Dev) (r : Nat) (x : RingSt) : (d.setRing r x).regs = d.regs := by
  (unfold Dev.setRing) <;> (try dsimp only) <;> (repeat' split) <;> simp
@[simp] theorem setRing_tbl (d : Dev) (r : Nat) (x : RingSt) : (d.setRing r x).tbl = d.tbl := by
  (unfold Dev.setRing) <;> (try dsimp only) <;> (repeat' split) <;> simp
@[simp] theorem setRing_hostMem (d : Dev) (r : Nat) (x : RingSt) : (d.setRing r x).hostMem = d.hostMem := by
  (unfold Dev.setRing) <;> (try dsimp only) <;> (repeat' split) <;> simp
@[simp] theorem setRing_out (d : Dev) (r : Nat) (x : RingSt) : (d.setRing r x).out = d.out := by
  (unfold Dev.setRing) <;> (try dsimp only) <;> (repeat' split) <;> simp
@[simp] theorem setRing_free (d : Dev) (r : Nat) (x : RingSt) : (d.setRing r x).free = d.free := by
  (unfold Dev.setRing) <;> (try dsimp only) <;> (repeat' split) <;> simp
@[simp] theorem setRing_anvil (d : Dev) (r : Nat) (x : RingSt) : (d.setRing r x).anvil = d.anvil := by
  (unfold Dev.setRing) <;> (try dsimp only) <;> (repeat' split) <;> simp
@[simp] theorem setRing_fwd (d : Dev) (r : Nat) (x : RingSt) : (d.setRing r x).fwd = d.fwd := by
  (unfold Dev.setRing) <;> (try dsimp only) <;> (repeat' split) <;> simp
@[simp] theorem setRing_tables (d : Dev) (r : Nat) (x : RingSt) : (d.setRing r x).tables = d.tables := by
  (unfold Dev.setRing) <;> (try dsimp only) <;> (repeat' split) <;> simp
@[simp] theorem setRing_ste (d : Dev) (r : Nat) (x : RingSt) : (d.setRing r x).ste = d.ste := by
  (unfold Dev.setRing) <;> (try dsimp only) <;> (repeat' split) <;> simp
@[simp] theorem setRing_can (d : Dev) (r : Nat) (x : RingSt) : (d.setRing r x).can = d.can := by
  (unfold Dev.setRing) <;> (try dsimp only) <;> (repeat' split) <;> simp
@[simp] theorem setRing_lin (d : Dev) (r : Nat) (x : RingSt) : (d.setRing r x).lin = d.lin := by
  (unfold Dev.setRing) <;> (try dsimp only) <;> (repeat' split) <;> simp
@[simp] theorem setRing_eth (d : Dev) (r : Nat) (x : RingSt) : (d.setRing r x).eth = d.eth := by
  (unfold Dev.setRing) <;> (try dsimp only) <;> (repeat' split) <;> simp
@[simp] theorem setRing_time (d : Dev) (r : Nat) (x : RingSt) : (d.setRing r x).time = d.time := by
  (unfold Dev.setRing) <;> (try dsimp only) <;> (repeat' split) <;> simp
@[simp] theorem setRing_xpt (d : Dev) (r : Nat) (x : RingSt) : (d.setRing r x).xpt = d.xpt := by
  (unfold Dev.setRing) <;> (try dsimp only) <;> (repeat' split) <;> simp
@[simp] theorem setRing_cry (d : Dev) (r : Nat) (x : RingSt) : (d.setRing r x).cry = d.cry := by
  (unfold Dev.setRing) <;> (try dsimp only) <;> (repeat' split) <;> simp
@[simp] theorem setRing_vault (d : Dev) (r : Nat) (x : RingSt) : (d.setRing r x).vault = d.vault := by
  (unfold Dev.setRing) <;> (try dsimp only) <;> (repeat' split) <;> simp
@[simp] theorem setRing_nm (d : Dev) (r : Nat) (x : RingSt) : (d.setRing r x).nm = d.nm := by
  (unfold Dev.setRing) <;> (try dsimp only) <;> (repeat' split) <;> simp
@[simp] theorem setRing_load (d : Dev) (r : Nat) (x : RingSt) : (d.setRing r x).load = d.load := by
  (unfold Dev.setRing) <;> (try dsimp only) <;> (repeat' split) <;> simp
@[simp] theorem setRing_bus (d : Dev) (r : Nat) (x : RingSt) : (d.setRing r x).bus = d.bus := by
  (unfold Dev.setRing) <;> (try dsimp only) <;> (repeat' split) <;> simp
@[simp] theorem setRing_flt (d : Dev) (r : Nat) (x : RingSt) : (d.setRing r x).flt = d.flt := by
  (unfold Dev.setRing) <;> (try dsimp only) <;> (repeat' split) <;> simp
@[simp] theorem setRing_boot (d : Dev) (r : Nat) (x : RingSt) : (d.setRing r x).boot = d.boot := by
  (unfold Dev.setRing) <;> (try dsimp only) <;> (repeat' split) <;> simp
@[simp] theorem setRing_pwr (d : Dev) (r : Nat) (x : RingSt) : (d.setRing r x).pwr = d.pwr := by
  (unfold Dev.setRing) <;> (try dsimp only) <;> (repeat' split) <;> simp
@[simp] theorem setRing_host_ops (d : Dev) (r : Nat) (x : RingSt) : (d.setRing r x).host.ops = d.host.ops := by
  (unfold Dev.setRing) <;> (try dsimp only) <;> (repeat' split) <;> simp
@[simp] theorem setRing_host_txPend (d : Dev) (r : Nat) (x : RingSt) : (d.setRing r x).host.txPend = d.host.txPend := by
  (unfold Dev.setRing) <;> (try dsimp only) <;> (repeat' split) <;> simp
@[simp] theorem setRing_host_unknown (d : Dev) (r : Nat) (x : RingSt) : (d.setRing r x).host.unknown = d.host.unknown := by
  (unfold Dev.setRing) <;> (try dsimp only) <;> (repeat' split) <;> simp
@[simp] theorem setRing_host_aborts (d : Dev) (r : Nat) (x : RingSt) : (d.setRing r x).host.aborts = d.host.aborts := by
  (unfold Dev.setRing) <;> (try dsimp only) <;> (repeat' split) <;> simp
@[simp] theorem setRing_host_hist (d : Dev) (r : Nat) (x : RingSt) : (d.setRing r x).host.hist = d.host.hist := by
  (unfold Dev.setRing) <;> (try dsimp only) <;> (repeat' split) <;> simp
@[simp] theorem setRing_host_txWait (d : Dev) (r : Nat) (x : RingSt) : (d.setRing r x).host.txWait = d.host.txWait := by
  (unfold Dev.setRing) <;> (try dsimp only) <;> (repeat' split) <;> simp
@[simp] theorem setRing_host_txKilled (d : Dev) (r : Nat) (x : RingSt) : (d.setRing r x).host.txKilled = d.host.txKilled := by
  (unfold Dev.setRing) <;> (try dsimp only) <;> (repeat' split) <;> simp

/-! ### `ringAdvance` -/

@[simp] theorem ringAdvance_tbl (d : Dev) (r n : Nat) : (d.ringAdvance r n).tbl = d.tbl := by
  (unfold Dev.ringAdvance) <;> (try dsimp only) <;> (repeat' split) <;> simp
@[simp] theorem ringAdvance_out (d : Dev) (r n : Nat) : (d.ringAdvance r n).out = d.out := by
  (unfold Dev.ringAdvance) <;> (try dsimp only) <;> (repeat' split) <;> simp
@[simp] theorem ringAdvance_free (d : Dev) (r n : Nat) : (d.ringAdvance r n).free = d.free := by
  (unfold Dev.ringAdvance) <;> (try dsimp only) <;> (repeat' split) <;> simp
@[simp] theorem ringAdvance_anvil (d : Dev) (r n : Nat) : (d.ringAdvance r n).anvil = d.anvil := by
  (unfold Dev.ringAdvance) <;> (try dsimp only) <;> (repeat' split) <;> simp
@[simp] theorem ringAdvance_fwd (d : Dev) (r n : Nat) : (d.ringAdvance r n).fwd = d.fwd := by
  (unfold Dev.ringAdvance) <;> (try dsimp only) <;> (repeat' split) <;> simp
@[simp] theorem ringAdvance_tables (d : Dev) (r n : Nat) : (d.ringAdvance r n).tables = d.tables := by
  (unfold Dev.ringAdvance) <;> (try dsimp only) <;> (repeat' split) <;> simp
@[simp] theorem ringAdvance_ste (d : Dev) (r n : Nat) : (d.ringAdvance r n).ste = d.ste := by
  (unfold Dev.ringAdvance) <;> (try dsimp only) <;> (repeat' split) <;> simp
@[simp] theorem ringAdvance_can (d : Dev) (r n : Nat) : (d.ringAdvance r n).can = d.can := by
  (unfold Dev.ringAdvance) <;> (try dsimp only) <;> (repeat' split) <;> simp
@[simp] theorem ringAdvance_lin (d : Dev) (r n : Nat) : (d.ringAdvance r n).lin = d.lin := by
  (unfold Dev.ringAdvance) <;> (try dsimp only) <;> (repeat' split) <;> simp
@[simp] theorem ringAdvance_eth (d : Dev) (r n : Nat) : (d.ringAdvance r n).eth = d.eth := by
  (unfold Dev.ringAdvance) <;> (try dsimp only) <;> (repeat' split) <;> simp
@[simp] theorem ringAdvance_time (d : Dev) (r n : Nat) : (d.ringAdvance r n).time = d.time := by
  (unfold Dev.ringAdvance) <;> (try dsimp only) <;> (repeat' split) <;> simp
@[simp] theorem ringAdvance_xpt (d : Dev) (r n : Nat) : (d.ringAdvance r n).xpt = d.xpt := by
  (unfold Dev.ringAdvance) <;> (try dsimp only) <;> (repeat' split) <;> simp
@[simp] theorem ringAdvance_cry (d : Dev) (r n : Nat) : (d.ringAdvance r n).cry = d.cry := by
  (unfold Dev.ringAdvance) <;> (try dsimp only) <;> (repeat' split) <;> simp
@[simp] theorem ringAdvance_vault (d : Dev) (r n : Nat) : (d.ringAdvance r n).vault = d.vault := by
  (unfold Dev.ringAdvance) <;> (try dsimp only) <;> (repeat' split) <;> simp
@[simp] theorem ringAdvance_nm (d : Dev) (r n : Nat) : (d.ringAdvance r n).nm = d.nm := by
  (unfold Dev.ringAdvance) <;> (try dsimp only) <;> (repeat' split) <;> simp
@[simp] theorem ringAdvance_load (d : Dev) (r n : Nat) : (d.ringAdvance r n).load = d.load := by
  (unfold Dev.ringAdvance) <;> (try dsimp only) <;> (repeat' split) <;> simp
@[simp] theorem ringAdvance_host (d : Dev) (r n : Nat) : (d.ringAdvance r n).host = d.host := by
  (unfold Dev.ringAdvance) <;> (try dsimp only) <;> (repeat' split) <;> simp
@[simp] theorem ringAdvance_bus (d : Dev) (r n : Nat) : (d.ringAdvance r n).bus = d.bus := by
  (unfold Dev.ringAdvance) <;> (try dsimp only) <;> (repeat' split) <;> simp
@[simp] theorem ringAdvance_flt (d : Dev) (r n : Nat) : (d.ringAdvance r n).flt = d.flt := by
  (unfold Dev.ringAdvance) <;> (try dsimp only) <;> (repeat' split) <;> simp
@[simp] theorem ringAdvance_boot (d : Dev) (r n : Nat) : (d.ringAdvance r n).boot = d.boot := by
  (unfold Dev.ringAdvance) <;> (try dsimp only) <;> (repeat' split) <;> simp
@[simp] theorem ringAdvance_pwr (d : Dev) (r n : Nat) : (d.ringAdvance r n).pwr = d.pwr := by
  (unfold Dev.ringAdvance) <;> (try dsimp only) <;> (repeat' split) <;> simp

/-! ### `ringMsg` -/

@[simp] theorem ringMsg_regs (d : Dev) (r : Nat) : (d.ringMsg r).regs = d.regs := by
  (unfold Dev.ringMsg) <;> (try dsimp only) <;> (repeat' split) <;> simp
@[simp] theorem ringMsg_tbl (d : Dev) (r : Nat) : (d.ringMsg r).tbl = d.tbl := by
  (unfold Dev.ringMsg) <;> (try dsimp only) <;> (repeat' split) <;> simp
@[simp] theorem ringMsg_hostMem (d : Dev) (r : Nat) : (d.ringMsg r).hostMem = d.hostMem := by
  (unfold Dev.ringMsg) <;> (try dsimp only) <;> (repeat' split) <;> simp
@[simp] theorem ringMsg_free (d : Dev) (r : Nat) : (d.ringMsg r).free = d.free := by
  (unfold Dev.ringMsg) <;> (try dsimp only) <;> (repeat' split) <;> simp
@[simp] theorem ringMsg_anvil (d : Dev) (r : Nat) : (d.ringMsg r).anvil = d.anvil := by
  (unfold Dev.ringMsg) <;> (try dsimp only) <;> (repeat' split) <;> simp
@[simp] theorem ringMsg_fwd (d : Dev) (r : Nat) : (d.ringMsg r).fwd = d.fwd := by
  (unfold Dev.ringMsg) <;> (try dsimp only) <;> (repeat' split) <;> simp
@[simp] theorem ringMsg_tables (d : Dev) (r : Nat) : (d.ringMsg r).tables = d.tables := by
  (unfold Dev.ringMsg) <;> (try dsimp only) <;> (repeat' split) <;> simp
@[simp] theorem ringMsg_ste (d : Dev) (r : Nat) : (d.ringMsg r).ste = d.ste := by
  (unfold Dev.ringMsg) <;> (try dsimp only) <;> (repeat' split) <;> simp
@[simp] theorem ringMsg_can (d : Dev) (r : Nat) : (d.ringMsg r).can = d.can := by
  (unfold Dev.ringMsg) <;> (try dsimp only) <;> (repeat' split) <;> simp
@[simp] theorem ringMsg_lin (d : Dev) (r : Nat) : (d.ringMsg r).lin = d.lin := by
  (unfold Dev.ringMsg) <;> (try dsimp only) <;> (repeat' split) <;> simp
@[simp] theorem ringMsg_eth (d : Dev) (r : Nat) : (d.ringMsg r).eth = d.eth := by
  (unfold Dev.ringMsg) <;> (try dsimp only) <;> (repeat' split) <;> simp
@[simp] theorem ringMsg_time (d : Dev) (r : Nat) : (d.ringMsg r).time = d.time := by
  (unfold Dev.ringMsg) <;> (try dsimp only) <;> (repeat' split) <;> simp
@[simp] theorem ringMsg_xpt (d : Dev) (r : Nat) : (d.ringMsg r).xpt = d.xpt := by
  (unfold Dev.ringMsg) <;> (try dsimp only) <;> (repeat' split) <;> simp
@[simp] theorem ringMsg_cry (d : Dev) (r : Nat) : (d.ringMsg r).cry = d.cry := by
  (unfold Dev.ringMsg) <;> (try dsimp only) <;> (repeat' split) <;> simp
@[simp] theorem ringMsg_vault (d : Dev) (r : Nat) : (d.ringMsg r).vault = d.vault := by
  (unfold Dev.ringMsg) <;> (try dsimp only) <;> (repeat' split) <;> simp
@[simp] theorem ringMsg_nm (d : Dev) (r : Nat) : (d.ringMsg r).nm = d.nm := by
  (unfold Dev.ringMsg) <;> (try dsimp only) <;> (repeat' split) <;> simp
@[simp] theorem ringMsg_load (d : Dev) (r : Nat) : (d.ringMsg r).load = d.load := by
  (unfold Dev.ringMsg) <;> (try dsimp only) <;> (repeat' split) <;> simp
@[simp] theorem ringMsg_bus (d : Dev) (r : Nat) : (d.ringMsg r).bus = d.bus := by
  (unfold Dev.ringMsg) <;> (try dsimp only) <;> (repeat' split) <;> simp
@[simp] theorem ringMsg_flt (d : Dev) (r : Nat) : (d.ringMsg r).flt = d.flt := by
  (unfold Dev.ringMsg) <;> (try dsimp only) <;> (repeat' split) <;> simp
@[simp] theorem ringMsg_boot (d : Dev) (r : Nat) : (d.ringMsg r).boot = d.boot := by
  (unfold Dev.ringMsg) <;> (try dsimp only) <;> (repeat' split) <;> simp
@[simp] theorem ringMsg_pwr (d : Dev) (r : Nat) : (d.ringMsg r).pwr = d.pwr := by
  (unfold Dev.ringMsg) <;> (try dsimp only) <;> (repeat' split) <;> simp
@[simp] theorem ringMsg_host_ops (d : Dev) (r : Nat) : (d.ringMsg r).host.ops = d.host.ops := by
  (unfold Dev.ringMsg) <;> (try dsimp only) <;> (repeat' split) <;> simp
@[simp] theorem ringMsg_host_txPend (d : Dev) (r : Nat) : (d.ringMsg r).host.txPend = d.host.txPend := by
  (unfold Dev.ringMsg) <;> (try dsimp only) <;> (repeat' split) <;> simp
@[simp] theorem ringMsg_host_unknown (d : Dev) (r : Nat) : (d.ringMsg r).host.unknown = d.host.unknown := by
  (unfold Dev.ringMsg) <;> (try dsimp only) <;> (repeat' split) <;> simp
@[simp] theorem ringMsg_host_aborts (d : Dev) (r : Nat) : (d.ringMsg r).host.aborts = d.host.aborts := by
  (unfold Dev.ringMsg) <;> (try dsimp only) <;> (repeat' split) <;> simp
@[simp] theorem ringMsg_host_hist (d : Dev) (r : Nat) : (d.ringMsg r).host.hist = d.host.hist := by
  (unfold Dev.ringMsg) <;> (try dsimp only) <;> (repeat' split) <;> simp
@[simp] theorem ringMsg_host_txWait (d : Dev) (r : Nat) : (d.ringMsg r).host.txWait = d.host.txWait := by
  (unfold Dev.ringMsg) <;> (try dsimp only) <;> (repeat' split) <;> simp
@[simp] theorem ringMsg_host_txKilled (d : Dev) (r : Nat) : (d.ringMsg r).host.txKilled = d.host.txKilled := by
  (unfold Dev.ringMsg) <;> (try dsimp only) <;> (repeat' split) <;> simp

/-! ### `complete` -/

@[simp] theorem complete_regs (d : Dev) (r : Nat) (irq : Bool) : (d.complete r irq).regs = d.regs := by
  (unfold Dev.complete) <;> (try dsimp only) <;> (repeat' split) <;> simp
@[simp] theorem complete_tbl (d : Dev) (r : Nat) (irq : Bool) : (d.complete r irq).tbl = d.tbl := by
  (unfold Dev.complete) <;> (try dsimp only) <;> (repeat' split) <;> simp
@[simp] theorem complete_hostMem (d : Dev) (r : Nat) (irq : Bool) : (d.complete r irq).hostMem = d.hostMem := by
  (unfold Dev.complete) <;> (try dsimp only) <;> (repeat' split) <;> simp
@[simp] theorem complete_free (d : Dev) (r : Nat) (irq : Bool) : (d.complete r irq).free = d.free := by
  (unfold Dev.complete) <;> (try dsimp only) <;> (repeat' split) <;> simp
@[simp] theorem complete_anvil (d : Dev) (r : Nat) (irq : Bool) : (d.complete r irq).anvil = d.anvil := by
  (unfold Dev.complete) <;> (try dsimp only) <;> (repeat' split) <;> simp
@[simp] theorem complete_fwd (d : Dev) (r : Nat) (irq : Bool) : (d.complete r irq).fwd = d.fwd := by
  (unfold Dev.complete) <;> (try dsimp only) <;> (repeat' split) <;> simp
@[simp] theorem complete_tables (d : Dev) (r : Nat) (irq : Bool) : (d.complete r irq).tables = d.tables := by
  (unfold Dev.complete) <;> (try dsimp only) <;> (repeat' split) <;> simp
@[simp] theorem complete_ste (d : Dev) (r : Nat) (irq : Bool) : (d.complete r irq).ste = d.ste := by
  (unfold Dev.complete) <;> (try dsimp only) <;> (repeat' split) <;> simp
@[simp] theorem complete_can (d : Dev) (r : Nat) (irq : Bool) : (d.complete r irq).can = d.can := by
  (unfold Dev.complete) <;> (try dsimp only) <;> (repeat' split) <;> simp
@[simp] theorem complete_lin (d : Dev) (r : Nat) (irq : Bool) : (d.complete r irq).lin = d.lin := by
  (unfold Dev.complete) <;> (try dsimp only) <;> (repeat' split) <;> simp
@[simp] theorem complete_eth (d : Dev) (r : Nat) (irq : Bool) : (d.complete r irq).eth = d.eth := by
  (unfold Dev.complete) <;> (try dsimp only) <;> (repeat' split) <;> simp
@[simp] theorem complete_time (d : Dev) (r : Nat) (irq : Bool) : (d.complete r irq).time = d.time := by
  (unfold Dev.complete) <;> (try dsimp only) <;> (repeat' split) <;> simp
@[simp] theorem complete_xpt (d : Dev) (r : Nat) (irq : Bool) : (d.complete r irq).xpt = d.xpt := by
  (unfold Dev.complete) <;> (try dsimp only) <;> (repeat' split) <;> simp
@[simp] theorem complete_cry (d : Dev) (r : Nat) (irq : Bool) : (d.complete r irq).cry = d.cry := by
  (unfold Dev.complete) <;> (try dsimp only) <;> (repeat' split) <;> simp
@[simp] theorem complete_vault (d : Dev) (r : Nat) (irq : Bool) : (d.complete r irq).vault = d.vault := by
  (unfold Dev.complete) <;> (try dsimp only) <;> (repeat' split) <;> simp
@[simp] theorem complete_nm (d : Dev) (r : Nat) (irq : Bool) : (d.complete r irq).nm = d.nm := by
  (unfold Dev.complete) <;> (try dsimp only) <;> (repeat' split) <;> simp
@[simp] theorem complete_load (d : Dev) (r : Nat) (irq : Bool) : (d.complete r irq).load = d.load := by
  (unfold Dev.complete) <;> (try dsimp only) <;> (repeat' split) <;> simp
@[simp] theorem complete_bus (d : Dev) (r : Nat) (irq : Bool) : (d.complete r irq).bus = d.bus := by
  (unfold Dev.complete) <;> (try dsimp only) <;> (repeat' split) <;> simp
@[simp] theorem complete_flt (d : Dev) (r : Nat) (irq : Bool) : (d.complete r irq).flt = d.flt := by
  (unfold Dev.complete) <;> (try dsimp only) <;> (repeat' split) <;> simp
@[simp] theorem complete_boot (d : Dev) (r : Nat) (irq : Bool) : (d.complete r irq).boot = d.boot := by
  (unfold Dev.complete) <;> (try dsimp only) <;> (repeat' split) <;> simp
@[simp] theorem complete_pwr (d : Dev) (r : Nat) (irq : Bool) : (d.complete r irq).pwr = d.pwr := by
  (unfold Dev.complete) <;> (try dsimp only) <;> (repeat' split) <;> simp
@[simp] theorem complete_host_ops (d : Dev) (r : Nat) (irq : Bool) : (d.complete r irq).host.ops = d.host.ops := by
  (unfold Dev.complete) <;> (try dsimp only) <;> (repeat' split) <;> simp
@[simp] theorem complete_host_txPend (d : Dev) (r : Nat) (irq : Bool) : (d.complete r irq).host.txPend = d.host.txPend := by
  (unfold Dev.complete) <;> (try dsimp only) <;> (repeat' split) <;> simp
@[simp] theorem complete_host_unknown (d : Dev) (r : Nat) (irq : Bool) : (d.complete r irq).host.unknown = d.host.unknown := by
  (unfold Dev.complete) <;> (try dsimp only) <;> (repeat' split) <;> simp
@[simp] theorem complete_host_aborts (d : Dev) (r : Nat) (irq : Bool) : (d.complete r irq).host.aborts = d.host.aborts := by
  (unfold Dev.complete) <;> (try dsimp only) <;> (repeat' split) <;> simp
@[simp] theorem complete_host_hist (d : Dev) (r : Nat) (irq : Bool) : (d.complete r irq).host.hist = d.host.hist := by
  (unfold Dev.complete) <;> (try dsimp only) <;> (repeat' split) <;> simp
@[simp] theorem complete_host_txWait (d : Dev) (r : Nat) (irq : Bool) : (d.complete r irq).host.txWait = d.host.txWait := by
  (unfold Dev.complete) <;> (try dsimp only) <;> (repeat' split) <;> simp
@[simp] theorem complete_host_txKilled (d : Dev) (r : Nat) (irq : Bool) : (d.complete r irq).host.txKilled = d.host.txKilled := by
  (unfold Dev.complete) <;> (try dsimp only) <;> (repeat' split) <;> simp

/-! ### `eventPut` -/

@[simp] theorem eventPut_tbl (d : Dev) (r : Nat) (e : List Byte) : (d.eventPut r e).tbl = d.tbl := by
  (unfold Dev.eventPut) <;> (try dsimp only) <;> (repeat' split) <;> simp
@[simp] theorem eventPut_free (d : Dev) (r : Nat) (e : List Byte) : (d.eventPut r e).free = d.free := by
  (unfold Dev.eventPut) <;> (try dsimp only) <;> (repeat' split) <;> simp
@[simp] theorem eventPut_anvil (d : Dev) (r : Nat) (e : List Byte) : (d.eventPut r e).anvil = d.anvil := by
  (unfold Dev.eventPut) <;> (try dsimp only) <;> (repeat' split) <;> simp
@[simp] theorem eventPut_fwd (d : Dev) (r : Nat) (e : List Byte) : (d.eventPut r e).fwd = d.fwd := by
  (unfold Dev.eventPut) <;> (try dsimp only) <;> (repeat' split) <;> simp
@[simp] theorem eventPut_tables (d : Dev) (r : Nat) (e : List Byte) : (d.eventPut r e).tables = d.tables := by
  (unfold Dev.eventPut) <;> (try dsimp only) <;> (repeat' split) <;> simp
@[simp] theorem eventPut_ste (d : Dev) (r : Nat) (e : List Byte) : (d.eventPut r e).ste = d.ste := by
  (unfold Dev.eventPut) <;> (try dsimp only) <;> (repeat' split) <;> simp
@[simp] theorem eventPut_can (d : Dev) (r : Nat) (e : List Byte) : (d.eventPut r e).can = d.can := by
  (unfold Dev.eventPut) <;> (try dsimp only) <;> (repeat' split) <;> simp
@[simp] theorem eventPut_lin (d : Dev) (r : Nat) (e : List Byte) : (d.eventPut r e).lin = d.lin := by
  (unfold Dev.eventPut) <;> (try dsimp only) <;> (repeat' split) <;> simp
@[simp] theorem eventPut_eth (d : Dev) (r : Nat) (e : List Byte) : (d.eventPut r e).eth = d.eth := by
  (unfold Dev.eventPut) <;> (try dsimp only) <;> (repeat' split) <;> simp
@[simp] theorem eventPut_time (d : Dev) (r : Nat) (e : List Byte) : (d.eventPut r e).time = d.time := by
  (unfold Dev.eventPut) <;> (try dsimp only) <;> (repeat' split) <;> simp
@[simp] theorem eventPut_xpt (d : Dev) (r : Nat) (e : List Byte) : (d.eventPut r e).xpt = d.xpt := by
  (unfold Dev.eventPut) <;> (try dsimp only) <;> (repeat' split) <;> simp
@[simp] theorem eventPut_cry (d : Dev) (r : Nat) (e : List Byte) : (d.eventPut r e).cry = d.cry := by
  (unfold Dev.eventPut) <;> (try dsimp only) <;> (repeat' split) <;> simp
@[simp] theorem eventPut_vault (d : Dev) (r : Nat) (e : List Byte) : (d.eventPut r e).vault = d.vault := by
  (unfold Dev.eventPut) <;> (try dsimp only) <;> (repeat' split) <;> simp
@[simp] theorem eventPut_nm (d : Dev) (r : Nat) (e : List Byte) : (d.eventPut r e).nm = d.nm := by
  (unfold Dev.eventPut) <;> (try dsimp only) <;> (repeat' split) <;> simp
@[simp] theorem eventPut_load (d : Dev) (r : Nat) (e : List Byte) : (d.eventPut r e).load = d.load := by
  (unfold Dev.eventPut) <;> (try dsimp only) <;> (repeat' split) <;> simp
@[simp] theorem eventPut_bus (d : Dev) (r : Nat) (e : List Byte) : (d.eventPut r e).bus = d.bus := by
  (unfold Dev.eventPut) <;> (try dsimp only) <;> (repeat' split) <;> simp
@[simp] theorem eventPut_flt (d : Dev) (r : Nat) (e : List Byte) : (d.eventPut r e).flt = d.flt := by
  (unfold Dev.eventPut) <;> (try dsimp only) <;> (repeat' split) <;> simp
@[simp] theorem eventPut_boot (d : Dev) (r : Nat) (e : List Byte) : (d.eventPut r e).boot = d.boot := by
  (unfold Dev.eventPut) <;> (try dsimp only) <;> (repeat' split) <;> simp
@[simp] theorem eventPut_pwr (d : Dev) (r : Nat) (e : List Byte) : (d.eventPut r e).pwr = d.pwr := by
  (unfold Dev.eventPut) <;> (try dsimp only) <;> (repeat' split) <;> simp
@[simp] theorem eventPut_host_ops (d : Dev) (r : Nat) (e : List Byte) : (d.eventPut r e).host.ops = d.host.ops := by
  (unfold Dev.eventPut) <;> (try dsimp only) <;> (repeat' split) <;> simp
@[simp] theorem eventPut_host_txPend (d : Dev) (r : Nat) (e : List Byte) : (d.eventPut r e).host.txPend = d.host.txPend := by
  (unfold Dev.eventPut) <;> (try dsimp only) <;> (repeat' split) <;> simp
@[simp] theorem eventPut_host_unknown (d : Dev) (r : Nat) (e : List Byte) : (d.eventPut r e).host.unknown = d.host.unknown := by
  (unfold Dev.eventPut) <;> (try dsimp only) <;> (repeat' split) <;> simp
@[simp] theorem eventPut_host_aborts (d : Dev) (r : Nat) (e : List Byte) : (d.eventPut r e).host.aborts = d.host.aborts := by
  (unfold Dev.eventPut) <;> (try dsimp only) <;> (repeat' split) <;> simp
@[simp] theorem eventPut_host_hist (d : Dev) (r : Nat) (e : List Byte) : (d.eventPut r e).host.hist = d.host.hist := by
  (unfold Dev.eventPut) <;> (try dsimp only) <;> (repeat' split) <;> simp
@[simp] theorem eventPut_host_txWait (d : Dev) (r : Nat) (e : List Byte) : (d.eventPut r e).host.txWait = d.host.txWait := by
  (unfold Dev.eventPut) <;> (try dsimp only) <;> (repeat' split) <;> simp
@[simp] theorem eventPut_host_txKilled (d : Dev) (r : Nat) (e : List Byte) : (d.eventPut r e).host.txKilled = d.host.txKilled := by
  (unfold Dev.eventPut) <;> (try dsimp only) <;> (repeat' split) <;> simp

/-! ### `putStatus` -/

@[simp] theorem putStatus_regs (d : Dev) (o : Op) (e : Nat) : (d.putStatus o e).regs = d.regs := by
  (unfold Dev.putStatus) <;> (try dsimp only) <;> (repeat' split) <;> simp
@[simp] theorem putStatus_tbl (d : Dev) (o : Op) (e : Nat) : (d.putStatus o e).tbl = d.tbl := by
  (unfold Dev.putStatus) <;> (try dsimp only) <;> (repeat' split) <;> simp
@[simp] theorem putStatus_out (d : Dev) (o : Op) (e : Nat) : (d.putStatus o e).out = d.out := by
  (unfold Dev.putStatus) <;> (try dsimp only) <;> (repeat' split) <;> simp
@[simp] theorem putStatus_free (d : Dev) (o : Op) (e : Nat) : (d.putStatus o e).free = d.free := by
  (unfold Dev.putStatus) <;> (try dsimp only) <;> (repeat' split) <;> simp
@[simp] theorem putStatus_anvil (d : Dev) (o : Op) (e : Nat) : (d.putStatus o e).anvil = d.anvil := by
  (unfold Dev.putStatus) <;> (try dsimp only) <;> (repeat' split) <;> simp
@[simp] theorem putStatus_fwd (d : Dev) (o : Op) (e : Nat) : (d.putStatus o e).fwd = d.fwd := by
  (unfold Dev.putStatus) <;> (try dsimp only) <;> (repeat' split) <;> simp
@[simp] theorem putStatus_tables (d : Dev) (o : Op) (e : Nat) : (d.putStatus o e).tables = d.tables := by
  (unfold Dev.putStatus) <;> (try dsimp only) <;> (repeat' split) <;> simp
@[simp] theorem putStatus_ste (d : Dev) (o : Op) (e : Nat) : (d.putStatus o e).ste = d.ste := by
  (unfold Dev.putStatus) <;> (try dsimp only) <;> (repeat' split) <;> simp
@[simp] theorem putStatus_can (d : Dev) (o : Op) (e : Nat) : (d.putStatus o e).can = d.can := by
  (unfold Dev.putStatus) <;> (try dsimp only) <;> (repeat' split) <;> simp
@[simp] theorem putStatus_lin (d : Dev) (o : Op) (e : Nat) : (d.putStatus o e).lin = d.lin := by
  (unfold Dev.putStatus) <;> (try dsimp only) <;> (repeat' split) <;> simp
@[simp] theorem putStatus_eth (d : Dev) (o : Op) (e : Nat) : (d.putStatus o e).eth = d.eth := by
  (unfold Dev.putStatus) <;> (try dsimp only) <;> (repeat' split) <;> simp
@[simp] theorem putStatus_time (d : Dev) (o : Op) (e : Nat) : (d.putStatus o e).time = d.time := by
  (unfold Dev.putStatus) <;> (try dsimp only) <;> (repeat' split) <;> simp
@[simp] theorem putStatus_xpt (d : Dev) (o : Op) (e : Nat) : (d.putStatus o e).xpt = d.xpt := by
  (unfold Dev.putStatus) <;> (try dsimp only) <;> (repeat' split) <;> simp
@[simp] theorem putStatus_cry (d : Dev) (o : Op) (e : Nat) : (d.putStatus o e).cry = d.cry := by
  (unfold Dev.putStatus) <;> (try dsimp only) <;> (repeat' split) <;> simp
@[simp] theorem putStatus_vault (d : Dev) (o : Op) (e : Nat) : (d.putStatus o e).vault = d.vault := by
  (unfold Dev.putStatus) <;> (try dsimp only) <;> (repeat' split) <;> simp
@[simp] theorem putStatus_nm (d : Dev) (o : Op) (e : Nat) : (d.putStatus o e).nm = d.nm := by
  (unfold Dev.putStatus) <;> (try dsimp only) <;> (repeat' split) <;> simp
@[simp] theorem putStatus_load (d : Dev) (o : Op) (e : Nat) : (d.putStatus o e).load = d.load := by
  (unfold Dev.putStatus) <;> (try dsimp only) <;> (repeat' split) <;> simp
@[simp] theorem putStatus_host (d : Dev) (o : Op) (e : Nat) : (d.putStatus o e).host = d.host := by
  (unfold Dev.putStatus) <;> (try dsimp only) <;> (repeat' split) <;> simp
@[simp] theorem putStatus_bus (d : Dev) (o : Op) (e : Nat) : (d.putStatus o e).bus = d.bus := by
  (unfold Dev.putStatus) <;> (try dsimp only) <;> (repeat' split) <;> simp
@[simp] theorem putStatus_flt (d : Dev) (o : Op) (e : Nat) : (d.putStatus o e).flt = d.flt := by
  (unfold Dev.putStatus) <;> (try dsimp only) <;> (repeat' split) <;> simp
@[simp] theorem putStatus_boot (d : Dev) (o : Op) (e : Nat) : (d.putStatus o e).boot = d.boot := by
  (unfold Dev.putStatus) <;> (try dsimp only) <;> (repeat' split) <;> simp
@[simp] theorem putStatus_pwr (d : Dev) (o : Op) (e : Nat) : (d.putStatus o e).pwr = d.pwr := by
  (unfold Dev.putStatus) <;> (try dsimp only) <;> (repeat' split) <;> simp

/-! ### `setOp` -/

@[simp] theorem setOp_regs (d : Dev) (o : Op) : (d.setOp o).regs = d.regs := by
  (unfold Dev.setOp) <;> (try dsimp only) <;> (repeat' split) <;> simp
@[simp] theorem setOp_tbl (d : Dev) (o : Op) : (d.setOp o).tbl = d.tbl := by
  (unfold Dev.setOp) <;> (try dsimp only) <;> (repeat' split) <;> simp
@[simp] theorem setOp_hostMem (d : Dev) (o : Op) : (d.setOp o).hostMem = d.hostMem := by
  (unfold Dev.setOp) <;> (try dsimp only) <;> (repeat' split) <;> simp
@[simp] theorem setOp_out (d : Dev) (o : Op) : (d.setOp o).out = d.out := by
  (unfold Dev.setOp) <;> (try dsimp only) <;> (repeat' split) <;> simp
@[simp] theorem setOp_free (d : Dev) (o : Op) : (d.setOp o).free = d.free := by
  (unfold Dev.setOp) <;> (try dsimp only) <;> (repeat' split) <;> simp
@[simp] theorem setOp_anvil (d : Dev) (o : Op) : (d.setOp o).anvil = d.anvil := by
  (unfold Dev.setOp) <;> (try dsimp only) <;> (repeat' split) <;> simp
@[simp] theorem setOp_fwd (d : Dev) (o : Op) : (d.setOp o).fwd = d.fwd := by
  (unfold Dev.setOp) <;> (try dsimp only) <;> (repeat' split) <;> simp
@[simp] theorem setOp_tables (d : Dev) (o : Op) : (d.setOp o).tables = d.tables := by
  (unfold Dev.setOp) <;> (try dsimp only) <;> (repeat' split) <;> simp
@[simp] theorem setOp_ste (d : Dev) (o : Op) : (d.setOp o).ste = d.ste := by
  (unfold Dev.setOp) <;> (try dsimp only) <;> (repeat' split) <;> simp
@[simp] theorem setOp_can (d : Dev) (o : Op) : (d.setOp o).can = d.can := by
  (unfold Dev.setOp) <;> (try dsimp only) <;> (repeat' split) <;> simp
@[simp] theorem setOp_lin (d : Dev) (o : Op) : (d.setOp o).lin = d.lin := by
  (unfold Dev.setOp) <;> (try dsimp only) <;> (repeat' split) <;> simp
@[simp] theorem setOp_eth (d : Dev) (o : Op) : (d.setOp o).eth = d.eth := by
  (unfold Dev.setOp) <;> (try dsimp only) <;> (repeat' split) <;> simp
@[simp] theorem setOp_time (d : Dev) (o : Op) : (d.setOp o).time = d.time := by
  (unfold Dev.setOp) <;> (try dsimp only) <;> (repeat' split) <;> simp
@[simp] theorem setOp_xpt (d : Dev) (o : Op) : (d.setOp o).xpt = d.xpt := by
  (unfold Dev.setOp) <;> (try dsimp only) <;> (repeat' split) <;> simp
@[simp] theorem setOp_cry (d : Dev) (o : Op) : (d.setOp o).cry = d.cry := by
  (unfold Dev.setOp) <;> (try dsimp only) <;> (repeat' split) <;> simp
@[simp] theorem setOp_vault (d : Dev) (o : Op) : (d.setOp o).vault = d.vault := by
  (unfold Dev.setOp) <;> (try dsimp only) <;> (repeat' split) <;> simp
@[simp] theorem setOp_nm (d : Dev) (o : Op) : (d.setOp o).nm = d.nm := by
  (unfold Dev.setOp) <;> (try dsimp only) <;> (repeat' split) <;> simp
@[simp] theorem setOp_load (d : Dev) (o : Op) : (d.setOp o).load = d.load := by
  (unfold Dev.setOp) <;> (try dsimp only) <;> (repeat' split) <;> simp
@[simp] theorem setOp_bus (d : Dev) (o : Op) : (d.setOp o).bus = d.bus := by
  (unfold Dev.setOp) <;> (try dsimp only) <;> (repeat' split) <;> simp
@[simp] theorem setOp_flt (d : Dev) (o : Op) : (d.setOp o).flt = d.flt := by
  (unfold Dev.setOp) <;> (try dsimp only) <;> (repeat' split) <;> simp
@[simp] theorem setOp_boot (d : Dev) (o : Op) : (d.setOp o).boot = d.boot := by
  (unfold Dev.setOp) <;> (try dsimp only) <;> (repeat' split) <;> simp
@[simp] theorem setOp_pwr (d : Dev) (o : Op) : (d.setOp o).pwr = d.pwr := by
  (unfold Dev.setOp) <;> (try dsimp only) <;> (repeat' split) <;> simp
@[simp] theorem setOp_host_txPend (d : Dev) (o : Op) : (d.setOp o).host.txPend = d.host.txPend := by
  (unfold Dev.setOp) <;> (try dsimp only) <;> (repeat' split) <;> simp
@[simp] theorem setOp_host_rings (d : Dev) (o : Op) : (d.setOp o).host.rings = d.host.rings := by
  (unfold Dev.setOp) <;> (try dsimp only) <;> (repeat' split) <;> simp
@[simp] theorem setOp_host_unknown (d : Dev) (o : Op) : (d.setOp o).host.unknown = d.host.unknown := by
  (unfold Dev.setOp) <;> (try dsimp only) <;> (repeat' split) <;> simp
@[simp] theorem setOp_host_aborts (d : Dev) (o : Op) : (d.setOp o).host.aborts = d.host.aborts := by
  (unfold Dev.setOp) <;> (try dsimp only) <;> (repeat' split) <;> simp
@[simp] theorem setOp_host_hist (d : Dev) (o : Op) : (d.setOp o).host.hist = d.host.hist := by
  (unfold Dev.setOp) <;> (try dsimp only) <;> (repeat' split) <;> simp
@[simp] theorem setOp_host_txWait (d : Dev) (o : Op) : (d.setOp o).host.txWait = d.host.txWait := by
  (unfold Dev.setOp) <;> (try dsimp only) <;> (repeat' split) <;> simp
@[simp] theorem setOp_host_txKilled (d : Dev) (o : Op) : (d.setOp o).host.txKilled = d.host.txKilled := by
  (unfold Dev.setOp) <;> (try dsimp only) <;> (repeat' split) <;> simp

/-! ### `dropOp` -/

@[simp] theorem dropOp_regs (d : Dev) (o : Op) : (d.dropOp o).regs = d.regs := by
  (unfold Dev.dropOp) <;> (try dsimp only) <;> (repeat' split) <;> simp
@[simp] theorem dropOp_tbl (d : Dev) (o : Op) : (d.dropOp o).tbl = d.tbl := by
  (unfold Dev.dropOp) <;> (try dsimp only) <;> (repeat' split) <;> simp
@[simp] theorem dropOp_hostMem (d : Dev) (o : Op) : (d.dropOp o).hostMem = d.hostMem := by
  (unfold Dev.dropOp) <;> (try dsimp only) <;> (repeat' split) <;> simp
@[simp] theorem dropOp_out (d : Dev) (o : Op) : (d.dropOp o).out = d.out := by
  (unfold Dev.dropOp) <;> (try dsimp only) <;> (repeat' split) <;> simp
@[simp] theorem dropOp_free (d : Dev) (o : Op) : (d.dropOp o).free = d.free := by
  (unfold Dev.dropOp) <;> (try dsimp only) <;> (repeat' split) <;> simp
@[simp] theorem dropOp_anvil (d : Dev) (o : Op) : (d.dropOp o).anvil = d.anvil := by
  (unfold Dev.dropOp) <;> (try dsimp only) <;> (repeat' split) <;> simp
@[simp] theorem dropOp_fwd (d : Dev) (o : Op) : (d.dropOp o).fwd = d.fwd := by
  (unfold Dev.dropOp) <;> (try dsimp only) <;> (repeat' split) <;> simp
@[simp] theorem dropOp_tables (d : Dev) (o : Op) : (d.dropOp o).tables = d.tables := by
  (unfold Dev.dropOp) <;> (try dsimp only) <;> (repeat' split) <;> simp
@[simp] theorem dropOp_ste (d : Dev) (o : Op) : (d.dropOp o).ste = d.ste := by
  (unfold Dev.dropOp) <;> (try dsimp only) <;> (repeat' split) <;> simp
@[simp] theorem dropOp_can (d : Dev) (o : Op) : (d.dropOp o).can = d.can := by
  (unfold Dev.dropOp) <;> (try dsimp only) <;> (repeat' split) <;> simp
@[simp] theorem dropOp_lin (d : Dev) (o : Op) : (d.dropOp o).lin = d.lin := by
  (unfold Dev.dropOp) <;> (try dsimp only) <;> (repeat' split) <;> simp
@[simp] theorem dropOp_eth (d : Dev) (o : Op) : (d.dropOp o).eth = d.eth := by
  (unfold Dev.dropOp) <;> (try dsimp only) <;> (repeat' split) <;> simp
@[simp] theorem dropOp_time (d : Dev) (o : Op) : (d.dropOp o).time = d.time := by
  (unfold Dev.dropOp) <;> (try dsimp only) <;> (repeat' split) <;> simp
@[simp] theorem dropOp_xpt (d : Dev) (o : Op) : (d.dropOp o).xpt = d.xpt := by
  (unfold Dev.dropOp) <;> (try dsimp only) <;> (repeat' split) <;> simp
@[simp] theorem dropOp_cry (d : Dev) (o : Op) : (d.dropOp o).cry = d.cry := by
  (unfold Dev.dropOp) <;> (try dsimp only) <;> (repeat' split) <;> simp
@[simp] theorem dropOp_vault (d : Dev) (o : Op) : (d.dropOp o).vault = d.vault := by
  (unfold Dev.dropOp) <;> (try dsimp only) <;> (repeat' split) <;> simp
@[simp] theorem dropOp_nm (d : Dev) (o : Op) : (d.dropOp o).nm = d.nm := by
  (unfold Dev.dropOp) <;> (try dsimp only) <;> (repeat' split) <;> simp
@[simp] theorem dropOp_load (d : Dev) (o : Op) : (d.dropOp o).load = d.load := by
  (unfold Dev.dropOp) <;> (try dsimp only) <;> (repeat' split) <;> simp
@[simp] theorem dropOp_bus (d : Dev) (o : Op) : (d.dropOp o).bus = d.bus := by
  (unfold Dev.dropOp) <;> (try dsimp only) <;> (repeat' split) <;> simp
@[simp] theorem dropOp_flt (d : Dev) (o : Op) : (d.dropOp o).flt = d.flt := by
  (unfold Dev.dropOp) <;> (try dsimp only) <;> (repeat' split) <;> simp
@[simp] theorem dropOp_boot (d : Dev) (o : Op) : (d.dropOp o).boot = d.boot := by
  (unfold Dev.dropOp) <;> (try dsimp only) <;> (repeat' split) <;> simp
@[simp] theorem dropOp_pwr (d : Dev) (o : Op) : (d.dropOp o).pwr = d.pwr := by
  (unfold Dev.dropOp) <;> (try dsimp only) <;> (repeat' split) <;> simp
@[simp] theorem dropOp_host_txPend (d : Dev) (o : Op) : (d.dropOp o).host.txPend = d.host.txPend := by
  (unfold Dev.dropOp) <;> (try dsimp only) <;> (repeat' split) <;> simp
@[simp] theorem dropOp_host_rings (d : Dev) (o : Op) : (d.dropOp o).host.rings = d.host.rings := by
  (unfold Dev.dropOp) <;> (try dsimp only) <;> (repeat' split) <;> simp
@[simp] theorem dropOp_host_unknown (d : Dev) (o : Op) : (d.dropOp o).host.unknown = d.host.unknown := by
  (unfold Dev.dropOp) <;> (try dsimp only) <;> (repeat' split) <;> simp
@[simp] theorem dropOp_host_aborts (d : Dev) (o : Op) : (d.dropOp o).host.aborts = d.host.aborts := by
  (unfold Dev.dropOp) <;> (try dsimp only) <;> (repeat' split) <;> simp
@[simp] theorem dropOp_host_hist (d : Dev) (o : Op) : (d.dropOp o).host.hist = d.host.hist := by
  (unfold Dev.dropOp) <;> (try dsimp only) <;> (repeat' split) <;> simp
@[simp] theorem dropOp_host_txWait (d : Dev) (o : Op) : (d.dropOp o).host.txWait = d.host.txWait := by
  (unfold Dev.dropOp) <;> (try dsimp only) <;> (repeat' split) <;> simp
@[simp] theorem dropOp_host_txKilled (d : Dev) (o : Op) : (d.dropOp o).host.txKilled = d.host.txKilled := by
  (unfold Dev.dropOp) <;> (try dsimp only) <;> (repeat' split) <;> simp

/-! ### `startOp` -/

@[simp] theorem startOp_regs (d : Dev) (o : Op) : (d.startOp o).regs = d.regs := by
  (unfold Dev.startOp) <;> (try dsimp only) <;> (repeat' split) <;> simp
@[simp] theorem startOp_tbl (d : Dev) (o : Op) : (d.startOp o).tbl = d.tbl := by
  (unfold Dev.startOp) <;> (try dsimp only) <;> (repeat' split) <;> simp
@[simp] theorem startOp_out (d : Dev) (o : Op) : (d.startOp o).out = d.out := by
  (unfold Dev.startOp) <;> (try dsimp only) <;> (repeat' split) <;> simp
@[simp] theorem startOp_free (d : Dev) (o : Op) : (d.startOp o).free = d.free := by
  (unfold Dev.startOp) <;> (try dsimp only) <;> (repeat' split) <;> simp
@[simp] theorem startOp_anvil (d : Dev) (o : Op) : (d.startOp o).anvil = d.anvil := by
  (unfold Dev.startOp) <;> (try dsimp only) <;> (repeat' split) <;> simp
@[simp] theorem startOp_fwd (d : Dev) (o : Op) : (d.startOp o).fwd = d.fwd := by
  (unfold Dev.startOp) <;> (try dsimp only) <;> (repeat' split) <;> simp
@[simp] theorem startOp_tables (d : Dev) (o : Op) : (d.startOp o).tables = d.tables := by
  (unfold Dev.startOp) <;> (try dsimp only) <;> (repeat' split) <;> simp
@[simp] theorem startOp_ste (d : Dev) (o : Op) : (d.startOp o).ste = d.ste := by
  (unfold Dev.startOp) <;> (try dsimp only) <;> (repeat' split) <;> simp
@[simp] theorem startOp_can (d : Dev) (o : Op) : (d.startOp o).can = d.can := by
  (unfold Dev.startOp) <;> (try dsimp only) <;> (repeat' split) <;> simp
@[simp] theorem startOp_lin (d : Dev) (o : Op) : (d.startOp o).lin = d.lin := by
  (unfold Dev.startOp) <;> (try dsimp only) <;> (repeat' split) <;> simp
@[simp] theorem startOp_eth (d : Dev) (o : Op) : (d.startOp o).eth = d.eth := by
  (unfold Dev.startOp) <;> (try dsimp only) <;> (repeat' split) <;> simp
@[simp] theorem startOp_time (d : Dev) (o : Op) : (d.startOp o).time = d.time := by
  (unfold Dev.startOp) <;> (try dsimp only) <;> (repeat' split) <;> simp
@[simp] theorem startOp_xpt (d : Dev) (o : Op) : (d.startOp o).xpt = d.xpt := by
  (unfold Dev.startOp) <;> (try dsimp only) <;> (repeat' split) <;> simp
@[simp] theorem startOp_cry (d : Dev) (o : Op) : (d.startOp o).cry = d.cry := by
  (unfold Dev.startOp) <;> (try dsimp only) <;> (repeat' split) <;> simp
@[simp] theorem startOp_vault (d : Dev) (o : Op) : (d.startOp o).vault = d.vault := by
  (unfold Dev.startOp) <;> (try dsimp only) <;> (repeat' split) <;> simp
@[simp] theorem startOp_nm (d : Dev) (o : Op) : (d.startOp o).nm = d.nm := by
  (unfold Dev.startOp) <;> (try dsimp only) <;> (repeat' split) <;> simp
@[simp] theorem startOp_load (d : Dev) (o : Op) : (d.startOp o).load = d.load := by
  (unfold Dev.startOp) <;> (try dsimp only) <;> (repeat' split) <;> simp
@[simp] theorem startOp_bus (d : Dev) (o : Op) : (d.startOp o).bus = d.bus := by
  (unfold Dev.startOp) <;> (try dsimp only) <;> (repeat' split) <;> simp
@[simp] theorem startOp_flt (d : Dev) (o : Op) : (d.startOp o).flt = d.flt := by
  (unfold Dev.startOp) <;> (try dsimp only) <;> (repeat' split) <;> simp
@[simp] theorem startOp_boot (d : Dev) (o : Op) : (d.startOp o).boot = d.boot := by
  (unfold Dev.startOp) <;> (try dsimp only) <;> (repeat' split) <;> simp
@[simp] theorem startOp_pwr (d : Dev) (o : Op) : (d.startOp o).pwr = d.pwr := by
  (unfold Dev.startOp) <;> (try dsimp only) <;> (repeat' split) <;> simp
@[simp] theorem startOp_host_txPend (d : Dev) (o : Op) : (d.startOp o).host.txPend = d.host.txPend := by
  (unfold Dev.startOp) <;> (try dsimp only) <;> (repeat' split) <;> simp
@[simp] theorem startOp_host_rings (d : Dev) (o : Op) : (d.startOp o).host.rings = d.host.rings := by
  (unfold Dev.startOp) <;> (try dsimp only) <;> (repeat' split) <;> simp
@[simp] theorem startOp_host_unknown (d : Dev) (o : Op) : (d.startOp o).host.unknown = d.host.unknown := by
  (unfold Dev.startOp) <;> (try dsimp only) <;> (repeat' split) <;> simp
@[simp] theorem startOp_host_aborts (d : Dev) (o : Op) : (d.startOp o).host.aborts = d.host.aborts := by
  (unfold Dev.startOp) <;> (try dsimp only) <;> (repeat' split) <;> simp
@[simp] theorem startOp_host_hist (d : Dev) (o : Op) : (d.startOp o).host.hist = d.host.hist := by
  (unfold Dev.startOp) <;> (try dsimp only) <;> (repeat' split) <;> simp
@[simp] theorem startOp_host_txWait (d : Dev) (o : Op) : (d.startOp o).host.txWait = d.host.txWait := by
  (unfold Dev.startOp) <;> (try dsimp only) <;> (repeat' split) <;> simp
@[simp] theorem startOp_host_txKilled (d : Dev) (o : Op) : (d.startOp o).host.txKilled = d.host.txKilled := by
  (unfold Dev.startOp) <;> (try dsimp only) <;> (repeat' split) <;> simp

/-! ### `fltIrq` -/

@[simp] theorem fltIrq_regs (d : Dev) (b : Nat) : (d.fltIrq b).regs = d.regs := by
  (unfold Dev.fltIrq) <;> (try dsimp only) <;> (repeat' split) <;> simp
@[simp] theorem fltIrq_tbl (d : Dev) (b : Nat) : (d.fltIrq b).tbl = d.tbl := by
  (unfold Dev.fltIrq) <;> (try dsimp only) <;> (repeat' split) <;> simp
@[simp] theorem fltIrq_hostMem (d : Dev) (b : Nat) : (d.fltIrq b).hostMem = d.hostMem := by
  (unfold Dev.fltIrq) <;> (try dsimp only) <;> (repeat' split) <;> simp
@[simp] theorem fltIrq_free (d : Dev) (b : Nat) : (d.fltIrq b).free = d.free := by
  (unfold Dev.fltIrq) <;> (try dsimp only) <;> (repeat' split) <;> simp
@[simp] theorem fltIrq_anvil (d : Dev) (b : Nat) : (d.fltIrq b).anvil = d.anvil := by
  (unfold Dev.fltIrq) <;> (try dsimp only) <;> (repeat' split) <;> simp
@[simp] theorem fltIrq_fwd (d : Dev) (b : Nat) : (d.fltIrq b).fwd = d.fwd := by
  (unfold Dev.fltIrq) <;> (try dsimp only) <;> (repeat' split) <;> simp
@[simp] theorem fltIrq_tables (d : Dev) (b : Nat) : (d.fltIrq b).tables = d.tables := by
  (unfold Dev.fltIrq) <;> (try dsimp only) <;> (repeat' split) <;> simp
@[simp] theorem fltIrq_ste (d : Dev) (b : Nat) : (d.fltIrq b).ste = d.ste := by
  (unfold Dev.fltIrq) <;> (try dsimp only) <;> (repeat' split) <;> simp
@[simp] theorem fltIrq_can (d : Dev) (b : Nat) : (d.fltIrq b).can = d.can := by
  (unfold Dev.fltIrq) <;> (try dsimp only) <;> (repeat' split) <;> simp
@[simp] theorem fltIrq_lin (d : Dev) (b : Nat) : (d.fltIrq b).lin = d.lin := by
  (unfold Dev.fltIrq) <;> (try dsimp only) <;> (repeat' split) <;> simp
@[simp] theorem fltIrq_eth (d : Dev) (b : Nat) : (d.fltIrq b).eth = d.eth := by
  (unfold Dev.fltIrq) <;> (try dsimp only) <;> (repeat' split) <;> simp
@[simp] theorem fltIrq_time (d : Dev) (b : Nat) : (d.fltIrq b).time = d.time := by
  (unfold Dev.fltIrq) <;> (try dsimp only) <;> (repeat' split) <;> simp
@[simp] theorem fltIrq_xpt (d : Dev) (b : Nat) : (d.fltIrq b).xpt = d.xpt := by
  (unfold Dev.fltIrq) <;> (try dsimp only) <;> (repeat' split) <;> simp
@[simp] theorem fltIrq_cry (d : Dev) (b : Nat) : (d.fltIrq b).cry = d.cry := by
  (unfold Dev.fltIrq) <;> (try dsimp only) <;> (repeat' split) <;> simp
@[simp] theorem fltIrq_vault (d : Dev) (b : Nat) : (d.fltIrq b).vault = d.vault := by
  (unfold Dev.fltIrq) <;> (try dsimp only) <;> (repeat' split) <;> simp
@[simp] theorem fltIrq_nm (d : Dev) (b : Nat) : (d.fltIrq b).nm = d.nm := by
  (unfold Dev.fltIrq) <;> (try dsimp only) <;> (repeat' split) <;> simp
@[simp] theorem fltIrq_load (d : Dev) (b : Nat) : (d.fltIrq b).load = d.load := by
  (unfold Dev.fltIrq) <;> (try dsimp only) <;> (repeat' split) <;> simp
@[simp] theorem fltIrq_bus (d : Dev) (b : Nat) : (d.fltIrq b).bus = d.bus := by
  (unfold Dev.fltIrq) <;> (try dsimp only) <;> (repeat' split) <;> simp
@[simp] theorem fltIrq_flt (d : Dev) (b : Nat) : (d.fltIrq b).flt = d.flt := by
  (unfold Dev.fltIrq) <;> (try dsimp only) <;> (repeat' split) <;> simp
@[simp] theorem fltIrq_boot (d : Dev) (b : Nat) : (d.fltIrq b).boot = d.boot := by
  (unfold Dev.fltIrq) <;> (try dsimp only) <;> (repeat' split) <;> simp
@[simp] theorem fltIrq_pwr (d : Dev) (b : Nat) : (d.fltIrq b).pwr = d.pwr := by
  (unfold Dev.fltIrq) <;> (try dsimp only) <;> (repeat' split) <;> simp
@[simp] theorem fltIrq_host_ops (d : Dev) (b : Nat) : (d.fltIrq b).host.ops = d.host.ops := by
  (unfold Dev.fltIrq) <;> (try dsimp only) <;> (repeat' split) <;> simp
@[simp] theorem fltIrq_host_txPend (d : Dev) (b : Nat) : (d.fltIrq b).host.txPend = d.host.txPend := by
  (unfold Dev.fltIrq) <;> (try dsimp only) <;> (repeat' split) <;> simp
@[simp] theorem fltIrq_host_rings (d : Dev) (b : Nat) : (d.fltIrq b).host.rings = d.host.rings := by
  (unfold Dev.fltIrq) <;> (try dsimp only) <;> (repeat' split) <;> simp
@[simp] theorem fltIrq_host_unknown (d : Dev) (b : Nat) : (d.fltIrq b).host.unknown = d.host.unknown := by
  (unfold Dev.fltIrq) <;> (try dsimp only) <;> (repeat' split) <;> simp
@[simp] theorem fltIrq_host_aborts (d : Dev) (b : Nat) : (d.fltIrq b).host.aborts = d.host.aborts := by
  (unfold Dev.fltIrq) <;> (try dsimp only) <;> (repeat' split) <;> simp
@[simp] theorem fltIrq_host_hist (d : Dev) (b : Nat) : (d.fltIrq b).host.hist = d.host.hist := by
  (unfold Dev.fltIrq) <;> (try dsimp only) <;> (repeat' split) <;> simp
@[simp] theorem fltIrq_host_txWait (d : Dev) (b : Nat) : (d.fltIrq b).host.txWait = d.host.txWait := by
  (unfold Dev.fltIrq) <;> (try dsimp only) <;> (repeat' split) <;> simp
@[simp] theorem fltIrq_host_txKilled (d : Dev) (b : Nat) : (d.fltIrq b).host.txKilled = d.host.txKilled := by
  (unfold Dev.fltIrq) <;> (try dsimp only) <;> (repeat' split) <;> simp

/-! ### `fltSet` -/

@[simp] theorem fltSet_tbl (d : Dev) (b i : Nat) : (d.fltSet b i).tbl = d.tbl := by
  (unfold Dev.fltSet Dev.fltEdge) <;> (try dsimp only) <;> (repeat' split) <;> simp
@[simp] theorem fltSet_hostMem (d : Dev) (b i : Nat) : (d.fltSet b i).hostMem = d.hostMem := by
  (unfold Dev.fltSet Dev.fltEdge) <;> (try dsimp only) <;> (repeat' split) <;> simp
@[simp] theorem fltSet_free (d : Dev) (b i : Nat) : (d.fltSet b i).free = d.free := by
  (unfold Dev.fltSet Dev.fltEdge) <;> (try dsimp only) <;> (repeat' split) <;> simp
@[simp] theorem fltSet_anvil (d : Dev) (b i : Nat) : (d.fltSet b i).anvil = d.anvil := by
  (unfold Dev.fltSet Dev.fltEdge) <;> (try dsimp only) <;> (repeat' split) <;> simp
@[simp] theorem fltSet_fwd (d : Dev) (b i : Nat) : (d.fltSet b i).fwd = d.fwd := by
  (unfold Dev.fltSet Dev.fltEdge) <;> (try dsimp only) <;> (repeat' split) <;> simp
@[simp] theorem fltSet_tables (d : Dev) (b i : Nat) : (d.fltSet b i).tables = d.tables := by
  (unfold Dev.fltSet Dev.fltEdge) <;> (try dsimp only) <;> (repeat' split) <;> simp
@[simp] theorem fltSet_ste (d : Dev) (b i : Nat) : (d.fltSet b i).ste = d.ste := by
  (unfold Dev.fltSet Dev.fltEdge) <;> (try dsimp only) <;> (repeat' split) <;> simp
@[simp] theorem fltSet_can (d : Dev) (b i : Nat) : (d.fltSet b i).can = d.can := by
  (unfold Dev.fltSet Dev.fltEdge) <;> (try dsimp only) <;> (repeat' split) <;> simp
@[simp] theorem fltSet_lin (d : Dev) (b i : Nat) : (d.fltSet b i).lin = d.lin := by
  (unfold Dev.fltSet Dev.fltEdge) <;> (try dsimp only) <;> (repeat' split) <;> simp
@[simp] theorem fltSet_eth (d : Dev) (b i : Nat) : (d.fltSet b i).eth = d.eth := by
  (unfold Dev.fltSet Dev.fltEdge) <;> (try dsimp only) <;> (repeat' split) <;> simp
@[simp] theorem fltSet_time (d : Dev) (b i : Nat) : (d.fltSet b i).time = d.time := by
  (unfold Dev.fltSet Dev.fltEdge) <;> (try dsimp only) <;> (repeat' split) <;> simp
@[simp] theorem fltSet_xpt (d : Dev) (b i : Nat) : (d.fltSet b i).xpt = d.xpt := by
  (unfold Dev.fltSet Dev.fltEdge) <;> (try dsimp only) <;> (repeat' split) <;> simp
@[simp] theorem fltSet_cry (d : Dev) (b i : Nat) : (d.fltSet b i).cry = d.cry := by
  (unfold Dev.fltSet Dev.fltEdge) <;> (try dsimp only) <;> (repeat' split) <;> simp
@[simp] theorem fltSet_vault (d : Dev) (b i : Nat) : (d.fltSet b i).vault = d.vault := by
  (unfold Dev.fltSet Dev.fltEdge) <;> (try dsimp only) <;> (repeat' split) <;> simp
@[simp] theorem fltSet_nm (d : Dev) (b i : Nat) : (d.fltSet b i).nm = d.nm := by
  (unfold Dev.fltSet Dev.fltEdge) <;> (try dsimp only) <;> (repeat' split) <;> simp
@[simp] theorem fltSet_load (d : Dev) (b i : Nat) : (d.fltSet b i).load = d.load := by
  (unfold Dev.fltSet Dev.fltEdge) <;> (try dsimp only) <;> (repeat' split) <;> simp
@[simp] theorem fltSet_bus (d : Dev) (b i : Nat) : (d.fltSet b i).bus = d.bus := by
  (unfold Dev.fltSet Dev.fltEdge) <;> (try dsimp only) <;> (repeat' split) <;> simp
@[simp] theorem fltSet_flt (d : Dev) (b i : Nat) : (d.fltSet b i).flt = d.flt := by
  (unfold Dev.fltSet Dev.fltEdge) <;> (try dsimp only) <;> (repeat' split) <;> simp
@[simp] theorem fltSet_boot (d : Dev) (b i : Nat) : (d.fltSet b i).boot = d.boot := by
  (unfold Dev.fltSet Dev.fltEdge) <;> (try dsimp only) <;> (repeat' split) <;> simp
@[simp] theorem fltSet_pwr (d : Dev) (b i : Nat) : (d.fltSet b i).pwr = d.pwr := by
  (unfold Dev.fltSet Dev.fltEdge) <;> (try dsimp only) <;> (repeat' split) <;> simp
@[simp] theorem fltSet_host_ops (d : Dev) (b i : Nat) : (d.fltSet b i).host.ops = d.host.ops := by
  (unfold Dev.fltSet Dev.fltEdge) <;> (try dsimp only) <;> (repeat' split) <;> simp
@[simp] theorem fltSet_host_txPend (d : Dev) (b i : Nat) : (d.fltSet b i).host.txPend = d.host.txPend := by
  (unfold Dev.fltSet Dev.fltEdge) <;> (try dsimp only) <;> (repeat' split) <;> simp
@[simp] theorem fltSet_host_rings (d : Dev) (b i : Nat) : (d.fltSet b i).host.rings = d.host.rings := by
  (unfold Dev.fltSet Dev.fltEdge) <;> (try dsimp only) <;> (repeat' split) <;> simp
@[simp] theorem fltSet_host_unknown (d : Dev) (b i : Nat) : (d.fltSet b i).host.unknown = d.host.unknown := by
  (unfold Dev.fltSet Dev.fltEdge) <;> (try dsimp only) <;> (repeat' split) <;> simp
@[simp] theorem fltSet_host_aborts (d : Dev) (b i : Nat) : (d.fltSet b i).host.aborts = d.host.aborts := by
  (unfold Dev.fltSet Dev.fltEdge) <;> (try dsimp only) <;> (repeat' split) <;> simp
@[simp] theorem fltSet_host_hist (d : Dev) (b i : Nat) : (d.fltSet b i).host.hist = d.host.hist := by
  (unfold Dev.fltSet Dev.fltEdge) <;> (try dsimp only) <;> (repeat' split) <;> simp
@[simp] theorem fltSet_host_txWait (d : Dev) (b i : Nat) : (d.fltSet b i).host.txWait = d.host.txWait := by
  (unfold Dev.fltSet Dev.fltEdge) <;> (try dsimp only) <;> (repeat' split) <;> simp
@[simp] theorem fltSet_host_txKilled (d : Dev) (b i : Nat) : (d.fltSet b i).host.txKilled = d.host.txKilled := by
  (unfold Dev.fltSet Dev.fltEdge) <;> (try dsimp only) <;> (repeat' split) <;> simp

/-! ### `event61` -/

@[simp] theorem event61_tbl (d : Dev) (type b i access react : Nat) (l : List Byte) : (d.event61 type b i access react l).tbl = d.tbl := by
  (unfold Dev.event61) <;> (try dsimp only) <;> (repeat' split) <;> simp
@[simp] theorem event61_free (d : Dev) (type b i access react : Nat) (l : List Byte) : (d.event61 type b i access react l).free = d.free := by
  (unfold Dev.event61) <;> (try dsimp only) <;> (repeat' split) <;> simp
@[simp] theorem event61_anvil (d : Dev) (type b i access react : Nat) (l : List Byte) : (d.event61 type b i access react l).anvil = d.anvil := by
  (unfold Dev.event61) <;> (try dsimp only) <;> (repeat' split) <;> simp
@[simp] theorem event61_fwd (d : Dev) (type b i access react : Nat) (l : List Byte) : (d.event61 type b i access react l).fwd = d.fwd := by
  (unfold Dev.event61) <;> (try dsimp only) <;> (repeat' split) <;> simp
@[simp] theorem event61_tables (d : Dev) (type b i access react : Nat) (l : List Byte) : (d.event61 type b i access react l).tables = d.tables := by
  (unfold Dev.event61) <;> (try dsimp only) <;> (repeat' split) <;> simp
@[simp] theorem event61_ste (d : Dev) (type b i access react : Nat) (l : List Byte) : (d.event61 type b i access react l).ste = d.ste := by
  (unfold Dev.event61) <;> (try dsimp only) <;> (repeat' split) <;> simp
@[simp] theorem event61_can (d : Dev) (type b i access react : Nat) (l : List Byte) : (d.event61 type b i access react l).can = d.can := by
  (unfold Dev.event61) <;> (try dsimp only) <;> (repeat' split) <;> simp
@[simp] theorem event61_lin (d : Dev) (type b i access react : Nat) (l : List Byte) : (d.event61 type b i access react l).lin = d.lin := by
  (unfold Dev.event61) <;> (try dsimp only) <;> (repeat' split) <;> simp
@[simp] theorem event61_eth (d : Dev) (type b i access react : Nat) (l : List Byte) : (d.event61 type b i access react l).eth = d.eth := by
  (unfold Dev.event61) <;> (try dsimp only) <;> (repeat' split) <;> simp
@[simp] theorem event61_time (d : Dev) (type b i access react : Nat) (l : List Byte) : (d.event61 type b i access react l).time = d.time := by
  (unfold Dev.event61) <;> (try dsimp only) <;> (repeat' split) <;> simp
@[simp] theorem event61_xpt (d : Dev) (type b i access react : Nat) (l : List Byte) : (d.event61 type b i access react l).xpt = d.xpt := by
  (unfold Dev.event61) <;> (try dsimp only) <;> (repeat' split) <;> simp
@[simp] theorem event61_cry (d : Dev) (type b i access react : Nat) (l : List Byte) : (d.event61 type b i access react l).cry = d.cry := by
  (unfold Dev.event61) <;> (try dsimp only) <;> (repeat' split) <;> simp
@[simp] theorem event61_vault (d : Dev) (type b i access react : Nat) (l : List Byte) : (d.event61 type b i access react l).vault = d.vault := by
  (unfold Dev.event61) <;> (try dsimp only) <;> (repeat' split) <;> simp
@[simp] theorem event61_nm (d : Dev) (type b i access react : Nat) (l : List Byte) : (d.event61 type b i access react l).nm = d.nm := by
  (unfold Dev.event61) <;> (try dsimp only) <;> (repeat' split) <;> simp
@[simp] theorem event61_load (d : Dev) (type b i access react : Nat) (l : List Byte) : (d.event61 type b i access react l).load = d.load := by
  (unfold Dev.event61) <;> (try dsimp only) <;> (repeat' split) <;> simp
@[simp] theorem event61_bus (d : Dev) (type b i access react : Nat) (l : List Byte) : (d.event61 type b i access react l).bus = d.bus := by
  (unfold Dev.event61) <;> (try dsimp only) <;> (repeat' split) <;> simp
@[simp] theorem event61_flt (d : Dev) (type b i access react : Nat) (l : List Byte) : (d.event61 type b i access react l).flt = d.flt := by
  (unfold Dev.event61) <;> (try dsimp only) <;> (repeat' split) <;> simp
@[simp] theorem event61_boot (d : Dev) (type b i access react : Nat) (l : List Byte) : (d.event61 type b i access react l).boot = d.boot := by
  (unfold Dev.event61) <;> (try dsimp only) <;> (repeat' split) <;> simp
@[simp] theorem event61_pwr (d : Dev) (type b i access react : Nat) (l : List Byte) : (d.event61 type b i access react l).pwr = d.pwr := by
  (unfold Dev.event61) <;> (try dsimp only) <;> (repeat' split) <;> simp
@[simp] theorem event61_host_ops (d : Dev) (type b i access react : Nat) (l : List Byte) : (d.event61 type b i access react l).host.ops = d.host.ops := by
  (unfold Dev.event61) <;> (try dsimp only) <;> (repeat' split) <;> simp
@[simp] theorem event61_host_txPend (d : Dev) (type b i access react : Nat) (l : List Byte) : (d.event61 type b i access react l).host.txPend = d.host.txPend := by
  (unfold Dev.event61) <;> (try dsimp only) <;> (repeat' split) <;> simp
@[simp] theorem event61_host_unknown (d : Dev) (type b i access react : Nat) (l : List Byte) : (d.event61 type b i access react l).host.unknown = d.host.unknown := by
  (unfold Dev.event61) <;> (try dsimp only) <;> (repeat' split) <;> simp
@[simp] theorem event61_host_aborts (d : Dev) (type b i access react : Nat) (l : List Byte) : (d.event61 type b i access react l).host.aborts = d.host.aborts := by
  (unfold Dev.event61) <;> (try dsimp only) <;> (repeat' split) <;> simp
@[simp] theorem event61_host_hist (d : Dev) (type b i access react : Nat) (l : List Byte) : (d.event61 type b i access react l).host.hist = d.host.hist := by
  (unfold Dev.event61) <;> (try dsimp only) <;> (repeat' split) <;> simp
@[simp] theorem event61_host_txWait (d : Dev) (type b i access react : Nat) (l : List Byte) : (d.event61 type b i access react l).host.txWait = d.host.txWait := by
  (unfold Dev.event61) <;> (try dsimp only) <;> (repeat' split) <;> simp
@[simp] theorem event61_host_txKilled (d : Dev) (type b i access react : Nat) (l : List Byte) : (d.event61 type b i access react l).host.txKilled = d.host.txKilled := by
  (unfold Dev.event61) <;> (try dsimp only) <;> (repeat' split) <;> simp

/-! ### `setWin` -/

@[simp] theorem setWin_tbl (d : Dev) (b : Nat) (l : List Nat) : (d.setWin b l).tbl = d.tbl := by
  (unfold Dev.setWin) <;> (try dsimp only) <;> (repeat' split) <;> simp
@[simp] theorem setWin_hostMem (d : Dev) (b : Nat) (l : List Nat) : (d.setWin b l).hostMem = d.hostMem := by
  (unfold Dev.setWin) <;> (try dsimp only) <;> (repeat' split) <;> simp
@[simp] theorem setWin_out (d : Dev) (b : Nat) (l : List Nat) : (d.setWin b l).out = d.out := by
  (unfold Dev.setWin) <;> (try dsimp only) <;> (repeat' split) <;> simp
@[simp] theorem setWin_free (d : Dev) (b : Nat) (l : List Nat) : (d.setWin b l).free = d.free := by
  (unfold Dev.setWin) <;> (try dsimp only) <;> (repeat' split) <;> simp
@[simp] theorem setWin_anvil (d : Dev) (b : Nat) (l : List Nat) : (d.setWin b l).anvil = d.anvil := by
  (unfold Dev.setWin) <;> (try dsimp only) <;> (repeat' split) <;> simp
@[simp] theorem setWin_fwd (d : Dev) (b : Nat) (l : List Nat) : (d.setWin b l).fwd = d.fwd := by
  (unfold Dev.setWin) <;> (try dsimp only) <;> (repeat' split) <;> simp
@[simp] theorem setWin_tables (d : Dev) (b : Nat) (l : List Nat) : (d.setWin b l).tables = d.tables := by
  (unfold Dev.setWin) <;> (try dsimp only) <;> (repeat' split) <;> simp
@[simp] theorem setWin_ste (d : Dev) (b : Nat) (l : List Nat) : (d.setWin b l).ste = d.ste := by
  (unfold Dev.setWin) <;> (try dsimp only) <;> (repeat' split) <;> simp
@[simp] theorem setWin_can (d : Dev) (b : Nat) (l : List Nat) : (d.setWin b l).can = d.can := by
  (unfold Dev.setWin) <;> (try dsimp only) <;> (repeat' split) <;> simp
@[simp] theorem setWin_lin (d : Dev) (b : Nat) (l : List Nat) : (d.setWin b l).lin = d.lin := by
  (unfold Dev.setWin) <;> (try dsimp only) <;> (repeat' split) <;> simp
@[simp] theorem setWin_eth (d : Dev) (b : Nat) (l : List Nat) : (d.setWin b l).eth = d.eth := by
  (unfold Dev.setWin) <;> (try dsimp only) <;> (repeat' split) <;> simp
@[simp] theorem setWin_time (d : Dev) (b : Nat) (l : List Nat) : (d.setWin b l).time = d.time := by
  (unfold Dev.setWin) <;> (try dsimp only) <;> (repeat' split) <;> simp
@[simp] theorem setWin_xpt (d : Dev) (b : Nat) (l : List Nat) : (d.setWin b l).xpt = d.xpt := by
  (unfold Dev.setWin) <;> (try dsimp only) <;> (repeat' split) <;> simp
@[simp] theorem setWin_cry (d : Dev) (b : Nat) (l : List Nat) : (d.setWin b l).cry = d.cry := by
  (unfold Dev.setWin) <;> (try dsimp only) <;> (repeat' split) <;> simp
@[simp] theorem setWin_vault (d : Dev) (b : Nat) (l : List Nat) : (d.setWin b l).vault = d.vault := by
  (unfold Dev.setWin) <;> (try dsimp only) <;> (repeat' split) <;> simp
@[simp] theorem setWin_nm (d : Dev) (b : Nat) (l : List Nat) : (d.setWin b l).nm = d.nm := by
  (unfold Dev.setWin) <;> (try dsimp only) <;> (repeat' split) <;> simp
@[simp] theorem setWin_load (d : Dev) (b : Nat) (l : List Nat) : (d.setWin b l).load = d.load := by
  (unfold Dev.setWin) <;> (try dsimp only) <;> (repeat' split) <;> simp
@[simp] theorem setWin_host (d : Dev) (b : Nat) (l : List Nat) : (d.setWin b l).host = d.host := by
  (unfold Dev.setWin) <;> (try dsimp only) <;> (repeat' split) <;> simp
@[simp] theorem setWin_bus (d : Dev) (b : Nat) (l : List Nat) : (d.setWin b l).bus = d.bus := by
  (unfold Dev.setWin) <;> (try dsimp only) <;> (repeat' split) <;> simp
@[simp] theorem setWin_boot (d : Dev) (b : Nat) (l : List Nat) : (d.setWin b l).boot = d.boot := by
  (unfold Dev.setWin) <;> (try dsimp only) <;> (repeat' split) <;> simp
@[simp] theorem setWin_pwr (d : Dev) (b : Nat) (l : List Nat) : (d.setWin b l).pwr = d.pwr := by
  (unfold Dev.setWin) <;> (try dsimp only) <;> (repeat' split) <;> simp
@[simp] theorem setWin_flt_todo (d : Dev) (b : Nat) (l : List Nat) : (d.setWin b l).flt.todo = d.flt.todo := by
  (unfold Dev.setWin) <;> (try dsimp only) <;> (repeat' split) <;> simp

/-! ### `fnHold` -/

@[simp] theorem fnHold_tbl (d : Dev) (b : Nat) (on : Bool) : (d.fnHold b on).tbl = d.tbl := by
  (unfold Dev.fnHold) <;> (try dsimp only) <;> (repeat' split) <;> simp
@[simp] theorem fnHold_hostMem (d : Dev) (b : Nat) (on : Bool) : (d.fnHold b on).hostMem = d.hostMem := by
  (unfold Dev.fnHold) <;> (try dsimp only) <;> (repeat' split) <;> simp
@[simp] theorem fnHold_out (d : Dev) (b : Nat) (on : Bool) : (d.fnHold b on).out = d.out := by
  (unfold Dev.fnHold) <;> (try dsimp only) <;> (repeat' split) <;> simp
@[simp] theorem fnHold_free (d : Dev) (b : Nat) (on : Bool) : (d.fnHold b on).free = d.free := by
  (unfold Dev.fnHold) <;> (try dsimp only) <;> (repeat' split) <;> simp
@[simp] theorem fnHold_anvil (d : Dev) (b : Nat) (on : Bool) : (d.fnHold b on).anvil = d.anvil := by
  (unfold Dev.fnHold) <;> (try dsimp only) <;> (repeat' split) <;> simp
@[simp] theorem fnHold_fwd (d : Dev) (b : Nat) (on : Bool) : (d.fnHold b on).fwd = d.fwd := by
  (unfold Dev.fnHold) <;> (try dsimp only) <;> (repeat' split) <;> simp
@[simp] theorem fnHold_tables (d : Dev) (b : Nat) (on : Bool) : (d.fnHold b on).tables = d.tables := by
  (unfold Dev.fnHold) <;> (try dsimp only) <;> (repeat' split) <;> simp
@[simp] theorem fnHold_ste (d : Dev) (b : Nat) (on : Bool) : (d.fnHold b on).ste = d.ste := by
  (unfold Dev.fnHold) <;> (try dsimp only) <;> (repeat' split) <;> simp
@[simp] theorem fnHold_can (d : Dev) (b : Nat) (on : Bool) : (d.fnHold b on).can = d.can := by
  (unfold Dev.fnHold) <;> (try dsimp only) <;> (repeat' split) <;> simp
@[simp] theorem fnHold_lin (d : Dev) (b : Nat) (on : Bool) : (d.fnHold b on).lin = d.lin := by
  (unfold Dev.fnHold) <;> (try dsimp only) <;> (repeat' split) <;> simp
@[simp] theorem fnHold_eth (d : Dev) (b : Nat) (on : Bool) : (d.fnHold b on).eth = d.eth := by
  (unfold Dev.fnHold) <;> (try dsimp only) <;> (repeat' split) <;> simp
@[simp] theorem fnHold_time (d : Dev) (b : Nat) (on : Bool) : (d.fnHold b on).time = d.time := by
  (unfold Dev.fnHold) <;> (try dsimp only) <;> (repeat' split) <;> simp
@[simp] theorem fnHold_xpt (d : Dev) (b : Nat) (on : Bool) : (d.fnHold b on).xpt = d.xpt := by
  (unfold Dev.fnHold) <;> (try dsimp only) <;> (repeat' split) <;> simp
@[simp] theorem fnHold_cry (d : Dev) (b : Nat) (on : Bool) : (d.fnHold b on).cry = d.cry := by
  (unfold Dev.fnHold) <;> (try dsimp only) <;> (repeat' split) <;> simp
@[simp] theorem fnHold_vault (d : Dev) (b : Nat) (on : Bool) : (d.fnHold b on).vault = d.vault := by
  (unfold Dev.fnHold) <;> (try dsimp only) <;> (repeat' split) <;> simp
@[simp] theorem fnHold_nm (d : Dev) (b : Nat) (on : Bool) : (d.fnHold b on).nm = d.nm := by
  (unfold Dev.fnHold) <;> (try dsimp only) <;> (repeat' split) <;> simp
@[simp] theorem fnHold_load (d : Dev) (b : Nat) (on : Bool) : (d.fnHold b on).load = d.load := by
  (unfold Dev.fnHold) <;> (try dsimp only) <;> (repeat' split) <;> simp
@[simp] theorem fnHold_host (d : Dev) (b : Nat) (on : Bool) : (d.fnHold b on).host = d.host := by
  (unfold Dev.fnHold) <;> (try dsimp only) <;> (repeat' split) <;> simp
@[simp] theorem fnHold_bus (d : Dev) (b : Nat) (on : Bool) : (d.fnHold b on).bus = d.bus := by
  (unfold Dev.fnHold) <;> (try dsimp only) <;> (repeat' split) <;> simp
@[simp] theorem fnHold_flt (d : Dev) (b : Nat) (on : Bool) : (d.fnHold b on).flt = d.flt := by
  (unfold Dev.fnHold) <;> (try dsimp only) <;> (repeat' split) <;> simp
@[simp] theorem fnHold_boot (d : Dev) (b : Nat) (on : Bool) : (d.fnHold b on).boot = d.boot := by
  (unfold Dev.fnHold) <;> (try dsimp only) <;> (repeat' split) <;> simp
@[simp] theorem fnHold_pwr (d : Dev) (b : Nat) (on : Bool) : (d.fnHold b on).pwr = d.pwr := by
  (unfold Dev.fnHold) <;> (try dsimp only) <;> (repeat' split) <;> simp

/-! ### `steEvent` -/

@[simp] theorem steEvent_tbl (d : Dev) (type source detail : Nat) : (d.steEvent type source detail).tbl = d.tbl := by
  (unfold Dev.steEvent Dev.takeOrder) <;> (try dsimp only) <;> (repeat' split) <;> simp
@[simp] theorem steEvent_hostMem (d : Dev) (type source detail : Nat) : (d.steEvent type source detail).hostMem = d.hostMem := by
  (unfold Dev.steEvent Dev.takeOrder) <;> (try dsimp only) <;> (repeat' split) <;> simp
@[simp] theorem steEvent_free (d : Dev) (type source detail : Nat) : (d.steEvent type source detail).free = d.free := by
  (unfold Dev.steEvent Dev.takeOrder) <;> (try dsimp only) <;> (repeat' split) <;> simp
@[simp] theorem steEvent_anvil (d : Dev) (type source detail : Nat) : (d.steEvent type source detail).anvil = d.anvil := by
  (unfold Dev.steEvent Dev.takeOrder) <;> (try dsimp only) <;> (repeat' split) <;> simp
@[simp] theorem steEvent_tables (d : Dev) (type source detail : Nat) : (d.steEvent type source detail).tables = d.tables := by
  (unfold Dev.steEvent Dev.takeOrder) <;> (try dsimp only) <;> (repeat' split) <;> simp
@[simp] theorem steEvent_can (d : Dev) (type source detail : Nat) : (d.steEvent type source detail).can = d.can := by
  (unfold Dev.steEvent Dev.takeOrder) <;> (try dsimp only) <;> (repeat' split) <;> simp
@[simp] theorem steEvent_lin (d : Dev) (type source detail : Nat) : (d.steEvent type source detail).lin = d.lin := by
  (unfold Dev.steEvent Dev.takeOrder) <;> (try dsimp only) <;> (repeat' split) <;> simp
@[simp] theorem steEvent_eth (d : Dev) (type source detail : Nat) : (d.steEvent type source detail).eth = d.eth := by
  (unfold Dev.steEvent Dev.takeOrder) <;> (try dsimp only) <;> (repeat' split) <;> simp
@[simp] theorem steEvent_time (d : Dev) (type source detail : Nat) : (d.steEvent type source detail).time = d.time := by
  (unfold Dev.steEvent Dev.takeOrder) <;> (try dsimp only) <;> (repeat' split) <;> simp
@[simp] theorem steEvent_xpt (d : Dev) (type source detail : Nat) : (d.steEvent type source detail).xpt = d.xpt := by
  (unfold Dev.steEvent Dev.takeOrder) <;> (try dsimp only) <;> (repeat' split) <;> simp
@[simp] theorem steEvent_cry (d : Dev) (type source detail : Nat) : (d.steEvent type source detail).cry = d.cry := by
  (unfold Dev.steEvent Dev.takeOrder) <;> (try dsimp only) <;> (repeat' split) <;> simp
@[simp] theorem steEvent_vault (d : Dev) (type source detail : Nat) : (d.steEvent type source detail).vault = d.vault := by
  (unfold Dev.steEvent Dev.takeOrder) <;> (try dsimp only) <;> (repeat' split) <;> simp
@[simp] theorem steEvent_nm (d : Dev) (type source detail : Nat) : (d.steEvent type source detail).nm = d.nm := by
  (unfold Dev.steEvent Dev.takeOrder) <;> (try dsimp only) <;> (repeat' split) <;> simp
@[simp] theorem steEvent_load (d : Dev) (type source detail : Nat) : (d.steEvent type source detail).load = d.load := by
  (unfold Dev.steEvent Dev.takeOrder) <;> (try dsimp only) <;> (repeat' split) <;> simp
@[simp] theorem steEvent_bus (d : Dev) (type source detail : Nat) : (d.steEvent type source detail).bus = d.bus := by
  (unfold Dev.steEvent Dev.takeOrder) <;> (try dsimp only) <;> (repeat' split) <;> simp
@[simp] theorem steEvent_flt (d : Dev) (type source detail : Nat) : (d.steEvent type source detail).flt = d.flt := by
  (unfold Dev.steEvent Dev.takeOrder) <;> (try dsimp only) <;> (repeat' split) <;> simp
@[simp] theorem steEvent_boot (d : Dev) (type source detail : Nat) : (d.steEvent type source detail).boot = d.boot := by
  (unfold Dev.steEvent Dev.takeOrder) <;> (try dsimp only) <;> (repeat' split) <;> simp
@[simp] theorem steEvent_pwr (d : Dev) (type source detail : Nat) : (d.steEvent type source detail).pwr = d.pwr := by
  (unfold Dev.steEvent Dev.takeOrder) <;> (try dsimp only) <;> (repeat' split) <;> simp
@[simp] theorem steEvent_host_ops (d : Dev) (type source detail : Nat) : (d.steEvent type source detail).host.ops = d.host.ops := by
  (unfold Dev.steEvent Dev.takeOrder) <;> (try dsimp only) <;> (repeat' split) <;> simp
@[simp] theorem steEvent_host_txPend (d : Dev) (type source detail : Nat) : (d.steEvent type source detail).host.txPend = d.host.txPend := by
  (unfold Dev.steEvent Dev.takeOrder) <;> (try dsimp only) <;> (repeat' split) <;> simp
@[simp] theorem steEvent_host_rings (d : Dev) (type source detail : Nat) : (d.steEvent type source detail).host.rings = d.host.rings := by
  (unfold Dev.steEvent Dev.takeOrder) <;> (try dsimp only) <;> (repeat' split) <;> simp
@[simp] theorem steEvent_host_unknown (d : Dev) (type source detail : Nat) : (d.steEvent type source detail).host.unknown = d.host.unknown := by
  (unfold Dev.steEvent Dev.takeOrder) <;> (try dsimp only) <;> (repeat' split) <;> simp
@[simp] theorem steEvent_host_aborts (d : Dev) (type source detail : Nat) : (d.steEvent type source detail).host.aborts = d.host.aborts := by
  (unfold Dev.steEvent Dev.takeOrder) <;> (try dsimp only) <;> (repeat' split) <;> simp
@[simp] theorem steEvent_host_hist (d : Dev) (type source detail : Nat) : (d.steEvent type source detail).host.hist = d.host.hist := by
  (unfold Dev.steEvent Dev.takeOrder) <;> (try dsimp only) <;> (repeat' split) <;> simp
@[simp] theorem steEvent_host_txWait (d : Dev) (type source detail : Nat) : (d.steEvent type source detail).host.txWait = d.host.txWait := by
  (unfold Dev.steEvent Dev.takeOrder) <;> (try dsimp only) <;> (repeat' split) <;> simp
@[simp] theorem steEvent_host_txKilled (d : Dev) (type source detail : Nat) : (d.steEvent type source detail).host.txKilled = d.host.txKilled := by
  (unfold Dev.steEvent Dev.takeOrder) <;> (try dsimp only) <;> (repeat' split) <;> simp
@[simp] theorem steEvent_fwd_copies (d : Dev) (type source detail : Nat) : (d.steEvent type source detail).fwd.copies = d.fwd.copies := by
  (unfold Dev.steEvent Dev.takeOrder) <;> (try dsimp only) <;> (repeat' split) <;> simp
@[simp] theorem steEvent_fwd_frames (d : Dev) (type source detail : Nat) : (d.steEvent type source detail).fwd.frames = d.fwd.frames := by
  (unfold Dev.steEvent Dev.takeOrder) <;> (try dsimp only) <;> (repeat' split) <;> simp

/-! ### `setCh` -/

@[simp] theorem setCh_tbl (d : Dev) (i : Nat) (c : LoadCh) : (d.setCh i c).tbl = d.tbl := by
  (unfold Dev.setCh) <;> (try dsimp only) <;> (repeat' split) <;> simp
@[simp] theorem setCh_hostMem (d : Dev) (i : Nat) (c : LoadCh) : (d.setCh i c).hostMem = d.hostMem := by
  (unfold Dev.setCh) <;> (try dsimp only) <;> (repeat' split) <;> simp
@[simp] theorem setCh_out (d : Dev) (i : Nat) (c : LoadCh) : (d.setCh i c).out = d.out := by
  (unfold Dev.setCh) <;> (try dsimp only) <;> (repeat' split) <;> simp
@[simp] theorem setCh_free (d : Dev) (i : Nat) (c : LoadCh) : (d.setCh i c).free = d.free := by
  (unfold Dev.setCh) <;> (try dsimp only) <;> (repeat' split) <;> simp
@[simp] theorem setCh_anvil (d : Dev) (i : Nat) (c : LoadCh) : (d.setCh i c).anvil = d.anvil := by
  (unfold Dev.setCh) <;> (try dsimp only) <;> (repeat' split) <;> simp
@[simp] theorem setCh_fwd (d : Dev) (i : Nat) (c : LoadCh) : (d.setCh i c).fwd = d.fwd := by
  (unfold Dev.setCh) <;> (try dsimp only) <;> (repeat' split) <;> simp
@[simp] theorem setCh_tables (d : Dev) (i : Nat) (c : LoadCh) : (d.setCh i c).tables = d.tables := by
  (unfold Dev.setCh) <;> (try dsimp only) <;> (repeat' split) <;> simp
@[simp] theorem setCh_ste (d : Dev) (i : Nat) (c : LoadCh) : (d.setCh i c).ste = d.ste := by
  (unfold Dev.setCh) <;> (try dsimp only) <;> (repeat' split) <;> simp
@[simp] theorem setCh_can (d : Dev) (i : Nat) (c : LoadCh) : (d.setCh i c).can = d.can := by
  (unfold Dev.setCh) <;> (try dsimp only) <;> (repeat' split) <;> simp
@[simp] theorem setCh_lin (d : Dev) (i : Nat) (c : LoadCh) : (d.setCh i c).lin = d.lin := by
  (unfold Dev.setCh) <;> (try dsimp only) <;> (repeat' split) <;> simp
@[simp] theorem setCh_eth (d : Dev) (i : Nat) (c : LoadCh) : (d.setCh i c).eth = d.eth := by
  (unfold Dev.setCh) <;> (try dsimp only) <;> (repeat' split) <;> simp
@[simp] theorem setCh_time (d : Dev) (i : Nat) (c : LoadCh) : (d.setCh i c).time = d.time := by
  (unfold Dev.setCh) <;> (try dsimp only) <;> (repeat' split) <;> simp
@[simp] theorem setCh_xpt (d : Dev) (i : Nat) (c : LoadCh) : (d.setCh i c).xpt = d.xpt := by
  (unfold Dev.setCh) <;> (try dsimp only) <;> (repeat' split) <;> simp
@[simp] theorem setCh_cry (d : Dev) (i : Nat) (c : LoadCh) : (d.setCh i c).cry = d.cry := by
  (unfold Dev.setCh) <;> (try dsimp only) <;> (repeat' split) <;> simp
@[simp] theorem setCh_vault (d : Dev) (i : Nat) (c : LoadCh) : (d.setCh i c).vault = d.vault := by
  (unfold Dev.setCh) <;> (try dsimp only) <;> (repeat' split) <;> simp
@[simp] theorem setCh_nm (d : Dev) (i : Nat) (c : LoadCh) : (d.setCh i c).nm = d.nm := by
  (unfold Dev.setCh) <;> (try dsimp only) <;> (repeat' split) <;> simp
@[simp] theorem setCh_host (d : Dev) (i : Nat) (c : LoadCh) : (d.setCh i c).host = d.host := by
  (unfold Dev.setCh) <;> (try dsimp only) <;> (repeat' split) <;> simp
@[simp] theorem setCh_bus (d : Dev) (i : Nat) (c : LoadCh) : (d.setCh i c).bus = d.bus := by
  (unfold Dev.setCh) <;> (try dsimp only) <;> (repeat' split) <;> simp
@[simp] theorem setCh_flt (d : Dev) (i : Nat) (c : LoadCh) : (d.setCh i c).flt = d.flt := by
  (unfold Dev.setCh) <;> (try dsimp only) <;> (repeat' split) <;> simp
@[simp] theorem setCh_boot (d : Dev) (i : Nat) (c : LoadCh) : (d.setCh i c).boot = d.boot := by
  (unfold Dev.setCh) <;> (try dsimp only) <;> (repeat' split) <;> simp
@[simp] theorem setCh_pwr (d : Dev) (i : Nat) (c : LoadCh) : (d.setCh i c).pwr = d.pwr := by
  (unfold Dev.setCh) <;> (try dsimp only) <;> (repeat' split) <;> simp
@[simp] theorem setCh_load_flight (d : Dev) (i : Nat) (c : LoadCh) : (d.setCh i c).load.flight = d.load.flight := by
  (unfold Dev.setCh) <;> (try dsimp only) <;> (repeat' split) <;> simp
@[simp] theorem setCh_load_gndLost (d : Dev) (i : Nat) (c : LoadCh) : (d.setCh i c).load.gndLost = d.load.gndLost := by
  (unfold Dev.setCh) <;> (try dsimp only) <;> (repeat' split) <;> simp
@[simp] theorem setCh_load_wdFed (d : Dev) (i : Nat) (c : LoadCh) : (d.setCh i c).load.wdFed = d.load.wdFed := by
  (unfold Dev.setCh) <;> (try dsimp only) <;> (repeat' split) <;> simp
@[simp] theorem setCh_load_fedSince (d : Dev) (i : Nat) (c : LoadCh) : (d.setCh i c).load.fedSince = d.load.fedSince := by
  (unfold Dev.setCh) <;> (try dsimp only) <;> (repeat' split) <;> simp
@[simp] theorem setCh_load_lastDefer (d : Dev) (i : Nat) (c : LoadCh) : (d.setCh i c).load.lastDefer = d.load.lastDefer := by
  (unfold Dev.setCh) <;> (try dsimp only) <;> (repeat' split) <;> simp
@[simp] theorem setCh_load_corr (d : Dev) (i : Nat) (c : LoadCh) : (d.setCh i c).load.corr = d.load.corr := by
  (unfold Dev.setCh) <;> (try dsimp only) <;> (repeat' split) <;> simp
@[simp] theorem setCh_load_ptimeOfs (d : Dev) (i : Nat) (c : LoadCh) : (d.setCh i c).load.ptimeOfs = d.load.ptimeOfs := by
  (unfold Dev.setCh) <;> (try dsimp only) <;> (repeat' split) <;> simp
@[simp] theorem setCh_load_vbat (d : Dev) (i : Nat) (c : LoadCh) : (d.setCh i c).load.vbat = d.load.vbat := by
  (unfold Dev.setCh) <;> (try dsimp only) <;> (repeat' split) <;> simp
@[simp] theorem setCh_load_vhv (d : Dev) (i : Nat) (c : LoadCh) : (d.setCh i c).load.vhv = d.load.vhv := by
  (unfold Dev.setCh) <;> (try dsimp only) <;> (repeat' split) <;> simp
@[simp] theorem setCh_load_revOn (d : Dev) (i : Nat) (c : LoadCh) : (d.setCh i c).load.revOn = d.load.revOn := by
  (unfold Dev.setCh) <;> (try dsimp only) <;> (repeat' split) <;> simp
@[simp] theorem setCh_load_revHeld (d : Dev) (i : Nat) (c : LoadCh) : (d.setCh i c).load.revHeld = d.load.revHeld := by
  (unfold Dev.setCh) <;> (try dsimp only) <;> (repeat' split) <;> simp

/-! ### `flits` -/

@[simp] theorem flits_tbl (d : Dev) (n : Nat) : (d.flits n).tbl = d.tbl := by
  (unfold Dev.flits) <;> (try dsimp only) <;> (repeat' split) <;> simp
@[simp] theorem flits_free (d : Dev) (n : Nat) : (d.flits n).free = d.free := by
  (unfold Dev.flits) <;> (try dsimp only) <;> (repeat' split) <;> simp
@[simp] theorem flits_anvil (d : Dev) (n : Nat) : (d.flits n).anvil = d.anvil := by
  (unfold Dev.flits) <;> (try dsimp only) <;> (repeat' split) <;> simp
@[simp] theorem flits_fwd (d : Dev) (n : Nat) : (d.flits n).fwd = d.fwd := by
  (unfold Dev.flits) <;> (try dsimp only) <;> (repeat' split) <;> simp
@[simp] theorem flits_tables (d : Dev) (n : Nat) : (d.flits n).tables = d.tables := by
  (unfold Dev.flits) <;> (try dsimp only) <;> (repeat' split) <;> simp
@[simp] theorem flits_ste (d : Dev) (n : Nat) : (d.flits n).ste = d.ste := by
  (unfold Dev.flits) <;> (try dsimp only) <;> (repeat' split) <;> simp
@[simp] theorem flits_can (d : Dev) (n : Nat) : (d.flits n).can = d.can := by
  (unfold Dev.flits) <;> (try dsimp only) <;> (repeat' split) <;> simp
@[simp] theorem flits_lin (d : Dev) (n : Nat) : (d.flits n).lin = d.lin := by
  (unfold Dev.flits) <;> (try dsimp only) <;> (repeat' split) <;> simp
@[simp] theorem flits_eth (d : Dev) (n : Nat) : (d.flits n).eth = d.eth := by
  (unfold Dev.flits) <;> (try dsimp only) <;> (repeat' split) <;> simp
@[simp] theorem flits_time (d : Dev) (n : Nat) : (d.flits n).time = d.time := by
  (unfold Dev.flits) <;> (try dsimp only) <;> (repeat' split) <;> simp
@[simp] theorem flits_xpt (d : Dev) (n : Nat) : (d.flits n).xpt = d.xpt := by
  (unfold Dev.flits) <;> (try dsimp only) <;> (repeat' split) <;> simp
@[simp] theorem flits_cry (d : Dev) (n : Nat) : (d.flits n).cry = d.cry := by
  (unfold Dev.flits) <;> (try dsimp only) <;> (repeat' split) <;> simp
@[simp] theorem flits_vault (d : Dev) (n : Nat) : (d.flits n).vault = d.vault := by
  (unfold Dev.flits) <;> (try dsimp only) <;> (repeat' split) <;> simp
@[simp] theorem flits_nm (d : Dev) (n : Nat) : (d.flits n).nm = d.nm := by
  (unfold Dev.flits) <;> (try dsimp only) <;> (repeat' split) <;> simp
@[simp] theorem flits_bus (d : Dev) (n : Nat) : (d.flits n).bus = d.bus := by
  (unfold Dev.flits) <;> (try dsimp only) <;> (repeat' split) <;> simp
@[simp] theorem flits_flt (d : Dev) (n : Nat) : (d.flits n).flt = d.flt := by
  (unfold Dev.flits) <;> (try dsimp only) <;> (repeat' split) <;> simp
@[simp] theorem flits_boot (d : Dev) (n : Nat) : (d.flits n).boot = d.boot := by
  (unfold Dev.flits) <;> (try dsimp only) <;> (repeat' split) <;> simp
@[simp] theorem flits_pwr (d : Dev) (n : Nat) : (d.flits n).pwr = d.pwr := by
  (unfold Dev.flits) <;> (try dsimp only) <;> (repeat' split) <;> simp
@[simp] theorem flits_load_chans (d : Dev) (n : Nat) : (d.flits n).load.chans = d.load.chans := by
  (unfold Dev.flits) <;> (try dsimp only) <;> (repeat' split) <;> simp
@[simp] theorem flits_load_flight (d : Dev) (n : Nat) : (d.flits n).load.flight = d.load.flight := by
  (unfold Dev.flits) <;> (try dsimp only) <;> (repeat' split) <;> simp
@[simp] theorem flits_load_gndLost (d : Dev) (n : Nat) : (d.flits n).load.gndLost = d.load.gndLost := by
  (unfold Dev.flits) <;> (try dsimp only) <;> (repeat' split) <;> simp
@[simp] theorem flits_load_wdFed (d : Dev) (n : Nat) : (d.flits n).load.wdFed = d.load.wdFed := by
  (unfold Dev.flits) <;> (try dsimp only) <;> (repeat' split) <;> simp
@[simp] theorem flits_load_fedSince (d : Dev) (n : Nat) : (d.flits n).load.fedSince = d.load.fedSince := by
  (unfold Dev.flits) <;> (try dsimp only) <;> (repeat' split) <;> simp
@[simp] theorem flits_load_lastDefer (d : Dev) (n : Nat) : (d.flits n).load.lastDefer = d.load.lastDefer := by
  (unfold Dev.flits) <;> (try dsimp only) <;> (repeat' split) <;> simp
@[simp] theorem flits_load_corr (d : Dev) (n : Nat) : (d.flits n).load.corr = d.load.corr := by
  (unfold Dev.flits) <;> (try dsimp only) <;> (repeat' split) <;> simp
@[simp] theorem flits_load_ptimeOfs (d : Dev) (n : Nat) : (d.flits n).load.ptimeOfs = d.load.ptimeOfs := by
  (unfold Dev.flits) <;> (try dsimp only) <;> (repeat' split) <;> simp
@[simp] theorem flits_load_vbat (d : Dev) (n : Nat) : (d.flits n).load.vbat = d.load.vbat := by
  (unfold Dev.flits) <;> (try dsimp only) <;> (repeat' split) <;> simp
@[simp] theorem flits_load_vhv (d : Dev) (n : Nat) : (d.flits n).load.vhv = d.load.vhv := by
  (unfold Dev.flits) <;> (try dsimp only) <;> (repeat' split) <;> simp
@[simp] theorem flits_load_revOn (d : Dev) (n : Nat) : (d.flits n).load.revOn = d.load.revOn := by
  (unfold Dev.flits) <;> (try dsimp only) <;> (repeat' split) <;> simp
@[simp] theorem flits_load_revHeld (d : Dev) (n : Nat) : (d.flits n).load.revHeld = d.load.revHeld := by
  (unfold Dev.flits) <;> (try dsimp only) <;> (repeat' split) <;> simp
@[simp] theorem flits_host_ops (d : Dev) (n : Nat) : (d.flits n).host.ops = d.host.ops := by
  (unfold Dev.flits) <;> (try dsimp only) <;> (repeat' split) <;> simp
@[simp] theorem flits_host_txPend (d : Dev) (n : Nat) : (d.flits n).host.txPend = d.host.txPend := by
  (unfold Dev.flits) <;> (try dsimp only) <;> (repeat' split) <;> simp
@[simp] theorem flits_host_unknown (d : Dev) (n : Nat) : (d.flits n).host.unknown = d.host.unknown := by
  (unfold Dev.flits) <;> (try dsimp only) <;> (repeat' split) <;> simp
@[simp] theorem flits_host_aborts (d : Dev) (n : Nat) : (d.flits n).host.aborts = d.host.aborts := by
  (unfold Dev.flits) <;> (try dsimp only) <;> (repeat' split) <;> simp
@[simp] theorem flits_host_hist (d : Dev) (n : Nat) : (d.flits n).host.hist = d.host.hist := by
  (unfold Dev.flits) <;> (try dsimp only) <;> (repeat' split) <;> simp
@[simp] theorem flits_host_txWait (d : Dev) (n : Nat) : (d.flits n).host.txWait = d.host.txWait := by
  (unfold Dev.flits) <;> (try dsimp only) <;> (repeat' split) <;> simp
@[simp] theorem flits_host_txKilled (d : Dev) (n : Nat) : (d.flits n).host.txKilled = d.host.txKilled := by
  (unfold Dev.flits) <;> (try dsimp only) <;> (repeat' split) <;> simp

/-! ### `evPut` -/

@[simp] theorem evPut_tbl (d : Dev) (e : List Byte) : (d.evPut e).tbl = d.tbl := by
  (unfold Dev.evPut) <;> (try dsimp only) <;> (repeat' split) <;> simp
@[simp] theorem evPut_free (d : Dev) (e : List Byte) : (d.evPut e).free = d.free := by
  (unfold Dev.evPut) <;> (try dsimp only) <;> (repeat' split) <;> simp
@[simp] theorem evPut_anvil (d : Dev) (e : List Byte) : (d.evPut e).anvil = d.anvil := by
  (unfold Dev.evPut) <;> (try dsimp only) <;> (repeat' split) <;> simp
@[simp] theorem evPut_fwd (d : Dev) (e : List Byte) : (d.evPut e).fwd = d.fwd := by
  (unfold Dev.evPut) <;> (try dsimp only) <;> (repeat' split) <;> simp
@[simp] theorem evPut_tables (d : Dev) (e : List Byte) : (d.evPut e).tables = d.tables := by
  (unfold Dev.evPut) <;> (try dsimp only) <;> (repeat' split) <;> simp
@[simp] theorem evPut_ste (d : Dev) (e : List Byte) : (d.evPut e).ste = d.ste := by
  (unfold Dev.evPut) <;> (try dsimp only) <;> (repeat' split) <;> simp
@[simp] theorem evPut_can (d : Dev) (e : List Byte) : (d.evPut e).can = d.can := by
  (unfold Dev.evPut) <;> (try dsimp only) <;> (repeat' split) <;> simp
@[simp] theorem evPut_lin (d : Dev) (e : List Byte) : (d.evPut e).lin = d.lin := by
  (unfold Dev.evPut) <;> (try dsimp only) <;> (repeat' split) <;> simp
@[simp] theorem evPut_eth (d : Dev) (e : List Byte) : (d.evPut e).eth = d.eth := by
  (unfold Dev.evPut) <;> (try dsimp only) <;> (repeat' split) <;> simp
@[simp] theorem evPut_time (d : Dev) (e : List Byte) : (d.evPut e).time = d.time := by
  (unfold Dev.evPut) <;> (try dsimp only) <;> (repeat' split) <;> simp
@[simp] theorem evPut_xpt (d : Dev) (e : List Byte) : (d.evPut e).xpt = d.xpt := by
  (unfold Dev.evPut) <;> (try dsimp only) <;> (repeat' split) <;> simp
@[simp] theorem evPut_cry (d : Dev) (e : List Byte) : (d.evPut e).cry = d.cry := by
  (unfold Dev.evPut) <;> (try dsimp only) <;> (repeat' split) <;> simp
@[simp] theorem evPut_vault (d : Dev) (e : List Byte) : (d.evPut e).vault = d.vault := by
  (unfold Dev.evPut) <;> (try dsimp only) <;> (repeat' split) <;> simp
@[simp] theorem evPut_nm (d : Dev) (e : List Byte) : (d.evPut e).nm = d.nm := by
  (unfold Dev.evPut) <;> (try dsimp only) <;> (repeat' split) <;> simp
@[simp] theorem evPut_bus (d : Dev) (e : List Byte) : (d.evPut e).bus = d.bus := by
  (unfold Dev.evPut) <;> (try dsimp only) <;> (repeat' split) <;> simp
@[simp] theorem evPut_flt (d : Dev) (e : List Byte) : (d.evPut e).flt = d.flt := by
  (unfold Dev.evPut) <;> (try dsimp only) <;> (repeat' split) <;> simp
@[simp] theorem evPut_boot (d : Dev) (e : List Byte) : (d.evPut e).boot = d.boot := by
  (unfold Dev.evPut) <;> (try dsimp only) <;> (repeat' split) <;> simp
@[simp] theorem evPut_pwr (d : Dev) (e : List Byte) : (d.evPut e).pwr = d.pwr := by
  (unfold Dev.evPut) <;> (try dsimp only) <;> (repeat' split) <;> simp
@[simp] theorem evPut_load_chans (d : Dev) (e : List Byte) : (d.evPut e).load.chans = d.load.chans := by
  (unfold Dev.evPut) <;> (try dsimp only) <;> (repeat' split) <;> simp
@[simp] theorem evPut_load_flight (d : Dev) (e : List Byte) : (d.evPut e).load.flight = d.load.flight := by
  (unfold Dev.evPut) <;> (try dsimp only) <;> (repeat' split) <;> simp
@[simp] theorem evPut_load_gndLost (d : Dev) (e : List Byte) : (d.evPut e).load.gndLost = d.load.gndLost := by
  (unfold Dev.evPut) <;> (try dsimp only) <;> (repeat' split) <;> simp
@[simp] theorem evPut_load_wdFed (d : Dev) (e : List Byte) : (d.evPut e).load.wdFed = d.load.wdFed := by
  (unfold Dev.evPut) <;> (try dsimp only) <;> (repeat' split) <;> simp
@[simp] theorem evPut_load_fedSince (d : Dev) (e : List Byte) : (d.evPut e).load.fedSince = d.load.fedSince := by
  (unfold Dev.evPut) <;> (try dsimp only) <;> (repeat' split) <;> simp
@[simp] theorem evPut_load_lastDefer (d : Dev) (e : List Byte) : (d.evPut e).load.lastDefer = d.load.lastDefer := by
  (unfold Dev.evPut) <;> (try dsimp only) <;> (repeat' split) <;> simp
@[simp] theorem evPut_load_corr (d : Dev) (e : List Byte) : (d.evPut e).load.corr = d.load.corr := by
  (unfold Dev.evPut) <;> (try dsimp only) <;> (repeat' split) <;> simp
@[simp] theorem evPut_load_ptimeOfs (d : Dev) (e : List Byte) : (d.evPut e).load.ptimeOfs = d.load.ptimeOfs := by
  (unfold Dev.evPut) <;> (try dsimp only) <;> (repeat' split) <;> simp
@[simp] theorem evPut_load_vbat (d : Dev) (e : List Byte) : (d.evPut e).load.vbat = d.load.vbat := by
  (unfold Dev.evPut) <;> (try dsimp only) <;> (repeat' split) <;> simp
@[simp] theorem evPut_load_vhv (d : Dev) (e : List Byte) : (d.evPut e).load.vhv = d.load.vhv := by
  (unfold Dev.evPut) <;> (try dsimp only) <;> (repeat' split) <;> simp
@[simp] theorem evPut_load_revOn (d : Dev) (e : List Byte) : (d.evPut e).load.revOn = d.load.revOn := by
  (unfold Dev.evPut) <;> (try dsimp only) <;> (repeat' split) <;> simp
@[simp] theorem evPut_load_revHeld (d : Dev) (e : List Byte) : (d.evPut e).load.revHeld = d.load.revHeld := by
  (unfold Dev.evPut) <;> (try dsimp only) <;> (repeat' split) <;> simp
@[simp] theorem evPut_host_ops (d : Dev) (e : List Byte) : (d.evPut e).host.ops = d.host.ops := by
  (unfold Dev.evPut) <;> (try dsimp only) <;> (repeat' split) <;> simp
@[simp] theorem evPut_host_txPend (d : Dev) (e : List Byte) : (d.evPut e).host.txPend = d.host.txPend := by
  (unfold Dev.evPut) <;> (try dsimp only) <;> (repeat' split) <;> simp
@[simp] theorem evPut_host_unknown (d : Dev) (e : List Byte) : (d.evPut e).host.unknown = d.host.unknown := by
  (unfold Dev.evPut) <;> (try dsimp only) <;> (repeat' split) <;> simp
@[simp] theorem evPut_host_aborts (d : Dev) (e : List Byte) : (d.evPut e).host.aborts = d.host.aborts := by
  (unfold Dev.evPut) <;> (try dsimp only) <;> (repeat' split) <;> simp
@[simp] theorem evPut_host_hist (d : Dev) (e : List Byte) : (d.evPut e).host.hist = d.host.hist := by
  (unfold Dev.evPut) <;> (try dsimp only) <;> (repeat' split) <;> simp
@[simp] theorem evPut_host_txWait (d : Dev) (e : List Byte) : (d.evPut e).host.txWait = d.host.txWait := by
  (unfold Dev.evPut) <;> (try dsimp only) <;> (repeat' split) <;> simp
@[simp] theorem evPut_host_txKilled (d : Dev) (e : List Byte) : (d.evPut e).host.txKilled = d.host.txKilled := by
  (unfold Dev.evPut) <;> (try dsimp only) <;> (repeat' split) <;> simp

/-! ### `drain63` -/

/-- Every buffered event is written: what `evPut` keeps is kept. -/
theorem drain63_keeps {α : Type} (f : Dev → α) (hp : ∀ d e, f (Dev.evPut d e) = f d)
    (hb : ∀ d : Dev, f { d with load := { d.load with evBuf := [] } } = f d) (d : Dev) : f d.drain63 = f d := by
  have h : ∀ (l : List (List Byte)) (x : Dev), f (l.foldl Dev.evPut x) = f x := by
    intro l
    induction l with
    | nil => intro x; rfl
    | cons a l ih => intro x; rw [List.foldl_cons, ih, hp]
  unfold Dev.drain63
  split
  · rw [h, hb]
  · rfl

@[simp] theorem drain63_tbl (d : Dev) : d.drain63.tbl = d.tbl :=
  drain63_keeps (fun d => d.tbl) (fun d e => evPut_tbl d e) (fun _ => rfl) d
@[simp] theorem drain63_free (d : Dev) : d.drain63.free = d.free :=
  drain63_keeps (fun d => d.free) (fun d e => evPut_free d e) (fun _ => rfl) d
@[simp] theorem drain63_anvil (d : Dev) : d.drain63.anvil = d.anvil :=
  drain63_keeps (fun d => d.anvil) (fun d e => evPut_anvil d e) (fun _ => rfl) d
@[simp] theorem drain63_fwd (d : Dev) : d.drain63.fwd = d.fwd :=
  drain63_keeps (fun d => d.fwd) (fun d e => evPut_fwd d e) (fun _ => rfl) d
@[simp] theorem drain63_tables (d : Dev) : d.drain63.tables = d.tables :=
  drain63_keeps (fun d => d.tables) (fun d e => evPut_tables d e) (fun _ => rfl) d
@[simp] theorem drain63_ste (d : Dev) : d.drain63.ste = d.ste :=
  drain63_keeps (fun d => d.ste) (fun d e => evPut_ste d e) (fun _ => rfl) d
@[simp] theorem drain63_can (d : Dev) : d.drain63.can = d.can :=
  drain63_keeps (fun d => d.can) (fun d e => evPut_can d e) (fun _ => rfl) d
@[simp] theorem drain63_lin (d : Dev) : d.drain63.lin = d.lin :=
  drain63_keeps (fun d => d.lin) (fun d e => evPut_lin d e) (fun _ => rfl) d
@[simp] theorem drain63_eth (d : Dev) : d.drain63.eth = d.eth :=
  drain63_keeps (fun d => d.eth) (fun d e => evPut_eth d e) (fun _ => rfl) d
@[simp] theorem drain63_time (d : Dev) : d.drain63.time = d.time :=
  drain63_keeps (fun d => d.time) (fun d e => evPut_time d e) (fun _ => rfl) d
@[simp] theorem drain63_xpt (d : Dev) : d.drain63.xpt = d.xpt :=
  drain63_keeps (fun d => d.xpt) (fun d e => evPut_xpt d e) (fun _ => rfl) d
@[simp] theorem drain63_cry (d : Dev) : d.drain63.cry = d.cry :=
  drain63_keeps (fun d => d.cry) (fun d e => evPut_cry d e) (fun _ => rfl) d
@[simp] theorem drain63_vault (d : Dev) : d.drain63.vault = d.vault :=
  drain63_keeps (fun d => d.vault) (fun d e => evPut_vault d e) (fun _ => rfl) d
@[simp] theorem drain63_nm (d : Dev) : d.drain63.nm = d.nm :=
  drain63_keeps (fun d => d.nm) (fun d e => evPut_nm d e) (fun _ => rfl) d
@[simp] theorem drain63_bus (d : Dev) : d.drain63.bus = d.bus :=
  drain63_keeps (fun d => d.bus) (fun d e => evPut_bus d e) (fun _ => rfl) d
@[simp] theorem drain63_flt (d : Dev) : d.drain63.flt = d.flt :=
  drain63_keeps (fun d => d.flt) (fun d e => evPut_flt d e) (fun _ => rfl) d
@[simp] theorem drain63_boot (d : Dev) : d.drain63.boot = d.boot :=
  drain63_keeps (fun d => d.boot) (fun d e => evPut_boot d e) (fun _ => rfl) d
@[simp] theorem drain63_pwr (d : Dev) : d.drain63.pwr = d.pwr :=
  drain63_keeps (fun d => d.pwr) (fun d e => evPut_pwr d e) (fun _ => rfl) d
@[simp] theorem drain63_load_chans (d : Dev) : d.drain63.load.chans = d.load.chans :=
  drain63_keeps (fun d => d.load.chans) (fun d e => evPut_load_chans d e) (fun _ => rfl) d
@[simp] theorem drain63_load_flight (d : Dev) : d.drain63.load.flight = d.load.flight :=
  drain63_keeps (fun d => d.load.flight) (fun d e => evPut_load_flight d e) (fun _ => rfl) d
@[simp] theorem drain63_load_gndLost (d : Dev) : d.drain63.load.gndLost = d.load.gndLost :=
  drain63_keeps (fun d => d.load.gndLost) (fun d e => evPut_load_gndLost d e) (fun _ => rfl) d
@[simp] theorem drain63_load_wdFed (d : Dev) : d.drain63.load.wdFed = d.load.wdFed :=
  drain63_keeps (fun d => d.load.wdFed) (fun d e => evPut_load_wdFed d e) (fun _ => rfl) d
@[simp] theorem drain63_load_fedSince (d : Dev) : d.drain63.load.fedSince = d.load.fedSince :=
  drain63_keeps (fun d => d.load.fedSince) (fun d e => evPut_load_fedSince d e) (fun _ => rfl) d
@[simp] theorem drain63_load_lastDefer (d : Dev) : d.drain63.load.lastDefer = d.load.lastDefer :=
  drain63_keeps (fun d => d.load.lastDefer) (fun d e => evPut_load_lastDefer d e) (fun _ => rfl) d
@[simp] theorem drain63_load_corr (d : Dev) : d.drain63.load.corr = d.load.corr :=
  drain63_keeps (fun d => d.load.corr) (fun d e => evPut_load_corr d e) (fun _ => rfl) d
@[simp] theorem drain63_load_ptimeOfs (d : Dev) : d.drain63.load.ptimeOfs = d.load.ptimeOfs :=
  drain63_keeps (fun d => d.load.ptimeOfs) (fun d e => evPut_load_ptimeOfs d e) (fun _ => rfl) d
@[simp] theorem drain63_load_vbat (d : Dev) : d.drain63.load.vbat = d.load.vbat :=
  drain63_keeps (fun d => d.load.vbat) (fun d e => evPut_load_vbat d e) (fun _ => rfl) d
@[simp] theorem drain63_load_vhv (d : Dev) : d.drain63.load.vhv = d.load.vhv :=
  drain63_keeps (fun d => d.load.vhv) (fun d e => evPut_load_vhv d e) (fun _ => rfl) d
@[simp] theorem drain63_load_revOn (d : Dev) : d.drain63.load.revOn = d.load.revOn :=
  drain63_keeps (fun d => d.load.revOn) (fun d e => evPut_load_revOn d e) (fun _ => rfl) d
@[simp] theorem drain63_load_revHeld (d : Dev) : d.drain63.load.revHeld = d.load.revHeld :=
  drain63_keeps (fun d => d.load.revHeld) (fun d e => evPut_load_revHeld d e) (fun _ => rfl) d
@[simp] theorem drain63_host_ops (d : Dev) : d.drain63.host.ops = d.host.ops :=
  drain63_keeps (fun d => d.host.ops) (fun d e => evPut_host_ops d e) (fun _ => rfl) d
@[simp] theorem drain63_host_txPend (d : Dev) : d.drain63.host.txPend = d.host.txPend :=
  drain63_keeps (fun d => d.host.txPend) (fun d e => evPut_host_txPend d e) (fun _ => rfl) d
@[simp] theorem drain63_host_unknown (d : Dev) : d.drain63.host.unknown = d.host.unknown :=
  drain63_keeps (fun d => d.host.unknown) (fun d e => evPut_host_unknown d e) (fun _ => rfl) d
@[simp] theorem drain63_host_aborts (d : Dev) : d.drain63.host.aborts = d.host.aborts :=
  drain63_keeps (fun d => d.host.aborts) (fun d e => evPut_host_aborts d e) (fun _ => rfl) d
@[simp] theorem drain63_host_hist (d : Dev) : d.drain63.host.hist = d.host.hist :=
  drain63_keeps (fun d => d.host.hist) (fun d e => evPut_host_hist d e) (fun _ => rfl) d
@[simp] theorem drain63_host_txWait (d : Dev) : d.drain63.host.txWait = d.host.txWait :=
  drain63_keeps (fun d => d.host.txWait) (fun d e => evPut_host_txWait d e) (fun _ => rfl) d
@[simp] theorem drain63_host_txKilled (d : Dev) : d.drain63.host.txKilled = d.host.txKilled :=
  drain63_keeps (fun d => d.host.txKilled) (fun d e => evPut_host_txKilled d e) (fun _ => rfl) d

/-! ### `ev63` -/

@[simp] theorem ev63_tbl (d : Dev) (e : List Byte) : (d.ev63 e).tbl = d.tbl := by
  (unfold Dev.ev63) <;> (try dsimp only) <;> (repeat' split) <;> simp
@[simp] theorem ev63_free (d : Dev) (e : List Byte) : (d.ev63 e).free = d.free := by
  (unfold Dev.ev63) <;> (try dsimp only) <;> (repeat' split) <;> simp
@[simp] theorem ev63_anvil (d : Dev) (e : List Byte) : (d.ev63 e).anvil = d.anvil := by
  (unfold Dev.ev63) <;> (try dsimp only) <;> (repeat' split) <;> simp
@[simp] theorem ev63_fwd (d : Dev) (e : List Byte) : (d.ev63 e).fwd = d.fwd := by
  (unfold Dev.ev63) <;> (try dsimp only) <;> (repeat' split) <;> simp
@[simp] theorem ev63_tables (d : Dev) (e : List Byte) : (d.ev63 e).tables = d.tables := by
  (unfold Dev.ev63) <;> (try dsimp only) <;> (repeat' split) <;> simp
@[simp] theorem ev63_ste (d : Dev) (e : List Byte) : (d.ev63 e).ste = d.ste := by
  (unfold Dev.ev63) <;> (try dsimp only) <;> (repeat' split) <;> simp
@[simp] theorem ev63_can (d : Dev) (e : List Byte) : (d.ev63 e).can = d.can := by
  (unfold Dev.ev63) <;> (try dsimp only) <;> (repeat' split) <;> simp
@[simp] theorem ev63_lin (d : Dev) (e : List Byte) : (d.ev63 e).lin = d.lin := by
  (unfold Dev.ev63) <;> (try dsimp only) <;> (repeat' split) <;> simp
@[simp] theorem ev63_eth (d : Dev) (e : List Byte) : (d.ev63 e).eth = d.eth := by
  (unfold Dev.ev63) <;> (try dsimp only) <;> (repeat' split) <;> simp
@[simp] theorem ev63_time (d : Dev) (e : List Byte) : (d.ev63 e).time = d.time := by
  (unfold Dev.ev63) <;> (try dsimp only) <;> (repeat' split) <;> simp
@[simp] theorem ev63_xpt (d : Dev) (e : List Byte) : (d.ev63 e).xpt = d.xpt := by
  (unfold Dev.ev63) <;> (try dsimp only) <;> (repeat' split) <;> simp
@[simp] theorem ev63_cry (d : Dev) (e : List Byte) : (d.ev63 e).cry = d.cry := by
  (unfold Dev.ev63) <;> (try dsimp only) <;> (repeat' split) <;> simp
@[simp] theorem ev63_vault (d : Dev) (e : List Byte) : (d.ev63 e).vault = d.vault := by
  (unfold Dev.ev63) <;> (try dsimp only) <;> (repeat' split) <;> simp
@[simp] theorem ev63_nm (d : Dev) (e : List Byte) : (d.ev63 e).nm = d.nm := by
  (unfold Dev.ev63) <;> (try dsimp only) <;> (repeat' split) <;> simp
@[simp] theorem ev63_bus (d : Dev) (e : List Byte) : (d.ev63 e).bus = d.bus := by
  (unfold Dev.ev63) <;> (try dsimp only) <;> (repeat' split) <;> simp
@[simp] theorem ev63_flt (d : Dev) (e : List Byte) : (d.ev63 e).flt = d.flt := by
  (unfold Dev.ev63) <;> (try dsimp only) <;> (repeat' split) <;> simp
@[simp] theorem ev63_boot (d : Dev) (e : List Byte) : (d.ev63 e).boot = d.boot := by
  (unfold Dev.ev63) <;> (try dsimp only) <;> (repeat' split) <;> simp
@[simp] theorem ev63_pwr (d : Dev) (e : List Byte) : (d.ev63 e).pwr = d.pwr := by
  (unfold Dev.ev63) <;> (try dsimp only) <;> (repeat' split) <;> simp
@[simp] theorem ev63_load_chans (d : Dev) (e : List Byte) : (d.ev63 e).load.chans = d.load.chans := by
  (unfold Dev.ev63) <;> (try dsimp only) <;> (repeat' split) <;> simp
@[simp] theorem ev63_load_flight (d : Dev) (e : List Byte) : (d.ev63 e).load.flight = d.load.flight := by
  (unfold Dev.ev63) <;> (try dsimp only) <;> (repeat' split) <;> simp
@[simp] theorem ev63_load_gndLost (d : Dev) (e : List Byte) : (d.ev63 e).load.gndLost = d.load.gndLost := by
  (unfold Dev.ev63) <;> (try dsimp only) <;> (repeat' split) <;> simp
@[simp] theorem ev63_load_wdFed (d : Dev) (e : List Byte) : (d.ev63 e).load.wdFed = d.load.wdFed := by
  (unfold Dev.ev63) <;> (try dsimp only) <;> (repeat' split) <;> simp
@[simp] theorem ev63_load_fedSince (d : Dev) (e : List Byte) : (d.ev63 e).load.fedSince = d.load.fedSince := by
  (unfold Dev.ev63) <;> (try dsimp only) <;> (repeat' split) <;> simp
@[simp] theorem ev63_load_lastDefer (d : Dev) (e : List Byte) : (d.ev63 e).load.lastDefer = d.load.lastDefer := by
  (unfold Dev.ev63) <;> (try dsimp only) <;> (repeat' split) <;> simp
@[simp] theorem ev63_load_corr (d : Dev) (e : List Byte) : (d.ev63 e).load.corr = d.load.corr := by
  (unfold Dev.ev63) <;> (try dsimp only) <;> (repeat' split) <;> simp
@[simp] theorem ev63_load_ptimeOfs (d : Dev) (e : List Byte) : (d.ev63 e).load.ptimeOfs = d.load.ptimeOfs := by
  (unfold Dev.ev63) <;> (try dsimp only) <;> (repeat' split) <;> simp
@[simp] theorem ev63_load_vbat (d : Dev) (e : List Byte) : (d.ev63 e).load.vbat = d.load.vbat := by
  (unfold Dev.ev63) <;> (try dsimp only) <;> (repeat' split) <;> simp
@[simp] theorem ev63_load_vhv (d : Dev) (e : List Byte) : (d.ev63 e).load.vhv = d.load.vhv := by
  (unfold Dev.ev63) <;> (try dsimp only) <;> (repeat' split) <;> simp
@[simp] theorem ev63_load_revOn (d : Dev) (e : List Byte) : (d.ev63 e).load.revOn = d.load.revOn := by
  (unfold Dev.ev63) <;> (try dsimp only) <;> (repeat' split) <;> simp
@[simp] theorem ev63_load_revHeld (d : Dev) (e : List Byte) : (d.ev63 e).load.revHeld = d.load.revHeld := by
  (unfold Dev.ev63) <;> (try dsimp only) <;> (repeat' split) <;> simp
@[simp] theorem ev63_host_ops (d : Dev) (e : List Byte) : (d.ev63 e).host.ops = d.host.ops := by
  (unfold Dev.ev63) <;> (try dsimp only) <;> (repeat' split) <;> simp
@[simp] theorem ev63_host_txPend (d : Dev) (e : List Byte) : (d.ev63 e).host.txPend = d.host.txPend := by
  (unfold Dev.ev63) <;> (try dsimp only) <;> (repeat' split) <;> simp
@[simp] theorem ev63_host_unknown (d : Dev) (e : List Byte) : (d.ev63 e).host.unknown = d.host.unknown := by
  (unfold Dev.ev63) <;> (try dsimp only) <;> (repeat' split) <;> simp
@[simp] theorem ev63_host_aborts (d : Dev) (e : List Byte) : (d.ev63 e).host.aborts = d.host.aborts := by
  (unfold Dev.ev63) <;> (try dsimp only) <;> (repeat' split) <;> simp
@[simp] theorem ev63_host_hist (d : Dev) (e : List Byte) : (d.ev63 e).host.hist = d.host.hist := by
  (unfold Dev.ev63) <;> (try dsimp only) <;> (repeat' split) <;> simp
@[simp] theorem ev63_host_txWait (d : Dev) (e : List Byte) : (d.ev63 e).host.txWait = d.host.txWait := by
  (unfold Dev.ev63) <;> (try dsimp only) <;> (repeat' split) <;> simp
@[simp] theorem ev63_host_txKilled (d : Dev) (e : List Byte) : (d.ev63 e).host.txKilled = d.host.txKilled := by
  (unfold Dev.ev63) <;> (try dsimp only) <;> (repeat' split) <;> simp

/-! ### `chFault` -/

@[simp] theorem chFault_tbl (d : Dev) (i code : Nat) : (d.chFault i code).tbl = d.tbl := by
  (unfold Dev.chFault) <;> (try dsimp only) <;> (repeat' split) <;> simp
@[simp] theorem chFault_free (d : Dev) (i code : Nat) : (d.chFault i code).free = d.free := by
  (unfold Dev.chFault) <;> (try dsimp only) <;> (repeat' split) <;> simp
@[simp] theorem chFault_anvil (d : Dev) (i code : Nat) : (d.chFault i code).anvil = d.anvil := by
  (unfold Dev.chFault) <;> (try dsimp only) <;> (repeat' split) <;> simp
@[simp] theorem chFault_tables (d : Dev) (i code : Nat) : (d.chFault i code).tables = d.tables := by
  (unfold Dev.chFault) <;> (try dsimp only) <;> (repeat' split) <;> simp
@[simp] theorem chFault_can (d : Dev) (i code : Nat) : (d.chFault i code).can = d.can := by
  (unfold Dev.chFault) <;> (try dsimp only) <;> (repeat' split) <;> simp
@[simp] theorem chFault_lin (d : Dev) (i code : Nat) : (d.chFault i code).lin = d.lin := by
  (unfold Dev.chFault) <;> (try dsimp only) <;> (repeat' split) <;> simp
@[simp] theorem chFault_eth (d : Dev) (i code : Nat) : (d.chFault i code).eth = d.eth := by
  (unfold Dev.chFault) <;> (try dsimp only) <;> (repeat' split) <;> simp
@[simp] theorem chFault_time (d : Dev) (i code : Nat) : (d.chFault i code).time = d.time := by
  (unfold Dev.chFault) <;> (try dsimp only) <;> (repeat' split) <;> simp
@[simp] theorem chFault_xpt (d : Dev) (i code : Nat) : (d.chFault i code).xpt = d.xpt := by
  (unfold Dev.chFault) <;> (try dsimp only) <;> (repeat' split) <;> simp
@[simp] theorem chFault_cry (d : Dev) (i code : Nat) : (d.chFault i code).cry = d.cry := by
  (unfold Dev.chFault) <;> (try dsimp only) <;> (repeat' split) <;> simp
@[simp] theorem chFault_vault (d : Dev) (i code : Nat) : (d.chFault i code).vault = d.vault := by
  (unfold Dev.chFault) <;> (try dsimp only) <;> (repeat' split) <;> simp
@[simp] theorem chFault_nm (d : Dev) (i code : Nat) : (d.chFault i code).nm = d.nm := by
  (unfold Dev.chFault) <;> (try dsimp only) <;> (repeat' split) <;> simp
@[simp] theorem chFault_bus (d : Dev) (i code : Nat) : (d.chFault i code).bus = d.bus := by
  (unfold Dev.chFault) <;> (try dsimp only) <;> (repeat' split) <;> simp
@[simp] theorem chFault_flt (d : Dev) (i code : Nat) : (d.chFault i code).flt = d.flt := by
  (unfold Dev.chFault) <;> (try dsimp only) <;> (repeat' split) <;> simp
@[simp] theorem chFault_boot (d : Dev) (i code : Nat) : (d.chFault i code).boot = d.boot := by
  (unfold Dev.chFault) <;> (try dsimp only) <;> (repeat' split) <;> simp
@[simp] theorem chFault_pwr (d : Dev) (i code : Nat) : (d.chFault i code).pwr = d.pwr := by
  (unfold Dev.chFault) <;> (try dsimp only) <;> (repeat' split) <;> simp
@[simp] theorem chFault_load_chans (d : Dev) (i code : Nat) : (d.chFault i code).load.chans = d.load.chans := by
  (unfold Dev.chFault) <;> (try dsimp only) <;> (repeat' split) <;> simp
@[simp] theorem chFault_load_flight (d : Dev) (i code : Nat) : (d.chFault i code).load.flight = d.load.flight := by
  (unfold Dev.chFault) <;> (try dsimp only) <;> (repeat' split) <;> simp
@[simp] theorem chFault_load_gndLost (d : Dev) (i code : Nat) : (d.chFault i code).load.gndLost = d.load.gndLost := by
  (unfold Dev.chFault) <;> (try dsimp only) <;> (repeat' split) <;> simp
@[simp] theorem chFault_load_wdFed (d : Dev) (i code : Nat) : (d.chFault i code).load.wdFed = d.load.wdFed := by
  (unfold Dev.chFault) <;> (try dsimp only) <;> (repeat' split) <;> simp
@[simp] theorem chFault_load_fedSince (d : Dev) (i code : Nat) : (d.chFault i code).load.fedSince = d.load.fedSince := by
  (unfold Dev.chFault) <;> (try dsimp only) <;> (repeat' split) <;> simp
@[simp] theorem chFault_load_lastDefer (d : Dev) (i code : Nat) : (d.chFault i code).load.lastDefer = d.load.lastDefer := by
  (unfold Dev.chFault) <;> (try dsimp only) <;> (repeat' split) <;> simp
@[simp] theorem chFault_load_corr (d : Dev) (i code : Nat) : (d.chFault i code).load.corr = d.load.corr := by
  (unfold Dev.chFault) <;> (try dsimp only) <;> (repeat' split) <;> simp
@[simp] theorem chFault_load_ptimeOfs (d : Dev) (i code : Nat) : (d.chFault i code).load.ptimeOfs = d.load.ptimeOfs := by
  (unfold Dev.chFault) <;> (try dsimp only) <;> (repeat' split) <;> simp
@[simp] theorem chFault_load_vbat (d : Dev) (i code : Nat) : (d.chFault i code).load.vbat = d.load.vbat := by
  (unfold Dev.chFault) <;> (try dsimp only) <;> (repeat' split) <;> simp
@[simp] theorem chFault_load_vhv (d : Dev) (i code : Nat) : (d.chFault i code).load.vhv = d.load.vhv := by
  (unfold Dev.chFault) <;> (try dsimp only) <;> (repeat' split) <;> simp
@[simp] theorem chFault_load_revOn (d : Dev) (i code : Nat) : (d.chFault i code).load.revOn = d.load.revOn := by
  (unfold Dev.chFault) <;> (try dsimp only) <;> (repeat' split) <;> simp
@[simp] theorem chFault_load_revHeld (d : Dev) (i code : Nat) : (d.chFault i code).load.revHeld = d.load.revHeld := by
  (unfold Dev.chFault) <;> (try dsimp only) <;> (repeat' split) <;> simp
@[simp] theorem chFault_host_ops (d : Dev) (i code : Nat) : (d.chFault i code).host.ops = d.host.ops := by
  (unfold Dev.chFault) <;> (try dsimp only) <;> (repeat' split) <;> simp
@[simp] theorem chFault_host_txPend (d : Dev) (i code : Nat) : (d.chFault i code).host.txPend = d.host.txPend := by
  (unfold Dev.chFault) <;> (try dsimp only) <;> (repeat' split) <;> simp
@[simp] theorem chFault_host_unknown (d : Dev) (i code : Nat) : (d.chFault i code).host.unknown = d.host.unknown := by
  (unfold Dev.chFault) <;> (try dsimp only) <;> (repeat' split) <;> simp
@[simp] theorem chFault_host_aborts (d : Dev) (i code : Nat) : (d.chFault i code).host.aborts = d.host.aborts := by
  (unfold Dev.chFault) <;> (try dsimp only) <;> (repeat' split) <;> simp
@[simp] theorem chFault_host_hist (d : Dev) (i code : Nat) : (d.chFault i code).host.hist = d.host.hist := by
  (unfold Dev.chFault) <;> (try dsimp only) <;> (repeat' split) <;> simp
@[simp] theorem chFault_host_txWait (d : Dev) (i code : Nat) : (d.chFault i code).host.txWait = d.host.txWait := by
  (unfold Dev.chFault) <;> (try dsimp only) <;> (repeat' split) <;> simp
@[simp] theorem chFault_host_txKilled (d : Dev) (i code : Nat) : (d.chFault i code).host.txKilled = d.host.txKilled := by
  (unfold Dev.chFault) <;> (try dsimp only) <;> (repeat' split) <;> simp
@[simp] theorem chFault_fwd_copies (d : Dev) (i code : Nat) : (d.chFault i code).fwd.copies = d.fwd.copies := by
  (unfold Dev.chFault) <;> (try dsimp only) <;> (repeat' split) <;> simp
@[simp] theorem chFault_fwd_frames (d : Dev) (i code : Nat) : (d.chFault i code).fwd.frames = d.fwd.frames := by
  (unfold Dev.chFault) <;> (try dsimp only) <;> (repeat' split) <;> simp

/-! ### `chOff` -/

@[simp] theorem chOff_tbl (d : Dev) (i src : Nat) : (d.chOff i src).tbl = d.tbl := by
  (unfold Dev.chOff) <;> (try dsimp only) <;> (repeat' split) <;> simp
@[simp] theorem chOff_hostMem (d : Dev) (i src : Nat) : (d.chOff i src).hostMem = d.hostMem := by
  (unfold Dev.chOff) <;> (try dsimp only) <;> (repeat' split) <;> simp
@[simp] theorem chOff_out (d : Dev) (i src : Nat) : (d.chOff i src).out = d.out := by
  (unfold Dev.chOff) <;> (try dsimp only) <;> (repeat' split) <;> simp
@[simp] theorem chOff_free (d : Dev) (i src : Nat) : (d.chOff i src).free = d.free := by
  (unfold Dev.chOff) <;> (try dsimp only) <;> (repeat' split) <;> simp
@[simp] theorem chOff_anvil (d : Dev) (i src : Nat) : (d.chOff i src).anvil = d.anvil := by
  (unfold Dev.chOff) <;> (try dsimp only) <;> (repeat' split) <;> simp
@[simp] theorem chOff_fwd (d : Dev) (i src : Nat) : (d.chOff i src).fwd = d.fwd := by
  (unfold Dev.chOff) <;> (try dsimp only) <;> (repeat' split) <;> simp
@[simp] theorem chOff_tables (d : Dev) (i src : Nat) : (d.chOff i src).tables = d.tables := by
  (unfold Dev.chOff) <;> (try dsimp only) <;> (repeat' split) <;> simp
@[simp] theorem chOff_ste (d : Dev) (i src : Nat) : (d.chOff i src).ste = d.ste := by
  (unfold Dev.chOff) <;> (try dsimp only) <;> (repeat' split) <;> simp
@[simp] theorem chOff_can (d : Dev) (i src : Nat) : (d.chOff i src).can = d.can := by
  (unfold Dev.chOff) <;> (try dsimp only) <;> (repeat' split) <;> simp
@[simp] theorem chOff_lin (d : Dev) (i src : Nat) : (d.chOff i src).lin = d.lin := by
  (unfold Dev.chOff) <;> (try dsimp only) <;> (repeat' split) <;> simp
@[simp] theorem chOff_eth (d : Dev) (i src : Nat) : (d.chOff i src).eth = d.eth := by
  (unfold Dev.chOff) <;> (try dsimp only) <;> (repeat' split) <;> simp
@[simp] theorem chOff_time (d : Dev) (i src : Nat) : (d.chOff i src).time = d.time := by
  (unfold Dev.chOff) <;> (try dsimp only) <;> (repeat' split) <;> simp
@[simp] theorem chOff_xpt (d : Dev) (i src : Nat) : (d.chOff i src).xpt = d.xpt := by
  (unfold Dev.chOff) <;> (try dsimp only) <;> (repeat' split) <;> simp
@[simp] theorem chOff_cry (d : Dev) (i src : Nat) : (d.chOff i src).cry = d.cry := by
  (unfold Dev.chOff) <;> (try dsimp only) <;> (repeat' split) <;> simp
@[simp] theorem chOff_vault (d : Dev) (i src : Nat) : (d.chOff i src).vault = d.vault := by
  (unfold Dev.chOff) <;> (try dsimp only) <;> (repeat' split) <;> simp
@[simp] theorem chOff_nm (d : Dev) (i src : Nat) : (d.chOff i src).nm = d.nm := by
  (unfold Dev.chOff) <;> (try dsimp only) <;> (repeat' split) <;> simp
@[simp] theorem chOff_host (d : Dev) (i src : Nat) : (d.chOff i src).host = d.host := by
  (unfold Dev.chOff) <;> (try dsimp only) <;> (repeat' split) <;> simp
@[simp] theorem chOff_bus (d : Dev) (i src : Nat) : (d.chOff i src).bus = d.bus := by
  (unfold Dev.chOff) <;> (try dsimp only) <;> (repeat' split) <;> simp
@[simp] theorem chOff_flt (d : Dev) (i src : Nat) : (d.chOff i src).flt = d.flt := by
  (unfold Dev.chOff) <;> (try dsimp only) <;> (repeat' split) <;> simp
@[simp] theorem chOff_boot (d : Dev) (i src : Nat) : (d.chOff i src).boot = d.boot := by
  (unfold Dev.chOff) <;> (try dsimp only) <;> (repeat' split) <;> simp
@[simp] theorem chOff_pwr (d : Dev) (i src : Nat) : (d.chOff i src).pwr = d.pwr := by
  (unfold Dev.chOff) <;> (try dsimp only) <;> (repeat' split) <;> simp
@[simp] theorem chOff_load_flight (d : Dev) (i src : Nat) : (d.chOff i src).load.flight = d.load.flight := by
  (unfold Dev.chOff) <;> (try dsimp only) <;> (repeat' split) <;> simp
@[simp] theorem chOff_load_gndLost (d : Dev) (i src : Nat) : (d.chOff i src).load.gndLost = d.load.gndLost := by
  (unfold Dev.chOff) <;> (try dsimp only) <;> (repeat' split) <;> simp
@[simp] theorem chOff_load_wdFed (d : Dev) (i src : Nat) : (d.chOff i src).load.wdFed = d.load.wdFed := by
  (unfold Dev.chOff) <;> (try dsimp only) <;> (repeat' split) <;> simp
@[simp] theorem chOff_load_fedSince (d : Dev) (i src : Nat) : (d.chOff i src).load.fedSince = d.load.fedSince := by
  (unfold Dev.chOff) <;> (try dsimp only) <;> (repeat' split) <;> simp
@[simp] theorem chOff_load_lastDefer (d : Dev) (i src : Nat) : (d.chOff i src).load.lastDefer = d.load.lastDefer := by
  (unfold Dev.chOff) <;> (try dsimp only) <;> (repeat' split) <;> simp
@[simp] theorem chOff_load_corr (d : Dev) (i src : Nat) : (d.chOff i src).load.corr = d.load.corr := by
  (unfold Dev.chOff) <;> (try dsimp only) <;> (repeat' split) <;> simp
@[simp] theorem chOff_load_ptimeOfs (d : Dev) (i src : Nat) : (d.chOff i src).load.ptimeOfs = d.load.ptimeOfs := by
  (unfold Dev.chOff) <;> (try dsimp only) <;> (repeat' split) <;> simp
@[simp] theorem chOff_load_vbat (d : Dev) (i src : Nat) : (d.chOff i src).load.vbat = d.load.vbat := by
  (unfold Dev.chOff) <;> (try dsimp only) <;> (repeat' split) <;> simp
@[simp] theorem chOff_load_vhv (d : Dev) (i src : Nat) : (d.chOff i src).load.vhv = d.load.vhv := by
  (unfold Dev.chOff) <;> (try dsimp only) <;> (repeat' split) <;> simp
@[simp] theorem chOff_load_revOn (d : Dev) (i src : Nat) : (d.chOff i src).load.revOn = d.load.revOn := by
  (unfold Dev.chOff) <;> (try dsimp only) <;> (repeat' split) <;> simp
@[simp] theorem chOff_load_revHeld (d : Dev) (i src : Nat) : (d.chOff i src).load.revHeld = d.load.revHeld := by
  (unfold Dev.chOff) <;> (try dsimp only) <;> (repeat' split) <;> simp

/-! ### `chMove` -/

@[simp] theorem chMove_tbl (d : Dev) (i : Nat) (run : Run) (duty src : Nat) : (d.chMove i run duty src).tbl = d.tbl := by
  (unfold Dev.chMove) <;> (try dsimp only) <;> (repeat' split) <;> simp
@[simp] theorem chMove_hostMem (d : Dev) (i : Nat) (run : Run) (duty src : Nat) : (d.chMove i run duty src).hostMem = d.hostMem := by
  (unfold Dev.chMove) <;> (try dsimp only) <;> (repeat' split) <;> simp
@[simp] theorem chMove_out (d : Dev) (i : Nat) (run : Run) (duty src : Nat) : (d.chMove i run duty src).out = d.out := by
  (unfold Dev.chMove) <;> (try dsimp only) <;> (repeat' split) <;> simp
@[simp] theorem chMove_free (d : Dev) (i : Nat) (run : Run) (duty src : Nat) : (d.chMove i run duty src).free = d.free := by
  (unfold Dev.chMove) <;> (try dsimp only) <;> (repeat' split) <;> simp
@[simp] theorem chMove_anvil (d : Dev) (i : Nat) (run : Run) (duty src : Nat) : (d.chMove i run duty src).anvil = d.anvil := by
  (unfold Dev.chMove) <;> (try dsimp only) <;> (repeat' split) <;> simp
@[simp] theorem chMove_fwd (d : Dev) (i : Nat) (run : Run) (duty src : Nat) : (d.chMove i run duty src).fwd = d.fwd := by
  (unfold Dev.chMove) <;> (try dsimp only) <;> (repeat' split) <;> simp
@[simp] theorem chMove_tables (d : Dev) (i : Nat) (run : Run) (duty src : Nat) : (d.chMove i run duty src).tables = d.tables := by
  (unfold Dev.chMove) <;> (try dsimp only) <;> (repeat' split) <;> simp
@[simp] theorem chMove_ste (d : Dev) (i : Nat) (run : Run) (duty src : Nat) : (d.chMove i run duty src).ste = d.ste := by
  (unfold Dev.chMove) <;> (try dsimp only) <;> (repeat' split) <;> simp
@[simp] theorem chMove_can (d : Dev) (i : Nat) (run : Run) (duty src : Nat) : (d.chMove i run duty src).can = d.can := by
  (unfold Dev.chMove) <;> (try dsimp only) <;> (repeat' split) <;> simp
@[simp] theorem chMove_lin (d : Dev) (i : Nat) (run : Run) (duty src : Nat) : (d.chMove i run duty src).lin = d.lin := by
  (unfold Dev.chMove) <;> (try dsimp only) <;> (repeat' split) <;> simp
@[simp] theorem chMove_eth (d : Dev) (i : Nat) (run : Run) (duty src : Nat) : (d.chMove i run duty src).eth = d.eth := by
  (unfold Dev.chMove) <;> (try dsimp only) <;> (repeat' split) <;> simp
@[simp] theorem chMove_time (d : Dev) (i : Nat) (run : Run) (duty src : Nat) : (d.chMove i run duty src).time = d.time := by
  (unfold Dev.chMove) <;> (try dsimp only) <;> (repeat' split) <;> simp
@[simp] theorem chMove_xpt (d : Dev) (i : Nat) (run : Run) (duty src : Nat) : (d.chMove i run duty src).xpt = d.xpt := by
  (unfold Dev.chMove) <;> (try dsimp only) <;> (repeat' split) <;> simp
@[simp] theorem chMove_cry (d : Dev) (i : Nat) (run : Run) (duty src : Nat) : (d.chMove i run duty src).cry = d.cry := by
  (unfold Dev.chMove) <;> (try dsimp only) <;> (repeat' split) <;> simp
@[simp] theorem chMove_vault (d : Dev) (i : Nat) (run : Run) (duty src : Nat) : (d.chMove i run duty src).vault = d.vault := by
  (unfold Dev.chMove) <;> (try dsimp only) <;> (repeat' split) <;> simp
@[simp] theorem chMove_nm (d : Dev) (i : Nat) (run : Run) (duty src : Nat) : (d.chMove i run duty src).nm = d.nm := by
  (unfold Dev.chMove) <;> (try dsimp only) <;> (repeat' split) <;> simp
@[simp] theorem chMove_host (d : Dev) (i : Nat) (run : Run) (duty src : Nat) : (d.chMove i run duty src).host = d.host := by
  (unfold Dev.chMove) <;> (try dsimp only) <;> (repeat' split) <;> simp
@[simp] theorem chMove_bus (d : Dev) (i : Nat) (run : Run) (duty src : Nat) : (d.chMove i run duty src).bus = d.bus := by
  (unfold Dev.chMove) <;> (try dsimp only) <;> (repeat' split) <;> simp
@[simp] theorem chMove_flt (d : Dev) (i : Nat) (run : Run) (duty src : Nat) : (d.chMove i run duty src).flt = d.flt := by
  (unfold Dev.chMove) <;> (try dsimp only) <;> (repeat' split) <;> simp
@[simp] theorem chMove_boot (d : Dev) (i : Nat) (run : Run) (duty src : Nat) : (d.chMove i run duty src).boot = d.boot := by
  (unfold Dev.chMove) <;> (try dsimp only) <;> (repeat' split) <;> simp
@[simp] theorem chMove_pwr (d : Dev) (i : Nat) (run : Run) (duty src : Nat) : (d.chMove i run duty src).pwr = d.pwr := by
  (unfold Dev.chMove) <;> (try dsimp only) <;> (repeat' split) <;> simp
@[simp] theorem chMove_load_flight (d : Dev) (i : Nat) (run : Run) (duty src : Nat) : (d.chMove i run duty src).load.flight = d.load.flight := by
  (unfold Dev.chMove) <;> (try dsimp only) <;> (repeat' split) <;> simp
@[simp] theorem chMove_load_gndLost (d : Dev) (i : Nat) (run : Run) (duty src : Nat) : (d.chMove i run duty src).load.gndLost = d.load.gndLost := by
  (unfold Dev.chMove) <;> (try dsimp only) <;> (repeat' split) <;> simp
@[simp] theorem chMove_load_wdFed (d : Dev) (i : Nat) (run : Run) (duty src : Nat) : (d.chMove i run duty src).load.wdFed = d.load.wdFed := by
  (unfold Dev.chMove) <;> (try dsimp only) <;> (repeat' split) <;> simp
@[simp] theorem chMove_load_fedSince (d : Dev) (i : Nat) (run : Run) (duty src : Nat) : (d.chMove i run duty src).load.fedSince = d.load.fedSince := by
  (unfold Dev.chMove) <;> (try dsimp only) <;> (repeat' split) <;> simp
@[simp] theorem chMove_load_lastDefer (d : Dev) (i : Nat) (run : Run) (duty src : Nat) : (d.chMove i run duty src).load.lastDefer = d.load.lastDefer := by
  (unfold Dev.chMove) <;> (try dsimp only) <;> (repeat' split) <;> simp
@[simp] theorem chMove_load_corr (d : Dev) (i : Nat) (run : Run) (duty src : Nat) : (d.chMove i run duty src).load.corr = d.load.corr := by
  (unfold Dev.chMove) <;> (try dsimp only) <;> (repeat' split) <;> simp
@[simp] theorem chMove_load_ptimeOfs (d : Dev) (i : Nat) (run : Run) (duty src : Nat) : (d.chMove i run duty src).load.ptimeOfs = d.load.ptimeOfs := by
  (unfold Dev.chMove) <;> (try dsimp only) <;> (repeat' split) <;> simp
@[simp] theorem chMove_load_vbat (d : Dev) (i : Nat) (run : Run) (duty src : Nat) : (d.chMove i run duty src).load.vbat = d.load.vbat := by
  (unfold Dev.chMove) <;> (try dsimp only) <;> (repeat' split) <;> simp
@[simp] theorem chMove_load_vhv (d : Dev) (i : Nat) (run : Run) (duty src : Nat) : (d.chMove i run duty src).load.vhv = d.load.vhv := by
  (unfold Dev.chMove) <;> (try dsimp only) <;> (repeat' split) <;> simp
@[simp] theorem chMove_load_revOn (d : Dev) (i : Nat) (run : Run) (duty src : Nat) : (d.chMove i run duty src).load.revOn = d.load.revOn := by
  (unfold Dev.chMove) <;> (try dsimp only) <;> (repeat' split) <;> simp
@[simp] theorem chMove_load_revHeld (d : Dev) (i : Nat) (run : Run) (duty src : Nat) : (d.chMove i run duty src).load.revHeld = d.load.revHeld := by
  (unfold Dev.chMove) <;> (try dsimp only) <;> (repeat' split) <;> simp

/-! ### `chApply` -/

@[simp] theorem chApply_tbl (d : Dev) (i : Nat) (run : Run) (duty src : Nat) (retry : Bool) : (d.chApply i run duty src retry).tbl = d.tbl := by
  (unfold Dev.chApply) <;> (try dsimp only) <;> (repeat' split) <;> simp
@[simp] theorem chApply_free (d : Dev) (i : Nat) (run : Run) (duty src : Nat) (retry : Bool) : (d.chApply i run duty src retry).free = d.free := by
  (unfold Dev.chApply) <;> (try dsimp only) <;> (repeat' split) <;> simp
@[simp] theorem chApply_anvil (d : Dev) (i : Nat) (run : Run) (duty src : Nat) (retry : Bool) : (d.chApply i run duty src retry).anvil = d.anvil := by
  (unfold Dev.chApply) <;> (try dsimp only) <;> (repeat' split) <;> simp
@[simp] theorem chApply_tables (d : Dev) (i : Nat) (run : Run) (duty src : Nat) (retry : Bool) : (d.chApply i run duty src retry).tables = d.tables := by
  (unfold Dev.chApply) <;> (try dsimp only) <;> (repeat' split) <;> simp
@[simp] theorem chApply_can (d : Dev) (i : Nat) (run : Run) (duty src : Nat) (retry : Bool) : (d.chApply i run duty src retry).can = d.can := by
  (unfold Dev.chApply) <;> (try dsimp only) <;> (repeat' split) <;> simp
@[simp] theorem chApply_lin (d : Dev) (i : Nat) (run : Run) (duty src : Nat) (retry : Bool) : (d.chApply i run duty src retry).lin = d.lin := by
  (unfold Dev.chApply) <;> (try dsimp only) <;> (repeat' split) <;> simp
@[simp] theorem chApply_eth (d : Dev) (i : Nat) (run : Run) (duty src : Nat) (retry : Bool) : (d.chApply i run duty src retry).eth = d.eth := by
  (unfold Dev.chApply) <;> (try dsimp only) <;> (repeat' split) <;> simp
@[simp] theorem chApply_time (d : Dev) (i : Nat) (run : Run) (duty src : Nat) (retry : Bool) : (d.chApply i run duty src retry).time = d.time := by
  (unfold Dev.chApply) <;> (try dsimp only) <;> (repeat' split) <;> simp
@[simp] theorem chApply_xpt (d : Dev) (i : Nat) (run : Run) (duty src : Nat) (retry : Bool) : (d.chApply i run duty src retry).xpt = d.xpt := by
  (unfold Dev.chApply) <;> (try dsimp only) <;> (repeat' split) <;> simp
@[simp] theorem chApply_cry (d : Dev) (i : Nat) (run : Run) (duty src : Nat) (retry : Bool) : (d.chApply i run duty src retry).cry = d.cry := by
  (unfold Dev.chApply) <;> (try dsimp only) <;> (repeat' split) <;> simp
@[simp] theorem chApply_vault (d : Dev) (i : Nat) (run : Run) (duty src : Nat) (retry : Bool) : (d.chApply i run duty src retry).vault = d.vault := by
  (unfold Dev.chApply) <;> (try dsimp only) <;> (repeat' split) <;> simp
@[simp] theorem chApply_nm (d : Dev) (i : Nat) (run : Run) (duty src : Nat) (retry : Bool) : (d.chApply i run duty src retry).nm = d.nm := by
  (unfold Dev.chApply) <;> (try dsimp only) <;> (repeat' split) <;> simp
@[simp] theorem chApply_bus (d : Dev) (i : Nat) (run : Run) (duty src : Nat) (retry : Bool) : (d.chApply i run duty src retry).bus = d.bus := by
  (unfold Dev.chApply) <;> (try dsimp only) <;> (repeat' split) <;> simp
@[simp] theorem chApply_flt (d : Dev) (i : Nat) (run : Run) (duty src : Nat) (retry : Bool) : (d.chApply i run duty src retry).flt = d.flt := by
  (unfold Dev.chApply) <;> (try dsimp only) <;> (repeat' split) <;> simp
@[simp] theorem chApply_boot (d : Dev) (i : Nat) (run : Run) (duty src : Nat) (retry : Bool) : (d.chApply i run duty src retry).boot = d.boot := by
  (unfold Dev.chApply) <;> (try dsimp only) <;> (repeat' split) <;> simp
@[simp] theorem chApply_pwr (d : Dev) (i : Nat) (run : Run) (duty src : Nat) (retry : Bool) : (d.chApply i run duty src retry).pwr = d.pwr := by
  (unfold Dev.chApply) <;> (try dsimp only) <;> (repeat' split) <;> simp
@[simp] theorem chApply_load_flight (d : Dev) (i : Nat) (run : Run) (duty src : Nat) (retry : Bool) : (d.chApply i run duty src retry).load.flight = d.load.flight := by
  (unfold Dev.chApply) <;> (try dsimp only) <;> (repeat' split) <;> simp
@[simp] theorem chApply_load_gndLost (d : Dev) (i : Nat) (run : Run) (duty src : Nat) (retry : Bool) : (d.chApply i run duty src retry).load.gndLost = d.load.gndLost := by
  (unfold Dev.chApply) <;> (try dsimp only) <;> (repeat' split) <;> simp
@[simp] theorem chApply_load_wdFed (d : Dev) (i : Nat) (run : Run) (duty src : Nat) (retry : Bool) : (d.chApply i run duty src retry).load.wdFed = d.load.wdFed := by
  (unfold Dev.chApply) <;> (try dsimp only) <;> (repeat' split) <;> simp
@[simp] theorem chApply_load_fedSince (d : Dev) (i : Nat) (run : Run) (duty src : Nat) (retry : Bool) : (d.chApply i run duty src retry).load.fedSince = d.load.fedSince := by
  (unfold Dev.chApply) <;> (try dsimp only) <;> (repeat' split) <;> simp
@[simp] theorem chApply_load_lastDefer (d : Dev) (i : Nat) (run : Run) (duty src : Nat) (retry : Bool) : (d.chApply i run duty src retry).load.lastDefer = d.load.lastDefer := by
  (unfold Dev.chApply) <;> (try dsimp only) <;> (repeat' split) <;> simp
@[simp] theorem chApply_load_corr (d : Dev) (i : Nat) (run : Run) (duty src : Nat) (retry : Bool) : (d.chApply i run duty src retry).load.corr = d.load.corr := by
  (unfold Dev.chApply) <;> (try dsimp only) <;> (repeat' split) <;> simp
@[simp] theorem chApply_load_ptimeOfs (d : Dev) (i : Nat) (run : Run) (duty src : Nat) (retry : Bool) : (d.chApply i run duty src retry).load.ptimeOfs = d.load.ptimeOfs := by
  (unfold Dev.chApply) <;> (try dsimp only) <;> (repeat' split) <;> simp
@[simp] theorem chApply_load_vbat (d : Dev) (i : Nat) (run : Run) (duty src : Nat) (retry : Bool) : (d.chApply i run duty src retry).load.vbat = d.load.vbat := by
  (unfold Dev.chApply) <;> (try dsimp only) <;> (repeat' split) <;> simp
@[simp] theorem chApply_load_vhv (d : Dev) (i : Nat) (run : Run) (duty src : Nat) (retry : Bool) : (d.chApply i run duty src retry).load.vhv = d.load.vhv := by
  (unfold Dev.chApply) <;> (try dsimp only) <;> (repeat' split) <;> simp
@[simp] theorem chApply_load_revOn (d : Dev) (i : Nat) (run : Run) (duty src : Nat) (retry : Bool) : (d.chApply i run duty src retry).load.revOn = d.load.revOn := by
  (unfold Dev.chApply) <;> (try dsimp only) <;> (repeat' split) <;> simp
@[simp] theorem chApply_load_revHeld (d : Dev) (i : Nat) (run : Run) (duty src : Nat) (retry : Bool) : (d.chApply i run duty src retry).load.revHeld = d.load.revHeld := by
  (unfold Dev.chApply) <;> (try dsimp only) <;> (repeat' split) <;> simp
@[simp] theorem chApply_host_ops (d : Dev) (i : Nat) (run : Run) (duty src : Nat) (retry : Bool) : (d.chApply i run duty src retry).host.ops = d.host.ops := by
  (unfold Dev.chApply) <;> (try dsimp only) <;> (repeat' split) <;> simp
@[simp] theorem chApply_host_txPend (d : Dev) (i : Nat) (run : Run) (duty src : Nat) (retry : Bool) : (d.chApply i run duty src retry).host.txPend = d.host.txPend := by
  (unfold Dev.chApply) <;> (try dsimp only) <;> (repeat' split) <;> simp
@[simp] theorem chApply_host_unknown (d : Dev) (i : Nat) (run : Run) (duty src : Nat) (retry : Bool) : (d.chApply i run duty src retry).host.unknown = d.host.unknown := by
  (unfold Dev.chApply) <;> (try dsimp only) <;> (repeat' split) <;> simp
@[simp] theorem chApply_host_aborts (d : Dev) (i : Nat) (run : Run) (duty src : Nat) (retry : Bool) : (d.chApply i run duty src retry).host.aborts = d.host.aborts := by
  (unfold Dev.chApply) <;> (try dsimp only) <;> (repeat' split) <;> simp
@[simp] theorem chApply_host_hist (d : Dev) (i : Nat) (run : Run) (duty src : Nat) (retry : Bool) : (d.chApply i run duty src retry).host.hist = d.host.hist := by
  (unfold Dev.chApply) <;> (try dsimp only) <;> (repeat' split) <;> simp
@[simp] theorem chApply_host_txWait (d : Dev) (i : Nat) (run : Run) (duty src : Nat) (retry : Bool) : (d.chApply i run duty src retry).host.txWait = d.host.txWait := by
  (unfold Dev.chApply) <;> (try dsimp only) <;> (repeat' split) <;> simp
@[simp] theorem chApply_host_txKilled (d : Dev) (i : Nat) (run : Run) (duty src : Nat) (retry : Bool) : (d.chApply i run duty src retry).host.txKilled = d.host.txKilled := by
  (unfold Dev.chApply) <;> (try dsimp only) <;> (repeat' split) <;> simp
@[simp] theorem chApply_fwd_copies (d : Dev) (i : Nat) (run : Run) (duty src : Nat) (retry : Bool) : (d.chApply i run duty src retry).fwd.copies = d.fwd.copies := by
  (unfold Dev.chApply) <;> (try dsimp only) <;> (repeat' split) <;> simp
@[simp] theorem chApply_fwd_frames (d : Dev) (i : Nat) (run : Run) (duty src : Nat) (retry : Bool) : (d.chApply i run duty src retry).fwd.frames = d.fwd.frames := by
  (unfold Dev.chApply) <;> (try dsimp only) <;> (repeat' split) <;> simp

/-! ### `trip` -/

@[simp] theorem trip_tbl (d : Dev) (i code : Nat) : (d.trip i code).tbl = d.tbl := by
  (unfold Dev.trip) <;> (try dsimp only) <;> (repeat' split) <;> simp
@[simp] theorem trip_free (d : Dev) (i code : Nat) : (d.trip i code).free = d.free := by
  (unfold Dev.trip) <;> (try dsimp only) <;> (repeat' split) <;> simp
@[simp] theorem trip_anvil (d : Dev) (i code : Nat) : (d.trip i code).anvil = d.anvil := by
  (unfold Dev.trip) <;> (try dsimp only) <;> (repeat' split) <;> simp
@[simp] theorem trip_tables (d : Dev) (i code : Nat) : (d.trip i code).tables = d.tables := by
  (unfold Dev.trip) <;> (try dsimp only) <;> (repeat' split) <;> simp
@[simp] theorem trip_can (d : Dev) (i code : Nat) : (d.trip i code).can = d.can := by
  (unfold Dev.trip) <;> (try dsimp only) <;> (repeat' split) <;> simp
@[simp] theorem trip_lin (d : Dev) (i code : Nat) : (d.trip i code).lin = d.lin := by
  (unfold Dev.trip) <;> (try dsimp only) <;> (repeat' split) <;> simp
@[simp] theorem trip_eth (d : Dev) (i code : Nat) : (d.trip i code).eth = d.eth := by
  (unfold Dev.trip) <;> (try dsimp only) <;> (repeat' split) <;> simp
@[simp] theorem trip_time (d : Dev) (i code : Nat) : (d.trip i code).time = d.time := by
  (unfold Dev.trip) <;> (try dsimp only) <;> (repeat' split) <;> simp
@[simp] theorem trip_xpt (d : Dev) (i code : Nat) : (d.trip i code).xpt = d.xpt := by
  (unfold Dev.trip) <;> (try dsimp only) <;> (repeat' split) <;> simp
@[simp] theorem trip_cry (d : Dev) (i code : Nat) : (d.trip i code).cry = d.cry := by
  (unfold Dev.trip) <;> (try dsimp only) <;> (repeat' split) <;> simp
@[simp] theorem trip_vault (d : Dev) (i code : Nat) : (d.trip i code).vault = d.vault := by
  (unfold Dev.trip) <;> (try dsimp only) <;> (repeat' split) <;> simp
@[simp] theorem trip_nm (d : Dev) (i code : Nat) : (d.trip i code).nm = d.nm := by
  (unfold Dev.trip) <;> (try dsimp only) <;> (repeat' split) <;> simp
@[simp] theorem trip_bus (d : Dev) (i code : Nat) : (d.trip i code).bus = d.bus := by
  (unfold Dev.trip) <;> (try dsimp only) <;> (repeat' split) <;> simp
@[simp] theorem trip_flt (d : Dev) (i code : Nat) : (d.trip i code).flt = d.flt := by
  (unfold Dev.trip) <;> (try dsimp only) <;> (repeat' split) <;> simp
@[simp] theorem trip_boot (d : Dev) (i code : Nat) : (d.trip i code).boot = d.boot := by
  (unfold Dev.trip) <;> (try dsimp only) <;> (repeat' split) <;> simp
@[simp] theorem trip_pwr (d : Dev) (i code : Nat) : (d.trip i code).pwr = d.pwr := by
  (unfold Dev.trip) <;> (try dsimp only) <;> (repeat' split) <;> simp
@[simp] theorem trip_load_flight (d : Dev) (i code : Nat) : (d.trip i code).load.flight = d.load.flight := by
  (unfold Dev.trip) <;> (try dsimp only) <;> (repeat' split) <;> simp
@[simp] theorem trip_load_gndLost (d : Dev) (i code : Nat) : (d.trip i code).load.gndLost = d.load.gndLost := by
  (unfold Dev.trip) <;> (try dsimp only) <;> (repeat' split) <;> simp
@[simp] theorem trip_load_wdFed (d : Dev) (i code : Nat) : (d.trip i code).load.wdFed = d.load.wdFed := by
  (unfold Dev.trip) <;> (try dsimp only) <;> (repeat' split) <;> simp
@[simp] theorem trip_load_fedSince (d : Dev) (i code : Nat) : (d.trip i code).load.fedSince = d.load.fedSince := by
  (unfold Dev.trip) <;> (try dsimp only) <;> (repeat' split) <;> simp
@[simp] theorem trip_load_lastDefer (d : Dev) (i code : Nat) : (d.trip i code).load.lastDefer = d.load.lastDefer := by
  (unfold Dev.trip) <;> (try dsimp only) <;> (repeat' split) <;> simp
@[simp] theorem trip_load_corr (d : Dev) (i code : Nat) : (d.trip i code).load.corr = d.load.corr := by
  (unfold Dev.trip) <;> (try dsimp only) <;> (repeat' split) <;> simp
@[simp] theorem trip_load_ptimeOfs (d : Dev) (i code : Nat) : (d.trip i code).load.ptimeOfs = d.load.ptimeOfs := by
  (unfold Dev.trip) <;> (try dsimp only) <;> (repeat' split) <;> simp
@[simp] theorem trip_load_vbat (d : Dev) (i code : Nat) : (d.trip i code).load.vbat = d.load.vbat := by
  (unfold Dev.trip) <;> (try dsimp only) <;> (repeat' split) <;> simp
@[simp] theorem trip_load_vhv (d : Dev) (i code : Nat) : (d.trip i code).load.vhv = d.load.vhv := by
  (unfold Dev.trip) <;> (try dsimp only) <;> (repeat' split) <;> simp
@[simp] theorem trip_load_revOn (d : Dev) (i code : Nat) : (d.trip i code).load.revOn = d.load.revOn := by
  (unfold Dev.trip) <;> (try dsimp only) <;> (repeat' split) <;> simp
@[simp] theorem trip_load_revHeld (d : Dev) (i code : Nat) : (d.trip i code).load.revHeld = d.load.revHeld := by
  (unfold Dev.trip) <;> (try dsimp only) <;> (repeat' split) <;> simp
@[simp] theorem trip_host_ops (d : Dev) (i code : Nat) : (d.trip i code).host.ops = d.host.ops := by
  (unfold Dev.trip) <;> (try dsimp only) <;> (repeat' split) <;> simp
@[simp] theorem trip_host_txPend (d : Dev) (i code : Nat) : (d.trip i code).host.txPend = d.host.txPend := by
  (unfold Dev.trip) <;> (try dsimp only) <;> (repeat' split) <;> simp
@[simp] theorem trip_host_unknown (d : Dev) (i code : Nat) : (d.trip i code).host.unknown = d.host.unknown := by
  (unfold Dev.trip) <;> (try dsimp only) <;> (repeat' split) <;> simp
@[simp] theorem trip_host_aborts (d : Dev) (i code : Nat) : (d.trip i code).host.aborts = d.host.aborts := by
  (unfold Dev.trip) <;> (try dsimp only) <;> (repeat' split) <;> simp
@[simp] theorem trip_host_hist (d : Dev) (i code : Nat) : (d.trip i code).host.hist = d.host.hist := by
  (unfold Dev.trip) <;> (try dsimp only) <;> (repeat' split) <;> simp
@[simp] theorem trip_host_txWait (d : Dev) (i code : Nat) : (d.trip i code).host.txWait = d.host.txWait := by
  (unfold Dev.trip) <;> (try dsimp only) <;> (repeat' split) <;> simp
@[simp] theorem trip_host_txKilled (d : Dev) (i code : Nat) : (d.trip i code).host.txKilled = d.host.txKilled := by
  (unfold Dev.trip) <;> (try dsimp only) <;> (repeat' split) <;> simp
@[simp] theorem trip_fwd_copies (d : Dev) (i code : Nat) : (d.trip i code).fwd.copies = d.fwd.copies := by
  (unfold Dev.trip) <;> (try dsimp only) <;> (repeat' split) <;> simp
@[simp] theorem trip_fwd_frames (d : Dev) (i code : Nat) : (d.trip i code).fwd.frames = d.fwd.frames := by
  (unfold Dev.trip) <;> (try dsimp only) <;> (repeat' split) <;> simp

/-! ### `obey` -/

@[simp] theorem obey_tbl (d : Dev) (i src : Nat) : (d.obey i src).tbl = d.tbl := by
  (unfold Dev.obey) <;> (try dsimp only) <;> (repeat' split) <;> simp
@[simp] theorem obey_free (d : Dev) (i src : Nat) : (d.obey i src).free = d.free := by
  (unfold Dev.obey) <;> (try dsimp only) <;> (repeat' split) <;> simp
@[simp] theorem obey_anvil (d : Dev) (i src : Nat) : (d.obey i src).anvil = d.anvil := by
  (unfold Dev.obey) <;> (try dsimp only) <;> (repeat' split) <;> simp
@[simp] theorem obey_tables (d : Dev) (i src : Nat) : (d.obey i src).tables = d.tables := by
  (unfold Dev.obey) <;> (try dsimp only) <;> (repeat' split) <;> simp
@[simp] theorem obey_can (d : Dev) (i src : Nat) : (d.obey i src).can = d.can := by
  (unfold Dev.obey) <;> (try dsimp only) <;> (repeat' split) <;> simp
@[simp] theorem obey_lin (d : Dev) (i src : Nat) : (d.obey i src).lin = d.lin := by
  (unfold Dev.obey) <;> (try dsimp only) <;> (repeat' split) <;> simp
@[simp] theorem obey_eth (d : Dev) (i src : Nat) : (d.obey i src).eth = d.eth := by
  (unfold Dev.obey) <;> (try dsimp only) <;> (repeat' split) <;> simp
@[simp] theorem obey_time (d : Dev) (i src : Nat) : (d.obey i src).time = d.time := by
  (unfold Dev.obey) <;> (try dsimp only) <;> (repeat' split) <;> simp
@[simp] theorem obey_xpt (d : Dev) (i src : Nat) : (d.obey i src).xpt = d.xpt := by
  (unfold Dev.obey) <;> (try dsimp only) <;> (repeat' split) <;> simp
@[simp] theorem obey_cry (d : Dev) (i src : Nat) : (d.obey i src).cry = d.cry := by
  (unfold Dev.obey) <;> (try dsimp only) <;> (repeat' split) <;> simp
@[simp] theorem obey_vault (d : Dev) (i src : Nat) : (d.obey i src).vault = d.vault := by
  (unfold Dev.obey) <;> (try dsimp only) <;> (repeat' split) <;> simp
@[simp] theorem obey_nm (d : Dev) (i src : Nat) : (d.obey i src).nm = d.nm := by
  (unfold Dev.obey) <;> (try dsimp only) <;> (repeat' split) <;> simp
@[simp] theorem obey_bus (d : Dev) (i src : Nat) : (d.obey i src).bus = d.bus := by
  (unfold Dev.obey) <;> (try dsimp only) <;> (repeat' split) <;> simp
@[simp] theorem obey_flt (d : Dev) (i src : Nat) : (d.obey i src).flt = d.flt := by
  (unfold Dev.obey) <;> (try dsimp only) <;> (repeat' split) <;> simp
@[simp] theorem obey_boot (d : Dev) (i src : Nat) : (d.obey i src).boot = d.boot := by
  (unfold Dev.obey) <;> (try dsimp only) <;> (repeat' split) <;> simp
@[simp] theorem obey_pwr (d : Dev) (i src : Nat) : (d.obey i src).pwr = d.pwr := by
  (unfold Dev.obey) <;> (try dsimp only) <;> (repeat' split) <;> simp
@[simp] theorem obey_load_flight (d : Dev) (i src : Nat) : (d.obey i src).load.flight = d.load.flight := by
  (unfold Dev.obey) <;> (try dsimp only) <;> (repeat' split) <;> simp
@[simp] theorem obey_load_gndLost (d : Dev) (i src : Nat) : (d.obey i src).load.gndLost = d.load.gndLost := by
  (unfold Dev.obey) <;> (try dsimp only) <;> (repeat' split) <;> simp
@[simp] theorem obey_load_wdFed (d : Dev) (i src : Nat) : (d.obey i src).load.wdFed = d.load.wdFed := by
  (unfold Dev.obey) <;> (try dsimp only) <;> (repeat' split) <;> simp
@[simp] theorem obey_load_fedSince (d : Dev) (i src : Nat) : (d.obey i src).load.fedSince = d.load.fedSince := by
  (unfold Dev.obey) <;> (try dsimp only) <;> (repeat' split) <;> simp
@[simp] theorem obey_load_lastDefer (d : Dev) (i src : Nat) : (d.obey i src).load.lastDefer = d.load.lastDefer := by
  (unfold Dev.obey) <;> (try dsimp only) <;> (repeat' split) <;> simp
@[simp] theorem obey_load_corr (d : Dev) (i src : Nat) : (d.obey i src).load.corr = d.load.corr := by
  (unfold Dev.obey) <;> (try dsimp only) <;> (repeat' split) <;> simp
@[simp] theorem obey_load_ptimeOfs (d : Dev) (i src : Nat) : (d.obey i src).load.ptimeOfs = d.load.ptimeOfs := by
  (unfold Dev.obey) <;> (try dsimp only) <;> (repeat' split) <;> simp
@[simp] theorem obey_load_vbat (d : Dev) (i src : Nat) : (d.obey i src).load.vbat = d.load.vbat := by
  (unfold Dev.obey) <;> (try dsimp only) <;> (repeat' split) <;> simp
@[simp] theorem obey_load_vhv (d : Dev) (i src : Nat) : (d.obey i src).load.vhv = d.load.vhv := by
  (unfold Dev.obey) <;> (try dsimp only) <;> (repeat' split) <;> simp
@[simp] theorem obey_load_revOn (d : Dev) (i src : Nat) : (d.obey i src).load.revOn = d.load.revOn := by
  (unfold Dev.obey) <;> (try dsimp only) <;> (repeat' split) <;> simp
@[simp] theorem obey_load_revHeld (d : Dev) (i src : Nat) : (d.obey i src).load.revHeld = d.load.revHeld := by
  (unfold Dev.obey) <;> (try dsimp only) <;> (repeat' split) <;> simp
@[simp] theorem obey_host_ops (d : Dev) (i src : Nat) : (d.obey i src).host.ops = d.host.ops := by
  (unfold Dev.obey) <;> (try dsimp only) <;> (repeat' split) <;> simp
@[simp] theorem obey_host_txPend (d : Dev) (i src : Nat) : (d.obey i src).host.txPend = d.host.txPend := by
  (unfold Dev.obey) <;> (try dsimp only) <;> (repeat' split) <;> simp
@[simp] theorem obey_host_unknown (d : Dev) (i src : Nat) : (d.obey i src).host.unknown = d.host.unknown := by
  (unfold Dev.obey) <;> (try dsimp only) <;> (repeat' split) <;> simp
@[simp] theorem obey_host_aborts (d : Dev) (i src : Nat) : (d.obey i src).host.aborts = d.host.aborts := by
  (unfold Dev.obey) <;> (try dsimp only) <;> (repeat' split) <;> simp
@[simp] theorem obey_host_hist (d : Dev) (i src : Nat) : (d.obey i src).host.hist = d.host.hist := by
  (unfold Dev.obey) <;> (try dsimp only) <;> (repeat' split) <;> simp
@[simp] theorem obey_host_txWait (d : Dev) (i src : Nat) : (d.obey i src).host.txWait = d.host.txWait := by
  (unfold Dev.obey) <;> (try dsimp only) <;> (repeat' split) <;> simp
@[simp] theorem obey_host_txKilled (d : Dev) (i src : Nat) : (d.obey i src).host.txKilled = d.host.txKilled := by
  (unfold Dev.obey) <;> (try dsimp only) <;> (repeat' split) <;> simp
@[simp] theorem obey_fwd_copies (d : Dev) (i src : Nat) : (d.obey i src).fwd.copies = d.fwd.copies := by
  (unfold Dev.obey) <;> (try dsimp only) <;> (repeat' split) <;> simp
@[simp] theorem obey_fwd_frames (d : Dev) (i src : Nat) : (d.obey i src).fwd.frames = d.fwd.frames := by
  (unfold Dev.obey) <;> (try dsimp only) <;> (repeat' split) <;> simp

/-! ### `follow` -/

@[simp] theorem follow_tbl (d : Dev) (i src : Nat) : (d.follow i src).tbl = d.tbl := by
  (unfold Dev.follow) <;> (try dsimp only) <;> (repeat' split) <;> simp
@[simp] theorem follow_free (d : Dev) (i src : Nat) : (d.follow i src).free = d.free := by
  (unfold Dev.follow) <;> (try dsimp only) <;> (repeat' split) <;> simp
@[simp] theorem follow_anvil (d : Dev) (i src : Nat) : (d.follow i src).anvil = d.anvil := by
  (unfold Dev.follow) <;> (try dsimp only) <;> (repeat' split) <;> simp
@[simp] theorem follow_tables (d : Dev) (i src : Nat) : (d.follow i src).tables = d.tables := by
  (unfold Dev.follow) <;> (try dsimp only) <;> (repeat' split) <;> simp
@[simp] theorem follow_can (d : Dev) (i src : Nat) : (d.follow i src).can = d.can := by
  (unfold Dev.follow) <;> (try dsimp only) <;> (repeat' split) <;> simp
@[simp] theorem follow_lin (d : Dev) (i src : Nat) : (d.follow i src).lin = d.lin := by
  (unfold Dev.follow) <;> (try dsimp only) <;> (repeat' split) <;> simp
@[simp] theorem follow_eth (d : Dev) (i src : Nat) : (d.follow i src).eth = d.eth := by
  (unfold Dev.follow) <;> (try dsimp only) <;> (repeat' split) <;> simp
@[simp] theorem follow_time (d : Dev) (i src : Nat) : (d.follow i src).time = d.time := by
  (unfold Dev.follow) <;> (try dsimp only) <;> (repeat' split) <;> simp
@[simp] theorem follow_xpt (d : Dev) (i src : Nat) : (d.follow i src).xpt = d.xpt := by
  (unfold Dev.follow) <;> (try dsimp only) <;> (repeat' split) <;> simp
@[simp] theorem follow_cry (d : Dev) (i src : Nat) : (d.follow i src).cry = d.cry := by
  (unfold Dev.follow) <;> (try dsimp only) <;> (repeat' split) <;> simp
@[simp] theorem follow_vault (d : Dev) (i src : Nat) : (d.follow i src).vault = d.vault := by
  (unfold Dev.follow) <;> (try dsimp only) <;> (repeat' split) <;> simp
@[simp] theorem follow_nm (d : Dev) (i src : Nat) : (d.follow i src).nm = d.nm := by
  (unfold Dev.follow) <;> (try dsimp only) <;> (repeat' split) <;> simp
@[simp] theorem follow_bus (d : Dev) (i src : Nat) : (d.follow i src).bus = d.bus := by
  (unfold Dev.follow) <;> (try dsimp only) <;> (repeat' split) <;> simp
@[simp] theorem follow_flt (d : Dev) (i src : Nat) : (d.follow i src).flt = d.flt := by
  (unfold Dev.follow) <;> (try dsimp only) <;> (repeat' split) <;> simp
@[simp] theorem follow_boot (d : Dev) (i src : Nat) : (d.follow i src).boot = d.boot := by
  (unfold Dev.follow) <;> (try dsimp only) <;> (repeat' split) <;> simp
@[simp] theorem follow_pwr (d : Dev) (i src : Nat) : (d.follow i src).pwr = d.pwr := by
  (unfold Dev.follow) <;> (try dsimp only) <;> (repeat' split) <;> simp
@[simp] theorem follow_load_flight (d : Dev) (i src : Nat) : (d.follow i src).load.flight = d.load.flight := by
  (unfold Dev.follow) <;> (try dsimp only) <;> (repeat' split) <;> simp
@[simp] theorem follow_load_gndLost (d : Dev) (i src : Nat) : (d.follow i src).load.gndLost = d.load.gndLost := by
  (unfold Dev.follow) <;> (try dsimp only) <;> (repeat' split) <;> simp
@[simp] theorem follow_load_wdFed (d : Dev) (i src : Nat) : (d.follow i src).load.wdFed = d.load.wdFed := by
  (unfold Dev.follow) <;> (try dsimp only) <;> (repeat' split) <;> simp
@[simp] theorem follow_load_fedSince (d : Dev) (i src : Nat) : (d.follow i src).load.fedSince = d.load.fedSince := by
  (unfold Dev.follow) <;> (try dsimp only) <;> (repeat' split) <;> simp
@[simp] theorem follow_load_lastDefer (d : Dev) (i src : Nat) : (d.follow i src).load.lastDefer = d.load.lastDefer := by
  (unfold Dev.follow) <;> (try dsimp only) <;> (repeat' split) <;> simp
@[simp] theorem follow_load_corr (d : Dev) (i src : Nat) : (d.follow i src).load.corr = d.load.corr := by
  (unfold Dev.follow) <;> (try dsimp only) <;> (repeat' split) <;> simp
@[simp] theorem follow_load_ptimeOfs (d : Dev) (i src : Nat) : (d.follow i src).load.ptimeOfs = d.load.ptimeOfs := by
  (unfold Dev.follow) <;> (try dsimp only) <;> (repeat' split) <;> simp
@[simp] theorem follow_load_vbat (d : Dev) (i src : Nat) : (d.follow i src).load.vbat = d.load.vbat := by
  (unfold Dev.follow) <;> (try dsimp only) <;> (repeat' split) <;> simp
@[simp] theorem follow_load_vhv (d : Dev) (i src : Nat) : (d.follow i src).load.vhv = d.load.vhv := by
  (unfold Dev.follow) <;> (try dsimp only) <;> (repeat' split) <;> simp
@[simp] theorem follow_load_revOn (d : Dev) (i src : Nat) : (d.follow i src).load.revOn = d.load.revOn := by
  (unfold Dev.follow) <;> (try dsimp only) <;> (repeat' split) <;> simp
@[simp] theorem follow_load_revHeld (d : Dev) (i src : Nat) : (d.follow i src).load.revHeld = d.load.revHeld := by
  (unfold Dev.follow) <;> (try dsimp only) <;> (repeat' split) <;> simp
@[simp] theorem follow_host_ops (d : Dev) (i src : Nat) : (d.follow i src).host.ops = d.host.ops := by
  (unfold Dev.follow) <;> (try dsimp only) <;> (repeat' split) <;> simp
@[simp] theorem follow_host_txPend (d : Dev) (i src : Nat) : (d.follow i src).host.txPend = d.host.txPend := by
  (unfold Dev.follow) <;> (try dsimp only) <;> (repeat' split) <;> simp
@[simp] theorem follow_host_unknown (d : Dev) (i src : Nat) : (d.follow i src).host.unknown = d.host.unknown := by
  (unfold Dev.follow) <;> (try dsimp only) <;> (repeat' split) <;> simp
@[simp] theorem follow_host_aborts (d : Dev) (i src : Nat) : (d.follow i src).host.aborts = d.host.aborts := by
  (unfold Dev.follow) <;> (try dsimp only) <;> (repeat' split) <;> simp
@[simp] theorem follow_host_hist (d : Dev) (i src : Nat) : (d.follow i src).host.hist = d.host.hist := by
  (unfold Dev.follow) <;> (try dsimp only) <;> (repeat' split) <;> simp
@[simp] theorem follow_host_txWait (d : Dev) (i src : Nat) : (d.follow i src).host.txWait = d.host.txWait := by
  (unfold Dev.follow) <;> (try dsimp only) <;> (repeat' split) <;> simp
@[simp] theorem follow_host_txKilled (d : Dev) (i src : Nat) : (d.follow i src).host.txKilled = d.host.txKilled := by
  (unfold Dev.follow) <;> (try dsimp only) <;> (repeat' split) <;> simp
@[simp] theorem follow_fwd_copies (d : Dev) (i src : Nat) : (d.follow i src).fwd.copies = d.fwd.copies := by
  (unfold Dev.follow) <;> (try dsimp only) <;> (repeat' split) <;> simp
@[simp] theorem follow_fwd_frames (d : Dev) (i src : Nat) : (d.follow i src).fwd.frames = d.fwd.frames := by
  (unfold Dev.follow) <;> (try dsimp only) <;> (repeat' split) <;> simp

/-! ### `safeCh` -/

@[simp] theorem safeCh_tbl (d : Dev) (i : Nat) : (d.safeCh i).tbl = d.tbl := by
  (unfold Dev.safeCh) <;> (try dsimp only) <;> (repeat' split) <;> simp
@[simp] theorem safeCh_free (d : Dev) (i : Nat) : (d.safeCh i).free = d.free := by
  (unfold Dev.safeCh) <;> (try dsimp only) <;> (repeat' split) <;> simp
@[simp] theorem safeCh_anvil (d : Dev) (i : Nat) : (d.safeCh i).anvil = d.anvil := by
  (unfold Dev.safeCh) <;> (try dsimp only) <;> (repeat' split) <;> simp
@[simp] theorem safeCh_tables (d : Dev) (i : Nat) : (d.safeCh i).tables = d.tables := by
  (unfold Dev.safeCh) <;> (try dsimp only) <;> (repeat' split) <;> simp
@[simp] theorem safeCh_can (d : Dev) (i : Nat) : (d.safeCh i).can = d.can := by
  (unfold Dev.safeCh) <;> (try dsimp only) <;> (repeat' split) <;> simp
@[simp] theorem safeCh_lin (d : Dev) (i : Nat) : (d.safeCh i).lin = d.lin := by
  (unfold Dev.safeCh) <;> (try dsimp only) <;> (repeat' split) <;> simp
@[simp] theorem safeCh_eth (d : Dev) (i : Nat) : (d.safeCh i).eth = d.eth := by
  (unfold Dev.safeCh) <;> (try dsimp only) <;> (repeat' split) <;> simp
@[simp] theorem safeCh_time (d : Dev) (i : Nat) : (d.safeCh i).time = d.time := by
  (unfold Dev.safeCh) <;> (try dsimp only) <;> (repeat' split) <;> simp
@[simp] theorem safeCh_xpt (d : Dev) (i : Nat) : (d.safeCh i).xpt = d.xpt := by
  (unfold Dev.safeCh) <;> (try dsimp only) <;> (repeat' split) <;> simp
@[simp] theorem safeCh_cry (d : Dev) (i : Nat) : (d.safeCh i).cry = d.cry := by
  (unfold Dev.safeCh) <;> (try dsimp only) <;> (repeat' split) <;> simp
@[simp] theorem safeCh_vault (d : Dev) (i : Nat) : (d.safeCh i).vault = d.vault := by
  (unfold Dev.safeCh) <;> (try dsimp only) <;> (repeat' split) <;> simp
@[simp] theorem safeCh_nm (d : Dev) (i : Nat) : (d.safeCh i).nm = d.nm := by
  (unfold Dev.safeCh) <;> (try dsimp only) <;> (repeat' split) <;> simp
@[simp] theorem safeCh_bus (d : Dev) (i : Nat) : (d.safeCh i).bus = d.bus := by
  (unfold Dev.safeCh) <;> (try dsimp only) <;> (repeat' split) <;> simp
@[simp] theorem safeCh_flt (d : Dev) (i : Nat) : (d.safeCh i).flt = d.flt := by
  (unfold Dev.safeCh) <;> (try dsimp only) <;> (repeat' split) <;> simp
@[simp] theorem safeCh_boot (d : Dev) (i : Nat) : (d.safeCh i).boot = d.boot := by
  (unfold Dev.safeCh) <;> (try dsimp only) <;> (repeat' split) <;> simp
@[simp] theorem safeCh_pwr (d : Dev) (i : Nat) : (d.safeCh i).pwr = d.pwr := by
  (unfold Dev.safeCh) <;> (try dsimp only) <;> (repeat' split) <;> simp
@[simp] theorem safeCh_load_flight (d : Dev) (i : Nat) : (d.safeCh i).load.flight = d.load.flight := by
  (unfold Dev.safeCh) <;> (try dsimp only) <;> (repeat' split) <;> simp
@[simp] theorem safeCh_load_gndLost (d : Dev) (i : Nat) : (d.safeCh i).load.gndLost = d.load.gndLost := by
  (unfold Dev.safeCh) <;> (try dsimp only) <;> (repeat' split) <;> simp
@[simp] theorem safeCh_load_wdFed (d : Dev) (i : Nat) : (d.safeCh i).load.wdFed = d.load.wdFed := by
  (unfold Dev.safeCh) <;> (try dsimp only) <;> (repeat' split) <;> simp
@[simp] theorem safeCh_load_fedSince (d : Dev) (i : Nat) : (d.safeCh i).load.fedSince = d.load.fedSince := by
  (unfold Dev.safeCh) <;> (try dsimp only) <;> (repeat' split) <;> simp
@[simp] theorem safeCh_load_lastDefer (d : Dev) (i : Nat) : (d.safeCh i).load.lastDefer = d.load.lastDefer := by
  (unfold Dev.safeCh) <;> (try dsimp only) <;> (repeat' split) <;> simp
@[simp] theorem safeCh_load_corr (d : Dev) (i : Nat) : (d.safeCh i).load.corr = d.load.corr := by
  (unfold Dev.safeCh) <;> (try dsimp only) <;> (repeat' split) <;> simp
@[simp] theorem safeCh_load_ptimeOfs (d : Dev) (i : Nat) : (d.safeCh i).load.ptimeOfs = d.load.ptimeOfs := by
  (unfold Dev.safeCh) <;> (try dsimp only) <;> (repeat' split) <;> simp
@[simp] theorem safeCh_load_vbat (d : Dev) (i : Nat) : (d.safeCh i).load.vbat = d.load.vbat := by
  (unfold Dev.safeCh) <;> (try dsimp only) <;> (repeat' split) <;> simp
@[simp] theorem safeCh_load_vhv (d : Dev) (i : Nat) : (d.safeCh i).load.vhv = d.load.vhv := by
  (unfold Dev.safeCh) <;> (try dsimp only) <;> (repeat' split) <;> simp
@[simp] theorem safeCh_load_revOn (d : Dev) (i : Nat) : (d.safeCh i).load.revOn = d.load.revOn := by
  (unfold Dev.safeCh) <;> (try dsimp only) <;> (repeat' split) <;> simp
@[simp] theorem safeCh_load_revHeld (d : Dev) (i : Nat) : (d.safeCh i).load.revHeld = d.load.revHeld := by
  (unfold Dev.safeCh) <;> (try dsimp only) <;> (repeat' split) <;> simp
@[simp] theorem safeCh_host_ops (d : Dev) (i : Nat) : (d.safeCh i).host.ops = d.host.ops := by
  (unfold Dev.safeCh) <;> (try dsimp only) <;> (repeat' split) <;> simp
@[simp] theorem safeCh_host_txPend (d : Dev) (i : Nat) : (d.safeCh i).host.txPend = d.host.txPend := by
  (unfold Dev.safeCh) <;> (try dsimp only) <;> (repeat' split) <;> simp
@[simp] theorem safeCh_host_unknown (d : Dev) (i : Nat) : (d.safeCh i).host.unknown = d.host.unknown := by
  (unfold Dev.safeCh) <;> (try dsimp only) <;> (repeat' split) <;> simp
@[simp] theorem safeCh_host_aborts (d : Dev) (i : Nat) : (d.safeCh i).host.aborts = d.host.aborts := by
  (unfold Dev.safeCh) <;> (try dsimp only) <;> (repeat' split) <;> simp
@[simp] theorem safeCh_host_hist (d : Dev) (i : Nat) : (d.safeCh i).host.hist = d.host.hist := by
  (unfold Dev.safeCh) <;> (try dsimp only) <;> (repeat' split) <;> simp
@[simp] theorem safeCh_host_txWait (d : Dev) (i : Nat) : (d.safeCh i).host.txWait = d.host.txWait := by
  (unfold Dev.safeCh) <;> (try dsimp only) <;> (repeat' split) <;> simp
@[simp] theorem safeCh_host_txKilled (d : Dev) (i : Nat) : (d.safeCh i).host.txKilled = d.host.txKilled := by
  (unfold Dev.safeCh) <;> (try dsimp only) <;> (repeat' split) <;> simp
@[simp] theorem safeCh_fwd_copies (d : Dev) (i : Nat) : (d.safeCh i).fwd.copies = d.fwd.copies := by
  (unfold Dev.safeCh) <;> (try dsimp only) <;> (repeat' split) <;> simp
@[simp] theorem safeCh_fwd_frames (d : Dev) (i : Nat) : (d.safeCh i).fwd.frames = d.fwd.frames := by
  (unfold Dev.safeCh) <;> (try dsimp only) <;> (repeat' split) <;> simp

/-! ### `supplyEvent` -/

@[simp] theorem supplyEvent_tbl (d : Dev) : (d.supplyEvent).tbl = d.tbl := by
  (unfold Dev.supplyEvent) <;> (try dsimp only) <;> (repeat' split) <;> simp
@[simp] theorem supplyEvent_free (d : Dev) : (d.supplyEvent).free = d.free := by
  (unfold Dev.supplyEvent) <;> (try dsimp only) <;> (repeat' split) <;> simp
@[simp] theorem supplyEvent_anvil (d : Dev) : (d.supplyEvent).anvil = d.anvil := by
  (unfold Dev.supplyEvent) <;> (try dsimp only) <;> (repeat' split) <;> simp
@[simp] theorem supplyEvent_fwd (d : Dev) : (d.supplyEvent).fwd = d.fwd := by
  (unfold Dev.supplyEvent) <;> (try dsimp only) <;> (repeat' split) <;> simp
@[simp] theorem supplyEvent_tables (d : Dev) : (d.supplyEvent).tables = d.tables := by
  (unfold Dev.supplyEvent) <;> (try dsimp only) <;> (repeat' split) <;> simp
@[simp] theorem supplyEvent_ste (d : Dev) : (d.supplyEvent).ste = d.ste := by
  (unfold Dev.supplyEvent) <;> (try dsimp only) <;> (repeat' split) <;> simp
@[simp] theorem supplyEvent_can (d : Dev) : (d.supplyEvent).can = d.can := by
  (unfold Dev.supplyEvent) <;> (try dsimp only) <;> (repeat' split) <;> simp
@[simp] theorem supplyEvent_lin (d : Dev) : (d.supplyEvent).lin = d.lin := by
  (unfold Dev.supplyEvent) <;> (try dsimp only) <;> (repeat' split) <;> simp
@[simp] theorem supplyEvent_eth (d : Dev) : (d.supplyEvent).eth = d.eth := by
  (unfold Dev.supplyEvent) <;> (try dsimp only) <;> (repeat' split) <;> simp
@[simp] theorem supplyEvent_time (d : Dev) : (d.supplyEvent).time = d.time := by
  (unfold Dev.supplyEvent) <;> (try dsimp only) <;> (repeat' split) <;> simp
@[simp] theorem supplyEvent_xpt (d : Dev) : (d.supplyEvent).xpt = d.xpt := by
  (unfold Dev.supplyEvent) <;> (try dsimp only) <;> (repeat' split) <;> simp
@[simp] theorem supplyEvent_cry (d : Dev) : (d.supplyEvent).cry = d.cry := by
  (unfold Dev.supplyEvent) <;> (try dsimp only) <;> (repeat' split) <;> simp
@[simp] theorem supplyEvent_vault (d : Dev) : (d.supplyEvent).vault = d.vault := by
  (unfold Dev.supplyEvent) <;> (try dsimp only) <;> (repeat' split) <;> simp
@[simp] theorem supplyEvent_nm (d : Dev) : (d.supplyEvent).nm = d.nm := by
  (unfold Dev.supplyEvent) <;> (try dsimp only) <;> (repeat' split) <;> simp
@[simp] theorem supplyEvent_bus (d : Dev) : (d.supplyEvent).bus = d.bus := by
  (unfold Dev.supplyEvent) <;> (try dsimp only) <;> (repeat' split) <;> simp
@[simp] theorem supplyEvent_flt (d : Dev) : (d.supplyEvent).flt = d.flt := by
  (unfold Dev.supplyEvent) <;> (try dsimp only) <;> (repeat' split) <;> simp
@[simp] theorem supplyEvent_boot (d : Dev) : (d.supplyEvent).boot = d.boot := by
  (unfold Dev.supplyEvent) <;> (try dsimp only) <;> (repeat' split) <;> simp
@[simp] theorem supplyEvent_pwr (d : Dev) : (d.supplyEvent).pwr = d.pwr := by
  (unfold Dev.supplyEvent) <;> (try dsimp only) <;> (repeat' split) <;> simp
@[simp] theorem supplyEvent_load_chans (d : Dev) : (d.supplyEvent).load.chans = d.load.chans := by
  (unfold Dev.supplyEvent) <;> (try dsimp only) <;> (repeat' split) <;> simp
@[simp] theorem supplyEvent_load_flight (d : Dev) : (d.supplyEvent).load.flight = d.load.flight := by
  (unfold Dev.supplyEvent) <;> (try dsimp only) <;> (repeat' split) <;> simp
@[simp] theorem supplyEvent_load_gndLost (d : Dev) : (d.supplyEvent).load.gndLost = d.load.gndLost := by
  (unfold Dev.supplyEvent) <;> (try dsimp only) <;> (repeat' split) <;> simp
@[simp] theorem supplyEvent_load_wdFed (d : Dev) : (d.supplyEvent).load.wdFed = d.load.wdFed := by
  (unfold Dev.supplyEvent) <;> (try dsimp only) <;> (repeat' split) <;> simp
@[simp] theorem supplyEvent_load_fedSince (d : Dev) : (d.supplyEvent).load.fedSince = d.load.fedSince := by
  (unfold Dev.supplyEvent) <;> (try dsimp only) <;> (repeat' split) <;> simp
@[simp] theorem supplyEvent_load_lastDefer (d : Dev) : (d.supplyEvent).load.lastDefer = d.load.lastDefer := by
  (unfold Dev.supplyEvent) <;> (try dsimp only) <;> (repeat' split) <;> simp
@[simp] theorem supplyEvent_load_corr (d : Dev) : (d.supplyEvent).load.corr = d.load.corr := by
  (unfold Dev.supplyEvent) <;> (try dsimp only) <;> (repeat' split) <;> simp
@[simp] theorem supplyEvent_load_ptimeOfs (d : Dev) : (d.supplyEvent).load.ptimeOfs = d.load.ptimeOfs := by
  (unfold Dev.supplyEvent) <;> (try dsimp only) <;> (repeat' split) <;> simp
@[simp] theorem supplyEvent_load_vbat (d : Dev) : (d.supplyEvent).load.vbat = d.load.vbat := by
  (unfold Dev.supplyEvent) <;> (try dsimp only) <;> (repeat' split) <;> simp
@[simp] theorem supplyEvent_load_vhv (d : Dev) : (d.supplyEvent).load.vhv = d.load.vhv := by
  (unfold Dev.supplyEvent) <;> (try dsimp only) <;> (repeat' split) <;> simp
@[simp] theorem supplyEvent_load_revOn (d : Dev) : (d.supplyEvent).load.revOn = d.load.revOn := by
  (unfold Dev.supplyEvent) <;> (try dsimp only) <;> (repeat' split) <;> simp
@[simp] theorem supplyEvent_load_revHeld (d : Dev) : (d.supplyEvent).load.revHeld = d.load.revHeld := by
  (unfold Dev.supplyEvent) <;> (try dsimp only) <;> (repeat' split) <;> simp
@[simp] theorem supplyEvent_host_ops (d : Dev) : (d.supplyEvent).host.ops = d.host.ops := by
  (unfold Dev.supplyEvent) <;> (try dsimp only) <;> (repeat' split) <;> simp
@[simp] theorem supplyEvent_host_txPend (d : Dev) : (d.supplyEvent).host.txPend = d.host.txPend := by
  (unfold Dev.supplyEvent) <;> (try dsimp only) <;> (repeat' split) <;> simp
@[simp] theorem supplyEvent_host_unknown (d : Dev) : (d.supplyEvent).host.unknown = d.host.unknown := by
  (unfold Dev.supplyEvent) <;> (try dsimp only) <;> (repeat' split) <;> simp
@[simp] theorem supplyEvent_host_aborts (d : Dev) : (d.supplyEvent).host.aborts = d.host.aborts := by
  (unfold Dev.supplyEvent) <;> (try dsimp only) <;> (repeat' split) <;> simp
@[simp] theorem supplyEvent_host_hist (d : Dev) : (d.supplyEvent).host.hist = d.host.hist := by
  (unfold Dev.supplyEvent) <;> (try dsimp only) <;> (repeat' split) <;> simp
@[simp] theorem supplyEvent_host_txWait (d : Dev) : (d.supplyEvent).host.txWait = d.host.txWait := by
  (unfold Dev.supplyEvent) <;> (try dsimp only) <;> (repeat' split) <;> simp
@[simp] theorem supplyEvent_host_txKilled (d : Dev) : (d.supplyEvent).host.txKilled = d.host.txKilled := by
  (unfold Dev.supplyEvent) <;> (try dsimp only) <;> (repeat' split) <;> simp

/-! ### `supplyCond` -/

@[simp] theorem supplyCond_tbl (d : Dev) (f : FieldRef) (on : Bool) : (d.supplyCond f on).tbl = d.tbl := by
  (unfold Dev.supplyCond) <;> (try dsimp only) <;> (repeat' split) <;> simp
@[simp] theorem supplyCond_free (d : Dev) (f : FieldRef) (on : Bool) : (d.supplyCond f on).free = d.free := by
  (unfold Dev.supplyCond) <;> (try dsimp only) <;> (repeat' split) <;> simp
@[simp] theorem supplyCond_anvil (d : Dev) (f : FieldRef) (on : Bool) : (d.supplyCond f on).anvil = d.anvil := by
  (unfold Dev.supplyCond) <;> (try dsimp only) <;> (repeat' split) <;> simp
@[simp] theorem supplyCond_fwd (d : Dev) (f : FieldRef) (on : Bool) : (d.supplyCond f on).fwd = d.fwd := by
  (unfold Dev.supplyCond) <;> (try dsimp only) <;> (repeat' split) <;> simp
@[simp] theorem supplyCond_tables (d : Dev) (f : FieldRef) (on : Bool) : (d.supplyCond f on).tables = d.tables := by
  (unfold Dev.supplyCond) <;> (try dsimp only) <;> (repeat' split) <;> simp
@[simp] theorem supplyCond_ste (d : Dev) (f : FieldRef) (on : Bool) : (d.supplyCond f on).ste = d.ste := by
  (unfold Dev.supplyCond) <;> (try dsimp only) <;> (repeat' split) <;> simp
@[simp] theorem supplyCond_can (d : Dev) (f : FieldRef) (on : Bool) : (d.supplyCond f on).can = d.can := by
  (unfold Dev.supplyCond) <;> (try dsimp only) <;> (repeat' split) <;> simp
@[simp] theorem supplyCond_lin (d : Dev) (f : FieldRef) (on : Bool) : (d.supplyCond f on).lin = d.lin := by
  (unfold Dev.supplyCond) <;> (try dsimp only) <;> (repeat' split) <;> simp
@[simp] theorem supplyCond_eth (d : Dev) (f : FieldRef) (on : Bool) : (d.supplyCond f on).eth = d.eth := by
  (unfold Dev.supplyCond) <;> (try dsimp only) <;> (repeat' split) <;> simp
@[simp] theorem supplyCond_time (d : Dev) (f : FieldRef) (on : Bool) : (d.supplyCond f on).time = d.time := by
  (unfold Dev.supplyCond) <;> (try dsimp only) <;> (repeat' split) <;> simp
@[simp] theorem supplyCond_xpt (d : Dev) (f : FieldRef) (on : Bool) : (d.supplyCond f on).xpt = d.xpt := by
  (unfold Dev.supplyCond) <;> (try dsimp only) <;> (repeat' split) <;> simp
@[simp] theorem supplyCond_cry (d : Dev) (f : FieldRef) (on : Bool) : (d.supplyCond f on).cry = d.cry := by
  (unfold Dev.supplyCond) <;> (try dsimp only) <;> (repeat' split) <;> simp
@[simp] theorem supplyCond_vault (d : Dev) (f : FieldRef) (on : Bool) : (d.supplyCond f on).vault = d.vault := by
  (unfold Dev.supplyCond) <;> (try dsimp only) <;> (repeat' split) <;> simp
@[simp] theorem supplyCond_nm (d : Dev) (f : FieldRef) (on : Bool) : (d.supplyCond f on).nm = d.nm := by
  (unfold Dev.supplyCond) <;> (try dsimp only) <;> (repeat' split) <;> simp
@[simp] theorem supplyCond_bus (d : Dev) (f : FieldRef) (on : Bool) : (d.supplyCond f on).bus = d.bus := by
  (unfold Dev.supplyCond) <;> (try dsimp only) <;> (repeat' split) <;> simp
@[simp] theorem supplyCond_flt (d : Dev) (f : FieldRef) (on : Bool) : (d.supplyCond f on).flt = d.flt := by
  (unfold Dev.supplyCond) <;> (try dsimp only) <;> (repeat' split) <;> simp
@[simp] theorem supplyCond_boot (d : Dev) (f : FieldRef) (on : Bool) : (d.supplyCond f on).boot = d.boot := by
  (unfold Dev.supplyCond) <;> (try dsimp only) <;> (repeat' split) <;> simp
@[simp] theorem supplyCond_pwr (d : Dev) (f : FieldRef) (on : Bool) : (d.supplyCond f on).pwr = d.pwr := by
  (unfold Dev.supplyCond) <;> (try dsimp only) <;> (repeat' split) <;> simp
@[simp] theorem supplyCond_load_chans (d : Dev) (f : FieldRef) (on : Bool) : (d.supplyCond f on).load.chans = d.load.chans := by
  (unfold Dev.supplyCond) <;> (try dsimp only) <;> (repeat' split) <;> simp
@[simp] theorem supplyCond_load_flight (d : Dev) (f : FieldRef) (on : Bool) : (d.supplyCond f on).load.flight = d.load.flight := by
  (unfold Dev.supplyCond) <;> (try dsimp only) <;> (repeat' split) <;> simp
@[simp] theorem supplyCond_load_gndLost (d : Dev) (f : FieldRef) (on : Bool) : (d.supplyCond f on).load.gndLost = d.load.gndLost := by
  (unfold Dev.supplyCond) <;> (try dsimp only) <;> (repeat' split) <;> simp
@[simp] theorem supplyCond_load_wdFed (d : Dev) (f : FieldRef) (on : Bool) : (d.supplyCond f on).load.wdFed = d.load.wdFed := by
  (unfold Dev.supplyCond) <;> (try dsimp only) <;> (repeat' split) <;> simp
@[simp] theorem supplyCond_load_fedSince (d : Dev) (f : FieldRef) (on : Bool) : (d.supplyCond f on).load.fedSince = d.load.fedSince := by
  (unfold Dev.supplyCond) <;> (try dsimp only) <;> (repeat' split) <;> simp
@[simp] theorem supplyCond_load_lastDefer (d : Dev) (f : FieldRef) (on : Bool) : (d.supplyCond f on).load.lastDefer = d.load.lastDefer := by
  (unfold Dev.supplyCond) <;> (try dsimp only) <;> (repeat' split) <;> simp
@[simp] theorem supplyCond_load_corr (d : Dev) (f : FieldRef) (on : Bool) : (d.supplyCond f on).load.corr = d.load.corr := by
  (unfold Dev.supplyCond) <;> (try dsimp only) <;> (repeat' split) <;> simp
@[simp] theorem supplyCond_load_ptimeOfs (d : Dev) (f : FieldRef) (on : Bool) : (d.supplyCond f on).load.ptimeOfs = d.load.ptimeOfs := by
  (unfold Dev.supplyCond) <;> (try dsimp only) <;> (repeat' split) <;> simp
@[simp] theorem supplyCond_load_vbat (d : Dev) (f : FieldRef) (on : Bool) : (d.supplyCond f on).load.vbat = d.load.vbat := by
  (unfold Dev.supplyCond) <;> (try dsimp only) <;> (repeat' split) <;> simp
@[simp] theorem supplyCond_load_vhv (d : Dev) (f : FieldRef) (on : Bool) : (d.supplyCond f on).load.vhv = d.load.vhv := by
  (unfold Dev.supplyCond) <;> (try dsimp only) <;> (repeat' split) <;> simp
@[simp] theorem supplyCond_load_revOn (d : Dev) (f : FieldRef) (on : Bool) : (d.supplyCond f on).load.revOn = d.load.revOn := by
  (unfold Dev.supplyCond) <;> (try dsimp only) <;> (repeat' split) <;> simp
@[simp] theorem supplyCond_load_revHeld (d : Dev) (f : FieldRef) (on : Bool) : (d.supplyCond f on).load.revHeld = d.load.revHeld := by
  (unfold Dev.supplyCond) <;> (try dsimp only) <;> (repeat' split) <;> simp
@[simp] theorem supplyCond_host_ops (d : Dev) (f : FieldRef) (on : Bool) : (d.supplyCond f on).host.ops = d.host.ops := by
  (unfold Dev.supplyCond) <;> (try dsimp only) <;> (repeat' split) <;> simp
@[simp] theorem supplyCond_host_txPend (d : Dev) (f : FieldRef) (on : Bool) : (d.supplyCond f on).host.txPend = d.host.txPend := by
  (unfold Dev.supplyCond) <;> (try dsimp only) <;> (repeat' split) <;> simp
@[simp] theorem supplyCond_host_unknown (d : Dev) (f : FieldRef) (on : Bool) : (d.supplyCond f on).host.unknown = d.host.unknown := by
  (unfold Dev.supplyCond) <;> (try dsimp only) <;> (repeat' split) <;> simp
@[simp] theorem supplyCond_host_aborts (d : Dev) (f : FieldRef) (on : Bool) : (d.supplyCond f on).host.aborts = d.host.aborts := by
  (unfold Dev.supplyCond) <;> (try dsimp only) <;> (repeat' split) <;> simp
@[simp] theorem supplyCond_host_hist (d : Dev) (f : FieldRef) (on : Bool) : (d.supplyCond f on).host.hist = d.host.hist := by
  (unfold Dev.supplyCond) <;> (try dsimp only) <;> (repeat' split) <;> simp
@[simp] theorem supplyCond_host_txWait (d : Dev) (f : FieldRef) (on : Bool) : (d.supplyCond f on).host.txWait = d.host.txWait := by
  (unfold Dev.supplyCond) <;> (try dsimp only) <;> (repeat' split) <;> simp
@[simp] theorem supplyCond_host_txKilled (d : Dev) (f : FieldRef) (on : Bool) : (d.supplyCond f on).host.txKilled = d.host.txKilled := by
  (unfold Dev.supplyCond) <;> (try dsimp only) <;> (repeat' split) <;> simp

end Sys2Proof.Machine
end

