-- ==== Sys2Proof/Laws/Bus.lean ====
section
/-!
SUPPORT. What a master's access does: a permitted write of a single-word register ends as that register's own effect (`regPut`), and one
that is not permitted is flagged and changes nothing else.
-/
namespace Sys2Proof.Machine

/-! ### Field reads through one update -/

theorem get_set_same (d : Dev) (f : FieldRef) (v : Nat) (h : f.lo + f.w ≤ 64) : (d.set f v).get f = v % 2 ^ f.w := by
  rw [get_eq, set_regs, rget_rset_same _ _ _ h]

theorem get_set_ne (d : Dev) (f g : FieldRef) (v : Nat)
    (h : f.addr ≠ g.addr ∨ g.lo + g.w ≤ f.lo ∨ f.lo + f.w ≤ g.lo) (hf : f.lo + f.w ≤ 32) (hg : g.lo + g.w ≤ 32) :
    (d.set f v).get g = d.get g := by rw [get_eq, set_regs, rget_rset_ne _ _ _ _ h hf hg, ← get_eq]

theorem get_of_regs {d e : Dev} (h : d.regs = e.regs) (f : FieldRef) : d.get f = e.get f := by rw [get_eq, get_eq, h]

theorem get_setReg_ne (d : Dev) (a v : Nat) (f : FieldRef) (h : a ≠ f.addr ∧ a ≠ f.addr + 4) :
    (d.setReg a v).get f = d.get f := by rw [get_eq, setReg_regs, rget_rput_ne _ _ _ _ h, ← get_eq]

theorem get_setReg_same (d : Dev) (a v : Nat) (f : FieldRef) (hf : f.lo + f.w ≤ 32) (ha : f.addr = a) :
    (d.setReg a v).get f = bf (v % 2 ^ 32) f.lo f.w := by rw [get_eq, setReg_regs, rget_rput_same _ _ _ _ hf ha]

/-! ### What a write does before it reaches its register -/

@[simp] theorem unfetch_regs (d : Dev) (a : Nat) : (d.unfetch a).regs = d.regs := rfl

/-- Only the sequence number of the posted writes changes among the registers. -/
theorem rget_numberWrite (d : Dev) (a : Nat) (f : FieldRef)
    (h : R.PWR_BRIDGE_STATUS ≠ f.addr ∧ R.PWR_BRIDGE_STATUS ≠ f.addr + 4) : (d.numberWrite a).get f = d.get f := by
  unfold Dev.numberWrite
  rw [get_of_regs (unfetch_regs _ _)]
  unfold Dev.postNumber
  split
  · unfold Dev.set
    rw [if_pos (by decide)]
    exact get_setReg_ne _ _ _ _ h
  · rfl

theorem numberWrite_flt (d : Dev) (a : Nat) : (d.numberWrite a).flt = d.flt := by
  unfold Dev.numberWrite Dev.unfetch Dev.postNumber; dsimp only; split <;> simp

theorem numberWrite_of (d : Dev) (a : Nat) (h : inPwr a = false) :
    d.numberWrite a = { d with bus := (d.numberWrite a).bus } := by
  unfold Dev.numberWrite Dev.unfetch Dev.postNumber; simp [h]

theorem numberWrite_ready (d : Dev) (a n : Nat) : (d.numberWrite a).ready n = d.ready n := by
  unfold Dev.ready; rw [rget_numberWrite]; decide

/-- Fault pages lie at multiples of 4 KiB. -/
theorem faultPage_aligned (b : Nat) : faultPage b % 0x1000 = 0 := by
  by_cases h : b < 66
  · exact (by decide : ∀ b : Fin 66, faultPage b % 0x1000 = 0) ⟨b, h⟩
  · have e : faultPage b = 0x1200000 := by
      unfold faultPage
      simp [show b ≠ 0 by omega, show b ≠ 1 by omega, show b ≠ 2 by omega, show b ≠ 3 by omega, show b ≠ 4 by omega,
        show b ≠ 5 by omega, show ¬ b < 26 by omega, show b ≠ 26 by omega, show ¬ b < 35 by omega, show ¬ b < 55 by omega,
        show b ≠ 55 by omega, show b ≠ 56 by omega, show b ≠ 57 by omega, show b ≠ 58 by omega, show b ≠ 59 by omega,
        show b ≠ 60 by omega, show b ≠ 61 by omega, show b ≠ 62 by omega, show b ≠ 63 by omega, show b ≠ 64 by omega]
    rw [e]

theorem numberWrite_inReset (d : Dev) (a b : Nat) : (d.numberWrite a).inReset b = d.inReset b := by
  have h : R.PWR_BRIDGE_STATUS ≠ R.FLT_BLOCK_CTRL b ∧ R.PWR_BRIDGE_STATUS ≠ R.FLT_BLOCK_CTRL b + 4 := by
    have := faultPage_aligned b
    simp only [R.PWR_BRIDGE_STATUS, R.FLT_BLOCK_CTRL]
    omega
  unfold Dev.inReset Dev.flag
  rw [rget_numberWrite _ _ _ h, rget_numberWrite _ _ _ h]

theorem numberWrite_regAt (d : Dev) (a b : Nat) : (d.numberWrite a).regAt b = d.regAt b := by
  unfold Dev.regAt Dev.pageOn
  simp only [numberWrite_ready, numberWrite_inReset]

theorem numberWrite_mayWrite (d : Dev) (a m b : Nat) : (d.numberWrite a).mayWrite m b = d.mayWrite m b := by
  unfold Dev.mayWrite Dev.flag
  rw [rget_numberWrite]; decide

/-- Outside the PWR window nothing waits for the die link. -/
theorem linkUse_of (d : Dev) (a n : Nat) (h : inPwr a = false) : d.linkUse a n = d := by unfold Dev.linkUse; rw [if_neg (by simp [h])]

theorem viaInd_of (d : Dev) (m a : Nat) (h : m ≠ 1) : d.viaInd m a = d := by unfold Dev.viaInd; rw [if_neg (by simpa using h)]

theorem viaInd_regs (d : Dev) (m a : Nat) : (d.viaInd m a).regs = d.regs := by unfold Dev.viaInd; split <;> rfl

theorem viaInd_linkStall (d : Dev) (m a b : Nat) : (d.viaInd m a).linkStall b = d.linkStall b := by
  unfold Dev.viaInd; split <;> rfl

theorem beforeWrite_of (d : Dev) (m a : Nat) (h : inPwr a = false) : d.beforeWrite m a = (d.viaInd m a).numberWrite a := by
  unfold Dev.beforeWrite Dev.beforeAccess; rw [linkUse_of _ _ _ h]

/-- A permitted write of a register that is no word of a 64-bit value ends as the register's own effect. -/
theorem write_opens (d : Dev) (m a v : Nat) (r : RegDef) (ho : d.opens m a) (hr : regDef a = some r) (hw : r.loWord = false)
    (hg : groupLo a = none) (h1 : a ≠ R.GLOBAL_IND_ADDR) (h2 : a ≠ R.GLOBAL_IND_DATA) :
    d.write m a v = (d.beforeWrite m a).regPut r m a (v % 2 ^ 32) := by
  obtain ⟨hp, hl, hi, ha, hm⟩ := ho
  have hra : (d.beforeAccess m a 1).regAt a = some r := by
    unfold Dev.regAt at ha ⊢
    split at ha
    · rename_i h; rw [if_pos h, hr]
    · simp at ha
  have hb : ∃ e, e ≠ WriteEnd.error ∧ d.busWrite m a v = ((d.beforeWrite m a).regPut r m a (v % 2 ^ 32), e) := by
    unfold Dev.busWrite Dev.regWrite
    rw [viaInd_linkStall, hl, hi, if_neg (by simp [h1, h2]), if_neg (by simp [h1]), if_neg (by simp [h2])]
    refine ⟨if (d.beforeWrite m a).feedDenied m a then .denied else .done, by split <;> simp, ?_⟩
    show (match ((d.beforeAccess m a 1).numberWrite a).regAt a with | none => _ | some r => _) = _
    rw [numberWrite_regAt, hra]
    show (if !((d.beforeAccess m a 1).numberWrite a).mayWrite m a && r.writable then _
      else (((d.beforeAccess m a 1).numberWrite a).regGive r m a (v % 2 ^ 32), _)) = _
    have hp : pairLo a = none := by unfold pairLo; split <;> simp [hg]
    rw [numberWrite_mayWrite, hm]
    simp [Dev.regGive, hw, hp, Dev.beforeWrite, Dev.beforeAccess, Dev.numberWrite]
    rfl
  obtain ⟨e, he, hb⟩ := hb
  unfold Dev.write
  rw [hp, hb]
  cases e <;> simp_all

end Sys2Proof.Machine
end

