-- ==== Sys2Proof/Laws/Events.lean ====
section
/-!
SUPPORT. Which registers an event, a status bit and a completion touch, and what a load channel is after it was set.
-/
namespace Sys2Proof.Machine

@[simp] theorem fltSet_regs (d : Dev) (b i : Nat) : (d.fltSet b i).regs
    = rput d.regs (R.FLT_FAULT_STATUS b) (setBit (rreg d.regs (R.FLT_FAULT_STATUS b)) i true) := by
  unfold Dev.fltSet Dev.fltEdge; split <;> simp [reg_eq]

@[simp] theorem ringAdvance_regs (d : Dev) (r n : Nat) :
    (d.ringAdvance r n).regs = rset d.regs (F.HIF_DEV_INDEX_INDEX r) ((d.devIdx r + n) % 2 ^ 32) := by
  unfold Dev.ringAdvance; dsimp only; simp

@[simp] theorem eventPut_regs (d : Dev) (r : Nat) (e : List Byte) :
    (d.eventPut r e).regs = rset d.regs (F.HIF_DEV_INDEX_INDEX r) ((d.devIdx r + 1) % 2 ^ 32) := by
  unfold Dev.eventPut
  simp [Dev.devIdx, get_eq]

/-- Flits touch the link's retry count, no other register. -/
theorem get_flits (d : Dev) (n : Nat) (f : FieldRef) (h : R.PWR_D2D_RETRIES ≠ f.addr ∧ R.PWR_D2D_RETRIES ≠ f.addr + 4) :
    (d.flits n).get f = d.get f := by
  unfold Dev.flits
  split
  · rw [get_eq, add_regs]
    unfold rset
    rw [if_pos (by decide)]
    exact rget_rput_ne _ _ _ _ h
  · rfl

/-- A ring-63 event touches the ring's device index, `EV_LOST`, the LOAD fault status and the link's retry count, no other
register. -/
theorem get_evPut (d : Dev) (e : List Byte) (f : FieldRef)
    (h1 : R.HIF_DEV_INDEX 63 ≠ f.addr ∧ R.HIF_DEV_INDEX 63 ≠ f.addr + 4)
    (h2 : R.LOADC_EV_LOST ≠ f.addr ∧ R.LOADC_EV_LOST ≠ f.addr + 4)
    (h3 : R.FLT_FAULT_STATUS blkLoad ≠ f.addr ∧ R.FLT_FAULT_STATUS blkLoad ≠ f.addr + 4)
    (h4 : R.PWR_D2D_RETRIES ≠ f.addr ∧ R.PWR_D2D_RETRIES ≠ f.addr + 4) : (d.evPut e).get f = d.get f := by
  have hi : ∀ (r : SMap Word) v, rget (rset r F.LOADC_EV_LOST_COUNT v) f = rget r f := fun r v => by
    unfold rset; rw [if_pos (by decide)]; exact rget_rput_ne _ _ _ _ h2
  have hd : ∀ (r : SMap Word) v, rget (rset r (F.HIF_DEV_INDEX_INDEX 63) v) f = rget r f := fun r v => by
    unfold rset; rw [if_pos (by decide)]; exact rget_rput_ne _ _ _ _ h1
  unfold Dev.evPut
  dsimp only
  split
  · rw [get_eq, eventPut_regs, hd, ← get_eq, get_flits _ _ _ h4]
  · rw [get_eq, fltSet_regs, rget_rput_ne _ _ _ _ h3, inc_regs, hi, ← get_eq, get_flits _ _ _ h4]

theorem get_ev63 (d : Dev) (e : List Byte) (f : FieldRef)
    (h1 : R.HIF_DEV_INDEX 63 ≠ f.addr ∧ R.HIF_DEV_INDEX 63 ≠ f.addr + 4)
    (h2 : R.LOADC_EV_LOST ≠ f.addr ∧ R.LOADC_EV_LOST ≠ f.addr + 4)
    (h3 : R.FLT_FAULT_STATUS blkLoad ≠ f.addr ∧ R.FLT_FAULT_STATUS blkLoad ≠ f.addr + 4)
    (h4 : R.PWR_D2D_RETRIES ≠ f.addr ∧ R.PWR_D2D_RETRIES ≠ f.addr + 4) : (d.ev63 e).get f = d.get f := by
  have hi : ∀ (r : SMap Word) v, rget (rset r F.LOADC_EV_LOST_COUNT v) f = rget r f := fun r v => by
    unfold rset; rw [if_pos (by decide)]; exact rget_rput_ne _ _ _ _ h2
  unfold Dev.ev63
  split
  · rw [get_evPut _ _ _ h1 h2 h3 h4]
    exact drain63_keeps (fun d => d.get f) (fun d e => get_evPut d e f h1 h2 h3 h4) (fun _ => rfl) d
  · split
    · rfl
    · rw [get_eq, inc_regs, hi, get_eq]

/-! ### Load channels -/

theorem ch_eq (d : Dev) (i : Nat) : d.ch i = SMap.get d.load.chans LoadCh.init i := rfl

theorem ch_of_load {d e : Dev} (h : d.load.chans = e.load.chans) (i : Nat) : d.ch i = e.ch i := by rw [ch_eq, ch_eq, h]

@[simp] theorem ch_setCh_same (d : Dev) (i : Nat) (c : LoadCh) : (d.setCh i c).ch i = c := by simp [Dev.ch, Dev.setCh]

theorem ch_setCh_ne (d : Dev) (i j : Nat) (c : LoadCh) (h : j ≠ i) : (d.setCh i c).ch j = d.ch j := by
  simp [Dev.ch, Dev.setCh, SMap.get_set_ne _ _ _ _ _ _ (Ne.symm h)]

@[simp] theorem set_ch (d : Dev) (f : FieldRef) (v i : Nat) : (d.set f v).ch i = d.ch i := ch_of_load (by simp) i
@[simp] theorem inc_ch (d : Dev) (f : FieldRef) (i : Nat) : (d.inc f).ch i = d.ch i := ch_of_load (by simp) i
@[simp] theorem reach_ch (d : Dev) (t i : Nat) : (d.reach t).ch i = d.ch i := ch_of_load (by simp) i
@[simp] theorem fltSet_ch (d : Dev) (b k i : Nat) : (d.fltSet b k).ch i = d.ch i := ch_of_load (by simp) i
@[simp] theorem ev63_ch (d : Dev) (e : List Byte) (i : Nat) : (d.ev63 e).ch i = d.ch i := ch_of_load (by simp) i
@[simp] theorem chFault_ch (d : Dev) (k c i : Nat) : (d.chFault k c).ch i = d.ch i := ch_of_load (by simp) i
@[simp] theorem supplyEvent_ch (d : Dev) (i : Nat) : (d.supplyEvent).ch i = d.ch i := ch_of_load (by simp) i
@[simp] theorem supplyCond_ch (d : Dev) (f : FieldRef) (on : Bool) (i : Nat) : (d.supplyCond f on).ch i = d.ch i :=
  ch_of_load (by simp) i

/-- A channel goes OFF; no other channel moves. -/
theorem chOff_ch (d : Dev) (i src j : Nat) : (d.chOff i src).ch j
    = if j = i then { d.ch i with run := .off, winEnd := none, pend := none, onSince := none, out := false } else d.ch j := by
  unfold Dev.chOff
  simp only [set_ch]
  split
  · rename_i h; subst h; simp
  · rename_i h; exact ch_setCh_ne _ _ _ _ h

/-- A move of a channel that is on leaves the other channels alone, and what commands ask of it. -/
theorem chMove_ch_ne (d : Dev) (i : Nat) (run : Run) (duty src j : Nat) (h : j ≠ i) : (d.chMove i run duty src).ch j = d.ch j := by
  unfold Dev.chMove
  dsimp only
  repeat' split
  all_goals simp only [set_ch]; exact ch_setCh_ne _ _ _ _ h

theorem chMove_ch_same (d : Dev) (i : Nat) (run : Run) (duty src : Nat) :
    ((d.chMove i run duty src).ch i).want = (d.ch i).want ∧ ((d.chMove i run duty src).ch i).safe = (d.ch i).safe
      ∧ ((d.chMove i run duty src).ch i).run = run ∧ ((d.chMove i run duty src).ch i).pend = none := by
  have hr : (d.pwmRoll i).want = (d.ch i).want ∧ (d.pwmRoll i).safe = (d.ch i).safe := by
    unfold Dev.pwmRoll; dsimp only; split <;> exact ⟨rfl, rfl⟩
  unfold Dev.chMove
  dsimp only
  repeat' split
  all_goals simp only [set_ch, ch_setCh_same, hr, and_self]

/-- A channel that takes an output keeps what its commands ask of it; no other channel moves. -/
theorem chApply_ch_ne (d : Dev) (i : Nat) (run : Run) (duty src : Nat) (retry : Bool) (j : Nat) (h : j ≠ i) :
    (d.chApply i run duty src retry).ch j = d.ch j := by
  unfold Dev.chApply
  dsimp only
  repeat' split
  · rw [chOff_ch, if_neg h]
  · exact chMove_ch_ne _ _ _ _ _ _ h
  · simp only [chFault_ch, set_ch]; exact ch_setCh_ne _ _ _ _ h
  all_goals rw [chMove_ch_ne _ _ _ _ _ _ h, ch_setCh_ne _ _ _ _ h]

theorem chApply_ch_same (d : Dev) (i : Nat) (run : Run) (duty src : Nat) (retry : Bool) :
    ((d.chApply i run duty src retry).ch i).want = (d.ch i).want ∧ ((d.chApply i run duty src retry).ch i).safe = (d.ch i).safe := by
  unfold Dev.chApply
  dsimp only
  repeat' split
  · rw [chOff_ch, if_pos rfl]; exact ⟨rfl, rfl⟩
  · exact ⟨(chMove_ch_same _ _ _ _ _).1, (chMove_ch_same _ _ _ _ _).2.1⟩
  · simp
  all_goals
    rw [(chMove_ch_same _ _ _ _ _).1, (chMove_ch_same _ _ _ _ _).2.1]; simp

/-- OFF, and any output without power for it, leaves the channel OFF. -/
theorem chApply_off (d : Dev) (i : Nat) (run : Run) (duty src : Nat) (retry : Bool) (h : run = .off ∨ d.outPower = false) :
    ((d.chApply i run duty src retry).ch i).run = .off ∧ ((d.chApply i run duty src retry).ch i).out = false := by
  unfold Dev.chApply
  rw [if_pos (by cases h <;> simp_all)]
  rw [chOff_ch, if_pos rfl]; exact ⟨rfl, rfl⟩

/-- A trip turns its channel off and no other (R393). -/
theorem trip_tripped (d : Dev) (i c : Nat) : d.tripped (d.trip i c) i c := by
  have key : ∀ j, (d.trip i c).ch j = (d.setCh i { d.ch i with
      run := if d.get (F.LOAD_CH_CFG_POLICY i) == 2 then .latched else .faultOff, winEnd := none, pend := none, onSince := none
      out := false, tripAt := d.now, code := c }).ch j := by
    intro j; unfold Dev.trip; dsimp only; split <;> simp
  unfold Dev.tripped
  refine ⟨?_, ?_, ?_, ?_, ?_, fun j hj => by rw [key, ch_setCh_ne _ _ _ _ hj]⟩
  all_goals rw [key, ch_setCh_same]
  simp

end Sys2Proof.Machine
end

