-- ==== Sys2Proof/Laws/Frame.lean ====
section
/-!
SUPPORT. Which registers an operation can change: from one state to the next only those at listed addresses (`Dev.regsOnly`). Each
lemma peels the outermost operation off.
-/
namespace Sys2Proof.Machine

theorem only_refl (d : Dev) (l : List Nat) : d.regsOnly d l := fun _ _ => rfl

theorem only_of {d e g : Dev} {l : List Nat} (h : d.regsOnly e l) (hr : g.regs = e.regs) : d.regsOnly g l := fun a ha => by
  rw [reg_eq, hr, ← reg_eq]; exact h a ha

theorem only_flt {d e : Dev} {l : List Nat} (x : FltSt) (h : d.regsOnly e l) : d.regsOnly { e with flt := x } l := only_of h rfl

theorem only_fltF {d e : Dev} {l : List Nat} (f : Dev → FltSt) (h : d.regsOnly e l) : d.regsOnly { e with flt := f e } l :=
  only_of h rfl

theorem only_trans {d e g : Dev} {l : List Nat} (h : d.regsOnly e l) (h2 : e.regsOnly g l) : d.regsOnly g l :=
  fun a ha => (h2 a ha).trans (h a ha)

theorem only_mono {d e : Dev} {l m : List Nat} (h : d.regsOnly e l) (hs : ∀ a ∈ l, a ∈ m) : d.regsOnly e m :=
  fun a ha => h a (fun hl => ha (hs a hl))

theorem only_setReg {d e : Dev} {l : List Nat} (a v : Nat) (ha : a ∈ l) (h : d.regsOnly e l) : d.regsOnly (e.setReg a v) l := by
  intro b hb
  rw [reg_eq, setReg_regs, rreg_rput_ne _ _ _ _ (fun h' => hb (by rw [← h']; exact ha)), ← reg_eq]
  exact h b hb

/-- A field of one word. -/
theorem only_set {d e : Dev} {l : List Nat} (f : FieldRef) (v : Nat) (ha : f.addr ∈ l) (hw : f.lo + f.w ≤ 32) (h : d.regsOnly e l) :
    d.regsOnly (e.set f v) l := by
  unfold Dev.set; rw [if_pos hw]; exact only_setReg _ _ ha h

/-- A field of two words. -/
theorem only_set2 {d e : Dev} {l : List Nat} (f : FieldRef) (v : Nat) (ha : f.addr ∈ l) (hb : f.addr + 4 ∈ l) (h : d.regsOnly e l) :
    d.regsOnly (e.set f v) l := by
  unfold Dev.set; split
  · exact only_setReg _ _ ha h
  · exact only_setReg _ _ hb (only_setReg _ _ ha h)

theorem only_add {d e : Dev} {l : List Nat} (f : FieldRef) (n : Nat) (ha : f.addr ∈ l) (hw : f.lo + f.w ≤ 32) (h : d.regsOnly e l) :
    d.regsOnly (e.add f n) l := only_set _ _ ha hw h

theorem only_inc {d e : Dev} {l : List Nat} (f : FieldRef) (ha : f.addr ∈ l) (hw : f.lo + f.w ≤ 32) (h : d.regsOnly e l) :
    d.regsOnly (e.inc f) l := only_set _ _ ha hw h

theorem only_setBitOf {d e : Dev} {l : List Nat} (f : FieldRef) (i : Nat) (b : Bool) (ha : f.addr ∈ l) (hw : f.lo + f.w ≤ 32)
    (h : d.regsOnly e l) : d.regsOnly (e.setBitOf f i b) l := only_set _ _ ha hw h

theorem only_fltSet {d e : Dev} {l : List Nat} (b i : Nat) (ha : R.FLT_FAULT_STATUS b ∈ l) (h : d.regsOnly e l) :
    d.regsOnly (e.fltSet b i) l := by
  unfold Dev.fltSet Dev.fltEdge
  split
  · exact only_of (only_setReg _ (setBit (e.reg (R.FLT_FAULT_STATUS b)) i true) ha h) (by simp)
  · exact only_setReg _ _ ha h

theorem only_eventPut {d e : Dev} {l : List Nat} (r : Nat) (x : List Byte) (ha : R.HIF_DEV_INDEX r ∈ l) (h : d.regsOnly e l) :
    d.regsOnly (e.eventPut r x) l := by
  refine only_of (only_set (F.HIF_DEV_INDEX_INDEX r) ((e.devIdx r + 1) % 2 ^ 32) ha (of_decide_eq_true rfl) h) ?_
  rw [eventPut_regs, set_regs]

theorem only_setWin {d e : Dev} {l : List Nat} (b : Nat) (x : List Nat) (ha : R.FLT_EVT_COUNT b ∈ l) (h : d.regsOnly e l) :
    d.regsOnly (e.setWin b x) l := only_set _ _ ha (of_decide_eq_true rfl) (only_of h rfl)

theorem only_elapse {d e : Dev} {l : List Nat} (n : Nat) (ha : R.TIME_SLEW_CTRL ∈ l) (h : d.regsOnly e l) :
    d.regsOnly (e.elapse n) l := by
  refine only_trans h (fun a hx => ?_)
  unfold Dev.elapse; dsimp only
  have hn : a ≠ R.TIME_SLEW_CTRL := fun h' => hx (by rw [h']; exact ha)
  repeat' split
  all_goals first
    | rfl
    | (simp only [reg_eq, set_regs, rset]; rw [if_pos (by decide)]; exact rreg_rput_ne _ _ _ _ (fun h' => hn h'.symm))

theorem only_reach {d e : Dev} {l : List Nat} (t : Nat) (ha : R.TIME_SLEW_CTRL ∈ l) (h : d.regsOnly e l) :
    d.regsOnly (e.reach t) l := by
  unfold Dev.reach
  obtain x | ⟨j, k, _, x⟩ := advance_cases e (t - e.time.now) <;> rw [x]
  · exact only_elapse _ ha h
  · exact only_elapse _ ha (only_of (only_elapse _ ha h) rfl)

/-- A field whose words are outside the list reads as before. -/
theorem get_only {d e : Dev} {l : List Nat} (h : d.regsOnly e l) (f : FieldRef) (h1 : f.addr ∉ l) (h2 : f.lo + f.w ≤ 32 ∨ f.addr + 4 ∉ l) :
    e.get f = d.get f := by
  unfold Dev.get
  split
  · rw [h _ h1]
  · rw [h _ h1, h _ (h2.resolve_left ‹_›)]

/-! ### Fault pages -/

theorem only_event61 {d e : Dev} {l : List Nat} (ty b i acc re : Nat) (x : List Byte)
    (h1 : R.HIF_DEV_INDEX 61 ∈ l) (h2 : R.TEST_EV61_LOST ∈ l) (h3 : R.FLT_FAULT_STATUS blkTest ∈ l) (h : d.regsOnly e l) :
    d.regsOnly (e.event61 ty b i acc re x) l := by
  unfold Dev.event61; split
  · exact only_eventPut _ _ h1 h
  · exact only_fltSet _ _ h3 (only_inc _ h2 (by decide) h)

theorem only_fnHold {d e : Dev} {l : List Nat} (b : Nat) (on : Bool) (ha : R.TEST_FN_HOLD (b / 32) ∈ l) (h : d.regsOnly e l) :
    d.regsOnly (e.fnHold b on) l := only_setBitOf _ _ _ ha (of_decide_eq_true rfl) h

theorem only_halt {d e : Dev} {l : List Nat} (hl : ∀ n, n < 64 → R.HIF_RING_STATUS n ∈ l) (h : d.regsOnly e l) :
    d.regsOnly ((List.range 64).foldl (fun d r => d.set (F.HIF_RING_STATUS_HALTED r) 1) e) l := by
  have : ∀ n, n ≤ 64 → d.regsOnly ((List.range n).foldl (fun d r => d.set (F.HIF_RING_STATUS_HALTED r) 1) e) l := by
    intro n
    induction n with
    | zero => exact fun _ => h
    | succ n ih =>
      intro hn
      rw [List.range_succ, List.foldl_append]
      have hm : (F.HIF_RING_STATUS_HALTED n).addr ∈ l := hl n (by omega)
      exact only_set (F.HIF_RING_STATUS_HALTED n) 1 hm (of_decide_eq_true rfl) (ih (by omega))
  exact this 64 (Nat.le_refl _)

theorem only_isolate {d e : Dev} {l : List Nat} (b : Nat) (hl : ∀ a ∈ faultRegs b, a ∈ l) (h : d.regsOnly e l) :
    d.regsOnly (e.isolate b) l := by
  unfold Dev.isolate
  split
  · exact h
  · have h1 : d.regsOnly ((e.fltSet b 29).event61 0x0A b 29 (accNone * 8) 0 []) l :=
      only_event61 _ _ _ _ _ _ (hl _ (by simp [faultRegs])) (hl _ (by simp [faultRegs])) (hl _ (by simp [faultRegs]))
        (only_fltSet _ _ (hl _ (by simp [faultRegs])) h)
    dsimp only
    split
    · exact only_flt _ h1
    · split
      · exact only_flt _ h1
      · split
        · exact only_flt _ h1
        · split
          · rename_i hb
            refine only_halt (fun n hn => hl _ ?_) h1
            unfold faultRegs
            rw [if_pos hb]
            exact List.mem_append_right _ (List.mem_map.mpr ⟨n, List.mem_range.mpr hn, rfl⟩)
          · exact h1

theorem only_severe {d e : Dev} {l : List Nat} (b i : Nat) (hl : ∀ a ∈ faultRegs b, a ∈ l) (h : d.regsOnly e l) :
    d.regsOnly (e.severe b i) l := by
  unfold Dev.severe
  have h1 : d.regsOnly ((((e.fltSet b 30).inc (F.FLT_SEV_COUNT_COUNT b)).inc F.TEST_SEV_TOTAL_COUNT).setWin b []) l :=
    only_setWin _ _ (hl _ (by simp [faultRegs])) (only_inc _ (hl _ (by simp [faultRegs, F.TEST_SEV_TOTAL_COUNT])) (of_decide_eq_true rfl)
      (only_inc _ (hl _ (by simp [faultRegs, F.FLT_SEV_COUNT_COUNT])) (of_decide_eq_true rfl) (only_fltSet _ _ (hl _ (by simp [faultRegs])) h)))
  have hite : ∀ (c : Bool) (x y : Dev), d.regsOnly x l → d.regsOnly y l → d.regsOnly (if c then x else y) l := by
    intro c x y hx hy; cases c
    · exact hy
    · exact hx
  have h2 := hite (bit (e.get (F.FLT_REACT_REACT b)) 2) _ _ (only_fnHold b true (hl _ (by simp [faultRegs])) h1) h1
  have h3 := hite (bit (e.get (F.FLT_REACT_REACT b)) 1) _ _ (only_isolate b hl h2) h2
  have h4 := hite (bit (e.get (F.FLT_REACT_REACT b)) 3) _ _ (only_fltF (fun g => { g.flt with todo := g.flt.todo ++ [.loadSafe] }) h3) h3
  have h5 := fun x => only_event61 0x02 b i (accNone * 8) (e.get (F.FLT_REACT_REACT b)) x
    (hl _ (by simp [faultRegs])) (hl _ (by simp [faultRegs])) (hl _ (by simp [faultRegs])) h4
  have h6 := fun x => hite (bit (e.get (F.FLT_REACT_REACT b)) 0) _ _ (only_of (h5 x) (fltIrq_regs _ b)) (h5 x)
  exact hite (bit (e.get (F.FLT_REACT_REACT b)) 4) _ _
    (only_fltF (fun g => { g.flt with warm := some (min b (g.flt.warm.getD b)) }) (h6 _)) (h6 _)

theorem only_countEvent {d e : Dev} {l : List Nat} (b i : Nat) (hl : ∀ a ∈ faultRegs b, a ∈ l) (h : d.regsOnly e l) :
    d.regsOnly (e.countEvent b i) l := by
  unfold Dev.countEvent
  have h1 : ∀ x, d.regsOnly ((e.inc (F.FLT_EVT_TOTAL_COUNT b)).setWin b x) l := fun x =>
    only_setWin _ _ (hl _ (by simp [faultRegs])) (only_inc _ (hl _ (by simp [faultRegs, F.FLT_EVT_TOTAL_COUNT])) (of_decide_eq_true rfl) h)
  dsimp only
  split
  · exact only_severe _ _ hl (h1 _)
  · exact h1 _

theorem only_fault {d e : Dev} {l : List Nat} (b i : Nat) (hl : ∀ a ∈ faultRegs b, a ∈ l) (h : d.regsOnly e l) :
    d.regsOnly (e.fault b i) l := only_countEvent _ _ hl (only_fltSet _ _ (hl _ (by simp [faultRegs])) h)

theorem only_capture {d e : Dev} {l : List Nat} (b i : Nat) (a : Access) (hl : ∀ a ∈ faultRegs b, a ∈ l) (h : d.regsOnly e l) :
    d.regsOnly (e.capture b i a).1 l := by
  unfold Dev.capture
  split
  · exact only_inc _ (hl _ (by simp [faultRegs, F.FLT_FEC_LOST_COUNT])) (of_decide_eq_true rfl) h
  · exact only_event61 _ _ _ _ _ _ (hl _ (by simp [faultRegs])) (hl _ (by simp [faultRegs])) (hl _ (by simp [faultRegs]))
      (only_set2 _ _ (hl _ (by simp [faultRegs, F.FLT_FEC_TIME_TIME])) (hl _ (by simp [faultRegs, F.FLT_FEC_TIME_TIME]))
        (only_setReg _ _ (hl _ (by simp [faultRegs])) (only_setReg _ _ (hl _ (by simp [faultRegs])) h)))

theorem only_faultCapture {d e : Dev} {l : List Nat} (b i : Nat) (a : Access) (counts : Bool) (hl : ∀ a ∈ faultRegs b, a ∈ l)
    (h : d.regsOnly e l) : d.regsOnly (e.faultCapture b i a counts) l := by
  unfold Dev.faultCapture
  have h1 : d.regsOnly ((e.fltSet b i).capture b i a).1 l :=
    only_capture _ _ _ hl (only_fltSet _ _ (hl _ (by simp [faultRegs])) h)
  dsimp only
  split
  · exact only_countEvent _ _ hl h1
  · exact h1

theorem only_flaggedWrite {d e : Dev} {l : List Nat} (b m a : Nat) (hl : ∀ a ∈ faultRegs b, a ∈ l) (h : d.regsOnly e l) :
    d.regsOnly (e.flaggedWrite b m a) l := only_faultCapture _ _ _ _ hl h

/-! ### The load side -/

theorem only_flits {d e : Dev} {l : List Nat} (n : Nat) (hr : R.PWR_D2D_RETRIES ∈ l) (h : d.regsOnly e l) :
    d.regsOnly (e.flits n) l := by
  unfold Dev.flits
  split
  · exact only_set _ _ hr (of_decide_eq_true rfl) (only_of h rfl)
  · exact h

theorem only_evPut {d e : Dev} {l : List Nat} (x : List Byte) (hl : ∀ a ∈ loadEventRegs, a ∈ l) (h : d.regsOnly e l) :
    d.regsOnly (e.evPut x) l := by
  unfold Dev.evPut
  dsimp only
  have h1 : d.regsOnly (e.flits 1) l := only_flits _ (hl _ (by simp [loadEventRegs])) h
  split
  · exact only_eventPut _ _ (hl _ (by simp [loadEventRegs])) h1
  · exact only_fltSet _ _ (hl _ (by simp [loadEventRegs])) (only_inc _ (hl _ (by simp [loadEventRegs, F.LOADC_EV_LOST_COUNT])) (of_decide_eq_true rfl) h1)

theorem only_drain63 {d e : Dev} {l : List Nat} (hl : ∀ a ∈ loadEventRegs, a ∈ l) (h : d.regsOnly e l) :
    d.regsOnly e.drain63 l := by
  have key : ∀ (m : List (List Byte)) (x : Dev), d.regsOnly x l → d.regsOnly (m.foldl Dev.evPut x) l := by
    intro m
    induction m with
    | nil => exact fun _ hx => hx
    | cons a m ih => exact fun x hx => ih _ (only_evPut a hl hx)
  unfold Dev.drain63
  split
  · exact key _ _ (only_of h rfl)
  · exact h

theorem only_ev63 {d e : Dev} {l : List Nat} (x : List Byte) (hl : ∀ a ∈ loadEventRegs, a ∈ l) (h : d.regsOnly e l) :
    d.regsOnly (e.ev63 x) l := by
  unfold Dev.ev63
  dsimp only
  repeat' split
  · exact only_evPut _ hl (only_drain63 hl h)
  · exact only_of h rfl
  · exact only_inc _ (hl _ (by simp [loadEventRegs, F.LOADC_EV_LOST_COUNT])) (of_decide_eq_true rfl) h

theorem only_steEvent {d e : Dev} {l : List Nat} (t c x : Nat) (hl : ∀ a ∈ loadEventRegs, a ∈ l) (h : d.regsOnly e l) :
    d.regsOnly (e.steEvent t c x) l := by
  unfold Dev.steEvent Dev.takeOrder
  repeat' split
  · exact h
  · exact only_fltSet _ _ (hl _ (by simp [loadEventRegs]))
      (only_inc _ (hl _ (by simp [loadEventRegs, F.STE_EVF_LOST_COUNT])) (of_decide_eq_true rfl) h)
  · rename_i hp
    cases hp
    exact only_of h rfl

theorem only_chFault {d e : Dev} {l : List Nat} (i c : Nat) (hl : ∀ a ∈ loadEventRegs, a ∈ l) (hc : ∀ a ∈ chanRegs i, a ∈ l)
    (h : d.regsOnly e l) : d.regsOnly (e.chFault i c) l :=
  only_steEvent _ _ _ hl (only_ev63 _ hl (only_fltSet _ _ (hl _ (by simp [loadEventRegs]))
    (only_setBitOf _ _ _ (hc _ (by simp [chanRegs, F.LOAD_CH_FAULT_CODES])) (of_decide_eq_true rfl) h)))

theorem only_setCh {d e : Dev} {l : List Nat} (i : Nat) (c : LoadCh) (hc : ∀ a ∈ chanRegs i, a ∈ l) (h : d.regsOnly e l) :
    d.regsOnly (e.setCh i c) l :=
  only_set _ _ (hc _ (by simp [chanRegs, F.LOAD_CH_THETA_THETA])) (of_decide_eq_true rfl)
    (only_set _ _ (hc _ (by simp [chanRegs, F.LOAD_CH_STATUS_INRUSH])) (of_decide_eq_true rfl)
      (only_set _ _ (hc _ (by simp [chanRegs, F.LOAD_CH_STATUS_STATE])) (of_decide_eq_true rfl) (only_of h rfl)))

theorem only_chOff {d e : Dev} {l : List Nat} (i src : Nat) (hc : ∀ a ∈ chanRegs i, a ∈ l) (h : d.regsOnly e l) :
    d.regsOnly (e.chOff i src) l :=
  only_set _ _ (hc _ (by simp [chanRegs, F.LOAD_CH_STATUS_LIMITING])) (of_decide_eq_true rfl)
    (only_set _ _ (hc _ (by simp [chanRegs, F.LOAD_CH_STATUS_SRC])) (of_decide_eq_true rfl)
      (only_set _ _ (hc _ (by simp [chanRegs, F.LOAD_CH_STATUS_DUTY])) (of_decide_eq_true rfl) (only_setCh _ _ hc h)))

theorem only_chMove {d e : Dev} {l : List Nat} (i : Nat) (run : Run) (duty src : Nat) (hc : ∀ a ∈ chanRegs i, a ∈ l)
    (h : d.regsOnly e l) : d.regsOnly (e.chMove i run duty src) l :=
  only_set _ _ (hc _ (by simp [chanRegs, F.LOAD_CH_STATUS_SRC])) (of_decide_eq_true rfl)
    (only_set _ _ (hc _ (by simp [chanRegs, F.LOAD_CH_STATUS_DUTY])) (of_decide_eq_true rfl) (only_setCh _ _ hc h))

theorem only_chApply {d e : Dev} {l : List Nat} (i : Nat) (run : Run) (duty src : Nat) (retry : Bool)
    (hl : ∀ a ∈ loadEventRegs, a ∈ l) (hc : ∀ a ∈ chanRegs i, a ∈ l) (h : d.regsOnly e l) :
    d.regsOnly (e.chApply i run duty src retry) l := by
  unfold Dev.chApply
  dsimp only
  split
  · exact only_chOff _ _ hc h
  · split
    · exact only_chMove _ _ _ _ hc h
    · split
      · exact only_chFault _ _ hl hc
          (only_set _ _ (hc _ (by simp [chanRegs, F.LOAD_CH_STATUS_SRC])) (of_decide_eq_true rfl)
            (only_set _ _ (hc _ (by simp [chanRegs, F.LOAD_CH_STATUS_DUTY])) (of_decide_eq_true rfl) (only_setCh _ _ hc h)))
      · exact only_chMove _ _ _ _ hc (only_setCh _ _ hc h)

theorem only_trip {d e : Dev} {l : List Nat} (i c : Nat) (hl : ∀ a ∈ loadEventRegs, a ∈ l) (hc : ∀ a ∈ chanRegs i, a ∈ l)
    (h : d.regsOnly e l) : d.regsOnly (e.trip i c) l := by
  unfold Dev.trip
  dsimp only
  have h3 : ∀ x : LoadCh, d.regsOnly ((((e.setCh i x).set (F.LOAD_CH_STATUS_DUTY i) 0).set (F.LOAD_CH_STATUS_LIMITING i) 0).inc
      (F.LOAD_TRIPS_COUNT i)) l := fun x =>
    only_inc _ (hc _ (by simp [chanRegs, F.LOAD_TRIPS_COUNT])) (of_decide_eq_true rfl)
      (only_set _ _ (hc _ (by simp [chanRegs, F.LOAD_CH_STATUS_LIMITING])) (of_decide_eq_true rfl)
        (only_set _ _ (hc _ (by simp [chanRegs, F.LOAD_CH_STATUS_DUTY])) (of_decide_eq_true rfl) (only_setCh _ _ hc h)))
  split
  · exact only_chFault _ _ hl hc (only_chFault _ _ hl hc (h3 _))
  · exact only_chFault _ _ hl hc (h3 _)

end Sys2Proof.Machine
end

