-- ==== Sys2Proof/Laws/Load.lean ====
section
/-!
SUPPORT. The load side's shared operations over all channels: what following the sources, the safe state and a pass over the channels
do to one channel.
-/
namespace Sys2Proof.Machine

/-- A pass over channels 0 to n−1 whose steps each touch one channel: what it does to one of them is that channel's own step. -/
theorem fold_ch (op : Dev → Nat → Dev) (hne : ∀ d i j, j ≠ i → (op d i).ch j = d.ch j) (q : Dev → Prop)
    (n : Nat) (hq : ∀ d i, i < n → q d → q (op d i)) (d : Dev) (hd : q d) (i : Nat) (hi : i < n) :
    ∃ e, q e ∧ e.ch i = d.ch i ∧ ((List.range n).foldl op d).ch i = (op e i).ch i := by
  have pre : ∀ k, k ≤ n → q ((List.range k).foldl op d) ∧ ∀ j, k ≤ j → ((List.range k).foldl op d).ch j = d.ch j := by
    intro k
    induction k with
    | zero => exact fun _ => ⟨hd, fun _ _ => rfl⟩
    | succ k ih =>
      intro hk
      simp only [List.range_succ, List.foldl_append, List.foldl_cons, List.foldl_nil]
      have := ih (by omega)
      exact ⟨hq _ _ (by omega) this.1, fun j hj => by rw [hne _ _ _ (by omega), this.2 j (by omega)]⟩
  have post : ∀ k, i < k → k ≤ n → ((List.range k).foldl op d).ch i = (op ((List.range i).foldl op d) i).ch i := by
    intro k
    induction k with
    | zero => omega
    | succ k ih =>
      intro h1 h2
      simp only [List.range_succ, List.foldl_append, List.foldl_cons, List.foldl_nil]
      by_cases h : i = k
      · subst h; rfl
      · rw [hne _ _ _ h]; exact ih (by omega) (by omega)
  exact ⟨_, (pre i (by omega)).1, (pre i (by omega)).2 i (Nat.le_refl _), post n hi (Nat.le_refl _)⟩

/-- Such a pass leaves the channels from n on alone. -/
theorem fold_ch_ge (op : Dev → Nat → Dev) (hne : ∀ d i j, j ≠ i → (op d i).ch j = d.ch j) (d : Dev) (n j : Nat) (hj : n ≤ j) :
    ((List.range n).foldl op d).ch j = d.ch j := by
  induction n with
  | zero => rfl
  | succ n ih =>
    simp only [List.range_succ, List.foldl_append, List.foldl_cons, List.foldl_nil]
    rw [hne _ _ _ (by omega), ih (by omega)]

/-- What every step of a pass keeps, the pass keeps. -/
theorem fold_keep {α : Type} (op : Dev → Nat → Dev) (f : Dev → α) (h : ∀ d i, f (op d i) = f d) (l : List Nat) (d : Dev) :
    f (l.foldl op d) = f d := by
  induction l generalizing d with
  | nil => rfl
  | cons a l ih => rw [List.foldl_cons, ih, h]

theorem only_fold (op : Dev → Nat → Dev) (l : List Nat) (n : Nat)
    (h : ∀ (d e : Dev) (i : Nat), i < n → d.regsOnly e l → d.regsOnly (op e i) l) (d e : Dev) (he : d.regsOnly e l) :
    d.regsOnly ((List.range n).foldl op e) l := by
  induction n with
  | zero => exact he
  | succ n ih =>
    simp only [List.range_succ, List.foldl_append, List.foldl_cons, List.foldl_nil]
    exact h _ _ n (by omega) (ih (fun d e i hi => h d e i (by omega)))

/-- Time that passes leaves the power die's registers alone. -/
theorem get_reach (d : Dev) (t : Nat) (f : FieldRef) (h : 0x1000000 ≤ f.addr) : (d.reach t).get f = d.get f := by
  have hn : R.TIME_SLEW_CTRL < 0x1000000 := by decide
  rw [get_eq, rget_reach _ _ _ ⟨by omega, by omega⟩, get_eq]

theorem limpCtl_reach (d : Dev) (t i : Nat) : (d.reach t).limpCtl i = d.limpCtl i := by
  unfold Dev.limpCtl Dev.flag
  rw [get_reach _ _ _ (by decide), get_reach _ _ _ (by decide)]

theorem lhIn_reach (d : Dev) (t i : Nat) : (d.reach t).lhIn i = d.lhIn i := by
  unfold Dev.lhIn
  rw [get_reach _ _ _ (by decide), get_reach _ _ _ (by decide), get_reach _ _ _ (by decide)]

theorem desired_reach (d : Dev) (t i : Nat) : (d.reach t).desired i = d.desired i := by
  have h1 : 0x1000000 ≤ (F.LOAD_CH_CFG_SAFE i).addr := by simp only [F.LOAD_CH_CFG_SAFE, R.LOAD_CH_CFG]; omega
  have h2 : 0x1000000 ≤ (F.LOAD_CH_SAFE_SAFE_DUTY i).addr := by simp only [F.LOAD_CH_SAFE_SAFE_DUTY, R.LOAD_CH_SAFE]; omega
  unfold Dev.desired
  rw [limpCtl_reach, lhIn_reach, get_reach _ _ _ h1, get_reach _ _ _ h2, get_reach _ _ _ (by decide), reach_ch]

theorem deferring_reach (d : Dev) (t i : Nat) : (d.reach t).deferring i = d.deferring i := by
  have h1 : 0x1000000 ≤ (F.LOAD_CH_CFG_RAIL i).addr := by simp only [F.LOAD_CH_CFG_RAIL, R.LOAD_CH_CFG]; omega
  unfold Dev.deferring Dev.flag
  rw [get_reach d t F.LOADC_SUPPLY_STATUS_DUMP (by decide), get_reach d t F.LOADC_SUPPLY_STATUS_BROWNOUT (by decide),
    get_reach d t F.LOADC_SUPPLY_STATUS_VHV_HIGH (by decide), get_reach d t F.SUPV_SUPPLY_STATUS_VHV_LOW (by decide),
    get_reach _ _ _ h1]

theorem outPower_reach (d : Dev) (t : Nat) : (d.reach t).outPower = d.outPower := by
  unfold Dev.outPower Dev.ready
  rw [get_reach _ _ _ (by decide)]; simp

/-- What decides a turn-on reads registers and the ground state: a change elsewhere, and one of a channel's own registers, keeps it. -/
theorem deferring_of {d e : Dev} (i : Nat) (l : List Nat) (h : d.regsOnly e l)
    (h1 : R.LOADC_SUPPLY_STATUS ∉ l) (h2 : R.LOAD_CH_CFG i ∉ l) (h3 : R.SUPV_SUPPLY_STATUS ∉ l) : e.deferring i = d.deferring i := by
  unfold Dev.deferring Dev.flag
  rw [get_only h F.LOADC_SUPPLY_STATUS_DUMP h1 (Or.inl (by decide)), get_only h F.LOADC_SUPPLY_STATUS_BROWNOUT h1 (Or.inl (by decide)),
    get_only h F.LOADC_SUPPLY_STATUS_VHV_HIGH h1 (Or.inl (by decide)), get_only h F.SUPV_SUPPLY_STATUS_VHV_LOW h3 (Or.inl (by decide)),
    get_only h (F.LOAD_CH_CFG_RAIL i) h2 (Or.inl (of_decide_eq_true rfl))]

theorem outPower_of {d e : Dev} (l : List Nat) (h : d.regsOnly e l) (h1 : R.SUPV_PD_STATUS ∉ l)
    (hg : e.load.gndLost = d.load.gndLost) : e.outPower = d.outPower := by
  unfold Dev.outPower Dev.ready
  rw [get_only h F.SUPV_PD_STATUS_READY h1 (Or.inl (by decide)), hg]

/-- With power, and nothing to defer it, a channel takes the output it is given. -/
theorem chApply_run (d : Dev) (i : Nat) (run : Run) (duty src : Nat) (retry : Bool) (h1 : run ≠ .off) (h2 : d.outPower = true)
    (h4 : d.deferring i = false) : ((d.chApply i run duty src retry).ch i).run = run := by
  unfold Dev.chApply
  rw [if_neg (by simp [h1, h2]), h4]
  split
  · exact (chMove_ch_same _ _ _ _ _).2.2.1
  · rw [if_neg (by simp)]; exact (chMove_ch_same _ _ _ _ _).2.2.1

/-- A channel that is off, with power and nothing to defer it, turns on, and opens its inrush window (R388). -/
theorem chApply_on (d : Dev) (i : Nat) (run : Run) (duty src : Nat) (retry : Bool) (h1 : run ≠ .off) (h2 : d.outPower = true)
    (h3 : (d.ch i).isOn = false) (h4 : d.deferring i = false) :
    ((d.chApply i run duty src retry).ch i).run = run ∧ ((d.chApply i run duty src retry).ch i).pend = none
    ∧ ((d.chApply i run duty src retry).ch i).winEnd
      = (if d.get (F.LOAD_CH_LIM_INRUSH_MS i) ≠ 0 ∧ ¬(retry = true ∧ d.get (F.LOAD_CH_CFG_POLICY i) = 1)
          then some (d.now + d.get (F.LOAD_CH_LIM_INRUSH_MS i) * msCyc) else none)
    ∧ (d.chApply i run duty src retry).time = d.time := by
  have hw : ∀ (e : Dev), ((e.chMove i run duty src).ch i).winEnd = (e.ch i).winEnd := by
    intro e
    have hr : (e.pwmRoll i).winEnd = (e.ch i).winEnd := by unfold Dev.pwmRoll; dsimp only; split <;> rfl
    unfold Dev.chMove; dsimp only; repeat' split
    all_goals simp [hr]
  unfold Dev.chApply
  rw [if_neg (by simp [h1, h2]), h3, if_neg (by simp), h4, if_neg (by simp)]
  refine ⟨(chMove_ch_same _ _ _ _ _).2.2.1, (chMove_ch_same _ _ _ _ _).2.2.2, ?_, by simp⟩
  rw [hw, ch_setCh_same]
  cases retry <;> simp

theorem obey_ch_ne (d : Dev) (i src j : Nat) (h : j ≠ i) : (d.obey i src).ch j = d.ch j := by
  unfold Dev.obey; dsimp only; split
  · rfl
  · exact chApply_ch_ne _ _ _ _ _ _ _ h

theorem obey_ch_same (d : Dev) (i src : Nat) :
    ((d.obey i src).ch i).want = (d.ch i).want ∧ ((d.obey i src).ch i).safe = (d.ch i).safe := by
  unfold Dev.obey; dsimp only; split
  · exact ⟨rfl, rfl⟩
  · exact chApply_ch_same _ _ _ _ _ _

/-- Nothing moves a channel out of LATCHED but an OFF command. -/
theorem obey_ch_latched (d : Dev) (i src : Nat) (h : (d.ch i).run = .latched) : d.obey i src = d := by
  unfold Dev.obey; rw [if_pos (by simp [h])]

theorem only_obey {d e : Dev} {l : List Nat} (i src : Nat) (hl : ∀ a ∈ loadEventRegs, a ∈ l) (hc : ∀ a ∈ chanRegs i, a ∈ l)
    (h : d.regsOnly e l) : d.regsOnly (e.obey i src) l := by
  unfold Dev.obey; dsimp only; split
  · exact h
  · exact only_chApply _ _ _ _ _ hl hc h

theorem follow_ch_ne (d : Dev) (i src j : Nat) (h : j ≠ i) : (d.follow i src).ch j = d.ch j := by
  unfold Dev.follow; split
  · rfl
  · exact obey_ch_ne _ _ _ _ h

theorem follow_ch_same (d : Dev) (i src : Nat) :
    ((d.follow i src).ch i).want = (d.ch i).want ∧ ((d.follow i src).ch i).safe = (d.ch i).safe := by
  unfold Dev.follow; split
  · exact ⟨rfl, rfl⟩
  · exact obey_ch_same _ _ _

/-- Nothing moves a channel out of LATCHED or FAULT_OFF by following its sources. -/
theorem follow_ch_fault (d : Dev) (i src : Nat) (h : (d.ch i).run = .latched ∨ (d.ch i).run = .faultOff) : d.follow i src = d := by
  unfold Dev.follow
  rcases h with h | h
  · rw [if_neg (by simp [h]), obey_ch_latched _ _ _ h]
  · rw [if_pos (by simp [h])]

theorem only_follow {d e : Dev} {l : List Nat} (i src : Nat) (hl : ∀ a ∈ loadEventRegs, a ∈ l) (hc : ∀ a ∈ chanRegs i, a ∈ l)
    (h : d.regsOnly e l) : d.regsOnly (e.follow i src) l := by
  unfold Dev.follow; split
  · exact h
  · exact only_obey _ _ hl hc h

/-- The registers of every load channel and of the load side's events. -/
theorem mem_allChan (i : Nat) (hi : i < 24) : ∀ a ∈ chanRegs i, a ∈ (List.range 24).flatMap chanRegs ++ loadEventRegs :=
  fun _ ha => List.mem_append_left _ (List.mem_flatMap.mpr ⟨i, List.mem_range.mpr hi, ha⟩)

theorem safeCh_ch (d : Dev) (i j : Nat) : (d.safeCh i).ch j
    = (let d1 := if (d.ch i).safe then d else d.setCh i { d.ch i with safe := true, hold := d.present i }
       if d1.limpCtl i then d1.follow i 4 else if d1.get (F.LOAD_CH_CFG_SAFE i) == 2 then d1 else d1.obey i 3).ch j := by
  unfold Dev.safeCh; dsimp only; exact ch_of_load (by simp) j

theorem safeCh_ch_ne (d : Dev) (i j : Nat) (h : j ≠ i) : (d.safeCh i).ch j = d.ch j := by
  rw [safeCh_ch]
  dsimp only
  have h1 : (if (d.ch i).safe then d else d.setCh i { d.ch i with safe := true, hold := d.present i }).ch j = d.ch j := by
    split
    · rfl
    · exact ch_setCh_ne _ _ _ _ h
  generalize (if (d.ch i).safe then d else d.setCh i { d.ch i with safe := true, hold := d.present i }) = e at h1
  split
  · rw [follow_ch_ne _ _ _ _ h, h1]
  · split
    · exact h1
    · rw [obey_ch_ne _ _ _ _ h, h1]

/-- In its safe state a channel stays LATCHED where it was (R399). -/
theorem safeCh_ch_same (d : Dev) (i : Nat) : ((d.safeCh i).ch i).safe = true
    ∧ ((d.ch i).run = .latched → ((d.safeCh i).ch i).run = (d.ch i).run ∧ ((d.safeCh i).ch i).out = (d.ch i).out) := by
  rw [safeCh_ch]
  have h1 : ∀ e : Dev, e = (if (d.ch i).safe then d else d.setCh i { d.ch i with safe := true, hold := d.present i }) →
      (e.ch i).safe = true ∧ (e.ch i).run = (d.ch i).run ∧ (e.ch i).out = (d.ch i).out := by
    intro e he; subst he; split
    · rename_i h; exact ⟨h, rfl, rfl⟩
    · simp
  dsimp only
  generalize he : (if (d.ch i).safe then d else d.setCh i { d.ch i with safe := true, hold := d.present i }) = e
  obtain ⟨a, b, c⟩ := h1 e he.symm
  split
  · refine ⟨(follow_ch_same _ _ _).2.trans a, fun hr => ?_⟩
    rw [follow_ch_fault _ _ _ (.inl (b.trans hr))]; exact ⟨b, c⟩
  · split
    · exact ⟨a, fun _ => ⟨b, c⟩⟩
    · refine ⟨(obey_ch_same _ _ _).2.trans a, fun hr => ?_⟩
      rw [obey_ch_latched _ _ _ (b.trans hr)]; exact ⟨b, c⟩

theorem only_safeCh {d e : Dev} {l : List Nat} (i : Nat) (hl : ∀ a ∈ loadEventRegs, a ∈ l) (hc : ∀ a ∈ chanRegs i, a ∈ l)
    (h : d.regsOnly e l) : d.regsOnly (e.safeCh i) l := by
  unfold Dev.safeCh
  dsimp only
  refine only_steEvent _ _ _ hl (only_ev63 _ hl ?_)
  have h1 : d.regsOnly (if (e.ch i).safe then e else e.setCh i { e.ch i with safe := true, hold := e.present i }) l := by
    split
    · exact h
    · exact only_setCh _ _ hc h
  generalize (if (e.ch i).safe then e else e.setCh i { e.ch i with safe := true, hold := e.present i }) = g at h1
  split
  · exact only_follow _ _ hl hc h1
  · split
    · exact h1
    · exact only_obey _ _ hl hc h1

/-! ### Limp-home -/

theorem limpCh_ch_ne (level standby : Bool) (d : Dev) (i j : Nat) (h : j ≠ i) : (Dev.limpCh level standby d i).ch j = d.ch j := by
  unfold Dev.limpCh
  split
  · rw [chOff_ch, if_neg h]
  · split
    · rfl
    · split
      · exact follow_ch_ne _ _ _ _ h
      · dsimp only
        split
        · rw [follow_ch_ne _ _ _ _ h, ch_setCh_ne _ _ _ _ h]
        · exact ch_setCh_ne _ _ _ _ h

theorem only_limpCh {d e : Dev} {l : List Nat} (level standby : Bool) (i : Nat) (hl : ∀ a ∈ loadEventRegs, a ∈ l)
    (hc : ∀ a ∈ chanRegs i, a ∈ l) (h : d.regsOnly e l) : d.regsOnly (Dev.limpCh level standby e i) l := by
  unfold Dev.limpCh
  split
  · exact only_chOff _ _ hc h
  · split
    · exact h
    · split
      · exact only_follow _ _ hl hc h
      · dsimp only
        split
        · exact only_follow _ _ hl hc (only_setCh _ _ hc h)
        · exact only_setCh _ _ hc h

@[simp] theorem limpCh_gndLost (level standby : Bool) (d : Dev) (i : Nat) :
    (Dev.limpCh level standby d i).load.gndLost = d.load.gndLost := by
  unfold Dev.limpCh; dsimp only; repeat' split
  all_goals simp

@[simp] theorem limpCh_flt (level standby : Bool) (d : Dev) (i : Nat) : (Dev.limpCh level standby d i).flt = d.flt := by
  unfold Dev.limpCh; dsimp only; repeat' split
  all_goals simp

@[simp] theorem lhLevel_load (d : Dev) (level : Bool) : (d.lhLevel level).load = d.load := by
  unfold Dev.lhLevel; dsimp only; split <;> simp

@[simp] theorem lhLevel_flt (d : Dev) (level : Bool) : (d.lhLevel level).flt = d.flt := by
  unfold Dev.lhLevel; dsimp only; split <;> simp

/-- Outside STANDBY only `LIMP_STATUS` changes with the level, in STANDBY the state of PD12 too. -/
theorem only_lhLevel (d : Dev) (level : Bool) :
    d.regsOnly (d.lhLevel level) (if d.inStandby then [R.LOADC_LIMP_STATUS, R.SUPV_PD_STATUS] else [R.LOADC_LIMP_STATUS]) := by
  unfold Dev.lhLevel; dsimp only
  split
  · exact only_setBitOf _ _ _ (by decide) (by decide) (only_setBitOf _ _ _ (by decide) (by decide)
      (only_set _ _ (by decide) (by decide) (only_refl _ _)))
  · exact only_set _ _ (by decide) (by decide) (only_refl _ _)

theorem lhLevel_en (d : Dev) (level : Bool) : (d.lhLevel level).flag F.LOADC_LIMP_STATUS_LH_EN = level := by
  unfold Dev.lhLevel Dev.flag; dsimp only
  have h : (d.set F.LOADC_LIMP_STATUS_LH_EN (b2n level)).get F.LOADC_LIMP_STATUS_LH_EN = b2n level := by
    rw [get_set_same _ _ _ (by decide)]; cases level <;> rfl
  split
  · unfold Dev.setBitOf
    rw [get_set_ne _ _ _ _ (by left; decide) (by decide) (by decide), get_set_ne _ _ _ _ (by left; decide) (by decide) (by decide), h]
    cases level <;> rfl
  · rw [h]; cases level <;> rfl

theorem lhLevel_pins (d : Dev) (level : Bool) :
    (d.lhLevel level).get F.LOADC_LIMP_STATUS_LH_IN = d.get F.LOADC_LIMP_STATUS_LH_IN := by
  unfold Dev.lhLevel; dsimp only
  split
  · unfold Dev.setBitOf
    rw [get_set_ne _ _ _ _ (by left; decide) (by decide) (by decide), get_set_ne _ _ _ _ (by left; decide) (by decide) (by decide),
      get_set_ne _ _ _ _ (by right; decide) (by decide) (by decide)]
  · rw [get_set_ne _ _ _ _ (by right; decide) (by decide) (by decide)]

theorem pinCh_ch_ne (d : Dev) (i j : Nat) (h : j ≠ i) : (d.pinCh i).ch j = d.ch j := by
  unfold Dev.pinCh; split
  · exact follow_ch_ne _ _ _ _ h
  · split
    · exact follow_ch_ne _ _ _ _ h
    · rfl

theorem only_pinCh {d e : Dev} {l : List Nat} (i : Nat) (hl : ∀ a ∈ loadEventRegs, a ∈ l)
    (hc : ∀ a ∈ chanRegs i, a ∈ l) (h : d.regsOnly e l) : d.regsOnly (e.pinCh i) l := by
  unfold Dev.pinCh; split
  · exact only_follow _ _ hl hc h
  · split
    · exact only_follow _ _ hl hc h
    · exact h

@[simp] theorem pinCh_flt (d : Dev) (i : Nat) : (d.pinCh i).flt = d.flt := by
  unfold Dev.pinCh; repeat' split
  all_goals simp

end Sys2Proof.Machine
end

