-- ==== Sys2Proof/Laws/Put.lean ====
section
/-!
SUPPORT. Which operation a written word meets: one lemma for each page of the register space, and what a write of a register without
behaviour of its own leaves.
-/
namespace Sys2Proof.Machine

theorem regPut_host (d : Dev) (r : RegDef) (m a v : Nat) (h1 : faultBlockOf a = none) (h2 : pageBlock a = 1) :
    d.regPut r m a v = d.putHost r m a v := by simp [Dev.regPut, h1, h2]

theorem regPut_fwd (d : Dev) (r : RegDef) (m a v : Nat) (h1 : faultBlockOf a = none) (h2 : pageBlock a = 2) :
    d.regPut r m a v = d.putFwd r m a v := by simp [Dev.regPut, h1, h2]

theorem regPut_tbl (d : Dev) (r : RegDef) (m a v : Nat) (h1 : faultBlockOf a = none) (h2 : pageBlock a = 3) :
    d.regPut r m a v = d.putTbl r m a v := by simp [Dev.regPut, h1, h2]

theorem regPut_anvil (d : Dev) (r : RegDef) (m a v : Nat) (h1 : faultBlockOf a = none) (h2 : pageBlock a = 4) :
    d.regPut r m a v = d.putAnvil r m a v := by simp [Dev.regPut, h1, h2]

theorem regPut_steMem (d : Dev) (r : RegDef) (m v : Nat) :
    d.regPut r m R.STE_MEM_CMD v = d.memCmd r m R.STE_MEM_CMD v Dev.steAccess := by
  simp [Dev.regPut, show faultBlockOf R.STE_MEM_CMD = none from by decide +kernel, show pageBlock R.STE_MEM_CMD = 5 from by decide +kernel]

theorem regPut_can (d : Dev) (r : RegDef) (m a v : Nat) (h1 : faultBlockOf a = none) (h2 : 6 ≤ pageBlock a ∧ pageBlock a < 26) :
    d.regPut r m a v = d.putCan r m a v := by
  simp [Dev.regPut, h1, h2, show pageBlock a ≠ 1 by omega, show pageBlock a ≠ 2 by omega, show pageBlock a ≠ 3 by omega,
    show pageBlock a ≠ 4 by omega, show pageBlock a ≠ 5 by omega, show ¬ pageBlock a < 6 by omega]

theorem regPut_lin (d : Dev) (r : RegDef) (m a v : Nat) (h1 : faultBlockOf a = none) (h2 : 27 ≤ pageBlock a ∧ pageBlock a < 35) :
    d.regPut r m a v = d.putLin r m a v := by
  simp [Dev.regPut, h1, h2, show pageBlock a ≠ 1 by omega, show pageBlock a ≠ 2 by omega, show pageBlock a ≠ 3 by omega,
    show pageBlock a ≠ 4 by omega, show pageBlock a ≠ 5 by omega, show ¬ pageBlock a < 6 by omega, show ¬ pageBlock a < 26 by omega,
    show pageBlock a ≠ 26 by omega]

theorem regPut_eth (d : Dev) (r : RegDef) (m a v : Nat) (h1 : faultBlockOf a = none) (h2 : 35 ≤ pageBlock a ∧ pageBlock a < 55) :
    d.regPut r m a v = d.putEth r m a v := by
  simp [Dev.regPut, h1, h2, show pageBlock a ≠ 1 by omega, show pageBlock a ≠ 2 by omega, show pageBlock a ≠ 3 by omega,
    show pageBlock a ≠ 4 by omega, show pageBlock a ≠ 5 by omega, show ¬ pageBlock a < 6 by omega, show ¬ pageBlock a < 26 by omega,
    show pageBlock a ≠ 26 by omega, show ¬ pageBlock a < 35 by omega]

theorem regPut_ethc (d : Dev) (r : RegDef) (m a v : Nat) (h1 : faultBlockOf a = none) (h2 : pageBlock a = 55) :
    d.regPut r m a v = d.putEthc r m a v := by simp [Dev.regPut, h1, h2]

theorem regPut_time (d : Dev) (r : RegDef) (m a v : Nat) (h1 : faultBlockOf a = none) (h2 : pageBlock a = 56) :
    d.regPut r m a v = d.putTime r m a v := by simp [Dev.regPut, h1, h2]

theorem regPut_xptMem (d : Dev) (r : RegDef) (m v : Nat) :
    d.regPut r m R.XPT_MEM_CMD v = d.memCmd r m R.XPT_MEM_CMD v Dev.xptAccess := by
  simp [Dev.regPut, show faultBlockOf R.XPT_MEM_CMD = none from by decide +kernel, show pageBlock R.XPT_MEM_CMD = 57 from by decide +kernel]

theorem regPut_cry (d : Dev) (r : RegDef) (m a v : Nat) (h1 : faultBlockOf a = none) (h2 : pageBlock a = 58) :
    d.regPut r m a v = d.putCry r m a v := by simp [Dev.regPut, h1, h2]

theorem regPut_vault (d : Dev) (r : RegDef) (m a v : Nat) (h1 : faultBlockOf a = none) (h2 : pageBlock a = 59) :
    d.regPut r m a v = d.putVault r m a v := by simp [Dev.regPut, h1, h2]

theorem regPut_nm (d : Dev) (r : RegDef) (m a v : Nat) (h1 : faultBlockOf a = none) (h2 : pageBlock a = 60) :
    d.regPut r m a v = d.putNm r m a v := by simp [Dev.regPut, h1, h2]

theorem regPut_xcvr (d : Dev) (r : RegDef) (m a v : Nat) (h1 : faultBlockOf a = none) (h2 : pageBlock a = 61)
    (h3 : R.PWR_XCVR_CAN 0 ≤ a ∧ a < R.PWR_SW_CFG 0) : d.regPut r m a v = d.putXcvr r m a v := by simp [Dev.regPut, h1, h2, h3]

theorem regPut_load (d : Dev) (r : RegDef) (m a v : Nat) (h1 : faultBlockOf a = none) (h2 : pageBlock a = 62) (h3 : a < 0x1011000) :
    d.regPut r m a v = d.putLoad r m a v := by simp [Dev.regPut, h1, h2, h3]

theorem regPut_loadc (d : Dev) (r : RegDef) (m a v : Nat) (h1 : faultBlockOf a = none) (h2 : pageBlock a = 62) (h3 : ¬ a < 0x1011000) :
    d.regPut r m a v = d.putLoadc r m a v := by simp [Dev.regPut, h1, h2]; omega

theorem regPut_supv (d : Dev) (r : RegDef) (m a v : Nat) (h1 : faultBlockOf a = none) (h2 : pageBlock a = 63) :
    d.regPut r m a v = d.putSupv r m a v := by simp [Dev.regPut, h1, h2]

theorem regPut_test (d : Dev) (r : RegDef) (m a v : Nat) (h1 : faultBlockOf a = none) (h2 : pageBlock a = 64) :
    d.regPut r m a v = d.putTest r m a v := by simp [Dev.regPut, h1, h2]

theorem regPut_boot (d : Dev) (r : RegDef) (m a v : Nat) (h1 : faultBlockOf a = none) (h2 : pageBlock a = 65) :
    d.regPut r m a v = d.putBoot r m a v := by simp [Dev.regPut, h1, h2]

theorem regPut_fault (d : Dev) (r : RegDef) (m a v b : Nat) (h1 : faultBlockOf a = some b) :
    d.regPut r m a v = d.putFault r b m a v := by simp [Dev.regPut, h1]

/-! ### Words without behaviour of their own -/

/-- Only the written word and the record of write-once fields change. -/
theorem wordWrite_only (d : Dev) (r : RegDef) (a v : Nat) : d.regsOnly (d.wordWrite r a v).1 [a] :=
  only_setReg _ _ (by simp) (only_of (only_refl _ _) rfl)

theorem wordWrite_bus (d : Dev) (r : RegDef) (a v : Nat) :
    (d.wordWrite r a v).1 = { d with regs := (d.wordWrite r a v).1.regs, bus := (d.wordWrite r a v).1.bus } := rfl

/-! ### Writes of single fields -/

theorem bf_and (x m lo w : Nat) : bf (x &&& m) lo w = bf x lo w &&& bf m lo w := by
  apply Nat.eq_of_testBit_eq
  intro i
  rw [Nat.testBit_and, bf_eq_testBit, bf_eq_testBit, bf_eq_testBit, Nat.testBit_and]
  cases decide (i < w) <;> simp

/-- A mask that is all ones over a field keeps the field. -/
theorem bf_and_ones (x m lo w : Nat) (h : bf m lo w = 2 ^ w - 1) : bf (x &&& m) lo w = bf x lo w := by
  rw [bf_and, h, Nat.and_two_pow_sub_one_eq_mod, Nat.mod_eq_of_lt (bf_lt _ _ _)]

theorem bf_mod (x n lo w : Nat) (h : lo + w ≤ n) : bf (x % 2 ^ n) lo w = bf x lo w := by
  apply Nat.eq_of_testBit_eq
  intro i
  rw [bf_eq_testBit, bf_eq_testBit, Nat.testBit_mod_two_pow]
  by_cases hi : i < w
  · have : lo + i < n := by omega
    simp [this]
  · simp [hi]

/-- The word that a write of one field carries: the field's new value over what the register's other read-write fields hold. -/
def fieldWord (d : Dev) (r : RegDef) (a : Nat) (f : FieldRef) (x : Nat) : Nat :=
  setBf (d.reg a &&& r.mask (fun x => x == .rw || x == .rwl || x == .rwo)) f.lo f.w x % 2 ^ 32

/-- A permitted write of one field ends as its register's own effect. -/
theorem writeField_opens (d : Dev) (m a : Nat) (f : FieldRef) (x : Nat) (r : RegDef) (ho : d.opens m a) (hr : regDef a = some r)
    (hw : r.loWord = false) (hg : groupLo a = none) (h1 : a ≠ R.GLOBAL_IND_ADDR) (h2 : a ≠ R.GLOBAL_IND_DATA) :
    d.writeFields m a [(f, x)] = (d.beforeWrite m a).regPut r m a (fieldWord d r a f x) := by
  unfold Dev.writeFields
  rw [hr]
  exact write_opens _ _ _ _ r ho hr hw hg h1 h2

/-- The written field of that word. -/
theorem fieldWord_same (d : Dev) (r : RegDef) (a : Nat) (f : FieldRef) (x : Nat) (h : f.lo + f.w ≤ 32) :
    bf (fieldWord d r a f x) f.lo f.w = x % 2 ^ f.w := by
  unfold fieldWord
  rw [bf_mod _ _ _ _ h, bf_setBf_same]

/-- Another read-write field of it. -/
theorem fieldWord_ne (d : Dev) (r : RegDef) (a : Nat) (f : FieldRef) (x lo w : Nat) (h : lo + w ≤ 32)
    (hd : lo + w ≤ f.lo ∨ f.lo + f.w ≤ lo) (hm : bf (r.mask (fun x => x == .rw || x == .rwl || x == .rwo)) lo w = 2 ^ w - 1) :
    bf (fieldWord d r a f x) lo w = bf (d.reg a) lo w := by
  unfold fieldWord
  rw [bf_mod _ _ _ _ h, bf_setBf_ne _ _ _ _ _ _ hd, bf_and_ones _ _ _ _ hm]

end Sys2Proof.Machine
end

