-- ==== Sys2Proof/Laws/Ops.lean ====
section
/-!
SUPPORT. What ends of operations write and leave alone: the final status word with its completion, and the host memory it goes to.
-/
namespace Sys2Proof.Machine

theorem foldl_keep {α β : Type} (f : Dev → α) (op : Dev → β → Dev) (h : ∀ d x, f (op d x) = f d) (l : List β) (d : Dev) :
    f (l.foldl op d) = f d := by
  induction l generalizing d with
  | nil => rfl
  | cons a l ih => rw [List.foldl_cons, ih, h]

/-- What status words and completions keep, the end of an operation keeps. -/
theorem finish_keep {α : Type} (f : Dev → α) (h1 : ∀ d o e, f (d.putStatus o e) = f d) (h2 : ∀ d r b, f (d.complete r b) = f d)
    (h3 : ∀ (d : Dev) (h : HostSt), f { d with host := h } = f d) (d : Dev) (o : Op) (st : OpState) (err : Nat) :
    f (d.finish o st err) = f d := by
  unfold Dev.finish
  dsimp only
  rw [foldl_keep f _ (fun d a => by split <;> rw [h2, h1]), h3, h2]
  unfold Dev.dropOp
  rw [h3, h1]

@[simp] theorem finish_regs (d : Dev) (o : Op) (st : OpState) (err : Nat) : (d.finish o st err).regs = d.regs :=
  finish_keep (fun d => d.regs) (by simp) (by simp) (fun _ _ => rfl) d o st err
@[simp] theorem finish_tbl (d : Dev) (o : Op) (st : OpState) (err : Nat) : (d.finish o st err).tbl = d.tbl :=
  finish_keep (fun d => d.tbl) (by simp) (by simp) (fun _ _ => rfl) d o st err
@[simp] theorem finish_free (d : Dev) (o : Op) (st : OpState) (err : Nat) : (d.finish o st err).free = d.free :=
  finish_keep (fun d => d.free) (by simp) (by simp) (fun _ _ => rfl) d o st err
@[simp] theorem finish_anvil (d : Dev) (o : Op) (st : OpState) (err : Nat) : (d.finish o st err).anvil = d.anvil :=
  finish_keep (fun d => d.anvil) (by simp) (by simp) (fun _ _ => rfl) d o st err
@[simp] theorem finish_fwd (d : Dev) (o : Op) (st : OpState) (err : Nat) : (d.finish o st err).fwd = d.fwd :=
  finish_keep (fun d => d.fwd) (by simp) (by simp) (fun _ _ => rfl) d o st err
@[simp] theorem finish_tables (d : Dev) (o : Op) (st : OpState) (err : Nat) : (d.finish o st err).tables = d.tables :=
  finish_keep (fun d => d.tables) (by simp) (by simp) (fun _ _ => rfl) d o st err
@[simp] theorem finish_ste (d : Dev) (o : Op) (st : OpState) (err : Nat) : (d.finish o st err).ste = d.ste :=
  finish_keep (fun d => d.ste) (by simp) (by simp) (fun _ _ => rfl) d o st err
@[simp] theorem finish_can (d : Dev) (o : Op) (st : OpState) (err : Nat) : (d.finish o st err).can = d.can :=
  finish_keep (fun d => d.can) (by simp) (by simp) (fun _ _ => rfl) d o st err
@[simp] theorem finish_lin (d : Dev) (o : Op) (st : OpState) (err : Nat) : (d.finish o st err).lin = d.lin :=
  finish_keep (fun d => d.lin) (by simp) (by simp) (fun _ _ => rfl) d o st err
@[simp] theorem finish_eth (d : Dev) (o : Op) (st : OpState) (err : Nat) : (d.finish o st err).eth = d.eth :=
  finish_keep (fun d => d.eth) (by simp) (by simp) (fun _ _ => rfl) d o st err
@[simp] theorem finish_time (d : Dev) (o : Op) (st : OpState) (err : Nat) : (d.finish o st err).time = d.time :=
  finish_keep (fun d => d.time) (by simp) (by simp) (fun _ _ => rfl) d o st err
@[simp] theorem finish_xpt (d : Dev) (o : Op) (st : OpState) (err : Nat) : (d.finish o st err).xpt = d.xpt :=
  finish_keep (fun d => d.xpt) (by simp) (by simp) (fun _ _ => rfl) d o st err
@[simp] theorem finish_cry (d : Dev) (o : Op) (st : OpState) (err : Nat) : (d.finish o st err).cry = d.cry :=
  finish_keep (fun d => d.cry) (by simp) (by simp) (fun _ _ => rfl) d o st err
@[simp] theorem finish_vault (d : Dev) (o : Op) (st : OpState) (err : Nat) : (d.finish o st err).vault = d.vault :=
  finish_keep (fun d => d.vault) (by simp) (by simp) (fun _ _ => rfl) d o st err
@[simp] theorem finish_nm (d : Dev) (o : Op) (st : OpState) (err : Nat) : (d.finish o st err).nm = d.nm :=
  finish_keep (fun d => d.nm) (by simp) (by simp) (fun _ _ => rfl) d o st err
@[simp] theorem finish_load (d : Dev) (o : Op) (st : OpState) (err : Nat) : (d.finish o st err).load = d.load :=
  finish_keep (fun d => d.load) (by simp) (by simp) (fun _ _ => rfl) d o st err
@[simp] theorem finish_bus (d : Dev) (o : Op) (st : OpState) (err : Nat) : (d.finish o st err).bus = d.bus :=
  finish_keep (fun d => d.bus) (by simp) (by simp) (fun _ _ => rfl) d o st err
@[simp] theorem finish_flt (d : Dev) (o : Op) (st : OpState) (err : Nat) : (d.finish o st err).flt = d.flt :=
  finish_keep (fun d => d.flt) (by simp) (by simp) (fun _ _ => rfl) d o st err
@[simp] theorem finish_boot (d : Dev) (o : Op) (st : OpState) (err : Nat) : (d.finish o st err).boot = d.boot :=
  finish_keep (fun d => d.boot) (by simp) (by simp) (fun _ _ => rfl) d o st err
@[simp] theorem finish_pwr (d : Dev) (o : Op) (st : OpState) (err : Nat) : (d.finish o st err).pwr = d.pwr :=
  finish_keep (fun d => d.pwr) (by simp) (by simp) (fun _ _ => rfl) d o st err

/-- No operation of the ring and index is queued or running any more. -/
theorem finish_ops (d : Dev) (o : Op) (st : OpState) (err : Nat) :
    (d.finish o st err).host.ops = d.host.ops.filter (fun p => !p.same o) := by
  unfold Dev.finish
  dsimp only
  rw [foldl_keep (fun d => d.host.ops) _ (fun d a => by split <;> simp)]
  simp [Dev.dropOp, Op.same]

/-! ### Host memory -/

@[simp] theorem length_leBytes (n x : Nat) : (leBytes n x).length = n := by
  induction n generalizing x with
  | zero => rfl
  | succ n ih => simp [leBytes, ih]

theorem word_length (o : Op) (err : Nat) : (o.word err).length = 16 := by simp [Op.word]

/-- Writes far from a byte leave it alone. -/
theorem hostByte_putStatus_out (d : Dev) (o : Op) (err x : Nat) (h : ∀ i < 16, (o.status + i) % 2 ^ 64 ≠ x % 2 ^ 64) :
    (d.putStatus o err).hostByte x = d.hostByte x :=
  hostByte_write_out _ _ _ _ (fun i hi => h i (by rwa [word_length] at hi))

/-- The status word reads back. -/
theorem hostRead_putStatus (d : Dev) (o : Op) (err : Nat) : (d.putStatus o err).hostRead o.status 16 = o.word err := by
  have := hostRead_write d o.status (o.word err) (by rw [word_length]; decide)
  rw [word_length] at this; exact this

theorem hostRead_of {d e : Dev} (h : d.hostMem = e.hostMem) (a n : Nat) : d.hostRead a n = e.hostRead a n := by
  unfold Dev.hostRead Dev.hostByte; rw [h]

end Sys2Proof.Machine
end

