-- ==== Sys2Proof/Laws/Away.lean ====
section
/-!
SUPPORT. What the fault pages, the packet buffer and the ends of copies leave alone: tables, LOAD, VAULT, power, boot, network
management, crypto jobs, time, the bus, CAN, LIN, and the operations of the command rings. One lemma per operation.
-/
namespace Sys2Proof.Machine

/-- Everything away from registers, host memory, forwarding and what waits of it is the same. -/
structure Away (d e : Dev) : Prop where
  tbl : e.tbl = d.tbl
  load : e.load = d.load
  vault : e.vault = d.vault
  pwr : e.pwr = d.pwr
  boot : e.boot = d.boot
  nm : e.nm = d.nm
  cry : e.cry = d.cry
  time : e.time = d.time
  bus : e.bus = d.bus
  lin : e.lin = d.lin
  can : e.can = d.can
  ops : e.host.ops = d.host.ops
  unknown : e.host.unknown = d.host.unknown
  aborts : e.host.aborts = d.host.aborts

theorem Away.refl (d : Dev) : Away d d := by constructor <;> rfl

theorem Away.trans {d e g : Dev} (h : Away d e) (k : Away e g) : Away d g :=
  ⟨k.1.trans h.1, k.2.trans h.2, k.3.trans h.3, k.4.trans h.4, k.5.trans h.5, k.6.trans h.6, k.7.trans h.7, k.8.trans h.8,
   k.9.trans h.9, k.10.trans h.10, k.11.trans h.11, k.12.trans h.12, k.13.trans h.13, k.14.trans h.14⟩

theorem away_flt {d e : Dev} (x : FltSt) (h : Away d e) : Away d { e with flt := x } :=
  ⟨h.1, h.2, h.3, h.4, h.5, h.6, h.7, h.8, h.9, h.10, h.11, h.12, h.13, h.14⟩
theorem away_fltF {d e : Dev} (f : Dev → FltSt) (h : Away d e) : Away d { e with flt := f e } :=
  ⟨h.1, h.2, h.3, h.4, h.5, h.6, h.7, h.8, h.9, h.10, h.11, h.12, h.13, h.14⟩
theorem away_fwd {d e : Dev} (x : FwdSt) (h : Away d e) : Away d { e with fwd := x } :=
  ⟨h.1, h.2, h.3, h.4, h.5, h.6, h.7, h.8, h.9, h.10, h.11, h.12, h.13, h.14⟩
theorem away_anvil {d e : Dev} (x : AnvilSt) (h : Away d e) : Away d { e with anvil := x } :=
  ⟨h.1, h.2, h.3, h.4, h.5, h.6, h.7, h.8, h.9, h.10, h.11, h.12, h.13, h.14⟩
theorem away_eth {d e : Dev} (x : EthSt) (h : Away d e) : Away d { e with eth := x } :=
  ⟨h.1, h.2, h.3, h.4, h.5, h.6, h.7, h.8, h.9, h.10, h.11, h.12, h.13, h.14⟩
theorem away_xpt {d e : Dev} (x : XptSt) (h : Away d e) : Away d { e with xpt := x } :=
  ⟨h.1, h.2, h.3, h.4, h.5, h.6, h.7, h.8, h.9, h.10, h.11, h.12, h.13, h.14⟩
theorem away_txPend {d e : Dev} (x : List TxPend) (h : Away d e) : Away d { e with host := { e.host with txPend := x } } :=
  ⟨h.1, h.2, h.3, h.4, h.5, h.6, h.7, h.8, h.9, h.10, h.11, h.12, h.13, h.14⟩
theorem away_free {d e : Dev} (h : Away d e) : Away d e.tookFree :=
  ⟨h.1, h.2, h.3, h.4, h.5, h.6, h.7, h.8, h.9, h.10, h.11, h.12, h.13, h.14⟩

theorem away_setReg {d e : Dev} (a v : Nat) (h : Away d e) : Away d (e.setReg a v) :=
  ⟨h.1, h.2, h.3, h.4, h.5, h.6, h.7, h.8, h.9, h.10, h.11, h.12, h.13, h.14⟩
theorem away_set {d e : Dev} (f : FieldRef) (v : Nat) (h : Away d e) : Away d (e.set f v) :=
  h.trans (by constructor <;> simp)
theorem away_inc {d e : Dev} (f : FieldRef) (h : Away d e) : Away d (e.inc f) := h.trans (by constructor <;> simp)
theorem away_setBitOf {d e : Dev} (f : FieldRef) (i : Nat) (b : Bool) (h : Away d e) : Away d (e.setBitOf f i b) :=
  h.trans (by constructor <;> simp)
theorem away_hostWrite {d e : Dev} (a : Nat) (x : List Byte) (h : Away d e) : Away d (e.hostWrite a x) :=
  h.trans (by constructor <;> simp)
theorem away_complete {d e : Dev} (r : Nat) (b : Bool) (h : Away d e) : Away d (e.complete r b) := h.trans (by constructor <;> simp)
theorem away_ringAdvance {d e : Dev} (r n : Nat) (h : Away d e) : Away d (e.ringAdvance r n) := h.trans (by constructor <;> simp)
theorem away_eventPut {d e : Dev} (r : Nat) (x : List Byte) (h : Away d e) : Away d (e.eventPut r x) := h.trans (by constructor <;> simp)
theorem away_putStatus {d e : Dev} (o : Op) (x : Nat) (h : Away d e) : Away d (e.putStatus o x) := h.trans (by constructor <;> simp)
theorem away_fltIrq {d e : Dev} (b : Nat) (h : Away d e) : Away d (e.fltIrq b) := h.trans (by constructor <;> simp)
theorem away_fltSet {d e : Dev} (b i : Nat) (h : Away d e) : Away d (e.fltSet b i) := h.trans (by constructor <;> simp)
theorem away_setWin {d e : Dev} (b : Nat) (x : List Nat) (h : Away d e) : Away d (e.setWin b x) := h.trans (by constructor <;> simp)
theorem away_fnHold {d e : Dev} (b : Nat) (x : Bool) (h : Away d e) : Away d (e.fnHold b x) := h.trans (by constructor <;> simp)
theorem away_event61 {d e : Dev} (ty b i acc re : Nat) (x : List Byte) (h : Away d e) : Away d (e.event61 ty b i acc re x) :=
  h.trans (by constructor <;> simp)

theorem away_ite {d x y : Dev} (c : Bool) (hx : Away d x) (hy : Away d y) : Away d (if c then x else y) := by
  cases c
  · exact hy
  · exact hx

theorem away_fold {α : Type} {d : Dev} (op : Dev → α → Dev) (h : ∀ e x, Away d e → Away d (op e x)) (l : List α) {e : Dev}
    (he : Away d e) : Away d (l.foldl op e) := by
  induction l generalizing e with
  | nil => exact he
  | cons a l ih => exact ih (h _ _ he)

/-! ### Fault pages -/

theorem away_isolate {d e : Dev} (b : Nat) (h : Away d e) : Away d (e.isolate b) := by
  unfold Dev.isolate
  have h1 : Away d ((e.fltSet b 29).event61 0x0A b 29 (accNone * 8) 0 []) := away_event61 _ _ _ _ _ _ (away_fltSet _ _ h)
  split
  · exact h
  dsimp only
  split
  · exact away_flt _ h1
  split
  · exact away_flt _ h1
  split
  · exact away_flt _ h1
  split
  · exact away_fold _ (fun e r he => away_set _ _ he) _ h1
  · exact h1

theorem away_severe {d e : Dev} (b i : Nat) (h : Away d e) : Away d (e.severe b i) := by
  unfold Dev.severe
  have h1 : Away d ((((e.fltSet b 30).inc (F.FLT_SEV_COUNT_COUNT b)).inc F.TEST_SEV_TOTAL_COUNT).setWin b []) :=
    away_setWin _ _ (away_inc _ (away_inc _ (away_fltSet _ _ h)))
  have h2 := away_ite (bit (e.get (F.FLT_REACT_REACT b)) 2) (away_fnHold b true h1) h1
  have h3 := away_ite (bit (e.get (F.FLT_REACT_REACT b)) 1) (away_isolate b h2) h2
  have h4 := away_ite (bit (e.get (F.FLT_REACT_REACT b)) 3) (away_fltF (fun g => { g.flt with todo := g.flt.todo ++ [.loadSafe] }) h3) h3
  have h5 := fun x => away_event61 0x02 b i (accNone * 8) (e.get (F.FLT_REACT_REACT b)) x h4
  have h6 := fun x => away_ite (bit (e.get (F.FLT_REACT_REACT b)) 0) (away_fltIrq b (h5 x)) (h5 x)
  exact away_ite (bit (e.get (F.FLT_REACT_REACT b)) 4)
    (away_fltF (fun g => { g.flt with warm := some (min b (g.flt.warm.getD b)) }) (h6 _)) (h6 _)

theorem away_countEvent {d e : Dev} (b i : Nat) (h : Away d e) : Away d (e.countEvent b i) := by
  unfold Dev.countEvent
  have h1 : ∀ x, Away d ((e.inc (F.FLT_EVT_TOTAL_COUNT b)).setWin b x) := fun x => away_setWin _ _ (away_inc _ h)
  dsimp only
  split
  · exact away_severe _ _ (h1 _)
  · exact h1 _

theorem away_fault {d e : Dev} (b i : Nat) (h : Away d e) : Away d (e.fault b i) := away_countEvent _ _ (away_fltSet _ _ h)

theorem away_capture {d e : Dev} (b i : Nat) (a : Access) (h : Away d e) : Away d (e.capture b i a).1 := by
  unfold Dev.capture
  split
  · exact away_inc (F.FLT_FEC_LOST_COUNT b) h
  · exact away_event61 _ _ _ _ _ _ (away_set _ _ (away_setReg _ _ (away_setReg _ _ h)))

theorem away_faultCapture {d e : Dev} (b i : Nat) (a : Access) (c : Bool) (h : Away d e) : Away d (e.faultCapture b i a c) := by
  unfold Dev.faultCapture
  have h1 : Away d ((e.fltSet b i).capture b i a).1 := away_capture _ _ _ (away_fltSet _ _ h)
  dsimp only
  split
  · exact away_countEvent _ _ h1
  · exact h1

theorem away_flaggedWrite {d e : Dev} (b m a : Nat) (h : Away d e) : Away d (e.flaggedWrite b m a) := away_faultCapture _ _ _ _ h

/-! ### The packet buffer -/

theorem away_setFrame {d e : Dev} (k : Nat) (f : Option Frame) (h : Away d e) : Away d (e.setFrame k f) := away_fwd _ h
theorem away_setCopy {d e : Dev} (c : Copy) (h : Away d e) : Away d (e.setCopy c) := away_fwd _ h
theorem away_unlistCopy {d e : Dev} (c : Copy) (h : Away d e) : Away d (e.unlistCopy c) := away_fwd _ h
theorem away_setContract {d e : Dev} (i : Nat) (c : Option Contract) (h : Away d e) : Away d (e.setContract i c) := away_anvil _ h
theorem away_setEthPort {d e : Dev} (p : Nat) (x : EthPort) (h : Away d e) : Away d (e.setEthPort p x) := away_eth _ h
theorem away_setSess {d e : Dev} (k : Nat) (x : Option Sess) (h : Away d e) : Away d (e.setSess k x) := away_xpt _ h

theorem away_cntAdd {d e : Dev} (f : Nat → FieldRef) (p n : Nat) (h : Away d e) : Away d (e.cntAdd f p n) := by
  unfold Dev.cntAdd; split
  · exact away_set _ _ h
  · exact h
theorem away_cnt {d e : Dev} (f : Nat → FieldRef) (p : Nat) (h : Away d e) : Away d (e.cnt f p) := away_cntAdd _ _ _ h

theorem away_wmUpdate {d e : Dev} (p q : Nat) (h : Away d e) : Away d (e.wmUpdate p q) := by
  unfold Dev.wmUpdate
  split
  · exact h
  dsimp only
  generalize (if e.get (F.FWD_WM_HIGH p q) == 0 then false else _) = now
  split
  · exact h
  have h1 : Away d (e.setBitOf (F.FWD_WM_STATE_XOFF p) q now) := away_setBitOf _ _ _ h
  split
  · exact away_fwd _ h1
  · exact h1

theorem away_uncharge {d e : Dev} (l : List (Nat × Nat × Nat)) (h : Away d e) : Away d (e.uncharge l) := by
  unfold Dev.uncharge
  refine away_fold _ (fun e x he => ?_) _ h
  split
  · exact away_setContract _ _ he
  · exact he

theorem away_releaseIf {d e : Dev} (k : Nat) (h : Away d e) : Away d (e.releaseIf k) := by
  unfold Dev.releaseIf
  split
  · exact h
  split
  · exact h
  split
  · exact h
  · exact away_wmUpdate _ _ (away_uncharge _ (away_setFrame _ _ h))

theorem away_breach {d e : Dev} (i p r b : Nat) (h : Away d e) : Away d (e.breach i p r b) := by
  unfold Dev.breach
  exact away_set _ _ (away_set _ _ (away_set _ _ (away_countEvent _ _ (away_inc _ (away_event61 _ _ _ _ _ _ (away_fltSet _ _ h))))))

theorem away_measUpdate {d e : Dev} (i : Nat) (g : Meas → Meas) (h : Away d e) : Away d (e.measUpdate i g) := by
  unfold Dev.measUpdate
  split
  · exact h
  split
  · exact away_setContract _ _ h
  · exact h

theorem away_lost {d e : Dev} (i p : Nat) (x l : Bool) (h : Away d e) : Away d (e.lost i p x l) := by
  unfold Dev.lost
  split
  · exact h
  rename_i k _
  have h1 := away_ite l (away_measUpdate i (fun m => { m with late := if x then m.late else sat32 m.late }) h) h
  have h2 := away_ite x (away_measUpdate i (fun m => { m with excused := sat32 m.excused }) h1)
    (away_breach i p 0xFFFFFFFF k.bound (away_measUpdate i (fun m => { m with breaches := sat32 m.breaches }) h1))
  exact h2

theorem away_lostFrame {d e : Dev} (f : Frame) (p : Nat) (x l : Bool) (h : Away d e) : Away d (e.lostFrame f p x l) :=
  away_fold _ (fun _ i he => away_lost i p x l he) _ h

theorem away_measureOne {d e : Dev} (c : Copy) (f : Frame) (x i : Nat) (h : Away d e) : Away d (e.measureOne c f x i) := by
  unfold Dev.measureOne
  split
  · exact h
  · dsimp only
    split
    · split
      · exact away_inc _ (away_measUpdate _ _ h)
      · exact away_measUpdate _ _ h
    · split
      · exact away_breach _ _ _ _ (away_measUpdate _ _ h)
      · exact away_measUpdate _ _ h

theorem away_measure {d e : Dev} (c : Copy) (f : Frame) (x : Nat) (h : Away d e) : Away d (e.measure c f x) :=
  away_fold _ (fun _ i he => away_measureOne c f x i he) _ h

theorem away_txSet {d e : Dev} (t : TxPend) (h : Away d e) : Away d (e.txSet t) := away_txPend _ h

theorem away_txComplete {d e : Dev} (t : TxPend) (x : Nat) (h : Away d e) : Away d (e.txComplete t x) := by
  unfold Dev.txComplete
  exact away_complete _ _ (away_txPend _ (away_hostWrite _ _ h))

theorem away_txCopyEnd {d e : Dev} (t : Option (Nat × Nat)) (x : Option Nat) (h : Away d e) : Away d (e.txCopyEnd t x) := by
  unfold Dev.txCopyEnd
  split
  · exact h
  split
  · exact h
  dsimp only
  repeat' split
  all_goals first
    | exact away_txComplete _ _ (away_txSet _ h)
    | exact away_txSet _ h

theorem away_txDropped {d e : Dev} (t : Option (Nat × Nat)) (x : Option Nat) (h : Away d e) : Away d (e.txDropped t x) := by
  unfold Dev.txDropped
  split
  · exact h
  · exact away_txCopyEnd _ _ h
  · exact away_txCopyEnd _ _ (away_free h)

theorem away_txBegun {d e : Dev} (t : Option (Nat × Nat)) (h : Away d e) : Away d (e.txBegun t) := by
  unfold Dev.txBegun
  split
  · exact h
  split
  · exact h
  · exact away_txSet _ h

theorem away_txCut {d e : Dev} (t : Option (Nat × Nat)) (p : Nat) (x : Option Nat) (h : Away d e) : Away d (e.txCut t p x) := by
  unfold Dev.txCut
  dsimp only
  split
  · exact away_txCopyEnd _ _ (away_txBegun _ h)
  · exact away_txDropped _ _ (away_txBegun _ h)

theorem away_dropCount {d e : Dev} (c : Copy) (r : Drop) (h : Away d e) : Away d (e.dropCount c r) := by
  unfold Dev.dropCount
  cases r <;> first | exact h | exact away_cnt _ _ h

theorem away_dropKind {d e : Dev} (c : Copy) (r : Drop) (h : Away d e) : Away d (e.dropKind c r) := by
  unfold Dev.dropKind
  split
  · split
    · exact away_inc _ h
    · exact h
  · exact away_fltSet _ _ (away_inc _ h)
  · exact away_fltSet _ _ (away_inc _ h)
  · exact away_fltSet _ _ (away_inc _ h)
  · exact away_flt _ h
  · exact h

theorem away_dropCopy {d e : Dev} (c : Copy) (r : Drop) (h : Away d e) : Away d (e.dropCopy c r) := by
  have h1 : Away d (((e.unlistCopy c).dropCount c r).dropKind c r) := away_dropKind _ _ (away_dropCount _ _ (away_unlistCopy _ h))
  unfold Dev.dropCopy
  dsimp only
  split
  · exact h1
  · rename_i f _
    have h2 := away_ite (c.started && decide (c.port < 20)) h1
      (away_lostFrame f c.port ((((e.unlistCopy c).dropCount c r).dropKind c r).isExcused c f) (r == Drop.late) h1)
    exact away_releaseIf _ (away_ite c.started (away_txCut _ _ _ h2) (away_txDropped _ _ h2))

theorem away_utilise {d e : Dev} (p rx tx : Nat) (h : Away d e) : Away d (e.utilise p rx tx) := by
  unfold Dev.utilise; split
  · exact h
  · exact away_setEthPort _ _ h

theorem away_endCopy {d e : Dev} (c : Copy) (h : Away d e) : Away d (e.endCopy c) := by
  unfold Dev.endCopy
  dsimp only
  split
  · exact away_unlistCopy _ h
  · exact away_releaseIf _ (away_txCopyEnd _ _ (away_unlistCopy _ h))

theorem away_sentCopy {d e : Dev} (c : Copy) (n : Nat) (h : Away d e) : Away d (e.sentCopy c n) :=
  away_endCopy _ (away_cnt _ _ (away_utilise _ _ _ (away_cntAdd _ _ _ (away_cnt _ _ h))))

/-! ### Transport sessions -/

theorem away_nCount {d e : Dev} (r : Nat) (t : Bool) (h : Away d e) : Away d (e.nCount r t) := by
  unfold Dev.nCount
  split <;> first | exact h | exact away_inc _ h

theorem away_xptWithdraw {d e : Dev} (k : Nat) (h : Away d e) : Away d (e.xptWithdraw k) := by
  unfold Dev.xptWithdraw
  split
  · split
    · exact away_setCopy _ h
    · exact away_dropCopy _ _ (away_setCopy _ h)
  · exact h

theorem away_endSess {d e : Dev} (k : Nat) (h : Away d e) : Away d (e.endSess k) := away_xpt _ (away_setSess k none h)

theorem away_xptQuiet {d e : Dev} (k : Nat) (h : Away d e) : Away d (e.xptQuiet k) := by
  unfold Dev.xptQuiet
  split
  · exact h
  dsimp only
  have h2 : Away d ((e.xptWithdraw k).endSess k) := away_endSess _ (away_xptWithdraw _ h)
  split
  · split
    · exact away_releaseIf _ (away_setFrame _ _ h2)
    · exact h2
  · exact h2

/-! ### A HOST reset -/

theorem away_resetRegs {d e : Dev} (lo hi : Nat) (h : Away d e) : Away d (e.resetRegs lo hi) :=
  ⟨h.1, h.2, h.3, h.4, h.5, h.6, h.7, h.8, h.9, h.10, h.11, h.12, h.13, h.14⟩

/-- A register between the bounds reads its Reset value, any other as before. -/
theorem reg_resetRegs (d : Dev) (lo hi a : Nat) :
    (d.resetRegs lo hi).reg a = if a < lo ∨ hi ≤ a then d.reg a else resetVal a % 2 ^ 32 := by
  have h := SMap.find_filter (fun k => decide (k < lo) || decide (hi ≤ k)) d.regs a
  unfold Dev.reg Dev.resetRegs SMap.get
  dsimp only
  rw [h]
  by_cases c : a < lo ∨ hi ≤ a
  · rw [if_pos (by simpa using c), if_pos c]
  · rw [if_neg (by simpa using c), if_neg c]
    simp [regDefault]

end Sys2Proof.Machine
end

