-- ==== Sys2Proof/Laws/Entry.lean ====
section
/-!
SUPPORT. What a change of a table entry leaves alone (its frame), one lemma per field.
-/
namespace Sys2Proof.Machine


/-! ### `genBump` -/

@[simp] theorem genBump_hostMem (d : Dev) (t c : Nat) : (d.genBump t c).hostMem = d.hostMem := by
  (unfold Dev.genBump) <;> (try dsimp only) <;> (repeat' split) <;> simp
@[simp] theorem genBump_out (d : Dev) (t c : Nat) : (d.genBump t c).out = d.out := by
  (unfold Dev.genBump) <;> (try dsimp only) <;> (repeat' split) <;> simp
@[simp] theorem genBump_free (d : Dev) (t c : Nat) : (d.genBump t c).free = d.free := by
  (unfold Dev.genBump) <;> (try dsimp only) <;> (repeat' split) <;> simp
@[simp] theorem genBump_anvil (d : Dev) (t c : Nat) : (d.genBump t c).anvil = d.anvil := by
  (unfold Dev.genBump) <;> (try dsimp only) <;> (repeat' split) <;> simp
@[simp] theorem genBump_fwd (d : Dev) (t c : Nat) : (d.genBump t c).fwd = d.fwd := by
  (unfold Dev.genBump) <;> (try dsimp only) <;> (repeat' split) <;> simp
@[simp] theorem genBump_ste (d : Dev) (t c : Nat) : (d.genBump t c).ste = d.ste := by
  (unfold Dev.genBump) <;> (try dsimp only) <;> (repeat' split) <;> simp
@[simp] theorem genBump_can (d : Dev) (t c : Nat) : (d.genBump t c).can = d.can := by
  (unfold Dev.genBump) <;> (try dsimp only) <;> (repeat' split) <;> simp
@[simp] theorem genBump_lin (d : Dev) (t c : Nat) : (d.genBump t c).lin = d.lin := by
  (unfold Dev.genBump) <;> (try dsimp only) <;> (repeat' split) <;> simp
@[simp] theorem genBump_eth (d : Dev) (t c : Nat) : (d.genBump t c).eth = d.eth := by
  (unfold Dev.genBump) <;> (try dsimp only) <;> (repeat' split) <;> simp
@[simp] theorem genBump_time (d : Dev) (t c : Nat) : (d.genBump t c).time = d.time := by
  (unfold Dev.genBump) <;> (try dsimp only) <;> (repeat' split) <;> simp
@[simp] theorem genBump_xpt (d : Dev) (t c : Nat) : (d.genBump t c).xpt = d.xpt := by
  (unfold Dev.genBump) <;> (try dsimp only) <;> (repeat' split) <;> simp
@[simp] theorem genBump_cry (d : Dev) (t c : Nat) : (d.genBump t c).cry = d.cry := by
  (unfold Dev.genBump) <;> (try dsimp only) <;> (repeat' split) <;> simp
@[simp] theorem genBump_vault (d : Dev) (t c : Nat) : (d.genBump t c).vault = d.vault := by
  (unfold Dev.genBump) <;> (try dsimp only) <;> (repeat' split) <;> simp
@[simp] theorem genBump_nm (d : Dev) (t c : Nat) : (d.genBump t c).nm = d.nm := by
  (unfold Dev.genBump) <;> (try dsimp only) <;> (repeat' split) <;> simp
@[simp] theorem genBump_load (d : Dev) (t c : Nat) : (d.genBump t c).load = d.load := by
  (unfold Dev.genBump) <;> (try dsimp only) <;> (repeat' split) <;> simp
@[simp] theorem genBump_host (d : Dev) (t c : Nat) : (d.genBump t c).host = d.host := by
  (unfold Dev.genBump) <;> (try dsimp only) <;> (repeat' split) <;> simp
@[simp] theorem genBump_bus (d : Dev) (t c : Nat) : (d.genBump t c).bus = d.bus := by
  (unfold Dev.genBump) <;> (try dsimp only) <;> (repeat' split) <;> simp
@[simp] theorem genBump_flt (d : Dev) (t c : Nat) : (d.genBump t c).flt = d.flt := by
  (unfold Dev.genBump) <;> (try dsimp only) <;> (repeat' split) <;> simp
@[simp] theorem genBump_boot (d : Dev) (t c : Nat) : (d.genBump t c).boot = d.boot := by
  (unfold Dev.genBump) <;> (try dsimp only) <;> (repeat' split) <;> simp
@[simp] theorem genBump_pwr (d : Dev) (t c : Nat) : (d.genBump t c).pwr = d.pwr := by
  (unfold Dev.genBump) <;> (try dsimp only) <;> (repeat' split) <;> simp

/-! ### `genStamp` -/

@[simp] theorem genStamp_hostMem (d : Dev) (t c i : Nat) : (d.genStamp t c i).hostMem = d.hostMem := by
  (unfold Dev.genStamp) <;> (try dsimp only) <;> (repeat' split) <;> simp
@[simp] theorem genStamp_out (d : Dev) (t c i : Nat) : (d.genStamp t c i).out = d.out := by
  (unfold Dev.genStamp) <;> (try dsimp only) <;> (repeat' split) <;> simp
@[simp] theorem genStamp_free (d : Dev) (t c i : Nat) : (d.genStamp t c i).free = d.free := by
  (unfold Dev.genStamp) <;> (try dsimp only) <;> (repeat' split) <;> simp
@[simp] theorem genStamp_anvil (d : Dev) (t c i : Nat) : (d.genStamp t c i).anvil = d.anvil := by
  (unfold Dev.genStamp) <;> (try dsimp only) <;> (repeat' split) <;> simp
@[simp] theorem genStamp_fwd (d : Dev) (t c i : Nat) : (d.genStamp t c i).fwd = d.fwd := by
  (unfold Dev.genStamp) <;> (try dsimp only) <;> (repeat' split) <;> simp
@[simp] theorem genStamp_ste (d : Dev) (t c i : Nat) : (d.genStamp t c i).ste = d.ste := by
  (unfold Dev.genStamp) <;> (try dsimp only) <;> (repeat' split) <;> simp
@[simp] theorem genStamp_can (d : Dev) (t c i : Nat) : (d.genStamp t c i).can = d.can := by
  (unfold Dev.genStamp) <;> (try dsimp only) <;> (repeat' split) <;> simp
@[simp] theorem genStamp_lin (d : Dev) (t c i : Nat) : (d.genStamp t c i).lin = d.lin := by
  (unfold Dev.genStamp) <;> (try dsimp only) <;> (repeat' split) <;> simp
@[simp] theorem genStamp_eth (d : Dev) (t c i : Nat) : (d.genStamp t c i).eth = d.eth := by
  (unfold Dev.genStamp) <;> (try dsimp only) <;> (repeat' split) <;> simp
@[simp] theorem genStamp_time (d : Dev) (t c i : Nat) : (d.genStamp t c i).time = d.time := by
  (unfold Dev.genStamp) <;> (try dsimp only) <;> (repeat' split) <;> simp
@[simp] theorem genStamp_xpt (d : Dev) (t c i : Nat) : (d.genStamp t c i).xpt = d.xpt := by
  (unfold Dev.genStamp) <;> (try dsimp only) <;> (repeat' split) <;> simp
@[simp] theorem genStamp_cry (d : Dev) (t c i : Nat) : (d.genStamp t c i).cry = d.cry := by
  (unfold Dev.genStamp) <;> (try dsimp only) <;> (repeat' split) <;> simp
@[simp] theorem genStamp_vault (d : Dev) (t c i : Nat) : (d.genStamp t c i).vault = d.vault := by
  (unfold Dev.genStamp) <;> (try dsimp only) <;> (repeat' split) <;> simp
@[simp] theorem genStamp_nm (d : Dev) (t c i : Nat) : (d.genStamp t c i).nm = d.nm := by
  (unfold Dev.genStamp) <;> (try dsimp only) <;> (repeat' split) <;> simp
@[simp] theorem genStamp_load (d : Dev) (t c i : Nat) : (d.genStamp t c i).load = d.load := by
  (unfold Dev.genStamp) <;> (try dsimp only) <;> (repeat' split) <;> simp
@[simp] theorem genStamp_host (d : Dev) (t c i : Nat) : (d.genStamp t c i).host = d.host := by
  (unfold Dev.genStamp) <;> (try dsimp only) <;> (repeat' split) <;> simp
@[simp] theorem genStamp_bus (d : Dev) (t c i : Nat) : (d.genStamp t c i).bus = d.bus := by
  (unfold Dev.genStamp) <;> (try dsimp only) <;> (repeat' split) <;> simp
@[simp] theorem genStamp_flt (d : Dev) (t c i : Nat) : (d.genStamp t c i).flt = d.flt := by
  (unfold Dev.genStamp) <;> (try dsimp only) <;> (repeat' split) <;> simp
@[simp] theorem genStamp_boot (d : Dev) (t c i : Nat) : (d.genStamp t c i).boot = d.boot := by
  (unfold Dev.genStamp) <;> (try dsimp only) <;> (repeat' split) <;> simp
@[simp] theorem genStamp_pwr (d : Dev) (t c i : Nat) : (d.genStamp t c i).pwr = d.pwr := by
  (unfold Dev.genStamp) <;> (try dsimp only) <;> (repeat' split) <;> simp

/-! ### `entryPut` -/

@[simp] theorem entryPut_hostMem (d : Dev) (t c i v : Nat) : (d.entryPut t c i v).hostMem = d.hostMem := by
  (unfold Dev.entryPut) <;> (try dsimp only) <;> (repeat' split) <;> simp
@[simp] theorem entryPut_out (d : Dev) (t c i v : Nat) : (d.entryPut t c i v).out = d.out := by
  (unfold Dev.entryPut) <;> (try dsimp only) <;> (repeat' split) <;> simp
@[simp] theorem entryPut_free (d : Dev) (t c i v : Nat) : (d.entryPut t c i v).free = d.free := by
  (unfold Dev.entryPut) <;> (try dsimp only) <;> (repeat' split) <;> simp
@[simp] theorem entryPut_anvil (d : Dev) (t c i v : Nat) : (d.entryPut t c i v).anvil = d.anvil := by
  (unfold Dev.entryPut) <;> (try dsimp only) <;> (repeat' split) <;> simp
@[simp] theorem entryPut_fwd (d : Dev) (t c i v : Nat) : (d.entryPut t c i v).fwd = d.fwd := by
  (unfold Dev.entryPut) <;> (try dsimp only) <;> (repeat' split) <;> simp
@[simp] theorem entryPut_ste (d : Dev) (t c i v : Nat) : (d.entryPut t c i v).ste = d.ste := by
  (unfold Dev.entryPut) <;> (try dsimp only) <;> (repeat' split) <;> simp
@[simp] theorem entryPut_can (d : Dev) (t c i v : Nat) : (d.entryPut t c i v).can = d.can := by
  (unfold Dev.entryPut) <;> (try dsimp only) <;> (repeat' split) <;> simp
@[simp] theorem entryPut_lin (d : Dev) (t c i v : Nat) : (d.entryPut t c i v).lin = d.lin := by
  (unfold Dev.entryPut) <;> (try dsimp only) <;> (repeat' split) <;> simp
@[simp] theorem entryPut_eth (d : Dev) (t c i v : Nat) : (d.entryPut t c i v).eth = d.eth := by
  (unfold Dev.entryPut) <;> (try dsimp only) <;> (repeat' split) <;> simp
@[simp] theorem entryPut_time (d : Dev) (t c i v : Nat) : (d.entryPut t c i v).time = d.time := by
  (unfold Dev.entryPut) <;> (try dsimp only) <;> (repeat' split) <;> simp
@[simp] theorem entryPut_xpt (d : Dev) (t c i v : Nat) : (d.entryPut t c i v).xpt = d.xpt := by
  (unfold Dev.entryPut) <;> (try dsimp only) <;> (repeat' split) <;> simp
@[simp] theorem entryPut_cry (d : Dev) (t c i v : Nat) : (d.entryPut t c i v).cry = d.cry := by
  (unfold Dev.entryPut) <;> (try dsimp only) <;> (repeat' split) <;> simp
@[simp] theorem entryPut_vault (d : Dev) (t c i v : Nat) : (d.entryPut t c i v).vault = d.vault := by
  (unfold Dev.entryPut) <;> (try dsimp only) <;> (repeat' split) <;> simp
@[simp] theorem entryPut_nm (d : Dev) (t c i v : Nat) : (d.entryPut t c i v).nm = d.nm := by
  (unfold Dev.entryPut) <;> (try dsimp only) <;> (repeat' split) <;> simp
@[simp] theorem entryPut_load (d : Dev) (t c i v : Nat) : (d.entryPut t c i v).load = d.load := by
  (unfold Dev.entryPut) <;> (try dsimp only) <;> (repeat' split) <;> simp
@[simp] theorem entryPut_host (d : Dev) (t c i v : Nat) : (d.entryPut t c i v).host = d.host := by
  (unfold Dev.entryPut) <;> (try dsimp only) <;> (repeat' split) <;> simp
@[simp] theorem entryPut_bus (d : Dev) (t c i v : Nat) : (d.entryPut t c i v).bus = d.bus := by
  (unfold Dev.entryPut) <;> (try dsimp only) <;> (repeat' split) <;> simp
@[simp] theorem entryPut_flt (d : Dev) (t c i v : Nat) : (d.entryPut t c i v).flt = d.flt := by
  (unfold Dev.entryPut) <;> (try dsimp only) <;> (repeat' split) <;> simp
@[simp] theorem entryPut_boot (d : Dev) (t c i v : Nat) : (d.entryPut t c i v).boot = d.boot := by
  (unfold Dev.entryPut) <;> (try dsimp only) <;> (repeat' split) <;> simp
@[simp] theorem entryPut_pwr (d : Dev) (t c i v : Nat) : (d.entryPut t c i v).pwr = d.pwr := by
  (unfold Dev.entryPut) <;> (try dsimp only) <;> (repeat' split) <;> simp

/-! ### `entryChange` -/

@[simp] theorem entryChange_hostMem (d : Dev) (t c i v : Nat) : (d.entryChange t c i v).hostMem = d.hostMem := by
  (unfold Dev.entryChange) <;> (try dsimp only) <;> (repeat' split) <;> simp
@[simp] theorem entryChange_out (d : Dev) (t c i v : Nat) : (d.entryChange t c i v).out = d.out := by
  (unfold Dev.entryChange) <;> (try dsimp only) <;> (repeat' split) <;> simp
@[simp] theorem entryChange_free (d : Dev) (t c i v : Nat) : (d.entryChange t c i v).free = d.free := by
  (unfold Dev.entryChange) <;> (try dsimp only) <;> (repeat' split) <;> simp
@[simp] theorem entryChange_anvil (d : Dev) (t c i v : Nat) : (d.entryChange t c i v).anvil = d.anvil := by
  (unfold Dev.entryChange) <;> (try dsimp only) <;> (repeat' split) <;> simp
@[simp] theorem entryChange_fwd (d : Dev) (t c i v : Nat) : (d.entryChange t c i v).fwd = d.fwd := by
  (unfold Dev.entryChange) <;> (try dsimp only) <;> (repeat' split) <;> simp
@[simp] theorem entryChange_ste (d : Dev) (t c i v : Nat) : (d.entryChange t c i v).ste = d.ste := by
  (unfold Dev.entryChange) <;> (try dsimp only) <;> (repeat' split) <;> simp
@[simp] theorem entryChange_can (d : Dev) (t c i v : Nat) : (d.entryChange t c i v).can = d.can := by
  (unfold Dev.entryChange) <;> (try dsimp only) <;> (repeat' split) <;> simp
@[simp] theorem entryChange_lin (d : Dev) (t c i v : Nat) : (d.entryChange t c i v).lin = d.lin := by
  (unfold Dev.entryChange) <;> (try dsimp only) <;> (repeat' split) <;> simp
@[simp] theorem entryChange_eth (d : Dev) (t c i v : Nat) : (d.entryChange t c i v).eth = d.eth := by
  (unfold Dev.entryChange) <;> (try dsimp only) <;> (repeat' split) <;> simp
@[simp] theorem entryChange_time (d : Dev) (t c i v : Nat) : (d.entryChange t c i v).time = d.time := by
  (unfold Dev.entryChange) <;> (try dsimp only) <;> (repeat' split) <;> simp
@[simp] theorem entryChange_xpt (d : Dev) (t c i v : Nat) : (d.entryChange t c i v).xpt = d.xpt := by
  (unfold Dev.entryChange) <;> (try dsimp only) <;> (repeat' split) <;> simp
@[simp] theorem entryChange_cry (d : Dev) (t c i v : Nat) : (d.entryChange t c i v).cry = d.cry := by
  (unfold Dev.entryChange) <;> (try dsimp only) <;> (repeat' split) <;> simp
@[simp] theorem entryChange_vault (d : Dev) (t c i v : Nat) : (d.entryChange t c i v).vault = d.vault := by
  (unfold Dev.entryChange) <;> (try dsimp only) <;> (repeat' split) <;> simp
@[simp] theorem entryChange_nm (d : Dev) (t c i v : Nat) : (d.entryChange t c i v).nm = d.nm := by
  (unfold Dev.entryChange) <;> (try dsimp only) <;> (repeat' split) <;> simp
@[simp] theorem entryChange_load (d : Dev) (t c i v : Nat) : (d.entryChange t c i v).load = d.load := by
  (unfold Dev.entryChange) <;> (try dsimp only) <;> (repeat' split) <;> simp
@[simp] theorem entryChange_host (d : Dev) (t c i v : Nat) : (d.entryChange t c i v).host = d.host := by
  (unfold Dev.entryChange) <;> (try dsimp only) <;> (repeat' split) <;> simp
@[simp] theorem entryChange_bus (d : Dev) (t c i v : Nat) : (d.entryChange t c i v).bus = d.bus := by
  (unfold Dev.entryChange) <;> (try dsimp only) <;> (repeat' split) <;> simp
@[simp] theorem entryChange_flt (d : Dev) (t c i v : Nat) : (d.entryChange t c i v).flt = d.flt := by
  (unfold Dev.entryChange) <;> (try dsimp only) <;> (repeat' split) <;> simp
@[simp] theorem entryChange_boot (d : Dev) (t c i v : Nat) : (d.entryChange t c i v).boot = d.boot := by
  (unfold Dev.entryChange) <;> (try dsimp only) <;> (repeat' split) <;> simp
@[simp] theorem entryChange_pwr (d : Dev) (t c i v : Nat) : (d.entryChange t c i v).pwr = d.pwr := by
  (unfold Dev.entryChange) <;> (try dsimp only) <;> (repeat' split) <;> simp

/-! ### `entryWrite` -/

@[simp] theorem entryWrite_hostMem (d : Dev) (t i v : Nat) : (d.entryWrite t i v).hostMem = d.hostMem := by
  (unfold Dev.entryWrite) <;> (try dsimp only) <;> (repeat' split) <;> simp
@[simp] theorem entryWrite_out (d : Dev) (t i v : Nat) : (d.entryWrite t i v).out = d.out := by
  (unfold Dev.entryWrite) <;> (try dsimp only) <;> (repeat' split) <;> simp
@[simp] theorem entryWrite_free (d : Dev) (t i v : Nat) : (d.entryWrite t i v).free = d.free := by
  (unfold Dev.entryWrite) <;> (try dsimp only) <;> (repeat' split) <;> simp
@[simp] theorem entryWrite_anvil (d : Dev) (t i v : Nat) : (d.entryWrite t i v).anvil = d.anvil := by
  (unfold Dev.entryWrite) <;> (try dsimp only) <;> (repeat' split) <;> simp
@[simp] theorem entryWrite_fwd (d : Dev) (t i v : Nat) : (d.entryWrite t i v).fwd = d.fwd := by
  (unfold Dev.entryWrite) <;> (try dsimp only) <;> (repeat' split) <;> simp
@[simp] theorem entryWrite_ste (d : Dev) (t i v : Nat) : (d.entryWrite t i v).ste = d.ste := by
  (unfold Dev.entryWrite) <;> (try dsimp only) <;> (repeat' split) <;> simp
@[simp] theorem entryWrite_can (d : Dev) (t i v : Nat) : (d.entryWrite t i v).can = d.can := by
  (unfold Dev.entryWrite) <;> (try dsimp only) <;> (repeat' split) <;> simp
@[simp] theorem entryWrite_lin (d : Dev) (t i v : Nat) : (d.entryWrite t i v).lin = d.lin := by
  (unfold Dev.entryWrite) <;> (try dsimp only) <;> (repeat' split) <;> simp
@[simp] theorem entryWrite_eth (d : Dev) (t i v : Nat) : (d.entryWrite t i v).eth = d.eth := by
  (unfold Dev.entryWrite) <;> (try dsimp only) <;> (repeat' split) <;> simp
@[simp] theorem entryWrite_time (d : Dev) (t i v : Nat) : (d.entryWrite t i v).time = d.time := by
  (unfold Dev.entryWrite) <;> (try dsimp only) <;> (repeat' split) <;> simp
@[simp] theorem entryWrite_xpt (d : Dev) (t i v : Nat) : (d.entryWrite t i v).xpt = d.xpt := by
  (unfold Dev.entryWrite) <;> (try dsimp only) <;> (repeat' split) <;> simp
@[simp] theorem entryWrite_cry (d : Dev) (t i v : Nat) : (d.entryWrite t i v).cry = d.cry := by
  (unfold Dev.entryWrite) <;> (try dsimp only) <;> (repeat' split) <;> simp
@[simp] theorem entryWrite_vault (d : Dev) (t i v : Nat) : (d.entryWrite t i v).vault = d.vault := by
  (unfold Dev.entryWrite) <;> (try dsimp only) <;> (repeat' split) <;> simp
@[simp] theorem entryWrite_nm (d : Dev) (t i v : Nat) : (d.entryWrite t i v).nm = d.nm := by
  (unfold Dev.entryWrite) <;> (try dsimp only) <;> (repeat' split) <;> simp
@[simp] theorem entryWrite_load (d : Dev) (t i v : Nat) : (d.entryWrite t i v).load = d.load := by
  (unfold Dev.entryWrite) <;> (try dsimp only) <;> (repeat' split) <;> simp
@[simp] theorem entryWrite_host (d : Dev) (t i v : Nat) : (d.entryWrite t i v).host = d.host := by
  (unfold Dev.entryWrite) <;> (try dsimp only) <;> (repeat' split) <;> simp
@[simp] theorem entryWrite_bus (d : Dev) (t i v : Nat) : (d.entryWrite t i v).bus = d.bus := by
  (unfold Dev.entryWrite) <;> (try dsimp only) <;> (repeat' split) <;> simp
@[simp] theorem entryWrite_flt (d : Dev) (t i v : Nat) : (d.entryWrite t i v).flt = d.flt := by
  (unfold Dev.entryWrite) <;> (try dsimp only) <;> (repeat' split) <;> simp
@[simp] theorem entryWrite_boot (d : Dev) (t i v : Nat) : (d.entryWrite t i v).boot = d.boot := by
  (unfold Dev.entryWrite) <;> (try dsimp only) <;> (repeat' split) <;> simp
@[simp] theorem entryWrite_pwr (d : Dev) (t i v : Nat) : (d.entryWrite t i v).pwr = d.pwr := by
  (unfold Dev.entryWrite) <;> (try dsimp only) <;> (repeat' split) <;> simp

end Sys2Proof.Machine
end

