-- ==== Sys2Proof/Tests/Slice0.lean ====
section
/-!
SUPPORT. The model's own small tests: ill-formed commands that well-formedness refuses, single steps whose results the manual
gives, and for each statement with hypotheses a concrete device that meets them, at the limits where clauses meet.
-/
namespace Sys2Proof.Tests
open Sys2Proof Sys2Proof.Machine
set_option Elab.async false

/-! ### Devices to test on -/

/-- Every power domain on and ready, the logic die out of reset. -/
def up : Dev :=
  { Dev.reset with
    regs := [(0x1030000, 0x3FFF3FFF)], pwr := { PwrSt.init with logicUp := true, inh0 := true, inh1 := true } }

/-- Some fields written. -/
def sets (l : List (FieldRef × Nat)) (d : Dev) : Dev := l.foldl (fun d x => d.set x.1 x.2) d

/-- The state with nothing waiting. -/
def at_ (d : Dev) : State := ⟨[], d⟩

/-- The device after one command. -/
def after (c : Instr) (d : Dev) : Dev :=
  match exec c (at_ d) with
  | .next t => t.dev
  | _ => d

/-- An operation of a ring, its parameter block at 0x1000 and its state word at 0x2000. -/
def anOp (ring opcode : Nat) (st : OpState) : Op := ⟨ring, 0, opcode, false, 1, 0x1000, 0x2000, 0, 0, st, false, 0, 0, 0, (0, 0, 0)⟩

/-- The device with one operation more. -/
def withOp (o : Op) (d : Dev) : Dev := { d with host := { d.host with ops := d.host.ops ++ [o] } }

/-- A port enabled with its link up. -/
def linked (p : Nat) (d : Dev) : Dev := sets [(F.ETH_MAC_CFG_EN p, 1), (F.ETH_STATUS_LINK p, 1)] d

/-- An ADMIT request (Table PROM-4): class 0, TC 6, Ethernet key VID 5, ingress port 5, egress port 4, no redundancy. -/
def request : Nat :=
  leNat (leBytes 4 0x00060001 ++ leBytes 2 5 ++ leBytes 6 0x021122334455 ++ leBytes 4 5 ++ leBytes 4 0 ++ leBytes 4 1000
    ++ leBytes 4 200 ++ leBytes 2 100 ++ leBytes 2 64 ++ leBytes 16 (2 ^ 4) ++ leBytes 4 0 ++ leBytes 1 0 ++ leBytes 1 0xFF
    ++ leBytes 2 0xFFFF ++ leBytes 4 0 ++ leBytes 4 7)

/-- A contract on that request. -/
def contract : Contract := up.newContract request 15120

/-- An Ethernet frame: destination 02:11:22:33:44:55, source 02:00:00:00:00:01, type 0x0800, `n` bytes from DA to FCS. -/
def frame (n : Nat) : List Byte :=
  beBytes 6 0x021122334455 ++ beBytes 6 0x020000000001 ++ beBytes 2 0x0800 ++ List.replicate (n - 14) 0

/-- A stored frame of port 3, and a copy of it for a port. -/
def stored : Frame := ⟨3, 0, { Msg.init with form := 16, data := frame 60 }, 0, 1, none, 0, 0, false, 1, 0, false, false, [], none, none, true, 1, [], []⟩
def copyTo (p tc : Nat) (started wait : Bool) : Copy :=
  ⟨0, p, tc, stored.msg, 7, 2 ^ 31 - 1, false, .plain, started, wait, false, false, 0, 0, 0, none, 0, none⟩

/-- The device with that frame stored and one copy of it queued. -/
def holding (c : Copy) (d : Dev) : Dev :=
  { d with fwd := { d.fwd with frames := [(0, some stored)], copies := [c], seq := 8 } }

/-- A CAN controller out of INIT and on the bus, a segment's pipeline on. -/
def canOn (c : Nat) (d : Dev) : Dev := sets [(F.CAN_CTRL_INIT c, 0), (F.PWR_XCVR_CAN_MODE_ACT c, 1)] d

/-- A CAN frame of format 0. -/
def canFrame : CanFrame := { form := 0, id := 0x123, data := [1, 2], remote := false, brs := false, esi := false, sdt := 0, vcid := 0, sec := false, af := 0 }

/-- A load channel that is on. -/
def chanOn (i : Nat) (d : Dev) : Dev := d.setCh i { LoadCh.init with run := .on, out := true, want := (.on, 0) }

/-! ### Well-formedness -/

theorem test_wf_refuses_address : Instr.wf (.registerWrite 0 ⟨false, 0x4000000, true⟩ 0) = false ∧ Instr.wf (.registerWrite 0 ⟨false, 0x3FFFFFC, true⟩ 0) = true := by decide
theorem test_wf_refuses_request : Instr.wf (.registerWrite 0 ⟨true, 0x40000, true⟩ 0) = false ∧ Instr.wf (.loWordRead 0 ⟨true, 0x1000, true⟩) = true
    ∧ Instr.wf (.loWordRead 3 ⟨true, 0x1000, true⟩) = false ∧ Instr.wf (.registerWrite 3 ⟨false, 0, false⟩ 0) = false := by decide
theorem test_wf_refuses_word : Instr.wf (.registerWrite 0 ⟨false, 0, true⟩ (2 ^ 32)) = false ∧ Instr.wf (.indDataWrite 0 (2 ^ 32)) = false
    ∧ Instr.wf (.loWordWrite 0 0 (2 ^ 32)) = false ∧ Instr.wf (.hiWordWrite 0 0 (2 ^ 32)) = false := by decide
theorem test_wf_refuses_frame : Instr.wf (.ethFrameRx 0 .whole [] 0 none) = false ∧ Instr.wf (.cutThroughStart 0 [1] ⟨0, 0⟩) = false := by decide
theorem test_wf_refuses_can : Instr.wf (.canFrameValid 0 { canFrame with form := 5 } 0 false) = false
    ∧ Instr.wf (.canFrameValid 0 { canFrame with id := 2 ^ 29 } 0 false) = false ∧ Instr.wf (.canFrameValid 0 canFrame 0 false) = true := by decide
theorem test_wf_refuses_lin : Instr.wf (.linResponseValid 0 0 [] ⟨0⟩ 0 false) = false ∧ Instr.wf (.linResponseValid 0 0 (List.replicate 9 0) ⟨0⟩ 0 false) = false := by decide
theorem test_wf_refuses_source : Instr.wf (.busWake 0 0) = false ∧ Instr.wf (.busWake 0 8) = true ∧ Instr.wf (.sourceMaskEnd 0 0) = false := by decide
theorem test_wf_refuses_temperature : Instr.wf (.thermalTrip 0 128 0) = false ∧ Instr.wf (.channelRetry 0 (-129) 0) = false := by decide
theorem test_wf_refuses_host : Instr.wf (.doorbellWrite 0 (2 ^ 32) []) = false ∧ Instr.wf (.doorbellWrite 0 0 [(2 ^ 64, 0)]) = false
    ∧ Instr.wf (.dmaReadError 0 0 0 (2 ^ 64)) = false ∧ Instr.wf (.statusProgressWrite 0 (2 ^ 32)) = false := by decide
theorem test_wf_refuses_service : Instr.wf (.guxiaRead [1, 1]) = false ∧ Instr.wf (.neighborSolicitation [] []) = false := by decide
theorem test_wf_refuses_power : Instr.wf (.domainReady 0) = false ∧ Instr.wf (.domainOffComplete 0) = false ∧ Instr.wf (.warmReset 2) = false
    ∧ Instr.wf (.pcieLinkUp 0 1) = false := by decide
theorem test_wf_refuses_others : Instr.wf (.counterClear 0 48 false) = false ∧ Instr.wf (.spiFrame [1] 56 false) = false
    ∧ Instr.wf (.timeIncrWrite 0 (2 ^ 64)) = false ∧ Instr.wf (.postedWriteFail 0 0xFFFFFC) = false := by decide

/-! ### Reset and the step -/

theorem test_reset_sound : State.reset.sound = true ∧ State.reset.dev.stores = true ∧ up.stores = true := by decide
theorem witness_StepKeepsSound : (⟨[.railsGood], Dev.reset⟩ : State).sound = true := by decide
theorem witness_EveryRunCompletes : State.reset.sound = true := by decide
theorem test_first_in_first_out : (match step ⟨[.vhvLowChange true, .railsGood], up⟩ with
    | .next t => t.pending == [.railsGood] && t.dev.flag F.SUPV_SUPPLY_STATUS_VHV_LOW
    | _ => false) = true := by decide

/-! ### Anvil (chapter 2) -/

/-- The device with the request in host memory, its ports up, and ADMIT or PROBE running. -/
def asking (opcode : Nat) : Dev := (linked 4 (linked 5 (withOp (anOp 56 opcode .running) up))).hostWrite 0x1000 (leBytes 64 request)

theorem witness_AdmitCommits : (asking 2).quiet ∧ (asking 2).anvilOp 2 = some (anOp 56 2 .running) ∧ (asking 1).anvilOp 1 = some (anOp 56 1 .running)
    ∧ leNat ((asking 1).hostRead 0x1000 64) = request ∧ badRequest request = false ∧ (anOp 56 1 .running).stop = false
    ∧ (asking 1).evaluate request = .accept contract 15120 4 := by
  refine ⟨rfl, ?_⟩; decide +kernel
theorem witness_AdmitCommits_refused : up.evaluate request = .refuse ⟨rsnPortState, 5⟩ 0xFFFFFFFF 0xFFFF ∧ badRequest 0 = true := by decide +kernel
theorem test_admit_holds : ((after .admitReq (asking 1)).contract 0).isSome = true ∧ (after .admitReq (asking 1)).contract 1 = none := by decide +kernel

/-- The device with CHANGE running: type, target and value of Table PROM-11. -/
def changing (type target value : Nat) : Dev :=
  (withOp (anOp 56 4 .running) up).hostWrite 0x1000 (leBytes 2 type ++ leBytes 2 target ++ leBytes 4 value)

theorem witness_ChangesAreGuarded : (changing 4 11 16383).change 4 = some (anOp 56 4 .running)
    ∧ (changing 4 11 16383).chgTarget (anOp 56 4 .running) = 11 ∧ (changing 4 11 16383).chgValue (anOp 56 4 .running) = 16383
    ∧ (anOp 56 4 .running).stop = false
    ∧ ((changing 4 11 16383).set (F.FWD_CT_THRESH_THRESH 11) 16383).broken [] = none := by decide +kernel
theorem test_change_threshold : (after .changeCtThreshold (changing 4 11 16383)).get (F.FWD_CT_THRESH_THRESH 11) = 16383
    ∧ (after .changeCtThreshold (changing 4 12 16383)).get (F.FWD_CT_THRESH_THRESH 11) = up.get (F.FWD_CT_THRESH_THRESH 11) := by decide +kernel

/-- The device with a contract in quarantine, and one with it admitted at index 0. -/
def quarantined : Dev := up.setContract 0 (some { contract with quar := true })
def admitted (opcode : Nat) : Dev := (withOp (anOp 56 opcode .running) up).setContract 0 (some contract)

theorem witness_AnvilReadsAndEnds : quarantined.quiet ∧ quarantined.contract 0 = some { contract with quar := true } ∧ quarantined.stamped 0 = false
    ∧ (admitted 3).anvilOp 3 = some (anOp 56 3 .running) ∧ (admitted 3).namedContract (anOp 56 3 .running) = some (0, contract)
    ∧ up.namedContract (anOp 56 3 .running) = none := by
  refine ⟨rfl, ?_⟩; decide +kernel
theorem witness_AnvilReadsAndEnds_ranges :
    ((withOp (anOp 56 5 .running) up).hostWrite 0x1000 [0xFF, 0x0F, 1, 0]).measRange (anOp 56 5 .running) = some (4095, 1)
    ∧ ((withOp (anOp 56 5 .running) up).hostWrite 0x1000 [0, 0x10, 1, 0]).measRange (anOp 56 5 .running) = none := by decide +kernel
theorem test_withdraw_frees : (after .withdraw (admitted 3)).contract 0 = none := by decide +kernel

/-! ### Forwarding (chapter 3) -/

/-- Port 3 up, forwarding enabled. -/
def port3 : Dev := linked 3 (up.set F.FWD_CTRL_FWD_EN 1)

theorem witness_EthernetReceive : port3.quiet ∧ port3.portAvail 3 = true ∧ port3.linkReady 3 = true ∧ port3.flag F.FWD_CTRL_FWD_EN = true
    ∧ port3.part 3 = none ∧ (frame 59).length + 4 < 64 ∧ 64 ≤ (frame 60).length + 4 ∧ (frame 60).length + 4 ≤ port3.get (F.ETH_MAX_LEN_LEN 3)
    ∧ ((port3.countRx 3 64).segReceived 3 none none).macsecOn 3 = false ∧ (up.portAvail 3 && up.linkReady 3) = false := by
  refine ⟨rfl, ?_⟩; decide +kernel
theorem test_short_frame_counts : (after (.ethFrameRx 3 .whole (frame 59) 0 none) port3).get (F.CNT_DROP_ERROR_COUNT 3) = 1
    ∧ (after (.ethFrameRx 3 .whole (frame 60) 0 none) port3).get (F.CNT_DROP_ERROR_COUNT 3) = 0 := by decide +kernel

theorem witness_PolicerAndRecovery : up.quiet
    ∧ (up.setContract 0 (some { contract with passAt := some 0 })).contract 0 = some { contract with passAt := some 0 }
    ∧ ((up.setContract 0 (some contract)).police 0 5 100).2 = true ∧ ((up.setContract 0 (some contract)).police 0 5 101).2 = false
    ∧ ((up.setContract 0 (some contract)).police 0 4 100).2 = false ∧ up.contract 0 = none := by
  refine ⟨rfl, ?_⟩; decide +kernel

theorem witness_EthernetEgress : up.quiet ∧ up.txReady 3 = false ∧ SMap.get up.fwd.pfcPend 0 3 = 0 ∧ port3.txReady 3 = true
    ∧ (holding (copyTo 3 7 false false) port3).offerFirst 3 false [7, 6] = (holding (copyTo 3 7 false false) port3, some (copyTo 3 7 false false))
    ∧ (holding (copyTo 3 7 true false) port3).frame 0 = some stored ∧ stored.whole = true := by
  refine ⟨rfl, ?_⟩; decide +kernel
theorem witness_EthernetEgress_timers : (SMap.get ({ up with fwd := { up.fwd with pause := [(31, some 5)], pfcDue := [(31, some 7)] } } : Dev).fwd.pause none (8 * 3 + 7)) = some 5
    ∧ up.t1sMaySend 12 = false ∧ (linked 12 up).t1sMaySend 12 = true := by decide +kernel
theorem test_frame_leaves : (after (.ethTxComplete 3 none false) ((holding (copyTo 3 7 true false) port3).setEthPort 3
    { (port3.ethPort 3) with tx := some 7 })).out.any (fun x => x == .ethFrame 3 (frame 60) (crc32 (frame 60))) = true := by decide +kernel

/-- A field record of CAN port 20 waits. -/
def queued (bad : Bool) : Dev := (up.set F.FWD_CTRL_FWD_EN 1).setFq 8 [⟨{ Msg.init with id := 0x123, data := [1] }, 0, 0, bad, none, 1⟩]

theorem witness_FieldQueues : up.quiet ∧ up.fq 8 = [] ∧ (queued true).fq 8 ≠ [] ∧ (queued true).part 20 = none
    ∧ (((queued true).setFq 8 []).setPart 20 none).ready (if pipeB 20 then 3 else 2) = true ∧ up.canReceives 0 = false
    ∧ (canOn 0 up).canReceives 0 = true ∧ (canOn 0 up).canOff 0 0 = false ∧ (canOn 0 up).rateSearching 0 = false := by
  refine ⟨rfl, ?_⟩; decide +kernel
theorem test_poisoned_record : (after (.fieldQueueRead ⟨8, false⟩) (queued true)).fq 8 = [] ∧ (after (.fieldQueueRead ⟨8, true⟩) (queued false)).fwd.frames = [] := by decide +kernel

/-! ### Tables (chapter 4) -/

/-- An FDB entry: address 02:00:00:00:00:01, VID 1, VALID, learned on port 3. -/
def entry : Nat := 0x010000000002 + 2 ^ 48 + 2 ^ 60 + 3 * 2 ^ 64
/-- The entry in way 0 of its set, learning on. -/
def learned : Dev := (up.tset 0 0 (4 * fdbSet 0x010000000002 1) entry).set F.TBL_CTRL_LEARN_A 1

theorem witness_EntryChange : tblEntries 9 - 1 < tblEntries 9 ∧ learned.learnOn 0 false = true
    ∧ learned.fdbFind 0 0x010000000002 1 = (learned, some (4 * fdbSet 0x010000000002 1, entry)) ∧ fdbPort entry = 3 ∧ fdbGroup entry = false
    ∧ 4 * fdbSet 0x010000000002 1 < 32768 := by decide +kernel

/-- A table operation with its parameter block: table, flags, index, count. -/
def tableOp (opcode table flags index count : Nat) : Dev :=
  (withOp (anOp 57 opcode .running) up).hostWrite 0x1000 (leBytes 1 table ++ leBytes 3 flags ++ leBytes 4 index ++ leBytes 8 count ++ leBytes 8 0x3000)

theorem witness_TableOperations : (tableOp 1 2 1 0 1).quiet ∧ (tableOp 1 2 1 0 1).running 57 [1] = some (anOp 57 1 .running)
    ∧ (tableOp 1 2 1 0 1).opTable (anOp 57 1 .running) = 2 ∧ bit ((tableOp 1 2 1 0 1).opFlags (anOp 57 1 .running)) 0 = true
    ∧ (tableOp 1 2 1 0 1).opCnt (anOp 57 1 .running) = 1 ∧ 0 + 1 ≤ tblEntries 2 ∧ 1 * tblSize 2 ≤ 8192
    ∧ (withOp (anOp 57 1 .queued) up).nextQueued 57 [1, 2, 3, 4, 5] = some (anOp 57 1 .queued)
    ∧ (withOp (anOp 57 1 .queued) up).running 57 [1, 2, 3, 4, 5] = none := by
  refine ⟨rfl, ?_⟩; decide +kernel
theorem test_table_write_refused : (after (.tblWrite 1) (tableOp 1 10 1 0 1)).tbl = [] ∧ ((after (.tblWrite 1) (tableOp 1 10 1 0 1)).hostByte 0x2000).toNat = 4 := by decide +kernel

theorem witness_SweepAndAssay : (up.set F.TBL_ASSAY_CTRL_EN 1).quiet ∧ (up.set F.TBL_ASSAY_CTRL_EN 1).flag F.TBL_ASSAY_CTRL_EN = true
    ∧ up.ready 2 = true ∧ learned.entryRead 0 0 (4 * fdbSet 0x010000000002 1) = (learned, some entry)
    ∧ fdbValid entry = true ∧ fdbStatic entry = false ∧ fdbHit entry = false ∧ fdbStale entry = false := by
  refine ⟨rfl, ?_⟩; decide +kernel
theorem test_assay_starts : (after .assayPassStart (up.set F.TBL_ASSAY_CTRL_EN 1)).flag F.TBL_ASSAY_STATUS_BUSY = true := by decide +kernel

/-! ### The signal transplant engine (chapter 5) -/

theorem witness_SignalPlacement : sgProfEn 0 = false ∧ sgTarget 0 = 0 ∧ sigBits true 8 2 = [23, 8] ∧ sigBits false 7 2 = [7, 8] := by decide +kernel

/-- The engine on. -/
def steOn : Dev := up.set F.STE_CTRL_EN 1

theorem witness_SignalEngineSteps : steOn.quiet ∧ steOn.steRuns = true ∧ up.steRuns = false
    ∧ SMap.get steOn.ste.mons none 4095 = none ∧ steOn.cont 63 = none ∧ (steOn.image 4351).pend = false
    ∧ ({ steOn with ste := { SteSt.init with events := [⟨1, 20, 0, 0, 1⟩] } } : Dev).ste.events.find? steOn.eventFree = some ⟨1, 20, 0, 0, 1⟩ := by
  refine ⟨rfl, ?_⟩; decide +kernel
/-- The example of chapter 5 for R168: Motorola position 23, 14 bits, bytes 2 and 3 of the source 0x5B and 0x9C, put at Intel position 8. -/
theorem test_signal_example : gather (leNat [0, 0, 0x5B, 0x9C]) (sigBits true 23 14) = 0x16E7
    ∧ scatter 0 0x16E7 (sigBits false 8 14) = leNat [0, 0xE7, 0x16] := by decide +kernel

/-! ### CAN and LIN (chapter 6) -/

/-- Controller 0 on the bus, and with its collision tracker 0 suspended since instant 0. -/
def can0 : Dev := canOn 0 up
def suspended : Dev := (can0.setCtl 0 { can0.ctl 0 with hits := [(0, [0])], susp := [(0, some 0)] }).set (F.CAN_TRACK_SUSPENDED 0 0) 1
/-- Controller 0 in arbitration with a copy of a plain CAN frame. -/
def arbitrating (started : Bool) : Dev :=
  (holding { copyTo 20 0 started false with msg := { Msg.init with id := 0x123, data := [1, 2] } } can0).setCtl 0 { can0.ctl 0 with arb := some ⟨7, 0, 0⟩ }

theorem witness_CanModeSteps : (can0.setCtl 0 { can0.ctl 0 with joining := true }).quiet ∧ can0.canInit 0 = false
    ∧ ((can0.setCtl 0 { can0.ctl 0 with joining := true }).ctl 0).joining = true
    ∧ (sets [(F.CAN_STATUS_STATE 0, 2), (F.CAN_STATUS_RECOVERING 0, 1)] can0).get (F.CAN_STATUS_STATE 0) = 2
    ∧ (sets [(F.CAN_STATUS_STATE 0, 2), (F.CAN_STATUS_RECOVERING 0, 1)] can0).flag (F.CAN_STATUS_RECOVERING 0) = true
    ∧ (can0.set (F.CAN_RD_STATUS_STATE 0) 1).rateSearching 0 = true ∧ SMap.get (suspended.ctl 0).hits [] 0 = [0] := by
  refine ⟨rfl, ?_⟩; decide +kernel
theorem test_busoff_ends : (after (.canBusoffRecovered 0) (sets [(F.CAN_STATUS_STATE 0, 2), (F.CAN_STATUS_RECOVERING 0, 1), (F.CAN_ERRCNT_TEC 0, 256)] can0)).get (F.CAN_ERRCNT_TEC 0) = 0 := by
  decide +kernel

theorem witness_SuspensionEnds : suspended.quiet ∧ suspended.opens 0 (R.CAN_TRACK 0 0) ∧ suspended.flag (F.CAN_TRACK_SUSPENDED 0 0) = true
    ∧ SMap.get (suspended.ctl 0).susp none 0 = some 0 ∧ (suspended.set (F.CAN_COLL_REL_RELEASE_S 0) 1).get (F.CAN_COLL_REL_RELEASE_S 0) ≠ 0
    ∧ (suspended.set (F.CAN_COLL_REL_RELEASE_S 0) 0).get (F.CAN_COLL_REL_RELEASE_S 0) = 0 := by
  unfold Dev.opens; refine ⟨rfl, ?_⟩; decide +kernel

theorem witness_CanTraffic : can0.quiet ∧ up.canReceives 0 = false ∧ can0.canReceives 0 = true ∧ can0.rateSearching 0 = false
    ∧ can0.canOff 0 1 = false ∧ can0.canOff 0 2 = true ∧ can0.canContends 0 = true ∧ can0.portUp 20 = true ∧ (can0.ctl 0).arb = none
    ∧ ((arbitrating true).arbCopy 0).map (fun x => x.2.started) = some true ∧ can0.arbCopy 0 = none ∧ can0.tsRuns = false
    ∧ (can0.set F.TS_TS_CTRL_EN 1).tsRuns = true := by
  refine ⟨rfl, ?_⟩; decide +kernel
theorem test_frame_received : ((after (.canFrameValid 0 canFrame 0 false) can0).fq 8).map (fun r => r.msg.id) = [0x123] := by decide +kernel
theorem test_error_adds_eight : (after (.canBusError 0 true 4 .data 20 false ⟨false, 0, ⟨[]⟩⟩) (arbitrating true)).get (F.CAN_ERRCNT_TEC 0) = 8 := by decide +kernel
theorem test_sent_frame_takes_one : (after (.canTxComplete 0 ⟨[]⟩) ((arbitrating true).set (F.CAN_ERRCNT_TEC 0) 8)).get (F.CAN_ERRCNT_TEC 0) = 7 := by decide +kernel

/-- LIN port 0 out of INIT, its transceiver in normal mode; and as a commander whose schedule runs. -/
def lin0 : Dev := sets [(F.LIN_CTRL_INIT 0, 0), (F.PWR_XCVR_LIN_MODE_ACT 0, 1)] up
def scheduling : Dev := (lin0.set (F.LIN_CTRL_ROLE 0) 1).setLinCtl 0 { Lin.init with running := true }

theorem witness_LinSteps : lin0.quiet ∧ lin0.linActive 0 = true ∧ up.linActive 0 = false ∧ scheduling.linActive 0 = true
    ∧ (scheduling.linCtl 0).running = true ∧ (scheduling.linCtl 0).stopping = false ∧ (scheduling.linCtl 0).next = none
    ∧ lin0.flag (F.LIN_CTRL_ROLE 0) = false ∧ 86 * lin0.get (F.LIN_BAUD_RATE 0) ≤ 100 * 19200 ∧ 100 * 19200 ≤ 114 * lin0.get (F.LIN_BAUD_RATE 0)
    ∧ [1, 2].contains (can0.get (F.PWR_XCVR_CAN_MODE_ACT 0)) = true ∧ [1, 2].contains (up.get (F.PWR_XCVR_CAN_MODE_ACT 0)) = false := by
  refine ⟨rfl, ?_⟩; decide +kernel
theorem test_lin_error_counts : (after (.linError 0 .checksum) lin0).get (F.LIN_CHK_ERR_COUNT 0) = 1 := by decide +kernel
theorem test_lin_sleep_length : (after (.linResponseValid 0 0x3C (List.replicate 9 0) ⟨0⟩ 0 false) lin0) = lin0 := by decide +kernel

/-! ### Ethernet and T1S (chapter 7) -/

/-- Port 3 enabled without a link; verifying preemption; a T1S port that follows PLCA. -/
def down3 : Dev := up.set (F.ETH_MAC_CFG_EN 3) 1
def verifying : Dev := port3.set (F.ETH_PREEMPT_STATUS_VERIFY_STATE 3) 2
def plca (ok : Nat) : Dev := sets [(F.ETH_PLCA_CFG_EN 12, 1), (F.ETH_PLCA_CFG_NODE_ID 12, 1), (F.ETH_PLCA_STATUS_BEACON_OK 12, ok)] (linked 12 up)

theorem witness_LinksAndGates : down3.quiet ∧ down3.flag (F.ETH_STATUS_LINK 3) = false ∧ down3.flag (F.ETH_MAC_CFG_EN 3) = true ∧ down3.portUp 3 = true
    ∧ down3.isolated (blkEth 3) = false ∧ down3.get (F.ETH_STEP_STATUS_STATE 3) ≠ 4 ∧ port3.flag (F.ETH_STATUS_LINK 3) = true
    ∧ verifying.get (F.ETH_PREEMPT_STATUS_VERIFY_STATE 3) = 2 ∧ (verifying.ethPort 3).verTries < 3 ∧ (plca 1).flag (F.ETH_PLCA_STATUS_BEACON_OK 12) = true
    ∧ (plca 0).flag (F.ETH_PLCA_STATUS_BEACON_OK 12) = false ∧ (plca 1).get (F.ETH_PLCA_CFG_NODE_ID 12) ≠ 0 ∧ (plca 1).plcaActive 12 = true
    ∧ (plca 0).plcaActive 12 = false ∧ up.eth.mdio = none ∧ port3.flag (F.ETH_GATE_STATUS_PENDING 3) = false := by
  refine ⟨rfl, ?_⟩; decide +kernel
theorem test_link_up : (after (.linkUp 3 0) down3).flag (F.ETH_STATUS_LINK 3) = true := by decide +kernel
theorem test_verify_succeeds : (after (.preemptVerifySuccess 3) verifying).get (F.ETH_PREEMPT_STATUS_VERIFY_STATE 3) = 3 := by decide +kernel
theorem test_mdio_no_answer : (after (.mdioComplete none) ({ up with eth := { EthSt.init with mdio := some ⟨0, 1, 1, 1, 0, 0⟩ } })).get F.ETHC_MDIO_DATA_DATA = 0xFFFF := by
  decide +kernel

/-- Port 3 in a stage of a rate step. -/
def stepping (stage tries : Nat) : Dev := (port3.set (F.ETH_STEP_STATUS_STATE 3) stage).setEthPort 3 { (port3.ethPort 3) with tries := tries }

theorem witness_RateSteps : port3.quiet ∧ (port3.ethPort 3).lldpAt = none ∧ (port3.ethPort 3).ttlEnd = none ∧ port3.mgmtRuns = false
    ∧ (stepping 1 0).get (F.ETH_STEP_STATUS_STATE 3) = 1 ∧ (stepping 1 0).host.ops.any (fun o => o.ring == 56 && o.state == .running) = false
    ∧ (stepping 2 2).get (F.ETH_STEP_STATUS_STATE 3) = 2 ∧ ((stepping 2 2).ethPort 3).tries < 3 ∧ 3 ≤ ((stepping 2 3).ethPort 3).tries
    ∧ (stepping 4 0).get (F.ETH_STEP_STATUS_STATE 3) = 4 ∧ ((stepping 4 0).ethPort 3).revert = false := by
  refine ⟨rfl, ?_⟩; decide +kernel
theorem test_answer_never_comes : (after (.stepAnswerTimeout 3) (stepping 2 3)).get (F.ETH_STEP_STATUS_RESULT 3) = 4
    ∧ (after (.stepAnswerTimeout 3) (stepping 2 2)).get (F.ETH_STEP_STATUS_STATE 3) = 2 := by decide +kernel

/-! ### Time (chapter 8) -/

/-- A device whose DTIME has a step behind it. -/
def stepped : Dev := { up with time := { TimeSt.init with now := 80000000, lastStep := some 0 } }

theorem witness_TimeBase : up.quiet ∧ up.time.slew = 0 ∧ up.ready 2 = true ∧ up.time.acc < 2 ^ 96 ∧ up.opens 3 R.TIME_STEP_CTRL
    ∧ (regDef R.TIME_STEP_CTRL).isSome = true ∧ (regDef R.TIME_SLEW_CTRL).isSome = true ∧ (up.beforeWrite 0 R.TIME_STEP_CTRL).timeMay 3 = true
    ∧ (up.set F.TIME_CTRL_EN 1).timeMay 0 = false ∧ stepped.time.lastStep = some 0 ∧ 0 + 80000000 ≤ stepped.now
    ∧ (up.beforeWrite 0 R.TIME_AON_SNAP).time.aonHeld = none ∧ ({ up with time := { TimeSt.init with slew := 1 } } : Dev).slewStep ≠ 0 := by
  unfold Dev.opens; refine ⟨rfl, ?_⟩; decide +kernel
theorem test_incr_limits : (up.incrWrite 5366024766).get F.TIME_INCR_INCR = 5366024766 ∧ (up.incrWrite 5366024765).get F.TIME_INCR_INCR = up.get F.TIME_INCR_INCR
    ∧ (up.incrWrite 5371393474).get F.TIME_INCR_INCR = 5371393474 ∧ (up.incrWrite 5371393475).flag F.TIME_STATUS_CFG_IGNORED = true := by decide +kernel
theorem test_step_spacing : (stepped.stepGo (2 ^ 32)).dtime = 1 ∧ ({ stepped with time := { stepped.time with now := 79999999 } } : Dev).stepGo (2 ^ 32)
    = ({ stepped with time := { stepped.time with now := 79999999 } } : Dev).timeIgnored := by decide +kernel
/-- R269: 800 million increments of the nominal INCR are 1 s. -/
theorem test_dtime_second : (up.advance 800000000).dtime = 1000000000 := by decide +kernel

/-- gPTP on as an end station with port 0 the slave, MGMT running; and the PPS input enabled. -/
def slave : Dev := sets [(F.TIME_CTRL_EN, 1), (F.TIME_CTRL_ROLE, 3), (F.TIME_GPTP_PORT_ROLE 0, 2), (F.BOOT_STATUS_BOOT_STATE, 2)] up
def ppsOn : Dev := sets [(F.TIME_PPS_IN_CFG_EN, 1), (F.TIME_PPS_OUT_CFG_EN, 1), (F.TIME_PPS_OUT_CFG_GATE, 0)] up

theorem witness_SyncAndPps : up.quiet ∧ up.slavePort = none ∧ slave.slavePort = some 0 ∧ slave.gptpOn 0 = true ∧ slave.mgmtRuns = true
    ∧ slave.get F.TIME_CTRL_ROLE = 3 ∧ up.time.syncDue = none ∧ up.time.holdEnd = none ∧ (slave.gptp 0).waiting = none ∧ (slave.gptp 0).reqDue = none
    ∧ up.ppsGate = false ∧ ppsOn.ppsGate = true ∧ ppsOn.flag F.TIME_PPS_IN_CFG_EN = true ∧ ppsOn.flag F.TIME_PPS_IN_CFG_EDGE = false
    ∧ ppsOn.get F.TIME_STATUS_STATE ≠ 4 ∧ ppsOn.time.ppsAcc = none := by
  refine ⟨rfl, ?_⟩; decide +kernel
theorem test_pps_edges : (after (.ppsInEdge false true) ppsOn).get F.TIME_PPS_IN_COUNT_COUNT = 1
    ∧ (after (.ppsInEdge false true) (after (.ppsInEdge false true) ppsOn)).get F.TIME_PPS_IN_REJECT_COUNT = 1 := by decide +kernel

/-! ### Transport (chapter 9) -/

/-- The engine on; a valid connection 0 with TX_DL 8; a session on it that waits for a flow control until DTIME 1000. -/
def xptOn : Dev := (can0.set F.XPT_CTRL_EN 1).tset memConn 0 0 (2 ^ 79 + 8 * 2 ^ 96 + 20 * 2 ^ 64)
def session (state : Nat) : Sess := { Sess.init with state := state, len := 20, dl := some 1000 }

theorem witness_TransportReceive : xptOn.quiet ∧ xptOn.xpt.inq = [] ∧ xptOn.xptRuns = true ∧ up.xptRuns = false
    ∧ (xptOn.setSess (txKey 0) (some (session 4))).sess (txKey 0) = some (session 4) ∧ xptOn.seqPaused (session 4) = false ∧ xptOn.ready 7 = true
    ∧ (xptOn.setSess (txKey 0) (some (session 4))).sess (rxKey 0) = none ∧ 2 ∈ [2, 3, 5, 6] := by
  refine ⟨rfl, ?_⟩; decide +kernel
theorem test_flow_control_lost : (after (.nBsExpiry 0) (xptOn.setSess (txKey 0) (some (session 4)))).sess (txKey 0) = none := by decide +kernel

/-- XPT_SEND of `n` bytes on connection 0. -/
def sending (n : Nat) : Dev := (withOp (anOp 59 0x40 .queued) xptOn).hostWrite 0x1000 (leBytes 4 0 ++ leBytes 4 n)

theorem witness_TransportSend : (sending 7).quiet ∧ (sending 7).nextQueued 59 [0x40] = some (anOp 59 0x40 .queued) ∧ up.nextQueued 59 [0x40] = none
    ∧ cnValid ((sending 7).conn 0) = true ∧ cnBridge ((sending 7).conn 0) = false ∧ cnFunc ((sending 7).conn 0) = false
    ∧ ((sending 7).sess (txKey 0)).isSome = false ∧ sfMax (cnTxDl ((sending 7).conn 0)) (cnAe ((sending 7).conn 0)) = 7 ∧ (sending 8).freeCtx ≠ none := by
  refine ⟨rfl, ?_⟩; decide +kernel
theorem test_send_forms : ((after .xptSend (sending 7)).sess (txKey 0)).map (fun x => x.state) = some 6
    ∧ ((after .xptSend (sending 8)).sess (txKey 0)).map (fun x => x.state) = some 3 := by decide +kernel

/-! ### Crucible and the vault (chapters 10 and 11) -/

/-- The accelerator on, with a HASH job (SHA-256) over no input in job slot 0. -/
def cryOn : Dev := sets [(F.CRY_CTRL_EN, 1)] up
def hashJob (ph : CryPhase) : CryJob := ⟨0, List.replicate 64 0, ph, 0, 0, [], 0, [], 1⟩
def hashing (stop : Bool) : Dev :=
  { withOp { anOp 58 opHash .running with stop := stop } cryOn with cry := { CrySt.init with jobs := [hashJob .run] } }

theorem witness_CryptoJobs : cryOn.quiet ∧ cryOn.cryRuns = true ∧ up.cryRuns = false ∧ cryOn.cryJob 0 [opHash] = none
    ∧ (hashing false).cryJob 0 [opHash] = some (hashJob .run, anOp 58 opHash .running)
    ∧ (hashing false).cryRuns = true ∧ cryStop (hashJob .run).input.length ((hashJob .run).total opHash) = some 0 := by
  refine ⟨rfl, ?_⟩; decide +kernel
theorem witness_CryptoRuns : cryOn.quiet ∧ cryOn.nextQueued 58 [1, 2, 3, 4, 5, 6] = none
    ∧ (withOp (anOp 58 opHash .queued) cryOn).nextQueued 58 [1, 2, 3, 4, 5, 6] = some (anOp 58 opHash .queued) ∧ cryOn.cry.jobs.length < 4
    ∧ (hashJob .run).keyUse opHash = none ∧ up.jobError opHash (hashJob .run) = some errDomainOff ∧ cryOn.ready 8 = true ∧ cryOn.cry.trngDead = false
    ∧ (hashing false).cryJob 0 [1, 2, 3, 4, 5, 6] = some (hashJob .run, anOp 58 opHash .running) ∧ (hashJob .run).total opHash ≤ 0
    ∧ cryOn.cry.jobs.find? (fun j => decide (j.phase = .units)) = none := by
  refine ⟨rfl, ?_⟩; decide +kernel
/-- FIPS 180-4: SHA-256 of "abc". -/
theorem test_sha256 : sha256 [0x61, 0x62, 0x63] = [0xBA, 0x78, 0x16, 0xBF, 0x8F, 0x01, 0xCF, 0xEA, 0x41, 0x41, 0x40, 0xDE, 0x5D, 0xAE, 0x22, 0x23,
    0xB0, 0x03, 0x61, 0xA3, 0x96, 0x17, 0x7A, 0x9C, 0xB4, 0x10, 0xFF, 0x61, 0xF2, 0x00, 0x15, 0xAD] := by decide +kernel
theorem test_trng_ready : (after .trngReady cryOn).flag F.CRY_STATUS_TRNG_OK = true := by decide +kernel

/-- An operation of the vault running; one tamper input enabled. -/
def vaulting (opcode : Nat) : Dev := (withOp (anOp 59 opcode .running) up).hostWrite 0x1008 [15, 0]
def tampered : Dev := sets [(F.VAULT_TMP_CFG_EN0, 1), (F.VAULT_TMP_CFG_EN1, 0)] up

theorem witness_VaultMessages : up.quiet ∧ up.running 59 [opKeyUpdate] = none ∧ (vaulting opKeyUpdate).running 59 [opKeyUpdate] = some (anOp 59 opKeyUpdate .running)
    ∧ (vaulting opHallmark).running 59 [opHallmark] = some (anOp 59 opHallmark .running) ∧ (vaulting opHallmark).vaultPar (anOp 59 opHallmark .running) 8 1 = 15
    ∧ (withOp (anOp 59 opHallmark .queued) up).nextQueued 59 [opKeyUpdate, opProvision, opHallmark] = some (anOp 59 opHallmark .queued)
    ∧ (withOp (anOp 59 opHallmark .queued) up).running 59 [opKeyUpdate, opProvision, opHallmark] = none := by
  refine ⟨rfl, ?_⟩; decide +kernel
theorem test_hallmark_nonce_length : ((after .hallmark (vaulting opHallmark)).hostByte 0x2000).toNat = 4 := by decide +kernel

theorem witness_VaultIsland : tampered.quiet ∧ tampered.flag F.VAULT_TMP_CFG_EN0 = true ∧ tampered.flag F.VAULT_TMP_CFG_EN1 = false ∧ up.pwr.logicUp = true
    ∧ Dev.reset.pwr.logicUp = false
    ∧ up.running 59 [opKeyUpdate, opProvision] = none ∧ (vaulting opProvision).running 59 [opKeyUpdate, opProvision] = some (anOp 59 opProvision .running) := by
  refine ⟨rfl, ?_⟩; decide +kernel
theorem test_tamper_disabled : after (.tamperInput 1) tampered = tampered := by decide +kernel

/-! ### Network management (chapter 12) -/

/-- Segment 20 under the manager, in a state. -/
def segment (st : Nat) : Dev := sets [(F.NM_CTRL_EN, 1), (F.NM_SEG_CFG_EN 20, 1), (F.NM_SEG_STATUS_STATE 20, st), (F.NM_SEG_CTRL_REQ 20, 0), (F.PWR_SW_CFG_WUP_EN 0, 1), (F.PWR_XCVR_CAN_MODE 0, 4), (F.PWR_D2D_STATUS_LINK_UP, 1)] up

theorem witness_SegmentTimers : up.quiet ∧ up.segRuns 20 = false ∧ (segment 0).segRuns 20 = true ∧ (segment 0).segState 20 = 0
    ∧ (segment 0).flag (F.NM_SEG_CTRL_REQ 20) = false ∧ (segment 1).segState 20 = 1 ∧ (segment 2).segState 20 = 2 ∧ (segment 3).segState 20 = 3
    ∧ (((segment 3).xcvrApply 20).seg 20).latch = none ∧ ((segment 1).setSeg 20 { Seg.init with ka := some 0 }).segState 20 = 1
    ∧ (sets [(F.NM_CTRL_EN, 1), (F.NM_SEG_CFG_EN 40, 1)] up).segRuns (40 + 0) = true ∧ up.flag (F.LIN_CTRL_ROLE 0) = false := by
  refine ⟨rfl, ?_⟩; decide +kernel
theorem test_sleep_in_order : (after (.minAwakeExpiry 20) (segment 0)).segState 20 = 1 ∧ (after (.readyTimerExpiry 20) (segment 1)).segState 20 = 2
    ∧ (after (.prepareEnd 20) (segment 2)).segState 20 = 3 ∧ (after (.commitDone 20) (segment 3)).segState 20 = 4 := by decide +kernel

theorem witness_SegmentWakes : (segment 4).quiet ∧ (segment 4).wakeArmed 20 0 = false ∧ (segment 4).wakeArmed 20 1 = true ∧ (segment 4).standby = false
    ∧ (segment 4).segOn 20 = true ∧ bit ((segment 4).get (F.NM_SEG_STATUS_MASKED 20)) (1 - 1) = false ∧ (segment 4).segState 20 = 4
    ∧ ((segment 4).wakeRecord 20 1 false false false).nmRuns = true ∧ (segment 5).segRuns 20 = true ∧ ((segment 5).seg 20).localWake = false
    ∧ ((up.set F.NM_PWR_STATUS_STATE 2)).standby = true ∧ ((segment 4).setSeg 20 { Seg.init with masks := [(1, 0)] }).nm.segs ≠ [] := by
  refine ⟨rfl, ?_⟩; decide +kernel
theorem test_wake_confirms : (after (.busWake 20 1) (segment 4)).segState 20 = 5 ∧ (after (.busWake 20 0) (segment 4)) = segment 4 := by decide +kernel

/-! ### Load channels (chapter 13) -/

theorem witness_LoadTripsTurnOff : (chanOn 12 up).quiet ∧ 12 ≤ 12 ∧ ((chanOn 12 up).ch 12).isOn = true ∧ (chanOn 12 up).chLimit 12 < 65535
    ∧ (chanOn 12 up).get (F.LOAD_CH_LIM_I_LIM 12) * (chanOn 12 up).get (F.LOAD_CH_LIM_SC_MULT 12) < 65535
    ∧ (((sets [(F.LOADC_GROUP_LIM_LIMIT 0, 3)] (chanOn 0 up)).set (F.LOAD_CH_MEAS_CURRENT 0) 4).shedPick 0) = some 0 := by
  refine ⟨rfl, ?_⟩; decide +kernel
theorem test_thermal_codes : ((after (.thermalTrip 3 170 60) (chanOn 3 up)).ch 3).code = 5 ∧ ((after (.thermalTrip 3 169 60) (chanOn 3 up)).ch 3).code = 6
    ∧ ((after (.thermalTrip 3 169 59) (chanOn 3 up)).ch 3).isOn = true := by decide +kernel

theorem witness_LoadCommandRule : up.quiet ∧ up.cmdRefused 0 0 3 0 = true ∧ up.cmdRefused 0 0 2 10000 = false ∧ up.cmdRefused 0 0 2 10001 = true
    ∧ up.pathUp 0 = true ∧ (up.set F.PWR_D2D_STATUS_LINK_UP 1).linkStall (R.LOAD_CH_CMD 0) = false ∧ up.mayWrite 0 (R.LOAD_CH_CMD 0) = true
    ∧ ({ up with load := { LoadSt.init with flight := [(0, 1, 0, 1)] } } : Dev).load.flight = (0, 1, 0, 1) :: [] := by
  refine ⟨rfl, ?_⟩; decide +kernel
theorem test_command_turns_on : ((up.loadCmd 0 0 1 0).ch 0).run = .on ∧ ((up.loadCmd 0 0 3 0).ch 0).run = .off := by decide +kernel

theorem witness_WireModelStep : up.quiet ∧ wireK (up.get (F.LOAD_CH_CFG_WIRE 0)) = 0 ∧ wireK ((up.set (F.LOAD_CH_CFG_WIRE 0) 1).get (F.LOAD_CH_CFG_WIRE 0)) ≠ 0 := by
  refine ⟨rfl, ?_⟩; decide +kernel
theorem witness_ChannelClocks : (chanOn 3 up).quiet ∧ ((chanOn 3 up).ch 3).isOn = true ∧ (chanOn 3 up).chLimit 3 ≤ (chanOn 3 up).chLimit 3
    ∧ ((up.setCh 3 { LoadCh.init with run := .on, winEnd := some 5, onSince := some 0 }).ch 3).winEnd = some 5
    ∧ (((up.set (F.LOAD_CH_STATUS_DUTY 3) 1).setCh 3 { LoadCh.init with run := .pwm, per := 800 }).ch 3).run = .pwm
    ∧ 0 < ((chanOn 3 up).set (F.LOAD_CH_OL_OL_TH 3) 1).get (F.LOAD_CH_OL_OL_TH 3) := by
  refine ⟨rfl, ?_⟩; decide +kernel
theorem witness_RetriesAndDeferredTurnOns : up.quiet ∧ ((up.setCh 0 { LoadCh.init with run := .faultOff, code := 6 }).ch 0).run = .faultOff
    ∧ (up.setCh 0 { LoadCh.init with run := .faultOff, code := 6 }).cleared 0 100 44 = true ∧ (up.setCh 0 { LoadCh.init with run := .faultOff, code := 6 }).cleared 0 100 45 = false
    ∧ (up.setCh 5 { LoadCh.init with run := .deferred, pend := some (.on, 0, 0, false) }).nextDeferred = some 5 ∧ up.outPower = true ∧ up.deferring 5 = false := by
  refine ⟨rfl, ?_⟩; decide +kernel
theorem witness_GroundAndSupply : up.quiet ∧ ({ up with load := { LoadSt.init with gndLost := true } } : Dev).load.gndLost = true
    ∧ ((up.setCh 0 { LoadCh.init with code := 9 }).ch 0).code = 9 := by
  refine ⟨rfl, ?_⟩; decide +kernel
theorem test_dump_levels : (after (.supplyConditionChange 28000 0) up).flag F.LOADC_SUPPLY_STATUS_DUMP = false
    ∧ (after (.supplyConditionChange 28001 0) up).flag F.LOADC_SUPPLY_STATUS_DUMP = true
    ∧ (after (.supplyConditionChange 27501 0) (after (.supplyConditionChange 28001 0) up)).flag F.LOADC_SUPPLY_STATUS_DUMP = true := by decide +kernel

/-- The die link up; the watchdog of the load side enabled for the host, fed at 0. -/
def linkOn : Dev := up.set F.PWR_D2D_STATUS_LINK_UP 1
def guarded : Dev := { sets [(F.LOADC_WD_CFG_EN, 1), (F.LOADC_WD_CFG_MASTERS, 1)] linkOn with load := { LoadSt.init with wdFed := some 0 } }

theorem witness_HeartbeatWatchdog : guarded.quiet ∧ wdMasterBit 0 = some 0 ∧ bit (guarded.get F.LOADC_WD_CFG_MASTERS) 0 = true
    ∧ guarded.get F.LOADC_WD_STATUS_NEXT < 256 ∧ guarded.opens 0 R.LOADC_WD_FEED ∧ guarded.opens 0 R.LOADC_WD_CTRL ∧ guarded.opens 0 R.LOADC_LOCK
    ∧ guarded.load.wdFed = some 0 ∧ guarded.flag F.LOADC_WD_CFG_EN = true ∧ guarded.flag F.LOADC_WD_STATUS_EXPIRED = false := by
  unfold Dev.opens; refine ⟨rfl, ?_⟩; decide +kernel
theorem witness_LimpHomePinsDecide : up.quiet ∧ up.flag F.LOADC_LIMP_STATUS_LH_EN ≠ true ∧ bit (up.get F.LOADC_LIMP_MAP_MAP) 0 = false
    ∧ bit ((up.set F.LOADC_LIMP_MAP_MAP 1).get F.LOADC_LIMP_MAP_MAP) 0 = true ∧ (up.ch 0).run ≠ .latched ∧ (up.ch 0).run ≠ .faultOff ∧ up.outPower = true
    ∧ up.get F.NM_PWR_STATUS_STATE ≠ 2 ∧ up.limpCtl 0 = false := by
  refine ⟨rfl, ?_⟩; decide +kernel
theorem witness_PowerDieTime : linkOn.quiet ∧ linkOn.ready 2 = true ∧ linkOn.flag F.PWR_D2D_STATUS_LINK_UP = true ∧ linkOn.dtime < 2 ^ 64
    ∧ ({ linkOn with load := { LoadSt.init with corr := some 5 } } : Dev).load.corr = some 5 := by
  refine ⟨rfl, ?_⟩; decide +kernel

/-! ### The host interface (chapter 14) -/

/-- Ring 0 enabled with 2^4 entries; a TX descriptor that waits. -/
def ring0 : Dev := sets [(F.HIF_RING_CFG_SIZE_LOG2 0, 4), (F.HIF_RING_CFG_EN 0, 1)] up
def waiting : Dev := { ring0 with host := { HostSt.init with txWait := [⟨0, 0, 0x3000, 60, false, false, false, false, false, 0, 0, 0, false⟩] } }

theorem witness_DoorbellTest : ring0.ready 1 = true ∧ 16 < 2 ^ 32 ∧ ring0.doorbellOk 0 16 = true ∧ ring0.doorbellOk 0 17 = false ∧ ring0.doorbellOk 60 0 = true
    ∧ ring0.doorbellOk 60 1 = false := by decide +kernel
theorem test_doorbell_error : (after (.doorbellWrite 0 17 []) ring0).dbIdx 0 = 0 ∧ (after (.doorbellWrite 0 17 []) ring0).flag (F.HIF_RING_STATUS_DB_ERR 0) = true
    ∧ (after (.doorbellWrite 0 16 []) ring0).dbIdx 0 = 16 := by decide +kernel
theorem witness_RingSwitch : up.quiet ∧ up.opens 0 (R.HIF_RING_CFG 63) ∧ up.flag (F.HIF_RING_CFG_EN 63) = false ∧ ring0.opens 0 (R.HIF_RING_CFG 0) := by
  unfold Dev.opens; refine ⟨rfl, ?_⟩; decide +kernel
theorem witness_HostTransmitSteps : ring0.ringUp 0 = true ∧ (ring0.set (F.HIF_DB_INDEX_INDEX 0) 1).devIdx 0 ≠ (ring0.set (F.HIF_DB_INDEX_INDEX 0) 1).dbIdx 0
    ∧ (ring0.host.txWait.filter (fun (t : TxDesc) => t.ring == 0)).length < 64 ∧ waiting.txRuns 0 = true
    ∧ (waiting.host.txWait.find? (fun (t : TxDesc) => t.ring == 0)).map (fun t => t.bad) = some false
    ∧ (hashing false).host.ops.find? (fun (o : Op) => o.ring == 58 && o.idx == 0 && o.state == .running) = some (anOp 58 opHash .running)
    ∧ ({ up with tables := { TblSt.init with pass := some 0 } } : Dev).tables.pass.isSome = true := by decide +kernel

/-- An ABORT of command 0 of ring 57, which is queued there; a command with a reserved opcode. -/
def abortOp : Op := { anOp 59 0x60 .queued with tgtRing := 57, tgtIdx := 0, seq := 1 }
def aborting : Dev :=
  sets [(F.HIF_RING_CFG_SIZE_LOG2 57, 4), (F.HIF_DB_INDEX_INDEX 57, 1)]
    { up with host := { HostSt.init with aborts := [abortOp], ops := [{ anOp 57 1 .queued with status := 0x4000 }], hist := [(57 * 65536, 0, 1)], unknown := [anOp 57 0x99 .queued] } }

theorem witness_CommandsAnswered : aborting.quiet ∧ aborting.host.unknown = anOp 57 0x99 .queued :: []
    ∧ aborting.host.aborts.find? (fun (a : Op) => a.state == .queued) = some abortOp
    ∧ idxSub (aborting.dbIdx 57 + 2 ^ 32 - 1) 0 < aborting.ringSize 57 ∧ SMap.find? aborting.host.hist (57 * 65536 + 0 % aborting.ringSize 57) = some (0, 1)
    ∧ (aborting.host.ops.find? (fun (o : Op) => o.ring == 57 && o.idx == 0)).map (fun o => o.state) = some .queued := by
  refine ⟨rfl, ?_⟩; decide +kernel
theorem test_abort_withdraws : (after .abort aborting).host.ops = [] := by decide +kernel
theorem witness_MessagesLinkAndReset : up.quiet ∧ up.ready 1 = true
    ∧ (({ (sets [(F.HIF_RING_CFG_IRQ_EN 0, 1), (F.HIF_RING_MOD_MOD_US 0, 1)] up) with host := { HostSt.init with rings := [(0, ⟨1, some 0, 0⟩)] } } : Dev).ring 0).firstUnsig = some 0
    ∧ (sets [(F.HIF_RING_CFG_IRQ_EN 0, 1), (F.HIF_RING_MOD_MOD_US 0, 1)] up).flag (F.HIF_RING_CFG_IRQ_EN 0) = true
    ∧ (sets [(F.HIF_RING_CFG_IRQ_EN 0, 1), (F.HIF_RING_MOD_MOD_US 0, 1)] up).get (F.HIF_RING_MOD_MOD_US 0) ≠ 0 := by
  refine ⟨rfl, ?_⟩; decide +kernel

/-! ### Registers (chapter 15) -/

theorem witness_MemoryWindows : up.opens 0 R.STE_MEM_CMD ∧ up.opens 0 R.ETHC_MEM_CMD ∧ up.opens 0 R.XPT_MEM_CMD ∧ up.opens 0 R.CRY_MEM_CMD
    ∧ up.opens 0 (R.LIN_MEM_CMD 7) ∧ up.opens 0 R.TBL_WIN_CTRL ∧ up.opens 0 R.FWD_CNT_CLR ∧ (regDef R.STE_MEM_CMD).isSome = true
    ∧ (up.set F.ETHC_MEM_SEL_INDEX 383).get F.ETHC_MEM_SEL_INDEX < 384 ∧ 384 ≤ (up.set F.ETHC_MEM_SEL_INDEX 384).get F.ETHC_MEM_SEL_INDEX := by
  unfold Dev.opens; decide +kernel
theorem test_counter_clear : (after (.counterClear 0 3 false) (up.set (F.CNT_DROP_ERROR_COUNT 3) 5)).get (F.CNT_DROP_ERROR_COUNT 3) = 0
    ∧ (after (.counterClear 0 4 false) (up.set (F.CNT_DROP_ERROR_COUNT 3) 5)).get (F.CNT_DROP_ERROR_COUNT 3) = 5 := by decide +kernel
theorem witness_SwitchRows : up.opens 0 (R.CAN_CTRL 19) ∧ up.opens 0 (R.LIN_CTRL 7) ∧ linkOn.opens 0 (R.PWR_XCVR_CAN 11) ∧ linkOn.opens 0 (R.PWR_XCVR_LIN 7)
    ∧ up.opens 0 R.ETHC_MDIO_CMD ∧ (up.beforeWrite 0 R.ETHC_MDIO_CMD).flag F.ETHC_MDIO_CMD_GO = false ∧ up.opens 0 (R.CRY_MACSEC_TX 11)
    ∧ up.opens 0 (R.NM_SEG_CTRL 47) ∧ up.opens 0 R.NM_PWR_CTRL ∧ up.opens 0 R.TEST_FAULTN_CTRL ∧ (up.set F.TEST_FAULTN_CTRL_FORCE 0).flag F.TEST_FAULTN_CTRL_FORCE = false
    ∧ (up.beforeWrite 0 R.TEST_FAULTN_CTRL).pertOpen = false ∧ (segment 0).segOn 20 = true ∧ (segment 0).segState 20 ≠ 4 := by
  unfold Dev.opens; decide +kernel
theorem test_leave_init : (after (.canLeaveInit 0 5) up).get (F.CAN_CTRL_INIT 5) = 0 ∧ (after (.canEnterInit 0 0) can0).get (F.CAN_CTRL_INIT 0) = 1 := by decide +kernel
theorem witness_OneShotRows : up.opens 0 R.CRY_CACHE_CTRL ∧ up.opens 3 R.VAULT_PROV_CTRL ∧ up.opens 3 R.VAULT_EXT_CTRL ∧ up.opens 0 R.VAULT_EXT_CTRL
    ∧ (up.beforeWrite 0 R.VAULT_EXT_CTRL).flag F.VAULT_STATUS_COMMITTED = false ∧ up.opens 0 R.VAULT_DBG_CTRL ∧ up.opens 0 (R.FLT_BLOCK_CTRL 2)
    ∧ up.opens 0 (R.FLT_PERT_INJ 2) ∧ up.opens 0 (R.FLT_PERT_ENT 2) ∧ up.opens 3 R.BOOT_OTP_ANCHOR_CTRL ∧ linkOn.opens 0 R.SUPV_PD_ON
    ∧ linkOn.opens 3 R.SUPV_MGMT_WD_FEED ∧ unitOk 2 0 = true ∧ unitOk 2 1 = false ∧ up.drbgOk = false := by
  unfold Dev.opens; decide +kernel
theorem test_feed_needs_mgmt : ((after (.mgmtWdFeed 3) (linkOn.set F.SUPV_MGMT_WD_EN 1)).pwr.wdFed).isSome = true
    ∧ (after (.mgmtWdFeed 0) (linkOn.set F.SUPV_MGMT_WD_EN 1)).pwr.wdFed = none := by decide +kernel

theorem witness_ReadShadow : up.pathUp 0 = true ∧ up.linkStall R.TIME_DTIME_LO = false ∧ (up.regAt R.TIME_DTIME_LO).map (fun r => r.loWord) = some true
    ∧ groupLo R.TIME_DTIME_LO = none ∧ groupLo (R.TIME_DTIME_LO + 4) = some R.TIME_DTIME_LO ∧ (up.regAt (R.TIME_DTIME_LO + 4)).isSome = true
    ∧ SMap.get up.bus.rd none 0 = none ∧ ((SMap.get (up.latch 0 R.TIME_DTIME_LO).bus.rd none 0).map (fun x => x.tag)) = some R.TIME_DTIME_LO := by decide +kernel
theorem test_shadow_holds : (after (.loWordRead 0 ⟨false, R.TIME_DTIME_LO + 4, true⟩) (after (.loWordRead 0 ⟨false, R.TIME_DTIME_LO, true⟩) up)).get F.GLOBAL_SHADOW_MISS_COUNT = 0
    ∧ (after (.loWordRead 0 ⟨false, R.TIME_DTIME_LO + 4, true⟩) up).get F.GLOBAL_SHADOW_MISS_COUNT = 1 := by decide +kernel
theorem witness_WriteShadow : up.opens 3 R.TIME_INCR ∧ up.opens 3 (R.TIME_INCR + 4) ∧ (regDef R.TIME_INCR).map (fun r => r.loWord) = some true
    ∧ (regDef (R.TIME_INCR + 4)).map (fun r => r.loWord) = some false ∧ groupLo (R.TIME_INCR + 4) = some R.TIME_INCR ∧ up.timeMay 3 = true
    ∧ (ring0.set (F.HIF_RING_CFG_EN 63) 1).flag (F.HIF_RING_CFG_EN 63) = true
    ∧ SMap.get (up.setWr 3 (some ⟨R.TIME_INCR, [(R.TIME_INCR, 1)]⟩)).bus.wr none 3 = some ⟨R.TIME_INCR, [(R.TIME_INCR, 1)]⟩ := by
  unfold Dev.opens; decide +kernel
theorem witness_BusAccess : up.quiet ∧ Dev.reset.pathUp 0 = false ∧ up.pathUp 0 = true ∧ up.linkStall R.FWD_CTRL = false ∧ R.FWD_CTRL ≠ R.GLOBAL_IND_ADDR
    ∧ (up.regAt R.FWD_CTRL).isSome = true ∧ up.mayWrite 0 R.FWD_CTRL = true ∧ groupLo R.FWD_CTRL = none ∧ up.regAt 0xFFC = none ∧ inPwr 0xFFC = false
    ∧ up.linkStall R.LOADC_WD_CFG = true ∧ inPwr R.LOADC_WD_CFG = true ∧ tripled R.LOADC_WD_CFG = true ∧ up.pageOn R.GLOBAL_IND_DATA = true
    ∧ up.bus.delayed = [] ∧ SMap.get up.bus.pf none 0 = none ∧ up.pathUp 1 = true := by
  refine ⟨rfl, ?_⟩; decide +kernel
theorem test_write_and_miss : (after (.registerWrite 0 ⟨false, R.FWD_CTRL, true⟩ 1) up).flag F.FWD_CTRL_FWD_EN = true
    ∧ (after (.registerWrite 0 ⟨false, 0xFFC, true⟩ 1) up).out = [.busError 0 0xFFC] := by decide +kernel

/-! ### Faults, boot and power (chapters 16 to 18) -/

/-- Block 2 with an event in its window, and with its first error captured. -/
def counted : Dev := up.setWin 2 [5]
theorem witness_FaultAccounting : up.quiet ∧ up.flag (F.FLT_FEC_INFO_VALID 2) = false ∧ (up.set (F.FLT_FEC_INFO_VALID 2) 1).flag (F.FLT_FEC_INFO_VALID 2) = true
    ∧ up.win 2 = [] ∧ counted.win 2 = [5] ∧ up.flag (F.FLT_BLOCK_CTRL_RESET 65) = false ∧ (up.set (F.FLT_BLOCK_CTRL_RESET 65) 1).flag (F.FLT_BLOCK_CTRL_RESET 65) = true
    ∧ up.get (F.FLT_REACT_REACT 2) = 1 ∧ notIsolable blkFwd = true ∧ inPwr R.LOADC_WD_CFG = true ∧ inPwr R.FWD_CTRL = false := by
  refine ⟨rfl, ?_⟩; decide +kernel
theorem test_window_expiry : (after (.windowEventExpiry 2) counted).win 2 = [] ∧ (after (.windowEventExpiry 2) counted).get (F.FLT_EVT_COUNT_IN_WINDOW 2) = 0 := by decide +kernel

/-- The updater at work, with an operation of ring 59 queued, in a stage of Table BOOT-7. -/
def updating (opcode stage : Nat) : Dev := (withOp (anOp 59 opcode .queued) (sets [(F.BOOT_STATUS_BOOT_STATE, 2), (F.BOOT_STATUS_STAGE_STATE, stage)] up)).hostWrite 0x1008 [20, 0]
theorem witness_FirmwareUpdate : (updating 0x50 0).quiet ∧ up.fwNext 0x50 = none ∧ up.fwServed = false ∧ (updating 0x50 0).fwNext 0x50 = some (anOp 59 0x50 .queued)
    ∧ leNat ((updating 0x50 0).hostRead 0x1008 2) = 20 ∧ (updating 0x51 0).fwNext 0x51 = some (anOp 59 0x51 .queued)
    ∧ (updating 0x52 3).fwNext 0x52 = some (anOp 59 0x52 .queued) ∧ (updating 0x52 3).stage = 3 ∧ (updating 0x53 4).fwNext 0x53 = some (anOp 59 0x53 .queued)
    ∧ (updating 0x53 4).stage = 4 ∧ up.flag F.SUPV_SUPPLY_STATUS_BOH = false ∧ up.boot.ops = [] ∧ up.ready 13 = true
    ∧ ({ up with boot := { BootSt.init with ops := [.copy 0 false] } } : Dev).boot.ops = .copy 0 false :: [] ∧ up.flag F.BOOT_STATUS_FLASH_PAUSED = false := by
  refine ⟨rfl, ?_⟩; decide +kernel
theorem test_cancel_during_copy : (after .fwCancel (updating 0x53 4)).stage = 4 ∧ (after .fwCancel (updating 0x53 3)).stage = 0 := by decide +kernel
theorem witness_BootAndService : up.quiet ∧ up.ready 9 = true ∧ up.get F.BOOT_STATUS_BOOT_STATE = 0 ∧ bit up.pwr.goingOn 12 = false
    ∧ ({ up with boot := { BootSt.init with restart := true } } : Dev).boot.restart = true ∧ up.get (F.ETH_STEP_STATUS_STATE 11) < 3 ∧ up.svcUp = false
    ∧ (updating 0x50 0).svcUp = true ∧ (up.set F.BOOT_GUXIA_CFG_EN 1).flag F.BOOT_GUXIA_CFG_EN = true ∧ guxiaTypes.contains 1 = true := by
  refine ⟨rfl, ?_⟩; decide +kernel
theorem test_lockstep_restarts : (after .lockstepMismatch up).boot.restart = true := by decide +kernel

/-- PD3 switching on, and switching off. -/
def turning : Dev := { up with pwr := { up.pwr with goingOn := 4, goingOff := 4 } }
theorem witness_DomainSteps : up.quiet ∧ bit turning.pwr.goingOn (3 - 1) = true ∧ bit turning.pwr.goingOff (3 - 1) = true ∧ bit up.pwr.goingOn (3 - 1) = false
    ∧ bit turning.pwr.onAfterOff (3 - 1) = false ∧ up.powered 2 = true ∧ Dev.reset.powered 2 = false ∧ Dev.reset.pwr.logicUp = false
    ∧ ({ Dev.reset with pwr := { PwrSt.init with inh0 := true, inh1 := true } } : Dev).standby = false ∧ up.pwr.tileBCopy = false
    ∧ ({ up with pwr := { up.pwr with tileBCopy := true } } : Dev).pwr.tileBCopy = true := by
  refine ⟨rfl, ?_⟩; decide +kernel
theorem test_rails_good : (after .railsGood ({ Dev.reset with pwr := { PwrSt.init with inh0 := true, inh1 := true } })).pwr.logicUp = true
    ∧ (after .railsGood Dev.reset).pwr.logicUp = false := by decide +kernel

/-- Brownout hold since instant 0; a MGMT watchdog that has expired once. -/
def holdingOut : Dev := { up.set F.SUPV_SUPPLY_STATUS_BOH 1 with pwr := { up.pwr with bohStart := some 0 } }
def expired : Dev := { up.set F.SUPV_MGMT_WD_EN 1 with pwr := { up.pwr with wdFed := some 0, wdLast := some 0 } }
theorem witness_PowerSteps : up.quiet ∧ up.flag F.SUPV_SUPPLY_STATUS_RAIL_WARN = false ∧ up.flag F.SUPV_SUPPLY_STATUS_BOH = false ∧ holdingOut.pwr.bohStart = some 0
    ∧ holdingOut.pwr.bohExpired = false ∧ (up.set F.SUPV_RST_CTRL_WARM 1).flag F.SUPV_RST_CTRL_WARM = true ∧ up.flt.warm = none
    ∧ (up.set (clkField 4) 1).flag (clkField 4) = true ∧ (up.set (clkField 4) 0).flag (clkField 4) = false ∧ expired.pwr.wdFed = some 0
    ∧ expired.flag F.SUPV_MGMT_WD_EN = true ∧ linkOn.flag F.PWR_D2D_STATUS_LINK_UP = true ∧ (up.set F.PWR_D2D_STATUS_LINK_UP 0).flag F.PWR_D2D_STATUS_LINK_UP = false
    ∧ ({ up with pwr := { up.pwr with d2dDown := some 0 } } : Dev).pwr.d2dDown = some 0 := by
  refine ⟨rfl, ?_⟩; decide +kernel
theorem test_second_expiry_resets : (after .mgmtWdExpiry expired).pwr.logicUp = false
    ∧ (after .mgmtWdExpiry { expired with pwr := { expired.pwr with wdLast := none } }).boot.restart = true := by decide +kernel
theorem test_aon_snapshot_waits : (after (.clockReturn 4) ({ (sets [(clkField 4, 0), (F.TIME_AON_SNAP_GO, 1)] up) with
    time := { TimeSt.init with aonHeld := some 0, snapGo := true } })).time.snapAt.isSome = true := by decide +kernel

theorem witness_FieldAndMemoryWrites : up.stores = true ∧ Memory.wf [(0, 1), (5, 2)] = true ∧ Memory.wf [(5, 2), (0, 1)] = false ∧ Memory.wf [(0, 0)] = false
    ∧ (List.replicate 3 (7 : Byte)).length ≤ 2 ^ 64 ∧ tkey 0 0 1 ≠ tkey 0 1 1 := by decide +kernel

/-! ### Devices that meet the further clauses of the statements -/

/-- MGMT runs. -/
def mgmtOn (d : Dev) : Dev := d.set F.BOOT_STATUS_BOOT_STATE 2

theorem witness_ChangesAreGuarded_kinds :
    (changing 6 5 0).change 6 = some (anOp 56 4 .running) ∧ (changing 6 5 0).chgTarget (anOp 56 4 .running) = 5 ∧ (changing 6 5 0).domainBusy 5 = false
    ∧ bit ((changing 6 5 0).get F.SUPV_PD_STATUS_ON) (5 - 1) = true ∧ bit (((changing 6 5 0).set F.SUPV_PD_STATUS_ON 0).get F.SUPV_PD_STATUS_ON) (5 - 1) = false
    ∧ (changing 2 4 1000).change 2 = some (anOp 56 4 .running) ∧ rateCode 4 1000 = some 1 ∧ 1 ≤ ((changing 2 4 1000).set (F.ETH_RATE_NOM 4) 1).get (F.ETH_RATE_NOM 4)
    ∧ (changing 3 11 100).change 3 = some (anOp 56 4 .running) ∧ rateCode 11 100 = some 0 ∧ ((changing 3 11 100).set (F.ETH_RATE_FLOOR 11) 0).get (F.ETH_RATE_FLOOR 11) = 0
    ∧ (changing 5 11 0).change 5 = some (anOp 56 4 .running) ∧ (changing 12 19 5).change 12 = some (anOp 56 4 .running) ∧ (changing 12 19 5).chgValue (anOp 56 4 .running) = 5
    ∧ (changing 8 47 0).change 8 = some (anOp 56 4 .running) ∧ (changing 8 47 0).chgCount (anOp 56 4 .running) = 0 ∧ (changing 9 63 0).change 9 = some (anOp 56 4 .running)
    ∧ (changing 10 11 0).change 10 = some (anOp 56 4 .running) ∧ (changing 11 47 7).change 11 = some (anOp 56 4 .running)
    ∧ bit (((changing 11 47 7).set (F.LIN_SCHED_ACTIVATABLE 7) 128).get (F.LIN_SCHED_ACTIVATABLE 7)) 7 = true
    ∧ (changing 1 11 0).change 1 = some (anOp 56 4 .running) ∧ (((changing 1 11 0).set (F.ETH_ADMIN_CYCLE_NS 11) 64).gateAdmin 11).cycle = 64
    ∧ up.broken [] = none := by decide +kernel
theorem witness_ChangesAreGuarded_keys :
    ((changing 7 1023 0).tset memChan 0 1023 1).change 7 = some (anOp 56 4 .running) ∧ ((changing 7 1023 0).tset memChan 0 1023 1).keyChange (anOp 56 4 .running) = some 0
    ∧ ((changing 7 1023 257).tset memChan 0 1023 1).keyChange (anOp 56 4 .running) = some 0 ∧ bf 257 8 8 = 1 ∧ up.anvil.pinned.length < 64 := by decide +kernel

/-- A frame of a length that a port may cut through, and port 3 set to do so. -/
def cutting : Dev := sets [(F.FWD_CT_THRESH_THRESH 3, 64), (F.FWD_PORT_CFG_ACC_UNTAG 3, 1)] port3
def ts12 : Dev := linked 12 (up.set F.FWD_CTRL_FWD_EN 1)

theorem witness_EthernetReceive_kinds : ts12.quiet ∧ ts12.portAvail 12 = true ∧ ts12.linkReady 12 = true ∧ ts12.part 12 = none
    ∧ (port3.set (F.ETH_MAX_LEN_LEN 3) 63).get (F.ETH_MAX_LEN_LEN 3) < (frame 60).length + 4 ∧ port3.flag (F.ETH_MAC_CFG_OVS_HOST 3) = false
    ∧ cutting.ctThresh 3 = some 64 ∧ cutting.macsecOn 3 = false ∧ cutting.dispo 3 (parseHdr (frame 64)) (frame 64) = .lookup ∧ (parseHdr (frame 64)).off + 2 ≤ (frame 64).length
    ∧ ((cutting.classify 3 0 (parseHdr (frame 64))).2).isSome = true ∧ ((cutting.set (F.FWD_PORT_CFG_ACC_UNTAG 3) 0).classify 3 0 (parseHdr (frame 64))).2 = none := by
  refine ⟨rfl, ?_⟩; decide +kernel

theorem witness_EthernetEgress_flow :
    ({ up with fwd := { up.fwd with pfcDue := [(31, some 7)] } } : Dev).pfcDues 3 = (7, 7) :: []
    ∧ SMap.get ({ port3 with fwd := { port3.fwd with pfcPend := [(3, 128)] } } : Dev).fwd.pfcPend 0 3 ≠ 0 ∧ (port3.set (F.ETH_ADDR_LO_ADDR 3) 2).ethAddr 3 ≠ 0
    ∧ (port3.copiesOn 3).any (fun c => decide (6 ≤ c.tc) && !c.started && !c.hold && !c.wait) = false
    ∧ (port3.set (F.ETH_PREEMPT_STATUS_ACTIVE 3) 1).flag (F.ETH_PREEMPT_STATUS_ACTIVE 3) = true := by decide +kernel

/-- A T1S record waits in queue 0. -/
def queuedT1s : Dev := (up.set F.FWD_CTRL_FWD_EN 1).setFq 0 [⟨ethMsg (frame 60), 0, 0, false, none, 1⟩]
theorem witness_FieldQueues_t1s : queuedT1s.fq 0 = ⟨ethMsg (frame 60), 0, 0, false, none, 1⟩ :: [] ∧ queuedT1s.part (0 + 12) = none
    ∧ (queued false).fq 8 = ⟨{ Msg.init with id := 0x123, data := [1] }, 0, 0, false, none, 1⟩ :: [] := by decide +kernel

/-- FDB_INSERT and FDB_DELETE of the entry on pipeline A. -/
def fdbWork (opcode : Nat) : Dev := (withOp (anOp 57 opcode .running) up).hostWrite 0x1000 (leBytes 16 1 ++ leBytes 16 entry)
theorem witness_TableOperations_fdb : (fdbWork 3).opPipes (anOp 57 3 .running) = [0] ∧ (fdbWork 3).opEntry (anOp 57 3 .running) = entry ∧ fdbBad entry = false
    ∧ (fdbWork 3).room60 (8 + 2 * 1) = true ∧ (fdbWork 3).running 57 [3] = some (anOp 57 3 .running) ∧ (fdbWork 3).running 57 [3, 4, 5] = some (anOp 57 3 .running)
    ∧ ([0].any (fun p => ((fdbWork 3).insertWay p entry).isNone)) = false ∧ (fdbWork 4).running 57 [4] = some (anOp 57 4 .running)
    ∧ (fdbWork 5).running 57 [5] = some (anOp 57 5 .running) ∧ (fdbWork 5).opPipes (anOp 57 5 .running) = [0] := by decide +kernel

theorem witness_SweepAndAssay_refreshed : (up.fdbFresh 0 5).refreshed 0 5 = true ∧ (up.fdbFresh 0 5).refreshed 0 6 = false ∧ up.refreshed 0 5 = false := by decide +kernel

/-- The engine with an armed monitor 4095, an image 4351 that is cyclic, and with an intake frame of filter 0. -/
def monitored : Dev := { (steOn.tset 4 0 0 (2 ^ 47 + 2 ^ 111 + 4095 * 2 ^ 96)).tset (steMem 7) 0 4095 (2 ^ 32) with
  ste := { SteSt.init with mons := [(4095, some (0, 0))] } }
def imaged : Dev := (steOn.set F.STE_CTRL_CYC_EN 1).tset (steMem 0) 0 4351 (2 ^ 39 + 2 * 2 ^ 44)
def taking (b : List Byte) : Dev := { steOn with ste := { SteSt.init with intakes := [⟨0, frame 14 ++ b, 0, 3, 1⟩] } }

theorem witness_SignalEngineSteps_work :
    SMap.get monitored.ste.mons none 4095 = some (0, 0) ∧ monitored.steRuns = true ∧ (monitored.steTouch 7 4095).entryRead 4 0 0 = (monitored, some (2 ^ 47 + 2 ^ 111 + 4095 * 2 ^ 96))
    ∧ rtValid (2 ^ 47 + 2 ^ 111 + 4095 * 2 ^ 96) = true ∧ rtMonEn (2 ^ 47 + 2 ^ 111 + 4095 * 2 ^ 96) = true ∧ rtMon (2 ^ 47 + 2 ^ 111 + 4095 * 2 ^ 96) = 4095
    ∧ bit (monitored.steEnt 7 4095) 32 = true ∧ bit (monitored.steEnt 7 4095) 33 = false
    ∧ imValid (imaged.steEnt 0 4351) = true ∧ 2 ≤ imMode (imaged.steEnt 0 4351) ∧ imaged.flag F.STE_CTRL_CYC_EN = true ∧ imaged.steRuns = true
    ∧ byteAt ((frame 14 ++ [2]).drop ((parseHdr (frame 14 ++ [2])).off + 2)) 0 = 2 ∧ inKind ((taking [2]).steEnt 6 0) ≠ 1
    ∧ inKind (((taking [0x82, 0x80, 1]).tset (steMem 6) 0 0 (2 ^ 64)).steEnt 6 0) = 1
    ∧ (steOn.steTouch 5 63).steEnt 5 63 = 0 ∧ coValid 0 = false := by decide +kernel

/-- Controller 0 with delay compensation and a data phase faster than nominal. -/
def compensating : Dev := sets [(F.CAN_TDC_TDC_EN 0, 1), (F.CAN_DBT_BRP_M1 0, 0), (F.CAN_DBT_TSEG1_M1 0, 3), (F.CAN_DBT_TSEG2_M1 0, 2), (F.CAN_NBT_BRP_M1 0, 3)] can0
theorem witness_CanTraffic_phases : compensating.flag (F.CAN_TDC_TDC_EN 0) = true ∧ compensating.dataMtq 0 < compensating.nomMtq 0
    ∧ (can0.set (F.CAN_DBT_BRP_M1 0) 31).nomMtq 0 ≤ (can0.set (F.CAN_DBT_BRP_M1 0) 31).dataMtq 0 ∧ (can0.set (F.CAN_TDC_TDC_EN 0) 0).flag (F.CAN_TDC_TDC_EN 0) = false
    ∧ (can0.set (F.CAN_RD_STATUS_STATE 0) 1).rateSearching 0 = true ∧ can0.canInit 0 = false ∧ (can0.ctl 0).joining = false
    ∧ (can0.set (F.CAN_CTRL_PEX_EN 0) 1).flag (F.CAN_CTRL_PEX_EN 0) = true := by decide +kernel

/-- The commander's first slot with a direction. -/
def slotDir (dir : Nat) : Dev := scheduling.tset memSched 0 0 (dir * 64)
theorem witness_LinSteps_slots : ((slotDir 3).slotEnt 0 0 0) / 64 = 3 ∧ lsDir ((slotDir 3).slotEnt 0 0 0) = 3 ∧ lsDir ((slotDir 1).slotEnt 0 0 0) = 1 ∧ lsDir ((slotDir 0).slotEnt 0 0 0) = 0
    ∧ ((scheduling.setLinCtl 0 { Lin.init with running := true, stopping := true }).linCtl 0).stopping = true
    ∧ ((scheduling.setLinCtl 0 { Lin.init with running := true, skips := 15 }).linCtl 0).skips + 1 = 16
    ∧ lin0.linHeaderOk 0 572917 19200 = true ∧ lin0.linHeaderOk 0 572916 19200 = false ∧ lin0.linHeaderOk 0 600000 16511 = false ∧ lin0.linHeaderOk 0 600000 16512 = true
    ∧ (lin0.set (F.LIN_CTRL_AUTOBAUD 0) 1).linHeaderOk 0 550000 20000 = true ∧ (lin0.set (F.LIN_CTRL_AUTOBAUD 0) 1).linHeaderOk 0 549999 20000 = false
    ∧ (lin0.set (F.LIN_CTRL_AUTOBAUD 0) 1).linHeaderOk 0 11000000 1000 = true ∧ (lin0.set (F.LIN_CTRL_AUTOBAUD 0) 1).linHeaderOk 0 11000000 999 = false
    ∧ (((lin0.setLinCtl 0 { Lin.init with cur := some ⟨0x20, 2, 8, true, none⟩ }).linCtl 0).cur).map (fun f => f.dir) = some 2
    ∧ hasXcvr 20 = true ∧ hasXcvr 31 = true ∧ hasXcvr 32 = false ∧ hasXcvr 40 = true ∧ hasXcvr 19 = false ∧ lin0.segState 40 < 2
    ∧ bit ((lin0.tset memResp 0 0 1).tget memResp 0 0) 0 = true := by decide +kernel

/-- GE port 4 enabled without a link, and coming back from a retrain. -/
def down4 : Dev := up.set (F.ETH_MAC_CFG_EN 4) 1
def retraining (revert : Bool) (target : Nat) : Dev := (down4.set (F.ETH_STEP_STATUS_STATE 4) 4).setEthPort 4 { EthPort.init with revert := revert, target := target }
def sending12 : Dev := (holding (copyTo 12 0 true false) (plca 1)).setEthPort 12 { EthPort.init with tx := some 7 }

theorem witness_LinksAndGates_links : down4.quiet ∧ down4.flag (F.ETH_STATUS_LINK 4) = false ∧ down4.flag (F.ETH_MAC_CFG_EN 4) = true ∧ down4.portUp 4 = true
    ∧ down4.isolated (blkEth 4) = false ∧ down4.get (F.ETH_RATE_CUR 4) ≠ 7 ∧ (retraining false 1).get (F.ETH_STEP_STATUS_STATE 4) = 4
    ∧ ((retraining false 0).ethPort 4).target < ((retraining false 0).set (F.ETH_RATE_FLOOR 4) 1).get (F.ETH_RATE_FLOOR 4)
    ∧ ((retraining true 0).ethPort 4).revert = true ∧ (plca 0).flag (F.ETH_PLCA_CFG_EN 12) = true ∧ ((plca 0).ethPort 12).noBeacon = false
    ∧ port3.part 3 = none ∧ ((plca 0).setEthPort 12 { EthPort.init with noBeacon := true }).linkReady 12 = true
    ∧ ((up.set (F.ETH_PLCA_CFG_EN 12) 0)).flag (F.ETH_PLCA_CFG_EN 12) = false := by
  refine ⟨rfl, ?_⟩; decide +kernel
theorem witness_LinksAndGates_gates : (port3.set (F.ETH_GATE_STATUS_PENDING 3) 1).flag (F.ETH_GATE_STATUS_PENDING 3) = true
    ∧ (up.gateOper 3).en = false ∧ ((up.set (F.ETH_GATE_OPER_DATA 3) 0x10001).gateOper 3).en = true ∧ ((up.set (F.ETH_GATE_OPER_DATA 3) 0x10001).gateOper 3).len ≠ 0
    ∧ (port3.set (F.ETH_STEP_CFG_LPI_EN 3) 1).flag (F.ETH_STEP_CFG_LPI_EN 3) = true ∧ [25000, 10000, 5000, 1000].contains ((port3.set (F.ETH_RATE_CUR 3) 5).portRate 3) = true
    ∧ port3.flag (F.ETH_STEP_STATUS_PARTNER 3) = false ∧ port3.contractOut 3 = false ∧ port3.copiesOn 3 = [] ∧ (port3.ethPort 3).tx = none
    ∧ (sending12.ethPort 12).tx = some 7 ∧ sending12.fwd.copies.find? (fun c => c.seq == 7) = some (copyTo 12 0 true false) ∧ sending12.plcaActive 12 = true
    ∧ ((holding { copyTo 12 0 true false with tries := 15 } sending12).fwd.copies.find? (fun c => c.seq == 7)).map (fun c => c.tries) = some 15 := by decide +kernel

/-- Port 3 below its nominal rate with an agent that may start. -/
def steppingUp (cells : Nat) : Dev := sets [(F.ETH_STEP_STATUS_PARTNER 3, 1), (F.ETH_RATE_NOM 3, 5), (F.ETH_RATE_CUR 3, 4), (F.ETH_STEP_CFG_AUTO 3, 1), (F.ETH_STEP_WIN_UP_CELLS 3, cells)] (mgmtOn port3)
theorem witness_RateSteps_moves : (steppingUp 1).stepFree 3 = true ∧ (steppingUp 1).get (F.ETH_RATE_CUR 3) < (steppingUp 1).get (F.ETH_RATE_NOM 3)
    ∧ (((steppingUp 1).setEthPort 3 { EthPort.init with upReq := true }).ethPort 3).upReq = true ∧ (((steppingUp 1).setEthPort 3 { EthPort.init with toNom := true }).ethPort 3).toNom = true
    ∧ (steppingUp 0).get (F.ETH_STEP_WIN_UP_CELLS 3) = 0 ∧ (stepping 3 0).get (F.ETH_STEP_STATUS_STATE 3) = 3
    ∧ ((stepping 3 0).ethPort 3).target < ((stepping 3 0).set (F.ETH_RATE_FLOOR 3) 3).get (F.ETH_RATE_FLOOR 3) ∧ (steppingUp 1).agentMayStart = true ∧ up.agentMayStart = false
    ∧ (mgmtOn up).mgmtRuns = true ∧ ({ mgmtOn up with fwd := { up.fwd with mgmt := [(3, beBytes 6 0x0180C200000E ++ beBytes 6 1 ++ beBytes 2 0x88CC)] } } : Dev).fwd.mgmt.find?
        (fun m => (parseHdr m.2).etype == 0x88CC && decide (m.1 < 12)) = some (3, beBytes 6 0x0180C200000E ++ beBytes 6 1 ++ beBytes 2 0x88CC)
    ∧ ((port3.setEthPort 3 { EthPort.init with lldpAt := some 0, ttlEnd := some 5 }).ethPort 3).ttlEnd = some 5 := by decide +kernel

theorem witness_TimeBase_gptp : up.opens 3 R.TIME_CTRL ∧ (regDef R.TIME_CTRL).isSome = true ∧ slave.flag F.TIME_CTRL_EN = true ∧ up.rolesOk 1 = true ∧ slave.rolesOk 1 = false
    ∧ up.flag F.TIME_CTRL_EN = false ∧ bf 3 1 2 = 1 ∧ bf 3 3 2 = 0 ∧ bit 3 0 = true ∧ 16000000000 ≤ ((16000000000 * 2 ^ 32 / 2 ^ 32 : Nat) - (up.dtime : Nat) : Int).natAbs
    ∧ ((15999999999 * 2 ^ 32 / 2 ^ 32 : Nat) - (up.dtime : Nat) : Int).natAbs < 16000000000 := by
  unfold Dev.opens; decide +kernel

/-- A received PTP message of a type on port 0, all else zero; a slave that has a Sync and its Follow_Up, and a pdelay exchange. -/
def ptpIn (t : Nat) : PtpIn := ⟨0, (frame 14).take 12 ++ beBytes 2 0x88F7 ++ beBytes 1 t ++ List.replicate 60 0, 0, 0⟩
def synced : Dev := { slave.set (F.TIME_GPTP_PORT_AS_CAPABLE 0) 1 with time := { TimeSt.init with rxq := [ptpIn 0, ptpIn 8] } }
def pdelayed : Dev := { slave.setGptp 0 { (slave.gptp 0) with waiting := some (0, 0) } with time := { TimeSt.init with rxq := [ptpIn 3, ptpIn 10] } }
theorem witness_SyncAndPps_messages : synced.slavePort = some 0 ∧ synced.gptpOn 0 = true ∧ synced.mgmtRuns = true ∧ synced.flag (F.TIME_GPTP_PORT_AS_CAPABLE 0) = true
    ∧ synced.get F.TIME_CTRL_ROLE = 3
    ∧ synced.time.rxq.findSome? (fun f => if f.port == 0 && ptpType (ptpBody f) == 8 then
        (synced.ptpFind 0 (fun b => ptpType b == 0 && ptpSeq b == ptpSeq (ptpBody f) && ptpSrc b == ptpSrc (ptpBody f))).map (fun y => (y, f)) else none) = some (ptpIn 0, ptpIn 8)
    ∧ (synced.set (F.TIME_CTRL_ROLE) 2).get F.TIME_CTRL_ROLE = 2 ∧ (sets [(F.TIME_CTRL_ROLE, 1), (F.TIME_GPTP_PORT_ROLE 0, 1)] synced).get (F.TIME_GPTP_PORT_ROLE 0) = 1
    ∧ ({ up with time := { TimeSt.init with rxq := [ptpIn 2] } } : Dev).time.rxq.find? (fun x => ptpType (ptpBody x) == 2) = some (ptpIn 2)
    ∧ ({ up with time := { TimeSt.init with ppsIn := some 0, ppsEnd := some 5 } } : Dev).time.ppsIn = some 0 ∧ up.time.ppsLost = false := by decide +kernel

/-- A frame of connection 0 waits for the engine; sessions of it. -/
def arriving (bs : List Byte) : Dev := { xptOn with xpt := { xptOn.xpt with inq := [⟨20, { Msg.init with data := bs }, 5⟩] } }
def receiving : Dev := xptOn.setSess (rxKey 0) (some { Sess.init with state := 1, ctx := some 0, len := 20, bytes := 6, dl := some 1000, rxDl := 8 })
theorem witness_TransportReceive_frames : (arriving [1, 0xAA]).xpt.inq = ⟨20, { Msg.init with data := [1, 0xAA] }, 5⟩ :: []
    ∧ xptOn.xptMatch ⟨20, { Msg.init with data := [1, 0xAA] }, 5⟩ = some 0 ∧ xptOn.connTouch 0 = xptOn ∧ cnAe (xptOn.conn 0) = 0 ∧ cnReqPad (xptOn.conn 0) = false
    ∧ cnFunc (xptOn.conn 0) = false ∧ sfMax 8 0 < 8 ∧ xptOn.sessTouch (rxKey 0) = xptOn ∧ cnMaxDl (xptOn.conn 0) < 8 ∧ xptOn.freeCtx = some 0
    ∧ cnMaxDl ((xptOn.tset memConn 0 0 (2 ^ 79 + 8 * 2 ^ 96 + 20 * 2 ^ 64 + 8 * 2 ^ 160)).conn 0) = 8 ∧ xptOn.unusedC 0 + (8 + 127) / 128 ≤ xptOn.freeCells 0
    ∧ (receiving.xptLapse (rxKey 0) 5).sess (rxKey 0) = receiving.sess (rxKey 0) ∧ (receiving.sess (rxKey 0)).map (fun x => x.state) = some 1
    ∧ receiving.sessTouch (rxKey 0) = receiving ∧ receiving.seqPaused ((receiving.sess (rxKey 0)).getD Sess.init) = false
    ∧ receiving.xptServeUpTo 20 1000 = receiving ∧ (arriving [1, 0xAA]).xptServeUpTo 20 4 = arriving [1, 0xAA]
    ∧ receiving.tables.bad.contains (tkey memCtx 0 0) = false
    ∧ ({ receiving with tables := { TblSt.init with soft := [tkey memCtx 0 0] } } : Dev).tables.soft.contains (tkey memCtx 0 0) = true
    ∧ ({ receiving with tables := { TblSt.init with bad := [tkey memCtx 0 0] } } : Dev).tables.bad.contains (tkey memCtx 0 0) = true := by decide +kernel
theorem witness_TransportReceive_pdus :
    ({ xptOn with xpt := { xptOn.xpt with pduq := [⟨7, [1], none⟩] } } : Dev).xpt.pduq = ⟨7, [1], none⟩ :: [] ∧ xptOn.conns.find? (fun p => cnBridge p.2 && cnInPdu p.2 == 7) = none
    ∧ ((xptOn.tset memConn 0 0 (2 ^ 79 + 8 * 2 ^ 96 + 20 * 2 ^ 64 + 2 ^ 123 + 7 * 2 ^ 224)).conns.find? (fun p => cnBridge p.2 && cnInPdu p.2 == 7)).map (fun p => p.1) = some 0
    ∧ ((xptOn.setSess (txKey 0) (some (session 4))).sess (txKey 0)).isSome = true ∧ ({ up with boot := { BootSt.init with seqCode := [1] } } : Dev).boot.seqCode ≠ []
    ∧ xptOn.boot.seqCode = [] := by decide +kernel

/-- A RANDOM of 16 bytes is queued; a derived key of slot 0 is awaited. -/
def drawing : Dev := (withOp (anOp 58 opRandom .queued) (cryOn.set F.CRY_STATUS_TRNG_OK 1)).hostWrite 0x1020 [16]
def awaiting : Dev := { withOp (anOp 58 opHmac .running) (sets [(F.VAULT_STATUS_STATE, 1)] (cryOn.tset memSlot 0 0 (2 ^ 328))) with
  cry := { CrySt.init with jobs := [hashJob .key], cache := [⟨0, 0, [], false⟩] } }
theorem witness_CryptoRuns_keys : drawing.nextQueued 58 [1, 2, 3, 4, 5, 6] = some (anOp 58 opRandom .queued)
    ∧ awaiting.cry.jobs.filter (fun j => decide (j.phase = .key) && j.slot == 0) = [hashJob .key]
    ∧ awaiting.host.ops.find? (fun o => o.ring == 58 && o.idx == 0) = some (anOp 58 opHmac .running) ∧ awaiting.slotAvail 0 = true ∧ awaiting.cacheHit 0 = some ⟨0, 0, [], false⟩
    ∧ ({ awaiting with cry := { awaiting.cry with cache := [] } } : Dev).cacheHit 0 = none ∧ (hashJob .key).need opHmac = 0
    ∧ ({ cryOn with cry := { CrySt.init with jobs := [{ hashJob .units with input := [] }] } } : Dev).cry.jobs.find? (fun j => decide (j.phase = .units)) = some (hashJob .units) := by decide +kernel

theorem witness_SegmentTimers_excuse : (segment 0).segState 20 = 0 ∧ ((segment 1).setSeg 20 { Seg.init with ka := some 0 }).segRuns 20 = true := by decide +kernel

/-- 31 and 32 commands in flight on the link; every second message repeated. -/
def flying (n : Nat) : Dev := { linkOn with load := { LoadSt.init with flight := List.replicate n (0, 1, 0, 1) } }
def noisy : Dev := sets [(F.FLT_PERT_D2D_EN blkPwr, 1), (F.FLT_PERT_D2D_EVERY blkPwr, 2), (F.FLT_PERT_D2D_EXTRA blkPwr, 3)] linkOn
theorem witness_LoadCommandRule_link : (flying 31).load.flight.length < 32 ∧ (flying 32).load.flight = (0, 1, 0, 1) :: List.replicate 31 (0, 1, 0, 1)
    ∧ linkOn.flag (F.FLT_PERT_D2D_EN blkPwr) = false ∧ noisy.flag (F.FLT_PERT_D2D_EN blkPwr) = true := by decide +kernel
theorem test_link_repeats : (noisy.flits 2).get F.PWR_D2D_RETRIES_COUNT = 3 ∧ (noisy.flits 1).get F.PWR_D2D_RETRIES_COUNT = 0 := by decide +kernel

theorem witness_HostTransmitSteps_send : (withOp (anOp 59 0x40 .running) up).host.ops.find? (fun (o : Op) => o.ring == 59 && o.idx == 0 && o.state == .running) = some (anOp 59 0x40 .running)
    ∧ (withOp (anOp 57 1 .running) up).host.ops.find? (fun (o : Op) => o.ring == 57 && o.idx == 0 && o.state == .running) = some (anOp 57 1 .running) := by decide +kernel

theorem witness_MemoryWindows_limits :
    (up.set F.XPT_MEM_SEL_INDEX 255).get F.XPT_MEM_SEL_INDEX < 256 ∧ 256 ≤ (up.set F.XPT_MEM_SEL_INDEX 256).get F.XPT_MEM_SEL_INDEX
    ∧ (up.set F.XPT_MEM_SEL_MEM 1).get F.XPT_MEM_SEL_MEM = 1 ∧ (up.set F.XPT_MEM_CMD_WRITE 1).flag F.XPT_MEM_CMD_WRITE = true
    ∧ up.cnBad 0 (2 ^ 79 + 8 * 2 ^ 96) = true ∧ up.cnBad 0 0 = false ∧ chanBad 0 = false ∧ chType (up.chan 0) = 0 ∧ up.chanLocked 0 = false
    ∧ (sets [(F.STE_MEM_SEL_MEM, 6), (F.STE_MEM_SEL_INDEX, 15)] up).get F.STE_MEM_SEL_INDEX < steEntries 6 ∧ steEntries 6 ≤ (sets [(F.STE_MEM_SEL_MEM, 6), (F.STE_MEM_SEL_INDEX, 16)] up).get F.STE_MEM_SEL_INDEX
    ∧ up.steNamed 6 15 = false ∧ (sets [(F.LIN_MEM_SEL_MEM 7, 1), (F.LIN_MEM_SEL_INDEX 7, 63)] up).get (F.LIN_MEM_SEL_INDEX 7) < 64 := by decide +kernel

theorem witness_SwitchRows_standby : (∀ p : Fin 48, up.segOn p = true → up.segState p = 4)
    ∧ ((regDef R.NM_PWR_CTRL).map (fun r => (up.beforeWrite 0 R.NM_PWR_CTRL).plain r 0 R.NM_PWR_CTRL 0)).map (fun d =>
        d.stores && d.admitted.isEmpty && !d.host.ops.any (fun (o : Op) => o.ring == 59) && (List.range 48).all (fun p => !d.segOn p)) = some true := by decide +kernel

/-- The debug unlock failed at 0. -/
def dbgFailed (t : Nat) : Dev := { up with time := { TimeSt.init with now := t }, vault := { VaultSt.init with dbgFailAt := some 0 } }
theorem witness_OneShotRows_debug : (∃ x, pertMem blkXpt 1 = some x ∧ x.mem = memCtx ∧ 255 < x.count ∧ 7 < x.words) ∧ (∃ x, pertMem blkXpt 0 = some x ∧ x.mem ≠ memCtx)
    ∧ (dbgFailed (sCyc - 1)).vault.dbgFailAt = some 0 ∧ (dbgFailed (sCyc - 1)).now < 0 + sCyc ∧ 0 + sCyc ≤ (dbgFailed sCyc).now ∧ (up.set F.CRY_STATUS_TRNG_OK 1).drbgOk = true
    ∧ up.slotMay 0 useDebug = false ∧ (sets [(F.VAULT_STATUS_STATE, 1)] (up.tset memSlot 0 0 (2 ^ 328 + 2 ^ 320 * 255))).slotAvail 0 = true := by
  refine ⟨⟨_, rfl, ?_⟩, ⟨_, rfl, ?_⟩, ?_⟩ <;> decide +kernel

theorem witness_ReadShadow_link : up.linkUse R.TIME_DTIME_LO 2 = up ∧ inPwr R.TIME_DTIME_LO = false ∧ (linkOn.linkUse R.LOADC_WD_CFG 2).pathUp 0 = true
    ∧ inPwr R.LOADC_WD_CFG = true ∧ linkOn.linkStall R.LOADC_WD_CFG = false ∧ linkOn.load.flight.length < 32 := by decide +kernel

theorem witness_DomainSteps_seven : bit ({ up with pwr := { up.pwr with goingOn := 64 } } : Dev).pwr.goingOn (7 - 1) = true ∧ tblBoth 2 = true ∧ tblBoth 6 = true ∧ tblBoth 7 = false
    ∧ (({ up with pwr := { up.pwr with tileBCopy := true } } : Dev).tset 2 0 5 1).tget 2 0 5 ≠ 0 ∧ up.tget 2 0 5 = 0 := by decide +kernel

/-! ### Clauses of the statements, each at a state that meets its hypotheses -/

/-- The same request where the ports are down, so it is refused; and one whose key is a field route. -/
def refusing (opcode : Nat) : Dev := (withOp (anOp 56 opcode .running) up).hostWrite 0x1000 (leBytes 64 request)
theorem witness_AdmitCommits_route : ((asking 1).routeRead request).quiet ∧ ((refusing 1).routeRead request).quiet ∧ (refusing 1).quiet
    ∧ (refusing 1).anvilOp 1 = some (anOp 56 1 .running) ∧ (refusing 2).anvilOp 2 = some (anOp 56 2 .running)
    ∧ leNat ((refusing 1).hostRead 0x1000 64) = request ∧ (refusing 1).evaluate request = .refuse ⟨rsnPortState, 5⟩ 0xFFFFFFFF 0xFFFF ∧ rqKeyType request ≠ 1
    ∧ (withOp (anOp 56 1 .running) up).anvilOp 1 = some (anOp 56 1 .running) ∧ badRequest (leNat ((withOp (anOp 56 1 .running) up).hostRead 0x1000 64)) = true := by
  refine ⟨rfl, rfl, rfl, ?_⟩; decide +kernel

/-- Port 3's segment ASLEEP; a T1S port behind PLCA whose ledger sees a frame; a frame of port 3 in its early part. -/
def asleep3 : Dev := sets [(F.NM_CTRL_EN, 1), (F.NM_SEG_CFG_EN 3, 1), (F.NM_SEG_STATUS_STATE 3, 4)] port3
def early3 (dead : Bool) (h : Option Nat) : Dev := (holding (copyTo 4 0 true false) port3).setPart 3 (some { Part.init with handle := h, got := 60, dead := dead })
def mac3 : Dev := port3.set (F.ETH_STATUS_MACSEC 3) 1
theorem witness_EthernetReceive_parts : port3.segHears 3 = true ∧ asleep3.segHears 3 = false ∧ asleep3.quiet ∧ ((linked 3 up).plcaSeen 3 .whole 64 none).flag F.FWD_CTRL_FWD_EN = false
    ∧ ((linked 12 up).plcaSeen 12 .badFcs 64 (some (1, 0))).flag F.FWD_CTRL_FWD_EN = false
    ∧ (((early3 true none).plcaSeen 3 .badFcs 64 none).part 3).map (fun y => y.dead) = some true
    ∧ (((early3 false (some 0)).plcaSeen 3 .badFcs 64 none).part 3).map (fun y => y.dead) = some false ∧ (early3 false (some 0)).flag F.FWD_CTRL_FWD_EN = true
    ∧ (early3 false none).portAvail 3 = true ∧ (early3 false none).linkReady 3 = true ∧ (early3 false none).segHears 3 = true
    ∧ (((port3.plcaSeen 3 .whole 64 none).countRx 3 64).segReceived 3 none none).part 3 = none
    ∧ ((((early3 false (some 0)).countRx 3 64).segReceived 3 none none).part 3).isSome = true
    ∧ (((mac3.countRx 3 64).segReceived 3 none none).macsecOn 3) = true ∧ ((mac3.countRx 3 64).segReceived 3 none none).part 3 = none
    ∧ (ts12.plcaSeen 12 .whole 64 (some (1, 0))).flag F.FWD_CTRL_FWD_EN = true ∧ 64 ≤ ts12.get (F.ETH_MAX_LEN_LEN 12) := by
  refine ⟨?_, ?_, rfl, ?_⟩ <;> decide +kernel

/-- Port 3 cuts through; its VLAN 1 floods to a set of ports, or to HOST alone. -/
def flooding (members : Nat) (host : Bool) : Dev := (linked 4 cutting).tset 2 1 1 (members + 2 ^ 96 + b2n host * 2 ^ 98)
/-- A contract on the cut-through frame's stream: with a secondary ingress port, and without. -/
def streamed (sec : Nat) : Dev :=
  let r := request % 2 ^ (8 * 54) + sec * 2 ^ (8 * 54) + request / 2 ^ (8 * 56) * 2 ^ (8 * 56)
  ((flooding 24 false).setContract 0 (some (up.newContract r 0))).tset 3 1 0 (0x554433221102 + 2 ^ 48 + 2 ^ 63)
theorem witness_EthernetReceive_cut : (flooding 24 false).portAvail 3 = true ∧ (flooding 24 false).linkReady 3 = true ∧ (flooding 24 false).part 3 = none
    ∧ (flooding 24 false).macsecOn 3 = false ∧ (flooding 24 false).dispo 3 (parseHdr (frame 64)) (frame 64) = .lookup ∧ (flooding 24 false).ctThresh 3 = some 64
    ∧ (flooding 24 false).flag F.FWD_CTRL_FWD_EN = true ∧ (frame 64).length + 4 < 100
    ∧ ((flooding 24 false).classify 3 0 (parseHdr (frame 64))).2 = some (0, 1) ∧ ((flooding 24 false).stream 1 (parseHdr (frame 64)).da 1).2 = none
    ∧ ((flooding 24 false).ethPlan 3 1 0 (frame 64) (parseHdr (frame 64)) 100 false).2.map (fun x => x.ports) = some [4]
    ∧ ((flooding 8 true).ethPlan 3 1 0 (frame 64) (parseHdr (frame 64)) 100 false).2.map (fun x => x.ports) = some []
    ∧ ((flooding 8 false).ethPlan 3 1 0 (frame 64) (parseHdr (frame 64)) 100 false).2 = none
    ∧ (((streamed 5).stream (b2n (pipeB 3)) (parseHdr (frame 64)).da 1).2.bind (fun y => (streamed 5).contract y.1)).map (fun k => rqSecIn k.req) = some 5
    ∧ (((streamed 0xFFFF).stream (b2n (pipeB 3)) (parseHdr (frame 64)).da 1).2.bind (fun y => (streamed 0xFFFF).contract y.1)).map (fun k => rqSecIn k.req) = some 0xFFFF
    ∧ (streamed 5).quiet ∧ ((streamed 5).classify 3 0 (parseHdr (frame 64))).2 = some (0, 1) := by
  have q : (streamed 5).quiet := rfl
  simp only [q, true_and]; decide +kernel

/-- A preemptable copy of a long frame in transmission on port 3; T1S port 12's segment from PREPARE on. -/
def preempting : Dev := ((holding { copyTo 3 5 true false with msg := { stored.msg with data := frame 180 } } port3).set (F.ETH_PREEMPT_STATUS_ACTIVE 3) 1).setEthPort 3 { (port3.ethPort 3) with tx := some 7 }
def quiet12 : Dev := sets [(F.NM_CTRL_EN, 1), (F.NM_SEG_CFG_EN 12, 1), (F.NM_SEG_STATUS_STATE 12, 2)] (linked 12 up)
theorem witness_EthernetEgress_segments : port3.segSends 3 = true ∧ quiet12.quiet ∧ quiet12.t1sMaySend 12 = true ∧ quiet12.segSends 12 = false ∧ (linked 12 up).segSends 12 = true
    ∧ up.get (F.ETH_PLCA_TIMERS_MAX_BC 12) < 1 ∧ preempting.quiet
    ∧ preempting.flag (F.ETH_PREEMPT_STATUS_ACTIVE 3) = true ∧ (0 + 120 + 60 ≤ (frame 180).length) ∧ (frame 180).length < 0 + 121 + 60
    ∧ ((preempting.fwd.copies.find? (fun c => c.seq == 7)).map (fun c => (c.sent, c.ahead, c.tc))) = some (0, 0, 5) := by
  have q : quiet12.quiet := rfl
  have q2 : preempting.quiet := rfl
  simp only [q, q2, true_and]; decide +kernel

/-- A record of CAN XL controller 0 whose words were read as they came: with a stored early part, without, and dropped. -/
def queuedXl (dead : Bool) (h : Option Nat) : Dev :=
  (up.set F.FWD_CTRL_FWD_EN 1).setFq 8 [⟨{ Msg.init with form := 4, id := 0x123, data := [1] }, 0, 0, false, some { Part.init with handle := h, got := 1, dead := dead }, 1⟩]
def asleep20 : Dev := sets [(F.NM_CTRL_EN, 1), (F.NM_SEG_CFG_EN 20, 1), (F.NM_SEG_STATUS_STATE 20, 4)] can0
/-- A copy of an early CAN XL frame of 64 bytes waits for port 4's start test. -/
def xlWaiting (got : Nat) : Dev :=
  let f : Frame := { stored with ingress := 20, msg := { Msg.init with form := 4, data := List.replicate 64 0 } }
  ({ can0 with fwd := { can0.fwd with frames := [(0, some f)], copies := [{ copyTo 4 5 false true with ahead := 800 }] } }.setPart 20 (some { Part.init with handle := some 0, got := got })).set (F.FWD_XL_CT_THRESH 0) 64 |>.set (F.ETH_RATE_CUR 4) 0
theorem witness_FieldQueues_parts : (queuedXl false none).quiet ∧ asleep20.quiet ∧ (xlWaiting 64).quiet
    ∧ ((queuedXl true none).fq 8).map (fun r => (r.part.map (fun x => x.dead), r.bad)) = [(some true, false)]
    ∧ ((queued false).setFq 8 []).ready (if pipeB 20 then 3 else 2) = true ∧ ((queued false).setFq 8 []).flag F.FWD_CTRL_FWD_EN = true
    ∧ ((((queued false).set F.FWD_CTRL_FWD_EN 0).setFq 8 []).fqMove 8 0 1).flag F.FWD_CTRL_FWD_EN = false
    ∧ asleep20.canReceives 0 = true ∧ asleep20.segHears 20 = false ∧ can0.segHears 20 = true ∧ can0.canOff 0 0 = false
    ∧ (sets [(F.CAN_CTRL_XL_EN 0, 1)] can0).canOff 0 4 = false
    ∧ (xlWaiting 64).xlThresh 0 = some 64 ∧ ((xlWaiting 64).copiesOf 0).find? (fun (x : Copy) => x.port == 4 && x.wait) = some { copyTo 4 5 false true with ahead := 800 }
    ∧ ((xlWaiting 63).part 20).map (fun x => (x.got, x.handle)) = some (63, some 0)
    ∧ (((88 * (64 - 64) + 9) / 10 + 48) * ((xlWaiting 64).dataMtq 0 * 25) + 14 * ((xlWaiting 64).nomMtq 0 * 25) + 4000) * (xlWaiting 64).portRate 4 ≤ 16000 * (xlWaiting 64).wireLen 4 { copyTo 4 5 false true with ahead := 800 } := by
  refine ⟨rfl, rfl, rfl, ?_⟩; decide +kernel

/-- An image that is no cyclic one, with cyclic release on. -/
def uncyclic (m : Nat) : Dev := (steOn.set F.STE_CTRL_CYC_EN 1).tset (steMem 0) 0 4351 (2 ^ 39 + m * 2 ^ 44)
theorem witness_SignalEngineSteps_off : steOn.flag F.STE_CTRL_CYC_EN = false ∧ (uncyclic 1).flag F.STE_CTRL_CYC_EN = true ∧ (uncyclic 1).steRuns = true
    ∧ imMode ((uncyclic 1).steEnt 0 4351) = 1 ∧ imValid ((uncyclic 1).steEnt 0 4351) = true ∧ imValid ((uncyclic 1).steEnt 0 0) = false := by decide +kernel

/-- An FD frame with bit-rate switching in transmission on the compensating controller; a copy of a field port in arbitration. -/
def fdSent : Msg := { Msg.init with form := 2, id := 0x123, data := [1, 2], flags := 1 }
def xlListen : Dev := can0.set (F.CAN_CTRL_MODE 0) 1
theorem witness_CanTraffic_edges : can0.segHears 20 = true ∧ can0.segSends 20 = true ∧ asleep20.segHears 20 = false ∧ asleep20.canReceives 0 = true ∧ asleep20.segSends 20 = false
    ∧ (can0.set (F.CAN_CTRL_MODE 0) 0).get (F.CAN_CTRL_MODE 0) ≠ 1 ∧ xlListen.get (F.CAN_CTRL_MODE 0) = 1 ∧ xlListen.canReceives 0 = true ∧ xlListen.rateSearching 0 = false
    ∧ (can0.set (F.CAN_RD_STATUS_STATE 0) 1).segHears 20 = true ∧ (can0.set (F.CAN_RD_STATUS_STATE 0) 1).canReceives 0 = true
    ∧ tdcEdge 4 0 [3, 4] = none ∧ tdcEdge 4 0 [3, 10] = some 10 ∧ tdcEdge 0 0 [3] = some 3 ∧ tdcEdge 4 0 [] = none
    ∧ (fdSent.form == 4 || ((fdSent.form == 2 || fdSent.form == 3) && bit fdSent.flags 0)) = true
    ∧ can0.flag (F.CAN_CTRL_SELF_RX 0) = false ∧ can0.canInit 0 = false ∧ (can0.ctl 0).joining = false ∧ ((arbitrating false).arbCopy 0).map (fun x => x.2.started) = some false := by decide +kernel

/-- A LIN responder that awaits the response of an entry of 8 bytes; a commander whose schedule stops with a go-to-sleep command due. -/
def awaitingLin (id : Nat) (enhanced : Bool) : Dev := lin0.setLinCtl 0 { Lin.init with cur := some ⟨id, 2, 8, enhanced, none⟩ }
def ending (due : Bool) : Dev := scheduling.setLinCtl 0 { Lin.init with running := true, stopping := true, sleepDue := due }
def aByte : List Byte := [1]
theorem witness_LinSteps_sums : ((ending true).linCtl 0).sleepDue = true ∧ ((ending true).reach 0).linActive 0 = true ∧ ((ending false).linCtl 0).sleepDue = false
    ∧ (lin0.linWant 0 0x20).getD 1 = 1 ∧ ((awaitingLin 0x20 true).linWant 0 0x20).getD 1 = 8 ∧ (awaitingLin 0x20 true).linActive 0 = true
    ∧ lin0.linSumOk 0 0x20 aByte (linClassic aByte) = some true ∧ lin0.linSumOk 0 0x20 aByte (linEnhanced 0x20 aByte) = some false ∧ lin0.linSumOk 0 0x20 aByte 0 = none
    ∧ ((awaitingLin 0x20 true).linCtl 0).cur = some ⟨0x20, 2, 8, true, none⟩ ∧ (awaitingLin 0x20 true).linSumOk 0 0x20 aByte (linClassic aByte) = none
    ∧ (awaitingLin 0x3C true).linSumOk 0 0x3C aByte (linClassic aByte) = some true ∧ (awaitingLin 0x20 false).linSumOk 0 0x20 aByte (linClassic aByte) = some true
    ∧ lin0.linSumOk 0 0x3C (bytes [0, 0xFF, 0xFF, 0xFF, 0xFF, 0xFF, 0xFF, 0xFF]) (linClassic (bytes [0, 0xFF, 0xFF, 0xFF, 0xFF, 0xFF, 0xFF, 0xFF])) = some true := by decide +kernel

/-- CAN segment 20 in WAKING, its transceiver on its way to the active mode. -/
def waking20 (mode : Nat) : Dev := sets [(F.PWR_XCVR_CAN_MODE 0, mode), (F.NM_SEG_CFG_ACT_MODE 20, 1)] (segment 5)
theorem witness_LinSteps_transceiver : ((waking20 1).xcvrApply 20).canContends 0 = false
    ∧ ((((waking20 1).xcvrApply 20).canClear 0 false).segOn 20 && (((waking20 1).xcvrApply 20).canClear 0 false).segState 20 == 5) = true
    ∧ (((waking20 1).xcvrApply 20).canClear 0 false).get (F.PWR_XCVR_CAN_MODE_ACT 0) = (((waking20 1).xcvrApply 20).canClear 0 false).get (F.NM_SEG_CFG_ACT_MODE 20)
    ∧ (((waking20 4).xcvrApply 20).canClear 0 false).get (F.PWR_XCVR_CAN_MODE_ACT 0) ≠ 1 := by decide +kernel

theorem witness_LinksAndGates_power : up.linkPower 4 = false ∧ down4.linkPower 4 = true ∧ (down4.seg 4).phyLow = false ∧ ((down4.setSeg 4 { Seg.init with phyLow := true }).seg 4).phyLow = true
    ∧ ((retraining false 1).setEthPort 4 { EthPort.init with toNom := true }).linkPower 4 = true ∧ (((plca 0).setSeg 12 { Seg.init with phyLow := true }).seg 12).phyLow = true
    ∧ ((plca 0).seg 12).phyLow = false ∧ ((plca 1).ethPort 12).noBeacon = false ∧ (((plca 0).setEthPort 12 { EthPort.init with noBeacon := true }).ethPort 12).noBeacon = true := by decide +kernel

/-- A capture of the AON time base is asked for, at the next tick edge or on the clock's return. -/
def snapping (at_ : Option Nat) : Dev := { up with time := { TimeSt.init with snapGo := true, snapAt := at_ } }
theorem witness_TimeBase_capture : up.opens 0 R.TIME_AON_SNAP ∧ ((snapping none).beforeWrite 0 R.TIME_AON_SNAP).time.snapGo = true ∧ (snapping none).opens 0 R.TIME_AON_SNAP
    ∧ (up.beforeWrite 0 R.TIME_AON_SNAP).time.snapGo = false ∧ (({ up with time := { TimeSt.init with aonHeld := some 0 } } : Dev).beforeWrite 0 R.TIME_AON_SNAP).time.aonHeld = some 0
    ∧ (snapping (some 24415)).time.snapAt = some 24415 ∧ (snapping (some 24415)).now < 24415 ∧ 24415 ≤ (snapping (some 24415)).now + 24415 ∧ (snapping (some 24415)).now + 24414 < 24415
    ∧ (16000000000 * 2 ^ 32 : Nat) < 2 ^ 96 ∧ ((16000000000 * 2 ^ 32 / 2 ^ 32 : Nat) - (up.dtime : Nat) : Int).natAbs ≤ 2 ^ 64 - 16000000000
    ∧ up.opens 0 R.TIME_SLEW_CTRL ∧ (up.beforeWrite 0 R.TIME_SLEW_CTRL).timeMay 0 = true := by
  unfold Dev.opens; decide +kernel

/-- A flow control arrives in time for the session that waits; sequencer 0 paused; every context taken; no free cell in a half. -/
def flowing : Dev := { (xptOn.setSess (txKey 0) (some (session 4))) with xpt := { (xptOn.setSess (txKey 0) (some (session 4))).xpt with inq := [⟨20, { Msg.init with data := [0x30, 0, 0] }, 5⟩] } }
def pausedSeq (d : Dev) : Dev := d.set F.XPT_STATUS_PAUSED 1
def fullCtx : Dev := { xptOn with xpt := { xptOn.xpt with sess := (List.range 256).map (fun n => (2 * n + 100, some { Sess.init with ctx := some n })) } }
def noCells : Dev := { xptOn with fwd := { xptOn.fwd with frames := [(0, some { stored with cells := 49152, half := b2n (pipeB 20) })] } }
/-- Connection 0 with MAX_DL 100, and bridging. -/
def longConn (d : Dev) : Dev := d.tset memConn 0 0 (2 ^ 79 + 8 * 2 ^ 96 + 20 * 2 ^ 64 + 100 * 2 ^ 160)
def bridging (n : Nat) : Dev := ({ xptOn with xpt := { xptOn.xpt with pduq := [⟨7, List.replicate n 0, none⟩] } } : Dev).tset memConn 0 0 (2 ^ 79 + 8 * 2 ^ 96 + 20 * 2 ^ 64 + 2 ^ 123 + 7 * 2 ^ 224)
def cfIn (n : Nat) : XptIn := ⟨20, { Msg.init with data := List.replicate n 0x21 }, 5⟩
theorem witness_TransportReceive_served :
    flowing.heldBy (txKey 0) = none ∧ flowing.sessTouch (txKey 0) = flowing ∧ (flowing.sess (txKey 0)).map (fun x => (x.dl, x.state)) = some (some 1000, 4)
    ∧ (((flowing.reachDtime 1000).xptServeUpTo 20 1000).sess (txKey 0)).map (fun y => y.state) = some 5
    ∧ (((((xptOn.setSess (txKey 0) (some (session 4))).reachDtime 1000).xptServeUpTo 20 1000).sess (txKey 0)).map (fun y => (y.state, y.dl))) = some (4, some 1000)
    ∧ xptOn.fq (fqOf 20) = [] ∧ (arriving [1]).xpt.inq.all (fun x => decide (4 < x.valid)) = true
    ∧ (longConn xptOn).freeCtx = some 0 ∧ (longConn xptOn).ctxPaused 0 = false ∧ (pausedSeq (longConn xptOn)).freeCtx = some 0 ∧ (pausedSeq (longConn xptOn)).ctxPaused 0 = true
    ∧ (longConn fullCtx).freeCtx = none ∧ cnMaxDl ((longConn fullCtx).conn 0) = 100 ∧ (longConn noCells).freeCells (b2n (pipeB 20)) < (longConn noCells).unusedC (b2n (pipeB 20)) + (100 + 127) / 128
    ∧ (longConn noCells).freeCtx = some 0 ∧ (longConn noCells).ctxPaused 0 = false
    ∧ (receiving.sess (rxKey 0)).map (fun y => (y.state, y.rxDl, y.len - y.bytes)) = some (1, 8, 14) ∧ (cfIn 8).msg.data.length = 8 ∧ receiving.sessTouch (rxKey 0) = receiving
    ∧ cnReqPad (receiving.conn 0) = false ∧ receiving.xptMatch (cfIn 8) = some 0 := by decide +kernel
theorem witness_TransportReceive_bridge :
    ((bridging 7).conns.find? (fun p => cnBridge p.2 && cnInPdu p.2 == 7)).map (fun p => p.1) = some 0 ∧ (bridging 7).connTouch 0 = bridging 7
    ∧ ((bridging 7).sess (txKey 0)).isSome = false ∧ (List.replicate 7 (0 : Byte)).length ≤ sfMax (cnTxDl ((bridging 7).conn 0)) (cnAe ((bridging 7).conn 0))
    ∧ sfMax (cnTxDl ((bridging 8).conn 0)) (cnAe ((bridging 8).conn 0)) < 8 ∧ cnFunc ((bridging 8).conn 0) = false ∧ (bridging 8).freeCtx = some 0 ∧ (bridging 8).ctxPaused 0 = false
    ∧ (pausedSeq (bridging 8)).ctxPaused 0 = true ∧ (pausedSeq (bridging 8)).freeCtx = some 0 ∧ (((bridging 7).setSess (txKey 0) (some (session 4))).sess (txKey 0)).isSome = true
    ∧ (bridging 7).xptRuns = true := by decide +kernel

/-- XPT_SEND on a functional connection, on one whose entry is in error, with every context taken, and with its sequencer paused. -/
def sendingOn (n e : Nat) : Dev := (sending n).tset memConn 0 0 (2 ^ 79 + 8 * 2 ^ 96 + 20 * 2 ^ 64 + e)
def sendingFull : Dev := (withOp (anOp 59 0x40 .queued) fullCtx).hostWrite 0x1000 (leBytes 4 0 ++ leBytes 4 8)
/-- A transmission session of connection 0 whose next CF is due; whose frame is to be offered again; and in a paused sequencer. -/
def cfDue : Dev := xptOn.setSess (txKey 0) (some { (session 5) with ctx := some 0, bytes := 6, next := some 0 })
def offered : Dev := xptOn.setSess (txKey 0) (some { (session 5) with ctx := some 0, frame := some Msg.init, again := some 0 })
def badConn (d : Dev) : Dev := d.tset memConn 0 0 0
theorem witness_TransportSend_sessions : (sending 8).connTouch 0 = sending 8 ∧ cnFunc ((sendingOn 8 (2 ^ 77)).conn 0) = true ∧ decide (8 ≤ sfMax (cnTxDl ((sendingOn 8 (2 ^ 77)).conn 0)) (cnAe ((sendingOn 8 (2 ^ 77)).conn 0))) = false
    ∧ (sendingOn 8 (2 ^ 77)).xptRuns = true ∧ (sendingOn 8 (2 ^ 77)).nextQueued 59 [0x40] = some (anOp 59 0x40 .queued) ∧ (((sending 8).setSess (txKey 0) (some (session 4))).sess (txKey 0)).isSome = true
    ∧ sendingFull.freeCtx = none ∧ sendingFull.nextQueued 59 [0x40] = some (anOp 59 0x40 .queued) ∧ (sendingFull.sess (txKey 0)).isSome = false ∧ sendingFull.xptRuns = true
    ∧ (sending 8).freeCtx = some 0 ∧ (sending 8).ctxPaused 0 = false ∧ (pausedSeq (sending 8)).freeCtx = some 0 ∧ (pausedSeq (sending 8)).ctxPaused 0 = true
    ∧ cnBridge ((sendingOn 7 (2 ^ 123)).conn 0) = true ∧ leNat ((sending 0).hostRead 0x1004 4) = 0 ∧ (sending 0).xptRuns = true := by decide +kernel
theorem witness_TransportSend_frames : cfDue.quiet ∧ cfDue.heldBy (txKey 0) = none ∧ (((cfDue.sessTouch (txKey 0)).sessConn (txKey 0)).sess (txKey 0)).map (fun x => (x.state, x.next, x.frame)) = some (5, some 0, none)
    ∧ cfDue.sessTouch (txKey 0) = cfDue ∧ cfDue.sessConn (txKey 0) = cfDue ∧ (pausedSeq cfDue).heldBy (txKey 0) = some 0
    ∧ offered.heldBy (txKey 0) = none ∧ ((offered.sessConn (txKey 0)).sess (txKey 0)).map (fun x => (x.again, x.frame)) = some (some 0, some Msg.init)
    ∧ (offered.sessConn (txKey 0)).heldBy (txKey 0) = none ∧ (pausedSeq offered).quiet ∧ ((pausedSeq offered).heldBy (txKey 0)).isSome = true
    ∧ cnValid ((cfDue.connTouch 0).conn 0) = true ∧ cnValid (((badConn cfDue).connTouch 0).conn 0) = false ∧ ((badConn cfDue).sess (txKey 0)).isSome = true
    ∧ offered.sessTouch (txKey 0) = offered ∧ cfDue.sessConn (txKey 0) = cfDue := by
  have q : cfDue.quiet := rfl
  have q2 : (pausedSeq offered).quiet := rfl
  simp only [q, q2, true_and]; decide +kernel

/-- A job of ring 58 with an opcode: its parameter block `parm`, in a phase; `stop` asked. -/
def jobOf (opcode : Nat) (stop : Bool) (j : CryJob) : Dev := { withOp { anOp 58 opcode .running with stop := stop } cryOn with cry := { CrySt.init with jobs := [j] } }
/-- A HASH job over 8,192 bytes that has read some of them; one over 16 bytes. -/
def longHash (n read : Nat) : CryJob := { hashJob .run with parm := List.replicate 28 0 ++ leBytes 4 n ++ List.replicate 32 0, input := List.replicate read 0 }
theorem witness_CryptoJobs_stops :
    ((jobOf opHash true (hashJob .key)).cryJob 0 [opHash]).map (fun x => (x.1.phase, x.2.stop)) = some (.key, true) ∧ (jobOf opHash true (hashJob .key)).cryRuns = true
    ∧ ((jobOf opHash false (hashJob (.fin 0))).cryJob 0 [opHash]).map (fun x => x.1.phase) = some (.fin 0) ∧ opHash ≠ opEcdsa
    ∧ cryStop (longHash 8192 4095).input.length ((longHash 8192 4095).total opHash) = some 4096 ∧ cryStop (longHash 8192 0).input.length ((longHash 8192 0).total opHash) = some 0
    ∧ (((jobOf opHash true (longHash 8192 4095)).cryFeed (longHash 8192 4095) { anOp 58 opHash .running with stop := true } 4096).cryJob 0 [opHash]).isSome = true
    ∧ cryStop (longHash 16 1).input.length ((longHash 16 1).total opHash) = none ∧ min ((longHash 16 1).total opHash) (1 + (max 1 16 + 15) / 16 * 16) = 16
    ∧ ((longHash 16 16).bulk opHash && (longHash 16 16).pass == 1) = false ∧ min ((longHash 16 16).total opHash) (16 + 16) ≤ (longHash 16 16).input.length
    ∧ ((jobOf opEcdsa true (hashJob .run)).cryJob 0 [opEcdsa]).isSome = true ∧ (jobOf opHash true (hashJob .key)).quiet := by
  have q : (jobOf opHash true (hashJob .key)).quiet := rfl
  simp only [q, and_true]; decide +kernel

/-- An INSTALL_SAK job for channel 0 whose block carries a right or a wrong tag; the channel's type. -/
def sakParm (good : Bool) : List Byte :=
  let b := List.replicate 64 (0 : Byte)
  let t := (gcm (List.replicate 32 0) (((nats b).drop 4).take 12) ((nats b).take 4) (((nats b).drop 32).take 32) true).2
  b ++ (if good then bytes t else List.replicate 16 0)
def sakJob (good : Bool) (ph : CryPhase) : CryJob := { hashJob ph with parm := sakParm good, key := List.replicate 32 0 }
def saking (type : Nat) (good stop : Bool) (ph : CryPhase) : Dev := (jobOf opSak stop (sakJob good ph)).tset memChan 0 0 type
theorem witness_CryptoJobs_sak : (saking 3 true false .run).cryJob 0 [opSak] = some (sakJob true .run, anOp 58 opSak .running) ∧ (saking 3 true false .run).cryRuns = true
    ∧ (sakJob true .run).par 0 2 = 0 ∧ chType (((saking 3 true false .run).chanTouch 0).chan 0) = 3 ∧ chType (((saking 1 true false .run).chanTouch 0).chan 0) = 1
    ∧ ((saking 3 true false .run).chanTouch 0).chanLocked 0 = false
    ∧ ((((saking 4 true false .run).set (F.CRY_MACSEC_TX_VALID 0) 1).set (F.CRY_MACSEC_TX_CHAN 0) 0).chanTouch 0).chanLocked 0 = true
    ∧ (gcm (sakJob true .run).key (((nats (sakParm true)).drop 4).take 12) ((nats (sakParm true)).take 4) (((nats (sakParm true)).drop 32).take 32) true).2 = ((nats (sakParm true)).drop 64).take 16
    ∧ (gcm (sakJob false .run).key (((nats (sakParm false)).drop 4).take 12) ((nats (sakParm false)).take 4) (((nats (sakParm false)).drop 32).take 32) true).2 ≠ ((nats (sakParm false)).drop 64).take 16
    ∧ (saking 3 true true (.fin 0)).cryDecided { anOp 58 opSak .running with stop := true } = true ∧ (saking 3 true true .run).cryDecided { anOp 58 opSak .running with stop := true } = false := by decide +kernel

/-- A frame-mode GCM decryption of `n` bytes waits for held-output units, of which another job and received frames hold some. -/
def gcmJob (ph : CryPhase) (n : Nat) : CryJob := { hashJob ph with parm := [0, 3, 1, 16] ++ List.replicate 24 0 ++ leBytes 4 n ++ List.replicate 32 0 }
def unitsFor (n host rx : Nat) : Dev :=
  { cryOn with cry := { CrySt.init with jobs := [{ hashJob .run with units := host }, gcmJob .units n], rxHeld := [(rx, 1)] } }
theorem witness_CryptoRuns_units : (unitsFor 128 1535 0).cry.jobs.find? (fun j => decide (j.phase = .units)) = some (gcmJob .units 128) ∧ (gcmJob .units 128).need opCipher = 1
    ∧ (unitsFor 128 1535 512).heldUnits + 1 ≤ 1536 ∧ (unitsFor 128 1535 512).heldUnits + (unitsFor 128 1535 512).rxUnits + 1 ≤ 2048
    ∧ 1536 < (unitsFor 128 1536 0).heldUnits + 1 ∧ 2048 < (unitsFor 128 1535 513).heldUnits + (unitsFor 128 1535 513).rxUnits + 1
    ∧ ((jobOf opHash true (hashJob (.fin 0))).cryJob 0 [1, 2, 3, 4, 5, 6]).map (fun x => (x.1.phase, x.2.opcode)) = some (.fin 0, opHash) := by decide +kernel

/-- The vault is in the logic die's reset; an operation of PROVISION and of UPDATE that is to stop. -/
def stopping59 (opcode : Nat) : Dev := withOp { anOp 59 opcode .running with stop := true } up
theorem witness_VaultMessages_stops : (stopping59 opProvision).running 59 [opProvision] = some { anOp 59 opProvision .running with stop := true }
    ∧ (stopping59 opKeyUpdate).running 59 [opKeyUpdate] = some { anOp 59 opKeyUpdate .running with stop := true }
    ∧ (match (vaulting opProvision).provCheck (anOp 59 opProvision .running) ((vaulting opProvision).vaultMsg (anOp 59 opProvision .running)) with | .error e => e | .ok _ => 0) = errFormat
    ∧ Dev.reset.pwr.logicUp = false ∧ up.pwr.logicUp = true := by decide +kernel

/-- Segment 20 with a wake latched in COMMIT; LIN segment 40 in PREPARE as commander. -/
def latched20 (src : Nat) : Dev := (segment 3).setSeg 20 { Seg.init with latch := some src }
def deaf (st : Nat) : Dev := (segment st).set F.PWR_D2D_STATUS_LINK_UP 0
theorem witness_SegmentTimers_commit : (segment 3).nmHears = true ∧ (deaf 3).nmHears = false ∧ (deaf 3).segRuns 20 = true ∧ (deaf 3).quiet
    ∧ ((if segCanInt 20 then ((segment 3).xcvrApply 20).owe (.canClear (20 - 20)) else (segment 3).xcvrApply 20).dieMsg.seg 20).latch = none
    ∧ ((if segCanInt 20 then ((latched20 1).xcvrApply 20).owe (.canClear (20 - 20)) else (latched20 1).xcvrApply 20).dieMsg.seg 20).latch = some 1
    ∧ ((if segCanInt 20 then ((latched20 0x12).xcvrApply 20).owe (.canClear (20 - 20)) else (latched20 0x12).xcvrApply 20).dieMsg.seg 20).latch = some 0x12
    ∧ (up.set (F.LIN_CTRL_ROLE 0) 1).flag (F.LIN_CTRL_ROLE (40 - 40)) = true := by
  have q : (deaf 3).quiet := rfl
  simp only [q, true_and]; decide +kernel

/-- Segment 20 in a state with source 1 masked; in STANDBY; with a wake kept by its detector. -/
def masked20 (st : Nat) : Dev := (segment st).set (F.NM_SEG_STATUS_MASKED 20) 1
def inStandby : Dev := (deaf 4).set F.NM_PWR_STATUS_STATE 2
/-- WAKE_IN 0 enabled, active high, for a segment; a local wake or a bus wake. -/
def pinFor (seg loc st : Nat) : Dev := sets [(F.PWR_WAKE_IN_CFG_EN 0, 1), (F.PWR_WAKE_IN_CFG_FILT_MS 0, 5), (F.PWR_WAKE_IN_CFG_SEGMENT 0, seg), (F.PWR_WAKE_IN_CFG_LOCAL 0, loc)] (segment st)
/-- Controller 0's transceiver in SELECTIVE with its frame-error counter at `n`. -/
def selective (n : Nat) : Dev := sets [(F.PWR_XCVR_CAN_MODE 0, 5), (F.PWR_XCVR_CAN_MODE_ACT 0, 5), (F.PWR_SW_STATUS_ERR_CNT 0, n), (F.PWR_SW_CFG_FD_PASSIVE 0, 0), (F.PWR_SW_CFG_RATE 0, 0)] (segment 4)
def wuf (bad fd : Bool) (rate : Fin 4) (dlc : Nat) : WakeFrame := ⟨bad, rate, fd, false, 0, dlc, [1]⟩
theorem witness_SegmentWakes_detectors :
    (selective 31).wakeArmed 20 2 = true ∧ (selective 31).wakeArmed 20 3 = false ∧ (selective 32).wakeArmed 20 3 = true
    ∧ (sets [(F.CAN_CTRL_MODE 12, 1)] up).wakeArmed 32 7 = true ∧ up.wakeArmed 32 7 = false
    ∧ (segment 4).wakeArmed 20 1 = true ∧ (segment 4).standby = false ∧ inStandby.standby = true ∧ inStandby.wakeArmed 20 1 = true
    ∧ (inStandby.busWake 20 1 true).segState 20 = 4 ∧ ((inStandby.busWake 20 1 true).seg 20).latch = some 1 ∧ ((((segment 4).set F.NM_PWR_STATUS_STATE 2).busWake 20 1 true).segState 20) = 5
    ∧ ((latched20 1).wakeRecord 20 2 true false false).seg 20 = (latched20 1).seg 20 ∧ (((segment 3).wakeRecord 20 2 true false false).seg 20).latch = none
    ∧ (segment 4).segOn 20 = true ∧ bit ((masked20 4).get (F.NM_SEG_STATUS_MASKED 20)) (1 - 1) = true ∧ (masked20 3).segState 20 = 3 ∧ (masked20 0).segState 20 = 0
    ∧ bit ((segment 0).get (F.NM_SEG_STATUS_MASKED 20)) (1 - 1) = false ∧ ((deaf 4).wakeRecord 20 1 false false false).nmHears = false
    ∧ ((deaf 4).wakeRecord 20 6 false false false).nmRuns = true ∧ (((deaf 4).setSeg 20 { Seg.init with latch := some 1 }).wakeRecord 20 1 false false false).nmHears = false := by decide +kernel
theorem witness_SegmentWakes_pins :
    (pinFor 20 1 0).pinCounts 0 true 5 = true ∧ (pinFor 20 1 0).pinCounts 0 true 4 = false ∧ (pinFor 20 1 0).pinCounts 0 false 5 = false ∧ up.pinCounts 0 true 5 = false
    ∧ (pinFor 48 0 0).get (F.PWR_WAKE_IN_CFG_SEGMENT 0) = 48 ∧ (pinFor 63 0 0).get (F.PWR_WAKE_IN_CFG_SEGMENT 0) = 63 ∧ ((pinFor 63 0 0).set F.NM_PWR_STATUS_STATE 2).standby = true
    ∧ (pinFor 63 0 0).standby = false ∧ (pinFor 48 0 0).quiet ∧ (pinFor 20 1 3).flag (F.PWR_WAKE_IN_CFG_LOCAL 0) = true ∧ (pinFor 20 1 3).nmHears = true
    ∧ ((pinFor 20 1 3).set F.PWR_D2D_STATUS_LINK_UP 0).nmHears = false ∧ ((pinFor 20 1 3).set F.PWR_D2D_STATUS_LINK_UP 0).segState 20 = 3 ∧ (pinFor 20 1 3).segOn 20 = true
    ∧ ((pinFor 20 1 0).set F.PWR_D2D_STATUS_LINK_UP 0).segState 20 = 0 ∧ ((pinFor 20 1 0).set F.PWR_D2D_STATUS_LINK_UP 0).quiet ∧ ((pinFor 20 1 0).set F.PWR_D2D_STATUS_LINK_UP 0).nmHears = false
    ∧ (pinFor 20 0 4).flag (F.PWR_WAKE_IN_CFG_LOCAL 0) = false ∧ (pinFor 20 0 4).standby = false ∧ (segment 1).nmRuns = true ∧ (segment 2).segState 20 = 2 ∧ (segment 5).segState 20 = 5 := by
  have q : (pinFor 48 0 0).quiet := rfl
  have q2 : ((pinFor 20 1 0).set F.PWR_D2D_STATUS_LINK_UP 0).quiet := rfl
  simp only [q, q2, true_and]; decide +kernel
theorem witness_SegmentWakes_frames : (selective 0).quiet ∧ up.get (F.PWR_XCVR_CAN_MODE_ACT 0) ≠ 5 ∧ (selective 0).get (F.PWR_XCVR_CAN_MODE_ACT 0) = 5
    ∧ ((selective 0).set (F.PWR_SW_CFG_FD_PASSIVE 0) 1).flag (F.PWR_SW_CFG_FD_PASSIVE 0) = true ∧ (selective 0).flag (F.PWR_SW_CFG_FD_PASSIVE 0) = false
    ∧ (wuf true false 0 0).bad = true ∧ ((selective 30).inc (F.PWR_SW_STATUS_ERR_CNT 0)).get (F.PWR_SW_STATUS_ERR_CNT 0) ≤ 31
    ∧ 31 < ((selective 31).inc (F.PWR_SW_STATUS_ERR_CNT 0)).get (F.PWR_SW_STATUS_ERR_CNT 0) ∧ (1 : Fin 4).val ≠ (selective 0).get (F.PWR_SW_CFG_RATE 0)
    ∧ (0 : Fin 4).val = (selective 0).get (F.PWR_SW_CFG_RATE 0) ∧ (selective 0).wufMatch 0 (wuf false false 0 0) = true ∧ (selective 0).wufMatch 0 (wuf false false 0 1) = false := by
  refine ⟨rfl, ?_⟩; decide +kernel
theorem test_wuf_lowers : (after (.wufFrameDecoded 0 (wuf false false 0 1)) (selective 5)).get (F.PWR_SW_STATUS_ERR_CNT 0) = 4
    ∧ (after (.wufFrameDecoded 0 (wuf true false 0 1)) (selective 5)).get (F.PWR_SW_STATUS_ERR_CNT 0) = 6 := by decide +kernel

/-- Channel 12 on by PWM: the gate on until clock 5,000 of a period of 10,000 that ends at 10,000. -/
def pwm12 : Dev := (up.set (F.LOAD_CH_STATUS_DUTY 12) 5000).setCh 12 { LoadCh.init with run := .pwm, out := true, fin := 10000, per := 10000 }
def grouped : Dev := sets [(F.LOADC_GROUP_LIM_LIMIT 0, 3)] (chanOn 0 up)
theorem witness_LoadTripsTurnOff_gate : pwm12.quiet ∧ (pwm12.ch 12).isOn = true ∧ pwm12.gateHolds 12 4999 = true ∧ pwm12.gateHolds 12 5000 = false ∧ (chanOn 12 up).gateHolds 12 3200 = true
    ∧ up.gateHolds 12 0 = false ∧ max pwm12.now ((pwm12.ch 12).gateAt + 4 * usCyc) = 3200 ∧ pwm12.get (F.LOAD_CH_GD_VDS_TH 12) * 20 < 65535
    ∧ max pwm12.now (({ (pwm12.ch 12) with gateAt := 1800 } : LoadCh).gateAt + 4 * usCyc) = 5000 ∧ 0 ≤ pwm12.get (F.LOAD_CH_LIM_I_LIM 12) * pwm12.get (F.LOAD_CH_LIM_SC_MULT 12)
    ∧ grouped.quiet ∧ grouped.get (F.LOADC_GROUP_LIM_LIMIT 0) ≠ 0 ∧ (grouped.set (F.LOAD_CH_MEAS_CURRENT 0) 4).shedPick 0 = some 0 := by
  have q : grouped.quiet := rfl
  have q2 : pwm12.quiet := rfl
  simp only [q, q2, true_and]; decide +kernel

/-- A register command word: command and duty. The link up, a NET command on its way, and a register command of the same tick. -/
def loadWord (cmd duty : Nat) : Word := BitVec.ofNat 32 (cmd + duty * 2 ^ 16)
def netting (cmd duty : Nat) : Dev := { linkOn.set (F.LOAD_CH_CFG_CTRL_SRC 0) 2 with load := { LoadSt.init with flight := [(0, cmd, duty, 1)] } }
def regged : Dev := (linkOn.set (F.LOAD_CH_CFG_CTRL_SRC 0) 2).setCh 0 { LoadCh.init with regAt := some (0, 1, 0) }
theorem witness_LoadCommandRule_complete : linkOn.quiet ∧ linkOn.opens 0 (R.LOAD_CH_CMD 0) ∧ (loadWord 2 10000).toNat % 4 = 2 ∧ (loadWord 2 10000).toNat / 2 ^ 16 % 2 ^ 14 = 10000
    ∧ (linkOn.beforeWrite 0 (R.LOAD_CH_CMD 0)).cmdRefused 0 0 2 10000 = false ∧ (linkOn.beforeWrite 0 (R.LOAD_CH_CMD 0)).cmdRefused 0 0 0 0 = false
    ∧ (linkOn.beforeWrite 0 (R.LOAD_CH_CMD 0)).cmdRefused 0 0 1 0 = false ∧ (linkOn.beforeWrite 0 (R.LOAD_CH_CMD 0)).outPower = true
    ∧ (linkOn.beforeWrite 0 (R.LOAD_CH_CMD 0)).deferring 0 = false ∧ ((chanOn 0 linkOn).ch 0).isOn = true
    ∧ (netting 1 0).load.flight = (0, 1, 0, 1) :: [] ∧ (netting 1 0).flag F.PWR_D2D_STATUS_LINK_UP = true ∧ (netting 1 0).cmdRefused 0 1 1 0 = false ∧ (netting 0 0).cmdRefused 0 1 0 0 = false
    ∧ ((netting 1 0).ch 0).regAt = none ∧ (netting 1 0).outPower = true ∧ (netting 1 0).deferring 0 = false
    ∧ (regged.ch 0).regAt = some (regged.now, 1, 0) ∧ regged.cmdRefused 0 1 0 0 = false ∧ ((linkOn.ch 0).regAt = none) := by
  unfold Dev.opens; refine ⟨rfl, ?_⟩; decide +kernel
theorem test_register_stands : ((after .loadCmdNet { regged with load := { regged.load with flight := [(0, 0, 0, 1)] } }).ch 0).run = .on
    ∧ ((after (.loadCmdReg 0 0 (loadWord 1 0)) linkOn).ch 0).run = .on ∧ ((after .loadCmdNet (netting 1 0)).ch 0).run = .on := by decide +kernel

/-- Channel 3 by PWM at a duty, its period ending at an instant. -/
def pwm3 (duty fin : Nat) (out : Bool) : Dev := (up.set (F.LOAD_CH_STATUS_DUTY 3) duty).setCh 3 { LoadCh.init with run := .pwm, out := out, fin := fin, per := 8000 }
/-- Channel 0 with a wire code, on, at the wire's level. -/
def wired (theta : Nat) : Dev := (up.set (F.LOAD_CH_CFG_WIRE 0) 1).setCh 0 { LoadCh.init with run := .on, out := true, theta := theta }
theorem witness_ChannelClocks_periods : (pwm3 1 8000 false).quiet ∧ ((pwm3 9999 8000 true).ch 3).run = .pwm ∧ (pwm3 9999 8000 true).get (F.LOAD_CH_STATUS_DUTY 3) = 9999
    ∧ (pwm3 0 8000 false).get (F.LOAD_CH_STATUS_DUTY 3) = 0 ∧ (pwm3 10000 8000 true).get (F.LOAD_CH_STATUS_DUTY 3) = 10000 ∧ 0 < (pwm3 1 0 false).pwmPer 3
    ∧ (pwm3 1 8000 false).now < ((pwm3 1 8000 false).ch 3).fin ∧ ((pwm3 0 0 false).ch 3).fin ≤ (pwm3 0 0 false).now
    ∧ ((wired (2 ^ 50)).ch 0).isOn = true ∧ (wired (2 ^ 50)).wireLevel 0 * (2 ^ 32 : Nat) ≤ (((wired (2 ^ 50)).ch 0).theta : Int) ∧ wireK ((wired 0).get (F.LOAD_CH_CFG_WIRE 0)) ≠ 0 := by
  refine ⟨rfl, ?_⟩; decide +kernel
theorem witness_RetriesAndDeferredTurnOns_policy : (sets [(F.LOAD_CH_CFG_POLICY 0, 2)] up).get (F.LOAD_CH_CFG_POLICY 0) = 2 ∧ up.get (F.LOAD_CH_CFG_POLICY 0) ≠ 2
    ∧ (up.ch 0).run ≠ .faultOff ∧ ({ up with load := { LoadSt.init with revBat := true } } : Dev).load.revBat = true ∧ (up.set F.LOADC_SUPPLY_STATUS_VHV_HIGH 1).flag F.LOADC_SUPPLY_STATUS_VHV_HIGH = true := by decide +kernel

/-- The watchdog fed or not since its expiry; a channel whose SAFE setting is given, under LIMP_MAP, its pin at a level. -/
def released (fed : Bool) : Dev := { guarded with load := { guarded.load with fedSince := fed } }
def safeSet (safe map pin : Nat) : Dev := sets [(F.LOAD_CH_CFG_SAFE 0, safe), (F.LOADC_LIMP_MAP_MAP, map), (F.LOADC_LIMP_STATUS_LH_IN, pin)] guarded
theorem witness_HeartbeatWatchdog_complete : guarded.quiet ∧ guarded.opens 1 R.LOADC_WD_FEED ∧ guarded.opens 3 R.LOADC_WD_FEED
    ∧ bit ((guarded.beforeWrite 1 R.LOADC_WD_FEED).get F.LOADC_WD_CFG_MASTERS) 1 = false ∧ bit ((guarded.set F.LOADC_WD_CFG_MASTERS 2).get F.LOADC_WD_CFG_MASTERS) 1 = true
    ∧ wdMasterBit 0 = some 0 ∧ bit ((guarded.beforeWrite 0 R.LOADC_WD_FEED).get F.LOADC_WD_CFG_MASTERS) 0 = true
    ∧ (BitVec.ofNat 8 (guarded.get F.LOADC_WD_STATUS_NEXT) : Byte).toNat = (guarded.beforeWrite 0 R.LOADC_WD_FEED).get F.LOADC_WD_STATUS_NEXT
    ∧ (guarded.beforeWrite 0 R.LOADC_WD_CTRL).load.fedSince = false ∧ ((released true).beforeWrite 0 R.LOADC_WD_CTRL).load.fedSince = true ∧ (released true).opens 0 R.LOADC_WD_CTRL
    ∧ (released true).opens 1 R.LOADC_WD_CTRL
    ∧ (guarded.ch 0).run ≠ .latched ∧ (({ guarded with load := { guarded.load with chans := [(0, { LoadCh.init with run := .latched })] } } : Dev).ch 0).run = .latched ∧ guarded.limpCtl 0 = false
    ∧ (safeSet 0 0 0).get (F.LOAD_CH_CFG_SAFE 0) = 0 ∧ (safeSet 1 0 0).get (F.LOAD_CH_CFG_SAFE 0) = 1 ∧ (safeSet 2 0 0).get (F.LOAD_CH_CFG_SAFE 0) = 2 ∧ (safeSet 3 0 0).get (F.LOAD_CH_CFG_SAFE 0) = 3
    ∧ bit ((safeSet 3 0 1).get F.LOADC_LIMP_MAP_MAP) 0 = false ∧ (safeSet 3 1 0).lhIn 0 = false ∧ bit ((safeSet 3 1 1).get F.LOADC_LIMP_MAP_MAP) 0 = true ∧ (safeSet 3 1 1).lhIn 0 = true
    ∧ (safeSet 3 1 1).outPower = true ∧ (safeSet 3 1 1).deferring 0 = false ∧ (safeSet 3 1 1).limpCtl 0 = false ∧ (safeSet 3 1 1).load.wdFed = some 0 ∧ guarded.opens 0 R.LOADC_LOCK := by
  unfold Dev.opens; refine ⟨rfl, ?_⟩; decide +kernel
theorem test_expiry_follows_safe : ((after .wdExpiry (safeSet 1 0 0)).ch 0).run = .pwm ∧ ((after .wdExpiry (safeSet 3 1 1)).ch 0).run = .on
    ∧ ((after .wdExpiry (safeSet 3 1 0)).ch 0).run = .off := by decide +kernel

theorem witness_LimpHomePinsDecide_standby : (up.set F.NM_PWR_STATUS_STATE 2).inStandby = true ∧ up.inStandby = false
    ∧ (sets [(F.LOADC_LIMP_STATUS_LH_EN, 1), (F.NM_PWR_STATUS_STATE, 2)] up).flag F.LOADC_LIMP_STATUS_LH_EN ≠ false ∧ (safeSet 3 1 1).flag F.LOADC_LIMP_STATUS_LH_EN ≠ true
    ∧ ((safeSet 3 1 1).set F.NM_PWR_STATUS_STATE 2).load.gndLost = false := by decide +kernel

/-- Ring 63 enabled with an event in the buffer, and a TX descriptor that waits from before. -/
def ring63 (buf : List (List Byte)) : Dev := { (sets [(F.HIF_RING_CFG_SIZE_LOG2 63, 4)] linkOn) with load := { LoadSt.init with evBuf := buf } }
theorem witness_RingSwitch_events : (ring63 [[1]]).quiet ∧ (ring63 [[1]]).opens 0 (R.HIF_RING_CFG 63) ∧ (ring63 [[1]]).flag (F.HIF_RING_CFG_EN 63) = false ∧ (ring63 []).load.evBuf = []
    ∧ ((ring63 [[1]]).set (F.HIF_RING_CFG_EN 63) 1).ring63Up = true ∧ (ring0.hostStore []).ready 1 = true ∧ ring0.opens 0 (R.HIF_RING_CFG 0)
    ∧ (32 ≤ (32 : Fin 64).val) ∧ ((sets [(F.HIF_RING_CFG_SIZE_LOG2 63, 4), (F.HIF_RING_CFG_EN 63, 1)] up).set (F.HIF_DB_INDEX_INDEX 63) 1).ringUp 63 = true := by
  unfold Dev.opens; refine ⟨rfl, ?_⟩; decide +kernel

theorem witness_HostTransmitSteps_provision : (withOp (anOp 59 0x21 .running) up).host.ops.find? (fun (o : Op) => o.ring == 59 && o.idx == 0 && o.state == .running) = some (anOp 59 0x21 .running)
    ∧ (withOp (anOp 59 0x20 .running) up).host.ops.find? (fun (o : Op) => o.ring == 59 && o.idx == 0 && o.state == .running) = some (anOp 59 0x20 .running) := by decide +kernel

/-- A field descriptor of 17 bytes for LIN port 40 whose buffer holds an identifier above 6 bits. -/
def fieldTx : TxDesc := ⟨0, 0, 0x3000, 17, true, true, false, false, false, 0, 0, 2 ^ 40, false⟩
def fieldOut : Dev := ring0.hostWrite 0x3000 (leBytes 4 0x7FF ++ leBytes 4 9 ++ leBytes 9 0)
/-- An operation whose status word told other counts than it has. -/
def telling (progress : Nat) : Dev := withOp { anOp 57 1 .running with progress := progress } up
/-- The aborts' further targets: running, decided, and one whose number does not match. -/
def abortingIn (o : Op) (jobs : List CryJob) : Dev :=
  sets [(F.HIF_RING_CFG_SIZE_LOG2 58, 4), (F.HIF_DB_INDEX_INDEX 58, 1)]
    { up with host := { HostSt.init with aborts := [{ abortOp with tgtRing := 58 }], ops := [o], hist := [(58 * 65536, 0, 1)] }, cry := { CrySt.init with jobs := jobs } }
theorem witness_CommandsAnswered_targets :
    (abortingIn (anOp 58 opHash .running) [hashJob .run]).host.aborts.find? (fun (a : Op) => a.state == .queued) = some { abortOp with tgtRing := 58 }
    ∧ idxSub (((abortingIn (anOp 58 opHash .running) [hashJob .run]).abortRun { abortOp with tgtRing := 58, state := .running }).dbIdx 58 + 2 ^ 32 - 1) 0 < 16
    ∧ ((abortingIn (anOp 58 opHash .running) [hashJob .run]).abortRun { abortOp with tgtRing := 58, state := .running }).ringSize 58 = 16
    ∧ SMap.find? ((abortingIn (anOp 58 opHash .running) [hashJob .run]).abortRun { abortOp with tgtRing := 58, state := .running }).host.hist (58 * 65536 + 0 % 16) = some (0, 1)
    ∧ ((abortingIn (anOp 58 opHash .running) [hashJob .run]).abortRun { abortOp with tgtRing := 58, state := .running }).cryDecided (anOp 58 opHash .running) = false
    ∧ ((abortingIn (anOp 58 opHash .running) [hashJob (.fin 0)]).abortRun { abortOp with tgtRing := 58, state := .running }).cryDecided (anOp 58 opHash .running) = true
    ∧ ((abortingIn (anOp 58 opHash .running) []).abortRun { abortOp with tgtRing := 58, state := .running }).host.ops.find? (fun (o : Op) => o.ring == 58 && o.idx == 0) = some (anOp 58 opHash .running)
    ∧ (telling 0).host.ops.find? (fun (o : Op) => o.ring == 57 && o.idx == 0 && o.state == .running) = some (anOp 57 1 .running) ∧ (anOp 57 1 .running).told.1 = 0
    ∧ (telling 5).host.ops.find? (fun (o : Op) => o.ring == 57 && o.idx == 0 && o.state == .running) = some { anOp 57 1 .running with progress := 5 }
    ∧ (abortingIn (anOp 58 opHash .running) []).quiet := by
  have q : (abortingIn (anOp 58 opHash .running) []).quiet := rfl
  simp only [q, and_true]; decide +kernel
theorem witness_HostTransmitSteps_field : fieldTx.field = true ∧ (bitsOf 48 fieldTx.portset).headD 0 = 40
    ∧ (match (fieldOut.makeCopy 40 (hostField (fieldOut.hostRead fieldTx.addr fieldTx.len)) (hostField (fieldOut.hostRead fieldTx.addr fieldTx.len)).data none).2 with
      | .frame _ _ => false | _ => true) = true := by decide +kernel
theorem test_status_told : (after (.statusProgressWrite 57 0) (telling 5)).hostRead 0x2000 16 ≠ (telling 5).hostRead 0x2000 16
    ∧ after (.statusProgressWrite 57 0) (telling 0) = telling 0 := by decide +kernel

/-- A secure channel that is a MACsec SA of port 11. -/
def saOf (valid : Nat) : Dev := up.tset memChan 0 1023 (3 + valid * 2 ^ 13 + 11 * 2 ^ 32)
/-- Channels under LIMP control before STANDBY. -/
def limping (pin : Nat) : Dev := sets [(F.LOADC_LIMP_STATUS_LH_EN, 1), (F.LOADC_LIMP_MAP_MAP, 1), (F.LOADC_LIMP_STATUS_LH_IN, pin)] up
theorem witness_SwitchRows_further : ((saOf 1).beforeWrite 0 (R.CRY_MACSEC_TX 11)).opens 0 (R.CRY_MACSEC_TX 11) ∧ chType (((saOf 1).beforeWrite 0 (R.CRY_MACSEC_TX 11)).chan 1023) = 3
    ∧ saPort (((saOf 1).beforeWrite 0 (R.CRY_MACSEC_TX 11)).chan 1023) = 11 ∧ saValid (((saOf 1).beforeWrite 0 (R.CRY_MACSEC_TX 11)).chan 1023) = true
    ∧ saValid (((saOf 0).beforeWrite 0 (R.CRY_MACSEC_TX 11)).chan 1023) = false
    ∧ (limping 1).limpCtl 0 = true ∧ (limping 1).lhIn 0 = true ∧ (limping 0).lhIn 0 = false ∧ (limping 1).load.gndLost = false ∧ (limping 1).deferring 0 = false
    ∧ linkOn.segOn 20 = false ∧ (segment 4).segOn 20 = true := by
  unfold Dev.opens; decide +kernel

theorem witness_OneShotRows_memories : (∃ x, pertMem blkVault 1 = some x ∧ x.mem = memSlot ∧ x.first + 0 = rsIndex ∧ x.count = 1 ∧ 7 < x.words)
    ∧ (∃ x, pertMem blkVault 0 = some x ∧ x.mem = memSlot ∧ x.first + 255 ≠ rsIndex ∧ 255 < x.count ∧ 11 < x.words)
    ∧ (∃ x, pertMem blkXpt 0 = some x ∧ x.count ≤ 1024 ∧ x.words ≤ 8) ∧ pertMem blkVault 2 = none := by
  refine ⟨⟨_, rfl, ?_⟩, ⟨_, rfl, ?_⟩, ⟨_, rfl, ?_⟩, ?_⟩ <;> decide +kernel

theorem witness_BusAccess_requests : up.pathUp 0 = true ∧ reqBell ⟨true, 0x1004, true⟩ = none ∧ reqBell ⟨false, 0, false⟩ = none ∧ reqBell ⟨true, 0x3F000, true⟩ = some 63
    ∧ reqBell ⟨true, 0x3F000, false⟩ = none ∧ up.linkStall 0x1004 = false ∧ pairLo R.FWD_CTRL = none ∧ pairLo R.TIME_DTIME_FRAC = none ∧ indBarred 0 R.FWD_CTRL = false
    ∧ indBarred 1 R.GLOBAL_IND_ADDR = true ∧ indWindow 0x18 = true ∧ indWindow 0x1C = true ∧ indWindow 0x20 = false ∧ 0x1C ≠ R.GLOBAL_IND_ADDR ∧ 0x1C ≠ R.GLOBAL_IND_DATA
    ∧ up.indMay 0 = true ∧ up.indMay 2 = false ∧ (up.set F.HIF_SVC_CFG_WRITE_EN 1).indMay 2 = true
    ∧ (decide ((up.indWrite 0 1).2 ≠ .error) = true) ∧ (((up.indAddrWrite 0 0x18).indWrite 0 1).2 = .error)
    ∧ (up.beforeWrite 0 0x1FFC).regAt 0x1FFC = none ∧ (up.beforeWrite 2 R.FWD_CTRL).mayWrite 2 R.FWD_CTRL = false ∧ ((up.beforeWrite 2 R.FWD_CTRL).regAt R.FWD_CTRL).map (fun r => r.writable) = some true := by decide +kernel
theorem test_doorbell_read : (after (.loWordRead 0 ⟨true, 0, true⟩) (ring0.set (F.HIF_DB_INDEX_INDEX 0) 16)).out = [.readData 0 0 16]
    ∧ (after (.loWordRead 0 ⟨false, R.FWD_CTRL, false⟩) up).out = [.busError 0 R.FWD_CTRL] := by decide +kernel
theorem witness_ReadShadow_slot : (up.beforeAccess 0 R.TIME_DTIME_LO 2).regAt R.TIME_DTIME_LO ≠ none ∧ inPwr R.TIME_DTIME_LO = false
    ∧ ((up.regAt R.TIME_DTIME_FRAC).map (fun r => r.loWord)) = some false ∧ groupLo R.TIME_DTIME_FRAC = some R.TIME_DTIME_LO := by decide +kernel

/-- PD10 and PD11 switching on; a zeroisation to report. -/
def turningLines : Dev := { up with pwr := { up.pwr with goingOn := 512 + 1024 } }
def reporting : Dev := { up with vault := { VaultSt.init with report := [(2, 1), (3, 2)] } }
theorem witness_DomainSteps_lines : bit turningLines.pwr.goingOn (10 - 1) = true ∧ bit turningLines.pwr.goingOn (11 - 1) = true ∧ up.vault.report = []
    ∧ reporting.vault.report = (2, 1) :: [(3, 2)] ∧ Dev.reset.pwr.logicUp = false := by decide +kernel
theorem witness_PowerSteps_warning : (up.set F.SUPV_SUPPLY_STATUS_RAIL_WARN 1).flag F.SUPV_SUPPLY_STATUS_RAIL_WARN = true ∧ (snapping none).time.snapGo = true ∧ (up.set (clkField 4) 0).flag (clkField 4) = false
    ∧ (({ up with time := { TimeSt.init with aonHeld := some 0 } } : Dev).time.aonHeld) = some 0 ∧ linkOn.pwr.d2dDown = none := by decide +kernel
/-- The active unlock scope opens the perturbation registers. -/
def unlocked : Dev := up.set F.VAULT_STATUS_DBG_SCOPE 1
theorem witness_OneShotRows_open : (unlocked.beforeWrite 0 (R.FLT_PERT_INJ 2)).pertOpen = true ∧ unlocked.opens 0 (R.FLT_PERT_INJ 2) ∧ unlocked.opens 0 (R.FLT_PERT_ENT blkVault)
    ∧ (((unlocked.beforeWrite 0 (R.FLT_PERT_INJ blkTbl)).pertInj blkTbl (0 + 16 * 9 + 256 * 255 + 0x80000000)).flag (F.FLT_PERT_INJ_GO blkTbl)) = true
    ∧ (((unlocked.beforeWrite 0 (R.FLT_PERT_INJ 2)).pertInj 2 (0 + 16 * 15 + 0x80000000)).flag (F.FLT_PERT_INJ_GO 2)) = (pertMem 2 15).isSome
    ∧ unlocked.opens 0 R.TEST_FAULTN_CTRL ∧ (unlocked.beforeWrite 0 R.TEST_FAULTN_CTRL).pertOpen = true ∧ (pertMem blkTbl 15).isSome = false := by
  unfold Dev.opens; decide +kernel

/-! ### Messages of the vault: one that passes every check, whatever the device's keys -/

/-- A message of a type up to its tag, for this device's UID, slot 0 and a data area; and with the tag that a key gives it. -/
def msgHead (type auth : Nat) : List Byte :=
  bytes [1, type, 0, 136] ++ leBytes 16 Config.otpUid ++ bytes [0, auth, 0, 0] ++ beBytes 8 1 ++ List.replicate 32 0 ++ bytes [8, 1, 0, 0, 0, 32, 0, 0]
    ++ List.replicate 48 0
def msgTag (ki : List Nat) (h : List Byte) : List Nat := (gcm (wrapKey ki h) (nats (slice h 76 12)) (nats (slice h 0 88)) (nats (slice h 88 32)) true).2
def sealedMsg (ki : List Nat) (type auth : Nat) : List Byte := msgHead type auth ++ bytes (msgTag ki (msgHead type auth))

theorem bytes_nats (l : List Byte) : bytes (nats l) = l := by
  induction l with
  | nil => rfl
  | cons b l h => simpa [bytes, nats] using h
theorem nats_bytes_natBlock (x : Nat) : nats (bytes (natBlock x)) = natBlock x := by unfold natBlock; rw [bytes_nats]

/-- The tag at the end of the message is the one that its key gives. -/
theorem message_authentic (ki : List Nat) (type auth : Nat) : ∃ k, unwrapMsg ki (sealedMsg ki type auth) = (k, true) := by
  refine ⟨(gcm (wrapKey ki (msgHead type auth)) (nats (slice (msgHead type auth) 76 12)) (nats (slice (msgHead type auth) 0 88)) (nats (slice (msgHead type auth) 88 32)) true).1, ?_⟩
  have hs : ∀ t, slice (msgHead type auth ++ bytes (natBlock t)) 120 16 = bytes (natBlock t) := fun t => by rfl
  have hc : ∀ t, wrapKey ki (msgHead type auth ++ bytes t) = wrapKey ki (msgHead type auth) := fun t => rfl
  have h1 : ∀ t, slice (msgHead type auth ++ bytes t) 76 12 = slice (msgHead type auth) 76 12 := fun t => rfl
  have h2 : ∀ t, slice (msgHead type auth ++ bytes t) 0 88 = slice (msgHead type auth) 0 88 := fun t => rfl
  have h3 : ∀ t, slice (msgHead type auth ++ bytes t) 88 32 = slice (msgHead type auth) 88 32 := fun t => rfl
  have hg : ∃ x, msgTag ki (msgHead type auth) = natBlock x := ⟨_, rfl⟩
  obtain ⟨x, hx⟩ := hg
  have : nats (slice (sealedMsg ki type auth) 120 16) = msgTag ki (msgHead type auth) := by
    unfold sealedMsg; rw [hx, hs, nats_bytes_natBlock]
  unfold unwrapMsg
  rw [this]
  simp only [sealedMsg, hc, h1, h2, h3]
  simp [msgTag]

theorem recipe_allowed (type auth : Nat) (t : List Byte) (prov : Bool) : recipeBad (msgHead type auth ++ t) prov = false := by
  have h1 : mUsage (msgHead type auth ++ t) = 32 := rfl
  have h2 : mRoot (msgHead type auth ++ t) = 1 := rfl
  have h3 : mLabelLen (msgHead type auth ++ t) = 8 := rfl
  have h4 : mBinding (msgHead type auth ++ t) = 0 := rfl
  have h5 : slice (msgHead type auth ++ t) 48 16 = List.replicate 16 0 := rfl
  have h6 : slice (msgHead type auth ++ t) 32 32 = List.replicate 32 0 := rfl
  have h7 : mEpoch (msgHead type auth ++ t) = 0 := rfl
  unfold recipeBad
  rw [h1, h2, h3, h4, h7]
  cases prov <;> simp [h5, h6, show bit 32 8 = false by decide]

/-- The message at 0x8000 of host memory for an operation of ring 59. -/
def messageIn (d : Dev) (opcode : Nat) (m : List Byte) : Dev := ((withOp (anOp 59 opcode .running) d).hostWrite 0x1000 (leBytes 8 0x8000 ++ leBytes 2 136)).hostWrite 0x8000 m
/-- The vault unprovisioned with a nonce of zeros drawn; and provisioned with slot 0's key for AUTHORISE. -/
def unprovisioned : Dev := { cryOn.set F.CRY_STATUS_TRNG_OK 1 with vault := { VaultSt.init with nonce := some (List.replicate 16 0) } }
def slotted : Dev := (up.set F.VAULT_STATUS_STATE 1).tset memSlot 0 0 (slRecord [] 0 8 3 32 0)

theorem vaultMsg_messageIn (d : Dev) (opcode : Nat) (m : List Byte) (h : m.length = 136)
    (hp : leNat (((withOp (anOp 59 opcode .running) d).hostWrite 0x1000 (leBytes 8 0x8000 ++ leBytes 2 136)).hostRead 0x1000 8) = 0x8000)
    (hl : leNat (((withOp (anOp 59 opcode .running) d).hostWrite 0x1000 (leBytes 8 0x8000 ++ leBytes 2 136)).hostRead 0x1008 2) = 136) :
    (messageIn d opcode m).vaultMsg (anOp 59 opcode .running) = m ∧ (messageIn d opcode m).vaultPar (anOp 59 opcode .running) 8 2 = 136 := by
  have out : ∀ a n, 0x1000 ≤ a → a + n ≤ 0x2000 → (messageIn d opcode m).hostRead a n
      = ((withOp (anOp 59 opcode .running) d).hostWrite 0x1000 (leBytes 8 0x8000 ++ leBytes 2 136)).hostRead a n := by
    intro a n h1 h2
    unfold Dev.hostRead
    apply List.map_congr_left
    intro i hi
    rw [List.mem_range] at hi
    exact hostByte_write_out _ _ _ _ (fun j hj => by omega)
  have e : (messageIn d opcode m).vaultPar (anOp 59 opcode .running) 0 8 = 0x8000 := (congrArg leNat (out 0x1000 8 (by omega) (by omega))).trans hp
  refine ⟨?_, (congrArg leNat (out 0x1008 2 (by omega) (by omega))).trans hl⟩
  unfold Dev.vaultMsg
  rw [e]
  have := hostRead_write ((withOp (anOp 59 opcode .running) d).hostWrite 0x1000 (leBytes 8 0x8000 ++ leBytes 2 136)) 0x8000 m (by omega)
  rwa [h] at this

theorem witness_VaultMessages_provision : ∃ k, (messageIn unprovisioned opProvision (sealedMsg provKey 2 0xFF)).running 59 [opProvision] = some (anOp 59 opProvision .running)
    ∧ (messageIn unprovisioned opProvision (sealedMsg provKey 2 0xFF)).vaultMsg (anOp 59 opProvision .running) = sealedMsg provKey 2 0xFF
    ∧ (messageIn unprovisioned opProvision (sealedMsg provKey 2 0xFF)).provCheck (anOp 59 opProvision .running) (sealedMsg provKey 2 0xFF) = .ok k := by
  obtain ⟨k, hk⟩ := message_authentic provKey 2 0xFF
  have hm := vaultMsg_messageIn unprovisioned opProvision (sealedMsg provKey 2 0xFF) rfl (by decide +kernel) (by decide +kernel)
  refine ⟨k, rfl, hm.1, ?_⟩
  have h1 : (msgBad (sealedMsg provKey 2 0xFF) 136 [2] || mTarget (sealedMsg provKey 2 0xFF) != 0 || mAuth (sealedMsg provKey 2 0xFF) != 0xFF || recipeBad (sealedMsg provKey 2 0xFF) true) = false := by
    rw [show recipeBad (sealedMsg provKey 2 0xFF) true = false from recipe_allowed _ _ _ _]; rfl
  have h2 : (messageIn unprovisioned opProvision (sealedMsg provKey 2 0xFF)).provisioned = false := rfl
  have h3 : nats (slice (sealedMsg provKey 2 0xFF) 4 16) = uidBytes := rfl
  have h4 : (messageIn unprovisioned opProvision (sealedMsg provKey 2 0xFF)).vault.nonce = some (nats (slice (sealedMsg provKey 2 0xFF) 32 16)) := by
    have hz : ∀ t, nats (slice (msgHead 2 0xFF ++ t) 32 16) = List.replicate 16 0 := fun t => rfl
    unfold messageIn; simp only [hostWrite_vault]; exact congrArg some (hz _).symm
  have h5 : ((messageIn unprovisioned opProvision (sealedMsg provKey 2 0xFF)).ready 8 && (messageIn unprovisioned opProvision (sealedMsg provKey 2 0xFF)).flag F.CRY_STATUS_TRNG_OK) = true := rfl
  unfold Dev.provCheck
  simp only [hk, hm.2, h1, h2, h3, h4, h5]
  simp


/-- UPDATE messages of the three types: a derived-key recipe, an erasure, a zeroisation. -/
theorem witness_VaultMessages_update (type : Nat) (ht : type = 1 ∨ type = 3 ∨ type = 4) :
    ∃ x, (messageIn slotted opKeyUpdate (sealedMsg (slotted.slotKey 0 (slotted.slot 0)) type 0)).running 59 [opKeyUpdate] = some (anOp 59 opKeyUpdate .running)
      ∧ (messageIn slotted opKeyUpdate (sealedMsg (slotted.slotKey 0 (slotted.slot 0)) type 0)).vaultMsg (anOp 59 opKeyUpdate .running) = sealedMsg (slotted.slotKey 0 (slotted.slot 0)) type 0
      ∧ mType (sealedMsg (slotted.slotKey 0 (slotted.slot 0)) type 0) = type
      ∧ (messageIn slotted opKeyUpdate (sealedMsg (slotted.slotKey 0 (slotted.slot 0)) type 0)).updateCheck (anOp 59 opKeyUpdate .running) (sealedMsg (slotted.slotKey 0 (slotted.slot 0)) type 0) = .ok x := by
  generalize hK : slotted.slotKey 0 (slotted.slot 0) = K
  obtain ⟨k, hk⟩ := message_authentic K type 0
  have hm := vaultMsg_messageIn slotted opKeyUpdate (sealedMsg K type 0) rfl (by decide +kernel) (by decide +kernel)
  have hr : (messageIn slotted opKeyUpdate (sealedMsg K type 0)).regs = slotted.regs := by unfold messageIn; simp only [hostWrite_regs]; rfl
  have hb : (messageIn slotted opKeyUpdate (sealedMsg K type 0)).tbl = slotted.tbl := by unfold messageIn; simp only [hostWrite_tbl]; rfl
  have hv : (messageIn slotted opKeyUpdate (sealedMsg K type 0)).vault = slotted.vault := by unfold messageIn; simp only [hostWrite_vault]; rfl
  have ha : (messageIn slotted opKeyUpdate (sealedMsg K type 0)).anvil = slotted.anvil := by unfold messageIn; simp only [hostWrite_anvil]; rfl
  have hx : (messageIn slotted opKeyUpdate (sealedMsg K type 0)).tables = slotted.tables := by unfold messageIn; simp only [hostWrite_tables]; rfl
  refine ⟨(k, K), rfl, hm.1, ?_, ?_⟩
  · rcases ht with rfl | rfl | rfl <;> rfl
  · have e1 : mAuth (sealedMsg K type 0) = 0 := rfl
    have e2 : mTarget (sealedMsg K type 0) = 0 := rfl
    have e3 : nats (slice (sealedMsg K type 0) 4 16) = uidBytes := rfl
    have e4 : msgBad (sealedMsg K type 0) 136 [1, 3, 4] = false := by rcases ht with rfl | rfl | rfl <;> rfl
    have e5 : recipeBad (sealedMsg K type 0) false = false := recipe_allowed _ _ _ _
    have e6 : mCounter (sealedMsg K type 0) = 1 := rfl
    have e7 : mBinding (sealedMsg K type 0) = 0 := rfl
    have e8 : mRoot (sealedMsg K type 0) = 1 := rfl
    have hg : ∀ f, (messageIn slotted opKeyUpdate (sealedMsg K type 0)).get f = slotted.get f := fun f => by unfold Dev.get Dev.reg; rw [hr]
    have s1 : ∀ j, (messageIn slotted opKeyUpdate (sealedMsg K type 0)).slot j = slotted.slot j := fun j => by unfold Dev.slot Dev.tget; rw [hb]
    have s2 : (messageIn slotted opKeyUpdate (sealedMsg K type 0)).slotKey 0 (slotted.slot 0) = slotted.slotKey 0 (slotted.slot 0) := by
      unfold Dev.slotKey Dev.signerHash Dev.mExact; simp only [hg, hv]
    have s3 : (messageIn slotted opKeyUpdate (sealedMsg K type 0)).provisioned = slotted.provisioned := by unfold Dev.provisioned; rw [hg]
    have s4 : (messageIn slotted opKeyUpdate (sealedMsg K type 0)).slotMay 0 useAuthorise = slotted.slotMay 0 useAuthorise := by
      unfold Dev.slotMay Dev.slotAvail Dev.slotBad Dev.isolated Dev.flag; rw [s3]; simp only [hg, s1, hv, hx]
    have s5 : (messageIn slotted opKeyUpdate (sealedMsg K type 0)).pinnedFor 0 = false := by unfold Dev.pinnedFor; rw [ha]; rfl
    rw [hK] at s2
    have t3 : slotted.provisioned = true := by decide +kernel
    have t4 : slotted.slotMay 0 useAuthorise = true := by decide +kernel
    unfold Dev.updateCheck
    simp only [e1, e2, e3, e4, e5, e6, e7, e8, s1, s2, s3, s4, s5, t3, t4, hk, hm.2]
    have : slCounter (slotted.slot 0) = 0 := by decide +kernel
    simp [this]


end Sys2Proof.Tests
end

section
/-!
PROOF. The queue and the reset state, what register fields and memories take from a write, and that a store is decided by what it
reads as (R12, R13, R450, R451).
-/
namespace Sys2Proof.Machine

/-! ### A canonical store is decided by what it reads as -/

section
variable {α : Type}

theorem SMap.get_head (e : α) (k : Nat) (v : α) (m : SMap α) : SMap.get ((k, v) :: m) e k = v := by
  simp [SMap.get, SMap.find?]

theorem SMap.get_tail (e : α) {k j : Nat} (v : α) (m : SMap α) (h : k ≠ j) : SMap.get ((k, v) :: m) e j = SMap.get m e j := by
  simp [SMap.get, SMap.find?, h]

variable [DecidableEq α] {d : Nat → α}

/-- The head of a canonical store: its key is not below the bound, its value is not what the key reads as unlisted, and the tail lists
only keys above it. -/
theorem SMap.wfFrom_cons {b k : Nat} {v : α} {m : SMap α} :
    SMap.wfFrom d b ((k, v) :: m) = true ↔ b ≤ k ∧ v ≠ d k ∧ SMap.wfFrom d (k + 1) m = true := by
  simp [SMap.wfFrom, and_assoc]

/-- A key below the bound is not listed. -/
theorem SMap.get_below (e : α) {b j : Nat} (m : SMap α) (hm : SMap.wfFrom d b m = true) (hj : j < b) : SMap.get m e j = e := by
  induction m generalizing b with
  | nil => rfl
  | cons p m ih =>
    obtain ⟨k, v⟩ := p
    obtain ⟨hk, -, ht⟩ := SMap.wfFrom_cons.mp hm
    rw [SMap.get_tail e v m (by omega), ih ht (by omega)]

/-- In a canonical store the head's key does not read as in a store that lists only greater keys. -/
theorem SMap.get_head_ne {b k : Nat} {v : α} {m n : SMap α} (hm : SMap.wfFrom d b ((k, v) :: m) = true)
    (hn : SMap.wfFrom d (k + 1) n = true) : SMap.get ((k, v) :: m) (d k) k ≠ SMap.get n (d k) k := by
  rw [SMap.get_head, SMap.get_below _ n hn (Nat.lt_succ_self k)]
  exact (SMap.wfFrom_cons.mp hm).2.1

/-- Two canonical stores that read alike are the same list. -/
theorem SMap.ext_of_wfFrom (b : Nat) (m n : SMap α) (hm : SMap.wfFrom d b m = true) (hn : SMap.wfFrom d b n = true)
    (h : ∀ a, SMap.get m (d a) a = SMap.get n (d a) a) : m = n := by
  induction m generalizing b n with
  | nil =>
    cases n with
    | nil => rfl
    | cons q n => exact absurd (h q.1).symm (SMap.get_head_ne hn rfl)
  | cons p m ih =>
    obtain ⟨k, v⟩ := p
    cases n with
    | nil => exact absurd (h k) (SMap.get_head_ne hm rfl)
    | cons q n =>
      obtain ⟨j, x⟩ := q
      obtain ⟨hbk, hv, hm'⟩ := SMap.wfFrom_cons.mp hm
      obtain ⟨hbj, hx, hn'⟩ := SMap.wfFrom_cons.mp hn
      rcases Nat.lt_trichotomy k j with hkj | rfl | hjk
      · exact absurd (h k) (SMap.get_head_ne hm (SMap.wfFrom_cons.mpr ⟨hkj, hx, hn'⟩))
      · have hvx : v = x := by simpa only [SMap.get_head] using h k
        have htail : ∀ a, SMap.get m (d a) a = SMap.get n (d a) a := by
          intro a
          by_cases ha : k = a
          · subst ha
            rw [SMap.get_below _ m hm' (Nat.lt_succ_self k), SMap.get_below _ n hn' (Nat.lt_succ_self k)]
          · simpa only [SMap.get_tail _ _ _ ha] using h a
        rw [hvx, ih (k + 1) n hm' hn' htail]
      · exact absurd (h j).symm (SMap.get_head_ne hn (SMap.wfFrom_cons.mpr ⟨hjk, hv, hm'⟩))

end

/-- Host memory in canonical form is decided by its bytes (log 1). -/
theorem Memory.ext_of_wf (m n : List Host.Cell) (hm : Memory.wf m = true) (hn : Memory.wf n = true)
    (h : ∀ a, SMap.get m 0 a = SMap.get n 0 a) : m = n :=
  SMap.ext_of_wfFrom (d := fun _ => 0) 0 m n hm hn h

/-! ### What a field takes from a write (Table SCOPE-2, Table REG-4) -/

/-- The field takes an accepted value: read-write, write-only, and a locked or write-once one that nothing bars. -/
def FldDef.takes (f : FldDef) (locked once : Bool) : Prop :=
  f.acc = .rw ∨ f.acc = .wo ∨ (f.acc = .rwl ∧ locked = false) ∨ (f.acc = .rwo ∧ once = false)

section
variable {f : FldDef} {locked once : Bool} (o v : Nat)

theorem FldDef.write_keeps (h : f.acc = .ro ∨ f.acc = .rc) : f.write locked once o v = (bf o f.lo f.w, false, false) := by
  unfold FldDef.write
  rcases h with h | h <;> rw [h]

/-- A field that takes values is written by its value rule alone. -/
theorem FldDef.write_of_takes (h : f.takes locked once) : f.write locked once o v
    = match f.accept (bf v f.lo f.w) with
      | some y => (y, false, false)
      | none => (bf o f.lo f.w, false, bf v f.lo f.w != bf o f.lo f.w) := by
  unfold FldDef.write
  rcases h with h | h | ⟨h, rfl⟩ | ⟨h, rfl⟩ <;> rw [h] <;> rfl

theorem FldDef.write_accepted {y : Nat} (h : f.takes locked once) (hy : f.accept (bf v f.lo f.w) = some y) :
    f.write locked once o v = (y, false, false) := by
  rw [FldDef.write_of_takes o v h, hy]

theorem FldDef.write_ignored (h : f.takes locked once) (hn : f.accept (bf v f.lo f.w) = none) :
    f.write locked once o v = (bf o f.lo f.w, false, bf v f.lo f.w != bf o f.lo f.w) := by
  rw [FldDef.write_of_takes o v h, hn]

/-- A locked field flags the write, whatever its value (R450). -/
theorem FldDef.write_locked (h : f.acc = .rwl) : f.write true once o v = (bf o f.lo f.w, true, false) := by
  unfold FldDef.write; rw [h]; rfl

/-- A write-once field that has been written flags a different value only. -/
theorem FldDef.write_once (h : f.acc = .rwo) :
    f.write locked true o v = (bf o f.lo f.w, bf v f.lo f.w != bf o f.lo f.w, false) := by
  unfold FldDef.write; rw [h]; rfl

theorem FldDef.write_w1c_testBit (h : f.acc = .w1c) (i : Nat) (hi : i < f.w) :
    (f.write locked once o v).1.testBit i = (o.testBit (f.lo + i) && !v.testBit (f.lo + i)) := by
  have hw : (f.write locked once o v).1 = bf o f.lo f.w &&& ((2 ^ f.w - 1) ^^^ bf v f.lo f.w) := by
    unfold FldDef.write; rw [h]
  rw [hw, Nat.testBit_and, Nat.testBit_xor, Nat.testBit_two_pow_sub_one, bf_eq_testBit, bf_eq_testBit]
  simp [hi]

theorem FldDef.write_w1s_testBit (h : f.acc = .w1s) (i : Nat) (hi : i < f.w) :
    (f.write locked once o v).1.testBit i = (o.testBit (f.lo + i) || v.testBit (f.lo + i)) := by
  have hw : (f.write locked once o v).1 = bf o f.lo f.w ||| bf v f.lo f.w := by
    unfold FldDef.write; rw [h]
  rw [hw, Nat.testBit_or, bf_eq_testBit, bf_eq_testBit]
  simp [hi]

end

/-! ### Table memories -/

@[simp] theorem tget_tset_same (d : Dev) (m c i v : Nat) : (d.tset m c i v).tget m c i = v := by
  simp [Dev.tget, Dev.tset]

theorem tget_tset_ne (d : Dev) {m c i m' c' i' : Nat} (v : Nat) (h : tkey m' c' i' ≠ tkey m c i) :
    (d.tset m c i v).tget m' c' i' = d.tget m' c' i' :=
  SMap.get_set_ne _ _ _ _ _ _ h.symm

/-- The memory copy that a key belongs to. -/
theorem tkey_div (m c : Nat) {i : Nat} (hi : i < 2 ^ 24) : tkey m c i / 2 ^ 24 = m * 2 + c := by
  unfold tkey; omega

/-- Clearing a copy unlists its own entries and no other. -/
theorem tget_tclear (d : Dev) (m c m' c' : Nat) {i : Nat} (hi : i < 2 ^ 24) :
    (d.tclear m c).tget m' c' i = if m' * 2 + c' = m * 2 + c then 0 else d.tget m' c' i := by
  have hf := SMap.find_filter (fun k => k / 2 ^ 24 != m * 2 + c) d.tbl (tkey m' c' i)
  unfold Dev.tget Dev.tclear SMap.get
  rw [hf, tkey_div m' c' hi]
  by_cases h : m' * 2 + c' = m * 2 + c <;> simp [h]

/-! ### The obligations -/

/-- Settles O1: `step` on a queue with a front command is `exec` of that command, by definition. -/
theorem stepRunsFront : Obligations.StepRunsFront := by
  intro c rest d
  rfl

/-- Settles O3: at reset every store is the empty list, so each register, byte and entry reads what an unlisted key reads as. -/
theorem resetIsSound : Obligations.ResetIsSound := by
  refine ⟨rfl, reset_stores, rfl, fun a => ?_, fun _ => rfl, fun _ _ _ => rfl⟩
  exact BitVec.toNat_ofNat (resetVal a) 32

/-- Settles O60, a rule per access code, per memory and per store operation. -/
theorem fieldAndMemoryWrites : Obligations.FieldAndMemoryWrites := by
  refine ⟨fun f locked once o v => ?_, fun d a bs => ?_, fun d m c i v => ?_, fun d hd => ?_, Memory.ext_of_wf⟩
  · exact ⟨FldDef.write_keeps o v,
      fun h => ⟨fun _ => FldDef.write_accepted o v h, FldDef.write_ignored o v h⟩,
      FldDef.write_locked o v, FldDef.write_once o v, FldDef.write_w1c_testBit o v, FldDef.write_w1s_testBit o v⟩
  · exact ⟨hostRead_write d a bs, fun c => hostByte_write_out d a c bs⟩
  · refine ⟨tget_tset_same d m c i v, fun _ _ _ => tget_tset_ne d v, fun hi => ?_, fun m' c' i' hi' hne => ?_⟩
    · rw [tget_tclear d m c m c hi, if_pos rfl]
    · rw [tget_tclear d m c m' c' hi', if_neg hne]
  · exact ⟨fun a v => setReg_stores d a v hd, fun f v => set_stores d f v hd, fun lo hi => resetRegs_stores d lo hi hd,
      fun m c i v => tset_stores d m c i v hd, fun m c => tclear_stores d m c hd, fun a bs => hostWrite_stores d a bs hd⟩

end Sys2Proof.Machine
end

section
/-!
PROOF. Accesses of the masters and how they end (R6, R12, R432, R433, R444 to R449, R451 to R453): one rule per way an access can go,
then the statement assembled from them.
-/
namespace Sys2Proof.Machine

/-! ### The answer of a command

Each command of this file is one operation on the device, whose reactions are then applied (`State.done`). -/

/-- Commands with the same effect on the device answer the same. -/
theorem next_settle_congr (s : State) {d e : Dev} (h : d = e) :
    (Host.Outcome.next { s with dev := d.settle } : Host.Outcome State Fault Refusal) = .next { s with dev := e.settle } := by
  rw [h]

/-- A command that leaves a quiet device as it was leaves the state as it was. -/
theorem next_settle_of_eq {s : State} (hq : s.dev.quiet) {d : Dev} (h : d = s.dev) :
    (Host.Outcome.next { s with dev := d.settle } : Host.Outcome State Fault Refusal) = .next s := by
  rw [h, settle_nil _ hq]

/-! ### A master whose path is off (R6, R432) -/

section
variable {d : Dev} {m : Nat} (hp : d.pathUp m = false)
include hp

theorem read_off (a : Nat) : d.read m a = d := by unfold Dev.read; simp [hp]
theorem write_off (a v : Nat) : d.write m a v = d := by unfold Dev.write; simp [hp]

theorem writeReq_off (q : BusReq) (v : Nat) : d.writeReq m q v = d := by
  unfold Dev.writeReq
  split
  · exact write_off hp _ _
  · simp [hp]

theorem readReq_off (q : BusReq) : d.readReq m q = d := by
  unfold Dev.readReq
  split
  · exact read_off hp _
  · simp [hp]

theorem stallTimeout_off (a : Nat) (w : Bool) : d.stallTimeout m a w = d := by unfold Dev.stallTimeout; simp [hp]
theorem postedFail_off (a : Nat) : d.postedFail m a = d := by unfold Dev.postedFail; simp [hp]

end

/-! ### How a request ends for its requester (Table REG-5) -/

section
variable {d d1 : Dev} {m a v : Nat} (hp : d.pathUp m = true)
include hp

theorem read_value {x : Nat} (h : d.busRead m a = (d1, some x)) : d.read m a = d1.emit (.readData m a x) := by
  unfold Dev.read; simp [hp, h]

theorem read_busError (h : d.busRead m a = (d1, none)) : d.read m a = d1.emit (.busError m a) := by
  unfold Dev.read; simp [hp, h]

/-- A write that is no bus error, or one in the PWR window or of MGMT, is reported to nobody. -/
theorem write_silent {e : WriteEnd} (h : d.busWrite m a v = (d1, e)) (he : e ≠ .error ∨ inPwr a = true ∨ m = 3) :
    d.write m a v = d1 := by
  unfold Dev.write
  rcases he with he | he | rfl <;> simp [*]

theorem write_busError (h : d.busWrite m a v = (d1, .error)) (ha : inPwr a = false) (hm : m ≠ 3) :
    d.write m a v = d1.emit (.busError m a) := by
  unfold Dev.write; simp [hp, h, ha, hm]

end

/-! ### Which operation a bus access is -/

section
variable (d : Dev) {m a : Nat} (v : Nat)

/-- A whole-DW request outside BAR2 is a write at its address. -/
theorem writeReq_plain (m a : Nat) : d.writeReq m ⟨false, a, true⟩ v = d.write m a v := by
  unfold Dev.writeReq reqPlain; simp

/-- Away from the indirect access registers a write is the register write of the address. -/
theorem busWrite_direct (h1 : a ≠ R.GLOBAL_IND_ADDR) (h2 : a ≠ R.GLOBAL_IND_DATA) (hb : indBarred m a = false) :
    d.busWrite m a v = (d.viaInd m a).regWrite m a v := by
  unfold Dev.busWrite; simp [h1, h2, hb]

/-- The safety port cannot name the registers of indirect access (R446). -/
theorem busWrite_barred (h1 : a ≠ R.GLOBAL_IND_ADDR) (h2 : a ≠ R.GLOBAL_IND_DATA) (hb : indBarred m a = true) :
    d.busWrite m a v = (((d.viaInd m a).unfetch a).writeFail m a, .error) := by
  unfold Dev.busWrite; simp [h1, h2, hb]

theorem busRead_direct (h1 : a ≠ R.GLOBAL_IND_ADDR) (h2 : a ≠ R.GLOBAL_IND_DATA) (h3 : a ≠ R.GLOBAL_IND_STATUS)
    (hb : indBarred m a = false) : d.busRead m a = (d.viaInd m a).regRead m a := by
  unfold Dev.busRead; simp [h1, h2, h3, hb]

end

/-! ### Register writes (R442, R451, R452) -/

section
variable {d : Dev} {m a : Nat} (v : Nat)

theorem regWrite_stalls (hl : d.linkStall a = true) :
    (d.viaInd m a).regWrite m a v = ((d.viaInd m a).stalled m a true, .done) := by
  unfold Dev.regWrite; rw [viaInd_linkStall, if_pos hl]

variable (hl : d.linkStall a = false)
include hl

/-- A write that the die link does not stall is judged on the device that has numbered it. -/
theorem regWrite_judged : (d.viaInd m a).regWrite m a v
    = match (d.beforeWrite m a).regAt a with
      | none => ((d.beforeWrite m a).writeFail m a, .error)
      | some r =>
        if !(d.beforeWrite m a).mayWrite m a && r.writable then
          ((d.beforeWrite m a).flaggedWrite (pageBlock a) m a, .denied)
        else ((d.beforeWrite m a).regGive r m a (v % 2 ^ 32), if (d.beforeWrite m a).feedDenied m a then .denied else .done) := by
  unfold Dev.regWrite; rw [viaInd_linkStall, hl]; rfl

theorem regWrite_unlisted (hr : (d.beforeWrite m a).regAt a = none) :
    (d.viaInd m a).regWrite m a v = ((d.beforeWrite m a).writeFail m a, .error) := by
  rw [regWrite_judged v hl, hr]

theorem regWrite_flagged {r : RegDef} (hr : (d.beforeWrite m a).regAt a = some r)
    (hm : (d.beforeWrite m a).mayWrite m a = false) (hw : r.writable = true) :
    (d.viaInd m a).regWrite m a v = ((d.beforeWrite m a).flaggedWrite (pageBlock a) m a, .denied) := by
  rw [regWrite_judged v hl, hr]; simp [hm, hw]

/-- A permitted write of a single-word register is that register's own effect, and no bus error. -/
theorem regWrite_reaches {r : RegDef} (hr : (d.beforeWrite m a).regAt a = some r)
    (hm : (d.beforeWrite m a).mayWrite m a = true ∨ r.writable = false) (hw : r.loWord = false) (hg : pairLo a = none) :
    ∃ e, e ≠ .error ∧ (d.viaInd m a).regWrite m a v = ((d.beforeWrite m a).regPut r m a (v % 2 ^ 32), e) := by
  have hc : (!(d.beforeWrite m a).mayWrite m a && r.writable) = false := by
    rcases hm with hm | hm <;> simp [hm]
  have hgive : (d.beforeWrite m a).regGive r m a (v % 2 ^ 32) = (d.beforeWrite m a).regPut r m a (v % 2 ^ 32) := by
    unfold Dev.regGive; simp [hw, hg]
  refine ⟨if (d.beforeWrite m a).feedDenied m a then .denied else .done, by split <;> decide, ?_⟩
  rw [regWrite_judged v hl, hr]
  simp only [hc, hgive, Bool.false_eq_true, if_false]

end

/-! ### Register reads (R12) -/

section
variable {d : Dev} {m a : Nat} (hl : d.linkStall a = false)
include hl

theorem regRead_unlisted (hr : (d.beforeAccess m a 2).regAt a = none) :
    (d.viaInd m a).regRead m a = ((d.beforeAccess m a 2).readError m a, none) := by
  unfold Dev.beforeAccess at hr ⊢
  unfold Dev.regRead
  rw [viaInd_linkStall, hl]
  simp [hr]

/-- A read of RC fields returns the register's value and leaves those bits 0. -/
theorem regRead_rc {r : RegDef} (hr : (d.beforeAccess m a 2).regAt a = some r) (hw : r.loWord = false)
    (hg : groupLo a = none) (hs : slotReg a = false) (hk : r.rcMask ≠ 0) :
    (d.viaInd m a).regRead m a
      = ((d.beforeAccess m a 2).setReg a ((d.beforeAccess m a 2).reg a &&& (0xFFFFFFFF ^^^ r.rcMask)),
          some ((d.beforeAccess m a 2).view r a)) := by
  unfold Dev.beforeAccess at hr ⊢
  unfold Dev.regRead
  rw [viaInd_linkStall, hl]
  simp [hr, Dev.regTake, hg, hs, hw, hk]

end

/-- Clearing the bits of a mask leaves the register's other bits. -/
theorem reg_setReg_clear_testBit (d : Dev) (a k i : Nat) (hi : i < 32) :
    ((d.setReg a (d.reg a &&& (0xFFFFFFFF ^^^ k))).reg a).testBit i = ((d.reg a).testBit i && !k.testBit i) := by
  rw [reg_eq, setReg_regs, rreg_rput_same, Nat.testBit_mod_two_pow, Nat.testBit_and, Nat.testBit_xor,
    show (0xFFFFFFFF : Nat) = 2 ^ 32 - 1 from rfl, Nat.testBit_two_pow_sub_one]
  simp [hi]

/-! ### The die link (R26, R443, R453) -/

/-- With fewer than 32 transactions outstanding an access of the PWR window crosses the link at once. -/
theorem linkUse_flits (d : Dev) {a : Nat} (n : Nat) (ha : inPwr a = true) (hf : d.load.flight.length < 32) :
    d.linkUse a n = d.flits n := by
  unfold Dev.linkUse Dev.linkWait; simp [ha, hf]

theorem postNumber_lastSeq (d : Dev) {a : Nat} (ha : inPwr a = true) :
    (d.postNumber a).get F.PWR_BRIDGE_STATUS_LAST_SEQ = (d.get F.PWR_BRIDGE_STATUS_LAST_SEQ + 1) % 65536 := by
  unfold Dev.postNumber
  rw [if_pos ha, get_set_same _ _ _ (by decide)]
  exact Nat.mod_mod _ _

/-- Only accesses of the PWR window stall for the link. -/
theorem inPwr_of_linkStall {d : Dev} {a : Nat} (hl : d.linkStall a = true) : inPwr a = true := by
  unfold Dev.linkStall at hl; simp_all

/-- The registers of indirect access lie outside the PWR window. -/
theorem not_inPwr_of_indWindow {a : Nat} (h : indWindow a = true) : inPwr a = false := by
  simp only [indWindow, Bool.and_eq_true, decide_eq_true_eq] at h
  simp only [inPwr, Bool.and_eq_false_iff, decide_eq_false_iff_not]
  omega

theorem not_indWindow_of_inPwr {a : Nat} (h : inPwr a = true) : indWindow a = false :=
  Bool.eq_false_iff.mpr fun hw => Bool.false_ne_true ((not_inPwr_of_indWindow hw).symm.trans h)

theorem indWindow_indAddr : indWindow R.GLOBAL_IND_ADDR = true := rfl
theorem indWindow_indData : indWindow R.GLOBAL_IND_DATA = true := rfl

theorem ne_of_not_indWindow {a b : Nat} (ha : indWindow a = false) (hb : indWindow b = true) : a ≠ b := by
  rintro rfl; rw [ha] at hb; cases hb

theorem indBarred_of_not_indWindow (m : Nat) {a : Nat} (h : indWindow a = false) : indBarred m a = false := by
  unfold indBarred; rw [h, Bool.and_false]

/-- A write of the PWR window while the die link is down stalls (R444, R514). -/
theorem busWrite_stalls {d : Dev} {m a : Nat} (v : Nat) (hl : d.linkStall a = true) :
    d.busWrite m a v = ((d.viaInd m a).stalled m a true, .done) := by
  have hw := not_indWindow_of_inPwr (inPwr_of_linkStall hl)
  rw [busWrite_direct d v (ne_of_not_indWindow hw indWindow_indAddr) (ne_of_not_indWindow hw indWindow_indData)
    (indBarred_of_not_indWindow m hw), regWrite_stalls v hl]

/-! ### Indirect access (R446, R447) -/

section
variable (d : Dev) (m : Nat)

@[simp] theorem indAddr_indAddrWrite (v : Nat) : (d.indAddrWrite m v).indAddr m = v &&& 0x33FFFFFC :=
  SMap.get_set_same _ _ _ _

@[simp] theorem pf_indAddrWrite (v : Nat) : SMap.get (d.indAddrWrite m v).bus.pf none m = none := by
  simp [Dev.indAddrWrite, Dev.setPf]

theorem viaInd_safety (a : Nat) : d.viaInd 1 a = d.indAddrWrite 1 (a % 2 ^ 26) := rfl

/-- `IND_ADDR` holds an aligned address of 26 bits unchanged. -/
theorem and_indAddrMask {a : Nat} (h4 : a % 4 = 0) (h26 : a < 2 ^ 26) : a &&& 0x33FFFFFC = a := by
  have hmask : ∀ i : Fin 26, 2 ≤ i.val → (0x33FFFFFC : Nat).testBit i = true := by decide
  apply Nat.eq_of_testBit_eq
  intro i
  rw [Nat.testBit_and]
  by_cases hi : a.testBit i = true
  · have hlo : 2 ≤ i := by
      refine Nat.le_of_not_lt fun hlt => Bool.false_ne_true ?_
      calc false = (a % 2 ^ 2).testBit i := by rw [show a % 2 ^ 2 = 0 from h4, Nat.zero_testBit]
        _ = true := by rw [Nat.testBit_mod_two_pow, hi, decide_eq_true hlt]; rfl
    have hhi : i < 26 := by
      refine Nat.lt_of_not_le fun hge => Bool.false_ne_true ?_
      rw [← hi, Nat.testBit_lt_two_pow (Nat.lt_of_lt_of_le h26 (Nat.pow_le_pow_right (by decide) hge))]
    rw [hi, hmask ⟨i, hhi⟩ hlo]; rfl
  · rw [Bool.eq_false_iff.mpr hi]; rfl

/-- The safety port's `IND_ADDR` names the address of its access. -/
theorem indAddr_viaInd {a : Nat} (h4 : a % 4 = 0) (h26 : a < 2 ^ 26) : (d.viaInd 1 a).indAddr 1 = a := by
  rw [viaInd_safety, indAddr_indAddrWrite, Nat.mod_eq_of_lt h26, and_indAddrMask h4 h26]

theorem indTarget_of_aligned {a : Nat} (h4 : a % 4 = 0) (h26 : a < 2 ^ 26) : indTarget a = a := by
  unfold indTarget bf; omega

theorem indAuto_of_lt {a : Nat} (h26 : a < 2 ^ 26) : indAuto a = false := by
  unfold indAuto bit; rw [Nat.div_eq_of_lt (by omega)]; rfl

/-- AUTO_INC adds 4 and wraps to 0 after 0x3FFFFFC. -/
theorem indTarget_indStep (h : indAuto (d.indAddr m) = true) :
    indTarget ((d.indStep m).indAddr m) = (indTarget (d.indAddr m) + 4) % 2 ^ 26 := by
  have hx : (d.indStep m).indAddr m = setBf (d.indAddr m) 2 24 (bf (d.indAddr m) 2 24 + 1) := by
    unfold Dev.indStep
    rw [if_pos h]
    exact SMap.get_set_same _ _ _ _
  rw [hx, indTarget, indTarget, bf_setBf_same]
  omega

theorem indStep_of_not_auto (h : indAuto (d.indAddr m) = false) : d.indStep m = d := by
  unfold Dev.indStep; simp [h]

theorem indRead_prefetched {p : Nat × Nat × Nat} (h : SMap.get d.bus.pf none m = some p) :
    (d.indRead m).2 = some p.2.1 := by
  unfold Dev.indRead; rw [h]

theorem indRead_target (h : SMap.get d.bus.pf none m = none) (hw : indWindow (indTarget (d.indAddr m)) = false) :
    (d.indRead m).2 = (d.regRead m (indTarget (d.indAddr m))).2 := by
  unfold Dev.indRead; rw [h]; simp [hw]

end

/-- The registers of indirect access lie in the GLOBAL block together. -/
theorem pageOn_indAddr (d : Dev) : d.pageOn R.GLOBAL_IND_ADDR = d.pageOn R.GLOBAL_IND_DATA := rfl

section
variable {d : Dev} (hon : d.pageOn R.GLOBAL_IND_DATA = true) (m : Nat)
include hon

theorem busRead_indData : d.busRead m R.GLOBAL_IND_DATA = d.indRead m := by
  unfold Dev.busRead
  rw [if_neg (by simp [R.GLOBAL_IND_DATA, R.GLOBAL_IND_ADDR]), if_pos (by simp [hon])]

theorem busWrite_indData_flagged (v : Nat) (hm : d.indMay m = false) :
    d.busWrite m R.GLOBAL_IND_DATA v = (d.flaggedWrite blkGlobal m R.GLOBAL_IND_DATA, .denied) := by
  unfold Dev.busWrite; simp [hon, hm]

theorem busWrite_indAddr_flagged (v : Nat) (hm : d.indMay m = false) :
    d.busWrite m R.GLOBAL_IND_ADDR v = (d.flaggedWrite blkGlobal m R.GLOBAL_IND_ADDR, .denied) := by
  unfold Dev.busWrite; simp [pageOn_indAddr, hon, hm]

theorem busWrite_indAddr (v : Nat) (hm : d.indMay m = true) :
    d.busWrite m R.GLOBAL_IND_ADDR v = (d.indAddrWrite m v, .done) := by
  unfold Dev.busWrite; simp [pageOn_indAddr, hon, hm]

theorem busWrite_indData (v : Nat) (hm : d.indMay m = true) : d.busWrite m R.GLOBAL_IND_DATA v = d.indWrite m v := by
  unfold Dev.busWrite
  rw [if_neg (by simp [hm]), if_neg (by simp [R.GLOBAL_IND_DATA, R.GLOBAL_IND_ADDR]), if_pos (by simp [hon])]

end

/-! ### Requests of the host that no register answers (R412, R438) -/

/-- A doorbell lies in BAR2 at a multiple of 4 KiB. -/
theorem reqBell_doorbell (r : Fin 64) : reqBell ⟨true, 0x1000 * r, true⟩ = some r.val := by
  have := r.isLt
  unfold reqBell
  rw [if_pos (by simp; omega), Nat.mul_div_cancel_left _ (by decide)]

section
variable {d : Dev} {q : BusReq} (hp : d.pathUp 0 = true)
include hp

theorem writeReq_doorbell (v : Nat) {r : Nat} (hq : reqPlain q 0 = false) (hr : reqBell q = some r) :
    d.writeReq 0 q v = d.doorbell r (v % 2 ^ 32) [] := by
  unfold Dev.writeReq; simp [hp, hq, hr]

theorem readReq_doorbell {r : Nat} (hq : reqPlain q 0 = false) (hr : reqBell q = some r) :
    d.readReq 0 q = d.emit (.readData 0 q.addr (d.dbIdx r)) := by
  unfold Dev.readReq; simp [hp, hq, hr]

variable (hq : reqPlain q 0 = false) (hr : reqBell q = none) (hl : d.linkStall q.addr = false)
include hq hr hl

/-- Any other request ends as a write of an unimplemented address does. -/
theorem writeReq_unimplemented (v : Nat) : d.writeReq 0 q v
    = if inPwr q.addr then (if q.bar2 then d else d.beforeWrite 0 q.addr).writeFail 0 q.addr
      else ((if q.bar2 then d else d.beforeWrite 0 q.addr).writeFail 0 q.addr).emit (.busError 0 q.addr) := by
  unfold Dev.writeReq Dev.beforeWrite Dev.beforeAccess Dev.numberWrite
  rw [viaInd_of d 0 q.addr (by decide)]
  simp [hp, hq, hr, hl]

theorem readReq_unimplemented :
    d.readReq 0 q = ((d.linkUse q.addr 2).readError 0 q.addr).emit (.busError 0 q.addr) := by
  unfold Dev.readReq; simp [hp, hq, hr, hl]

end

theorem reqPlain_host {q : BusReq} (h : q.bar2 = true ∨ q.whole = false) : reqPlain q 0 = false := by
  unfold reqPlain; rcases h with h | h <;> simp [h]

/-! ### Values that nobody collects (R447, R448) -/

theorem prefetchDiscard_none {d : Dev} {m : Nat} (h : SMap.get d.bus.pf none m = none) : d.prefetchDiscard m = d := by
  unfold Dev.prefetchDiscard; rw [h]

theorem prefetchDiscard_some {d : Dev} {m : Nat} {p : Nat × Nat × Nat} (h : SMap.get d.bus.pf none m = some p) :
    d.prefetchDiscard m = (d.reach (p.2.2 + d.trdCyc)).setPf m none := by
  unfold Dev.prefetchDiscard; rw [h]

theorem delayedDiscard_nil {d : Dev} (h : d.bus.delayed = []) : d.delayedDiscard = d := by
  unfold Dev.delayedDiscard; rw [h]

/-- The device once its oldest delayed read is dropped: the reads after it are left, and the data of the answer it was for is open. -/
def Dev.dropDelayed (d : Dev) (r : DelayedRead) (l : List DelayedRead) : Dev :=
  let d1 := d.reach (r.at_ + d.trdCyc)
  ({ d1 with
    bus := { d1.bus with delayed := l }
    host := { d1.host with spiAns := (d1.host.spiAns.1, d1.freeNat 32, d1.host.spiAns.2.2) } } : Dev).tookFree

/-- The device once a discarded side effect is counted. -/
def Dev.discCounted (d : Dev) : Dev := (d.inc F.GLOBAL_DISC_COUNT_COUNT).fltSet blkGlobal 2

/-- The device with a record of a discarded read. -/
def Dev.discRecord (d : Dev) (r : DelayedRead) : Dev :=
  ((((d.setReg R.GLOBAL_DISC_ADDR r.addr).setReg R.GLOBAL_DISC_DATA r.data).set F.GLOBAL_DISC_INFO_MASTER r.master).set
    F.GLOBAL_DISC_INFO_VALID 1).set F.GLOBAL_DISC_TIME_DTIME d.dtime

/-- A discarded read is counted if it had a side effect, and recorded if moreover no record is held. -/
theorem delayedDiscard_cons {d : Dev} {r : DelayedRead} {l : List DelayedRead} (h : d.bus.delayed = r :: l) :
    d.delayedDiscard
      = if !r.sideEffect then d.dropDelayed r l
        else if (d.dropDelayed r l).discCounted.flag F.GLOBAL_DISC_INFO_VALID then (d.dropDelayed r l).discCounted
        else (d.dropDelayed r l).discCounted.discRecord r := by
  unfold Dev.delayedDiscard; rw [h]; rfl

section
variable {d : Dev} {r : DelayedRead} {l : List DelayedRead} (h : d.bus.delayed = r :: l)
include h

theorem delayedDiscard_pure (hs : r.sideEffect = false) : d.delayedDiscard = d.dropDelayed r l := by
  rw [delayedDiscard_cons h, if_pos (by rw [hs]; rfl)]

variable (hs : r.sideEffect = true)
include hs

theorem delayedDiscard_held (hv : (d.dropDelayed r l).discCounted.flag F.GLOBAL_DISC_INFO_VALID = true) :
    d.delayedDiscard = (d.dropDelayed r l).discCounted := by
  rw [delayedDiscard_cons h, if_neg (by rw [hs]; decide), if_pos hv]

theorem delayedDiscard_recorded (hv : (d.dropDelayed r l).discCounted.flag F.GLOBAL_DISC_INFO_VALID = false) :
    d.delayedDiscard = (d.dropDelayed r l).discCounted.discRecord r := by
  rw [delayedDiscard_cons h, if_neg (by rw [hs]; decide), if_neg (Bool.eq_false_iff.mp hv)]

end

/-! ### Stalls, posted failures and corrections (R444, R449, R453) -/

section
variable {d : Dev} {m a : Nat} (hp : d.pathUp m = true)
include hp

theorem stallTimeout_write : d.stallTimeout m a true = d.stalled m a true := by unfold Dev.stallTimeout; simp [hp]

theorem stallTimeout_read : d.stallTimeout m a false = (d.stalled m a false).emit (.busError m a) := by
  unfold Dev.stallTimeout; simp [hp]

/-- A posted write fails at a register, or where there is none. -/
theorem postedFail_pwr (ha : inPwr a = true) : d.postedFail m a
    = if ((d.postNumber a).regAt a).isNone then (d.postNumber a).writeFail m a else (d.postNumber a).postFailed m a := by
  unfold Dev.postedFail; simp [hp, ha]

end

theorem postedFail_outside (d : Dev) (m : Nat) {a : Nat} (ha : inPwr a = false) : d.postedFail m a = d := by
  unfold Dev.postedFail; simp [ha]

theorem tmrCorrect_none {d : Dev} {a : Nat} (h : tripled a = false ∨ d.regAt a = none) : d.tmrCorrect a = d := by
  unfold Dev.tmrCorrect; rcases h with h | h <;> simp [h]

theorem tmrCorrect_some {d : Dev} {a : Nat} {r : RegDef} (ht : tripled a = true) (hr : d.regAt a = some r) :
    d.tmrCorrect a = (((d.inc F.GLOBAL_TMR_CORR_COUNT).set F.GLOBAL_TMR_LAST_ADDR a).set F.GLOBAL_TMR_LAST_VALID 1).countEvent
      (pageBlock a) 30 := by
  unfold Dev.tmrCorrect; simp [ht, hr]

/-! ### The safety port (R433) -/

/-- A frame has the form of Table HIF-12. -/
def spiOk (l : List Byte) (n : Nat) : Bool := n == 56 && l.length == 7 && crc8 (slice l 0 6) == byteAt l 6

/-- The frame is counted, as valid or not. -/
def Dev.spiCounted (d : Dev) (ok : Bool) : Dev := if ok then d.inc F.HIF_SPI_FRAMES_COUNT else d.inc F.HIF_SPI_ERR_COUNT

theorem spiCounted_host (d : Dev) (ok : Bool) : (d.spiCounted ok).host = d.host := by
  unfold Dev.spiCounted; split <;> exact inc_host _ _

/-- The answer of the frame before goes out with this one, which collects its delayed read. -/
def Dev.spiAnswered (d : Dev) : Dev :=
  let d1 := d.emit (.spi (spiBytes d.host.spiAns))
  { d1 with bus := { d1.bus with delayed := [] }, host := { d1.host with spiBusy := false } }

theorem spiFrame_off {d : Dev} (l : List Byte) (n : Nat) (busy : Bool) (hp : d.pathUp 1 = false) : d.spiFrame l n busy = d := by
  unfold Dev.spiFrame; simp [hp]

section
variable {d : Dev} (l : List Byte) (n : Nat) {busy : Bool} (hp : d.pathUp 1 = true)
include hp

theorem spiFrame_pending (hb : d.host.spiBusy = true) (hy : busy = true) : d.spiFrame l n busy
    = (d.spiCounted (spiOk l n)).emit (.spi (spiBytes (1, 0, (d.spiCounted (spiOk l n)).host.spiAns.2.2))) := by
  rw [spiCounted_host]
  unfold Dev.spiFrame
  rw [hp, hb, hy]
  rfl

/-- With no access of an earlier frame going on, the frame brings the answer before it, then is executed or refused. -/
theorem spiFrame_answers (hb : d.host.spiBusy = false ∨ busy = false) : d.spiFrame l n busy
    = if spiOk l n then (d.spiCounted (spiOk l n)).spiAnswered.spiExec l
      else (d.spiCounted (spiOk l n)).spiAnswered.spiAnswer 2 0 (byteAt l 5) false := by
  have hn : (d.host.spiBusy && busy) = false := by rcases hb with hb | hb <;> simp [hb]
  unfold Dev.spiFrame Dev.spiAnswered
  rw [spiCounted_host, hp, hn]
  rfl

theorem spiFrame_valid (hb : d.host.spiBusy = false ∨ busy = false) (hok : spiOk l n = true) :
    d.spiFrame l n busy = (d.spiCounted (spiOk l n)).spiAnswered.spiExec l := by
  rw [spiFrame_answers l n hp hb, if_pos hok]

theorem spiFrame_malformed (hb : d.host.spiBusy = false ∨ busy = false) (hok : spiOk l n = false) :
    d.spiFrame l n busy = (d.spiCounted (spiOk l n)).spiAnswered.spiAnswer 2 0 (byteAt l 5) false := by
  rw [spiFrame_answers l n hp hb, if_neg (Bool.eq_false_iff.mp hok)]

end

/-! ### The obligation -/

/-- Settles O54, clause by clause from the rules above. -/
theorem busAccess : Obligations.BusAccess := by
  refine ⟨?off, ?write, ?barred, ?via, ?request, ?doorbell, ?stall, ?rc, ?link, ?clear, ?ind, ?target, ?prefetch, ?delayed,
    ?timeout, ?number, ?correction, ?spi⟩
  case off =>
    intro s m q a v w hq hp
    exact ⟨next_settle_of_eq hq (writeReq_off hp q v), next_settle_of_eq hq (readReq_off hp q),
      next_settle_of_eq hq (read_off hp a), next_settle_of_eq hq (read_off hp _), next_settle_of_eq hq (write_off hp _ v),
      next_settle_of_eq hq (stallTimeout_off hp a w), next_settle_of_eq hq (postedFail_off hp a)⟩
  case write =>
    rintro s m a v b hp hl h1 h2 hb rfl
    have hq := writeReq_plain s.dev v m a
    have hbus := busWrite_direct s.dev v h1 h2 hb
    refine ⟨fun r hr hm hw hg => ?_, fun r hr hm hw => ?_, fun hr he => ?_, fun hr ha hm => ?_⟩ <;>
      refine next_settle_congr s (hq.trans ?_)
    · obtain ⟨e, he, hreg⟩ := regWrite_reaches v hl hr hm hw hg
      exact write_silent hp (hbus.trans hreg) (.inl he)
    · exact write_silent hp (hbus.trans (regWrite_flagged v hl hr hm hw)) (.inl (by decide))
    · exact write_silent hp (hbus.trans (regWrite_unlisted v hl hr)) (.inr (he.imp_right (congrArg Fin.val)))
    · exact write_busError hp (hbus.trans (regWrite_unlisted v hl hr)) ha (fun h => hm (Fin.ext h))
  case barred =>
    rintro s a v b hp hw h1 h2 rfl
    exact next_settle_congr s ((writeReq_plain s.dev v 1 a).trans
      (write_busError hp (busWrite_barred s.dev v h1 h2 hw) (not_inPwr_of_indWindow hw) (by decide)))
  case via =>
    refine fun d m a => ⟨viaInd_of d m a, fun h4 h26 => ?_⟩
    rw [indAddr_viaInd d h4 h26]
    exact ⟨indTarget_of_aligned h4 h26, indAuto_of_lt h26, pf_indAddrWrite d 1 _, viaInd_regs d 1 a⟩
  case request =>
    intro s q v hp hq hr hl
    refine ⟨?_, next_settle_congr s (readReq_unimplemented hp (reqPlain_host hq) hr hl)⟩
    rintro b rfl
    exact next_settle_congr s (writeReq_unimplemented hp (reqPlain_host hq) hr hl v)
  case doorbell =>
    intro s r v hp
    exact ⟨next_settle_congr s (writeReq_doorbell hp v rfl (reqBell_doorbell r)),
      next_settle_congr s (readReq_doorbell hp rfl (reqBell_doorbell r))⟩
  case stall =>
    exact fun s m a v hp hl => next_settle_congr s ((writeReq_plain s.dev v m a).trans
      (write_silent hp (busWrite_stalls v hl) (.inl (by decide))))
  case rc =>
    rintro s m a x hp hl h1 h2 h3 hb rfl
    have hbus := busRead_direct s.dev h1 h2 h3 hb
    exact ⟨fun r hr hw hg hs hk => next_settle_congr s (read_value hp (hbus.trans (regRead_rc hl hr hw hg hs hk))),
      fun hr => next_settle_congr s (read_busError hp (hbus.trans (regRead_unlisted hl hr)))⟩
  case link => exact fun d a n => ⟨linkUse_of d a n, linkUse_flits d n⟩
  case clear => exact reg_setReg_clear_testBit
  case ind =>
    intro s m v hp hon
    have hread := busRead_indData hon m
    have hq := writeReq_plain s.dev v m R.GLOBAL_IND_ADDR
    refine ⟨fun x d1 h => ?_, fun d1 h => ?_, fun hm => ⟨?_, ?_⟩, fun hm => ?_, fun d1 e hm h he => ?_, fun d1 hm h h3 => ?_⟩ <;>
      apply next_settle_congr s
    · exact read_value hp (hread.trans h)
    · exact read_busError hp (hread.trans h)
    · exact write_silent hp (busWrite_indData_flagged hon m v hm) (.inl (by decide))
    · exact hq.trans (write_silent hp (busWrite_indAddr_flagged hon m v hm) (.inl (by decide)))
    · exact hq.trans (write_silent hp (busWrite_indAddr hon m v hm) (.inl (by decide)))
    · exact write_silent hp ((busWrite_indData hon m v hm).trans h) (he.imp_right (fun h => .inr (congrArg Fin.val h)))
    · exact write_busError hp ((busWrite_indData hon m v hm).trans h) rfl (fun h => h3 (Fin.ext h))
  case target =>
    exact fun d m => ⟨fun p => indRead_prefetched d m, indRead_target d m, indTarget_indStep d m, indStep_of_not_auto d m⟩
  case prefetch =>
    exact fun s m => ⟨fun hq h => next_settle_of_eq hq (prefetchDiscard_none h),
      fun p h => next_settle_congr s (prefetchDiscard_some h)⟩
  case delayed =>
    refine fun s r l d1 d2 => ⟨fun hq h => next_settle_of_eq hq (delayedDiscard_nil h), ?_⟩
    rintro h rfl rfl
    refine ⟨fun hs => next_settle_congr s (delayedDiscard_pure h hs), ?_⟩
    rintro hs d4 rfl
    exact ⟨fun hv => next_settle_congr s (delayedDiscard_held h hs hv),
      fun hv => next_settle_congr s (delayedDiscard_recorded h hs hv)⟩
  case timeout =>
    refine fun s m a hp => ⟨next_settle_congr s (stallTimeout_write hp), next_settle_congr s (stallTimeout_read hp),
      fun hq ha => next_settle_of_eq hq (postedFail_outside s.dev m ha), ?_⟩
    rintro ha d1 rfl
    exact ⟨fun hn => next_settle_congr s ((postedFail_pwr hp ha).trans (if_pos hn)),
      fun hn => next_settle_congr s ((postedFail_pwr hp ha).trans (if_neg (Bool.eq_false_iff.mp hn)))⟩
  case number => exact fun d a => postNumber_lastSeq d
  case correction =>
    exact fun s a => ⟨fun hq h => next_settle_of_eq hq (tmrCorrect_none h),
      fun r ht hr => next_settle_congr s (tmrCorrect_some ht hr)⟩
  case spi =>
    rintro s l n busy ok d0 d1 rfl rfl rfl
    refine ⟨fun hq hp => next_settle_of_eq hq (spiFrame_off l n busy hp),
      fun hp hb hy => next_settle_congr s (spiFrame_pending l n hp hb hy), ?_⟩
    rintro hp hb d2 rfl
    exact ⟨fun hok => next_settle_congr s (spiFrame_valid l n hp hb hok),
      fun hok => next_settle_congr s (spiFrame_malformed l n hp hb hok)⟩

end Sys2Proof.Machine
end

section
/-!
PROOF. An idle step (log 5), and what load commands do: when one is refused, what an accepted one leaves of its channel, and how it
comes to the channel, by a register or over the die link (R26, R28, R268, R384 to R386, log 82, log 87).
-/
namespace Sys2Proof.Machine

/-! ### The idle step -/

/-- Settles O2: on an empty queue a step is `advance 1`, and `advance` touches the clock and `TIME` only. -/
theorem idleStepTicks : Obligations.IdleStepTicks := by
  intro d
  exact ⟨⟨[], d.advance 1⟩, rfl, rfl, advance_now d 1, advance_tbl d 1, advance_hostMem d 1, advance_out d 1⟩

/-! ### Fields of `CH_STATUS` under a channel's update -/

/-- `setCh` shows STATE and INRUSH in `CH_STATUS` and leaves the register's other fields. -/
theorem get_setCh_status (d : Dev) (i : Nat) (c : LoadCh) (f : FieldRef) (ha : f.addr = R.LOAD_CH_STATUS i) (hw : f.lo + f.w ≤ 32)
    (hs : 3 ≤ f.lo) (hi : f.lo + f.w ≤ 6 ∨ 7 ≤ f.lo) : (d.setCh i c).get f = d.get f := by
  have ht : R.LOAD_CH_THETA i ≠ f.addr := by rw [ha]; simp only [R.LOAD_CH_THETA, R.LOAD_CH_STATUS]; omega
  unfold Dev.setCh
  rw [get_set_ne _ (F.LOAD_CH_THETA_THETA i) f _ (.inl ht) (of_decide_eq_true rfl) hw,
    get_set_ne _ (F.LOAD_CH_STATUS_INRUSH i) f _ (.inr hi) (of_decide_eq_true rfl) hw,
    get_set_ne _ (F.LOAD_CH_STATUS_STATE i) f _ (.inr (.inr hs)) (of_decide_eq_true rfl) hw]
  rfl

section
variable (d : Dev) (i : Nat) (c : LoadCh)

theorem setCh_src : (d.setCh i c).get (F.LOAD_CH_STATUS_SRC i) = d.get (F.LOAD_CH_STATUS_SRC i) :=
  get_setCh_status d i c _ rfl (of_decide_eq_true rfl) (of_decide_eq_true rfl) (of_decide_eq_true rfl)

theorem setCh_retry : (d.setCh i c).get (F.LOAD_CH_STATUS_RETRY i) = d.get (F.LOAD_CH_STATUS_RETRY i) :=
  get_setCh_status d i c _ rfl (of_decide_eq_true rfl) (of_decide_eq_true rfl) (of_decide_eq_true rfl)

theorem setCh_duty : (d.setCh i c).get (F.LOAD_CH_STATUS_DUTY i) = d.get (F.LOAD_CH_STATUS_DUTY i) :=
  get_setCh_status d i c _ rfl (of_decide_eq_true rfl) (of_decide_eq_true rfl) (of_decide_eq_true rfl)

end

section
variable (d : Dev) (i : Nat) (run : Run) (duty src : Nat)

theorem chMove_src : (d.chMove i run duty src).get (F.LOAD_CH_STATUS_SRC i) = src % 8 :=
  get_set_same _ (F.LOAD_CH_STATUS_SRC i) _ (of_decide_eq_true rfl)

theorem chMove_duty : (d.chMove i run duty src).get (F.LOAD_CH_STATUS_DUTY i) = (if run == .pwm then duty else 10000) % 2 ^ 14 := by
  unfold Dev.chMove
  rw [get_set_ne _ (F.LOAD_CH_STATUS_SRC i) (F.LOAD_CH_STATUS_DUTY i) _ (.inr (.inr (of_decide_eq_true rfl))) (of_decide_eq_true rfl)
    (of_decide_eq_true rfl)]
  exact get_set_same _ (F.LOAD_CH_STATUS_DUTY i) _ (of_decide_eq_true rfl)

/-- Going OFF keeps the retry count. -/
theorem chOff_retry : (d.chOff i src).get (F.LOAD_CH_STATUS_RETRY i) = d.get (F.LOAD_CH_STATUS_RETRY i) := by
  unfold Dev.chOff
  rw [get_set_ne _ (F.LOAD_CH_STATUS_LIMITING i) (F.LOAD_CH_STATUS_RETRY i) _ (.inr (.inr (of_decide_eq_true rfl)))
      (of_decide_eq_true rfl) (of_decide_eq_true rfl),
    get_set_ne _ (F.LOAD_CH_STATUS_SRC i) (F.LOAD_CH_STATUS_RETRY i) _ (.inr (.inr (of_decide_eq_true rfl))) (of_decide_eq_true rfl)
      (of_decide_eq_true rfl),
    get_set_ne _ (F.LOAD_CH_STATUS_DUTY i) (F.LOAD_CH_STATUS_RETRY i) _ (.inr (.inl (of_decide_eq_true rfl))) (of_decide_eq_true rfl)
      (of_decide_eq_true rfl), setCh_retry]

/-- With power a channel that is on, or that nothing defers, moves to the output it is given (R384, R389). -/
theorem chApply_eq_chMove (retry : Bool) (hr : run ≠ .off) (hp : d.outPower = true)
    (hn : (d.ch i).isOn = true ∨ d.deferring i = false) : ∃ e : Dev, d.chApply i run duty src retry = e.chMove i run duty src := by
  unfold Dev.chApply
  rw [if_neg (by simp [hr, hp])]
  by_cases ho : (d.ch i).isOn = true
  · exact ⟨d, if_pos ho⟩
  · rw [if_neg ho, if_neg (by simp [hn.resolve_left ho])]
    exact ⟨_, rfl⟩

end

/-! ### An accepted command -/

theorem cmdRun_eq_off {c : Nat} : cmdRun c = .off ↔ c = 0 := by
  unfold cmdRun
  by_cases h0 : c = 0
  · simp [h0]
  · by_cases h1 : c = 1 <;> simp [h0, h1]

theorem cmdRun_eq_pwm {c : Nat} (h : c ≤ 2) : cmdRun c = .pwm ↔ c = 2 := by
  rcases (by omega : c = 0 ∨ c = 1 ∨ c = 2) with rfl | rfl | rfl <;> decide

/-- The channel records what the command asks of it, and an OFF clears the retry count (R384, R393); the output is still as it was. -/
def Dev.cmdNoted (d : Dev) (i cmd duty : Nat) : Dev :=
  if cmd = 0 then (d.setCh i { d.ch i with want := (cmdRun cmd, if cmd = 2 then duty else 0) }).set (F.LOAD_CH_STATUS_RETRY i) 0
  else d.setCh i { d.ch i with want := (cmdRun cmd, if cmd = 2 then duty else 0) }

theorem cmdApply_eq (d : Dev) (i src cmd duty : Nat) :
    d.cmdApply i src cmd duty = (d.cmdNoted i cmd duty).chApply i (cmdRun cmd) duty src false := by
  unfold Dev.cmdApply Dev.cmdNoted
  simp only [beq_iff_eq]

section
variable (d : Dev) (i cmd duty : Nat)

theorem cmdNoted_ch_same :
    (d.cmdNoted i cmd duty).ch i = { d.ch i with want := (cmdRun cmd, if cmd = 2 then duty else 0) } := by
  unfold Dev.cmdNoted; split <;> simp only [set_ch, ch_setCh_same]

theorem cmdNoted_ch_ne {j : Nat} (h : j ≠ i) : (d.cmdNoted i cmd duty).ch j = d.ch j := by
  unfold Dev.cmdNoted; split <;> simp only [set_ch] <;> exact ch_setCh_ne _ _ _ _ h

@[simp] theorem cmdNoted_time : (d.cmdNoted i cmd duty).time = d.time := by unfold Dev.cmdNoted; split <;> simp
@[simp] theorem cmdNoted_flt : (d.cmdNoted i cmd duty).flt = d.flt := by unfold Dev.cmdNoted; split <;> simp
@[simp] theorem cmdNoted_load_flight : (d.cmdNoted i cmd duty).load.flight = d.load.flight := by
  unfold Dev.cmdNoted; split <;> simp
@[simp] theorem cmdNoted_load_gndLost : (d.cmdNoted i cmd duty).load.gndLost = d.load.gndLost := by
  unfold Dev.cmdNoted; split <;> simp

theorem only_cmdNoted {e : Dev} {l : List Nat} (hc : ∀ a ∈ chanRegs i, a ∈ l) (h : d.regsOnly e l) :
    d.regsOnly (e.cmdNoted i cmd duty) l := by
  unfold Dev.cmdNoted
  split
  · exact only_set _ _ (hc _ (by simp [chanRegs, F.LOAD_CH_STATUS_RETRY])) (of_decide_eq_true rfl) (only_setCh _ _ hc h)
  · exact only_setCh _ _ hc h

end

/-- No register that a command can change decides whether the outputs have power or turn-ons are deferred. -/
theorem turnOnRegs_not_mem (i : Fin 24) : R.SUPV_PD_STATUS ∉ chanRegs i ++ loadEventRegs
    ∧ R.LOADC_SUPPLY_STATUS ∉ chanRegs i ++ loadEventRegs ∧ R.LOAD_CH_CFG i ∉ chanRegs i ++ loadEventRegs
    ∧ R.SUPV_SUPPLY_STATUS ∉ chanRegs i ++ loadEventRegs := by
  revert i
  decide

section
variable {d e : Dev} {i : Nat} (hi : i < 24) (h : d.regsOnly e (chanRegs i ++ loadEventRegs))
include hi h

theorem outPower_of_chan (hg : e.load.gndLost = d.load.gndLost) : e.outPower = d.outPower :=
  outPower_of _ h (turnOnRegs_not_mem ⟨i, hi⟩).1 hg

theorem deferring_of_chan : e.deferring i = d.deferring i := by
  obtain ⟨-, hload, hcfg, hsupv⟩ := turnOnRegs_not_mem ⟨i, hi⟩
  exact deferring_of i _ h hload hcfg hsupv

end

theorem only_cmdNoted_chan (d : Dev) (i cmd duty : Nat) : d.regsOnly (d.cmdNoted i cmd duty) (chanRegs i ++ loadEventRegs) :=
  only_cmdNoted _ _ _ _ (fun _ => List.mem_append_left _) (only_refl _ _)

section
variable (d : Dev) (i src cmd duty : Nat)

@[simp] theorem cmdApply_time : (d.cmdApply i src cmd duty).time = d.time := by rw [cmdApply_eq]; simp
@[simp] theorem cmdApply_flt : (d.cmdApply i src cmd duty).flt = d.flt := by rw [cmdApply_eq]; simp
@[simp] theorem cmdApply_load_flight : (d.cmdApply i src cmd duty).load.flight = d.load.flight := by rw [cmdApply_eq]; simp
@[simp] theorem cmdApply_load_gndLost : (d.cmdApply i src cmd duty).load.gndLost = d.load.gndLost := by rw [cmdApply_eq]; simp

theorem only_cmdApply : d.regsOnly (d.cmdApply i src cmd duty) (chanRegs i ++ loadEventRegs) := by
  rw [cmdApply_eq]
  exact only_chApply _ _ _ _ _ (fun _ => List.mem_append_right _) (fun _ => List.mem_append_left _) (only_cmdNoted_chan d i cmd duty)

theorem cmdApply_ch_ne {j : Nat} (h : j ≠ i) : (d.cmdApply i src cmd duty).ch j = d.ch j := by
  rw [cmdApply_eq, chApply_ch_ne _ _ _ _ _ _ _ h, cmdNoted_ch_ne d i cmd duty h]

theorem cmdApply_want : ((d.cmdApply i src cmd duty).ch i).want = (cmdRun cmd, if cmd = 2 then duty else 0) := by
  rw [cmdApply_eq, (chApply_ch_same _ _ _ _ _ _).1, cmdNoted_ch_same]

/-- An OFF leaves its channel OFF with its output off. -/
theorem cmdApply_off : ((d.cmdApply i src 0 duty).ch i).run = .off ∧ ((d.cmdApply i src 0 duty).ch i).out = false := by
  rw [cmdApply_eq]
  exact chApply_off _ _ _ _ _ _ (.inl rfl)

/-- An OFF clears the retry count (R393). -/
theorem cmdApply_off_retry : (d.cmdApply i src 0 duty).get (F.LOAD_CH_STATUS_RETRY i) = 0 := by
  rw [cmdApply_eq]
  show ((d.cmdNoted i 0 duty).chOff i src).get _ = 0
  rw [chOff_retry]
  exact get_set_same _ (F.LOAD_CH_STATUS_RETRY i) 0 (of_decide_eq_true rfl)

/-- With power an ON or PWM moves a channel that is on, or that nothing defers, to its output. -/
theorem cmdApply_eq_chMove (hi : i < 24) (hc : cmd ≠ 0) (hp : d.outPower = true)
    (hn : (d.ch i).isOn = true ∨ d.deferring i = false) :
    ∃ e : Dev, d.cmdApply i src cmd duty = e.chMove i (cmdRun cmd) duty src := by
  have hon := only_cmdNoted_chan d i cmd duty
  rw [cmdApply_eq]
  refine chApply_eq_chMove _ i _ _ _ _ (mt cmdRun_eq_off.mp hc) ?_ ?_
  · rw [outPower_of_chan hi hon (by simp), hp]
  · rw [cmdNoted_ch_same, deferring_of_chan hi hon]
    exact hn

theorem cmdApply_on (hi : i < 24) (hc : cmd ≠ 0) (hp : d.outPower = true) (hn : (d.ch i).isOn = true ∨ d.deferring i = false) :
    ((d.cmdApply i src cmd duty).ch i).run = cmdRun cmd
      ∧ (d.cmdApply i src cmd duty).get (F.LOAD_CH_STATUS_DUTY i) = (if cmdRun cmd == .pwm then duty else 10000) % 2 ^ 14
      ∧ (d.cmdApply i src cmd duty).get (F.LOAD_CH_STATUS_SRC i) = src % 8 := by
  obtain ⟨e, he⟩ := cmdApply_eq_chMove d i src cmd duty hi hc hp hn
  rw [he]
  exact ⟨(chMove_ch_same e i _ duty src).2.2.1, chMove_duty e i _ duty src, chMove_src e i _ duty src⟩

end

/-- What a command that stands, of code `c` and duty `u`, leaves of channel `i` from `d` to `e` (R384). -/
def Dev.commanded (d e : Dev) (i c u : Nat) : Prop :=
  (e.ch i).want = (cmdRun c, if c = 2 then u else 0)
    ∧ (c = 0 → (e.ch i).run = .off ∧ (e.ch i).out = false)
    ∧ (c ≠ 0 → i < 24 → d.outPower = true → d.deferring i = false → (e.ch i).run = cmdRun c)
    ∧ ∀ j, j ≠ i → e.ch j = d.ch j

theorem cmdApply_commanded (d : Dev) (i src c u : Nat) : d.commanded (d.cmdApply i src c u) i c u := by
  refine ⟨cmdApply_want d i src c u, ?_, fun hc hi hp hn => ?_, fun j => cmdApply_ch_ne d i src c u⟩
  · rintro rfl
    exact cmdApply_off d i src u
  · exact (cmdApply_on d i src c u hi hc hp (.inr hn)).1

/-- Keeping the instant of a register command changes nothing of what the command left. -/
theorem commanded_setCh_regAt {d e : Dev} {i c u : Nat} (x : Option (Nat × Nat × Nat)) (h : d.commanded e i c u) :
    d.commanded (e.setCh i { e.ch i with regAt := x }) i c u := by
  obtain ⟨hw, ho, hr, hj⟩ := h
  refine ⟨?_, ?_, ?_, fun j hne => (ch_setCh_ne _ _ _ _ hne).trans (hj j hne)⟩ <;> rw [ch_setCh_same]
  · exact hw
  · exact ho
  · exact hr

/-- A command that comes behind another stands as if the other had not come. -/
theorem commanded_cmdApply {d e : Dev} {i c u : Nat} (src cmd duty : Nat) (h : (d.cmdApply i src cmd duty).commanded e i c u) :
    d.commanded e i c u := by
  obtain ⟨hw, ho, hr, hj⟩ := h
  have honly := only_cmdApply d i src cmd duty
  refine ⟨hw, ho, fun hc hi hp hn => hr hc hi ?_ ?_, fun j hne => (hj j hne).trans (cmdApply_ch_ne d i src cmd duty hne)⟩
  · rw [outPower_of_chan hi honly (by simp), hp]
  · rw [deferring_of_chan hi honly, hn]

/-! ### The test of R385, and which command stands (R386) -/

section
variable {d : Dev} {i src cmd duty : Nat}

/-- A refused command is counted, shown in `CH_FAULT` and reported on ring 63. -/
theorem loadCmd_refused (h : d.cmdRefused i src cmd duty = true) : ∃ x : List Byte,
    d.loadCmd i src cmd duty = ((d.inc F.LOADC_CMD_REFUSED_COUNT).set (F.LOAD_CH_FAULT_CMD_REFUSED i) 1).ev63 x := by
  unfold Dev.loadCmd
  rw [if_pos h]
  exact ⟨_, rfl⟩

theorem loadCmd_refused_ch (h : d.cmdRefused i src cmd duty = true) (j : Nat) : (d.loadCmd i src cmd duty).ch j = d.ch j := by
  obtain ⟨x, hx⟩ := loadCmd_refused h
  rw [hx]
  simp

/-- `CH_FAULT` lies away from every register that a ring-63 event touches. -/
theorem loadCmd_refused_flag (h : d.cmdRefused i src cmd duty = true) :
    (d.loadCmd i src cmd duty).get (F.LOAD_CH_FAULT_CMD_REFUSED i) = 1 := by
  obtain ⟨x, hx⟩ := loadCmd_refused h
  have hflag : (F.LOAD_CH_FAULT_CMD_REFUSED i).addr = 0x1010030 + 128 * i := rfl
  have hring : R.HIF_DEV_INDEX 63 < 0x1000000 := by decide
  have hlost : R.LOADC_EV_LOST = 0x1011088 := rfl
  have hstatus : R.FLT_FAULT_STATUS blkLoad = 0x1011F00 := rfl
  have hretries : R.PWR_D2D_RETRIES = 0x1000004 := rfl
  rw [hx]
  refine (get_ev63 _ x _ ?_ ?_ ?_ ?_).trans (get_set_same _ (F.LOAD_CH_FAULT_CMD_REFUSED i) 1 (of_decide_eq_true rfl)) <;> omega

variable (h : d.cmdRefused i src cmd duty = false)
include h

/-- An accepted command is OFF, ON or PWM, a PWM with a duty in range. -/
theorem cmd_inRange_of_accepted : cmd ≤ 2 ∧ (cmd = 2 → duty ≤ 10000) := by
  unfold Dev.cmdRefused at h
  simp only [Bool.or_eq_false_iff, Bool.and_eq_false_iff, decide_eq_false_iff_not, beq_eq_false_iff_ne, ne_eq] at h
  omega

/-- The command of a register stands, and its instant is kept. -/
theorem loadCmd_reg (hs : src = 0) : d.loadCmd i src cmd duty
    = (d.cmdApply i src cmd duty).setCh i { (d.cmdApply i src cmd duty).ch i with regAt := some (d.now, cmd, duty) } := by
  unfold Dev.loadCmd
  rw [if_neg (Bool.eq_false_iff.mp h), if_pos (by simp [hs])]

/-- A command of the network stands where no register command came in the same clock tick. -/
theorem loadCmd_net (hs : src ≠ 0) (hr : ∀ c u, (d.ch i).regAt ≠ some (d.now, c, u)) :
    d.loadCmd i src cmd duty = d.cmdApply i src cmd duty := by
  unfold Dev.loadCmd
  rw [if_neg (Bool.eq_false_iff.mp h), if_neg (by simp [hs])]
  split
  · next t c u hx => rw [if_neg (by rw [beq_iff_eq]; rintro rfl; exact hr c u hx)]
  · rfl

/-- Behind a register command of the same clock tick it does not (log 87). -/
theorem loadCmd_net_yields (hs : src ≠ 0) {c u : Nat} (hr : (d.ch i).regAt = some (d.now, c, u)) :
    d.loadCmd i src cmd duty = (d.cmdApply i src cmd duty).cmdApply i 0 c u := by
  unfold Dev.loadCmd
  rw [if_neg (Bool.eq_false_iff.mp h), if_neg (by simp [hs])]
  simp [hr]

/-- Whichever command stands, the channel is as that command leaves it. -/
theorem loadCmd_commanded {c u : Nat}
    (hs : (c = cmd ∧ u = duty ∧ (src = 0 ∨ ∀ c' u', (d.ch i).regAt ≠ some (d.now, c', u')))
      ∨ (src ≠ 0 ∧ (d.ch i).regAt = some (d.now, c, u))) : d.commanded (d.loadCmd i src cmd duty) i c u := by
  by_cases hz : src = 0
  · obtain ⟨rfl, rfl, -⟩ := hs.resolve_right (fun hx => hx.1 hz)
    rw [loadCmd_reg h hz]
    exact commanded_setCh_regAt _ (cmdApply_commanded d i src c u)
  · rcases hs with ⟨rfl, rfl, hr⟩ | ⟨-, hr⟩
    · rw [loadCmd_net h hz (hr.resolve_left hz)]
      exact cmdApply_commanded d i src c u
    · rw [loadCmd_net_yields h hz hr]
      exact commanded_cmdApply src cmd duty (cmdApply_commanded _ i 0 c u)

end

/-! ### The die link (R26) -/

@[simp] theorem flits_ch (d : Dev) (n j : Nat) : (d.flits n).ch j = d.ch j := ch_of_load (by simp) j

section
variable {d : Dev} (n : Nat)

theorem flits_off (h : d.flag (F.FLT_PERT_D2D_EN blkPwr) = false) : d.flits n = d := by
  unfold Dev.flits
  rw [if_neg (Bool.eq_false_iff.mp h)]

variable (h : d.flag (F.FLT_PERT_D2D_EN blkPwr) = true)
include h

theorem flits_on : d.flits n
    = ({ d with load := { d.load with flits := (d.load.flits + n) % atLeastOne (d.get (F.FLT_PERT_D2D_EVERY blkPwr)) } } : Dev).add
      F.PWR_D2D_RETRIES_COUNT
      (d.get (F.FLT_PERT_D2D_EXTRA blkPwr) * ((d.load.flits + n) / atLeastOne (d.get (F.FLT_PERT_D2D_EVERY blkPwr)))) := by
  unfold Dev.flits
  rw [if_pos h]

theorem flits_on_flits :
    (d.flits n).load.flits = (d.load.flits + n) % atLeastOne (d.get (F.FLT_PERT_D2D_EVERY blkPwr)) := by
  rw [flits_on n h, add_load]

theorem flits_on_retries : (d.flits n).get F.PWR_D2D_RETRIES_COUNT = satAdd 32 (d.get F.PWR_D2D_RETRIES_COUNT)
    (d.get (F.FLT_PERT_D2D_EXTRA blkPwr) * ((d.load.flits + n) / atLeastOne (d.get (F.FLT_PERT_D2D_EVERY blkPwr)))) := by
  rw [flits_on n h]
  unfold Dev.add
  rw [get_set_same _ _ _ (by decide)]
  exact Nat.mod_eq_of_lt (satAdd_lt 32 _ _)

end

/-! ### Commands of the network -/

/-- The device once its oldest command in flight has crossed the link. -/
def Dev.crossed (d : Dev) (l : List (Nat × Nat × Nat × Nat)) : Dev := ({ d with load := { d.load with flight := l } } : Dev).flits 1

section
variable (d : Dev) (l : List (Nat × Nat × Nat × Nat))

@[simp] theorem crossed_ch (j : Nat) : (d.crossed l).ch j = d.ch j := flits_ch _ _ _
@[simp] theorem crossed_time : (d.crossed l).time = d.time := flits_time _ _
@[simp] theorem crossed_flt : (d.crossed l).flt = d.flt := flits_flt _ _
@[simp] theorem crossed_load_flight : (d.crossed l).load.flight = l := flits_load_flight _ _
@[simp] theorem crossed_load_gndLost : (d.crossed l).load.gndLost = d.load.gndLost := flits_load_gndLost _ _

theorem only_crossed : d.regsOnly (d.crossed l) [R.PWR_D2D_RETRIES] := only_flits _ (by simp) (only_of (only_refl _ _) rfl)

theorem crossed_outPower : (d.crossed l).outPower = d.outPower :=
  outPower_of _ (only_crossed d l) (by decide) (crossed_load_gndLost d l)

/-- No channel's configuration is the link's retry count. -/
theorem chCfg_not_mem_retries (i : Nat) : R.LOAD_CH_CFG i ∉ [R.PWR_D2D_RETRIES] := by
  rw [List.mem_singleton]
  simp only [R.LOAD_CH_CFG, R.PWR_D2D_RETRIES]
  omega

theorem crossed_deferring (i : Nat) : (d.crossed l).deferring i = d.deferring i :=
  deferring_of i _ (only_crossed d l) (by decide) (chCfg_not_mem_retries i) (by decide)

/-- Crossing the link changes nothing that the tests of R385 read. -/
theorem crossed_cmdRefused (i src cmd duty : Nat) : (d.crossed l).cmdRefused i src cmd duty = d.cmdRefused i src cmd duty := by
  have h := only_crossed d l
  unfold Dev.cmdRefused Dev.limpCtl Dev.isolated Dev.flag
  rw [crossed_ch, get_only h (F.LOAD_CH_CFG_CTRL_SRC i) (chCfg_not_mem_retries i) (.inl (of_decide_eq_true rfl)),
    get_only h F.LOADC_LIMP_STATUS_LH_EN (by decide) (.inl (by decide)),
    get_only h F.LOADC_LIMP_MAP_MAP (by decide) (.inl (by decide)),
    get_only h (F.FLT_FAULT_STATUS_ISOLATED blkLoad) (by decide) (.inl (by decide))]

variable {d l}

theorem loadCmdNet_nil (h : d.load.flight = []) : d.loadCmdNet = d := by unfold Dev.loadCmdNet; rw [h]

variable {i cmd duty o : Nat} (h : d.load.flight = (i, cmd, duty, o) :: l)
include h

theorem loadCmdNet_up (hu : d.flag F.PWR_D2D_STATUS_LINK_UP = true) : d.loadCmdNet = (d.crossed l).loadCmd i 1 cmd duty := by
  unfold Dev.loadCmdNet
  rw [h]
  exact if_pos hu

theorem loadCmdNet_down (hu : d.flag F.PWR_D2D_STATUS_LINK_UP = false) : d.loadCmdNet = d := by
  unfold Dev.loadCmdNet
  rw [h]
  exact if_neg (Bool.eq_false_iff.mp hu)

end

theorem linkWait_room {d : Dev} (h : d.load.flight.length < 32) : d.linkWait = d := by unfold Dev.linkWait; rw [if_pos h]

/-- With 32 commands in flight the oldest completes first (log 82). -/
theorem linkWait_full {d : Dev} (h : d.load.flight.length = 32) : d.linkWait = d.loadCmdNet := by
  unfold Dev.linkWait
  rw [if_neg (by omega), h]
  rfl

/-! ### No reaction comes of a command -/

@[simp] theorem loadCmd_flt (d : Dev) (i src cmd duty : Nat) : (d.loadCmd i src cmd duty).flt = d.flt := by
  unfold Dev.loadCmd
  dsimp only
  repeat' split
  all_goals simp

@[simp] theorem loadCmdNet_flt (d : Dev) : d.loadCmdNet.flt = d.flt := by
  rcases hf : d.load.flight with _ | ⟨⟨i, cmd, duty, o⟩, l⟩
  · rw [loadCmdNet_nil hf]
  · cases hu : d.flag F.PWR_D2D_STATUS_LINK_UP
    · rw [loadCmdNet_down hf hu]
    · rw [loadCmdNet_up hf hu, loadCmd_flt, crossed_flt]

@[simp] theorem linkWait_flt (d : Dev) : d.linkWait.flt = d.flt := by
  unfold Dev.linkWait
  split
  · rfl
  · exact fold_keep (fun d _ => d.loadCmdNet) Dev.flt (fun d _ => loadCmdNet_flt d) _ d

theorem beforeWrite_flt (d : Dev) (m a : Nat) : (d.beforeWrite m a).flt = d.flt := by
  have hv : (d.viaInd m a).flt = d.flt := by unfold Dev.viaInd; split <;> rfl
  unfold Dev.beforeWrite Dev.beforeAccess Dev.linkUse
  rw [numberWrite_flt]
  split
  · rw [flits_flt, linkWait_flt, hv]
  · exact hv

/-! ### Commands of a register -/

/-- `CH_CMD` is a register of a load channel's page, no word of a wider value and none of indirect access. -/
theorem chCmd_row (i : Fin 24) : (∃ r, regDef (R.LOAD_CH_CMD i) = some r ∧ r.loWord = false) ∧ groupLo (R.LOAD_CH_CMD i) = none
    ∧ faultBlockOf (R.LOAD_CH_CMD i) = none ∧ pageBlock (R.LOAD_CH_CMD i) = 62 := by
  have h : ∀ i : Fin 24, (regDef (R.LOAD_CH_CMD i)).map (fun r => r.loWord) = some false ∧ groupLo (R.LOAD_CH_CMD i) = none
      ∧ faultBlockOf (R.LOAD_CH_CMD i) = none ∧ pageBlock (R.LOAD_CH_CMD i) = 62 := by decide +kernel
  obtain ⟨hr, hrest⟩ := h i
  exact ⟨Option.map_eq_some_iff.mp hr, hrest⟩

/-- A word written to `CH_CMD` is a command of the register source. -/
theorem putLoad_chCmd (d : Dev) (r : RegDef) (m w : Nat) (i : Fin 24) (hw : w < 2 ^ 32) :
    d.putLoad r m (R.LOAD_CH_CMD i) w = d.loadCmd i 0 (w % 4) (w / 2 ^ 16 % 2 ^ 14) := by
  have hoff : (R.LOAD_CH_CMD i - 0x1010000) % 0x80 = 0x20 := by simp only [R.LOAD_CH_CMD]; omega
  have hch : (R.LOAD_CH_CMD i - 0x1010000) / 0x80 = i.val := by simp only [R.LOAD_CH_CMD]; omega
  have hok : otherKind (R.LOAD_CH_CMD i) = 0 := by unfold otherKind; rw [hoff]; rfl
  have hword : w &&& 0xFFFFFFFF = w := (Nat.and_two_pow_sub_one_eq_mod w 32).trans (Nat.mod_eq_of_lt hw)
  unfold Dev.putLoad
  simp only [hoff, hch, hok, Nat.xor_zero, Nat.and_zero, Nat.or_zero, hword]
  simp [bf]

theorem exec_loadCmdReg {s : State} {m : Fin 4} {i : Fin 24} (v : Word) (hq : s.dev.quiet) (ho : s.dev.opens m (R.LOAD_CH_CMD i)) :
    exec (.loadCmdReg m i v) s
      = .next { s with dev := (s.dev.beforeWrite m (R.LOAD_CH_CMD i)).loadCmd i 0 (v.toNat % 4) (v.toNat / 2 ^ 16 % 2 ^ 14) } := by
  obtain ⟨⟨r, hr, hlo⟩, hg, hfb, hpb⟩ := chCmd_row i
  have hlt := v.isLt
  have hwr : s.dev.write m (R.LOAD_CH_CMD i) v.toNat
      = (s.dev.beforeWrite m (R.LOAD_CH_CMD i)).loadCmd i 0 (v.toNat % 4) (v.toNat / 2 ^ 16 % 2 ^ 14) := by
    rw [write_opens s.dev m _ _ r ho hr hlo hg
        (by simp only [R.LOAD_CH_CMD, R.GLOBAL_IND_ADDR]; omega) (by simp only [R.LOAD_CH_CMD, R.GLOBAL_IND_DATA]; omega),
      Nat.mod_eq_of_lt hlt, regPut_load _ _ _ _ _ hfb hpb (by simp only [R.LOAD_CH_CMD]; omega), putLoad_chCmd _ _ _ _ _ hlt]
  show s.done (s.dev.write m (R.LOAD_CH_CMD i) v.toNat) = _
  rw [hwr]
  exact done_nil s _ (by rw [loadCmd_flt, beforeWrite_flt]; exact hq)

theorem exec_loadCmdNet {s : State} (hq : s.dev.quiet) : exec .loadCmdNet s = .next { s with dev := s.dev.loadCmdNet } :=
  done_nil s _ (by rw [loadCmdNet_flt]; exact hq)

/-- The duty that an accepted command shows: its own for PWM, 100% for ON. -/
theorem shownDuty {cmd duty : Nat} (h : cmd ≤ 2 ∧ (cmd = 2 → duty ≤ 10000)) :
    (if cmdRun cmd == .pwm then duty else 10000) % 2 ^ 14 = if cmd = 2 then duty else 10000 := by
  obtain ⟨hc, hd⟩ := h
  by_cases h2 : cmd = 2
  · subst h2
    have := hd rfl
    exact Nat.mod_eq_of_lt (by omega : duty < 2 ^ 14)
  · have hne : (cmdRun cmd == .pwm) = false := beq_eq_false_iff_ne.mpr (mt (cmdRun_eq_pwm hc).mp h2)
    simp [hne, h2]

/-- What an accepted register command leaves (R384, R386). -/
theorem loadCmd_reg_leaves {b : Dev} {i : Fin 24} {cmd duty : Nat} (h : b.cmdRefused i 0 cmd duty = false) :
    (cmd = 0 → ((b.loadCmd i 0 cmd duty).ch i).run = .off ∧ ((b.loadCmd i 0 cmd duty).ch i).out = false
        ∧ (b.loadCmd i 0 cmd duty).get (F.LOAD_CH_STATUS_RETRY i) = 0)
      ∧ (cmd ≠ 0 → b.outPower = true → (b.ch i).isOn = true ∨ b.deferring i = false →
        ((b.loadCmd i 0 cmd duty).ch i).run = cmdRun cmd
          ∧ (b.loadCmd i 0 cmd duty).get (F.LOAD_CH_STATUS_DUTY i) = (if cmd = 2 then duty else 10000)
          ∧ (b.loadCmd i 0 cmd duty).get (F.LOAD_CH_STATUS_SRC i) = 0)
      ∧ ((b.loadCmd i 0 cmd duty).ch i).regAt = some (b.now, cmd, duty) ∧ (b.loadCmd i 0 cmd duty).now = b.now
      ∧ ∀ j, j ≠ i.val → (b.loadCmd i 0 cmd duty).ch j = b.ch j := by
  rw [loadCmd_reg h rfl, ch_setCh_same, setCh_retry, setCh_duty, setCh_src]
  refine ⟨?_, fun hc hp hn => ?_, rfl, ?_, fun j hj => (ch_setCh_ne _ _ _ _ hj).trans (cmdApply_ch_ne b i 0 cmd duty hj)⟩
  · rintro rfl
    obtain ⟨hrun, hout⟩ := cmdApply_off b i 0 duty
    exact ⟨hrun, hout, cmdApply_off_retry b i 0 duty⟩
  · obtain ⟨hrun, hduty, hsrc⟩ := cmdApply_on b i 0 cmd duty i.isLt hc hp hn
    exact ⟨hrun, hduty.trans (shownDuty (cmd_inRange_of_accepted h)), hsrc⟩
  · simp [Dev.now]

/-- What an accepted network command leaves where no register command stands over it. -/
theorem loadCmdNet_leaves {d : Dev} {i : Fin 24} {cmd duty o : Nat} {l : List (Nat × Nat × Nat × Nat)}
    (hf : d.load.flight = (i.val, cmd, duty, o) :: l) (hu : d.flag F.PWR_D2D_STATUS_LINK_UP = true)
    (h : d.cmdRefused i 1 cmd duty = false) (hr : ∀ c u, (d.ch i).regAt ≠ some (d.now, c, u)) :
    d.loadCmdNet.load.flight = l ∧ d.loadCmdNet.now = d.now
      ∧ (cmd = 0 → (d.loadCmdNet.ch i).run = .off ∧ (d.loadCmdNet.ch i).out = false)
      ∧ (cmd ≠ 0 → d.outPower = true → (d.ch i).isOn = true ∨ d.deferring i = false → (d.loadCmdNet.ch i).run = cmdRun cmd
        ∧ d.loadCmdNet.get (F.LOAD_CH_STATUS_SRC i) = 1)
      ∧ ∀ j, j ≠ i.val → d.loadCmdNet.ch j = d.ch j := by
  have hnow : (d.crossed l).now = d.now := congrArg TimeSt.now (crossed_time d l)
  have he : d.loadCmdNet = (d.crossed l).cmdApply i 1 cmd duty := by
    rw [loadCmdNet_up hf hu]
    refine loadCmd_net ((crossed_cmdRefused d l i 1 cmd duty).trans h) (by decide) fun c u => ?_
    rw [crossed_ch, hnow]
    exact hr c u
  rw [he]
  refine ⟨by simp, by simp [Dev.now], ?_, fun hc hp hn => ?_, fun j hj => by rw [cmdApply_ch_ne _ _ _ _ _ hj, crossed_ch]⟩
  · rintro rfl
    exact cmdApply_off _ i 1 duty
  · rw [← crossed_outPower d l] at hp
    rw [← crossed_ch d l, ← crossed_deferring d l] at hn
    obtain ⟨hrun, -, hsrc⟩ := cmdApply_on _ i 1 cmd duty i.isLt hc hp hn
    exact ⟨hrun, hsrc⟩

/-- Settles O36, from the effect of one command (`loadCmd_commanded`) and the ways one comes to its channel. -/
theorem loadCommandRule : Obligations.LoadCommandRule := by
  refine ⟨?rule, ?reg, ?net, ?link, ?idle, ?flits, ?wait⟩
  case rule =>
    exact fun d i src cmd duty => ⟨fun h => ⟨loadCmd_refused_ch h, loadCmd_refused_flag h⟩, fun h c u hs => loadCmd_commanded h hs⟩
  case reg =>
    rintro s m i v b cmd duty hq ho rfl rfl rfl
    have he := exec_loadCmdReg v hq ho
    exact ⟨he, fun h => ⟨_, he, loadCmd_reg_leaves h⟩⟩
  case net =>
    exact fun s i cmd duty o l hq hf hu h hr => ⟨_, exec_loadCmdNet hq, loadCmdNet_leaves hf hu h hr⟩
  case link =>
    refine fun s i cmd duty o l hq hf => ⟨fun hu => ?_, fun hu => ?_⟩ <;> rw [exec_loadCmdNet hq]
    · rw [loadCmdNet_up hf hu]; rfl
    · rw [loadCmdNet_down hf hu]
  case idle =>
    intro s hq hf
    rw [exec_loadCmdNet hq, loadCmdNet_nil hf]
  case flits =>
    refine fun d n => ⟨flits_off n, ?_⟩
    rintro h k rfl
    exact ⟨flits_on_flits n h, flits_on_retries n h, only_flits n (by simp) (only_refl _ _), flits_ch d n⟩
  case wait =>
    exact fun d => ⟨linkWait_room, fun x l hf hl => linkWait_full (by rw [hf, List.length_cons, hl])⟩

end Sys2Proof.Machine
end

section
/-!
PROOF. What becomes of a frame at an Ethernet or T1S port, and which header is taken before the frame's end (R73, R76, R77, R118, R119,
R237 to R239): one rule per way a reception can go, then the statement assembled from them.
-/
namespace Sys2Proof.Machine

/-! ### Counters and flags -/

section
variable (d : Dev) (f : Nat → FieldRef) (p n : Nat)

@[simp] theorem cntAdd_fwd : (d.cntAdd f p n).fwd = d.fwd := by unfold Dev.cntAdd; split <;> simp
@[simp] theorem cntAdd_tbl : (d.cntAdd f p n).tbl = d.tbl := by unfold Dev.cntAdd; split <;> simp
@[simp] theorem cntAdd_flt : (d.cntAdd f p n).flt = d.flt := by unfold Dev.cntAdd; split <;> simp
@[simp] theorem cnt_fwd : (d.cnt f p).fwd = d.fwd := cntAdd_fwd d f p 1
@[simp] theorem cnt_tbl : (d.cnt f p).tbl = d.tbl := cntAdd_tbl d f p 1
@[simp] theorem cnt_flt : (d.cnt f p).flt = d.flt := cntAdd_flt d f p 1

/-- A counter of 64 bits counts modulo 2⁶⁴ (R126). -/
theorem get_cnt_same (hp : p < 48) (hw : (f p).w = 64) (hl : (f p).lo = 0) :
    (d.cnt f p).get (f p) = (d.get (f p) + 1) % 2 ^ 64 := by
  unfold Dev.cnt Dev.cntAdd
  rw [if_pos hp, get_set_same _ _ _ (by omega), hw, Nat.mod_mod]

end

/-- A one-bit field reads as it was set. -/
theorem flag_set_same (d : Dev) (f : FieldRef) (b : Bool) (hw : f.w = 1) (hl : f.lo + 1 ≤ 64) : (d.set f (b2n b)).flag f = b := by
  unfold Dev.flag
  rw [get_set_same _ _ _ (by omega), hw]
  cases b <;> rfl

/-- An error count goes up by one and stays at its maximum. -/
theorem get_inc_same (d : Dev) (f : FieldRef) (h : f.lo + f.w ≤ 64) : (d.inc f).get f = satAdd f.w (d.get f) 1 := by
  unfold Dev.inc Dev.add
  rw [get_set_same _ _ _ h, Nat.mod_eq_of_lt (satAdd_lt _ _ _)]

/-- A command without reactions of its own answers the device that it leaves. -/
theorem next_settle_of_flt {s : State} (hq : s.dev.quiet) {d e : Dev} (h : d = e) (hf : e.flt = s.dev.flt) :
    (Host.Outcome.next { s with dev := d.settle } : Host.Outcome State Fault Refusal) = .next { s with dev := e } := by
  rw [h, settle_nil e (by rw [hf]; exact hq)]

/-! ### Ports that hear, and what is seen of PLCA -/

/-- The port is available, its link is ready and its segment receives. -/
def Dev.hearing (d : Dev) (p : Nat) : Prop := d.portAvail p = true ∧ d.linkReady p = true ∧ d.segHears p = true

/-- The count of good reassemblies decides nothing about its port. -/
theorem hearing_inc_assyOk {d : Dev} {p : Nat} (hp : p < 12) (h : d.hearing p) : (d.inc (F.ETH_ASSY_OK_COUNT p)).hearing p := by
  have hget : ∀ f : FieldRef, f.addr ≠ R.ETH_ASSY_OK p → f.lo + f.w ≤ 32 → (d.inc (F.ETH_ASSY_OK_COUNT p)).get f = d.get f :=
    fun f ha hw => get_only (only_inc _ (List.mem_singleton.mpr rfl) (by simp [F.ETH_ASSY_OK_COUNT]) (only_refl d [R.ETH_ASSY_OK p])) f
      (mt List.mem_singleton.mp ha) (.inl hw)
  have hready : ∀ n, (d.inc (F.ETH_ASSY_OK_COUNT p)).ready n = d.ready n := fun n => by
    unfold Dev.ready
    rw [hget _ (by simp only [F.SUPV_PD_STATUS_READY, R.SUPV_PD_STATUS, R.ETH_ASSY_OK]; omega) (by decide)]
  have heth : ∀ f : FieldRef, f.addr = R.ETH_MAC_CFG p ∨ f.addr = R.ETH_STATUS p → f.lo + f.w ≤ 32 →
      (d.inc (F.ETH_ASSY_OK_COUNT p)).flag f = d.flag f := fun f ha hw => by
    unfold Dev.flag
    rw [hget f (by simp only [R.ETH_MAC_CFG, R.ETH_STATUS, R.ETH_ASSY_OK] at ha ⊢; omega) hw]
  have hen := heth (F.ETH_MAC_CFG_EN p) (.inl rfl) (Nat.le_of_ble_eq_true rfl)
  have hlink := heth (F.ETH_STATUS_LINK p) (.inr rfl) (Nat.le_of_ble_eq_true rfl)
  have hretr := heth (F.ETH_STATUS_RETRAINING p) (.inr rfl) (Nat.le_of_ble_eq_true rfl)
  have hiso : (d.inc (F.ETH_ASSY_OK_COUNT p)).isolated (blkEth p) = d.isolated (blkEth p) := by
    have := faultPage_aligned (blkEth p)
    unfold Dev.isolated Dev.flag
    rw [hget _ (by simp only [F.FLT_FAULT_STATUS_ISOLATED, R.FLT_FAULT_STATUS, R.ETH_ASSY_OK]; omega) (Nat.le_of_ble_eq_true rfl)]
  have hseg : (d.inc (F.ETH_ASSY_OK_COUNT p)).segState p = d.segState p :=
    hget _ (by simp only [F.NM_SEG_STATUS_STATE, R.NM_SEG_STATUS, R.ETH_ASSY_OK]; omega) (by simp [F.NM_SEG_STATUS_STATE])
  unfold Dev.hearing Dev.portAvail Dev.portUp Dev.linkReady Dev.linkUpReady Dev.segHears Dev.ethPort at h ⊢
  rw [hready, hready, hready, hiso, hseg, hen, hlink, hretr, inc_pwr, inc_eth]
  simpa [show ¬ 20 ≤ p by omega, show p < 20 by omega] using h

@[simp] theorem plcaSeen_none (d : Dev) (p : Nat) (k : EthRx) (n : Nat) : d.plcaSeen p k n none = d := by
  cases k <;> rfl

/-- A frame with a good FCS shows its PLCA node, whatever becomes of the output that it takes. -/
theorem plcaSeen_heldError (d : Dev) (p n : Nat) (x : Option (Nat × Nat)) : d.plcaSeen p .heldError n x = d.plcaSeen p .whole n x := by
  cases x <;> rfl

theorem ethReceive_deaf {d : Dev} {p : Nat} (k : EthRx) (bs : List Byte) (age : Nat) (x : Option (Nat × Nat))
    (h : (d.portAvail p && d.linkReady p && d.segHears p) = false) : d.ethReceive p k bs age x = d := by
  unfold Dev.ethReceive
  rw [← Bool.not_and, ← Bool.not_and, h]
  rfl

/-! ### One rule per kind of reception -/

/-- What ends a frame: a bad FCS, or a good one, with or without an error in the held output that the frame takes. -/
def Dev.ethEnd (d : Dev) (p : Nat) (k : EthRx) (bs : List Byte) (age : Nat) : Dev :=
  match k with
  | .badFcs => d.ethBad p bs age
  | k => d.ethGood p bs age (k == .heldError)

section
variable {d : Dev} {p : Nat} (h : d.hearing p) (bs : List Byte) (age : Nat) (x : Option (Nat × Nat))
include h

theorem ethReceive_lpi (on : Bool) :
    d.ethReceive p (.lpi on) bs age x = if p < 12 then d.set (F.ETH_STATUS_LPI_RX p) (b2n on) else d := by
  obtain ⟨ha, hl, hs⟩ := h
  unfold Dev.ethReceive; rw [ha, hl, hs]; rfl

theorem ethReceive_badSmd (hp : p < 12) : d.ethReceive p .badSmd bs age x = d.inc (F.ETH_SMD_ERR_COUNT p) := by
  obtain ⟨ha, hl, hs⟩ := h
  unfold Dev.ethReceive; rw [ha, hl, hs]; exact if_pos hp

theorem ethReceive_asmError (hp : p < 12) :
    d.ethReceive p .asmError bs age x = (d.inc (F.ETH_ASSY_ERR_COUNT p)).partCut p := by
  obtain ⟨ha, hl, hs⟩ := h
  unfold Dev.ethReceive; rw [ha, hl, hs]; exact if_pos hp

/-- A frame that ends is discarded while forwarding is off, and else treated as its FCS says. -/
theorem ethReceive_frame {k : EthRx} (hk : k = .whole ∨ k = .badFcs ∨ k = .heldError) {d0 : Dev}
    (h0 : d0 = d.plcaSeen p k (bs.length + 4) x) :
    d.ethReceive p k bs age x = if d0.flag F.FWD_CTRL_FWD_EN then d0.ethEnd p k bs age else d0.partLoss p bs := by
  obtain ⟨ha, hl, hs⟩ := h
  unfold Dev.ethReceive; rw [ha, hl, hs, h0]
  rcases hk with rfl | rfl | rfl <;> rfl

theorem ethReceive_forwarded {k : EthRx} (hk : k = .whole ∨ k = .badFcs ∨ k = .heldError) {d0 : Dev}
    (h0 : d0 = d.plcaSeen p k (bs.length + 4) x) (hf : d0.flag F.FWD_CTRL_FWD_EN = true) :
    d.ethReceive p k bs age x = d0.ethEnd p k bs age := by
  rw [ethReceive_frame h bs age x hk h0, if_pos hf]

/-- A good reassembly counts, and is received whole. -/
theorem ethReceive_reassembled (hp : p < 12) :
    d.ethReceive p .reassembled bs age none = (d.inc (F.ETH_ASSY_OK_COUNT p)).ethReceive p .whole bs age none := by
  obtain ⟨ha, hl, hs⟩ := hearing_inc_assyOk hp h
  obtain ⟨ha', hl', hs'⟩ := h
  unfold Dev.ethReceive
  rw [ha, hl, hs, ha', hl', hs', plcaSeen_none, plcaSeen_none]
  exact congrArg (fun e : Dev => if e.flag F.FWD_CTRL_FWD_EN then e.ethGood p bs age false else e.partLoss p bs) (if_pos hp)

end

/-! ### How a frame ends -/

section
variable {d : Dev} {p : Nat}

theorem partCut_none (h : d.part p = none) : d.partCut p = d := by unfold Dev.partCut; rw [h]

theorem ethFail_none (bs : List Byte) (h : d.part p = none) : d.ethFail p bs = d.cnt F.CNT_DROP_ERROR_COUNT p := by
  unfold Dev.ethFail; rw [h]

theorem ethFail_some (bs : List Byte) {y : Part} (h : d.part p = some y) :
    d.ethFail p bs = if y.dead then d.partEnd p y bs else (d.partEnd p y bs).cnt F.CNT_DROP_ERROR_COUNT p := by
  unfold Dev.ethFail; rw [h]; rfl

theorem ethBad_fits (bs : List Byte) (age : Nat) (h : bs.length + 4 ≤ d.get (F.ETH_MAX_LEN_LEN p)) :
    d.ethBad p bs age = d.ethFail p bs := by
  unfold Dev.ethBad; rw [if_neg (by omega)]

/-- A frame longer than MAX_LEN that the host does not take counts in OVS_RX and as an error. -/
theorem ethOversize_counts (bs fcs : List Byte) (start : Nat) (h : d.part p = none) (ho : d.flag (F.ETH_MAC_CFG_OVS_HOST p) = false) :
    d.ethOversize p bs fcs start = (d.inc (F.ETH_OVS_RX_COUNT p)).cnt F.CNT_DROP_ERROR_COUNT p := by
  have hflag : (d.inc (F.ETH_OVS_RX_COUNT p)).flag (F.ETH_MAC_CFG_OVS_HOST p) = false := by
    rw [← ho]
    unfold Dev.flag Dev.inc Dev.add
    rw [get_set_ne _ _ _ _ (.inl (by simp [F.ETH_OVS_RX_COUNT, F.ETH_MAC_CFG_OVS_HOST, R.ETH_OVS_RX, R.ETH_MAC_CFG]))
      (Nat.le_of_ble_eq_true rfl) (Nat.le_of_ble_eq_true rfl)]
  have hpart : (d.inc (F.ETH_OVS_RX_COUNT p)).part p = none := by unfold Dev.part at h ⊢; rw [inc_fwd, h]
  unfold Dev.ethOversize
  simp [hflag, hpart]

theorem ethBad_oversize (bs : List Byte) (age : Nat) (hl : d.get (F.ETH_MAX_LEN_LEN p) < bs.length + 4) (h : d.part p = none)
    (ho : d.flag (F.ETH_MAC_CFG_OVS_HOST p) = false) :
    d.ethBad p bs age = (d.tookFree.inc (F.ETH_OVS_RX_COUNT p)).cnt F.CNT_DROP_ERROR_COUNT p := by
  unfold Dev.ethBad
  rw [if_pos hl]
  exact ethOversize_counts (d := d.tookFree) _ _ _ h ho

variable (bs : List Byte) (age : Nat) (ue : Bool)

theorem ethGood_short (h : bs.length + 4 < 64) : d.ethGood p bs age ue = d.ethFail p bs := by
  unfold Dev.ethGood; exact if_pos h

theorem ethGood_oversize (hn : 64 ≤ bs.length + 4) (hl : d.get (F.ETH_MAX_LEN_LEN p) < bs.length + 4) :
    d.ethGood p bs age ue = d.ethOversize p bs (leBytes 4 (crc32 bs)) (d.ethStartAt p age) := by
  unfold Dev.ethGood
  exact (if_neg (by omega)).trans (if_pos hl)

end

/-- The residence start of a frame whose SFD came `age` ns ago (R277). -/
def Dev.sfdStart (d : Dev) (age : Nat) : Nat := (d.dtime + 2 ^ 64 - age % 2 ^ 64) % 2 ^ 64

theorem ethStartAt_eth {d : Dev} {p : Nat} (age : Nat) (hp : p < 12) : d.ethStartAt p age = d.sfdStart age := if_pos hp

theorem ethStartAt_t1s {d : Dev} {p : Nat} (age : Nat) (hp : 12 ≤ p) : d.ethStartAt p age = d.dtime := if_neg (by omega)

section
variable {d d1 : Dev} {p : Nat} (bs : List Byte) (age : Nat) (ue : Bool) (hn : 64 ≤ bs.length + 4)
  (hl : bs.length + 4 ≤ d.get (F.ETH_MAX_LEN_LEN p)) (h1 : d1 = (d.countRx p (bs.length + 4)).segReceived p none none)
include hn hl h1

theorem ethGood_t1s (hp : 12 ≤ p) : d.ethGood p bs age ue = (d1.fqPut p (ethMsg bs) d.dtime 0 false none).1 := by
  unfold Dev.ethGood
  refine (if_neg (by omega)).trans ((if_neg (by omega)).trans ((if_pos hp).trans ?_))
  rw [ethStartAt_t1s age hp, ← h1]

variable (hp : p < 12)
include hp

theorem ethGood_completes {y : Part} (hy : d1.part p = some y) : d.ethGood p bs age ue = d1.partWhole p y bs (d.sfdStart age) := by
  unfold Dev.ethGood
  refine (if_neg (by omega)).trans ((if_neg (by omega)).trans ((if_neg (by omega)).trans ?_))
  rw [ethStartAt_eth age hp, ← h1, hy]

variable (hy : d1.part p = none)
include hy

theorem ethGood_disposed (hm : d1.macsecOn p = false) : d.ethGood p bs age ue
    = d1.ethDispose p bs (d.sfdStart age) (d1.dtime16 - age * 65536) (d1.now - age * 4 / 5) := by
  unfold Dev.ethGood
  refine (if_neg (by omega)).trans ((if_neg (by omega)).trans ((if_neg (by omega)).trans ?_))
  rw [ethStartAt_eth age hp, ← h1, hy]
  exact if_neg (by rw [hm]; decide)

/-- MACsec passes a frame's plain text on, or ends it. -/
theorem ethGood_verified (hm : d1.macsecOn p = true) {d2 : Dev} {out : Option (List Byte)} (hr : d1.macsecReceive p bs ue = (d2, out)) :
    d.ethGood p bs age ue
      = (out.map (fun pt => d2.ethDispose p pt (d.sfdStart age) (d1.dtime16 - age * 65536) (d1.now - age * 4 / 5))).getD d2 := by
  unfold Dev.ethGood
  refine (if_neg (by omega)).trans ((if_neg (by omega)).trans ((if_neg (by omega)).trans ?_))
  rw [ethStartAt_eth age hp, ← h1, hy]
  refine (if_pos hm).trans ?_
  rw [hr]
  cases out with
  | none => exact (Option.getD_none).symm
  | some pt => exact (Option.getD_some).symm

end

/-! ### The header taken before the frame's end (R118) -/

/-- The port and the frame allow cut-through. -/
def Dev.ctAllowed (d : Dev) (p : Nat) (bs : List Byte) (total : Nat) : Bool :=
  d.flag F.FWD_CTRL_FWD_EN && d.portAvail p && d.linkReady p && (d.part p).isNone && !d.macsecOn p
    && d.dispo p (parseHdr bs) bs == Dispo.lookup && decide ((parseHdr bs).off + 2 ≤ bs.length) && decide (bs.length + 4 < total)
    && (match d.ctThresh p with
      | some t => decide (t ≤ bs.length)
      | none => false)

/-- The contract that the header names verifies its frames whole. -/
def Dev.ctSecured (d : Dev) (p : Nat) (bs : List Byte) : Bool :=
  match (d.classify p 0 (parseHdr bs)).2 with
  | some (_, vid) => match ((d.stream (b2n (pipeB p)) (parseHdr bs).da vid).2).bind (fun x => d.contract x.1) with
    | some k => rqSecIn k.req != 0xFFFF
    | none => false
  | none => false

/-- The part that a header leaves before its lookup has answered. -/
def Dev.ctPart (d : Dev) (p : Nat) (bs : List Byte) : Part :=
  { Part.init with
    got := bs.length
    vid := ((d.classify p 0 (parseHdr bs)).2.map (fun x => x.2)).getD 0
    looked := (d.classify p 0 (parseHdr bs)).2.isSome }

section
variable {d : Dev} {p : Nat} {bs : List Byte} {total : Nat}

theorem ctAllowed_iff : d.ctAllowed p bs total = true
    ↔ d.flag F.FWD_CTRL_FWD_EN = true ∧ d.portAvail p = true ∧ d.linkReady p = true ∧ d.part p = none ∧ d.macsecOn p = false
      ∧ d.dispo p (parseHdr bs) bs = .lookup ∧ (parseHdr bs).off + 2 ≤ bs.length ∧ bs.length + 4 < total
      ∧ ∃ t, d.ctThresh p = some t ∧ t ≤ bs.length := by
  unfold Dev.ctAllowed
  cases d.ctThresh p <;> simp [and_assoc]

theorem ctSecured_of_verifies {prio vid : Nat} {k : Contract} (hc : (d.classify p 0 (parseHdr bs)).2 = some (prio, vid))
    (hk : ((d.stream (b2n (pipeB p)) (parseHdr bs).da vid).2).bind (fun y => d.contract y.1) = some k) (hr : rqSecIn k.req ≠ 0xFFFF) :
    d.ctSecured p bs = true := by
  unfold Dev.ctSecured
  rw [hc]
  dsimp only
  rw [hk]
  exact bne_iff_ne.mpr hr

theorem ctSecured_of_unverified (h : ∀ prio vid k, (d.classify p 0 (parseHdr bs)).2 = some (prio, vid) →
    ((d.stream (b2n (pipeB p)) (parseHdr bs).da vid).2).bind (fun y => d.contract y.1) = some k → rqSecIn k.req = 0xFFFF) :
    d.ctSecured p bs = false := by
  unfold Dev.ctSecured
  cases hc : (d.classify p 0 (parseHdr bs)).2 with
  | none => rfl
  | some c =>
    obtain ⟨prio, vid⟩ := c
    dsimp only
    cases hk : ((d.stream (b2n (pipeB p)) (parseHdr bs).da vid).2).bind (fun y => d.contract y.1) with
    | none => rfl
    | some k => exact bne_eq_false_iff_eq.mpr (h prio vid k hc hk)

theorem cutThrough_barred (age : Nat) (h : d.ctAllowed p bs total = false ∨ d.ctSecured p bs = true) : d.cutThrough p bs total age = d := by
  have hc : (!d.ctAllowed p bs total || d.ctSecured p bs) = true := by rcases h with h | h <;> simp [h]
  unfold Dev.cutThrough
  exact if_pos hc

variable (age : Nat) (ha : d.ctAllowed p bs total = true) (hs : d.ctSecured p bs = false)
include ha hs

theorem cutThrough_open : (!d.ctAllowed p bs total || d.ctSecured p bs) ≠ true := by simp [ha, hs]

variable {d1 : Dev}

/-- A header that the lookup does not accept is held as a part that nothing further counts. -/
theorem cutThrough_unaccepted (h : d.ethPlan p (b2n (pipeB p)) 0 bs (parseHdr bs) total false = (d1, none)) :
    d.cutThrough p bs total age = d1.setPart p (some { d.ctPart p bs with dead := true }) := by
  unfold Dev.cutThrough
  refine (if_neg (cutThrough_open ha hs)).trans ?_
  rw [h]
  rfl

variable {x : EthPlan} (h : d.ethPlan p (b2n (pipeB p)) 0 bs (parseHdr bs) total false = (d1, some x))
include h

theorem cutThrough_hostOnly (hx : x.ports = []) : d.cutThrough p bs total age
    = d1.setPart p (some { d.ctPart p bs with vid := x.vid, insert := x.insert, strip := x.strip, untag := x.untag, host := x.host }) := by
  unfold Dev.cutThrough
  refine (if_neg (cutThrough_open ha hs)).trans ?_
  rw [h]
  exact if_pos (by rw [hx]; rfl)

/-- A header that the lookup accepts gets a frame record and a copy at each destination, or, where the buffer has no room for them, is
held as a dead part. -/
theorem cutThrough_copies (hx : x.ports ≠ []) {a : Dev × Frame} {l : List Dest} {b : Dev × Option Nat} {dry : Bool}
    (hfr : a = d1.newFrame p (b2n (pipeB p)) (ethMsg bs) x.prio x.vid x.contract (d.sfdStart age))
    (hl : l = (a.1.ethDests x (parseHdr bs) bs (d.sfdStart age) (fun q => !a.1.ctPair p q)).map
      (fun y : Dest => y.awaiting (total - (bs.length + 4))))
    (hb : b = a.1.storeAnd a.2 bs.length l false) (hd : dry = (b.2.isNone && l.any a.1.stays)) :
    d.cutThrough p bs total age = b.1.setPart p (some { d.ctPart p bs with
      vid := x.vid, insert := x.insert, strip := x.strip, untag := x.untag, handle := b.2, host := x.host && !dry, dead := dry
      out := (b.2.map (b.1.queuedAcross (b2n (pipeB p)))).getD false }) := by
  subst hd hb hl hfr
  unfold Dev.cutThrough
  refine (if_neg (cutThrough_open ha hs)).trans ?_
  rw [h]
  exact if_neg (mt List.isEmpty_iff.mp hx)

end

/-! ### The obligation -/

/-- Settles O10, kind by kind from the rules above. -/
theorem ethernetReceive : Obligations.EthernetReceive := by
  refine ⟨?deaf, ?hears, ?barred, ?secured, ?taken⟩
  case deaf => exact fun s p k bs age x hq h => next_settle_of_eq hq (ethReceive_deaf k bs age x h)
  case hears =>
    intro s p bs age x hq ha hl hs
    have h : s.dev.hearing p := ⟨ha, hl, hs⟩
    have hp48 : p.val < 48 := by omega
    refine ⟨fun on => ⟨fun hp => ?lpi, fun hp => ?lpiT1s⟩, fun hp => ?badSmd, fun hp => ?asmError, fun hp hpart => ?asmErrorAlone,
      ?reassembled, ?discarded, ?partFails, ?counted, ?received⟩
    case lpi =>
      exact ⟨_, next_settle_of_flt hq ((ethReceive_lpi h bs age x on).trans (if_pos hp)) (by simp), flag_set_same _ _ _ rfl (Nat.le_of_ble_eq_true rfl),
        only_set _ _ (by simp [F.ETH_STATUS_LPI_RX]) (Nat.le_of_ble_eq_true rfl) (only_refl _ _), by simp, by simp⟩
    case lpiT1s =>
      exact next_settle_of_eq hq ((ethReceive_lpi h bs age x on).trans (if_neg (by omega)))
    case badSmd =>
      exact ⟨_, next_settle_of_flt hq (ethReceive_badSmd h bs age x hp) (by simp), get_inc_same _ _ (Nat.le_of_ble_eq_true rfl),
        only_inc _ (by simp [F.ETH_SMD_ERR_COUNT]) (Nat.le_of_ble_eq_true rfl) (only_refl _ _), by simp⟩
    case asmError =>
      exact next_settle_congr s (ethReceive_asmError h bs age x hp)
    case asmErrorAlone =>
      have hcut : (s.dev.inc (F.ETH_ASSY_ERR_COUNT p)).partCut p = s.dev.inc (F.ETH_ASSY_ERR_COUNT p) :=
        partCut_none (by unfold Dev.part at hpart ⊢; rw [inc_fwd, hpart])
      exact ⟨_, next_settle_of_flt hq ((ethReceive_asmError h bs age x hp).trans hcut) (by simp), get_inc_same _ _ (Nat.le_of_ble_eq_true rfl),
        only_inc _ (by simp [F.ETH_ASSY_ERR_COUNT]) (Nat.le_of_ble_eq_true rfl) (only_refl _ _), by simp⟩
    case reassembled =>
      rintro hp rfl
      exact next_settle_congr s (ethReceive_reassembled h bs age hp)
    case discarded =>
      intro k d0 hk h0 hf
      exact next_settle_congr s ((ethReceive_frame h bs age x hk h0).trans (if_neg (by simp [hf])))
    case partFails =>
      intro d0 y h0 hf hy hlen
      exact next_settle_congr s ((ethReceive_forwarded h bs age x (by simp) h0 hf).trans
        ((ethBad_fits bs age hlen).trans (ethFail_some bs hy)))
    case counted =>
      rintro hf hpart rfl
      have hrx : ∀ k, k = .whole ∨ k = .badFcs ∨ k = .heldError → s.dev.ethReceive p k bs age none = s.dev.ethEnd p k bs age :=
        fun k hk => ethReceive_forwarded h bs age none hk (plcaSeen_none _ _ _ _).symm hf
      have hcount := get_cnt_same s.dev F.CNT_DROP_ERROR_COUNT p hp48 rfl rfl
      have hfail := ethFail_none bs hpart
      refine ⟨fun hlen => ?_, fun hlen ho => ?_, fun hlen => ?_, fun hn hlen ho => ?_⟩
      · exact ⟨_, next_settle_of_flt hq ((hrx _ (by simp)).trans ((ethBad_fits bs age hlen).trans hfail)) (by simp), hcount, by simp, by simp⟩
      · exact next_settle_congr s ((hrx _ (by simp)).trans (ethBad_oversize bs age hlen hpart ho))
      · exact ⟨_, next_settle_of_flt hq ((hrx _ (by simp)).trans ((ethGood_short bs age _ hlen).trans hfail)) (by simp), hcount, by simp, by simp⟩
      · exact next_settle_congr s ((hrx _ (by simp)).trans
          ((ethGood_oversize bs age _ hn hlen).trans (ethOversize_counts _ _ _ hpart ho)))
    case received =>
      intro d0 d1 h0 hf hn hlen h1
      have hrx := ethReceive_forwarded h bs age x (.inl rfl) h0 hf
      refine ⟨fun hp hy hm => ?_, fun y hp hy => ?_, fun ue k d2 out hk hp hy hm hr => ?_, fun hp => ?_⟩
      · exact next_settle_congr s (hrx.trans (ethGood_disposed bs age _ hn hlen h1 hp hy hm))
      · exact next_settle_congr s (hrx.trans (ethGood_completes bs age _ hn hlen h1 hp hy))
      · refine next_settle_congr s (Eq.trans ?_ (ethGood_verified bs age ue hn hlen h1 hp hy hm hr))
        cases ue <;> subst hk
        · exact hrx
        · exact ethReceive_forwarded h bs age x (by simp) (h0.trans (plcaSeen_heldError _ _ _ _).symm) hf
      · exact next_settle_congr s (hrx.trans (ethGood_t1s bs age _ hn hlen h1 hp))
  case barred =>
    intro s p bs total age hq h
    refine next_settle_of_eq hq (cutThrough_barred age (.inl (Bool.eq_false_iff.mpr fun ha => ?_)))
    obtain ⟨hf, hav, hl, hpart, hm, hd, -, -, t, ht, -⟩ := ctAllowed_iff.mp ha
    simp [hf, hav, hl, hpart, hm, hd, ht] at h
  case secured =>
    exact fun s p bs total age prio vid k hq hc hk hr =>
      next_settle_of_eq hq (cutThrough_barred age (.inr (ctSecured_of_verifies hc hk hr)))
  case taken =>
    rintro s p bs total age th d d1 sn pt rfl hf hav hl hpart hm hd hoff htot hth hle rfl hsec rfl
    have ha : s.dev.ctAllowed p bs total = true := ctAllowed_iff.mpr ⟨hf, hav, hl, hpart, hm, hd, hoff, htot, th, hth, hle⟩
    have hs : s.dev.ctSecured p bs = false := ctSecured_of_unverified hsec
    exact ⟨fun h => next_settle_congr s (cutThrough_unaccepted age ha hs h),
      fun x h hx => next_settle_congr s (cutThrough_hostOnly age ha hs h hx),
      fun x a l b dry h hx hfr hdl hb hdry => next_settle_congr s (cutThrough_copies age ha hs h hx hfr hdl hb hdry)⟩

end Sys2Proof.Machine
end

section
/-!
PROOF. Reading a field ingress queue, publishing the words of a CAN XL frame and the start of its waiting copies (R97, R98, R101, R120).
-/
namespace Sys2Proof.Machine

/-! ### The pointers of a queue (R98) -/

section
variable (d : Dev) (q : Nat)

@[simp] theorem fq_setFq (l : List Rec) : (d.setFq q l).fq q = l := SMap.get_set_same _ _ _ _

/-- Moving the pointers leaves the records. -/
@[simp] theorem fq_fqMove (w r k : Nat) : (d.fqMove q w r).fq k = d.fq k := rfl

@[simp] theorem fqPtr_fqMove (w r : Nat) :
    (d.fqMove q w r).fqPtr q = (((d.fqPtr q).1 + 8 * w) % fqSpan q, ((d.fqPtr q).2 + 8 * r) % fqSpan q) :=
  SMap.get_set_same _ _ _ _

end

/-! ### Reading the oldest record -/

/-- The frame of a good record is served: of a T1S port by the dispositions of Table PIPE-2, of a field bus by its format, or joined to
its early part. -/
def Dev.fqServe (d : Dev) (q : Nat) (r : Rec) : Dev :=
  if q + 12 < 20 then d.ethDispose (q + 12) r.msg.data r.start (r.start * 65536) d.now
  else match r.part with
    | none => d.fieldFrame (q + 12) r.msg r.start r.state
    | some x => d.xlServe (q + 12) r x

section
variable {d : Dev} {q : Nat} {r : Rec}

theorem fqServe_t1s (hq : q < 8) : d.fqServe q r = d.ethDispose (q + 12) r.msg.data r.start (r.start * 65536) d.now :=
  if_pos (by omega)

theorem fqServe_field (hq : 8 ≤ q) (hp : r.part = none) : d.fqServe q r = d.fieldFrame (q + 12) r.msg r.start r.state := by
  unfold Dev.fqServe; rw [if_neg (by omega), hp]

theorem fqServe_early (hq : 8 ≤ q) {x : Part} (hp : r.part = some x) : d.fqServe q r = d.xlServe (q + 12) r x := by
  unfold Dev.fqServe; rw [if_neg (by omega), hp]

end

theorem fqRead_empty {d : Dev} {q : Nat} (bad : Bool) (h : d.fq q = []) : d.fqRead q bad = d := by
  unfold Dev.fqRead; rw [h]

section
variable {d d1 : Dev} {q : Nat} {bad : Bool} {r : Rec} {l : List Rec} (h : d.fq q = r :: l)
  (h1 : d1 = (d.setFq q l).fqMove q 0 (if r.part.isSome then 0 else r.words))
  (ht : d1.ready (if pipeB (q + 12) then 3 else 2) = true)
include h h1 ht

theorem fqRead_stopped (hf : d1.flag F.FWD_CTRL_FWD_EN = false) : d.fqRead q bad = d1.fqFail r.part false := by
  subst h1
  unfold Dev.fqRead
  rw [h]
  exact (if_neg (by simp [ht])).trans (if_pos (by simp [hf]))

variable (hf : d1.flag F.FWD_CTRL_FWD_EN = true)
include hf

/-- A record that cannot be served counts, unless its early part was discarded before, and marks its queue (R101). -/
theorem fqRead_bad (hb : r.bad = true ∨ bad = true) : d.fqRead q bad
    = ((((if (r.part.map (fun x => x.dead)).getD false then d1 else d1.cnt F.CNT_DROP_POISON_COUNT (q + 12)).set
      (F.FWD_FQ_STATUS_POISON q) 1).fltSet blkFwd 1).poisonLog (q + 12)).fqFail r.part true := by
  subst h1
  unfold Dev.fqRead
  rw [h]
  exact (if_neg (by simp [ht])).trans ((if_neg (by simp [hf])).trans (if_pos (by simpa using hb)))

theorem fqRead_good (hr : r.bad = false) (hb : bad = false) :
    d.fqRead q bad = (d1.fqServe q r).enteredAs (q + 12) d1.fwd.seq r.order := by
  subst h1
  unfold Dev.fqRead
  rw [h]
  exact (if_neg (by simp [ht])).trans ((if_neg (by simp [hf])).trans (if_neg (by simp [hr, hb])))

end

/-! ### CAN XL frames in reception (R120) -/

theorem canPublish_deaf {d : Dev} {c : Nat} (f : CanFrame) (n age : Nat) (h : (d.canReceives c && d.segHears (20 + c)) = false) :
    d.canPublish c f n age = d := by
  unfold Dev.canPublish
  refine if_pos ?_
  rcases Bool.and_eq_false_iff.mp h with h | h <;> simp [h]

theorem canPublish_hears {d : Dev} {c : Nat} {f : CanFrame} (n age : Nat) (hr : d.canReceives c = true) (ho : d.canOff c f.form = false)
    (hs : d.rateSearching c = false) (hh : d.segHears (20 + c) = true) : d.canPublish c f n age
      = ((d.set (F.CAN_STATUS_RX_ACTIVE c) 1).set (F.CAN_STATUS_IDLE c) 0).xlPublish c
        (canMsg f ((d.dtime + 2 ^ 64 - age % 2 ^ 64) % 2 ^ 64) false) n := by
  unfold Dev.canPublish
  exact if_neg (by simp [hr, ho, hs, hh])

/-- What is left of a CAN XL frame, in half nanoseconds: the bytes still to come with their stuff bits, and the time to the egress. -/
def Dev.xlLeft (d : Dev) (c n got : Nat) : Nat :=
  ((88 * (n - got) + 9) / 10 + 48) * (d.dataMtq c * 25) + 14 * (d.nomMtq c * 25) + 4000

section
variable {d : Dev} {c q h th : Nat} {pt : Part} {f : Frame} {x : Copy} (hp : d.part (20 + c) = some pt) (hh : pt.handle = some h)
  (hf : d.frame h = some f) (hx : (d.copiesOf h).find? (fun x => x.port == q && x.wait) = some x) (ht : d.xlThresh c = some th)
include hp hh hf hx ht

/-- The test of R120 decides whether a waiting copy starts. -/
theorem xlCopyStart_test : d.xlCopyStart c q
    = if th ≤ pt.got ∧ d.xlLeft c f.msg.data.length pt.got * d.portRate q ≤ 16000 * d.wireLen q x then d.setCopy { x with wait := false }
      else d := by
  unfold Dev.xlCopyStart
  simp only [hp, hh, hf, hx, ht, Option.bind_some, Option.map_some, Option.getD_some]
  refine ite_congr (propext ?_) (fun _ => rfl) (fun _ => rfl)
  rw [Bool.and_eq_true, decide_eq_true_eq, decide_eq_true_eq]
  rfl

end

/-! ### The obligation -/

/-- Settles O13, record by record and copy by copy from the rules above. -/
theorem fieldQueues : Obligations.FieldQueues := by
  refine ⟨?empty, ?read, ?deaf, ?hears, ?test⟩
  case empty => exact fun s q e hq h => next_settle_of_eq hq (fqRead_empty e h)
  case read =>
    rintro s q e r l d d1 rfl h h1 ht
    have hptr := fqPtr_fqMove (s.dev.setFq q l) q 0 (if r.part.isSome then 0 else r.words)
    rw [← h1] at hptr
    have hgood := fqRead_good (bad := e) h h1 ht
    refine ⟨by rw [h1, fq_fqMove, fq_setFq], by rw [hptr]; rfl, fun hp => by rw [hptr, hp]; rfl, fun hf => ?_, fun hf hr hb hq hp => ?_,
      fun x hf hr hb hq hp => ?_, fun hf hr hb hq => ?_, fun hf hb => ?_⟩ <;> apply next_settle_congr s
    · exact fqRead_stopped h h1 ht hf
    · exact (hgood hf hr hb).trans (by rw [fqServe_field hq hp])
    · exact (hgood hf hr hb).trans (by rw [fqServe_early hq hp])
    · exact (hgood hf hr hb).trans (by rw [fqServe_t1s hq])
    · exact fqRead_bad h h1 ht hf hb
  case deaf => exact fun s c f n age hq h => next_settle_of_eq hq (canPublish_deaf f n age h)
  case hears => exact fun s c f n age hr ho hs hh => next_settle_congr s (canPublish_hears n age hr ho hs hh)
  case test =>
    rintro s c q d pt h th f x rfl hq hp hh hf hx ht
    have hstart := xlCopyStart_test hp hh hf hx ht
    exact ⟨fun hc => next_settle_of_flt hq (hstart.trans (if_pos hc)) rfl, fun hc => next_settle_of_eq hq (hstart.trans (if_neg hc))⟩

end Sys2Proof.Machine
end

section
/-!
PROOF. Fetching a TX descriptor, reading its frame, and reads of host memory that fail (R80, R414, R416, R417, R430).
-/
namespace Sys2Proof.Machine

/-! ### Descriptors (R414) -/

/-- The descriptors of a ring that wait for their frame. -/
def Dev.txWaiting (d : Dev) (r : Nat) : Nat := (d.host.txWait.filter (fun (t : TxDesc) => t.ring == r)).length

/-- A ring that is up, with a descriptor below the doorbell index and room for it, fetches one. -/
theorem txFetch_fetches {d : Dev} {r : Nat} (hu : d.ringUp r = true) (hi : d.devIdx r ≠ d.dbIdx r) (hn : d.txWaiting r < 64) :
    d.txFetch r = if d.host.txKilled.contains (r, d.devIdx r) then
        ({ d with host := { d.host with txKilled := d.host.txKilled.filter (fun k => k != (r, d.devIdx r)) } }).ringAdvance r 1
      else (({ d with host := { d.host with txWait := d.host.txWait ++ [d.txParse r (d.devIdx r)] } }).ringAdvance r 1).txBadHead r
        (d.txWaiting r + 1) := by
  have hn' : ¬ 64 ≤ (d.host.txWait.filter (fun (t : TxDesc) => t.ring == r)).length := Nat.not_le.mpr hn
  unfold Dev.txFetch
  exact if_neg (by simp [hu, hi, hn'])

/-! ### Frames (R80, R416) -/

theorem hostTx_takes {d e : Dev} {r : Nat} {t : TxDesc} (hr : d.txRuns r = true)
    (ht : d.host.txWait.find? (fun (t : TxDesc) => t.ring == r) = some t) (hb : t.bad = false) (he : e = (d.txUnwait r t.idx).hostTake t) :
    d.hostTx r = (e.txIntake r t.idx).txBadHead r e.host.txWait.length := by
  subst he
  unfold Dev.hostTx
  rw [ht]
  exact if_neg (by simp [hr, hb])

/-- A field frame that its port has no form for completes with ERR_FORMAT. -/
theorem hostTake_formless {d : Dev} {t : TxDesc} {m : Msg} {p : Nat} {x : Dev × Made} (hf : t.field = true)
    (hm : m = hostField (d.hostRead t.addr t.len)) (hp : p = (bitsOf 48 t.portset).headD 0) (hx : d.makeCopy p m m.data none = x)
    (hn : ∀ m1 e, x.2 ≠ .frame m1 e) : d.hostTake t = x.1.txComplete t.pend errFormat := by
  obtain ⟨d1, y⟩ := x
  subst hm hp
  unfold Dev.hostTake
  refine (if_pos hf).trans ?_
  dsimp only
  rw [hx]
  cases y with
  | frame m1 e => exact absurd rfl (hn m1 e)
  | pdu | bad | lost | full => rfl

/-! ### Failed reads (R430) -/

theorem dmaDesc_up {d : Dev} {r : Nat} (a : Nat) (h : d.ringUp r = true) :
    d.dmaDesc r a = (d.set (F.HIF_RING_STATUS_HALTED r) 1).dmaFault 5 accFetch a := if_pos h

theorem dmaTx_waiting {d e : Dev} {r : Nat} {t : TxDesc} (a : Nat)
    (ht : d.host.txWait.find? (fun (t : TxDesc) => t.ring == r) = some t) (he : e = d.txUnwait r t.idx) :
    d.dmaTx r a = ((e.dmaFault 5 accDmaRead a).txComplete t.pend errPoison).txBadHead r e.host.txWait.length := by
  subst he
  unfold Dev.dmaTx
  rw [ht]

theorem dmaAssay_running {d : Dev} (a : Nat) (h : d.tables.pass.isSome = true) :
    d.dmaAssay a = (d.dmaFault 6 accDmaRead a).assayDmaError :=
  if_neg (by simp [Option.isSome_iff_ne_none.mp h])

/-- The nonce outlives every operation but a PROVISION. -/
theorem provGone_other (d : Dev) {o : Op} (h : o.ring ≠ 59 ∨ o.opcode ≠ 0x21) : d.provGone o = d := by
  unfold Dev.provGone
  exact if_neg (by rcases h with h | h <;> simp [h])

theorem provGone_provision (d : Dev) {o : Op} (hr : o.ring = 59) (ho : o.opcode = 0x21) : d.provGone o = d.setNonce none :=
  if_pos (by simp [hr, ho])

/-- A session carries the transport message of the command of index `i`. -/
def carriesOp (i : Nat) (p : Nat × Option Sess) : Bool := p.2.bind (fun x => x.op) == some i

/-- The device once the sessions of a transport message that ends have gone. -/
def Dev.sessionsGone (d : Dev) (i : Nat) : Dev := (d.xpt.sess.filter (carriesOp i)).foldl (fun (d : Dev) p => d.xptQuiet p.1) d

section
variable {d : Dev} {r i : Nat} {o : Op} (a : Nat)
  (h : d.host.ops.find? (fun (o : Op) => o.ring == r && o.idx == i && o.state == .running) = some o)
include h

/-- The operation found is one of the ring. -/
theorem ring_of_found : o.ring = r := by
  have ho := List.find?_some h
  simp only [Bool.and_eq_true, beq_iff_eq] at ho
  exact ho.1.1

theorem dmaOp_crypto (hr : r = 58) : d.dmaOp r i a = (d.dmaFault 5 accDmaRead a).cryEnd o .failed errPoison := by
  unfold Dev.dmaOp
  rw [h]
  exact if_pos (by simp [hr])

variable (hr : r ≠ 58)
include hr

/-- An operation that is no transport message has no session to end. -/
theorem dmaOp_fails (ho : r ≠ 59 ∨ o.opcode ≠ 0x40) :
    d.dmaOp r i a = ((d.dmaFault 5 accDmaRead a).provGone o).opFail o errPoison := by
  unfold Dev.dmaOp
  rw [h]
  refine (if_neg (by simp [hr])).trans ?_
  dsimp only
  rw [List.filter_eq_nil_iff.mpr, List.foldl_nil]
  rintro ⟨k, _ | s⟩ -
  · exact Bool.false_ne_true
  · rcases ho with ho | ho <;> simp [ho]

theorem dmaOp_message (h59 : r = 59) (ho : o.opcode = 0x40) :
    d.dmaOp r i a = ((d.dmaFault 5 accDmaRead a).sessionsGone i).opFail o errPoison := by
  unfold Dev.dmaOp
  rw [h]
  refine (if_neg (by simp [hr])).trans ?_
  dsimp only
  rw [List.filter_congr (q := carriesOp i), provGone_other _ (.inr (by simp [ho]))]
  · rfl
  · rintro ⟨k, _ | s⟩ - <;> simp [carriesOp, h59, ho]

end

/-! ### The obligation -/

/-- Settles O46, step by step from the rules above. -/
theorem hostTransmitSteps : Obligations.HostTransmitSteps := by
  refine ⟨?fetch, ?frame, ?desc, ?data, ?crypto, ?op, ?message, ?formless, ?assay⟩
  case fetch =>
    rintro s r d rfl hu hi hn
    exact next_settle_congr s (txFetch_fetches hu hi hn)
  case frame =>
    rintro s r t d e rfl hr ht hb he
    exact next_settle_congr s (hostTx_takes hr ht hb he)
  case desc => exact fun s r i a hu => next_settle_congr s (dmaDesc_up a hu)
  case data =>
    rintro s r i a t d e rfl ht he
    exact next_settle_congr s (dmaTx_waiting a ht he)
  case crypto => exact fun s r i a o h hr => next_settle_congr s (dmaOp_crypto a h hr)
  case op =>
    intro s r i a o h hr ho
    have hfails := dmaOp_fails a h hr ho
    have hring := ring_of_found h
    refine ⟨fun hp => next_settle_congr s (hfails.trans ?_), fun h59 hp => next_settle_congr s (hfails.trans ?_)⟩
    · rw [provGone_other _ (by rwa [hring])]
    · rw [provGone_provision _ (hring.trans h59) hp]
  case message =>
    rintro s i a o d1 h ho rfl
    exact next_settle_congr s (dmaOp_message a h (by decide) rfl ho)
  case formless => exact fun d t p m hf hm hp x hx hn => hostTake_formless hf hm hp hx hn
  case assay => exact fun s r i a h => next_settle_congr s (dmaAssay_running a h)

end Sys2Proof.Machine
end

section
/-!
PROOF. The memories and tables reached through registers: a write with GO does its access at once, and what each access answers (R127,
R156, R187, R188, R229, R266, R294, R331).
-/
namespace Sys2Proof.Machine

/-! ### Words with GO (R440) -/

/-- A register of one word, that is none of indirect access. -/
def oneWord (a : Nat) : Bool :=
  (regDef a).map (fun r => r.loWord) == some false && groupLo a == none && a != R.GLOBAL_IND_ADDR && a != R.GLOBAL_IND_DATA

section
variable {d : Dev} {m a : Nat} {r : RegDef} (ho : d.opens m a) (hr : regDef a = some r) (h1 : oneWord a = true)
include ho hr h1

/-- A permitted write of such a register is the register's own effect. -/
theorem write_oneWord {v : Nat} (hv : v < 2 ^ 32) : d.write m a v = (d.beforeWrite m a).regPut r m a v := by
  simp only [oneWord, hr, Option.map_some, Bool.and_eq_true, beq_iff_eq, bne_iff_ne, Option.some.injEq] at h1
  obtain ⟨⟨⟨hlo, hg⟩, ha⟩, hd⟩ := h1
  rw [write_opens d m a v r ho hr hlo hg ha hd, Nat.mod_eq_of_lt hv]

/-- A write of MEM_CMD with GO stores WRITE, and the access it starts is done at once. -/
theorem write_memCmd {access : Dev → Dev} (hput : ∀ (e : Dev) v, e.regPut r m a v = e.memCmd r m a v access) {w : Nat} (hw : w < 2 ^ 31) :
    d.write m a (w + 0x80000000) = access ((d.beforeWrite m a).plain r m a w) := by
  have hbf : bf (w + 0x80000000) 31 1 = 1 := by simp only [bf]; omega
  have hgo : bit (w + 0x80000000) 31 = true := by rw [bit_eq_bf, hbf]; rfl
  have hrest : setBit (w + 0x80000000) 31 false = w := by
    simp only [setBit, setBf, hbf, Bool.false_eq_true, if_false]; omega
  rw [write_oneWord ho hr h1 (by omega), hput]
  unfold Dev.memCmd
  rw [hgo, hrest]
  rfl

end

/-- The commands that read and write through a MEM_CMD: each is one write of the word, with WRITE as its lowest bit. -/
theorem next_memCmd {s : State} {m a : Nat} {r : RegDef} (ho : s.dev.opens m a) (hr : regDef a = some r) (h1 : oneWord a = true)
    {access : Dev → Dev} (hput : ∀ (e : Dev) v, e.regPut r m a v = e.memCmd r m a v access) :
    (Host.Outcome.next { s with dev := (s.dev.write m a 0x80000000).settle } : Host.Outcome State Fault Refusal)
        = .next { s with dev := (access ((s.dev.beforeWrite m a).plain r m a 0)).settle }
      ∧ (Host.Outcome.next { s with dev := (s.dev.write m a 0x80000001).settle } : Host.Outcome State Fault Refusal)
        = .next { s with dev := (access ((s.dev.beforeWrite m a).plain r m a 1)).settle } :=
  ⟨next_settle_congr s (write_memCmd ho hr h1 hput (w := 0) (by decide)),
    next_settle_congr s (write_memCmd ho hr h1 hput (w := 1) (by decide))⟩

/-! ### The registers that take GO -/

theorem regPut_recipeMem (d : Dev) (r : RegDef) (m v : Nat) :
    d.regPut r m R.ETHC_MEM_CMD v = d.memCmd r m R.ETHC_MEM_CMD v Dev.recipeAccess :=
  regPut_ethc d r m _ v (by decide +kernel) (by decide +kernel)

theorem regPut_cryMem (d : Dev) (r : RegDef) (m v : Nat) :
    d.regPut r m R.CRY_MEM_CMD v = d.memCmd r m R.CRY_MEM_CMD v Dev.cryAccess :=
  regPut_cry d r m _ v (by decide +kernel) (by decide +kernel)

/-- The access that a port's MEM_CMD starts, in the direction that its WRITE names. -/
def Dev.linGo (d : Dev) (n : Nat) : Dev := d.linMem n (d.flag (F.LIN_MEM_CMD_WRITE n))

theorem linMem_row (p : Fin 8) : oneWord (R.LIN_MEM_CMD p) = true ∧ faultBlockOf (R.LIN_MEM_CMD p) = none
    ∧ 27 ≤ pageBlock (R.LIN_MEM_CMD p) ∧ pageBlock (R.LIN_MEM_CMD p) < 35 :=
  (by decide +kernel : ∀ p : Fin 8, oneWord (R.LIN_MEM_CMD p) = true ∧ faultBlockOf (R.LIN_MEM_CMD p) = none
    ∧ 27 ≤ pageBlock (R.LIN_MEM_CMD p) ∧ pageBlock (R.LIN_MEM_CMD p) < 35) p

theorem regPut_linMem (d : Dev) (r : RegDef) (m v : Nat) (p : Fin 8) :
    d.regPut r m (R.LIN_MEM_CMD p) v = d.memCmd r m (R.LIN_MEM_CMD p) v (fun e => e.linGo p) := by
  obtain ⟨-, hf, hb⟩ := linMem_row p
  have hn : (R.LIN_MEM_CMD p - 0x900000) / 0x1000 = p.val := by simp only [R.LIN_MEM_CMD]; omega
  have ho : (R.LIN_MEM_CMD p - 0x900000) % 0x1000 = 0x24 := by simp only [R.LIN_MEM_CMD]; omega
  rw [regPut_lin d r m _ v hf hb]
  unfold Dev.putLin
  rw [hn, ho]
  rfl

theorem regPut_window (d : Dev) (r : RegDef) (m v : Nat) :
    d.regPut r m R.TBL_WIN_CTRL v = d.memCmd r m R.TBL_WIN_CTRL v Dev.winRead := by
  rw [regPut_tbl d r m _ v (by decide +kernel) (by decide +kernel)]
  unfold Dev.putTbl
  exact if_pos (beq_self_eq_true _)

/-- The window is filled from the entry that its control names (R156). -/
theorem write_window {d : Dev} {m : Nat} {r : RegDef} (ho : d.opens m R.TBL_WIN_CTRL) (hr : regDef R.TBL_WIN_CTRL = some r) {w : Nat}
    (hw : w < 2 ^ 31) :
    d.write m R.TBL_WIN_CTRL (w + 0x80000000) = ((d.beforeWrite m R.TBL_WIN_CTRL).plain r m R.TBL_WIN_CTRL w).winRead :=
  write_memCmd ho hr (by decide +kernel) (fun e v => regPut_window e r m v) hw

/-! ### Counters (R127) -/

/-- The device once CNT_CLR has taken a port and ALL. -/
def Dev.clrTaken (d : Dev) (p : Nat) (all : Bool) : Dev := (d.set F.FWD_CNT_CLR_PORT p).set F.FWD_CNT_CLR_ALL (b2n all)

/-- CNT_CLR clears the counters of all ports, or of the port that it names where that is a port. -/
theorem write_cntClr {d : Dev} {m : Nat} (ho : d.opens m R.FWD_CNT_CLR) (p : Fin 64) (all : Bool) :
    d.write m R.FWD_CNT_CLR (p + 64 * b2n all + 0x80000000)
      = if all then (List.range 48).foldl Dev.cntClear ((d.beforeWrite m R.FWD_CNT_CLR).clrTaken p all)
        else if p.val < 48 then ((d.beforeWrite m R.FWD_CNT_CLR).clrTaken p all).cntClear p
        else (d.beforeWrite m R.FWD_CNT_CLR).clrTaken p all := by
  have hall : b2n all ≤ 1 := by cases all <;> decide
  have hone : oneWord R.FWD_CNT_CLR = true := by decide +kernel
  obtain ⟨r, hr⟩ : ∃ r, regDef R.FWD_CNT_CLR = some r := Option.isSome_iff_exists.mp (by decide +kernel)
  have hport : bf (p + 64 * b2n all + 0x80000000) 0 6 = p.val := by simp only [bf]; omega
  have hflag : bf (p + 64 * b2n all + 0x80000000) 6 1 = b2n all := by simp only [bf]; omega
  have hgo : bit (p + 64 * b2n all + 0x80000000) 31 = true := by simp only [bit, beq_iff_eq]; omega
  have hbit : bit (p + 64 * b2n all + 0x80000000) 6 = all := by rw [bit_eq_bf, hflag]; cases all <;> rfl
  rw [write_oneWord ho hr hone (by omega), regPut_fwd _ _ _ _ _ (by decide +kernel) (by decide +kernel)]
  unfold Dev.putFwd
  rw [if_pos (by decide), hport, hflag, hgo, hbit]
  rfl

theorem reg_cntClear_in (d : Dev) {p a : Nat} (h1 : 0x210000 + 0x200 * p ≤ a) (h2 : a < 0x210200 + 0x200 * p) :
    (d.cntClear p).reg a = resetVal a % 2 ^ 32 := by
  have hout : (decide (a < 0x210000 + 0x200 * p) || decide (0x210200 + 0x200 * p ≤ a)) = false := by
    simp only [Bool.or_eq_false_iff, decide_eq_false_iff_not]; omega
  unfold Dev.cntClear Dev.resetRegs Dev.reg SMap.get
  rw [SMap.find_filter (fun k => decide (k < _) || decide (_ ≤ k)), hout]
  exact BitVec.toNat_ofNat _ _

theorem reg_cntClear_out (d : Dev) {p a : Nat} (h : a < 0x210000 + 0x200 * p ∨ 0x210200 + 0x200 * p ≤ a) :
    (d.cntClear p).reg a = d.reg a := by
  have hin : (decide (a < 0x210000 + 0x200 * p) || decide (0x210200 + 0x200 * p ≤ a)) = true := by
    simpa only [Bool.or_eq_true, decide_eq_true_eq] using h
  unfold Dev.cntClear Dev.resetRegs Dev.reg SMap.get
  rw [SMap.find_filter (fun k => decide (k < _) || decide (_ ≤ k)), hin]
  rfl

/-! ### Data registers and entries -/

@[simp] theorem setDataRegs_tbl (d : Dev) (r : Nat → Nat) (n v : Nat) : (d.setDataRegs r n v).tbl = d.tbl :=
  foldl_keep (fun d => d.tbl) (fun d k => d.setReg (r k) (bf v (32 * k) 32)) (fun _ _ => rfl) _ d

@[simp] theorem entryPut_tbl (d : Dev) (t c i v : Nat) : (d.entryPut t c i v).tbl = (d.tset t c i v).tbl := rfl

/-! ### Recipes (R266) -/

section
variable {d : Dev} {i : Nat} (hi : i = d.get F.ETHC_MEM_SEL_INDEX)
include hi

theorem recipeAccess_beyond (h : 384 ≤ i) : d.recipeAccess = d.set F.ETHC_MEM_CMD_RESULT errFormat := by
  subst hi; unfold Dev.recipeAccess; exact if_pos h

variable (h : i < 384)
include h

theorem recipeAccess_read (hw : d.flag F.ETHC_MEM_CMD_WRITE = false) : d.recipeAccess
    = (d.setDataRegs R.ETHC_MEM_DATA 2 (if d.tables.bad.contains (tkey 62 0 i) then 0 else d.tget 62 0 i)).set
      F.ETHC_MEM_CMD_RESULT errOk := by
  subst hi; unfold Dev.recipeAccess; dsimp only
  rw [if_neg (by omega), if_neg (by simp [hw])]

variable (hw : d.flag F.ETHC_MEM_CMD_WRITE = true)
include hw

theorem recipeAccess_locked (hs : d.get (F.ETH_STEP_STATUS_STATE (i / 32)) ≠ 0) :
    d.recipeAccess = d.set F.ETHC_MEM_CMD_RESULT errLocked := by
  subst hi; unfold Dev.recipeAccess; dsimp only
  rw [if_neg (by omega), if_pos hw, if_pos (by simpa using hs)]

theorem recipeAccess_write (hs : d.get (F.ETH_STEP_STATUS_STATE (i / 32)) = 0) :
    d.recipeAccess = (d.entryPut 62 0 i (d.dataRegs R.ETHC_MEM_DATA 2)).set F.ETHC_MEM_CMD_RESULT errOk := by
  subst hi; unfold Dev.recipeAccess; dsimp only
  rw [if_neg (by omega), if_pos hw, if_neg (by simp [hs])]

end

/-! ### Connections and contexts (R294, R296) -/

section
variable {d : Dev} {i : Nat} (hi : i = d.get F.XPT_MEM_SEL_INDEX)
include hi

section
variable (hw : d.flag F.XPT_MEM_CMD_WRITE = false)
include hw

theorem xptAccess_readConn (hm : d.get F.XPT_MEM_SEL_MEM = 0) : d.xptAccess
    = ((List.range 8).foldl (fun (x : Dev) k => x.setReg (R.XPT_MEM_DATA k) (bf (d.conn i) (32 * k) 32)) (d.connTouch i)).set
      F.XPT_MEM_CMD_RESULT errOk := by
  subst hi; unfold Dev.xptAccess; dsimp only
  rw [if_neg (by simp [hw]), if_pos (by simp [hm])]

variable (hm : d.get F.XPT_MEM_SEL_MEM ≠ 0)
include hm

theorem xptAccess_readCtx (h : i < 256) : d.xptAccess
    = ((List.range 8).foldl (fun (x : Dev) k => x.setReg (R.XPT_MEM_DATA k) (bf ((d.ctxTouch i).ctxEntry i) (32 * k) 32))
      (d.ctxTouch i)).set F.XPT_MEM_CMD_RESULT errOk := by
  subst hi; unfold Dev.xptAccess; dsimp only
  rw [if_neg (by simp [hw]), if_neg (by simp [hm]), if_neg (by omega)]

theorem xptAccess_beyond (h : 256 ≤ i) : d.xptAccess = d.set F.XPT_MEM_CMD_RESULT errFormat := by
  subst hi; unfold Dev.xptAccess; dsimp only
  rw [if_neg (by simp [hw]), if_neg (by simp [hm]), if_pos h]

end

variable (hw : d.flag F.XPT_MEM_CMD_WRITE = true)
include hw

omit hi in
/-- A context is not written through MEM_CMD. -/
theorem xptAccess_writeCtx (hm : d.get F.XPT_MEM_SEL_MEM = 1) : d.xptAccess = d.set F.XPT_MEM_CMD_RESULT errFormat := by
  unfold Dev.xptAccess; dsimp only
  rw [if_pos hw, if_pos (by simp [hm])]

variable (hm : d.get F.XPT_MEM_SEL_MEM = 0)
include hm

theorem xptAccess_locked (hs : (d.sess (txKey i)).isSome = true ∨ (d.sess (rxKey i)).isSome = true) :
    d.xptAccess = d.set F.XPT_MEM_CMD_RESULT errLocked := by
  subst hi; unfold Dev.xptAccess; dsimp only
  rw [if_pos hw, if_neg (by simp [hm]), if_pos (by simpa using hs)]

theorem xptAccess_writeConn {v : Nat} (hv : v = leNat ((List.range 8).flatMap (fun k => leBytes 4 (d.reg (R.XPT_MEM_DATA k)))))
    (ht : (d.sess (txKey i)).isSome = false) (hr : (d.sess (rxKey i)).isSome = false) : d.xptAccess
      = if d.cnBad i v then d.set F.XPT_MEM_CMD_RESULT errFormat else (d.entryPut memConn 0 i v).set F.XPT_MEM_CMD_RESULT errOk := by
  unfold Dev.xptAccess; dsimp only
  rw [← hi, ← hv, if_pos hw, if_neg (by simp [hm]), if_neg (by simp [ht, hr])]

end

/-! ### Channels (R331) -/

section
variable {d : Dev} {c v : Nat} (hc : c = d.get F.CRY_MEM_SEL_INDEX)
include hc

theorem cryAccess_read (hw : d.flag F.CRY_MEM_CMD_WRITE = false) :
    d.cryAccess = ((d.chanTouch c).setDataRegs R.CRY_MEM_DATA 16 ((d.chanTouch c).chan c)).set F.CRY_MEM_CMD_RESULT errOk := by
  subst hc; unfold Dev.cryAccess; dsimp only
  rw [if_neg (by simp [hw])]

variable (hv : v = d.dataRegs R.CRY_MEM_DATA 16) (hw : d.flag F.CRY_MEM_CMD_WRITE = true)
include hv hw

omit hc in
theorem cryAccess_malformed (hb : chanBad v = true) : d.cryAccess = d.set F.CRY_MEM_CMD_RESULT errFormat := by
  unfold Dev.cryAccess; dsimp only
  rw [← hv, if_pos hw, if_pos hb]

/-- A channel that carries no PDUs is replaced as a whole, unless it is locked. -/
theorem cryAccess_write (hb : chanBad v = false) (h1 : chType (d.chan c) ≠ 1) (h2 : chType (d.chan c) ≠ 2) : d.cryAccess
    = if d.chanLocked c then d.set F.CRY_MEM_CMD_RESULT errLocked
      else (d.entryPut memChan 0 c (chanStored v)).set F.CRY_MEM_CMD_RESULT errOk := by
  unfold Dev.cryAccess; dsimp only
  rw [← hc, ← hv, if_pos hw, if_neg (by simp [hb]), if_neg (by simp [h1, h2])]

end

/-! ### The memories of the STE (R188) -/

section
variable {d : Dev} {m i : Nat} (hm : m = d.get F.STE_MEM_SEL_MEM) (hi : i = d.get F.STE_MEM_SEL_INDEX)
include hm hi

theorem steAccess_beyond (h : steEntries m ≤ i) : d.steAccess = d.set F.STE_MEM_CMD_RESULT errFormat := by
  subst hm hi; unfold Dev.steAccess
  exact if_pos (by simp [h])

variable (h : i < steEntries m)
include h

theorem steAccess_read (hw : d.flag F.STE_MEM_CMD_WRITE = false) :
    d.steAccess = ((d.steTouch m i).setDataRegs R.STE_MEM_DATA 8 (d.steEnt m i)).set F.STE_MEM_CMD_RESULT errOk := by
  subst hm hi; unfold Dev.steAccess; dsimp only
  rw [if_neg (by simp [hw, h]), if_neg (by simp [hw])]

variable {raw v : Nat} (h7 : m ≠ 7) (hw : d.flag F.STE_MEM_CMD_WRITE = true)
  (hraw : raw = d.dataRegs R.STE_MEM_DATA 8 % 2 ^ (8 * steSize m)) (hv : v = steStored m (d.tget (steMem m) 0 i) raw)
include h7 hw hraw hv

/-- An entry that an admitted contract names keeps what R165 protects. -/
theorem steAccess_locked (hf : steFixed m v ≠ steFixed m (d.tget (steMem m) 0 i)) (hn : d.steNamed m i = true) :
    d.steAccess = d.set F.STE_MEM_CMD_RESULT errLocked := by
  unfold Dev.steAccess; dsimp only
  rw [← hm, ← hi, ← hraw, ← hv, if_neg (by simp [h, h7]), if_pos hw, if_pos (by simp [hf, hn])]

theorem steAccess_write (hf : steFixed m v = steFixed m (d.tget (steMem m) 0 i) ∨ d.steNamed m i = false) : d.steAccess
    = if steBad m i raw then d.set F.STE_MEM_CMD_RESULT errFormat
      else (d.entryPut (steMem m) 0 i v).set F.STE_MEM_CMD_RESULT errOk := by
  unfold Dev.steAccess; dsimp only
  rw [← hm, ← hi, ← hraw, ← hv, if_neg (by simp [h, h7]), if_pos hw, if_neg (by rcases hf with hf | hf <;> simp [hf])]

end

/-! ### The memories of a LIN port (R229) -/

section
variable {d : Dev} {n i : Nat} (hi : i = d.get (F.LIN_MEM_SEL_INDEX n))
include hi

theorem linMem_readSched (hm : d.get (F.LIN_MEM_SEL_MEM n) = 0) {e : Nat} (he : e = d.tget memSched 0 (512 * n + i)) :
    d.linMem n false = (((d.set (F.LIN_MEM_DATA_DATA n 0) (e % 2 ^ 32)).set (F.LIN_MEM_DATA_DATA n 1) (e / 2 ^ 32)).set
      (F.LIN_MEM_CMD_RESULT n) errOk).set (F.LIN_MEM_CMD_WRITE n) 0 := by
  subst hi he; unfold Dev.linMem
  rw [hm]
  rfl

variable (hm : d.get (F.LIN_MEM_SEL_MEM n) = 1) (h : i < 64)
include hm h

theorem linMem_readResp {e : Nat} (he : e = d.tget memResp 0 (64 * n + i)) :
    d.linMem n false = (((d.set (F.LIN_MEM_DATA_DATA n 0) (e % 2 ^ 32)).set (F.LIN_MEM_DATA_DATA n 1) (e / 2 ^ 32)).set
      (F.LIN_MEM_CMD_RESULT n) errOk).set (F.LIN_MEM_CMD_WRITE n) 0 := by
  subst hi he; unfold Dev.linMem
  rw [hm]
  exact if_neg (by simp [h])

theorem linMem_writeResp : d.linMem n true
    = ((d.tset memResp 0 (64 * n + i) (d.get (F.LIN_MEM_DATA_DATA n 0) + 2 ^ 32 * d.get (F.LIN_MEM_DATA_DATA n 1))).set
      (F.LIN_MEM_CMD_RESULT n) errOk).set (F.LIN_MEM_CMD_WRITE n) 1 := by
  subst hi; unfold Dev.linMem
  rw [hm]
  exact if_neg (by simp [h])

end

/-! ### The obligation -/

/-- Settles O49, register by register and memory by memory from the rules above. -/
theorem memoryWindows : Obligations.MemoryWindows := by
  refine ⟨?ste, ?recipe, ?xpt, ?cry, ?lin, ?window, ?clear, ?cleared, ?recipes, ?session, ?reads, ?conns, ?chans, ?entries, ?slots⟩
  case ste =>
    rintro s m r b ho hr rfl
    exact next_memCmd ho hr (by decide +kernel) (fun e v => regPut_steMem e r m v)
  case recipe =>
    rintro s m r b ho hr rfl
    exact next_memCmd ho hr (by decide +kernel) (fun e v => regPut_recipeMem e r m v)
  case xpt =>
    rintro s m r b ho hr rfl
    exact next_memCmd ho hr (by decide +kernel) (fun e v => regPut_xptMem e r m v)
  case cry =>
    rintro s m r b ho hr rfl
    exact next_memCmd ho hr (by decide +kernel) (fun e v => regPut_cryMem e r m v)
  case lin =>
    rintro s m p r b x y ho hr rfl rfl rfl
    exact next_memCmd ho hr (linMem_row p).1 (fun e v => regPut_linMem e r m v p)
  case window =>
    intro s m t c k r ho hr
    have hc : b2n c ≤ 1 := by cases c <;> decide
    exact next_settle_congr s (write_window ho hr (by omega))
  case clear =>
    rintro s m p all b ho rfl
    have hw := write_cntClr ho p all
    refine ⟨fun ha hp => next_settle_congr s (hw.trans ?_), fun ha hp => next_settle_congr s (hw.trans ?_),
      fun ha => next_settle_congr s (hw.trans (if_pos ha))⟩ <;> subst ha
    · exact (if_neg Bool.false_ne_true).trans (if_pos hp)
    · exact (if_neg Bool.false_ne_true).trans (if_neg (Nat.not_lt.mpr hp))
  case cleared => exact fun d p a => ⟨reg_cntClear_in d, reg_cntClear_out d⟩
  case recipes =>
    intro d i hi
    have hres : ∀ (e : Dev) c, c < 2 ^ 8 → (e.set F.ETHC_MEM_CMD_RESULT c).get F.ETHC_MEM_CMD_RESULT = c :=
      fun e c hc => (get_set_same e _ c (by decide)).trans (Nat.mod_eq_of_lt hc)
    refine ⟨fun h => ?_, fun h hw hs => ?_, fun h hw hs => ?_, fun h hw => ?_⟩
    · rw [recipeAccess_beyond hi h]; exact ⟨hres _ errFormat (by decide), set_tbl _ _ _⟩
    · rw [recipeAccess_locked hi h hw hs]; exact ⟨hres _ errLocked (by decide), set_tbl _ _ _⟩
    · rw [recipeAccess_write hi h hw hs]; exact ⟨hres _ errOk (by decide), (set_tbl _ _ _).trans (entryPut_tbl _ _ _ _ _)⟩
    · rw [recipeAccess_read hi h hw]; exact ⟨hres _ errOk (by decide), by simp⟩
  case session =>
    intro d i hw hm hi hs
    rw [xptAccess_locked hi hw hm hs]
    exact ⟨(get_set_same _ _ _ (by decide)).trans rfl, set_tbl _ _ _⟩
  case reads =>
    refine fun d i hw hi => ⟨?_, ?_, fun hm h => xptAccess_beyond hi hw hm h⟩
    · rintro d0 hm rfl
      exact xptAccess_readConn hi hw hm
    · rintro d0 hm h rfl
      exact xptAccess_readCtx hi hw hm h
  case conns =>
    refine fun d i v hw hi hv => ⟨xptAccess_writeCtx hw, fun hm ht hr => ?_⟩
    have hconn := xptAccess_writeConn hi hw hm hv ht hr
    exact ⟨fun hb => hconn.trans (if_pos hb), fun hb => hconn.trans (if_neg (by simp [hb]))⟩
  case chans =>
    exact fun d c v hc hv => ⟨cryAccess_read hc, cryAccess_malformed hv, fun hw => cryAccess_write hc hv hw⟩
  case entries =>
    refine fun d m i hm hi => ⟨steAccess_beyond hm hi, steAccess_read hm hi, fun raw v h h7 hw hraw hv => ?_⟩
    exact ⟨steAccess_locked hm hi h h7 hw hraw hv, steAccess_write hm hi h h7 hw hraw hv⟩
  case slots =>
    intro d n w i hi
    refine ⟨?_, fun hm h => ⟨?_, ?_⟩⟩
    · rintro rfl hm e he
      exact linMem_readSched hi hm he
    · rintro rfl e he
      exact linMem_readResp hi hm h he
    · rintro rfl
      exact linMem_writeResp hi hm h

end Sys2Proof.Machine
end

section
/-!
PROOF. A change of a table entry, by its counter, its words, its generation, its errors and its frame (R130, R131), and an entry that
learning refreshes in place (R145).
-/
namespace Sys2Proof.Machine

/-! ### Keys -/

/-- An entry of one copy has a key of its own. -/
theorem tkey_ne {m c i m' c' i' : Nat} (hc : c < 2) (hc' : c' < 2) (hi : i < 2 ^ 24) (hi' : i' < 2 ^ 24)
    (h : (m, c, i) ≠ (m', c', i')) : tkey m c i ≠ tkey m' c' i' := by
  intro hk
  unfold tkey at hk
  exact h (by simp only [Prod.mk.injEq]; omega)

theorem tblEntries_le (t : Nat) : tblEntries t ≤ 65536 := by
  unfold tblEntries
  repeat' split
  all_goals decide

theorem genIdx_le (t i : Nat) : genIdx t i ≤ i := by
  unfold genIdx
  split <;> omega

/-- A table's generations are a memory of their own. -/
theorem genKey_ne {t c i c' j : Nat} (hc : c < 2) (hc' : c' < 2) (hi : i < 2 ^ 24) (hj : j < 2 ^ 24) :
    tkey t c i ≠ tkey (genMem t) c' j := by
  refine tkey_ne hc hc' hi hj fun h => ?_
  have hm : t = genMem t := (Prod.mk.inj h).1
  unfold genMem at hm
  omega

/-! ### The counter of a table (R131) -/

theorem genCounter_word (t c : Nat) : (genCounter t c).lo = 0 ∧ (genCounter t c).w = 32 := by
  unfold genCounter
  repeat' split
  all_goals exact ⟨rfl, rfl⟩

theorem get_genBump (d : Dev) (t c : Nat) : (d.genBump t c).get (genCounter t c) = (d.get (genCounter t c) + 1) % 2 ^ 32 := by
  obtain ⟨hlo, hw⟩ := genCounter_word t c
  unfold Dev.genBump
  rw [get_set_same _ _ _ (by omega), hw, Nat.mod_mod]

theorem only_genBump (d : Dev) (t c : Nat) : d.regsOnly (d.genBump t c) [(genCounter t c).addr] := by
  obtain ⟨hlo, hw⟩ := genCounter_word t c
  exact only_set _ _ (List.mem_singleton_self _) (by omega) (only_refl _ _)

/-! ### A change of an entry (R130, R131) -/

/-- The generation that the next change of the table gives. -/
def Dev.nextGen (d : Dev) (t c : Nat) : Nat := (d.get (genCounter t c) + 1) % 2 ^ 16

theorem genBump_low (d : Dev) (t c : Nat) : (d.genBump t c).get (genCounter t c) % 2 ^ 16 = d.nextGen t c := by
  rw [get_genBump, Nat.mod_mod_of_dvd _ (Nat.pow_dvd_pow 2 (by decide)), Dev.nextGen]

theorem tget_genBump (d : Dev) (t c m k j : Nat) : (d.genBump t c).tget m k j = d.tget m k j := by
  unfold Dev.tget Dev.genBump
  rw [set_tbl]

theorem tget_entryPut (d : Dev) (t c i v m k j : Nat) : (d.entryPut t c i v).tget m k j = (d.tset t c i v).tget m k j := rfl

/-- The errors of a written entry are gone. -/
theorem entryPut_bad (d : Dev) (t c i v : Nat) : (d.entryPut t c i v).tables.bad.contains (tkey t c i) = false := by
  have hb : (d.entryPut t c i v).tables.bad = d.tables.bad.filter (fun k => k != tkey t c i) := rfl
  simp [hb]

section
variable (d : Dev) (t c i v : Nat)

/-- A change moves the counter, then writes the entry and its generation. -/
theorem entryChange_eq : d.entryChange t c i v
    = ((d.genBump t c).entryPut t c i (withGen t v (d.nextGen t c))).tset (genMem t) c (genIdx t i) (d.nextGen t c) := by
  rw [← genBump_low]
  rfl

theorem entryChange_regs : (d.entryChange t c i v).regs = (d.genBump t c).regs := rfl

theorem entryChange_bad : (d.entryChange t c i v).tables.bad.contains (tkey t c i) = false := by
  rw [entryChange_eq, tset_tables]
  exact entryPut_bad _ _ _ _ _

theorem gen_entryChange : (d.entryChange t c i v).gen t c i = d.nextGen t c := by
  rw [entryChange_eq]
  exact tget_tset_same _ _ _ _ _

variable {c i} (hc : c < 2) (hi : i < 2 ^ 24)
include hc hi

theorem tget_entryChange_same : (d.entryChange t c i v).tget t c i = withGen t v (d.nextGen t c) := by
  rw [entryChange_eq, tget_tset_ne _ _ (genKey_ne hc hc hi (Nat.lt_of_le_of_lt (genIdx_le t i) hi)), tget_entryPut, tget_tset_same]

/-- Every entry but the changed one and its generation is as it was. -/
theorem tget_entryChange_ne {m k j : Nat} (hk : k < 2) (hj : j < 2 ^ 24) (he : (m, k, j) ≠ (t, c, i))
    (hg : (m, k, j) ≠ (genMem t, c, genIdx t i)) : (d.entryChange t c i v).tget m k j = d.tget m k j := by
  have hgi : genIdx t i < 2 ^ 24 := Nat.lt_of_le_of_lt (genIdx_le t i) hi
  rw [entryChange_eq, tget_tset_ne _ _ (tkey_ne hk hc hj hgi hg), tget_entryPut, tget_tset_ne _ _ (tkey_ne hk hc hj hi he),
    tget_genBump]

end

/-! ### A refresh (R145, R149) -/

/-- A refreshed entry: HIT is 1 and STALE 0. -/
def fdbRefresh (e : Nat) : Nat := setBit (setBit e 62 true) 63 false

theorem fdbHit_refresh (e : Nat) : fdbHit (fdbRefresh e) = true := by
  unfold fdbHit fdbRefresh
  rw [bit_setBit_ne _ _ _ _ (by decide), bit_setBit_same]

theorem fdbStale_refresh (e : Nat) : fdbStale (fdbRefresh e) = false := bit_setBit_same _ _ _

theorem tget_fdbFresh (d : Dev) (pipe i m k j : Nat) : (d.fdbFresh pipe i).tget m k j = d.tget m k j := by
  unfold Dev.tget Dev.fdbFresh
  rfl

theorem refreshed_fdbFresh (d : Dev) (pipe i : Nat) : (d.fdbFresh pipe i).refreshed pipe i = true := by
  have hl : (d.fdbFresh pipe i).tables.fresh.contains (tkey pipe 0 i) = true := by simp [Dev.fdbFresh]
  have ha : (d.fdbFresh pipe i).tables.freshAt = (d.fdbFresh pipe i).now := rfl
  unfold Dev.refreshed
  rw [hl, ha, beq_self_eq_true]
  rfl

theorem refreshed_tset (d : Dev) (m c j v pipe i : Nat) : (d.tset m c j v).refreshed pipe i = d.refreshed pipe i := by
  unfold Dev.refreshed Dev.now
  rw [tset_tables, tset_time]

/-- Learning refreshes the entry that it finds on the candidate's port. -/
theorem learn_refreshes {d d1 : Dev} {pipe port sa vid i e : Nat} {egress : Bool} (hon : d.learnOn pipe egress = true)
    (hf : d.fdbFind pipe sa vid = (d1, some (i, e))) (hp : fdbPort e = port) (hg : fdbGroup e = false) :
    d.learn pipe port sa vid egress = ((d1.fdbFresh pipe i).tset pipe 0 i (fdbRefresh e), false) := by
  unfold Dev.learn
  rw [if_neg (by simp [hon]), hf]
  exact if_pos (by simp [hp, hg])

/-! ### The obligation -/

/-- Settles O14, from the rules of a change and of a refresh. -/
theorem entryChange : Obligations.EntryChange := by
  refine ⟨fun d t c i v _ hc hi => ?change, fun d d1 pipe port sa vid i e egress hpipe hi hon hf hp hg => ?refresh⟩
  case change =>
    have hi24 : i < 2 ^ 24 := Nat.lt_of_lt_of_le hi (Nat.le_trans (tblEntries_le t) (by decide))
    exact ⟨(get_of_regs (entryChange_regs d t c i v) _).trans (get_genBump d t c),
      only_of (only_genBump d t c) (entryChange_regs d t c i v),
      tget_entryChange_same d t v hc hi24, gen_entryChange d t c i v, entryChange_bad d t c i v, entryChange_hostMem d t c i v,
      fun m k j hk hj => tget_entryChange_ne d t v hc hi24 hk hj⟩
  case refresh =>
    rw [learn_refreshes hon hf hp hg]
    dsimp only
    have hread := tget_tset_same (d1.fdbFresh pipe i) pipe 0 i (fdbRefresh e)
    rw [hread, refreshed_tset, refreshed_fdbFresh, fdbHit_refresh, fdbStale_refresh]
    refine ⟨rfl, rfl, tset_regs _ _ _ _ _, rfl, rfl, rfl, fun m k j hk hj hne => ?frame⟩
    rw [tget_tset_ne _ _ (tkey_ne hk (by decide) hj (by omega) hne), tget_fdbFresh]

end Sys2Proof.Machine
end

section
/-!
PROOF. What Burnisher does with an entry and with a set (R148, R149), and how a pass of Assay starts and ends (R152).
-/
namespace Sys2Proof.Machine

/-! ### An entry that Burnisher visits (R148, R149) -/

section
variable {d d1 : Dev} {pipe i e : Nat} (hr : d.entryRead pipe 0 i = (d1, some e))
include hr

/-- Burnisher ages what it reads of an entry. -/
theorem burnEntry_found : d.burnEntry pipe i
    = if !fdbValid e || fdbStatic e || d1.refreshed pipe i then d1
      else if fdbHit e then d1.tset pipe 0 i (setBit e 62 false)
      else if !fdbStale e then d1.tset pipe 0 i (setBit e 63 true)
      else if d1.learnHeld then d1.inc F.TBL_AGE_DEFERRED_COUNT
      else d1.fdbRemove 0x03 0 pipe i := by
  unfold Dev.burnEntry
  rw [hr]

theorem burnEntry_spared (h : fdbValid e = false ∨ fdbStatic e = true ∨ d1.refreshed pipe i = true) : d.burnEntry pipe i = d1 := by
  rw [burnEntry_found hr, if_pos]
  rcases h with h | h | h <;> simp [h]

variable (hv : fdbValid e = true) (hs : fdbStatic e = false) (hf : d1.refreshed pipe i = false)
include hv hs hf

/-- A learned entry that no frame refreshes in the cycle of the visit takes the next step of aging. -/
theorem burnEntry_ages : d.burnEntry pipe i
    = if fdbHit e then d1.tset pipe 0 i (setBit e 62 false)
      else if !fdbStale e then d1.tset pipe 0 i (setBit e 63 true)
      else if d1.learnHeld then d1.inc F.TBL_AGE_DEFERRED_COUNT
      else d1.fdbRemove 0x03 0 pipe i := by
  rw [burnEntry_found hr]
  exact if_neg (by simp [hv, hs, hf])

theorem burnEntry_hit (hh : fdbHit e = true) : d.burnEntry pipe i = d1.tset pipe 0 i (setBit e 62 false) := by
  rw [burnEntry_ages hr hv hs hf, if_pos hh]

theorem burnEntry_fresh (hh : fdbHit e = false) (ht : fdbStale e = false) :
    d.burnEntry pipe i = d1.tset pipe 0 i (setBit e 63 true) := by
  rw [burnEntry_ages hr hv hs hf, if_neg (by simp [hh]), if_pos (by simp [ht])]

theorem burnEntry_stale (hh : fdbHit e = false) (ht : fdbStale e = true) :
    d.burnEntry pipe i = if d1.learnHeld then d1.inc F.TBL_AGE_DEFERRED_COUNT else d1.fdbRemove 0x03 0 pipe i := by
  rw [burnEntry_ages hr hv hs hf, if_neg (by simp [hh]), if_neg (by simp [ht])]

end

/-! ### A visit (R148) -/

/-- Seconds of a pipeline's sweep; 0 stops it. -/
def Dev.sweepS (d : Dev) (pipe : Fin 2) : Nat :=
  if pipe = 0 then d.get F.TBL_BURN_CFG_A_SWEEP_S else d.get F.TBL_BURN_CFG_B_SWEEP_S

/-- A pipeline's sweeper. -/
def TblSt.burn (x : TblSt) (pipe : Fin 2) : Burn := if pipe = 0 then x.burnA else x.burnB

/-- A pipeline's sweeper has moved on. -/
def TblSt.setBurn (x : TblSt) (pipe : Fin 2) (b : Burn) : TblSt :=
  if pipe = 0 then { x with burnA := b } else { x with burnB := b }

theorem burn_setBurn (x : TblSt) (pipe : Fin 2) (b : Burn) : (x.setBurn pipe b).burn pipe = b := by
  match pipe with
  | 0 => rfl
  | 1 => rfl

/-- The device once the entries of the sweeper's set have been visited, at the visit's instant. -/
def Dev.burnSet (d : Dev) (pipe : Fin 2) : Dev :=
  (setWays (d.tables.burn pipe).next).foldl (fun d i => d.burnEntry pipe i)
    (d.reach ((d.tables.burn pipe).last + d.sweepS pipe * sCyc / 8192))

/-- Pipeline A by its number. -/
theorem ite_val_zero {α : Type} (pipe : Fin 2) (x y : α) : (if pipe.val == 0 then x else y) = if pipe = 0 then x else y := by
  match pipe with
  | 0 => rfl
  | 1 => rfl

section
variable {d : Dev} {pipe : Fin 2}

/-- A stopped sweeper stands still. -/
theorem burnVisit_stopped (h0 : d.sweepS pipe = 0) : d.burnVisit pipe = d := by
  unfold Dev.burnVisit
  refine if_pos ?_
  rw [ite_val_zero]
  exact Bool.or_eq_true_iff.mpr (.inl (beq_iff_eq.mpr h0))

/-- A running sweeper visits its set and moves on. -/
theorem burnVisit_runs (h0 : d.sweepS pipe ≠ 0) (hr : d.ready (if pipe = 0 then 2 else 3) = true) : d.burnVisit pipe
    = { d.burnSet pipe with tables :=
        (d.burnSet pipe).tables.setBurn pipe ⟨((d.tables.burn pipe).next + 1) % 8192, (d.burnSet pipe).now⟩ } := by
  have hset : (setWays (if pipe = 0 then d.tables.burnA else d.tables.burnB).next).foldl (fun d i => d.burnEntry pipe i)
      (d.reach ((if pipe = 0 then d.tables.burnA else d.tables.burnB).last
        + (if pipe = 0 then d.get F.TBL_BURN_CFG_A_SWEEP_S else d.get F.TBL_BURN_CFG_B_SWEEP_S) * sCyc / 8192)) = d.burnSet pipe := rfl
  unfold Dev.burnVisit
  refine (if_neg ?_).trans ?_
  · rw [ite_val_zero, ite_val_zero, hr, Bool.not_true, Bool.or_false]
    exact fun h => h0 (beq_iff_eq.mp h)
  · simp only [ite_val_zero, hset, TblSt.burn, TblSt.setBurn]

end

/-! ### The start of a pass (R152) -/

/-- The device at the instant at which the next pass is due. -/
def Dev.atPass (d : Dev) : Dev :=
  match d.tables.passDue with
  | some t => d.reach t
  | none => d

theorem atPass_flt (d : Dev) : d.atPass.flt = d.flt := by
  unfold Dev.atPass
  split
  · exact reach_flt _ _
  · rfl

/-- A pass begins over the enabled shadows. -/
def Dev.passBegun (d : Dev) : Dev :=
  ({ d with tables := { d.tables with
      pass := some d.now
      passDue := some (max (d.tables.passDue.getD d.now + atLeastOne (d.get F.TBL_ASSAY_PASS_PASS_MS) * msCyc) d.now)
      todo := d.assayTables } }).set F.TBL_ASSAY_STATUS_BUSY 1

section
variable {d : Dev} (he : d.flag F.TBL_ASSAY_CTRL_EN = true) (hr : d.ready 2 = true)
include he hr

theorem assayStart_due : d.assayStart
    = if d.atPass.tables.pass.isSome then d.atPass.set F.TBL_ASSAY_STATUS_OVERRUN 1 else d.atPass.passBegun := by
  unfold Dev.assayStart
  exact if_neg (by simp [he, hr])

theorem assayStart_overrun (hp : d.atPass.tables.pass.isSome = true) : d.assayStart = d.atPass.set F.TBL_ASSAY_STATUS_OVERRUN 1 := by
  rw [assayStart_due he hr, if_pos hp]

theorem assayStart_begins (hp : d.atPass.tables.pass = none) : d.assayStart = d.atPass.passBegun := by
  rw [assayStart_due he hr, if_neg (by simp [hp])]

end

theorem passBegun_tables (d : Dev) : d.passBegun.tables.pass = some d.now ∧ d.passBegun.tables.todo = d.assayTables := by
  unfold Dev.passBegun
  rw [set_tables]
  exact ⟨rfl, rfl⟩

/-! ### The end of a pass (R152) -/

@[simp] theorem event60_tables (d : Dev) (x : List Byte) : (d.event60 x).tables = d.tables := by
  unfold Dev.event60
  split
  · exact eventPut_tables _ _ _
  · rfl

@[simp] theorem assayEvent_tables (d : Dev) (type reason t c i e sgen gen : Nat) :
    (d.assayEvent type reason t c i e sgen gen).tables = d.tables := by
  unfold Dev.assayEvent
  dsimp only
  split
  · exact inc_tables _ _
  · exact event60_tables _ _

/-- The device once its pass is over: nothing is left of it and BUSY is 0. -/
def Dev.passOver (d : Dev) : Dev :=
  ({ d with tables := { d.tables with pass := none, todo := [] } }).set F.TBL_ASSAY_STATUS_BUSY 0

/-- A complete pass is counted and reported. -/
theorem assayEnd_complete (d : Dev) : d.assayEnd 0
    = (d.passOver.set F.TBL_ASSAY_STATUS_PASSES
        ((d.passOver.get F.TBL_ASSAY_STATUS_PASSES + 1) % 65536)).assayEvent 0x13 0 0 0 0 0 0 0 := by
  unfold Dev.assayEnd
  exact congrArg (fun x : Dev => x.assayEvent 0x13 0 0 0 0 0 0 0) (if_pos rfl)

theorem passOver_pass (d : Dev) : d.passOver.tables.pass = none := by
  unfold Dev.passOver
  rw [set_tables]

/-- A complete pass runs no more. -/
theorem assayEnd_pass (d : Dev) : (d.assayEnd 0).tables.pass = none := by
  rw [assayEnd_complete, assayEvent_tables, set_tables, passOver_pass]

theorem assayCompare_idle {d : Dev} (n : Nat) (h : d.tables.pass = none) : d.assayCompare n = d := by
  unfold Dev.assayCompare
  exact if_pos (by rw [h]; rfl)

theorem assayRun_nil {d : Dev} (n : Nat) (h : d.tables.todo = []) : d.assayRun (n + 1) = d.assayEnd 0 := by
  rw [Dev.assayRun, h]

/-- A pass with nothing left ends complete. -/
theorem assayCompare_nil {d : Dev} {n : Nat} (hp : d.tables.pass.isSome = true) (h : d.tables.todo = []) (hn : n ≠ 0) :
    d.assayCompare n = d.assayEnd 0 := by
  obtain ⟨m, rfl⟩ := Nat.exists_eq_succ_of_ne_zero hn
  unfold Dev.assayCompare
  rw [if_neg (by simpa using Option.isSome_iff_ne_none.mp hp)]
  dsimp only
  rw [assayRun_nil m h, if_neg (by simp [assayEnd_pass])]

/-! ### The obligation -/

/-- Settles O16, from the rules of a visited entry, of a visit and of a pass. -/
theorem sweepAndAssay : Obligations.SweepAndAssay := by
  refine ⟨fun d d1 pipe i e hr => ?entry, ?visit, ?start, fun s n hq hp => ?idle, fun s n hp ht hn => ?ends⟩
  case entry => exact ⟨burnEntry_spared hr, burnEntry_hit hr, burnEntry_fresh hr, burnEntry_stale hr⟩
  case visit =>
    rintro s pipe sec b d e rfl rfl rfl
    refine ⟨fun h0 hq => ?stopped, ?runs⟩
    case stopped => exact next_settle_of_eq hq (burnVisit_stopped h0)
    case runs =>
      rintro h0 hr rfl
      exact ⟨_, next_settle_congr s (burnVisit_runs h0 hr), burn_setBurn _ _ _⟩
  case start =>
    intro s d1 hq he hr hd
    have hd1 : d1 = s.dev.atPass := hd
    subst hd1
    have hflt := atPass_flt s.dev
    refine ⟨fun hp => ?overrun, fun hp => ?begins⟩
    case overrun =>
      exact ⟨_, next_settle_of_flt hq (assayStart_overrun he hr hp) ((set_flt _ _ _).trans hflt),
        flag_set_same _ _ true rfl (by decide), only_set _ _ (List.mem_singleton_self _) (by decide) (only_refl _ _),
        set_tables _ _ _⟩
    case begins =>
      obtain ⟨hpass, htodo⟩ := passBegun_tables s.dev.atPass
      exact ⟨_, next_settle_of_flt hq (assayStart_begins he hr hp) ((set_flt _ _ _).trans hflt),
        flag_set_same _ _ true rfl (by decide), hpass, htodo, set_tbl _ _ _⟩
  case idle => exact next_settle_of_eq hq (assayCompare_idle n hp)
  case ends => exact ⟨s.dev.passOver, rfl, next_settle_congr s ((assayCompare_nil hp ht hn).trans (assayEnd_complete s.dev))⟩

end Sys2Proof.Machine
end

section
/-!
PROOF. Where the bits of a signal lie, what is read at them after a write, and what a route writes into its image (R168, R170 to R172, R187).
-/
namespace Sys2Proof.Machine

/-! ### The positions of a field (R168) -/

/-- The rank of a position in a bit order: in Motorola order bytes come in turn, each from its bit 7 down. -/
def sigRank (mot : Bool) (q : Nat) : Nat := if mot then 8 * (q / 8) + (7 - q % 8) else q

theorem sigRank_next (mot : Bool) (q : Nat) : sigRank mot (if mot then nextMot q else q + 1) = sigRank mot q + 1 := by
  cases mot with
  | false => rfl
  | true =>
    simp only [sigRank, nextMot, if_true, bne_iff_ne]
    split <;> omega

theorem sigRank_le_of_mem {mot : Bool} {n p q : Nat} (h : q ∈ sigPositions mot n p) : sigRank mot p ≤ sigRank mot q := by
  induction n generalizing p with
  | zero => cases h
  | succ n ih =>
    rcases List.mem_cons.mp h with rfl | h
    · exact Nat.le_refl _
    · have hle := ih h
      rw [sigRank_next] at hle
      omega

theorem nodup_sigPositions (mot : Bool) (n p : Nat) : (sigPositions mot n p).Nodup := by
  induction n generalizing p with
  | zero => exact List.nodup_nil
  | succ n ih =>
    refine List.nodup_cons.mpr ⟨fun h => ?_, ih _⟩
    have hle := sigRank_le_of_mem h
    rw [sigRank_next] at hle
    omega

theorem length_sigPositions (mot : Bool) (n p : Nat) : (sigPositions mot n p).length = n := by
  induction n generalizing p with
  | zero => rfl
  | succ n ih => exact congrArg (· + 1) (ih _)

/-- A field of `n` bits names `n` positions. -/
@[simp] theorem length_sigBits (mot : Bool) (p n : Nat) : (sigBits mot p n).length = n := by
  cases mot with
  | false => exact length_sigPositions false n p
  | true => exact List.length_reverse.trans (length_sigPositions true n p)

/-- A field names no position twice. -/
theorem nodup_sigBits (mot : Bool) (p n : Nat) : (sigBits mot p n).Nodup := by
  cases mot with
  | false => exact nodup_sigPositions false n p
  | true => exact List.pairwise_reverse.mpr ((nodup_sigPositions true n p).imp Ne.symm)

/-! ### Writing and reading at positions -/

theorem bit_scatter_of_notMem {q : Nat} {l : List Nat} (h : q ∉ l) (x v : Nat) : bit (scatter x v l) q = bit x q := by
  induction l generalizing x v with
  | nil => rfl
  | cons p l ih =>
    obtain ⟨hp, hl⟩ := not_or.mp (mt List.mem_cons.mpr h)
    exact (ih hl _ _).trans (bit_setBit_ne _ _ _ _ (Ne.symm hp))

theorem gather_congr {x y : Nat} {l : List Nat} (h : ∀ q ∈ l, bit x q = bit y q) : gather x l = gather y l := by
  induction l with
  | nil => rfl
  | cons p l ih =>
    rw [gather, gather, h p List.mem_cons_self, ih (fun q hq => h q (List.mem_cons_of_mem p hq))]

/-- What is written at distinct positions reads back modulo 2 to their number. -/
theorem gather_scatter {l : List Nat} (h : l.Nodup) (x v : Nat) : gather (scatter x v l) l = v % 2 ^ l.length := by
  induction l generalizing x v with
  | nil => exact (Nat.mod_one v).symm
  | cons p l ih =>
    obtain ⟨hp, hl⟩ := List.nodup_cons.mp h
    have hlow : b2n (v % 2 == 1) = v % 2 := by
      rcases Nat.mod_two_eq_zero_or_one v with h2 | h2 <;> rw [h2] <;> rfl
    calc gather (scatter x v (p :: l)) (p :: l)
        = v % 2 + 2 * (v / 2 % 2 ^ l.length) := by
          rw [gather, scatter, ih hl, bit_scatter_of_notMem hp, bit_setBit_same, hlow]
      _ = v % 2 ^ (p :: l).length := by rw [List.length_cons, Nat.pow_succ', Nat.mod_mul]

theorem gather_scatter_sigBits (mot : Bool) (p n x v : Nat) : gather (scatter x v (sigBits mot p n)) (sigBits mot p n) = v % 2 ^ n := by
  rw [gather_scatter (nodup_sigBits mot p n), length_sigBits]

/-! ### Reads through ECC (R130, R187) -/

/-- What a read finds is the stored entry, and the tables stay as they were. -/
theorem entryRead_found {d d1 : Dev} {t c i x : Nat} (h : d.entryRead t c i = (d1, some x)) : x = d.tget t c i ∧ d1.tbl = d.tbl := by
  unfold Dev.entryRead at h
  split at h
  · cases h
  · split at h <;> cases h
    · exact ⟨rfl, inc_tbl _ _⟩
    · exact ⟨rfl, rfl⟩

@[simp] theorem steTouch_tbl (d : Dev) (m i : Nat) : (d.steTouch m i).tbl = d.tbl := by
  unfold Dev.steTouch
  dsimp only
  split
  · exact (away_faultCapture _ _ _ _ (Away.refl d)).tbl
  · split
    · exact inc_tbl _ _
    · rfl

theorem imgBits_of_tbl {d e : Dev} (h : e.tbl = d.tbl) (i : Nat) : e.imgBits i = d.imgBits i := by
  unfold Dev.imgBits Dev.tget
  rw [h]

@[simp] theorem imgBits_setImgBits (d : Dev) (i v : Nat) : (d.setImgBits i v).imgBits i = v := tget_tset_same _ _ _ _ _

/-! ### A route's write (R170 to R172) -/

/-- Route `r` leaves bits `y` in its image, which held `x`; the image is named where TRIGGER is set and a bit changed. -/
def Dev.imgStored (d : Dev) (r x y : Nat) : Dev × Option Nat :=
  if y == x then (d, none) else (d.setImgBits (sgTarget r) y, if sgTrigger r then some (sgTarget r) else none)

theorem imgStored_same (d : Dev) (r x : Nat) : d.imgStored r x x = (d, none) := if_pos (beq_self_eq_true x)

theorem imgStored_changed (d : Dev) (r : Nat) {x y : Nat} (h : y ≠ x) :
    d.imgStored r x y = (d.setImgBits (sgTarget r) y, if sgTrigger r then some (sgTarget r) else none) := if_neg (by simpa using h)

theorem imgStored_regs (d : Dev) (r x y : Nat) : (d.imgStored r x y).1.regs = d.regs := by
  unfold Dev.imgStored
  split <;> rfl

theorem imgStored_hostMem (d : Dev) (r x y : Nat) : (d.imgStored r x y).1.hostMem = d.hostMem := by
  unfold Dev.imgStored
  split <;> rfl

theorem imgBits_imgStored {d : Dev} {r x : Nat} (hx : d.imgBits (sgTarget r) = x) (y : Nat) :
    (d.imgStored r x y).1.imgBits (sgTarget r) = y := by
  by_cases hy : y = x
  · rw [hy, imgStored_same, hx]
  · rw [imgStored_changed d r hy, imgBits_setImgBits]

section
variable {d d1 : Dev} {r : Nat} (hp : sgProfEn r = false)
include hp

/-- A route without a profile writes the value that it is given. -/
theorem sigWrite_plain {x : Nat} (v : Nat) (hr : d.readImg (sgTarget r) = (d1, some x)) :
    d.sigWrite r (some v) = d1.imgStored r x (scatter x v (sigBits (sgDstMot r) (sgDst r) (sgLen r))) := by
  unfold Dev.sigWrite
  simp only [hp, hr, Bool.false_eq_true, if_false, Bool.false_and]
  rfl

theorem sigWrite_unread (v : Option Nat) (hr : d.readImg (sgTarget r) = (d1, none)) : d.sigWrite r v = (d1, none) := by
  unfold Dev.sigWrite
  simp only [hp, hr, Bool.false_eq_true, if_false]

end

/-- The bits of route `r`'s image at a timeout, before the valid bit: with HOLD as they are, else with the default (R172). -/
def sigDefaulted (r pr x : Nat) : Nat :=
  if suHold pr then x else scatter x (suDefault pr % 2 ^ sgLen r) (sigBits (sgDstMot r) (sgDst r) (sgLen r))

theorem gather_sigDefaulted {pr : Nat} (r x : Nat) (h : suHold pr = false) :
    gather (sigDefaulted r pr x) (sigBits (sgDstMot r) (sgDst r) (sgLen r)) = suDefault pr % 2 ^ sgLen r := by
  rw [sigDefaulted, h, if_neg Bool.false_ne_true, gather_scatter_sigBits, Nat.mod_mod]

/-- A timeout writes the default, unless the profile holds, and the valid bit with the profile's polarity. -/
theorem sigWrite_timeout {d d1 : Dev} {r pr x : Nat} (hp : sgProfEn r = true) (hpr : pr = d.steEnt 1 (sgProf r))
    (hr : (d.steTouch 1 (sgProf r)).readImg (sgTarget r) = (d1, some x)) (hv : suVbitEn pr = true) (hb : suVbit pr < imgWidth (sgTarget r)) :
    d.sigWrite r none = d1.imgStored r x (setBit (sigDefaulted r pr x) (suVbit pr) (suPol pr)) := by
  subst hpr
  unfold Dev.sigWrite sigDefaulted
  simp only [hp, hr, hv, hb, if_true, Bool.and_self, decide_true, Bool.true_beq]
  cases suHold (d.steEnt 1 (sgProf r)) <;> rfl

/-! ### The obligation -/

/-- Settles O17, from the positions of a field and from what a route stores. -/
theorem signalPlacement : Obligations.SignalPlacement := by
  refine ⟨fun mot p n x v => ?positions, ?plain, ?unread, ?timeout⟩
  case positions =>
    exact ⟨gather_scatter_sigBits mot p n x v, length_sigBits mot p n, nodup_sigBits mot p n, fun q hq => bit_scatter_of_notMem hq x v⟩
  case plain =>
    rintro d d1 r v i x y rfl hp hr rfl
    obtain ⟨hx, htbl⟩ := entryRead_found hr
    have hbits : d1.imgBits (sgTarget r) = x := (imgBits_of_tbl htbl _).trans hx.symm
    rw [sigWrite_plain hp v hr]
    exact ⟨hx, fun hy => by rw [hy, imgStored_same], imgStored_changed d1 r, imgBits_imgStored hbits _, imgStored_regs _ _ _ _,
      imgStored_hostMem _ _ _ _⟩
  case unread =>
    rintro d d1 r v i rfl hp hr
    exact sigWrite_unread hp (some v) hr
  case timeout =>
    rintro d r i pr b rfl hp hsome hpr rfl hout hv hb
    obtain ⟨x, hx⟩ := Option.isSome_iff_exists.mp hsome
    have hr : (d.steTouch 1 (sgProf r)).readImg (sgTarget r) = (_, some x) := Prod.ext rfl hx
    obtain ⟨hread, htbl⟩ := entryRead_found hr
    have hold : x = d.imgBits (sgTarget r) := hread.trans (imgBits_of_tbl (steTouch_tbl d 1 (sgProf r)) _)
    rw [sigWrite_timeout hp hpr hr hv hb, imgBits_imgStored ((imgBits_of_tbl htbl _).trans hread.symm)]
    refine ⟨bit_setBit_same _ _ _, fun hh q hq => ?held, fun hh => ?default⟩
    case held => rw [bit_setBit_ne _ _ _ _ (Ne.symm hq), sigDefaulted, hh, if_pos rfl, hold]
    case default =>
      rw [← gather_sigDefaulted r x hh]
      exact gather_congr fun q hq => bit_setBit_ne _ _ _ _ fun h => hout (h ▸ hq)

end Sys2Proof.Machine
end

section
/-!
PROOF. What the signal transplant engine does of itself: routes, monitors, releases, intake frames, containers and events (R167, R170 to
R174, R180, R185, R187): one rule per way a command can go, then the statement assembled from them.
-/
namespace Sys2Proof.Machine

/-! ### Signal routes (R170) -/

section
variable {d d0 : Dev} {x : SigJob} {l : List SigJob} (h : d.ste.sigs = x :: l) (h0 : d0 = { d with ste := { d.ste with sigs := l } })
include h h0

theorem sigNext_off (hr : d0.steRuns = false) : d.sigNext = d0 := by
  subst h0
  unfold Dev.sigNext
  rw [h]
  exact if_pos (by simp [hr])

/-- The routes of the frame run, then the triggers that they name. -/
theorem sigNext_runs (hr : d0.steRuns = true) :
    d.sigNext = (d0.sigRun x.data x.count x.first []).1.triggerAll (d0.sigRun x.data x.count x.first []).2 := by
  subst h0
  unfold Dev.sigNext
  rw [h]
  exact if_neg (by simp [hr])

end

/-! ### Monitors (R172) -/

theorem monTimeout_idle {d : Dev} {m : Nat} (h : SMap.get d.ste.mons none m = none ∨ d.steRuns = false) : d.monTimeout m = d := by
  unfold Dev.monTimeout
  split
  · rfl
  · next hm => exact if_pos (by simpa [hm] using h)

/-- Monitor `m`, refreshed at `last` by a frame of entry `e`, expires: the instant is reached, its bit is set, the timeout counts. -/
def Dev.monExpired (d : Dev) (m last e : Nat) : Dev :=
  let d0 := d.reach (last + rtMonMs e * msCyc)
  (d0.tset (steMem 7) 0 m (setBit (d0.tget (steMem 7) 0 m) 33 true)).inc F.STE_MON_TIMEOUT_COUNT

theorem monExpired_count (d : Dev) (m last e : Nat) :
    (d.monExpired m last e).get F.STE_MON_TIMEOUT_COUNT = satAdd 32 (d.get F.STE_MON_TIMEOUT_COUNT) 1 := by
  unfold Dev.monExpired
  rw [get_inc_same _ _ (by decide), get_of_regs (tset_regs _ _ _ _ _), get_reach_ne _ _ _ (by decide)]
  rfl

theorem monExpired_bit (d : Dev) (m last e : Nat) : bit ((d.monExpired m last e).tget (steMem 7) 0 m) 33 = true := by
  unfold Dev.monExpired Dev.tget
  rw [inc_tbl]
  exact (congrArg (bit · 33) (tget_tset_same _ _ _ _ _)).trans (bit_setBit_same _ _ _)

section
variable {d da : Dev} {m last idx e : Nat} {ent : Option Nat} (hm : SMap.get d.ste.mons none m = some (last, idx)) (hr : d.steRuns = true)
  (he : (d.steTouch 7 m).entryRead 4 0 idx = (da, ent)) (hent : e = ent.getD 0)
include hm hr he hent

/-- A monitor that its entry does not arm any more, or that has timed out before, does nothing. -/
theorem monTimeout_unarmed (h : rtValid e = false ∨ rtMonEn e = false ∨ rtMon e ≠ m ∨ bit (da.steEnt 7 m) 32 = false
    ∨ bit (da.steEnt 7 m) 33 = true) : d.monTimeout m = da := by
  subst hent
  unfold Dev.monTimeout
  simp only [hm, hr, he]
  exact (if_neg (by simp)).trans (if_pos (by simpa [or_assoc] using h))

/-- The routes' substitutions run, then the triggers that they name. -/
theorem monTimeout_expires (hv : rtValid e = true) (hen : rtMonEn e = true) (hmon : rtMon e = m) (harm : bit (da.steEnt 7 m) 32 = true)
    (hout : bit (da.steEnt 7 m) 33 = false) : d.monTimeout m
      = ((da.monExpired m last e).sigTimeout (rtSigCount e) (rtSigFirst e) []).1.triggerAll
        ((da.monExpired m last e).sigTimeout (rtSigCount e) (rtSigFirst e) []).2 := by
  subst hent
  unfold Dev.monTimeout
  simp only [hm, hr, he]
  exact (if_neg (by simp)).trans (if_neg (by simp [hv, hen, hmon, harm, hout]))

end

/-! ### Cyclic and triggered releases (R174) -/

theorem cyclic_held {d : Dev} {i : Nat} (h : d.flag F.STE_CTRL_CYC_EN = false ∨ d.steRuns = false) : d.cyclic i = d := by
  unfold Dev.cyclic
  rcases h with h | h <;> simp [h]

section
variable {d : Dev} {i : Nat} (hf : d.flag F.STE_CTRL_CYC_EN = true) (hr : d.steRuns = true)
include hf hr

theorem cyclic_unfit (h : imValid (d.steEnt 0 i) = false ∨ imMode (d.steEnt 0 i) < 2) : d.cyclic i = d.steTouch 0 i := by
  unfold Dev.cyclic
  simp only [hf, hr, Bool.and_self, if_true]
  exact if_pos (by simpa using h)

/-- The image is released at its next instant, once. -/
theorem cyclic_releases {d0 d1 : Dev} {e first due : Nat} (he : e = d.steEnt 0 i) (hv : imValid e = true) (hm : 2 ≤ imMode e)
    (h0 : d0 = d.steTouch 0 i)
    (hfirst : first = if d0.dtime = 0 ∧ imPhase e = 0 then 0 else nextCyclic (imPeriod e) (imPhase e) (d0.dtime - 1))
    (hdue : due = if (d0.image i).cyc = some first ∨ d0.time.stepAt = some first then nextCyclic (imPeriod e) (imPhase e) first else first)
    (h1 : d1 = d0.reachDtime due) : d.cyclic i = (d1.setImage i { d1.image i with cyc := some due }).release i true := by
  subst h1 hdue hfirst h0 he
  have hfit : decide (imMode (d.steEnt 0 i) < 2) = false := decide_eq_false (Nat.not_lt.mpr hm)
  unfold Dev.cyclic
  simp only [hf, hr, Bool.and_self, if_true]
  refine (if_neg (by simp only [hv, hfit, Bool.not_true, Bool.or_self, Bool.false_eq_true, not_false_eq_true])).trans ?_
  simp only [Bool.and_eq_true, Bool.or_eq_true, beq_iff_eq]

end

theorem gapEnd_idle {d : Dev} {i : Nat} (h : (d.image i).pend = false ∨ d.steRuns = false) : d.gapEnd i = d := by
  unfold Dev.gapEnd
  exact if_pos (by simpa using h)

section
variable {d : Dev} {i : Nat} (hp : (d.image i).pend = true) (hr : d.steRuns = true)
include hp hr

/-- A pending trigger releases its image when the gap after the last release ends. -/
theorem gapEnd_after {t : Nat} (hl : (d.image i).last = some t) :
    d.gapEnd i = (d.reach (t + imGap (d.steEnt 0 i) * msCyc)).release i false := by
  unfold Dev.gapEnd
  exact (if_neg (by simp [hp, hr])).trans (by rw [hl])

theorem gapEnd_first (hl : (d.image i).last = none) : d.gapEnd i = d.release i false := by
  unfold Dev.gapEnd
  exact (if_neg (by simp [hp, hr])).trans (by rw [hl])

end

/-! ### Intake frames (R167) -/

/-- What an intake frame carries behind its header. -/
def Intake.body (x : Intake) : List Byte := x.frame.drop ((parseHdr x.frame).off + 2)

/-- The length of the ACF messages of an NTSCF frame, as its header gives it. -/
def ntscfLen (body : List Byte) : Nat := byteAt body 1 % 8 * 256 + byteAt body 2

/-- An intake frame is taken apart by its filter's kind. -/
def Dev.intakeServe (d : Dev) (x : Intake) : Dev :=
  if inKind (d.steEnt 6 x.filter) == 1 then
    if byteAt x.body 0 != 0x82 || byteAt x.body 1 / 16 != 8 || x.body.length < 12 + ntscfLen x.body then d.inc F.STE_DECAP_ERROR_COUNT
    else d.intakeAcf x (ntscfLen x.body + 1) ((x.body.drop 12).take (ntscfLen x.body))
  else
    match byteAt x.body 0 with
    | 1 => if x.body.length < 16 then d.inc F.STE_DECAP_ERROR_COUNT else d.intakePdus x (be16 x.body 6) (x.body.drop 16)
    | 2 => d.intakeXl x x.body
    | _ => d.inc F.STE_DECAP_ERROR_COUNT

section
variable {d d0 : Dev} {x : Intake} {l : List Intake} (h : d.ste.intakes = x :: l) (h0 : d0 = { d with ste := { d.ste with intakes := l } })
include h h0

theorem intakeNext_off (hr : d0.steRuns = false) : d.intakeNext = d0 := by
  subst h0
  unfold Dev.intakeNext
  rw [h]
  exact if_pos (by simp [hr])

theorem intakeNext_serves {e : Dev} (hr : d0.steRuns = true) (hs : d0.intakeServe x = e) :
    d.intakeNext = e.enteredAs x.port d0.fwd.seq x.order := by
  subst h0 hs
  unfold Dev.intakeNext
  rw [h]
  exact if_neg (by simp [hr])

end

section
variable {d : Dev} {x : Intake} (hk : inKind (d.steEnt 6 x.filter) = 1)
include hk

theorem intakeServe_ntscf (hsub : byteAt x.body 0 = 0x82) (hver : byteAt x.body 1 / 16 = 8)
    (hlen : 12 + ntscfLen x.body ≤ x.body.length) :
    d.intakeServe x = d.intakeAcf x (ntscfLen x.body + 1) ((x.body.drop 12).take (ntscfLen x.body)) := by
  unfold Dev.intakeServe
  exact (if_pos (by simpa using hk)).trans (if_neg (by simp [hsub, hver, hlen]))

theorem intakeServe_notNtscf (h : byteAt x.body 0 ≠ 0x82 ∨ byteAt x.body 1 / 16 ≠ 8 ∨ x.body.length < 12 + ntscfLen x.body) :
    d.intakeServe x = d.inc F.STE_DECAP_ERROR_COUNT := by
  unfold Dev.intakeServe
  exact (if_pos (by simpa using hk)).trans (if_pos (by simpa [or_assoc] using h))

end

section
variable {d : Dev} {x : Intake} (hk : inKind (d.steEnt 6 x.filter) ≠ 1)
include hk

theorem intakeServe_container (hb : byteAt x.body 0 = 1) (hl : 16 ≤ x.body.length) :
    d.intakeServe x = d.intakePdus x (be16 x.body 6) (x.body.drop 16) := by
  unfold Dev.intakeServe
  rw [if_neg (by simpa using hk), hb]
  exact if_neg (Nat.not_lt.mpr hl)

theorem intakeServe_short (hb : byteAt x.body 0 = 1) (hl : x.body.length < 16) : d.intakeServe x = d.inc F.STE_DECAP_ERROR_COUNT := by
  unfold Dev.intakeServe
  rw [if_neg (by simpa using hk), hb]
  exact if_pos hl

theorem intakeServe_xl (hb : byteAt x.body 0 = 2) : d.intakeServe x = d.intakeXl x x.body := by
  unfold Dev.intakeServe
  exact (if_neg (by simpa using hk)).trans (by simp only [hb])

theorem intakeServe_unknown (h1 : byteAt x.body 0 ≠ 1) (h2 : byteAt x.body 0 ≠ 2) :
    d.intakeServe x = d.inc F.STE_DECAP_ERROR_COUNT := by
  unfold Dev.intakeServe
  rw [if_neg (by simpa using hk)]
  split
  · exact absurd ‹_› h1
  · exact absurd ‹_› h2
  · rfl

end

/-! ### Containers (R180) -/

theorem holdEnd_closed {d : Dev} {c : Nat} (h : d.cont c = none) : d.holdEnd c = d := by
  unfold Dev.holdEnd
  rw [h]

theorem holdEnd_open {d : Dev} {c : Nat} {k : Cont} (h : d.cont c = some k) :
    d.holdEnd c = ((d.steTouch 5 c).reach (k.since + k.hold * usCyc)).contClose c := by
  unfold Dev.holdEnd
  rw [h]

/-! ### Events (R185) -/

theorem eventRelease_none {d : Dev} (h : d.ste.events.find? d.eventFree = none) : d.eventRelease = d := by
  unfold Dev.eventRelease
  rw [h]

section
variable {d d1 : Dev} {e : SteEvent} (h : d.ste.events.find? d.eventFree = some e)
  (h1 : d1 = { d with ste := { d.ste with events := d.ste.events.erase e } })
include h h1

theorem eventRelease_off (hr : d1.steRuns = false) : d.eventRelease = d1 := by
  subst h1
  unfold Dev.eventRelease
  rw [h]
  exact if_pos (by simp [hr])

variable {d2 : Dev} {c : Nat} (hr : d1.steRuns = true) (hc : c = d1.get F.STE_EVF_CFG_CONTAINER) (h2 : d2 = d1.steTouch 5 c)
include hr hc h2

theorem eventRelease_invalid (hv : coValid (d2.steEnt 5 c) = false) : d.eventRelease = d2.inc F.STE_FORMAT_DROP_COUNT := by
  subst h2 hc h1
  unfold Dev.eventRelease
  rw [h]
  exact (if_neg (by simp [hr])).trans (if_pos (by simp [hv]))

theorem eventRelease_enters (hv : coValid (d2.steEnt 5 c) = true) : d.eventRelease
    = d2.contPdu c (d2.get F.STE_EVF_PDU_ID_ID) e.bytes (d2.beDeadline d2.dtime (coTc (d2.steEnt 5 c))) none 49 0 := by
  subst h2 hc h1
  unfold Dev.eventRelease
  rw [h]
  exact (if_neg (by simp [hr])).trans (if_neg (by simp [hv]))

end

/-! ### The obligation -/

/-- Settles O18, command by command from the rules above. -/
theorem signalEngineSteps : Obligations.SignalEngineSteps := by
  refine ⟨?routes, fun s m hq h => next_settle_of_eq hq (monTimeout_idle h), ?monitor, ?cyclic, ?gap, ?intake, ?hold,
    fun s hq h => next_settle_of_eq hq (eventRelease_none h), ?event⟩
  case routes =>
    exact fun s x l d0 h h0 => ⟨fun hr => next_settle_congr s (sigNext_runs h h0 hr),
      fun hr hq => next_settle_of_flt hq (sigNext_off h h0 hr) (by rw [h0])⟩
  case monitor =>
    intro s m last idx e ent da d0 d1 hm hr he hent
    refine ⟨fun h => next_settle_congr s (monTimeout_unarmed hm hr he hent h), ?expires⟩
    case expires =>
      rintro hv hen hmon harm hout rfl rfl
      exact ⟨next_settle_congr s (monTimeout_expires hm hr he hent hv hen hmon harm hout), monExpired_count da m last e,
        monExpired_bit da m last e⟩
  case cyclic =>
    rintro s i e rfl
    exact ⟨fun hq h => next_settle_of_eq hq (cyclic_held h), fun hf hr h => next_settle_congr s (cyclic_unfit hf hr h),
      fun hv hm hf hr first due d0 d1 h0 hfirst hdue h1 => next_settle_congr s (cyclic_releases hf hr rfl hv hm h0 hfirst hdue h1)⟩
  case gap =>
    exact fun s i => ⟨fun hq h => next_settle_of_eq hq (gapEnd_idle h), fun t hp hr hl => next_settle_congr s (gapEnd_after hp hr hl),
      fun hp hr hl => next_settle_congr s (gapEnd_first hp hr hl)⟩
  case intake =>
    rintro s x l d0 body h h0 rfl
    refine ⟨fun hr hq => next_settle_of_flt hq (intakeNext_off h h0 hr) (by rw [h0]), fun hr hk => ⟨fun hb hl => ?container,
      fun hb hl => ?short, fun hb => ?xl, fun h1 h2 => ?unknown⟩, ?ntscf⟩
    case container => exact next_settle_congr s (intakeNext_serves h h0 hr (intakeServe_container hk hb hl))
    case short => exact next_settle_congr s (intakeNext_serves h h0 hr (intakeServe_short hk hb hl))
    case xl => exact next_settle_congr s (intakeNext_serves h h0 hr (intakeServe_xl hk hb))
    case unknown => exact next_settle_congr s (intakeNext_serves h h0 hr (intakeServe_unknown hk h1 h2))
    case ntscf =>
      rintro n hr hk rfl
      exact ⟨fun hsub hver hlen => next_settle_congr s (intakeNext_serves h h0 hr (intakeServe_ntscf hk hsub hver hlen)),
        fun hbad => next_settle_congr s (intakeNext_serves h h0 hr (intakeServe_notNtscf hk hbad))⟩
  case hold =>
    exact fun s c => ⟨fun hq h => next_settle_of_eq hq (holdEnd_closed h), fun k h => next_settle_congr s (holdEnd_open h)⟩
  case event =>
    rintro s e d1 d2 c x h h1 hc h2 rfl
    exact ⟨fun hr hq => next_settle_of_flt hq (eventRelease_off h h1 hr) (by rw [h1]),
      fun hr hv => next_settle_congr s (eventRelease_invalid h h1 hr hc h2 hv),
      fun hr hv => next_settle_congr s (eventRelease_enters h h1 hr hc h2 hv)⟩

end Sys2Proof.Machine
end

section
/-!
PROOF. Integration, recovery, rate detection and the collision window of a CAN controller, and the two ends of a suspension (R191, R195,
R206, R210, R211): one rule per way a step can go, then the statements assembled from them.
-/
namespace Sys2Proof.Machine

/-! ### A controller beside its registers -/

section
variable (d : Dev) (c : Nat)

@[simp] theorem ctl_setCtl (x : Can) : (d.setCtl c x).ctl c = x := SMap.get_set_same _ _ _ _
@[simp] theorem setCtl_flt (x : Can) : (d.setCtl c x).flt = d.flt := rfl
@[simp] theorem setCtl_fwd (x : Can) : (d.setCtl c x).fwd = d.fwd := rfl
@[simp] theorem setCtl_tbl (x : Can) : (d.setCtl c x).tbl = d.tbl := rfl
@[simp] theorem setCtl_hostMem (x : Can) : (d.setCtl c x).hostMem = d.hostMem := rfl
@[simp] theorem setCtl_time (x : Can) : (d.setCtl c x).time = d.time := rfl
@[simp] theorem ctl_set (f : FieldRef) (v : Nat) : (d.set f v).ctl c = d.ctl c := by unfold Dev.ctl; rw [set_can]

theorem only_setCtl (x : Can) (l : List Nat) : d.regsOnly (d.setCtl c x) l := only_of (only_refl _ _) rfl

end

/-! ### Fields that share no bit -/

/-- Two fields within one word each that share no bit. -/
def FieldRef.apart (f g : FieldRef) : Bool :=
  (f.addr != g.addr || decide (g.lo + g.w ≤ f.lo) || decide (f.lo + f.w ≤ g.lo)) && decide (f.lo + f.w ≤ 32) && decide (g.lo + g.w ≤ 32)

section
variable (d : Dev) {f g : FieldRef} (v : Nat) (h : FieldRef.apart f g = true)
include h

theorem get_set_apart : (d.set f v).get g = d.get g := by
  simp only [FieldRef.apart, Bool.and_eq_true, Bool.or_eq_true, bne_iff_ne, decide_eq_true_eq, or_assoc] at h
  obtain ⟨⟨hne, hf⟩, hg⟩ := h
  exact get_set_ne d f g v hne hf hg

theorem flag_set_apart : (d.set f v).flag g = d.flag g := by unfold Dev.flag; rw [get_set_apart d v h]

end

/-- A one-bit field that was set reads 1. -/
theorem flag_set_one (d : Dev) (f : FieldRef) (hw : f.w = 1) (hl : f.lo + 1 ≤ 64) : (d.set f 1).flag f = true :=
  flag_set_same d f true hw hl

/-- A one-bit field that was cleared reads 0. -/
theorem flag_set_zero (d : Dev) (f : FieldRef) (hw : f.w = 1) (hl : f.lo + 1 ≤ 64) : (d.set f 0).flag f = false :=
  flag_set_same d f false hw hl

/-! ### Integration (R191) -/

theorem canIntegrated_idle {d : Dev} {c : Nat} (h : (d.ctl c).joining = false ∨ d.canInit c = true) : d.canIntegrated c = d := by
  unfold Dev.canIntegrated
  exact if_neg (by rcases h with h | h <;> simp [h])

theorem canIntegrated_joins {d : Dev} {c : Nat} (hj : (d.ctl c).joining = true) (hi : d.canInit c = false) :
    d.canIntegrated c = (d.setCtl c { d.ctl c with joining := false }).set (F.CAN_STATUS_IDLE c) 1 := by
  unfold Dev.canIntegrated
  exact if_pos (by simp [hj, hi])

/-! ### Recovery (R206) -/

/-- A controller whose recovery has ended: its counters, its state and RECOVER are at 0, its bus is idle. -/
def Dev.canRestored (d : Dev) (c : Nat) : Dev :=
  let d1 := (((d.set (F.CAN_ERRCNT_TEC c) 0).set (F.CAN_ERRCNT_REC c) 0).set (F.CAN_ERRCNT_RP c) 0).set (F.CAN_STATUS_STATE c) 0
  ((d1.set (F.CAN_STATUS_RECOVERING c) 0).set (F.CAN_CTRL_RECOVER c) 0).set (F.CAN_STATUS_IDLE c) 1

theorem canRecovered_ends {d : Dev} {c : Nat} (h2 : d.get (F.CAN_STATUS_STATE c) = 2) (hr : d.flag (F.CAN_STATUS_RECOVERING c) = true)
    (hi : d.canInit c = false) : d.canRecovered c = ((d.canRestored c).countEvent (blkCan c) 0).steEvent 0x03 (20 + c) 0 := by
  unfold Dev.canRecovered
  exact if_pos (by simp [h2, hr, hi])

theorem canRecovered_idle {d : Dev} {c : Nat}
    (h : d.get (F.CAN_STATUS_STATE c) ≠ 2 ∨ d.flag (F.CAN_STATUS_RECOVERING c) = false ∨ d.canInit c = true) : d.canRecovered c = d := by
  unfold Dev.canRecovered
  exact if_neg (by rcases h with h | h | h <;> simp [h])

theorem canRestored_errcnt (d : Dev) (c : Fin 20) : (d.canRestored c).get (F.CAN_ERRCNT_TEC c) = 0 ∧ (d.canRestored c).get (F.CAN_ERRCNT_REC c) = 0
    ∧ (d.canRestored c).get (F.CAN_ERRCNT_RP c) = 0 := by
  unfold Dev.canRestored
  refine ⟨?tec, ?rec, ?rp⟩ <;> simp (disch := decide +revert) only [get_set_apart, get_set_same, Nat.zero_mod]

theorem canRestored_status (d : Dev) (c : Fin 20) : (d.canRestored c).get (F.CAN_STATUS_STATE c) = 0 ∧ (d.canRestored c).flag (F.CAN_STATUS_RECOVERING c) = false
    ∧ (d.canRestored c).flag (F.CAN_CTRL_RECOVER c) = false ∧ (d.canRestored c).flag (F.CAN_STATUS_IDLE c) = true := by
  unfold Dev.canRestored
  refine ⟨?state, ?recovering, ?recover, ?idle⟩
  case state => simp (disch := decide +revert) only [get_set_apart, get_set_same, Nat.zero_mod]
  case recovering => simp (disch := decide +revert) only [flag_set_apart, flag_set_zero]
  case recover => simp (disch := decide +revert) only [flag_set_apart, flag_set_zero]
  case idle => exact flag_set_one _ _ rfl (of_decide_eq_true rfl)

theorem only_canRestored (d : Dev) (c : Fin 20) : d.regsOnly (d.canRestored c) [R.CAN_ERRCNT c, R.CAN_STATUS c, R.CAN_CTRL c] := by
  unfold Dev.canRestored
  iterate 7 refine only_set _ _ (by simp [F.CAN_ERRCNT_TEC, F.CAN_ERRCNT_REC, F.CAN_ERRCNT_RP, F.CAN_STATUS_STATE, F.CAN_STATUS_RECOVERING,
    F.CAN_CTRL_RECOVER, F.CAN_STATUS_IDLE]) (of_decide_eq_true rfl) ?_
  exact only_refl _ _

/-! ### Rate detection (R195) -/

theorem rateDwell_searching {d : Dev} {c : Nat} (h : d.rateSearching c = true) :
    d.rateDwell c = (d.reach ((d.ctl c).dwell + atLeastOne (d.get (F.CAN_RD_CFG_DWELL_MS c)) * msCyc)).rateNext c := if_pos h

theorem rateDwell_idle {d : Dev} {c : Nat} (h : d.rateSearching c = false) : d.rateDwell c = d := if_neg (by simp [h])

/-! ### The collision window (R210) -/

theorem trackExpire_empty {d : Dev} {c k : Nat} (h : SMap.get (d.ctl c).hits [] k = []) : d.trackExpire c k = d := by
  unfold Dev.trackExpire
  rw [h]

/-- The tracker's collisions are those of `l`. -/
def Dev.trackHits (d : Dev) (c k : Nat) (l : List Nat) : Dev :=
  (d.setCtl c { d.ctl c with hits := SMap.set (d.ctl c).hits [] k l }).set (F.CAN_TRACK_W1_COUNT c k) (min 255 l.length)

theorem trackExpire_oldest {d : Dev} {c k t : Nat} {l : List Nat} (h : SMap.get (d.ctl c).hits [] k = t :: l) :
    d.trackExpire c k = (d.reach (t + atLeastOne (d.get (F.CAN_COLL_CFG_WINDOW_MS c)) * msCyc)).trackHits c k l := by
  unfold Dev.trackExpire
  rw [h]
  rfl

section
variable (d : Dev) (c k : Nat) (l : List Nat)

theorem trackHits_hits : SMap.get ((d.trackHits c k l).ctl c).hits [] k = l := by
  unfold Dev.trackHits
  rw [ctl_set, ctl_setCtl]
  exact SMap.get_set_same _ _ _ _

theorem trackHits_count : (d.trackHits c k l).get (F.CAN_TRACK_W1_COUNT c k) = min 255 l.length := by
  have hlt : min 255 l.length < 2 ^ 8 := by omega
  exact (get_set_same _ _ _ (of_decide_eq_true rfl)).trans (Nat.mod_eq_of_lt hlt)

theorem only_trackHits : d.regsOnly (d.trackHits c k l) [(F.CAN_TRACK_W1_COUNT c k).addr] :=
  only_set _ _ (List.mem_singleton_self _) (of_decide_eq_true rfl) (only_setCtl _ _ _ _)

theorem trackHits_flt : (d.trackHits c k l).flt = d.flt := by unfold Dev.trackHits; rw [set_flt, setCtl_flt]

end

/-! ### The end of a suspension (R211) -/

/-- The suspension of tracker `k` is over from `d` to `e`: its count is 0, its collisions are forgotten, and no register but the
tracker's, no frame, no table and no host memory changed. -/
def Dev.suspensionOver (d e : Dev) (c k : Nat) : Prop :=
  e.flag (F.CAN_TRACK_SUSPENDED c k) = false ∧ e.get (F.CAN_TRACK_W1_COUNT c k) = 0
    ∧ SMap.get (e.ctl c).hits [] k = [] ∧ SMap.get (e.ctl c).susp none k = none
    ∧ d.regsOnly e [R.CAN_TRACK c k, R.CAN_TRACK c k + 4] ∧ e.fwd = d.fwd ∧ e.tbl = d.tbl ∧ e.hostMem = d.hostMem

section
variable {d : Dev} {c k : Nat} (h : d.flag (F.CAN_TRACK_SUSPENDED c k) = true)
include h

theorem suspendEnd_suspended : d.suspendEnd c k
    = ((d.setCtl c { d.ctl c with hits := SMap.set (d.ctl c).hits [] k [], susp := SMap.set (d.ctl c).susp none k none }).set
      (F.CAN_TRACK_SUSPENDED c k) 0).set (F.CAN_TRACK_W1_COUNT c k) 0 := by
  unfold Dev.suspendEnd
  exact if_neg (by simp [h])

theorem suspendEnd_over : d.suspensionOver (d.suspendEnd c k) c k := by
  have hne : (F.CAN_TRACK_W1_COUNT c k).addr ≠ (F.CAN_TRACK_SUSPENDED c k).addr := by
    simp only [F.CAN_TRACK_W1_COUNT, F.CAN_TRACK_SUSPENDED, R.CAN_TRACK_W1, R.CAN_TRACK]; omega
  rw [suspendEnd_suspended h]
  refine ⟨?suspended, get_set_same _ _ _ (of_decide_eq_true rfl), ?hits, ?susp, ?only, by simp, by simp, by simp⟩
  case suspended =>
    unfold Dev.flag
    rw [get_set_ne _ _ _ _ (.inl hne) (of_decide_eq_true rfl) (of_decide_eq_true rfl)]
    exact flag_set_zero _ _ rfl (of_decide_eq_true rfl)
  case hits => simp
  case susp => simp
  case only =>
    exact only_set _ _ (by simp [F.CAN_TRACK_W1_COUNT, R.CAN_TRACK_W1, R.CAN_TRACK]; omega) (of_decide_eq_true rfl)
      (only_set _ _ (by simp [F.CAN_TRACK_SUSPENDED]) (of_decide_eq_true rfl) (only_setCtl _ _ _ _))

theorem suspendEnd_flt : (d.suspendEnd c k).flt = d.flt := by rw [suspendEnd_suspended h]; simp
theorem suspendEnd_time : (d.suspendEnd c k).time = d.time := by rw [suspendEnd_suspended h]; simp

end

theorem suspendTimeout_never {d : Dev} {c k : Nat} (h : d.get (F.CAN_COLL_REL_RELEASE_S c) = 0) : d.suspendTimeout c k = d := by
  unfold Dev.suspendTimeout
  simp only [h]
  split <;> rfl

theorem suspendTimeout_since {d : Dev} {c k t : Nat} (ht : SMap.get (d.ctl c).susp none k = some t)
    (h : d.get (F.CAN_COLL_REL_RELEASE_S c) ≠ 0) :
    d.suspendTimeout c k = (d.reach (t + d.get (F.CAN_COLL_REL_RELEASE_S c) * sCyc)).suspendEnd c k := by
  unfold Dev.suspendTimeout
  simp only [ht]
  exact if_neg (by simpa using h)

/-! ### The host's write (R211) -/

/-- A tracker's register lies on a CAN page, outside the PWR window, and is no word of a wider value. -/
theorem canTrack_row (c : Fin 20) (k : Fin 8) : oneWord (R.CAN_TRACK c k) = true ∧ inPwr (R.CAN_TRACK c k) = false
    ∧ faultBlockOf (R.CAN_TRACK c k) = none ∧ 6 ≤ pageBlock (R.CAN_TRACK c k) ∧ pageBlock (R.CAN_TRACK c k) < 26 := by
  have h : ∀ (c : Fin 20) (k : Fin 8), oneWord (R.CAN_TRACK c k) = true ∧ inPwr (R.CAN_TRACK c k) = false
      ∧ faultBlockOf (R.CAN_TRACK c k) = none ∧ 6 ≤ pageBlock (R.CAN_TRACK c k) ∧ pageBlock (R.CAN_TRACK c k) < 26 := by decide +kernel
  exact h c k

theorem regDef_of_oneWord {a : Nat} (h : oneWord a = true) : ∃ r, regDef a = some r := by
  unfold oneWord at h
  cases hr : regDef a with
  | none => simp [hr] at h
  | some r => exact ⟨r, rfl⟩

/-- A word written to a tracker ends its suspension where bit 31 is 1. -/
theorem putCan_track (d : Dev) (r : RegDef) (m v : Nat) (c : Fin 20) (k : Fin 8) :
    d.putCan r m (R.CAN_TRACK c k) v = if bit v 31 then d.suspendEnd c k else d := by
  have hc : (R.CAN_TRACK c k - 0x800000) / 0x1000 = c.val := by simp only [R.CAN_TRACK]; omega
  have ho : (R.CAN_TRACK c k - 0x800000) % 0x1000 = 0x120 + 8 * k.val := by simp only [R.CAN_TRACK]; omega
  have hk : regIdx (R.CAN_TRACK c 0) 8 8 (R.CAN_TRACK c k) = some k.val := by
    have hd : (R.CAN_TRACK c k - R.CAN_TRACK c 0) = 8 * k.val := by simp only [R.CAN_TRACK]; omega
    unfold regIdx
    rw [hd, if_pos ⟨by simp only [R.CAN_TRACK]; omega, by omega, by omega⟩]
    exact congrArg some (by omega)
  have hcfg : [0x10, 0x14, 0x18, 0x1C, 0x20, 0x24].contains (0x120 + 8 * k.val) = false := by decide +revert
  unfold Dev.putCan
  simp only [hc, ho, hcfg, hk]
  exact if_neg (by simp)

/-- Outside the PWR window a write changes nothing but what the bus holds before it reaches its register. -/
theorem beforeWrite_bus (d : Dev) (m : Nat) {a : Nat} (h : inPwr a = false) : d.beforeWrite m a = { d with bus := (d.beforeWrite m a).bus } := by
  have hv : d.viaInd m a = { d with bus := (d.viaInd m a).bus } := by unfold Dev.viaInd; split <;> rfl
  rw [beforeWrite_of d m a h, numberWrite_of _ _ h]
  rw [hv]

/-- The host's write of 1 to SUSPENDED is the end of a suspension, on the device as the write finds it. -/
theorem write_canTrack {d : Dev} {m : Nat} {c : Fin 20} {k : Fin 8} (ho : d.opens m (R.CAN_TRACK c k)) :
    d.write m (R.CAN_TRACK c k) 0x80000000 = (d.beforeWrite m (R.CAN_TRACK c k)).suspendEnd c k := by
  obtain ⟨hone, -, hf, hp⟩ := canTrack_row c k
  obtain ⟨r, hr⟩ := regDef_of_oneWord hone
  rw [write_oneWord ho hr hone (by decide), regPut_can _ _ _ _ _ hf hp, putCan_track]
  exact if_pos (by decide)

/-! ### The obligations -/

/-- Settles O19, step by step from the rules above. -/
theorem canModeSteps : Obligations.CanModeSteps := by
  refine ⟨?integrated, ?recovered, fun s c hq h => next_settle_of_eq hq (canRecovered_idle h), ?dwell, ?window⟩
  case integrated =>
    refine fun s c hq => ⟨fun hj hi => ?_, fun h => next_settle_of_eq hq (canIntegrated_idle h)⟩
    exact ⟨_, next_settle_of_flt hq (canIntegrated_joins hj hi) (by simp), by simp, flag_set_one _ _ rfl (of_decide_eq_true rfl),
      only_set _ _ (List.mem_singleton_self _) (of_decide_eq_true rfl) (only_setCtl _ _ _ _)⟩
  case recovered =>
    intro s c h2 hr hi
    obtain ⟨htec, hrec, hrp⟩ := canRestored_errcnt s.dev c
    obtain ⟨hstate, hrecovering, hrecover, hidle⟩ := canRestored_status s.dev c
    exact ⟨s.dev.canRestored c, next_settle_congr s (canRecovered_ends h2 hr hi), htec, hrec, hrp, hstate, hrecovering, hrecover, hidle,
      only_canRestored s.dev c⟩
  case dwell =>
    exact fun s c => ⟨fun h => next_settle_congr s (rateDwell_searching h), fun h hq => next_settle_of_eq hq (rateDwell_idle h)⟩
  case window =>
    refine fun s c k hq => ⟨fun h => next_settle_of_eq hq (trackExpire_empty h), ?_⟩
    rintro t l d1 h rfl
    exact ⟨_, next_settle_of_flt hq (trackExpire_oldest h) (by rw [trackHits_flt, reach_flt]), trackHits_hits _ _ _ _,
      trackHits_count _ _ _ _, only_trackHits _ _ _ _⟩

/-- Settles O20: both ends of a suspension are the same (`suspendEnd_over`), the host's at once, the other at its instant. -/
theorem suspensionEnds : Obligations.SuspensionEnds := by
  refine ⟨?host, ?timeout, fun s c k hq h => next_settle_of_eq hq (suspendTimeout_never h)⟩
  case host =>
    intro s m c k hq ho h
    obtain ⟨-, hp, -⟩ := canTrack_row c k
    have hb := beforeWrite_bus s.dev m hp
    generalize hd : s.dev.beforeWrite m (R.CAN_TRACK c k) = b at hb
    have hsusp : b.flag (F.CAN_TRACK_SUSPENDED c k) = true := by rw [hb]; exact h
    obtain ⟨hflag, hcount, hhits, hend, honly, hfwd, htbl, hmem⟩ := suspendEnd_over hsusp
    refine ⟨{ s with dev := b.suspendEnd c k },
      next_settle_of_flt hq ((write_canTrack ho).trans (by rw [hd])) (by rw [suspendEnd_flt hsusp, hb]),
      hflag, hcount, hhits, hend, ?_, by rw [hfwd, hb], by rw [htbl, hb], by rw [hmem, hb]⟩
    exact fun a ha => (honly a ha).trans (by rw [hb]; rfl)
  case timeout =>
    rintro s c k t0 d1 hq h ht hs rfl
    have haddr : (F.CAN_TRACK_SUSPENDED c k).addr ≠ R.TIME_SLEW_CTRL ∧ (F.CAN_TRACK_SUSPENDED c k).addr + 4 ≠ R.TIME_SLEW_CTRL := by
      simp only [F.CAN_TRACK_SUSPENDED, R.CAN_TRACK, R.TIME_SLEW_CTRL]; omega
    generalize hd : s.dev.reach (t0 + s.dev.get (F.CAN_COLL_REL_RELEASE_S c) * sCyc) = d1
    have hsusp : d1.flag (F.CAN_TRACK_SUSPENDED c k) = true := by
      unfold Dev.flag; rw [← hd, get_reach_ne _ _ _ haddr]; exact h
    obtain ⟨hflag, hcount, hhits, hend, honly, hfwd, htbl, hmem⟩ := suspendEnd_over hsusp
    refine ⟨{ s with dev := d1.suspendEnd c k },
      next_settle_of_flt hq ((suspendTimeout_since ht hs).trans (by rw [hd])) (by rw [suspendEnd_flt hsusp, ← hd, reach_flt]),
      hflag, hcount, hhits, hend, honly, by rw [hfwd, ← hd, reach_fwd], by rw [htbl, ← hd, reach_tbl],
      by rw [hmem, ← hd, reach_hostMem], ?_⟩
    show _ ≤ (d1.suspendEnd c k).time.now
    rw [suspendEnd_time hsusp, ← hd, reach_now]
    exact Nat.le_max_right _ _

end Sys2Proof.Machine
end

section
/-!
PROOF. Switching the device to STANDBY (R379) against the interrupts of the power die (R389, R428, R458): where its statement fails.

Entering STANDBY loses the logic die, and then lets the channels under LIMP control follow their pins (R403). A pin that asks for ON
during a load dump is deferred (R389), which is a fault of the channel. LOAD's status and its interrupt enables lie on the power die
and outlive the loss, so this fault makes the interrupt active, and its message marks the host interface that was lost before.
-/
namespace Sys2Proof.Machine

/-- Every domain has power, channel 0 is under LIMP control with its pin high, a load dump defers turn-ons, and LOAD's channel faults
interrupt. -/
def limpDumped : Dev :=
  { Dev.reset with
    regs := [(R.LOADC_LIMP_MAP, 1), (R.LOADC_LIMP_STATUS, 3), (R.LOADC_SUPPLY_STATUS, 1), (R.FLT_FAULT_IE blkLoad, 1),
      (R.SUPV_PD_STATUS, 0x3FFF3FFF)]
    pwr := { PwrSt.init with logicUp := true, inh0 := true, inh1 := true } }

/-- The device as a permitted write of STANDBY by master 0 finds it. -/
def limpDumpedWritten (r : RegDef) : Dev := (limpDumped.beforeWrite 0 R.NM_PWR_CTRL).plain r 0 R.NM_PWR_CTRL 0

theorem limpDumped_opens : limpDumped.opens 0 R.NM_PWR_CTRL := by
  unfold Dev.opens
  decide +kernel

/-- Nothing stands against STANDBY, and with it a message waits at the host interface. -/
theorem limpDumped_standby : ∃ r ∈ regDef R.NM_PWR_CTRL, (limpDumpedWritten r).stores = true
    ∧ (∀ p : Fin 48, (limpDumpedWritten r).segOn p = true → (limpDumpedWritten r).segState p = 4)
    ∧ (limpDumpedWritten r).admitted = [] ∧ (limpDumpedWritten r).host.ops.any (fun (o : Op) => o.ring == 59) = false
    ∧ ((limpDumpedWritten r).enterStandby.ch 0).run = .deferred ∧ (limpDumpedWritten r).enterStandby.host.msixPba = 1 := by
  decide +kernel

/-- Refutes O50: the host interface is not as it starts when STANDBY has been entered. A pin of LIMP control that asks for ON during a
load dump raises LOAD's interrupt after the logic die is lost, and its message waits for vector 0. -/
theorem not_switchRows : ¬ Obligations.SwitchRows := by
  intro h
  unfold Obligations.SwitchRows at h
  obtain ⟨-, -, -, -, -, -, -, -, -, -, -, hstandby, -⟩ := h
  obtain ⟨r, hr, hstores, hasleep, hadmitted, hops, -, hpba⟩ := limpDumped_standby
  obtain ⟨-, -, -, -, -, hhost, -⟩ := hstandby ⟨[], limpDumped⟩ 0 r _ (limpDumpedWritten r) limpDumped_opens hr rfl rfl
    hstores hasleep hadmitted hops
  rw [hhost] at hpba
  exact absurd hpba (by decide)

end Sys2Proof.Machine
end

section
/-!
PROOF. The rate-step agent (R61, R250 to R259, logs 22 and 76): one rule per way each of its commands can go, then the statement
assembled from them.
-/
namespace Sys2Proof.Machine

/-! ### A port beside its registers -/

section
variable (d : Dev) (p : Nat) (x : EthPort)

@[simp] theorem ethPort_setEthPort : (d.setEthPort p x).ethPort p = x := SMap.get_set_same _ _ _ _
@[simp] theorem setEthPort_regs : (d.setEthPort p x).regs = d.regs := rfl
@[simp] theorem setEthPort_flt : (d.setEthPort p x).flt = d.flt := rfl
@[simp] theorem setEthPort_fwd : (d.setEthPort p x).fwd = d.fwd := rfl
@[simp] theorem setEthPort_tbl : (d.setEthPort p x).tbl = d.tbl := rfl
@[simp] theorem reach_ethPort (t : Nat) : (d.reach t).ethPort p = d.ethPort p := by unfold Dev.ethPort; rw [reach_eth]

end

/-! ### LLDPDUs (R251) -/

/-- The LLDPDU of Table ETH-4: the station address as chassis and port, the time to live, and the rate-step TLV (log 22). -/
def Dev.lldpFrame (d : Dev) (p msg seq target reason holdoff : Nat) : List Byte :=
  bytes [0x01, 0x80, 0xC2, 0, 0, 0x0E] ++ leBytes 6 (d.ethAddr p) ++ beBytes 2 0x88CC
    ++ beBytes 2 519 ++ bytes [4] ++ leBytes 6 (d.ethAddr p) ++ beBytes 2 1031 ++ bytes [3] ++ leBytes 6 (d.ethAddr p)
    ++ beBytes 2 1538 ++ beBytes 2 (min 65535 (4 * atLeastOne (d.get (F.ETH_LLDP_TX_S p)) + 1))
    ++ beBytes 2 0xFE10 ++ bytes [0x5C, 0x2E, 0x91, 1, 1, msg] ++ beBytes 2 seq
    ++ bytes [d.get (F.ETH_RATE_CUR p), target, d.ratesOffered p, reason] ++ beBytes 2 holdoff ++ beBytes 2 0 ++ beBytes 2 0

section
variable {d : Dev} {p : Nat} (msg seq target reason holdoff : Nat)

theorem lldpSend_silent (h : d.ethAddr p = 0 ∨ d.mgmtRuns = false) : d.lldpSend p msg seq target reason holdoff = d := by
  unfold Dev.lldpSend
  exact if_pos (by rcases h with h | h <;> simp [h])

theorem lldpSend_sends (ha : d.ethAddr p ≠ 0) (hm : d.mgmtRuns = true) : d.lldpSend p msg seq target reason holdoff
    = (d.setEthPort p { d.ethPort p with lldpAt := some d.now }).originate p (d.beTc p 0)
      (ethMsg (pad60 (d.lldpFrame p msg seq target reason holdoff))) (d.beDeadline d.dtime (d.beTc p 0)) .plain := by
  unfold Dev.lldpSend Dev.lldpFrame
  rw [if_neg (by simp [ha, hm])]
  simp only [List.append_assoc]

end

theorem lldpDue_next {d : Dev} {p t : Nat} (h : (d.ethPort p).lldpAt = some t) :
    d.lldpDue p = (d.reach (t + atLeastOne (d.get (F.ETH_LLDP_TX_S p)) * sCyc)).lldpSend p 0 0 0xFF 0 0 := by
  unfold Dev.lldpDue; rw [h]

theorem lldpDue_first {d : Dev} {p : Nat} (h : (d.ethPort p).lldpAt = none) : d.lldpDue p = d.lldpSend p 0 0 0xFF 0 0 := by
  unfold Dev.lldpDue; rw [h]

theorem lldpReceive_off {d : Dev} (h : d.mgmtRuns = false) : d.lldpReceive = d := if_pos (by simp [h])

theorem lldpReceive_serves {d : Dev} {m : Nat × List Byte} (hr : d.mgmtRuns = true)
    (h : d.fwd.mgmt.find? (fun m => (parseHdr m.2).etype == 0x88CC && decide (m.1 < 12)) = some m) :
    d.lldpReceive = ({ d with fwd := { d.fwd with mgmt := d.fwd.mgmt.erase m } }).lldpTake m.1 m.2 := by
  unfold Dev.lldpReceive
  rw [if_neg (by simp [hr]), h]

/-! ### The partner's time to live (R252) -/

/-- The partner of a port takes no part any more. -/
def Dev.partnerGone (d : Dev) (p : Nat) : Dev :=
  (d.set (F.ETH_STEP_STATUS_PARTNER p) 0).setEthPort p { d.ethPort p with ttlEnd := none }

theorem ttlExpire_none {d : Dev} {p : Nat} (h : (d.ethPort p).ttlEnd = none) : d.ttlExpire p = d := by
  unfold Dev.ttlExpire; rw [h]

theorem ttlExpire_some {d : Dev} {p t : Nat} (h : (d.ethPort p).ttlEnd = some t) : d.ttlExpire p = (d.reach t).partnerGone p := by
  unfold Dev.ttlExpire; rw [h]; rfl

section
variable (d : Dev) (p : Nat)

theorem partnerGone_partner : (d.partnerGone p).flag (F.ETH_STEP_STATUS_PARTNER p) = false :=
  flag_set_zero d _ rfl (of_decide_eq_true rfl)

theorem partnerGone_ttlEnd : ((d.partnerGone p).ethPort p).ttlEnd = none := by unfold Dev.partnerGone; rw [ethPort_setEthPort]
theorem partnerGone_flt : (d.partnerGone p).flt = d.flt := by unfold Dev.partnerGone; simp
theorem partnerGone_fwd : (d.partnerGone p).fwd = d.fwd := by unfold Dev.partnerGone; simp

theorem only_partnerGone : d.regsOnly (d.partnerGone p) [R.ETH_STEP_STATUS p] :=
  only_of (only_set (F.ETH_STEP_STATUS_PARTNER p) 0 (List.mem_singleton_self _) (of_decide_eq_true rfl) (only_refl d _)) rfl

end

/-! ### The utilisation window (R253) -/

section
variable {d d1 : Dev} {p sec : Nat} (hs : sec = atLeastOne (d.get (F.ETH_STEP_WIN_WIN_S p)))
  (h1 : d1 = d.reach ((d.ethPort p).win.2.2 + sec * sCyc))
include hs h1

theorem stepWindow_restarts (h : d1.stepLower p = none ∨ d1.flag (F.ETH_STEP_CFG_AUTO p) = false ∨ d1.stepFree p = false) :
    d.stepWindow p = d1.setEthPort p { d1.ethPort p with win := (0, 0, d1.now) } := by
  subst hs h1
  unfold Dev.stepWindow
  dsimp only
  split
  next r hl => exact if_neg (by rcases h with h | h | h <;> simp_all)
  next => rfl

theorem stepWindow_stages {r : Nat} (hl : d1.stepLower p = some r) (ha : d1.flag (F.ETH_STEP_CFG_AUTO p) = true)
    (hf : d1.stepFree p = true)
    (htx : withinPct (d1.ethPort p).win.1 (sec * 1000) (d1.get (F.ETH_STEP_CFG_DOWN_PCT p)) (rateMbps r) = true)
    (hrx : withinPct (d1.ethPort p).win.2.1 (sec * 1000) (d1.get (F.ETH_STEP_CFG_DOWN_PCT p)) (rateMbps r) = true) :
    d.stepWindow p = ((d1.setEthPort p { d1.ethPort p with win := (0, 0, d1.now) }).set (F.ETH_STEP_STATUS_STATE p) 1).setEthPort p
      { (d1.setEthPort p { d1.ethPort p with win := (0, 0, d1.now) }).ethPort p with target := r } := by
  subst hs h1
  unfold Dev.stepWindow
  simp only [hl]
  exact if_pos (by simp only [ha, hf, htx, hrx, Bool.and_self])

end

/-! ### The step-up (R254) -/

section
variable {d : Dev} {p : Nat}

theorem stepUp_toNom (h : (d.ethPort p).toNom = true) : d.stepUp p = d.stepToNom p := by
  unfold Dev.stepUp
  exact if_pos h

variable (ht : (d.ethPort p).toNom = false)
include ht

theorem stepUp_idle (h : d.get (F.ETH_RATE_NOM p) ≤ d.get (F.ETH_RATE_CUR p) ∨ d.stepFree p = false
    ∨ (d.ethPort p).upReq = false ∧ d.flag (F.ETH_STEP_CFG_AUTO p) = false) : d.stepUp p = d := by
  unfold Dev.stepUp
  rw [if_neg (by simp [ht])]
  refine if_neg ?_
  rcases h with h | h | ⟨h, ha⟩
  · simp [Nat.not_lt.mpr h]
  · simp [h]
  · simp [h, ha]

theorem stepUp_proposes (hr : d.get (F.ETH_RATE_CUR p) < d.get (F.ETH_RATE_NOM p)) (hf : d.stepFree p = true)
    (h : (d.ethPort p).upReq = true ∨ d.flag (F.ETH_STEP_CFG_AUTO p) = true ∧ d.get (F.ETH_STEP_WIN_UP_CELLS p) ≠ 0
      ∧ d.get (F.ETH_STEP_WIN_UP_CELLS p) < d.beCells p) : d.stepUp p = d.stepPropose p (d.get (F.ETH_RATE_NOM p)) := by
  unfold Dev.stepUp
  rw [if_neg (by simp [ht])]
  refine if_pos ?_
  rcases h with h | ⟨ha, h0, hc⟩
  · simp [hr, hf, h]
  · simp [hr, hf, ha, h0, hc]

end

/-! ### Anvil's test of a step-down (R61) -/

section
variable {d : Dev} {p : Nat}

theorem stepCheck_idle (h : d.get (F.ETH_STEP_STATUS_STATE p) ≠ 1 ∨ d.host.ops.any (fun o => o.ring == 56 && o.state == .running) = true) :
    d.stepCheck p = d := by
  unfold Dev.stepCheck
  refine if_pos ?_
  rcases h with h | h
  · simp [h]
  · rw [h, Bool.or_true]

variable (h1 : d.get (F.ETH_STEP_STATUS_STATE p) = 1) (hb : d.host.ops.any (fun o => o.ring == 56 && o.state == .running) = false)
include h1 hb

/-- In CHECK, between two operations of ring 56, a step-down goes on as Anvil's test of it says. -/
theorem stepCheck_tested : d.stepCheck p
    = if d.stepTest p (d.ethPort p).target = .ok then d.stepPropose p (d.ethPort p).target else d.stepRefused.stepOver p 2 := by
  unfold Dev.stepCheck
  rw [if_neg (by rw [hb, h1]; decide)]
  cases ht : d.stepTest p (d.ethPort p).target <;> simp [ht]

theorem stepCheck_accepted (h : d.stepTest p (d.ethPort p).target = .ok) : d.stepCheck p = d.stepPropose p (d.ethPort p).target :=
  (stepCheck_tested h1 hb).trans (if_pos h)

theorem stepCheck_refused (h : d.stepTest p (d.ethPort p).target ≠ .ok) : d.stepCheck p = d.stepRefused.stepOver p 2 :=
  (stepCheck_tested h1 hb).trans (if_neg h)

end

/-! ### The exchange, the holdoff and the retrain (R255, R258) -/

section
variable {d d1 : Dev} {p : Nat}

theorem answerTimeout_idle (h : d.get (F.ETH_STEP_STATUS_STATE p) ≠ 2) : d.answerTimeout p = d := if_pos (by simp [h])
theorem holdoffEnd_idle (h : d.get (F.ETH_STEP_STATUS_STATE p) ≠ 3) : d.holdoffEnd p = d := if_pos (by simp [h])
theorem retrainTimeout_idle (h : d.get (F.ETH_STEP_STATUS_STATE p) ≠ 4) : d.retrainTimeout p = d := if_pos (by simp [h])

section
variable (h : d.get (F.ETH_STEP_STATUS_STATE p) = 2)
  (h1 : d1 = d.reach ((d.ethPort p).stageAt + atLeastOne (d.get (F.ETH_STEP_TIMERS_ANSWER_MS p)) * msCyc))
include h h1

theorem answerTimeout_silent (ht : 3 ≤ (d.ethPort p).tries) :
    d.answerTimeout p = ((d1.set (F.ETH_STEP_STATUS_PARTNER p) 0).setEthPort p { d.ethPort p with ttlEnd := none }).stepOver p 4 := by
  subst h1
  unfold Dev.answerTimeout
  rw [if_neg (by simp [h])]
  exact if_pos ht

theorem answerTimeout_repeats (ht : (d.ethPort p).tries < 3) :
    d.answerTimeout p = (d1.setEthPort p { d.ethPort p with tries := (d.ethPort p).tries + 1, stageAt := d1.now }).lldpSend p 1
      (d1.get (F.ETH_STEP_STATUS_SEQ p)) (d.ethPort p).target 0 0 := by
  subst h1
  unfold Dev.answerTimeout
  rw [if_neg (by simp [h])]
  exact if_neg (Nat.not_le.mpr ht)

end

section
variable (h : d.get (F.ETH_STEP_STATUS_STATE p) = 3) (h1 : d1 = d.reach ((d.ethPort p).stageAt + (d.ethPort p).stageLen))
include h h1

theorem holdoffEnd_retrains (ht : d.get (F.ETH_RATE_FLOOR p) ≤ (d.ethPort p).target) :
    d.holdoffEnd p = d1.retrain p (d.ethPort p).target := by
  subst h1
  unfold Dev.holdoffEnd
  rw [if_neg (by simp [h])]
  exact if_neg (Nat.not_lt.mpr ht)

/-- DESIGN CHOICE (log 76): a target that a CHANGE has put below FLOOR is not taken. -/
theorem holdoffEnd_belowFloor (ht : (d.ethPort p).target < d.get (F.ETH_RATE_FLOOR p)) : d.holdoffEnd p = d1.stepOver p 2 := by
  subst h1
  unfold Dev.holdoffEnd
  rw [if_neg (by simp [h])]
  exact if_pos ht

end

section
variable (h : d.get (F.ETH_STEP_STATUS_STATE p) = 4)
  (h1 : d1 = d.reach ((d.ethPort p).stageAt + atLeastOne (d.get (F.ETH_RETRAIN_RETRAIN_MS p)) * msCyc))
include h h1

theorem retrainTimeout_fails (hr : (d.ethPort p).revert = true) :
    d.retrainTimeout p = (d1.fltSet (blkEth p) 2).stepOver p 6 := by
  subst h1
  unfold Dev.retrainTimeout
  rw [if_neg (by simp [h])]
  exact if_pos hr

theorem retrainTimeout_reverts (hr : (d.ethPort p).revert = false) :
    d.retrainTimeout p = (d1.setEthPort p { d.ethPort p with revert := true, stageAt := d1.now }).recipe p
      (32 * p + 4 * (d.ethPort p).prev) := by
  have hx : d1.ethPort p = d.ethPort p := by rw [h1, reach_ethPort]
  have hback : d.retrainTimeout p = d1.retrainBack p := by
    subst h1
    unfold Dev.retrainTimeout
    rw [if_neg (by simp [h])]
    exact if_neg (by simp [hr])
  rw [hback, Dev.retrainBack, hx]

end

end

/-! ### The move to a new nominal rate (R250, R252) -/

section
variable {d : Dev} {p : Nat}

theorem stepOver_free {r : Nat} (h : ((d.stepEnd p r).ethPort p).toNom = false) : d.stepOver p r = d.stepEnd p r :=
  if_neg (by simp [h])

theorem stepOver_toNom {r : Nat} (h : ((d.stepEnd p r).ethPort p).toNom = true) : d.stepOver p r = (d.stepEnd p r).stepToNom p :=
  if_pos h

theorem stepToNom_there (h : d.get (F.ETH_RATE_NOM p) = d.get (F.ETH_RATE_CUR p)) :
    d.stepToNom p = d.setEthPort p { d.ethPort p with toNom := false } := if_pos (by simp [h])

variable (hn : d.get (F.ETH_RATE_NOM p) ≠ d.get (F.ETH_RATE_CUR p))
include hn

theorem stepToNom_waits (h : d.agentMayStart = false ∨ d.get (F.ETH_STEP_STATUS_STATE p) ≠ 0) :
    d.stepToNom p = d.setEthPort p { d.ethPort p with toNom := true } := by
  unfold Dev.stepToNom
  rw [if_neg (by simp [hn])]
  exact if_pos (by rcases h with h | h <;> simp [h])

theorem stepToNom_starts (ha : d.agentMayStart = true) (h0 : d.get (F.ETH_STEP_STATUS_STATE p) = 0) {d1 : Dev}
    (h1 : d1 = d.setEthPort p { d.ethPort p with toNom := false }) :
    d.stepToNom p = if d.flag (F.ETH_STEP_STATUS_PARTNER p) then d1.stepPropose p (d.get (F.ETH_RATE_NOM p))
      else d1.retrain p (d.get (F.ETH_RATE_NOM p)) := by
  subst h1
  unfold Dev.stepToNom
  rw [if_neg (by simp [hn]), if_neg (by simp [ha, h0])]
  rfl

end

/-! ### The end of a step (R259) -/

/-- The counter of a result; REFUSED and one that another step replaces have none. -/
def stepCounter (p : Nat) : Nat → Option FieldRef
  | 1 => some (F.ETH_STEP_DONE_COUNT p)
  | 3 => some (F.ETH_STEP_DECLINED_COUNT p)
  | 4 => some (F.ETH_STEP_SILENT_COUNT p)
  | 5 | 6 => some (F.ETH_STEP_FAILED_COUNT p)
  | _ => none

/-- STEP_STATUS shows IDLE and a result. -/
def Dev.stepShown (d : Dev) (p r : Nat) : Dev := (d.set (F.ETH_STEP_STATUS_STATE p) 0).set (F.ETH_STEP_STATUS_RESULT p) r

/-- The result is shown, and counted where it has a counter. -/
def Dev.stepCounted (d : Dev) (p r : Nat) : Dev :=
  match stepCounter p r with
  | some f => (d.stepShown p r).inc f
  | none => d.stepShown p r

theorem stepEnd_counted (d : Dev) (p : Nat) : ∀ r : Nat, d.stepEnd p r = (d.stepCounted p r).setEthPort p
    { (d.stepCounted p r).ethPort p with win := (0, 0, (d.stepCounted p r).now), theirs := false, upReq := false }
  | 0 | 1 | 2 | 3 | 4 | 5 | 6 | _ + 7 => rfl

/-- A counter of results is a word of its own beside STEP_STATUS. -/
theorem stepCounter_word {p r : Nat} {f : FieldRef} (h : stepCounter p r = some f) : f.lo = 0 ∧ f.w = 32 ∧ f.addr ≠ R.ETH_STEP_STATUS p
    ∧ f.addr ∈ [R.ETH_STEP_DONE p, R.ETH_STEP_DECLINED p, R.ETH_STEP_SILENT p, R.ETH_STEP_FAILED p] := by
  have hd : R.ETH_STEP_DONE p ≠ R.ETH_STEP_STATUS p ∧ R.ETH_STEP_DECLINED p ≠ R.ETH_STEP_STATUS p
      ∧ R.ETH_STEP_SILENT p ≠ R.ETH_STEP_STATUS p ∧ R.ETH_STEP_FAILED p ≠ R.ETH_STEP_STATUS p := by
    simp only [R.ETH_STEP_DONE, R.ETH_STEP_DECLINED, R.ETH_STEP_SILENT, R.ETH_STEP_FAILED, R.ETH_STEP_STATUS]; omega
  obtain ⟨hdone, hdeclined, hsilent, hfailed⟩ := hd
  unfold stepCounter at h
  split at h <;> cases h
  · exact ⟨rfl, rfl, hdone, by simp [F.ETH_STEP_DONE_COUNT]⟩
  · exact ⟨rfl, rfl, hdeclined, by simp [F.ETH_STEP_DECLINED_COUNT]⟩
  · exact ⟨rfl, rfl, hsilent, by simp [F.ETH_STEP_SILENT_COUNT]⟩
  · exact ⟨rfl, rfl, hfailed, by simp [F.ETH_STEP_FAILED_COUNT]⟩
  · exact ⟨rfl, rfl, hfailed, by simp [F.ETH_STEP_FAILED_COUNT]⟩

section
variable (d : Dev) (p r : Nat)

theorem stepShown_state : (d.stepShown p r).get (F.ETH_STEP_STATUS_STATE p) = 0 := by
  unfold Dev.stepShown
  rw [get_set_ne _ _ _ _ (.inr (.inl (of_decide_eq_true rfl))) (of_decide_eq_true rfl) (of_decide_eq_true rfl)]
  exact get_set_same _ _ _ (of_decide_eq_true rfl)

theorem stepShown_result : (d.stepShown p r).get (F.ETH_STEP_STATUS_RESULT p) = r % 8 := get_set_same _ _ _ (of_decide_eq_true rfl)

theorem only_stepShown {l : List Nat} (h : R.ETH_STEP_STATUS p ∈ l) : d.regsOnly (d.stepShown p r) l :=
  only_set (F.ETH_STEP_STATUS_RESULT p) _ h (of_decide_eq_true rfl)
    (only_set (F.ETH_STEP_STATUS_STATE p) _ h (of_decide_eq_true rfl) (only_refl d _))

theorem stepEnd_regs : (d.stepEnd p r).regs = (d.stepCounted p r).regs := by rw [stepEnd_counted, setEthPort_regs]

/-- STEP_STATUS reads alike whether the result is counted or not. -/
theorem stepEnd_status (g : FieldRef) (ha : g.addr = R.ETH_STEP_STATUS p) (hw : g.lo + g.w ≤ 32) :
    (d.stepEnd p r).get g = (d.stepShown p r).get g := by
  rw [get_of_regs (stepEnd_regs d p r)]
  unfold Dev.stepCounted
  cases h : stepCounter p r with
  | none => rfl
  | some f =>
    obtain ⟨hlo, hw32, hne, -⟩ := stepCounter_word h
    exact get_set_ne _ f g _ (.inl (by rw [ha]; exact hne)) (by omega) hw

theorem only_stepEnd_uncounted (h : stepCounter p r = none) : d.regsOnly (d.stepEnd p r) [R.ETH_STEP_STATUS p] := by
  refine only_of (only_stepShown d p r (List.mem_singleton_self _)) ?_
  rw [stepEnd_regs, Dev.stepCounted, h]

theorem only_stepEnd : d.regsOnly (d.stepEnd p r)
    [R.ETH_STEP_STATUS p, R.ETH_STEP_DONE p, R.ETH_STEP_DECLINED p, R.ETH_STEP_SILENT p, R.ETH_STEP_FAILED p] := by
  cases h : stepCounter p r with
  | none => exact only_mono (only_stepEnd_uncounted d p r h) (by simp)
  | some f =>
    obtain ⟨hlo, hw, -, hmem⟩ := stepCounter_word h
    refine only_of (only_inc f (List.mem_cons_of_mem _ hmem) (by omega) (only_stepShown d p r List.mem_cons_self)) ?_
    rw [stepEnd_regs, Dev.stepCounted, h]

theorem stepCounted_fwd_tbl : (d.stepCounted p r).fwd = d.fwd ∧ (d.stepCounted p r).tbl = d.tbl := by
  unfold Dev.stepCounted Dev.stepShown
  split <;> simp

theorem stepEnd_fwd : (d.stepEnd p r).fwd = d.fwd := by rw [stepEnd_counted]; exact (stepCounted_fwd_tbl d p r).1
theorem stepEnd_tbl : (d.stepEnd p r).tbl = d.tbl := by rw [stepEnd_counted]; exact (stepCounted_fwd_tbl d p r).2

/-- A result's counter goes up by one and stays at its maximum. -/
theorem stepEnd_counts {f : FieldRef} (h : stepCounter p r = some f) : (d.stepEnd p r).get f = satAdd 32 (d.get f) 1 := by
  obtain ⟨hlo, hw, hne, -⟩ := stepCounter_word h
  have hshown : (d.stepShown p r).get f = d.get f :=
    get_only (only_stepShown d p r (List.mem_singleton_self _)) f (by simpa using hne) (.inl (by omega))
  rw [get_of_regs (stepEnd_regs d p r), Dev.stepCounted, h]
  calc ((d.stepShown p r).inc f).get f = satAdd f.w ((d.stepShown p r).get f) 1 := get_inc_same _ f (by omega)
    _ = satAdd 32 (d.get f) 1 := by rw [hw, hshown]

end

/-! ### A proposal (R255) -/

/-- STEP_STATUS shows PROPOSE and the SEQ of the proposal. -/
def Dev.stepProposed (d : Dev) (p seq : Nat) : Dev := (d.set (F.ETH_STEP_STATUS_SEQ p) seq).set (F.ETH_STEP_STATUS_STATE p) 2

theorem stepProposed_state (d : Dev) (p seq : Nat) : (d.stepProposed p seq).get (F.ETH_STEP_STATUS_STATE p) = 2 :=
  get_set_same _ (F.ETH_STEP_STATUS_STATE p) 2 (of_decide_eq_true rfl)

theorem stepProposed_seq (d : Dev) (p : Nat) {seq : Nat} (h : seq < 65536) :
    (d.stepProposed p seq).get (F.ETH_STEP_STATUS_SEQ p) = seq := by
  unfold Dev.stepProposed
  rw [get_set_ne _ _ _ _ (.inr (.inr (of_decide_eq_true rfl))) (of_decide_eq_true rfl) (of_decide_eq_true rfl)]
  exact (get_set_same _ _ _ (of_decide_eq_true rfl)).trans (Nat.mod_eq_of_lt h)

/-! ### The obligation -/

/-- Settles O24, command by command from the rules above. -/
theorem rateSteps : Obligations.RateSteps := by
  refine ⟨?lldp, ?receive, ?window, ?up, ?check, ?timers, ?toNom, ?ended, ?propose, ?send⟩
  case lldp =>
    refine fun s p => ⟨fun t h => next_settle_congr s (lldpDue_next h), fun h => next_settle_congr s (lldpDue_first h),
      fun hq h => next_settle_of_eq hq (ttlExpire_none h), ?_⟩
    rintro t d1 hq h rfl
    exact ⟨_, next_settle_of_flt hq (ttlExpire_some h) (by rw [partnerGone_flt, reach_flt]), partnerGone_partner _ _,
      partnerGone_ttlEnd _ _, only_partnerGone _ _, by rw [partnerGone_fwd, reach_fwd]⟩
  case receive =>
    exact fun s => ⟨fun hq h => next_settle_of_eq hq (lldpReceive_off h), fun m hr h => next_settle_congr s (lldpReceive_serves hr h)⟩
  case window =>
    rintro s p sec r d1 d2 hs h1 rfl
    exact ⟨fun h => next_settle_congr s (stepWindow_restarts hs h1 h),
      fun hl ha hf htx hrx => next_settle_congr s (stepWindow_stages hs h1 hl ha hf htx hrx)⟩
  case up =>
    exact fun s p => ⟨fun hq h ht => next_settle_of_eq hq (stepUp_idle ht h), fun ht => next_settle_congr s (stepUp_toNom ht),
      fun ht hr hf h => next_settle_congr s (stepUp_proposes ht hr hf h)⟩
  case check =>
    rintro s p r rfl
    exact ⟨fun hq h => next_settle_of_eq hq (stepCheck_idle h), fun h1 hb => ⟨fun h => next_settle_congr s (stepCheck_accepted h1 hb h),
      fun h => next_settle_congr s (stepCheck_refused h1 hb h)⟩⟩
  case timers =>
    intro s p d1
    refine ⟨fun hq h => next_settle_of_eq hq (answerTimeout_idle h), fun h h1 => ⟨fun ht => ?silent, fun ht => ?again⟩,
      fun hq h => next_settle_of_eq hq (holdoffEnd_idle h), fun h d2 h2 => ⟨fun ht => ?retrains, fun ht => ?belowFloor⟩,
      fun hq h => next_settle_of_eq hq (retrainTimeout_idle h), fun h h1 => ⟨fun hr => ?fails, fun hr => ?reverts⟩⟩
    case silent => exact next_settle_congr s (answerTimeout_silent h h1 ht)
    case again => exact next_settle_congr s (answerTimeout_repeats h h1 ht)
    case retrains => exact next_settle_congr s (holdoffEnd_retrains h h2 ht)
    case belowFloor => exact next_settle_congr s (holdoffEnd_belowFloor h h2 ht)
    case fails => exact next_settle_congr s (retrainTimeout_fails h h1 hr)
    case reverts => exact next_settle_congr s (retrainTimeout_reverts h h1 hr)
  case toNom =>
    exact fun d p r => ⟨stepOver_free, stepOver_toNom, stepToNom_there, stepToNom_waits, fun hn ha h0 d1 h1 => stepToNom_starts hn ha h0 h1⟩
  case ended =>
    refine fun d p r => ⟨?state, ?result, fun h => ?done, fun h => ?silentCount, fun h => ?uncounted, only_stepEnd d p r,
      stepEnd_fwd d p r, stepEnd_tbl d p r⟩
    case state => rw [stepEnd_status d p r _ rfl (of_decide_eq_true rfl), stepShown_state]
    case result => rw [stepEnd_status d p r _ rfl (of_decide_eq_true rfl), stepShown_result, Nat.mod_eq_of_lt r.isLt]
    case done => exact stepEnd_counts d p r (by rw [h]; rfl)
    case silentCount => exact stepEnd_counts d p r (by rw [h]; rfl)
    case uncounted => exact only_stepEnd_uncounted d p r (by rcases h with h | h <;> rw [h] <;> rfl)
  case propose =>
    rintro d d1 p r seq rfl rfl
    exact ⟨rfl, stepProposed_state d p _, stepProposed_seq d p (Nat.mod_lt _ (by decide))⟩
  case send =>
    refine fun d p m q r x h => ⟨lldpSend_silent m q r x h, ?_⟩
    rintro ha hm f tc rfl rfl
    exact lldpSend_sends m q r x h ha hm

end Sys2Proof.Machine
end

section
/-!
PROOF. The device time unit (R269 to R285, R279): how time passes, what its registers start, a step of DTIME and its 16 s, the AON
snapshot, and the switch of gPTP.
-/
namespace Sys2Proof.Machine

/-! ### Time passes (R269, R272, R279) -/

/-- Of the time unit only the clock, the accumulator and the slew move with time. -/
theorem elapse_time (d : Dev) (n : Nat) :
    ∃ a x, (d.elapse n).time = { d.time with now := d.time.now + n, acc := a, slew := x } := by
  unfold Dev.elapse
  dsimp only
  rw [apply_ite Dev.time, set_time, ite_self]
  exact ⟨_, _, rfl⟩

/-- Time by itself changes nothing of a snapshot. -/
theorem elapse_snap (d : Dev) (n : Nat) : (d.elapse n).time.snapGo = d.time.snapGo ∧ (d.elapse n).time.snapAt = d.time.snapAt
    ∧ (d.elapse n).time.snapTicks = d.time.snapTicks ∧ (d.elapse n).time.snapDtime = d.time.snapDtime := by
  obtain ⟨a, x, h⟩ := elapse_time d n
  rw [h]
  exact ⟨rfl, rfl, rfl, rfl⟩

theorem get_elapse (d : Dev) (n : Nat) (f : FieldRef) (h : f.addr ≠ R.TIME_SLEW_CTRL ∧ f.addr + 4 ≠ R.TIME_SLEW_CTRL) :
    (d.elapse n).get f = d.get f := by
  rw [get_eq, rget_elapse _ _ _ h, get_eq]

theorem only_advance (d : Dev) (n : Nat) : d.regsOnly (d.advance n) [R.TIME_SLEW_CTRL] := by
  have hmem : R.TIME_SLEW_CTRL ∈ [R.TIME_SLEW_CTRL] := List.mem_singleton_self _
  obtain h | ⟨k, l, -, h⟩ := advance_cases d n <;> rw [h]
  · exact only_elapse _ hmem (only_refl _ _)
  · exact only_elapse _ hmem (only_of (only_elapse _ hmem (only_refl _ _)) rfl)

/-- From `d` to `e` the accumulator has gone up by `n` times INCR, with PD2 on, no slew under way and INCR as it was (R269). -/
def Dev.counts (d e : Dev) (n : Nat) : Prop :=
  e.time.acc = (d.time.acc + n * d.get F.TIME_INCR_INCR) % 2 ^ 96 ∧ e.time.slew = 0 ∧ e.ready 2 = true
    ∧ e.get F.TIME_INCR_INCR = d.get F.TIME_INCR_INCR

theorem counts_elapse {d : Dev} (n : Nat) (hs : d.time.slew = 0) (hr : d.ready 2 = true) : d.counts (d.elapse n) n := by
  refine ⟨?acc, ?slew, ?ready, get_elapse d n _ (by decide)⟩
  case ready => unfold Dev.ready; rw [get_elapse d n _ (by decide)]; exact hr
  case acc =>
    simp only [Dev.elapse, hs, hr]
    simp
    omega
  case slew =>
    simp only [Dev.elapse, hs, hr]
    simp

/-- Two spans of time with a snapshot between them count as one. -/
theorem counts_trans {d e g : Dev} {k l : Nat} (h1 : d.counts e k) (h2 : e.snapTake.counts g l) : d.counts g (k + l) := by
  obtain ⟨hacc, -, -, hincr⟩ := h1
  obtain ⟨hacc2, hslew2, hready2, hincr2⟩ := h2
  have hi : e.snapTake.get F.TIME_INCR_INCR = d.get F.TIME_INCR_INCR := (get_of_regs (snapTake_regs e) _).trans hincr
  refine ⟨?_, hslew2, hready2, hincr2.trans hi⟩
  calc g.time.acc = (e.time.acc + l * d.get F.TIME_INCR_INCR) % 2 ^ 96 := by rw [hacc2, hi]; rfl
    _ = (d.time.acc + (k + l) * d.get F.TIME_INCR_INCR) % 2 ^ 96 := by rw [hacc, Nat.mod_add_mod, Nat.add_mul, Nat.add_assoc]

theorem counts_advance {d : Dev} (n : Nat) (hs : d.time.slew = 0) (hr : d.ready 2 = true) : d.counts (d.advance n) n := by
  obtain h | ⟨k, l, rfl, h⟩ := advance_cases d n <;> rw [h]
  · exact counts_elapse n hs hr
  · have hk := counts_elapse k hs hr
    obtain ⟨-, hs1, hr1, -⟩ := id hk
    exact counts_trans hk (counts_elapse l hs1 hr1)

theorem dtime_eq {d : Dev} (h : d.time.acc < 2 ^ 96) : d.dtime = d.time.acc / 2 ^ 32 := by
  unfold Dev.dtime
  omega

section
variable {d : Dev} {t n : Nat} (h : d.time.snapAt = some t)
include h

theorem advance_capture (h1 : d.now < t) (h2 : t ≤ d.now + n) :
    d.advance n = ((d.elapse (t - d.now)).snapTake).elapse (d.now + n - t) := by
  unfold Dev.advance
  rw [h]
  exact if_pos ⟨h1, h2⟩

theorem advance_short (h1 : d.now + n < t) : d.advance n = d.elapse n := by
  unfold Dev.advance
  rw [h]
  exact if_neg (by omega)

end

/-! ### INCR (R269) -/

theorem get_set_far (d : Dev) (f g : FieldRef) (v : Nat) (h : f.addr ≠ g.addr ∧ f.addr ≠ g.addr + 4 ∧ f.addr + 4 ≠ g.addr) :
    (d.set f v).get g = d.get g := by rw [get_eq, set_regs, rget_rset_far _ _ _ _ h, ← get_eq]

theorem timeIgnored_flag (d : Dev) : d.timeIgnored.flag F.TIME_STATUS_CFG_IGNORED = true := flag_set_one d _ rfl (by decide)

theorem only_timeIgnored (d : Dev) : d.regsOnly d.timeIgnored [R.TIME_STATUS] :=
  only_set F.TIME_STATUS_CFG_IGNORED 1 (List.mem_singleton_self _) (by decide) (only_refl d _)

theorem incrWrite_takes (d : Dev) {v : Nat} (h1 : 5366024766 ≤ v) (h2 : v ≤ 5371393474) :
    d.incrWrite v = d.set F.TIME_INCR_INCR v := by
  unfold Dev.incrWrite
  exact if_neg (by simp only [Bool.or_eq_true, decide_eq_true_eq]; omega)

theorem incrWrite_ignores (d : Dev) {v : Nat} (h : v < 5366024766 ∨ 5371393474 < v) : d.incrWrite v = d.timeIgnored := by
  unfold Dev.incrWrite
  exact if_pos (by simpa only [Bool.or_eq_true, decide_eq_true_eq] using h)

/-! ### Slews (R272) -/

section
variable (d : Dev) (x : Int)

theorem slewStart_time : (d.slewStart x).time = { d.time with slew := x * (2 ^ 32 : Nat) } := set_time _ _ _

theorem slewStart_busy : (d.slewStart x).flag F.TIME_SLEW_CTRL_BUSY = (x != 0) := flag_set_same _ _ _ rfl (by decide)

theorem only_slewStart : d.regsOnly (d.slewStart x) [R.TIME_SLEW_CTRL] :=
  only_set F.TIME_SLEW_CTRL_BUSY _ (List.mem_singleton_self _) (by decide) (only_of (only_refl d _) rfl)

end

theorem slewFinish_none {d : Dev} (h : d.time.slew = 0) : d.slewFinish = d := by
  unfold Dev.slewFinish
  exact if_pos (by simp [h])

theorem slewFinish_reaches {d : Dev} (h : d.time.slew ≠ 0) (hs : d.slewStep ≠ 0) :
    d.slewFinish = d.advance ((d.time.slew.natAbs + d.slewStep - 1) / d.slewStep) := by
  unfold Dev.slewFinish
  exact if_neg (by simp [h, hs])

/-! ### Registers of the time unit -/

/-- A register of TIME of one word. -/
def timeWord (a : Nat) : Bool := oneWord a && faultBlockOf a == none && pageBlock a == 56

/-- A permitted write of such a register is TIME's own effect. -/
theorem write_timeWord {d : Dev} {m a v : Nat} {r : RegDef} (ho : d.opens m a) (hr : regDef a = some r) (h : timeWord a = true)
    (hv : v < 2 ^ 32) : d.write m a v = (d.beforeWrite m a).putTime r m a v := by
  simp only [timeWord, Bool.and_eq_true, beq_iff_eq] at h
  obtain ⟨⟨hone, hf⟩, hp⟩ := h
  rw [write_oneWord ho hr hone hv, regPut_time _ _ _ _ _ hf hp]

/-- A word with GO: bit 31 is set, and without it the word is what was written beside it (R440). -/
theorem goWord {w : Nat} (h : w < 2 ^ 31) : bit (w + 0x80000000) 31 = true ∧ setBit (w + 0x80000000) 31 false = w := by
  have hbf : bf (w + 0x80000000) 31 1 = 1 := by simp only [bf]; omega
  refine ⟨by rw [bit_eq_bf, hbf]; rfl, ?_⟩
  simp only [setBit, setBf, hbf, Bool.false_eq_true, if_false]
  omega

section
variable (d : Dev) (r : RegDef) (m : Nat)

/-- SLEW_CTRL with GO starts a slew of SLEW where the master may set time (R272, R285). -/
theorem putTime_slew {w : Nat} (h : w < 2 ^ 31) : d.putTime r m R.TIME_SLEW_CTRL (w + 0x80000000)
    = if d.timeMay m then (d.plain r m R.TIME_SLEW_CTRL w).slewStart (toSigned 32 ((d.plain r m R.TIME_SLEW_CTRL w).get F.TIME_SLEW_NS))
      else d.timeIgnored := by
  obtain ⟨hgo, hw⟩ := goWord h
  unfold Dev.putTime
  rw [if_neg (by decide), if_neg (by decide), if_pos (by decide), hgo, hw]
  simp only [if_true]

/-- STEP_CTRL with GO steps DTIME by STEP, or to it, where the master may set time (R273, R285). -/
theorem putTime_step (rel : Bool) : d.putTime r m R.TIME_STEP_CTRL (b2n rel + 0x80000000)
    = if d.timeMay m then
        (if rel then
            (d.plain r m R.TIME_STEP_CTRL (b2n rel)).stepBy (toSigned 64 ((d.plain r m R.TIME_STEP_CTRL (b2n rel)).get F.TIME_STEP_NS))
          else (d.plain r m R.TIME_STEP_CTRL (b2n rel)).stepGo ((d.plain r m R.TIME_STEP_CTRL (b2n rel)).get F.TIME_STEP_NS * 2 ^ 32))
      else d.timeIgnored := by
  obtain ⟨hgo, hw⟩ := goWord (w := b2n rel) (by cases rel <;> decide)
  have hrel : bit (b2n rel + 0x80000000) 0 = rel := by cases rel <;> decide
  unfold Dev.putTime
  rw [if_neg (by decide), if_neg (by decide), if_neg (by decide), if_pos (by decide), hgo, hw, hrel]
  simp only [Bool.not_true, Bool.false_eq_true, if_false]

theorem putTime_snap : d.putTime r m R.TIME_AON_SNAP 1 = d.aonGo := rfl

theorem putTime_ctrl (v : Nat) : d.putTime r m R.TIME_CTRL v = d.timeCtrl v := rfl

end

/-! ### Steps (R273, R274) -/

section
variable {d : Dev} {acc : Nat}

theorem stepGo_early {t : Nat} (h : d.time.lastStep = some t) (ht : d.now < t + 80000000) : d.stepGo acc = d.timeIgnored := by
  unfold Dev.stepGo
  rw [h]
  exact if_pos ht

theorem stepGo_later {t : Nat} (h : d.time.lastStep = some t) (ht : t + 80000000 ≤ d.now) : d.stepGo acc = d.stepTo acc := by
  unfold Dev.stepGo
  rw [h]
  exact if_neg (Nat.not_lt.mpr ht)

theorem stepGo_first (h : d.time.lastStep = none) : d.stepGo acc = d.stepTo acc := by
  unfold Dev.stepGo
  rw [h]

end

/-- The device once a step has taken effect, before R274's test of its size. -/
def Dev.stepTaken (d : Dev) (acc : Nat) : Dev :=
  let d1 := ({ d.stepUsers acc with time := { (d.stepUsers acc).time with
      acc := acc % 2 ^ 96, slew := 0, lastStep := some d.now, stepAt := some (acc % 2 ^ 96 / 2 ^ 32) } }).set F.TIME_SLEW_CTRL_BUSY 0
  (d1.set F.TIME_STATUS_EPOCH ((d1.get F.TIME_STATUS_EPOCH + 1) % 256)).inc F.TIME_STEPS_COUNT

/-- A step of 16 s or more, taken the shorter way round, drops what is resident. -/
theorem stepTo_eq (d : Dev) (acc : Nat) : d.stepTo acc
    = if 16000000000 ≤ min (((d.stepTaken acc).dtime : Int) - d.dtime).natAbs
        (2 ^ 64 - (((d.stepTaken acc).dtime : Int) - d.dtime).natAbs)
      then (d.stepTaken acc).dropResident else d.stepTaken acc := rfl

section
variable (d : Dev) (acc : Nat)

theorem stepTaken_time : (d.stepTaken acc).time = { (d.stepUsers acc).time with
    acc := acc % 2 ^ 96, slew := 0, lastStep := some d.now, stepAt := some (acc % 2 ^ 96 / 2 ^ 32) } := by
  unfold Dev.stepTaken
  simp only [inc_time, set_time]

theorem stepTaken_fwd : (d.stepTaken acc).fwd = d.fwd := by
  unfold Dev.stepTaken
  simp only [inc_fwd, set_fwd]
  rfl

theorem stepTaken_busy : (d.stepTaken acc).flag F.TIME_SLEW_CTRL_BUSY = false := by
  unfold Dev.stepTaken Dev.inc Dev.add
  rw [flag_set_apart _ _ (by decide), flag_set_apart _ _ (by decide)]
  exact flag_set_zero _ _ rfl (by decide)

theorem stepTaken_epoch : (d.stepTaken acc).get F.TIME_STATUS_EPOCH = (d.get F.TIME_STATUS_EPOCH + 1) % 256 := by
  unfold Dev.stepTaken Dev.inc Dev.add
  rw [get_set_apart _ _ (by decide), get_set_same _ _ _ (by decide), get_set_apart _ _ (by decide)]
  exact Nat.mod_mod _ _

theorem stepTaken_steps : (d.stepTaken acc).get F.TIME_STEPS_COUNT = satAdd 32 (d.get F.TIME_STEPS_COUNT) 1 := by
  unfold Dev.stepTaken
  rw [get_inc_same _ _ (by decide), get_set_apart _ _ (by decide), get_set_apart _ _ (by decide)]
  rfl

variable {acc} (h : acc < 2 ^ 96)
include h

theorem stepTaken_dtime : (d.stepTaken acc).dtime = acc / 2 ^ 32 := by
  have hacc : (d.stepTaken acc).time.acc = acc := by rw [stepTaken_time]; exact Nat.mod_eq_of_lt h
  rw [dtime_eq (by rw [hacc]; exact h), hacc]

theorem stepTo_small (hs : ((acc / 2 ^ 32 : Nat) - (d.dtime : Nat) : Int).natAbs < 16000000000) : d.stepTo acc = d.stepTaken acc := by
  rw [stepTo_eq, stepTaken_dtime d h]
  exact if_neg (fun hc => Nat.not_lt.mpr (Nat.le_trans hc (Nat.min_le_left _ _)) hs)

theorem stepTo_large (h1 : 16000000000 ≤ ((acc / 2 ^ 32 : Nat) - (d.dtime : Nat) : Int).natAbs)
    (h2 : ((acc / 2 ^ 32 : Nat) - (d.dtime : Nat) : Int).natAbs ≤ 2 ^ 64 - 16000000000) :
    d.stepTo acc = (d.stepTaken acc).dropResident := by
  rw [stepTo_eq, stepTaken_dtime d h]
  exact if_pos (Nat.le_min.mpr ⟨h1, by omega⟩)

end

/-- What is left in the field ingress queues is read to its end and serves nothing: records whose early words hold copies. -/
theorem dropResident_records {d : Dev} {x : Nat × List Rec} (hx : x ∈ d.dropResident.fwd.fq) {r : Rec} (hr : r ∈ x.2) :
    ∃ y, r.part = some y ∧ y.dead = true ∧ y.handle.isSome = true := by
  obtain ⟨q, -, rfl⟩ := List.mem_map.mp (List.mem_filter.mp hx).1
  obtain ⟨r0, hr0, rfl⟩ := List.mem_map.mp hr
  have hheld := (List.mem_filter.mp hr0).2
  cases hp : r0.part with
  | none => simp [hp] at hheld
  | some y => exact ⟨_, rfl, rfl, by simpa [hp] using hheld⟩

/-! ### The AON snapshot (R279) -/

section
variable {d : Dev}

theorem aonGo_waits (h : d.time.snapGo = true) : d.aonGo = d := by
  unfold Dev.aonGo
  exact if_pos h

variable (h : d.time.snapGo = false)
include h

theorem aonGo_clockLost (hc : d.time.aonHeld.isSome = true) :
    d.aonGo = { d with time := { d.time with snapGo := true, snapAt := none } } := by
  unfold Dev.aonGo Dev.aonSnap
  obtain ⟨t, ht⟩ := Option.isSome_iff_exists.mp hc
  simp [h, ht]

theorem aonGo_nextEdge (hc : d.time.aonHeld = none) :
    d.aonGo = { d with time := { d.time with snapGo := true, snapAt := some d.aonEdge } } := by
  unfold Dev.aonGo Dev.aonSnap
  simp only [h, hc]
  rfl

end

/-! ### gPTP is switched (R280, Table TIME-5) -/

/-- The device once EN is taken away, before GM becomes FREE_RUN: what waits is dropped. -/
def Dev.gptpEmptied (d : Dev) : Dev :=
  { d.set F.TIME_CTRL_EN 0 with time := { d.time with rxq := [], up := none, ports := [] } }

theorem gptpStart_stops (d : Dev) : d.gptpStart false
    = if d.get F.TIME_STATUS_STATE = 4 then d.gptpEmptied.set F.TIME_STATUS_STATE 0 else d.gptpEmptied := by
  have hst : (d.set F.TIME_CTRL_EN 0).get F.TIME_STATUS_STATE = d.get F.TIME_STATUS_STATE := get_set_apart _ _ (by decide)
  unfold Dev.gptpStart Dev.gptpEmptied
  simp [b2n, hst]

section
variable (d : Dev)

theorem gptpEmptied_en : d.gptpEmptied.flag F.TIME_CTRL_EN = false := flag_set_zero d _ rfl (by decide)

theorem gptpEmptied_state : d.gptpEmptied.get F.TIME_STATUS_STATE = d.get F.TIME_STATUS_STATE := get_set_apart d 0 (by decide)

theorem gptpStop_en : (d.gptpStart false).flag F.TIME_CTRL_EN = false := by
  rw [gptpStart_stops]
  split
  · rw [flag_set_apart _ _ (by decide), gptpEmptied_en]
  · exact gptpEmptied_en d

theorem gptpStop_time : (d.gptpStart false).time = { d.time with rxq := [], up := none, ports := [] } := by
  rw [gptpStart_stops, apply_ite Dev.time, set_time, ite_self]
  rfl

theorem gptpStop_gm (h : d.get F.TIME_STATUS_STATE = 4) : (d.gptpStart false).get F.TIME_STATUS_STATE = 0 := by
  rw [gptpStart_stops, if_pos h, get_set_same _ _ _ (by decide)]
  rfl

theorem gptpStop_other (h : d.get F.TIME_STATUS_STATE ≠ 4) : (d.gptpStart false).get F.TIME_STATUS_STATE = d.get F.TIME_STATUS_STATE := by
  rw [gptpStart_stops, if_neg h, gptpEmptied_state]

theorem only_gptpStop : d.regsOnly (d.gptpStart false) [R.TIME_CTRL, R.TIME_STATUS] := by
  have hemptied : d.regsOnly d.gptpEmptied [R.TIME_CTRL, R.TIME_STATUS] :=
    only_of (only_set F.TIME_CTRL_EN 0 (by decide) (by decide) (only_refl d _)) rfl
  rw [gptpStart_stops]
  split
  · exact only_set F.TIME_STATUS_STATE 0 (by decide) (by decide) hemptied
  · exact hemptied

end

/-- With EN a write of TIME.CTRL that keeps the other fields gives or takes EN away, and nothing else. -/
theorem timeCtrl_enabled {d : Dev} {v : Nat} (hrole : bf v 1 4 = bf (d.reg R.TIME_CTRL) 1 4) (hdom : bf v 8 7 = bf (d.reg R.TIME_CTRL) 8 7)
    (hen : d.flag F.TIME_CTRL_EN = true) : d.timeCtrl v = if bit v 0 then d else d.gptpStart false := by
  unfold Dev.timeCtrl
  simp [hrole, hdom, hen]

/-- The device once TIME.CTRL has taken ROLE 1 with the source that is INCR, and its domain. -/
def Dev.gmTaken (d : Dev) (domain : Nat) : Dev :=
  ((d.set F.TIME_CTRL_ROLE 1).set F.TIME_CTRL_DOMAIN domain).set F.TIME_CTRL_GM_SRC 0

section
variable (d : Dev) (domain : Nat)

theorem gmTaken_role : (d.gmTaken domain).get F.TIME_CTRL_ROLE = 1 := by
  unfold Dev.gmTaken
  rw [get_set_apart _ _ (by decide), get_set_apart _ _ (by decide), get_set_same _ _ _ (by decide)]
  rfl

theorem gmTaken_source : (d.gmTaken domain).get F.TIME_CTRL_GM_SRC = 0 := get_set_same _ _ _ (by decide)

theorem gmTaken_en : (d.gmTaken domain).flag F.TIME_CTRL_EN = d.flag F.TIME_CTRL_EN := by
  unfold Dev.gmTaken
  rw [flag_set_apart _ _ (by decide), flag_set_apart _ _ (by decide), flag_set_apart _ _ (by decide)]

theorem only_gmTaken : d.regsOnly (d.gmTaken domain) [R.TIME_CTRL] := by
  have hmem : R.TIME_CTRL ∈ [R.TIME_CTRL] := List.mem_singleton_self _
  exact only_set F.TIME_CTRL_GM_SRC _ hmem (by decide) (only_set F.TIME_CTRL_DOMAIN _ hmem (by decide)
    (only_set F.TIME_CTRL_ROLE _ hmem (by decide) (only_refl d _)))

/-- The rule of the roles looks at the ports alone (Table TIME-3). -/
theorem gmTaken_rolesOk (role : Nat) : (d.gmTaken domain).rolesOk role = d.rolesOk role := by
  have hport (p : Nat) : (d.gmTaken domain).get (F.TIME_GPTP_PORT_ROLE p) = d.get (F.TIME_GPTP_PORT_ROLE p) :=
    get_only (only_gmTaken d domain) _ (by simp [F.TIME_GPTP_PORT_ROLE, R.TIME_GPTP_PORT, R.TIME_CTRL]; omega)
      (.inl (of_decide_eq_true rfl))
  unfold Dev.rolesOk
  simp only [hport]

end

/-- Without EN a write that gives it with ROLE 1 starts gPTP where the ports keep the rule of a grandmaster, and is ignored elsewhere. -/
theorem timeCtrl_grandmaster {d : Dev} {v : Nat} (hrole : bf v 1 2 = 1) (hsrc : bf v 3 2 = 0) (hen : d.flag F.TIME_CTRL_EN = false)
    (hgo : bit v 0 = true) : d.timeCtrl v
      = if d.rolesOk 1 then (d.gmTaken (bf v 8 7)).gptpStart true else (d.gmTaken (bf v 8 7)).timeIgnored := by
  rw [← gmTaken_rolesOk d (bf v 8 7)]
  have hr := gmTaken_role d (bf v 8 7)
  unfold Dev.gmTaken at hr ⊢
  unfold Dev.timeCtrl
  simp [hen, hrole, hsrc, hgo, hr]

/-- asCapable of every port starts from its fixed delay and its link (R281). -/
def Dev.capableAll (d : Dev) : Dev :=
  (List.range 12).foldl (fun d p => d.set (F.TIME_GPTP_PORT_AS_CAPABLE p) (b2n (d.get (F.TIME_GPTP_PORT_ROLE p) != 0
    && d.flag (F.TIME_GPTP_PORT_STATIC_DELAY p) && d.flag (F.ETH_STATUS_LINK p)))) d

theorem capableAll_get (d : Dev) (g : FieldRef) (ha : g.addr < R.TIME_GPTP_PORT 0) (hw : g.lo + g.w ≤ 32) :
    d.capableAll.get g = d.get g := by
  refine foldl_keep (fun d => d.get g) _ (fun d p => get_set_ne _ _ _ _ (.inl ?_) (of_decide_eq_true rfl) hw) _ d
  simp only [F.TIME_GPTP_PORT_AS_CAPABLE, R.TIME_GPTP_PORT] at ha ⊢
  omega

/-- A grandmaster whose source is INCR starts in GM at the nominal INCR. -/
theorem gptpStart_grandmaster {d : Dev} (hr : d.get F.TIME_CTRL_ROLE = 1) (hs : d.get F.TIME_CTRL_GM_SRC = 0) :
    d.gptpStart true = (((d.set F.TIME_CTRL_EN 1).capableAll).set F.TIME_STATUS_STATE 4).set F.TIME_INCR_INCR 0x140000000 := by
  have hrole : (d.set F.TIME_CTRL_EN 1).get F.TIME_CTRL_ROLE = 1 := (get_set_apart _ _ (by decide)).trans hr
  have hsrc : (((d.set F.TIME_CTRL_EN 1).capableAll).set F.TIME_STATUS_STATE 4).get F.TIME_CTRL_GM_SRC = 0 := by
    rw [get_set_apart _ _ (by decide), capableAll_get _ _ (by decide) (by decide), get_set_apart _ _ (by decide), hs]
  unfold Dev.capableAll at hsrc ⊢
  unfold Dev.gptpStart
  simp only [if_true, show b2n true = 1 from rfl, hrole, hsrc, beq_self_eq_true]

section
variable {d : Dev} (hr : d.get F.TIME_CTRL_ROLE = 1) (hs : d.get F.TIME_CTRL_GM_SRC = 0)
include hr hs

/-- Of TIME.CTRL the start of a grandmaster changes EN alone. -/
theorem gptpStart_ctrl (g : FieldRef) (ha : g.addr = R.TIME_CTRL) (hw : g.lo + g.w ≤ 32) :
    (d.gptpStart true).get g = (d.set F.TIME_CTRL_EN 1).get g := by
  rw [gptpStart_grandmaster hr hs, get_set_far _ _ _ _ (by rw [ha]; decide), get_set_ne _ _ _ _ (.inl (by rw [ha]; decide)) (by decide) hw,
    capableAll_get _ _ (by rw [ha]; decide) hw]

theorem gptpStart_state : (d.gptpStart true).get F.TIME_STATUS_STATE = 4 := by
  rw [gptpStart_grandmaster hr hs, get_set_far _ _ _ _ (by decide), get_set_same _ _ _ (by decide)]
  rfl

theorem gptpStart_incr : (d.gptpStart true).get F.TIME_INCR_INCR = 0x140000000 := by
  rw [gptpStart_grandmaster hr hs, get_set_same _ _ _ (by decide)]
  rfl

theorem gptpStart_role : (d.gptpStart true).get F.TIME_CTRL_ROLE = 1 := by
  rw [gptpStart_ctrl hr hs _ rfl (by decide), get_set_apart _ _ (by decide), hr]

theorem gptpStart_en : (d.gptpStart true).flag F.TIME_CTRL_EN = true := by
  unfold Dev.flag
  rw [gptpStart_ctrl hr hs _ rfl (by decide)]
  exact flag_set_one d F.TIME_CTRL_EN rfl (by decide)

end

/-! ### The obligation -/

/-- Settles O25, clause by clause from the rules above. -/
theorem timeBase : Obligations.TimeBase := by
  refine ⟨?counts, fun d h => dtime_eq h, ?incr, fun s m v => rfl, ?slew, ?slewStart, ?slewEnd, ?step, ?stepGo, ?snap, ?capture,
    ?enable, ?disable, ?grandmaster⟩
  case counts =>
    intro d n hs hr
    obtain ⟨hacc, hslew, -, -⟩ := counts_advance n hs hr
    exact ⟨hacc, advance_now d n, hslew, only_advance d n, advance_fwd d n, advance_tbl d n⟩
  case incr =>
    refine fun d v hv => ⟨fun h1 h2 => ?takes, fun h => ?ignored⟩
    case takes =>
      rw [incrWrite_takes d h1 h2]
      exact ⟨(get_set_same _ _ _ (by decide)).trans (Nat.mod_eq_of_lt hv), set_time _ _ _⟩
    case ignored =>
      rw [incrWrite_ignores d h]
      exact ⟨get_only (only_timeIgnored d) _ (by decide) (.inr (by decide)), timeIgnored_flag d, only_timeIgnored d⟩
  case slew =>
    rintro s m ppm b r ho hr rfl
    have hput := (write_timeWord ho hr (by decide +kernel) (v := ppm + 0x80000000) (by omega)).trans (putTime_slew _ r m (by omega))
    refine ⟨?_, fun hm => next_settle_congr s (hput.trans (if_neg (by simp [hm])))⟩
    rintro hm d1 rfl
    exact next_settle_congr s (hput.trans (if_pos hm))
  case slewStart =>
    refine fun d x => ⟨?_, slewStart_busy d x, only_slewStart d x, ?_⟩ <;> rw [slewStart_time]
  case slewEnd =>
    exact fun s hq => ⟨fun h => next_settle_of_eq hq (slewFinish_none h), fun h hs => next_settle_congr s (slewFinish_reaches h hs)⟩
  case step =>
    rintro s m rel b r ho hr rfl
    have hput := (write_timeWord ho hr (by decide +kernel) (v := b2n rel + 0x80000000) (by cases rel <;> decide)).trans
      (putTime_step _ r m rel)
    refine ⟨fun hm => next_settle_congr s (hput.trans (if_neg (by simp [hm]))), ?_⟩
    rintro hm d1 rfl
    exact next_settle_congr s (hput.trans (if_pos hm))
  case stepGo =>
    refine fun d acc => ⟨fun t h => stepGo_early h, fun t h => stepGo_later h, stepGo_first, fun h hs => ?small, fun h h1 h2 => ?large⟩
    case small =>
      rw [stepTo_small d h hs, stepTaken_time]
      exact ⟨Nat.mod_eq_of_lt h, rfl, rfl, stepTaken_busy d acc, stepTaken_epoch d acc, stepTaken_steps d acc,
        by rw [Nat.mod_eq_of_lt h], stepTaken_fwd d acc⟩
    case large =>
      rw [stepTo_large d h h1 h2]
      exact ⟨fun x hx r hr => dropResident_records hx hr, rfl, rfl⟩
  case snap =>
    rintro s m b ho rfl
    obtain ⟨r, hr⟩ := regDef_of_oneWord (a := R.TIME_AON_SNAP) (by decide +kernel)
    have hput := (write_timeWord ho hr (by decide +kernel) (v := 1) (by decide)).trans (putTime_snap _ r m)
    exact ⟨fun h => next_settle_congr s (hput.trans (aonGo_waits h)), fun h hc => next_settle_congr s (hput.trans (aonGo_clockLost h hc)),
      fun h hc => next_settle_congr s (hput.trans (aonGo_nextEdge h hc))⟩
  case capture =>
    rintro d e n t h rfl
    refine ⟨fun h1 h2 => ?passes, fun h1 => ?short⟩
    case passes =>
      rw [advance_capture h h1 h2]
      exact elapse_snap _ _
    case short =>
      obtain ⟨hgo, hat, hticks, -⟩ := elapse_snap d n
      rw [advance_short h h1]
      exact ⟨hgo, hat.trans h, hticks⟩
  case enable =>
    intro s m en r ho hr
    have hmask : (regDef R.TIME_CTRL).map (fun r => (r.loWord, bf (r.mask (fun x => x == .rw || x == .rwl || x == .rwo)) 1 4,
        bf (r.mask (fun x => x == .rw || x == .rwl || x == .rwo)) 8 7)) = some (false, 15, 127) := by decide +kernel
    rw [hr] at hmask
    simp only [Option.map_some, Option.some.injEq, Prod.mk.injEq] at hmask
    obtain ⟨hlo, hrole, hdom⟩ := hmask
    have hen : b2n en % 2 = b2n en := by cases en <;> rfl
    refine ⟨fieldWord s.dev r R.TIME_CTRL F.TIME_CTRL_EN (b2n en), (fieldWord_same _ _ _ F.TIME_CTRL_EN _ (by decide)).trans hen,
      fieldWord_ne _ _ _ _ _ _ _ (by decide) (.inr (by decide)) hrole, fieldWord_ne _ _ _ _ _ _ _ (by decide) (.inr (by decide)) hdom,
      next_settle_congr s ?_⟩
    rw [writeField_opens _ _ _ _ _ r ho hr hlo (by decide +kernel) (by decide) (by decide),
      regPut_time _ _ _ _ _ (by decide +kernel) (by decide +kernel), putTime_ctrl]
  case disable =>
    intro d v hrole hdom hen
    rw [timeCtrl_enabled hrole hdom hen]
    refine ⟨fun h => if_pos h, fun h => ?_⟩
    rw [if_neg (by simp [h]), gptpStop_time]
    exact ⟨gptpStop_en d, rfl, rfl, gptpStop_gm d, gptpStop_other d, only_gptpStop d⟩
  case grandmaster =>
    intro d v hrole hsrc hen hgo
    have hr := gmTaken_role d (bf v 8 7)
    have hs := gmTaken_source d (bf v 8 7)
    rw [timeCtrl_grandmaster hrole hsrc hen hgo]
    refine ⟨fun h => ?starts, fun h => ?ignored⟩
    case starts =>
      rw [if_pos h]
      exact ⟨gptpStart_state hr hs, gptpStart_en hr hs, gptpStart_role hr hs, gptpStart_incr hr hs⟩
    case ignored =>
      rw [if_neg (by simp [h])]
      refine ⟨?_, timeIgnored_flag _⟩
      unfold Dev.timeIgnored
      rw [flag_set_apart _ _ (by decide), gmTaken_en, hen]

end Sys2Proof.Machine
end

section
/-!
PROOF. Start-up, restarts of MGMT and the service port (R286, R481 to R483, R489, R490): one rule per way each of them can go, then the
statement assembled from them.
-/
namespace Sys2Proof.Machine

/-! ### The start of MGMT (R481, R482) -/

section
variable {d : Dev} {e : Bool}

theorem bootStart_idle (h : d.ready 9 = false ∨ d.get F.BOOT_STATUS_BOOT_STATE ≠ 0) : d.bootStart e = d := by
  unfold Dev.bootStart
  refine if_pos ?_
  rcases h with h | h <;> simp [h]

/-- A start that MGMT's ROM waits for: the flash, its header and its journal, then the check of the active image. -/
theorem bootStart_starts (hr : d.ready 9 = true) (h0 : d.get F.BOOT_STATUS_BOOT_STATE = 0) (hg : bit d.pwr.goingOn 12 = false) {d1 d2 : Dev}
    {h : List Byte} (h1 : d1 = d.bootHeader.bootJournal) (hh : h = d1.flashRead flashActive 256)
    (h2 : d2 = if hdFormat h && decide (hdKeyId h < 256) then d1.slotTouch (hdKeyId h) else d1) :
    d.bootStart e = if e = true ∨ d.ready 13 = false then (d.set F.BOOT_STATUS_HDR_B 0).recovery 0
      else d2.imageCheck.elim d2.runImage d2.recovery := by
  unfold Dev.bootStart
  rw [if_neg (by simp [hr, h0, hg])]
  by_cases hf : e = true ∨ d.ready 13 = false
  · rw [if_pos hf, if_pos (by simpa using hf)]
  · rw [if_neg hf, if_neg (by simpa using hf)]
    dsimp only
    rw [← h1, ← hh, ← h2]
    cases d2.imageCheck <;> rfl

theorem recovery_state (d : Dev) (off : Nat) : (d.recovery off).get F.BOOT_STATUS_BOOT_STATE = 3 := get_set_same _ _ _ (by decide)

/-- Of a verified image the last that MGMT shows is its epoch, its identifier and RUNNING. -/
theorem runImage_shows (d : Dev) : ∃ e : Dev, d.runImage = ((e.set F.BOOT_ACTIVE_EPOCH_EPOCH (hdEpoch (d.flashRead flashActive 256))).set
    F.BOOT_ACTIVE_ID_ID (hdImageId (d.flashRead flashActive 256))).set F.BOOT_STATUS_BOOT_STATE 2 := ⟨_, rfl⟩

end

/-! ### A restart of MGMT (R286, R483) -/

section
variable {d : Dev}

theorem mgmtRestart_waits
    (h : d.boot.restart = false ∨ d.pwr.logicUp = false ∨ ∃ p : Fin 12, 3 ≤ d.get (F.ETH_STEP_STATUS_STATE p)) :
    d.mgmtRestart = d := by
  unfold Dev.mgmtRestart
  refine if_pos ?_
  obtain h | h | ⟨p, hp⟩ := h
  · simp [h]
  · simp [h]
  · rw [Bool.or_eq_true]
    exact .inr (List.any_eq_true.mpr ⟨p, List.mem_range.mpr p.isLt, decide_eq_true hp⟩)

theorem mgmtRestart_restarts (h : d.boot.restart = true) (hu : d.pwr.logicUp = true)
    (hs : ∀ p : Fin 12, d.get (F.ETH_STEP_STATUS_STATE p) < 3) : d.mgmtRestart = d.timeMgmtStop.mgmtRelease := by
  have hfree : (List.range 12).any (fun p => decide (3 ≤ d.get (F.ETH_STEP_STATUS_STATE p))) = false :=
    List.any_eq_false.mpr (fun p hp => by simpa using hs ⟨p, List.mem_range.mp hp⟩)
  unfold Dev.mgmtRestart
  exact if_neg (by simp [h, hu, hfree])

theorem lockstep_off (h : d.ready 9 = false) : d.lockstep = d := by
  unfold Dev.lockstep
  exact if_neg (by simp [h])

theorem lockstep_counts (h : d.ready 9 = true) : d.lockstep = ((d.inc F.BOOT_LOCKSTEP_COUNT).fault blkBoot 3).restartDue := by
  unfold Dev.lockstep
  exact if_pos h

end

theorem get_resetRegs_out (d : Dev) (lo hi : Nat) (g : FieldRef) (h : g.addr < lo ∨ hi ≤ g.addr) (hw : g.lo + g.w ≤ 32) :
    (d.resetRegs lo hi).get g = d.get g := by
  unfold Dev.get
  rw [if_pos hw, if_pos hw, reg_resetRegs, if_pos h]

/-- The measurement that starts anew shows MEASURING and is not committed; other fields outside its epoch are as before (R346). -/
theorem measureReset_get (d : Dev) (g : FieldRef) (h : g.addr < 0xE00034 ∨ 0xE00038 ≤ g.addr) (hw : g.lo + g.w ≤ 32) :
    d.measureReset.get g = ((d.set F.VAULT_STATUS_MEASURING 1).set F.VAULT_STATUS_COMMITTED 0).get g :=
  get_resetRegs_out _ _ _ g h hw

section
variable (d : Dev)

theorem measureReset_measuring : d.measureReset.flag F.VAULT_STATUS_MEASURING = true := by
  unfold Dev.flag
  rw [measureReset_get d _ (by decide) (by decide), get_set_apart _ _ (by decide)]
  exact flag_set_one d F.VAULT_STATUS_MEASURING rfl (by decide)

theorem measureReset_committed : d.measureReset.flag F.VAULT_STATUS_COMMITTED = false := by
  unfold Dev.flag
  rw [measureReset_get d _ (by decide) (by decide)]
  exact flag_set_zero _ F.VAULT_STATUS_COMMITTED rfl (by decide)

theorem measureReset_fwd : d.measureReset.fwd = d.fwd := by
  show ((d.set F.VAULT_STATUS_MEASURING 1).set F.VAULT_STATUS_COMMITTED 0).fwd = d.fwd
  rw [set_fwd, set_fwd]

theorem measureReset_boot : d.measureReset.boot = d.boot := by
  show ((d.set F.VAULT_STATUS_MEASURING 1).set F.VAULT_STATUS_COMMITTED 0).boot = d.boot
  rw [set_boot, set_boot]

theorem measureReset_tbl : d.measureReset.tbl = d.tbl := by
  show ((d.set F.VAULT_STATUS_MEASURING 1).set F.VAULT_STATUS_COMMITTED 0).tbl = d.tbl
  rw [set_tbl, set_tbl]

/-- The device whose memory MGMT's release clears: its ROM is about to run, unwatched, and the measurement starts anew. -/
def Dev.mgmtHeld (d : Dev) : Dev := ((d.set F.BOOT_STATUS_BOOT_STATE 0).set F.SUPV_MGMT_WD_EN 0).measureReset

theorem mgmtRelease_eq : d.mgmtRelease = { d.mgmtHeld with
    fwd := { d.mgmtHeld.fwd with mgmt := [] }
    pwr := { d.mgmtHeld.pwr with wdFed := none }
    boot := { d.mgmtHeld.boot with asm := [], ops := [], restart := false, guxia := none, mgmt := [], seqCode := [] } } := rfl

theorem mgmtRelease_regs : d.mgmtRelease.regs = d.mgmtHeld.regs := by rw [mgmtRelease_eq]

theorem mgmtRelease_get (g : FieldRef) : d.mgmtRelease.get g = d.mgmtHeld.get g := get_of_regs (mgmtRelease_regs d) g

theorem mgmtRelease_bootState : d.mgmtRelease.get F.BOOT_STATUS_BOOT_STATE = 0 := by
  rw [mgmtRelease_get, Dev.mgmtHeld, measureReset_get _ _ (by decide) (by decide), get_set_apart _ _ (by decide),
    get_set_apart _ _ (by decide), get_set_apart _ _ (by decide), get_set_same _ _ _ (by decide)]
  rfl

theorem mgmtRelease_watchdog : d.mgmtRelease.flag F.SUPV_MGMT_WD_EN = false := by
  unfold Dev.flag
  rw [mgmtRelease_get, Dev.mgmtHeld, measureReset_get _ _ (by decide) (by decide), get_set_apart _ _ (by decide),
    get_set_apart _ _ (by decide)]
  exact flag_set_zero _ F.SUPV_MGMT_WD_EN rfl (by decide)

theorem mgmtRelease_measures : d.mgmtRelease.flag F.VAULT_STATUS_MEASURING = true
    ∧ d.mgmtRelease.flag F.VAULT_STATUS_COMMITTED = false := by
  unfold Dev.flag
  rw [mgmtRelease_get, mgmtRelease_get]
  exact ⟨measureReset_measuring _, measureReset_committed _⟩

theorem mgmtRelease_fwd : d.mgmtRelease.fwd = { d.fwd with mgmt := [] } := by
  rw [mgmtRelease_eq, Dev.mgmtHeld, measureReset_fwd, set_fwd, set_fwd]

theorem mgmtRelease_boot : d.mgmtRelease.boot
    = { d.boot with asm := [], ops := [], restart := false, guxia := none, mgmt := [], seqCode := [] } := by
  rw [mgmtRelease_eq, Dev.mgmtHeld, measureReset_boot, set_boot, set_boot]

theorem mgmtRelease_tbl : d.mgmtRelease.tbl = d.tbl := by
  rw [mgmtRelease_eq, Dev.mgmtHeld, measureReset_tbl, set_tbl, set_tbl]

/-- SYNCED is left with its state shown; of the other fields only the count of losses and TIME's faults can change. -/
theorem syncLeft_get (st : Nat) (g : FieldRef) (h1 : g.addr ∉ faultRegs blkTime)
    (h2 : g.lo + g.w ≤ 32 ∨ g.addr + 4 ∉ faultRegs blkTime) :
    (d.syncLeft st).get g = ((d.set F.TIME_STATUS_STATE st).inc F.TIME_SYNC_LOSS_COUNT).get g :=
  (get_of_regs rfl g).trans (get_only (only_fault blkTime 0 (fun _ h => h) (only_refl _ _)) g h1 h2)

theorem syncLeft_state : (d.syncLeft 3).get F.TIME_STATUS_STATE = 3 := by
  rw [syncLeft_get d 3 _ (by decide) (by decide)]
  unfold Dev.inc Dev.add
  rw [get_set_apart _ _ (by decide), get_set_same _ _ _ (by decide)]
  rfl

theorem syncLeft_incr (st : Nat) : (d.syncLeft st).get F.TIME_INCR_INCR = d.get F.TIME_INCR_INCR := by
  rw [syncLeft_get d st _ (by decide) (by decide)]
  exact get_only (only_inc F.TIME_SYNC_LOSS_COUNT (l := [R.TIME_STATUS, R.TIME_SYNC_LOSS]) (by decide) (by decide)
    (only_set F.TIME_STATUS_STATE st (by decide) (by decide) (only_refl d _))) _ (by decide) (by decide)

end

/-! ### Guxia (R490) -/

section
variable {d : Dev} {types : List Nat} {m : List Byte} {ok wait : Bool} {serve : Dev → Nat → Dev}

theorem guxia_unserved (h : d.svcUp = false ∨ d.flag F.BOOT_GUXIA_CFG_EN = false ∨ m.length < 12 ∨ types.contains (byteAt m 1) = false
    ∨ wait = true) : d.guxia types m ok wait serve = d := by
  unfold Dev.guxia
  refine if_pos ?_
  rcases h with h | h | h | h | h <;> simp only [h] <;> simp

section
variable (hu : d.svcUp = true) (he : d.flag F.BOOT_GUXIA_CFG_EN = true) (hl : 12 ≤ m.length)
  (ht : types.contains (byteAt m 1) = true) (hw : wait = false)
include hu he hl ht hw

theorem guxia_repeated {r : List Byte} (hk : d.boot.guxia = some (beNat (slice m 4 4), r)) :
    d.guxia types m ok wait serve = (d.inc F.BOOT_GUXIA_RX_COUNT).emit (.svc r) := by
  unfold Dev.guxia
  rw [if_neg (by simp only [hu, he, ht, hw]; simpa using hl)]
  simp [hk]

/-- A request with another SEQ than the one answered last is refused where its form is wrong, and served otherwise. -/
theorem guxia_new (hk : ∀ k, d.boot.guxia = some k → k.1 ≠ beNat (slice m 4 4)) : d.guxia types m ok wait serve
    = if byteAt m 0 ≠ 1 ∨ beNat (slice m 2 2) ≠ m.length ∨ 1452 < beNat (slice m 2 2) ∨ ok = false
      then (d.inc F.BOOT_GUXIA_RX_COUNT).guxiaBad m else serve (d.inc F.BOOT_GUXIA_RX_COUNT) (beNat (slice m 4 4)) := by
  have hkept : (d.inc F.BOOT_GUXIA_RX_COUNT).boot.guxia.bind (fun k => if k.1 == beNat (slice m 4 4) then some k.2 else none) = none := by
    rw [inc_boot]
    cases hg : d.boot.guxia with
    | none => rfl
    | some k => simp [hk k hg]
  unfold Dev.guxia
  rw [if_neg (by simp only [hu, he, ht, hw]; simpa using hl)]
  dsimp only
  rw [hkept]
  simp only [Bool.or_eq_true, bne_iff_ne, decide_eq_true_eq, Bool.not_eq_true', or_assoc]

end

theorem guxiaReply_kept (d : Dev) (type seq err : Nat) (body : List Byte) : (d.guxiaReply type seq err body).boot.guxia
    = some (seq, leBytes 1 1 ++ leBytes 1 (type + 0x80) ++ beBytes 2 (12 + body.length) ++ beBytes 4 seq ++ leBytes 1 err ++ leBytes 3 0
      ++ body) := by
  unfold Dev.guxiaReply
  rw [emit_boot]

/-- The form of FW_DATA: at most 1,024 bytes at a multiple of 1,024, fewer only at the end of the image that the header describes. -/
theorem guxiaData_eq {h : List Byte} (hh : h = if beNat (slice m 12 4) = 0 then (m.drop 16).take 256 else d.boot.hdr) : d.guxiaData m
    = d.guxia [0x10] m (decide (17 ≤ m.length) && decide ((m.drop 16).length ≤ 1024) && beNat (slice m 12 4) % 1024 == 0
        && ((m.drop 16).length == 1024 || !hdFormat h || beNat (slice m 12 4) + (m.drop 16).length == hdFile h)) false
      (fun d seq => (d.stageData (beNat (slice m 12 4)) (m.drop 16) none).1.guxiaReply 0x10 seq
        (d.stageData (beNat (slice m 12 4)) (m.drop 16) none).2 []) := by
  subst hh
  unfold Dev.guxiaData
  simp only [beq_iff_eq]

/-- The answer to a READ request: the words that were read, or ERR_FORMAT. -/
theorem guxiaRead_listed (h : guxiaTypes.contains (byteAt m 1) = true) : d.guxiaRead m = d.guxia [0x01] m (gxOk m 0) false (fun d seq =>
    let x := d.gxReads (beNat (slice m 12 4)) (gxCount m)
    if x.2.isNone then x.1.guxiaReply 0x01 seq errFormat [] else x.1.guxiaReply 0x01 seq errOk (x.2.getD [])) := by
  unfold Dev.guxiaRead
  rw [if_pos h]
  congr 1
  funext d seq
  dsimp only
  cases (d.gxReads (beNat (slice m 12 4)) (gxCount m)).2 <;> rfl

end

section
variable {d : Dev} {a : Nat} (n : Nat)

theorem gxReads_word {v : Nat} (h : (d.busRead 2 a).2 = some v) :
    (d.gxReads a (n + 1)).2 = ((d.busRead 2 a).1.gxReads (a + 4) n).2.map (fun l => beBytes 4 v ++ l) := by
  rw [Dev.gxReads, h]

theorem gxReads_error (h : (d.busRead 2 a).2 = none) : d.gxReads a (n + 1) = ((d.busRead 2 a).1, none) := by
  rw [Dev.gxReads, h]

variable {bs : List Byte}

theorem gxWrites_error (h : (d.busWrite 2 a (beNat (slice bs 0 4))).2 = .error) :
    d.gxWrites a bs (n + 1) = ((d.busWrite 2 a (beNat (slice bs 0 4))).1, errFormat) := by
  rw [Dev.gxWrites, h]

theorem gxWrites_denied (h : (d.busWrite 2 a (beNat (slice bs 0 4))).2 = .denied) :
    d.gxWrites a bs (n + 1) = ((d.busWrite 2 a (beNat (slice bs 0 4))).1, errLocked) := by
  rw [Dev.gxWrites, h]

theorem gxWrites_word (h : (d.busWrite 2 a (beNat (slice bs 0 4))).2 = .done) :
    d.gxWrites a bs (n + 1) = (d.busWrite 2 a (beNat (slice bs 0 4))).1.gxWrites (a + 4) (bs.drop 4) n := by
  rw [Dev.gxWrites, h]

end

/-! ### Neighbor Solicitations (R489) -/

section
variable {d : Dev} {src target : List Byte}

theorem neighbor_silent (h : d.svcUp = false ∨ target ≠ d.svcIp) : d.neighbor src target = d := by
  unfold Dev.neighbor
  refine if_pos ?_
  rcases h with h | h <;> simp [h]

/-- A sender with an address is answered there, from the address that it asked for. -/
theorem neighbor_answers (hu : d.svcUp = true) (ht : target = d.svcIp) (hs : src.all (fun b => b == 0) = false) {rest body : List Byte}
    (hr : rest = [0x60, 0, 0, 0] ++ target ++ [2, 1] ++ d.svcMac) (hb : body = [136, 0, 0, 0] ++ rest) : d.neighbor src target
    = d.emit (.svc (target ++ src ++ [136, 0]
      ++ beBytes 2 (65535 - onesSum (target ++ src ++ beBytes 4 body.length ++ beBytes 4 58 ++ body)) ++ rest)) := by
  subst hb hr ht
  unfold Dev.neighbor
  rw [if_neg (by simp [hu])]
  simp only [hs, Bool.false_eq_true, if_false]

end

/-! ### The obligation -/

/-- Settles O57, part by part from the rules above. -/
theorem bootAndService : Obligations.BootAndService := by
  refine ⟨?start, ?shown, ?restart, ?guxia, guxiaReply_kept, ?requests, ?words, ?neighbor, ?release, ?holdover⟩
  case start =>
    refine fun s e => ⟨fun hq h => next_settle_of_eq hq (bootStart_idle h), fun hr h0 hg => ⟨fun h => ?flash, ?image⟩⟩
    case flash => exact next_settle_congr s ((bootStart_starts hr h0 hg rfl rfl rfl).trans (if_pos h))
    case image =>
      intro d1 d2 h he h13 h1 hh h2
      have hstart := (bootStart_starts (e := e) hr h0 hg h1 hh h2).trans (if_neg (by simp [he, h13]))
      exact ⟨fun hc => next_settle_congr s (hstart.trans (by rw [hc]; rfl)),
        fun off hc => next_settle_congr s (hstart.trans (by rw [hc]; rfl))⟩
  case shown =>
    intro d off
    obtain ⟨e, he⟩ := runImage_shows d
    rw [he]
    refine ⟨recovery_state d off, get_set_same _ _ _ (by decide), ?epoch, ?id⟩
    case epoch =>
      rw [get_set_apart _ _ (by decide), get_set_apart _ _ (by decide)]
      exact get_set_same _ _ _ (by decide)
    case id =>
      rw [get_set_apart _ _ (by decide)]
      exact get_set_same _ _ _ (by decide)
  case restart =>
    refine fun s => ⟨fun hq h => next_settle_of_eq hq (mgmtRestart_waits h),
      fun h hu hs => next_settle_congr s (mgmtRestart_restarts h hu hs), fun hq h => next_settle_of_eq hq (lockstep_off h), ?_⟩
    rintro d1 h rfl
    exact next_settle_congr s (lockstep_counts h)
  case guxia =>
    refine fun d types m ok wait serve => ⟨guxia_unserved, ?_⟩
    rintro d1 hu he hl ht hw rfl
    refine ⟨fun r hk => guxia_repeated hu he hl ht hw hk, fun hk => ?_⟩
    have hnew := guxia_new (ok := ok) (serve := serve) hu he hl ht hw hk
    refine ⟨fun h => hnew.trans (if_pos h), fun h0 hn hmax hok => hnew.trans (if_neg ?_)⟩
    rintro (h | h | h | h)
    · exact h h0
    · exact h hn
    · omega
    · simp [hok] at h
  case requests =>
    refine fun s m => ⟨fun h => next_settle_congr s (guxiaRead_listed h), rfl, ?data, rfl, rfl, rfl⟩
    exact fun h hh => next_settle_congr s (guxiaData_eq hh)
  case words =>
    exact fun d a bs n => ⟨fun v h => gxReads_word n h, gxReads_error n, gxWrites_error n, gxWrites_denied n, gxWrites_word n⟩
  case neighbor =>
    refine fun s src target => ⟨fun hq h => next_settle_of_eq hq (neighbor_silent h), fun rest body hq hu ht hs hr hb => ?_⟩
    exact next_settle_of_flt hq (neighbor_answers hu ht hs hr hb) (emit_flt _ _)
  case release =>
    intro d
    obtain ⟨hmeasuring, hcommitted⟩ := mgmtRelease_measures d
    exact ⟨mgmtRelease_bootState d, mgmtRelease_watchdog d, hmeasuring, hcommitted, rfl, rfl, mgmtRelease_fwd d, mgmtRelease_boot d,
      mgmtRelease_tbl d⟩
  case holdover =>
    refine fun d => ⟨fun h => if_neg (by simp [h]), fun h => ?_⟩
    have hstop : d.timeMgmtStop = d.syncLeft 3 := if_pos (by simp [h])
    rw [hstop]
    exact ⟨syncLeft_state d, syncLeft_incr d 3⟩

end Sys2Proof.Machine
end

section
/-!
PROOF. Transport sessions: the rules of the session store, of the reads through ECC and of paused sequencers, and the transmission of a
message (R291, R295, R297 to R299, R302, R309, R310): one rule per way each step can go, then the statement assembled from them.
-/
namespace Sys2Proof.Machine

/-! ### The session store -/

section
variable (d : Dev) {k j : Nat} (x : Option Sess)

@[simp] theorem setSess_regs : (d.setSess k x).regs = d.regs := rfl

@[simp] theorem sess_setSess_same : (d.setSess k x).sess k = x := SMap.get_set_same _ _ _ _

theorem sess_setSess_ne (h : j ≠ k) : (d.setSess k x).sess j = d.sess j := SMap.get_set_ne _ _ _ _ _ _ h.symm

end

/-! ### The sequencer of a session (R309) -/

section
variable {d : Dev} {k : Nat}

theorem heldBy_none (h : d.sess k = none) : d.heldBy k = none := by unfold Dev.heldBy; rw [h]

theorem heldBy_running {x : Sess} (h : d.sess k = some x) (hp : d.seqPaused x = false) : d.heldBy k = none := by
  unfold Dev.heldBy
  rw [h]
  exact if_neg (by simp [hp])

/-- What no paused sequencer runs is not held. -/
theorem heldBy_unpaused (h : ∀ x, d.sess k = some x → d.seqPaused x = false) : d.heldBy k = none := by
  cases hs : d.sess k with
  | none => exact heldBy_none hs
  | some x => exact heldBy_running hs (h x hs)

theorem sess_of_held {q : Nat} (h : d.heldBy k = some q) : ∃ x, d.sess k = some x ∧ d.seqPaused x = true := by
  cases hs : d.sess k with
  | none => exact absurd (heldBy_none hs ▸ h) (Option.some_ne_none q).symm
  | some x =>
    cases hp : d.seqPaused x with
    | true => exact ⟨x, rfl, hp⟩
    | false => exact absurd (heldBy_running hs hp ▸ h) (Option.some_ne_none q).symm

end

/-! ### Reads through ECC (R310) -/

section
variable {d : Dev} {k : Nat}

theorem sessTouch_none (h : d.sess k = none) : d.sessTouch k = d := by unfold Dev.sessTouch; rw [h]; rfl

theorem sessTouch_ctx {x : Sess} {n : Nat} (h : d.sess k = some x) (hc : x.ctx = some n) : d.sessTouch k = d.ctxTouch n := by
  unfold Dev.sessTouch
  rw [h, Option.bind_some, hc]

theorem sessConn_none (h : d.sess k = none) : d.sessConn k = d := if_pos (by simp [h])

section
variable {x : Sess} (h : d.sess k = some x)
include h

theorem sessConn_valid (hv : cnValid ((d.connTouch (k / 2)).conn (k / 2)) = true) : d.sessConn k = d.connTouch (k / 2) := by
  unfold Dev.sessConn
  rw [if_neg (by simp [h])]
  exact if_pos hv

theorem sessConn_invalid (hv : cnValid ((d.connTouch (k / 2)).conn (k / 2)) = false) :
    d.sessConn k = (d.connTouch (k / 2)).xptEnd k 8 false := by
  unfold Dev.sessConn
  rw [if_neg (by simp [h])]
  exact if_neg (by simp [hv])

end
end

/-! ### XPT_SEND (R302) -/

section
variable {d d1 : Dev} {o : Op} {c n e : Nat} {sf : Bool}

theorem xptSend_idle (h : d.nextQueued 59 [0x40] = none) : d.xptSend = d := by unfold Dev.xptSend; rw [h]

variable (h : d.nextQueued 59 [0x40] = some o)
include h

theorem xptSend_off (hr : d.xptRuns = false) : d.xptSend = d.opFail o errDomainOff := by
  unfold Dev.xptSend
  rw [h]
  simp [hr]

variable (hc : c = leNat (d.hostRead o.param 2)) (hn : n = leNat (d.hostRead (o.param + 4) 4)) (he : e = d.conn c)
  (hsf : sf = decide (n ≤ sfMax (cnTxDl e) (cnAe e)))
include hc hn he

theorem xptSend_malformed (hr : d.xptRuns = true) (hbad : 1024 ≤ c ∨ cnValid e = false ∨ cnBridge e = true ∨ n = 0 ∨ 65535 < n) :
    d.xptSend = (if c < 1024 then d.connTouch c else d).opFail o errFormat := by
  unfold Dev.xptSend
  rw [h]
  simp only [← hc, ← hn, ← he, hr, Bool.true_and, decide_eq_true_eq, Bool.not_true, Bool.false_eq_true, if_false]
  exact if_pos (by simpa [or_assoc] using hbad)

include hsf

/-- A well-formed message: what can still keep it from starting a session, in the order of the tests. -/
theorem xptSend_wellFormed (hr : d.xptRuns = true) (h1024 : c < 1024) (hv : cnValid e = true) (hb : cnBridge e = false) (hn0 : n ≠ 0)
    (hmax : n ≤ 65535) (hd : d1 = d.connTouch c) :
    d.xptSend = if cnFunc e && !sf then d1.opFail o errLength
      else if (d1.sess (txKey c)).isSome then d1.opFail o errBusy
      else if !sf && d1.freeCtx.isNone then d1.opFail o errNores
      else if !sf && d1.ctxPaused (d1.freeCtx.getD 0) then d1
      else (d1.startOp o).xptStart c { Sess.init with len := n, op := some o.idx, source := o.seq, validAt := d1.dtime } := by
  unfold Dev.xptSend
  rw [h]
  simp only [← hc, ← hn, ← he, ← hsf, hr, h1024, hv, hb, decide_true, Bool.and_self, if_true, ← hd, Bool.not_true, Bool.false_eq_true, if_false]
  exact if_neg (by simp only [Bool.or_eq_true, decide_eq_true_eq, beq_iff_eq, Bool.false_eq_true, or_false]; omega)

end

/-! ### The frames of a message (R295, R297, R298) -/

section
variable {d d1 : Dev} {c : Nat} {x : Sess} {e : Nat} (he : e = d.conn c)
include he

theorem xptStart_single (hl : x.len ≤ sfMax (cnTxDl e) (cnAe e)) (hd : d1 = d.setSess (txKey c) (some { x with state := 6, ctx := none })) :
    d.xptStart c x = d1.xptQueue (txKey c) (sfFrame e (d1.xptBytes x 0 x.len)) x.len := by
  subst he hd
  exact if_pos hl

theorem xptStart_first {n : Nat} (hl : sfMax (cnTxDl e) (cnAe e) < x.len) (hf : d.freeCtx = some n)
    (hd : d1 = (d.setSess (txKey c) (some { x with state := 3, sn := 1, ctx := some n })).entryPut memCtx 0 n 0) :
    d.xptStart c x = d1.xptQueue (txKey c) (xptFrame e (ffPci x.len) (d1.xptBytes x 0 (ffBytes e x.len))) (ffBytes e x.len) := by
  subst he hd
  unfold Dev.xptStart
  rw [if_neg (by omega), hf]
  rfl

end

section
variable {d : Dev} {k : Nat}

theorem xptCf_none (h : d.sess k = none) : d.xptCf k = d := by
  unfold Dev.xptCf
  simp [heldBy_none h, sessTouch_none h, sessConn_none h, h]

theorem xptCf_waits {x : Sess} (ht : d.sessTouch k = d) (hcn : d.sessConn k = d) (h : d.sess k = some x)
    (hw : x.next = none ∨ x.state ≠ 5 ∨ x.frame.isSome = true ∨ d.seqPaused x = true) : d.xptCf k = d := by
  unfold Dev.xptCf
  simp only [ht, hcn, ite_self, h]
  cases hx : x.next with
  | none => rfl
  | some t => exact if_pos (by simpa [hx, or_assoc] using hw)

theorem xptCf_sends {x : Sess} {t e n : Nat} {d0 d1 : Dev} (hh : d.heldBy k = none) (h0 : d0 = (d.sessTouch k).sessConn k) (h : d0.sess k = some x)
    (ht : x.next = some t) (hst : x.state = 5) (hf : x.frame = none) (hp : d0.seqPaused x = false) (h1 : d1 = d0.reach t)
    (he : e = d1.conn (k / 2)) (hn : n = min (x.len - x.bytes) (cnTxDl e - 1 - cnAe e)) :
    d.xptCf k = d1.xptQueue k (xptFrame e [0x20 + x.sn % 16] (d1.xptBytes x x.bytes n)) n := by
  unfold Dev.xptCf
  simp only [hh, Option.isSome_none, Bool.false_eq_true, if_false, ← h0, h, ht]
  rw [if_neg (by simp [hst, hf, hp]), hn, he, h1]

theorem xptReoffer_none (h : d.sess k = none) : d.xptReoffer k = d := by
  unfold Dev.xptReoffer
  simp [heldBy_none h, sessConn_none h, h]

theorem xptReoffer_held (h : (d.heldBy k).isSome = true) : d.xptReoffer k = d := by
  obtain ⟨q, hq⟩ := Option.isSome_iff_exists.mp h
  obtain ⟨x, hx, -⟩ := sess_of_held hq
  unfold Dev.xptReoffer
  simp [hx, hq]

theorem xptReoffer_nothing {x : Sess} (hcn : d.sessConn k = d) (h : d.sess k = some x) (hw : x.again = none ∨ x.frame = none) :
    d.xptReoffer k = d := by
  unfold Dev.xptReoffer
  simp only [hcn, ite_self, h]
  split
  next ha hf _ => simp [ha, hf] at hw
  · rfl

theorem xptReoffer_offers {x : Sess} {t : Nat} {m : Msg} {d0 d1 : Dev} (hh : d.heldBy k = none) (h0 : d0 = d.sessConn k) (h : d0.sess k = some x)
    (hh0 : d0.heldBy k = none) (ht : x.again = some t) (hf : x.frame = some m) (h1 : d1 = (d0.reach t).setSess k (some { x with again := none })) :
    d.xptReoffer k = d1.originate (cnPort (d0.conn (k / 2))) 0 m (dl8 x.frameDl) (.xpt k) := by
  unfold Dev.xptReoffer
  simp only [hh, Option.isSome_none, Bool.false_eq_true, if_false, ← h0, h, ht, hf, hh0, h1]

end

/-! ### A frame sent (R297 to R299, R302) -/

section
variable {d : Dev} {k : Nat}

theorem xptSent_held {q : Nat} (h : d.heldBy k = some q) : d.xptSent k = d.seqHold q (.sent k d.now d.dtime) := by
  unfold Dev.xptSent
  rw [h]

/-- The progress of a command changes no register. -/
theorem xptProgress_regs (d : Dev) (x : Sess) : (d.xptProgress x).regs = d.regs := by
  unfold Dev.xptProgress
  split <;> rfl

theorem xptProgress_nBs (d : Dev) (x : Sess) : (d.xptProgress x).nBs = d.nBs := by
  unfold Dev.nBs
  rw [get_of_regs (xptProgress_regs d x)]

/-- The session once its frame has been sent, before what its state makes of it. -/
def Sess.sent (x : Sess) (t : Nat) : Sess := { x with frame := none, bytes := x.bytes + x.carry, carry := 0, dl := none, sentAt := t }

variable {x y : Sess} {d1 : Dev} (hh : d.heldBy k = none) (ht : d.sessTouch k = d) (h : d.sess k = some x) (hy : y = x.sent d.dtime)
  (h1 : d1 = d.xptProgress { x with bytes := x.bytes + x.carry }) (hs : x.stop = false)
include hh ht h hy h1 hs

theorem xptSent_single (hst : x.state = 6) : d.xptSent k = (d1.setSess k (some y)).xptEnd k 0 true := by
  unfold Dev.xptSent Dev.xptDone
  simp only [hh, ht, h, hs, hst, hy, h1, Sess.sent, Bool.false_eq_true, if_false]

theorem xptSent_first (hst : x.state = 3) : d.xptSent k = d1.setSess k (some { y with state := 4, first := true, dl := some (d.dtime + d.nBs) }) := by
  rw [← xptProgress_nBs d { x with bytes := x.bytes + x.carry }, ← h1]
  unfold Dev.xptSent Dev.xptDone
  simp only [hh, ht, h, hs, hst, hy, h1, Sess.sent, Bool.false_eq_true, if_false]

/-- A consecutive frame sent: the last one of the message, the last one of a limited block, or another. -/
theorem xptSent_consecutive (hst : x.state = 5) : d.xptSent k =
    if x.len ≤ x.bytes + x.carry then (d1.setSess k (some { y with sn := (x.sn + 1) % 16 })).xptEnd k 0 true
    else if x.block && decide (x.bsLeft ≤ 1) then
      d1.setSess k (some { y with sn := (x.sn + 1) % 16, state := 4, first := false, bsLeft := 0, dl := some (d.dtime + d.nBs) })
    else d1.setSess k (some { y with sn := (x.sn + 1) % 16, bsLeft := x.bsLeft - 1, next := some (d.now + stNs x.stmin * 4 / 5) }) := by
  rw [← xptProgress_nBs d { x with bytes := x.bytes + x.carry }, ← h1]
  unfold Dev.xptSent Dev.xptDone
  simp only [hh, ht, h, hs, hst, hy, h1, Sess.sent, Bool.false_eq_true, if_false]

end

/-- A session without an operation has no progress to show. -/
theorem xptProgress_none (d : Dev) {x : Sess} (h : x.op = none) : d.xptProgress x = d := by unfold Dev.xptProgress; rw [h]; rfl

theorem xptProgress_op (d : Dev) {x : Sess} {i : Nat} {o : Op} (h : x.op = some i)
    (ho : d.host.ops.find? (fun o => o.ring == 59 && o.idx == i) = some o) : d.xptProgress x = d.setOp { o with progress := x.bytes } := by
  unfold Dev.xptProgress
  rw [h, Option.bind_some, ho]

/-! ### The statement -/

/-- Settles O28, part by part from the rules above. That the next CF leaves exactly STmin after the last (log 43) and that a connection
which is not valid any more ends its session with N_ERROR (log 85) are the model's readings. -/
theorem transportSend : Obligations.TransportSend := by
  refine ⟨?send, ?start, ?cf, ?reoffer, fun d k x h => ⟨sessConn_valid h, sessConn_invalid h⟩, fun d k q h => xptSent_held h, ?sent⟩
  case send =>
    refine fun s => ⟨fun hq h => next_settle_of_eq hq (xptSend_idle h), fun o c n e sf h hc hn he hsf => ⟨fun hr => ?_, fun hr hbad => ?_, ?wellFormed⟩⟩
    · exact next_settle_congr s (xptSend_off h hr)
    · exact next_settle_congr s (xptSend_malformed h hc hn he hr hbad)
    case wellFormed =>
      intro hr h1024 hv hb hn0 hmax d1 hd
      have hsend := xptSend_wellFormed h hc hn he hsf hr h1024 hv hb hn0 hmax hd
      refine ⟨fun hf hs => ?length, fun hf hx => ?busy, fun hf hx hs hctx => ?full, fun i hf hx hs hctx hp => ?paused, fun hf hx hctx => ?starts⟩ <;>
        refine next_settle_congr s (hsend.trans ?_)
      case length => simp [hf, hs]
      case busy => rcases hf with hf | hf <;> simp [hf, hx]
      case full => simp [hf, hx, hs, hctx]
      case paused => simp [hf, hx, hs, hctx, hp]
      case starts =>
        rcases hctx with hs | ⟨i, hi, hp⟩
        · simp [hx, hs]
        · rcases hf with hf | hf <;> simp [hf, hx, hi, hp]
  case start => exact fun d c x e he => ⟨fun hl d1 => xptStart_single he hl, fun hl n d1 => xptStart_first he hl⟩
  case cf =>
    rintro s c k rfl hq
    have hhalf : txKey c / 2 = c := by unfold txKey; omega
    refine ⟨fun h => next_settle_of_eq hq (xptCf_none h), fun x ht hcn h hw => next_settle_of_eq hq (xptCf_waits ht hcn h hw), ?_⟩
    exact fun x t d0 d1 e n hh h0 h ht hst hf hp h1 he hn =>
      next_settle_congr s (xptCf_sends hh h0 h ht hst hf hp h1 (he.trans (by rw [hhalf])) hn)
  case reoffer =>
    refine fun s k hq => ⟨fun h => next_settle_of_eq hq (xptReoffer_none h), fun h => next_settle_of_eq hq (xptReoffer_held h),
      fun x hcn h hw => next_settle_of_eq hq (xptReoffer_nothing hcn h hw), ?_⟩
    exact fun x t m d0 d1 hh h0 h hh0 ht hf h1 => next_settle_congr s (xptReoffer_offers hh h0 h hh0 ht hf h1)
  case sent =>
    intro d k x y d1 hh ht h hy h1 hs
    have hcf := xptSent_consecutive hh ht h hy h1 hs
    refine ⟨xptSent_single hh ht h hy h1 hs, ?first, ?last, ?block, ?next, ?progress, ?noProgress⟩
    case first => intro hst; rw [xptSent_first hh ht h hy h1 hs hst, sess_setSess_same]
    case last => intro hst hl; rw [hcf hst, if_pos hl]
    case block => intro hst hl hb hbs; rw [hcf hst, if_neg (by omega), if_pos (by simp [hb, hbs]), sess_setSess_same]
    case next =>
      intro hst hl hb
      have hopen : ¬ (x.block && decide (x.bsLeft ≤ 1)) = true := by
        simp only [Bool.and_eq_true, decide_eq_true_eq]
        rintro ⟨hblock, hleft⟩
        rcases hb with hb | hb
        · exact absurd (hb ▸ hblock) Bool.false_ne_true
        · omega
      rw [hcf hst, if_neg (by omega), if_neg hopen, sess_setSess_same]
    case progress => exact fun i o hi ho => h1.trans (xptProgress_op d hi ho)
    case noProgress => exact fun ho => h1.trans (xptProgress_none d ho)

end Sys2Proof.Machine
end

section
/-!
PROOF. What arrives for the transport engine, the receive timers and the sequencers (R291 to R293, R296 to R298, R300, R304 to R306, R309,
R310): one rule per way each step can go, then the statement assembled from them.
-/
namespace Sys2Proof.Machine

/-! ### What waits for the engine (R304, R306) -/

section
variable {d d1 : Dev}

theorem xptFrameNext_empty (h : d.xpt.inq = []) : d.xptFrameNext = d := by unfold Dev.xptFrameNext; rw [h]

theorem xptFrameNext_cons {x : XptIn} {l : List XptIn} (h : d.xpt.inq = x :: l) (h1 : d1 = { d with xpt := { d.xpt with inq := l } }) :
    d.xptFrameNext = if d1.xptRuns then d1.xptTake x else d1 := by
  unfold Dev.xptFrameNext
  rw [h, h1]

theorem xptPduNext_empty (h : d.xpt.pduq = []) : d.xptPduNext = d := by unfold Dev.xptPduNext; rw [h]

section
variable {x : XptPdu} {l : List XptPdu} (h : d.xpt.pduq = x :: l) (h1 : d1 = { d with xpt := { d.xpt with pduq := l } })
include h h1

theorem xptPduNext_runs (hr : d1.xptRuns = true) : d.xptPduNext = d1.xptPdu x := by
  unfold Dev.xptPduNext
  rw [h]
  dsimp only
  rw [← h1]
  exact if_pos hr

theorem xptPduNext_stopped (hr : d1.xptRuns = false) (hx : x.handle = none) : d.xptPduNext = d1 := by
  unfold Dev.xptPduNext
  rw [h]
  dsimp only
  rw [← h1, if_neg (by simp [hr]), hx]

end
end

/-! ### A frame is matched and served (R291, R293, R305, R306) -/

section
variable {d d0 : Dev} {c e : Nat} {x : XptIn} {p : List Byte}

theorem xptTake_xl (h4 : 4 ≤ x.msg.form) (h9 : x.msg.form ≠ 9) (h10 : x.msg.form ≠ 10) : d.xptTake x = d.inc F.XPT_BAD_FRAME_COUNT :=
  if_pos (by simp only [Bool.and_eq_true, decide_eq_true_eq, bne_iff_ne]; exact ⟨⟨h4, h9⟩, h10⟩)

/-- A frame of a connection whose sessions run and whose memories are without error is served. -/
theorem xptTake_served (hf : x.msg.form < 4 ∨ x.msg.form = 9 ∨ x.msg.form = 10) (hm : d.xptMatch x = some c) (hc : d.connTouch c = d)
    (hrx : d.heldBy (rxKey c) = none) (htx : d.heldBy (txKey c) = none) (hrt : d.sessTouch (rxKey c) = d) (htt : d.sessTouch (txKey c) = d) :
    d.xptTake x = d.xptServe c x := by
  have hk : ∀ b : Bool, d.heldBy (if b then txKey c else rxKey c) = none ∧ d.sessTouch (if b then txKey c else rxKey c) = d := by
    intro b; cases b
    · exact ⟨hrx, hrt⟩
    · exact ⟨htx, htt⟩
  unfold Dev.xptTake
  rw [if_neg (by simp only [Bool.and_eq_true, decide_eq_true_eq, bne_iff_ne]; omega), hm]
  simp only [hc, (hk _).1, (hk _).2]

variable (he : e = d.conn c) (hp : p = x.msg.data.drop (cnAe e)) (h0 : d0 = (d.xptLapse (rxKey c) x.valid).xptLapse (txKey c) x.valid)
include he hp h0

theorem xptServe_single (hpci : byteAt p 0 / 16 = 0) (h8 : x.msg.data.length ≤ 8)
    (hpad : (cnReqPad e && decide (x.msg.form < 2) && decide (x.msg.data.length < 8)) = false) (hn : byteAt p 0 ≠ 0) (hfit : byteAt p 0 < p.length) :
    d.xptServe c x = ((d0.xptReplace c).inc F.XPT_MSG_RX_COUNT).xptDeliver c (decide (2 ≤ x.msg.form)) (byteAt p 0) x.valid
      ((p.drop 1).take (byteAt p 0)) := by
  have hesc : decide (8 < x.msg.data.length) = false := decide_eq_false (Nat.not_lt.mpr h8)
  have hlen : byteAt p 0 % 16 = byteAt p 0 := by omega
  unfold Dev.xptServe
  simp only [← he, ← hp, ← h0, hpci, hpad, hesc, hlen, Bool.false_eq_true, if_false]
  exact if_neg (by simp only [Bool.or_eq_true, Bool.and_eq_true, decide_eq_true_eq, beq_iff_eq, Bool.false_eq_true, false_and, or_false]; omega)

theorem xptServe_first {n : Nat} (hpci : byteAt p 0 / 16 = 1) (hfn : cnFunc e = false) (hn : n = byteAt p 0 % 16 * 256 + byteAt p 1) (hn0 : n ≠ 0)
    (h8 : 8 ≤ x.msg.data.length) (hsf : sfMax x.msg.data.length (cnAe e) < n) :
    d.xptServe c x = (d0.xptReplace c).xptFirst c x n x.msg.data.length ((p.drop 2).take n) := by
  have hesc : (n == 0) = false := by simp [hn0]
  unfold Dev.xptServe
  simp only [← he, ← hp, ← h0, hpci, hfn, ← hn, hesc, Bool.false_eq_true, if_false]
  exact if_neg (by simp only [Bool.or_eq_true, Bool.and_eq_true, decide_eq_true_eq, Bool.false_eq_true, false_and, or_false]; omega)

theorem xptServe_consecutive {y : Sess} (hpci : byteAt p 0 / 16 = 2) (hy : d0.sess (rxKey c) = some y) (hst : y.state = 1) (h2 : 2 ≤ p.length)
    (hlong : y.rxDl ≤ x.msg.data.length ∨ y.len - y.bytes ≤ p.length - 1)
    (hpad : (cnReqPad e && decide (x.msg.form < 2) && decide (x.msg.data.length < 8)) = false) :
    d.xptServe c x = d0.xptConsecutive c y x (byteAt p 0 % 16) (p.drop 1) := by
  have hshort : (decide (x.msg.data.length < y.rxDl) && decide (p.length - 1 < y.len - y.bytes)) = false := by
    simp only [Bool.and_eq_false_iff, decide_eq_false_iff_not]; omega
  unfold Dev.xptServe
  simp only [← he, ← hp, ← h0, hpci, hpad, hy, hshort]
  rw [if_neg (by simp only [Bool.or_eq_true, decide_eq_true_eq, Bool.false_eq_true, or_false]; omega), if_neg (by simp [hst])]

theorem xptServe_flow {y : Sess} (hpci : byteAt p 0 / 16 = 3) (hy : d0.sess (txKey c) = some y) (hst : y.state = 4) (h3 : 3 ≤ p.length)
    (hpad : (cnReqPad e && decide (x.msg.form < 2) && decide (x.msg.data.length < 8)) = false) :
    d.xptServe c x = d0.xptFlow c y (byteAt p 0 % 16) (byteAt p 1) (byteAt p 2) x.valid := by
  unfold Dev.xptServe
  simp only [← he, ← hp, ← h0, hpci, hpad, hy]
  rw [if_neg (by simp [hst]), if_neg (by omega)]
  rfl

end

/-! ### Flow control in the awaited state (Table XPT-6) -/

theorem stCode_eq (x : Nat) : stCode x = if x ≤ 0x7F ∨ 0xF1 ≤ x ∧ x ≤ 0xF9 then x else 0x7F := by simp [stCode]

section
variable {d : Dev} {c fs bs st t : Nat} {x : Sess}

theorem xptFlow_cts : d.xptFlow c x 0 bs st t = d.setSess (txKey c) (some { x with
    state := 5, bsLeft := bs, block := bs != 0, stmin := stCode st, waits := 0, dl := none, first := false, next := some d.now }) := rfl

theorem xptFlow_wait (h : x.waits < cnWft (d.conn c)) :
    d.xptFlow c x 1 bs st t = d.setSess (txKey c) (some { x with waits := x.waits + 1, dl := some (t + d.nBs) }) := if_pos h

theorem xptFlow_waitLimit (h : cnWft (d.conn c) ≤ x.waits) : d.xptFlow c x 1 bs st t = d.xptEnd (txKey c) 9 true := if_neg (by omega)

theorem xptFlow_overflow : d.xptFlow c x 2 bs st t = d.xptEnd (txKey c) (if x.first then 7 else 5) true := rfl

theorem xptFlow_invalid (h : 3 ≤ fs) : d.xptFlow c x fs bs st t = d.xptEnd (txKey c) 5 true := by
  unfold Dev.xptFlow
  split
  · omega
  · omega
  · omega
  · rfl

end

/-! ### Consecutive frames of a receive session (Table XPT-6) -/

section
variable {d : Dev} {c sn : Nat} {x : Sess} {i : XptIn} {data : List Byte}

theorem xptConsecutive_short (h1 : data.length < x.len - x.bytes) (h2 : i.msg.data.length < x.rxDl) :
    d.xptConsecutive c x i sn data = d.inc F.XPT_BAD_FRAME_COUNT :=
  if_pos (by simp only [Bool.and_eq_true, decide_eq_true_eq]; exact ⟨h1, h2⟩)

theorem xptConsecutive_wrongSn (h : x.len - x.bytes ≤ data.length ∨ x.rxDl ≤ i.msg.data.length) (hsn : sn ≠ x.sn) :
    d.xptConsecutive c x i sn data = d.xptEnd (rxKey c) 4 true := by
  unfold Dev.xptConsecutive
  rw [if_neg (by simp only [Bool.and_eq_true, decide_eq_true_eq]; omega), if_pos (by simp [hsn])]

/-- The next frame in order of an unlimited block that does not complete the message. -/
theorem xptConsecutive_next (h1 : data.length < x.len - x.bytes) (h2 : x.rxDl ≤ i.msg.data.length) (hsn : sn = x.sn) (hb : x.block = false) :
    d.xptConsecutive c x i sn data = d.setSess (rxKey c) (some { x with
      data := x.data ++ data, bytes := x.bytes + data.length, sn := (x.sn + 1) % 16, lastRx := i.valid, bsLeft := x.bsLeft - 1
      dl := some (i.valid + d.nCr) }) := by
  have hall : data.take (x.len - x.bytes) = data := List.take_of_length_le (by omega)
  unfold Dev.xptConsecutive
  rw [if_neg (by simp only [Bool.and_eq_true, decide_eq_true_eq]; omega), if_neg (by simp [hsn])]
  simp only [hall]
  rw [if_neg (by omega), if_neg (by simp [hb])]

end

/-! ### First frames (R300, R305, R309) -/

section
variable {d : Dev} {c n dl e : Nat} {x : XptIn} {data : List Byte} (he : e = d.conn c)
include he

theorem xptFirst_tooLong (h : cnMaxDl e < n) :
    d.xptFirst c x n dl data = ((d.inc F.XPT_OVFLW_DL_COUNT).xptFc c 2).xptRefused e c n x := by
  subst he
  exact if_pos h

variable (h : n ≤ cnMaxDl e)
include h

theorem xptFirst_noContext (hf : d.freeCtx = none) :
    d.xptFirst c x n dl data = ((d.inc F.XPT_SESS_FULL_COUNT).xptFc c 2).xptRefused e c n x := by
  unfold Dev.xptFirst
  rw [← he, if_neg (by omega), hf]

variable {i : Nat} (hf : d.freeCtx = some i)
include hf

theorem xptFirst_paused (hp : d.ctxPaused i = true) : d.xptFirst c x n dl data = d.seqHold (i % 8) (.frame x) := by
  unfold Dev.xptFirst
  rw [← he, if_neg (by omega), hf]
  exact if_pos hp

variable (hp : d.ctxPaused i = false)
include hp

theorem xptFirst_noCells (hc : d.freeCells (b2n (pipeB x.port)) < d.unusedC (b2n (pipeB x.port)) + (n + 127) / 128) :
    d.xptFirst c x n dl data = ((d.inc F.XPT_OVFLW_NORES_COUNT).xptFc c 2).xptRefused e c n x := by
  unfold Dev.xptFirst
  rw [← he, if_neg (by omega), hf]
  dsimp only
  rw [if_neg (by simp [hp]), if_neg (by omega)]

theorem xptFirst_starts {b : Nat} (hb : b = b2n (pipeB x.port)) (hc : d.unusedC b + (n + 127) / 128 ≤ d.freeCells b) :
    d.xptFirst c x n dl data = ((d.setSess (rxKey c) (some { Sess.init with
      ctx := some i, state := 1, len := n, bytes := data.length, sn := 1, bsLeft := cnBs e, block := cnBs e != 0, stmin := cnStmin e
      cells := (n + 127) / 128, half := b, data := data, fd := decide (2 ≤ x.msg.form), rxDl := dl, validAt := x.valid
      lastRx := x.valid })).ctxClean (some i)).xptFc c 0 := by
  unfold Dev.xptFirst
  rw [← he, if_neg (by omega), hf, ← hb]
  dsimp only
  rw [if_neg (by simp [hp]), if_pos hc]

end

/-! ### PDUs for a bridging connection (R304, R309) -/

section
variable {d d1 : Dev} {x : XptPdu} {c e : Nat}

theorem xptPdu_missed (h : d.conns.find? (fun p => cnBridge p.2 && cnInPdu p.2 == x.id) = none) (hx : x.handle = none) :
    d.xptPdu x = (d.connsTouch (fun e => cnBridge e && cnInPdu e == x.id)).inc F.XPT_CONN_MISS_COUNT := by
  unfold Dev.xptPdu
  rw [h, hx]

variable (h : d.conns.find? (fun p => cnBridge p.2 && cnInPdu p.2 == x.id) = some (c, e)) (h1 : d1 = d.connTouch c)
include h h1

theorem xptPdu_busy (hx : x.handle = none) (hs : (d1.sess (txKey c)).isSome = true) : d.xptPdu x = d1.inc F.XPT_BUSY_DROP_COUNT := by
  unfold Dev.xptPdu
  rw [h, hx]
  dsimp only
  rw [← h1]
  exact if_pos (by simp [hs])

variable (hs : (d1.sess (txKey c)).isSome = false)
include hs

theorem xptPdu_starts (hn : x.data ≠ [])
    (hc : x.data.length ≤ sfMax (cnTxDl e) (cnAe e) ∨ (cnFunc e = false ∧ ∃ i, d1.freeCtx = some i ∧ d1.ctxPaused i = false)) :
    d.xptPdu x = d1.xptStart c { Sess.init with len := x.data.length, data := x.data, handle := x.handle, validAt := d1.dtime } := by
  unfold Dev.xptPdu
  rw [h]
  dsimp only
  rw [← h1]
  rcases hc with hsf | ⟨hfn, i, hi, hp⟩
  · simp [hs, hn, hsf]
  · simp [hs, hn, hfn, hi, hp]

theorem xptPdu_paused {i : Nat} (hl : sfMax (cnTxDl e) (cnAe e) < x.data.length) (hfn : cnFunc e = false) (hi : d1.freeCtx = some i)
    (hp : d1.ctxPaused i = true) : d.xptPdu x = d1.seqHold (i % 8) (.pdu x) := by
  have hn : x.data ≠ [] := List.ne_nil_of_length_pos (by omega)
  unfold Dev.xptPdu
  rw [h]
  dsimp only
  rw [← h1]
  simp [hs, hn, hfn, hi, hp, Nat.not_le.mpr hl]

end

/-! ### The timers (R297, R298, R306) -/

/-- The expiry of a session's running timer, in one of the states that it is for and with its sequencer running. -/
def Dev.timerDue (d : Dev) (k : Nat) (l : List Nat) : Option Nat :=
  match d.sess k with
  | some x => if l.contains x.state && !d.seqPaused x then x.dl else none
  | none => none

/-- The timer acts on the device whose context it has read. -/
def Dev.timerAct (d : Dev) (k : Nat) (l : List Nat) : Dev :=
  match d.timerDue k l with
  | some t =>
    let d1 := (d.reachDtime t).xptServeUpTo (cnPort (d.conn (k / 2))) t
    if d1.timerDue k l == some t then d1.xptExpire k else d1
  | none => d

theorem xptTimer_eq (d : Dev) (k : Nat) (l : List Nat) :
    d.xptTimer k l = (if (d.heldBy k).isSome then d else d.sessTouch k).timerAct k l := rfl

section
variable {d d1 : Dev} {k t : Nat} {l : List Nat}

theorem timerDue_none (h : d.sess k = none) : d.timerDue k l = none := by unfold Dev.timerDue; rw [h]

theorem timerDue_eq_some_iff {x : Sess} (h : d.sess k = some x) :
    d.timerDue k l = some t ↔ x.state ∈ l ∧ d.seqPaused x = false ∧ x.dl = some t := by
  unfold Dev.timerDue
  rw [h]
  simp [and_assoc]

/-- A timer that does not run, or in another state, or of a paused sequencer, is not due. -/
theorem timerDue_idle {x : Sess} (h : d.sess k = some x) (hi : x.dl = none ∨ x.state ∉ l ∨ d.seqPaused x = true) : d.timerDue k l = none := by
  rw [Option.eq_none_iff_forall_ne_some]
  intro t ht
  obtain ⟨hst, hp, hdl⟩ := (timerDue_eq_some_iff h).mp ht
  rcases hi with hi | hi | hi
  · simp [hi] at hdl
  · exact hi hst
  · simp [hi] at hp

theorem timerAct_idle (h : d.timerDue k l = none) : d.timerAct k l = d := by unfold Dev.timerAct; rw [h]

theorem timerAct_due (h : d.timerDue k l = some t) (h1 : d1 = (d.reachDtime t).xptServeUpTo (cnPort (d.conn (k / 2))) t) :
    d.timerAct k l = if d1.timerDue k l = some t then d1.xptExpire k else d1 := by
  unfold Dev.timerAct
  rw [h]
  simp only [beq_iff_eq, ← h1]

theorem xptTimer_none (h : d.sess k = none) : d.xptTimer k l = d := by
  rw [xptTimer_eq, sessTouch_none h, ite_self, timerAct_idle (timerDue_none h)]

theorem xptTimer_idle {x : Sess} (ht : d.sessTouch k = d) (h : d.sess k = some x) (hi : x.dl = none ∨ x.state ∉ l ∨ d.seqPaused x = true) :
    d.xptTimer k l = d := by
  rw [xptTimer_eq, ht, ite_self, timerAct_idle (timerDue_idle h hi)]

/-- At its deadline a timer ends the session where nothing that arrived in time has moved the session on. -/
theorem xptTimer_due {x : Sess} (hh : d.heldBy k = none) (h : (d.sessTouch k).sess k = some x) (hdl : x.dl = some t) (hst : x.state ∈ l)
    (hp : (d.sessTouch k).seqPaused x = false) (h1 : d1 = ((d.sessTouch k).reachDtime t).xptServeUpTo (cnPort ((d.sessTouch k).conn (k / 2))) t) :
    d.xptTimer k l = if d1.timerDue k l = some t then d1.xptExpire k else d1 := by
  rw [xptTimer_eq, hh, ← timerAct_due ((timerDue_eq_some_iff h).mpr ⟨hst, hp, hdl⟩) h1]
  rfl

/-- The rows of the timers: the session, the result and the states of each. -/
def timerRows (k : Fin 2048) (c : Fin 1024) : List (Instr × Nat × Nat × List Nat) :=
  [(.nAsExpiry k, k.val, 1, [2, 3, 5, 6]), (.nBsExpiry c, txKey c, 2, [4]), (.nCrExpiry c, rxKey c, 3, [1])]

theorem timerRow_spec {q : Fin 2048} {c : Fin 1024} {i : Instr} {r : Nat} (h : (i, k, r, l) ∈ timerRows q c) :
    (∀ s : State, exec i s = .next { s with dev := (s.dev.xptTimer k l).settle })
    ∧ ∀ (d : Dev) (x : Sess), d.sess k = some x → x.state ∈ l → d.xptExpire k = d.xptEnd k r true := by
  simp only [timerRows, List.mem_cons, Prod.mk.injEq, List.not_mem_nil, or_false] at h
  obtain ⟨rfl, rfl, rfl, rfl⟩ | ⟨rfl, rfl, rfl, rfl⟩ | ⟨rfl, rfl, rfl, rfl⟩ := h
  all_goals
    refine ⟨fun s => rfl, fun d x hx hst => ?_⟩
    unfold Dev.xptExpire
    rw [hx]
    simp only [List.mem_cons, List.not_mem_nil, or_false] at hst
  · rcases hst with hst | hst | hst | hst <;> simp only [hst]
  · simp only [hst]
  · simp only [hst]

/-- Nothing that was valid by `t` waits, in the port's ingress queue or for the engine. -/
theorem xptServeUpTo_nothing {p : Nat} (hq : ∀ r l, d.fq (fqOf p) = r :: l → t < r.start) (hi : ∀ x ∈ d.xpt.inq, t < x.valid) :
    d.xptServeUpTo p t = d := by
  have hfq : d.fqServeUpTo p t = d := by
    unfold Dev.fqServeUpTo
    cases h : d.fq (fqOf p) with
    | nil => rfl
    | cons r l => rw [List.takeWhile_cons_of_neg (by rw [decide_eq_true_eq]; exact Nat.not_le.mpr (hq r l h))]; rfl
  have hearly : d.xpt.inq.filter (fun x => decide (x.valid ≤ t)) = [] := by
    rw [List.filter_eq_nil_iff]; intro x hx; rw [decide_eq_true_eq]; exact Nat.not_le.mpr (hi x hx)
  have hlate : d.xpt.inq.filter (fun x => !decide (x.valid ≤ t)) = d.xpt.inq := by
    rw [List.filter_eq_self]; intro x hx; rw [Bool.not_eq_true', decide_eq_false_iff_not]; exact Nat.not_le.mpr (hi x hx)
  unfold Dev.xptServeUpTo
  simp only [hfq, hearly, hlate, List.foldl_nil]

end

/-! ### A fault leaves the sessions alone -/

section
variable (d : Dev) (b i : Nat)

@[simp] theorem isolate_xpt : (d.isolate b).xpt = d.xpt := by
  have halted : ∀ e : Dev, ((List.range 64).foldl (fun (d : Dev) r => d.set (F.HIF_RING_STATUS_HALTED r) 1) e).xpt = e.xpt :=
    fun e => foldl_keep (fun e : Dev => e.xpt) _ (fun e r => set_xpt _ _ _) _ e
  unfold Dev.isolate
  simp only [apply_ite Dev.xpt, event61_xpt, fltSet_xpt, halted, ite_self]

@[simp] theorem severe_xpt : (d.severe b i).xpt = d.xpt := by
  unfold Dev.severe
  simp only [apply_ite Dev.xpt, fltIrq_xpt, event61_xpt, isolate_xpt, fnHold_xpt, setWin_xpt, inc_xpt, fltSet_xpt, ite_self]

@[simp] theorem countEvent_xpt : (d.countEvent b i).xpt = d.xpt := by
  unfold Dev.countEvent
  simp only [apply_ite Dev.xpt, severe_xpt, setWin_xpt, inc_xpt, ite_self]

@[simp] theorem capture_xpt (a : Access) : (d.capture b i a).1.xpt = d.xpt := by
  unfold Dev.capture
  split
  · exact inc_xpt _ _
  · simp only [event61_xpt, set_xpt, setReg_xpt]

@[simp] theorem faultCapture_xpt (a : Access) (counts : Bool) : (d.faultCapture b i a counts).xpt = d.xpt := by
  unfold Dev.faultCapture
  simp only [apply_ite Dev.xpt, countEvent_xpt, capture_xpt, fltSet_xpt, ite_self]

end

/-! ### A context is read through ECC (R310) -/

section
variable {d : Dev} {n : Nat}

theorem ctxTouch_clean (hb : d.tables.bad.contains (tkey memCtx 0 n) = false) (hs : d.tables.soft.contains (tkey memCtx 0 n) = false) :
    d.ctxTouch n = d := by
  unfold Dev.ctxTouch
  simp only [hb, hs, Bool.false_eq_true, if_false]

theorem ctxTouch_corrected (hb : d.tables.bad.contains (tkey memCtx 0 n) = false) (hs : d.tables.soft.contains (tkey memCtx 0 n) = true) :
    d.ctxTouch n = ({ d with tables := { d.tables with soft := d.tables.soft.filter (fun k => k != tkey memCtx 0 n) } } : Dev).inc F.XPT_MEM_CE_COUNT := by
  unfold Dev.ctxTouch
  simp only [hb, hs, Bool.false_eq_true, if_false, if_true]

/-- An uncorrectable error: the context is written whole, and the session that holds it, of those listed, ends. -/
theorem ctxTouch_uncorrectable {k : Nat} {x : Sess} (hb : d.tables.bad.contains (tkey memCtx 0 n) = true)
    (hk : ∀ j y, (j, some y) ∈ d.xpt.sess → y.ctx = some n → j = k) (hx : (k, some x) ∈ d.xpt.sess) (hc : x.ctx = some n) :
    d.ctxTouch n = ((d.faultCapture blkXpt 1 (d.entAccess (tkey memCtx 0 n) n) false).entryPut memCtx 0 n 0).xptEnd k 8 false := by
  unfold Dev.ctxTouch
  simp only [hb, if_true, entryPut_xpt, faultCapture_xpt]
  split
  next q hq =>
    obtain ⟨j, y⟩ := q
    have hmem := List.mem_of_find?_eq_some hq
    have hin := List.find?_some hq
    cases y with
    | none => simp at hin
    | some y => rw [hk j y hmem (by simpa using hin)]
  next hq =>
    have hout := List.find?_eq_none.mp hq _ hx
    simp [hc] at hout

end

/-! ### The sequencers pause and resume (R296, R309) -/

section
variable {d d0 d1 d2 : Dev} {q : Nat}

theorem seqPause_off (h : d.ready 7 = false) : d.seqPause q = d := if_neg (by simp [h])
theorem seqPause_on (h : d.ready 7 = true) : d.seqPause q = d.setBitOf F.XPT_STATUS_PAUSED q true := if_pos h
theorem seqResume_off (h : d.ready 7 = false) : d.seqResume q = d := if_pos (by simp [h])

theorem loadSeq_eq (d : Dev) (q : Nat) :
    d.loadSeq q = if d.boot.seqCode = [] then d else { d with xpt := { d.xpt with code := SMap.set d.xpt.code [] q d.boot.seqCode } } := by
  unfold Dev.loadSeq
  simp only [List.isEmpty_iff]

/-- The expired timer of a session, where the session lies in sequencer `q`. -/
def Dev.lapseIn (q : Nat) (d : Dev) (p : Nat × Option Sess) : Dev :=
  match p.2 with
  | some x => if x.ctx.map (fun n => n % 8) == some q then d.xptLapse p.1 d.dtime else d
  | none => d

theorem seqResume_on (h : d.ready 7 = true) (h0 : d0 = d.loadSeq q)
    (h1 : d1 = (d0.setBitOf F.XPT_STATUS_PAUSED q false).setBitOf F.XPT_STATUS_SEQ_READY q true)
    (h2 : d2 = (SMap.get d.xpt.waiting [] q).foldl (fun (d : Dev) x => d.xptEvent x)
      ({ d1 with xpt := { d1.xpt with waiting := SMap.set d1.xpt.waiting [] q [] } } : Dev)) :
    d.seqResume q = d2.xpt.sess.foldl (Dev.lapseIn q) d2 := by
  subst h0 h1 h2
  exact if_neg (by simp [h])

/-- A session outside sequencer `q`. -/
def outsideSeq (q : Nat) (p : Nat × Option Sess) : Bool := p.2.isNone || (p.2.bind (fun x => x.ctx)).map (fun n => n % 8) != some q

theorem lapseIn_outside {p : Nat × Option Sess} (h : outsideSeq q p = true) : d.lapseIn q p = d := by
  obtain ⟨k, x⟩ := p
  cases x with
  | none => rfl
  | some x => exact if_neg (by simpa [outsideSeq] using h)

theorem lapses_outside {l : List (Nat × Option Sess)} (h : l.all (outsideSeq q) = true) : l.foldl (Dev.lapseIn q) d = d := by
  induction l with
  | nil => rfl
  | cons p l ih =>
    obtain ⟨hp, hl⟩ := Bool.and_eq_true_iff.mp (List.all_cons ▸ h)
    rw [List.foldl_cons, lapseIn_outside hp, ih hl]

end

/-! ### The statement -/

/-- Settles O27, part by part from the rules above. That a first frame or a PDU waits where the lowest free context lies in a paused
sequencer, and the order in which a resume serves what waited, are the model's readings (logs 43 and 85). -/
theorem transportReceive : Obligations.TransportReceive := by
  refine ⟨?queues, ?forms, ?flow, ?consecutive, ?idle, ?timers, ?upTo, ?context, ?sequencers, ?resume, ?load, ?frames, ?first, ?pdus⟩
  case queues =>
    refine fun s => ⟨fun hq h => next_settle_of_eq hq (xptFrameNext_empty h), fun x l d1 h h1 => ⟨fun hr => ?_, fun hr => ?_⟩,
      fun hq h => next_settle_of_eq hq (xptPduNext_empty h), fun x l d1 h h1 => ⟨fun hr => ?_, fun hr hx => ?_⟩⟩
    · exact next_settle_congr s ((xptFrameNext_cons h h1).trans (if_pos hr))
    · exact next_settle_congr s ((xptFrameNext_cons h h1).trans (if_neg (by simp [hr])))
    · exact next_settle_congr s (xptPduNext_runs h h1 hr)
    · exact next_settle_congr s (xptPduNext_stopped h h1 hr hx)
  case forms =>
    intro d x h4 h9 h10
    rw [xptTake_xl h4 h9 h10]
    exact ⟨get_inc_same d _ (by decide), only_inc _ (List.mem_singleton.mpr rfl) (by decide) (only_refl d _), inc_xpt d _⟩
  case flow =>
    refine fun d c fs bs st t x => ⟨?cts, fun h => ?wait, xptFlow_waitLimit, fun h => ?overflowFirst, fun h => ?overflowLater, xptFlow_invalid, fun k hk => ?others⟩
    case cts => rw [xptFlow_cts, sess_setSess_same, stCode_eq]
    case wait => rw [xptFlow_wait h, sess_setSess_same]
    case overflowFirst => rw [xptFlow_overflow, h]; rfl
    case overflowLater => rw [xptFlow_overflow, h]; rfl
    case others => rw [xptFlow_cts, sess_setSess_ne _ _ hk]
  case consecutive =>
    refine fun d c sn x i data => ⟨xptConsecutive_short, xptConsecutive_wrongSn, fun h1 h2 hsn hb => ?_⟩
    rw [xptConsecutive_next h1 h2 hsn hb]
    exact ⟨sess_setSess_same _ _, setSess_regs _ _⟩
  case idle =>
    exact fun s k c hq => ⟨fun h => next_settle_of_eq hq (xptTimer_none h), fun h => next_settle_of_eq hq (xptTimer_none h),
      fun h => next_settle_of_eq hq (xptTimer_none h), fun x ht h hi => next_settle_of_eq hq (xptTimer_idle ht h hi)⟩
  case timers =>
    intro s q c i k r l hrow x t d1 hh hx hdl hst hp h1
    obtain ⟨hexec, hexpire⟩ := timerRow_spec (q := q) (c := c) hrow
    have hdue := xptTimer_due hh hx hdl hst hp h1
    rw [hexec s]
    refine ⟨fun y hy hys hyd hyp => ?expires, fun hy => ?moved⟩ <;> refine next_settle_congr s (hdue.trans ?_)
    case expires => rw [if_pos ((timerDue_eq_some_iff hy).mpr ⟨hys, hyp, hyd⟩), hexpire d1 y hy hys]
    case moved =>
      refine if_neg fun ht => ?_
      cases hs : d1.sess k with
      | none => simp [timerDue_none hs] at ht
      | some y =>
        obtain ⟨hys, hyp, hyd⟩ := (timerDue_eq_some_iff hs).mp ht
        rcases hy y hs with h | h | h
        · exact h hys
        · exact h hyd
        · simp [hyp] at h
  case upTo => exact fun d p t => xptServeUpTo_nothing
  case context =>
    intro d k x n hx hc
    rw [sessTouch_ctx hx hc]
    refine ⟨ctxTouch_clean, fun hb hs => ?corrected, fun hb hk hmem => ctxTouch_uncorrectable hb hk hmem hc⟩
    rw [ctxTouch_corrected hb hs]
    exact ⟨get_inc_same _ _ (by decide), inc_xpt _ _, only_inc _ (List.mem_singleton.mpr rfl) (by decide) (fun _ _ => rfl)⟩
  case sequencers =>
    refine fun s q => ⟨fun hq h => ⟨next_settle_of_eq hq (seqPause_off h), next_settle_of_eq hq (seqResume_off h)⟩,
      fun h => next_settle_congr s (seqPause_on h), ?_⟩
    intro h d0 d1 d2 h0 h1 h2 hnil
    exact next_settle_congr s ((seqResume_on h (h0.trans (loadSeq_eq _ _).symm) h1 h2).trans (by rw [hnil]; rfl))
  case resume =>
    intro s q d0 d1 d2 h h0 h1 h2
    have hresume := seqResume_on h h0 h1 h2
    exact ⟨next_settle_congr s hresume, fun hl => next_settle_congr s (hresume.trans (lapses_outside hl))⟩
  case load =>
    refine fun d q => ⟨fun h => (loadSeq_eq d q).trans (if_pos h), fun h => ?_⟩
    rw [loadSeq_eq, if_neg h]
    exact ⟨SMap.get_set_same _ _ _ _, rfl, rfl⟩
  case frames =>
    intro s x l d d0 c e p hin hd hr hf hm hc he hp h0 hrx htx hrt htt
    have hserve : s.dev.xptFrameNext = d.xptServe c x := (xptFrameNext_cons hin hd).trans
      ((if_pos hr).trans (xptTake_served hf hm hc (heldBy_unpaused hrx) (heldBy_unpaused htx) hrt htt))
    refine ⟨fun hpci h8 hpad hn hfit => ?_, fun n hpci hfn hn hn0 h8 hsf => ?_, fun y hpci hy hst h2 hlong hpad => ?_,
      fun y hpci hy hst h3 hpad => ?_⟩ <;> refine next_settle_congr s (hserve.trans ?_)
    · exact xptServe_single he hp h0 hpci h8 hpad hn hfit
    · exact xptServe_first he hp h0 hpci hfn hn hn0 h8 hsf
    · exact xptServe_consecutive he hp h0 hpci hy hst h2 hlong hpad
    · exact xptServe_flow he hp h0 hpci hy hst h3 hpad
  case first =>
    exact fun d c n dl x data e he => ⟨xptFirst_tooLong he, xptFirst_noContext he, fun i h => xptFirst_paused he h,
      fun i h => xptFirst_noCells he h, fun i b h hf hp => xptFirst_starts he h hf hp⟩
  case pdus =>
    refine fun s x l d c e hin hd hr => ⟨fun hx h => ?missed, fun h d1 h1 => ⟨fun hx hs => ?busy, fun hs hn hc => ?starts, fun i hs hl hfn hi hp => ?paused⟩⟩ <;>
      refine next_settle_congr s ((xptPduNext_runs hin hd hr).trans ?_)
    case missed => exact xptPdu_missed h hx
    case busy => exact xptPdu_busy h h1 hx hs
    case starts => exact xptPdu_starts h h1 hs hn hc
    case paused => exact xptPdu_paused h h1 hs hl hfn hi hp

end Sys2Proof.Machine
end

section
/-!
PROOF. How the running host jobs of ring 58 go on, and INSTALL_SAK (R314, R322, R325 to R327, R337, R426, R427): one rule per way a job can
go, then the statement assembled from them.
-/
namespace Sys2Proof.Machine

/-! ### A job told to stop (R326, R427) -/

/-- The job ends at once when told to stop: it verifies a signature, or it reads no data yet. -/
def CryJob.endsAtOnce (j : CryJob) (o : Op) : Bool := o.stop && (o.opcode == opEcdsa || decide (j.phase = .key ∨ j.phase = .units))

theorem endsAtOnce_told {j : CryJob} {o : Op} (hs : o.stop = true) (h : o.opcode = opEcdsa ∨ j.phase = .key ∨ j.phase = .units) :
    j.endsAtOnce o = true := by
  simpa [CryJob.endsAtOnce, hs] using h

theorem endsAtOnce_untold (j : CryJob) {o : Op} (hs : o.stop = false) : j.endsAtOnce o = false := by simp [CryJob.endsAtOnce, hs]

theorem endsAtOnce_run {j : CryJob} {o : Op} (ho : o.opcode ≠ opEcdsa) (hp : j.phase = .run) : j.endsAtOnce o = false := by
  simp [CryJob.endsAtOnce, ho, hp]

theorem endsAtOnce_decided {j : CryJob} {o : Op} {e : Nat} (ho : o.opcode ≠ opEcdsa) (hp : j.phase = .fin e) : j.endsAtOnce o = false := by
  simp [CryJob.endsAtOnce, ho, hp]

/-- A running job whose result is known is past its decision point (R426). -/
theorem cryDecided_of_fin {d : Dev} {j : CryJob} {o : Op} {e : Nat} (hm : j ∈ d.cry.jobs) (hi : j.idx = o.idx) (hr : o.ring = 58)
    (hp : j.phase = .fin e) : d.cryDecided o = true := by
  unfold Dev.cryDecided
  rw [hr, beq_self_eq_true, Bool.true_and, List.any_eq_true]
  exact ⟨j, hm, by simp [hi, hp]⟩

/-! ### A job processes further bytes (R314, R326) -/

section
variable {d : Dev} {k : Nat} {ops : List Nat}

theorem cryRun_none (n : Nat) (h : d.cryJob k ops = none) : d.cryRun k ops n = d := by unfold Dev.cryRun; rw [h]

variable {j : CryJob} {o : Op} (n : Nat) (h : d.cryJob k ops = some (j, o))
include h

theorem cryRun_off (hr : d.cryRuns = false) : d.cryRun k ops n = d.cryEnd o .failed errDomainOff := by
  unfold Dev.cryRun
  simp only [h, hr, Bool.not_false, if_true]

variable (hr : d.cryRuns = true)
include hr

theorem cryRun_endsAtOnce (he : j.endsAtOnce o = true) : d.cryRun k ops n = d.cryEnd o .aborted errAborted := by
  unfold CryJob.endsAtOnce at he
  unfold Dev.cryRun
  simp only [h, hr, he, Bool.not_true, Bool.false_eq_true, if_true, if_false]

variable (he : j.endsAtOnce o = false)
include he

/-- A job that does not run makes no progress. -/
theorem cryRun_resting (hp : j.phase ≠ .run) : d.cryRun k ops n = d := by
  unfold CryJob.endsAtOnce at he
  unfold Dev.cryRun
  simp only [h, hr, he, Bool.not_true, Bool.false_eq_true, if_false]
  exact if_pos hp

variable (hp : j.phase = .run)
include hp

/-- A job that is to stop goes to its boundary, if it has not reached it, and ends there. -/
theorem cryRun_toBoundary {b : Nat} {d1 : Dev} {j1 : CryJob} {o1 : Op} (hs : o.stop = true)
    (hb : cryStop j.input.length (j.total o.opcode) = some b) (h1 : d1 = if j.input.length < b then d.cryFeed j o b else d)
    (hj : d1.cryJob k ops = some (j1, o1)) : d.cryRun k ops n = d1.cryEnd o1 .aborted errAborted := by
  unfold CryJob.endsAtOnce at he
  unfold Dev.cryRun
  simp only [h, hr, he, Bool.not_true, Bool.false_eq_true, if_false]
  simp only [hp, ne_eq, not_true, if_false, hs, if_true, hb, ← h1, hj]

/-- A job that has no boundary to stop at goes on, to the end of its pass at most. -/
theorem cryRun_goesOn {e : Nat} (hs : o.stop = false ∨ cryStop j.input.length (j.total o.opcode) = none)
    (h1 : e = min (j.total o.opcode) (j.input.length + (max 1 n + 15) / 16 * 16)) :
    d.cryRun k ops n = if j.input.length < e then d.cryFeed j o e else if j.bulk o.opcode && j.pass == 1 then d.cryFeed j o e else d := by
  have hno : (if o.stop then cryStop j.input.length (j.total o.opcode) else none) = none := by
    rcases hs with hs | hs <;> simp [hs]
  unfold CryJob.endsAtOnce at he
  unfold Dev.cryRun
  simp only [h, hr, he, Bool.not_true, Bool.false_eq_true, if_false]
  simp only [hp, ne_eq, not_true, if_false, hno, ← h1]

end

/-- The five rows by which a host job goes on are one operation, each for its own opcode. -/
theorem runRow_exec {k : Fin 4} {n : Nat} {c : Instr} {l : List Nat}
    (h : (c, l) ∈ [(Instr.cipher k n, [opCipher]), (Instr.hash k n, [opHash]), (Instr.hmac k n, [opHmac]), (Instr.ecdsaVerify k n, [opEcdsa]),
      (Instr.random k n, [opRandom])]) (s : State) : exec c s = .next { s with dev := (s.dev.cryRun k l n).settle } := by
  simp only [List.mem_cons, Prod.mk.injEq, List.not_mem_nil, or_false] at h
  obtain ⟨rfl, rfl⟩ | ⟨rfl, rfl⟩ | ⟨rfl, rfl⟩ | ⟨rfl, rfl⟩ | ⟨rfl, rfl⟩ := h <;> rfl

/-! ### INSTALL_SAK (R337) -/

section
variable {d : Dev} {k : Nat}

theorem installSak_none (h : d.cryJob k [opSak] = none) : d.installSak k = d := by unfold Dev.installSak; rw [h]

variable {j : CryJob} {o : Op} (h : d.cryJob k [opSak] = some (j, o))
include h

theorem installSak_off (hr : d.cryRuns = false) : d.installSak k = d.cryEnd o .failed errDomainOff := by
  unfold Dev.installSak
  simp only [h, hr, Bool.not_false, if_true]

variable (hr : d.cryRuns = true)
include hr

theorem installSak_stopped (hs : o.stop = true) (hd : d.cryDecided o = false) : d.installSak k = d.cryEnd o .aborted errAborted := by
  unfold Dev.installSak
  simp only [h, hr, hs, hd, Bool.not_true, Bool.not_false, Bool.and_true, Bool.false_eq_true, if_true, if_false]

theorem installSak_resting (hs : o.stop = false ∨ d.cryDecided o = true) (hp : j.phase ≠ .run) : d.installSak k = d := by
  have hgo : (o.stop && !d.cryDecided o) = false := by rcases hs with hs | hs <;> simp [hs]
  unfold Dev.installSak
  simp only [h, hr, hgo, Bool.not_true, Bool.false_eq_true, if_false]
  exact if_pos hp

/-- What a running INSTALL_SAK makes of its entry and of what it unwraps, the tests in their order. -/
theorem installSak_run {d1 : Dev} {e : Nat} {sak tag : List Nat} (hs : o.stop = false) (hp : j.phase = .run)
    (h1 : d1 = d.chanTouch (j.par 0 2)) (he : e = d1.chan (j.par 0 2))
    (hg : gcm j.key (((nats j.parm).drop 4).take 12) ((nats j.parm).take 4) (((nats j.parm).drop 32).take 32) true = (sak, tag)) :
    d.installSak k =
      if chType e ≠ 3 ∧ chType e ≠ 4 then d1.setJob { j with phase := .fin errFormat }
      else if d1.chanLocked (j.par 0 2) then d1.setJob { j with phase := .fin errLocked }
      else if tag ≠ ((nats j.parm).drop 64).take 16 then d1.setJob { j with phase := .fin errAuth }
      else (({ d1 with cry := { d1.cry with saks := SMap.set d1.cry.saks [] (j.par 0 2) sak } } : Dev).setChan (j.par 0 2) (setBit e 13 true)).setJob
        { j with phase := .fin errOk } := by
  unfold Dev.installSak
  simp only [h, hr, hs, hp, Bool.not_true, Bool.false_and, Bool.false_eq_true, if_false, ne_eq, not_true, ← h1, ← he, hg, Bool.and_eq_true,
    bne_iff_ne]

end

/-! ### What the end of a job writes (R322, R325) -/

section
variable {d : Dev} {j : CryJob}

/-- A decryption whose tag does not match writes nothing. -/
theorem cryResult_badTag (hm : j.mode = 3 ∨ j.mode = 4) (hd : j.dir = 1) (ht : d.cipherTag j (nats j.input) ≠ d.expectedTag j) :
    d.cryResult j opCipher false = (d, errAuth, 0) := by
  have h2 : ¬ j.mode ≤ 2 := by omega
  unfold Dev.cryResult
  simp [h2, hd, ht]

theorem cryResult_hash (d : Dev) (j : CryJob) (u : Bool) : d.cryResult j opHash u =
    (d.hostWrite j.outAddr (bytes (if j.alg = 0 then sha256 (nats j.input) else sha384 (nats j.input))), errOk, 0) := by
  unfold Dev.cryResult
  rw [if_neg (by decide), if_pos (by decide)]
  simp only [beq_iff_eq]

theorem cryResult_hmac (d : Dev) (j : CryJob) (u : Bool) : d.cryResult j opHmac u =
    if j.dir = 0 then (d.hostWrite j.outAddr (bytes (hmac (j.alg == 1) j.key (nats j.input))), errOk, 0)
    else (d, (if (hmac (j.alg == 1) j.key (nats j.input)).take j.tagLen = d.expectedTag j then errOk else errAuth), 0) := by
  unfold Dev.cryResult
  rw [if_neg (by decide), if_neg (by decide), if_pos (by decide)]
  simp only [beq_iff_eq]

end

/-! ### What a job does with its next bytes (R314, R325, R338) -/

section
variable {d : Dev} {j : CryJob} {o : Op} {n : Nat}

theorem cryFeed_random {bs : List Byte} (ho : o.opcode = opRandom) (hb : bs = d.freeBytes (n - j.input.length)) : d.cryFeed j o n =
    (((d.hostWrite (j.outAddr + j.input.length) bs).tookFree).setJob { j with input := j.input ++ bs }).setOp
      { o with progress := n, partialCnt := n, pos := n } := by
  unfold Dev.cryFeed
  simp only [ho, beq_self_eq_true, if_true, ← hb]

/-- A job that is not in the first pass of a two-pass decryption gathers its input, and a streaming cipher writes what it gives. -/
theorem cryFeed_gathers {inp : List Byte} (ho : o.opcode ≠ opRandom) (hb : (j.bulk o.opcode && j.pass == 1) = false)
    (hi : inp = j.input ++ d.hostRead (j.inAddr + j.input.length) (n - j.input.length)) : d.cryFeed j o n =
    ((if j.streams o.opcode then d.hostWrite (j.outAddr + j.input.length) (bytes ((d.cipherOut j (nats inp)).drop j.input.length)) else d).setJob
      { j with input := inp }).setOp { o with progress := n, partialCnt := if j.streams o.opcode then n else 0, pos := n } := by
  unfold Dev.cryFeed
  simp only [beq_eq_false_iff_ne.mpr ho, hb, Bool.false_and, Bool.false_eq_true, if_false, ← hi]

end

/-! ### The statement -/

/-- Settles O29, part by part from the rules above. That a job processes pieces of 16 bytes (log 44) and that a decided INSTALL_SAK does not
stop any more (log 86) are the model's readings. -/
theorem cryptoJobs : Obligations.CryptoJobs := by
  refine ⟨?rows, ?sak, fun d j => cryResult_badTag, fun d j u => ⟨cryResult_hash d j u, fun hd => ?generates, fun hd => ?checks⟩,
    fun d j o n => ⟨fun ho bs => cryFeed_random ho, fun ho hb inp => cryFeed_gathers ho hb⟩⟩
  case generates => rw [cryResult_hmac, if_pos hd]
  case checks => rw [cryResult_hmac, if_neg hd]
  case rows =>
    intro s k n c l hrow
    rw [runRow_exec hrow s]
    refine ⟨fun hq h => next_settle_of_eq hq (cryRun_none n h), fun j o h => ⟨fun hr => next_settle_congr s (cryRun_off n h hr),
      fun hr hs ho => next_settle_congr s (cryRun_endsAtOnce n h hr (endsAtOnce_told hs ho)),
      fun hr hq hs hp => next_settle_of_eq hq (cryRun_resting n h hr (endsAtOnce_untold j hs) hp),
      fun e hr hq ho hp => next_settle_of_eq hq (cryRun_resting n h hr (endsAtOnce_decided ho hp) (by simp [hp])), ?stops, ?goesOn⟩⟩
    case stops =>
      intro hr hs ho hp b hb
      have hstop := fun {d1 j1 o1} => cryRun_toBoundary (d1 := d1) (j1 := j1) (o1 := o1) n h hr (endsAtOnce_run ho hp) hp hs hb
      refine ⟨fun hle => next_settle_congr s (hstop (if_neg (by omega)).symm h), fun hlt d1 j1 o1 h1 hj => ?_⟩
      exact next_settle_congr s (hstop (h1.trans (if_pos hlt).symm) hj)
    case goesOn =>
      intro hr hs hp e h1
      have he : j.endsAtOnce o = false := hs.elim (endsAtOnce_untold j) (fun hn => endsAtOnce_run hn.1 hp)
      have hgo := cryRun_goesOn n h hr he hp (hs.imp_right And.right) h1
      refine ⟨fun hlt => next_settle_congr s (hgo.trans (if_pos hlt)), fun hq hle hb => next_settle_of_eq hq (hgo.trans ?_)⟩
      rw [if_neg (by omega), hb, if_neg Bool.false_ne_true]
  case sak =>
    refine fun s k => ⟨fun hq h => next_settle_of_eq hq (installSak_none h), fun j o h => ⟨fun hr => next_settle_congr s (installSak_off h hr),
      fun hr hs hd => next_settle_congr s (installSak_stopped h hr hs hd),
      fun hr hq hs hp => next_settle_of_eq hq (installSak_resting h hr hs hp), fun e => cryDecided_of_fin, ?_⟩⟩
    intro hr hs hp d1 e sak tag h1 he hg
    have hrun := installSak_run h hr hs hp h1 he hg
    refine ⟨fun h3 h4 => ?noSa, fun ht hl => ?locked, fun ht hl hbad => ?badTag, fun ht hl hok d2 h2 => ?installed⟩ <;>
      refine next_settle_congr s (hrun.trans ?_)
    case noSa => rw [if_pos ⟨h3, h4⟩]
    case locked => rw [if_neg (by omega), if_pos hl]
    case badTag => rw [if_neg (by omega), if_neg (by simp [hl]), if_pos hbad]
    case installed => rw [if_neg (by omega), if_neg (by simp [hl]), if_neg (not_not.mpr hok), h2]

end Sys2Proof.Machine
end

section
/-!
PROOF. How host jobs start and complete, their keys and held output, and the TRNG (R313, R314, R318, R324, R325, R327, R338, R426, R427): one
rule per way each row can go, then the statement assembled from them.
-/
namespace Sys2Proof.Machine

/-! ### The next host job starts (R314, R318, R324) -/

/-- The device once a starting job has met the errors of its key's slot, if it has one. -/
def Dev.jobTouchSlot (d : Dev) (op : Nat) (j : CryJob) : Dev :=
  match j.keyUse op with
  | some (s, _) => if s < 256 then d.slotTouch s else d
  | none => d

theorem jobTouchSlot_keyless (d : Dev) {op : Nat} {j : CryJob} (h : j.keyUse op = none) : d.jobTouchSlot op j = d := by
  unfold Dev.jobTouchSlot; rw [h]

theorem jobTouchSlot_keyed (d : Dev) {op k u : Nat} {j : CryJob} (h : j.keyUse op = some (k, u)) (hk : k < 256) :
    d.jobTouchSlot op j = d.slotTouch k := by
  unfold Dev.jobTouchSlot; simp only [h, hk, if_true]

/-- A host job takes an entry (R313). -/
def Dev.pushJob (d : Dev) (j : CryJob) : Dev := { d with cry := { d.cry with jobs := d.cry.jobs ++ [j] } }

/-- A job that has passed its tests takes its entry: it runs, a RANDOM job as one more generate request, or takes its key from the cache, or
waits for it. -/
def Dev.takeJob (d : Dev) (op : Nat) (j : CryJob) : Dev :=
  match j.keyUse op with
  | none =>
    if op == opRandom then { d with cry := { d.cry with reqs := if 1024 ≤ d.cry.reqs + 1 then 0 else d.cry.reqs + 1 } }.pushJob j
    else d.pushJob j
  | some (s, _) =>
    match d.cacheHit s with
    | some e => (d.pushJob { j with slot := s }).jobKey op { j with slot := s } e
    | none => (d.inc F.CRY_CACHE_MISS_COUNT).pushJob { j with slot := s, phase := .key }

section
variable {d : Dev} {op : Nat} {j : CryJob}

theorem takeJob_runs (hk : j.keyUse op = none) (ho : op ≠ opRandom) : d.takeJob op j = d.pushJob j := by
  unfold Dev.takeJob
  simp only [hk, beq_eq_false_iff_ne.mpr ho, Bool.false_eq_true, if_false]

/-- A RANDOM job is a generate request, which after 1,024 of them seeds anew (R338). -/
theorem takeJob_random (d : Dev) (j : CryJob) :
    d.takeJob opRandom j = { d with cry := { d.cry with reqs := if 1024 ≤ d.cry.reqs + 1 then 0 else d.cry.reqs + 1 } }.pushJob j := rfl

variable {k u : Nat} (hk : j.keyUse op = some (k, u))
include hk

theorem takeJob_miss (hc : d.cacheHit k = none) :
    d.takeJob op j = (d.inc F.CRY_CACHE_MISS_COUNT).pushJob { j with slot := k, phase := .key } := by
  unfold Dev.takeJob
  simp only [hk, hc]

theorem takeJob_hit {e : CacheEnt} (hc : d.cacheHit k = some e) :
    d.takeJob op j = (d.pushJob { j with slot := k }).jobKey op { j with slot := k } e := by
  unfold Dev.takeJob
  simp only [hk, hc]

end

section
variable {d : Dev}

theorem cryStart_idle (h : d.nextQueued 58 [1, 2, 3, 4, 5, 6] = none) : d.cryStart = d := by unfold Dev.cryStart; rw [h]

/-- Four host jobs run at most. -/
theorem cryStart_full (h : 4 ≤ d.cry.jobs.length) : d.cryStart = d := by
  unfold Dev.cryStart
  split
  · rfl
  · exact if_pos h

variable {o : Op} {j : CryJob} {d1 : Dev} (hn : d.nextQueued 58 [1, 2, 3, 4, 5, 6] = some o) (hl : d.cry.jobs.length < 4)
  (hj : j = ⟨o.idx, d.hostRead o.param (if o.opcode == opSak then 80 else 64), .run, 0, 0, [], 0, [], 1⟩)
  (h1 : d1 = (d.startOp o).jobTouchSlot o.opcode j)
include hn hl hj h1

/-- A queued job with an entry for it fails its tests or takes its place. -/
theorem cryStart_next : d.cryStart = (d1.jobError o.opcode j).elim (d1.takeJob o.opcode j) (fun e => d1.opFail { o with state := .running } e) := by
  unfold Dev.jobTouchSlot at h1
  unfold Dev.cryStart Dev.takeJob
  cases hk : j.keyUse o.opcode
  all_goals
    simp only [hk] at h1
    subst hj
    simp only [hn, Nat.not_le.mpr hl, if_false, hk, ← h1]
    cases Dev.jobError d1 o.opcode _ <;> rfl

theorem cryStart_fails {e : Nat} (he : d1.jobError o.opcode j = some e) : d.cryStart = d1.opFail { o with state := .running } e := by
  rw [cryStart_next hn hl hj h1, he, Option.elim_some]

theorem cryStart_takes (he : d1.jobError o.opcode j = none) : d.cryStart = d1.takeJob o.opcode j := by
  rw [cryStart_next hn hl hj h1, he, Option.elim_none]

end

/-! ### The tests before a job reads data (R324) -/

section
variable {d : Dev} {op : Nat} {j : CryJob}

theorem jobError_off (hr : d.cryRuns = false) : d.jobError op j = some errDomainOff := by unfold Dev.jobError; simp [hr]

variable (hr : d.cryRuns = true)
include hr

theorem jobError_format (hf : j.badFormat op = true) : d.jobError op j = some errFormat := by unfold Dev.jobError; simp [hr, hf]

theorem jobError_length (hf : j.badFormat op = false) (hl : j.badLength op = true) : d.jobError op j = some errLength := by
  unfold Dev.jobError; simp [hr, hf, hl]

end

/-! ### Keys (R318) -/

/-- The cache entry that a derivation for slot `k` makes. -/
def Dev.derivedEnt (d : Dev) (k : Nat) (p : Bool) : CacheEnt := ⟨k, slCounter (d.slot k), d.slotKey k (d.slot k), p⟩

theorem cachePut_head (d : Dev) (k : Nat) (p : Bool) : (d.cachePut k p).cry.cache.head? = some (d.derivedEnt k p) := rfl

/-- The new entry leads the cache and is that of the slot as it stands. -/
theorem cacheHit_cachePut (d : Dev) (k : Nat) (p : Bool) : (d.cachePut k p).cacheHit k = some (d.derivedEnt k p) := by
  have hslot : (d.cachePut k p).slot k = d.slot k := rfl
  obtain ⟨l, hl⟩ := List.head?_eq_some_iff.mp (cachePut_head d k p)
  unfold Dev.cacheHit
  rw [hl, hslot]
  exact List.find?_cons_of_pos (by simp [Dev.derivedEnt])

/-- A job that needs no held output runs as soon as it has its key. -/
theorem jobKey_runs {d d1 : Dev} {op : Nat} {j : CryJob} {e : CacheEnt} (hn : j.need op = 0)
    (h1 : d1 = { d with cry := { d.cry with cache := e :: d.cry.cache.filter (fun x => x != e) } }) :
    d.jobKey op j e = d1.setJob { j with counter := e.counter, key := e.key, phase := .run } := by
  have hne : ({ j with counter := e.counter, key := e.key } : CryJob).need op = 0 := hn
  unfold Dev.jobKey Dev.jobUnits
  simp only [hne, h1, beq_self_eq_true, if_true]

/-- The jobs that wait for the key of slot `k`, in the order they started. -/
def Dev.keyWaiters (d : Dev) (k : Nat) : List CryJob := d.cry.jobs.filter (fun j => decide (j.phase = .key) && j.slot == k)

/-- A waiting job takes the derived key of slot `k`, or fails where the slot is not available or has no entry. -/
def Dev.takeDerived (avail : Bool) (k : Nat) (d : Dev) (j : CryJob) : Dev :=
  match d.host.ops.find? (fun o => o.ring == 58 && o.idx == j.idx), d.cacheHit k with
  | none, _ => d
  | some o, some e => if avail then d.jobKey o.opcode j e else d.cryEnd o .failed errKey
  | some o, none => d.cryEnd o .failed errKey

section
variable {d : Dev} {k : Nat}

theorem keyDerived_none (h : d.keyWaiters k = []) : d.keyDerived k = d := by
  unfold Dev.keyWaiters at h
  unfold Dev.keyDerived
  simp only [h, List.isEmpty_nil, if_true]

theorem keyDerived_waited {d1 : Dev} (h : d.keyWaiters k ≠ [])
    (h1 : d1 = if d.slotAvail k = true ∧ d.cacheHit k = none then d.cachePut k false else d) :
    d.keyDerived k = (d.keyWaiters k).foldl (Dev.takeDerived (d.slotAvail k) k) d1 := by
  unfold Dev.keyWaiters at h ⊢
  unfold Dev.keyDerived
  simp only [List.isEmpty_iff, h, if_false, Bool.and_eq_true, Option.isNone_iff_eq_none, ← h1]
  refine congrArg (fun g => List.foldl g d1 _) (funext fun f => funext fun j => ?_)
  unfold Dev.takeDerived
  cases f.host.ops.find? (fun o => o.ring == 58 && o.idx == j.idx) <;> cases f.cacheHit k <;> rfl

theorem takeDerived_hit {j : CryJob} {o : Op} {e : CacheEnt}
    (ho : d.host.ops.find? (fun o => o.ring == 58 && o.idx == j.idx) = some o) (hc : d.cacheHit k = some e) :
    Dev.takeDerived true k d j = d.jobKey o.opcode j e := by
  unfold Dev.takeDerived
  simp only [ho, hc, if_true]

end

/-! ### Held output (R327) -/

section
variable {d : Dev} {op : Nat} {j : CryJob}

theorem unitsResume_none (h : d.cry.jobs.find? (fun j => decide (j.phase = .units)) = none) : d.unitsResume = d := by
  unfold Dev.unitsResume; rw [h]

theorem unitsResume_first (h : d.cry.jobs.find? (fun j => decide (j.phase = .units)) = some j) : d.unitsResume = d.jobUnits opCipher j := by
  unfold Dev.unitsResume; rw [h]

variable (hn : j.need op ≠ 0)
include hn

theorem jobUnits_room (hh : d.heldUnits + j.need op ≤ 1536) (hr : d.heldUnits + d.rxUnits + j.need op ≤ 2048) :
    d.jobUnits op j = d.setJob { j with phase := .run, units := j.need op } := by
  unfold Dev.jobUnits
  simp only [beq_eq_false_iff_ne.mpr hn, Bool.false_eq_true, if_false, hh, hr, and_self, if_true]

theorem jobUnits_noRoom (h : 1536 < d.heldUnits + j.need op ∨ 2048 < d.heldUnits + d.rxUnits + j.need op) :
    d.jobUnits op j = d.setJob { j with phase := .units } := by
  unfold Dev.jobUnits
  simp only [beq_eq_false_iff_ne.mpr hn, Bool.false_eq_true, if_false]
  exact if_neg (by omega)

end

/-! ### A job completes (R325, R426) -/

section
variable {d : Dev} {k : Nat} (ue : Bool)

theorem cryComplete_none (h : d.cryJob k [1, 2, 3, 4, 5, 6] = none) : d.cryComplete k ue = d := by unfold Dev.cryComplete; rw [h]

variable {j : CryJob} {o : Op} (h : d.cryJob k [1, 2, 3, 4, 5, 6] = some (j, o))
include h

theorem cryComplete_off (hr : d.cryRuns = false) : d.cryComplete k ue = d.cryEnd o .failed errDomainOff := by
  unfold Dev.cryComplete
  simp only [h, hr, Bool.not_false, if_true]

variable (hr : d.cryRuns = true) (he : j.endsAtOnce o = false)
include hr he

theorem cryComplete_decided {e : Nat} (hp : j.phase = .fin e) :
    d.cryComplete k ue = d.cryEnd { o with partialCnt := 0 } (if e == errOk then .done else .failed) e := by
  unfold CryJob.endsAtOnce at he
  unfold Dev.cryComplete
  simp only [h, hr, he, Bool.not_true, Bool.false_eq_true, if_false]
  simp only [hp]

variable (hp : j.phase = .run)
include hp

theorem cryComplete_dataLeft (hd : j.input.length < j.total o.opcode) : d.cryComplete k ue = d := by
  unfold CryJob.endsAtOnce at he
  unfold Dev.cryComplete
  simp only [h, hr, he, Bool.not_true, Bool.false_eq_true, if_false]
  simp only [hp, hd, decide_true, Bool.or_true, Bool.true_or, if_true]

/-- A job that has processed all its data writes its result and ends with its error. -/
theorem cryComplete_ends {d1 : Dev} {e n : Nat} (ho : o.opcode ≠ opSak) (hd : j.total o.opcode ≤ j.input.length)
    (hb : (j.bulk o.opcode && j.pass == 1) = false) (hres : d.cryResult j o.opcode ue = (d1, e, n)) :
    d.cryComplete k ue = d1.cryEnd { o with partialCnt := n } (if e == errOk then .done else .failed) e := by
  unfold CryJob.endsAtOnce at he
  unfold Dev.cryComplete
  simp only [h, hr, he, Bool.not_true, Bool.false_eq_true, if_false]
  simp only [hp, beq_eq_false_iff_ne.mpr ho, Nat.not_lt.mpr hd, hb, decide_false, Bool.or_self, Bool.false_eq_true, if_false, hres]

end

/-! ### TRNG (R338) -/

section
variable {d : Dev}

theorem trngReady_off (h : d.ready 8 = false ∨ d.cry.trngDead = true) : d.trngReady = d := by
  unfold Dev.trngReady
  rcases h with h | h <;> simp [h]

theorem trngReady_on (hr : d.ready 8 = true) (ht : d.cry.trngDead = false) : d.trngReady = d.set F.CRY_STATUS_TRNG_OK 1 := by
  unfold Dev.trngReady; simp [hr, ht]

theorem trngFail_again (hr : d.ready 8 = true) (ht : d.cry.trngDead = true) : d.trngFail = d := by
  unfold Dev.trngFail; simp [hr, ht]

theorem trngFail_first (hr : d.ready 8 = true) (ht : d.cry.trngDead = false) :
    d.trngFail = ({ d with cry := { d.cry with trngDead := true } } : Dev).trngFailed := by
  unfold Dev.trngFail; simp [hr, ht]

theorem trngFail_off (hr : d.ready 8 = false) (hg : bit d.pwr.goingOn 7 = false) : d.trngFail = d := by
  unfold Dev.trngFail; simp [hr, hg]

end

/-! ### The statement -/

/-- Settles O30, part by part from the rules above. The order of a starting job's tests, which R324 leaves open, and that a decided result
stands against a stop (R426, R427, log 86) are the model's readings. -/
theorem cryptoRuns : Obligations.CryptoRuns := by
  refine ⟨?idle, ?starts, fun d op j => ⟨jobError_off, jobError_format, jobError_length⟩, ?derived, ?units, ?completes, ?trng, ?random,
    fun d k p => ⟨cachePut_head d k p, rfl, rfl, rfl, cacheHit_cachePut d k p⟩, fun d op j e hn d1 => jobKey_runs hn⟩
  case idle => exact fun s hq h => next_settle_of_eq hq (h.elim cryStart_idle cryStart_full)
  case starts =>
    refine fun s o j d1 hn hl hj => ⟨fun hk h1 => ?keyless, fun k u hk hlt h1 => ?keyed⟩
    case keyless =>
      have h1' := h1.trans (jobTouchSlot_keyless _ hk).symm
      exact ⟨fun e he => next_settle_congr s (cryStart_fails hn hl hj h1' he),
        fun he ho => next_settle_congr s ((cryStart_takes hn hl hj h1' he).trans (takeJob_runs hk ho))⟩
    case keyed =>
      have h1' := h1.trans (jobTouchSlot_keyed _ hk hlt).symm
      refine ⟨fun e he => next_settle_congr s (cryStart_fails hn hl hj h1' he), fun he hc d2 h2 => ?miss, fun e d2 he hc h2 => ?hit⟩ <;>
        refine next_settle_congr s ((cryStart_takes hn hl hj h1' he).trans ?_)
      case miss => rw [takeJob_miss hk hc, h2, Dev.pushJob]
      case hit => rw [takeJob_hit hk hc, h2, Dev.pushJob]
  case random =>
    intro s o j d1 hn hl ho hj h1 he
    have hsize : (if o.opcode == opSak then 80 else 64) = 64 := by rw [ho]; rfl
    have hk : j.keyUse o.opcode = none := by rw [ho]; rfl
    have hstart := cryStart_takes hn hl (hj.trans (by rw [hsize])) (h1.trans (jobTouchSlot_keyless _ hk).symm) (ho ▸ he)
    exact next_settle_congr s (hstart.trans (ho ▸ takeJob_random d1 j))
  case derived =>
    rintro s k l rfl
    refine ⟨fun hq h => next_settle_of_eq hq (keyDerived_none h), fun d1 hl h1 => next_settle_congr s (keyDerived_waited hl h1),
      fun j o hl ho ha e hc => next_settle_congr s ?_⟩
    have hl' : s.dev.keyWaiters k = [j] := hl
    rw [keyDerived_waited (by simp [hl']) (if_neg (by simp [hc])).symm, hl', ha]
    exact takeDerived_hit ho hc
  case units =>
    exact fun s => ⟨fun hq h => next_settle_of_eq hq (unitsResume_none h),
      fun j h hn hh hr => next_settle_congr s ((unitsResume_first h).trans (jobUnits_room (by omega) hh hr)),
      fun j h hno hn => next_settle_congr s ((unitsResume_first h).trans (jobUnits_noRoom hn hno))⟩
  case completes =>
    refine fun s k ue => ⟨fun hq h => next_settle_of_eq hq (cryComplete_none ue h), fun j o h =>
      ⟨fun hr => next_settle_congr s (cryComplete_off ue h hr), fun hr hs e hp => ?decided,
      fun hr hq hs hp hd => next_settle_of_eq hq (cryComplete_dataLeft ue h hr (endsAtOnce_untold j hs) hp hd),
      fun hr hs hp ho hd hb d1 e n hres => next_settle_congr s (cryComplete_ends ue h hr (endsAtOnce_untold j hs) hp ho hd hb hres)⟩⟩
    case decided =>
      have he : j.endsAtOnce o = false := hs.elim (endsAtOnce_untold j) (fun ho => endsAtOnce_decided ho hp)
      exact next_settle_congr s (cryComplete_decided ue h hr he hp)
  case trng =>
    refine fun s => ⟨fun hq h => next_settle_of_eq hq (trngReady_off h), fun hq hr ht => ?ready,
      fun hq hr ht => next_settle_of_eq hq (trngFail_again hr ht), fun hr ht => next_settle_congr s (trngFail_first hr ht),
      fun hq hr hg => next_settle_of_eq hq (trngFail_off hr hg)⟩
    case ready =>
      refine ⟨_, next_settle_of_flt hq (trngReady_on hr ht) (set_flt s.dev _ 1), ?_, ?_, ?_, ?_⟩
      · exact flag_set_same s.dev F.CRY_STATUS_TRNG_OK true rfl (by decide)
      · exact only_set F.CRY_STATUS_TRNG_OK 1 (List.mem_singleton.mpr rfl) (by decide) (only_refl s.dev _)
      · exact set_cry s.dev F.CRY_STATUS_TRNG_OK 1
      · exact set_fwd s.dev F.CRY_STATUS_TRNG_OK 1

end Sys2Proof.Machine
end

section
/-!
PROOF. No command and no run stops the device (log 5, R463): each command ends as `State.done`, which applies every reaction and leaves
the queue to the step; a step and a run of steps follow.
-/
namespace Sys2Proof.Machine

/-! ### Every command ends as `State.done` -/

/-- The answer is a next state whose reactions have been applied. -/
def State.completes (s : State) (r : Host.Outcome State Fault Refusal) : Prop := ∃ d, r = s.done d

theorem completes_done (s : State) (d : Dev) : s.completes (s.done d) := ⟨d, rfl⟩

theorem completes_ite (s : State) (c : Prop) [Decidable c] {x y : Host.Outcome State Fault Refusal} (hx : s.completes x)
    (hy : s.completes y) : s.completes (if c then x else y) := by
  split
  · exact hx
  · exact hy

section
variable (s : State) (i : Fin 24)

theorem inrushWindowEnd_completes : s.completes (execInrushWindowEnd i s) := by
  unfold execInrushWindowEnd
  dsimp only
  split
  · exact completes_done s _
  · exact completes_done s _

theorem deferredTurnOn_completes : s.completes (execDeferredTurnOn s) := by
  unfold execDeferredTurnOn
  split
  · exact completes_done s _
  · dsimp only
    split
    · exact completes_done s _
    · exact completes_done s _

theorem currentLimit_completes (x : Nat) : s.completes (execCurrentLimit i x s) :=
  completes_ite s _ (completes_done s _) (completes_done s _)

theorem gdShortTrip_completes (x v : Nat) : s.completes (execGdShortTrip i x v s) :=
  completes_ite s _ (completes_ite s _ (completes_done s _) (completes_ite s _ (completes_done s _) (completes_done s _))) (completes_done s _)

theorem gdOvercurrentTrip_completes (x : Nat) : s.completes (execGdOvercurrentTrip i x s) :=
  completes_ite s _ (completes_done s _) (completes_done s _)

theorem wireModelUpdate_completes (x y : Nat) : s.completes (execWireModelUpdate i x y s) :=
  completes_ite s _ (completes_done s _) (completes_ite s _ (completes_done s _) (completes_done s _))

theorem thermalTrip_completes (tj : Int) (dt : Nat) : s.completes (execThermalTrip i tj dt s) :=
  completes_ite s _ (completes_done s _) (completes_ite s _ (completes_done s _) (completes_done s _))

theorem retryCountReset_completes : s.completes (execRetryCountReset i s) := by
  unfold execRetryCountReset
  dsimp only
  split
  · exact completes_done s _
  · exact completes_ite s _ (completes_done s _) (completes_done s _)

theorem openLoadDetect_completes (x : Nat) : s.completes (execOpenLoadDetect i x s) :=
  completes_ite s _ (completes_done s _) (completes_done s _)

theorem groupShed_completes (g : Fin 3) (c0 c1 c2 c3 : Nat) : s.completes (execGroupShed g c0 c1 c2 c3 s) := by
  refine completes_ite s _ ?_ (completes_done s _)
  split
  · exact completes_done s _
  · exact completes_done s _

theorem groundReturn_completes : s.completes (execGroundReturn s) := completes_ite s _ (completes_done s _) (completes_done s _)

theorem wdExpiry_completes : s.completes (execWdExpiry s) := by
  unfold execWdExpiry
  dsimp only
  split
  · exact completes_done s _
  · exact completes_ite s _ (completes_done s _) (completes_done s _)

theorem ptimeCorrection_completes : s.completes (execPtimeCorrection s) := completes_ite s _ (completes_done s _) (completes_done s _)

theorem ptimeInvalid_completes : s.completes (execPtimeInvalid s) := by
  unfold execPtimeInvalid
  split
  · exact completes_done s _
  · exact completes_done s _

theorem pwmEdge_completes : s.completes (execPwmEdge i s) :=
  completes_ite s _ (completes_ite s _ (completes_done s _) (completes_ite s _ (completes_done s _) (completes_done s _)))
    (completes_done s _)

end

/-- Some commands of the load side choose among several effects on the device, every other command has one. -/
theorem exec_completes (c : Instr) (s : State) : s.completes (exec c s) := by
  cases c
  case inrushWindowEnd i => exact inrushWindowEnd_completes s i
  case deferredTurnOn => exact deferredTurnOn_completes s
  case currentLimit i x => exact currentLimit_completes s i x
  case gdShortTrip i x v => exact gdShortTrip_completes s i x v
  case gdOvercurrentTrip i x => exact gdOvercurrentTrip_completes s i x
  case wireModelUpdate i x y => exact wireModelUpdate_completes s i x y
  case thermalTrip i tj dt => exact thermalTrip_completes s i tj dt
  case retryCountReset i => exact retryCountReset_completes s i
  case openLoadDetect i x => exact openLoadDetect_completes s i x
  case groupShed g c0 c1 c2 c3 => exact groupShed_completes s g c0 c1 c2 c3
  case groundReturn => exact groundReturn_completes s
  case wdExpiry => exact wdExpiry_completes s
  case ptimeCorrection => exact ptimeCorrection_completes s
  case ptimeInvalid => exact ptimeInvalid_completes s
  case pwmEdge i => exact pwmEdge_completes s i
  all_goals exact completes_done s _

theorem exec_next (c : Instr) (s : State) : ∃ t : State, exec c s = .next t ∧ t.pending = s.pending ∧ t.dev.flt.todo = [] := by
  obtain ⟨d, h⟩ := exec_completes c s
  exact ⟨{ s with dev := d.settle }, h.trans (done_eq s d), rfl, settle_todo d⟩

/-! ### Steps and runs -/

theorem step_idle {s : State} (h : s.pending = []) : step s = .next { s with dev := s.dev.advance 1 } := by
  unfold step; rw [h]

theorem step_front {s : State} {c : Instr} {l : List Instr} (h : s.pending = c :: l) : step s = exec c { s with pending := l } := by
  unfold step; rw [h]

theorem sound_iff (s : State) : s.sound = true ↔ s.dev.quiet ∧ s.pending.all Instr.wf = true := by
  unfold State.sound Dev.quiet
  rw [Bool.and_eq_true, List.isEmpty_iff]

/-- A step takes the front of the queue; an idle one owes no new reaction, any other has applied its own. -/
theorem step_next (s : State) : ∃ t, step s = .next t ∧ t.pending = s.pending.tail ∧ (s.dev.quiet → t.dev.quiet) := by
  cases hp : s.pending with
  | nil =>
    refine ⟨_, step_idle hp, hp, fun hq => ?_⟩
    show (s.dev.advance 1).flt.todo = []
    rw [advance_flt]
    exact hq
  | cons c l =>
    obtain ⟨t, ht, hl, hq⟩ := exec_next c { s with pending := l }
    exact ⟨t, (step_front hp).trans ht, hl, fun _ => hq⟩

theorem all_wf_drop {l : List Instr} (n : Nat) (h : l.all Instr.wf = true) : (l.drop n).all Instr.wf = true := by
  rw [List.all_eq_true] at h ⊢
  exact fun c hc => h c (List.mem_of_mem_drop hc)

/-- A run whose first step answers next goes on from there. -/
theorem run_succ_of_next (M : Host.Core) (n : Nat) {s t : M.State} (h : M.step s = .next t) : M.run (n + 1) s = M.run n t := by
  rw [Host.Core.run, h]

/-- A run of `n` steps loses the first `n` commands, and keeps that no reaction waits. -/
theorem run_next (n : Nat) (s : State) : ∃ t, Host.Core.run core n s = .next t ∧ t.pending = s.pending.drop n
    ∧ (s.dev.quiet → t.dev.quiet) := by
  induction n generalizing s with
  | zero => exact ⟨s, rfl, rfl, id⟩
  | succ n ih =>
    obtain ⟨t, ht, hp, hq⟩ := step_next s
    obtain ⟨u, hu, hpu, hqu⟩ := ih t
    refine ⟨u, ?_, ?_, fun h => hqu (hq h)⟩
    · exact (run_succ_of_next core n ht).trans hu
    · rw [hpu, hp, List.drop_tail]

/-! ### The obligations -/

/-- Settles O4: every command ends as `State.done` (`exec_completes`). -/
theorem everyCommandCompletes : Obligations.EveryCommandCompletes := exec_next

/-- Settles O5: a step takes the queue's front (`step_next`), and what remains of a queue of commands that can be sent is one. -/
theorem stepKeepsSound : Obligations.StepKeepsSound := by
  intro s
  obtain ⟨t, ht, hp, hq⟩ := step_next s
  refine ⟨⟨t, ht, hp⟩, fun u hu hs => ?_⟩
  obtain rfl : t = u := Host.Outcome.next.inj (ht.symm.trans hu)
  obtain ⟨hquiet, hwf⟩ := (sound_iff s).mp hs
  refine (sound_iff t).mpr ⟨hq hquiet, ?_⟩
  rw [hp, ← List.drop_one]
  exact all_wf_drop 1 hwf

/-- Settles O6, by induction on the number of steps (`run_next`). -/
theorem everyRunCompletes : Obligations.EveryRunCompletes := by
  intro n s
  obtain ⟨t, ht, hp, hq⟩ := run_next n s
  refine ⟨t, ht, hp, fun hs => ?_⟩
  obtain ⟨hquiet, hwf⟩ := (sound_iff s).mp hs
  refine (sound_iff t).mpr ⟨hq hquiet, ?_⟩
  rw [hp]
  exact all_wf_drop n hwf

end Sys2Proof.Machine
end

section
/-!
PROOF. Trips of the load channels (R390, R392, R393, R395): a trip is one operation, `Dev.trip`, so each clause needs only that the
measured values and the clock, which move before it, decide nothing of what it does.
-/
namespace Sys2Proof.Machine

/-! ### What the load side keeps beside its channels and events -/

/-- `f` reads neither the channels nor the events that wait nor the flits of the die link. -/
def LoadSt.beside {α : Type} (f : LoadSt → α) : Prop := ∀ l c b n, f { l with chans := c, evBuf := b, flits := n } = f l

section
variable {α : Type} {f : LoadSt → α} (hf : LoadSt.beside f)
include hf

theorem flits_beside (d : Dev) (n : Nat) : f (d.flits n).load = f d.load := by
  unfold Dev.flits
  split
  · rw [add_load]; exact hf d.load d.load.chans d.load.evBuf _
  · rfl

theorem evPut_beside (d : Dev) (e : List Byte) : f (d.evPut e).load = f d.load := by
  unfold Dev.evPut
  dsimp only
  split
  · rw [eventPut_load, flits_beside hf]
  · rw [fltSet_load, inc_load, flits_beside hf]

theorem ev63_beside (d : Dev) (e : List Byte) : f (d.ev63 e).load = f d.load := by
  unfold Dev.ev63
  repeat' split
  · rw [evPut_beside hf]
    exact drain63_keeps (fun d => f d.load) (evPut_beside hf) (fun d => hf d.load d.load.chans [] d.load.flits) d
  · exact hf d.load d.load.chans _ d.load.flits
  · rw [inc_load]

theorem chFault_beside (d : Dev) (i c : Nat) : f (d.chFault i c).load = f d.load := by
  unfold Dev.chFault
  rw [steEvent_load, ev63_beside hf, fltSet_load]
  rw [Dev.setBitOf, set_load]

theorem setCh_beside (d : Dev) (i : Nat) (c : LoadCh) : f (d.setCh i c).load = f d.load := by
  unfold Dev.setCh
  rw [set_load, set_load, set_load]
  exact hf d.load _ d.load.evBuf d.load.flits

theorem trip_beside (d : Dev) (i c : Nat) : f (d.trip i c).load = f d.load := by
  unfold Dev.trip
  dsimp only
  split
  · rw [chFault_beside hf, chFault_beside hf, inc_load, set_load, set_load, setCh_beside hf]
  · rw [chFault_beside hf, inc_load, set_load, set_load, setCh_beside hf]

end

/-! ### What moves before a trip -/

/-- A trip of a device that has the channels and the policy of another trips the other. -/
theorem tripped_of {d e g : Dev} {i c : Nat} (hp : e.get (F.LOAD_CH_CFG_POLICY i) = d.get (F.LOAD_CH_CFG_POLICY i))
    (hc : ∀ j, e.ch j = d.ch j) (h : e.tripped g i c) : d.tripped g i c := by
  unfold Dev.tripped at h ⊢
  rw [hp] at h
  obtain ⟨hrun, hout, hwin, hpend, hcode, hother⟩ := h
  exact ⟨hrun, hout, hwin, hpend, hcode, fun j hj => (hother j hj).trans (hc j)⟩

/-- From one state of the device to the next only registers of a list change, and no channel, reaction or table. -/
structure Dev.measured (d e : Dev) (l : List Nat) : Prop where
  only : d.regsOnly e l
  chans : ∀ j, e.ch j = d.ch j
  flt : e.flt = d.flt
  tbl : e.tbl = d.tbl

theorem measured_refl (d : Dev) (l : List Nat) : d.measured d l := ⟨only_refl _ _, fun _ => rfl, rfl, rfl⟩

section
variable {d e : Dev} {l : List Nat} (h : d.measured e l)
include h

/-- A field of a listed register takes a value. -/
theorem Dev.measured.set (f : FieldRef) (v : Nat) (ha : f.addr ∈ l) (hw : f.lo + f.w ≤ 32) : d.measured (e.set f v) l :=
  ⟨only_set f v ha hw h.only, fun j => (set_ch e f v j).trans (h.chans j), (set_flt e f v).trans h.flt, (set_tbl e f v).trans h.tbl⟩

/-- Time passes. -/
theorem Dev.measured.reach (t : Nat) (ha : R.TIME_SLEW_CTRL ∈ l) : d.measured (e.reach t) l :=
  ⟨only_reach t ha h.only, fun j => (reach_ch e t j).trans (h.chans j), (reach_flt e t).trans h.flt, (reach_tbl e t).trans h.tbl⟩

/-- A trip after the measured values: what it leaves of the channel, of the tables and of the registers. -/
theorem Dev.measured.trip {i : Nat} (c : Nat) (hp : R.LOAD_CH_CFG i ∉ l) (hc : ∀ a ∈ chanRegs i, a ∈ l) (hl : ∀ a ∈ loadEventRegs, a ∈ l) :
    d.tripped (e.trip i c) i c ∧ (e.trip i c).tbl = d.tbl ∧ (e.trip i c).flt = d.flt ∧ d.regsOnly (e.trip i c) l :=
  ⟨tripped_of (get_only h.only _ hp (.inl (of_decide_eq_true rfl))) h.chans (trip_tripped e i c), (trip_tbl e i c).trans h.tbl,
    (trip_flt e i c).trans h.flt, only_trip _ _ hl hc h.only⟩

end

/-- The registers that a trip of channel `i` can change, and with the clock's. -/
def tripRegs (i : Nat) : List Nat := chanRegs i ++ loadEventRegs
def timedTripRegs (i : Nat) : List Nat := R.TIME_SLEW_CTRL :: chanRegs i ++ loadEventRegs

theorem chanRegs_sub_tripRegs {i : Nat} : ∀ a ∈ chanRegs i, a ∈ tripRegs i := fun _ => List.mem_append_left _
theorem eventRegs_sub_tripRegs {i : Nat} : ∀ a ∈ loadEventRegs, a ∈ tripRegs i := fun _ => List.mem_append_right _
theorem tripRegs_sub_timed {i : Nat} : ∀ a ∈ tripRegs i, a ∈ timedTripRegs i := fun _ => List.mem_cons_of_mem _

/-- How a channel is configured, and its limits, lie at none of those registers. -/
theorem config_not_mem_tripRegs (i : Fin 24) : R.LOAD_CH_CFG i ∉ timedTripRegs i ∧ R.LOAD_CH_LIM i ∉ timedTripRegs i := by
  revert i
  decide +kernel

theorem meas_mem_tripRegs (i : Nat) : R.LOAD_CH_MEAS i ∈ tripRegs i := by simp [tripRegs, chanRegs]

theorem Dev.measured.mono {d e : Dev} {l m : List Nat} (h : d.measured e l) (hs : ∀ a ∈ l, a ∈ m) : d.measured e m :=
  ⟨only_mono h.only hs, h.chans, h.flt, h.tbl⟩

/-- A trip of channel `i` at once, and after time has passed. -/
theorem Dev.measured.trips {d e : Dev} {i : Fin 24} (h : d.measured e (tripRegs i)) (c : Nat) :
    d.tripped (e.trip i c) i c ∧ (e.trip i c).tbl = d.tbl ∧ (e.trip i c).flt = d.flt ∧ d.regsOnly (e.trip i c) (tripRegs i) :=
  h.trip c (fun hm => (config_not_mem_tripRegs i).1 (tripRegs_sub_timed _ hm)) chanRegs_sub_tripRegs eventRegs_sub_tripRegs

theorem Dev.measured.tripsLater {d e : Dev} {i : Fin 24} (h : d.measured e (timedTripRegs i)) (c : Nat) :
    d.tripped (e.trip i c) i c ∧ (e.trip i c).tbl = d.tbl ∧ (e.trip i c).flt = d.flt ∧ d.regsOnly (e.trip i c) (timedTripRegs i) :=
  h.trip c (config_not_mem_tripRegs i).1 (fun a ha => tripRegs_sub_timed a (chanRegs_sub_tripRegs a ha))
    (fun a ha => tripRegs_sub_timed a (eventRegs_sub_tripRegs a ha))

/-! ### Overcurrent and short circuit (R390) -/

section
variable (s : State) (i : Fin 24) (cur : Nat)

/-- The device with the measured current. -/
def Dev.withCurrent (d : Dev) (i cur : Nat) : Dev := d.set (F.LOAD_CH_MEAS_CURRENT i) (min 65535 cur)

theorem measured_withCurrent (d : Dev) : d.measured (d.withCurrent i cur) [R.LOAD_CH_MEAS i] :=
  (measured_refl d _).set _ _ (List.mem_singleton_self _) (of_decide_eq_true rfl)

theorem measured_withCurrent_trip (d : Dev) : d.measured (d.withCurrent i cur) (tripRegs i) :=
  (measured_withCurrent i cur d).mono (fun _ ha => List.mem_singleton.mp ha ▸ meas_mem_tripRegs _)

theorem gdOvercurrentTrip_trips (h12 : 12 ≤ i.val) (hon : (s.dev.ch i).isOn = true) (hc : s.dev.chLimit i < cur) :
    exec (.gdOvercurrentTrip i cur) s = s.done ((s.dev.withCurrent i cur).trip i 2) := if_pos ⟨h12, hon, hc⟩

section
variable (vds : Nat) (h12 : 12 ≤ i.val) (hon : (s.dev.ch i).isOn = true)
include h12 hon

theorem gdShortTrip_overLimit (hc : s.dev.get (F.LOAD_CH_LIM_I_LIM i) * s.dev.get (F.LOAD_CH_LIM_SC_MULT i) < cur) :
    exec (.gdShortTrip i cur vds) s = s.done ((s.dev.withCurrent i cur).trip i 3) := (if_pos ⟨h12, hon⟩).trans (if_pos hc)

variable (hc : cur ≤ s.dev.get (F.LOAD_CH_LIM_I_LIM i) * s.dev.get (F.LOAD_CH_LIM_SC_MULT i))
include hc

theorem gdShortTrip_gateHolds (hv : s.dev.get (F.LOAD_CH_GD_VDS_TH i) * 20 < vds)
    (hg : s.dev.gateHolds i (max s.dev.now ((s.dev.ch i).gateAt + 4 * usCyc)) = true) :
    exec (.gdShortTrip i cur vds) s
      = s.done (((s.dev.withCurrent i cur).reach ((s.dev.ch i).gateAt + 4 * usCyc)).trip i 3) :=
  (if_pos ⟨h12, hon⟩).trans ((if_neg (by omega)).trans (if_pos (by rw [hg, Bool.and_true]; exact decide_eq_true hv)))

theorem gdShortTrip_gateOff (hg : s.dev.gateHolds i (max s.dev.now ((s.dev.ch i).gateAt + 4 * usCyc)) = false) :
    exec (.gdShortTrip i cur vds) s = s.done (s.dev.withCurrent i cur) :=
  (if_pos ⟨h12, hon⟩).trans ((if_neg (by omega)).trans (if_neg (by rw [hg, Bool.and_false]; exact Bool.false_ne_true)))

end

end

theorem gateHolds_iff (d : Dev) (i t : Nat) : d.gateHolds i t = true ↔ (d.ch i).out = true ∧ ((d.ch i).run = .on
    ∨ d.get (F.LOAD_CH_STATUS_DUTY i) = 10000 ∨ t + (d.ch i).per < (d.ch i).fin + d.get (F.LOAD_CH_STATUS_DUTY i) * (d.ch i).per / 10000) := by
  unfold Dev.gateHolds LoadCh.onTime
  simp [or_assoc]

/-! ### Temperature (R392) -/

section
variable (s : State) (i : Fin 24) (tj : Int) (dt : Nat)

/-- The device with the measured temperatures. -/
def Dev.withTemps (d : Dev) (i : Nat) (tj : Int) (dt : Nat) : Dev := (d.set (F.LOAD_CH_MEAS_TJ i) (ofSigned 8 tj)).set (F.LOAD_CH_MEAS_DT i) dt

theorem measured_withTemps (d : Dev) : d.measured (d.withTemps i tj dt) (tripRegs i) :=
  ((measured_refl d _).set _ _ (meas_mem_tripRegs _) (of_decide_eq_true rfl)).set _ _ (meas_mem_tripRegs _) (of_decide_eq_true rfl)

theorem thermalTrip_trips (hon : (s.dev.ch i).isOn = true) (h : 170 ≤ tj ∨ 60 ≤ dt) :
    exec (.thermalTrip i tj dt) s = s.done ((s.dev.withTemps i tj dt).trip i (if 170 ≤ tj then 5 else 6)) := by
  have hon' : ((s.dev.withTemps i tj dt).ch i).isOn = true := by rw [(measured_withTemps i tj dt s.dev).chans]; exact hon
  by_cases ht : 170 ≤ tj
  · rw [if_pos ht]
    exact if_pos ⟨hon', ht⟩
  · rw [if_neg ht]
    exact (if_neg (fun hx => ht hx.2)).trans (if_pos ⟨hon', h.resolve_left ht⟩)

end

/-! ### Supply groups (R395) -/

section
variable (s : State) (g : Fin 3) (c0 c1 c2 c3 : Nat)

/-- The device with the measured currents of a group. -/
def Dev.withCurrents (d : Dev) (g c0 c1 c2 c3 : Nat) : Dev :=
  (((d.set (F.LOAD_CH_MEAS_CURRENT (4 * g)) c0).set (F.LOAD_CH_MEAS_CURRENT (4 * g + 1)) c1).set
    (F.LOAD_CH_MEAS_CURRENT (4 * g + 2)) c2).set (F.LOAD_CH_MEAS_CURRENT (4 * g + 3)) c3

/-- The shed is noted: its instant, its count and its status bit. -/
def Dev.shedNoted (d : Dev) (g : Nat) : Dev :=
  (({ d with load := { d.load with shedAt := SMap.set d.load.shedAt 0 g d.now } } : Dev).inc F.LOADC_SHED_COUNT).fltSet blkLoad 1

theorem groupShed_sheds {d : Dev} {i : Nat} (hd : d = s.dev.withCurrents g c0 c1 c2 c3) (h0 : d.get (F.LOADC_GROUP_LIM_LIMIT g) ≠ 0)
    (hc : d.get (F.LOADC_GROUP_LIM_LIMIT g) < c0 + c1 + c2 + c3) (hp : d.shedPick g = some i) :
    exec (.groupShed g c0 c1 c2 c3) s = s.done (((d.reach (SMap.get d.load.shedAt 0 g
      + d.get (F.LOADC_GROUP_LIM_GROUP_FILT_US g) * usCyc)).shedNoted g).trip i 8) := by
  subst hd
  refine (if_pos ⟨h0, hc⟩).trans ?_
  dsimp only
  have hp' : ((((s.dev.set (F.LOAD_CH_MEAS_CURRENT (4 * g)) c0).set (F.LOAD_CH_MEAS_CURRENT (4 * g + 1)) c1).set
    (F.LOAD_CH_MEAS_CURRENT (4 * g + 2)) c2).set (F.LOAD_CH_MEAS_CURRENT (4 * g + 3)) c3).shedPick g = some i := hp
  rw [hp']
  rfl

theorem withCurrents_load (d : Dev) : (d.withCurrents g c0 c1 c2 c3).load = d.load := by simp [Dev.withCurrents]
theorem withCurrents_time (d : Dev) : (d.withCurrents g c0 c1 c2 c3).time = d.time := by simp [Dev.withCurrents]
theorem withCurrents_flt (d : Dev) : (d.withCurrents g c0 c1 c2 c3).flt = d.flt := by simp [Dev.withCurrents]

theorem withCurrents_filt (d : Dev) :
    (d.withCurrents g c0 c1 c2 c3).get (F.LOADC_GROUP_LIM_GROUP_FILT_US g) = d.get (F.LOADC_GROUP_LIM_GROUP_FILT_US g) := by
  unfold Dev.withCurrents
  rw [get_set_apart, get_set_apart, get_set_apart, get_set_apart]
  all_goals revert g; decide

theorem shedNoted_time (d : Dev) (g : Nat) : (d.shedNoted g).time = d.time := by unfold Dev.shedNoted; simp
theorem shedNoted_ch (d : Dev) (g i : Nat) : (d.shedNoted g).ch i = d.ch i := by unfold Dev.shedNoted; rw [fltSet_ch, inc_ch]; rfl
theorem shedNoted_shedAt (d : Dev) (g : Nat) : SMap.get (d.shedNoted g).load.shedAt 0 g = d.now := by
  unfold Dev.shedNoted
  rw [fltSet_load, inc_load]
  exact SMap.get_set_same _ _ _ _

end

/-- A channel that has tripped is not on. -/
theorem Dev.tripped.not_on {d e : Dev} {i c : Nat} (h : d.tripped e i c) : (e.ch i).isOn = false := by
  obtain ⟨hrun, -⟩ := h
  unfold LoadCh.isOn
  rw [hrun]
  split <;> rfl

/-! ### The obligation -/

/-- The answer of a command whose device owes no reaction that the one before did not owe. -/
theorem done_of_flt {s : State} (hq : s.dev.quiet) {d : Dev} (h : d.flt = s.dev.flt) : s.done d = .next { s with dev := d } :=
  done_nil s d (by rw [h]; exact hq)

/-- Settles O35: each trip is `Dev.trip` after the measured values (`Dev.measured.trips`), or after the clock too
(`Dev.measured.tripsLater`). -/
theorem loadTripsTurnOff : Obligations.LoadTripsTurnOff := by
  refine ⟨?overcurrent, ?overLimit, ?gate, gateHolds_iff, ?thermal, ?shed⟩
  case overcurrent =>
    intro s i cur hq h12 hon hc
    obtain ⟨htrip, htbl, hflt, honly⟩ := (measured_withCurrent_trip i cur s.dev).trips 2
    exact ⟨_, (gdOvercurrentTrip_trips s i cur h12 hon hc).trans (done_of_flt hq hflt), htrip, htbl, honly⟩
  case overLimit =>
    intro s i cur vds hq h12 hon hc
    obtain ⟨htrip, htbl, hflt, honly⟩ := (measured_withCurrent_trip i cur s.dev).trips 3
    exact ⟨_, (gdShortTrip_overLimit s i cur vds h12 hon hc).trans (done_of_flt hq hflt), htrip, htbl, honly⟩
  case gate =>
    rintro s i cur vds T hq h12 hon hc hv rfl
    refine ⟨fun hg => ?holds, fun hg => ?off⟩
    case holds =>
      have hm := ((measured_withCurrent_trip i cur s.dev).mono tripRegs_sub_timed).reach ((s.dev.ch i).gateAt + 4 * usCyc) (List.mem_cons_self ..)
      obtain ⟨htrip, htbl, hflt, honly⟩ := hm.tripsLater 3
      refine ⟨_, (gdShortTrip_gateHolds s i cur vds h12 hon hc hv hg).trans (done_of_flt hq hflt), htrip, ?_, htbl, honly⟩
      unfold Dev.now
      rw [trip_time, reach_now]
      unfold Dev.withCurrent
      rw [set_time]
    case off =>
      have hm := measured_withCurrent i cur s.dev
      refine ⟨_, (gdShortTrip_gateOff s i cur vds h12 hon hc hg).trans (done_of_flt hq hm.flt), ?_, hm.chans, hm.only⟩
      unfold Dev.now Dev.withCurrent
      rw [set_time]
  case thermal =>
    intro s i tj dt hq hon h
    obtain ⟨htrip, htbl, hflt, honly⟩ := (measured_withTemps i tj dt s.dev).trips (if 170 ≤ tj then 5 else 6)
    exact ⟨_, (thermalTrip_trips s i tj dt hon h).trans (done_of_flt hq hflt), htrip, htbl, honly⟩
  case shed =>
    intro s g c0 c1 c2 c3 d i hq hd h0 hc hp
    have hexec := groupShed_sheds s g c0 c1 c2 c3 hd h0 hc hp
    have hload : d.load = s.dev.load := by rw [hd]; exact withCurrents_load g c0 c1 c2 c3 s.dev
    have htime : d.time = s.dev.time := by rw [hd]; exact withCurrents_time g c0 c1 c2 c3 s.dev
    have hfilt : d.get (F.LOADC_GROUP_LIM_GROUP_FILT_US g) = s.dev.get (F.LOADC_GROUP_LIM_GROUP_FILT_US g) := by
      rw [hd]; exact withCurrents_filt g c0 c1 c2 c3 s.dev
    have hflt : d.flt = s.dev.flt := by rw [hd]; exact withCurrents_flt g c0 c1 c2 c3 s.dev
    rw [hload, hfilt] at hexec
    generalize hr : d.reach (SMap.get s.dev.load.shedAt 0 g + s.dev.get (F.LOADC_GROUP_LIM_GROUP_FILT_US g) * usCyc) = dr at hexec
    have htrip := trip_tripped (dr.shedNoted g) i 8
    have hnow : ((dr.shedNoted g).trip i 8).now = dr.now := by unfold Dev.now; rw [trip_time, shedNoted_time]
    obtain ⟨-, hout, -, -, hcode, hother⟩ := id htrip
    refine ⟨_, hexec.trans (done_of_flt hq ?_), htrip.not_on, hout, hcode, hnow.trans ?_, ?_, fun j hj => (hother j hj).trans ?_⟩
    · rw [trip_flt]
      unfold Dev.shedNoted
      rw [fltSet_flt, inc_flt, ← hflt, ← reach_flt d, hr]
    · rw [← hr]
      unfold Dev.now
      rw [reach_now, htime]
    · rw [hnow, ← shedNoted_shedAt dr g]
      exact congrArg (fun m => SMap.get m 0 _) (trip_beside (f := fun l => l.shedAt) (fun _ _ _ _ => rfl) _ i 8)
    · rw [shedNoted_ch, ← hr, reach_ch]
      exact ch_of_load (congrArg LoadSt.chans hload) j

end Sys2Proof.Machine
end

section
/-!
PROOF. The wire model (R391) and what time does to a load channel (R387, R388, R390, R393, R394): each command is a change of one
channel after the clock, so each clause needs only what the clock and the shown values leave alone.
-/
namespace Sys2Proof.Machine

/-! ### The step of the wire model (R391) -/

theorem wireA_le (w : Nat) : wireA w ≤ 2 ^ 48 := by unfold wireA; split <;> decide

/-- A part of a difference lies between 0 and the difference. -/
theorem part_between (x : Int) {a : Nat} (ha : a ≤ 2 ^ 48) :
    min x 0 ≤ x * (a : Int) / (2 ^ 48 : Nat) ∧ x * (a : Int) / (2 ^ 48 : Nat) ≤ max x 0 := by
  have ha' : (a : Int) ≤ 2 ^ 48 := by exact_mod_cast ha
  have h48 : ((2 ^ 48 : Nat) : Int) = 2 ^ 48 := by norm_cast
  rw [h48]
  rcases le_total 0 x with hx | hx
  · have h0 : 0 ≤ x * (a : Int) := mul_nonneg hx (Int.natCast_nonneg a)
    have h1 : x * (a : Int) ≤ x * 2 ^ 48 := mul_le_mul_of_nonneg_left ha' hx
    omega
  · have h0 : x * (a : Int) ≤ 0 := mul_nonpos_of_nonpos_of_nonneg hx (Int.natCast_nonneg a)
    have h1 : x * 2 ^ 48 ≤ x * (a : Int) := mul_le_mul_of_nonpos_left ha' hx
    omega

theorem wireStep_between (w theta i2 : Nat) :
    min theta (wireK w * i2 * 2 ^ 32 / 10000000) ≤ wireStep w theta i2
      ∧ wireStep w theta i2 ≤ max theta (wireK w * i2 * 2 ^ 32 / 10000000) := by
  unfold wireStep
  rw [show 1000 * 10000 = 10000000 from rfl]
  generalize wireK w * i2 * 2 ^ 32 / 10000000 = ss
  have h := part_between ((theta : Int) - ss) (wireA_le w)
  dsimp only
  omega

/-! ### The wire model of a channel -/

theorem trip_ch_same (d : Dev) (i c : Nat) : (d.trip i c).ch i = { d.ch i with
    run := if d.get (F.LOAD_CH_CFG_POLICY i) == 2 then .latched else .faultOff, winEnd := none, pend := none, onSince := none
    out := false, tripAt := d.now, code := c } := by
  unfold Dev.trip
  dsimp only
  split <;> simp only [chFault_ch, inc_ch, set_ch, ch_setCh_same]

section
variable (d : Dev) (i : Fin 24) (cur : Nat)

/-- The device with the measured current, by which a channel below its limit does not limit any more. -/
def Dev.withMean : Dev :=
  if cur < (d.withCurrent i cur).chLimit i then (d.withCurrent i cur).set (F.LOAD_CH_STATUS_LIMITING i) 0 else d.withCurrent i cur

theorem measured_withMean : d.measured (d.withMean i cur) (tripRegs i) := by
  have h := measured_withCurrent_trip i cur d
  unfold Dev.withMean
  split
  · exact h.set _ _ (chanRegs_sub_tripRegs _ (by simp [chanRegs, F.LOAD_CH_STATUS_LIMITING])) (of_decide_eq_true rfl)
  · exact h

theorem withMean_time : (d.withMean i cur).time = d.time := by
  unfold Dev.withMean Dev.withCurrent
  split <;> simp

end

/-- The channel's model takes its step at the present instant. -/
def Dev.wireStepped (d : Dev) (i w i2 : Nat) : Dev :=
  d.setCh i { d.ch i with theta := wireStep w (d.ch i).theta i2, wireAt := d.now }

section
variable (s : State) (i : Fin 24) (i2 cur : Nat) {d d2 : Dev} (hd : d = s.dev.withMean i cur)
  (h2 : d2 = (d.reach ((d.ch i).wireAt + msCyc)).wireStepped i (d.get (F.LOAD_CH_CFG_WIRE i)) i2)
include hd

theorem wireModelUpdate_off (hk : wireK (d.get (F.LOAD_CH_CFG_WIRE i)) = 0) : exec (.wireModelUpdate i i2 cur) s = s.done d := by
  subst hd
  exact if_pos hk

include h2

theorem wireModelUpdate_trips (hk : wireK (d.get (F.LOAD_CH_CFG_WIRE i)) ≠ 0)
    (ht : (d2.ch i).isOn = true ∧ d2.wireLevel i * (2 ^ 32 : Nat) ≤ ((d2.ch i).theta : Int)) :
    exec (.wireModelUpdate i i2 cur) s = s.done (d2.trip i 4) := by
  subst hd h2
  exact (if_neg hk).trans (if_pos ht)

theorem wireModelUpdate_steps (hk : wireK (d.get (F.LOAD_CH_CFG_WIRE i)) ≠ 0)
    (ht : ¬ ((d2.ch i).isOn = true ∧ d2.wireLevel i * (2 ^ 32 : Nat) ≤ ((d2.ch i).theta : Int))) :
    exec (.wireModelUpdate i i2 cur) s = s.done d2 := by
  subst hd h2
  exact (if_neg hk).trans (if_neg ht)

end

/-- What the wire model reads lies at no register that it, or a trip, changes. -/
theorem wire_not_mem_tripRegs (i : Fin 24) : R.LOADC_T_AMB ∉ timedTripRegs i := by
  revert i
  decide +kernel

/-- The device after a step of channel `i`'s model: only that channel, the clock and the registers of a trip have changed. -/
structure Dev.wireTaken (d e : Dev) (i : Fin 24) (i2 : Nat) : Prop where
  only : d.regsOnly e (timedTripRegs i)
  other : ∀ j, j ≠ i.val → e.ch j = d.ch j
  tbl : e.tbl = d.tbl
  flt : e.flt = d.flt
  now : e.now = max d.now ((d.ch i).wireAt + msCyc)
  wireAt : (e.ch i).wireAt = e.now
  theta : (e.ch i).theta = wireStep (d.get (F.LOAD_CH_CFG_WIRE i)) (d.ch i).theta i2

theorem wireTaken_wireStepped (d : Dev) (i : Fin 24) (i2 : Nat) {e : Dev} (h : d.measured e (tripRegs i)) (ht : e.time = d.time) :
    d.wireTaken ((e.reach ((e.ch i).wireAt + msCyc)).wireStepped i (e.get (F.LOAD_CH_CFG_WIRE i)) i2) i i2 := by
  have hm := (h.mono tripRegs_sub_timed).reach ((e.ch i).wireAt + msCyc) (List.mem_cons_self ..)
  have hw : e.get (F.LOAD_CH_CFG_WIRE i) = d.get (F.LOAD_CH_CFG_WIRE i) :=
    get_only (h.mono tripRegs_sub_timed).only _ (config_not_mem_tripRegs i).1 (.inl (of_decide_eq_true rfl))
  unfold Dev.wireStepped
  refine ⟨only_setCh _ _ (fun a ha => tripRegs_sub_timed a (chanRegs_sub_tripRegs a ha)) hm.only,
    fun j hj => (ch_setCh_ne _ _ _ _ hj).trans (hm.chans j), (setCh_tbl _ _ _).trans hm.tbl, (setCh_flt _ _ _).trans hm.flt, ?_, ?_, ?_⟩
  · unfold Dev.now
    rw [setCh_time, reach_now, ht, h.chans]
  · rw [ch_setCh_same]
    unfold Dev.now
    rw [setCh_time]
  · rw [ch_setCh_same, hw, hm.chans]

theorem wireStepped_run (d : Dev) (i w i2 : Nat) :
    ((d.wireStepped i w i2).ch i).run = (d.ch i).run ∧ ((d.wireStepped i w i2).ch i).out = (d.ch i).out := by
  unfold Dev.wireStepped
  rw [ch_setCh_same]
  exact ⟨rfl, rfl⟩

theorem Dev.wireTaken.trip {d e : Dev} {i : Fin 24} {i2 : Nat} (h : d.wireTaken e i i2) (c : Nat) : d.wireTaken (e.trip i c) i i2 := by
  have hs := trip_ch_same e i c
  have hnow : (e.trip i c).now = e.now := by unfold Dev.now; rw [trip_time]
  obtain ⟨-, -, -, -, -, hother⟩ := trip_tripped e i c
  refine ⟨only_trip _ _ (fun a ha => tripRegs_sub_timed a (eventRegs_sub_tripRegs a ha))
    (fun a ha => tripRegs_sub_timed a (chanRegs_sub_tripRegs a ha)) h.only, fun j hj => (hother j hj).trans (h.other j hj),
    (trip_tbl _ _ _).trans h.tbl, (trip_flt _ _ _).trans h.flt, hnow.trans h.now, ?_, ?_⟩
  · rw [hs, hnow]; exact h.wireAt
  · rw [hs]; exact h.theta

/-- The trip level reads the channel's configuration and the ambient temperature, which no step changes. -/
theorem Dev.wireTaken.level {d e : Dev} {i : Fin 24} {i2 : Nat} (h : d.wireTaken e i i2) : e.wireLevel i = d.wireLevel i := by
  unfold Dev.wireLevel
  rw [get_only h.only (F.LOAD_CH_CFG_INS i) (config_not_mem_tripRegs i).1 (.inl (of_decide_eq_true rfl)),
    get_only h.only F.LOADC_T_AMB_T_AMB (wire_not_mem_tripRegs i) (.inl (by decide))]

/-- Settles O37: with the model off only the measured values change; else one step is taken (`Dev.wireTaken`) and, at the limit, a
channel that is on trips. -/
theorem wireModelStep : Obligations.WireModelStep := by
  refine ⟨fun s i i2 cur hq => ?_, fun w theta i2 ss hss => hss ▸ wireStep_between w theta i2⟩
  have hm := measured_withMean s.dev i cur
  have ht := withMean_time s.dev i cur
  generalize hd : s.dev.withMean i cur = d at hm ht
  have hw : d.get (F.LOAD_CH_CFG_WIRE i) = s.dev.get (F.LOAD_CH_CFG_WIRE i) :=
    get_only (hm.mono tripRegs_sub_timed).only _ (config_not_mem_tripRegs i).1 (.inl (of_decide_eq_true rfl))
  have htaken := wireTaken_wireStepped s.dev i i2 hm ht
  obtain ⟨hrun, hout⟩ := wireStepped_run (d.reach ((d.ch i).wireAt + msCyc)) i (d.get (F.LOAD_CH_CFG_WIRE i)) i2
  generalize h2 : (d.reach ((d.ch i).wireAt + msCyc)).wireStepped i (d.get (F.LOAD_CH_CFG_WIRE i)) i2 = d2 at htaken hrun hout
  rw [reach_ch, hm.chans] at hrun hout
  by_cases hk : wireK (s.dev.get (F.LOAD_CH_CFG_WIRE i)) = 0
  · refine ⟨_, (wireModelUpdate_off s i i2 cur hd.symm (hw ▸ hk)).trans (done_of_flt hq hm.flt), fun j _ => hm.chans j, hm.tbl,
      (hm.mono tripRegs_sub_timed).only, fun _ => ⟨hm.chans i, congrArg TimeSt.now ht⟩, fun h => absurd hk h⟩
  · have hon : (d2.ch i).isOn = (s.dev.ch i).isOn := by unfold LoadCh.isOn; rw [hrun]
    by_cases hlim : (d2.ch i).isOn = true ∧ d2.wireLevel i * (2 ^ 32 : Nat) ≤ ((d2.ch i).theta : Int)
    · have hafter := htaken.trip 4
      obtain ⟨hrun4, hout4, -, -, hcode4, -⟩ := trip_tripped d2 i 4
      rw [get_only htaken.only (F.LOAD_CH_CFG_POLICY i) (config_not_mem_tripRegs i).1 (.inl (of_decide_eq_true rfl))] at hrun4
      refine ⟨_, (wireModelUpdate_trips s i i2 cur hd.symm h2.symm (hw ▸ hk) hlim).trans (done_of_flt hq hafter.flt), hafter.other,
        hafter.tbl, hafter.only, fun h => absurd h hk, fun _ => ⟨hafter.now, hafter.wireAt, hafter.theta, ?_⟩⟩
      rw [if_pos (by rw [hafter.theta, ← htaken.theta, ← htaken.level, ← hon]; exact hlim)]
      exact ⟨hrun4, hout4, hcode4⟩
    · refine ⟨_, (wireModelUpdate_steps s i i2 cur hd.symm h2.symm (hw ▸ hk) hlim).trans (done_of_flt hq htaken.flt), htaken.other,
        htaken.tbl, htaken.only, fun h => absurd h hk, fun _ => ⟨htaken.now, htaken.wireAt, htaken.theta, ?_⟩⟩
      rw [if_neg (by rw [← htaken.level, ← hon]; exact hlim)]
      exact ⟨hrun, hout⟩

end Sys2Proof.Machine
end

section
/-!
PROOF. What time does to a load channel: the end of its inrush window, the return of its retry count, its PWM edges (R387, R388, R393),
and the two faults that leave it on (R390, R394).
-/
namespace Sys2Proof.Machine

/-! ### A fault of a channel -/

/-- A fault of channel `i` shows in its fault register and in the events, nowhere else. -/
theorem only_chFault_own (d : Dev) (i c : Nat) : d.regsOnly (d.chFault i c) (R.LOAD_CH_FAULT i :: loadEventRegs) := by
  have hl : ∀ a ∈ loadEventRegs, a ∈ R.LOAD_CH_FAULT i :: loadEventRegs := fun _ h => List.mem_cons_of_mem _ h
  exact only_steEvent _ _ _ hl (only_ev63 _ hl (only_fltSet _ _ (hl _ (by simp [loadEventRegs]))
    (only_setBitOf _ _ _ (List.mem_cons_self ..) (of_decide_eq_true rfl) (only_refl _ _))))

theorem eventRegs_own (i : Fin 24) : R.LOAD_CH_FAULT i ∉ loadEventRegs ∧ R.LOAD_CH_STATUS i ∉ R.LOAD_CH_FAULT i :: loadEventRegs := by
  revert i
  decide +kernel

/-- A fault's code has been seen. -/
theorem chFault_code (d : Dev) (i : Fin 24) {c : Nat} (hc : c - 1 < 12) : bit ((d.chFault i c).get (F.LOAD_CH_FAULT_CODES i)) (c - 1) = true := by
  have hsame : (d.setBitOf (F.LOAD_CH_FAULT_CODES i) (c - 1) true).get (F.LOAD_CH_FAULT_CODES i)
      = setBit (d.get (F.LOAD_CH_FAULT_CODES i)) (c - 1) true % 2 ^ 12 := get_set_same _ _ _ (of_decide_eq_true rfl)
  have honly : (d.setBitOf (F.LOAD_CH_FAULT_CODES i) (c - 1) true).regsOnly (d.chFault i c) loadEventRegs :=
    only_steEvent _ _ _ (fun _ h => h) (only_ev63 _ (fun _ h => h) (only_fltSet _ _ (by simp [loadEventRegs]) (only_refl _ _)))
  rw [get_only honly _ (eventRegs_own i).1 (.inl (of_decide_eq_true rfl)), hsame, bit_mod _ _ _ hc, bit_setBit_same]

/-! ### Windows and counts (R388, R393) -/

section
variable (s : State) (i : Fin 24) {T : Nat}

theorem inrushWindowEnd_open (h : (s.dev.ch i).winEnd = some T) : exec (.inrushWindowEnd i) s
    = s.done ((s.dev.reach T).setCh i { (s.dev.reach T).ch i with winEnd := none }) := by
  show execInrushWindowEnd i s = _
  unfold execInrushWindowEnd
  simp only [h]

theorem retryCountReset_on (h : (s.dev.ch i).onSince = some T) (hon : (s.dev.ch i).isOn = true) : exec (.retryCountReset i) s
    = s.done (((s.dev.reach (T + sCyc)).setCh i { (s.dev.reach (T + sCyc)).ch i with onSince := none }).set (F.LOAD_CH_STATUS_RETRY i) 0) := by
  show execRetryCountReset i s = _
  unfold execRetryCountReset
  simp only [h, hon, if_true]

end

/-- With no open window the limit in force is `I_LIM`. -/
theorem chLimit_closed {d : Dev} {i : Nat} (h : (d.ch i).winEnd = none) : d.chLimit i = d.get (F.LOAD_CH_LIM_I_LIM i) := by
  unfold Dev.chLimit
  rw [h]
  rfl

theorem reach_setCh_now (d : Dev) (t i : Nat) (c : LoadCh) : ((d.reach t).setCh i c).now = max d.now t := by
  unfold Dev.now
  rw [setCh_time, reach_now]

theorem reach_setCh_flt (d : Dev) (t i : Nat) (c : LoadCh) : ((d.reach t).setCh i c).flt = d.flt := by rw [setCh_flt, reach_flt]

theorem reach_setCh_other (d : Dev) (t i : Nat) (c : LoadCh) {j : Nat} (h : j ≠ i) : ((d.reach t).setCh i c).ch j = d.ch j := by
  rw [ch_setCh_ne _ _ _ _ h, reach_ch]

/-! ### PWM (R387) -/

section
variable (s : State) (i : Fin 24) (hr : (s.dev.ch i).run = .pwm)
include hr

theorem pwmEdge_level (h : s.dev.get (F.LOAD_CH_STATUS_DUTY i) = 0 ∨ s.dev.get (F.LOAD_CH_STATUS_DUTY i) = 10000) :
    exec (.pwmEdge i) s = s.done (s.dev.setCh i (s.dev.pwmRoll i)) := (if_pos hr).trans (if_pos h)

variable (h : ¬ (s.dev.get (F.LOAD_CH_STATUS_DUTY i) = 0 ∨ s.dev.get (F.LOAD_CH_STATUS_DUTY i) = 10000))
include h

theorem pwmEdge_off (ho : (s.dev.ch i).out = true) : exec (.pwmEdge i) s
    = s.done ((s.dev.reach ((s.dev.ch i).fin + s.dev.get (F.LOAD_CH_STATUS_DUTY i) * (s.dev.ch i).per / 10000 - (s.dev.ch i).per)).setCh i
      { s.dev.ch i with out := false }) := (if_pos hr).trans ((if_neg h).trans (if_pos ho))

theorem pwmEdge_on (ho : (s.dev.ch i).out = false) : exec (.pwmEdge i) s
    = s.done ((s.dev.reach (s.dev.ch i).fin).setCh i { s.dev.ch i with
      out := true, fin := (s.dev.ch i).fin + s.dev.pwmPer i, per := s.dev.pwmPer i, gateAt := (s.dev.reach (s.dev.ch i).fin).now }) :=
  (if_pos hr).trans ((if_neg h).trans (if_neg (by simp [ho])))

end

section
variable (d : Dev) (i : Nat)

theorem pwmRoll_running (h : d.now < (d.ch i).fin) : d.pwmRoll i = d.ch i := if_neg (by simp [h])

/-- A period that has ended is followed by whole periods of the frequency, up to the one that holds the present instant. -/
theorem pwmRoll_ended (hr : (d.ch i).run = .pwm) (h : (d.ch i).fin ≤ d.now) : ∃ n, n = (d.now - (d.ch i).fin) / d.pwmPer i + 1
    ∧ (d.pwmRoll i).fin = (d.ch i).fin + n * d.pwmPer i ∧ (d.pwmRoll i).per = d.pwmPer i
    ∧ (d.pwmRoll i).out = decide (d.now + d.pwmPer i - (d.pwmRoll i).fin < d.get (F.LOAD_CH_STATUS_DUTY i) * d.pwmPer i / 10000) := by
  have hc : ((d.ch i).run == .pwm && decide ((d.ch i).fin ≤ d.now)) = true := by simp [hr, h]
  unfold Dev.pwmRoll
  rw [if_pos hc]
  exact ⟨_, rfl, rfl, rfl, rfl⟩

end

/-- The next whole multiple of a length after an instant. -/
theorem lt_next_multiple {x p : Nat} (hp : 0 < p) : x < (x / p + 1) * p ∧ (x / p + 1) * p ≤ x + p := by
  have := Nat.div_add_mod x p
  have := Nat.mod_lt x hp
  have : (x / p + 1) * p = p * (x / p) + p := by rw [Nat.add_mul, Nat.one_mul, Nat.mul_comm]
  omega

theorem pwmRoll_spec {d : Dev} {i : Nat} (hr : (d.ch i).run = .pwm) (hp : 0 < d.pwmPer i) : d.now < (d.pwmRoll i).fin
    ∧ (d.now < (d.ch i).fin → d.pwmRoll i = d.ch i)
    ∧ ((d.ch i).fin ≤ d.now → (d.pwmRoll i).per = d.pwmPer i ∧ (d.pwmRoll i).fin ≤ d.now + (d.pwmRoll i).per
      ∧ ((d.pwmRoll i).fin - (d.ch i).fin) % (d.pwmRoll i).per = 0
      ∧ (d.get (F.LOAD_CH_STATUS_DUTY i) = 0 → (d.pwmRoll i).out = false)
      ∧ (d.get (F.LOAD_CH_STATUS_DUTY i) = 10000 → (d.pwmRoll i).out = true)) := by
  rcases Nat.lt_or_ge d.now (d.ch i).fin with h | h
  · have he := pwmRoll_running d i h
    exact ⟨he ▸ h, fun _ => he, fun h' => absurd h (Nat.not_lt.mpr h')⟩
  · obtain ⟨n, hn, hfin, hper, hout⟩ := pwmRoll_ended d i hr h
    obtain ⟨hlt, hle⟩ := lt_next_multiple (x := d.now - (d.ch i).fin) hp
    rw [← hn] at hlt hle
    refine ⟨by omega, fun h' => absurd h' (Nat.not_lt.mpr h), fun _ => ⟨hper, by omega, ?_, fun h0 => ?_, fun h1 => ?_⟩⟩
    · rw [hfin, hper, Nat.add_sub_cancel_left, Nat.mul_mod_left]
    · rw [hout, h0]
      simp
    · rw [hout, h1, Nat.mul_div_cancel_left _ (by decide)]
      exact decide_eq_true (by omega)

/-! ### Faults that leave a channel on (R390, R394) -/

section
variable (s : State) (i : Fin 24) {cur : Nat} (hon : (s.dev.ch i).isOn = true)
include hon

theorem currentLimit_limits (h12 : i.val < 12) (hc : s.dev.chLimit i ≤ cur) : exec (.currentLimit i cur) s
    = s.done (((s.dev.set (F.LOAD_CH_MEAS_CURRENT i) (s.dev.chLimit i)).set (F.LOAD_CH_STATUS_LIMITING i) 1).chFault i 1) :=
  if_pos ⟨h12, hon, hc⟩

theorem openLoadDetect_open (hc : cur < s.dev.get (F.LOAD_CH_OL_OL_TH i)) : exec (.openLoadDetect i cur) s
    = s.done ((s.dev.set (F.LOAD_CH_MEAS_CURRENT i) cur).chFault i 7) := if_pos ⟨hon, Nat.ne_of_gt (Nat.zero_lt_of_lt hc), hc⟩

end

/-! ### The obligation -/

/-- Settles O38, clause by clause from the rules above. -/
theorem channelClocks : Obligations.ChannelClocks := by
  refine ⟨?window, ?count, ?edge, ?roll, ?limit, ?openLoad⟩
  case window =>
    intro s i T hq h
    have honly : s.dev.regsOnly ((s.dev.reach T).setCh i { (s.dev.reach T).ch i with winEnd := none }) (timedTripRegs i) :=
      only_setCh _ _ (fun a ha => tripRegs_sub_timed a (chanRegs_sub_tripRegs a ha)) (only_reach _ (List.mem_cons_self ..) (only_refl _ _))
    refine ⟨_, (inrushWindowEnd_open s i h).trans (done_of_flt hq (reach_setCh_flt _ _ _ _)), reach_setCh_now _ _ _ _, ?_,
      fun j hj => reach_setCh_other _ _ _ _ hj, ?_⟩
    · rw [ch_setCh_same, reach_ch]
    · rw [chLimit_closed (by rw [ch_setCh_same])]
      exact get_only honly _ (config_not_mem_tripRegs i).2 (.inl (of_decide_eq_true rfl))
  case count =>
    intro s i T hq h hon
    refine ⟨_, (retryCountReset_on s i h hon).trans (done_of_flt hq (by rw [set_flt, reach_setCh_flt])), ?_,
      get_set_same _ (F.LOAD_CH_STATUS_RETRY i) 0 (of_decide_eq_true rfl), ?_, fun j hj => ?_⟩
    · unfold Dev.now
      rw [set_time]
      exact reach_setCh_now _ _ _ _
    · rw [set_ch, ch_setCh_same, reach_ch]
    · rw [set_ch, reach_setCh_other _ _ _ _ hj]
  case edge =>
    rintro s i duty hq hr rfl
    refine ⟨fun h0 h1 => ?_, fun h => ?_⟩
    · have hne : ¬ (s.dev.get (F.LOAD_CH_STATUS_DUTY i) = 0 ∨ s.dev.get (F.LOAD_CH_STATUS_DUTY i) = 10000) := by simp [h0, h1]
      cases ho : (s.dev.ch i).out with
      | true =>
        refine ⟨_, (pwmEdge_off s i hr hne ho).trans (done_of_flt hq (reach_setCh_flt _ _ _ _)), ?_, ?_, reach_setCh_now _ _ _ _, ?_, ?_,
          fun h => absurd h (by simp), fun j hj => reach_setCh_other _ _ _ _ hj⟩ <;> rw [ch_setCh_same]
        · exact hr
        · rfl
        · rfl
        · rfl
      | false =>
        refine ⟨_, (pwmEdge_on s i hr hne ho).trans (done_of_flt hq (reach_setCh_flt _ _ _ _)), ?_, ?_, reach_setCh_now _ _ _ _, ?_, ?_,
          fun _ => ?_, fun j hj => reach_setCh_other _ _ _ _ hj⟩ <;> rw [ch_setCh_same]
        · exact hr
        · rfl
        · rfl
        · rfl
        · unfold Dev.now
          rw [setCh_time]
    · refine ⟨_, (pwmEdge_level s i hr h).trans (done_of_flt hq (setCh_flt _ _ _)), ?_, ch_setCh_same _ _ _,
        fun j hj => ch_setCh_ne _ _ _ _ hj⟩
      unfold Dev.now
      rw [setCh_time]
  case roll =>
    rintro d i c hr hp rfl
    exact pwmRoll_spec hr hp
  case limit =>
    intro s i cur hq h12 hon hc
    refine ⟨_, (currentLimit_limits s i hon h12 hc).trans (done_of_flt hq (by simp)), ?_, chFault_code _ i (by decide),
      fun j => by simp only [chFault_ch, set_ch]⟩
    rw [get_only (only_chFault_own _ i 1) (F.LOAD_CH_STATUS_LIMITING i) (eventRegs_own i).2 (.inl (of_decide_eq_true rfl))]
    exact get_set_same _ (F.LOAD_CH_STATUS_LIMITING i) 1 (of_decide_eq_true rfl)
  case openLoad =>
    intro s i cur hq hon hc
    exact ⟨_, (openLoadDetect_open s i hon hc).trans (done_of_flt hq (by simp)), chFault_code _ i (by decide),
      fun j => by simp only [chFault_ch, set_ch]⟩

end Sys2Proof.Machine
end

section
/-!
PROOF. Retries and deferred turn-ons of the load channels (R388, R389, R393): a retry is counted and then is a turn-on like another,
and of the deferred ones the fold over the channels keeps the best so far.
-/
namespace Sys2Proof.Machine

/-! ### A retry (R393) -/

/-- The instant at which a retry falls due. -/
def Dev.retryAt (d : Dev) (i : Nat) : Nat := (d.ch i).tripAt + atLeastOne (d.get (F.LOAD_CH_RETRY_RETRY_MS i)) * msCyc

/-- The retry is counted. -/
def Dev.retryNoted (d : Dev) (i : Nat) : Dev := (d.inc (F.LOAD_CH_STATUS_RETRY i)).inc (F.LOAD_RETRIES_COUNT i)

/-- The registers that a turn-on can change. -/
def turnOnRegs (i : Nat) : List Nat := chanRegs i ++ loadEventRegs

theorem retries_not_mem (i : Fin 24) : R.LOAD_RETRIES i ∉ turnOnRegs i ∧ R.LOAD_RETRIES i ≠ R.LOAD_CH_STATUS i
    ∧ R.LOAD_CH_LIM i ∉ [R.LOAD_CH_STATUS i, R.LOAD_RETRIES i] ∧ R.LOAD_CH_CFG i ∉ [R.LOAD_CH_STATUS i, R.LOAD_RETRIES i]
    ∧ R.SUPV_PD_STATUS ∉ [R.LOAD_CH_STATUS i, R.LOAD_RETRIES i] ∧ R.LOADC_SUPPLY_STATUS ∉ [R.LOAD_CH_STATUS i, R.LOAD_RETRIES i]
    ∧ R.SUPV_SUPPLY_STATUS ∉ [R.LOAD_CH_STATUS i, R.LOAD_RETRIES i] := by
  revert i
  decide +kernel

section
variable (d : Dev) (i : Nat)

@[simp] theorem retryNoted_time : (d.retryNoted i).time = d.time := by unfold Dev.retryNoted; simp
@[simp] theorem retryNoted_flt : (d.retryNoted i).flt = d.flt := by unfold Dev.retryNoted; simp
@[simp] theorem retryNoted_load : (d.retryNoted i).load = d.load := by unfold Dev.retryNoted; simp
@[simp] theorem retryNoted_ch (j : Nat) : (d.retryNoted i).ch j = d.ch j := ch_of_load (congrArg LoadSt.chans (retryNoted_load d i)) j

theorem only_retryNoted : d.regsOnly (d.retryNoted i) [R.LOAD_CH_STATUS i, R.LOAD_RETRIES i] :=
  only_inc _ (by simp [F.LOAD_RETRIES_COUNT]) (of_decide_eq_true rfl) (only_inc _ (by simp [F.LOAD_CH_STATUS_RETRY]) (of_decide_eq_true rfl)
    (only_refl _ _))

end

section
variable (d : Dev) (i : Fin 24)

theorem retryNoted_count : (d.retryNoted i).get (F.LOAD_RETRIES_COUNT i) = satAdd 32 (d.get (F.LOAD_RETRIES_COUNT i)) 1 := by
  have hne : (d.inc (F.LOAD_CH_STATUS_RETRY i)).get (F.LOAD_RETRIES_COUNT i) = d.get (F.LOAD_RETRIES_COUNT i) :=
    get_set_ne d _ _ _ (.inl (retries_not_mem i).2.1.symm) (of_decide_eq_true rfl) (of_decide_eq_true rfl)
  unfold Dev.retryNoted
  rw [get_inc_same _ (F.LOAD_RETRIES_COUNT i) (of_decide_eq_true rfl), hne]
  rfl

/-- The counts decide nothing of the turn-on that follows them. -/
theorem retryNoted_turnOn : (d.retryNoted i).outPower = d.outPower ∧ (d.retryNoted i).deferring i = d.deferring i
    ∧ (d.retryNoted i).get (F.LOAD_CH_LIM_INRUSH_MS i) = d.get (F.LOAD_CH_LIM_INRUSH_MS i)
    ∧ (d.retryNoted i).get (F.LOAD_CH_CFG_POLICY i) = d.get (F.LOAD_CH_CFG_POLICY i) := by
  obtain ⟨-, -, hlim, hcfg, hpd, hload, hsupv⟩ := retries_not_mem i
  have h := only_retryNoted d i
  exact ⟨outPower_of _ h hpd (by rw [retryNoted_load]), deferring_of _ _ h hload hcfg hsupv,
    get_only h _ hlim (.inl (of_decide_eq_true rfl)), get_only h _ hcfg (.inl (of_decide_eq_true rfl))⟩

end

/-- A channel whose retry is due, at the instant of the retry: latched, left off, or turned on. -/
def Dev.retried (d : Dev) (i code : Nat) : Dev :=
  if d.get (F.LOAD_CH_RETRY_RETRY_N i) ≤ d.get (F.LOAD_CH_STATUS_RETRY i) then (d.setCh i { d.ch i with run := .latched }).chFault i 0x0A
  else if (d.desired i).1 = .off then d
  else ((d.retryNoted i).chApply i (d.desired i).1 (d.desired i).2 2 true).ev63
    (((d.retryNoted i).chApply i (d.desired i).1 (d.desired i).2 2 true).loadEntry 0x07 (64 + i) code (some i))

section
variable (d : Dev) (i : Nat) (tj : Int) (dt : Nat)

theorem chRetry_due (hr : (d.ch i).run = .faultOff) (hp : d.get (F.LOAD_CH_CFG_POLICY i) ≠ 2) (hc : d.cleared i tj dt = true) :
    d.chRetry i tj dt = (d.reach (d.retryAt i)).retried i (d.ch i).code := by
  have hcond : ((d.ch i).run == .faultOff && d.get (F.LOAD_CH_CFG_POLICY i) != 2 && d.cleared i tj dt) = true := by simp [hr, hp, hc]
  unfold Dev.chRetry
  dsimp only
  rw [if_pos hcond]
  unfold Dev.retried
  simp only [beq_iff_eq]
  rfl

theorem chRetry_none (h : (d.ch i).run ≠ .faultOff ∨ d.get (F.LOAD_CH_CFG_POLICY i) = 2 ∨ d.cleared i tj dt = false) :
    d.chRetry i tj dt = d := by
  have hcond : ¬ ((d.ch i).run == .faultOff && d.get (F.LOAD_CH_CFG_POLICY i) != 2 && d.cleared i tj dt) = true := by
    rcases h with h | h | h <;> simp [h]
  exact if_neg hcond

end

section
variable (d : Dev) (i code : Nat)

@[simp] theorem retried_time : (d.retried i code).time = d.time := by
  unfold Dev.retried
  split
  · rw [chFault_time, setCh_time]
  · split
    · rfl
    · rw [ev63_time, chApply_time, retryNoted_time]

@[simp] theorem retried_flt : (d.retried i code).flt = d.flt := by
  unfold Dev.retried
  split
  · rw [chFault_flt, setCh_flt]
  · split
    · rfl
    · rw [ev63_flt, chApply_flt, retryNoted_flt]

theorem retried_other {j : Nat} (h : j ≠ i) : (d.retried i code).ch j = d.ch j := by
  unfold Dev.retried
  split
  · rw [chFault_ch, ch_setCh_ne _ _ _ _ h]
  · split
    · rfl
    · rw [ev63_ch, chApply_ch_ne _ _ _ _ _ _ _ h, retryNoted_ch]

theorem retried_latched (h : d.get (F.LOAD_CH_RETRY_RETRY_N i) ≤ d.get (F.LOAD_CH_STATUS_RETRY i)) :
    ((d.retried i code).ch i).run = .latched := by
  unfold Dev.retried
  rw [if_pos h, chFault_ch, ch_setCh_same]

end

/-- A retry that turns its channel on. -/
theorem retried_on (d : Dev) (i : Fin 24) (code : Nat) (hn : d.get (F.LOAD_CH_STATUS_RETRY i) < d.get (F.LOAD_CH_RETRY_RETRY_N i))
    (ho : (d.desired i).1 ≠ .off) (hoff : (d.ch i).isOn = false) (hp : d.outPower = true) (hdef : d.deferring i = false) :
    ((d.retried i code).ch i).run = (d.desired i).1
    ∧ ((d.retried i code).ch i).winEnd = (if d.get (F.LOAD_CH_LIM_INRUSH_MS i) ≠ 0 ∧ d.get (F.LOAD_CH_CFG_POLICY i) ≠ 1
        then some (d.now + d.get (F.LOAD_CH_LIM_INRUSH_MS i) * msCyc) else none)
    ∧ (d.retried i code).get (F.LOAD_RETRIES_COUNT i) = satAdd 32 (d.get (F.LOAD_RETRIES_COUNT i)) 1 := by
  obtain ⟨hpow, hdefer, hlim, hpol⟩ := retryNoted_turnOn d i
  have hnow : (d.retryNoted i).now = d.now := by unfold Dev.now; rw [retryNoted_time]
  obtain ⟨hrun, -, hwin, -⟩ := chApply_on (d.retryNoted i) i (d.desired i).1 (d.desired i).2 2 true ho (hpow.trans hp)
    (by rw [retryNoted_ch]; exact hoff) (hdefer.trans hdef)
  unfold Dev.retried
  rw [if_neg (Nat.not_le.mpr hn), if_neg ho]
  refine ⟨by rw [ev63_ch, hrun], ?_, ?_⟩
  · rw [ev63_ch, hwin, hlim, hpol, hnow]
    simp
  · have hl : ∀ a ∈ loadEventRegs, a ∈ turnOnRegs i := fun _ => List.mem_append_right _
    have hc : ∀ a ∈ chanRegs i, a ∈ turnOnRegs i := fun _ => List.mem_append_left _
    have honly := only_ev63 (((d.retryNoted i).chApply i (d.desired i).1 (d.desired i).2 2 true).loadEntry 0x07 (64 + i) code (some i)) hl
      (only_chApply i (d.desired i).1 (d.desired i).2 2 true hl hc (only_refl (d.retryNoted i) _))
    exact (get_only honly _ (retries_not_mem i).1 (.inl (of_decide_eq_true rfl))).trans (retryNoted_count d i)

/-! ### The next deferred turn-on (R389) -/

/-- A channel that waits for its turn-on and that nothing defers any more. -/
def Dev.turnDue (d : Dev) (i : Nat) : Prop := (d.ch i).run = .deferred ∧ d.deferring i = false

/-- Channel `i` comes before channel `j`: a higher priority, or the same and not the higher index. -/
def Dev.comesBefore (d : Dev) (i j : Nat) : Prop := d.get (F.LOAD_CH_CFG_PRIO j) ≤ d.get (F.LOAD_CH_CFG_PRIO i)
  ∧ (d.get (F.LOAD_CH_CFG_PRIO j) = d.get (F.LOAD_CH_CFG_PRIO i) → i ≤ j)

/-- The best due channel below `n`, where there is one. -/
def Dev.bestBelow (d : Dev) (n : Nat) : Option Nat → Prop
  | none => ∀ j < n, ¬ d.turnDue j
  | some i => i < n ∧ d.turnDue i ∧ ∀ j < n, d.turnDue j → d.comesBefore i j

/-- One channel more is looked at. -/
def Dev.betterOf (d : Dev) (best : Option Nat) (i : Nat) : Option Nat :=
  if (d.ch i).run == .deferred && !d.deferring i then
    match best with
    | none => some i
    | some j => if d.get (F.LOAD_CH_CFG_PRIO j) < d.get (F.LOAD_CH_CFG_PRIO i) then some i else best
  else best

theorem nextDeferred_eq (d : Dev) : d.nextDeferred = (List.range 24).foldl d.betterOf none := rfl

section
variable (d : Dev) {n : Nat}

theorem betterOf_not {best : Option Nat} (h : ¬ d.turnDue n) : d.betterOf best n = best := by
  refine if_neg (fun hc => h ?_)
  simpa [Dev.turnDue] using hc

theorem due_cond (h : d.turnDue n) : ((d.ch n).run == .deferred && !d.deferring n) = true := by simp [h.1, h.2]

theorem betterOf_first (h : d.turnDue n) : d.betterOf none n = some n := if_pos (due_cond d h)

theorem betterOf_some {j : Nat} (h : d.turnDue n) : d.betterOf (some j) n
    = if d.get (F.LOAD_CH_CFG_PRIO j) < d.get (F.LOAD_CH_CFG_PRIO n) then some n else some j := if_pos (due_cond d h)

theorem comesBefore_refl (i : Nat) : d.comesBefore i i := ⟨Nat.le_refl _, fun _ => Nat.le_refl _⟩

theorem bestBelow_betterOf {best : Option Nat} (h : d.bestBelow n best) : d.bestBelow (n + 1) (d.betterOf best n) := by
  have split : ∀ {p : Nat → Prop}, (∀ j < n, p j) → p n → ∀ j < n + 1, p j := fun hlt hn j hj =>
    (Nat.lt_succ_iff_lt_or_eq.mp hj).elim (hlt j) (fun he => he ▸ hn)
  by_cases hd : d.turnDue n
  · cases best with
    | none =>
      rw [betterOf_first d hd]
      exact ⟨Nat.lt_succ_self n, hd, split (fun j hj hdj => absurd hdj (h j hj)) (fun _ => comesBefore_refl d n)⟩
    | some i =>
      obtain ⟨hi, hdi, hbest⟩ := h
      rw [betterOf_some d hd]
      by_cases hlt : d.get (F.LOAD_CH_CFG_PRIO i) < d.get (F.LOAD_CH_CFG_PRIO n)
      · rw [if_pos hlt]
        refine ⟨Nat.lt_succ_self n, hd, split (fun j hj hdj => ?_) (fun _ => comesBefore_refl d n)⟩
        have hle := (hbest j hj hdj).1
        exact ⟨by omega, fun he => by omega⟩
      · rw [if_neg hlt]
        exact ⟨by omega, hdi, split hbest (fun _ => ⟨by omega, fun _ => by omega⟩)⟩
  · rw [betterOf_not d hd]
    cases best with
    | none => exact split h hd
    | some i =>
      obtain ⟨hi, hdi, hbest⟩ := h
      exact ⟨by omega, hdi, split hbest (fun hdn => absurd hdn hd)⟩

theorem bestBelow_fold (n : Nat) : d.bestBelow n ((List.range n).foldl d.betterOf none) := by
  induction n with
  | zero => exact fun j hj => absurd hj (Nat.not_lt_zero j)
  | succ n ih =>
    rw [List.range_succ, List.foldl_append]
    exact bestBelow_betterOf d ih

end

theorem nextDeferred_best {d : Dev} {i : Nat} (h : d.nextDeferred = some i) :
    i < 24 ∧ d.turnDue i ∧ ∀ j < 24, d.turnDue j → d.comesBefore i j := by
  have := bestBelow_fold d 24
  rw [← nextDeferred_eq, h] at this
  exact this

/-! ### A deferred turn-on executes (R389) -/

/-- The instant of the next deferred turn-on is reached and noted. -/
def Dev.deferReached (d : Dev) : Dev :=
  { d.reach ((d.load.lastDefer.map (fun t => t + msCyc)).getD 0) with load := { d.load with
    lastDefer := some (d.reach ((d.load.lastDefer.map (fun t => t + msCyc)).getD 0)).now } }

/-- The channel that was deferred, off for its turn-on. -/
def Dev.deferTaken (d : Dev) (i : Nat) : Dev := d.deferReached.setCh i { d.ch i with run := .off, pend := none }

theorem deferredTurnOn_runs {s : State} {i duty src : Nat} {run : Run} {retry : Bool} (h : s.dev.nextDeferred = some i)
    (hp : (s.dev.ch i).pend = some (run, duty, src, retry)) :
    exec .deferredTurnOn s = s.done ((s.dev.deferTaken i).chApply i run duty src retry) := by
  show execDeferredTurnOn s = _
  unfold execDeferredTurnOn
  rw [h]
  have hload : (s.dev.reach ((s.dev.load.lastDefer.map (fun t => t + msCyc)).getD 0)).load = s.dev.load := reach_load _ _
  have hch : (s.dev.deferReached).ch i = s.dev.ch i := rfl
  dsimp only
  rw [hload]
  show (match (s.dev.deferReached.ch i).pend with
    | none => s.done (s.dev.deferReached.setCh i { s.dev.deferReached.ch i with run := .off })
    | some (run, duty, src, retry) =>
      s.done ((s.dev.deferReached.setCh i { s.dev.deferReached.ch i with run := .off, pend := none }).chApply i run duty src retry)) = _
  rw [hch, hp]
  rfl

section
variable (d : Dev) (i : Nat)

@[simp] theorem deferTaken_flt : (d.deferTaken i).flt = d.flt := by unfold Dev.deferTaken Dev.deferReached; rw [setCh_flt]; exact reach_flt _ _
theorem deferTaken_now : (d.deferTaken i).now = max d.now ((d.load.lastDefer.map (fun t => t + msCyc)).getD 0) := by
  unfold Dev.deferTaken Dev.deferReached Dev.now
  rw [setCh_time]
  exact reach_now _ _
theorem deferTaken_lastDefer : (d.deferTaken i).load.lastDefer = some (d.deferTaken i).now := by
  unfold Dev.deferTaken Dev.now
  rw [setCh_load_lastDefer, setCh_time]
  rfl
theorem deferTaken_same : (d.deferTaken i).ch i = { d.ch i with run := .off, pend := none } := ch_setCh_same _ _ _
theorem deferTaken_other {j : Nat} (h : j ≠ i) : (d.deferTaken i).ch j = d.ch j := ch_setCh_ne _ _ _ _ h

theorem only_deferTaken : (d.reach ((d.load.lastDefer.map (fun t => t + msCyc)).getD 0)).regsOnly (d.deferTaken i)
    (chanRegs i ++ loadEventRegs) :=
  only_setCh _ _ (fun _ ha => List.mem_append_left _ ha) (fun _ _ => rfl)

theorem deferTaken_turnOn (hi : i < 24) : (d.deferTaken i).outPower = d.outPower ∧ (d.deferTaken i).deferring i = d.deferring i := by
  have h := only_deferTaken d i
  refine ⟨(outPower_of_chan hi h ?_).trans (outPower_reach _ _), (deferring_of_chan hi h).trans (deferring_reach _ _ _)⟩
  unfold Dev.deferTaken
  rw [setCh_load_gndLost, reach_load]
  rfl

end

/-! ### The obligation -/

/-- Settles O39: a due retry is `Dev.retried`, the next deferred turn-on is the best of the fold, and it executes as a turn-on. -/
theorem retriesAndDeferredTurnOns : Obligations.RetriesAndDeferredTurnOns := by
  refine ⟨?due, ?idle, ?next, ?turnOn⟩
  case due =>
    intro s i tj dt hq hr hp hc
    have hfar : ∀ f : FieldRef, 0x1000000 ≤ f.addr → (s.dev.reach (s.dev.retryAt i)).get f = s.dev.get f := fun f hf => get_reach _ _ _ hf
    have hexec : exec (.channelRetry i tj dt) s = s.done ((s.dev.reach (s.dev.retryAt i)).retried i (s.dev.ch i).code) :=
      congrArg s.done (chRetry_due s.dev i tj dt hr hp hc)
    have hretryN := hfar (F.LOAD_CH_RETRY_RETRY_N i) (by simp only [F.LOAD_CH_RETRY_RETRY_N, R.LOAD_CH_RETRY]; omega)
    have hretry := hfar (F.LOAD_CH_STATUS_RETRY i) (by simp only [F.LOAD_CH_STATUS_RETRY, R.LOAD_CH_STATUS]; omega)
    have hms := hfar (F.LOAD_CH_LIM_INRUSH_MS i) (by simp only [F.LOAD_CH_LIM_INRUSH_MS, R.LOAD_CH_LIM]; omega)
    have hpol := hfar (F.LOAD_CH_CFG_POLICY i) (by simp only [F.LOAD_CH_CFG_POLICY, R.LOAD_CH_CFG]; omega)
    have hcount := hfar (F.LOAD_RETRIES_COUNT i) (by simp only [F.LOAD_RETRIES_COUNT, R.LOAD_RETRIES]; omega)
    have hnow : ((s.dev.reach (s.dev.retryAt i)).retried i (s.dev.ch i).code).now = (s.dev.reach (s.dev.retryAt i)).now := by
      unfold Dev.now; rw [retried_time]
    refine ⟨_, hexec.trans (done_of_flt hq ?_), hnow.trans (reach_now _ _), fun j hj => ?_, fun hle => ?_, fun hlt ho hpow hdef => ?_⟩
    · rw [retried_flt, reach_flt]
    · exact (retried_other _ _ _ hj).trans (reach_ch _ _ _)
    · exact retried_latched _ _ _ (by rw [hretryN, hretry]; exact hle)
    · have hon := retried_on (s.dev.reach (s.dev.retryAt i)) i (s.dev.ch i).code (by rw [hretryN, hretry]; exact hlt)
        (by rw [desired_reach]; exact ho) (by rw [reach_ch]; simp [LoadCh.isOn, hr]) (by rw [outPower_reach]; exact hpow)
        (by rw [deferring_reach]; exact hdef)
      rw [desired_reach, hms, hpol, hcount, ← hnow] at hon
      exact hon
  case idle =>
    intro s i tj dt hq h
    have hexec : exec (.channelRetry i tj dt) s = s.done s.dev := congrArg s.done (chRetry_none s.dev i tj dt h)
    exact hexec.trans (done_of_flt hq rfl)
  case next =>
    intro d i h
    obtain ⟨hi, ⟨hrun, hdef⟩, hbest⟩ := nextDeferred_best h
    exact ⟨hi, hrun, hdef, fun j hj hr hd => hbest j hj ⟨hr, hd⟩⟩
  case turnOn =>
    intro s i duty src run retry hq h hp hr hpow
    obtain ⟨hi, ⟨-, hdef⟩, -⟩ := nextDeferred_best h
    obtain ⟨hpower, hdefer⟩ := deferTaken_turnOn s.dev i hi
    obtain ⟨hrun, hpend, -, htime⟩ := chApply_on (s.dev.deferTaken i) i run duty src retry hr (hpower.trans hpow)
      (by rw [deferTaken_same]; rfl) (hdefer.trans hdef)
    have hnow : ((s.dev.deferTaken i).chApply i run duty src retry).now = (s.dev.deferTaken i).now := by unfold Dev.now; rw [htime]
    refine ⟨_, (deferredTurnOn_runs h hp).trans (done_of_flt hq ?_), hrun, hpend, hnow.trans (deferTaken_now _ _), ?_, fun j hj => ?_⟩
    · rw [chApply_flt, deferTaken_flt]
    · exact (chApply_load_lastDefer _ _ _ _ _ _).trans ((deferTaken_lastDefer _ _).trans (congrArg some hnow.symm))
    · exact (chApply_ch_ne _ _ _ _ _ _ _ hj).trans (deferTaken_other _ _ hj)

end Sys2Proof.Machine
end

section
/-!
PROOF. Ground, supply and reverse battery (R389, R396, Table LOAD-6): what turns every output off, what the ground's return leaves of
the channels, and the conditions that defer turn-ons.
-/
namespace Sys2Proof.Machine

/-! ### A pass over the channels -/

/-- What each channel's own step brings about, and no other channel's step undoes, holds of every channel after the pass. -/
theorem fold_settles (op : Dev → Nat → Dev) (q : Nat → Dev → Prop) {n : Nat} (hset : ∀ d i, i < n → q i (op d i))
    (hkeep : ∀ d i j, i < n → j < n → j ≠ i → q j d → q j (op d i)) (d : Dev) {i : Nat} (hi : i < n) :
    q i ((List.range n).foldl op d) := by
  have h : ∀ k ≤ n, ∀ j < k, q j ((List.range k).foldl op d) := by
    intro k
    induction k with
    | zero => exact fun _ j hj => absurd hj (Nat.not_lt_zero j)
    | succ k ih =>
      intro hk j hj
      rw [List.range_succ, List.foldl_append]
      rcases Nat.lt_succ_iff_lt_or_eq.mp hj with hlt | rfl
      · exact hkeep _ _ _ hk (by omega) (by omega) (ih (by omega) j hlt)
      · exact hset _ _ hk
  exact h n (Nat.le_refl n) i hi

/-- The registers of a channel's own output lie at none of another channel's, and its configuration at none of any. -/
theorem status_not_mem_chanRegs (i j : Fin 24) (h : j ≠ i) : R.LOAD_CH_STATUS j ∉ chanRegs i := by
  revert i j
  decide +kernel

/-- The registers of the 24 channels. -/
def allChanRegs : List Nat := (List.range 24).flatMap chanRegs

theorem config_not_mem_allChanRegs (i : Fin 24) : R.LOAD_CH_CFG i ∉ allChanRegs := by
  revert i
  decide +kernel

theorem chanRegs_sub_all {i : Nat} (hi : i < 24) : ∀ a ∈ chanRegs i, a ∈ allChanRegs := fun _ ha =>
  List.mem_flatMap.mpr ⟨i, List.mem_range.mpr hi, ha⟩

/-! ### Every output off -/

/-- Channel `i` is off, with nothing pending and duty 0, and does not limit. -/
def Dev.isOff (i : Nat) (d : Dev) : Prop := (d.ch i).run = .off ∧ (d.ch i).out = false ∧ (d.ch i).winEnd = none ∧ (d.ch i).pend = none
  ∧ d.get (F.LOAD_CH_STATUS_DUTY i) = 0 ∧ d.flag (F.LOAD_CH_STATUS_LIMITING i) = false

theorem isOff_of {d e : Dev} {i : Nat} {l : List Nat} (h : d.isOff i) (hc : e.ch i = d.ch i) (ho : d.regsOnly e l)
    (hm : R.LOAD_CH_STATUS i ∉ l) : e.isOff i := by
  unfold Dev.isOff Dev.flag at h ⊢
  rw [hc, get_only ho _ hm (.inl (of_decide_eq_true rfl)), get_only ho (F.LOAD_CH_STATUS_LIMITING i) hm (.inl (of_decide_eq_true rfl))]
  exact h

section
variable (d : Dev) (i src : Nat)

theorem chOff_duty : (d.chOff i src).get (F.LOAD_CH_STATUS_DUTY i) = 0 := by
  unfold Dev.chOff
  rw [get_set_ne _ (F.LOAD_CH_STATUS_LIMITING i) (F.LOAD_CH_STATUS_DUTY i) _ (.inr (.inr (of_decide_eq_true rfl))) (of_decide_eq_true rfl)
      (of_decide_eq_true rfl),
    get_set_ne _ (F.LOAD_CH_STATUS_SRC i) (F.LOAD_CH_STATUS_DUTY i) _ (.inr (.inr (of_decide_eq_true rfl))) (of_decide_eq_true rfl)
      (of_decide_eq_true rfl), get_set_same _ (F.LOAD_CH_STATUS_DUTY i) 0 (of_decide_eq_true rfl)]
  rfl

theorem chOff_limiting : (d.chOff i src).flag (F.LOAD_CH_STATUS_LIMITING i) = false := by
  unfold Dev.chOff Dev.flag
  rw [get_set_same _ (F.LOAD_CH_STATUS_LIMITING i) 0 (of_decide_eq_true rfl)]
  rfl

theorem chOff_isOff : (d.chOff i src).isOff i := by
  unfold Dev.isOff
  rw [chOff_ch, if_pos rfl]
  exact ⟨rfl, rfl, rfl, rfl, chOff_duty d i src, chOff_limiting d i src⟩

end

theorem outputsOff_isOff (d : Dev) (i : Fin 24) : d.outputsOff.isOff i := by
  refine fold_settles (fun d i => d.chOff i (d.get (F.LOAD_CH_STATUS_SRC i))) Dev.isOff (fun d i _ => chOff_isOff d i _) ?_ d i.isLt
  intro d i j hi hj hne h
  exact isOff_of h (by rw [chOff_ch, if_neg hne]) (only_chOff i _ (fun _ ha => ha) (only_refl _ _))
    (status_not_mem_chanRegs ⟨i, hi⟩ ⟨j, hj⟩ (fun he => hne (congrArg Fin.val he)))

theorem only_outputsOff (d : Dev) : d.regsOnly d.outputsOff allChanRegs :=
  only_fold _ _ 24 (fun _ _ _ hi => only_chOff _ _ (chanRegs_sub_all hi)) d d (only_refl _ _)

@[simp] theorem outputsOff_flt (d : Dev) : d.outputsOff.flt = d.flt := fold_keep _ Dev.flt (fun _ _ => chOff_flt _ _ _) _ d
@[simp] theorem outputsOff_gndLost (d : Dev) : d.outputsOff.load.gndLost = d.load.gndLost :=
  fold_keep _ (fun d => d.load.gndLost) (fun _ _ => chOff_load_gndLost _ _ _) _ d

/-! ### Ground -/

/-- The registers of a change of the supply: its status and the load side's events. -/
def supplyRegs : List Nat := R.LOADC_SUPPLY_STATUS :: loadEventRegs

theorem supplyRegs_spec : R.LOADC_SUPPLY_STATUS ∉ loadEventRegs ∧ ∀ i : Fin 24, R.LOAD_CH_STATUS i ∉ supplyRegs := by decide +kernel

theorem only_supplyEvent {d e : Dev} {l : List Nat} (hl : ∀ a ∈ loadEventRegs, a ∈ l) (h : d.regsOnly e l) : d.regsOnly e.supplyEvent l :=
  only_ev63 _ hl h

/-- The ground is lost and every output off, before the registers show it. -/
def Dev.groundOff (d : Dev) : Dev := { d with load := { d.load with gndLost := true } }.outputsOff

/-- Ground is lost (Table LOAD-6). -/
def Dev.groundLost (d : Dev) : Dev := ((d.groundOff.set F.LOADC_SUPPLY_STATUS_GND_LOSS 1).fltSet blkLoad 4).supplyEvent

theorem groundLoss_loses (s : State) : exec .groundLoss s = s.done s.dev.groundLost := rfl

section
variable (d : Dev)

@[simp] theorem groundLost_flt : d.groundLost.flt = d.flt := by unfold Dev.groundLost Dev.groundOff; simp

theorem groundLost_outPower : d.groundLost.outPower = false := by
  have h : d.groundLost.load.gndLost = true := by unfold Dev.groundLost Dev.groundOff; simp
  unfold Dev.outPower
  rw [h, Bool.not_true, Bool.and_false]

theorem groundLost_flag : d.groundLost.flag F.LOADC_SUPPLY_STATUS_GND_LOSS = true := by
  have h : (d.groundOff.set F.LOADC_SUPPLY_STATUS_GND_LOSS 1).regsOnly d.groundLost loadEventRegs :=
    only_supplyEvent (fun _ ha => ha) (only_fltSet _ _ (by simp [loadEventRegs]) (only_refl _ _))
  unfold Dev.flag
  rw [get_only h F.LOADC_SUPPLY_STATUS_GND_LOSS supplyRegs_spec.1 (.inl (by decide))]
  exact flag_set_one _ _ (by decide) (by decide)

theorem groundLost_isOff (i : Fin 24) : d.groundLost.isOff i := by
  have hl : ∀ a ∈ loadEventRegs, a ∈ supplyRegs := fun _ => List.mem_cons_of_mem _
  refine isOff_of (outputsOff_isOff _ i) ?_ (only_supplyEvent hl (only_fltSet _ _ (hl _ (by simp [loadEventRegs]))
    (only_set _ _ (List.mem_cons_self ..) (by decide) (only_refl _ _)))) (supplyRegs_spec.2 i)
  unfold Dev.groundLost
  rw [supplyEvent_ch, fltSet_ch, set_ch]
  rfl

end

/-- A channel whose ground has come back: FAULT_OFF with code GND_LOSS. -/
def Dev.groundFault (d : Dev) (i : Nat) : Dev := (d.setCh i { d.ch i with run := .faultOff, code := 9, tripAt := d.now }).chFault i 0x09

/-- Ground is back (Table LOAD-6). -/
def Dev.groundBack (d : Dev) : Dev :=
  ((List.range 24).foldl Dev.groundFault { d with load := { d.load with gndLost := false } }).supplyEvent

theorem groundReturn_back (s : State) (h : s.dev.load.gndLost = true) : exec .groundReturn s = s.done s.dev.groundBack := if_pos h

section
variable (d : Dev) (i : Nat)

@[simp] theorem groundFault_flt : (d.groundFault i).flt = d.flt := by unfold Dev.groundFault; simp
@[simp] theorem groundFault_gndLost : (d.groundFault i).load.gndLost = d.load.gndLost := by unfold Dev.groundFault; simp
theorem groundFault_same : (d.groundFault i).ch i = { d.ch i with run := .faultOff, code := 9, tripAt := d.now } := by
  unfold Dev.groundFault; rw [chFault_ch, ch_setCh_same]
theorem groundFault_other {j : Nat} (h : j ≠ i) : (d.groundFault i).ch j = d.ch j := by
  unfold Dev.groundFault; rw [chFault_ch, ch_setCh_ne _ _ _ _ h]

@[simp] theorem groundBack_flt : d.groundBack.flt = d.flt :=
  (supplyEvent_flt _).trans (fold_keep _ Dev.flt groundFault_flt _ _)

theorem groundBack_gndLost : d.groundBack.load.gndLost = false :=
  (supplyEvent_load_gndLost _).trans (fold_keep _ (fun d => d.load.gndLost) groundFault_gndLost _ _)

theorem groundBack_ch (hi : i < 24) : (d.groundBack.ch i).run = .faultOff ∧ (d.groundBack.ch i).code = 9
    ∧ (d.groundBack.ch i).out = (d.ch i).out := by
  obtain ⟨e, -, hch, hfold⟩ := fold_ch Dev.groundFault (fun d i j h => groundFault_other d i h) (fun _ => True) 24
    (fun _ _ _ _ => trivial) { d with load := { d.load with gndLost := false } } trivial i hi
  have hback : d.groundBack.ch i = (e.groundFault i).ch i := (supplyEvent_ch _ i).trans hfold
  rw [hback, groundFault_same]
  have hout : (e.ch i).out = (d.ch i).out := congrArg LoadCh.out hch
  exact ⟨rfl, rfl, hout⟩

end

theorem cleared_ground {d : Dev} {i : Nat} (tj : Int) (dt : Nat) (h : (d.ch i).code = 9) : d.cleared i tj dt = false := by
  unfold Dev.cleared
  simp only [h]

/-! ### Supply conditions (R389, R396) -/

section
variable (d : Dev) (f : FieldRef) (on : Bool)

theorem supplyCond_same (h : d.flag f = on) : d.supplyCond f on = d := if_pos (by simp [h])

theorem supplyCond_only : (d.set f (b2n on)).regsOnly (d.supplyCond f on) loadEventRegs
    ∨ d.supplyCond f on = d ∧ d.flag f = on := by
  by_cases h : d.flag f = on
  · exact .inr ⟨supplyCond_same d f on h, h⟩
  · refine .inl ?_
    unfold Dev.supplyCond
    rw [if_neg (by simpa using h)]
    cases on
    · exact only_supplyEvent (fun _ ha => ha) (only_refl _ _)
    · exact only_supplyEvent (fun _ ha => ha) (only_fltSet _ _ (by simp [loadEventRegs]) (only_refl _ _))

/-- A condition's bit shows its state. -/
theorem supplyCond_shows (ha : f.addr = R.LOADC_SUPPLY_STATUS) (hw : f.lo + f.w ≤ 32) (h1 : f.w = 1) : (d.supplyCond f on).flag f = on := by
  rcases supplyCond_only d f on with h | ⟨h, hf⟩
  · unfold Dev.flag
    rw [get_only h f (ha ▸ supplyRegs_spec.1) (.inl hw), get_set_same _ f _ (by omega), h1]
    cases on <;> rfl
  · rw [h, hf]

/-- Another condition's bit stays. -/
theorem supplyCond_other (g : FieldRef) (hw : f.lo + f.w ≤ 32) (hg : g.addr = R.LOADC_SUPPLY_STATUS)
    (hgw : g.lo + g.w ≤ 32) (h : g.lo + g.w ≤ f.lo ∨ f.lo + f.w ≤ g.lo) : (d.supplyCond f on).flag g = d.flag g := by
  rcases supplyCond_only d f on with hr | ⟨hr, -⟩
  · unfold Dev.flag
    rw [get_only hr g (hg ▸ supplyRegs_spec.1) (.inl hgw), get_set_ne _ f g _ (.inr h) hw hgw]
  · rw [hr]

end

/-- The device with the measured supplies. -/
def Dev.withSupplies (d : Dev) (vbat vhv : Nat) : Dev :=
  ({ d with load := { d.load with vbat := vbat % 65536, vhv := vhv % 65536 } } : Dev).set F.SUPV_VBAT_MEAS_MV (min 65535 vbat)

/-- Load dump and high VHV as their thresholds with hysteresis give them. -/
def Dev.dumpAt (d : Dev) (vbat : Nat) : Bool := decide ((if d.flag F.LOADC_SUPPLY_STATUS_DUMP then 27500 else 28000) < vbat)
def Dev.highAt (d : Dev) (vhv : Nat) : Bool := decide ((if d.flag F.LOADC_SUPPLY_STATUS_VHV_HIGH then 5800 else 6000) < vhv)

/-- The conditions follow the supplies. -/
def Dev.supplied (d : Dev) (vbat vhv : Nat) : Dev :=
  ((d.withSupplies vbat vhv).supplyCond F.LOADC_SUPPLY_STATUS_DUMP (d.dumpAt vbat)).supplyCond F.LOADC_SUPPLY_STATUS_VHV_HIGH (d.highAt vhv)

theorem decide_lt_ite (c : Bool) (a b x : Nat) : (if c then decide (a < x) else decide (b < x)) = decide ((if c then a else b) < x) := by
  cases c <;> rfl

section
variable (d : Dev) (vbat vhv : Nat)

theorem withSupplies_flag (f : FieldRef) (hf : F.SUPV_VBAT_MEAS_MV.apart f = true) : (d.withSupplies vbat vhv).flag f = d.flag f := by
  unfold Dev.withSupplies
  exact flag_set_apart _ _ hf

theorem supplyConditionChange_supplied (s : State) : exec (.supplyConditionChange vbat vhv) s = s.done (s.dev.supplied vbat vhv) := by
  unfold Dev.supplied Dev.dumpAt Dev.highAt
  rw [← withSupplies_flag s.dev vbat vhv F.LOADC_SUPPLY_STATUS_DUMP (by decide),
    ← withSupplies_flag s.dev vbat vhv F.LOADC_SUPPLY_STATUS_VHV_HIGH (by decide), ← decide_lt_ite, ← decide_lt_ite]
  rfl

@[simp] theorem supplied_flt : (d.supplied vbat vhv).flt = d.flt := by unfold Dev.supplied Dev.withSupplies; simp
theorem supplied_ch (i : Nat) : (d.supplied vbat vhv).ch i = d.ch i := by
  unfold Dev.supplied Dev.withSupplies
  rw [supplyCond_ch, supplyCond_ch, set_ch]
  rfl

theorem supplied_dump : (d.supplied vbat vhv).flag F.LOADC_SUPPLY_STATUS_DUMP = d.dumpAt vbat := by
  unfold Dev.supplied
  rw [supplyCond_other _ _ _ _ (by decide) rfl (by decide) (by decide), supplyCond_shows _ _ _ rfl (by decide) rfl]

theorem supplied_high : (d.supplied vbat vhv).flag F.LOADC_SUPPLY_STATUS_VHV_HIGH = d.highAt vhv := by
  unfold Dev.supplied
  rw [supplyCond_shows _ _ _ rfl (by decide) rfl]

end

/-! ### Reverse battery (Table LOAD-6) -/

/-- The bits that a pass sets, beside those of the word before it. -/
theorem bit_fold_setBit (g : Nat → Nat) (l : List Nat) (m k : Nat) :
    bit (l.foldl (fun m i => setBit m (g i) true) m) k = (bit m k || l.any (fun i => g i == k)) := by
  induction l generalizing m with
  | nil => simp
  | cons i l ih =>
    rw [List.foldl_cons, ih, List.any_cons]
    by_cases h : g i = k
    · subst h
      simp
    · rw [bit_setBit_ne _ _ _ _ h, beq_false_of_ne h, Bool.false_or]

/-- The clamps of a list of channels, for channel `k` of it. -/
theorem bit_fold_filter (p : Nat → Bool) (g : Nat → Nat) (hg : ∀ i j, g i = g j → i = j) {n k : Nat} (hk : k < n) :
    bit (((List.range n).filter p).foldl (fun m i => setBit m (g i) true) 0) (g k) = p k := by
  rw [bit_fold_setBit, Bool.eq_iff_iff]
  have h0 : bit 0 (g k) = false := by simp [bit]
  simp only [h0, Bool.false_or, List.any_eq_true, List.mem_filter, List.mem_range, beq_iff_eq]
  exact ⟨fun ⟨i, ⟨_, hp⟩, he⟩ => hg i k he ▸ hp, fun hp => ⟨k, ⟨hk, hp⟩, rfl⟩⟩

/-- The HS channels that are switched on and the GD channels whose reverse FET is held off. -/
def Dev.revClamps (d : Dev) : Nat := ((List.range 12).filter (fun i => d.flag (F.LOAD_CH_CFG_REV_ON i))).foldl (fun m i => setBit m i true) 0
def Dev.revHolds (d : Dev) : Nat :=
  ((List.range 12).filter (fun i => d.flag (F.LOAD_CH_CFG_B2B (12 + i)))).foldl (fun m i => setBit m (12 + i) true) 0

/-- The clamps are noted. -/
def Dev.clamped (d : Dev) (on held : Nat) : Dev := { d with load := { d.load with revOn := on, revHeld := held, vbat := 0, revBat := true } }

theorem clamped_ch (d : Dev) (on held i : Nat) : (d.clamped on held).ch i = d.ch i := rfl
theorem clamped_flt (d : Dev) (on held : Nat) : (d.clamped on held).flt = d.flt := rfl
theorem clamped_regs (d : Dev) (on held : Nat) : d.regsOnly (d.clamped on held) supplyRegs := fun _ _ => rfl

/-- The battery is reversed: every output off, the clamps noted. -/
def Dev.reversed (d : Dev) : Dev :=
  (d.outputsOff.clamped d.outputsOff.revClamps d.outputsOff.revHolds).supplyEvent

theorem reverseBattery_reverses (s : State) : exec .reverseBattery s = s.done s.dev.reversed := rfl

section
variable (d : Dev)

@[simp] theorem reversed_flt : d.reversed.flt = d.flt := by
  unfold Dev.reversed
  rw [supplyEvent_flt, clamped_flt, outputsOff_flt]
theorem reversed_revOn : d.reversed.load.revOn = d.outputsOff.revClamps := by unfold Dev.reversed; rw [supplyEvent_load_revOn]; rfl
theorem reversed_revHeld : d.reversed.load.revHeld = d.outputsOff.revHolds := by unfold Dev.reversed; rw [supplyEvent_load_revHeld]; rfl
theorem reversed_revBat : d.reversed.load.revBat = true := by
  unfold Dev.reversed Dev.supplyEvent
  rw [ev63_beside (f := fun l => l.revBat) (fun _ _ _ _ => rfl)]
  rfl

theorem reversed_isOff (i : Fin 24) : d.reversed.isOff i := by
  refine isOff_of (outputsOff_isOff d i) ?_ (only_supplyEvent (fun _ ha => List.mem_cons_of_mem _ ha) (clamped_regs _ _ _))
    (supplyRegs_spec.2 i)
  rw [Dev.reversed, supplyEvent_ch, clamped_ch]

theorem outputsOff_config (i : Fin 24) (f : FieldRef) (ha : f.addr = R.LOAD_CH_CFG i) (hw : f.lo + f.w ≤ 32) :
    d.outputsOff.flag f = d.flag f := by
  unfold Dev.flag
  rw [get_only (only_outputsOff d) f (ha ▸ config_not_mem_allChanRegs i) (.inl hw)]

theorem revClamps_bit {i : Nat} (hi : i < 12) : bit d.outputsOff.revClamps i = d.flag (F.LOAD_CH_CFG_REV_ON i) :=
  (bit_fold_filter _ (fun i => i) (fun _ _ h => h) hi).trans (outputsOff_config d ⟨i, by omega⟩ _ rfl (of_decide_eq_true rfl))

theorem revHolds_bit {i : Nat} (hi : i < 12) : bit d.outputsOff.revHolds (12 + i) = d.flag (F.LOAD_CH_CFG_B2B (12 + i)) :=
  (bit_fold_filter _ (fun i => 12 + i) (fun _ _ h => Nat.add_left_cancel h) hi).trans
    (outputsOff_config d ⟨12 + i, by omega⟩ _ rfl (of_decide_eq_true rfl))

end

/-! ### The obligation -/

/-- Settles O40: the 24 turn-offs are one pass (`outputsOff_isOff`), and each condition's bit is that of `Dev.supplyCond`. -/
theorem groundAndSupply : Obligations.GroundAndSupply := by
  refine ⟨?loss, ?back, fun _ _ dt tj => cleared_ground tj dt, ?supply, ?reverse⟩
  case loss =>
    intro s hq
    exact ⟨_, (groundLoss_loses s).trans (done_of_flt hq (groundLost_flt _)), groundLost_outPower _, groundLost_flag _, groundLost_isOff _⟩
  case back =>
    intro s hq h
    exact ⟨_, (groundReturn_back s h).trans (done_of_flt hq (groundBack_flt _)), groundBack_gndLost _, fun i => groundBack_ch _ i i.isLt⟩
  case supply =>
    intro s vbat vhv hq
    exact ⟨_, (supplyConditionChange_supplied vbat vhv s).trans (done_of_flt hq (supplied_flt _ _ _)), supplied_dump _ _ _,
      supplied_high _ _ _, supplied_ch _ _ _⟩
  case reverse =>
    intro s hq
    refine ⟨_, (reverseBattery_reverses s).trans (done_of_flt hq (reversed_flt _)), reversed_revBat _, fun i => ?_, fun i => ⟨?_, ?_⟩⟩
    · obtain ⟨hrun, hout, -, -, hduty, -⟩ := reversed_isOff s.dev i
      exact ⟨hrun, hout, hduty⟩
    · exact (congrArg (bit · i) (reversed_revOn _)).trans (revClamps_bit _ i.isLt)
    · exact (congrArg (bit · (12 + i)) (reversed_revHeld _)).trans (revHolds_bit _ i.isLt)

end Sys2Proof.Machine
end

section
/-!
PROOF. The heartbeat watchdog (R398 to R401): what a feed, an expiry, a release and the lock leave. A pass over the channels brings one
of them exactly what its own step does, its status register included (`fold_own`), and a fault that shows stays shown.
-/
namespace Sys2Proof.Machine

/-! ### A pass over the channels, seen from one of them -/

/-- What is a channel's own, and no other channel's step moves, comes out of a pass as its own step leaves it. -/
theorem fold_own {α : Type} (op : Dev → Nat → Dev) (own : Nat → Dev → α) (q : Dev → Prop) {n : Nat}
    (hne : ∀ d i j, i < n → j < n → j ≠ i → own j (op d i) = own j d) (hq : ∀ d i, i < n → q d → q (op d i)) (d : Dev) (hd : q d)
    {i : Nat} (hi : i < n) : ∃ e, q e ∧ own i e = own i d ∧ own i ((List.range n).foldl op d) = own i (op e i) := by
  have before : ∀ k ≤ n, q ((List.range k).foldl op d) ∧ ∀ j < n, k ≤ j → own j ((List.range k).foldl op d) = own j d := by
    intro k
    induction k with
    | zero => exact fun _ => ⟨hd, fun _ _ _ => rfl⟩
    | succ k ih =>
      intro hk
      obtain ⟨hqk, hown⟩ := ih (by omega)
      rw [List.range_succ, List.foldl_append]
      exact ⟨hq _ _ hk hqk, fun j hj hkj => (hne _ k j hk hj (by omega)).trans (hown j hj (by omega))⟩
  have after : ∀ k ≤ n, i < k → own i ((List.range k).foldl op d) = own i (op ((List.range i).foldl op d) i) := by
    intro k
    induction k with
    | zero => exact fun _ h => absurd h (Nat.not_lt_zero i)
    | succ k ih =>
      intro hk hik
      rw [List.range_succ, List.foldl_append]
      rcases Nat.lt_succ_iff_lt_or_eq.mp hik with hlt | rfl
      · exact (hne _ k i hk hi (by omega)).trans (ih (by omega) hlt)
      · rfl
  obtain ⟨hqi, hown⟩ := before i (Nat.le_of_lt hi)
  exact ⟨_, hqi, hown i hi (Nat.le_refl i), after n (Nat.le_refl n) hi⟩

/-- A channel with its status register. -/
def Dev.ownCh (i : Nat) (d : Dev) : LoadCh × Nat := (d.ch i, d.reg (R.LOAD_CH_STATUS i))

theorem ownCh_of_only {d e : Dev} {i j : Fin 24} (h : j ≠ i) (hc : e.ch j = d.ch j) (ho : d.regsOnly e (chanRegs i ++ loadEventRegs)) :
    e.ownCh j = d.ownCh j := by
  have hm : R.LOAD_CH_STATUS j ∉ chanRegs i ++ loadEventRegs := fun hm => (List.mem_append.mp hm).elim (status_not_mem_chanRegs i j h)
    (fun hl => (supplyRegs_spec.2 j) (List.mem_cons_of_mem _ hl))
  unfold Dev.ownCh
  rw [hc, ho _ hm]

theorem get_ownCh {d e : Dev} {i : Nat} (h : e.ownCh i = d.ownCh i) (f : FieldRef) (ha : f.addr = R.LOAD_CH_STATUS i)
    (hw : f.lo + f.w ≤ 32) : e.get f = d.get f := by
  have hreg : e.reg f.addr = d.reg f.addr := ha ▸ congrArg Prod.snd h
  unfold Dev.get
  rw [if_pos hw, if_pos hw, hreg]

theorem ch_ownCh {d e : Dev} {i : Nat} (h : e.ownCh i = d.ownCh i) : e.ch i = d.ch i := congrArg Prod.fst h

/-! ### A fault that shows -/

/-- Bit `i` of a block's FAULT_STATUS is set. -/
def Dev.faultShown (b i : Nat) (d : Dev) : Prop := bit (d.reg (R.FLT_FAULT_STATUS b)) i = true

theorem faultShown_of_only {d e : Dev} {b i : Nat} {l : List Nat} (ho : d.regsOnly e l) (hb : R.FLT_FAULT_STATUS b ∉ l)
    (h : d.faultShown b i) : e.faultShown b i := by
  unfold Dev.faultShown
  rw [ho _ hb]
  exact h

theorem fltSet_reg (d : Dev) (b i a : Nat) : (d.fltSet b i).reg a
    = (d.setReg (R.FLT_FAULT_STATUS b) (setBit (d.reg (R.FLT_FAULT_STATUS b)) i true)).reg a := by
  unfold Dev.fltSet Dev.fltEdge
  split
  · rw [reg_eq, fltIrq_regs, ← reg_eq]
  · rfl

theorem reg_setReg_same (d : Dev) (a v : Nat) : (d.setReg a v).reg a = v % 2 ^ 32 := by
  rw [reg_eq, setReg_regs, rreg_rput_same]

theorem reg_setReg_ne (d : Dev) {a b : Nat} (v : Nat) (h : a ≠ b) : (d.setReg a v).reg b = d.reg b := by
  rw [reg_eq, setReg_regs, rreg_rput_ne _ _ _ _ h, ← reg_eq]

theorem faultShown_fltSet_same (d : Dev) (b : Nat) {i : Nat} (hi : i < 32) : (d.fltSet b i).faultShown b i := by
  unfold Dev.faultShown
  rw [fltSet_reg, reg_setReg_same, bit_mod _ _ _ hi, bit_setBit_same]

theorem faultShown_fltSet {d : Dev} {b i : Nat} (hi : i < 32) (c j : Nat) (h : d.faultShown b i) : (d.fltSet c j).faultShown b i := by
  unfold Dev.faultShown at h ⊢
  rw [fltSet_reg]
  by_cases hc : R.FLT_FAULT_STATUS c = R.FLT_FAULT_STATUS b
  · rw [hc, reg_setReg_same, bit_mod _ _ _ hi]
    by_cases hj : j = i
    · rw [hj, bit_setBit_same]
    · rw [bit_setBit_ne _ _ _ _ hj]
      exact h
  · rw [reg_setReg_ne _ _ hc]
    exact h

/-- What the load side's operations write beside status bits. -/
theorem fault_not_mem_load : R.FLT_FAULT_STATUS blkLoad ∉ [R.PWR_D2D_RETRIES] ∧ R.FLT_FAULT_STATUS blkLoad ∉ [R.HIF_DEV_INDEX 63]
    ∧ R.FLT_FAULT_STATUS blkLoad ∉ [R.LOADC_EV_LOST] ∧ R.FLT_FAULT_STATUS blkLoad ∉ [R.STE_EVF_LOST]
    ∧ ∀ i : Fin 24, R.FLT_FAULT_STATUS blkLoad ∉ chanRegs i := by decide +kernel

/-- What writes only a channel's registers keeps it. -/
theorem faultShown_chan {d e : Dev} {i k : Nat} (hi : i < 24) (ho : d.regsOnly e (chanRegs i)) (h : d.faultShown blkLoad k) :
    e.faultShown blkLoad k := by
  obtain ⟨-, -, -, -, hch⟩ := fault_not_mem_load
  exact faultShown_of_only ho (hch ⟨i, hi⟩) h

section
variable {d : Dev} {k : Nat} (hk : k < 32)
include hk

theorem faultShown_evPut (h : d.faultShown blkLoad k) (e : List Byte) : (d.evPut e).faultShown blkLoad k := by
  obtain ⟨hd2d, hring, hlost, -, -⟩ := fault_not_mem_load
  have hf := faultShown_of_only (only_flits 1 (List.mem_singleton_self _) (only_refl d _)) hd2d h
  unfold Dev.evPut
  dsimp only
  split
  · exact faultShown_of_only (only_eventPut 63 e (List.mem_singleton_self _) (only_refl _ _)) hring hf
  · exact faultShown_fltSet hk _ _ (faultShown_of_only (only_inc F.LOADC_EV_LOST_COUNT (List.mem_singleton_self _) (of_decide_eq_true rfl)
      (only_refl _ _)) hlost hf)

theorem faultShown_drain63 (h : d.faultShown blkLoad k) : d.drain63.faultShown blkLoad k := by
  have key : ∀ (m : List (List Byte)) (x : Dev), x.faultShown blkLoad k → (m.foldl Dev.evPut x).faultShown blkLoad k := by
    intro m
    induction m with
    | nil => exact fun _ hx => hx
    | cons a m ih => exact fun x hx => ih _ (faultShown_evPut hk hx a)
  unfold Dev.drain63
  split
  · exact key _ _ h
  · exact h

theorem faultShown_ev63 (h : d.faultShown blkLoad k) (e : List Byte) : (d.ev63 e).faultShown blkLoad k := by
  unfold Dev.ev63
  split
  · exact faultShown_evPut hk (faultShown_drain63 hk h) e
  · split
    · exact h
    · exact faultShown_of_only (only_inc F.LOADC_EV_LOST_COUNT (List.mem_singleton_self _) (of_decide_eq_true rfl) (only_refl _ _))
        fault_not_mem_load.2.2.1 h

theorem faultShown_steEvent (h : d.faultShown blkLoad k) (t c x : Nat) : (d.steEvent t c x).faultShown blkLoad k := by
  unfold Dev.steEvent Dev.takeOrder
  split
  · exact h
  · split
    · exact faultShown_fltSet hk _ _ (faultShown_of_only (only_inc F.STE_EVF_LOST_COUNT (List.mem_singleton_self _) (of_decide_eq_true rfl)
        (only_refl _ _)) fault_not_mem_load.2.2.2.1 h)
    · exact h

variable {i : Nat} (hi : i < 24)
include hi

theorem faultShown_chFault (h : d.faultShown blkLoad k) (c : Nat) : (d.chFault i c).faultShown blkLoad k :=
  faultShown_steEvent hk (faultShown_ev63 hk (faultShown_fltSet hk _ _ (faultShown_chan hi
    (only_setBitOf (F.LOAD_CH_FAULT_CODES i) _ _ (by simp [chanRegs, F.LOAD_CH_FAULT_CODES]) (of_decide_eq_true rfl) (only_refl _ _)) h)) _) _ _ _

theorem faultShown_chApply (h : d.faultShown blkLoad k) (run : Run) (duty src : Nat) (retry : Bool) :
    (d.chApply i run duty src retry).faultShown blkLoad k := by
  unfold Dev.chApply
  dsimp only
  split
  · exact faultShown_chan hi (only_chOff _ _ (fun _ ha => ha) (only_refl _ _)) h
  · split
    · exact faultShown_chan hi (only_chMove _ _ _ _ (fun _ ha => ha) (only_refl _ _)) h
    · split
      · exact faultShown_chFault hk hi (faultShown_chan hi
          (only_set _ _ (by simp [chanRegs, F.LOAD_CH_STATUS_SRC]) (of_decide_eq_true rfl)
            (only_set _ _ (by simp [chanRegs, F.LOAD_CH_STATUS_DUTY]) (of_decide_eq_true rfl)
              (only_setCh _ _ (fun _ ha => ha) (only_refl _ _)))) h) _
      · exact faultShown_chan hi (only_chMove _ _ _ _ (fun _ ha => ha) (only_setCh _ _ (fun _ ha => ha) (only_refl _ _))) h

theorem faultShown_obey (h : d.faultShown blkLoad k) (src : Nat) : (d.obey i src).faultShown blkLoad k := by
  unfold Dev.obey
  split
  · exact h
  · exact faultShown_chApply hk hi h _ _ _ _

theorem faultShown_follow (h : d.faultShown blkLoad k) (src : Nat) : (d.follow i src).faultShown blkLoad k := by
  unfold Dev.follow
  split
  · exact h
  · exact faultShown_obey hk hi h _

end

/-! ### Feeds (R398) -/

section
variable (d : Dev) {m key : Nat}

/-- The feed that the watchdog takes: a permitted master with the next key. -/
def Dev.feedGood (d : Dev) (m key : Nat) : Prop :=
  (∃ b, wdMasterBit m = some b ∧ bit (d.get F.LOADC_WD_CFG_MASTERS) b = true) ∧ key % 256 = d.get F.LOADC_WD_STATUS_NEXT

/-- A feed was taken. -/
def Dev.fed (d : Dev) (key : Nat) : Dev :=
  ({ d with load := { d.load with wdFed := some d.now, fedSince := true } } : Dev).set F.LOADC_WD_STATUS_NEXT ((key + 0x35) % 256)

theorem wdFeed_good (h : d.feedGood m key) : d.wdFeed m key = d.fed key := by
  obtain ⟨⟨b, hb, hbit⟩, hk⟩ := h
  unfold Dev.wdFeed
  rw [hb]
  exact if_pos (by simp [hbit, hk])

theorem wdFeed_bad (h : (∀ b, wdMasterBit m = some b → bit (d.get F.LOADC_WD_CFG_MASTERS) b = false)
    ∨ key % 256 ≠ d.get F.LOADC_WD_STATUS_NEXT) : d.wdFeed m key = d.inc F.LOADC_WD_STATUS_BAD_FEEDS := by
  unfold Dev.wdFeed
  cases hb : wdMasterBit m with
  | none => exact if_neg (by simp)
  | some b =>
    refine if_neg ?_
    rcases h with h | h
    · simp [h b hb]
    · simp [h]

theorem wdFeed_flt : (d.wdFeed m key).flt = d.flt := by
  unfold Dev.wdFeed
  dsimp only
  repeat' split
  all_goals simp

theorem fed_next (key : Nat) : (d.fed key).get F.LOADC_WD_STATUS_NEXT = (key + 0x35) % 256 :=
  (get_set_same _ F.LOADC_WD_STATUS_NEXT _ (by decide)).trans (Nat.mod_mod _ _)

theorem fed_bad (key : Nat) : (d.fed key).get F.LOADC_WD_STATUS_BAD_FEEDS = d.get F.LOADC_WD_STATUS_BAD_FEEDS :=
  get_set_apart _ _ (by decide)

theorem fed_load (key : Nat) : (d.fed key).load = { d.load with wdFed := some d.now, fedSince := true } := set_load _ _ _

theorem fed_regs (key : Nat) : d.regsOnly (d.fed key) [R.LOADC_WD_STATUS] :=
  only_set F.LOADC_WD_STATUS_NEXT _ (List.mem_singleton_self _) (by decide) (fun _ _ => rfl)

theorem fed_ch (key i : Nat) : (d.fed key).ch i = d.ch i := set_ch _ _ _ _

end

/-! ### The watchdog's registers -/

/-- The registers whose writes feed, release and lock, each a word of its own in LOADC. -/
theorem wd_rows : ∀ a ∈ [R.LOADC_WD_FEED, R.LOADC_WD_CTRL, R.LOADC_LOCK], oneWord a = true ∧ faultBlockOf a = none ∧ pageBlock a = 62
    ∧ ¬ a < 0x1011000 := by decide +kernel

section
variable {d : Dev} {m a v : Nat} (ha : a ∈ [R.LOADC_WD_FEED, R.LOADC_WD_CTRL, R.LOADC_LOCK]) (ho : d.opens m a)
include ha ho

theorem write_wd (hv : v < 2 ^ 32) : ∃ r, regDef a = some r ∧ d.write m a v = (d.beforeWrite m a).putLoadc r m a v := by
  obtain ⟨hone, hfault, hpage, hlow⟩ := wd_rows a ha
  obtain ⟨r, hr⟩ := regDef_of_oneWord hone
  exact ⟨r, hr, (write_oneWord ho hr hone hv).trans (regPut_loadc _ _ _ _ _ hfault hpage hlow)⟩

end

theorem write_wdFeed {d : Dev} {m v : Nat} (ho : d.opens m R.LOADC_WD_FEED) (hv : v < 256) : d.write m R.LOADC_WD_FEED v
    = if m = 1 ∧ bit ((d.beforeWrite m R.LOADC_WD_FEED).get F.LOADC_WD_CFG_MASTERS) 1 = false then
        ((d.beforeWrite m R.LOADC_WD_FEED).wdFeed m v).flaggedWrite blkLoad m R.LOADC_WD_FEED
      else (d.beforeWrite m R.LOADC_WD_FEED).wdFeed m v := by
  obtain ⟨r, -, hw⟩ := write_wd (by simp) ho (show v < 2 ^ 32 by omega)
  rw [hw]
  unfold Dev.putLoadc
  rw [if_neg (by decide), if_pos (by decide), Nat.mod_eq_of_lt hv]
  simp

theorem write_wdRelease {d : Dev} {m : Nat} (ho : d.opens m R.LOADC_WD_CTRL) :
    d.write m R.LOADC_WD_CTRL 1 = (d.beforeWrite m R.LOADC_WD_CTRL).wdRelease m := by
  obtain ⟨r, -, hw⟩ := write_wd (by simp) ho (show 1 < 2 ^ 32 by decide)
  rw [hw]
  unfold Dev.putLoadc
  rw [if_neg (by decide), if_neg (by decide), if_pos (by decide)]
  exact if_pos (by decide)

/-! ### The expiry (R399) -/

/-- The registers that a pass over the channels can change. -/
def passRegs : List Nat := (List.range 24).flatMap chanRegs ++ loadEventRegs

theorem passRegs_spec : R.LOADC_LIMP_STATUS ∉ passRegs ∧ R.LOADC_LIMP_MAP ∉ passRegs ∧ R.LOADC_LIMP_SEL_LO ∉ passRegs
    ∧ R.LOADC_LIMP_SEL_HI ∉ passRegs ∧ R.LOADC_WD_STATUS ∉ passRegs ∧ R.LOADC_SUPPLY_STATUS ∉ passRegs ∧ R.SUPV_SUPPLY_STATUS ∉ passRegs
    ∧ R.SUPV_PD_STATUS ∉ passRegs ∧ ∀ i : Fin 24, R.LOAD_CH_CFG i ∉ passRegs ∧ R.LOAD_CH_SAFE i ∉ passRegs := by decide +kernel

/-- The registers by which the sources of a channel's output are read, in a device in which only other registers have changed. -/
structure Dev.sameSources (d e : Dev) : Prop where
  limpCtl : ∀ i, e.limpCtl i = d.limpCtl i
  lhIn : ∀ i, e.lhIn i = d.lhIn i
  mapped : e.get F.LOADC_LIMP_MAP_MAP = d.get F.LOADC_LIMP_MAP_MAP
  safe : ∀ i : Fin 24, e.get (F.LOAD_CH_CFG_SAFE i) = d.get (F.LOAD_CH_CFG_SAFE i)
  safeDuty : ∀ i : Fin 24, e.get (F.LOAD_CH_SAFE_SAFE_DUTY i) = d.get (F.LOAD_CH_SAFE_SAFE_DUTY i)
  deferring : ∀ i : Fin 24, e.deferring i = d.deferring i
  power : e.ready 12 = d.ready 12

theorem sameSources_of {d e : Dev} {l : List Nat} (h : d.regsOnly e l) (hl : ∀ a ∈ l, a ∈ passRegs ∨ a = R.LOADC_WD_STATUS) :
    d.sameSources e := by
  obtain ⟨hst, hmap, hlo, hhi, -, hsup, hsupv, hpd, hch⟩ := passRegs_spec
  have hwd : R.LOADC_LIMP_STATUS ≠ R.LOADC_WD_STATUS ∧ R.LOADC_LIMP_MAP ≠ R.LOADC_WD_STATUS ∧ R.LOADC_LIMP_SEL_LO ≠ R.LOADC_WD_STATUS
      ∧ R.LOADC_LIMP_SEL_HI ≠ R.LOADC_WD_STATUS ∧ R.LOADC_SUPPLY_STATUS ≠ R.LOADC_WD_STATUS ∧ R.SUPV_SUPPLY_STATUS ≠ R.LOADC_WD_STATUS
      ∧ R.SUPV_PD_STATUS ≠ R.LOADC_WD_STATUS
      ∧ ∀ i : Fin 24, R.LOAD_CH_CFG i ≠ R.LOADC_WD_STATUS ∧ R.LOAD_CH_SAFE i ≠ R.LOADC_WD_STATUS := by decide +kernel
  obtain ⟨wst, wmap, wlo, whi, wsup, wsupv, wpd, wch⟩ := hwd
  have out : ∀ {a}, a ∉ passRegs → a ≠ R.LOADC_WD_STATUS → a ∉ l := fun hp hw hm => (hl _ hm).elim hp hw
  have hget : ∀ f : FieldRef, f.addr ∉ passRegs → f.addr ≠ R.LOADC_WD_STATUS → f.lo + f.w ≤ 32 → e.get f = d.get f :=
    fun f hp hw h32 => get_only h f (out hp hw) (.inl h32)
  have hlhEn := hget F.LOADC_LIMP_STATUS_LH_EN hst wst (by decide)
  have hlhIn := hget F.LOADC_LIMP_STATUS_LH_IN hst wst (by decide)
  have hmapped := hget F.LOADC_LIMP_MAP_MAP hmap wmap (by decide)
  have hselLo := hget F.LOADC_LIMP_SEL_LO_SEL hlo wlo (by decide)
  have hselHi := hget F.LOADC_LIMP_SEL_HI_SEL hhi whi (by decide)
  refine ⟨fun i => ?_, fun i => ?_, hmapped, fun i => hget _ (hch i).1 (wch i).1 (of_decide_eq_true rfl),
    fun i => hget _ (hch i).2 (wch i).2 (of_decide_eq_true rfl), fun i => deferring_of i l h (out hsup wsup) (out (hch i).1 (wch i).1)
    (out hsupv wsupv), ?_⟩
  · unfold Dev.limpCtl Dev.flag
    rw [hlhEn, hmapped]
  · unfold Dev.lhIn
    rw [hlhIn, hselLo, hselHi]
  · unfold Dev.ready
    rw [hget F.SUPV_PD_STATUS_READY hpd wpd (by decide)]

theorem Dev.sameSources.trans {d e g : Dev} (h : d.sameSources e) (h' : e.sameSources g) : d.sameSources g where
  limpCtl i := (h'.limpCtl i).trans (h.limpCtl i)
  lhIn i := (h'.lhIn i).trans (h.lhIn i)
  mapped := h'.mapped.trans h.mapped
  safe i := (h'.safe i).trans (h.safe i)
  safeDuty i := (h'.safeDuty i).trans (h.safeDuty i)
  deferring i := (h'.deferring i).trans (h.deferring i)
  power := h'.power.trans h.power

theorem sameSources_reach (d : Dev) (t : Nat) : d.sameSources (d.reach t) where
  limpCtl := limpCtl_reach d t
  lhIn := lhIn_reach d t
  mapped := get_reach d t _ (by decide)
  safe i := get_reach d t _ (by simp only [F.LOAD_CH_CFG_SAFE, R.LOAD_CH_CFG]; omega)
  safeDuty i := get_reach d t _ (by simp only [F.LOAD_CH_SAFE_SAFE_DUTY, R.LOAD_CH_SAFE]; omega)
  deferring i := deferring_reach d t i
  power := by
    unfold Dev.ready
    rw [get_reach _ _ _ (by decide)]

/-! #### A channel that obeys its sources -/

section
variable (d : Dev) (i src : Nat) (hr : (d.ch i).run ≠ .latched)
include hr

theorem obey_desired : d.obey i src = d.chApply i (d.desired i).1 (d.desired i).2 src false := if_neg (by simp [hr])

theorem obey_off (h : (d.desired i).1 = .off) : d.obey i src = d.chOff i src := by
  rw [obey_desired d i src hr, h]
  exact if_pos rfl

/-- A channel that its sources turn on, with power and nothing to defer it. -/
theorem obey_moves (h : (d.desired i).1 ≠ .off) (hp : d.outPower = true) (hn : (d.ch i).isOn = true ∨ d.deferring i = false) :
    ∃ e : Dev, d.obey i src = e.chMove i (d.desired i).1 (d.desired i).2 src := by
  rw [obey_desired d i src hr]
  exact chApply_eq_chMove d i _ _ src false h hp hn

end

section
variable {d : Dev} {i : Nat} (hl : d.limpCtl i = false) (hs : (d.ch i).safe = true)
include hl hs

/-! What a channel in its safe state is asked for, outside LIMP control (R399). -/

theorem desired_safeOff (h : d.get (F.LOAD_CH_CFG_SAFE i) = 0) : d.desired i = (.off, 0) := by
  unfold Dev.desired
  simp [hl, hs, h]

theorem desired_safePwm (h : d.get (F.LOAD_CH_CFG_SAFE i) = 1) : d.desired i = (.pwm, d.get (F.LOAD_CH_SAFE_SAFE_DUTY i)) := by
  unfold Dev.desired
  simp [hl, hs, h]

theorem desired_safePin (h : d.get (F.LOAD_CH_CFG_SAFE i) = 3) :
    d.desired i = (if bit (d.get F.LOADC_LIMP_MAP_MAP) i = true ∧ d.lhIn i = true then .on else .off, 0) := by
  unfold Dev.desired
  simp [hl, hs, h]

end

theorem get_lt (d : Dev) (f : FieldRef) : d.get f < 2 ^ f.w := by
  rw [get_eq]
  exact rget_lt _ _

/-! #### One channel's safe state -/

/-- The channel's safe state begins, and what it put out is kept for HOLD. -/
def Dev.safeNoted (d : Dev) (i : Nat) : Dev := if (d.ch i).safe then d else d.setCh i { d.ch i with safe := true, hold := d.present i }

/-- The channel then follows what its safe state asks for. -/
def Dev.safeMoved (d : Dev) (i : Nat) : Dev :=
  if d.limpCtl i then d.follow i 4 else if d.get (F.LOAD_CH_CFG_SAFE i) == 2 then d else d.obey i 3

theorem safeCh_eq (d : Dev) (i : Nat) : d.safeCh i
    = ((((d.safeNoted i).safeMoved i).ev63 (((d.safeNoted i).safeMoved i).loadEntry 0x04 (64 + i) 0 (some i))).steEvent 0x11 (64 + i) 0) := rfl

section
variable (d : Dev) (i : Nat)

theorem safeNoted_ch : ((d.safeNoted i).ch i).run = (d.ch i).run ∧ ((d.safeNoted i).ch i).out = (d.ch i).out
    ∧ ((d.safeNoted i).ch i).safe = true := by
  unfold Dev.safeNoted
  split
  · rename_i h
    exact ⟨rfl, rfl, h⟩
  · rw [ch_setCh_same]
    exact ⟨rfl, rfl, rfl⟩

theorem only_safeNoted : d.regsOnly (d.safeNoted i) (chanRegs i) := by
  unfold Dev.safeNoted
  split
  · exact only_refl _ _
  · exact only_setCh _ _ (fun _ ha => ha) (only_refl _ _)

theorem safeNoted_gndLost : (d.safeNoted i).load.gndLost = d.load.gndLost := by
  unfold Dev.safeNoted
  split
  · rfl
  · exact setCh_load_gndLost _ _ _

theorem safeNoted_sources (hi : i < 24) : d.sameSources (d.safeNoted i) :=
  sameSources_of (only_safeNoted d i) (fun _ ha => .inl (List.mem_append_left _ (chanRegs_sub_all hi _ ha)))

theorem safeCh_own (i : Fin 24) : (d.safeCh i).ownCh i = ((d.safeNoted i).safeMoved i).ownCh i := by
  have ho : ((d.safeNoted i).safeMoved i).regsOnly (d.safeCh i) loadEventRegs :=
    only_steEvent _ _ _ (fun _ ha => ha) (only_ev63 _ (fun _ ha => ha) (only_refl _ _))
  have hm : R.LOAD_CH_STATUS i ∉ loadEventRegs := fun h => supplyRegs_spec.2 i (List.mem_cons_of_mem _ h)
  unfold Dev.ownCh
  rw [ho _ hm, safeCh_eq]
  exact congrArg (·, _) ((ch_of_load (congrArg LoadSt.chans (steEvent_load _ _ _ _)) i).trans (ev63_ch _ _ i))

theorem faultShown_safeCh {d : Dev} {i k : Nat} (hk : k < 32) (hi : i < 24) (h : d.faultShown blkLoad k) :
    (d.safeCh i).faultShown blkLoad k := by
  have hn : (d.safeNoted i).faultShown blkLoad k := faultShown_chan hi (only_safeNoted d i) h
  rw [safeCh_eq]
  refine faultShown_steEvent hk (faultShown_ev63 hk ?_ _) _ _ _
  unfold Dev.safeMoved
  split
  · exact faultShown_follow hk hi hn _
  · split
    · exact hn
    · exact faultShown_obey hk hi hn _

end

/-- What the safe state of a channel asks for and brings about, outside LATCHED and LIMP control (R399). -/
structure Dev.safeTaken (d e : Dev) (i : Nat) : Prop where
  off : d.get (F.LOAD_CH_CFG_SAFE i) = 0 → (e.ch i).run = .off ∧ (e.ch i).out = false
  pwm : d.get (F.LOAD_CH_CFG_SAFE i) = 1 → d.outPower = true → (d.ch i).isOn = true ∨ d.deferring i = false →
    (e.ch i).run = .pwm ∧ e.get (F.LOAD_CH_STATUS_DUTY i) = d.get (F.LOAD_CH_SAFE_SAFE_DUTY i)
  hold : d.get (F.LOAD_CH_CFG_SAFE i) = 2 → (e.ch i).run = (d.ch i).run ∧ (e.ch i).out = (d.ch i).out
  pinOff : d.get (F.LOAD_CH_CFG_SAFE i) = 3 → bit (d.get F.LOADC_LIMP_MAP_MAP) i = false ∨ d.lhIn i = false →
    (e.ch i).run = .off ∧ (e.ch i).out = false
  pinOn : d.get (F.LOAD_CH_CFG_SAFE i) = 3 → bit (d.get F.LOADC_LIMP_MAP_MAP) i = true → d.lhIn i = true → d.outPower = true →
    (d.ch i).isOn = true ∨ d.deferring i = false → (e.ch i).run = .on

section
variable {d : Dev} {i : Nat} (hr : (d.ch i).run ≠ .latched) (hl : d.limpCtl i = false)
include hl

theorem safeMoved_hold (h : d.get (F.LOAD_CH_CFG_SAFE i) = 2) : d.safeMoved i = d := by
  unfold Dev.safeMoved
  rw [hl, h]
  rfl

theorem safeMoved_obey (h : d.get (F.LOAD_CH_CFG_SAFE i) ≠ 2) : d.safeMoved i = d.obey i 3 := by
  unfold Dev.safeMoved
  rw [hl, if_neg Bool.false_ne_true, if_neg (by simpa using h)]

include hr

/-- The pass's own step on a channel whose safe state has begun. -/
theorem safeMoved_taken (hs : (d.ch i).safe = true) : d.safeTaken (d.safeMoved i) i := by
  have hoff : d.get (F.LOAD_CH_CFG_SAFE i) ≠ 2 → (d.desired i).1 = .off →
      ((d.safeMoved i).ch i).run = .off ∧ ((d.safeMoved i).ch i).out = false := by
    intro h ho
    rw [safeMoved_obey hl h, obey_off d i 3 hr ho]
    obtain ⟨hrun, hout, -⟩ := chOff_isOff d i 3
    exact ⟨hrun, hout⟩
  have hmove : ∀ {r du}, d.get (F.LOAD_CH_CFG_SAFE i) ≠ 2 → d.desired i = (r, du) → r ≠ .off → d.outPower = true →
      (d.ch i).isOn = true ∨ d.deferring i = false → ∃ e : Dev, d.safeMoved i = e.chMove i r du 3 := by
    intro r du h ho hne hp hon
    have hmoves := obey_moves d i 3 hr (by rw [ho]; exact hne) hp hon
    rw [← safeMoved_obey hl h, ho] at hmoves
    exact hmoves
  refine ⟨fun h => hoff (by omega) ?off, fun h hp hon => ?pwm, fun h => ?hold, fun h hpin => hoff (by omega) ?pinOff,
    fun h hmap hin hp hon => ?pinOn⟩
  case off => rw [desired_safeOff hl hs h]
  case pwm =>
    obtain ⟨e, he⟩ := hmove (by omega) (desired_safePwm hl hs h) (by decide) hp hon
    rw [he, chMove_duty]
    exact ⟨(chMove_ch_same _ _ _ _ _).2.2.1, Nat.mod_eq_of_lt (get_lt _ (F.LOAD_CH_SAFE_SAFE_DUTY i))⟩
  case hold =>
    rw [safeMoved_hold hl h]
    exact ⟨rfl, rfl⟩
  case pinOff =>
    rw [desired_safePin hl hs h]
    refine if_neg (fun hc => ?_)
    rcases hpin with hpin | hpin <;> simp [hpin] at hc
  case pinOn =>
    have hd := desired_safePin hl hs h
    rw [if_pos ⟨hmap, hin⟩] at hd
    obtain ⟨e, he⟩ := hmove (by omega) hd (by decide) hp hon
    rw [he]
    exact (chMove_ch_same _ _ _ _ _).2.2.1

end

/-! #### All channels -/

theorem fold_inv (op : Dev → Nat → Dev) (p : Dev → Prop) {n : Nat} (h : ∀ d i, i < n → p d → p (op d i)) (d : Dev) (hd : p d) :
    p ((List.range n).foldl op d) := by
  induction n with
  | zero => exact hd
  | succ n ih =>
    rw [List.range_succ, List.foldl_append]
    exact h _ _ (Nat.lt_succ_self n) (ih (fun d i hi => h d i (by omega)))

/-- The watchdog has expired: its status, its fault, and no feed since. -/
def Dev.wdExpired (d : Dev) : Dev :=
  { ((d.set F.LOADC_WD_STATUS_EXPIRED 1).fltSet blkLoad 2) with load :=
    { ((d.set F.LOADC_WD_STATUS_EXPIRED 1).fltSet blkLoad 2).load with fedSince := false } }

/-- The instant of the expiry. -/
def Dev.wdReached (d : Dev) (t : Nat) : Dev := d.reach (t + d.get F.LOADC_WD_CFG_PERIOD_MS * msCyc)

theorem wdExpiry_expires {s : State} {t : Nat} (h : s.dev.load.wdFed = some t) (hen : s.dev.flag F.LOADC_WD_CFG_EN = true)
    (hex : s.dev.flag F.LOADC_WD_STATUS_EXPIRED = false) :
    exec .wdExpiry s = s.done ((List.range 24).foldl Dev.safeCh (s.dev.wdReached t).wdExpired) := by
  show execWdExpiry s = _
  unfold execWdExpiry
  simp only [h, hen, hex, Bool.not_false, Bool.and_self, if_true]
  rfl

section
variable (d : Dev)

theorem only_wdExpired : d.regsOnly d.wdExpired [R.LOADC_WD_STATUS, R.FLT_FAULT_STATUS blkLoad] := by
  have h : d.regsOnly ((d.set F.LOADC_WD_STATUS_EXPIRED 1).fltSet blkLoad 2) [R.LOADC_WD_STATUS, R.FLT_FAULT_STATUS blkLoad] :=
    only_fltSet _ _ (by simp) (only_set F.LOADC_WD_STATUS_EXPIRED _ (by simp [F.LOADC_WD_STATUS_EXPIRED]) (by decide) (only_refl _ _))
  exact only_of h rfl

theorem wdExpired_sources : d.sameSources d.wdExpired :=
  sameSources_of (only_wdExpired d) (fun a ha => by
    rcases List.mem_cons.mp ha with rfl | ha
    · exact .inr rfl
    · rw [List.mem_singleton.mp ha]
      exact .inl (List.mem_append_right _ (by simp [loadEventRegs])))

theorem wdExpired_ch (i : Nat) : d.wdExpired.ch i = d.ch i := (fltSet_ch _ _ _ i).trans (set_ch _ _ _ i)
theorem wdExpired_time : d.wdExpired.time = d.time := (fltSet_time _ _ _).trans (set_time _ _ _)
theorem wdExpired_flt : d.wdExpired.flt = d.flt := (fltSet_flt _ _ _).trans (set_flt _ _ _)
theorem wdExpired_gndLost : d.wdExpired.load.gndLost = d.load.gndLost := by
  show ((d.set F.LOADC_WD_STATUS_EXPIRED 1).fltSet blkLoad 2).load.gndLost = _
  rw [fltSet_load, set_load]
theorem wdExpired_shown : d.wdExpired.faultShown blkLoad 2 := faultShown_fltSet_same _ _ (by decide)

theorem wdExpired_flag : d.wdExpired.flag F.LOADC_WD_STATUS_EXPIRED = true := by
  have ho : (d.set F.LOADC_WD_STATUS_EXPIRED 1).regsOnly d.wdExpired [R.FLT_FAULT_STATUS blkLoad] :=
    only_of (only_fltSet (e := d.set F.LOADC_WD_STATUS_EXPIRED 1) blkLoad 2 (by simp) (only_refl _ _)) rfl
  unfold Dev.flag
  rw [get_only ho F.LOADC_WD_STATUS_EXPIRED (by decide) (.inl (by decide))]
  exact flag_set_one _ _ (by decide) (by decide)

end

section
variable (d : Dev)

theorem only_safePass : d.regsOnly ((List.range 24).foldl Dev.safeCh d) passRegs :=
  only_fold _ _ 24 (fun _ _ i hi => only_safeCh i (fun _ ha => List.mem_append_right _ ha) (mem_allChan i hi)) d d (only_refl _ _)

/-- In a pass of safe states each channel's own step is taken in a device with the same sources. -/
theorem safePass_own (i : Fin 24) : ∃ e : Dev, d.sameSources e ∧ e.load.gndLost = d.load.gndLost ∧ e.ch i = d.ch i
    ∧ ((List.range 24).foldl Dev.safeCh d).ownCh i = (e.safeCh i).ownCh i := by
  obtain ⟨e, ⟨honly, hg⟩, hown, hfold⟩ := fold_own Dev.safeCh Dev.ownCh (fun e => d.regsOnly e passRegs ∧ e.load.gndLost = d.load.gndLost)
    (fun d i j hi hj hne => ownCh_of_only (i := ⟨i, hi⟩) (j := ⟨j, hj⟩) (fun he => hne (congrArg Fin.val he)) (safeCh_ch_ne d i j hne)
      (only_safeCh i (fun _ ha => List.mem_append_right _ ha) (fun _ ha => List.mem_append_left _ ha) (only_refl _ _)))
    (fun e i hi he => ⟨only_safeCh i (fun _ ha => List.mem_append_right _ ha) (mem_allChan i hi) he.1, (safeCh_load_gndLost e i).trans he.2⟩)
    d ⟨only_refl _ _, rfl⟩ i.isLt
  exact ⟨e, sameSources_of honly (fun _ ha => .inl ha), hg, ch_ownCh hown, hfold⟩

end

/-- The channel's part of an expiry. -/
structure Dev.expiredCh (d e : Dev) (i : Nat) : Prop where
  safe : (e.ch i).safe = true
  latched : (d.ch i).run = .latched → (e.ch i).run = .latched ∧ (e.ch i).out = (d.ch i).out
  taken : (d.ch i).run ≠ .latched → d.limpCtl i = false → d.safeTaken e i

theorem safeTaken_of {d e g h : Dev} {i : Fin 24} (hs : d.sameSources e) (hg : e.load.gndLost = d.load.gndLost)
    (hrun : (e.ch i).run = (d.ch i).run) (hout : (e.ch i).out = (d.ch i).out) (hown : h.ownCh i = g.ownCh i) (ht : e.safeTaken g i) :
    d.safeTaken h i := by
  have hch := ch_ownCh hown
  have hduty := get_ownCh hown (F.LOAD_CH_STATUS_DUTY i) rfl (of_decide_eq_true rfl)
  have hpow : e.outPower = d.outPower := by unfold Dev.outPower; rw [hs.power, hg]
  have hon : (e.ch i).isOn = (d.ch i).isOn := by unfold LoadCh.isOn; rw [hrun]
  obtain ⟨off, pwm, hold, pinOff, pinOn⟩ := ht
  rw [hs.safe, ← hch] at off hold pinOff pwm pinOn
  rw [hs.mapped, hs.lhIn] at pinOff pinOn
  rw [hpow, hon, hs.deferring] at pwm pinOn
  rw [hs.safeDuty, ← hduty] at pwm
  rw [hrun, hout] at hold
  exact ⟨off, pwm, hold, pinOff, pinOn⟩

theorem safePass_ch (d : Dev) (i : Fin 24) : d.expiredCh ((List.range 24).foldl Dev.safeCh d) i := by
  obtain ⟨e, hs, hg, hch, hown⟩ := safePass_own d i
  obtain ⟨hsafe, hlatched⟩ := safeCh_ch_same e i
  have hfold := ch_ownCh hown
  refine ⟨by rw [hfold]; exact hsafe, fun h => ?_, fun hr hl => ?_⟩
  · rw [hfold]
    rw [hch] at hlatched
    exact ⟨(hlatched h).1.trans h, (hlatched h).2⟩
  · obtain ⟨hrun, hout, hnoted⟩ := safeNoted_ch e i
    have hsrc := hs.trans (safeNoted_sources e i i.isLt)
    rw [hch] at hrun hout
    exact safeTaken_of hsrc ((safeNoted_gndLost e i).trans hg) hrun hout (hown.trans (safeCh_own e i))
      (safeMoved_taken (by rw [hrun]; exact hr) ((hsrc.limpCtl i).trans hl) hnoted)

/-! ### The release (R400) -/

/-- A channel leaves its safe state, with the output that it has. -/
def Dev.released (d : Dev) (i : Nat) : Dev :=
  if (d.ch i).safe then d.setCh i { d.ch i with safe := false, want := d.present i } else d

theorem wdRelease_taken {d : Dev} {m : Nat} (hf : d.load.fedSince = true) (hm : m = 0 ∨ m = 3) :
    d.wdRelease m = (List.range 24).foldl Dev.released (d.set F.LOADC_WD_STATUS_EXPIRED 0) :=
  if_pos (by rcases hm with rfl | rfl <;> simp [hf])

theorem wdRelease_ignored {d : Dev} {m : Nat} (h : d.load.fedSince = false ∨ (m ≠ 0 ∧ m ≠ 3)) :
    d.wdRelease m = d.set F.LOADC_STATUS_CFG_IGNORED 1 := by
  refine if_neg (fun hc => ?_)
  simp only [Bool.and_eq_true, Bool.or_eq_true, beq_iff_eq] at hc
  rcases h with h | h
  · rw [h] at hc
    exact Bool.false_ne_true hc.1
  · omega

section
variable (d : Dev) (i : Nat)

theorem released_flt : (d.released i).flt = d.flt := by
  unfold Dev.released
  split
  · exact setCh_flt _ _ _
  · rfl

theorem released_other {j : Nat} (h : j ≠ i) : (d.released i).ch j = d.ch j := by
  unfold Dev.released
  split
  · exact ch_setCh_ne _ _ _ _ h
  · rfl

theorem only_released : d.regsOnly (d.released i) (chanRegs i) := by
  unfold Dev.released
  split
  · exact only_setCh _ _ (fun _ ha => ha) (only_refl _ _)
  · exact only_refl _ _

theorem released_same : ((d.released i).ch i).safe = false ∧ ((d.released i).ch i).run = (d.ch i).run
    ∧ ((d.released i).ch i).out = (d.ch i).out ∧ ((d.ch i).safe = true → ((d.released i).ch i).want = d.present i) := by
  unfold Dev.released
  split
  · rw [ch_setCh_same]
    exact ⟨rfl, rfl, rfl, fun _ => rfl⟩
  · rename_i h
    exact ⟨by simpa using h, rfl, rfl, fun hs => absurd hs h⟩

end

/-- What a channel puts out at present reads its own state and its sources. -/
theorem present_of {d e : Dev} {i : Fin 24} (hown : e.ownCh i = d.ownCh i) (hs : d.sameSources e) : e.present i = d.present i := by
  have hch := ch_ownCh hown
  have hduty := get_ownCh hown (F.LOAD_CH_STATUS_DUTY i) rfl (of_decide_eq_true rfl)
  have hdes : e.desired i = d.desired i := by
    unfold Dev.desired
    rw [hs.limpCtl, hs.lhIn, hs.mapped, hs.safe, hs.safeDuty, hch]
  unfold Dev.present
  rw [hch, hduty, hdes]

theorem set_ownCh (d : Dev) (f : FieldRef) (v : Nat) (hw : f.lo + f.w ≤ 32) {i : Nat} (h : f.addr ≠ R.LOAD_CH_STATUS i) :
    (d.set f v).ownCh i = d.ownCh i := by
  unfold Dev.ownCh
  rw [set_ch, only_set f v (List.mem_singleton_self _) hw (only_refl d _) _ (fun hm => h (List.mem_singleton.mp hm).symm)]

theorem wdStatus_not_status (i : Fin 24) : R.LOADC_WD_STATUS ≠ R.LOAD_CH_STATUS i := by
  revert i
  decide +kernel

/-- A release, for one channel: nothing moves, and the command is the present output. -/
theorem releasePass_ch (d : Dev) (v : Nat) (i : Fin 24) (e : Dev)
    (he : e = (List.range 24).foldl Dev.released (d.set F.LOADC_WD_STATUS_EXPIRED v)) :
    (e.ch i).safe = false ∧ (e.ch i).run = (d.ch i).run ∧ (e.ch i).out = (d.ch i).out
    ∧ ((d.ch i).safe = true → (e.ch i).want = d.present i) := by
  rw [he]
  clear he
  have hset : d.regsOnly (d.set F.LOADC_WD_STATUS_EXPIRED v) (R.LOADC_WD_STATUS :: passRegs) :=
    only_set F.LOADC_WD_STATUS_EXPIRED v (List.mem_cons_self ..) (by decide) (only_refl _ _)
  obtain ⟨g, honly, hown, hfold⟩ := fold_own Dev.released Dev.ownCh (fun e => d.regsOnly e (R.LOADC_WD_STATUS :: passRegs))
    (fun d i j hi hj hne => ownCh_of_only (i := ⟨i, hi⟩) (j := ⟨j, hj⟩) (fun he => hne (congrArg Fin.val he)) (released_other d i hne)
      (only_mono (only_released d i) (fun _ ha => List.mem_append_left _ ha)))
    (fun e i hi he => only_trans he (only_mono (only_released e i) (fun a ha => List.mem_cons_of_mem _ (mem_allChan i hi a ha))))
    _ hset i.isLt
  have hown' := hown.trans (set_ownCh d F.LOADC_WD_STATUS_EXPIRED v (by decide) (wdStatus_not_status i))
  have hs : d.sameSources g := sameSources_of honly (fun a ha => (List.mem_cons.mp ha).symm)
  rw [ch_ownCh hfold, ← present_of hown' hs, ← ch_ownCh hown']
  exact released_same g i

/-! ### The lock (R401) -/

/-- The lock bit of the load side: set by writing 1, with no other effect. -/
theorem regDef_lock : regDef R.LOADC_LOCK = some ⟨R.LOADC_LOCK, [], [⟨0, 1, .w1s, 0, .any⟩], false⟩ := by decide +kernel

theorem wordWrite_lock (d : Dev) : d.wordWrite ⟨R.LOADC_LOCK, [], [⟨0, 1, .w1s, 0, .any⟩], false⟩ R.LOADC_LOCK 1
    = (({ d with bus := { d.bus with once := d.bus.once ++ [] } } : Dev).setReg R.LOADC_LOCK
        (setBf (d.reg R.LOADC_LOCK) 0 1 (bf (d.reg R.LOADC_LOCK) 0 1 ||| 1)), false, false) := rfl

/-- The device with the load side locked. -/
def Dev.loadLocked (d : Dev) : Dev :=
  ({ d with bus := { d.bus with once := d.bus.once ++ [] } } : Dev).setReg R.LOADC_LOCK
    (setBf (d.reg R.LOADC_LOCK) 0 1 (bf (d.reg R.LOADC_LOCK) 0 1 ||| 1))

theorem write_lock {d : Dev} {m : Nat} (ho : d.opens m R.LOADC_LOCK) : d.write m R.LOADC_LOCK 1 = (d.beforeWrite m R.LOADC_LOCK).loadLocked := by
  obtain ⟨r, hr, hw⟩ := write_wd (by simp) ho (show 1 < 2 ^ 32 by decide)
  rw [regDef_lock] at hr
  cases hr
  rw [hw]
  unfold Dev.putLoadc
  rw [if_neg (by decide), if_neg (by decide), if_neg (by decide), if_neg (by decide), if_neg (by decide)]
  unfold Dev.plainFlag
  rw [wordWrite_lock]
  rfl

theorem loadLocked_flag (d : Dev) : d.loadLocked.flag F.LOADC_LOCK_LOCK = true := by
  have hbit : ∀ x, x < 2 → x ||| 1 = 1 := by decide
  have hor : bf (d.reg R.LOADC_LOCK) 0 1 ||| 1 = 1 := hbit _ (bf_lt _ 0 1)
  have hreg : d.loadLocked.reg R.LOADC_LOCK = setBf (d.reg R.LOADC_LOCK) 0 1 1 % 2 ^ 32 := by
    unfold Dev.loadLocked
    rw [hor]
    exact reg_setReg_same _ _ _
  have hget : d.loadLocked.get F.LOADC_LOCK_LOCK = bf (d.loadLocked.reg R.LOADC_LOCK) 0 1 := if_pos (by decide)
  unfold Dev.flag
  rw [hget, hreg, bf_mod _ 32 0 1 (by decide), bf_setBf_same]
  rfl

/-! ### The obligation -/

/-- Settles O41: a feed is `Dev.fed` or one more bad feed, and an expiry and a release are passes in which each channel takes its own step
(`safePass_ch`, `releasePass_ch`). -/
theorem heartbeatWatchdog : Obligations.HeartbeatWatchdog := by
  refine ⟨?good, ?bad, ?feed, ?flagged, ?feedGood, ?expiry, ?release, ?lock⟩
  case good =>
    intro d m b key hb hbit hlt hk
    rw [wdFeed_good d ⟨⟨b, hb, hbit⟩, (Nat.mod_eq_of_lt hlt).trans hk⟩]
    exact ⟨fed_next d key, by rw [fed_load], fed_bad d key⟩
  case bad =>
    intro d m key h
    rw [wdFeed_bad d h]
    exact ⟨get_set_apart _ _ (by decide), by rw [inc_load], get_inc_same d F.LOADC_WD_STATUS_BAD_FEEDS (by decide)⟩
  case feed =>
    intro s m key hq ho hm
    refine (congrArg s.done ((write_wdFeed ho key.isLt).trans (if_neg (fun hc => ?_)))).trans (done_of_flt hq ?_)
    · rcases hm with hm | hm
      · exact hm hc.1
      · exact Bool.false_ne_true (hc.2.symm.trans hm)
    · rw [wdFeed_flt, beforeWrite_flt]
  case flagged =>
    rintro s key b ho rfl hbit
    exact (congrArg s.done ((write_wdFeed ho key.isLt).trans (if_pos ⟨rfl, hbit⟩)))
  case feedGood =>
    rintro s m k key b hq ho rfl hk hbit hkey
    have hnot : ¬ (m.val = 1 ∧ bit ((s.dev.beforeWrite m R.LOADC_WD_FEED).get F.LOADC_WD_CFG_MASTERS) 1 = false) := by
      rintro ⟨h1, h0⟩
      rw [h1] at hk
      cases hk
      rw [h0] at hbit
      exact Bool.false_ne_true hbit
    have hw := (write_wdFeed ho key.isLt).trans ((if_neg hnot).trans
      (wdFeed_good _ ⟨⟨k, hk, hbit⟩, (Nat.mod_eq_of_lt key.isLt).trans hkey⟩))
    refine ⟨_, (congrArg s.done hw).trans (done_of_flt hq ?_), fed_next _ _, by rw [fed_load], by rw [fed_load], fed_bad _ _, fed_regs _ _, fed_ch _ _⟩
    unfold Dev.fed
    rw [set_flt]
    exact beforeWrite_flt _ _ _
  case expiry =>
    intro s T hq hfed hen hex
    have hexec := wdExpiry_expires hfed hen hex
    generalize hd : s.dev.wdReached T = d at hexec
    have hsrc : s.dev.sameSources d.wdExpired := by
      rw [← hd]
      exact (sameSources_reach _ _).trans (wdExpired_sources _)
    have hch : ∀ i, d.wdExpired.ch i = s.dev.ch i := fun i => by rw [wdExpired_ch, ← hd]; exact reach_ch _ _ i
    have hgnd : d.wdExpired.load.gndLost = s.dev.load.gndLost := by rw [wdExpired_gndLost, ← hd]; exact congrArg LoadSt.gndLost (reach_load _ _)
    refine ⟨_, hexec.trans (done_of_flt hq ?_), ?_, ?_, ?_, ?_, fun i => ?_⟩
    · rw [fold_keep Dev.safeCh Dev.flt safeCh_flt, wdExpired_flt, ← hd]
      exact reach_flt _ _
    · unfold Dev.flag
      rw [get_only (only_safePass _) F.LOADC_WD_STATUS_EXPIRED passRegs_spec.2.2.2.2.1 (.inl (by decide))]
      exact wdExpired_flag d
    · have htime := fold_keep Dev.safeCh Dev.time safeCh_time (List.range 24) d.wdExpired
      unfold Dev.now
      rw [htime, wdExpired_time, ← hd]
      exact reach_now _ _
    · exact fold_keep Dev.safeCh (fun d => d.load.fedSince) safeCh_load_fedSince _ _
    · exact fold_inv Dev.safeCh (Dev.faultShown blkLoad 2) (fun _ _ hi h => faultShown_safeCh (by decide) hi h) _ (wdExpired_shown d)
    · obtain ⟨hsafe, hlatched, htaken⟩ := safePass_ch d.wdExpired i
      rw [hch] at hlatched
      refine ⟨hsafe, hlatched, fun hr hl => ?_⟩
      obtain ⟨off, pwm, hold, pinOff, pinOn⟩ := safeTaken_of hsrc hgnd (by rw [hch]) (by rw [hch]) rfl
        (htaken (by rw [hch]; exact hr) ((hsrc.limpCtl i).trans hl))
      exact ⟨off, pwm, hold, pinOff, pinOn⟩
  case release =>
    rintro s m b hq ho rfl
    have hw := write_wdRelease ho
    refine ⟨_, (congrArg s.done hw).trans (done_of_flt hq ?_), fun hf hm => ?_, fun h => ?_⟩
    · by_cases h : (s.dev.beforeWrite m R.LOADC_WD_CTRL).load.fedSince = true ∧ (m.val = 0 ∨ m.val = 3)
      · rw [wdRelease_taken h.1 h.2, fold_keep Dev.released Dev.flt released_flt, set_flt, beforeWrite_flt]
      · have : (s.dev.beforeWrite m R.LOADC_WD_CTRL).load.fedSince = false ∨ (m.val ≠ 0 ∧ m.val ≠ 3) := by
          rcases hb : (s.dev.beforeWrite m R.LOADC_WD_CTRL).load.fedSince with _ | _
          · exact .inl rfl
          · exact .inr (not_or.mp (fun hm => h ⟨hb, hm⟩))
        rw [wdRelease_ignored this, set_flt, beforeWrite_flt]
    · refine ⟨?_, fun i => releasePass_ch _ 0 i _ (wdRelease_taken hf hm)⟩
      show ((s.dev.beforeWrite m R.LOADC_WD_CTRL).wdRelease m).flag F.LOADC_WD_STATUS_EXPIRED = false
      rw [wdRelease_taken hf hm]
      have honly := only_fold Dev.released passRegs 24 (fun d e i hi (he : d.regsOnly e passRegs) =>
        only_trans he (only_mono (only_released e i) (mem_allChan i hi))) _ _
          (only_refl ((s.dev.beforeWrite m R.LOADC_WD_CTRL).set F.LOADC_WD_STATUS_EXPIRED 0) _)
      unfold Dev.flag
      rw [get_only honly F.LOADC_WD_STATUS_EXPIRED passRegs_spec.2.2.2.2.1 (.inl (by decide))]
      exact flag_set_zero _ _ (by decide) (by decide)
    · show ((s.dev.beforeWrite m R.LOADC_WD_CTRL).wdRelease m).flag F.LOADC_STATUS_CFG_IGNORED = true
        ∧ ∀ i, ((s.dev.beforeWrite m R.LOADC_WD_CTRL).wdRelease m).ch i = (s.dev.beforeWrite m R.LOADC_WD_CTRL).ch i
      rw [wdRelease_ignored h]
      exact ⟨flag_set_one _ _ (by decide) (by decide), set_ch _ _ _⟩
  case lock =>
    intro s m hq ho
    exact ⟨_, (congrArg s.done (write_lock ho)).trans (done_of_flt hq (beforeWrite_flt _ _ _)), loadLocked_flag _, fun _ => rfl⟩

end Sys2Proof.Machine
end

section
/-!
PROOF. Limp-home (R402, R403) and PTIME (R404): each is one change of a register or of the clock's correction, the first followed by a
pass over the channels.
-/
namespace Sys2Proof.Machine

/-! ### LH_EN takes a new level -/

/-- The pass after LH_EN has taken its level, and the event of it. -/
def Dev.limpPassed (d : Dev) (level : Bool) : Dev := (List.range 24).foldl (Dev.limpCh level d.inStandby) (d.lhLevel level)
def Dev.limpChanged (d : Dev) (level : Bool) : Dev := (d.limpPassed level).ev63 ((d.limpPassed level).loadEntry 0x05 0xFF 0 none)

theorem lhEnChange_changes {s : State} {level : Bool} (h : s.dev.flag F.LOADC_LIMP_STATUS_LH_EN ≠ level) :
    exec (.lhEnChange level) s = s.done (s.dev.limpChanged level) :=
  congrArg s.done (if_neg (by simpa using h))

section
variable (d : Dev) (level standby : Bool) (i : Nat)

theorem limpCh_off (hs : standby = true) (hl : level = false) : Dev.limpCh level standby d i = d.chOff i (d.get (F.LOAD_CH_STATUS_SRC i)) :=
  if_pos (by simp [hs, hl])

theorem limpCh_unmapped (hs : standby = false ∨ level = true) (hm : bit (d.get F.LOADC_LIMP_MAP_MAP) i = false) :
    Dev.limpCh level standby d i = d := by
  have hc : ¬ (standby && !level) = true := by rcases hs with hs | hs <;> simp [hs]
  exact (if_neg hc).trans (if_pos (by simp [hm]))

theorem limpCh_follows (hl : level = true) (hm : bit (d.get F.LOADC_LIMP_MAP_MAP) i = true) : Dev.limpCh level standby d i = d.follow i 4 :=
  (if_neg (by simp [hl])).trans ((if_neg (by simp [hm])).trans (if_pos hl))

end

section
variable (d : Dev) (level : Bool)

theorem only_limpPassed : (d.lhLevel level).regsOnly (d.limpPassed level) passRegs :=
  only_fold _ _ 24 (fun _ _ i hi => only_limpCh level d.inStandby i (fun _ ha => List.mem_append_right _ ha) (mem_allChan i hi))
    _ _ (only_refl _ _)

theorem limpPassed_flt : (d.limpPassed level).flt = d.flt :=
  (fold_keep _ Dev.flt (limpCh_flt level d.inStandby) _ _).trans (lhLevel_flt d level)

theorem limpPassed_gndLost : (d.limpPassed level).load.gndLost = d.load.gndLost :=
  (fold_keep _ (fun d => d.load.gndLost) (limpCh_gndLost level d.inStandby) _ _).trans (congrArg LoadSt.gndLost (lhLevel_load d level))

/-- In the pass each channel's own step is taken in a device with the same sources. -/
theorem limpPassed_ch (i : Fin 24) : ∃ e : Dev, (d.lhLevel level).sameSources e ∧ e.load.gndLost = d.load.gndLost ∧ e.ch i = d.ch i
    ∧ (d.limpPassed level).ch i = (Dev.limpCh level d.inStandby e i).ch i := by
  obtain ⟨e, ⟨honly, hg⟩, hch, hfold⟩ := fold_ch (Dev.limpCh level d.inStandby) (fun d i j h => limpCh_ch_ne _ _ d i j h)
    (fun e => (d.lhLevel level).regsOnly e passRegs ∧ e.load.gndLost = (d.lhLevel level).load.gndLost) 24
    (fun e i hi he => ⟨only_limpCh _ _ i (fun _ ha => List.mem_append_right _ ha) (mem_allChan i hi) he.1, (limpCh_gndLost _ _ e i).trans he.2⟩)
    (d.lhLevel level) ⟨only_refl _ _, rfl⟩ i i.isLt
  have hload := lhLevel_load d level
  exact ⟨e, sameSources_of honly (fun _ ha => .inl ha), hg.trans (congrArg LoadSt.gndLost hload),
    hch.trans (ch_of_load (congrArg LoadSt.chans hload) i), hfold⟩

/-! #### The level itself -/

theorem lhLevel_get (f : FieldRef) (h1 : f.addr ≠ R.LOADC_LIMP_STATUS) (h2 : f.addr ≠ R.SUPV_PD_STATUS) (hw : f.lo + f.w ≤ 32) :
    (d.lhLevel level).get f = d.get f := by
  refine get_only (only_lhLevel d level) f ?_ (.inl hw)
  split
  · exact fun hm => (List.mem_cons.mp hm).elim h1 (fun hm => h2 (List.mem_singleton.mp hm))
  · exact fun hm => h1 (List.mem_singleton.mp hm)

theorem lhLevel_deferring (i : Fin 24) : (d.lhLevel level).deferring i = d.deferring i := by
  have hne : R.LOAD_CH_CFG i ≠ R.LOADC_LIMP_STATUS ∧ R.LOAD_CH_CFG i ≠ R.SUPV_PD_STATUS := by
    revert i
    decide +kernel
  have hrail := lhLevel_get d level (F.LOAD_CH_CFG_RAIL i) hne.1 hne.2 (of_decide_eq_true rfl)
  have hget := fun f h1 h2 hw => lhLevel_get d level f h1 h2 hw
  unfold Dev.deferring Dev.flag
  rw [hrail, hget F.LOADC_SUPPLY_STATUS_DUMP (by decide) (by decide) (by decide),
    hget F.LOADC_SUPPLY_STATUS_BROWNOUT (by decide) (by decide) (by decide),
    hget F.LOADC_SUPPLY_STATUS_VHV_HIGH (by decide) (by decide) (by decide), hget F.SUPV_SUPPLY_STATUS_VHV_LOW (by decide) (by decide) (by decide)]

theorem lhLevel_mapped : (d.lhLevel level).get F.LOADC_LIMP_MAP_MAP = d.get F.LOADC_LIMP_MAP_MAP :=
  lhLevel_get d level _ (by decide) (by decide) (by decide)

theorem lhLevel_lhIn (i : Nat) : (d.lhLevel level).lhIn i = d.lhIn i := by
  unfold Dev.lhIn
  rw [lhLevel_pins, lhLevel_get d level F.LOADC_LIMP_SEL_LO_SEL (by decide) (by decide) (by decide),
    lhLevel_get d level F.LOADC_LIMP_SEL_HI_SEL (by decide) (by decide) (by decide)]

/-- In STANDBY PD12 is on with LH_EN. -/
theorem lhLevel_ready_standby (h : d.inStandby = true) : (d.lhLevel level).ready 12 = level := by
  unfold Dev.lhLevel
  dsimp only
  rw [if_pos h]
  generalize (d.set F.LOADC_LIMP_STATUS_LH_EN (b2n level)).setBitOf F.SUPV_PD_STATUS_ON 11 level = e
  have hget : (e.setBitOf F.SUPV_PD_STATUS_READY 11 level).get F.SUPV_PD_STATUS_READY
      = setBit (e.get F.SUPV_PD_STATUS_READY) 11 level % 2 ^ F.SUPV_PD_STATUS_READY.w := get_set_same _ _ _ (by decide)
  unfold Dev.ready
  rw [hget]
  exact (bit_mod _ _ 11 (by decide)).trans (bit_setBit_same _ _ _)

theorem lhLevel_ready (h : d.inStandby = false) : (d.lhLevel level).ready 12 = d.ready 12 := by
  unfold Dev.lhLevel Dev.ready
  dsimp only
  rw [if_neg (by simp [h]), get_set_apart _ _ (by decide)]

end

/-! #### What a channel is left with -/

section
variable (d : Dev) (i : Fin 24)

theorem limpPassed_unmapped {level : Bool} (hs : d.inStandby = false ∨ level = true) (hm : bit (d.get F.LOADC_LIMP_MAP_MAP) i = false) :
    (d.limpPassed level).ch i = d.ch i := by
  obtain ⟨e, hsrc, -, hch, hown⟩ := limpPassed_ch d level i
  rw [hown, limpCh_unmapped e level _ i hs (by rw [hsrc.mapped, lhLevel_mapped]; exact hm), hch]

theorem limpPassed_standby (hs : d.inStandby = true) : ((d.limpPassed false).ch i).run = .off ∧ ((d.limpPassed false).ch i).out = false := by
  obtain ⟨e, -, -, -, hown⟩ := limpPassed_ch d false i
  rw [hown, limpCh_off e false _ i hs rfl]
  obtain ⟨hrun, hout, -⟩ := chOff_isOff e i (e.get (F.LOAD_CH_STATUS_SRC i))
  exact ⟨hrun, hout⟩

section
variable (hm : bit (d.get F.LOADC_LIMP_MAP_MAP) i = true) (hl : (d.ch i).run ≠ .latched) (hf : (d.ch i).run ≠ .faultOff)
include hm hl hf

/-- A mapped channel follows its pin under LIMP control. -/
theorem limpPassed_follows : ∃ e : Dev, (d.lhLevel true).sameSources e ∧ e.load.gndLost = d.load.gndLost
    ∧ (e.ch i).run ≠ .latched ∧ e.desired i = (if d.lhIn i then .on else .off, 0)
    ∧ (d.limpPassed true).ch i = (e.obey i 4).ch i := by
  obtain ⟨e, hsrc, hg, hch, hown⟩ := limpPassed_ch d true i
  have hmap : bit (e.get F.LOADC_LIMP_MAP_MAP) i = true := by rw [hsrc.mapped, lhLevel_mapped]; exact hm
  have hlimp : e.limpCtl i = true := by
    rw [hsrc.limpCtl]
    unfold Dev.limpCtl
    rw [lhLevel_en, lhLevel_mapped, hm]
    rfl
  have hfollow : e.follow i 4 = e.obey i 4 := if_neg (by rw [hch]; simpa using hf)
  refine ⟨e, hsrc, hg, by rw [hch]; exact hl, ?_, ?_⟩
  · unfold Dev.desired
    dsimp only
    rw [if_pos hlimp, hsrc.lhIn, lhLevel_lhIn]
  · rw [hown, limpCh_follows e true _ i rfl hmap, hfollow]

theorem limpPassed_pinOff (hp : d.lhIn i = false) : ((d.limpPassed true).ch i).run = .off ∧ ((d.limpPassed true).ch i).out = false := by
  obtain ⟨e, -, -, hrun, hdes, hown⟩ := limpPassed_follows d i hm hl hf
  rw [hp] at hdes
  rw [hown, obey_off e i 4 hrun (by rw [hdes]; rfl)]
  obtain ⟨hoff, hout, -⟩ := chOff_isOff e i 4
  exact ⟨hoff, hout⟩

theorem limpPassed_pinOn (hp : d.lhIn i = true) (hpow : d.outPower = true ∨ (d.inStandby = true ∧ d.load.gndLost = false))
    (hdef : d.deferring i = false) : ((d.limpPassed true).ch i).run = .on := by
  obtain ⟨e, hsrc, hg, hrun, hdes, hown⟩ := limpPassed_follows d i hm hl hf
  rw [hp, if_pos rfl] at hdes
  have hpower : e.outPower = true := by
    unfold Dev.outPower at hpow ⊢
    rw [hsrc.power, hg]
    cases hs : d.inStandby
    · rw [lhLevel_ready d true hs]
      exact hpow.resolve_right (fun h => by rw [hs] at h; exact Bool.false_ne_true h.1)
    · rw [lhLevel_ready_standby d true hs]
      rcases hpow with hpow | hpow
      · exact (Bool.and_eq_true_iff.mp hpow).2
      · rw [hpow.2]
        rfl
  rw [hown, obey_desired e i 4 hrun, hdes]
  exact chApply_run e i .on 0 4 false (by decide) hpower ((hsrc.deferring i).trans ((lhLevel_deferring d true i).trans hdef))

end

end

/-! ### LH_IN takes a new level -/

section
variable (d : Dev) (k : Fin 4) (level : Bool)

theorem lhInSet_bit : bit ((d.lhInSet k level).get F.LOADC_LIMP_STATUS_LH_IN) k = level := by
  have honly : (d.setBitOf F.LOADC_LIMP_STATUS_LH_IN k level).regsOnly (d.lhInSet k level) passRegs :=
    only_fold _ _ 24 (fun _ _ i hi => only_pinCh i (fun _ ha => List.mem_append_right _ ha) (mem_allChan i hi)) _ _ (only_refl _ _)
  have hget : (d.setBitOf F.LOADC_LIMP_STATUS_LH_IN k level).get F.LOADC_LIMP_STATUS_LH_IN
      = setBit (d.get F.LOADC_LIMP_STATUS_LH_IN) k level % 2 ^ 4 := get_set_same _ _ _ (by decide)
  rw [get_only honly _ passRegs_spec.1 (.inl (by decide)), hget, bit_mod _ _ _ k.isLt, bit_setBit_same]

theorem lhInSet_flt : (d.lhInSet k level).flt = d.flt := (fold_keep _ Dev.flt pinCh_flt _ _).trans (set_flt _ _ _)

/-- A channel whose pin decides nothing of it is left alone. -/
theorem lhInSet_ch (i : Fin 24) (hl : d.limpCtl i = false) (hs : (d.ch i).safe = false ∨ d.get (F.LOAD_CH_CFG_SAFE i) ≠ 3) :
    (d.lhInSet k level).ch i = d.ch i := by
  have hapart : ∀ i : Fin 24, F.LOADC_LIMP_STATUS_LH_IN.apart (F.LOAD_CH_CFG_SAFE i) = true := by decide +kernel
  have hset : ∀ f : FieldRef, F.LOADC_LIMP_STATUS_LH_IN.apart f = true → (d.setBitOf F.LOADC_LIMP_STATUS_LH_IN k level).get f = d.get f :=
    fun f hf => get_set_apart d _ hf
  obtain ⟨e, honly, hch, hfold⟩ := fold_ch Dev.pinCh (fun d i j h => pinCh_ch_ne d i j h)
    (fun e => (d.setBitOf F.LOADC_LIMP_STATUS_LH_IN k level).regsOnly e passRegs) 24
    (fun e i hi he => only_pinCh i (fun _ ha => List.mem_append_right _ ha) (mem_allChan i hi) he)
    (d.setBitOf F.LOADC_LIMP_STATUS_LH_IN k level) (only_refl _ _) i i.isLt
  have hsrc := sameSources_of honly (fun _ ha => .inl ha)
  have hch' : e.ch i = d.ch i := hch.trans (set_ch _ _ _ i)
  have hlimp : e.limpCtl i = false := by
    rw [hsrc.limpCtl, ← hl]
    unfold Dev.limpCtl Dev.flag
    rw [hset _ (by decide), hset _ (by decide)]
  have hsafe : e.get (F.LOAD_CH_CFG_SAFE i) = d.get (F.LOAD_CH_CFG_SAFE i) :=
    (hsrc.safe i).trans (hset _ (hapart i))
  have hpin : e.pinCh i = e := by
    unfold Dev.pinCh
    rw [hlimp, hch', hsafe]
    refine (if_neg Bool.false_ne_true).trans (if_neg (fun hc => ?_))
    rcases hs with hs | hs <;> simp [hs] at hc
  exact hfold.trans ((congrArg (fun d => Dev.ch d i) hpin).trans hch')

end

/-! ### The obligation on limp-home -/

/-- Settles O42: outside the channels that LIMP control moves, the pass over them is the identity (`limpPassed_unmapped`, `lhInSet_ch`). -/
theorem limpHomePinsDecide : Obligations.LimpHomePinsDecide := by
  refine ⟨fun s level hq hne => ?enabled, fun s k level hq => ?pin⟩
  case enabled =>
    have hch : ∀ i, (s.dev.limpChanged level).ch i = (s.dev.limpPassed level).ch i := ev63_ch _ _
    have honly : (s.dev.limpPassed level).regsOnly (s.dev.limpChanged level) passRegs :=
      only_ev63 _ (fun _ ha => List.mem_append_right _ ha) (only_refl _ _)
    refine ⟨_, (lhEnChange_changes hne).trans (done_of_flt hq ?_), ?_, fun hs i hm => ?_, fun hs hl => ⟨?_, fun i => ?_⟩,
      fun i hl hm hlat hflt => ⟨fun hp => ?_, fun hp hpow hdef => ?_⟩⟩
    · exact (ev63_flt _ _).trans (limpPassed_flt _ _)
    · have hget := get_only (only_trans (only_limpPassed s.dev level) honly) F.LOADC_LIMP_STATUS_LH_EN passRegs_spec.1 (.inl (by decide))
      exact (congrArg (· == 1) hget).trans (lhLevel_en s.dev level)
    · exact (hch i).trans (limpPassed_unmapped s.dev i hs hm)
    · subst hl
      have hsrc := sameSources_of (only_trans (only_limpPassed s.dev false) honly) (fun _ ha => .inl ha)
      have hready : (s.dev.limpChanged false).ready 12 = false := hsrc.power.trans (lhLevel_ready_standby s.dev false hs)
      show (s.dev.limpChanged false).outPower = false
      unfold Dev.outPower
      rw [hready, Bool.false_and]
    · subst hl
      have hown := hch i
      show ((s.dev.limpChanged false).ch i).run = .off ∧ ((s.dev.limpChanged false).ch i).out = false
      rw [hown]
      exact limpPassed_standby s.dev i hs
    · subst hl
      have hown := hch i
      show ((s.dev.limpChanged true).ch i).run = .off ∧ ((s.dev.limpChanged true).ch i).out = false
      rw [hown]
      exact limpPassed_pinOff s.dev i hm hlat hflt hp
    · subst hl
      exact (congrArg LoadCh.run (hch i)).trans (limpPassed_pinOn s.dev i hm hlat hflt hp hpow hdef)
  case pin =>
    exact ⟨_, done_of_flt hq (lhInSet_flt _ _ _), lhInSet_bit _ _ _, fun i hl hs => lhInSet_ch _ _ _ i hl hs⟩

/-! ### PTIME (R404) -/

theorem ptimeCorrection_sent {s : State} (h2 : s.dev.ready 2 = true) (hu : s.dev.flag F.PWR_D2D_STATUS_LINK_UP = true) :
    exec .ptimeCorrection s = s.done s.dev.ptimeCorrect := if_pos (by simp [h2, hu])

/-- The correction of 10 ms ago does not hold any more. -/
def Dev.ptimeStale (d : Dev) (t : Nat) : Dev :=
  ({ d.reach (t + 10 * msCyc) with load := { (d.reach (t + 10 * msCyc)).load with corr := none } } : Dev).set F.LOADC_PTIME_STATUS_PTIME_VALID 0

theorem ptimeInvalid_stale {s : State} {t : Nat} (h : s.dev.load.corr = some t) : exec .ptimeInvalid s = s.done (s.dev.ptimeStale t) := by
  show execPtimeInvalid s = _
  unfold execPtimeInvalid
  rw [h]
  rfl

section
variable (d : Dev)

theorem ptime_whole : d.ptime % 1000 = 0 := Nat.mul_mod_left _ _

theorem ptimeCorrect_load : d.ptimeCorrect.load = { d.load with
    ptimeOfs := (d.dtime / 1000 * 1000 : Nat) - ((d.now * 5 / 4 : Nat) : Int), corr := some d.now } := set_load _ _ _
theorem ptimeCorrect_time : d.ptimeCorrect.time = d.time := set_time _ _ _

theorem ptimeCorrect_ptime (h : d.dtime < 2 ^ 64) : d.ptimeCorrect.ptime = d.dtime / 1000 * 1000 := by
  have hle := Nat.div_mul_le_self d.dtime 1000
  unfold Dev.ptime
  rw [ptimeCorrect_load, ptimeCorrect_time]
  show ((((d.dtime / 1000 * 1000 : Nat) : Int) - ((d.time.now * 5 / 4 : Nat) : Int) + ((d.time.now * 5 / 4 : Nat) : Int))
    % (2 ^ 64 : Nat)).toNat / 1000 * 1000 = _
  rw [Int.sub_add_cancel, ← Int.natCast_emod, Int.toNat_natCast, Nat.mod_eq_of_lt (by omega), Nat.mul_div_cancel _ (by decide)]

end

/-- Settles O43: the correction is DTIME cut to whole microseconds, less the power die's own clock. -/
theorem powerDieTime : Obligations.PowerDieTime := by
  refine ⟨fun s hq h2 hu => ?sent, ptime_whole, fun s T hq h => ?stale⟩
  case sent =>
    refine ⟨_, (ptimeCorrection_sent h2 hu).trans (done_of_flt hq (set_flt _ _ _)), flag_set_one _ _ (by decide) (by decide), ?_,
      ptimeCorrect_ptime s.dev, fun i => set_ch _ _ _ i⟩
    have hnow : s.dev.ptimeCorrect.now = s.dev.now := congrArg (·.now) (ptimeCorrect_time s.dev)
    show s.dev.ptimeCorrect.load.corr = some s.dev.ptimeCorrect.now
    rw [ptimeCorrect_load, hnow]
  case stale =>
    refine ⟨_, (ptimeInvalid_stale h).trans (done_of_flt hq ?_), flag_set_zero _ _ (by decide) (by decide), ?_, ?_, fun i => ?_⟩
    · exact (set_flt _ _ _).trans (reach_flt _ _)
    · have htime : (s.dev.ptimeStale T).time = (s.dev.reach (T + 10 * msCyc)).time := set_time _ _ _
      exact (congrArg (·.now) htime).trans (reach_now _ _)
    · show (s.dev.ptimeStale T).load.corr = none
      unfold Dev.ptimeStale
      rw [set_load]
    · exact (set_ch _ _ _ i).trans (reach_ch _ _ i)

end Sys2Proof.Machine
end

section
/-!
PROOF. The doorbell of a ring (R409, R412, R414) and its switch (R431, R434).
-/
namespace Sys2Proof.Machine

/-! ### Indices modulo 2³² (R410) -/

theorem idxSub_small (a : Nat) {b : Nat} (hb : b < 2 ^ 32) : idxSub a b = (a + 2 ^ 32 - b) % 2 ^ 32 := by
  unfold idxSub
  rw [Nat.mod_eq_of_lt hb]

theorem idx_lt (d : Dev) (r : Nat) : d.dbIdx r < 2 ^ 32 ∧ d.devIdx r < 2 ^ 32 :=
  ⟨get_lt d (F.HIF_DB_INDEX_INDEX r), get_lt d (F.HIF_DEV_INDEX_INDEX r)⟩

/-- The doorbell test in differences modulo 2³². -/
theorem doorbellOk_iff (d : Dev) (r w : Nat) : d.doorbellOk r w = true ↔
    if r < 60 then (d.dbIdx r + 2 ^ 32 - d.devIdx r) % 2 ^ 32 ≤ (w + 2 ^ 32 - d.devIdx r) % 2 ^ 32
        ∧ (w + 2 ^ 32 - d.devIdx r) % 2 ^ 32 ≤ 2 ^ d.get (F.HIF_RING_CFG_SIZE_LOG2 r)
    else (w + 2 ^ 32 - d.dbIdx r) % 2 ^ 32 ≤ (d.devIdx r + 2 ^ 32 - d.dbIdx r) % 2 ^ 32 := by
  obtain ⟨hdb, hdev⟩ := idx_lt d r
  unfold Dev.doorbellOk Dev.ringSize
  simp only [idxSub_small _ hdb, idxSub_small _ hdev]
  split <;> simp

/-! ### The doorbell (R412) -/

section
variable (s : State) (r : Fin 64) (w : Nat) (stores : List (Nat × Byte)) (h1 : (s.dev.hostStore stores).ready 1 = true)
include h1

/-- What a doorbell index that was taken starts on its ring. -/
theorem doorbellWrite_taken (h : (s.dev.hostStore stores).doorbellOk r w = true) {e : Dev}
    (he : e = (s.dev.hostStore stores).set (F.HIF_DB_INDEX_INDEX r) w) :
    exec (.doorbellWrite r w stores) s = .next { s with dev := (if !e.ringUp r then e
      else if 56 ≤ r.val ∧ r.val < 60 then e.fetchCmds r (idxSub w (e.devIdx r)) else if r.val = 63 then e.drain63
      else if 32 ≤ r.val ∧ r.val < 56 then e.rxClean r else e).settle } := by
  subst he
  refine next_settle_congr s ?_
  unfold Dev.doorbell
  simp only [h1, h, Bool.not_true, Bool.false_eq_true, if_false, Bool.and_eq_true, decide_eq_true_eq, beq_iff_eq]

/-- A doorbell write that fails its test. -/
theorem doorbellWrite_refused (h : (s.dev.hostStore stores).doorbellOk r w = false) : exec (.doorbellWrite r w stores) s
    = .next { s with dev := (((s.dev.hostStore stores).set (F.HIF_RING_STATUS_DB_ERR r) 1).fault blkHost 2).settle } := by
  refine next_settle_congr s ?_
  unfold Dev.doorbell
  simp only [h1, h, Bool.not_true, Bool.not_false, Bool.false_eq_true, if_false, if_true]

end

theorem dbIndex_not_mem_faultRegs (r : Fin 64) : R.HIF_DB_INDEX r ∉ faultRegs blkHost := by
  revert r
  decide +kernel

theorem ringStatus_mem_faultRegs (r : Fin 64) : R.HIF_RING_STATUS r ∈ faultRegs blkHost := by
  revert r
  decide +kernel

/-- Settles O44: the test is one inequality or two (`doorbellOk_iff`), and a write that fails it only counts. -/
theorem doorbellTest : Obligations.DoorbellTest := by
  refine ⟨fun d r w _ => doorbellOk_iff d r w, ?taken, ?refused⟩
  case taken =>
    rintro s r w stores d e rfl h1 h he
    refine ⟨?_, doorbellWrite_taken s r w stores h1 h he⟩
    rw [he]
    exact get_set_same _ (F.HIF_DB_INDEX_INDEX r) w (of_decide_eq_true rfl)
  case refused =>
    rintro s r w stores d e rfl h1 h rfl
    have honly : (s.dev.hostStore stores).regsOnly (((s.dev.hostStore stores).set (F.HIF_RING_STATUS_DB_ERR r) 1).fault blkHost 2)
        (faultRegs blkHost) :=
      only_fault _ _ (fun _ ha => ha) (only_set (F.HIF_RING_STATUS_DB_ERR r) 1 (ringStatus_mem_faultRegs r) (of_decide_eq_true rfl) (only_refl _ _))
    exact ⟨fun q => get_only honly (F.HIF_DB_INDEX_INDEX q) (dbIndex_not_mem_faultRegs q) (.inl (of_decide_eq_true rfl)), honly,
      doorbellWrite_refused s r w stores h1 h⟩

/-! ### Enabling a ring (R434) -/

/-- The registers of a ring that its switch can change. -/
def ringRegs (r : Nat) : List Nat := [R.HIF_RING_CFG r, R.HIF_RING_STATUS r, R.HIF_DEV_INDEX r, R.HIF_DB_INDEX r]

theorem ringCfg_row (r : Fin 64) : oneWord (R.HIF_RING_CFG r) = true ∧ faultBlockOf (R.HIF_RING_CFG r) = none
    ∧ pageBlock (R.HIF_RING_CFG r) = 1 ∧ inPwr (R.HIF_RING_CFG r) = false ∧ regIdx (R.HIF_RING_CFG 0) 64 64 (R.HIF_RING_CFG r) = some r.val
    ∧ (regDef (R.HIF_RING_CFG r)).map (fun x => bf (x.mask (fun x => x == .rw || x == .rwl || x == .rwo)) 1 5) = some 31 := by
  revert r
  decide +kernel

theorem ring_apart (r : Fin 64) : (F.HIF_RING_CFG_VECTOR r).apart (F.HIF_RING_CFG_SIZE_LOG2 r) = true
    ∧ (F.HIF_RING_CFG_IRQ_EN r).apart (F.HIF_RING_CFG_SIZE_LOG2 r) = true ∧ (F.HIF_RING_CFG_EN r).apart (F.HIF_RING_CFG_SIZE_LOG2 r) = true
    ∧ (F.HIF_DEV_INDEX_INDEX r).apart (F.HIF_RING_CFG_EN r) = true ∧ (F.HIF_DB_INDEX_INDEX r).apart (F.HIF_RING_CFG_EN r) = true
    ∧ (F.HIF_RING_STATUS_HALTED r).apart (F.HIF_RING_CFG_EN r) = true ∧ (F.HIF_DB_INDEX_INDEX r).apart (F.HIF_DEV_INDEX_INDEX r) = true
    ∧ (F.HIF_RING_STATUS_HALTED r).apart (F.HIF_DEV_INDEX_INDEX r) = true ∧ (F.HIF_RING_STATUS_HALTED r).apart (F.HIF_DB_INDEX_INDEX r) = true
    ∧ R.HIF_RING_CFG r ∉ loadEventRegs ∧ R.HIF_RING_STATUS r ∉ loadEventRegs := by
  revert r
  decide +kernel

/-- A ring's switch and its interrupt are written, its size kept. -/
def Dev.ringSwitched (d : Dev) (r v : Nat) : Dev :=
  ((d.set (F.HIF_RING_CFG_VECTOR r) (bf v 8 6)).set (F.HIF_RING_CFG_IRQ_EN r) (bf v 14 1)).set (F.HIF_RING_CFG_EN r) (bf v 0 1)

/-- A ring starts anew: its indices at 0, not halted, and what an earlier enable left aged. -/
def Dev.ringStarted (d : Dev) (r : Nat) : Dev :=
  (((d.ringAge r).set (F.HIF_DEV_INDEX_INDEX r) 0).set (F.HIF_DB_INDEX_INDEX r) 0).set (F.HIF_RING_STATUS_HALTED r) 0
def Dev.ringUnkilled (d : Dev) (r : Nat) : Dev := { d with host := { d.host with txKilled := d.host.txKilled.filter (fun k => k.1 != r) } }

section
variable (d : Dev) (r : Nat)

theorem ringUnkilled_regs : (d.ringUnkilled r).regs = d.regs := rfl
theorem ringUnkilled_tbl : (d.ringUnkilled r).tbl = d.tbl := rfl
theorem ringUnkilled_hostMem : (d.ringUnkilled r).hostMem = d.hostMem := rfl
theorem ringUnkilled_flt : (d.ringUnkilled r).flt = d.flt := rfl
theorem ringUnkilled_load : (d.ringUnkilled r).load = d.load := rfl
theorem ringUnkilled_txWait : (d.ringUnkilled r).host.txWait = d.host.txWait := rfl
theorem ringUnkilled_get (f : FieldRef) : (d.ringUnkilled r).get f = d.get f := rfl

end

/-- A ring is enabled. -/
def Dev.ringEnabled (d : Dev) (r v : Nat) : Dev := ((d.ringSwitched r v).ringStarted r).ringUnkilled r

section
variable (d : Dev) (r v : Nat) (hk : bf v 1 5 = d.get (F.HIF_RING_CFG_SIZE_LOG2 r))
include hk

theorem ringCfg_disables (h : bit v 0 = false) : d.ringCfg r v = d.ringSwitched r v := by
  unfold Dev.ringCfg
  simp only [hk, beq_self_eq_true, if_true, h, Bool.false_and, Bool.false_eq_true, if_false]
  rfl

theorem ringCfg_enables (h : bit v 0 = true) (hen : d.flag (F.HIF_RING_CFG_EN r) = false) :
    d.ringCfg r v = if r = 63 then (d.ringEnabled r v).drain63 else d.ringEnabled r v := by
  unfold Dev.ringCfg
  simp only [hk, beq_self_eq_true, if_true, h, hen, Bool.not_false, Bool.and_self, beq_iff_eq]
  rfl

end

section
variable (d : Dev) (r v : Nat)

theorem ringAge_regs : (d.ringAge r).regs = d.regs := by
  unfold Dev.ringAge
  dsimp only
  repeat' split
  all_goals rfl
theorem ringAge_tbl : (d.ringAge r).tbl = d.tbl := by
  unfold Dev.ringAge
  dsimp only
  repeat' split
  all_goals rfl
theorem ringAge_hostMem : (d.ringAge r).hostMem = d.hostMem := by
  unfold Dev.ringAge
  dsimp only
  repeat' split
  all_goals rfl
theorem ringAge_flt : (d.ringAge r).flt = d.flt := by
  unfold Dev.ringAge
  dsimp only
  repeat' split
  all_goals rfl
theorem ringAge_load : (d.ringAge r).load = d.load := by
  unfold Dev.ringAge
  dsimp only
  repeat' split
  all_goals rfl
theorem ringAge_txWait : (d.ringAge r).host.txWait
    = d.host.txWait.map (fun t => if t.ring == r then { t with idx := t.idx + 2 ^ 32 } else t) := by
  unfold Dev.ringAge
  dsimp only
  repeat' split
  all_goals rfl

theorem ringSwitched_tbl : (d.ringSwitched r v).tbl = d.tbl := by unfold Dev.ringSwitched; simp
theorem ringSwitched_hostMem : (d.ringSwitched r v).hostMem = d.hostMem := by unfold Dev.ringSwitched; simp
theorem ringSwitched_flt : (d.ringSwitched r v).flt = d.flt := by unfold Dev.ringSwitched; simp
theorem ringSwitched_load : (d.ringSwitched r v).load = d.load := by unfold Dev.ringSwitched; simp
theorem ringSwitched_host : (d.ringSwitched r v).host = d.host := by unfold Dev.ringSwitched; simp

theorem only_ringSwitched : d.regsOnly (d.ringSwitched r v) (ringRegs r) :=
  only_set (F.HIF_RING_CFG_EN r) _ (List.mem_cons_self ..) (of_decide_eq_true rfl) (only_set (F.HIF_RING_CFG_IRQ_EN r) _ (List.mem_cons_self ..)
    (of_decide_eq_true rfl) (only_set (F.HIF_RING_CFG_VECTOR r) _ (List.mem_cons_self ..) (of_decide_eq_true rfl) (only_refl _ _)))

theorem ringSwitched_en : (d.ringSwitched r v).flag (F.HIF_RING_CFG_EN r) = bit v 0 := by
  unfold Dev.ringSwitched Dev.flag
  rw [get_set_same _ (F.HIF_RING_CFG_EN r) _ (of_decide_eq_true rfl)]
  exact congrArg (· == 1) (Nat.mod_eq_of_lt (bf_lt v 0 1))

theorem ringStarted_tbl : (d.ringStarted r).tbl = d.tbl := by unfold Dev.ringStarted; simp [ringAge_tbl]
theorem ringStarted_hostMem : (d.ringStarted r).hostMem = d.hostMem := by unfold Dev.ringStarted; simp [ringAge_hostMem]
theorem ringStarted_flt : (d.ringStarted r).flt = d.flt := by unfold Dev.ringStarted; simp [ringAge_flt]
theorem ringStarted_load : (d.ringStarted r).load = d.load := by unfold Dev.ringStarted; simp [ringAge_load]
theorem ringStarted_txWait : (d.ringStarted r).host.txWait
    = d.host.txWait.map (fun t => if t.ring == r then { t with idx := t.idx + 2 ^ 32 } else t) := by
  unfold Dev.ringStarted; simp only [set_host, ringAge_txWait]

theorem only_ringStarted : d.regsOnly (d.ringStarted r) (ringRegs r) :=
  only_set (F.HIF_RING_STATUS_HALTED r) _ (by simp [ringRegs, F.HIF_RING_STATUS_HALTED]) (of_decide_eq_true rfl)
    (only_set (F.HIF_DB_INDEX_INDEX r) _ (by simp [ringRegs, F.HIF_DB_INDEX_INDEX]) (of_decide_eq_true rfl)
      (only_set (F.HIF_DEV_INDEX_INDEX r) _ (by simp [ringRegs, F.HIF_DEV_INDEX_INDEX]) (of_decide_eq_true rfl)
        (only_of (only_refl d _) (ringAge_regs d r))))

end

section
variable (d : Dev) (r : Fin 64) (v : Nat)

theorem ringSwitched_size : (d.ringSwitched r v).get (F.HIF_RING_CFG_SIZE_LOG2 r) = d.get (F.HIF_RING_CFG_SIZE_LOG2 r) := by
  obtain ⟨hv, hi, he, -⟩ := ring_apart r
  unfold Dev.ringSwitched
  rw [get_set_apart _ _ he, get_set_apart _ _ hi, get_set_apart _ _ hv]

theorem ringStarted_en : (d.ringStarted r).flag (F.HIF_RING_CFG_EN r) = d.flag (F.HIF_RING_CFG_EN r) := by
  obtain ⟨-, -, -, hdev, hdb, hst, -⟩ := ring_apart r
  unfold Dev.ringStarted
  rw [flag_set_apart _ _ hst, flag_set_apart _ _ hdb, flag_set_apart _ _ hdev]
  unfold Dev.flag
  rw [get_eq, get_eq, ringAge_regs]

theorem ringStarted_halted : (d.ringStarted r).flag (F.HIF_RING_STATUS_HALTED r) = false :=
  flag_set_zero _ _ (of_decide_eq_true rfl) (of_decide_eq_true rfl)

theorem ringStarted_idx : (d.ringStarted r).devIdx r = 0 ∧ (d.ringStarted r).dbIdx r = 0 := by
  obtain ⟨-, -, -, -, -, -, hdd, hsd, hsb, -⟩ := ring_apart r
  have hdev : ((d.ringAge r).set (F.HIF_DEV_INDEX_INDEX r) 0).get (F.HIF_DEV_INDEX_INDEX r) = 0 % 2 ^ 32 :=
    get_set_same _ (F.HIF_DEV_INDEX_INDEX r) 0 (of_decide_eq_true rfl)
  have hdb : (((d.ringAge r).set (F.HIF_DEV_INDEX_INDEX r) 0).set (F.HIF_DB_INDEX_INDEX r) 0).get (F.HIF_DB_INDEX_INDEX r) = 0 % 2 ^ 32 :=
    get_set_same _ (F.HIF_DB_INDEX_INDEX r) 0 (of_decide_eq_true rfl)
  unfold Dev.ringStarted Dev.devIdx Dev.dbIdx
  rw [get_set_apart _ _ hsd, get_set_apart _ _ hdd, get_set_apart _ _ hsb, hdev, hdb]
  exact ⟨Nat.zero_mod _, Nat.zero_mod _⟩

end

/-! ### Draining the events of ring 63 -/

theorem evPut_evBuf (d : Dev) (e : List Byte) : (d.evPut e).load.evBuf = d.load.evBuf := by
  unfold Dev.evPut
  dsimp only
  have hf : (d.flits 1).load.evBuf = d.load.evBuf := by
    unfold Dev.flits
    split
    · rw [add_load]
    · rfl
  split
  · rw [eventPut_load, hf]
  · rw [fltSet_load, inc_load, hf]

theorem drain63_up {d : Dev} (h : d.ring63Up = true) : d.drain63 = d.load.evBuf.foldl Dev.evPut { d with load := { d.load with evBuf := [] } } :=
  if_pos h

theorem drain63_down {d : Dev} (h : d.ring63Up = false) : d.drain63 = d := if_neg (by simp [h])

theorem drain63_empties {d : Dev} (h : d.drain63.ring63Up = true) : d.drain63.load.evBuf = [] := by
  cases hu : d.ring63Up
  · rw [drain63_down hu, hu] at h
    cases h
  · rw [drain63_up hu]
    have key : ∀ (m : List (List Byte)) (x : Dev), (m.foldl Dev.evPut x).load.evBuf = x.load.evBuf := by
      intro m
      induction m with
      | nil => exact fun _ => rfl
      | cons a m ih => exact fun x => (ih _).trans (evPut_evBuf x a)
    exact key _ _

/-- With nothing waiting, only the list of what waits is written, and with what it held. -/
theorem drain63_nothing {d : Dev} (h : d.load.evBuf = []) : d.drain63 = d := by
  cases hu : d.ring63Up
  · exact drain63_down hu
  · rw [drain63_up hu, h]
    have hload : ({ d.load with evBuf := [] } : LoadSt) = d.load := by rw [← h]
    show ({ d with load := { d.load with evBuf := [] } } : Dev) = d
    rw [hload]

/-! ### The switch's writes -/

section
variable {d : Dev} {m : Nat} {r : Fin 64} (ho : d.opens m (R.HIF_RING_CFG r))
include ho

/-- The written word has the switch as told and the ring's size. -/
theorem write_ringCfg (x : Nat) (hx : x < 2) : ∃ v, bit v 0 = (x == 1) ∧ bf v 1 5 = d.get (F.HIF_RING_CFG_SIZE_LOG2 r)
    ∧ d.writeFields m (R.HIF_RING_CFG r) [(F.HIF_RING_CFG_EN r, x)] = (d.beforeWrite m (R.HIF_RING_CFG r)).ringCfg r v := by
  obtain ⟨hone, hfault, hpage, -, hidx, hmask⟩ := ringCfg_row r
  obtain ⟨def', hr⟩ := regDef_of_oneWord hone
  rw [hr, Option.map_some, Option.some.injEq] at hmask
  refine ⟨fieldWord d def' (R.HIF_RING_CFG r) (F.HIF_RING_CFG_EN r) x, ?_, ?_, ?_⟩
  · have hsame := fieldWord_same d def' (R.HIF_RING_CFG r) (F.HIF_RING_CFG_EN r) x (of_decide_eq_true rfl)
    have hval : bf (fieldWord d def' (R.HIF_RING_CFG r) (F.HIF_RING_CFG_EN r) x) 0 1 = x := hsame.trans (Nat.mod_eq_of_lt hx)
    rw [bit_eq_bf, hval]
  · rw [fieldWord_ne d def' (R.HIF_RING_CFG r) (F.HIF_RING_CFG_EN r) x 1 5 (by decide) (.inr (Nat.le_refl 1)) hmask]
    exact (if_pos (of_decide_eq_true rfl)).symm
  · simp only [oneWord, hr, Option.map_some, Bool.and_eq_true, beq_iff_eq, bne_iff_ne, Option.some.injEq] at hone
    obtain ⟨⟨⟨hlo, hg⟩, ha⟩, hd⟩ := hone
    rw [writeField_opens d m _ _ x def' ho hr hlo hg ha hd, regPut_host _ _ _ _ _ hfault hpage]
    unfold Dev.putHost
    rw [hidx]

end

section
variable {s : State} {m : Fin 4} {r : Fin 64} {b : Dev} (ho : s.dev.opens m (R.HIF_RING_CFG r)) (hb : b = s.dev.beforeWrite m (R.HIF_RING_CFG r))
include hb

theorem ringWrite_bus : b = { s.dev with bus := b.bus } := by
  rw [hb]
  exact beforeWrite_bus s.dev m (ringCfg_row r).2.2.2.1

theorem ringWrite_get (f : FieldRef) : b.get f = s.dev.get f := by
  rw [ringWrite_bus hb]
  rfl

include ho

theorem ringEnable_enables (hen : s.dev.flag (F.HIF_RING_CFG_EN r) = false) : ∃ v, bit v 0 = true
    ∧ exec (.ringEnable m r) s = s.done (if r.val = 63 then (b.ringEnabled r v).drain63 else b.ringEnabled r v) := by
  obtain ⟨v, hv, hk, hw⟩ := write_ringCfg ho 1 (by decide)
  have hflag : b.flag (F.HIF_RING_CFG_EN r) = false := by unfold Dev.flag; rw [ringWrite_get hb]; exact hen
  rw [← hb] at hw
  exact ⟨v, hv, congrArg s.done (hw.trans (ringCfg_enables b r v (hk.trans (ringWrite_get hb _).symm) hv hflag))⟩

theorem ringDisable_disables : ∃ v, bit v 0 = false ∧ exec (.ringDisable m r) s = s.done (b.ringSwitched r v) := by
  obtain ⟨v, hv, hk, hw⟩ := write_ringCfg ho 0 (by decide)
  rw [← hb] at hw
  exact ⟨v, hv, congrArg s.done (hw.trans (ringCfg_disables b r v (hk.trans (ringWrite_get hb _).symm) hv))⟩

end

/-- What an enabled ring has, before the events of ring 63 are written. -/
structure Dev.ringFresh (d e : Dev) (r : Nat) : Prop where
  en : e.flag (F.HIF_RING_CFG_EN r) = true
  halted : e.flag (F.HIF_RING_STATUS_HALTED r) = false
  dev : e.devIdx r = 0
  db : e.dbIdx r = 0
  only : d.regsOnly e (ringRegs r)
  tbl : e.tbl = d.tbl
  mem : e.hostMem = d.hostMem
  flt : e.flt = d.flt
  load : e.load = d.load
  txWait : e.host.txWait.map (fun w => w.idx) = d.host.txWait.map (fun w => if w.ring = r then w.idx + 2 ^ 32 else w.idx)

theorem ringEnabled_fresh (d : Dev) (r : Fin 64) {v : Nat} (hv : bit v 0 = true) : d.ringFresh (d.ringEnabled r v) r := by
  have hstarted := only_trans (only_ringSwitched d r v) (only_ringStarted (d.ringSwitched r v) r)
  unfold Dev.ringEnabled
  constructor
  case en => exact (congrArg (· == 1) (ringUnkilled_get _ _ _)).trans ((ringStarted_en _ r).trans ((ringSwitched_en d r v).trans hv))
  case halted => exact (congrArg (· == 1) (ringUnkilled_get _ _ _)).trans (ringStarted_halted _ r)
  case dev => exact (ringUnkilled_get _ _ _).trans (ringStarted_idx _ r).1
  case db => exact (ringUnkilled_get _ _ _).trans (ringStarted_idx _ r).2
  case only => exact only_of hstarted (ringUnkilled_regs _ _)
  case tbl => rw [ringUnkilled_tbl, ringStarted_tbl, ringSwitched_tbl]
  case mem => rw [ringUnkilled_hostMem, ringStarted_hostMem, ringSwitched_hostMem]
  case flt => rw [ringUnkilled_flt, ringStarted_flt, ringSwitched_flt]
  case load => rw [ringUnkilled_load, ringStarted_load, ringSwitched_load]
  case txWait =>
    rw [ringUnkilled_txWait, ringStarted_txWait, ringSwitched_host, List.map_map]
    refine List.map_congr_left (fun t _ => ?_)
    by_cases h : t.ring = r.val <;> simp [h]

/-- Settles O45: an enabled ring is `Dev.ringFresh`, and on ring 63 the events that wait are then written. -/
theorem ringSwitch : Obligations.RingSwitch := by
  refine ⟨fun s m r hq ho hen => ?enable, fun s m r hq ho => ?disable⟩
  case enable =>
    obtain ⟨v, hv, hexec⟩ := ringEnable_enables ho rfl hen
    have hbus := ringWrite_bus (s := s) (m := m) (r := r) rfl
    generalize s.dev.beforeWrite m (R.HIF_RING_CFG r) = b at hexec hbus
    have hfresh := ringEnabled_fresh b r hv
    generalize b.ringEnabled r v = e at hexec hfresh
    obtain ⟨en, halted, dev, db, only, tbl, mem, flt, load, txWait⟩ := hfresh
    have honly : s.dev.regsOnly e (ringRegs r) := fun a ha => (only a ha).trans (by rw [hbus]; rfl)
    rw [hbus] at tbl mem flt load txWait
    by_cases h63 : r.val = 63
    · rw [if_pos h63] at hexec
      obtain ⟨-, -, -, -, -, -, -, -, -, hcfg, hst⟩ := ring_apart r
      have hdrain := only_drain63 (fun _ ha => ha) (only_refl e loadEventRegs)
      refine ⟨_, hexec.trans (done_of_flt hq ((drain63_flt e).trans flt)), ?_, ?_, (drain63_tbl e).trans tbl, fun h => ?_,
        fun _ => drain63_empties, ?_⟩
      · exact (congrArg (· == 1) (get_only hdrain (F.HIF_RING_CFG_EN r) hcfg (.inl (of_decide_eq_true rfl)))).trans en
      · exact (congrArg (· == 1) (get_only hdrain (F.HIF_RING_STATUS_HALTED r) hst (.inl (of_decide_eq_true rfl)))).trans halted
      · have hnone : e.drain63 = e := drain63_nothing ((congrArg LoadSt.evBuf load).trans (h.resolve_left (fun hn => hn h63)))
        show e.drain63.devIdx r = 0 ∧ e.drain63.dbIdx r = 0 ∧ e.drain63.hostMem = s.dev.hostMem ∧ s.dev.regsOnly e.drain63 (ringRegs r)
        rw [hnone]
        exact ⟨dev, db, mem, honly⟩
      · exact (congrArg (List.map (fun w => w.idx)) (drain63_host_txWait e)).trans txWait
    · rw [if_neg h63] at hexec
      exact ⟨_, hexec.trans (done_of_flt hq flt), en, halted, tbl, fun _ => ⟨dev, db, mem, honly⟩, fun h => absurd h h63, txWait⟩
  case disable =>
    obtain ⟨v, hv, hexec⟩ := ringDisable_disables ho rfl
    have hbus := ringWrite_bus (s := s) (m := m) (r := r) rfl
    generalize s.dev.beforeWrite m (R.HIF_RING_CFG r) = b at hexec hbus
    refine ⟨_, hexec.trans (done_of_flt hq ?_), (ringSwitched_en b r v).trans hv, (ringSwitched_size b r v).trans ?_, ?_, ?_, fun a ha => ?_⟩
    · rw [ringSwitched_flt, hbus]
    · rw [hbus]
      rfl
    · exact (ringSwitched_tbl b r v).trans (by rw [hbus])
    · exact (ringSwitched_hostMem b r v).trans (by rw [hbus])
    · exact (only_ringSwitched b r v a ha).trans (by rw [hbus]; rfl)

end Sys2Proof.Machine
end

section
/-!
PROOF. Commands that are not known, progress writes and aborts (R425, R427), messages (R428), the PCIe link (R407) and what a HOST reset
clears (R431).
-/
namespace Sys2Proof.Machine

/-! ### Status words -/

section
variable (d : Dev) (o : Op) (err : Nat)

theorem hostRead_failAtOnce : (d.failAtOnce o err).hostRead o.status 16 = ({ o with state := .failed } : Op).word err :=
  (hostRead_of (complete_hostMem _ _ _) _ _).trans (hostRead_putStatus d { o with state := .failed } err)

theorem failAtOnce_ops : (d.failAtOnce o err).host.ops = d.host.ops := by unfold Dev.failAtOnce; simp
theorem failAtOnce_unknown : (d.failAtOnce o err).host.unknown = d.host.unknown := by unfold Dev.failAtOnce; simp
theorem failAtOnce_regs : (d.failAtOnce o err).regs = d.regs := by unfold Dev.failAtOnce; simp
theorem failAtOnce_flt : (d.failAtOnce o err).flt = d.flt := by unfold Dev.failAtOnce; simp

end

/-! ### Commands that are not known (R425) -/

/-- The first command that is not known leaves its list. -/
def Dev.unknownTaken (d : Dev) (l : List Op) : Dev := { d with host := { d.host with unknown := l } }

theorem unknownCommand_first {s : State} {o : Op} {l : List Op} (h : s.dev.host.unknown = o :: l) :
    exec .unknownCommand s = s.done ((s.dev.unknownTaken l).failAtOnce o errFormat) := by
  refine congrArg s.done ?_
  unfold Dev.unknownCmd
  rw [h]
  rfl

/-! ### Progress (R425) -/

/-- The running operation of a ring and index. -/
def Dev.runningAt (d : Dev) (r i : Nat) : Option Op := d.host.ops.find? (fun o => o.ring == r && o.idx == i && o.state == .running)

section
variable {s : State} {r : Fin 64} {i : Nat} {o : Op} (h : s.dev.runningAt r i = some o)
include h

theorem statusProgressWrite_told (h1 : o.told.1 = o.progress) (h2 : o.told.2.1 = o.partialCnt) :
    exec (.statusProgressWrite r i) s = s.done s.dev := by
  refine congrArg s.done ?_
  unfold Dev.progressWrite
  unfold Dev.runningAt at h
  rw [h]
  exact if_pos (by simp [h1, h2])

theorem statusProgressWrite_writes (hn : o.told.1 ≠ o.progress ∨ o.told.2.1 ≠ o.partialCnt) {d : Dev}
    (hd : d = s.dev.reach (o.told.2.2 + 10 * usCyc)) :
    exec (.statusProgressWrite r i) s = s.done ((d.setOp { o with told := (o.progress, o.partialCnt, d.now) }).putStatus o errOk) := by
  subst hd
  refine congrArg s.done ?_
  unfold Dev.progressWrite
  unfold Dev.runningAt at h
  rw [h]
  exact if_neg (by rcases hn with hn | hn <;> simp [hn])

end

/-! ### Aborts (R427) -/

section
variable (d : Dev) (a : Op)

theorem abortRun_regs : (d.abortRun a).regs = d.regs := putStatus_regs _ _ _
theorem abortRun_flt : (d.abortRun a).flt = d.flt := putStatus_flt _ _ _
theorem abortRun_ops : (d.abortRun a).host.ops = d.host.ops := by unfold Dev.abortRun; rw [putStatus_host]
theorem abortRun_aborts : (d.abortRun a).host.aborts = d.host.aborts.map (fun (x : Op) => if x.same a then a else x) := by
  unfold Dev.abortRun
  rw [putStatus_host]
theorem abortRun_word : (d.abortRun a).hostRead a.status 16 = a.word errOk := hostRead_putStatus _ _ _

variable (err : Nat)

theorem abortEnd_flt : (d.abortEnd a err).flt = d.flt := by unfold Dev.abortEnd; simp
theorem abortEnd_ops : (d.abortEnd a err).host.ops = d.host.ops := by unfold Dev.abortEnd; simp
theorem abortEnd_word : (d.abortEnd a err).hostRead a.status 16
    = ({ a with state := if err == errOk then .done else .failed } : Op).word err :=
  (hostRead_of (complete_hostMem _ _ _) _ _).trans (hostRead_putStatus _ { a with state := if err == errOk then .done else .failed } err)

end

/-- The slot of the history that an ABORT's target names. -/
def Dev.targetHist (d : Dev) (a : Op) : Option (Nat × Nat) := SMap.find? d.host.hist (a.tgtRing * 65536 + a.tgtIdx % d.ringSize a.tgtRing)

/-- The command that an ABORT targets, where it is still there. -/
def Dev.target (d : Dev) (a : Op) : Option Op := d.host.ops.find? (fun o => o.ring == a.tgtRing && o.idx == a.tgtIdx)

section
variable {d : Dev} {a : Op}

theorem abortOp_stranger (h : d.targetHist a ≠ some (a.tgtIdx, a.seq)) : d.abortOp a = d.abortEnd a errFormat := by
  unfold Dev.abortOp
  unfold Dev.targetHist at h
  dsimp only
  split
  · rfl
  · rename_i idx seq hf
    refine if_pos ?_
    rw [hf] at h
    by_cases hi : idx = a.tgtIdx
    · have : seq ≠ a.seq := fun hs => h (by rw [hi, hs])
      simp [this]
    · simp [hi]

variable (h : d.targetHist a = some (a.tgtIdx, a.seq))
include h

theorem abortOp_late (ho : d.target a = none) : d.abortOp a = d.abortEnd a errAbortLate := by
  unfold Dev.abortOp
  unfold Dev.targetHist at h
  unfold Dev.target at ho
  simp only [h, ho, bne_self_eq_false, Bool.or_self, Bool.false_eq_true, if_false]

section
variable {o : Op} (ho : d.target a = some o)
include ho

theorem abortOp_found : d.abortOp a = if o.state == .queued then (d.provGone o).finish { o with progress := 0 } .aborted errAborted
    else if d.cryDecided o then d.abortEnd a errAbortLate else d.askStop o := by
  unfold Dev.abortOp
  unfold Dev.targetHist at h
  unfold Dev.target at ho
  simp only [h, ho, bne_self_eq_false, Bool.or_self, Bool.false_eq_true, if_false]

theorem abortOp_queued (hs : o.state = .queued) : d.abortOp a = (d.provGone o).finish { o with progress := 0 } .aborted errAborted :=
  (abortOp_found h ho).trans (if_pos (by simp [hs]))

theorem abortOp_decided (hs : o.state ≠ .queued) (hc : d.cryDecided o = true) : d.abortOp a = d.abortEnd a errAbortLate :=
  (abortOp_found h ho).trans ((if_neg (by simpa using hs)).trans (if_pos hc))

theorem abortOp_running (hs : o.state ≠ .queued) (hc : d.cryDecided o = false) : d.abortOp a = d.askStop o :=
  (abortOp_found h ho).trans ((if_neg (by simpa using hs)).trans (if_neg (by simp [hc])))

end

end

/-- The first ABORT not yet executed, of a command ring and of an index that was fetched. -/
theorem abort_runs {s : State} {x a : Op} {d : Dev} (h : s.dev.host.aborts.find? (fun (a : Op) => a.state == .queued) = some x)
    (ha : a = { x with state := .running }) (hd : d = s.dev.abortRun a) (h1 : 56 ≤ a.tgtRing) (h2 : a.tgtRing < 60)
    (hi : idxSub (d.dbIdx a.tgtRing + 2 ^ 32 - 1) a.tgtIdx < d.ringSize a.tgtRing) : exec .abort s = s.done (d.abortOp a) := by
  have hfirst : s.dev.abortExec = if !(decide (a.tgtRing < 32) || (decide (56 ≤ a.tgtRing) && decide (a.tgtRing < 60)))
      || decide (d.ringSize a.tgtRing ≤ idxSub (d.dbIdx a.tgtRing + 2 ^ 32 - 1) a.tgtIdx) then d.abortEnd a errFormat
      else if a.tgtRing < 32 then d.abortTx a else d.abortOp a := by
    unfold Dev.abortExec
    rw [h, hd, ha]
  refine congrArg s.done (hfirst.trans ?_)
  rw [decide_eq_true h1, decide_eq_true h2, decide_eq_false (Nat.not_le.mpr hi), Bool.and_self, Bool.or_true, Bool.not_true, Bool.or_self,
    if_neg Bool.false_ne_true, if_neg (by omega)]

/-! #### A command that has not started -/

section
variable (d : Dev) (o : Op)

theorem setDataRegs_keep {α : Type} (f : Dev → α) (h : ∀ d a v, f (Dev.setReg d a v) = f d) (d : Dev) (a : Nat → Nat) (n v : Nat) :
    f (d.setDataRegs a n v) = f d := foldl_keep f _ (fun d _ => h d _ _) _ _

theorem provGone_keep {α : Type} (f : Dev → α) (h : ∀ d a v, f (Dev.setReg d a v) = f d)
    (hv : ∀ (d : Dev) (v : VaultSt), f { d with vault := v } = f d) : f (d.provGone o) = f d := by
  unfold Dev.provGone
  split
  · unfold Dev.setNonce
    rw [setDataRegs_keep f h, hv]
  · rfl

theorem provGone_flt : (d.provGone o).flt = d.flt := provGone_keep d o Dev.flt (fun _ _ _ => rfl) (fun _ _ => rfl)
theorem provGone_host : (d.provGone o).host = d.host := provGone_keep d o Dev.host (fun _ _ _ => rfl) (fun _ _ => rfl)

theorem setNonce_vault (n : Option (List Nat)) : (d.setNonce n).vault = { d.vault with nonce := n } :=
  setDataRegs_keep Dev.vault (fun _ _ _ => rfl) _ _ _ _

end

/-- An ABORT that waits for the end of an operation. -/
def Op.waitsFor (a o : Op) : Bool := a.state == .running && a.tgtRing == o.ring && a.tgtIdx == o.idx

theorem finish_aborted (d : Dev) (o : Op) (err : Nat) : d.finish o .aborted err
    = ((d.host.aborts.filter (fun a => a.waitsFor o)).foldl (fun d a => (d.putStatus { a with state := .done } errOk).complete a.ring a.irq)
      (let d1 := ((d.putStatus { o with state := .aborted } err).dropOp o).complete o.ring o.irq
       { d1 with host := { d1.host with aborts := d1.host.aborts.filter (fun a => !a.waitsFor o) } })) := by
  have haborts : (((d.putStatus { o with state := .aborted } err).dropOp o).complete o.ring o.irq).host.aborts = d.host.aborts := by simp
  unfold Dev.finish
  dsimp only
  rw [haborts]
  rfl

/-- Where each ABORT of a list is the same one, its status word stands at the end. -/
theorem abortsDone_word (a : Op) (l : List Op) (hl : ∀ b ∈ l, b = a) (hne : l ≠ []) (d : Dev) :
    (l.foldl (fun d a => (d.putStatus { a with state := .done } errOk).complete a.ring a.irq) d).hostRead a.status 16
      = ({ a with state := .done } : Op).word errOk := by
  induction l generalizing d with
  | nil => exact absurd rfl hne
  | cons b l ih =>
    rw [List.foldl_cons]
    cases l with
    | nil =>
      rw [hl b (List.mem_singleton_self b)]
      exact (hostRead_of (complete_hostMem _ _ _) _ _).trans (hostRead_putStatus d { a with state := .done } errOk)
    | cons c l => exact ih (fun x hx => hl x (List.mem_cons_of_mem _ hx)) (List.cons_ne_nil c l) _

theorem op_same_refl (a : Op) : a.same a = true := by simp [Op.same]

/-- The ABORT of a command that has not started is DONE with it, where no other ABORT waits for it. -/
theorem abort_queued_done {s : State} {x a : Op} (h : s.dev.host.aborts.find? (fun (a : Op) => a.state == .queued) = some x)
    (ha : a = { x with state := .running }) {o : Op} (hr : o.ring = a.tgtRing) (hi : o.idx = a.tgtIdx)
    (hb : ∀ b ∈ s.dev.host.aborts, b.same a = false → b.state = .running → b.tgtRing = a.tgtRing → b.tgtIdx ≠ a.tgtIdx) :
    (((s.dev.abortRun a).provGone o).finish { o with progress := 0 } .aborted errAborted).hostRead a.status 16
      = ({ a with state := .done } : Op).word errOk := by
  have hstate : a.state = .running := by rw [ha]
  have hx : x.same a = true := by rw [ha]; exact op_same_refl x
  rw [finish_aborted]
  refine abortsDone_word a _ (fun b hbm => ?_) (fun hnil => ?_) _
  · rw [provGone_host, abortRun_aborts] at hbm
    obtain ⟨hmem, hwaits⟩ := List.mem_filter.mp hbm
    obtain ⟨y, hy, rfl⟩ := List.mem_map.mp hmem
    cases hs : y.same a
    · rw [hs, if_neg Bool.false_ne_true] at hwaits
      simp only [Op.waitsFor, Bool.and_eq_true, beq_iff_eq] at hwaits
      exact absurd (hwaits.2.trans hi) (hb y hy hs hwaits.1.1 (hwaits.1.2.trans hr))
    · rw [if_pos rfl]
  · have hmem : a ∈ ((s.dev.abortRun a).provGone o).host.aborts.filter (fun b => b.waitsFor { o with progress := 0 }) := by
      rw [provGone_host, abortRun_aborts]
      refine List.mem_filter.mpr ⟨List.mem_map.mpr ⟨x, List.mem_of_find?_eq_some h, by rw [hx, if_pos rfl]⟩, ?_⟩
      simp [Op.waitsFor, hstate, hr, hi]
    rw [hnil] at hmem
    exact List.not_mem_nil hmem

/-! #### What is asked of a running command -/

theorem cryDecided_iff (d : Dev) (o : Op) :
    d.cryDecided o = true ↔ o.ring = 58 ∧ ∃ j ∈ d.cry.jobs, j.idx = o.idx ∧ ∃ x, j.phase = .fin x := by
  unfold Dev.cryDecided
  simp only [Bool.and_eq_true, beq_iff_eq, List.any_eq_true]
  refine and_congr_right (fun _ => exists_congr (fun j => and_congr_right (fun _ => and_congr_right (fun _ => ?_))))
  cases j.phase <;> simp

theorem askStop_other (d : Dev) {o : Op} (h : o.ring ≠ 59 ∨ o.opcode ≠ 0x40) : d.askStop o = d.setOp { o with stop := true } :=
  if_neg (by rcases h with h | h <;> simp [h])

theorem askStop_message (d : Dev) {o : Op} (hr : o.ring = 59) (ho : o.opcode = 0x40) :
    d.askStop o = (d.setOp { o with stop := true }).xptAbort o.idx := if_pos (by simp [hr, ho])

/-! ### The obligation on commands -/

/-- Settles O47, clause by clause from the rules above. -/
theorem commandsAnswered : Obligations.CommandsAnswered := by
  refine ⟨?unknown, ?progress, ?abort, fun d a => ⟨abortRun_regs d a, abortRun_ops d a, abortRun_aborts d a, abortRun_word d a⟩, ?nonce,
    fun d o => ⟨askStop_other d, askStop_message d⟩⟩
  case unknown =>
    intro s o l hq h
    exact ⟨_, (unknownCommand_first h).trans (done_of_flt hq (failAtOnce_flt _ _ _)), failAtOnce_unknown _ _ _, failAtOnce_ops _ _ _,
      failAtOnce_regs _ _ _, hostRead_failAtOnce _ _ _⟩
  case progress =>
    intro s r i o hq h
    refine ⟨fun h1 h2 => (statusProgressWrite_told h h1 h2).trans (done_of_flt hq rfl), fun hn => ?_⟩
    have hexec := statusProgressWrite_writes h hn rfl
    generalize hd : s.dev.reach (o.told.2.2 + 10 * usCyc) = d at hexec
    have hops : d.host.ops = s.dev.host.ops := by rw [← hd, reach_host]
    have hmem : d.hostMem = s.dev.hostMem := by rw [← hd, reach_hostMem]
    refine ⟨_, hexec.trans (done_of_flt hq ?_), ?_, hostRead_putStatus _ _ _, ?_, ?_, fun x hx => ?_⟩
    · rw [putStatus_flt, setOp_flt, ← hd, reach_flt]
    · unfold Dev.now
      rw [putStatus_time, setOp_time, ← hd, reach_now]
    · refine only_of (d := s.dev) (e := d) ?_ (by rw [putStatus_regs, setOp_regs])
      rw [← hd]
      exact only_reach _ (List.mem_singleton_self _) (only_refl _ _)
    · rw [putStatus_host, ← hops]
      unfold Dev.now
      rw [putStatus_time, setOp_time]
      rfl
    · rw [hostByte_putStatus_out _ _ _ _ hx]
      unfold Dev.hostByte
      rw [setOp_hostMem, hmem]
  case abort =>
    intro s x a d hq h ha hd h1 h2 hi
    have hexec := abort_runs h ha hd h1 h2 hi
    have hflt : d.flt = s.dev.flt := by rw [hd, abortRun_flt]
    have ends : ∀ err, err ≠ errOk → d.abortOp a = d.abortEnd a err → ∃ t, exec .abort s = .next t ∧ t.dev.host.ops = d.host.ops
        ∧ t.dev.hostRead a.status 16 = ({ a with state := .failed } : Op).word err := by
      intro err herr he
      refine ⟨_, (hexec.trans (by rw [he])).trans (done_of_flt hq ((abortEnd_flt d a err).trans hflt)), abortEnd_ops d a err, ?_⟩
      rw [abortEnd_word, if_neg (by simpa using herr)]
    refine ⟨fun hne => ends _ (by decide) (abortOp_stranger hne), fun hh => ⟨fun hnone => ends _ (by decide) (abortOp_late hh hnone),
      fun o ho => ⟨fun hs => ⟨?_, ?_, fun hb => ?_⟩, fun hs hc => ends _ (by decide) (abortOp_decided hh ho hs hc), fun hs hc => ?_⟩⟩⟩
    · refine (hexec.trans (by rw [abortOp_queued hh ho hs])).trans (done_of_flt hq ?_)
      rw [finish_flt, provGone_flt, hflt]
    · rw [finish_ops, provGone_host]
      rfl
    · have hsome := List.find?_some ho
      simp only [Bool.and_eq_true, beq_iff_eq] at hsome
      rw [hd]
      exact abort_queued_done h ha hsome.1 hsome.2 hb
    · exact hexec.trans (congrArg s.done (abortOp_running hh ho hs hc))
  case nonce =>
    refine fun d o => ⟨fun h => ?_, provGone_other d, cryDecided_iff d o⟩
    rw [provGone_provision d h.1 h.2, setNonce_vault]

end Sys2Proof.Machine
end

section
/-!
PROOF. Messages (R428), the PCIe link (R407) and what a HOST reset clears (R431).
-/
namespace Sys2Proof.Machine

/-! ### Moderation (R428) -/

theorem irqModerationTimer_due {s : State} {r : Fin 64} {t : Nat} (h : (s.dev.ring r).firstUnsig = some t)
    (hen : s.dev.flag (F.HIF_RING_CFG_IRQ_EN r) = true) (hus : s.dev.get (F.HIF_RING_MOD_MOD_US r) ≠ 0) :
    exec (.irqModerationTimer r) s = s.done ((s.dev.reach (t + s.dev.get (F.HIF_RING_MOD_MOD_US r) * usCyc)).ringMsg r) := by
  refine congrArg s.done ?_
  unfold Dev.modTimer
  simp only [h]
  exact if_pos (by simp [hen, hus])

section
variable (d : Dev) (r : Nat)

theorem ringMsg_ring : (d.ringMsg r).ring r = { d.ring r with unsig := 0, firstUnsig := none } := by
  unfold Dev.ringMsg Dev.ring
  rw [msix_host_rings]
  exact SMap.get_set_same _ _ _ _

theorem ringMsg_keep {α : Type} (f : Dev → α) (hm : ∀ (d : Dev) v, f (d.msix v) = f d) (hh : ∀ (d : Dev) (h : HostSt), f { d with host := h } = f d) :
    f (d.ringMsg r) = f d := by
  unfold Dev.ringMsg Dev.setRing
  rw [hm, hh]

end

/-! ### Masks (R428) -/

/-- The mask bit of a vector is written. -/
def Dev.masked (d : Dev) (v : Nat) (m : Bool) : Dev := { d with host := { d.host with msixMask := setBit d.host.msixMask v m } }

/-- The pending bit of a vector is cleared. -/
def Dev.unpended (d : Dev) (v : Nat) : Dev := { d with host := { d.host with msixPba := setBit d.host.msixPba v false } }

theorem msixMask_pending {d : Dev} {v : Nat} {m : Bool} (h : m = false ∧ bit d.host.msixPba v = true) :
    d.msixMask v m = ((d.masked v m).unpended v).msix v := if_pos (by rw [h.1]; exact h.2)

theorem msixMask_quiet {d : Dev} {v : Nat} {m : Bool} (h : ¬ (m = false ∧ bit d.host.msixPba v = true)) : d.msixMask v m = d.masked v m := by
  refine if_neg (fun hc => h ?_)
  simpa using hc

/-- A message of an unmasked vector is sent. -/
theorem msix_sends {d : Dev} {v : Nat} (h : bit d.host.msixMask v = false) : (d.msix v).host
    = { d.host with msixSent := SMap.set d.host.msixSent 0 v (SMap.get d.host.msixSent 0 v + 1) } := by
  unfold Dev.msix
  rw [if_neg (by simp [h]), emit_host]

/-! ### The link (R407) -/

theorem pcieLinkUp_trains {s : State} {sp w : Nat} (h1 : s.dev.ready 1 = true) (hs1 : 1 ≤ sp) (hs4 : sp ≤ 4) (hw : w = 1 ∨ w = 2 ∨ w = 4) :
    exec (.pcieLinkUp sp w) s = s.done (((s.dev.set F.HIF_STATUS_LINK_UP 1).set F.HIF_STATUS_SPEED sp).set F.HIF_STATUS_WIDTH w) := by
  refine congrArg s.done (if_pos ?_)
  have hspeed : pcieFunction.speeds.contains sp = true := by
    rcases (by omega : sp = 1 ∨ sp = 2 ∨ sp = 3 ∨ sp = 4) with rfl | rfl | rfl | rfl <;> decide
  have hwidth : pcieFunction.widths.contains w = true := by rcases hw with rfl | rfl | rfl <;> decide
  rw [h1, hspeed, hwidth]
  rfl

/-! ### What a HOST reset clears (R431) -/

/-- The commands of the rings are gone: a PROVISION consumes its nonce. -/
def Dev.opsGone (d : Dev) : Dev := d.host.ops.foldl (fun d o => d.provGone o) d

/-- The rings, the jobs and the copy that served them are gone. -/
def Dev.ringsGone (d : Dev) : Dev := { d with
  host := { HostSt.init with spiAns := d.host.spiAns, spiBusy := d.host.spiBusy }
  fwd := { d.fwd with frames := d.fwd.frames.map (fun (p : Nat × Option Frame) => (p.1, p.2.map Frame.untag)) }
  cry := { d.cry with jobs := [] }
  boot := { d.boot with copyOp := none } }

/-- The transport sessions of the host's own messages are gone. -/
def Dev.messagesGone (d : Dev) : Dev :=
  (d.xpt.sess.filter (fun (p : Nat × Option Sess) => p.2.isSome && !cnBridge (d.conn (p.1 / 2)))).foldl
    (fun d (p : Nat × Option Sess) => d.xptQuiet p.1) d

theorem hostClear_eq (d : Dev) : d.hostClear = d.opsGone.ringsGone.messagesGone := rfl

/-- A PROVISION among the operations. -/
def isProvision (o : Op) : Bool := o.ring == 59 && o.opcode == 0x21

section
variable (d : Dev)

theorem opsGone_keep {α : Type} (f : Dev → α) (h : ∀ d a v, f (Dev.setReg d a v) = f d)
    (hv : ∀ (d : Dev) (v : VaultSt), f { d with vault := v } = f d) : f d.opsGone = f d :=
  foldl_keep f _ (fun d o => provGone_keep d o f h hv) _ _

theorem provGone_vault (o : Op) : (d.provGone o).vault = if isProvision o then { d.vault with nonce := none } else d.vault := by
  unfold Dev.provGone isProvision
  split
  · exact setNonce_vault d none
  · rfl

theorem opsGone_vault : d.opsGone.vault = if d.host.ops.any isProvision then { d.vault with nonce := none } else d.vault := by
  have key : ∀ (l : List Op) (e : Dev), (l.foldl (fun d o => d.provGone o) e).vault
      = if l.any isProvision then { e.vault with nonce := none } else e.vault := by
    intro l
    induction l with
    | nil => exact fun _ => rfl
    | cons o l ih =>
      intro e
      rw [List.foldl_cons, ih, provGone_vault, List.any_cons]
      cases isProvision o <;> cases l.any isProvision <;> rfl
  exact key _ _

theorem away_messagesGone : Away d d.messagesGone := away_fold _ (fun _ p h => away_xptQuiet p.1 h) _ (Away.refl d)

theorem away_hostRegs {d e : Dev} (h : Away d e) : Away d e.hostRegs :=
  away_resetRegs _ _ (away_resetRegs _ _ (away_resetRegs _ _ (away_resetRegs _ _ h)))

theorem away_hostReset (l : Bool) : Away d.opsGone.ringsGone (d.hostReset l) := by
  have h : Away d.opsGone.ringsGone ((d.hostClear.hostRegs).inc F.HIF_HOST_RESETS_COUNT) := by
    rw [hostClear_eq]
    exact away_inc _ (away_hostRegs (away_messagesGone _))
  unfold Dev.hostReset
  dsimp only
  exact away_fltSet _ _ (away_ite l h (away_setReg _ _ h))

end

theorem ringCfg_reset (r : Fin 64) : 0x101000 ≤ R.HIF_RING_CFG r ∧ R.HIF_RING_CFG r < 0x200000 ∧ resetVal (R.HIF_RING_CFG r) % 2 = 0
    ∧ R.HIF_RING_CFG r ∉ [R.HIF_HOST_RESETS, R.HIF_STATUS, R.FLT_FAULT_STATUS blkHost] := by
  revert r
  decide +kernel

theorem hostReset_disabled (d : Dev) (l : Bool) (r : Fin 64) : (d.hostReset l).flag (F.HIF_RING_CFG_EN r) = false := by
  obtain ⟨hlo, hhi, hreset, hm⟩ := ringCfg_reset r
  have honly : d.hostClear.hostRegs.regsOnly (d.hostReset l) [R.HIF_HOST_RESETS, R.HIF_STATUS, R.FLT_FAULT_STATUS blkHost] := by
    have h : d.hostClear.hostRegs.regsOnly (d.hostClear.hostRegs.inc F.HIF_HOST_RESETS_COUNT)
        [R.HIF_HOST_RESETS, R.HIF_STATUS, R.FLT_FAULT_STATUS blkHost] :=
      only_inc F.HIF_HOST_RESETS_COUNT (List.mem_cons_self ..) (by decide) (only_refl _ _)
    unfold Dev.hostReset
    dsimp only
    refine only_fltSet _ _ (by simp) ?_
    cases l
    · exact only_setReg _ _ (by simp) h
    · exact h
  have hreg : d.hostClear.hostRegs.reg (R.HIF_RING_CFG r) = resetVal (R.HIF_RING_CFG r) % 2 ^ 32 :=
    (reg_resetRegs _ _ _ _).trans (if_neg (by omega))
  have hget : d.hostClear.hostRegs.get (F.HIF_RING_CFG_EN r) = bf (d.hostClear.hostRegs.reg (R.HIF_RING_CFG r)) 0 1 :=
    if_pos (of_decide_eq_true rfl)
  have hbf : bf (resetVal (R.HIF_RING_CFG r) % 2 ^ 32) 0 1 = 0 := by
    rw [bf_mod _ 32 0 1 (by decide)]
    simp only [bf]
    omega
  unfold Dev.flag
  rw [get_only honly (F.HIF_RING_CFG_EN r) hm (.inl (of_decide_eq_true rfl)), hget, hreg, hbf]
  rfl

/-! ### The obligation -/

/-- Settles O48: each row is one operation of the host interface, and a HOST reset leaves what is away from it (`away_hostReset`). -/
theorem messagesLinkAndReset : Obligations.MessagesLinkAndReset := by
  refine ⟨?timer, ?mask, ?link, ?reset⟩
  case timer =>
    intro s r t hq h hen hus
    have hring := ringMsg_ring (s.dev.reach (t + s.dev.get (F.HIF_RING_MOD_MOD_US r) * usCyc)) r
    refine ⟨_, (irqModerationTimer_due h hen hus).trans (done_of_flt hq ?_), ?_, ?_, ?_, ?_, ?_⟩
    · rw [ringMsg_keep _ _ Dev.flt msix_flt (fun _ _ => rfl), reach_flt]
    · exact (ringMsg_keep _ _ Dev.now (fun d v => congrArg (·.now) (msix_time d v)) (fun _ _ => rfl)).trans (reach_now _ _)
    · exact congrArg RingSt.unsig hring
    · exact congrArg RingSt.firstUnsig hring
    · exact (ringMsg_keep _ _ Dev.tbl msix_tbl (fun _ _ => rfl)).trans (reach_tbl _ _)
    · exact (ringMsg_keep _ _ Dev.hostMem msix_hostMem (fun _ _ => rfl)).trans (reach_hostMem _ _)
  case mask =>
    intro s v m hq
    by_cases h : m = false ∧ bit s.dev.host.msixPba v = true
    · have hmask : bit ((s.dev.masked v m).unpended v).host.msixMask v = m := bit_setBit_same _ _ _
      have hhost := msix_sends (hmask.trans h.1)
      refine ⟨_, (congrArg s.done (msixMask_pending h)).trans (done_of_flt hq (msix_flt _ _)), ?_, fun u hu => ⟨?_, ?_⟩, ?_, msix_regs _ _,
        msix_tbl _ _, msix_hostMem _ _⟩
      · exact (congrArg (fun h => bit (HostSt.msixMask h) v) hhost).trans hmask
      · exact (congrArg (fun h => bit (HostSt.msixMask h) u) hhost).trans (bit_setBit_ne _ _ _ _ (Ne.symm hu))
      · exact (congrArg (fun h => bit (HostSt.msixPba h) u) hhost).trans (bit_setBit_ne _ _ _ _ (Ne.symm hu))
      · rw [if_pos h]
        exact ⟨(congrArg (fun h => bit (HostSt.msixPba h) v) hhost).trans (bit_setBit_same _ _ _),
          (congrArg (fun h => SMap.get (HostSt.msixSent h) 0 v) hhost).trans
            (SMap.get_set_same s.dev.host.msixSent 0 v (SMap.get s.dev.host.msixSent 0 v + 1))⟩
    · refine ⟨_, (congrArg s.done (msixMask_quiet h)).trans (done_of_flt hq rfl), bit_setBit_same _ _ _,
        fun u hu => ⟨bit_setBit_ne _ _ _ _ (Ne.symm hu), rfl⟩, ?_, rfl, rfl, rfl⟩
      rw [if_neg h]
      exact ⟨rfl, rfl⟩
  case link =>
    intro s sp w hq h1 hs1 hs4 hw
    have h8 : sp % 2 ^ 3 = sp ∧ w % 2 ^ 3 = w := by omega
    refine ⟨_, (pcieLinkUp_trains h1 hs1 hs4 hw).trans (done_of_flt hq ?_), ?_, ?_, ?_, ?_, ?_, ?_⟩
    · rw [set_flt, set_flt, set_flt]
    · show (((s.dev.set F.HIF_STATUS_LINK_UP 1).set F.HIF_STATUS_SPEED sp).set F.HIF_STATUS_WIDTH w).flag F.HIF_STATUS_LINK_UP = true
      rw [flag_set_apart _ _ (by decide), flag_set_apart _ _ (by decide)]
      exact flag_set_one _ _ (by decide) (by decide)
    · show (((s.dev.set F.HIF_STATUS_LINK_UP 1).set F.HIF_STATUS_SPEED sp).set F.HIF_STATUS_WIDTH w).get F.HIF_STATUS_SPEED = sp
      rw [get_set_apart _ _ (by decide)]
      exact (get_set_same _ F.HIF_STATUS_SPEED sp (by decide)).trans h8.1
    · exact (get_set_same _ F.HIF_STATUS_WIDTH w (by decide)).trans h8.2
    · exact only_set F.HIF_STATUS_WIDTH _ (by decide) (by decide) (only_set F.HIF_STATUS_SPEED _ (by decide) (by decide)
        (only_set F.HIF_STATUS_LINK_UP _ (by decide) (by decide) (only_refl _ _)))
    · exact (set_tbl _ _ _).trans ((set_tbl _ _ _).trans (set_tbl _ _ _))
    · exact (set_hostMem _ _ _).trans ((set_hostMem _ _ _).trans (set_hostMem _ _ _))
  case reset =>
    intro s l
    have h := away_hostReset s.dev l
    refine ⟨s.dev.hostReset l, rfl, h.ops, h.aborts, h.unknown, congrArg CrySt.jobs h.cry, ?_, congrArg BootSt.copyOp h.boot, ?_, ?_, ?_,
      hostReset_disabled s.dev l⟩
    · exact h.load.trans (opsGone_keep s.dev Dev.load (fun _ _ _ => rfl) (fun _ _ => rfl))
    · exact h.vault.trans (opsGone_vault s.dev)
    · exact h.pwr.trans (opsGone_keep s.dev Dev.pwr (fun _ _ _ => rfl) (fun _ _ => rfl))
    · exact h.tbl.trans (opsGone_keep s.dev Dev.tbl (fun _ _ _ => rfl) (fun _ _ => rfl))

end Sys2Proof.Machine
end

section
/-!
PROOF. The shadows of 64-bit registers (R441, R442): what a read latches, returns and counts, and where a written word goes.
-/
namespace Sys2Proof.Machine

/-! ### The register tables -/

/-- No LO word has a field that its reading clears. -/
def loWordsPlain (l : List RegDef) : Bool := l.all (fun r => !r.loWord || r.rcMask == 0)

theorem loWordsPlain_fault : loWordsPlain fltRegs = true := by decide +kernel

theorem loWordsPlain_ite {c : Prop} [Decidable c] {x y : List RegDef} (hx : loWordsPlain x = true) (hy : loWordsPlain y = true) :
    loWordsPlain (if c then x else y) = true := by
  split
  · exact hx
  · exact hy

theorem loWordsPlain_window (a : Nat) : loWordsPlain (windowRegs a) = true := by
  unfold windowRegs
  repeat' apply loWordsPlain_ite
  all_goals decide +kernel

theorem rcMask_loWord {a : Nat} {r : RegDef} (hr : regDef a = some r) (hw : r.loWord = true) : r.rcMask = 0 := by
  have key : ∀ {l : List RegDef} {p : RegDef → Bool}, loWordsPlain l = true → l.find? p = some r → r.rcMask = 0 := by
    intro l p hl hf
    have := List.all_eq_true.mp hl r (List.mem_of_find?_eq_some hf)
    simpa [hw] using this
  unfold regDef at hr
  split at hr
  · dsimp only at hr
    repeat' split at hr
    · cases hr
    · cases hr
    · exact key loWordsPlain_fault hr
  · exact key (loWordsPlain_window a) hr

/-- The registers of indirect access belong to no group. -/
theorem indWindow_single {a : Nat} (h : indWindow a = true) : groupLo a = none ∧ (regDef a).map (fun r => r.loWord) ≠ some true := by
  have key : ∀ k : Fin 16, groupLo (0x10 + k) = none ∧ (regDef (0x10 + k)).map (fun r => r.loWord) ≠ some true := by decide +kernel
  simp only [indWindow, Bool.and_eq_true, decide_eq_true_eq] at h
  have := key ⟨a - 0x10, by omega⟩
  rwa [show 0x10 + (a - 0x10) = a by omega] at this

theorem regAt_regDef {d : Dev} {a : Nat} {r : RegDef} (h : d.regAt a = some r) : regDef a = some r := by
  unfold Dev.regAt at h
  split at h
  · exact h
  · cases h

/-! ### Reads (R441) -/

section
variable {s : State} {m : Fin 4} {a : Nat} (hp : s.dev.pathUp m = true) (hl : s.dev.linkStall a = false) {x : Dev}
  (hx : x = s.dev.beforeAccess m a 2) {r : RegDef} (hr : x.regAt a = some r) (hi : indWindow a = false)
include hp hl hx hr hi

/-- A read away from the registers of indirect access takes the register. -/
theorem loWordRead_takes : exec (.loWordRead m ⟨false, a, true⟩) s
    = .next { s with dev := ((x.regTake r m a).1.emit (.readData m a (x.regTake r m a).2)).settle } := by
  have h3 : a ≠ R.GLOBAL_IND_STATUS := ne_of_not_indWindow hi rfl
  have hbus := busRead_direct s.dev (ne_of_not_indWindow hi indWindow_indAddr) (ne_of_not_indWindow hi indWindow_indData) h3
    (indBarred_of_not_indWindow m hi)
  have hread : (s.dev.viaInd m a).regRead m a = ((x.regTake r m a).1, some (x.regTake r m a).2) := by
    subst hx
    unfold Dev.beforeAccess at hr ⊢
    unfold Dev.regRead
    rw [viaInd_linkStall, hl]
    simp [hr]
  have hplain : reqPlain ⟨false, a, true⟩ m = true := by simp [reqPlain]
  refine next_settle_congr s ?_
  unfold Dev.readReq
  rw [if_pos hplain]
  exact read_value hp (hbus.trans hread)

end

section
variable {x : Dev} {m a : Nat} {r : RegDef}

/-- The reading of a LO word latches the others of its group. -/
theorem regTake_latches (hw : r.loWord = true) (hg : groupLo a = none) (hk : r.rcMask = 0) {d0 : Dev}
    (hd : d0 = (if slotReg a then x.slotTouch (x.get F.VAULT_SLOT_SEL_SLOT) else x)) : x.regTake r m a = (d0.latch m a, d0.view r a) := by
  subst hd
  unfold Dev.regTake
  rw [hg]
  simp only [hw, hk, beq_self_eq_true, if_true]

/-- The reading of a further word that the shadow holds. -/
theorem regTake_held {lo v : Nat} {sh : Shadow} (hg : groupLo a = some lo) (hs : SMap.get x.bus.rd none m = some sh) (ht : sh.tag = lo)
    (hv : (sh.vals.find? (fun p => p.1 == a)).map (fun p => p.2) = some v) : x.regTake r m a = (x, v) := by
  have hsh : x.shadowed m a = some v := by
    unfold Dev.shadowed
    rw [hs, hg]
    exact (if_pos (by simp [ht])).trans hv
  unfold Dev.regTake
  rw [hg, hsh]

theorem regTake_misses {lo : Nat} (hg : groupLo a = some lo) (hs : ∀ sh, SMap.get x.bus.rd none m = some sh → sh.tag ≠ lo) :
    x.regTake r m a = (x.inc F.GLOBAL_SHADOW_MISS_COUNT, x.view r a) := by
  have hsh : x.shadowed m a = none := by
    unfold Dev.shadowed
    rw [hg]
    cases h : SMap.get x.bus.rd none m with
    | none => rfl
    | some sh => exact if_neg (by simpa using hs sh h)
  unfold Dev.regTake
  rw [hg, hsh]

end

/-- Outside the PWR window an access of a master other than the safety port changes nothing before its register. -/
theorem beforeAccess_direct (d : Dev) {m a : Nat} (n : Nat) (ha : inPwr a = false) (hm : m ≠ 1) : d.beforeAccess m a n = d := by
  unfold Dev.beforeAccess Dev.linkUse
  rw [viaInd_of d m a hm, ha]
  rfl

/-- What the reading of the LO word at `a` latches. -/
def Dev.latched (d : Dev) (a : Nat) : Shadow :=
  ⟨a, (if a == R.TIME_DTIME_LO then [a + 4, a + 8] else [a + 4]).map (fun x => (x, d.viewAt x))⟩

section
variable (d : Dev) (m a : Nat)

theorem latch_rd : (d.latch m a).bus.rd = SMap.set d.bus.rd none m (some (d.latched a)) := rfl

theorem latch_own : ∃ sh, SMap.get (d.latch m a).bus.rd none m = some sh ∧ sh.tag = a
    ∧ (a ≠ R.TIME_DTIME_LO → sh.vals = [(a + 4, d.viewAt (a + 4))])
    ∧ (a = R.TIME_DTIME_LO → sh.vals = [(a + 4, d.viewAt (a + 4)), (a + 8, d.viewAt (a + 8))]) := by
  refine ⟨d.latched a, (by rw [latch_rd, SMap.get_set_same]), rfl, fun h => ?_, fun h => ?_⟩
  · simp [Dev.latched, h]
  · subst h
    rfl

theorem latch_other {k : Nat} (h : k ≠ m) : SMap.get (d.latch m a).bus.rd none k = SMap.get d.bus.rd none k := by
  rw [latch_rd, SMap.get_set_ne _ _ _ _ _ _ (Ne.symm h)]

end

/-- The data of a read goes to no bus of a port, and is muted by nothing. -/
theorem emit_readData (d : Dev) (m a v : Nat) : (d.emit (.readData m a v)).out = .readData m a v :: d.out := rfl

/-- Settles O52: a read is `Dev.regTake` (`loWordRead_takes`), and each clause names one of its three cases. -/
theorem readShadow : Obligations.ReadShadow := by
  refine ⟨fun s m a r x hp hl hx hr => ?read, ?latch, fun d => ?miss, fun d m a v _ => emit_readData d m a v⟩
  case read =>
    have hdef := regAt_regDef hr
    have hnot : ∀ {lo}, groupLo a = some lo → indWindow a = false := fun hg => Bool.eq_false_iff.mpr fun hi => by
      rw [(indWindow_single hi).1] at hg
      cases hg
    refine ⟨fun hw hg d0 hd => ?_, fun lo sh v hg hs ht hv => ?_, fun lo hg hs => ?_, fun ha hm => hx.trans (beforeAccess_direct _ _ ha hm)⟩
    · have hi : indWindow a = false := Bool.eq_false_iff.mpr fun hi => (indWindow_single hi).2 (by rw [hdef, Option.map_some, hw])
      rw [loWordRead_takes hp hl hx hr hi, regTake_latches hw hg (rcMask_loWord hdef hw) hd]
    · rw [loWordRead_takes hp hl hx hr (hnot hg), regTake_held hg hs ht hv]
    · rw [loWordRead_takes hp hl hx hr (hnot hg), regTake_misses hg hs]
  case latch => exact fun d m a => ⟨latch_own d m a, fun k => latch_other d m a, rfl, rfl⟩
  case miss =>
    exact ⟨get_inc_same d F.GLOBAL_SHADOW_MISS_COUNT (by decide),
      only_inc F.GLOBAL_SHADOW_MISS_COUNT (List.mem_singleton_self _) (by decide) (only_refl _ _)⟩

/-! ### Writes (R442, R446) -/

/-- A device whose domains are all ready. -/
def powered : Dev :=
  { Dev.reset with regs := [(0x1030000, 0x3FFF3FFF)], pwr := { PwrSt.init with logicUp := true, inh0 := true, inh1 := true } }

/-- A write of `IND_ADDR` sets the master's own address of indirect access. -/
theorem hiWordWrite_indAddr : exec (.hiWordWrite 3 R.GLOBAL_IND_ADDR 4) ⟨[], powered⟩ = .next ⟨[], (powered.indAddrWrite 3 4).settle⟩ :=
  next_settle_congr ⟨[], powered⟩ (write_silent (by decide +kernel) (busWrite_indAddr (by decide +kernel) 3 4 (by decide +kernel)) (.inl (by decide)))

/-- Refutes O53: `IND_ADDR` is a register with no LO word whose writes are permitted, yet what it holds is a master's own (R446), so a write of
it is none of the register at that address. -/
theorem not_writeShadow : ¬ Obligations.WriteShadow := by
  intro h
  have hopen : powered.opens 3 R.GLOBAL_IND_ADDR := by unfold Dev.opens; decide +kernel
  have hdef : regDef R.GLOBAL_IND_ADDR = some ⟨R.GLOBAL_IND_ADDR, [], [⟨2, 24, .rw, 0, .any⟩, ⟨28, 1, .rw, 0, .any⟩, ⟨29, 1, .rw, 0, .any⟩], false⟩ := by
    decide +kernel
  have hplain := (h.1 ⟨[], powered⟩ 3 R.GLOBAL_IND_ADDR 4 _ _ hopen hdef rfl).2.1 rfl (by decide +kernel)
  rw [hiWordWrite_indAddr] at hplain
  have hdev := congrArg (fun o => match o with
    | Host.Outcome.next (t : State) => t.dev.indAddr 3
    | _ => 0) hplain
  revert hdev
  decide +kernel

end Sys2Proof.Machine
end

section
/-!
PROOF. The common fault page (R457 to R465): captures, the window of counted events, severe occurrences and BLOCK resets.
-/
namespace Sys2Proof.Machine

/-! ### First-error capture (R459) -/

/-- What FEC_INFO shows of an access that bit `i` has met. -/
def fecInfo (i : Nat) (a : Access) : Nat :=
  1 + 2 * (a.master % 8) + 16 * (a.kind % 8) + 128 * b2n a.domOff + 256 * (i % 32) + 65536 * (a.seq % 65536)

/-- The registers of a capture that is taken. -/
def Dev.captured (d : Dev) (b i : Nat) (a : Access) : Dev :=
  ((d.setReg (R.FLT_FEC_INFO b) (fecInfo i a)).setReg (R.FLT_FEC_ADDR b) (a.addr % 2 ^ 32)).set (F.FLT_FEC_TIME_TIME b) (d.blockTime b)

theorem b2n_lt (x : Bool) : b2n x < 2 := by
  cases x
  · exact Nat.two_pos
  · exact Nat.one_lt_two

theorem fecInfo_fields (i : Nat) (a : Access) : fecInfo i a < 2 ^ 32 ∧ bf (fecInfo i a) 0 1 = 1 ∧ bf (fecInfo i a) 1 3 = a.master % 8
    ∧ bf (fecInfo i a) 4 3 = a.kind % 8 ∧ bf (fecInfo i a) 7 1 = b2n a.domOff ∧ bf (fecInfo i a) 8 5 = i % 32 ∧ bf (fecInfo i a) 16 16 = a.seq % 65536 := by
  have ho := b2n_lt a.domOff
  unfold fecInfo bf
  omega

section
variable (d : Dev) (b : Nat) (i : Nat) (a : Access)

theorem capture_lost (h : d.flag (F.FLT_FEC_INFO_VALID b) = true) : d.capture b i a = (d.inc (F.FLT_FEC_LOST_COUNT b), false) := if_pos h

theorem capture_taken (h : d.flag (F.FLT_FEC_INFO_VALID b) = false) :
    d.capture b i a = ((d.captured b i a).event61 0x01 b i (a.master % 8 + 8 * (a.kind % 8) + 64 * b2n a.domOff) 0 (leBytes 4 a.addr ++ leBytes 2 a.seq), true) :=
  if_neg (ne_true_of_eq_false h)

theorem captured_info (lo w : Nat) (hw : lo + w ≤ 32) : (d.captured b i a).get ⟨R.FLT_FEC_INFO b, lo, w⟩ = bf (fecInfo i a) lo w := by
  have htime : (F.FLT_FEC_TIME_TIME b).addr = R.FLT_FEC_INFO b + 8 := rfl
  have haddr : R.FLT_FEC_ADDR b = R.FLT_FEC_INFO b + 4 := rfl
  unfold Dev.captured
  rw [get_set_far _ _ _ _ (by rw [htime]; dsimp only; omega), get_eq, setReg_regs, setReg_regs, rget, if_pos hw,
    rreg_rput_ne _ _ _ _ (by dsimp only; omega), rreg_rput_same, Nat.mod_eq_of_lt (fecInfo_fields i a).1]

theorem captured_fields : (d.captured b i a).flag (F.FLT_FEC_INFO_VALID b) = true ∧ (d.captured b i a).get (F.FLT_FEC_INFO_MASTER b) = a.master % 8
    ∧ (d.captured b i a).get (F.FLT_FEC_INFO_ACCESS b) = a.kind % 8 ∧ (d.captured b i a).flag (F.FLT_FEC_INFO_DOMAIN_OFF b) = a.domOff
    ∧ (d.captured b i a).get (F.FLT_FEC_INFO_BIT b) = i % 32 ∧ (d.captured b i a).get (F.FLT_FEC_INFO_SEQ b) = a.seq % 65536 := by
  obtain ⟨_, hvalid, hmaster, hkind, hoff, hbit, hseq⟩ := fecInfo_fields i a
  refine ⟨?valid, (captured_info d b i a 1 3 (by decide)).trans hmaster, (captured_info d b i a 4 3 (by decide)).trans hkind, ?off,
    (captured_info d b i a 8 5 (by decide)).trans hbit, (captured_info d b i a 16 16 (by decide)).trans hseq⟩
  case valid => exact beq_iff_eq.mpr ((captured_info d b i a 0 1 (by decide)).trans hvalid)
  case off =>
    have hget : (d.captured b i a).get (F.FLT_FEC_INFO_DOMAIN_OFF b) = b2n a.domOff := (captured_info d b i a 7 1 (by decide)).trans hoff
    unfold Dev.flag
    rw [hget]
    cases a.domOff <;> rfl

/-- A happening that the owning chapter counts is counted once, whether or not its capture is taken. -/
theorem faultCapture_counted : d.faultCapture b i a true = ((d.fltSet b i).capture b i a).1.countEvent b i := by
  unfold Dev.faultCapture
  simp only [Bool.true_or, if_true]

theorem faultCapture_lost (h : (d.fltSet b i).flag (F.FLT_FEC_INFO_VALID b) = true) :
    d.faultCapture b i a false = (d.fltSet b i).inc (F.FLT_FEC_LOST_COUNT b) := by
  unfold Dev.faultCapture
  rw [capture_lost _ b i a h]
  rfl

end

/-! ### The window (R461) -/

section
variable (d : Dev) (b : Nat)

theorem atLeastOne_pos (x : Nat) : 1 ≤ atLeastOne x := by
  unfold atLeastOne
  split
  · exact Nat.le_refl 1
  · next h => exact Nat.one_le_iff_ne_zero.mpr (by simpa using h)

theorem winMs_bounds : 1 ≤ d.winMs b ∧ d.winMs b ≤ 60000 :=
  ⟨Nat.le_min.mpr ⟨by decide, atLeastOne_pos _⟩, Nat.min_le_left _ _⟩

theorem winMs_exact (h0 : d.get (F.FLT_WIN_CFG_WINDOW_MS b) ≠ 0) (h1 : d.get (F.FLT_WIN_CFG_WINDOW_MS b) ≤ 60000) :
    d.winMs b = d.get (F.FLT_WIN_CFG_WINDOW_MS b) := by
  unfold Dev.winMs atLeastOne
  rw [if_neg (by simpa using h0), Nat.min_eq_right h1]

theorem setWin_win (l : List Nat) : (d.setWin b l).win b = l := by
  unfold Dev.win Dev.setWin
  rw [set_flt]
  exact SMap.get_set_same d.flt.wins [] b l

theorem setWin_count {l : List Nat} (h : l.length < 65536) : (d.setWin b l).get (F.FLT_EVT_COUNT_IN_WINDOW b) = l.length := by
  unfold Dev.setWin
  rw [get_set_same _ (F.FLT_EVT_COUNT_IN_WINDOW b) l.length (of_decide_eq_true rfl)]
  exact Nat.mod_eq_of_lt h

end

section
variable (s : State) (b : Fin 66)

theorem windowEventExpiry_idle (hq : s.dev.quiet) (h : s.dev.win b = []) : exec (.windowEventExpiry b) s = .next s := by
  refine next_settle_of_eq hq ?_
  unfold Dev.winExpire
  rw [h]

theorem windowEventExpiry_oldest {t : Nat} {l : List Nat} (h : s.dev.win b = t :: l) :
    exec (.windowEventExpiry b) s = .next { s with dev := ((s.dev.reach t).setWin b l).settle } := by
  refine next_settle_congr s ?_
  unfold Dev.winExpire
  rw [h]

end

/-! ### Severe occurrences (R463) -/

/-- A severe occurrence before its reactions. -/
def Dev.severed (d : Dev) (b : Nat) : Dev := (((d.fltSet b 30).inc (F.FLT_SEV_COUNT_COUNT b)).inc F.TEST_SEV_TOTAL_COUNT).setWin b []

section
variable (d : Dev) (b i : Nat)

theorem severe_eventOnly (h : d.get (F.FLT_REACT_REACT b) = 0) :
    d.severe b i = (d.severed b).event61 0x02 b i 56 0 (leBytes 2 (d.winN b) ++ leBytes 2 (d.winMs b)) := by
  unfold Dev.severe Dev.severed
  simp [h, bit, accNone]

theorem severe_irq (h : d.get (F.FLT_REACT_REACT b) = 1) :
    d.severe b i = ((d.severed b).event61 0x02 b i 56 1 (leBytes 2 (d.winN b) ++ leBytes 2 (d.winMs b))).fltIrq b := by
  unfold Dev.severe Dev.severed
  simp [h, bit, accNone]

theorem severe_isolate (h : d.get (F.FLT_REACT_REACT b) = 2) :
    d.severe b i = ((d.severed b).isolate b).event61 0x02 b i 56 2 (leBytes 2 (d.winN b) ++ leBytes 2 (d.winMs b)) := by
  unfold Dev.severe Dev.severed
  simp [h, bit, accNone]

theorem severe_faultN (h : d.get (F.FLT_REACT_REACT b) = 4) :
    d.severe b i = ((d.severed b).fnHold b true).event61 0x02 b i 56 4 (leBytes 2 (d.winN b) ++ leBytes 2 (d.winMs b)) := by
  unfold Dev.severe Dev.severed
  simp [h, bit, accNone]

theorem isolate_idle (h : d.isolated b = true ∨ notIsolable b = true) : d.isolate b = d := by
  unfold Dev.isolate
  exact if_pos (by simpa using h)

end

/-! ### BLOCK resets (R465) -/

section
variable (s : State) (b : Fin 66)

theorem blockResetDone_idle (hq : s.dev.quiet) (h : s.dev.flag (F.FLT_BLOCK_CTRL_RESET b) = false) : exec (.blockResetDone b) s = .next s :=
  next_settle_of_eq hq (by simp [Dev.blockResetDone, h])

variable (h : s.dev.flag (F.FLT_BLOCK_CTRL_RESET b) = true)
include h

theorem blockResetDone_whole (hu : s.dev.get (F.FLT_BLOCK_CTRL_UNIT b) = 0) :
    exec (.blockResetDone b) s = .next { s with dev := (s.dev.blockReset b).settle } :=
  next_settle_congr s (by simp [Dev.blockResetDone, h, hu])

theorem blockResetDone_unit {u : Nat} (hu : s.dev.get (F.FLT_BLOCK_CTRL_UNIT b) = u + 1) :
    exec (.blockResetDone b) s = .next { s with dev := ((s.dev.seqReset u).set (F.FLT_BLOCK_CTRL_RESET b) 0).settle } :=
  next_settle_congr s (by simp [Dev.blockResetDone, h, hu])

end

/-- A BLOCK reset ends by clearing its own request and the block's isolation. -/
theorem blockReset_ends (d : Dev) (b : Nat) :
    ∃ x : Dev, d.blockReset b = (x.set (F.FLT_FAULT_STATUS_ISOLATED b) 0).set (F.FLT_BLOCK_CTRL_RESET b) 0 := ⟨_, rfl⟩

theorem blockReset_flags (d : Dev) (b : Fin 66) :
    (d.blockReset b).flag (F.FLT_BLOCK_CTRL_RESET b) = false ∧ (d.blockReset b).flag (F.FLT_FAULT_STATUS_ISOLATED b) = false := by
  have hapart : FieldRef.apart (F.FLT_BLOCK_CTRL_RESET b) (F.FLT_FAULT_STATUS_ISOLATED b) = true := by revert b; decide +kernel
  obtain ⟨x, hx⟩ := blockReset_ends d b
  rw [hx, flag_set_apart _ _ hapart]
  exact ⟨flag_set_zero _ _ rfl (of_decide_eq_true rfl), flag_set_zero _ _ rfl (of_decide_eq_true rfl)⟩

/-- Settles O55: the page's operations one by one, each with its cases. -/
theorem faultAccounting : Obligations.FaultAccounting := by
  refine ⟨capture_lost, ?taken, ?flagged, fun d b i a => ⟨faultCapture_counted d b i a, faultCapture_lost d b i a⟩, ?bounds, ?counted, ?severe,
    fun d b => isolate_idle d b, fun d b l h => ⟨setWin_win d b l, setWin_count d b h⟩,
    fun s b => ⟨windowEventExpiry_idle s b, fun t l => windowEventExpiry_oldest s b⟩, ?reset⟩
  case taken =>
    rintro d b i a e h rfl
    exact ⟨capture_taken d b i a h, captured_fields d b i a⟩
  case flagged =>
    exact fun d b m a => ⟨rfl, fun h => if_neg (ne_true_of_eq_false h), fun h => if_pos h⟩
  case bounds =>
    exact fun d b => ⟨(winMs_bounds d b).1, (winMs_bounds d b).2, atLeastOne_pos _, winMs_exact d b⟩
  case counted =>
    rintro d d1 b i l rfl rfl
    exact ⟨fun h => if_neg (Nat.not_le.mpr h), fun h => if_pos h⟩
  case severe =>
    rintro d d1 b i rfl
    exact ⟨severe_eventOnly d b i, severe_irq d b i, severe_isolate d b i, severe_faultN d b i⟩
  case reset =>
    exact fun s b => ⟨blockResetDone_idle s b, fun h => ⟨blockResetDone_whole s b h, fun u => blockResetDone_unit s b h⟩, blockReset_flags s.dev b⟩

end Sys2Proof.Machine
end

section
/-!
PROOF. Firmware updates (R482 to R493): the ring-59 operations, staging, activation and the flash writes behind them.
-/
namespace Sys2Proof.Machine

/-! ### How an operation ends -/

section
variable (d : Dev) (o : Op)

theorem fwEnd_ok : d.fwEnd o errOk = d.opDone o := rfl

theorem fwEnd_error {e : Nat} (h : e ≠ errOk) : d.fwEnd o e = (d.lastErr e).opFail o e := if_neg (by simpa using h)

end

theorem fwNext_unserved {d : Dev} (k : Nat) (h : d.fwServed = false) : d.fwNext k = none := if_pos (by rw [h]; rfl)

/-! ### FW_PIECE (R491) -/

section
variable {s : State} {o : Op} (ho : s.dev.fwNext 0x50 = some o) {n : Nat} (hn : n = leNat (s.dev.hostRead (o.param + 8) 2))
include ho hn

theorem fwPiece_length (h : n < 21 ∨ 1024 < n) : exec .fwPiece s = .next { s with dev := ((s.dev.lastErr errFormat).opFail o errFormat).settle } := by
  refine next_settle_congr s ?_
  unfold Dev.fwPiece
  rw [show opFwPiece = 0x50 from rfl, ho]
  dsimp only
  rw [← hn, if_pos (by simpa using h)]
  exact fwEnd_error _ _ (by decide)

theorem fwPiece_taken (h1 : 21 ≤ n) (h2 : n ≤ 1024) {p : Dev × Nat} (hp : p = s.dev.pieceTake (s.dev.hostRead (leNat (s.dev.hostRead o.param 8)) n)) :
    exec .fwPiece s = .next { s with dev := (p.1.fwEnd o p.2).settle } := by
  refine next_settle_congr s ?_
  unfold Dev.fwPiece
  rw [show opFwPiece = 0x50 from rfl, ho]
  dsimp only
  rw [← hn, if_neg (by simp; omega), ← hp]

end

section
variable {d : Dev} {b : List Byte}

theorem pieceTake_crc (h : beNat (slice b (b.length - 4) 4) ≠ crc32 (b.take (b.length - 4))) :
    d.pieceTake b = ((d.inc F.BOOT_PIECE_CRC_FAIL_COUNT).lastErr errFormat, errFormat) := if_pos (by simpa using h)

variable (h : beNat (slice b (b.length - 4) 4) = crc32 (b.take (b.length - 4)))
include h

theorem pieceTake_form (hf : pieceForm b = none) : d.pieceTake b = (d.lastErr errFormat, errFormat) := by
  unfold Dev.pieceTake
  rw [if_neg (by simpa using h), hf]

theorem pieceTake_session {off : Nat} {bs : List Byte} {last : Bool} {ses : Nat} (hf : pieceForm b = some (off, bs, last, ses)) (hs : d.stage ≠ 0)
    (hne : d.boot.session ≠ ses) : d.pieceTake b = (d.lastErr errBusy, errBusy) := by
  unfold Dev.pieceTake
  rw [if_neg (by simpa using h), hf]
  exact if_pos (by simp [hs, hne])

end

/-! ### Staging data (R485) -/

section
variable {d : Dev} {off : Nat} {bs : List Byte} {ses : Option Nat}

theorem stageData_idle (ho : off ≠ 0) (hs : d.stage = 0) : d.stageData off bs ses = (d.lastErr errBusy, errBusy) := by
  unfold Dev.stageData
  simp [ho, hs, errBusy, errOk]

theorem stageData_format (ho : off = 0) (hf : hdFormat (bs.take 256) = false) : d.stageData off bs ses = (d.lastErr errFormat, errFormat) := by
  unfold Dev.stageData
  simp [ho, hf, errFormat, errOk]

theorem stageData_untrusted (ho : off = 0) (hf : hdFormat (bs.take 256) = true) (ht : d.hdTrust (bs.take 256) ≠ errOk) :
    d.stageData off bs ses = (d.lastErr (d.hdTrust (bs.take 256)), d.hdTrust (bs.take 256)) := by
  unfold Dev.stageData
  simp [ho, hf, ht]

end

/-! ### FW_QUERY, FW_ACTIVATE and FW_CANCEL (R488, R492, R493) -/

section
variable {s : State} {o : Op}

theorem fwQuery_answers (ho : s.dev.fwNext 0x51 = some o) :
    exec .fwQuery s = .next { s with dev := ((s.dev.hostWrite (leNat (s.dev.hostRead o.param 8)) (s.dev.queryRecord leBytes)).opDone o).settle } := by
  refine next_settle_congr s ?_
  unfold Dev.fwQuery
  rw [show opFwQuery = 0x51 from rfl, ho]

section
variable (ho : s.dev.fwNext 0x52 = some o)
include ho

theorem fwActivate_waits (hq : s.dev.quiet) (hb : s.dev.flag F.SUPV_SUPPLY_STATUS_BOH = true) (hs : s.dev.stage = 3) : exec .fwActivate s = .next s := by
  refine next_settle_of_eq hq ?_
  unfold Dev.fwActivate
  rw [show opFwActivate = 0x52 from rfl, ho]
  exact if_pos (by simp [hb, hs])

variable (h : s.dev.flag F.SUPV_SUPPLY_STATUS_BOH = false ∨ s.dev.stage ≠ 3) {p : Dev × Nat} (hp : p = (s.dev.startOp o).activate (some o.idx))
include h hp

theorem fwActivate_starts (he : p.2 = errOk) : exec .fwActivate s = .next { s with dev := p.1.settle } := by
  refine next_settle_congr s ?_
  unfold Dev.fwActivate
  rw [show opFwActivate = 0x52 from rfl, ho]
  dsimp only
  rw [if_neg (by rcases h with h | h <;> simp [h]), ← hp]
  exact if_pos (by simpa using he)

theorem fwActivate_fails (he : p.2 ≠ errOk) : exec .fwActivate s = .next { s with dev := (p.1.opFail { o with state := .running } p.2).settle } := by
  refine next_settle_congr s ?_
  unfold Dev.fwActivate
  rw [show opFwActivate = 0x52 from rfl, ho]
  dsimp only
  rw [if_neg (by rcases h with h | h <;> simp [h]), ← hp]
  exact if_neg (by simpa using he)

end

section
variable {d : Dev} (op : Option Nat)

theorem activate_unverified (h : d.stage ≠ 3) : d.activate op = (d.lastErr errBusy, errBusy) := if_pos (by simpa using h)

theorem activate_recheckFails (h : d.stage = 3) (he : d.recheck ≠ errOk) :
    d.activate op = ((d.stageIdle.journalWrite 0 0).lastErr d.recheck, d.recheck) := by
  unfold Dev.activate
  rw [if_neg (by simpa using h)]
  exact if_pos (by simpa using he)

theorem activate_copies (h : d.stage = 3) (he : d.recheck = errOk) {d1 : Dev}
    (hd : d1 = ((d.set F.BOOT_STATUS_STAGE_STATE 4).set F.BOOT_COPY_NEXT_NEXT 0).journalWrite 4 0) :
    d.activate op = (Dev.flashKick { d1 with boot := { d1.boot with ops := [.copy 0 false], copyOp := op } }, errOk) := by
  unfold Dev.activate
  rw [if_neg (by simpa using h), hd]
  exact if_neg (by simpa using he)

end

section
variable (d : Dev)

theorem stageCancel_copying (h : d.stage = 4) : d.stageCancel = (d.lastErr errBusy, errBusy) := if_pos (by simpa using h)

theorem stageCancel_idles (h : d.stage ≠ 4) : d.stageCancel = (d.stageIdle.journalWrite 0 0, errOk) := if_neg (by simpa using h)

theorem stageIdle_stage : d.stageIdle.stage = 0 := by
  unfold Dev.stage Dev.stageIdle
  dsimp only
  rw [get_set_apart _ _ (by decide), get_setReg_ne _ _ _ _ (by decide), get_set_apart _ _ (by decide), get_set_apart _ _ (by decide)]
  exact get_set_same _ F.BOOT_STATUS_STAGE_STATE 0 (by decide)

theorem stageIdle_boot : d.stageIdle.boot
    = { d.boot with asm := [], hdr := [], hash := [], session := 0, recorded := 0, signed := false, ops := [] } := by
  unfold Dev.stageIdle
  simp only [set_boot, setReg_boot]

end

section
variable (ho : s.dev.fwNext 0x53 = some o)
include ho

theorem fwCancel_waits (hq : s.dev.quiet) (hb : s.dev.flag F.SUPV_SUPPLY_STATUS_BOH = true) (hs : s.dev.stage ≠ 4) : exec .fwCancel s = .next s := by
  refine next_settle_of_eq hq ?_
  unfold Dev.fwCancel
  rw [show opFwCancel = 0x53 from rfl, ho]
  exact if_pos (by simp [hb, hs])

theorem fwCancel_copying (hs : s.dev.stage = 4) :
    exec .fwCancel s = .next { s with dev := (((s.dev.lastErr errBusy).lastErr errBusy).opFail o errBusy).settle } := by
  refine next_settle_congr s ?_
  unfold Dev.fwCancel
  rw [show opFwCancel = 0x53 from rfl, ho]
  dsimp only
  rw [if_neg (by simp [hs]), stageCancel_copying _ hs]
  exact fwEnd_error _ _ (of_decide_eq_true (by rfl : decide (errBusy ≠ errOk) = true))

theorem fwCancel_idles (hb : s.dev.flag F.SUPV_SUPPLY_STATUS_BOH = false) (hs : s.dev.stage ≠ 4) :
    exec .fwCancel s = .next { s with dev := ((s.dev.stageIdle.journalWrite 0 0).opDone o).settle } := by
  refine next_settle_congr s ?_
  unfold Dev.fwCancel
  rw [show opFwCancel = 0x53 from rfl, ho]
  dsimp only
  rw [if_neg (by simp [hb]), stageCancel_idles _ hs]
  dsimp only
  rw [fwEnd_ok]

end

end

/-- A firmware operation whose turn it is not does nothing. -/
theorem fwOps_idle {s : State} (hq : s.dev.quiet) :
    (s.dev.fwNext 0x50 = none → exec .fwPiece s = .next s) ∧ (s.dev.fwNext 0x51 = none → exec .fwQuery s = .next s)
      ∧ (s.dev.fwNext 0x52 = none → exec .fwActivate s = .next s) ∧ (s.dev.fwNext 0x53 = none → exec .fwCancel s = .next s) := by
  refine ⟨fun h => ?piece, fun h => ?query, fun h => ?activate, fun h => ?cancel⟩
  case piece => exact next_settle_of_eq hq (by unfold Dev.fwPiece; rw [show opFwPiece = 0x50 from rfl, h])
  case query => exact next_settle_of_eq hq (by unfold Dev.fwQuery; rw [show opFwQuery = 0x51 from rfl, h])
  case activate => exact next_settle_of_eq hq (by unfold Dev.fwActivate; rw [show opFwActivate = 0x52 from rfl, h])
  case cancel => exact next_settle_of_eq hq (by unfold Dev.fwCancel; rw [show opFwCancel = 0x53 from rfl, h])

/-! ### Flash writes (R488) -/

/-- The activation's operation shows the sectors copied, where the activation has one. -/
def Dev.copyShown (d : Dev) (k : Nat) : Dev :=
  match d.copyOp with
  | some o => d.setOp { o with progress := k + 1 }
  | none => d

/-- The copy of a sector has been verified: the activation ends, or goes on with the next. -/
def Dev.copyGoesOn (d : Dev) (k : Nat) : Dev :=
  if d.get F.BOOT_STAGE_SECTORS_TOTAL ≤ k + 1 then d.copyDone true
  else Dev.flashNext { d with boot := { d.boot with ops := [.copy (k + 1) false] } }

/-- An activation ends where a sector could not be copied. -/
def Dev.copyStopped (d : Dev) : Dev :=
  let d1 := match d.copyOp with
    | some o => d.opFail o errInternal
    | none => d
  { d1 with boot := { d1.boot with copyOp := none } }

theorem flashOp_idle {d : Dev} (ok : Bool) (h : d.flag F.BOOT_STATUS_FLASH_PAUSED = true ∨ d.ready 13 = false ∨ d.boot.ops = []) : d.flashOp ok = d := by
  unfold Dev.flashOp
  by_cases hg : (d.flag F.BOOT_STATUS_FLASH_PAUSED || !d.ready 13) = true
  · exact if_pos hg
  · have hops : d.boot.ops = [] := by
      rcases h with h | h | h
      · exact absurd (by simp [h]) hg
      · exact absurd (by simp [h]) hg
      · exact h
    rw [if_neg hg, hops]

section
variable {d : Dev} (hp : d.flag F.BOOT_STATUS_FLASH_PAUSED = false) (hr : d.ready 13 = true) {l : List FlashOp} {d0 : Dev}
  (h0 : d0 = { d with boot := { d.boot with ops := l } }) {k : Nat}
include hp hr h0

section
variable {data : List Byte} {again : Bool}

theorem flashOp_staged (hops : d.boot.ops = .stage k data again :: l) : d.flashOp true = (d0.sectorRecorded k data).flashNext := by
  unfold Dev.flashOp
  rw [if_neg (by simp [hp, hr]), hops, h0]
  rfl

variable {d1 : Dev} (h1 : d1 = d0.inc F.BOOT_FLASH_ERR_COUNT)
include h1

theorem flashOp_stageAgain (hops : d.boot.ops = .stage k data false :: l) :
    d.flashOp false = Dev.flashNext { d1 with boot := { d1.boot with ops := .stage k data true :: l } } := by
  unfold Dev.flashOp
  rw [if_neg (by simp [hp, hr]), hops, h1, h0]
  rfl

theorem flashOp_stageGivenUp (hops : d.boot.ops = .stage k data true :: l) :
    d.flashOp false = (Dev.fault { d1 with boot := { d1.boot with asm := SMap.del d1.boot.asm k } } blkBoot 1).flashNext := by
  unfold Dev.flashOp
  rw [if_neg (by simp [hp, hr]), hops, h1, h0]
  rfl

end

theorem flashOp_copied {again : Bool} (hops : d.boot.ops = .copy k again :: l) :
    d.flashOp true = ((d0.copySector k).copyShown k).copyGoesOn k := by
  unfold Dev.flashOp
  rw [if_neg (by simp [hp, hr]), hops]
  subst h0
  simp only [if_true, Dev.copyGoesOn, Dev.copyShown]
  generalize Dev.copySector _ k = x
  rfl

section
variable {d1 : Dev} (h1 : d1 = d0.inc F.BOOT_FLASH_ERR_COUNT)
include h1

theorem flashOp_copyAgain (hops : d.boot.ops = .copy k false :: l) :
    d.flashOp false = Dev.flashNext { d1 with boot := { d1.boot with ops := [.copy k true] } } := by
  unfold Dev.flashOp
  rw [if_neg (by simp [hp, hr]), hops, h1, h0]
  rfl

theorem flashOp_copyGivenUp (hops : d.boot.ops = .copy k true :: l) : d.flashOp false = ((d1.fault blkBoot 1).lastErr errInternal).copyStopped := by
  unfold Dev.flashOp
  rw [if_neg (by simp [hp, hr]), hops, h1, h0]
  simp only [Bool.false_eq_true, if_false, Dev.flashFailed, Dev.copyStopped] <;> rfl

end

end

theorem copyStopped_op {d : Dev} {o : Op} (ho : d.copyOp = some o) :
    d.copyStopped = { d.opFail o errInternal with boot := { (d.opFail o errInternal).boot with copyOp := none } } := by
  unfold Dev.copyStopped
  rw [ho]

theorem copyShown_of {d2 d3 : Dev} {k : Nat}
    (h : d2.copyOp = none ∧ d3 = d2 ∨ ∃ o, d2.copyOp = some o ∧ d3 = d2.setOp { o with progress := k + 1 }) : d3 = d2.copyShown k := by
  unfold Dev.copyShown
  obtain ⟨hn, rfl⟩ | ⟨o, ho, rfl⟩ := h
  · rw [hn]
  · rw [ho]

/-- Settles O56: each operation by its cases, and the flash write in progress by its kind, its result and whether it is a second try. -/
theorem firmwareUpdate : Obligations.FirmwareUpdate := by
  refine ⟨fun _ => rfl, fun d k => fwNext_unserved k, fun s => fwOps_idle, fun s o n ho hn => ⟨fwPiece_length ho hn, ?piece⟩,
    fun d b => ⟨pieceTake_crc, fun h => ⟨pieceTake_form h, fun off bs last ses => pieceTake_session h⟩⟩,
    fun d off bs ses => ⟨stageData_idle, stageData_format, stageData_untrusted⟩, fun s o => fwQuery_answers,
    fun s o ho => ⟨fwActivate_waits ho, fun p h hp => ⟨fwActivate_starts ho h hp, fwActivate_fails ho h hp⟩⟩,
    fun d op => ⟨activate_unverified op, activate_recheckFails op, fun d1 h he hd => activate_copies op h he hd⟩, ?cancel,
    fun s o ho => ⟨fwCancel_waits ho, fwCancel_copying ho, fwCancel_idles ho⟩, fun s ok hq h => next_settle_of_eq hq (flashOp_idle ok h), ?flash⟩
  case piece =>
    intro p h1 h2 hp
    rw [fwPiece_taken ho hn h1 h2 hp]
    exact ⟨fun he => by rw [he, fwEnd_ok], fun he => by rw [fwEnd_error _ _ he]⟩
  case cancel =>
    intro d
    have hboot := stageIdle_boot d
    exact ⟨stageCancel_copying d, stageCancel_idles d, stageIdle_stage d, by rw [hboot], by rw [hboot], by rw [hboot]⟩
  case flash =>
    intro s l d0 d1 hp hr h0 h1
    refine ⟨fun k data again hops => ⟨?recorded, ?stageAgain, ?stageGivenUp⟩, fun k again d2 d3 hops h2 h3 => ⟨?ends, ?next, ?copyAgain, ?copyGivenUp⟩⟩
    case recorded => exact next_settle_congr s (flashOp_staged hp hr h0 hops)
    case stageAgain =>
      rintro rfl
      exact next_settle_congr s (flashOp_stageAgain hp hr h0 h1 hops)
    case stageGivenUp =>
      rintro rfl
      exact next_settle_congr s (flashOp_stageGivenUp hp hr h0 h1 hops)
    case ends =>
      intro hk
      rw [copyShown_of h3, h2] at hk ⊢
      exact next_settle_congr s ((flashOp_copied hp hr h0 hops).trans (if_pos hk))
    case next =>
      intro hk
      rw [copyShown_of h3, h2] at hk ⊢
      exact next_settle_congr s ((flashOp_copied hp hr h0 hops).trans (if_neg (Nat.not_le.mpr hk)))
    case copyAgain =>
      rintro rfl
      exact next_settle_congr s (flashOp_copyAgain hp hr h0 h1 hops)
    case copyGivenUp =>
      rintro o e rfl he ho
      rw [he] at ho ⊢
      exact next_settle_congr s ((flashOp_copyGivenUp hp hr h0 h1 hops).trans (copyStopped_op ho))

end Sys2Proof.Machine
end

section
/-!
PROOF. Domains, the logic die's start and tile B (R496 to R510): how they come and go.
-/
namespace Sys2Proof.Machine

/-! ### A domain becomes ready (R499, R500) -/

/-- A domain that switches on shows READY. -/
def Dev.domainShown (d : Dev) (n : Nat) : Dev :=
  Dev.setBitOf { d with pwr := { d.pwr with goingOn := setBit d.pwr.goingOn (n - 1) false } } F.SUPV_PD_STATUS_READY (n - 1) true

/-- The blocks of a domain take their Reset values. -/
def Dev.blocksUp (d : Dev) (n : Nat) : Dev :=
  (domainBlocks n).foldl (fun d k => if k == blkNm then d.nmPowerUp else if k == blkCry then d.cryPowerUp else d.blockReset k) d

/-- What a ready domain starts beside its blocks. -/
def Dev.domainFollow (d : Dev) (n : Nat) : Dev :=
  if n == 3 then { d with pwr := { d.pwr with tileBCopy := true } }
  else if n == 7 then { d.set F.XPT_STATUS_SEQ_READY 0 with xpt := { (d.set F.XPT_STATUS_SEQ_READY 0).xpt with code := [] } }
  else if n == 10 || n == 11 then ((List.range 20).filter (fun p => lineDomain p == n)).foldl (fun (d : Dev) p => d.owe (.tsLink p)) d
  else d

section
variable {d : Dev} {n : Nat}

theorem domainReady_idle (h : n = 0 ∨ bit d.pwr.goingOn (n - 1) = false) : d.domainReady n = d := by
  unfold Dev.domainReady
  exact if_pos (by rcases h with h | h <;> simp [pdBit, h])

theorem domainReady_on (h0 : n ≠ 0) (h : bit d.pwr.goingOn (n - 1) = true) :
    d.domainReady n = (((d.domainShown n).blocksUp n).domainFollow n).pwrState := by
  unfold Dev.domainReady
  exact if_neg (by simp [pdBit, h0, h])

theorem domainFollow_tileB (h : n = 3) : d.domainFollow n = { d with pwr := { d.pwr with tileBCopy := true } } := if_pos (by simp [h])

theorem domainFollow_microcode (h : n = 7) :
    d.domainFollow n = { d.set F.XPT_STATUS_SEQ_READY 0 with xpt := { (d.set F.XPT_STATUS_SEQ_READY 0).xpt with code := [] } } := by
  subst h
  rfl

theorem domainFollow_links (h : n = 10 ∨ n = 11) :
    d.domainFollow n = ((List.range 20).filter (fun p => lineDomain p == n)).foldl (fun (d : Dev) p => d.owe (.tsLink p)) d := by
  unfold Dev.domainFollow
  rw [if_neg (by simp; omega), if_neg (by simp; omega), if_pos (by simpa using h)]

theorem domainFollow_other (h3 : n ≠ 3) (h7 : n ≠ 7) (h10 : n ≠ 10) (h11 : n ≠ 11) : d.domainFollow n = d := by
  unfold Dev.domainFollow
  rw [if_neg (by simpa using h3), if_neg (by simpa using h7), if_neg (by simp [h10, h11])]

end

/-! ### A domain is off (R498, R499) -/

/-- A domain that has switched off shows neither ON nor READY. -/
def Dev.domainHidden (d : Dev) (n : Nat) : Dev :=
  ((Dev.setBitOf { d with pwr := { d.pwr with goingOff := setBit d.pwr.goingOff (n - 1) false, onAfterOff := setBit d.pwr.onAfterOff (n - 1) false } }
    F.SUPV_PD_STATUS_READY (n - 1) false).setBitOf F.SUPV_PD_STATUS_ON (n - 1) false).pwrState

section
variable {d : Dev} {n : Nat}

theorem domainOff_idle (h : n = 0 ∨ bit d.pwr.goingOff (n - 1) = false) : d.domainOff n = d := by
  unfold Dev.domainOff
  exact if_pos (by rcases h with h | h <;> simp [pdBit, h])

variable (h0 : n ≠ 0) (h : bit d.pwr.goingOff (n - 1) = true)
include h0 h

theorem domainOff_stays (ha : bit d.pwr.onAfterOff (n - 1) = false) : d.domainOff n = (d.domainLoss n).domainHidden n := by
  unfold Dev.domainOff
  exact (if_neg (by simp [pdBit, h0, h])).trans (if_neg (ne_true_of_eq_false ha))

theorem domainOff_again (ha : bit d.pwr.onAfterOff (n - 1) = true) : d.domainOff n = ((d.domainLoss n).domainHidden n).domainOn n := by
  unfold Dev.domainOff
  exact (if_neg (by simp [pdBit, h0, h])).trans (if_pos ha)

end

/-! ### Requests (R496, R499) -/

section
variable {d : Dev} {n : Nat}

theorem domainOn_waits (h : bit d.pwr.goingOff (n - 1) = true) :
    d.domainOn n = { d with pwr := { d.pwr with onAfterOff := setBit d.pwr.onAfterOff (n - 1) true } } := by
  unfold Dev.domainOn
  exact if_pos h

variable (h : bit d.pwr.goingOff (n - 1) = false)
include h

theorem domainOn_powered (hp : d.powered n = true) : d.domainOn n = d := by
  unfold Dev.domainOn
  exact (if_neg (ne_true_of_eq_false h)).trans (if_pos hp)

variable (hp : d.powered n = false)
include hp

theorem domainOn_ignored (hn : n ≤ 8) (h2 : n ≠ 2) (hp2 : d.powered 2 = false) : d.domainOn n = d.set F.SUPV_STATUS_CFG_IGNORED 1 := by
  unfold Dev.domainOn
  exact (if_neg (ne_true_of_eq_false h)).trans ((if_neg (ne_true_of_eq_false hp)).trans (if_pos (by simp [hn, h2, hp2])))

theorem domainOn_starts (hn : 8 < n ∨ d.powered 2 = true) :
    d.domainOn n = Dev.setBitOf { d with pwr := { d.pwr with goingOn := setBit d.pwr.goingOn (n - 1) true, policyOff := setBit d.pwr.policyOff (n - 1) false } }
      F.SUPV_PD_STATUS_ON (n - 1) true := by
  unfold Dev.domainOn
  refine (if_neg (ne_true_of_eq_false h)).trans ((if_neg (ne_true_of_eq_false hp)).trans (if_neg ?_))
  rcases hn with hn | hn
  · simp only [Bool.and_eq_true, decide_eq_true_eq, Bool.not_eq_true', bne_iff_ne]
    omega
  · simp [hn]

theorem domainOn_started (hn : 8 < n ∨ d.powered 2 = true) :
    (d.domainOn n).pwr.goingOn = setBit d.pwr.goingOn (n - 1) true ∧ d.regsOnly (d.domainOn n) [R.SUPV_PD_STATUS] := by
  rw [domainOn_starts h hp hn]
  refine ⟨by rw [setBitOf_pwr], ?_⟩
  exact only_setBitOf F.SUPV_PD_STATUS_ON _ _ (List.mem_singleton_self _) (by decide) (only_of (only_refl _ _) rfl)

end

/-! ### The logic die starts (R508, R510) -/

theorem bit_eq_testBit (x i : Nat) : bit x i = x.testBit i := by
  rw [Nat.testBit_eq_decide_div_mod_eq]
  rfl

theorem bit_or_mod {x m i w : Nat} (hi : i < w) (hm : m.testBit i = true) : bit ((x ||| m) % 2 ^ w) i = true := by
  rw [bit_eq_testBit, Nat.testBit_mod_two_pow, Nat.testBit_or, hm]
  simp [hi]

section
variable (d : Dev)

theorem measureReset_pwr : d.measureReset.pwr = d.pwr := by
  show ((d.set F.VAULT_STATUS_MEASURING 1).set F.VAULT_STATUS_COMMITTED 0).pwr = d.pwr
  rw [set_pwr, set_pwr]

theorem mgmtRelease_pwr : d.mgmtRelease.pwr = { d.pwr with wdFed := none } := by
  rw [mgmtRelease_eq, Dev.mgmtHeld, measureReset_pwr, set_pwr, set_pwr]

theorem logicStart_up : d.logicStart.pwr.logicUp = true := by
  unfold Dev.logicStart
  dsimp only
  rw [mgmtRelease_pwr]
  simp only [set_pwr]

theorem logicStart_boot : d.logicStart.get F.BOOT_STATUS_BOOT_STATE = 0 := mgmtRelease_bootState _

theorem logicStart_watchdog : d.logicStart.flag F.SUPV_MGMT_WD_EN = false := mgmtRelease_watchdog _

/-- PD1, PD2 and PD9 are among the ready domains. -/
theorem logicStart_ready {n : Nat} (hn : n - 1 < 14) (hm : Nat.testBit 0x103 (n - 1) = true) : d.logicStart.ready n = true := by
  have hready : ∃ x, d.logicStart.get F.SUPV_PD_STATUS_READY = (x ||| 0x103) % 2 ^ 14 := by
    unfold Dev.logicStart
    dsimp only
    rw [mgmtRelease_get, Dev.mgmtHeld, measureReset_get _ _ (by decide) (by decide)]
    simp (disch := decide) only [get_set_apart]
    exact ⟨_, get_set_same _ F.SUPV_PD_STATUS_READY _ (by decide)⟩
  obtain ⟨x, hx⟩ := hready
  unfold Dev.ready
  rw [hx]
  exact bit_or_mod hn hm

theorem clocksStart_warm (h : d.coldStart = false) : d.clocksStart = d := if_neg (ne_true_of_eq_false h)

theorem reportDue_none (h : d.vault.report = []) : d.reportDue = d := by
  unfold Dev.reportDue
  rw [h, List.foldl_nil, ← h]

theorem reportDue_each {x : Nat × Nat} {l : List (Nat × Nat)} (h : d.vault.report = x :: l) :
    d.reportDue = l.foldl (fun (e : Dev) y => e.zeroReport y.1 y.2) (Dev.zeroReport { d with vault := { d.vault with report := [] } } x.1 x.2) := by
  unfold Dev.reportDue
  rw [h, List.foldl_cons]

theorem railsGood_idle (h : d.pwr.logicUp = true ∨ d.pwr.clkHold = true ∨ d.standby = true ∨ d.pwr.inh0 = false ∨ d.pwr.inh1 = false) : d.railsGood = d := by
  unfold Dev.railsGood
  exact if_pos (by rcases h with h | h | h | h | h <;> simp [h])

theorem railsGood_starts (hu : d.pwr.logicUp = false) (hc : d.pwr.clkHold = false) (hs : d.standby = false) (h0 : d.pwr.inh0 = true) (h1 : d.pwr.inh1 = true) :
    d.railsGood = d.logicStart.clocksStart.domainsStart.reportDue := by
  unfold Dev.railsGood
  exact if_neg (by simp [hu, hc, hs, h0, h1])

theorem inhActive_idle (h : d.pwr.logicUp = true ∨ d.standby = true) : d.inhActive = d := if_pos (by simpa using h)

theorem inhActive_drives (hu : d.pwr.logicUp = false) (hs : d.standby = false) :
    d.inhActive = { d with pwr := { d.pwr with inh0 := true, inh1 := true } } := if_neg (by simp [hu, hs])

end

/-! ### A fault leaves the packet buffer alone -/

section
variable (d : Dev) (b i : Nat)

@[simp] theorem isolate_fwd : (d.isolate b).fwd = d.fwd := by
  have halted : ∀ e : Dev, ((List.range 64).foldl (fun (d : Dev) r => d.set (F.HIF_RING_STATUS_HALTED r) 1) e).fwd = e.fwd :=
    fun e => foldl_keep (fun e : Dev => e.fwd) _ (fun e r => set_fwd _ _ _) _ e
  unfold Dev.isolate
  simp only [apply_ite Dev.fwd, event61_fwd, fltSet_fwd, halted, ite_self]

@[simp] theorem severe_fwd : (d.severe b i).fwd = d.fwd := by
  unfold Dev.severe
  simp only [apply_ite Dev.fwd, fltIrq_fwd, event61_fwd, isolate_fwd, fnHold_fwd, setWin_fwd, inc_fwd, fltSet_fwd, ite_self]

@[simp] theorem countEvent_fwd : (d.countEvent b i).fwd = d.fwd := by
  unfold Dev.countEvent
  simp only [apply_ite Dev.fwd, severe_fwd, setWin_fwd, inc_fwd, ite_self]

@[simp] theorem faultCapture_fwd (a : Access) (counts : Bool) : (d.faultCapture b i a counts).fwd = d.fwd := by
  have taken : ∀ e : Dev, (e.capture b i a).1.fwd = e.fwd := fun e => by
    unfold Dev.capture
    split
    · exact inc_fwd _ _
    · simp only [event61_fwd, set_fwd, setReg_fwd]
  unfold Dev.faultCapture
  simp only [apply_ite Dev.fwd, countEvent_fwd, taken, fltSet_fwd, ite_self]

end

/-! ### Errors that entries carry with them (R130) -/

/-- What the reading of entries in error leaves alone. -/
structure EntriesKept (d e : Dev) : Prop where
  tbl : e.tbl = d.tbl
  fwd : e.fwd = d.fwd
  regs : d.regsOnly e (R.TBL_ECC_CE :: faultRegs blkTbl)

theorem EntriesKept.refl (d : Dev) : EntriesKept d d := ⟨rfl, rfl, only_refl _ _⟩

theorem EntriesKept.trans {d e g : Dev} (h : EntriesKept d e) (k : EntriesKept e g) : EntriesKept d g :=
  ⟨k.tbl.trans h.tbl, k.fwd.trans h.fwd, only_trans h.regs k.regs⟩

theorem entryRead_kept (d : Dev) (t c i : Nat) : EntriesKept d (d.entryRead t c i).1 := by
  unfold Dev.entryRead
  split
  · exact ⟨(away_faultCapture _ _ _ _ (Away.refl d)).tbl, faultCapture_fwd _ _ _ _ _,
      only_faultCapture _ _ _ _ (fun _ h => List.mem_cons_of_mem _ h) (only_refl _ _)⟩
  · split
    · exact ⟨inc_tbl _ _, inc_fwd _ _, only_inc F.TBL_ECC_CE_COUNT List.mem_cons_self (by decide) (only_of (only_refl _ _) rfl)⟩
    · exact EntriesKept.refl d

theorem errorCopy_kept (d : Dev) (t c t' c' i : Nat) : EntriesKept d (d.errorCopy t c t' c' i) := by
  have h := entryRead_kept d t c i
  unfold Dev.errorCopy
  split
  · next hr => rwa [hr] at h
  · next hr =>
    rw [hr] at h
    exact h.trans ⟨rfl, rfl, only_of (only_refl _ _) rfl⟩

theorem errorCopies_kept {α : Type} (op : Dev → α → Dev) (h : ∀ d x, EntriesKept d (op d x)) (l : List α) (d : Dev) : EntriesKept d (l.foldl op d) := by
  induction l generalizing d with
  | nil => exact EntriesKept.refl d
  | cons x l ih => exact (h d x).trans (ih _)

/-! ### Tile B takes the tables (R500) -/

/-- A key of pipeline A whose table, or whose generations, pipeline B holds too. -/
def copiedKey (k : Nat) : Bool := k / 2 ^ 24 % 2 == 0 && (tblBoth (k / 2 ^ 25) || (decide (32 ≤ k / 2 ^ 25) && tblBoth (k / 2 ^ 25 - 32)))

/-- The values of a store are listed under keys that lie `c` higher. -/
def shiftInto (c : Nat) (m t : SMap Nat) : SMap Nat := m.foldl (fun t p => SMap.set t 0 (p.1 + c) p.2) t

theorem shiftInto_cons (c k v : Nat) (m t : SMap Nat) : shiftInto c ((k, v) :: m) t = shiftInto c m (SMap.set t 0 (k + c) v) := rfl

/-- A key that is none of the shifted ones reads as before. -/
theorem get_shiftInto_ne {c j : Nat} {m : SMap Nat} (h : ∀ p ∈ m, p.1 + c ≠ j) (t : SMap Nat) : SMap.get (shiftInto c m t) 0 j = SMap.get t 0 j := by
  induction m generalizing t with
  | nil => rfl
  | cons p m ih =>
    rw [shiftInto_cons, ih (fun q hq => h q (List.mem_cons_of_mem _ hq)), SMap.get_set_ne _ _ _ _ _ _ (h p List.mem_cons_self)]

/-- A shifted key reads as the key it comes from, where that is listed. -/
theorem get_shiftInto {b c : Nat} {m : SMap Nat} (hm : SMap.wfFrom (fun _ => 0) b m = true) (j : Nat) (t : SMap Nat) :
    SMap.get (shiftInto c m t) 0 (j + c) = if SMap.get m 0 j = 0 then SMap.get t 0 (j + c) else SMap.get m 0 j := by
  induction m generalizing b t with
  | nil => rfl
  | cons p m ih =>
    obtain ⟨k, v⟩ := p
    obtain ⟨-, hv, ht⟩ := SMap.wfFrom_cons.mp hm
    rw [shiftInto_cons, ih ht]
    by_cases hk : k = j
    · subst hk
      rw [SMap.get_below 0 m ht (Nat.lt_succ_self k), if_pos rfl, SMap.get_set_same, SMap.get_head, if_neg hv]
    · rw [SMap.get_tail 0 v m hk, SMap.get_set_ne _ _ _ _ _ _ (by omega)]

section
variable (d : Dev)

/-- The copy of the entries themselves. -/
def Dev.tileBTables (d : Dev) : Dev := { d with tbl := shiftInto (2 ^ 24) (d.tbl.filter (fun p => copiedKey p.1)) d.tbl }

/-- The entries of the keys take their errors with them. -/
def Dev.tileBErrors (d : Dev) (l : List Nat) : Dev := l.foldl (fun d k => d.errorCopy (k / 2 ^ 25) 0 (k / 2 ^ 25) 1 (k % 2 ^ 24)) d

/-- The copy ends with the generations of the lists. -/
def Dev.tileBShown (d : Dev) : Dev :=
  let d3 := ((d.set F.TBL_GEN_5B_GEN (d.get (F.TBL_GEN_GEN 5))).set F.TBL_GEN_6B_GEN (d.get (F.TBL_GEN_GEN 6))).set F.FWD_STATUS_READY_B 1
  { d3 with pwr := { d3.pwr with tileBCopy := false }, tables := { d3.tables with burnB := ⟨0, d3.now⟩ } }

theorem fold_setTbl (c : Nat) (m : SMap Nat) (d : Dev) :
    m.foldl (fun (d : Dev) p => { d with tbl := SMap.set d.tbl 0 (p.1 + c) p.2 }) d = { d with tbl := shiftInto c m d.tbl } := by
  induction m generalizing d with
  | nil => rfl
  | cons p m ih => rw [List.foldl_cons, ih, ← shiftInto_cons]

theorem tileBDone_idle (h : d.pwr.tileBCopy = false) : d.tileBDone = d := if_pos (by rw [h]; rfl)

theorem tileBDone_copies (h : d.pwr.tileBCopy = true) :
    d.tileBDone = (d.tileBTables.tileBErrors ((d.tables.bad ++ d.tables.soft).filter copiedKey)).tileBShown := by
  unfold Dev.tileBDone Dev.tileBTables
  rw [if_neg (by rw [h]; decide), ← fold_setTbl]
  rfl

theorem tileBShown_shows : d.tileBShown.flag F.FWD_STATUS_READY_B = true ∧ d.tileBShown.pwr.tileBCopy = false
    ∧ d.tileBShown.get F.TBL_GEN_5B_GEN = d.get (F.TBL_GEN_GEN 5) ∧ d.tileBShown.get F.TBL_GEN_6B_GEN = d.get (F.TBL_GEN_GEN 6) := by
  have hregs : ∀ e : Dev, e.regs = (((d.set F.TBL_GEN_5B_GEN (d.get (F.TBL_GEN_GEN 5))).set F.TBL_GEN_6B_GEN (d.get (F.TBL_GEN_GEN 6))).set
      F.FWD_STATUS_READY_B 1).regs → e.flag F.FWD_STATUS_READY_B = true ∧ e.get F.TBL_GEN_5B_GEN = d.get (F.TBL_GEN_GEN 5)
        ∧ e.get F.TBL_GEN_6B_GEN = d.get (F.TBL_GEN_GEN 6) := fun e he => by
    refine ⟨?ready, ?gen5, ?gen6⟩
    case ready =>
      unfold Dev.flag
      rw [get_of_regs he]
      exact flag_set_one _ F.FWD_STATUS_READY_B rfl (by decide)
    case gen5 =>
      rw [get_of_regs he, get_set_apart _ _ (by decide), get_set_apart _ _ (by decide), get_set_same _ F.TBL_GEN_5B_GEN _ (by decide)]
      exact Nat.mod_eq_of_lt (get_lt _ _)
    case gen6 =>
      rw [get_of_regs he, get_set_apart _ _ (by decide), get_set_same _ F.TBL_GEN_6B_GEN _ (by decide)]
      exact Nat.mod_eq_of_lt (get_lt _ _)
  obtain ⟨hready, h5, h6⟩ := hregs d.tileBShown rfl
  exact ⟨hready, rfl, h5, h6⟩

theorem tileBShown_keeps : d.tileBShown.tbl = d.tbl ∧ d.tileBShown.fwd = d.fwd := by
  unfold Dev.tileBShown
  simp only [set_tbl, set_fwd, and_self]

theorem tileBErrors_kept (l : List Nat) : EntriesKept d (d.tileBErrors l) := errorCopies_kept _ (fun d _ => errorCopy_kept d _ _ _ _ _) l d

end

/-- The key of an entry in pipeline A, of a table that pipeline B holds too. -/
theorem copiedKey_tkey {t i : Nat} (ht : tblBoth t = true) (hi : i < 2 ^ 24) : copiedKey (tkey t 0 i) = true := by
  have h24 : tkey t 0 i / 2 ^ 24 = t * 2 := by unfold tkey; omega
  have h25 : tkey t 0 i / 2 ^ 25 = t := by unfold tkey; omega
  unfold copiedKey
  rw [h24, h25, ht, Nat.mul_mod_left]
  rfl

theorem tkey_tileB (t i : Nat) : tkey t 1 i = tkey t 0 i + 2 ^ 24 := by unfold tkey; omega

section
variable {d : Dev} (hw : d.stores = true) {t i : Nat} (ht : tblBoth t = true) (hi : i < 2 ^ 24)
include hi

theorem tileBTables_own : d.tileBTables.tget t 0 i = d.tget t 0 i := by
  refine get_shiftInto_ne (fun p hp he => ?_) d.tbl
  have heven := (List.mem_filter.mp hp).2
  simp only [copiedKey, Bool.and_eq_true, beq_iff_eq] at heven
  have hodd := congrArg (fun k => k / 2 ^ 24 % 2) he
  have hown : tkey t 0 i / 2 ^ 24 % 2 = 0 := by unfold tkey; omega
  omega

include hw ht

theorem tileBTables_copy : d.tileBTables.tget t 1 i = if d.tget t 0 i = 0 then d.tget t 1 i else d.tget t 0 i := by
  have hwf : SMap.wf (fun _ => 0) (d.tbl.filter (fun p => copiedKey p.1)) = true := by
    refine SMap.wf_filter _ _ _ ?_
    unfold Dev.stores at hw
    rw [Bool.and_eq_true, Bool.and_eq_true] at hw
    exact hw.1.2
  have hlisted : SMap.get (d.tbl.filter (fun p => copiedKey p.1)) 0 (tkey t 0 i) = d.tget t 0 i := by
    unfold SMap.get Dev.tget
    rw [SMap.find_filter, if_pos (copiedKey_tkey ht hi)]
    rfl
  unfold Dev.tget
  rw [tkey_tileB]
  exact (get_shiftInto hwf (tkey t 0 i) d.tbl).trans (by rw [hlisted]; rfl)

variable (hc : d.pwr.tileBCopy = true)
include hc

theorem tileBDone_entries : d.tileBDone.tget t 1 i = (if d.tget t 0 i = 0 then d.tget t 1 i else d.tget t 0 i) ∧ d.tileBDone.tget t 0 i = d.tget t 0 i := by
  have htbl : d.tileBDone.tbl = d.tileBTables.tbl := by
    rw [tileBDone_copies d hc, (tileBShown_keeps _).1, (tileBErrors_kept _ _).tbl]
  unfold Dev.tget
  rw [htbl]
  exact ⟨tileBTables_copy hw ht hi, tileBTables_own hi⟩

end

theorem tileBDone_rest {d : Dev} (hc : d.pwr.tileBCopy = true) :
    d.tileBDone.get F.TBL_GEN_5B_GEN = d.get (F.TBL_GEN_GEN 5) ∧ d.tileBDone.get F.TBL_GEN_6B_GEN = d.get (F.TBL_GEN_GEN 6) ∧ d.tileBDone.fwd = d.fwd := by
  have hkept := tileBErrors_kept d.tileBTables ((d.tables.bad ++ d.tables.soft).filter copiedKey)
  obtain ⟨-, -, h5, h6⟩ := tileBShown_shows (d.tileBTables.tileBErrors ((d.tables.bad ++ d.tables.soft).filter copiedKey))
  rw [tileBDone_copies d hc, h5, h6, (tileBShown_keeps _).2, hkept.fwd]
  exact ⟨get_only hkept.regs (F.TBL_GEN_GEN 5) (by decide) (.inl (by decide)), get_only hkept.regs (F.TBL_GEN_GEN 6) (by decide) (.inl (by decide)), rfl⟩

/-- Settles O58: a domain's coming and going by its cases, the start of the logic die, and the copy for tile B entry by entry. -/
theorem domainSteps : Obligations.DomainSteps := by
  refine ⟨fun s n => ⟨fun hq h => next_settle_of_eq hq (domainReady_idle h), ?ready, fun hq h => next_settle_of_eq hq (domainOff_idle h), ?off⟩,
    fun d n => ⟨domainOn_waits, fun h => ⟨domainOn_powered h, domainOn_ignored h, domainOn_started h⟩⟩,
    fun s => ⟨fun hq h => next_settle_of_eq hq (tileBDone_idle _ h), fun h => ⟨rfl, ?tileB⟩⟩,
    fun s => ⟨fun hq h => next_settle_of_eq hq (railsGood_idle _ h), fun hu hc hs h0 h1 => next_settle_congr s (railsGood_starts _ hu hc hs h0 h1)⟩,
    ?start, ?inh, ?copied⟩
  case ready =>
    rintro d1 d2 h0 h rfl rfl
    have hon := domainReady_on h0 h
    refine ⟨fun h3 => next_settle_congr s ?_, fun h7 => next_settle_congr s ?_, fun h1 => next_settle_congr s ?_,
      fun h3 h7 h10 h11 => next_settle_congr s ?_⟩
    · rw [hon, domainFollow_tileB h3]; rfl
    · rw [hon, domainFollow_microcode h7]; rfl
    · rw [hon, domainFollow_links h1]; rfl
    · rw [hon, domainFollow_other h3 h7 h10 h11]; rfl
  case off =>
    rintro d1 d3 h0 h rfl rfl
    exact ⟨fun ha => next_settle_congr s (domainOff_stays h0 h ha), fun ha => next_settle_congr s (domainOff_again h0 h ha)⟩
  case tileB =>
    rw [tileBDone_copies _ h]
    exact ⟨(tileBShown_shows _).1, (tileBShown_shows _).2.1⟩
  case start =>
    exact fun d => ⟨logicStart_up d, logicStart_boot d, logicStart_watchdog d, logicStart_ready d (by decide) (by decide),
      logicStart_ready d (by decide) (by decide), logicStart_ready d (by decide) (by decide), clocksStart_warm d, reportDue_none d,
      fun x l => reportDue_each d⟩
  case inh =>
    exact fun s hq => ⟨fun h => next_settle_of_eq hq (inhActive_idle _ h), fun hu hs => next_settle_of_flt hq (inhActive_drives _ hu hs) rfl⟩
  case copied =>
    intro d t i hw hc ht _ hi
    obtain ⟨hcopy, hown⟩ := tileBDone_entries hw ht hi hc
    exact ⟨fun h => by rw [hcopy, if_neg h], fun h => by rw [hcopy, if_pos h], hown, tileBDone_rest hc⟩

end Sys2Proof.Machine
end

section
/-!
PROOF. Supplies, resets, clocks, the MGMT watchdog and the die link (R503 to R518), each by the cases of its step.
-/
namespace Sys2Proof.Machine

/-! ### Rails and brownout hold (R503 to R505) -/

section
variable {d : Dev}

theorem railWarning_new (h : d.flag F.SUPV_SUPPLY_STATUS_RAIL_WARN = false) :
    d.railWarning true = (d.set F.SUPV_SUPPLY_STATUS_RAIL_WARN 1).dieMsg.fault blkSupv 0 := by
  unfold Dev.railWarning
  exact if_pos (by simp [h])

theorem railWarning_known (h : d.flag F.SUPV_SUPPLY_STATUS_RAIL_WARN = true) : d.railWarning true = d.set F.SUPV_SUPPLY_STATUS_RAIL_WARN 1 := by
  unfold Dev.railWarning
  exact if_neg (by simp [h])

theorem railWarning_leaves : d.railWarning false = d.set F.SUPV_SUPPLY_STATUS_RAIL_WARN 0 := by
  unfold Dev.railWarning
  exact if_neg (by simp)

theorem bohStart_held (h : d.flag F.SUPV_SUPPLY_STATUS_BOH = true) : d.bohStart = d := if_pos h

theorem bohStart_begins (h : d.flag F.SUPV_SUPPLY_STATUS_BOH = false) {d1 : Dev}
    (h1 : d1 = Dev.set { d with pwr := { d.pwr with bohStart := some d.now, bohExpired := false } } F.SUPV_SUPPLY_STATUS_BOH 1) :
    d.bohStart = (d1.dieMsg.supplyCond F.LOADC_SUPPLY_STATUS_BROWNOUT true).flashPause := by
  subst h1
  unfold Dev.bohStart
  exact if_neg (ne_true_of_eq_false h)

theorem bohExpire_none (h : d.pwr.bohStart = none) : d.bohExpire = d := by
  unfold Dev.bohExpire
  rw [h]

theorem bohEnd_none (h : d.pwr.bohStart = none) : d.bohEnd = d := by
  unfold Dev.bohEnd
  rw [h]

theorem bohExpire_again (h : d.pwr.bohExpired = true) : d.bohExpire = d := by
  unfold Dev.bohExpire
  split
  · exact if_pos h
  · rfl

theorem bohExpire_first {t : Nat} (h : d.pwr.bohStart = some t) (he : d.pwr.bohExpired = false) {d1 d2 : Dev}
    (h1 : d1 = d.reach (t + d.get F.SUPV_VBAT_CFG_BOH_MAX_MS * msCyc))
    (h2 : d2 = (Dev.set { d1 with pwr := { d1.pwr with bohExpired := true } } F.SUPV_SUPPLY_STATUS_BOH_EXPIRED 1).dieMsg.fltSet blkSupv 1) :
    d.bohExpire = [14, 13, 12, 11, 10, 8, 7, 6, 5, 4, 3, 1].foldl Dev.policyOff (d2.inc F.SUPV_BOH_EXPIRE_COUNT) := by
  subst h2 h1
  unfold Dev.bohExpire
  rw [h]
  exact if_neg (ne_true_of_eq_false he)

/-- The device once brownout hold has ended, its flash writes going on. -/
def Dev.bohEnded (d : Dev) : Dev :=
  let d1 := Dev.supplyCond ((Dev.set { d with pwr := { d.pwr with bohStart := none, bohExpired := false } } F.SUPV_SUPPLY_STATUS_BOH 0).set
    F.SUPV_SUPPLY_STATUS_BOH_EXPIRED 0) F.LOADC_SUPPLY_STATUS_BROWNOUT false
  if d1.flag F.BOOT_STATUS_FLASH_PAUSED then (d1.set F.BOOT_STATUS_FLASH_PAUSED 0).flashKick else d1

section
variable {t : Nat} (h : d.pwr.bohStart = some t)
include h

theorem bohEnd_inTime (he : d.pwr.bohExpired = false) : d.bohEnd = d.bohEnded.inc F.SUPV_BOH_COUNT_COUNT := by
  unfold Dev.bohEnd
  rw [h, he]
  rfl

variable (he : d.pwr.bohExpired = true)
include he

theorem bohEnd_late : d.bohEnd = if d.bohEnded.flag F.SUPV_BOH_POLICY_RESTORE then
    (List.range 14).foldl (fun e k => if bit d.pwr.policyOff k then e.domainOn (k + 1) else e) d.bohEnded else d.bohEnded := by
  unfold Dev.bohEnd
  rw [h, he]
  rfl

end

theorem policyOff_idle {n : Nat} (h : bit (d.get F.SUPV_BOH_POLICY_DOMAINS) (n - 1) = false ∨ d.powered n = false ∨ bit d.pwr.goingOff (n - 1) = true) :
    d.policyOff n = d := by
  unfold Dev.policyOff
  exact if_neg (by rcases h with h | h | h <;> simp [pdBit, h])

theorem policyOff_switches {n : Nat} (h : bit (d.get F.SUPV_BOH_POLICY_DOMAINS) (n - 1) = true) (hp : d.powered n = true) (hg : bit d.pwr.goingOff (n - 1) = false) :
    (d.policyOff n).pwr.goingOff = setBit d.pwr.goingOff (n - 1) true ∧ (d.policyOff n).pwr.policyOff = setBit d.pwr.policyOff (n - 1) true
      ∧ d.regsOnly (d.policyOff n) [R.SUPV_PD_STATUS] := by
  have hoff : d.policyOff n = Dev.setBitOf { d with pwr := { d.pwr with
      policyOff := setBit d.pwr.policyOff (n - 1) true
      goingOn := setBit d.pwr.goingOn (n - 1) false
      goingOff := setBit d.pwr.goingOff (n - 1) true } } F.SUPV_PD_STATUS_READY (n - 1) false := by
    unfold Dev.policyOff
    exact if_pos (by simp [pdBit, h, hp, hg])
  rw [hoff]
  refine ⟨by rw [setBitOf_pwr], by rw [setBitOf_pwr], ?_⟩
  exact only_setBitOf F.SUPV_PD_STATUS_READY _ _ (List.mem_singleton_self _) (by decide) (only_of (only_refl _ _) rfl)

end

/-! ### Requests of resets (R506, R507) -/

section
variable {d : Dev}

theorem coldRequest_por : d.coldRequest true = d.coldReset 1 := if_pos rfl

theorem coldRequest_register (h : d.flag F.SUPV_RST_CTRL_COLD = true) : d.coldRequest false = d.coldReset 2 := by
  unfold Dev.coldRequest
  exact (if_neg (by decide)).trans (if_pos h)

theorem coldRequest_none (h : d.flag F.SUPV_RST_CTRL_COLD = false) : d.coldRequest false = d := by
  unfold Dev.coldRequest
  exact (if_neg (by decide)).trans (if_neg (ne_true_of_eq_false h))

theorem warmRequest_outside {c : Nat} (h : c = 3 ∨ c = 6) : d.warmRequest c = d.warmReset c := if_pos (by simpa using h)

theorem warmRequest_register (h : d.flag F.SUPV_RST_CTRL_WARM = true) : d.warmRequest 4 = d.warmReset 4 := by
  unfold Dev.warmRequest
  exact (if_neg (by decide)).trans ((if_pos rfl).trans (if_pos h))

theorem warmRequest_reaction (h : d.flt.warm.isSome = true) : d.warmRequest 5 = d.warmReset 5 := by
  unfold Dev.warmRequest
  exact (if_neg (by decide)).trans ((if_neg (by decide)).trans ((if_pos rfl).trans (if_pos h)))

theorem warmRequest_noRegister (h : d.flag F.SUPV_RST_CTRL_WARM = false) : d.warmRequest 4 = d := by
  unfold Dev.warmRequest
  exact (if_neg (by decide)).trans ((if_pos rfl).trans (if_neg (ne_true_of_eq_false h)))

theorem warmRequest_noReaction (h : d.flt.warm = none) : d.warmRequest 5 = d := by
  unfold Dev.warmRequest
  exact (if_neg (by decide)).trans ((if_neg (by decide)).trans ((if_pos rfl).trans (if_neg (by simp [h]))))

theorem warmRequest_other {c : Nat} (h : c < 3 ∨ 6 < c) : d.warmRequest c = d := by
  unfold Dev.warmRequest
  rw [if_neg (by simp; omega), if_neg (by simp; omega), if_neg (by simp; omega)]

end

/-! ### What a reset leaves (R507 to R509) -/

/-- The logic die is down, its contracts, rings, sessions and frames are gone. -/
structure LogicDown (d : Dev) : Prop where
  down : d.pwr.logicUp = false
  anvil : d.anvil = AnvilSt.init
  host : d.host = HostSt.init
  xpt : d.xpt = XptSt.init
  cry : d.cry = CrySt.init
  fwd : d.fwd = FwdSt.init

section
variable {d : Dev}

theorem logicDown_set (f : FieldRef) (v : Nat) (h : LogicDown d) : LogicDown (d.set f v) :=
  ⟨by rw [set_pwr, h.down], by rw [set_anvil, h.anvil], by rw [set_host, h.host], by rw [set_xpt, h.xpt], by rw [set_cry, h.cry], by rw [set_fwd, h.fwd]⟩

theorem measureReset_logicDown (h : LogicDown d) : LogicDown d.measureReset := by
  have hset : LogicDown ((d.set F.VAULT_STATUS_MEASURING 1).set F.VAULT_STATUS_COMMITTED 0) := logicDown_set _ _ (logicDown_set _ _ h)
  exact ⟨hset.down, hset.anvil, hset.host, hset.xpt, hset.cry, hset.fwd⟩

theorem logicLost_logicDown (d : Dev) : LogicDown d.logicLost := by
  unfold Dev.logicLost
  dsimp only
  repeat apply logicDown_set
  exact ⟨rfl, rfl, rfl, rfl, rfl, rfl⟩

theorem warmReset_down (c : Nat) (h : d.pwr.logicUp = false) : d.warmReset c = d := if_pos (by rw [h]; rfl)

theorem warmReset_logicDown (c : Nat) (h : d.pwr.logicUp = true) : LogicDown (d.warmReset c) := by
  unfold Dev.warmReset
  rw [if_neg (by rw [h]; decide)]
  exact measureReset_logicDown (logicDown_set _ _ (logicDown_set _ _ (logicLost_logicDown _)))

end

/-- The registers that a COLD reset keeps. -/
def coldKept (a : Nat) : Bool := keptAddr a && !(decide (0x1000000 ≤ a) && decide (a < 0x1100000))

/-- A field of one word whose register a filter drops reads its Reset value. -/
theorem rget_filter_dropped (r : SMap Word) (p : Nat → Bool) (f : FieldRef) (hw : f.lo + f.w ≤ 32) (hp : p f.addr = false) :
    rget (r.filter (fun x => p x.1)) f = bf (regDefault f.addr).toNat f.lo f.w := by
  unfold rget rreg SMap.get
  rw [if_pos hw, SMap.find_filter, hp]
  rfl

/-- What a COLD reset takes besides from a device `e` whose logic die is lost: the power die's state, but for the supplies and clocks of `d`. -/
def Dev.coldOver (d e : Dev) : Dev :=
  { e with
    regs := e.regs.filter (fun p => coldKept p.1)
    load := { LoadSt.init with vbat := d.load.vbat, vhv := d.load.vhv }
    time := { e.time with aonHeld := none, aonLost := e.time.now }
    flt := { e.flt with wins := e.flt.wins.filter (fun p => p.1 == blkVault) }
    pwr := { PwrSt.init with recessive := d.pwr.recessive, clkHold := d.pwr.clkHold, txdOff := d.pwr.txdOff } }

/-- The device under a COLD reset, before its cause is recorded. -/
def Dev.coldLost (d : Dev) : Dev := d.coldOver (d.setScope 0).logicLost

theorem coldOver_logicDown (d : Dev) {e : Dev} (h : LogicDown e) : LogicDown (d.coldOver e) := ⟨rfl, h.anvil, h.host, h.xpt, h.cry, h.fwd⟩

theorem coldOver_get (d e : Dev) (f : FieldRef) (hw : f.lo + f.w ≤ 32) (hp : coldKept f.addr = false) :
    (d.coldOver e).get f = bf (regDefault f.addr).toNat f.lo f.w := rget_filter_dropped e.regs coldKept f hw hp

/-- A device that has taken a COLD reset of a cause. -/
def Dev.coldHeld (d : Dev) (cause : Nat) : Dev := (d.coldLost.set F.SUPV_RST_CAUSE_CAUSE cause).measureReset

section
variable (d : Dev) (c : Nat)

theorem coldReset_eq : d.coldReset c = if d.load.revBat then (d.coldHeld c).supplyEvent else d.coldHeld c := rfl

theorem coldLost_logicDown : LogicDown d.coldLost := coldOver_logicDown d (logicLost_logicDown _)

theorem coldHeld_logicDown : LogicDown (d.coldHeld c) := measureReset_logicDown (logicDown_set _ _ (coldLost_logicDown d))

theorem coldHeld_inh0 : (d.coldHeld c).pwr.inh0 = false := by
  unfold Dev.coldHeld
  rw [measureReset_pwr, set_pwr, Dev.coldLost]
  rfl

theorem coldHeld_cause (hc : c < 16) : (d.coldHeld c).get F.SUPV_RST_CAUSE_CAUSE = c := by
  unfold Dev.coldHeld
  rw [measureReset_get _ _ (by decide) (by decide), get_set_apart _ _ (by decide), get_set_apart _ _ (by decide),
    get_set_same _ F.SUPV_RST_CAUSE_CAUSE _ (by decide)]
  exact Nat.mod_eq_of_lt (Nat.lt_trans hc (by decide))

/-- The die link is not trained after a COLD reset, so that ring 63 is away. -/
theorem coldHeld_ring63 : (d.coldHeld c).ring63Up = false := by
  have hlink : (d.coldHeld c).get F.PWR_D2D_STATUS_LINK_UP = 0 := by
    unfold Dev.coldHeld
    rw [measureReset_get _ _ (by decide) (by decide), get_set_apart _ _ (by decide), get_set_apart _ _ (by decide), get_set_apart _ _ (by decide)]
    exact (coldOver_get _ _ F.PWR_D2D_STATUS_LINK_UP (by decide) (by decide)).trans (by decide +kernel)
  unfold Dev.ring63Up Dev.flag
  rw [hlink]
  exact Bool.and_false _

end

/-- While ring 63 is away, a SUPPLY event is kept or counted as lost. -/
theorem supplyEvent_away {d : Dev} (h : d.ring63Up = false) :
    (∃ x, d.supplyEvent = { d with load := x }) ∨ d.supplyEvent = d.inc F.LOADC_EV_LOST_COUNT := by
  unfold Dev.supplyEvent Dev.ev63
  rw [if_neg (ne_true_of_eq_false h)]
  split
  · exact .inl ⟨_, rfl⟩
  · exact .inr rfl

theorem supplyEvent_kept {d : Dev} (h : d.ring63Up = false) : d.supplyEvent.pwr = d.pwr ∧ d.supplyEvent.anvil = d.anvil ∧ d.supplyEvent.host = d.host
    ∧ d.supplyEvent.get F.SUPV_RST_CAUSE_CAUSE = d.get F.SUPV_RST_CAUSE_CAUSE := by
  obtain ⟨x, hx⟩ | hx := supplyEvent_away h
  · rw [hx]
    exact ⟨rfl, rfl, rfl, rfl⟩
  · rw [hx]
    exact ⟨inc_pwr _ _, inc_anvil _ _, inc_host _ _, get_set_apart _ _ (by decide)⟩

theorem coldReset_leaves (d : Dev) (c : Nat) : (d.coldReset c).pwr.logicUp = false ∧ (d.coldReset c).pwr.inh0 = false ∧ (d.coldReset c).anvil = AnvilSt.init
    ∧ (d.coldReset c).host = HostSt.init ∧ (c < 16 → (d.coldReset c).get F.SUPV_RST_CAUSE_CAUSE = c) := by
  obtain ⟨hdown, hanvil, hhost, -, -, -⟩ := coldHeld_logicDown d c
  rw [coldReset_eq]
  split
  · obtain ⟨kpwr, kanvil, khost, kcause⟩ := supplyEvent_kept (coldHeld_ring63 d c)
    rw [kpwr, kanvil, khost, kcause]
    exact ⟨hdown, coldHeld_inh0 d c, hanvil, hhost, coldHeld_cause d c⟩
  · exact ⟨hdown, coldHeld_inh0 d c, hanvil, hhost, coldHeld_cause d c⟩

/-! ### The reset-cause record (R467, R509) -/

/-- A field of one word keeps its value when a field of two other words takes one. -/
theorem get_set_wide (d : Dev) (f g : FieldRef) (v : Nat) (hw : g.lo + g.w ≤ 32) (h : g.addr ≠ f.addr ∧ g.addr ≠ f.addr + 4) :
    (d.set f v).get g = d.get g :=
  get_only (only_set2 (l := [f.addr, f.addr + 4]) f v (by simp) (by simp) (only_refl d _)) g (by simpa using h) (.inl hw)

section
variable (d : Dev) (b : Nat)

theorem causeRecord_cause {c : Nat} (hc : c < 16) : (d.causeRecord c b).get F.SUPV_RST_CAUSE_CAUSE = c := by
  unfold Dev.causeRecord
  dsimp only
  rw [get_set_wide _ _ _ _ (by decide) (by decide)]
  simp (disch := decide) only [get_set_apart]
  rw [get_set_same _ F.SUPV_RST_CAUSE_CAUSE _ (by decide)]
  exact Nat.mod_eq_of_lt (Nat.lt_trans hc (by decide))

theorem causeRecord_reaction (hb : b < 256) : (d.causeRecord 5 b).get F.SUPV_RST_CAUSE_BLOCK = b
    ∧ (d.causeRecord 5 b).get F.SUPV_RC_STATUS_FAULT_STATUS = d.reg (R.FLT_FAULT_STATUS b)
    ∧ (d.causeRecord 5 b).get F.SUPV_RC_FEC_INFO_INFO = d.reg (R.FLT_FEC_INFO b) ∧ (d.causeRecord 5 b).get F.SUPV_RC_FEC_ADDR_ADDR = d.reg (R.FLT_FEC_ADDR b) := by
  have hreg : ∀ a, d.reg a % 2 ^ 32 = d.reg a := fun a => Nat.mod_eq_of_lt (rreg_lt _ _)
  unfold Dev.causeRecord
  simp only [beq_self_eq_true, if_true]
  have hwide := fun g h => get_set_wide ((((d.set F.SUPV_RST_CAUSE_CAUSE 5).set F.SUPV_RST_CAUSE_BLOCK b).set F.SUPV_RC_STATUS_FAULT_STATUS
    (d.reg (R.FLT_FAULT_STATUS b))).set F.SUPV_RC_FEC_INFO_INFO (d.reg (R.FLT_FEC_INFO b)) |>.set F.SUPV_RC_FEC_ADDR_ADDR (d.reg (R.FLT_FEC_ADDR b)))
    F.SUPV_RC_FEC_TIME_TIME g (d.get (F.FLT_FEC_TIME_TIME b)) h
  refine ⟨?block, ?status, ?info, ?addr⟩
  case block =>
    rw [hwide _ (by decide) (by decide)]
    simp (disch := decide) only [get_set_apart]
    exact (get_set_same _ F.SUPV_RST_CAUSE_BLOCK b (by decide)).trans (Nat.mod_eq_of_lt hb)
  case status =>
    rw [hwide _ (by decide) (by decide)]
    simp (disch := decide) only [get_set_apart]
    exact (get_set_same _ F.SUPV_RC_STATUS_FAULT_STATUS _ (by decide)).trans (hreg _)
  case info =>
    rw [hwide _ (by decide) (by decide), get_set_apart _ _ (by decide)]
    exact (get_set_same _ F.SUPV_RC_FEC_INFO_INFO _ (by decide)).trans (hreg _)
  case addr =>
    rw [hwide _ (by decide) (by decide)]
    exact (get_set_same _ F.SUPV_RC_FEC_ADDR_ADDR _ (by decide)).trans (hreg _)

end

/-! ### Clocks (R511, R512) -/

section
variable {d : Dev} {k : Nat}

theorem clockLost_known (h : d.flag (clkField k) = false) : d.clockLost k = d := if_pos (by rw [h]; rfl)

theorem clockBack_known (h : d.flag (clkField k) = true) : d.clockBack k = d := if_pos h

/-- What the loss of a clock does beside its bit. -/
def Dev.clockWithout (d1 : Dev) : Nat → Dev
  | 0 => ({ d1 with pwr := { d1.pwr with clkHold := true } } : Dev).warmReset 7
  | 1 => d1.warmReset 7
  | 2 => d1.hostReset true
  | 3 => (((d1.ethDown 0).ethDown 1).ethDown 2).ethDown 3
  | _ => { d1 with time := { d1.time with aonHeld := some d1.now, snapAt := none } }

theorem clockLost_new (h : d.flag (clkField k) = true) : d.clockLost k = ((d.set (clkField k) 0).fltSet blkSupv 2).clockWithout k := by
  have hsnap : ∀ d1 : Dev, ({ d1 with time := { d1.time with aonHeld := some d1.now } } : Dev).aonSnap
      = { d1 with time := { d1.time with aonHeld := some d1.now, snapAt := none } } := fun d1 => by
    unfold Dev.aonSnap
    simp only [Option.isNone_some, Bool.and_false, Bool.false_eq_true, if_false]
  unfold Dev.clockLost
  rw [if_neg (by rw [h]; decide)]
  match k with
  | 0 => rfl
  | 1 => rfl
  | 2 => rfl
  | 3 => rfl
  | k + 4 => exact hsnap _

/-- The AON ticks go on after a hold that began at `t`; a snapshot that has waited is taken at the next tick edge. -/
def Dev.aonGoesOn (d1 : Dev) (t : Nat) : Dev :=
  let d2 : Dev := { d1 with time := { d1.time with aonHeld := none, aonLost := d1.time.aonLost + (d1.now - t) } }
  { d2 with time := { d2.time with snapAt := if d2.time.snapGo then some d2.aonEdge else none } }

section
variable (h : d.flag (clkField k) = false) {d1 : Dev} (h1 : d1 = (d.set (clkField k) 1).fltSet blkSupv 2)
include h h1

theorem clockBack_crystal (hk : k = 0) : d.clockBack k = { d1 with pwr := { d1.pwr with clkHold := false } } := by
  subst hk
  unfold Dev.clockBack
  rw [if_neg (ne_true_of_eq_false h), ← h1]
  rfl

theorem clockBack_plain (hk : k = 1 ∨ k = 2 ∨ k = 3) : d.clockBack k = d1 := by
  unfold Dev.clockBack
  rw [if_neg (ne_true_of_eq_false h), ← h1]
  rcases hk with rfl | rfl | rfl <;> rfl

theorem clockBack_unheld (hk : k = 4) (ha : d1.time.aonHeld = none) : d.clockBack k = d1 := by
  subst hk
  unfold Dev.clockBack
  rw [if_neg (ne_true_of_eq_false h), ← h1]
  dsimp only
  rw [ha]
  rfl

theorem clockBack_held {t : Nat} (hk : k = 4) (ha : d1.time.aonHeld = some t) : d.clockBack k = d1.aonGoesOn t := by
  subst hk
  unfold Dev.clockBack
  rw [if_neg (ne_true_of_eq_false h), ← h1]
  dsimp only
  rw [ha]
  simp only [Dev.aonSnap, Dev.aonGoesOn, Option.isNone_none, Bool.and_true]

end

end

/-! ### The MGMT watchdog (R513) -/

section
variable {d : Dev}

theorem mgmtExpire_off (h : d.pwr.wdFed = none ∨ d.flag F.SUPV_MGMT_WD_EN = false) : d.mgmtExpire = d := by
  unfold Dev.mgmtExpire
  split
  · next t ht =>
    rw [if_pos]
    rcases h with h | h
    · rw [h] at ht
      cases ht
    · rw [h]; rfl
  · rfl

/-- What an expiry of the MGMT watchdog does: a first one makes a restart due, a second one within a second resets the logic die. -/
def Dev.mgmtReacts (d1 : Dev) (last : Option Nat) : Dev :=
  let second := match last with
    | some u => decide (d1.now ≤ u + sCyc)
    | none => false
  let d2 := { d1 with pwr := { d1.pwr with wdLast := some d1.now, wdFed := some d1.now } }
  if second then d2.warmReset 8 else d2.restartDue

theorem mgmtExpire_reacts {t : Nat} (ht : d.pwr.wdFed = some t) (he : d.flag F.SUPV_MGMT_WD_EN = true) {d1 : Dev}
    (h1 : d1 = (d.reach (t + d.get F.SUPV_MGMT_WD_PERIOD_MS * msCyc)).fltSet blkSupv 3) : d.mgmtExpire = d1.mgmtReacts d.pwr.wdLast := by
  subst h1
  unfold Dev.mgmtExpire
  rw [ht]
  dsimp only
  rw [if_neg (by rw [he]; decide)]
  generalize (d.reach (t + d.get F.SUPV_MGMT_WD_PERIOD_MS * msCyc)).fltSet blkSupv 3 = d1
  rfl

end

/-! ### The die link (R514) -/

section
variable {d : Dev}

theorem linkLost_known (h : d.flag F.PWR_D2D_STATUS_LINK_UP = false) : d.linkLost = d := if_pos (by rw [h]; rfl)

theorem linkLost_new (h : d.flag F.PWR_D2D_STATUS_LINK_UP = true) :
    d.linkLost = (Dev.set { d with pwr := { d.pwr with d2dDown := some d.now } } F.PWR_D2D_STATUS_LINK_UP 0).fltSet blkSupv 4 := if_neg (by rw [h]; decide)

theorem linkBack_known (h : d.pwr.d2dDown = none) : d.linkBack = d := if_pos (by rw [h]; rfl)

theorem linkTimeout_none (h : d.pwr.d2dDown = none) : d.linkTimeout = d := by
  unfold Dev.linkTimeout
  rw [h]

variable {t : Nat} (h : d.pwr.d2dDown = some t)
include h

theorem linkBack_serves : d.linkBack
    = (List.range 48).foldl Dev.serveLatched (Dev.set { d with pwr := { d.pwr with d2dDown := none } } F.PWR_D2D_STATUS_LINK_UP 1).drain63 := by
  unfold Dev.linkBack
  exact if_neg (by simp [h])

theorem linkTimeout_resets : d.linkTimeout = (d.reach (t + msCyc)).warmReset 9 := by
  unfold Dev.linkTimeout
  rw [h]

end

/-- Settles O59: each step by its cases; the two resets by what `LogicDown` says of the device they leave. -/
theorem powerSteps : Obligations.PowerSteps := by
  refine ⟨fun s => ⟨fun h => next_settle_congr s (railWarning_new h), fun h => next_settle_congr s (railWarning_known h), next_settle_congr s railWarning_leaves⟩, ?hold,
    fun d n => ⟨policyOff_idle, policyOff_switches⟩, ?requests, ?resets, ?record, ?clocks, ?watchdog, ?link⟩
  case hold =>
    intro s
    refine ⟨fun hq h => next_settle_of_eq hq (bohStart_held h), fun d1 h h1 => next_settle_congr s (bohStart_begins h h1),
      fun hq h => ⟨next_settle_of_eq hq (bohExpire_none h), next_settle_of_eq hq (bohEnd_none h)⟩, fun hq h => next_settle_of_eq hq (bohExpire_again h),
      fun t d1 d2 h he h1 h2 => next_settle_congr s (bohExpire_first h he h1 h2), ?_⟩
    rintro t d1 d2 h rfl rfl
    exact ⟨fun he => next_settle_congr s (bohEnd_inTime h he), fun he hr => next_settle_congr s ((bohEnd_late h he).trans (if_neg (ne_true_of_eq_false hr))),
      fun he hr => next_settle_congr s ((bohEnd_late h he).trans (if_pos hr))⟩
  case requests =>
    intro s
    exact ⟨next_settle_congr s coldRequest_por, fun h => next_settle_congr s (coldRequest_register h), fun hq h => next_settle_of_eq hq (coldRequest_none h),
      fun c h => next_settle_congr s (warmRequest_outside h), fun h => next_settle_congr s (warmRequest_register h),
      fun h => next_settle_congr s (warmRequest_reaction h), fun hq h => next_settle_of_eq hq (warmRequest_noRegister h),
      fun hq h => next_settle_of_eq hq (warmRequest_noReaction h), fun c hq h => next_settle_of_eq hq (warmRequest_other h)⟩
  case resets =>
    intro d c
    refine ⟨warmReset_down c, fun h => ?_, coldReset_leaves d c⟩
    obtain ⟨hdown, hanvil, hhost, hxpt, hcry, hfwd⟩ := warmReset_logicDown c h
    exact ⟨hdown, hanvil, hhost, hxpt, hcry, hfwd⟩
  case record =>
    refine fun d c b => ⟨causeRecord_cause d b, ?_⟩
    rintro rfl hb
    exact causeRecord_reaction d b hb
  case clocks =>
    intro s k d1
    refine ⟨fun hq h => next_settle_of_eq hq (clockLost_known h), fun hq h => next_settle_of_eq hq (clockBack_known h), ?lost, fun h h1 => ?back⟩
    case lost =>
      rintro h rfl
      have hlost := clockLost_new h
      refine ⟨fun hk => ?_, fun hk => ?_, fun hk => ?_, fun hk => ?_, fun hk => ?_⟩ <;> refine next_settle_congr s (hlost.trans ?_) <;> rw [hk] <;> rfl
    case back =>
      refine ⟨fun hk => next_settle_congr s (clockBack_crystal h h1 hk), fun hk => next_settle_congr s (clockBack_plain h h1 hk),
        fun hk ha => next_settle_congr s (clockBack_unheld h h1 hk ha), ?_⟩
      rintro t d2 hk ha rfl
      exact next_settle_congr s (clockBack_held h h1 hk ha)
  case watchdog =>
    intro s
    refine ⟨fun hq h => next_settle_of_eq hq (mgmtExpire_off h), ?_⟩
    rintro t d1 d2 ht he h1 rfl
    have hexp := mgmtExpire_reacts ht he h1
    refine ⟨fun hl => ?_, fun u hl => ?_⟩ <;> rw [hl] at hexp
    · exact next_settle_congr s hexp
    · exact ⟨fun hn => next_settle_congr s (hexp.trans (if_pos (decide_eq_true hn))),
        fun hn => next_settle_congr s (hexp.trans (if_neg (by simpa using hn)))⟩
  case link =>
    intro s
    exact ⟨fun hq h => next_settle_of_eq hq (linkLost_known h), fun h => next_settle_congr s (linkLost_new h),
      fun hq h => ⟨next_settle_of_eq hq (linkBack_known h), next_settle_of_eq hq (linkTimeout_none h)⟩,
      fun t h => ⟨next_settle_congr s (linkBack_serves h), next_settle_congr s (linkTimeout_resets h)⟩, fun _ => rfl,
      fun held hq => next_settle_of_flt hq rfl rfl⟩

end Sys2Proof.Machine
end

section
/-!
PROOF. Operations of the vault (R347 to R359): which one runs, what a message must pass, and how each one ends.
-/
namespace Sys2Proof.Machine

/-! ### One at a time (R348) -/

section
variable {d : Dev}

theorem vaultStart_idle (h : (d.running 59 [opKeyUpdate, opProvision, opHallmark]).isSome = true ∨ d.nextQueued 59 [opKeyUpdate, opProvision, opHallmark] = none) :
    d.vaultStart = d := by
  unfold Dev.vaultStart
  split
  · rfl
  · next hr => rw [h.resolve_left hr]

section
variable {o : Op} (hr : d.running 59 [opKeyUpdate, opProvision, opHallmark] = none) (ho : d.nextQueued 59 [opKeyUpdate, opProvision, opHallmark] = some o)
include hr ho

theorem vaultStart_starts (h : o.opcode = opHallmark ∨ 2 ≤ d.get F.BOOT_STATUS_BOOT_STATE) : d.vaultStart = d.startOp o := by
  unfold Dev.vaultStart
  rw [hr, Option.isSome_none, if_neg Bool.false_ne_true, ho]
  exact if_pos (by simpa using h)

theorem vaultStart_waits (h : o.opcode ≠ opHallmark) (hb : d.get F.BOOT_STATUS_BOOT_STATE < 2) : d.vaultStart = d := by
  unfold Dev.vaultStart
  rw [hr, Option.isSome_none, if_neg Bool.false_ne_true, ho]
  exact if_neg (by simp only [Bool.or_eq_true, beq_iff_eq, decide_eq_true_eq]; omega)

end

/-! ### Updates (R349 to R354) -/

theorem keyUpdate_none (h : d.running 59 [opKeyUpdate] = none) : d.keyUpdate = d := by
  unfold Dev.keyUpdate
  rw [h]

section
variable {o : Op} (hr : d.running 59 [opKeyUpdate] = some o)
include hr

theorem keyUpdate_stopped (h : o.stop = true) : d.keyUpdate = d.finish o .aborted errAborted := by
  unfold Dev.keyUpdate
  rw [hr]
  exact if_pos h

variable (h : o.stop = false) {m : List Byte} (hm : m = d.vaultMsg o) {d1 : Dev} (h1 : d1 = (d.slotTouch (mAuth m)).slotTouch (mTarget m))
include h hm h1

theorem keyUpdate_refused {e : Nat} (hc : d1.updateCheck o m = .error e) :
    d.keyUpdate = (if e == errAuth && nats (slice m 4 16) == uidBytes then d1.inc F.VAULT_UPDATE_AUTH_FAIL_COUNT else d1).msgEnd o e none := by
  unfold Dev.keyUpdate
  rw [hr]
  dsimp only
  rw [if_neg (ne_true_of_eq_false h), ← hm, ← h1, hc]

variable {x : List Nat × List Nat} (hc : d1.updateCheck o m = .ok x)
include hc

theorem keyUpdate_stores (ht : mType m = 1) {r : Nat} (hrec : r = mRecord m x.1) {d2 : Dev}
    (h2 : d2 = ((d1.inc F.VAULT_UPDATE_OK_COUNT).entryPut memSlot 0 (mTarget m) r).cacheUpdate (mTarget m)) :
    d.keyUpdate = d2.msgEnd o errOk (if mRoot m == 1 then some (confKey (d2.slotKey (mTarget m) r) m) else none) := by
  unfold Dev.keyUpdate
  rw [hr]
  dsimp only
  rw [if_neg (ne_true_of_eq_false h), ← hm, ← h1, hc]
  dsimp only
  rw [if_pos (beq_iff_eq.mpr ht), ← hrec, ← h2]

theorem keyUpdate_erases (ht : mType m = 3) : d.keyUpdate
    = (((d1.inc F.VAULT_UPDATE_OK_COUNT).entryPut memSlot 0 (mTarget m) (slRecord [] (mCounter m) 0 0 0 0)).cacheUpdate (mTarget m)).msgEnd o errOk
      (some (confKey x.2 m)) := by
  unfold Dev.keyUpdate
  rw [hr]
  dsimp only
  rw [if_neg (ne_true_of_eq_false h), ← hm, ← h1, hc]
  dsimp only
  rw [if_neg (by rw [ht]; decide), if_pos (beq_iff_eq.mpr ht)]

theorem keyUpdate_zeroises (ht1 : mType m ≠ 1) (ht3 : mType m ≠ 3) : d.keyUpdate = ((d1.inc F.VAULT_UPDATE_OK_COUNT).zeroise 7).msgEnd o errOk none := by
  unfold Dev.keyUpdate
  rw [hr]
  dsimp only
  rw [if_neg (ne_true_of_eq_false h), ← hm, ← h1, hc]
  dsimp only
  rw [if_neg (by simpa using ht1), if_neg (by simpa using ht3)]

end

theorem msgEnd_tbl (d : Dev) (o : Op) (e : Nat) (k : Option (List Nat)) : (d.msgEnd o e k).tbl = d.tbl := by
  unfold Dev.msgEnd Dev.opDone Dev.opFail
  simp only [apply_ite Dev.tbl, finish_tbl, hostWrite_tbl, ite_self]

/-- What an accepted update has passed (Table VLT-6). -/
theorem updateCheck_ok {o : Op} {m : List Byte} {x : List Nat × List Nat} (h : d.updateCheck o m = .ok x) :
    msgBad m (d.vaultPar o 8 2) [1, 3, 4] = false ∧ d.provisioned = true ∧ nats (slice m 4 16) = uidBytes ∧ d.slotMay (mAuth m) useAuthorise = true
      ∧ slCounter (d.slot (mTarget m)) < mCounter m ∧ unwrapMsg (d.slotKey (mAuth m) (d.slot (mAuth m))) m = (x.1, true) := by
  unfold Dev.updateCheck at h
  dsimp only at h
  split at h
  · cases h
  next hbad =>
  split at h
  · cases h
  next hprov =>
  split at h
  · cases h
  split at h
  · cases h
  split at h
  · cases h
  next huid =>
  split at h
  · cases h
  next hmay =>
  split at h
  · cases h
  next hcounter =>
  split at h
  · cases h
  next hok =>
  split at h
  · cases h
  split at h
  · cases h
  cases h
  exact ⟨by simpa using hbad, by simpa using hprov, by simpa using huid, by simpa using hmay, Nat.not_le.mp hcounter, Prod.ext rfl (by simpa using hok)⟩

/-! ### Provisioning (R355, R356) -/

theorem provision_none (h : d.running 59 [opProvision] = none) : d.provision = d := by
  unfold Dev.provision
  rw [h]

/-- The vault whose root secret is new, its slots not yet written. -/
def Dev.rooted (d1 : Dev) : Dev :=
  { d1.tookFree with
    vault := { d1.tookFree.vault with rs := nats (d1.freeBytes 32), rsBad := false, zeroSeen := false }
    tables := { d1.tookFree.tables with soft := d1.tookFree.tables.soft.filter (fun k => k != rsKey), pert := d1.tookFree.tables.pert.filter (fun k => k != rsKey) } }

/-- The vault whose slots a provisioning has written. -/
def Dev.provisionedBy (d4 : Dev) (r : Nat) : Dev := ((d4.entryPut memSlot 0 0 r).set F.VAULT_STATUS_STATE 1).tamperLog 8 0

section
variable {o : Op} (hr : d.running 59 [opProvision] = some o) {d1 : Dev} (h1 : d1 = d.setNonce none)
include hr h1

theorem provision_stopped (h : o.stop = true) : d.provision = d1.finish o .aborted errAborted := by
  unfold Dev.provision
  rw [hr, h1]
  exact if_pos h

variable (h : o.stop = false) {m : List Byte} (hm : m = d.vaultMsg o)
include h hm

theorem provision_refused {e : Nat} (hc : d.provCheck o m = .error e) : d.provision = d1.msgEnd o e none := by
  unfold Dev.provision
  rw [hr]
  dsimp only
  rw [if_neg (ne_true_of_eq_false h), ← hm, ← h1, hc]

theorem provision_installs {k : List Nat} (hc : d.provCheck o m = .ok k) {d4 : Dev}
    (h4 : d4 = (List.range 256).foldl (fun (d : Dev) i => d.entryPut memSlot 0 i (slRecord [] (mCounter m) 0 0 0 0)) d1.rooted) {r : Nat} (hrec : r = mRecord m k) :
    d.provision = (d4.provisionedBy r).msgEnd o errOk (some (confKey ((d4.provisionedBy r).slotKey 0 r) m)) := by
  unfold Dev.provision
  rw [hr]
  dsimp only
  rw [if_neg (ne_true_of_eq_false h), ← hm, ← h1, hc]
  dsimp only
  rw [← hrec, h4]
  rfl

end

/-- What an accepted provisioning has passed (R356). -/
theorem provCheck_ok {o : Op} {m : List Byte} {k : List Nat} (h : d.provCheck o m = .ok k) :
    d.provisioned = false ∧ d.vault.nonce = some (nats (slice m 32 16)) ∧ nats (slice m 4 16) = uidBytes ∧ unwrapMsg provKey m = (k, true) := by
  unfold Dev.provCheck at h
  generalize hu : unwrapMsg provKey m = u at h
  obtain ⟨secret, ok⟩ := u
  dsimp only at h
  split at h
  · cases h
  split at h
  · cases h
  next hprov =>
  split at h
  · cases h
  next huid =>
  split at h
  · cases h
  next hnonce =>
  split at h
  · cases h
  next hok =>
  split at h
  · cases h
  cases h
  exact ⟨by simpa using hprov, by simpa using hnonce, by simpa using huid, by simpa using hok⟩

/-! ### Attestation (R347, R359) -/

theorem hallmark_none (h : d.running 59 [opHallmark] = none) : d.hallmark = d := by
  unfold Dev.hallmark
  rw [h]

section
variable {o : Op} (hr : d.running 59 [opHallmark] = some o)
include hr

theorem hallmark_stopped (h : o.stop = true) : d.hallmark = d.finish o .aborted errAborted := by
  unfold Dev.hallmark
  rw [hr]
  exact if_pos h

variable (h : o.stop = false) {n : Nat} (hn : n = d.vaultPar o 8 1)
include h hn

theorem hallmark_length (hl : n < 16 ∨ 32 < n) : d.hallmark = d.opFail o errFormat := by
  unfold Dev.hallmark
  rw [hr]
  dsimp only
  rw [if_neg (ne_true_of_eq_false h), ← hn]
  exact if_pos (by simpa using hl)

variable (hl : 16 ≤ n) (hu : n ≤ 32) {k : Nat} (hk : k = d.vaultPar o 9 1) {d1 : Dev} (h1 : d1 = d.slotTouch k)
include hl hu hk h1

theorem hallmark_key (hm : d1.slotMay k useAttest = false) : d.hallmark = d1.opFail o errKey := by
  unfold Dev.hallmark
  rw [hr]
  dsimp only
  rw [if_neg (ne_true_of_eq_false h), ← hn, if_neg (by simp; omega), ← hk, ← h1]
  exact if_pos (by rw [hm]; rfl)

variable (hm : d1.slotMay k useAttest = true)
include hm

theorem hallmark_busy (hb : d1.flag F.VAULT_STATUS_MEASURING = true) : d.hallmark = d1.opFail o errBusy := by
  unfold Dev.hallmark
  rw [hr]
  dsimp only
  rw [if_neg (ne_true_of_eq_false h), ← hn, if_neg (by simp; omega), ← hk, ← h1, if_neg (by rw [hm]; decide)]
  exact if_pos hb

theorem hallmark_answers (hb : d1.flag F.VAULT_STATUS_MEASURING = false) :
    d.hallmark = (d1.hostWrite (d1.vaultPar o 16 8) (d1.hallmarkResponse (d1.hostRead (d1.vaultPar o 0 8) n) k)).opDone o := by
  unfold Dev.hallmark
  rw [hr]
  dsimp only
  rw [if_neg (ne_true_of_eq_false h), ← hn, if_neg (by simp; omega), ← hk, ← h1, if_neg (by rw [hm]; decide)]
  exact if_neg (ne_true_of_eq_false hb)

end

end

/-- Settles O31: each operation by how it ends, and what the two checks have passed that accept a message. -/
theorem vaultMessages : Obligations.VaultMessages := by
  refine ⟨fun s => ⟨fun hq h => next_settle_of_eq hq (vaultStart_idle h), fun o hr ho => ⟨fun h => next_settle_congr s (vaultStart_starts hr ho h),
      fun hq h hb => next_settle_of_eq hq (vaultStart_waits hr ho h hb)⟩⟩,
    fun s => ⟨fun hq h => next_settle_of_eq hq (keyUpdate_none h), fun o m d1 hr hm h1 => ?update⟩, fun d o m x h => updateCheck_ok h,
    fun s => ⟨fun hq h => next_settle_of_eq hq (provision_none h), fun o m d1 hr hm h1 => ?provision⟩, fun d o m k h => provCheck_ok h,
    fun s => ⟨fun hq h => next_settle_of_eq hq (hallmark_none h), fun o n k d1 hr hn hk h1 => ?hallmark⟩⟩
  case update =>
    refine ⟨fun h => next_settle_congr s (keyUpdate_stopped hr h), ?refused, fun x r d2 h hc ht hrec h2 => next_settle_congr s (keyUpdate_stores hr h hm h1 hc ht hrec h2),
      fun x h hc ht => next_settle_congr s (keyUpdate_erases hr h hm h1 hc ht), fun x h hc h1' h3 => next_settle_congr s (keyUpdate_zeroises hr h hm h1 hc h1' h3)⟩
    case refused =>
      rintro e h hc d2 rfl
      refine ⟨next_settle_congr s (keyUpdate_refused hr h hm h1 hc), ?_⟩
      rw [msgEnd_tbl]
      simp only [apply_ite Dev.tbl, inc_tbl, ite_self]
  case provision =>
    refine ⟨by rw [h1, setNonce_vault], fun h => next_settle_congr s (provision_stopped hr h1 h), fun e h hc => next_settle_congr s (provision_refused hr h1 h hm hc), ?_⟩
    rintro k d3 d4 r h hc rfl h4 hrec
    exact next_settle_congr s (provision_installs hr h1 h hm hc h4 hrec)
  case hallmark =>
    exact ⟨fun h => next_settle_congr s (hallmark_stopped hr h), fun h hl => next_settle_congr s (hallmark_length hr h hn hl),
      fun h hl hu => ⟨fun hm => next_settle_congr s (hallmark_key hr h hn hl hu hk h1 hm), fun hm hb => next_settle_congr s (hallmark_busy hr h hn hl hu hk h1 hm hb),
        fun hm hb => next_settle_congr s (hallmark_answers hr h hn hl hu hk h1 hm hb)⟩⟩

end Sys2Proof.Machine
end

section
/-!
PROOF. The vault island (R341, R349, R357 to R360, R529): power-up, zeroisation, its log and its reports.
-/
namespace Sys2Proof.Machine

/-! ### What the debug scope and the nonces leave alone -/

theorem pertPage_apart : ∀ b : Fin 66, R.VAULT_STATUS < faultPage b + 0xFC0 ∨ faultPage b + 0xFE0 ≤ R.VAULT_STATUS := by decide +kernel

/-- The perturbation registers of the pages in `l` take their Reset values. -/
def Dev.pertPages (d : Dev) (l : List Nat) : Dev := l.foldl (fun d b => d.resetRegs (faultPage b + 0xFC0) (faultPage b + 0xFE0)) d

/-- No error waits to be made, and FAULT_N is not forced. -/
def Dev.pertCleared (d : Dev) : Dev := ({ d with flt := { d.flt with inject := [] } }).set F.TEST_FAULTN_CTRL_FORCE 0

theorem pertStop_eq (d : Dev) : d.pertStop = (d.pertPages (List.range 66)).pertCleared := rfl

section
variable (f : FieldRef) (ha : f.addr = R.VAULT_STATUS) (hw : f.lo + f.w ≤ 32)
include ha hw

theorem pertPages_status (l : List Nat) (hl : ∀ b ∈ l, b < 66) (d : Dev) : (d.pertPages l).get f = d.get f := by
  induction l generalizing d with
  | nil => rfl
  | cons b l ih =>
    have hb : (d.resetRegs (faultPage b + 0xFC0) (faultPage b + 0xFE0)).get f = d.get f :=
      get_resetRegs_out _ _ _ _ (by rw [ha]; exact pertPage_apart ⟨b, hl b List.mem_cons_self⟩) hw
    exact (ih (fun c hc => hl c (List.mem_cons_of_mem _ hc)) _).trans hb

theorem pertCleared_status (d : Dev) : d.pertCleared.get f = d.get f := by
  have hne : F.TEST_FAULTN_CTRL_FORCE.addr ≠ f.addr := by
    rw [ha]
    decide
  unfold Dev.pertCleared
  rw [get_set_ne _ F.TEST_FAULTN_CTRL_FORCE f 0 (.inl hne) (by decide) hw]
  exact get_of_regs rfl f

/-- The end of every perturbation keeps the vault's status. -/
theorem pertStop_status (d : Dev) : d.pertStop.get f = d.get f := by
  rw [pertStop_eq, pertCleared_status f ha hw, pertPages_status f ha hw _ (fun b hb => List.mem_range.mp hb)]

end

section
variable (d : Dev)

theorem pertPages_kept (l : List Nat) : (d.pertPages l).vault = d.vault ∧ (d.pertPages l).tbl = d.tbl :=
  ⟨foldl_keep Dev.vault _ (fun _ _ => resetRegs_vault _ _ _) l d, foldl_keep Dev.tbl _ (fun _ _ => resetRegs_tbl _ _ _) l d⟩

theorem pertCleared_kept : d.pertCleared.vault = d.vault ∧ d.pertCleared.tbl = d.tbl := ⟨set_vault _ _ _, set_tbl _ _ _⟩

theorem pertStop_vault : d.pertStop.vault = d.vault := by rw [pertStop_eq, (pertCleared_kept _).1, (pertPages_kept d _).1]

theorem pertStop_tbl : d.pertStop.tbl = d.tbl := by rw [pertStop_eq, (pertCleared_kept _).2, (pertPages_kept d _).2]

theorem setScope_relock : d.setScope 0 = d.set F.VAULT_STATUS_DBG_SCOPE 0 ∨ d.setScope 0 = (d.set F.VAULT_STATUS_DBG_SCOPE 0).pertStop := by
  unfold Dev.setScope
  rw [if_neg (by decide)]
  split
  · exact .inr rfl
  · exact .inl rfl

theorem setScope_vault : (d.setScope 0).vault = d.vault := by
  rcases setScope_relock d with h | h
  · rw [h, set_vault]
  · rw [h, pertStop_vault, set_vault]

theorem setScope_tbl : (d.setScope 0).tbl = d.tbl := by
  rcases setScope_relock d with h | h
  · rw [h, set_tbl]
  · rw [h, pertStop_tbl, set_tbl]

theorem setScope_status (f : FieldRef) (ha : f.addr = R.VAULT_STATUS) (hw : f.lo + f.w ≤ 32) :
    (d.setScope 0).get f = (d.set F.VAULT_STATUS_DBG_SCOPE 0).get f := by
  rcases setScope_relock d with h | h
  · rw [h]
  · rw [h, pertStop_status f ha hw]

theorem setDbgNonce_vault (n : Option (List Nat)) : (d.setDbgNonce n).vault = { d.vault with dbgNonce := n } :=
  setDataRegs_keep Dev.vault (fun _ _ _ => rfl) _ _ _ _

theorem setNonce_tbl (n : Option (List Nat)) : (d.setNonce n).tbl = d.tbl := setDataRegs_keep Dev.tbl (fun _ _ _ => rfl) _ _ _ _

end

/-! ### Zeroisation (R357) -/

/-- The island holds no secret and no nonce, its state is ZEROISED and debug is locked. -/
structure VaultCleared (d : Dev) : Prop where
  rs : d.vault.rs = List.replicate 32 0
  nonce : d.vault.nonce = none
  seen : d.vault.zeroSeen = true
  slots : ∀ i, i < 2 ^ 24 → d.tget memSlot 0 i = 0
  state : d.get F.VAULT_STATUS_STATE = 2
  scope : d.get F.VAULT_STATUS_DBG_SCOPE = 0

/-- What keeps the island's stores and registers keeps it cleared. -/
theorem VaultCleared.of_kept {d e : Dev} (h : VaultCleared d) (hv : e.vault = d.vault) (hr : e.regs = d.regs)
    (ht : ∀ i, i < 2 ^ 24 → e.tget memSlot 0 i = d.tget memSlot 0 i) : VaultCleared e :=
  ⟨by rw [hv, h.rs], by rw [hv, h.nonce], by rw [hv, h.seen], fun i hi => (ht i hi).trans (h.slots i hi), by rw [get_of_regs hr, h.state],
    by rw [get_of_regs hr, h.scope]⟩

theorem vaultCleared_fold {α : Type} (op : Dev → α → Dev) (l : List α) (hop : ∀ d, ∀ x ∈ l, VaultCleared d → VaultCleared (op d x)) {d : Dev}
    (h : VaultCleared d) : VaultCleared (l.foldl op d) := by
  induction l generalizing d with
  | nil => exact h
  | cons x l ih => exact ih (fun d y hy => hop d y (List.mem_cons_of_mem _ hy)) (hop d x List.mem_cons_self h)

/-- The entry of a channel is none of a slot. -/
theorem vaultCleared_setChan {d : Dev} {c : Nat} (e : Nat) (hc : c < 2 ^ 24) (h : VaultCleared d) : VaultCleared (d.setChan c e) :=
  h.of_kept rfl rfl (fun i hi => tget_tset_ne d e (by unfold tkey memSlot memChan; omega))

theorem heldLeft_kept (d : Dev) (l : List Byte) : (d.heldLeft l).vault = d.vault ∧ (d.heldLeft l).regs = d.regs ∧ (d.heldLeft l).tbl = d.tbl := by
  have hcry : ∃ x, d.heldLeft l = { d with cry := x } := ⟨_, by unfold Dev.heldLeft; rfl⟩
  obtain ⟨x, hx⟩ := hcry
  rw [hx]
  exact ⟨rfl, rfl, rfl⟩

theorem vaultCleared_cryEnd {d : Dev} (o : Op) (st : OpState) (err : Nat) (h : VaultCleared d) : VaultCleared (d.cryEnd o st err) := by
  unfold Dev.cryEnd
  generalize (d.cry.jobs.filter (fun j => j.idx == o.idx)).flatMap (CryJob.left d) = l
  obtain ⟨hv, hr, ht⟩ := heldLeft_kept d l
  refine h.of_kept ?vault ?regs (fun i _ => ?slots)
  case vault => rw [finish_vault, hv]
  case regs => rw [finish_regs, hr]
  case slots =>
    unfold Dev.tget
    rw [finish_tbl, ht]

section
variable (d : Dev)

/-- The vault's own stores are empty; nothing of its registers is written yet. -/
def Dev.vaultEmptied (d : Dev) : Dev :=
  let d1 := d.tclear memSlot 0
  { d1 with
    vault := { d1.vault with rs := List.replicate 32 0, rsBad := false, zeroSeen := true }
    tables := { d1.tables with
      bad := d1.tables.bad.filter (fun k => k / 2 ^ 24 != memSlot * 2), soft := d1.tables.soft.filter (fun k => k / 2 ^ 24 != memSlot * 2)
      pert := d1.tables.pert.filter (fun k => k / 2 ^ 24 != memSlot * 2) } }

/-- The vault's own part of a zeroisation. -/
def Dev.vaultZeroed (d : Dev) : Dev := ((d.vaultEmptied.setNonce none).set F.VAULT_STATUS_STATE 2).setScope 0

theorem vaultZeroed_cleared : VaultCleared d.vaultZeroed := by
  have hv : d.vaultZeroed.vault = { d.vault with rs := List.replicate 32 0, rsBad := false, zeroSeen := true, nonce := none } := by
    unfold Dev.vaultZeroed
    rw [setScope_vault, set_vault, setNonce_vault]
    rfl
  have ht : d.vaultZeroed.tbl = d.vaultEmptied.tbl := by
    unfold Dev.vaultZeroed
    rw [setScope_tbl, set_tbl, setNonce_tbl]
  refine ⟨by rw [hv], by rw [hv], by rw [hv], fun i hi => ?slots, ?state, ?scope⟩
  case slots =>
    unfold Dev.tget
    rw [ht]
    exact (tget_tclear d memSlot 0 memSlot 0 hi).trans (if_pos rfl)
  case state =>
    unfold Dev.vaultZeroed
    rw [setScope_status _ _ rfl (by decide), get_set_apart _ _ (by decide), get_set_same _ F.VAULT_STATUS_STATE 2 (by decide)]
    rfl
  case scope =>
    unfold Dev.vaultZeroed
    rw [setScope_status _ _ rfl (by decide), get_set_same _ F.VAULT_STATUS_DBG_SCOPE 0 (by decide)]
    rfl

/-- The channels and the jobs that lose their keys with the vault leave it cleared. -/
theorem zeroClear_cleared : VaultCleared d.zeroClear := by
  have hz := vaultZeroed_cleared d
  unfold Dev.vaultZeroed Dev.vaultEmptied at hz
  unfold Dev.zeroClear
  dsimp only at hz ⊢
  split
  · exact hz
  · refine vaultCleared_fold _ _ (fun e o _ he => ?job) (vaultCleared_fold _ _ (fun e c hc he => ?chan) (hz.of_kept rfl rfl (fun _ _ => rfl)))
    case chan =>
      split
      · exact vaultCleared_setChan _ (Nat.lt_trans (List.mem_range.mp hc) (by decide)) he
      · exact he
    case job =>
      split
      · split
        · exact vaultCleared_cryEnd _ _ _ he
        · exact he
      · exact he

end

/-! ### The log and the reports (R358) -/

section
variable (d : Dev) (t : Nat)

theorem zeroTold_now (h : d.pwr.logicUp = true) : d.zeroTold t = d.zeroReport t (d.get F.VAULT_TLOG_STATUS_TOTAL) := if_pos h

theorem zeroTold_later (h : d.pwr.logicUp = false) :
    d.zeroTold t = { d with vault := { d.vault with report := d.vault.report ++ [(t, d.get F.VAULT_TLOG_STATUS_TOTAL)] } } := if_neg (ne_true_of_eq_false h)

theorem zeroiseNow_fails {o : Op} (h : (d.zeroise t).running 59 [opKeyUpdate, opProvision] = some o) : d.zeroiseNow t = (d.zeroise t).msgEnd o errKey none := by
  unfold Dev.zeroiseNow
  dsimp only
  rw [h]

theorem zeroiseNow_alone (h : (d.zeroise t).running 59 [opKeyUpdate, opProvision] = none) : d.zeroiseNow t = d.zeroise t := by
  unfold Dev.zeroiseNow
  dsimp only
  rw [h]

/-- The slot of the log that the next entry takes. -/
def Dev.tlogNext (d : Dev) : Nat := if d.get F.VAULT_TLOG_STATUS_ENTRIES == 0 then 0 else (d.get F.VAULT_TLOG_STATUS_NEWEST + 1) % 32

theorem tlogNext_lt : d.tlogNext < 32 := by
  unfold Dev.tlogNext
  split
  · decide
  · exact Nat.mod_lt _ (by decide)

/-- The log's own status after an entry. -/
def Dev.tlogCounted (d : Dev) : Dev :=
  ((d.set F.VAULT_TLOG_STATUS_ENTRIES (min 32 (d.get F.VAULT_TLOG_STATUS_ENTRIES + 1))).set F.VAULT_TLOG_STATUS_NEWEST d.tlogNext).set
    F.VAULT_TLOG_STATUS_TOTAL (satAdd 16 (d.get F.VAULT_TLOG_STATUS_TOTAL) 1)

/-- The words of an entry leave the log's status alone. -/
theorem tamperLog_status (x : Nat) (f : FieldRef) (ha : f.addr = R.VAULT_TLOG_STATUS) (hw : f.lo + f.w ≤ 32) : (d.tamperLog t x).get f = d.tlogCounted.get f := by
  have hk : ∀ k, R.VAULT_TLOG k ≠ R.VAULT_TLOG_STATUS ∧ R.VAULT_TLOG_W1 k ≠ R.VAULT_TLOG_STATUS ∧ R.VAULT_TLOG_W2 k ≠ R.VAULT_TLOG_STATUS := fun k => by
    unfold R.VAULT_TLOG R.VAULT_TLOG_W1 R.VAULT_TLOG_W2 R.VAULT_TLOG_STATUS
    omega
  obtain ⟨h0, h1, h2⟩ := hk d.tlogNext
  have hset : ∀ (e : Dev) (g : FieldRef) (v : Nat), g.addr ≠ R.VAULT_TLOG_STATUS → g.lo + g.w ≤ 32 → (e.set g v).get f = e.get f :=
    fun e g v hg hgw => get_set_ne e g f v (.inl (by rw [ha]; exact hg)) hgw hw
  unfold Dev.tamperLog
  dsimp only
  rw [hset _ _ _ h2 (of_decide_eq_true rfl), hset _ _ _ h1 (of_decide_eq_true rfl), hset _ _ _ h0 (of_decide_eq_true rfl), hset _ _ _ h0 (of_decide_eq_true rfl),
    hset _ _ _ h0 (of_decide_eq_true rfl)]
  rfl

theorem tlogCounted_fields : d.tlogCounted.get F.VAULT_TLOG_STATUS_ENTRIES = min 32 (d.get F.VAULT_TLOG_STATUS_ENTRIES + 1)
    ∧ d.tlogCounted.get F.VAULT_TLOG_STATUS_TOTAL = satAdd 16 (d.get F.VAULT_TLOG_STATUS_TOTAL) 1 ∧ d.tlogCounted.get F.VAULT_TLOG_STATUS_NEWEST = d.tlogNext := by
  unfold Dev.tlogCounted
  refine ⟨?entries, ?total, ?newest⟩
  case entries =>
    rw [get_set_apart _ _ (by decide), get_set_apart _ _ (by decide), get_set_same _ F.VAULT_TLOG_STATUS_ENTRIES _ (by decide)]
    exact Nat.mod_eq_of_lt (Nat.lt_of_le_of_lt (Nat.min_le_left _ _) (by decide))
  case total =>
    rw [get_set_same _ F.VAULT_TLOG_STATUS_TOTAL _ (by decide)]
    exact Nat.mod_eq_of_lt (satAdd_lt 16 _ _)
  case newest =>
    rw [get_set_apart _ _ (by decide), get_set_same _ F.VAULT_TLOG_STATUS_NEWEST _ (by decide)]
    exact Nat.mod_eq_of_lt (tlogNext_lt d)

theorem tamperLog_kept (x : Nat) : (d.tamperLog t x).tbl = d.tbl ∧ (d.tamperLog t x).vault = d.vault := by
  unfold Dev.tamperLog
  simp only [set_tbl, set_vault, and_self]

theorem tamperLog_entry (x : Nat) : (d.tamperLog t x).get F.VAULT_TLOG_STATUS_ENTRIES = min 32 (d.get F.VAULT_TLOG_STATUS_ENTRIES + 1)
    ∧ (d.tamperLog t x).get F.VAULT_TLOG_STATUS_TOTAL = satAdd 16 (d.get F.VAULT_TLOG_STATUS_TOTAL) 1
    ∧ (d.tamperLog t x).get F.VAULT_TLOG_STATUS_NEWEST = d.tlogNext := by
  rw [tamperLog_status d t x _ rfl (by decide), tamperLog_status d t x _ rfl (by decide), tamperLog_status d t x _ rfl (by decide)]
  exact tlogCounted_fields d

end

/-! ### Power-up, tampering, monitors and the supply -/

section
variable {d d0 d1 : Dev}
  (h0 : d0 = { d with
    bus := { d.bus with once := d.bus.once.filter (fun k => !(decide (0xE00000 ≤ k / 32) && decide (k / 32 < 0xE00F00))) }
    flt := { d.flt with wins := d.flt.wins.filter (fun p => p.1 != blkVault) } })
  (h1 : d1 = ((d0.setScope 0).setNonce none).setDbgNonce none)
include h1

theorem vaultPowerUp_nonces : d1.vault.nonce = none ∧ d1.vault.dbgNonce = none := by
  rw [h1, setDbgNonce_vault, setNonce_vault]
  exact ⟨rfl, rfl⟩

include h0

theorem vaultPowerUp_marked : d.vaultPowerUp true
    = (((d1.set F.VAULT_STATUS_CFG_IGNORED 0).resetRegs 0xE00100 0xE00210).resetRegs 0xE00500 0xE00600).resetRegs 0xE00F00 0xE01000 := by
  rw [h1, h0]
  unfold Dev.vaultPowerUp
  exact if_pos rfl

theorem vaultPowerUp_unmarked {d2 : Dev} (h2 : d2 = ({ d1.zeroClear.resetRegs 0xE00000 0xE01000 with vault := VaultSt.init } : Dev).tamperLog 6 0) :
    d.vaultPowerUp false = d2.zeroTold 6 := by
  rw [h2, h1, h0]
  unfold Dev.vaultPowerUp
  exact if_neg Bool.false_ne_true

end

section
variable (d : Dev)

theorem tamperInput_enabled {pin : Nat} (h : d.flag (if pin == 0 then F.VAULT_TMP_CFG_EN0 else F.VAULT_TMP_CFG_EN1) = true) :
    d.tamperInput pin = d.zeroiseNow (1 + pin) := if_pos h

theorem tamperInput_disabled {pin : Nat} (h : d.flag (if pin == 0 then F.VAULT_TMP_CFG_EN0 else F.VAULT_TMP_CFG_EN1) = false) :
    d.tamperInput pin = d := if_neg (ne_true_of_eq_false h)

theorem islandFault_zeroises {k : Nat} (h : k ≠ 1 ∨ d.pwr.logicUp = true) : d.islandFault k = d.zeroiseNow (3 + k) := by
  unfold Dev.islandFault
  exact if_neg (by rcases h with h | h <;> simp [h])

theorem islandFault_unclocked (h : d.pwr.logicUp = false) : d.islandFault 1 = d := if_pos (by rw [h]; rfl)

end

theorem vaultSupplySwitchover_shows (s : State) (b : Bool) (hq : s.dev.quiet) :
    ∃ t, exec (.vaultSupplySwitchover b) s = .next t ∧ t.dev.flag F.VAULT_STATUS_ON_VBKUP = b ∧ s.dev.regsOnly t.dev [R.VAULT_STATUS]
      ∧ t.dev.vault = s.dev.vault ∧ t.dev.tbl = s.dev.tbl :=
  ⟨{ s with dev := s.dev.set F.VAULT_STATUS_ON_VBKUP (b2n b) }, next_settle_of_flt hq rfl (set_flt _ _ _), flag_set_same _ F.VAULT_STATUS_ON_VBKUP b rfl (by decide),
    only_set F.VAULT_STATUS_ON_VBKUP _ (List.mem_singleton_self _) (by decide) (only_refl _ _), set_vault _ _ _, set_tbl _ _ _⟩

/-- Settles O32: what a zeroisation leaves is `VaultCleared`, kept while channels and jobs lose their keys; the rest are the cases of each step. -/
theorem vaultIsland : Obligations.VaultIsland := by
  refine ⟨fun s d0 d1 h0 h1 => ?power, ?told, ?sources, fun d t => ⟨fun o => zeroiseNow_fails d t, zeroiseNow_alone d t⟩, ?cleared, ?log, vaultSupplySwitchover_shows⟩
  case power =>
    obtain ⟨hnonce, hdbg⟩ := vaultPowerUp_nonces h1
    exact ⟨hnonce, hdbg, next_settle_congr s (vaultPowerUp_marked h0 h1), fun d2 h2 => next_settle_congr s (vaultPowerUp_unmarked h0 h1 h2)⟩
  case told =>
    rintro d t n rfl
    exact ⟨zeroTold_now d t, zeroTold_later d t, rfl⟩
  case sources =>
    intro s
    exact ⟨fun h => next_settle_congr s (tamperInput_enabled (pin := 0) _ h), fun h => next_settle_congr s (tamperInput_enabled (pin := 1) _ h),
      fun hq h => next_settle_of_eq hq (tamperInput_disabled (pin := 0) _ h), fun hq h => next_settle_of_eq hq (tamperInput_disabled (pin := 1) _ h),
      fun k h => next_settle_congr s (islandFault_zeroises _ (h.imp_left (fun hk hv => hk (Fin.ext hv)))), fun hq h => next_settle_of_eq hq (islandFault_unclocked _ h)⟩
  case cleared =>
    intro d
    obtain ⟨hrs, hnonce, hseen, hslots, hstate, hscope⟩ := zeroClear_cleared d
    exact ⟨hrs, hnonce, hseen, hslots, hstate, hscope⟩
  case log =>
    rintro d t x n rfl
    obtain ⟨hentries, htotal, hnewest⟩ := tamperLog_entry d t x
    exact ⟨hentries, htotal, fun h => hnewest.trans (if_neg (by simpa using h)), fun h => hnewest.trans (if_pos (by simpa using h)), tamperLog_kept d t x⟩

end Sys2Proof.Machine
end

section
/-!
PROOF. What wakes a segment (R363 to R376, R379): recognised sources, wakes by the segment's state, pins, false wakes, masks and wake-up frames.
-/
namespace Sys2Proof.Machine

/-- A count of at least one. -/
theorem atLeastOne_eq (x : Nat) : atLeastOne x = max 1 x := by
  unfold atLeastOne
  split
  · next h => rw [beq_iff_eq.mp h]; rfl
  · next h => exact (Nat.max_eq_right (Nat.one_le_iff_ne_zero.mpr (by simpa using h))).symm

/-! ### What a segment recognises (Tables NM-1 and NM-5) -/

section
variable (d : Dev) (p : Nat)

theorem wakeArmed_wup : d.wakeArmed p 1 = (segCanInt p && (d.get (F.PWR_XCVR_CAN_MODE (p - 20)) == 4 || d.get (F.PWR_XCVR_CAN_MODE (p - 20)) == 5)
    && d.flag (F.PWR_SW_CFG_WUP_EN (p - 20))) := rfl

theorem wakeArmed_wuf : d.wakeArmed p 2 = (segCanInt p && d.get (F.PWR_XCVR_CAN_MODE (p - 20)) == 5) := rfl

theorem wakeArmed_wufErr : d.wakeArmed p 3 = (segCanInt p && d.get (F.PWR_XCVR_CAN_MODE (p - 20)) == 5
    && decide (31 < d.get (F.PWR_SW_STATUS_ERR_CNT (p - 20)))) := rfl

theorem wakeArmed_frame : d.wakeArmed p 7 = (segCan p && !segCanInt p && d.ready 7 && d.get (F.CAN_CTRL_MODE (p - 20)) == 1) := rfl

theorem wakeArmed_none : d.wakeArmed p 0 = false := rfl

theorem wakeArmed_pin : d.wakeArmed p 8 = true := rfl

end

section
variable {d : Dev} {p src : Nat}

theorem wakeSeen_unarmed (h : d.wakeArmed p src = false) : d.wakeSeen p src = d := if_pos (by rw [h]; rfl)

variable (h : d.wakeArmed p src = true)
include h

theorem wakeSeen_awake (hs : d.standby = false) : d.wakeSeen p src = d.busWake p src false := by
  unfold Dev.wakeSeen
  rw [if_neg (by rw [h]; decide), hs]
  exact if_neg Bool.false_ne_true

variable (hs : d.standby = true) {d1 : Dev} (h1 : d1 = d.busWake p src true)
include hs h1

theorem wakeSeen_starts (h4 : d1.segState p = 4) (hl : (d1.seg p).latch.isSome = true) :
    d.wakeSeen p src = { d1 with nm := { d1.nm with standbyWake := setBit d1.nm.standbyWake p true } } := by
  unfold Dev.wakeSeen
  rw [if_neg (by rw [h]; decide), hs, ← h1]
  exact if_pos (by rw [h4, hl]; rfl)

theorem wakeSeen_kept (hl : d1.segState p ≠ 4 ∨ (d1.seg p).latch = none) : d.wakeSeen p src = d1 := by
  unfold Dev.wakeSeen
  rw [if_neg (by rw [h]; decide), hs, ← h1]
  exact if_neg (by rcases hl with hl | hl <;> simp [hl])

end

/-- A wake-up frame takes one off the frame-error count (R374). -/
def Dev.wufCounted (d : Dev) (p src : Nat) : Dev := if src = 2 then d.dec (F.PWR_SW_STATUS_ERR_CNT (p - 20)) else d

section
variable (d : Dev) (p : Fin 48) (src : Nat)

theorem wufCounted_standby : (d.wufCounted p src).standby = d.standby := by
  have hapart : FieldRef.apart (F.PWR_SW_STATUS_ERR_CNT (p - 20)) F.NM_PWR_STATUS_STATE = true := by revert p; decide +kernel
  unfold Dev.wufCounted Dev.standby Dev.dec
  split
  · rw [get_set_apart _ _ hapart]
  · rfl

theorem wufCounted_armed : (d.wufCounted p src).wakeArmed p src = d.wakeArmed p src := by
  have hapart : FieldRef.apart (F.PWR_SW_STATUS_ERR_CNT (p - 20)) (F.PWR_XCVR_CAN_MODE (p - 20)) = true := by revert p; decide +kernel
  unfold Dev.wufCounted
  split
  · next h =>
    subst h
    unfold Dev.dec
    rw [wakeArmed_wuf, wakeArmed_wuf, get_set_apart _ _ hapart]
  · rfl

variable {d p src}

theorem wakeReport_unarmed (h : d.wakeArmed p src = false) : d.wakeReport p src = d := by
  unfold Dev.wakeReport
  rw [if_neg, wakeSeen_unarmed h]
  rw [Bool.and_eq_true, beq_iff_eq]
  rintro ⟨rfl, ha⟩
  rw [h] at ha
  cases ha

theorem wakeReport_armed (h : d.wakeArmed p src = true) : d.wakeReport p src = (d.wufCounted p src).wakeSeen p src := by
  unfold Dev.wakeReport Dev.wufCounted
  by_cases hs : src = 2
  · subst hs
    rw [h]
    rfl
  · simp [hs]

end

/-! ### Wakes by the segment's state (R366, R367, R375) -/

section
variable {d d1 : Dev} {p src : Nat}

theorem commitWake_latched (h1 : d1 = d.wakeRecord p src true false false) (h : (d1.seg p).latch.isSome = true) : d.commitWake p src = d1 := by
  subst h1
  exact if_pos h

theorem commitWake_latches (h1 : d1 = d.wakeRecord p src true false false) (h : (d1.seg p).latch = none) :
    d.commitWake p src = d1.setSeg p { d1.seg p with latch := some src } := by
  subst h1
  exact if_neg (by rw [h]; exact Bool.false_ne_true)

variable {stby : Bool}

theorem busWake_off (h : d.segOn p = false) : d.busWake p src stby = d := if_pos (by rw [h]; rfl)

variable (h : d.segOn p = true)
include h

section
variable (hm : bit (d.get (F.NM_SEG_STATUS_MASKED p)) (src - 1) = false)
include hm

theorem busWake_ignored (h3 : d.segState p ≠ 3) (h4 : d.segState p ≠ 4) : d.busWake p src stby = d := by
  unfold Dev.busWake
  rw [if_neg (by rw [h]; decide), if_neg (ne_true_of_eq_false hm)]
  split
  · next e => exact absurd e h3
  · next e => exact absurd e h4
  · rfl

theorem busWake_commit (h3 : d.segState p = 3) : d.busWake p src stby = d.commitWake p src := by
  unfold Dev.busWake
  rw [if_neg (by rw [h]; decide), if_neg (ne_true_of_eq_false hm), h3]
  rfl

variable (h4 : d.segState p = 4) (h1 : d1 = d.wakeRecord p src false stby false) {here : Bool} (hh : here = (src == 6 || src == 7))
include h4 h1 hh

theorem busWake_heard (hn : (d1.nmHears || (here && d1.nmRuns)) = true) :
    d.busWake p src stby = (if here then d1 else d1.dieMsg).segWake p src false stby := by
  unfold Dev.busWake
  rw [if_neg (by rw [h]; decide), if_neg (ne_true_of_eq_false hm), h4]
  dsimp only
  rw [← h1, ← hh]
  exact if_pos hn

variable (hn : (d1.nmHears || (here && d1.nmRuns)) = false)
include hn

theorem busWake_latched (hl : (d1.seg p).latch.isSome = true) : d.busWake p src stby = d1 := by
  unfold Dev.busWake
  rw [if_neg (by rw [h]; decide), if_neg (ne_true_of_eq_false hm), h4]
  dsimp only
  rw [← h1, ← hh, if_neg (ne_true_of_eq_false hn)]
  exact if_pos hl

theorem busWake_latches (hl : (d1.seg p).latch = none) : d.busWake p src stby = d1.setSeg p { d1.seg p with latch := some src } := by
  unfold Dev.busWake
  rw [if_neg (by rw [h]; decide), if_neg (ne_true_of_eq_false hm), h4]
  dsimp only
  rw [← h1, ← hh, if_neg (ne_true_of_eq_false hn)]
  exact if_neg (by rw [hl]; exact Bool.false_ne_true)

end

section
variable (hm : bit (d.get (F.NM_SEG_STATUS_MASKED p)) (src - 1) = true)
include hm

theorem busWake_maskedAwake (h3 : d.segState p ≠ 3) (h4 : d.segState p ≠ 4) : d.busWake p src stby = d := by
  unfold Dev.busWake
  rw [if_neg (by rw [h]; decide), if_pos hm]
  exact if_neg (by simp [h3, h4])

theorem busWake_masked (hs : d.segState p = 3 ∨ d.segState p = 4)
    (h1 : d1 = (d.wakeRecord p src (d.segState p == 3) stby true).inc F.NM_MASKED_WAKES_COUNT) : d.busWake p src stby
      = d1.event62 0x02 p (d1.segState p) (d1.segState p) src (4 + b2n (d.segState p == 3) + 2 * b2n stby) 0 d1.wakeTicks := by
  subst h1
  unfold Dev.busWake
  rw [if_neg (by rw [h]; decide), if_pos hm]
  exact if_pos (by simpa using hs)

end

end

section
variable {d : Dev} {p src : Nat}

theorem localWake_off (h : d.segOn p = false ∨ d.nmRuns = false) : d.localWake p src = d := if_pos (by rcases h with h | h <;> simp [h])

variable (h : d.segOn p = true) (hr : d.nmRuns = true)
include h hr

theorem localWake_awake (h0 : d.segState p = 0) : d.localWake p src = d := by
  unfold Dev.localWake
  rw [if_neg (by rw [h, hr]; decide), h0]
  rfl

theorem localWake_returns (hs : d.segState p = 1 ∨ d.segState p = 2) :
    d.localWake p src = ((d.setSeg p { d.seg p with localWake := true }).wakeOut p).segStep p 0 := by
  unfold Dev.localWake
  rw [if_neg (by rw [h, hr]; decide)]
  rcases hs with hs | hs <;> rw [hs] <;> rfl

theorem localWake_commit (h3 : d.segState p = 3) : d.localWake p src = d.commitWake p src := by
  unfold Dev.localWake
  rw [if_neg (by rw [h, hr]; decide), h3]
  rfl

theorem localWake_asleep (h4 : d.segState p = 4) : d.localWake p src = ((d.wakeRecord p src false false false).wakeOut p).segWake p src false false := by
  unfold Dev.localWake
  rw [if_neg (by rw [h, hr]; decide), h4]
  rfl

theorem localWake_waking (h5 : d.segState p = 5) {d1 : Dev} (h1 : d1 = (d.setSeg p { d.seg p with localWake := true }).wakeOut p) :
    d.localWake p src = if (d1.seg p).active then d1.segStep p 0 else d1 := by
  subst h1
  unfold Dev.localWake
  rw [if_neg (by rw [h, hr]; decide), h5]
  rfl

end

/-! ### WAKE_IN pins (R373) -/

theorem pinCounts_iff (d : Dev) (n : Nat) (high : Bool) (ms : Nat) : d.pinCounts n high ms = true ↔
    d.flag (F.PWR_WAKE_IN_CFG_EN n) = true ∧ high ≠ d.flag (F.PWR_WAKE_IN_CFG_POL n) ∧ max 1 (d.get (F.PWR_WAKE_IN_CFG_FILT_MS n)) ≤ ms := by
  unfold Dev.pinCounts
  rw [atLeastOne_eq, Bool.and_eq_true, Bool.and_eq_true, bne_iff_ne, decide_eq_true_eq, and_assoc]

section
variable {d : Dev} {n : Nat} {high : Bool} {ms : Nat}

theorem wakeIn_uncounted (h : d.pinCounts n high ms = false) : d.wakeIn n high ms = d := if_pos (by rw [h]; rfl)

variable (h : d.pinCounts n high ms = true) {p : Nat} (hp : p = d.get (F.PWR_WAKE_IN_CFG_SEGMENT n))
include h hp

theorem wakeIn_nowhere (h48 : 48 ≤ p) (h63 : p ≠ 63) : d.wakeIn n high ms = d := by
  unfold Dev.wakeIn
  dsimp only
  rw [← hp, if_neg (by rw [h]; decide), if_neg (by simpa using h63)]
  exact if_pos h48

section
variable (h63 : p = 63)
include h63

theorem wakeIn_device (hs : d.standby = true) : d.wakeIn n high ms = { d with nm := { d.nm with standbyWake := setBit d.nm.standbyWake 63 true } } := by
  unfold Dev.wakeIn
  dsimp only
  rw [← hp, if_neg (by rw [h]; decide), if_pos (beq_iff_eq.mpr h63)]
  exact if_pos hs

theorem wakeIn_deviceAwake (hs : d.standby = false) : d.wakeIn n high ms = d := by
  unfold Dev.wakeIn
  dsimp only
  rw [← hp, if_neg (by rw [h]; decide), if_pos (beq_iff_eq.mpr h63)]
  exact if_neg (ne_true_of_eq_false hs)

end

section
variable (h48 : p < 48)
include h48

theorem wakeIn_local (hl : d.flag (F.PWR_WAKE_IN_CFG_LOCAL n) = true) : d.wakeIn n high ms = d.pinWake p := by
  unfold Dev.wakeIn
  dsimp only
  rw [← hp, if_neg (by rw [h]; decide), if_neg (by simp; omega), if_neg (Nat.not_le.mpr h48)]
  exact if_pos hl

theorem wakeIn_bus (hl : d.flag (F.PWR_WAKE_IN_CFG_LOCAL n) = false) (hs : d.standby = false) : d.wakeIn n high ms = d.busWake p 8 false := by
  unfold Dev.wakeIn
  dsimp only
  rw [← hp, if_neg (by rw [h]; decide), if_neg (by simp; omega), if_neg (Nat.not_le.mpr h48), if_neg (ne_true_of_eq_false hl)]
  exact wakeSeen_awake (wakeArmed_pin d p) hs

end

end

section
variable {d : Dev} {p : Nat}

theorem pinWake_heard (h : d.nmHears = true) : d.pinWake p = d.dieMsg.localWake p 0x12 := if_pos h

theorem pinWake_commit (h : d.nmHears = false) (ho : d.segOn p = true) (h3 : d.segState p = 3) : d.pinWake p = d.commitWake p 0x12 := by
  unfold Dev.pinWake
  rw [if_neg (ne_true_of_eq_false h)]
  exact if_pos (by simp [ho, h3])

theorem pinWake_unheard (h : d.nmHears = false) (hs : d.segOn p = false ∨ d.segState p ≠ 3 ∧ d.segState p ≠ 4) : d.pinWake p = d := by
  unfold Dev.pinWake
  rw [if_neg (ne_true_of_eq_false h), if_neg, if_neg]
  · rcases hs with hs | ⟨-, h4⟩
    · simp [hs]
    · simp [h4]
  · rcases hs with hs | ⟨h3, -⟩
    · simp [hs]
    · simp [h3]

end

/-! ### False wakes and masks (R376) -/

section
variable {d : Dev} {p : Nat}

theorem confirmTimeout_false (hr : d.segRuns p = true) (h5 : d.segState p = 5) (hl : (d.seg p).localWake = false) :
    d.confirmTimeout p = (d.reach ((d.seg p).since + max 1 (d.get F.NM_TIMEOUTS_T_CONFIRM_MS) * msCyc)).falseWake p := by
  unfold Dev.confirmTimeout
  rw [← atLeastOne_eq]
  exact if_pos (by simp [hr, h5, hl])

theorem confirmTimeout_local (hl : (d.seg p).localWake = true) : d.confirmTimeout p = d := if_neg (by simp [hl])

section
variable {l : List (Nat × Nat)}
  (hl : l = (d.seg p).falses.filter (fun k => decide (d.now ≤ k.2 + max 1 (d.get F.NM_FW_CFG_FW_WINDOW_S) * sCyc)) ++ [((d.seg p).source, d.now)])
  {d1 : Dev} (h1 : d1 = ((d.inc F.NM_FALSE_WAKES_COUNT).setSeg p { d.seg p with falses := l }).event62 0x03 p 5 2 (d.seg p).source (d.segFlags p) 0 d.wakeTicks)
include hl h1

theorem falseWake_below (hn : (l.filter (fun k => k.1 == (d.seg p).source)).length < max 1 (d1.get F.NM_FW_CFG_FW_LIMIT)) : d.falseWake p = d1.segStep p 2 := by
  rw [← atLeastOne_eq] at hl hn
  unfold Dev.falseWake
  dsimp only
  rw [← hl, ← h1, if_neg]
  rw [Bool.and_eq_true, decide_eq_true_eq]
  exact fun hc => absurd hc.1 (Nat.not_le.mpr hn)

theorem falseWake_masks (hn : max 1 (d1.get F.NM_FW_CFG_FW_LIMIT) ≤ (l.filter (fun k => k.1 == (d.seg p).source)).length)
    (hm : bit (d1.get (F.NM_SEG_STATUS_MASKED p)) ((d.seg p).source - 1) = false) {d2 : Dev}
    (h2 : d2 = (d1.setBitOf (F.NM_SEG_STATUS_MASKED p) ((d.seg p).source - 1) true).setSeg p { d1.seg p with masks := (d.seg p).masks ++ [((d.seg p).source, d1.now)] }) :
    d.falseWake p = ((d2.fault blkNm 0).event62 0x04 p 5 2 (d.seg p).source (d.segFlags p) 0 d.wakeTicks).segStep p 2 := by
  rw [← atLeastOne_eq] at hl hn
  unfold Dev.falseWake
  dsimp only
  rw [← hl, ← h1, if_pos (by rw [Bool.and_eq_true, decide_eq_true_eq, hm]; exact ⟨hn, rfl⟩), h2]

end

variable {src : Nat}

theorem maskTimeout_none (h : (d.seg p).masks.find? (fun k => k.1 == src) = none) : d.maskTimeout p src = d := by
  unfold Dev.maskTimeout
  rw [h]

section
variable {j t : Nat} (h : (d.seg p).masks.find? (fun k => k.1 == src) = some (j, t))
include h

theorem maskTimeout_forever (hz : d.get F.NM_MASK_CFG_MASK_S = 0) : d.maskTimeout p src = d := by
  unfold Dev.maskTimeout
  rw [h]
  exact if_pos (by simp [hz])

theorem maskTimeout_ends (hz : d.get F.NM_MASK_CFG_MASK_S ≠ 0) (hr : d.ready 7 = true) :
    d.maskTimeout p src = (d.reach (t + d.get F.NM_MASK_CFG_MASK_S * sCyc)).maskEnd p src := by
  unfold Dev.maskTimeout
  rw [h]
  exact if_neg (by simp [hz, hr])

end

end

/-! ### Wake-up frames (R374) -/

section
variable {d : Dev} {c : Nat} {f : WakeFrame}

theorem wufFrame_unseen (h : d.get (F.PWR_XCVR_CAN_MODE_ACT c) ≠ 5 ∨ f.fd = true ∧ d.flag (F.PWR_SW_CFG_FD_PASSIVE c) = true) : d.wufFrame c f = d := by
  unfold Dev.wufFrame
  exact if_pos (by simpa using h)

variable (ha : d.get (F.PWR_XCVR_CAN_MODE_ACT c) = 5)
include ha

section
variable (hp : f.fd = false ∨ d.flag (F.PWR_SW_CFG_FD_PASSIVE c) = false) (hb : f.bad = true ∨ f.fd = true ∨ f.rate.val ≠ d.get (F.PWR_SW_CFG_RATE c))
  {d1 : Dev} (h1 : d1 = d.inc (F.PWR_SW_STATUS_ERR_CNT c))
include hp hb h1

theorem wufFrame_error : d.wufFrame c f = if 31 < d1.get (F.PWR_SW_STATUS_ERR_CNT c) then d1.wakeSeen (20 + c) 3 else d1 := by
  subst h1
  unfold Dev.wufFrame
  dsimp only
  rw [if_neg (by rcases hp with hp | hp <;> simp [ha, hp])]
  exact if_pos (by simpa [or_assoc] using hb)

end

theorem wufFrame_good (hb : f.bad = false) (hf : f.fd = false) (hr : f.rate.val = d.get (F.PWR_SW_CFG_RATE c)) {d1 : Dev}
    (h1 : d1 = d.dec (F.PWR_SW_STATUS_ERR_CNT c)) : d.wufFrame c f = if d1.wufMatch c f then d1.wakeSeen (20 + c) 2 else d1 := by
  subst h1
  unfold Dev.wufFrame
  dsimp only
  rw [if_neg (by simp [ha, hf])]
  exact if_neg (by simp [hb, hf, hr])

end

theorem wufMatch_iff (d : Dev) (c : Nat) (f : WakeFrame) : d.wufMatch c f = true ↔
    f.ext = d.flag (F.PWR_SW_CFG_EXT c) ∧ f.id &&& d.get (F.PWR_SW_MASK_MASK c) = d.get (F.PWR_SW_ID_ID c) &&& d.get (F.PWR_SW_MASK_MASK c)
      ∧ (d.flag (F.PWR_SW_CFG_DLC_EN c) = true → f.dlc = d.get (F.PWR_SW_CFG_DLC c))
      ∧ (f.dlc = 0 → d.get (F.PWR_SW_DATA_DATA c) = 0) ∧ (f.dlc ≠ 0 → leNat (f.data.take (min 8 f.dlc)) &&& d.get (F.PWR_SW_DATA_DATA c) ≠ 0) := by
  have hdlc : (!d.flag (F.PWR_SW_CFG_DLC_EN c) || f.dlc == d.get (F.PWR_SW_CFG_DLC c)) = true
      ↔ (d.flag (F.PWR_SW_CFG_DLC_EN c) = true → f.dlc = d.get (F.PWR_SW_CFG_DLC c)) := by
    cases d.flag (F.PWR_SW_CFG_DLC_EN c) <;> simp
  have hdata : (if f.dlc == 0 then d.get (F.PWR_SW_DATA_DATA c) == 0 else (leNat (f.data.take (min 8 f.dlc)) &&& d.get (F.PWR_SW_DATA_DATA c)) != 0) = true
      ↔ (f.dlc = 0 → d.get (F.PWR_SW_DATA_DATA c) = 0) ∧ (f.dlc ≠ 0 → leNat (f.data.take (min 8 f.dlc)) &&& d.get (F.PWR_SW_DATA_DATA c) ≠ 0) := by
    by_cases h : f.dlc = 0 <;> simp [h]
  unfold Dev.wufMatch
  dsimp only
  rw [Bool.and_eq_true, Bool.and_eq_true, Bool.and_eq_true, beq_iff_eq, beq_iff_eq, hdlc, hdata, and_assoc, and_assoc]

/-! ### STANDBY (R379) -/

section
variable {d : Dev}

theorem standbyWake_idle (h : d.standby = false ∨ d.nm.standbyWake = 0) : d.standbyWake = d := if_pos (by rcases h with h | h <;> simp [h])

theorem standbyWake_starts (h : d.standby = true) (hw : d.nm.standbyWake ≠ 0) : d.standbyWake
    = (({ d with pwr := { d.pwr with inh0 := true, inh1 := true } }).set F.NM_PWR_STATUS_STATE 1).startDomains [10, 11, 12, 13, 14] :=
  if_neg (by simp [h, hw])

end

/-- Settles O34: what a segment recognises, then each kind of wake by the state that it finds. -/
theorem segmentWakes : Obligations.SegmentWakes := by
  refine ⟨?armed, ?rows, fun d d1 p src h1 => ⟨commitWake_latched h1, commitWake_latches h1⟩,
    fun d p src stby => ⟨busWake_off, fun h hm => ⟨busWake_ignored h hm, busWake_commit h hm, fun d1 here h4 h1 hh =>
        ⟨busWake_heard h hm h4 h1 hh, busWake_latched h hm h4 h1 hh, busWake_latches h hm h4 h1 hh⟩⟩,
      fun h hm => ⟨busWake_maskedAwake h hm, fun d1 hs h1 => busWake_masked h hm hs h1⟩⟩,
    fun d p src => ⟨localWake_off, fun h hr => ⟨localWake_awake h hr, localWake_returns h hr, localWake_commit h hr, localWake_asleep h hr,
      fun d1 h5 h1 => localWake_waking h hr h5 h1⟩⟩,
    fun d n => pinCounts_iff d n, fun s n high ms hq h => next_settle_of_eq hq (wakeIn_uncounted h), ?pins, ?confirm,
    fun d d1 d2 p l hl h1 h2 => ⟨falseWake_below hl h1, fun hn hm => falseWake_masks hl h1 hn hm h2⟩,
    fun s p src hq h => next_settle_of_eq hq (maskTimeout_none h),
    fun s p src j t h => ⟨fun hq hz => next_settle_of_eq hq (maskTimeout_forever h hz), fun hz hr => next_settle_congr s (maskTimeout_ends h hz hr)⟩,
    ?frames, fun d c f => wufMatch_iff d c f,
    fun s => ⟨fun hq h => next_settle_of_eq hq (standbyWake_idle h), fun h hw => next_settle_congr s (standbyWake_starts h hw)⟩⟩
  case armed =>
    rintro d p mode rfl
    exact ⟨wakeArmed_none d p, wakeArmed_wup d p, wakeArmed_wuf d p, wakeArmed_wufErr d p, rfl, rfl, rfl, wakeArmed_frame d p, wakeArmed_pin d p⟩
  case rows =>
    intro s p src d0 h0
    have hd : d0 = s.dev.wufCounted p src := h0
    have hreport : s.dev.wakeArmed p src = true → s.dev.wakeReport p src = d0.wakeSeen p src := fun h => hd ▸ wakeReport_armed h
    have harmed : d0.wakeArmed p src = s.dev.wakeArmed p src := hd ▸ wufCounted_armed s.dev p src
    have hstandby : d0.standby = s.dev.standby := hd ▸ wufCounted_standby s.dev p src
    refine ⟨fun hq h => next_settle_of_eq hq (wakeReport_unarmed h), fun hs h => ?_, fun d1 hs h h1 => ?_⟩
    · exact next_settle_congr s ((hreport h).trans (wakeSeen_awake (harmed.trans h) (hstandby.trans hs)))
    · exact ⟨fun h4 hl => next_settle_congr s ((hreport h).trans (wakeSeen_starts (harmed.trans h) (hstandby.trans hs) h1 h4 hl)),
        fun hl => next_settle_congr s ((hreport h).trans (wakeSeen_kept (harmed.trans h) (hstandby.trans hs) h1 hl))⟩
  case pins =>
    intro s n high ms p h hp
    refine ⟨fun hq h48 h63 => next_settle_of_eq hq (wakeIn_nowhere h hp h48 h63), fun h63 hs => next_settle_congr s (wakeIn_device h hp h63 hs),
      fun hq h63 hs => next_settle_of_eq hq (wakeIn_deviceAwake h hp h63 hs), fun h48 hl => ?_, fun h48 hl hs => next_settle_congr s (wakeIn_bus h hp h48 hl hs)⟩
    have hpin := wakeIn_local h hp h48 hl
    exact ⟨fun hn => next_settle_congr s (hpin.trans (pinWake_heard hn)), fun hn ho h3 => next_settle_congr s (hpin.trans (pinWake_commit hn ho h3)),
      fun hq hn hs => next_settle_of_eq hq (hpin.trans (pinWake_unheard hn hs))⟩
  case confirm =>
    exact fun s p hr h5 => ⟨fun hl => next_settle_congr s (confirmTimeout_false hr h5 hl), fun hq hl => next_settle_of_eq hq (confirmTimeout_local hl)⟩
  case frames =>
    intro s c f
    refine ⟨fun hq h => next_settle_of_eq hq (wufFrame_unseen h), fun ha hp hb d1 h1 => ?_, fun ha hb hf hr d1 h1 => next_settle_congr s (wufFrame_good ha hb hf hr h1)⟩
    have herr := wufFrame_error ha hp hb h1
    exact ⟨fun hc => next_settle_congr s (herr.trans (if_neg (Nat.not_lt.mpr hc))), fun hc => next_settle_congr s (herr.trans (if_pos hc))⟩

end Sys2Proof.Machine
end

section
/-!
PROOF. The segments' timers (R364, R366 to R368, R370, R377), and what a segment does as it enters a state (R34, Table NM-1).
-/
namespace Sys2Proof.Machine

/-! ### The passage of time leaves a segment as it is -/

section
variable (d : Dev) (p t : Nat)

theorem segState_reach : (d.reach t).segState p = d.segState p :=
  get_reach_ne d t _ (by simp only [F.NM_SEG_STATUS_STATE, R.NM_SEG_STATUS, R.TIME_SLEW_CTRL]; omega)

theorem segOn_reach : (d.reach t).segOn p = d.segOn p :=
  congrArg (· == 1) (get_reach_ne d t _ (by simp only [F.NM_SEG_CFG_EN, R.NM_SEG_CFG, R.TIME_SLEW_CTRL]; omega))

theorem nmRuns_reach : (d.reach t).nmRuns = d.nmRuns := by
  unfold Dev.nmRuns Dev.ready Dev.isolated Dev.flag
  rw [get_reach_ne d t _ (by decide), get_reach_ne d t _ (by decide), get_reach_ne d t _ (by decide)]

theorem segRuns_reach : (d.reach t).segRuns p = d.segRuns p := by unfold Dev.segRuns; rw [segOn_reach, nmRuns_reach]

theorem segRequested_reach : (d.reach t).flag (F.NM_SEG_CTRL_REQ p) = d.flag (F.NM_SEG_CTRL_REQ p) :=
  congrArg (· == 1) (get_reach_ne d t _ (by simp only [F.NM_SEG_CTRL_REQ, R.NM_SEG_CTRL, R.TIME_SLEW_CTRL]; omega))

theorem minAwakeMs_reach : (d.reach t).get (F.NM_TIMERS_B_MIN_AWAKE_MS p) = d.get (F.NM_TIMERS_B_MIN_AWAKE_MS p) :=
  get_reach_ne d t _ (by simp only [F.NM_TIMERS_B_MIN_AWAKE_MS, R.NM_TIMERS_B, R.TIME_SLEW_CTRL]; omega)

theorem seg_reach : (d.reach t).seg p = d.seg p := by unfold Dev.seg; rw [reach_nm]

end

/-! ### The timers of a segment's states (R364, R366, R367, R370) -/

section
variable {d : Dev} {p : Nat}

theorem minAwake_idle (h : d.segRuns p = false ∨ d.segState p ≠ 0 ∨ d.flag (F.NM_SEG_CTRL_REQ p) = true) : d.minAwake p = d :=
  if_neg (by rcases h with h | h | h <;> simp [h])

theorem readyExpire_idle (h : d.segRuns p = false ∨ d.segState p ≠ 1) : d.readyExpire p = d := if_neg (by rcases h with h | h <;> simp [h])

theorem prepareEnd_idle (h : d.segRuns p = false ∨ d.segState p ≠ 2) : d.prepareEnd p = d := if_neg (by rcases h with h | h <;> simp [h])

theorem commitDone_idle (h : d.segRuns p = false ∨ d.nmHears = false ∨ d.segState p ≠ 3) : d.commitDone p = d :=
  if_neg (by rcases h with h | h | h <;> simp [h])

theorem nmmDue_idle (h : d.segRuns p = false) : d.nmmDue p = d := if_neg (by simp [h])

theorem confirmTimeout_idle (h : d.segRuns p = false) : d.confirmTimeout p = d := if_neg (by simp [h])

variable (hr : d.segRuns p = true)
include hr

/-- At the end of MIN_AWAKE_MS the segment is as it was, so it leaves AWAKE (R366). -/
theorem minAwake_leaves (h0 : d.segState p = 0) (hreq : d.flag (F.NM_SEG_CTRL_REQ p) = false) :
    d.minAwake p = (d.reach ((d.seg p).since + max 1 (d.get (F.NM_TIMERS_B_MIN_AWAKE_MS p)) * msCyc)).segStep p 1 := by
  rw [← atLeastOne_eq]
  have hdue : (d.seg p).since + atLeastOne (d.get (F.NM_TIMERS_B_MIN_AWAKE_MS p)) * msCyc
      ≤ (d.reach ((d.seg p).since + atLeastOne (d.get (F.NM_TIMERS_B_MIN_AWAKE_MS p)) * msCyc)).now := by
    unfold Dev.now
    rw [reach_now]
    exact Nat.le_max_right _ _
  unfold Dev.minAwake Dev.segIdle
  rw [if_pos (by simp [hr, h0, hreq]), segRuns_reach, segState_reach, segRequested_reach, seg_reach, minAwakeMs_reach]
  exact if_pos (by simp [hr, h0, hreq, hdue])

theorem readyExpire_prepares (h1 : d.segState p = 1) :
    d.readyExpire p = (d.reach ((d.seg p).ready + max 1 (d.get (F.NM_TIMERS_A_READY_MS p)) * msCyc)).segStep p 2 := by
  rw [← atLeastOne_eq]
  exact if_pos (by simp [hr, h1])

theorem prepareEnd_commits (h2 : d.segState p = 2) :
    d.prepareEnd p = (d.reach ((d.seg p).since + max 1 (d.get (F.NM_TIMERS_A_PREPARE_MS p)) * msCyc)).segStep p 3 := by
  rw [← atLeastOne_eq]
  exact if_pos (by simp [hr, h2])

theorem nmmDue_sends (h0 : d.segState p = 0) (hn : d.nmmOn p = true) :
    d.nmmDue p = (d.reach ((d.seg p).nmmAt + max 1 (d.get (F.NM_TIMERS_B_NM_CYCLE_MS p)) * msCyc)).nmmSend p false := by
  rw [← atLeastOne_eq]
  exact if_pos (by simp [hr, h0, hn])

section
variable (hh : d.nmHears = true) (h3 : d.segState p = 3) {d1 : Dev}
  (h1 : d1 = (if segCanInt p then (d.xcvrApply p).owe (.canClear (p - 20)) else d.xcvrApply p).dieMsg)
include hh h3 h1

theorem commitDone_sleeps (hl : (d1.seg p).latch = none) : d.commitDone p = d1.segStep p 4 := by
  unfold Dev.commitDone
  rw [if_pos (by simp [hr, hh, h3])]
  dsimp only
  rw [← h1, hl]

theorem commitDone_wakes {src : Nat} (hl : (d1.seg p).latch = some src) :
    d.commitDone p = if 0x10 ≤ src then (d1.wakeOut p).segWake p src true false else d1.segWake p src true false := by
  unfold Dev.commitDone
  rw [if_pos (by simp [hr, hh, h3])]
  dsimp only
  rw [← h1, hl]
  exact apply_ite (fun x : Dev => x.segWake p src true false) _ _ _

end

end

/-! ### LIN responders (R368) -/

section
variable {d : Dev} {n : Nat}

theorem headerTimeout_idle (h : d.flag (F.LIN_CTRL_ROLE n) = true ∨ 2 ≤ d.segState (40 + n)) : d.headerTimeout n = d :=
  if_neg (by rcases h with h | h <;> simp [h, Nat.lt_iff_add_one_le])

theorem pulseRepeat_idle (h : d.flag (F.LIN_CTRL_ROLE n) = true ∨ 3 ≤ (d.seg (40 + n)).pulses) : d.pulseRepeat n = d :=
  if_neg (by rcases h with h | h <;> simp [h])

variable (hr : d.segRuns (40 + n) = true) (hrole : d.flag (F.LIN_CTRL_ROLE n) = false)
include hr hrole

theorem headerTimeout_prepares (h : d.segState (40 + n) < 2) :
    d.headerTimeout n = (d.reach ((d.seg (40 + n)).hdrAt + 4 * sCyc)).segStep (40 + n) 2 := if_pos (by simp [hr, hrole, h])

theorem pulseRepeat_pulses (hp : (d.seg (40 + n)).pulses < 3) (hs : d.segState (40 + n) = 0 ∨ d.segState (40 + n) = 5) {d1 : Dev}
    (h1 : d1 = d.reach ((d.seg (40 + n)).pulseAt + 200 * msCyc)) : d.pulseRepeat n = (d1.emit (.busWake (40 + n))).setSeg (40 + n)
      { d.seg (40 + n) with pulseAt := d1.now, pulses := (d.seg (40 + n)).pulses + 1 } := by
  subst h1
  exact if_pos (by simp [hr, hrole, hp, hs])

end

/-! ### The keep-awake limit (R377) -/

section
variable {d : Dev} {p : Nat}

theorem keepAwake_stopped (h : (d.seg p).ka = none) : d.keepAwake p = d := by unfold Dev.keepAwake; rw [h]

theorem keepAwake_idle (h : d.segRuns p = false) : d.keepAwake p = d := by
  unfold Dev.keepAwake
  split
  · rfl
  · exact if_neg (by simp [h])

theorem keepAwake_logs {t k : Nat} {d1 d2 d3 : Dev} {x : Seg} (hk : (d.seg p).ka = some t) (hr : d.segRuns p = true)
    (hs : d.segState p = 1 ∨ d.segState p = 2) (h1 : d1 = d.reach (t + max 1 (d.get F.NM_TIMEOUTS_KA_LIMIT_S) * sCyc)) (hx : x = d1.seg p)
    (hplace : k = if d1.get F.PWR_KA_STATUS_ENTRIES = 0 then 0 else (d1.get F.PWR_KA_STATUS_NEWEST + 1) % 32)
    (h2 : d2 = ((((d1.set (F.PWR_KA_LOG_SEGMENT k) p).set (F.PWR_KA_LOG_W1_KEEPER k) x.keeper).set (F.PWR_KA_LOG_W2_TICKS k) d1.wakeTicks).set
      (F.PWR_KA_LOG_W3_EVENTS k) (((x.kaCount.find? (fun (k : Nat × Nat) => k.1 == x.keeper)).map (fun k => k.2)).getD 0)).setSeg p { x with ka := none })
    (h3 : d3 = ((d2.set F.PWR_KA_STATUS_ENTRIES (min 32 (d1.get F.PWR_KA_STATUS_ENTRIES + 1))).set F.PWR_KA_STATUS_NEWEST k).inc F.PWR_KA_STATUS_TOTAL) :
    d.keepAwake p = d3.event62 0x05 p (d3.segState p) (d3.segState p) 0 0 x.keeper d3.wakeTicks := by
  have hplace' : k = if d1.get F.PWR_KA_STATUS_ENTRIES == 0 then 0 else (d1.get F.PWR_KA_STATUS_NEWEST + 1) % 32 := by simpa only [beq_iff_eq] using hplace
  unfold Dev.keepAwake
  rw [hk]
  dsimp only
  rw [if_pos (by simpa [hr] using hs), atLeastOne_eq, ← h1, ← hx, ← hplace', ← h2, ← h3]

end

section
variable {x : Seg}

theorem keeper_node {n : Nat} (h : x.kaNode = some n) : x.keeper = n := by unfold Seg.keeper; rw [h]

theorem keeper_frame {i : Nat} (hn : x.kaNode = none) (hf : x.kaFrame = some i) : x.keeper = 2 ^ 31 + i := by unfold Seg.keeper; rw [hn, hf]

theorem keeper_none (hn : x.kaNode = none) (hf : x.kaFrame = none) : x.keeper = 0xFFFFFFFF := by unfold Seg.keeper; rw [hn, hf]; rfl

end

/-! ### Entering a state (R34, Table NM-1) -/

/-- A number below 6 fits the three bits of a segment's state. -/
theorem segState_set (d : Dev) (p : Nat) {new : Nat} (h : new < 6) : (d.set (F.NM_SEG_STATUS_STATE p) new).segState p = new := by
  unfold Dev.segState
  rw [get_set_same _ _ _ (Nat.le_of_ble_eq_true rfl)]
  exact Nat.mod_eq_of_lt (Nat.lt_trans h (by decide : 6 < 2 ^ 3))

@[simp] theorem seg_setSeg_same (d : Dev) (p : Nat) (x : Seg) : (d.setSeg p x).seg p = x := SMap.get_set_same _ _ _ _

/-- A segment that leaves AWAKE excuses what is queued on it and what came in through it (R34). -/
def Dev.leaving (d : Dev) (p old : Nat) : Dev := if old = 0 then d.excuseSeg p else d

/-- What a segment keeps as it enters READY_SLEEP: the ready timer starts at 0, and out of AWAKE the keep-awake timer does too (R377). -/
def Seg.readied (x : Seg) (old now : Nat) : Seg :=
  if old = 0 then { x with since := now, ready := now, ka := some now, kaNode := none, kaFrame := none, kaCount := [] }
  else { x with since := now, ready := now }

section
variable (d : Dev) (p old : Nat)

theorem leaving_regs : (d.leaving p old).regs = d.regs := by unfold Dev.leaving; split <;> rfl

theorem leaving_nm : (d.leaving p old).nm = d.nm := by unfold Dev.leaving; split <;> rfl

theorem leaving_time : (d.leaving p old).time = d.time := by unfold Dev.leaving; split <;> rfl

theorem leaving_eq_ite : (if old == 0 then d.excuseSeg p else d) = d.leaving p old := by simp only [beq_iff_eq]; rfl

theorem segEnter_ready : d.segEnter p old 1 = (d.leaving p old).setSeg p ((d.seg p).readied old d.now) := by
  have hseg : (d.leaving p old).seg p = d.seg p := by unfold Dev.seg; rw [leaving_nm]
  have hnow : (d.leaving p old).now = d.now := congrArg TimeSt.now (leaving_time d p old)
  unfold Dev.segEnter
  rw [leaving_eq_ite]
  dsimp only
  rw [hseg, hnow]
  simp only [beq_iff_eq]
  rfl

theorem readied_timers (x : Seg) (now : Nat) : (x.readied old now).ready = now ∧ (x.readied old now).since = now := by
  unfold Seg.readied
  split <;> exact ⟨rfl, rfl⟩

theorem readied_ka (x : Seg) (now : Nat) (h : old ≠ 0) : (x.readied old now).ka = x.ka := by unfold Seg.readied; rw [if_neg h]

variable {d p old} {e : Dev} (he : e = d.leaving p old)
include he

theorem segEnter_prepare {d1 : Dev} (h1 : d1 = (e.setSeg p { e.seg p with since := e.now }).dropWhere p (fun c => !c.started && !c.hold) .unavail) :
    d.segEnter p old 2 = if segLin p && d1.flag (F.LIN_CTRL_ROLE (p - 40)) then d1.linPrepare p else d1 := by
  subst he h1
  unfold Dev.segEnter
  rw [leaving_eq_ite]
  rfl

variable {d1 : Dev} (h1 : d1 = (e.setSeg p { e.seg p with since := e.now, ka := none, latch := none, active := false, localWake := false }).dieMsg)
include h1

theorem segEnter_commit : d.segEnter p old 3 =
    if segCanInt p then (d1.setXcvr p (d1.wakeMode p)).set (F.PWR_SW_STATUS_ERR_CNT (p - 20)) 0
    else if segCan p then (d1.set (F.CAN_CTRL_MODE (p - 20)) 1).owe (.canClear (p - 20))
    else if segLin p then d1.setXcvr p 3
    else if segTs p then (d1.phySleep p true).owe (.ethDown p)
    else (d1.recipe p (32 * p + 24)).owe (.ethDown p) := by
  subst he h1
  unfold Dev.segEnter
  rw [leaving_eq_ite]
  rfl

end

/-! ### The obligation -/

/-- Settles O33: each timer by what it waits for, and the states by what their entry does. -/
theorem segmentTimers : Obligations.SegmentTimers := by
  unfold Obligations.SegmentTimers
  refine ⟨fun d p => rfl, ?stopped, ?awake, ?states, ?responder, ?commander, fun s p hq h => next_settle_of_eq hq (keepAwake_stopped h),
    fun s p t d1 d2 d3 x k hk hr hs h1 hx hp h2 h3 => next_settle_congr s (keepAwake_logs hk hr hs h1 hx hp h2 h3),
    fun d p new => ⟨rfl, segState_set d p⟩, fun x => ⟨fun n => keeper_node, fun i => keeper_frame, keeper_none⟩, ?entry⟩
  case stopped =>
    exact fun s p hq h => ⟨next_settle_of_eq hq (minAwake_idle (.inl h)), next_settle_of_eq hq (readyExpire_idle (.inl h)),
      next_settle_of_eq hq (prepareEnd_idle (.inl h)), next_settle_of_eq hq (commitDone_idle (.inl h)), next_settle_of_eq hq (nmmDue_idle h),
      next_settle_of_eq hq (confirmTimeout_idle h), next_settle_of_eq hq (keepAwake_idle h)⟩
  case awake =>
    exact fun s p hr h0 => ⟨fun hreq => next_settle_congr s (minAwake_leaves hr h0 hreq),
      fun hq hreq => next_settle_of_eq hq (minAwake_idle (.inr (.inr hreq))),
      fun hq => ⟨next_settle_of_eq hq (readyExpire_idle (.inr (by rw [h0]; decide))), next_settle_of_eq hq (prepareEnd_idle (.inr (by rw [h0]; decide))),
        next_settle_of_eq hq (commitDone_idle (.inr (.inr (by rw [h0]; decide))))⟩⟩
  case states =>
    exact fun s p hr => ⟨fun h1 => next_settle_congr s (readyExpire_prepares hr h1), fun h2 => next_settle_congr s (prepareEnd_commits hr h2),
      fun d1 hh h3 h1 => ⟨fun hl => next_settle_congr s (commitDone_sleeps hr hh h3 h1 hl), fun src hl => next_settle_congr s (commitDone_wakes hr hh h3 h1 hl)⟩,
      fun hq hh => next_settle_of_eq hq (commitDone_idle (.inr (.inl hh))), fun h0 hn => next_settle_congr s (nmmDue_sends hr h0 hn)⟩
  case responder =>
    exact fun s n hr hrole => ⟨fun h => next_settle_congr s (headerTimeout_prepares hr hrole h), fun hq h => next_settle_of_eq hq (headerTimeout_idle (.inr h)),
      fun hp hs d1 h1 => next_settle_congr s (pulseRepeat_pulses hr hrole hp hs h1), fun hq h => next_settle_of_eq hq (pulseRepeat_idle (.inr h))⟩
  case commander =>
    exact fun s n hq h => ⟨next_settle_of_eq hq (headerTimeout_idle (.inl h)), next_settle_of_eq hq (pulseRepeat_idle (.inl h))⟩
  case entry =>
    intro d p old
    obtain ⟨hready, hsince⟩ := readied_timers old (d.seg p) d.now
    refine ⟨?_, ?_, ?_, ?_, fun h => ?_, fun e he => ⟨fun hp => ?_, fun hp hp' d1 h1 => ?_, fun d1 h1 => ?_⟩⟩
    · rw [segEnter_ready, seg_setSeg_same, hready]
    · rw [segEnter_ready, seg_setSeg_same, hsince]
    · rw [segEnter_ready]
      exact leaving_regs d p old
    · rw [segEnter_ready, seg_setSeg_same]
      rfl
    · rw [segEnter_ready, seg_setSeg_same, readied_ka _ _ _ h]
    · rw [segEnter_prepare he rfl]
      exact if_neg (by simp [segLin, show ¬ 40 ≤ p by omega])
    · rw [segEnter_prepare he h1]
      simp [segLin, hp]
    · rw [segEnter_commit he h1]
      refine ⟨fun hp hp' => ?_, fun hp hp' => ?_, fun hp hp' => ?_, fun hp hp' => ?_, fun hp => ?_⟩
      · simp [segCanInt, hp, hp']
      · simp [segCanInt, segCan, hp', show 20 ≤ p by omega, show ¬ p < 32 by omega]
      · simp [segCanInt, segCan, segLin, hp, show ¬ p < 32 by omega, show ¬ p < 40 by omega]
      · simp [segCanInt, segCan, segLin, segTs, hp, hp', show ¬ 20 ≤ p by omega, show ¬ 40 ≤ p by omega]
      · simp [segCanInt, segCan, segLin, segTs, show ¬ 20 ≤ p by omega, show ¬ 40 ≤ p by omega, show ¬ 12 ≤ p by omega]

end Sys2Proof.Machine
end

section
/-!
PROOF. Anvil's operations beside ADMIT, PROBE and CHANGE (R39 to R41, R48, R49), the quarantine (R45) and the ledger-violation flag (R69).
-/
namespace Sys2Proof.Machine

/-! ### The contract table -/

section
variable (d : Dev) (i : Nat) (c : Option Contract)

@[simp] theorem contract_setContract_same : (d.setContract i c).contract i = c := SMap.get_set_same _ _ _ _

theorem contract_setContract_ne {j : Nat} (h : j ≠ i) : (d.setContract i c).contract j = d.contract j := SMap.get_set_ne _ _ _ _ _ _ (Ne.symm h)

end

theorem contract_of_contracts {d e : Dev} (h : e.anvil.contracts = d.anvil.contracts) (i : Nat) : e.contract i = d.contract i := by
  unfold Dev.contract
  rw [h]

/-! ### WITHDRAW (R45, R49) -/

theorem unpinUnused_contracts (d : Dev) (slot : Nat) : (d.unpinUnused slot).anvil.contracts = d.anvil.contracts := by
  unfold Dev.unpinUnused
  split <;> rfl

/-- Beside the contract table a withdrawal touches the stream table and the pinned keys only. -/
theorem commitWithdraw_contracts (d : Dev) (i : Nat) (k : Contract) : (d.commitWithdraw i k).anvil.contracts
    = (d.setContract i (if d.stamped i then some { k with quar := true } else none)).anvil.contracts := by
  unfold Dev.commitWithdraw
  dsimp only
  rw [foldl_keep (fun d => d.anvil.contracts) _ unpinUnused_contracts]
  split
  · rw [entryWrite_anvil]
  · rfl

section
variable {d : Dev} {o : Op}

theorem anvilWithdraw_unnamed (ho : d.anvilOp 3 = some o) (hn : d.namedContract o = none) : d.anvilWithdraw = d.opFail o errFormat := by
  unfold Dev.anvilWithdraw
  rw [ho]
  dsimp only
  rw [hn]

theorem readContract_unnamed (ho : d.anvilOp 7 = some o) (hn : d.namedContract o = none) : d.readContract = d.opFail o errFormat := by
  unfold Dev.readContract
  rw [ho]
  dsimp only
  rw [hn]

section
variable (hs : o.stop = false) {i : Nat} {k : Contract} (hn : d.namedContract o = some (i, k))
include hs hn

theorem anvilWithdraw_done (ho : d.anvilOp 3 = some o) :
    d.anvilWithdraw = ((d.commitWithdraw i k).hostWrite (o.param + 8) (d.contractAnswer i k)).opDone o := by
  unfold Dev.anvilWithdraw
  rw [ho]
  dsimp only
  rw [hn]
  exact if_neg (ne_true_of_eq_false hs)

theorem readContract_done (ho : d.anvilOp 7 = some o) :
    d.readContract = (d.hostWrite (o.param + 8) (leBytes 64 k.req ++ d.contractAnswer i k)).opDone o := by
  unfold Dev.readContract
  rw [ho]
  dsimp only
  rw [hn]
  exact if_neg (ne_true_of_eq_false hs)

end

end

/-! ### Measurement records (R39, R40) -/

/-- CLEAR_MEASURE at one index: the record of a contract starts anew, in quarantine too. -/
def Dev.measCleared (d : Dev) (i : Nat) : Dev :=
  match d.contract i with
  | some k => d.setContract i (some { k with meas := Meas.init })
  | none => d

theorem measCleared_same (d : Dev) (i : Nat) : (d.measCleared i).contract i = (d.contract i).map (fun k => { k with meas := Meas.init }) := by
  unfold Dev.measCleared
  split
  · next k h => rw [contract_setContract_same, h]; rfl
  · next h => rw [h]; rfl

theorem measCleared_ne (d : Dev) {i j : Nat} (h : j ≠ i) : (d.measCleared i).contract j = d.contract j := by
  unfold Dev.measCleared
  split
  · exact contract_setContract_ne _ _ _ h
  · rfl

/-- The records of `n` indices from `first` on start anew, one after another. -/
def Dev.measClearRun (d : Dev) (first n : Nat) : Dev := (List.range n).foldl (fun x j => x.measCleared (first + j)) d

theorem measClearRun_succ (d : Dev) (first n : Nat) : d.measClearRun first (n + 1) = (d.measClearRun first n).measCleared (first + n) := by
  unfold Dev.measClearRun
  rw [List.range_succ, List.foldl_append]
  rfl

theorem measClearRun_outside (d : Dev) (first n : Nat) {j : Nat} (h : ¬ (first ≤ j ∧ j < first + n)) :
    (d.measClearRun first n).contract j = d.contract j := by
  induction n with
  | zero => rfl
  | succ n ih => rw [measClearRun_succ, measCleared_ne _ (by omega), ih (by omega)]

theorem measClearRun_inside (d : Dev) (first n : Nat) {j : Nat} (h1 : first ≤ j) (h2 : j < first + n) :
    (d.measClearRun first n).contract j = (d.contract j).map (fun k => { k with meas := Meas.init }) := by
  induction n with
  | zero => omega
  | succ n ih =>
    rw [measClearRun_succ]
    by_cases hj : j = first + n
    · subst hj
      rw [measCleared_same, measClearRun_outside _ _ _ (by omega)]
    · rw [measCleared_ne _ hj, ih (by omega)]

section
variable {d : Dev} {o : Op}

theorem readMeasure_badRange (ho : d.anvilOp 5 = some o) (hr : d.measRange o = none) : d.readMeasure = d.opFail o errFormat := by
  unfold Dev.readMeasure
  rw [ho]
  dsimp only
  rw [hr]

theorem clearMeasure_badRange (ho : d.anvilOp 6 = some o) (hr : d.measRange o = none) : d.clearMeasure = d.opFail o errFormat := by
  unfold Dev.clearMeasure
  rw [ho]
  dsimp only
  rw [hr]

variable (hs : o.stop = false) {first n : Nat} (hr : d.measRange o = some (first, n))
include hs hr

theorem readMeasure_done (ho : d.anvilOp 5 = some o) : d.readMeasure
    = ((List.range n).foldl (fun x j => x.hostWrite (o.param + 8 + 128 * j) (d.measRecord (first + j))) d).finish
        { o with progress := n, partialCnt := n } .done errOk := by
  unfold Dev.readMeasure
  rw [ho]
  dsimp only
  rw [hr]
  exact if_neg (ne_true_of_eq_false hs)

theorem clearMeasure_done (ho : d.anvilOp 6 = some o) : d.clearMeasure = (d.measClearRun first n).finish { o with progress := n } .done errOk := by
  unfold Dev.clearMeasure
  rw [ho]
  dsimp only
  rw [hr]
  exact if_neg (ne_true_of_eq_false hs)

end

/-! ### The start of an operation (R41, R482) -/

section
variable {d : Dev} {o : Op} (hr : d.running 56 [1, 2, 3, 4, 5, 6, 7] = none) (hq : d.nextQueued 56 [1, 2, 3, 4, 5, 6, 7] = some o)
include hr hq

theorem anvilStart_recovery (hb : d.get F.BOOT_STATUS_BOOT_STATE = 3) : d.anvilStart = d.opFail o errDomainOff := by
  unfold Dev.anvilStart
  rw [hr, hq]
  exact if_pos (by rw [hb]; rfl)

variable (hb : d.get F.BOOT_STATUS_BOOT_STATE ≠ 3)
include hb

theorem anvilStart_waits (h : (d.mgmtRuns && d.ready 2) = false) : d.anvilStart = d := by
  unfold Dev.anvilStart
  rw [hr, hq]
  dsimp only
  rw [if_neg (by simpa using hb)]
  exact if_pos (by rw [← Bool.not_and, h]; rfl)

/-- Of the operations only a CHANGE can be malformed by its type. -/
theorem anvilStart_starts (hm : d.mgmtRuns = true) (h2 : d.ready 2 = true) (ho : o.opcode ≠ 4) : d.anvilStart = d.startOp o := by
  unfold Dev.anvilStart
  rw [hr, hq]
  dsimp only
  rw [if_neg (by simpa using hb), if_neg (by rw [hm, h2]; decide)]
  exact if_neg (by simp [ho])

end

/-! ### Quarantine and ledger (R45, R69) -/

theorem quarantineEnd_frees {d : Dev} {i : Nat} {k : Contract} (h : d.contract i = some k) (hk : k.quar = true) (hs : d.stamped i = false) :
    d.quarantineEnd i = d.setContract i none := by
  unfold Dev.quarantineEnd
  rw [h]
  exact if_pos (by rw [hk, hs]; rfl)

/-- Outside the T1S ports no beacon can be lost, so the flag clears HOLD_MS after the last break. -/
theorem ledgerHold_clears {d d1 : Dev} {p t : Nat} (h : SMap.get d.anvil.breakAt none p = some t) (hp : p < 12 ∨ 20 ≤ p)
    (h1 : d1 = d.reach (t + atLeastOne (d.get F.ANVIL_LEDGER_HOLD_HOLD_MS) * msCyc)) :
    d.ledgerHold p = { d1 with anvil := { d1.anvil with breakAt := SMap.set d1.anvil.breakAt none p none } } := by
  subst h1
  have hlost : (decide (12 ≤ p) && decide (p < 20)) = false := by
    rw [Bool.and_eq_false_iff, decide_eq_false_iff_not, decide_eq_false_iff_not]
    omega
  unfold Dev.ledgerHold
  rw [h]
  exact if_neg (by rw [hlost]; exact Bool.false_ne_true)

/-! ### The obligation -/

/-- Settles O9, operation by operation. That a range over the end of the contract table fails with ERR_FORMAT is the design choice of log 8. -/
theorem anvilReadsAndEnds : Obligations.AnvilReadsAndEnds := by
  unfold Obligations.AnvilReadsAndEnds
  refine ⟨?withdraw, ?unnamed, ?readContract, ?measure, ?badRange, ?start, ?quarantine, ?ledger⟩
  case withdraw =>
    rintro s d e o i k rfl ho hs hn rfl
    have hc := contract_of_contracts (commitWithdraw_contracts s.dev i k)
    exact ⟨next_settle_congr s (anvilWithdraw_done hs hn ho), (hc i).trans (contract_setContract_same _ _ _),
      fun j hj => (hc j).trans (contract_setContract_ne _ _ _ hj)⟩
  case unnamed =>
    rintro s d o rfl hq hn
    exact ⟨fun ho => next_settle_of_flt hq (anvilWithdraw_unnamed ho hn) (finish_flt _ _ _ _),
      fun ho => next_settle_of_flt hq (readContract_unnamed ho hn) (finish_flt _ _ _ _)⟩
  case readContract =>
    rintro s d o i k rfl hq ho hs hn
    refine ⟨_, next_settle_of_flt hq (readContract_done hs hn ho) ?flt, rfl, ?anvil, ?regs⟩
    case flt => exact (finish_flt _ _ _ _).trans (hostWrite_flt _ _ _)
    case anvil => exact (finish_anvil _ _ _ _).trans (hostWrite_anvil _ _ _)
    case regs => exact (finish_regs _ _ _ _).trans (hostWrite_regs _ _ _)
  case measure =>
    rintro s d o first n rfl hr hs
    exact ⟨fun ho => next_settle_congr s (readMeasure_done hs hr ho), fun ho => ⟨s.dev.measClearRun first n, next_settle_congr s (clearMeasure_done hs hr ho),
      fun j h1 h2 => measClearRun_inside _ _ _ h1 h2, fun j hj => measClearRun_outside _ _ _ hj⟩⟩
  case badRange =>
    rintro s d o rfl hq hr
    exact ⟨fun ho => next_settle_of_flt hq (readMeasure_badRange ho hr) (finish_flt _ _ _ _),
      fun ho => next_settle_of_flt hq (clearMeasure_badRange ho hr) (finish_flt _ _ _ _)⟩
  case start =>
    rintro s d o rfl hq hrun hnext
    exact ⟨fun hb => next_settle_of_flt hq (anvilStart_recovery hrun hnext hb) (finish_flt _ _ _ _),
      fun hb h => next_settle_of_flt hq (anvilStart_waits hrun hnext hb h) rfl,
      fun hb hm h2 ho => next_settle_of_flt hq (anvilStart_starts hrun hnext hb hm h2 ho) (startOp_flt _ _)⟩
  case quarantine =>
    exact fun s i k hq h hk hs => ⟨_, next_settle_of_flt hq (quarantineEnd_frees h hk hs) rfl, contract_setContract_same _ _ _,
      fun j hj => contract_setContract_ne _ _ _ hj, rfl⟩
  case ledger =>
    exact fun s p t hq h hp => ⟨_, next_settle_of_flt hq (ledgerHold_clears h hp rfl) (reach_flt _ _), by rw [SMap.get_set_same], reach_now _ _⟩

end Sys2Proof.Machine
end

section
/-!
PROOF. LIN slots, headers, responses and errors (R215 to R223, R368), and the integrated transceivers (R225, R226).
-/
namespace Sys2Proof.Machine

/-! ### A controller beside its registers -/

section
variable (d : Dev) (n : Nat)

@[simp] theorem linCtl_setLinCtl_same (x : Lin) : (d.setLinCtl n x).linCtl n = x := SMap.get_set_same _ _ _ _

@[simp] theorem linCtl_linSendHeader (id : Nat) : (d.linSendHeader n id).linCtl n = d.linCtl n := by
  unfold Dev.linSendHeader Dev.linCtl
  rw [emit_lin]

/-- A header goes out unless its port is silent (R215, R226). -/
theorem linSendHeader_out (id : Nat) (h : d.muted (.linHeader (40 + n) (13 + d.get (F.LIN_CTRL_BREAK_EXT n)) 1 0x55 (linPid id)) = false) :
    (d.linSendHeader n id).out = .linHeader (40 + n) (13 + d.get (F.LIN_CTRL_BREAK_EXT n)) 1 0x55 (linPid id) :: d.out := by
  unfold Dev.linSendHeader Dev.emit
  rw [if_neg (ne_true_of_eq_false h)]

end

/-! ### A controller off the bus, and a schedule that does not run -/

section
variable {d : Dev} {n : Nat}

theorem linSlotStart_idle (busy bad : Bool) (err : Option LinCut) (h : (d.linCtl n).running = false) : d.linSlotStart n busy bad err = d :=
  if_pos (by rw [h]; rfl)

theorem linValid_ignored (id : Nat) (data : List Byte) (chk : Byte) (age : Nat) (bad : Bool) (h : d.linActive n = false ∨ data = [] ∨ 8 < data.length) :
    d.linValid n id data chk age bad = d := if_pos (by rcases h with h | h | h <;> simp [h])

variable (h : d.linActive n = false)
include h

theorem linError_inactive (e : LinErr) : d.linError n e = d := if_pos (by rw [h]; rfl)

theorem linSilent_inactive : d.linSilent n = d := by
  unfold Dev.linSilent
  dsimp only
  split
  · rfl
  · exact if_neg (by simp [h])

theorem linHeader_inactive (id brk rate age : Nat) (bad : Bool) (err : Option LinCut) : d.linHeader n id brk rate age bad err = d :=
  if_pos (by rw [h]; rfl)

end

/-! ### Errors (R223, Table CAN-9) -/

/-- An error ends the frame under way, and it is an error of the bus for what waits on it (R34). -/
def Dev.linEnded (d : Dev) (n : Nat) : Dev := (d.setLinCtl n { d.linCtl n with cur := none }).busError (40 + n)

section
variable (d : Dev) (n : Nat)

theorem busError_excuses (p : Nat) : ∀ c ∈ (d.busError p).fwd.copies, c.port = p → c.excused = true := by
  intro c hc hp
  obtain ⟨c0, -, rfl⟩ := List.mem_map.mp hc
  by_cases h : c0.port = p
  · rw [if_pos (by simpa using h)]
  · rw [if_neg (by simpa using h)] at hp
    exact absurd hp h

/-- What an error's counter and the controller show after it. -/
theorem linEnded_counts (f : FieldRef) (hw : f.w = 32) (hl : f.lo = 0) : ((d.linEnded n).inc f).get f = satAdd 32 (d.get f) 1
    ∧ (((d.linEnded n).inc f).linCtl n).cur = none ∧ d.regsOnly ((d.linEnded n).inc f) [f.addr] ∧ ((d.linEnded n).inc f).fwd = (d.linEnded n).fwd := by
  refine ⟨?count, ?cur, ?regs, inc_fwd _ _⟩
  case count =>
    rw [get_inc_same _ _ (by omega), hw]
    rfl
  case cur =>
    have hlin : ((d.linEnded n).inc f).linCtl n = { d.linCtl n with cur := none } := by
      unfold Dev.linCtl
      rw [inc_lin]
      exact linCtl_setLinCtl_same d n _
    rw [hlin]
  case regs => exact only_inc f (List.mem_singleton_self _) (by omega) (only_of (only_refl d _) rfl)

variable {d n}

section
variable (h : d.linActive n = true)
include h

theorem linError_header : d.linError n .header = (d.linEnded n).inc (F.LIN_HDR_ERR_COUNT n) := if_neg (by rw [h]; decide)

theorem linError_framing : d.linError n .framing = (d.linEnded n).inc (F.LIN_FRAME_ERR_COUNT n) := if_neg (by rw [h]; decide)

theorem linError_checksum : d.linError n .checksum = (d.linEnded n).inc (F.LIN_CHK_ERR_COUNT n) := if_neg (by rw [h]; decide)

theorem linError_bit : d.linError n .bit = ((d.linEnded n).inc (F.LIN_BIT_ERR_COUNT n)).fault (blkLin n) 0 := if_neg (by rw [h]; decide)

/-- A response was due: from another node for a commander, to be read for a responder. -/
theorem linSilent_counts {f : LinFrame} (hc : (d.linCtl n).cur = some f) (hw : if d.flag (F.LIN_CTRL_ROLE n) then f.dir ≠ 0 else f.dir = 2) :
    d.linSilent n = (d.linEnded n).inc (F.LIN_NO_RESP_COUNT n) := by
  have hwant : (if d.flag (F.LIN_CTRL_ROLE n) then f.dir != 0 else f.dir == 2) = true := by
    split at hw
    · next hr => rw [if_pos hr]; simpa using hw
    · next hr => rw [if_neg hr]; simpa using hw
  unfold Dev.linSilent
  dsimp only
  rw [hc]
  exact if_pos (by rw [hwant, h]; rfl)

theorem linHeader_refused (id age : Nat) (bad : Bool) {brk rate : Nat} {err : Option LinCut} (hr : d.flag (F.LIN_CTRL_ROLE n) = false)
    (he : d.linHeaderOk n brk rate = false ∨ err = some .header) :
    d.linHeader n id brk rate age bad err = (d.busError (40 + n)).inc (F.LIN_HDR_ERR_COUNT n) := by
  unfold Dev.linHeader
  dsimp only
  rw [if_neg (by simp [h, hr])]
  exact if_pos (by rcases he with he | he <;> simp [he])

end

/-! ### Headers of a responder (R220, R221) -/

theorem linHeaderOk_auto (brk rate : Nat) (h : d.flag (F.LIN_CTRL_AUTOBAUD n) = true) :
    d.linHeaderOk n brk rate = true ↔ 550000 ≤ brk ∧ 1000 ≤ rate ∧ rate ≤ 20000 ∧ 11 * 1000000000 ≤ brk * rate := by
  unfold Dev.linHeaderOk
  dsimp only
  rw [if_pos h]
  simp only [Bool.and_eq_true, decide_eq_true_eq, and_assoc]

theorem linHeaderOk_fixed (brk rate : Nat) (h : d.flag (F.LIN_CTRL_AUTOBAUD n) = false) :
    d.linHeaderOk n brk rate = true ↔ 11 * 1000000000 ≤ brk * d.get (F.LIN_BAUD_RATE n)
      ∧ 86 * d.get (F.LIN_BAUD_RATE n) ≤ 100 * rate ∧ 100 * rate ≤ 114 * d.get (F.LIN_BAUD_RATE n) := by
  unfold Dev.linHeaderOk
  dsimp only
  rw [if_neg (ne_true_of_eq_false h)]
  simp only [Bool.and_eq_true, decide_eq_true_eq, and_assoc]

section
variable {id brk rate age e : Nat} {bad : Bool} {err : Option LinCut} {d0 d1 d2 : Dev} (ha : d.linActive n = true) (hr : d.flag (F.LIN_CTRL_ROLE n) = false)
  (hok : d.linHeaderOk n brk rate = true) (herr : err ≠ some .header)
  (h0 : d0 = if d.flag (F.LIN_CTRL_AUTOBAUD n) then d.set (F.LIN_STATUS_MEAS_RATE n) rate else d)
  (h1 : d1 = d0.setSeg (40 + n) { d0.seg (40 + n) with hdrAt := d0.now, pulses := 3 }) (he : e = d1.tget memResp 0 (64 * n + id))
  (h2 : d2 = d1.setLinCtl n { d1.linCtl n with cur := some ⟨id, e % 4, lsLen e, lsChk e, none⟩ })
include ha hr hok herr h0 h1 he h2

theorem linHeader_unanswered (h : e % 4 ≠ 1 ∨ 2 ≤ d2.segState (40 + n)) : d.linHeader n id brk rate age bad err = d2 := by
  unfold Dev.linHeader
  dsimp only
  rw [if_neg (by simp [ha, hr]), if_neg (by simp [hok, herr]), ← h0, ← h1, ← he, ← h2]
  exact if_neg (by rcases h with h | h <;> simp [h]; omega)

variable (h : e % 4 = 1) (hs : d2.segState (40 + n) < 2) {d3 : Dev} {c : Option Copy}
include h hs

theorem linHeader_empty (hd : d2.linData (40 + n) id (lsNoData e) bad = (d3, c, none)) : d.linHeader n id brk rate age bad err = d3 := by
  unfold Dev.linHeader
  dsimp only
  rw [if_neg (by simp [ha, hr]), if_neg (by simp [hok, herr]), ← h0, ← h1, ← he, ← h2, if_pos (by simp [h, hs]), hd]

theorem linHeader_answered {bs : List Byte} (hd : d2.linData (40 + n) id (lsNoData e) bad = (d3, c, some bs)) :
    d.linHeader n id brk rate age bad err = d3.linRespond n id (lsChk e) c bs ((d3.dtime + 2 ^ 64 - age % 2 ^ 64) % 2 ^ 64) err := by
  unfold Dev.linHeader
  dsimp only
  rw [if_neg (by simp [ha, hr]), if_neg (by simp [hok, herr]), ← h0, ← h1, ← he, ← h2, if_pos (by simp [h, hs]), hd]

end

/-! ### Responses of other nodes (R215, R222) -/

section
variable {id : Nat} {f : LinFrame} (hc : (d.linCtl n).cur = some f) (hid : f.id = id) (hd : f.dir ≠ 0 ∨ d.flag (F.LIN_CTRL_ROLE n) = true)
include hc hid hd

theorem linWant_entry : d.linWant n id = some f.len := by
  unfold Dev.linWant
  rw [hc]
  exact if_neg (by rcases hd with hd | hd <;> simp [hid, hd])

theorem linSumOk_enhanced (body : List Byte) (sum : Nat) (he : f.enhanced = true) (h : id < 0x3C) :
    d.linSumOk n id body sum = if sum = linSum (leBytes 1 (linPid id) ++ body) then some false else none := by
  unfold Dev.linSumOk linEnhanced
  dsimp only
  rw [hc]
  dsimp only
  rw [if_neg (by rcases hd with hd | hd <;> simp [hid, hd]), if_pos (by simp [he, h]), if_pos h]
  simp only [beq_iff_eq]

theorem linSumOk_classic (body : List Byte) (sum : Nat) (h : f.enhanced = false ∨ 0x3C ≤ id) :
    d.linSumOk n id body sum = if sum = linSum body then some true else none := by
  unfold Dev.linSumOk linClassic
  dsimp only
  rw [hc]
  dsimp only
  rw [if_neg (by rcases hd with hd | hd <;> simp [hid, hd]), if_neg (by rcases h with h | h <;> simp [h])]
  simp only [beq_iff_eq]

end

section
variable {id age k sum : Nat} {data body : List Byte} {chk : Byte} {bad : Bool} (ha : d.linActive n = true) (hne : data ≠ []) (h8 : data.length ≤ 8)
  (hk : k = (d.linWant n id).getD data.length) (hb : body = data.take k) (hs : sum = byteAt (data ++ [chk]) k)
include ha hne h8 hk

theorem linValid_short (h : data.length < k) : d.linValid n id data chk age bad = d.linError n .framing := by
  unfold Dev.linValid
  rw [if_neg (by simp [ha, hne, h8])]
  dsimp only
  rw [← hk]
  exact if_pos h

include hb hs

theorem linValid_badSum (h : k ≤ data.length) (ho : d.linSumOk n id body sum = none) : d.linValid n id data chk age bad = d.linError n .checksum := by
  unfold Dev.linValid
  rw [if_neg (by simp [ha, hne, h8])]
  dsimp only
  rw [← hk, if_neg (Nat.not_lt.mpr h), ← hb, ← hs, ho]

theorem linValid_good (h : k ≤ data.length) {cl : Bool} (ho : d.linSumOk n id body sum = some cl) :
    d.linValid n id data chk age bad = d.linDeliver n id body cl age bad := by
  unfold Dev.linValid
  rw [if_neg (by simp [ha, hne, h8])]
  dsimp only
  rw [← hk, if_neg (Nat.not_lt.mpr h), ← hb, ← hs, ho]

end

section
variable {id age : Nat} {body : List Byte} {cl bad : Bool} {d1 d2 : Dev}
  (h1 : d1 = (((d.setLinCtl n { d.linCtl n with cur := none }).countRx (40 + n) body.length).segReceived (40 + n) none (some id)).ledgerCheck (40 + n)
    5 id body.length false 0)
  (h2 : d2 = (d1.fqPut (40 + n)
    { Msg.init with form := 5, id := id, data := body, flags := 32 * b2n cl, sof := (d1.dtime + 2 ^ 64 - age % 2 ^ 64) % 2 ^ 64 } d1.dtime 0 bad none).1)
include h1 h2

theorem linDeliver_sleeps (hid : id = 0x3C) (hb : body = bytes [0, 0xFF, 0xFF, 0xFF, 0xFF, 0xFF, 0xFF, 0xFF]) :
    d.linDeliver n id body cl age bad = d2.linSleep n := by
  unfold Dev.linDeliver
  dsimp only
  rw [← h1, ← h2]
  exact if_pos (by rw [hid, hb]; decide)

theorem linDeliver_plain (h : id ≠ 0x3C ∨ body ≠ bytes [0, 0xFF, 0xFF, 0xFF, 0xFF, 0xFF, 0xFF, 0xFF]) : d.linDeliver n id body cl age bad = d2 := by
  unfold Dev.linDeliver
  dsimp only
  rw [← h1, ← h2]
  exact if_neg (by rcases h with h | h <;> simp [h])

end

end

/-! ### Slots of a commander (R216 to R219) -/

section
variable (d : Dev) (n e : Nat)

/-- The header of a slot's entry has gone out, and its frame is the present one. -/
def Dev.slotHead : Dev :=
  (d.linSendHeader n (lsId e)).setLinCtl n { (d.linSendHeader n (lsId e)).linCtl n with cur := some ⟨lsId e, lsDir e, lsLen e, lsChk e, none⟩ }

/-- A slot on a busy bus: the sixteenth in a row raises the fault (R219). -/
def Dev.slotSkipped (skips : Nat) : Dev :=
  let d1 := (d.inc (F.LIN_SKIPPED_COUNT n)).setLinCtl n { d.linCtl n with skips := skips + 1 }
  if skips + 1 = 16 then d1.fltSet (blkLin n) 1 else d1

/-- A slot of DIR 0 to 2 on an idle bus. -/
def Dev.slotSent (bad : Bool) (err : Option LinCut) : Dev :=
  if err = some .header then (d.slotHead n e).linAbandon n
  else if lsDir e = 0 then
    match d.linData (40 + n) (lsId e) (lsNoData e) bad with
    | (d1, c, some bs) => (d1.slotHead n e).linRespond n (lsId e) (lsChk e) c bs d1.dtime err
    | (d1, _, none) => if lsNoData e then d1 else d1.slotHead n e
  else d.slotHead n e

variable {d n e} {bad : Bool} {err : Option LinCut}

theorem slotSent_fails : d.slotSent n e bad (some .header) = (d.slotHead n e).linAbandon n := if_pos rfl

variable (herr : err ≠ some .header)
include herr

theorem slotSent_read (h : lsDir e ≠ 0) : d.slotSent n e bad err = d.slotHead n e := by
  unfold Dev.slotSent
  rw [if_neg herr, if_neg h]

variable {d1 : Dev} {c : Option Copy} (h : lsDir e = 0)
include h

theorem slotSent_data {bs : List Byte} (hd : d.linData (40 + n) (lsId e) (lsNoData e) bad = (d1, c, some bs)) :
    d.slotSent n e bad err = (d1.slotHead n e).linRespond n (lsId e) (lsChk e) c bs d1.dtime err := by
  unfold Dev.slotSent
  rw [if_neg herr, if_pos h, hd]

theorem slotSent_noData (hd : d.linData (40 + n) (lsId e) (lsNoData e) bad = (d1, c, none)) :
    d.slotSent n e bad err = if lsNoData e then d1 else d1.slotHead n e := by
  unfold Dev.slotSent
  rw [if_neg herr, if_pos h, hd]

end

section
variable {d d0 d1 : Dev} {n : Nat} {x : Lin} {busy bad : Bool} {err : Option LinCut} (hx : x = d.linCtl n) (hr : x.running = true)
  (h0 : d0 = d.reach x.slotEnd) (h1 : d1 = d0.linSwitch n)
include hx hr h0 h1

section
variable (h : x.stopping = true ∨ d0.linActive n = false ∨ d0.flag (F.LIN_CTRL_ROLE n) = false)
include h

/-- A schedule that stops leaves its controller as it starts, but for a committed switch of tables. -/
theorem linSlotStart_ends : d.linSlotStart n busy bad err = if x.sleepDue && d0.linActive n
    then (d1.setLinCtl n { Lin.init with next := (d1.linCtl n).next }).goToSleep (40 + n)
    else d1.setLinCtl n { Lin.init with next := (d1.linCtl n).next } := by
  unfold Dev.linSlotStart
  dsimp only
  rw [← hx, if_neg (by simp [hr]), ← h0, if_pos (by rcases h with h | h | h <;> simp [h]), ← h1]

theorem linSlotStart_stops (hs : x.sleepDue = false ∨ d0.linActive n = false) :
    d.linSlotStart n busy bad err = d1.setLinCtl n { Lin.init with next := (d1.linCtl n).next } :=
  (linSlotStart_ends hx hr h0 h1 h).trans (if_neg (by rcases hs with hs | hs <;> simp [hs]))

theorem linSlotStart_sleeps (hs : x.sleepDue = true) (ha : d0.linActive n = true) :
    d.linSlotStart n busy bad err = (d1.setLinCtl n { Lin.init with next := (d1.linCtl n).next }).goToSleep (40 + n) :=
  (linSlotStart_ends hx hr h0 h1 h).trans (if_pos (by rw [hs, ha]; rfl))

end

variable (hs : x.stopping = false) (ha : d0.linActive n = true) (hrole : d0.flag (F.LIN_CTRL_ROLE n) = true) {t i e : Nat} {d2 : Dev}
  (ht : t = d1.get (F.LIN_STATUS_TABLE n)) (hi : i = if x.next.isSome then 0 else d1.slotNext n t x) (he : e = d1.slotEnt n t i)
  (h2 : d2 = (d1.set (F.LIN_STATUS_SLOT n) i).setLinCtl n
    { x with next := none, slotAt := d1.now, slotEnd := d1.now + atLeastOne (lsDelay e) * d1.get (F.LIN_TBASE_TBASE_US n) * usCyc, cur := none })
include hs ha hrole ht hi he h2

theorem linSlotStart_runs : d.linSlotStart n busy bad err =
    if lsDir e = 3 then d2 else if busy then d2.slotSkipped n x.skips else (d2.setLinCtl n { d2.linCtl n with skips := 0 }).slotSent n e bad err := by
  unfold Dev.linSlotStart Dev.slotSkipped Dev.slotSent Dev.slotHead
  dsimp only
  rw [← hx, if_neg (by simp [hr]), ← h0, if_neg (by simp [hs, ha, hrole]), ← h1, ← ht, ← hi, ← he, ← h2]
  simp only [beq_iff_eq, linCtl_linSendHeader] <;> rfl

theorem linSlotStart_unused (h : lsDir e = 3) : d.linSlotStart n busy bad err = d2 :=
  (linSlotStart_runs hx hr h0 h1 hs ha hrole ht hi he h2).trans (if_pos h)

theorem linSlotStart_busy (h : lsDir e ≠ 3) : d.linSlotStart n true bad err = d2.slotSkipped n x.skips :=
  (linSlotStart_runs hx hr h0 h1 hs ha hrole ht hi he h2).trans ((if_neg h).trans (if_pos rfl))

theorem linSlotStart_sent (h : lsDir e ≠ 3) : d.linSlotStart n false bad err = (d2.setLinCtl n { d2.linCtl n with skips := 0 }).slotSent n e bad err :=
  (linSlotStart_runs hx hr h0 h1 hs ha hrole ht hi he h2).trans ((if_neg h).trans (if_neg Bool.false_ne_true))

end

/-! ### Integrated transceivers (R225, R226) -/

theorem hasXcvr_can {p : Nat} {c : Fin 12} (h : p = 20 + c) : segCanInt p = true ∧ p - 20 = c := by
  subst h
  exact ⟨by simp [segCanInt]; omega, by omega⟩

theorem hasXcvr_lin {p : Nat} {n : Fin 8} (h : p = 40 + n) : segCanInt p = false ∧ segLin p = true ∧ p - 40 = n := by
  subst h
  exact ⟨by simp [segCanInt]; omega, by simp [segLin], by omega⟩

@[simp] theorem setTxdOff_flt (d : Dev) (p : Nat) (off : Bool) : (d.setTxdOff p off).flt = d.flt := rfl

/-- What a driver that switches off shows (R226). -/
theorem txdOff_shows (d : Dev) (p : Nat) (f : FieldRef) (hw : f.w = 1) (hl : f.lo + 1 ≤ 32) : ((d.set f 1).setTxdOff p true).flag f = true
    ∧ bit ((d.set f 1).setTxdOff p true).pwr.txdOff p = true ∧ d.regsOnly ((d.set f 1).setTxdOff p true) [f.addr]
    ∧ ((d.set f 1).setTxdOff p true).fwd = d.fwd ∧ ((d.set f 1).setTxdOff p true).tbl = d.tbl :=
  ⟨flag_set_one d f hw (by omega), bit_setBit_same _ _ _, only_of (only_set f 1 (List.mem_singleton_self _) (by omega) (only_refl d _)) rfl,
    set_fwd d f 1, set_tbl d f 1⟩

section
variable {d : Dev} {p : Nat}

theorem txdTimeout_none (off : Bool) (h : hasXcvr p = false) : d.txdTimeout p off = d := if_pos (by rw [h]; rfl)

theorem txdTimeout_ends (h : hasXcvr p = true) : d.txdTimeout p false = d.setTxdOff p false := by
  unfold Dev.txdTimeout
  rw [if_neg (by rw [h]; decide)]
  rfl

section
variable {c : Fin 12} (hp : p = 20 + c)
include hp

theorem txdTimeout_can : d.txdTimeout p true
    = if [1, 2].contains (d.get (F.PWR_XCVR_CAN_MODE_ACT c)) then (d.set (F.PWR_XCVR_CAN_TXD_DOM c) 1).setTxdOff p true else d := by
  obtain ⟨hcan, hc⟩ := hasXcvr_can hp
  unfold Dev.txdTimeout hasXcvr
  rw [hcan, hc]
  rfl

theorem xcvrReached_can {d1 d2 d3 : Dev} (h1 : d1 = d.xcvrApply p) (h2 : d2 = if d1.canContends c then d1 else d1.canClear c false)
    (h3 : d3 = d2.setSeg p { d2.seg p with active := true }) : d.xcvrReached p
      = if d2.segOn p && d2.segState p == 5 && d2.get (F.PWR_XCVR_CAN_MODE_ACT c) == d2.get (F.NM_SEG_CFG_ACT_MODE p)
        then (if (d3.seg p).localWake && d3.nmRuns then d3.segStep p 0 else d3) else d2 := by
  obtain ⟨hcan, hc⟩ := hasXcvr_can hp
  have h2' : (if segCanInt p && !d1.canContends c then d1.canClear c false else d1) = d2 := by
    rw [h2, hcan]
    cases d1.canContends c <;> rfl
  unfold Dev.xcvrReached
  rw [if_neg (by simp [hasXcvr, hcan])]
  dsimp only
  rw [← h1, hc, h2', if_pos hcan, ← h3]

end

section
variable {n : Fin 8} (hp : p = 40 + n)
include hp

theorem txdTimeout_lin : d.txdTimeout p true
    = if [1, 2].contains (d.get (F.PWR_XCVR_LIN_MODE_ACT n)) then (d.set (F.PWR_XCVR_LIN_TXD_DOM n) 1).setTxdOff p true else d := by
  obtain ⟨hcan, hlin, hn⟩ := hasXcvr_lin hp
  unfold Dev.txdTimeout hasXcvr
  rw [hcan, hlin, hn]
  rfl

theorem xcvrReached_lin {d1 : Dev} (h1 : d1 = d.xcvrApply p) (h : d1.segOn p = false ∨ d1.segState p ≠ 5) : d.xcvrReached p = d1 := by
  obtain ⟨hcan, hlin, -⟩ := hasXcvr_lin hp
  unfold Dev.xcvrReached
  rw [if_neg (by simp [hasXcvr, hlin])]
  dsimp only
  rw [← h1, hcan]
  exact if_neg (by rcases h with h | h <;> simp [h])

end

end

/-! ### The obligation -/

/-- Settles O22, command by command from the rules above. That a slot of DELAY 0 lasts one time base (log 41) and that the go-to-sleep command
follows the last slot (R368, log 84) are the model's readings. -/
theorem linSteps : Obligations.LinSteps := by
  unfold Obligations.LinSteps
  refine ⟨?idle, ?slots, fun d n id => ⟨linSendHeader_out d n id, emit_regs _ _, emit_fwd _ _⟩, ?errors, ?responses, ?sums, ?headers, ?txd, ?xcvr⟩
  case idle =>
    exact fun s n hq => ⟨fun h => ⟨fun id data cl age bad => next_settle_of_eq hq (linValid_ignored _ _ _ _ _ (.inl h)),
      fun e => next_settle_of_eq hq (linError_inactive h e), next_settle_of_eq hq (linSilent_inactive h),
      fun id brk rate age bad err => next_settle_of_eq hq (linHeader_inactive h _ _ _ _ _ _)⟩,
      fun h busy bad err => next_settle_of_eq hq (linSlotStart_idle _ _ _ h)⟩
  case slots =>
    intro s n x d0 d1 hx hr h0 h1
    have h1' : d1 = d0.linSwitch n := h1
    refine ⟨fun h busy bad err => ⟨fun hs => next_settle_congr s (linSlotStart_stops hx hr h0 h1' h hs),
      fun hs ha => next_settle_congr s (linSlotStart_sleeps hx hr h0 h1' h hs ha)⟩, fun hs ha hrole t i e d2 d3 h ht hi he h2 h3 hh => ?_⟩
    subst h3 hh
    have hbusy : ∀ bad err, lsDir e ≠ 3 → s.dev.linSlotStart n true bad err = d2.slotSkipped n x.skips :=
      fun bad err hd => linSlotStart_busy hx hr h0 h1' hs ha hrole ht hi he h2 hd
    have hsent : ∀ bad err, lsDir e ≠ 3 → s.dev.linSlotStart n false bad err = (d2.setLinCtl n { d2.linCtl n with skips := 0 }).slotSent n e bad err :=
      fun bad err hd => linSlotStart_sent hx hr h0 h1' hs ha hrole ht hi he h2 hd
    refine ⟨fun hd busy bad err => next_settle_congr s (linSlotStart_unused hx hr h0 h1' hs ha hrole ht hi he h2 hd), fun hd bad err => ⟨fun hk => ?_, fun hk => ?_⟩,
      fun hd bad err herr => ?_, fun hd bad => ?_, fun hd bad err d4 c o herr hdata h4 hh4 => ?_⟩
    · exact next_settle_congr s ((hbusy _ _ hd).trans (if_neg hk))
    · exact next_settle_congr s ((hbusy _ _ hd).trans (if_pos hk))
    · exact next_settle_congr s ((hsent _ _ (by omega)).trans (slotSent_read herr (by omega)))
    · exact next_settle_congr s ((hsent _ _ hd).trans slotSent_fails)
    · have hh4' : h4 = d4.slotHead n e := by rw [hh4, ← hd]; rfl
      subst hh4'
      refine ⟨fun bs ho => ?_, fun ho => ?_⟩ <;> subst ho
      · exact next_settle_congr s ((hsent _ _ (by omega)).trans (slotSent_data herr hd hdata))
      · exact next_settle_congr s ((hsent _ _ (by omega)).trans (slotSent_noData herr hd hdata))
  case errors =>
    rintro s n hq ha d0 rfl
    have hcounts : ∀ (d : Dev) (f : FieldRef), d = (s.dev.linEnded n).inc f → f.w = 32 → f.lo = 0 → ∃ t : State, (Host.Outcome.next { s with dev := d.settle }
        : Host.Outcome State Fault Refusal) = .next t ∧ t.dev.get f = satAdd 32 (s.dev.get f) 1 ∧ (t.dev.linCtl n).cur = none
        ∧ s.dev.regsOnly t.dev [f.addr] ∧ t.dev.fwd = (s.dev.linEnded n).fwd :=
      fun d f h hw hl => ⟨_, next_settle_of_flt hq h (inc_flt _ _), linEnded_counts s.dev n f hw hl⟩
    exact ⟨hcounts _ _ (linError_header ha) rfl rfl, hcounts _ _ (linError_framing ha) rfl rfl, hcounts _ _ (linError_checksum ha) rfl rfl,
      next_settle_congr s (linError_bit ha), busError_excuses _ _, fun f hc hw => hcounts _ _ (linSilent_counts ha hc hw) rfl rfl,
      fun id brk rate age bad err hr he => next_settle_of_flt hq (linHeader_refused ha id age bad hr he) (inc_flt _ _),
      fun brk rate => ⟨linHeaderOk_auto brk rate, linHeaderOk_fixed brk rate⟩,
      fun id data chk age bad h => next_settle_of_eq hq (linValid_ignored _ _ _ _ _ (.inr h))⟩
  case responses =>
    intro s n id data body chk age k bad sum ha hne h8 hk hb hs
    refine ⟨fun h => next_settle_congr s (linValid_short ha hne h8 hk h), fun h ho => next_settle_congr s (linValid_badSum ha hne h8 hk hb hs h ho),
      fun h cl d1 d2 ho h1 h2 => ?_⟩
    have hgood : s.dev.linValid n id data chk age bad = s.dev.linDeliver n id body cl age bad := linValid_good ha hne h8 hk hb hs h ho
    exact ⟨fun hid => next_settle_congr s (hgood.trans (linDeliver_plain h1 h2 (.inl hid))),
      fun hid hbody => next_settle_congr s (hgood.trans (linDeliver_sleeps h1 h2 hid hbody)),
      fun _ hbody => next_settle_congr s (hgood.trans (linDeliver_plain h1 h2 (.inr hbody)))⟩
  case sums =>
    exact fun d n id body sum f hc hid hd => ⟨linWant_entry hc hid hd, linSumOk_enhanced hc hid hd body sum, linSumOk_classic hc hid hd body sum⟩
  case headers =>
    intro s n id brk rate age e bad err d0 d1 d2 ha hr hok herr h0 h1 he h2
    refine ⟨fun h => next_settle_congr s (linHeader_unanswered ha hr hok herr h0 h1 he h2 h), fun h hs d3 c o hd => ⟨fun ho => ?_, fun bs ho => ?_⟩⟩ <;> subst ho
    · exact next_settle_congr s (linHeader_empty ha hr hok herr h0 h1 he h2 h hs hd)
    · exact next_settle_congr s (linHeader_answered ha hr hok herr h0 h1 he h2 h hs hd)
  case txd =>
    intro s p hq
    refine ⟨fun c hp hm => ?_, fun c hp hm => ?_, fun n hp hm => ?_, fun h => ?_, fun h off => next_settle_of_eq hq (txdTimeout_none off h)⟩
    · exact ⟨_, next_settle_of_flt hq ((txdTimeout_can hp).trans (if_pos hm)) ((setTxdOff_flt _ _ _).trans (set_flt _ _ _)),
        txdOff_shows s.dev p (F.PWR_XCVR_CAN_TXD_DOM c) rfl (by decide : 8 + 1 ≤ 32)⟩
    · exact next_settle_of_eq hq ((txdTimeout_can hp).trans (if_neg (ne_true_of_eq_false hm)))
    · exact ⟨_, next_settle_of_flt hq ((txdTimeout_lin hp).trans (if_pos hm)) ((setTxdOff_flt _ _ _).trans (set_flt _ _ _)),
        txdOff_shows s.dev p (F.PWR_XCVR_LIN_TXD_DOM n) rfl (by decide : 8 + 1 ≤ 32)⟩
    · exact ⟨_, next_settle_of_flt hq (txdTimeout_ends h) rfl, bit_setBit_same _ _ _, rfl, rfl, rfl⟩
  case xcvr =>
    intro s p
    refine ⟨fun h hq => next_settle_of_eq hq (if_pos (by rw [h]; rfl)), fun c d1 d2 d3 hp h1 h2 h3 => ⟨fun h => ?_, fun hon h5 hact => ?_⟩,
      fun n hp d1 h1 h => next_settle_congr s (xcvrReached_lin hp h1 h)⟩
    · exact next_settle_congr s ((xcvrReached_can hp h1 h2 h3).trans (if_neg (ne_true_of_eq_false h)))
    · exact next_settle_congr s ((xcvrReached_can hp h1 h2 h3).trans (if_pos (by rw [hon, h5, hact]; simp)))

end Sys2Proof.Machine
end

section
/-!
PROOF. Links that come up and go down (R233, R234, R258), verification of preemption (R248), gates and their switchover (R242 to R246),
low-power idle (R260), PLCA beacons and collisions (R262 to R264) and MDIO (R265).
-/
namespace Sys2Proof.Machine

/-! ### A link comes up (R233, R258) -/

/-- Only a GE link can come up at another speed than its port's. -/
theorem speed_taken {p k want : Nat} (h : p < 4 ∨ k = want) : (decide (4 ≤ p) && decide (p < 12) && k != want) = false := by
  rcases h with h | h
  · simp [show ¬ 4 ≤ p by omega]
  · simp [h]

section
variable {d : Dev} {p k : Nat}

theorem linkUp_unready (h : d.flag (F.ETH_STATUS_LINK p) = true ∨ d.linkPower p = false ∨ (d.seg p).phyLow = true ∨ d.isolated (blkEth p) = true) :
    d.linkUp p k = d := if_pos (by rcases h with h | h | h | h <;> simp [h])

variable (hl : d.flag (F.ETH_STATUS_LINK p) = false) (hp : d.linkPower p = true) (hlow : (d.seg p).phyLow = false) (hiso : d.isolated (blkEth p) = false)
include hl hp hlow hiso

theorem linkUp_noBeacon (h12 : 12 ≤ p) (hen : d.flag (F.ETH_PLCA_CFG_EN p) = true) (hid : d.get (F.ETH_PLCA_CFG_NODE_ID p) ≠ 0)
    (hb : d.flag (F.ETH_PLCA_STATUS_BEACON_OK p) = false) : d.linkUp p k = d := by
  unfold Dev.linkUp
  dsimp only
  rw [if_neg (by simp [hl, hp, hlow, hiso]), if_neg (by simp; omega)]
  exact if_pos (by simp [h12, hen, hid, hb])

variable {x : EthPort} (hx : x = d.ethPort p) {d1 : Dev}
  (h1 : d1 = ((d.set (F.ETH_STATUS_LINK p) 1).set (F.ETH_STATUS_RETRAINING p) 0).setEthPort p { x with phyUp := true, noBeacon := false, idleAt := d.now })

section
include hx h1

/-- A T1S port has no rate steps, no gPTP and no preemption, and the wake of its segment is its PHY's. -/
theorem linkUp_plca (h12 : 12 ≤ p) (hb : d.flag (F.ETH_PLCA_CFG_EN p) = false ∨ d.get (F.ETH_PLCA_CFG_NODE_ID p) = 0
    ∨ d.flag (F.ETH_PLCA_STATUS_BEACON_OK p) = true) : d.linkUp p k = d1 := by
  have hlt : ¬ p < 12 := by omega
  unfold Dev.linkUp
  dsimp only
  rw [if_neg (by simp [hl, hp, hlow, hiso]), if_neg (by simp [hlt]), if_neg (by rcases hb with hb | hb | hb <;> simp [hb]),
    if_neg (by simp [hlt]), ← hx, ← h1]
  simp [h12, hlt, segEth, Dev.preemptStart]

end

variable {re : Bool} (hre : re = (decide (p < 12) && d.get (F.ETH_STEP_STATUS_STATE p) == 4))
include hx hre

theorem linkUp_mismatch (h4 : 4 ≤ p) (h12 : p < 12) (hk : k ≠ if re then (if x.revert then x.prev else x.target) else d.get (F.ETH_RATE_CUR p)) :
    d.linkUp p k = d.set (F.ETH_STATUS_SPEED_MISMATCH p) 1 := by
  unfold Dev.linkUp
  dsimp only
  rw [← hx, ← hre, if_neg (by simp [hl, hp, hlow, hiso])]
  exact if_pos (by simp [h4, h12, hk])

variable (h12 : p < 12) (hk : p < 4 ∨ k = if re then (if x.revert then x.prev else x.target) else d.get (F.ETH_RATE_CUR p))
include h12 hk

theorem linkUp_turnsBack (hr : re = true) (hv : x.revert = false) (ht : x.target < d.get (F.ETH_RATE_FLOOR p)) : d.linkUp p k = d.retrainBack p := by
  unfold Dev.linkUp
  dsimp only
  rw [← hx, ← hre, if_neg (by simp [hl, hp, hlow, hiso]), if_neg (ne_true_of_eq_false (speed_taken hk)), if_neg (by simp; omega)]
  exact if_pos (by simp [hr, hv, ht])

variable (hfloor : re = false ∨ x.revert = true ∨ d.get (F.ETH_RATE_FLOOR p) ≤ x.target) {d2 d3 d4 d5 : Dev}
  (h2 : d2 = d1.set (F.ETH_STATUS_SPEED_MISMATCH p) 0)
  (h3 : d3 = if re then (if x.revert then d2.stepEnd p 5 else (d2.set (F.ETH_RATE_CUR p) x.target).stepEnd p 1) else d2)
  (h4 : d4 = if d3.gptpOn p && d3.flag (F.TIME_GPTP_PORT_STATIC_DELAY p) then d3.setAsCapable p true else d3) (h5 : d5 = d4.preemptStart p)
include hfloor h1 h2 h3 h4 h5

theorem linkUp_comesUp : d.linkUp p k = (if re && (d5.ethPort p).toNom then d5.stepToNom p else d5).wakeSeen p 6 := by
  have hback : (re && !x.revert && decide (x.target < d.get (F.ETH_RATE_FLOOR p))) = false := by
    rcases hfloor with h | h | h
    · simp [h]
    · simp [h]
    · simp [Nat.not_lt.mpr h]
  have hstep : (if !re then d2 else if x.revert then d2.stepEnd p 5 else (d2.set (F.ETH_RATE_CUR p) x.target).stepEnd p 1) = d3 := by
    rw [h3]
    cases re <;> rfl
  have hcapable : (if decide (p < 12) && d3.gptpOn p && d3.flag (F.TIME_GPTP_PORT_STATIC_DELAY p) then d3.setAsCapable p true else d3) = d4 := by
    rw [h4, decide_eq_true h12, Bool.true_and]
  unfold Dev.linkUp
  dsimp only
  rw [← hx, ← hre, if_neg (by simp [hl, hp, hlow, hiso]), if_neg (ne_true_of_eq_false (speed_taken hk)), if_neg (by simp; omega),
    if_neg (ne_true_of_eq_false hback), ← h1, if_neg (by omega : ¬ 12 ≤ p), ← h2, hstep, hcapable, ← h5]
  exact if_pos (by simp [segEth, h12])

end

/-- What a link that has come up shows stays while other registers, or the other bits of its status, move. -/
def Dev.showsLink (d : Dev) (p : Nat) : Prop := d.flag (F.ETH_STATUS_LINK p) = true ∧ d.flag (F.ETH_STATUS_RETRAINING p) = false

section
variable {d e : Dev} {p : Nat}

theorem showsLink_set (d : Dev) (p : Nat) (x : EthPort) :
    (((d.set (F.ETH_STATUS_LINK p) 1).set (F.ETH_STATUS_RETRAINING p) 0).setEthPort p x).showsLink p := by
  refine ⟨?link, flag_set_zero _ (F.ETH_STATUS_RETRAINING p) rfl (by decide : 1 + 1 ≤ 64)⟩
  case link =>
    calc _ = (d.set (F.ETH_STATUS_LINK p) 1).flag (F.ETH_STATUS_LINK p) := flag_set_apart _ _ (by simp [FieldRef.apart, F.ETH_STATUS_LINK, F.ETH_STATUS_RETRAINING])
      _ = true := flag_set_one d (F.ETH_STATUS_LINK p) rfl (by decide : 0 + 1 ≤ 64)

theorem showsLink_mismatch (v : Nat) (h : d.showsLink p) : (d.set (F.ETH_STATUS_SPEED_MISMATCH p) v).showsLink p :=
  ⟨(flag_set_apart _ _ (by simp [FieldRef.apart, F.ETH_STATUS_LINK, F.ETH_STATUS_SPEED_MISMATCH])).trans h.1,
    (flag_set_apart _ _ (by simp [FieldRef.apart, F.ETH_STATUS_RETRAINING, F.ETH_STATUS_SPEED_MISMATCH])).trans h.2⟩

theorem showsLink_only {l : List Nat} (ho : d.regsOnly e l) (ha : R.ETH_STATUS p ∉ l) (h : d.showsLink p) : e.showsLink p := by
  obtain ⟨hlink, hretraining⟩ := h
  refine ⟨?_, ?_⟩ <;> unfold Dev.flag at *
  · rwa [get_only ho (F.ETH_STATUS_LINK p) ha (.inl (by decide : 0 + 1 ≤ 32))]
  · rwa [get_only ho (F.ETH_STATUS_RETRAINING p) ha (.inl (by decide : 1 + 1 ≤ 32))]

theorem showsLink_stepEnd (r : Nat) (h : d.showsLink p) : (d.stepEnd p r).showsLink p :=
  showsLink_only (only_stepEnd d p r)
    (by simp [R.ETH_STATUS, R.ETH_STEP_STATUS, R.ETH_STEP_DONE, R.ETH_STEP_DECLINED, R.ETH_STEP_SILENT, R.ETH_STEP_FAILED]) h

/-- The end of a retrain leaves the link's own bits alone. -/
theorem showsLink_retrained (re : Bool) (x : EthPort) (h : d.showsLink p) :
    (if re then (if x.revert then d.stepEnd p 5 else (d.set (F.ETH_RATE_CUR p) x.target).stepEnd p 1) else d).showsLink p := by
  have hrate : (d.set (F.ETH_RATE_CUR p) x.target).showsLink p :=
    showsLink_only (only_set (F.ETH_RATE_CUR p) _ (List.mem_singleton_self _) (by decide : 8 + 3 ≤ 32) (only_refl d _))
      (by simp [F.ETH_RATE_CUR, R.ETH_STATUS, R.ETH_RATE]) h
  split
  · split
    · exact showsLink_stepEnd 5 h
    · exact showsLink_stepEnd 1 hrate
  · exact h

end

/-! ### A link goes down (R234) -/

section
variable {d d0 d1 d2 : Dev} {p : Nat} (h0 : d0 = d.setEthPort p { d.ethPort p with phyUp := false, noBeacon := false })

include h0

section
variable (hl : d.flag (F.ETH_STATUS_LINK p) = false)
include hl

theorem ethDown_down (hb : (d.ethPort p).noBeacon = false) : d.ethDown p = d0 := by
  unfold Dev.ethDown Dev.linkCut
  dsimp only
  rw [← h0, if_pos (by simp [hl]), hb]
  rfl

/-- A follower whose beacon is lost still sends, so what waits on it is dropped now (R263). -/
theorem ethDown_follower (hb : (d.ethPort p).noBeacon = true) : d.ethDown p = (d0.partCut p).flushPort p true := by
  unfold Dev.ethDown Dev.linkCut
  dsimp only
  rw [← h0, if_pos (by simp [hl]), hb]
  rfl

end

variable (hl : d.flag (F.ETH_STATUS_LINK p) = true)
  (h1 : d1 = ((d0.set (F.ETH_STATUS_LINK p) 0).set (F.ETH_STATUS_LPI_TX p) 0).set (F.ETH_STATUS_LPI_RX p) 0) (h2 : d2 = (d1.partCut p).flushPort p true)
include hl h1 h2

theorem ethDown_eth (h12 : p < 12) : d.ethDown p
    = (((d2.preemptStop p).set (F.TIME_GPTP_PORT_AS_CAPABLE p) 0).inc (F.ETH_LINK_DOWNS_COUNT p)).fault (blkEth p) 0 := by
  unfold Dev.ethDown Dev.linkCut
  dsimp only
  rw [← h0, if_neg (by simp [hl]), ← h1, ← h2, if_pos h12]

theorem ethDown_t1s (h12 : 12 ≤ p) : d.ethDown p = (d2.inc (F.ETH_LINK_DOWNS_COUNT p)).fault (blkEth p) 0 := by
  have hstop : d2.preemptStop p = d2 := if_neg (by omega)
  unfold Dev.ethDown Dev.linkCut
  dsimp only
  rw [← h0, if_neg (by simp [hl]), ← h1, ← h2, hstop, if_neg (by omega)]

end

theorem linkDown_shows (d : Dev) (p : Nat) :
    (((d.set (F.ETH_STATUS_LINK p) 0).set (F.ETH_STATUS_LPI_TX p) 0).set (F.ETH_STATUS_LPI_RX p) 0).flag (F.ETH_STATUS_LINK p) = false := by
  rw [flag_set_apart _ _ (by simp [FieldRef.apart, F.ETH_STATUS_LINK, F.ETH_STATUS_LPI_RX]),
    flag_set_apart _ _ (by simp [FieldRef.apart, F.ETH_STATUS_LINK, F.ETH_STATUS_LPI_TX])]
  exact flag_set_zero d (F.ETH_STATUS_LINK p) rfl (by decide : 0 + 1 ≤ 64)

/-! ### Verification of preemption (R248) -/

section
variable {d : Dev} {p : Nat}

theorem verifyOk_idle (h : d.get (F.ETH_PREEMPT_STATUS_VERIFY_STATE p) ≠ 2) : d.verifyOk p = d := if_pos (by simpa using h)

theorem verifyTimeout_idle (h : d.get (F.ETH_PREEMPT_STATUS_VERIFY_STATE p) ≠ 2) : d.verifyTimeout p = d := if_pos (by simpa using h)

variable (h : d.get (F.ETH_PREEMPT_STATUS_VERIFY_STATE p) = 2)
include h

theorem verifyOk_ends : d.verifyOk p
    = ((d.set (F.ETH_PREEMPT_STATUS_VERIFY_STATE p) 3).set (F.ETH_PREEMPT_STATUS_ACTIVE p) 1).set (F.ETH_STATUS_RETRAINING p) 0 :=
  if_neg (by simp [h])

variable {d1 : Dev} (h1 : d1 = d.reach ((d.ethPort p).verAt + bf (d.get (F.ETH_PREEMPT_OPER_DATA p)) 8 8 * msCyc))
include h1

theorem verifyTimeout_fails (ht : 3 ≤ (d.ethPort p).verTries) :
    d.verifyTimeout p = (d1.set (F.ETH_PREEMPT_STATUS_VERIFY_STATE p) 4).fltSet (blkEth p) 1 := by
  unfold Dev.verifyTimeout
  rw [if_neg (by simp [h])]
  dsimp only
  rw [← h1]
  exact if_pos ht

theorem verifyTimeout_retries (ht : (d.ethPort p).verTries < 3) :
    d.verifyTimeout p = d1.setEthPort p { d.ethPort p with verTries := (d.ethPort p).verTries + 1, verAt := d1.now } := by
  unfold Dev.verifyTimeout
  rw [if_neg (by simp [h])]
  dsimp only
  rw [← h1]
  exact if_neg (Nat.not_le.mpr ht)

end

/-- A verification that succeeds shows in the port's preemption and link status only. -/
theorem verified_shows (d : Dev) (p : Nat) {e : Dev}
    (he : e = ((d.set (F.ETH_PREEMPT_STATUS_VERIFY_STATE p) 3).set (F.ETH_PREEMPT_STATUS_ACTIVE p) 1).set (F.ETH_STATUS_RETRAINING p) 0) :
    e.get (F.ETH_PREEMPT_STATUS_VERIFY_STATE p) = 3 ∧ e.flag (F.ETH_PREEMPT_STATUS_ACTIVE p) = true ∧ e.flag (F.ETH_STATUS_RETRAINING p) = false
      ∧ d.regsOnly e [R.ETH_PREEMPT_STATUS p, R.ETH_STATUS p] ∧ e.fwd = d.fwd := by
  subst he
  have hother : R.ETH_STATUS p ≠ R.ETH_PREEMPT_STATUS p := by simp [R.ETH_STATUS, R.ETH_PREEMPT_STATUS]
  refine ⟨?state, ?active, flag_set_zero _ _ rfl (by decide : 1 + 1 ≤ 64), ?regs, by simp only [set_fwd]⟩
  case state =>
    rw [get_set_apart _ _ (by simp [FieldRef.apart, F.ETH_STATUS_RETRAINING, F.ETH_PREEMPT_STATUS_VERIFY_STATE, hother]),
      get_set_apart _ _ (by simp [FieldRef.apart, F.ETH_PREEMPT_STATUS_ACTIVE, F.ETH_PREEMPT_STATUS_VERIFY_STATE])]
    exact get_set_same _ _ _ (by decide : 0 + 3 ≤ 64)
  case active =>
    rw [flag_set_apart _ _ (by simp [FieldRef.apart, F.ETH_STATUS_RETRAINING, F.ETH_PREEMPT_STATUS_ACTIVE])]
    exact flag_set_one _ _ rfl (by decide : 3 + 1 ≤ 64)
  case regs =>
    have hpre : R.ETH_PREEMPT_STATUS p ∈ [R.ETH_PREEMPT_STATUS p, R.ETH_STATUS p] := List.mem_cons_self
    exact only_set (F.ETH_STATUS_RETRAINING p) 0 (List.mem_cons_of_mem _ (List.mem_singleton_self _)) (by decide : 1 + 1 ≤ 32)
      (only_set (F.ETH_PREEMPT_STATUS_ACTIVE p) 1 hpre (by decide : 3 + 1 ≤ 32)
        (only_set (F.ETH_PREEMPT_STATUS_VERIFY_STATE p) 3 hpre (by decide : 0 + 3 ≤ 32) (only_refl d _)))

/-! ### Gate events (R242, R243, R246) -/

section
variable {d : Dev} {p : Nat}

theorem gateRead_closed {g : GateCfg} (hg : g = d.gateOper p) (h : g.en = false ∨ g.len = 0) : d.gateRead p = d := by
  unfold Dev.gateRead
  rw [← hg]
  exact if_neg (by rcases h with h | h <;> simp [h])

theorem gateRead_reads {g : GateCfg} (hg : g = d.gateOper p) (he : g.en = true) (hn : g.len ≠ 0) :
    d.gateRead p = (d.entryRead 6 (b2n (pipeB p)) (1024 * p + (d.get (F.ETH_GATE_STATUS_ENTRY p) + 1) % g.len)).1 := by
  unfold Dev.gateRead
  rw [← hg]
  exact if_pos (by simp [he, hn])

theorem gateEvent_shows {e e0 e1 : Dev} {x0 x : Nat × Nat × Nat × Int} (he : e = d.gateRead p) (hx0 : x0 = e.gates p e.dtime)
    (h0 : e0 = if x0.1 = e.get (F.ETH_GATE_STATUS_STATES p) ∧ x0.2.1 = e.get (F.ETH_GATE_STATUS_ENTRY p) ∧ x0.2.2.2 = ((e.ethPort p).gateCyc : Int) ∧ x0.2.2.1 < 2 ^ 64
      then e.reachDtime x0.2.2.1 else e) (hx : x = e0.gates p e0.dtime)
    (h1 : e1 = e0.windowsEnd p (e0.get (F.ETH_GATE_STATUS_STATES p)) x.1 (e0.gateAlways p) (x.2.2.2 != ((e0.ethPort p).gateCyc : Int))) :
    d.gateEvent p = e1.gateShow p x := by
  have hsame : (if (x0.1 == e.get (F.ETH_GATE_STATUS_STATES p) && x0.2.1 == e.get (F.ETH_GATE_STATUS_ENTRY p) && x0.2.2.2 == ((e.ethPort p).gateCyc : Int)
      && decide (x0.2.2.1 < 2 ^ 64)) then e.reachDtime x0.2.2.1 else e) = e0 := by
    rw [h0]
    simp only [Bool.and_eq_true, beq_iff_eq, decide_eq_true_eq, and_assoc]
  unfold Dev.gateEvent
  dsimp only
  rw [← he, ← hx0, hsame, ← hx, ← h1]

/-- The entry's states and index do not touch what else the port holds. -/
theorem gateShow_eq (d : Dev) (p : Nat) (x : Nat × Nat × Nat × Int) : d.gateShow p x
    = ((d.set (F.ETH_GATE_STATUS_STATES p) x.1).set (F.ETH_GATE_STATUS_ENTRY p) x.2.1).setEthPort p
      { ((d.set (F.ETH_GATE_STATUS_STATES p) x.1).set (F.ETH_GATE_STATUS_ENTRY p) x.2.1).ethPort p with gateCyc := x.2.2.2.toNat } := by
  have hport : ((d.set (F.ETH_GATE_STATUS_STATES p) x.1).set (F.ETH_GATE_STATUS_ENTRY p) x.2.1).ethPort p = d.ethPort p := by
    unfold Dev.ethPort
    rw [set_eth, set_eth]
  rw [hport]
  rfl

end

/-! ### Gate switchover (R244, R245) -/

/-- The registers that a change of the operational lists can move: the counters of generations and what a bad entry reports. -/
def gateListRegs : List Nat := [R.TBL_GEN 6, R.TBL_GEN_6B, R.TBL_ECC_CE] ++ faultRegs blkTbl

/-- What a change of the operational lists leaves alone. -/
structure GateListsMoved (d e : Dev) : Prop where
  fwd : e.fwd = d.fwd
  time : e.time = d.time
  regs : d.regsOnly e gateListRegs

theorem GateListsMoved.refl (d : Dev) : GateListsMoved d d := ⟨rfl, rfl, only_refl _ _⟩

theorem GateListsMoved.trans {d e g : Dev} (h : GateListsMoved d e) (k : GateListsMoved e g) : GateListsMoved d g :=
  ⟨k.fwd.trans h.fwd, k.time.trans h.time, only_trans h.regs k.regs⟩

theorem gateListsMoved_fold {α : Type} (op : Dev → α → Dev) (h : ∀ d x, GateListsMoved d (op d x)) (l : List α) (d : Dev) :
    GateListsMoved d (l.foldl op d) := by
  induction l generalizing d with
  | nil => exact GateListsMoved.refl d
  | cons x l ih => exact (h d x).trans (ih _)

/-- A key that lies in the port's list. -/
def gateRow (p k : Nat) : Bool := decide (1024 * p ≤ k % 2 ^ 24) && decide (k % 2 ^ 24 < 1024 * (p + 1))

section
variable (d : Dev)

theorem entryRead_time (t c i : Nat) : (d.entryRead t c i).1.time = d.time := by
  unfold Dev.entryRead
  split
  · exact (away_faultCapture _ _ _ _ (Away.refl d)).time
  · split
    · exact inc_time _ _
    · rfl

theorem errorCopy_time (t c t' c' i : Nat) : (d.errorCopy t c t' c' i).time = d.time := by
  have h := entryRead_time d t c i
  unfold Dev.errorCopy
  split
  · next hr => rwa [hr] at h
  · next hr => rwa [hr] at h

theorem errorCopy_moved (t c t' c' i : Nat) : GateListsMoved d (d.errorCopy t c t' c' i) :=
  ⟨(errorCopy_kept d t c t' c' i).fwd, errorCopy_time d t c t' c' i,
    only_mono (errorCopy_kept d t c t' c' i).regs (fun _ h => List.mem_append_right [R.TBL_GEN 6, R.TBL_GEN_6B] h)⟩

theorem genBump_moved (c : Nat) : GateListsMoved d (d.genBump 6 c) := by
  have hcounter : (genCounter 6 c).addr ∈ gateListRegs ∧ (genCounter 6 c).lo + (genCounter 6 c).w ≤ 32 := by
    unfold genCounter
    rw [if_neg (by simp)]
    split <;> decide
  obtain ⟨hmem, hword⟩ := hcounter
  exact ⟨set_fwd _ _ _, set_time _ _ _, only_set _ _ hmem hword (only_refl d _)⟩

theorem genStamp_moved (c i : Nat) : GateListsMoved d (d.genStamp 6 c i) := ⟨rfl, rfl, only_of (only_refl d _) rfl⟩

theorem entryPut_moved (t c i v : Nat) : GateListsMoved d (d.entryPut t c i v) := ⟨rfl, rfl, only_of (only_refl d _) rfl⟩

variable (p : Nat)

/-- A list without the port's operational entries. -/
def Dev.gateListCut (c : Nat) : Dev := { d with tbl := d.tbl.filter (fun x => !(x.1 / 2 ^ 24 == 12 + c && gateRow p x.1)) }

/-- The rows of a list are entered, each at its own place. -/
def Dev.gateRowsPut (rows : List (Nat × Nat)) (c : Nat) : Dev := rows.foldl (fun d x => d.entryPut 6 c x.1 x.2) d

/-- The staged entries among the keys take their errors with them. -/
def Dev.gateErrorsPut (keys : List Nat) (c : Nat) : Dev :=
  keys.foldl (fun d k => if k / 2 ^ 24 == 10 && gateRow p k then d.errorCopy 5 0 6 c (k % 2 ^ 24) else d) d

/-- Every sector of the port's list bears the present generation. -/
def Dev.gateStamps (c : Nat) : Dev := (List.range 128).foldl (fun d g => d.genStamp 6 c (1024 * p + 8 * g)) d

theorem gateListCut_moved (c : Nat) : GateListsMoved d (d.gateListCut p c) := ⟨rfl, rfl, only_of (only_refl d _) rfl⟩

theorem gateRowsPut_moved (rows : List (Nat × Nat)) (c : Nat) : GateListsMoved d (d.gateRowsPut rows c) :=
  gateListsMoved_fold (fun (d : Dev) (x : Nat × Nat) => d.entryPut 6 c x.1 x.2) (fun e x => entryPut_moved e 6 c x.1 x.2) rows d

theorem gateErrorsPut_moved (keys : List Nat) (c : Nat) : GateListsMoved d (d.gateErrorsPut p keys c) := by
  refine gateListsMoved_fold _ (fun e k => ?_) keys d
  split
  · exact errorCopy_moved e 5 0 6 c _
  · exact GateListsMoved.refl e

theorem gateStamps_moved (c : Nat) : GateListsMoved d (d.gateStamps p c) := gateListsMoved_fold _ (fun e _ => genStamp_moved e c _) _ d

/-- The staged list of a port becomes the operational one of pipeline `c`, its entries in error with it (R244). -/
def Dev.gateListTaken (d0 : Dev) (p : Nat) (d : Dev) (c : Nat) : Dev :=
  ((((d.gateListCut p c).genBump 6 c).gateRowsPut ((d0.tbl.filter (fun x => x.1 / 2 ^ 24 == 10 && gateRow p x.1)).map (fun x => (x.1 % 2 ^ 24, x.2))) c).gateErrorsPut
    p (d0.tables.bad ++ d0.tables.soft) c).gateStamps p c

theorem gateListTaken_moved (d0 : Dev) (c : Nat) : GateListsMoved d (d0.gateListTaken p d c) :=
  ((((gateListCut_moved d p c).trans (genBump_moved _ c)).trans (gateRowsPut_moved _ _ c)).trans (gateErrorsPut_moved _ p _ c)).trans (gateStamps_moved _ p c)

/-- Pipeline B takes the list where tile B is on. -/
def Dev.gateListsTaken : Dev :=
  let d1 := d.gateListTaken p d 0
  if d1.ready 3 then d.gateListTaken p d1 1 else d1

theorem gateListsTaken_moved : GateListsMoved d (d.gateListsTaken p) := by
  unfold Dev.gateListsTaken
  dsimp only
  split
  · exact (gateListTaken_moved d p d 0).trans (gateListTaken_moved _ p d 1)
  · exact gateListTaken_moved d p d 0

/-- The administrative registers become operational, and nothing pends any more (R244). -/
def Dev.gateRegsTaken : Dev :=
  ((((d.setReg (R.ETH_GATE_OPER p) (d.reg (R.ETH_GATE_ADMIN p))).set (F.ETH_OPER_CYCLE_NS p) (d.get (F.ETH_ADMIN_CYCLE_NS p))).set
    (F.ETH_OPER_CYCLE_EXT_NS p) (d.get (F.ETH_ADMIN_CYCLE_EXT_NS p))).set (F.ETH_OPER_BASE_DTIME p) (d.get (F.ETH_ADMIN_BASE_DTIME p))).set
    (F.ETH_GATE_STATUS_PENDING p) 0

theorem gateRegsTaken_fwd : (d.gateRegsTaken p).fwd = d.fwd := by
  unfold Dev.gateRegsTaken
  simp only [set_fwd, setReg_fwd]

theorem gateRegsTaken_time : (d.gateRegsTaken p).time = d.time := by
  unfold Dev.gateRegsTaken
  simp only [set_time, setReg_time]

theorem gateRegsTaken_pending : (d.gateRegsTaken p).flag (F.ETH_GATE_STATUS_PENDING p) = false :=
  flag_set_zero _ (F.ETH_GATE_STATUS_PENDING p) rfl (by decide : 0 + 1 ≤ 64)

theorem gateRegsTaken_cycle : (d.gateRegsTaken p).get (F.ETH_OPER_CYCLE_NS p) = d.get (F.ETH_ADMIN_CYCLE_NS p) := by
  unfold Dev.gateRegsTaken
  rw [get_set_apart _ _ (by simp [FieldRef.apart, F.ETH_GATE_STATUS_PENDING, F.ETH_OPER_CYCLE_NS, R.ETH_GATE_STATUS, R.ETH_OPER_CYCLE]),
    get_set_wide _ _ _ _ (by decide : 0 + 32 ≤ 32) (by simp [F.ETH_OPER_BASE_DTIME, F.ETH_OPER_CYCLE_NS, R.ETH_OPER_BASE, R.ETH_OPER_CYCLE]; omega),
    get_set_apart _ _ (by simp [FieldRef.apart, F.ETH_OPER_CYCLE_EXT_NS, F.ETH_OPER_CYCLE_NS, R.ETH_OPER_CYCLE_EXT, R.ETH_OPER_CYCLE]),
    get_set_same _ _ _ (by decide : 0 + 32 ≤ 64)]
  exact Nat.mod_eq_of_lt (get_lt d (F.ETH_ADMIN_CYCLE_NS p))

theorem gateRegsTaken_ext : (d.gateRegsTaken p).get (F.ETH_OPER_CYCLE_EXT_NS p) = d.get (F.ETH_ADMIN_CYCLE_EXT_NS p) := by
  unfold Dev.gateRegsTaken
  rw [get_set_apart _ _ (by simp [FieldRef.apart, F.ETH_GATE_STATUS_PENDING, F.ETH_OPER_CYCLE_EXT_NS, R.ETH_GATE_STATUS, R.ETH_OPER_CYCLE_EXT]),
    get_set_wide _ _ _ _ (by decide : 0 + 32 ≤ 32) (by simp [F.ETH_OPER_BASE_DTIME, F.ETH_OPER_CYCLE_EXT_NS, R.ETH_OPER_BASE, R.ETH_OPER_CYCLE_EXT]; omega),
    get_set_same _ _ _ (by decide : 0 + 32 ≤ 64)]
  exact Nat.mod_eq_of_lt (get_lt d (F.ETH_ADMIN_CYCLE_EXT_NS p))

theorem gateRegsTaken_base : (d.gateRegsTaken p).get (F.ETH_OPER_BASE_DTIME p) = d.get (F.ETH_ADMIN_BASE_DTIME p) := by
  unfold Dev.gateRegsTaken
  rw [get_set_far _ _ _ _ (by simp only [F.ETH_GATE_STATUS_PENDING, F.ETH_OPER_BASE_DTIME, R.ETH_GATE_STATUS, R.ETH_OPER_BASE]; omega),
    get_set_same _ _ _ (by decide : 0 + 64 ≤ 64)]
  exact Nat.mod_eq_of_lt (get_lt d (F.ETH_ADMIN_BASE_DTIME p))

theorem gateRegsTaken_oper : (d.gateRegsTaken p).reg (R.ETH_GATE_OPER p) = d.reg (R.ETH_GATE_ADMIN p) := by
  have hrest : (d.setReg (R.ETH_GATE_OPER p) (d.reg (R.ETH_GATE_ADMIN p))).regsOnly (d.gateRegsTaken p)
      [R.ETH_OPER_CYCLE p, R.ETH_OPER_CYCLE_EXT p, R.ETH_OPER_BASE p, R.ETH_OPER_BASE p + 4, R.ETH_GATE_STATUS p] :=
    only_set (F.ETH_GATE_STATUS_PENDING p) _ (by simp [F.ETH_GATE_STATUS_PENDING]) (by decide : 0 + 1 ≤ 32)
      (only_set2 (F.ETH_OPER_BASE_DTIME p) _ (by simp [F.ETH_OPER_BASE_DTIME]) (by simp [F.ETH_OPER_BASE_DTIME])
        (only_set (F.ETH_OPER_CYCLE_EXT_NS p) _ (by simp [F.ETH_OPER_CYCLE_EXT_NS]) (by decide : 0 + 32 ≤ 32)
          (only_set (F.ETH_OPER_CYCLE_NS p) _ (by simp [F.ETH_OPER_CYCLE_NS]) (by decide : 0 + 32 ≤ 32) (only_refl _ _))))
  rw [hrest _ (by simp [R.ETH_GATE_OPER, R.ETH_OPER_CYCLE, R.ETH_OPER_CYCLE_EXT, R.ETH_OPER_BASE, R.ETH_GATE_STATUS]; omega), reg_eq, setReg_regs,
    rreg_rput_same]
  exact Nat.mod_eq_of_lt (rreg_lt _ _)

variable {d p}

theorem gateSwitch_idle (h : d.flag (F.ETH_GATE_STATUS_PENDING p) = false) : d.gateSwitch p = d := if_pos (by simp [h])

theorem gateSwitch_switches (h : d.flag (F.ETH_GATE_STATUS_PENDING p) = true) {ct : Nat} {d0 e : Dev} (hct : ct = d.get (F.ETH_GATE_CT_DTIME p))
    (h0 : d0 = d.reachDtime ct) (he : e = (d0.gateListsTaken p).gateRegsTaken p) : d.gateSwitch p
      = (e.windowsEnd p (d0.gates p (ct - 1)).1 (e.gates p e.dtime).1 (d0.gateAlways p) true).gateShow p (e.gates p e.dtime) := by
  subst he h0 hct
  unfold Dev.gateSwitch
  rw [if_neg (by simp [h])]
  rfl

end

theorem only_reachDtime (d : Dev) (t : Nat) : d.regsOnly (d.reachDtime t) [R.TIME_SLEW_CTRL] := by
  unfold Dev.reachDtime
  split
  · exact only_refl d _
  · exact only_advance d _

/-- Up to the switch itself a port's gate registers read as before the switchover. -/
theorem gateListsTaken_reg (d : Dev) (p : Fin 12) (ct : Nat) {a : Nat} (ha : R.ETH_GATE_ADMIN p ≤ a) (hb : a ≤ R.ETH_GATE_CT p + 4) :
    ((d.reachDtime ct).gateListsTaken p).reg a = d.reg a := by
  have hlow : ∀ b ∈ R.TIME_SLEW_CTRL :: gateListRegs, b < 0xA00000 ∨ 0xA14000 ≤ b := by decide +kernel
  have hrange : 0xA00000 ≤ a ∧ a < 0xA14000 := by
    have := p.isLt
    simp only [R.ETH_GATE_ADMIN, R.ETH_GATE_CT] at ha hb
    omega
  have hfar : a ∉ R.TIME_SLEW_CTRL :: gateListRegs := fun hm => by
    have := hlow a hm
    omega
  rw [(gateListsTaken_moved _ _).regs _ (fun hm => hfar (List.mem_cons_of_mem _ hm)),
    only_reachDtime d ct _ (fun hm => hfar (by rw [List.mem_singleton.mp hm]; exact List.mem_cons_self))]

theorem gateListsTaken_get (d : Dev) (p : Fin 12) (ct : Nat) (f : FieldRef) (ha : R.ETH_GATE_ADMIN p ≤ f.addr) (hb : f.addr ≤ R.ETH_GATE_CT p) :
    ((d.reachDtime ct).gateListsTaken p).get f = d.get f := by
  unfold Dev.get
  rw [gateListsTaken_reg d p ct ha (by omega), gateListsTaken_reg d p ct (a := f.addr + 4) (by omega) (by omega)]

/-! ### Low-power idle (R260) -/

section
variable {d : Dev} {p : Nat}

theorem lpiEnter_stays (h : d.flag (F.ETH_STEP_CFG_LPI_EN p) = false ∨ d.flag (F.ETH_STEP_STATUS_PARTNER p) = true ∨ d.contractOut p = true
    ∨ d.copiesOn p ≠ [] ∨ d.linkReady p = false) : d.lpiEnter p = d :=
  if_neg (by rcases h with h | h | h | h | h <;> simp [h])

theorem lpiEnter_enters (he : d.flag (F.ETH_STEP_CFG_LPI_EN p) = true) (hr : [25000, 10000, 5000, 1000].contains (d.portRate p) = true)
    (hp : d.flag (F.ETH_STEP_STATUS_PARTNER p) = false) (hc : d.contractOut p = false) (hq : d.copiesOn p = []) (ht : (d.ethPort p).tx = none)
    (hl : d.linkReady p = true) (ha : d.portAvail p = true) : d.lpiEnter p
      = (d.reach ((d.ethPort p).idleAt + atLeastOne (d.get (F.ETH_LPI_IDLE_US p)) * usCyc)).set (F.ETH_STATUS_LPI_TX p) 1 :=
  if_pos (by rw [he, hr, hp, hc, hq, ht, hl, ha]; rfl)

end

/-! ### PLCA beacons (R263) -/

/-- The port's ledger is violated from now on (R69). -/
def Dev.ledgerBroken (d : Dev) (p : Nat) : Dev := { d with anvil := { d.anvil with breakAt := SMap.set d.anvil.breakAt none p (some d.now) } }

section
variable {d : Dev} {p : Nat}

theorem beaconLost_idle (h : d.flag (F.ETH_PLCA_CFG_EN p) = false ∨ d.get (F.ETH_PLCA_CFG_NODE_ID p) = 0 ∨ (d.ethPort p).noBeacon = true) :
    d.beaconLost p = d := if_pos (by rcases h with h | h | h <;> simp [h])

theorem beaconBack_idle (h : d.flag (F.ETH_PLCA_CFG_EN p) = false ∨ d.get (F.ETH_PLCA_CFG_NODE_ID p) = 0 ∨ d.flag (F.ETH_PLCA_STATUS_BEACON_OK p) = true
    ∨ (d.seg p).phyLow = true) : d.beaconBack p = d := if_pos (by rcases h with h | h | h | h <;> simp [h])

variable (hen : d.flag (F.ETH_PLCA_CFG_EN p) = true) (hid : d.get (F.ETH_PLCA_CFG_NODE_ID p) ≠ 0) {d0 d1 d2 d3 : Dev}
include hen hid

theorem beaconLost_loses (hb : (d.ethPort p).noBeacon = false)
    (h0 : d0 = if d.flag (F.ETH_STATUS_LINK p) then ((d.set (F.ETH_STATUS_LINK p) 0).inc (F.ETH_LINK_DOWNS_COUNT p)).fault (blkEth p) 0 else d)
    (h1 : d1 = ((d0.set (F.ETH_PLCA_STATUS_BEACON_OK p) 0).fault (blkEth p) 3).inc (F.ETH_BEACON_LOST_COUNT p))
    (h2 : d2 = (d1.setEthPort p { d1.ethPort p with noBeacon := true }).steEvent 0x06 p 0) :
    d.beaconLost p = (d2.ledgerBroken p).excuse p (fun _ => true) := by
  unfold Dev.beaconLost
  rw [if_neg (by simp [hen, hid, hb])]
  dsimp only
  rw [← h0, ← h1, ← h2]
  rfl

/-- The end of a loss is reported, and the hold of a violated ledger counts from it (R263). -/
theorem beaconBack_returns (hb : d.flag (F.ETH_PLCA_STATUS_BEACON_OK p) = false) (hlow : (d.seg p).phyLow = false)
    (h1 : d1 = d.set (F.ETH_PLCA_STATUS_BEACON_OK p) 1) (h2 : d2 = if (d.ethPort p).noBeacon then d1.steEvent 0x07 p 0 else d1)
    (h3 : d3 = if d2.ledgerFlag p then d2.ledgerBroken p else d2) : d.beaconBack p = d3.linkUp p 0 := by
  have hport : d1.ethPort p = d.ethPort p := by
    rw [h1]
    unfold Dev.ethPort
    rw [set_eth]
  unfold Dev.beaconBack
  rw [if_neg (by simp [hen, hid, hb, hlow])]
  dsimp only
  rw [← h1, hport, ← h2]
  exact congrArg (Dev.linkUp · p 0) h3.symm

end

/-! ### PLCA collisions (R264) -/

section
variable {d : Dev} {p : Nat}

theorem plcaCollision_inactive (h : d.plcaActive p = false) : d.plcaCollision p = d := if_pos (by simp [h])

variable (h : d.plcaActive p = true) {d0 d1 : Dev} (h0 : d0 = (d.inc (F.ETH_PLCA_COLL_COUNT p)).fltSet (blkEth p) 4)
  (h1 : d1 = (d0.ledgerBroken p).excuse p (fun _ => true))
include h h0 h1

theorem plcaCollision_idle (ht : (d1.ethPort p).tx.bind (fun n => d1.fwd.copies.find? (fun c => c.seq == n)) = none) : d.plcaCollision p = d1 := by
  subst h0 h1
  unfold Dev.plcaCollision
  rw [if_neg (by simp [h])]
  unfold Dev.ledgerBroken at *
  dsimp only at *
  rw [ht]

variable {n : Nat} {c : Copy} (hn : (d1.ethPort p).tx = some n) (hc : d1.fwd.copies.find? (fun c => c.seq == n) = some c)
  {d2 : Dev} (h2 : d2 = d1.setEthPort p { d1.ethPort p with tx := none, idleAt := d1.now })
include hn hc h2

theorem plcaCollision_ends : d.plcaCollision p
    = if 16 ≤ c.tries + 1 then d2.dropCopy c .unavail else d2.setCopy { c with tries := c.tries + 1, started := false } := by
  have ht : (d1.ethPort p).tx.bind (fun n => d1.fwd.copies.find? (fun c => c.seq == n)) = some c := by rw [hn]; exact hc
  subst h0 h1 h2
  unfold Dev.plcaCollision
  rw [if_neg (by simp [h])]
  unfold Dev.ledgerBroken at *
  dsimp only at *
  rw [ht]

theorem plcaCollision_retries (hk : c.tries < 15) : d.plcaCollision p = d2.setCopy { c with tries := c.tries + 1, started := false } :=
  (plcaCollision_ends h h0 h1 hn hc h2).trans (if_neg (by omega))

theorem plcaCollision_drops (hk : 15 ≤ c.tries) : d.plcaCollision p = d2.dropCopy c .unavail :=
  (plcaCollision_ends h h0 h1 hn hc h2).trans (if_pos (by omega))

end

/-! ### MDIO (R265) -/

/-- The transaction is over: GO reads 0. -/
def Dev.mdioOver (d : Dev) : Dev := ({ d with eth := { d.eth with mdio := none } }).set F.ETHC_MDIO_CMD_GO 0

section
variable {d : Dev}

theorem mdioEnd_idle (a : Option Nat) (h : d.eth.mdio = none) : d.mdioEnd a = d := by
  unfold Dev.mdioEnd
  rw [h]

variable {m : Mdio} (h : d.eth.mdio = some m)
include h

theorem mdioEnd_read (a : Option Nat) (hm : m.op % 2 = 1) : d.mdioEnd a = d.mdioOver.set F.ETHC_MDIO_DATA_DATA (a.getD 0xFFFF % 65536) := by
  unfold Dev.mdioEnd
  rw [h]
  exact if_pos (by rw [hm]; rfl)

theorem mdioEnd_write (a : Option Nat) (hm : m.op % 2 ≠ 1) : d.mdioEnd a = d.mdioOver := by
  unfold Dev.mdioEnd
  rw [h]
  exact if_neg (by simpa using hm)

end

section
variable (d : Dev)

theorem mdioOver_go : d.mdioOver.flag F.ETHC_MDIO_CMD_GO = false := flag_set_zero _ F.ETHC_MDIO_CMD_GO rfl (by decide)

theorem mdioOver_data : d.mdioOver.get F.ETHC_MDIO_DATA_DATA = d.get F.ETHC_MDIO_DATA_DATA := get_set_apart _ _ (by decide)

theorem mdioOver_mdio : d.mdioOver.eth.mdio = none := by
  unfold Dev.mdioOver
  rw [set_eth]

theorem only_mdioOver : d.regsOnly d.mdioOver [R.ETHC_MDIO_CMD, R.ETHC_MDIO_DATA] :=
  only_set F.ETHC_MDIO_CMD_GO 0 List.mem_cons_self (by decide) (only_of (only_refl d _) rfl)

theorem mdioOver_fwd : d.mdioOver.fwd = d.fwd := by
  unfold Dev.mdioOver
  rw [set_fwd]

theorem mdioOver_flt : d.mdioOver.flt = d.flt := by
  unfold Dev.mdioOver
  rw [set_flt]

end

/-- What a transaction's end leaves, whatever it was. -/
structure MdioEnded (d e : Dev) : Prop where
  go : e.flag F.ETHC_MDIO_CMD_GO = false
  mdio : e.eth.mdio = none
  regs : d.regsOnly e [R.ETHC_MDIO_CMD, R.ETHC_MDIO_DATA]
  fwd : e.fwd = d.fwd
  flt : e.flt = d.flt

theorem mdioEnded_over (d : Dev) : MdioEnded d d.mdioOver := ⟨mdioOver_go d, mdioOver_mdio d, only_mdioOver d, mdioOver_fwd d, mdioOver_flt d⟩

theorem mdioEnded_data (d : Dev) (v : Nat) : MdioEnded d (d.mdioOver.set F.ETHC_MDIO_DATA_DATA v) where
  go := (flag_set_apart _ _ (by decide)).trans (mdioOver_go d)
  mdio := (congrArg EthSt.mdio (set_eth _ _ _)).trans (mdioOver_mdio d)
  regs := only_set F.ETHC_MDIO_DATA_DATA v (List.mem_cons_of_mem _ (List.mem_singleton_self _)) (by decide) (only_mdioOver d)
  fwd := (set_fwd _ _ _).trans (mdioOver_fwd d)
  flt := (set_flt _ _ _).trans (mdioOver_flt d)

/-! ### The obligation -/

/-- Settles O23, command by command from the rules above. That a PHY which does not answer is read as 0xFFFF (log 38), that a follower's link
goes down with its beacon while its egress goes on (log 75) and that a target below FLOOR is turned back (log 76) are the model's readings. -/
theorem linksAndGates : Obligations.LinksAndGates := by
  unfold Obligations.LinksAndGates
  refine ⟨?linkUp, ?linkDown, ?verify, ?event, fun s p g hg => ⟨gateRead_closed hg, gateRead_reads hg⟩, fun d p old new always cycle => rfl, ?switch, ?idle,
    ?beacon, ?mdio⟩
  case linkUp =>
    intro s p k x re hx hre
    refine ⟨fun hq h => next_settle_of_eq hq (linkUp_unready h), fun hl hp hlow hiso => ⟨fun h4 h12 hk => ?_, fun h12 hq hen hid hb => ?_, fun d1 h1 => ⟨?t1s, ?eth⟩⟩⟩
    · exact next_settle_congr s (linkUp_mismatch hl hp hlow hiso hx hre h4 h12 hk)
    · exact next_settle_of_eq hq (linkUp_noBeacon hl hp hlow hiso h12 hen hid hb)
    case t1s =>
      intro h12 hb
      have hshows : d1.showsLink p := h1 ▸ showsLink_set s.dev p _
      exact ⟨next_settle_congr s (linkUp_plca hl hp hlow hiso hx h1 h12 hb), hshows⟩
    case eth =>
      intro h12 hk d2 d3 h2
      refine ⟨fun hr hv ht => next_settle_congr s (linkUp_turnsBack hl hp hlow hiso hx hre h12 hk hr hv ht), fun hfloor h3 d4 d5 h4 h5 => ?_⟩
      have hup := linkUp_comesUp hl hp hlow hiso hx h1 hre h12 hk hfloor h2 h3 h4 h5
      have hshows : d3.showsLink p := by
        rw [h3, h2, h1]
        exact showsLink_retrained re x (showsLink_mismatch 0 (showsLink_set s.dev p _))
      exact ⟨fun h => next_settle_congr s (hup.trans (congrArg (Dev.wakeSeen · p 6) (if_neg (by rcases h with h | h <;> simp [h])))),
        fun hr hn => next_settle_congr s (hup.trans (congrArg (Dev.wakeSeen · p 6) (if_pos (by rw [hr, hn]; rfl)))), hshows⟩
  case linkDown =>
    intro s p d0 d1 d2 h0
    refine ⟨fun hq hl hb => next_settle_of_flt hq (ethDown_down h0 hl hb) (by rw [h0, setEthPort_flt]),
      fun hl hb => next_settle_congr s (ethDown_follower h0 hl hb), fun hl h1 h2 => ⟨h1 ▸ linkDown_shows d0 p, fun h12 => ?_, fun h12 => ?_, fun hpart => ?_⟩⟩
    · exact next_settle_congr s (ethDown_eth h0 hl h1 h2 h12)
    · exact next_settle_congr s (ethDown_t1s h0 hl h1 h2 h12)
    · refine partCut_none ?_
      rw [h1, h0]
      unfold Dev.part at *
      rwa [set_fwd, set_fwd, set_fwd, setEthPort_fwd]
  case verify =>
    refine fun s p hq => ⟨fun h => ⟨next_settle_of_eq hq (verifyOk_idle h), next_settle_of_eq hq (verifyTimeout_idle h)⟩, fun h => ⟨?_, fun d1 h1 => ⟨fun ht => ?_, fun ht => ?_⟩⟩⟩
    · exact ⟨_, next_settle_of_flt hq (verifyOk_ends h) (by simp only [set_flt]), verified_shows s.dev p rfl⟩
    · exact next_settle_congr s (verifyTimeout_fails h h1 ht)
    · exact next_settle_congr s (verifyTimeout_retries h h1 ht)
  case event =>
    exact fun s p d d0 d1 x0 x hd hx0 h0 hx h1 => next_settle_congr s ((gateEvent_shows hd hx0 h0 hx h1).trans (gateShow_eq d1 p x))
  case switch =>
    refine fun s p => ⟨fun hq h => next_settle_of_eq hq (gateSwitch_idle h), fun h ct d0 hct h0 =>
      ⟨(d0.gateListsTaken p).gateRegsTaken p, next_settle_congr s (gateSwitch_switches h hct h0 rfl), ?fwd, ?time, gateRegsTaken_pending _ _, ?oper, ?cycle, ?ext, ?base⟩⟩
    case fwd => exact (gateRegsTaken_fwd _ _).trans (gateListsTaken_moved d0 p).fwd
    case time => exact (gateRegsTaken_time _ _).trans (gateListsTaken_moved d0 p).time
    case oper =>
      rw [gateRegsTaken_oper, h0]
      exact gateListsTaken_reg s.dev p ct (Nat.le_refl _) (by simp only [R.ETH_GATE_ADMIN, R.ETH_GATE_CT]; omega)
    case cycle =>
      rw [gateRegsTaken_cycle, h0]
      refine gateListsTaken_get s.dev p ct _ ?_ ?_ <;> simp only [F.ETH_ADMIN_CYCLE_NS, R.ETH_ADMIN_CYCLE, R.ETH_GATE_ADMIN, R.ETH_GATE_CT] <;> omega
    case ext =>
      rw [gateRegsTaken_ext, h0]
      refine gateListsTaken_get s.dev p ct _ ?_ ?_ <;> simp only [F.ETH_ADMIN_CYCLE_EXT_NS, R.ETH_ADMIN_CYCLE_EXT, R.ETH_GATE_ADMIN, R.ETH_GATE_CT] <;> omega
    case base =>
      rw [gateRegsTaken_base, h0]
      refine gateListsTaken_get s.dev p ct _ ?_ ?_ <;> simp only [F.ETH_ADMIN_BASE_DTIME, R.ETH_ADMIN_BASE, R.ETH_GATE_ADMIN, R.ETH_GATE_CT] <;> omega
  case idle =>
    refine fun s p hq => ⟨fun h => next_settle_of_eq hq (lpiEnter_stays h), fun he hr hp hc hcopies ht hl ha =>
      ⟨_, next_settle_of_flt hq (lpiEnter_enters he hr hp hc hcopies ht hl ha) ((set_flt _ _ _).trans (reach_flt _ _)),
        flag_set_one _ _ rfl (by decide : 4 + 1 ≤ 64), (set_fwd _ _ _).trans (reach_fwd _ _)⟩⟩
  case beacon =>
    rintro s q p rfl
    refine ⟨fun hq h => ⟨next_settle_of_eq hq (beaconLost_idle ?_), next_settle_of_eq hq (beaconBack_idle ?_)⟩, fun hen hid => ⟨fun hq h => ?_, fun hq hb => ?_,
      fun hb d0 d1 d2 h0 h1 h2 => ?_, fun hb hlow d1 d2 d3 h1 h2 h3 => ?_⟩, fun hq h => next_settle_of_eq hq (plcaCollision_inactive h),
      fun h d0 d1 h0 h1 => ⟨fun ht => ?_, fun n ht hn => ?_, fun n c ht hc d2 h2 => ⟨fun hk => ?_, fun hk => ?_⟩⟩⟩
    · exact h.imp_right .inl
    · exact h.imp_right .inl
    · exact next_settle_of_eq hq (beaconBack_idle (.inr (.inr h)))
    · exact next_settle_of_eq hq (beaconLost_idle (.inr (.inr hb)))
    · exact next_settle_congr s (beaconLost_loses hen hid hb h0 h1 h2)
    · exact next_settle_congr s (beaconBack_returns hen hid hb hlow h1 h2 h3)
    · exact next_settle_congr s (plcaCollision_idle h h0 h1 (by rw [ht]; rfl))
    · exact next_settle_congr s (plcaCollision_idle h h0 h1 (by rw [ht]; exact hn))
    · exact next_settle_congr s (plcaCollision_retries h h0 h1 ht hc h2 hk)
    · exact next_settle_congr s (plcaCollision_drops h h0 h1 ht hc h2 hk)
  case mdio =>
    refine fun s a hq => ⟨fun h => next_settle_of_eq hq (mdioEnd_idle _ h), fun m h => ?_⟩
    by_cases hm : m.op % 2 = 1
    · obtain ⟨hgo, hmdio, hregs, hfwd, hflt⟩ := mdioEnded_data s.dev ((a.map (fun x => x.val)).getD 0xFFFF % 65536)
      have hdata := get_set_same s.dev.mdioOver F.ETHC_MDIO_DATA_DATA ((a.map (fun x => x.val)).getD 0xFFFF % 65536) (by decide)
      refine ⟨_, next_settle_of_flt hq (mdioEnd_read h _ hm) hflt, hgo, hmdio, fun _ ha => hdata.trans (by rw [ha]; rfl), fun _ v ha => hdata.trans ?_,
        fun hn => absurd hm hn, hregs, hfwd⟩
      rw [ha]
      exact (Nat.mod_mod _ _).trans (Nat.mod_eq_of_lt v.isLt)
    · obtain ⟨hgo, hmdio, hregs, hfwd, hflt⟩ := mdioEnded_over s.dev
      exact ⟨_, next_settle_of_flt hq (mdioEnd_write h _ hm) hflt, hgo, hmdio, fun hn => absurd hn hm, fun hn => absurd hn hm, fun _ => mdioOver_data s.dev,
        hregs, hfwd⟩

end Sys2Proof.Machine
end
